-- ==== Sys2Proof/Word.lean ====
section
/-! DEFINITION. The word types of the ZH7680 family: every register is 32 bits wide (Registers and
access types, 00_scope), bytes are 8 bits. -/

namespace Sys2Proof

/-- A register or a microword: 32 bits. -/
abbrev Word := BitVec 32

/-- A byte of a packet, of the boot flash or of a sector. -/
abbrev Byte := BitVec 8

/-- A run of bytes: a packet, a sector's user bytes, a decoded information word. -/
abbrev Payload := List Byte

/-- The word of a natural number, modulo 2^32. -/
def w32 (n : Nat) : Word := BitVec.ofNat 32 n

end Sys2Proof
end

