-- ==== Sys2Proof/Syntax.lean ====
section
/-! DEFINITION. The commands of the block: one constructor per row of the table of operations and
events, in the table's order, with the operands the step needs. What comes from outside the device
(samples, decisions of the analogue world, frames, capsules, pin levels, results of the flash) is an
operand; what the device holds is read from the state. Indices follow R8: `t` tile, `c` cluster,
`h` head, `l` lane of the tile, `p` port, `k` sub-port or store page, `z` zone. -/

namespace Sys2Proof

/-- Who makes a register access (R415, R437, R460). -/
inductive Who where
  /-- the management port master -/
  | port
  /-- an association, by controller ID -/
  | assoc (cntlid : Nat)
  /-- a microcoded engine or a block of the device -/
  | engine
  /-- the processor of target `n` of interrupt controller `ic` (0 hub, 1 + t tile) -/
  | core (ic n : Nat)
  deriving DecidableEq, Repr

/-- Why a tile is asked for a sector (R20, R82, R150, R153, R154, R384). -/
inductive ReqKind where
  | host | prefetch | lock | partner | readback | verify | system
  deriving DecidableEq, Repr

/-- A sector request on the request channel (R20 steps 2 to 5). -/
structure MediaReq where
  psa : Nat
  cmd : Nat
  blk : Nat
  kind : ReqKind
  cap : Nat
  deriving DecidableEq, Repr

/-- The converters of the spindle power stage in one tick (R256, R258). -/
structure SpinIn where
  iu : Int
  iv : Int
  iw : Int
  vu : Nat
  vv : Nat
  vw : Nat
  vbus : Nat
  deriving DecidableEq, Repr

/-- A frame that reaches a sub-port (R302, R303, R305 to R307). -/
structure RxFrame where
  /-- the frame touches an uncorrectable FEC codeword -/
  fecBad : Bool
  /-- FEC symbols corrected while it arrived -/
  fecCorr : Nat
  /-- uncorrectable codewords met -/
  fecUnc : Nat
  /-- it is an IEEE 802.3 PAUSE frame -/
  pause : Bool
  /-- its destination: the IP address as 16 bytes, the VLAN (0: untagged) and the UDP port -/
  dst : Nat
  vlan : Nat
  udp : Nat
  prio : Nat
  bytes : Nat
  ce : Bool
  qp : Nat
  /-- the opcode and the packet sequence number of its transport header (entry 131) -/
  op : Nat
  psn : Nat
  deriving DecidableEq, Repr

/-- An NVMe or Fabrics command capsule (R307, R310): the 16 dwords that matter, the SGL kind
(0 keyed address, 1 in-capsule offset, 2 anything else) and length, and the data carried or fetched. -/
structure Capsule where
  opcode : Nat
  fctype : Nat
  cid : Nat
  nsid : Nat
  cdw10 : Nat
  cdw11 : Nat
  cdw12 : Nat
  cdw13 : Nat
  cdw14 : Nat
  cdw15 : Nat
  sglKind : Nat
  sglLen : Nat
  sglAddr : Nat
  sglKey : Nat
  data : Payload
  deriving DecidableEq, Repr

/-- The addresses and private data of a connection request (R309, R312). -/
structure CmReq where
  /-- the address that it names -/
  addr : Nat
  /-- the path MTU that the host proposes, in bytes (R308) -/
  mtu : Nat
  qid : Nat
  cntlid : Nat
  hsqsize : Nat
  hrqsize : Nat
  port : Nat
  sub : Nat
  /-- the host's first packet sequence number -/
  psn : Nat
  deriving DecidableEq, Repr

/-- One protected unit as read from a store: its address (store ID in bits 47:40) and its 36
symbols (R391, R392). -/
structure EccRead where
  addr : Nat
  symbols : List Nat
  deriving DecidableEq, Repr

/-- The commands. -/
inductive Instr where
  | registerWrite (who : Who) (addr : Nat) (w : Word)
  | rcCounterRead (addr : Nat) (events : List Nat)
  | flitReceive (t e : Nat) (f : Payload) (isNak : Bool)
  | linkAckTimeout (t : Nat)
  | linkTrained (t : Nat) (ok : Bool)
  | mgmtAccessTimeout (t : Nat)
  | paceMeasure (ratio : Nat)
  | tileEvent (t : Nat)
  | mediaRequest (t : Nat)
  | captureStart (t c h : Nat) (passed : Bool)
  | captureEnd (t c h : Nat) (a b : List Int)
  | wedgeSpanHold (t l : Nat)
  | phaseErrorWindow (t l : Nat) (errs : List Int)
  | asperityBegin (t l pos : Nat) (last : List Int)
  | asperityEnd (t l pos : Nat) (last : List Int)
  | laneSleep (t l : Nat)
  | laneWakeDone (t l : Nat)
  | trainingPassEnd (t c z : Nat) (passes : List (List (List Int)))
  | laneTapWrite (t l k : Nat) (w : Word)
  | decodeResult (t job : Nat)
  | pinExpire (t c h : Nat)
  | formatterResult (t : Nat)
  | sectorSend (t : Nat)
  | redetect (t : Nat) (us : List EccRead)
  | frameb (t : Nat) (us : List EccRead)
  | realign (t : Nat) (us : List EccRead)
  | partner (t : Nat) (us : List EccRead)
  | save (t : Nat)
  | combine (t : Nat)
  | free (t : Nat)
  | release (t : Nat)
  | hres (t ctx : Nat)
  | rres (t ctx : Nat)
  | cipherDecrypt (t : Nat)
  | cipherEncrypt
  | sectorLanding (rd : EccRead) (us : List EccRead)
  | rdmaDataSend (i b : Nat) (us : List EccRead)
  | readCompletion (cmd : Nat)
  | sectorEncode (t : Nat)
  | serialiserTake (t c h : Nat) (late : Bool)
  | writeBurstStart (t c h : Nat)
  | writeBurstEnd (t c h : Nat)
  | encroachReadback (t : Nat)
  | verifyRead (t c h : Nat)
  | partnerRead (t c h : Nat)
  | partnerRewrite (t c h : Nat)
  | writeHeat (t c h : Nat)
  | writeRunEnd (t c h : Nat)
  | writeResult (t : Nat)
  | armFrameSlot (t c : Nat)
  | statusFrame (t c : Nat) (frame : BitVec 64)
  | faultFrame (t c : Nat) (frame : BitVec 64)
  | replyFrame (t c : Nat) (frame : BitVec 64)
  | armLinkRestart (t c : Nat)
  | armLinkTrainStep (t c : Nat) (pass : List Bool)
  | preampTempPoll (t c : Nat)
  | paccGo (t c : Nat) (w : Word)
  | faultLatchClear (t c k : Nat) (w : Word)
  | ladderEntry (t : Nat)
  | bookingStart (t c h : Nat)
  | bookingEnd (t c h : Nat)
  | tagFailureReturn (t : Nat)
  | deadlineInstant (cmd : Nat)
  | refaultWindowEnd (t c kind h : Nat)
  | retirementMirrored (t : Nat)
  | retirementFlashCopy (ok : Bool)
  | servoWedge (t c h r : Nat) (first : Int) (samples : List Int)
  | headRecord (t c h : Nat)
  | pilotRecord (t c : Nat)
  | seekCommand (t c track : Nat)
  | pairAdvance (t c : Nat)
  | loadRequest (t c track : Nat)
  | loadTimeout (t c : Nat)
  | parkRequest (t c : Nat)
  | parkStopReached (t c : Nat)
  | parkHoldEnd (t c : Nat)
  | parkTimeout (t c : Nat)
  | lostContribution (t c : Nat)
  | lostWaitEnd (t c : Nat)
  | coefficientWrite (t c loop sec i : Nat) (w : Word)
  | sectionControlWrite (t c loop sec : Nat) (w : Word)
  | usefbWrite (t c loop : Nat) (on : Bool)
  | wolfRearm (t c h : Nat)
  | wolfstClear (t c : Nat) (w : Word)
  | pwmPeriod (t c : Nat) (current vdiff : Int)
  | vcfltFall (t c : Nat)
  | vcfltReenable (t c : Nat)
  | retractDriveEnd (t c : Nat)
  | retractBrakeEnd (t c : Nat)
  | spindleTick (t : Nat) (i : SpinIn)
  | speedLoopStep (t : Nat)
  | spfltFall (t : Nat)
  | runSet (t : Nat)
  | runClear (t : Nat)
  | measureEnd (t : Nat)
  | brakeMeasure (t : Nat)
  | alignEnd (t : Nat)
  | rampTimeout (t : Nat)
  | startRetry (t : Nat)
  | recatchMeasureEnd (t : Nat)
  | recatchHoldEnd (t : Nat)
  | stopBrakeEnd (t : Nat)
  | pfailFall
  | pfailRise
  | spindleRunCommand (t : Nat)
  | spindleStopCommand (t : Nat)
  | resetFails (t : Nat)
  | ucsLoad (e : Nat)
  | seal (e : Nat)
  | swap (e : Nat)
  | ucsRevert (e : Nat)
  | cancel (e : Nat)
  | ucsDataWrite (e : Nat) (w : Word)
  | ucsDataRead (e : Nat)
  | swapEffect (e : Nat)
  | nop (e th : Nat)
  | add (e th : Nat)
  | sub (e th : Nat)
  | and (e th : Nat)
  | or (e th : Nat)
  | xor (e th : Nat)
  | shl (e th : Nat)
  | shr (e th : Nat)
  | sar (e th : Nat)
  | mul (e th : Nat)
  | slt (e th : Nat)
  | sltu (e th : Nat)
  | min (e th : Nat)
  | max (e th : Nat)
  | addi (e th : Nat)
  | andi (e th : Nat)
  | ori (e th : Nat)
  | lui (e th : Nat)
  | shli (e th : Nat)
  | shri (e th : Nat)
  | sari (e th : Nat)
  | mac (e th : Nat)
  | msu (e th : Nat)
  | aclr (e th : Nat)
  | aout (e th : Nat)
  | beq (e th : Nat)
  | bne (e th : Nat)
  | blt (e th : Nat)
  | bge (e th : Nat)
  | jmp (e th : Nat)
  | call (e th : Nat)
  | ret (e th : Nat)
  | endThread (e th : Nat)
  | ldr (e th : Nat)
  | str (e th : Nat)
  | lds (e th : Nat)
  | sts (e th : Nat)
  | wait (e th : Nat)
  | fault (e th : Nat)
  | treq (th : Nat)
  | breq (th : Nat)
  | cpl (th : Nat)
  | rdma (th : Nat)
  | owlPost (th : Nat)
  | tileResponse (th : Nat) (d1 d2 : Word)
  | bufferResponse (th : Nat) (d1 d2 : Word)
  | rdmaResponse (th : Nat) (d1 d2 : Word)
  | dispatchTimerTick
  | setp (t c : Nat)
  | pred (t c : Nat)
  | vcmd (t c : Nat)
  | ctlMode (t c : Nat)
  | frep (t c : Nat)
  | iref (t : Nat)
  | vvec (t : Nat)
  | spnState (t : Nat)
  | retract (t : Nat)
  | spflt (t : Nat)
  | book (t ctx : Nat)
  | accept (t ctx : Nat)
  | drop (t ctx : Nat)
  | step (t ctx : Nat)
  | slot (t ctx : Nat)
  | frameReceive (p k : Nat) (f : RxFrame)
  | arpRequest (p k addr : Nat)
  | neighborSolicitation (p k addr : Nat)
  | icmpEcho (p k addr : Nat)
  | pcsAlignmentLoss (p k : Nat)
  | pcsRealigned (p k : Nat)
  | pfcRefresh (p k prio : Nat)
  | pfcFrame (p k prio quanta : Nat)
  | cnpReceive (p k qp : Nat)
  | rateRecovery (qp : Nat)
  | ackReceive (qp psn : Nat)
  | nakReceive (qp : Nat) (kind psn : Nat)
  | ackTimeout (qp : Nat)
  | rdmaReadResponse (cmd blk : Nat) (data : Payload)
  | capsuleReceive (qp : Nat) (cap : Capsule)
  | cmReq (r : CmReq)
  | cmRtu (qp : Nat)
  | cmDreq (qp : Nat)
  | cmDrep (qp : Nat)
  | cmRej (qp : Nat)
  | cmMra (qp : Nat)
  | keepAliveTimeout (cntlid : Nat)
  | pdownTimeout (p k : Nat)
  | capsuleAdmit (qp : Nat)
  | qfullTimeout (qp : Nat)
  | orderingTurn (cmd : Nat)
  | invalidationScanDone (cmd : Nat)
  | read (cmd : Nat) (t1 t2 : Option EccRead)
  | write (cmd : Nat)
  | writeZeroes (cmd : Nat)
  | zoneAppend (cmd : Nat)
  | flush (cmd : Nat)
  | datasetManagement (cmd : Nat)
  | zoneOpen (cmd : Nat)
  | zoneClose (cmd : Nat)
  | zoneFinish (cmd : Nat)
  | zoneReset (cmd : Nat)
  | zoneOffline (cmd : Nat)
  | reportZones (cmd : Nat)
  | extendedReportZones (cmd : Nat)
  | identify (cmd : Nat)
  | getLogPage (cmd : Nat)
  | numberOfQueues (cmd : Nat)
  | volatileWriteCache (cmd : Nat)
  | readDeadline (cmd : Nat)
  | getFeatures (cmd : Nat)
  | createIoCompletionQueue (cmd : Nat)
  | createIoSubmissionQueue (cmd : Nat)
  | deleteIoSubmissionQueue (cmd : Nat)
  | deleteIoCompletionQueue (cmd : Nat)
  | abort (cmd : Nat)
  | namespaceCreate (cmd : Nat)
  | namespaceDelete (cmd : Nat)
  | namespaceAttach (cmd : Nat)
  | namespaceDetach (cmd : Nat)
  | blankingDone (nsid : Nat)
  | nsTableFlashWrite (ok : Bool)
  | zonePointerRecord (nsid zone j : Nat)
  | connect (cmd : Nat)
  | propertyGet (cmd : Nat)
  | propertySet (cmd : Nat)
  | disconnect (cmd : Nat)
  | authenticationSend (cmd : Nat)
  | authenticationReceive (cmd : Nat)
  | queueReset (cmd : Nat)
  | queueResetComplete (qp : Nat)
  | placementMap (cmd : Nat)
  | retireCommand (cmd : Nat)
  | reinstateCommand (cmd : Nat)
  | retirementMap (cmd : Nat)
  | managementSend (cmd : Nat)
  | managementReceive (cmd : Nat)
  | frameAvailable
  | evictionEnd (copy : Nat)
  | cleanDelayExpire (nsid lba : Nat)
  | cleanerIssue (us : List EccRead)
  | lockLines (w : Word)
  | unlockLines (w : Word)
  | invall
  | staleClear (i : Nat) (w : Word)
  | woodpeckerBurst (units : List EccRead) (tag1 tag2 map : Option EccRead) (overwritten : Bool)
  | woodpeckerSlow
  | keyLoad (who : Who) (sett slot : Nat)
  | slotErase (who : Who) (sett slot : Nat)
  | eraseall
  | keyEraseNLow (ns : Nat)
  | temperatureAlarm (decidegrees : Int)
  | glitchTrip (rail : Nat) (millivolts : Nat) (ns : Nat)
  | testOperation (who : Who) (sett : Nat)
  | journalWriteDone (sett slot : Nat) (ok : Bool)
  | journalRetry (sett slot : Nat)
  | irqSourceEvent (ic n id : Nat)
  | irqLevelFall (ic n id : Nat) (withdrawn : Bool)
  | claim (who : Who) (ic n : Nat)
  | complete (who : Who) (ic n : Nat) (id : Nat)
  | stackClear (ic n : Nat)
  | sourceConfigWrite (ic n id : Nat) (w : Word)
  | doorbell (ic n : Nat) (w : Word)
  | irqTimerExpire (ic n : Nat)
  | moderationTimeout (ic n : Nat)
  | targetIdle (ic n : Nat)
  | send (packet : Payload)
  | fetch (whole : Bool)
  | poll
  | ident (tag : Nat) (param : Payload)
  | regRead (tag : Nat) (param : Payload)
  | regWrite (tag : Nat) (param : Payload)
  | stageClear (tag : Nat) (param : Payload)
  | stageWrite (tag : Nat) (param : Payload)
  | stageRead (tag : Nat) (param : Payload)
  | commit (tag : Nat) (param : Payload)
  | revert (tag : Nat) (param : Payload)
  | version (tag : Nat) (param : Payload)
  | retire (tag : Nat) (param : Payload)
  | reinstate (tag : Nat) (param : Payload)
  | maintEnter (tag : Nat) (param : Payload)
  | maintLeave (tag : Nat) (param : Payload)
  | calib (tag : Nat) (param : Payload)
  | keyErase (tag : Nat) (param : Payload)
  | power (tag : Nat) (param : Payload)
  | resetStart
  | hubSoftReset
  | tileReset (t : Nat)
  | agreementCheck
  | optimeWrite (ok : Bool)
  | flashOperationDone (ok : Bool)
  | owlEvent (code die unit status cause d0 d1 : Nat) (fromTile : Bool)
  | mergeWindowEnd (i : Nat)
  | owlClear
  | firmwareRecord (w : Word)
  | cursorWrite (w : Word)
  | windowReadAdvance
  | powerOn
  | porstN (ns : Nat)
  | warmN (ns : Nat)
  | bootStep (ok : Bool)
  | tileBringInStep (t : Nat) (ok : Bool) (copies : List (Nat × Payload))
  | powerTransitionStep (t : Nat)
  | idleReturn (t : Nat)
  | laneIdleSleep (t l : Nat)
  | wakeN (ns : Nat)
  | wakeTimer
  | testEnable (high : Bool)
  | tapReset
  | extest
  | samplePreload (captured loaded : List Bool)
  | idcode
  | highz
  | clamp
  | bypass (code : Nat)
  | hist (t ctx : Nat)
  | ignoredTransaction (first : Nat)
  | pfcPauseExpire (p k prio : Nat)
  | rnrTimerExpire (qp : Nat)
  | keyEraseNRelease
  | temperatureAlarmClear (decidegrees : Int)
  | supplyLoss (orderly : Bool)
  | owlRecordComplete
  | keepAlive (cmd : Nat)
  | asynchronousEventRequest (cmd : Nat)
  deriving DecidableEq, Repr

end Sys2Proof
end

