-- ==== Sys2Proof/Machine/Bits.lean ====
section
/-! DEFINITION. Bit fields of a 32-bit word, signed fields, saturation and byte order (big-endian in
packets and images: R451, R463). Field positions are written high:low as the manual writes them. -/

namespace Sys2Proof

/-- Bits `hi:lo` of a word, as a number. -/
def fld (w : Word) (hi lo : Nat) : Nat := (w.toNat >>> lo) % 2 ^ (hi + 1 - lo)

/-- Bit `i` of a word. -/
def bitAt (w : Word) (i : Nat) : Bool := w.getLsbD i

/-- A word whose bits `hi:lo` hold `n` modulo the field's width, all others 0. -/
def place (hi lo n : Nat) : Word := w32 ((n % 2 ^ (hi + 1 - lo)) <<< lo)

/-- The mask of bits `hi:lo`. -/
def maskOf (hi lo : Nat) : Word := w32 ((2 ^ (hi + 1 - lo) - 1) <<< lo)

/-- `w` with bits `hi:lo` replaced by `n`. -/
def setFld (w : Word) (hi lo n : Nat) : Word := (w &&& ~~~(maskOf hi lo)) ||| place hi lo n

/-- `w` with bit `i` set or cleared. -/
def setBit (w : Word) (i : Nat) (b : Bool) : Word := setFld w i i (if b then 1 else 0)

/-- The number as a signed value of `n` bits (two's complement). -/
def signedOf (n x : Nat) : Int :=
  let y := x % 2 ^ n
  if y < 2 ^ (n - 1) then (y : Int) else (y : Int) - (2 ^ n : Nat)

/-- Bits `hi:lo` of a word as a signed number. -/
def sfld (w : Word) (hi lo : Nat) : Int := signedOf (hi + 1 - lo) (fld w hi lo)

/-- A signed number as the `n`-bit two's complement pattern (wrapping). -/
def pattern (n : Nat) (x : Int) : Nat := (x % (2 ^ n : Nat)).toNat

/-- `x` limited to `lo`..`hi`. -/
def clampI (lo hi x : Int) : Int := if x < lo then lo else if hi < x then hi else x

/-- `x` limited to `lo`..`hi`. -/
def clampN (lo hi x : Nat) : Nat := if x < lo then lo else if hi < x then hi else x

/-- Saturation to a signed value of `n` bits. -/
def satI (n : Nat) (x : Int) : Int := clampI (-(2 ^ (n - 1) : Nat)) ((2 ^ (n - 1) : Nat) - 1) x

/-- The magnitude of a number. -/
def absI (x : Int) : Nat := x.natAbs

/-- Division rounding to the nearest, halves away from zero. -/
def divRound (x : Int) (d : Nat) : Int :=
  if 0 ≤ x then (2 * x + d) / (2 * d) else -((2 * (-x) + d) / (2 * d))

/-- The bits set in a word, lowest first, among the first `n`. -/
def bitsOf (w : Word) (n : Nat) : List Nat := (List.range n).filter fun i => w.getLsbD i

/-- How many of the first `n` bits are set. -/
def popCount (w : Word) (n : Nat) : Nat := (bitsOf w n).length

/-- The low `n` bytes of a number, the most significant first. -/
def beBytes : Nat → Nat → Payload
  | 0, _ => []
  | n + 1, x => BitVec.ofNat 8 (x / 256 ^ n) :: beBytes n x

/-- The number spelled by bytes, the most significant first. -/
def beNat (bs : Payload) : Nat := bs.foldl (fun a b => a * 256 + b.toNat) 0

/-- The low `n` bytes of a number, the least significant first. -/
def leBytes (n x : Nat) : Payload := (beBytes n x).reverse

/-- The number spelled by bytes, the least significant first. -/
def leNat (bs : Payload) : Nat := beNat bs.reverse

/-- Bytes `i` to `i + n - 1` of a payload; bytes beyond its end are not there. -/
def slice (bs : Payload) (i n : Nat) : Payload := (bs.drop i).take n

/-- The big-endian number at byte `i`, `n` bytes long. -/
def beAt (bs : Payload) (i n : Nat) : Nat := beNat (slice bs i n)

/-- The little-endian number at byte `i`, `n` bytes long. -/
def leAt (bs : Payload) (i n : Nat) : Nat := leNat (slice bs i n)

/-- The bits of a byte, the most significant first. -/
def byteBits (b : Byte) : List Bool := (List.range 8).map fun k => b.getLsbD (7 - k)

/-- The number spelled by bits, the most significant first. -/
def bitsNat (bs : List Bool) : Nat := bs.foldl (fun a b => 2 * a + b.toNat) 0

/-- Bits as bytes, the most significant first; the last byte is filled with zeros. -/
def bitsBytes : Nat → List Bool → Payload
  | 0, _ => []
  | n + 1, bs => BitVec.ofNat 8 (bitsNat (bs.take 8 ++ List.replicate (8 - bs.length) false)) :: bitsBytes n (bs.drop 8)

/-- `n` zero bytes. -/
def zeros (n : Nat) : Payload := List.replicate n 0

/-- The word of four bytes, big-endian. -/
def beWord (bs : Payload) (i : Nat) : Word := w32 (beAt bs i 4)

/-- A list with entry `i` replaced; nothing changes beyond its end. -/
def setNth {α : Type} : List α → Nat → α → List α
  | [], _, _ => []
  | _ :: t, 0, v => v :: t
  | x :: t, n + 1, v => x :: setNth t n v

end Sys2Proof
end

