-- ==== Sys2Proof/Machine/Aes.lean ====
section
/-! DEFINITION. AES-256 (FIPS 197) and Galois/Counter Mode (NIST SP 800-38D), which R408 names for the
sector message (entry 13). Blocks are lists of 16 bytes. -/

namespace Sys2Proof

/-- Multiplication by x modulo x^8 + x^4 + x^3 + x + 1. -/
def aesX (a : Byte) : Byte := if a.getLsbD 7 then (a <<< 1) ^^^ 0x1B#8 else a <<< 1

/-- Multiplication in the field of FIPS 197, over `n` bits of the second factor. -/
def aesMulN : Nat → Byte → Byte → Byte
  | 0, _, _ => 0
  | n + 1, a, b => aesX (aesMulN n a (b >>> 1)) ^^^ (if b.getLsbD 0 then a else 0)

/-- The square. -/
def aesSq (a : Byte) : Byte := aesMulN 8 a a

/-- The inverse a^254, by squaring and multiplying; 0 maps to 0. -/
def aesInv (a : Byte) : Byte :=
  let a2 := aesSq a
  let a3 := aesMulN 8 a2 a
  let a6 := aesSq a3
  let a7 := aesMulN 8 a6 a
  let a14 := aesSq a7
  let a15 := aesMulN 8 a14 a
  let a30 := aesSq a15
  let a31 := aesMulN 8 a30 a
  let a62 := aesSq a31
  let a63 := aesMulN 8 a62 a
  let a126 := aesSq a63
  let a127 := aesMulN 8 a126 a
  aesSq a127

/-- The substitution of one byte: the inverse, then the affine map. -/
def aesSub (a : Byte) : Byte :=
  let b := aesInv a
  b ^^^ b.rotateLeft 1 ^^^ b.rotateLeft 2 ^^^ b.rotateLeft 3 ^^^ b.rotateLeft 4 ^^^ 0x63#8

/-- Two byte strings exclusive-ored. -/
def xorBytes (a b : Payload) : Payload := List.zipWith (fun x y => x ^^^ y) a b

/-- The next key-schedule word (4 bytes) from the words so far, newest first; `i` is its number. -/
def aesNextWord (ws : List Payload) (i : Nat) : Payload :=
  let prev := ws.headD []
  let back := ws.getD 7 []
  let t :=
    if i % 8 = 0 then
      let r := (prev.drop 1 ++ prev.take 1).map aesSub
      xorBytes r ((List.range (i / 8 - 1)).foldl (fun c _ => aesX c) 1 :: zeros 3)
    else if i % 8 = 4 then prev.map aesSub
    else prev
  xorBytes back t

/-- The 60 words of the AES-256 key schedule, newest first. -/
def aesSchedule (key : Payload) : List Payload :=
  let w0 := (List.range 8).foldl (fun ws i => slice key (4 * i) 4 :: ws) []
  (List.range 52).foldl (fun ws i => aesNextWord ws (i + 8) :: ws) w0

/-- Round key `r`: 16 bytes. -/
def aesRoundKey (ws : List Payload) (r : Nat) : Payload :=
  (List.range 4).flatMap fun j => ws.getD (59 - (4 * r + j)) []

/-- ShiftRows: byte r + 4c comes from column c + r. -/
def aesShift (b : Payload) : Payload :=
  (List.range 16).map fun i => b.getD ((i + 4 * (i % 4)) % 16) 0

/-- MixColumns of one column. -/
def aesMixCol (c : Payload) : Payload :=
  (List.range 4).map fun i =>
    let a (k : Nat) : Byte := c.getD ((i + k) % 4) 0
    aesX (a 0) ^^^ (aesX (a 1) ^^^ a 1) ^^^ a 2 ^^^ a 3

/-- MixColumns. -/
def aesMix (b : Payload) : Payload := (List.range 4).flatMap fun c => aesMixCol (slice b (4 * c) 4)

/-- One block under an expanded key: 14 rounds. -/
def aesBlockW (ws : List Payload) (b : Payload) : Payload :=
  let st := (List.range 13).foldl
    (fun st r => xorBytes (aesMix (aesShift (st.map aesSub))) (aesRoundKey ws (r + 1)))
    (xorBytes b (aesRoundKey ws 0))
  xorBytes (aesShift (st.map aesSub)) (aesRoundKey ws 14)

/-- AES-256 of one block. -/
def aes256 (key b : Payload) : Payload := aesBlockW (aesSchedule key) b

/-! ### Galois/Counter Mode -/

/-- Multiplication in GF(2^128) of SP 800-38D, block bit 0 the most significant bit; `n` bits of `x`
are left to take, the next being the most significant. -/
def ghMul : Nat → BitVec 128 → BitVec 128 → BitVec 128 → BitVec 128
  | 0, z, _, _ => z
  | n + 1, z, v, x =>
    let z := if x.getLsbD 127 then z ^^^ v else z
    let v := if v.getLsbD 0 then (v >>> 1) ^^^ (0xE1#128 <<< 120) else v >>> 1
    ghMul n z v (x <<< 1)

/-- The block as a number, and back. -/
def blockBits (b : Payload) : BitVec 128 := BitVec.ofNat 128 (beNat b)

/-- One GHASH step. -/
def ghStep (h y : BitVec 128) (b : Payload) : BitVec 128 := ghMul 128 0 h (y ^^^ blockBits b)

/-- A byte string cut into 16-byte blocks, the last padded with zeros; `n` bounds the blocks. -/
def blocks16 : Nat → Payload → List Payload
  | 0, _ => []
  | n + 1, bs => if bs = [] then [] else (bs.take 16 ++ zeros (16 - (bs.take 16).length)) :: blocks16 n (bs.drop 16)

/-- GHASH over the additional data and the ciphertext with their lengths. -/
def ghash (h : BitVec 128) (aad ct : Payload) : BitVec 128 :=
  let y := (blocks16 (aad.length + 1) aad).foldl (ghStep h) 0
  let y := (blocks16 (ct.length + 1) ct).foldl (ghStep h) y
  ghStep h y (beBytes 8 (8 * aad.length) ++ beBytes 8 (8 * ct.length))

/-- The key stream from counter `n` on, as many blocks as asked. -/
def ctrStream (ws : List Payload) (iv : Payload) : Nat → Nat → Payload
  | 0, _ => []
  | k + 1, n => aesBlockW ws (iv ++ beBytes 4 n) ++ ctrStream ws iv k (n + 1)

/-- Encryption or decryption by the counter stream, from block 2. -/
def gcmCrypt (ws : List Payload) (iv bs : Payload) : Payload :=
  xorBytes bs (ctrStream ws iv ((bs.length + 15) / 16) 2)

/-- The tag of a ciphertext: J0 is the IV followed by 1 (R408). -/
def gcmTag (ws : List Payload) (iv aad ct : Payload) : Payload :=
  let h := blockBits (aesBlockW ws (zeros 16))
  beBytes 16 (ghash h aad ct ^^^ blockBits (aesBlockW ws (iv ++ beBytes 4 1))).toNat

/-- Authenticated encryption: ciphertext and tag. -/
def gcmSeal (key iv aad pt : Payload) : Payload × Payload :=
  let ws := aesSchedule key
  let ct := gcmCrypt ws iv pt
  (ct, gcmTag ws iv aad ct)

/-- Authenticated decryption: the plaintext if the tag is correct. -/
def gcmOpen (key iv aad ct tag : Payload) : Option Payload :=
  let ws := aesSchedule key
  if gcmTag ws iv aad ct = tag then some (gcmCrypt ws iv ct) else none

end Sys2Proof
end

