-- ==== Sys2Proof/Machine/Gf.lean ====
section
/-! DEFINITION. The code of memory protection (R391 to R396): GF(256) on 0x11D, the syndromes of a
36-symbol unit, the fold of its address, the classes of a read and the check symbols of a write. -/

namespace Sys2Proof

/-- Multiplication by α = x modulo x^8 + x^4 + x^3 + x^2 + 1 (R391). -/
def gfX (a : BitVec 8) : BitVec 8 := if a.getLsbD 7 then (a <<< 1) ^^^ 0x1D#8 else a <<< 1

/-- Multiplication in GF(256), by the bits of the second factor from the highest. -/
def gfMulN : Nat → BitVec 8 → BitVec 8 → BitVec 8
  | 0, _, _ => 0
  | n + 1, a, b => gfX (gfMulN n a (b >>> 1)) ^^^ (if b.getLsbD 0 then a else 0)

/-- Multiplication in GF(256): Horner's rule over the bits of `b`. -/
def gfMul (a b : BitVec 8) : BitVec 8 := gfMulN 8 a b

/-- α to the power `n`. -/
def gfPow : Nat → BitVec 8
  | 0 => 1
  | n + 1 => gfX (gfPow n)

/-- A power of an element. -/
def gfExp (a : BitVec 8) : Nat → BitVec 8
  | 0 => 1
  | n + 1 => gfMul a (gfExp a n)

/-- The inverse: a^254. -/
def gfInv (a : BitVec 8) : BitVec 8 := gfExp a 254

/-- A syndrome by Horner's rule from the last symbol: the sum of c_i·x^i with x = α^j (R391). -/
def gfSyn (x : BitVec 8) : List (BitVec 8) → BitVec 8
  | [] => 0
  | c :: cs => c ^^^ gfMul x (gfSyn x cs)

/-- The four syndromes of a unit (R391). -/
def syndromes (cs : List (BitVec 8)) : List (BitVec 8) :=
  [gfSyn 1 cs, gfSyn (gfPow 1) cs, gfSyn (gfPow 2) cs, gfSyn (gfPow 3) cs]

/-- A 16-bit rotation left. -/
def rotl16 (x n : Nat) : Nat := (x * 2 ^ n + x / 2 ^ (16 - n)) % 2 ^ 16

/-- The fold of a 48-bit address (R392). -/
def fold16 (a : Nat) : Nat :=
  Nat.xor (Nat.xor (a % 2 ^ 16) (rotl16 (a / 2 ^ 16 % 2 ^ 16) 5)) (rotl16 (a / 2 ^ 32 % 2 ^ 16) 11)

/-- The classes of a read (R393). -/
inductive EccClass where
  | clean
  /-- symbol `i` differs by `e` -/
  | corrected (i : Nat) (e : BitVec 8)
  | poison | location | uncorrectable
  deriving DecidableEq, Repr

/-- Whether a class is one of the uncorrectable ones. -/
def EccClass.bad : EccClass → Bool
  | .clean | .corrected _ _ => false
  | _ => true

/-- The code of a class in Owl records: its row in the table of R393 (entry 12). -/
def EccClass.code : EccClass → Nat
  | .clean => 0 | .corrected _ _ => 1 | .poison => 2 | .location => 3 | .uncorrectable => 4

/-- The place below 36 whose power of α is `x`, if any. -/
def gfLog36 (x : BitVec 8) : Option Nat := (List.range 36).find? fun i => decide (gfPow i = x)

/-- The syndromes after subtracting the fold of the address read (R393). -/
def folded (a : Nat) (cs : List (BitVec 8)) : List (BitVec 8) :=
  match syndromes cs with
  | [s0, s1, s2, s3] =>
    [s0, s1, s2 ^^^ BitVec.ofNat 8 (fold16 a / 256), s3 ^^^ BitVec.ofNat 8 (fold16 a)]
  | l => l

/-- The class of a read from its folded syndromes (R393). -/
def classify : List (BitVec 8) → EccClass
  | [s0, s1, s2, s3] =>
    if s0 = 0 ∧ s1 = 0 ∧ s2 = 0 ∧ s3 = 0 then .clean
    else if s0 ≠ 0 then
      let x := gfMul s1 (gfInv s0)
      match gfLog36 x with
      | some i => if s2 = gfMul s1 x ∧ s3 = gfMul s2 x then .corrected i s0 else .uncorrectable
      | none => .uncorrectable
    else if s1 = 0xA5#8 ∧ s2 = 0 ∧ s3 = 0 then .poison
    else if s1 = 0 then .location
    else .uncorrectable
  | _ => .uncorrectable

/-- The class of a unit's symbols read at an address. -/
def readUnit (a : Nat) (cs : List (BitVec 8)) : EccClass := classify (folded a cs)

/-- The data of a unit after correction. -/
def correctUnit (a : Nat) (cs : List (BitVec 8)) : List (BitVec 8) :=
  match readUnit a cs with
  | .corrected i e => setNth cs i (cs.getD i 0 ^^^ e)
  | _ => cs

/-- Solving for the check symbols: the four values at places 32 to 35 whose contributions to the
syndromes are `t` (a 4 by 4 Vandermonde system over powers of α), by Newton's divided differences. -/
def gfSolve (t : List (BitVec 8)) : List (BitVec 8) :=
  match t with
  | [t0, t1, t2, t3] =>
    let x := [gfPow 32, gfPow 33, gfPow 34, gfPow 35]
    let at_ (i : Nat) : BitVec 8 := x.getD i 0
    -- the symbol at place i: evaluate t against the polynomial that is 1 at x_i and 0 at the others
    (List.range 4).map fun i =>
      let os := (List.range 4).filter fun j => j ≠ i
      let a := at_ (os.getD 0 0)
      let b := at_ (os.getD 1 0)
      let c := at_ (os.getD 2 0)
      let num := gfMul (gfMul a (gfMul b c)) t0 ^^^
        gfMul (gfMul a b ^^^ gfMul a c ^^^ gfMul b c) t1 ^^^ gfMul (a ^^^ b ^^^ c) t2 ^^^ t3
      let den := gfMul (gfMul (at_ i ^^^ a) (at_ i ^^^ b)) (at_ i ^^^ c)
      gfMul num (gfInv den)
  | _ => []

/-- A whole unit of 36 symbols with the wanted syndromes (R392, R396). -/
def encodeUnit (want : List (BitVec 8)) (data : List (BitVec 8)) : List (BitVec 8) :=
  data ++ gfSolve ((List.zipWith (fun a b => a ^^^ b) want (syndromes (data ++ [0, 0, 0, 0]))))

/-- A unit written at an address: syndromes (0, 0, f1, f2) (R392). -/
def writeUnit (a : Nat) (data : List (BitVec 8)) : List (BitVec 8) :=
  encodeUnit [0, 0, BitVec.ofNat 8 (fold16 a / 256), BitVec.ofNat 8 (fold16 a)] data

/-- A unit written poisoned: the POISON syndrome at its own address (R393, R396). -/
def poisonUnit (a : Nat) (data : List (BitVec 8)) : List (BitVec 8) :=
  encodeUnit [0, 0xA5, BitVec.ofNat 8 (fold16 a / 256), BitVec.ofNat 8 (fold16 a)] data

/-- A write of fewer than 32 bytes: read, correct, merge and write back, poisoned when the unit read is
uncorrectable (R396). `new` lists the places and bytes written. -/
def partialWrite (a : Nat) (cs : List (BitVec 8)) (new : List (Nat × BitVec 8)) : List (BitVec 8) :=
  let merged := new.foldl (fun l e => setNth l e.1 e.2) ((correctUnit a cs).take 32)
  if (readUnit a cs).bad then poisonUnit a merged else writeUnit a merged

end Sys2Proof
end

