-- ==== Sys2Proof/Machine/Crc.lean ====
section
/-! DEFINITION. The cyclic redundancy checks: CRC-32C of R456, the header's CRC-16 of R63 and the arm
link's CRC-8 of R161. -/

namespace Sys2Proof

/-- One bit of a reflected CRC-32C: the polynomial 0x1EDC_6F41 reflected is 0x82F6_3B78. -/
def crc32Bit (c : BitVec 32) : BitVec 32 :=
  if c.getLsbD 0 then (c >>> 1) ^^^ 0x82F63B78#32 else c >>> 1

/-- One byte into a CRC-32C. -/
def crc32Byte (c : BitVec 32) (b : Byte) : BitVec 32 :=
  let x := c ^^^ b.setWidth 32
  crc32Bit (crc32Bit (crc32Bit (crc32Bit (crc32Bit (crc32Bit (crc32Bit (crc32Bit x)))))))

/-- CRC-32C over bytes: initial value all ones, final inversion (R456). -/
def crc32c (bs : Payload) : Word := ~~~(bs.foldl crc32Byte 0xFFFFFFFF#32)

/-- One bit of the CRC-16 with polynomial 0x1021, not reflected. -/
def crc16Bit (c : BitVec 16) : BitVec 16 :=
  if c.getLsbD 15 then (c <<< 1) ^^^ 0x1021#16 else c <<< 1

/-- One byte into a CRC-16, most significant bit first. -/
def crc16Byte (c : BitVec 16) (b : Byte) : BitVec 16 :=
  let x := c ^^^ (b.setWidth 16 <<< 8)
  crc16Bit (crc16Bit (crc16Bit (crc16Bit (crc16Bit (crc16Bit (crc16Bit (crc16Bit x)))))))

/-- HCRC: initial value 0xFFFF, no final inversion (R63). -/
def crc16 (bs : Payload) : BitVec 16 := bs.foldl crc16Byte 0xFFFF#16

end Sys2Proof
end

