-- ==== Sys2Proof/Config.lean ====
section
/-! DEFINITION. What the spec leaves open and the model leaves free: constants without a body, of
which no proof can see a value (entry 2 of the log). -/

namespace Sys2Proof

/-- A value the spec states nowhere, applied to the state's counter of free values (entry 2). -/
opaque Config.freeValue : Nat → Word

/-- A byte the spec states nowhere, applied to the counter of free values and its place (entry 2). -/
opaque Config.freeByte : Nat → Nat → Byte

/-- The default microcode image of store `e` in stepping B0 at word `i`, where the manual prints no
word of it (entry 5). -/
opaque Config.defaultWord : Nat → Nat → Word

/-- The circulant shifts of the LDPC scheduler ROM (R61, R137): whether block `n` of the base matrix
holds a circulant and its shift, which the manual does not print (entry 6). -/
opaque Config.circulant : Nat → Option (BitVec 7)

/-- The offset that the decoder takes from a check's least magnitude, in units of its messages: the manual
names offset min-sum and gives no offset (R124, entry 123). -/
opaque Config.minSumOffset : Nat

/-- The step of the training by least mean squares, as the exponent of a power of a half: the manual gives
one for adaptation and none for training (R83, R114, entry 124). -/
opaque Config.trainStep : Nat

/-- The 64-bit check of a Benbor flit over its first 248 bytes, whose polynomial the manual does not give
(R29, entry 125). -/
opaque Config.flitCrc : List Byte → BitVec 64

/-- The bytes of a packet on a channel of a Benbor link, from what it carries: the manual gives the flits and
no packet's form (R29, entry 125). -/
opaque Config.packet : Nat → List Byte → List Byte

/-- The sine table of the drive's ROM in units of 1/32768, by the angle in 1/65536 cycle (entry 7). -/
opaque Config.sine : Nat → Int

/-- The angle of a vector in 1/65536 cycle, the function the observer's ROM computes (entry 7). -/
opaque Config.atan2 : Int → Int → Nat

end Sys2Proof
end

