-- ==== Sys2Proof/Machine/Status.lean ====
section
/-! DEFINITION. The status codes of R16, their NVMe mapping (R322), the drop causes of R186, the
decode statuses of R131 and the part numbers of R1. -/

namespace Sys2Proof

/-- The status codes of R16. -/
inductive Status where
  | ok | partialDrop | badOpcode | badLength | badField | badCrc | unrecovered | retired | deadline
  | authFail | keyErased | nonceExhausted | slotEmpty | queueReset | queueFull | versionMismatch
  | noPrevious | storeBusy | domainOff
  deriving DecidableEq, Repr

/-- The code of a status (R16). -/
def Status.code : Status → Nat
  | .ok => 0x00 | .partialDrop => 0x01
  | .badOpcode => 0x10 | .badLength => 0x11 | .badField => 0x12 | .badCrc => 0x13
  | .unrecovered => 0x20 | .retired => 0x21 | .deadline => 0x22
  | .authFail => 0x30 | .keyErased => 0x31 | .nonceExhausted => 0x32 | .slotEmpty => 0x33
  | .queueReset => 0x40 | .queueFull => 0x41
  | .versionMismatch => 0x50 | .noPrevious => 0x51 | .storeBusy => 0x52
  | .domainOff => 0x60

/-- The status code type of an NVMe completion (R322): 0 for ST_OK, 7 for every other code. -/
def Status.sct : Status → Nat
  | .ok => 0
  | _ => 7

/-- The Do Not Retry bit of an NVMe completion (R322). -/
def Status.dnr : Status → Bool
  | .badOpcode | .badLength | .badField | .badCrc | .retired | .authFail | .keyErased
  | .nonceExhausted | .slotEmpty | .noPrevious => true
  | _ => false

/-- The first status other than ST_OK (R17, R458). -/
def Status.orElse : Status → Status → Status
  | .ok, s => s
  | s, _ => s

/-- The drop causes of R186. -/
inductive Cause where
  | media | auth | deadline | retired | key | tile
  deriving DecidableEq, Repr

/-- The code of a drop cause (R186). -/
def Cause.code : Cause → Nat
  | .media => 1 | .auth => 2 | .deadline => 3 | .retired => 4 | .key => 5 | .tile => 6

/-- The decode and operation statuses of R131. -/
inductive DecSt where
  | conv | fail | syncmiss | absent | gone | abort | badreq | detonly
  deriving DecidableEq, Repr

/-- The code of a decode status (R131). -/
def DecSt.code : DecSt → Nat
  | .conv => 0 | .fail => 1 | .syncmiss => 2 | .absent => 3
  | .gone => 4 | .abort => 5 | .badreq => 6 | .detonly => 7

/-- The results of a write entry (R157). -/
inductive WrSt where
  | written | wfail | skipped | retired
  deriving DecidableEq, Repr

/-- The family members (R1). -/
inductive Part where
  | zh7680 | zh7640 | zh7620 | zh7610
  deriving DecidableEq, Repr

/-- HUB.IDENT[0].PART (R40). -/
def Part.number : Part → Nat
  | .zh7680 => 0x7680 | .zh7640 => 0x7640 | .zh7620 => 0x7620 | .zh7610 => 0x7610

/-- Spindle tiles (R1): tiles 0 to this number less one are present. -/
def Part.tiles : Part → Nat
  | .zh7680 => 8 | .zh7640 => 4 | .zh7620 => 2 | .zh7610 => 1

/-- Host ports enabled (R1). -/
def Part.ports : Part → Nat
  | .zh7680 => 10 | .zh7640 => 6 | .zh7620 => 4 | .zh7610 => 2

/-- HBM stacks of 36 GiB (R1). -/
def Part.stacks : Part → Nat
  | .zh7680 => 4 | .zh7640 => 2 | .zh7620 => 1 | .zh7610 => 1

/-- Buffer frames of 64 KiB (R362). -/
def Part.frames : Part → Nat
  | .zh7680 => 2359296 | .zh7640 => 1179648 | .zh7620 => 589824 | .zh7610 => 589824

/-- Sets of 16 ways (R362). -/
def Part.sets : Part → Nat
  | .zh7680 => 147456 | .zh7640 => 73728 | .zh7620 => 36864 | .zh7610 => 36864

/-- The least and reset value of BUF.CFG.STAGE (R362). -/
def Part.stageMin : Part → Nat
  | .zh7680 => 16 | .zh7640 => 8 | .zh7620 => 4 | .zh7610 => 2

/-- The greatest value of BUF.CFG.STAGE (R362). -/
def Part.stageMax : Part → Nat
  | .zh7680 => 72 | .zh7640 => 36 | .zh7620 => 18 | .zh7610 => 18

/-- The identification code of the boundary scan (R533). -/
def Part.idcode : Part → Word
  | .zh7680 => 0x17680A5F | .zh7640 => 0x17640A5F | .zh7620 => 0x17620A5F | .zh7610 => 0x17610A5F

end Sys2Proof
end

