-- ==== Sys2Proof/Machine/RegMap.lean ====
section
/-! DEFINITION. The register address map of R42 and the register tables of every chapter: for each
register its offsets, access type (R11), reset value, survival class (R14), writable bits and the
ranges of its fields (R108). A row is one line of a register table of the manual. -/

namespace Sys2Proof

/-- The access types of R11. -/
inductive Acc where
  | ro | rw | w1c | wo | rwl | rc
  deriving DecidableEq, Repr

/-- The survival classes of R14. -/
inductive Keep where
  | aon | cfg | vol
  deriving DecidableEq, Repr

/-- The permitted values of one field: bits `hi:lo` lie in one of the intervals. -/
structure Range where
  hi : Nat
  lo : Nat
  ok : List (Nat × Nat)
  deriving DecidableEq, Repr

/-- One line of a register table: the offsets `base + i·s1 + j·s2` for `i < n1`, `j < n2`. -/
structure RegRow where
  base : Nat
  s1 : Nat
  n1 : Nat
  s2 : Nat
  n2 : Nat
  acc : Acc
  keep : Keep
  reset : Word
  /-- the bits a write may set (RW, RWL, WO) or clear (W1C) -/
  mask : Word
  ranges : List Range
  deriving DecidableEq, Repr

/-- Whether an offset is one of the row's. -/
def RegRow.hit (r : RegRow) (o : Nat) : Bool :=
  if o < r.base then false
  else
    let d := o - r.base
    let i := if r.s1 = 0 then 0 else d / r.s1
    let e := d - i * r.s1
    let j := if r.s2 = 0 then 0 else e / r.s2
    decide (i < r.n1) && decide (j < r.n2) && decide (d = i * r.s1 + j * r.s2)

/-- A single register. -/
def reg1 (o : Nat) (a : Acc) (k : Keep) (v m : Nat) (rs : List Range := []) : RegRow :=
  ⟨o, 0, 1, 0, 1, a, k, w32 v, w32 m, rs⟩

/-- An indexed register: `n` of them, `st` apart. -/
def regN (o st n : Nat) (a : Acc) (k : Keep) (v m : Nat) (rs : List Range := []) : RegRow :=
  ⟨o, st, n, 0, 1, a, k, w32 v, w32 m, rs⟩

/-- A doubly indexed register. -/
def regNN (o s1 n1 s2 n2 : Nat) (a : Acc) (k : Keep) (v m : Nat) (rs : List Range := []) : RegRow :=
  ⟨o, s1, n1, s2, n2, a, k, w32 v, w32 m, rs⟩

/-- Whether a word's fields all lie in range (R108). -/
def RegRow.inRange (r : RegRow) (w : Word) : Bool :=
  r.ranges.all fun f => f.ok.any fun iv =>
    decide (iv.1 ≤ fld w f.hi f.lo) && decide (fld w f.hi f.lo ≤ iv.2)

/-! ### The hub's blocks -/

/-- HUB (R40, R202). -/
def rowsHub (p : Part) : List RegRow :=
  [ reg1 0x0 .ro .aon (p.number * 0x10000 + 0xB043) 0,
    reg1 0x4 .ro .aon ((2 ^ p.tiles - 1) * 0x1000000 + (2 ^ p.ports - 1) * 0x4000 + p.stacks) 0,
    reg1 0x10 .ro .vol 0 0,
    regN 0x100 4 8 .ro .vol 0 0,
    regN 0x120 4 8 .rc .vol 0 0,
    regNN 0x1000 64 8 4 16 .ro .aon 0 0,
    reg1 0x1200 .ro .aon 0 0 ]

/-- PWR (R508). -/
def rowsPwr (p : Part) : List RegRow :=
  [ reg1 0x0 .ro .vol 0 0,
    reg1 0x4 .rw .cfg 0x80203C0A 0x8FF0FFFF [⟨27, 24, [(0, 3)]⟩, ⟨23, 20, [(0, 8)]⟩],
    reg1 0x8 .ro .vol (0xFFFFFFFF - (16 ^ p.tiles - 1) + 0x33333333 % 16 ^ p.tiles) 0,
    reg1 0xC .ro .vol 1 0,
    reg1 0x10 .ro .vol 0 0,
    reg1 0x14 .rw .cfg 0x80000000 0x80FFFFFF,
    reg1 0x18 .ro .vol 0 0,
    reg1 0x1C .ro .aon 0 0,
    regN 0x20 4 5 .ro .aon 0 0,
    reg1 0x40 .ro .vol (0xFFFFFFFF - (16 ^ p.tiles - 1)) 0 ]

/-- OWL (R493). -/
def rowsOwl : List RegRow :=
  [ reg1 0x0 .rw .cfg 0x3E8 0x8000FFFF,
    reg1 0x4 .rw .vol 0 0xF [⟨3, 0, [(1, 1)]⟩],
    reg1 0x8 .ro .aon 0 0,
    reg1 0xC .ro .aon 0 0,
    reg1 0x10 .ro .aon 0 0,
    reg1 0x14 .rw .vol 0 0xFFFFFFFF,
    reg1 0x18 .rw .vol 0 1,
    reg1 0x1C .rc .aon 0 0,
    reg1 0x20 .rc .aon 0 0,
    regN 0x40 4 3 .rw .vol 0 0xFFFFFFFF,
    reg1 0x4C .rw .vol 0 0xFFF,
    regN 0x100 4 16 .ro .vol 0 0,
    regNN 0x200 32 16 4 7 .rw .cfg 0 0xFFFFFFFF [⟨1, 1, [(0, 0)]⟩] ]

/-- Whether shared source `i` of the hub is reserved (R433). -/
def hubRsvd (i : Nat) : Bool :=
  !(i ≤ 9 || (16 ≤ i && i ≤ 33) || i = 40 || i = 41 || i = 48 || i = 49 || i = 56 || i = 57 ||
    i = 64 || i = 72 || i = 80 || i = 81 || (88 ≤ i && i ≤ 105) || i = 112)

/-- Whether shared source `i` of the hub is a level source (R433). -/
def hubLevel (i : Nat) : Bool :=
  i ≤ 9 || i = 48 || i = 49 || i = 56 || i = 57

/-- Whether shared source `i` of a tile is reserved (R434). -/
def tileRsvd (i : Nat) : Bool :=
  !(i < 192 || (192 ≤ i && i < 224 && i % 8 ≠ 7) || (224 ≤ i && i ≤ 226) || i = 232 || i = 233 ||
    i = 240 || i = 248 || i = 249 || (256 ≤ i && i ≤ 261) || i = 264 || (272 ≤ i && i ≤ 276))

/-- Whether shared source `i` of a tile is a level source (R434). -/
def tileLevel (i : Nat) : Bool :=
  (192 ≤ i && i < 224 && i % 8 = 5) || i = 225 || i = 264

/-- The reset value of a source register: PRIO 1, TYPE and RSVD per source (R449; entry 8). -/
def srcReset (lev rsvd : Bool) : Nat :=
  0x01000000 + (if lev then 0x20000000 else 0) + (if rsvd then 0x10000000 else 0)

/-- Whether private source ID `n` is reserved (R432). -/
def privRsvd (n : Nat) : Bool := 0x24 ≤ n

/-- Whether private source ID `n` is a level source (R432). -/
def privLevel (n : Nat) : Bool := n = 0x22 || n = 0x23

/-- One interrupt controller with `n` target pages (R448 to R450), at block offset `o`. -/
def rowsIrq (n : Nat) (lev rsvd : Nat → Bool) (o : Nat) : List RegRow :=
  let src (i : Nat) : RegRow :=
    reg1 (0x1000 + 4 * i) .rw .cfg (srcReset (lev i) (rsvd i)) (if rsvd i then 0 else 0xCF00001F)
      [⟨27, 24, [(1, 15)]⟩, ⟨4, 0, [(0, n - 1)]⟩]
  let priv (t k : Nat) : RegRow :=
    reg1 (0x4100 + 0x400 * t + 4 * k) .rw .cfg (srcReset (privLevel (k + 1)) (privRsvd (k + 1)))
      (if privRsvd (k + 1) then 0 else 0xCF000000) [⟨27, 24, [(1, 15)]⟩]
  if 0x1000 ≤ o && o < 0x1800 then [src ((o - 0x1000) / 4)]
  else if 0x4000 ≤ o && 0x100 ≤ o % 0x400 && o % 0x400 < 0x200 && (o - 0x4000) / 0x400 < n then
    [priv ((o - 0x4000) / 0x400) ((o % 0x400 - 0x100) / 4)]
  else
    [ regN 0x100 4 16 .ro .vol 0 0, regN 0x140 4 16 .ro .vol 0 0, regN 0x180 4 16 .ro .vol 0 0,
      regN 0x4000 0x400 n .ro .vol 0 0,
      regN 0x4004 0x400 n .rw .vol 0 0x3FF,
      regN 0x4008 0x400 n .rw .vol 0 0xF,
      regN 0x400C 0x400 n .rw .vol 0 0x80000000,
      regN 0x4010 0x400 n .rw .cfg 0 0xFF0003FF,
      regN 0x4014 0x400 n .w1c .vol 0 0x80000000,
      regN 0x4018 0x400 n .rc .vol 0 0,
      regN 0x401C 0x400 n .rc .vol 0 0,
      regN 0x4020 0x400 n .rw .vol 0 0x1F,
      regN 0x4024 0x400 n .ro .vol 0 0,
      regN 0x4028 0x400 n .rw .vol 0 0xFFFFFFFF ]

/-- MGT (R478). -/
def rowsMgt : List RegRow :=
  [ reg1 0x0 .ro .vol 0 0, reg1 0x4 .ro .cfg 0 0, reg1 0x8 .ro .cfg 0 0, reg1 0xC .ro .cfg 0 0,
    reg1 0x10 .ro .cfg 0 0, reg1 0x14 .ro .vol 0xC0000000 0, reg1 0x18 .ro .aon 0 0,
    reg1 0x1C .ro .vol 0 0, reg1 0x20 .ro .vol 0 0, reg1 0x24 .ro .aon 0x0B05 0,
    reg1 0x28 .ro .vol 0 0, reg1 0x2C .ro .aon 0 0, reg1 0x30 .ro .aon 0 0,
    regN 0x40 4 8 .ro .vol 0 0, reg1 0x60 .rc .vol 0 0, reg1 0x64 .rc .vol 0 0 ]

/-- HPT, one port's page (R324). -/
def rowsHpt : List RegRow :=
  [ reg1 0x0 .ro .cfg 0 0xF3 [⟨1, 0, [(0, 2)]⟩],
    reg1 0x4 .ro .vol 0 0,
    reg1 0x8 .ro .cfg 0 0xFF1FFF03 [⟨12, 8, [(1, 31)]⟩, ⟨1, 0, [(0, 2)]⟩],
    reg1 0xC .ro .cfg 0 0xFFFF00FF,
    reg1 0x10 .ro .cfg 0 0x8FFFFFFF,
    reg1 0x14 .ro .cfg 0 0xFFFFCFFF,
    reg1 0x18 .ro .cfg 0 0xFFFF, reg1 0x1C .ro .cfg 0 0xFFFFFFFF,
    reg1 0x20 .ro .vol 0 0,
    regNN 0x40 0x10 9 4 4 .rc .vol 0 0,
    regNN 0x100 64 4 4 16 .ro .cfg 0 0xFFFFFFFF ]

/-- NQ (R361). -/
def rowsNq : List RegRow :=
  [ reg1 0x0 .rw .cfg 0x00400A00 0xFFFFFF00 [⟨31, 16, [(1, 8192)]⟩],
    reg1 0x4 .ro .vol 0 0, reg1 0x8 .ro .vol 0 0, reg1 0xC .ro .vol 0x2000 0,
    reg1 0x10 .ro .aon 0 0, reg1 0x14 .ro .aon 0 0,
    regN 0x20 4 7 .rc .vol 0 0,
    regNN 0x10000 16 8192 4 4 .ro .vol 0 0,
    regNN 0x40000 32 4096 4 6 .ro .aon 0 0 ]

/-- BUF (R390). -/
def rowsBuf (p : Part) : List RegRow :=
  [ reg1 0x0 .rw .cfg (p.stageMin * 0x1000000 + 0x8C0A00) 0xFFFFFF00
      [⟨31, 24, [(p.stageMin, p.stageMax)]⟩, ⟨23, 20, [(0, 12)]⟩, ⟨19, 16, [(1, 15)]⟩],
    reg1 0x4 .rw .cfg 0x08200040 0xFFF0FFFF [⟨31, 24, [(0, 64)]⟩],
    reg1 0x8 .rw .vol 1 1,
    reg1 0xC .rw .vol 0 0xF [⟨3, 0, [(1, 1)]⟩],
    reg1 0x10 .ro .vol 0 0,
    reg1 0x14 .ro .aon p.frames 0,
    regN 0x18 4 4 .ro .vol 0 0,
    reg1 0x30 .rw .vol 0 0x1FFF [⟨12, 0, [(1, 4096)]⟩],
    reg1 0x34 .rw .vol 0 0xF, reg1 0x38 .rw .vol 0 0xFFFFFFFF,
    reg1 0x3C .rw .vol 0 0x1FFFF [⟨16, 0, [(1, 65536)]⟩],
    reg1 0x40 .rw .vol 0 0xC0000000,
    regN 0x100 4 16 .rc .vol 0 0,
    regN 0x1000 4 768 .w1c .aon 0 0xFFFFFFFF ]

/-- MEMP (R407). -/
def rowsMemp : List RegRow :=
  [ reg1 0x0 .ro .vol 0 0,
    reg1 0x4 .rw .cfg 0x8010003C 0x80FFFFFF [⟨23, 16, [(1, 255)]⟩],
    regN 0x10 4 3 .ro .vol 0 0, regN 0x1C 4 3 .rc .vol 0 0,
    regN 0x100 4 10 .rc .vol 0 0, regN 0x140 4 10 .rc .vol 0 0, regN 0x180 4 3 .rc .vol 0 0,
    regN 0x190 4 3 .ro .vol 0 0 ]

/-- CIPH, the common block (R428). -/
def rowsCiph : List RegRow :=
  [ reg1 0x0 .ro .cfg 0 0x1FFFFF,
    reg1 0x4 .rw .vol 0 0xF [⟨3, 0, [(0xE, 0xE)]⟩],
    reg1 0x8 .w1c .aon 0 0xF, reg1 0xC .ro .aon 0 0,
    regN 0x10 4 5 .rc .vol 0 0, reg1 0x24 .ro .vol 0 0 ]

/-- CIPH, a sett page (R429). -/
def rowsSett : List RegRow :=
  [ regNN 0x0 0x80 8 4 8 .wo .vol 0 0xFFFFFFFF,
    regN 0x20 0x80 8 .rw .vol 0 0xF [⟨3, 0, [(1, 2)]⟩],
    regN 0x24 0x80 8 .ro .vol 0 0, regN 0x28 0x80 8 .ro .vol 0 0,
    regN 0x30 0x80 8 .ro .aon 0 0, regN 0x34 0x80 8 .ro .aon 0 0, regN 0x38 0x80 8 .ro .vol 0 0,
    reg1 0x400 .rw .vol 0 0x107, reg1 0x404 .rw .vol 0 0x80000000, reg1 0x408 .ro .vol 0 0,
    reg1 0x40C .rw .vol 0 0x7F, regN 0x410 4 5 .rw .vol 0 0xFFFFFFFF,
    regN 0x440 4 16 .rw .vol 0 0xFFFFFFFF, regN 0x480 4 4 .rw .vol 0 0xFFFFFFFF,
    reg1 0xF00 .ro .cfg 0 0x800007FF ]

/-- Words per run at reset, UCS.CFG.STEPMAX (R283): dispatch, control, spindle, ladder. -/
def ucsStepMax : Nat → Nat
  | 0 => 64
  | 1 => 96
  | 2 => 512
  | _ => 256

/-- UCS, one store's page (R298): `kind` 0 dispatch, 1 control, 2 spindle, 3 ladder. -/
def rowsUcs (kind : Nat) : List RegRow :=
  [ reg1 0x0 .rw .vol 0 0xF [⟨3, 0, [(1, 5)]⟩],
    reg1 0x4 .ro .vol 0 0,
    reg1 0x8 .rw .cfg (0x80030000 + ucsStepMax kind) 0x80FFFFFF [⟨15, 0, [(1, 4096)]⟩],
    reg1 0xC .rw .vol 0 0x80007FFF, reg1 0x10 .rw .vol 0 0xFFFFFFFF, reg1 0x14 .rw .vol 0 0xFFFFFFFF,
    reg1 0x18 .ro .cfg 0 0, reg1 0x1C .ro .vol 0 0, reg1 0x20 .ro .cfg 0 0,
    reg1 0x24 .rc .vol 0 0, reg1 0x28 .rc .vol 0 0, reg1 0x2C .ro .vol 0 0 ]

/-! ### The tile's blocks -/

/-- TILE (R41, R67, R110, R201, R478). -/
def rowsTile (t : Nat) : List RegRow :=
  [ reg1 0x0 .ro .aon (0xB000 + t) 0, reg1 0x10 .ro .vol 0 0, reg1 0x20 .rc .vol 0 0,
    reg1 0x30 .rc .vol 0 0, reg1 0x40 .ro .cfg 0 0, reg1 0x44 .ro .cfg 0 0, reg1 0x48 .ro .vol 0 0,
    reg1 0x100 .ro .cfg 0 0xFFFFFFFF, reg1 0x104 .ro .cfg 0 0xFFFFFF, reg1 0x108 .ro .vol 0 0,
    reg1 0x10C .ro .cfg 0 0, regN 0x110 4 4 .ro .cfg 0 0xFFFFFFFF,
    regN 0x200 8 32 .ro .cfg 0 0xFFFFFFFF, regN 0x204 8 32 .ro .cfg 0 0xFF003FFF,
    regNN 0x400 32 32 4 5 .ro .cfg 0 0xFFFFFFFF,
    reg1 0x1000 .rw .cfg 0x32200032 0xFFF0FFFF [⟨31, 28, [(1, 7)]⟩, ⟨27, 24, [(0, 7)]⟩, ⟨23, 20, [(0, 7)]⟩],
    reg1 0x1004 .rw .cfg 0x4A0E8800 0xFFFFF800
      [⟨27, 22, [(0, 40)]⟩, ⟨18, 16, [(0, 6)]⟩, ⟨15, 13, [(0, 4)]⟩],
    reg1 0x1008 .rw .cfg 0x0029527B 0xFFFFFF,
    reg1 0x100C .rw .cfg 0x08100A00 0xFFFFFF00 [⟨31, 24, [(0, 24)]⟩],
    reg1 0x1010 .rw .cfg 0x00400100 0xFFFFFFFF, reg1 0x1014 .rw .cfg 0x00400100 0xFFFFFFFF,
    reg1 0x1018 .rw .cfg 0x1040 0xFFFF,
    reg1 0x1020 .ro .vol 0 0, reg1 0x1024 .rc .vol 0 0, reg1 0x1028 .rc .vol 0 0,
    regN 0x1040 4 6 .rc .vol 0 0, regN 0x1060 4 7 .rc .vol 0 0, regN 0x1080 4 7 .rc .vol 0 0,
    regN 0x1100 4 6 .ro .aon 0 0, regN 0x1120 4 3 .ro .aon 0 0, regN 0x1130 4 3 .ro .aon 0 0,
    reg1 0x1140 .ro .aon 0 0 ]

/-- LANE, one lane's page (R108). -/
def rowsLane : List RegRow :=
  [ reg1 0x0 .rw .vol 0 1, reg1 0x4 .ro .vol 0 0, reg1 0x8 .ro .vol 0 0, reg1 0xC .ro .vol 0 0,
    reg1 0x10 .ro .vol 0 0, reg1 0x14 .ro .vol 0 0,
    reg1 0x20 .rw .cfg 0x30405060 0xF0F8F0F8,
    reg1 0x24 .rw .cfg 0xA0280000 0xF8FF0000 [⟨31, 27, [(8, 28)]⟩],
    reg1 0x28 .rw .cfg 0xA1000260 0xFFE00770 [⟨25, 21, [(0, 24)]⟩],
    reg1 0x2C .rw .cfg 0x60080A04 0xF8FFFFFF,
    reg1 0x30 .rw .cfg 0x0E004000 0x1F00FF00 [⟨28, 24, [(0, 0), (8, 31)]⟩],
    reg1 0x34 .ro .vol 0 0, regN 0x40 4 6 .ro .vol 0 0, regN 0x60 4 6 .ro .vol 0 0,
    reg1 0x7C .ro .aon 0 0, regN 0x80 4 3 .rc .vol 0 0,
    reg1 0xFC .rw .vol 0 0x1F07 [⟨2, 0, [(0, 4)]⟩],
    regN 0x100 4 16 .rwl .vol 0 0x3FF ]

/-- DET (R137, R138). -/
def rowsDet : List RegRow :=
  [ reg1 0x0 .rw .cfg 0x80001000 0x80001F00 [⟨12, 8, [(0, 0), (8, 31)]⟩],
    reg1 0x4 .rw .cfg 0x10400606 0xFFFF0F0F
      [⟨31, 24, [(1, 64)]⟩, ⟨23, 16, [(1, 255)]⟩, ⟨11, 8, [(0, 12)]⟩, ⟨3, 0, [(0, 12)]⟩],
    reg1 0x8 .rw .cfg 0x20302004 0xFCF8FF1F
      [⟨31, 26, [(1, 40)]⟩, ⟨23, 19, [(1, 31)]⟩, ⟨15, 8, [(1, 64)]⟩, ⟨4, 0, [(1, 31)]⟩],
    reg1 0xC .rw .cfg 0x32 0xFFFF [⟨15, 0, [(1, 65535)]⟩],
    reg1 0x10 .ro .vol 0 0,
    reg1 0x14 .rw .vol 0 0x1F7F [⟨6, 0, [(0, 95)]⟩],
    reg1 0x18 .ro .vol 0 0,
    reg1 0x1C .rw .vol 0 0x3FFF [⟨13, 0, [(0, 8409)]⟩],
    reg1 0x20 .ro .vol 0 0,
    regN 0x100 4 8 .rc .vol 0 0, regN 0x200 4 40 .rc .vol 0 0 ]

/-- WRT, the common registers (R171). -/
def rowsWrt : List RegRow :=
  [ reg1 0x0 .rw .cfg 0x1A3000C8 0xFFF1FFFF [⟨31, 24, [(1, 255)]⟩],
    regN 0x10 4 8 .rc .vol 0 0 ]

/-- WRT, one cluster's page (R172). -/
def rowsWrtC : List RegRow :=
  [ reg1 0x0 .ro .vol 0 0, reg1 0x4 .rw .cfg 0x00103300 0x00FFFF00,
    reg1 0x8 .rc .vol 0 0, reg1 0xC .rc .vol 0 0, reg1 0x10 .ro .vol 0 0, reg1 0x14 .ro .vol 0 0,
    reg1 0x18 .rw .vol 0 0xC0FFFFFF,
    regN 0x20 4 5 .w1c .vol 0 0xFFFFFF, reg1 0x34 .w1c .vol 0 3,
    regN 0x100 16 24 .rw .cfg 0 0xFFFFFFFF [⟨31, 0, [(0, 131072)]⟩],
    regN 0x104 16 24 .rw .cfg 0 0xFFFFFF00,
    regN 0x108 16 24 .rw .cfg 0 0x03FF03FF, regN 0x10C 16 24 .ro .vol 0 0 ]

/-- SRV (R224, R225); HSTATE resets with R225's SRC of 0b10 (DEDUCED, entry 135). -/
def rowsSrv : List RegRow :=
  [ reg1 0x0 .rw .cfg 0x18434804 0xFFFFFFFF [⟨31, 24, [(1, 255)]⟩],
    reg1 0x4 .ro .vol 0 0, regN 0x10 4 4 .rc .vol 0 0,
    regN 0x100 32 24 .ro .vol 0x2000 0, regN 0x104 32 24 .ro .vol 0 0, regN 0x108 32 24 .ro .vol 0 0,
    regN 0x10C 32 24 .ro .aon 0 0, regN 0x110 32 24 .ro .vol 0 0, regN 0x114 32 24 .ro .vol 0 0 ]

/-- One word of a section block (R255): coefficients at words 0 to 4, SCTL at word 5. -/
def rowsSection (base s1 n1 s2 n2 : Nat) (a : Acc) : List RegRow :=
  let word (k m : Nat) : RegRow :=
    ⟨base + 4 * k, s1, n1, s2, n2, a, .cfg, 0, w32 m, []⟩
  [word 0 0xFFFF, word 1 0xFFFF, word 2 0xFFFF, word 3 0xFFFF, word 4 0xFFFF, word 5 0xC0000007,
   word 6 0, word 7 0]

/-- CTL (R254, R255). -/
def rowsCtl : List RegRow :=
  [ reg1 0x0 .rw .vol 0 1, reg1 0x4 .ro .vol 0x7C0 0,
    reg1 0x8 .rw .cfg 0x66CD203C 0xFFFFFFFF [⟨31, 24, [(1, 255)]⟩, ⟨23, 16, [(1, 255)]⟩],
    reg1 0xC .rw .cfg 0x1C00 0xFFFF [⟨15, 0, [(0, 8176)]⟩],
    reg1 0x10 .rw .cfg 0x3E801083 0xFFFFFFFF [⟨31, 20, [(1, 4095)]⟩, ⟨19, 10, [(1, 1023)]⟩],
    reg1 0x14 .rw .cfg 0x09C40028 0xFFFF00FF [⟨31, 16, [(500, 20000)]⟩, ⟨7, 0, [(10, 255)]⟩],
    reg1 0x18 .rw .cfg 0x20040F32 0xFFFF0FFF [⟨11, 0, [(1, 4095)]⟩],
    reg1 0x1C .rw .cfg 0x70810000 0xFFFFFF00 [⟨31, 20, [(1, 2047)]⟩],
    reg1 0x20 .rw .cfg 0x28186464 0xFFFFFFFF
      [⟨31, 24, [(1, 255)]⟩, ⟨23, 16, [(1, 255)]⟩, ⟨15, 8, [(1, 255)]⟩, ⟨7, 0, [(1, 255)]⟩],
    reg1 0x24 .rw .cfg 0 0xFFFF,
    reg1 0x28 .rw .cfg 0x1010180A 0xFFFFFFFF,
    reg1 0x2C .w1c .vol 0 0x1FFFFFF, reg1 0x30 .ro .vol 0 0, reg1 0x34 .w1c .vol 0 0x3F,
    regN 0x40 4 3 .ro .vol 0 0, regN 0x50 4 4 .rc .vol 0 0, reg1 0x60 .rw .vol 0 2,
    regN 0x1000 32 24 .rw .vol 0 3, regN 0x1004 32 24 .ro .vol 0 0, regN 0x1008 32 24 .ro .vol 0 0,
    regN 0x100C 32 24 .ro .vol 0 0, regN 0x1010 32 24 .ro .vol 0 0,
    regN 0x1014 32 24 .rw .cfg 0x100 0xFFFF [⟨15, 0, [(1, 65535)]⟩] ]
  ++ rowsSection 0x2000 128 24 32 4 .rw ++ rowsSection 0x3000 32 8 0 1 .rw
  ++ rowsSection 0x4000 128 24 32 4 .ro ++ rowsSection 0x5000 32 8 0 1 .ro

/-- SPN (R280, R281). -/
def rowsSpn : List RegRow :=
  [ reg1 0x0 .rw .vol 0 1, reg1 0x4 .ro .vol 0 0, reg1 0x8 .ro .vol 0 0, reg1 0xC .ro .cfg 0 0xFFFF,
    reg1 0x10 .rwl .cfg 0x040A0000 0x0FFFF000 [⟨27, 24, [(2, 8)]⟩, ⟨23, 12, [(1, 4095)]⟩],
    reg1 0x14 .rwl .cfg 0x02000400 0xFFFFFFFF,
    reg1 0x18 .rwl .cfg 0x1388323C 0xFFFFFFFF
      [⟨31, 16, [(2000, 20000)]⟩, ⟨15, 8, [(10, 255)]⟩, ⟨7, 0, [(1, 255)]⟩],
    reg1 0x1C .rw .cfg 0x20040000 0xFFFF0000,
    reg1 0x20 .rw .cfg 0x18023201 0xFFFFFF01,
    reg1 0x24 .rw .cfg 0x7084B064 0xFFFFFFFF
      [⟨31, 20, [(1, 2047)]⟩, ⟨19, 8, [(1, 4095)]⟩, ⟨7, 0, [(1, 255)]⟩],
    reg1 0x28 .rw .cfg 0x0E661040 0x8FFFFFFF [⟨27, 16, [(1, 4095)]⟩],
    reg1 0x2C .rw .cfg 0x80041555 0x80FFFFFF [⟨15, 0, [(0, 16384)]⟩],
    reg1 0x30 .rw .cfg 0x40101044 0xFFFFFFFF
      [⟨31, 24, [(1, 255)]⟩, ⟨15, 8, [(1, 255)]⟩, ⟨3, 0, [(1, 15)]⟩],
    reg1 0x34 .rw .cfg 0x14140A32 0xFFFFFFFF
      [⟨31, 24, [(1, 255)]⟩, ⟨15, 8, [(1, 255)]⟩, ⟨7, 0, [(1, 255)]⟩],
    reg1 0x38 .rw .cfg 0xF3C96064 0xFFFFFFFF,
    reg1 0x3C .rw .cfg 0x40000014 0xFFF000FF [⟨31, 20, [(1, 4095)]⟩, ⟨7, 0, [(1, 24)]⟩],
    regN 0x40 4 7 .ro .vol 0 0, reg1 0x60 .w1c .vol 0 0x7F, regN 0x64 4 4 .rc .vol 0 0 ]

/-! ### The address map -/

/-- A block of the address map (R42). -/
inductive RegBlk where
  | hub | pwr | owl | irq | mgt | hpt (p : Nat) | nq | buf | memp | ciph | sett (s : Nat) | ucs
  | tile (t : Nat) | tirq (t : Nat) | lane (t l : Nat) | det (t : Nat) | wrt (t : Nat) | wrtc (t c : Nat)
  | srv (t c : Nat) | ctl (t c : Nat) | spn (t : Nat) | tucs (t k : Nat)
  deriving DecidableEq, Repr

/-- The block that an offset of a tile's range lies in, with the offset in the block. -/
def blkOfTile (t o : Nat) : Option (RegBlk × Nat) :=
  if o < 0x80000 then some (.tile t, o)
  else if o < 0x100000 then some (.tirq t, o - 0x80000)
  else if o < 0x1C0000 then some (.lane t ((o - 0x100000) / 0x1000), (o - 0x100000) % 0x1000)
  else if o < 0x200000 then none
  else if o < 0x300000 then some (.det t, o - 0x200000)
  else if o < 0x310000 then some (.wrt t, o - 0x300000)
  else if o < 0x350000 then some (.wrtc t ((o - 0x310000) / 0x10000), (o - 0x310000) % 0x10000)
  else if o < 0x400000 then none
  else if o < 0x500000 then
    let c := (o - 0x400000) / 0x40000
    let d := (o - 0x400000) % 0x40000
    if d < 0x20000 then some (.srv t c, d) else some (.ctl t c, d - 0x20000)
  else if o < 0x600000 then some (.spn t, o - 0x500000)
  else if o < 0x700000 then
    let k := (o - 0x600000) / 0x1000
    if k < 6 || k = 15 then some (.tucs t k, (o - 0x600000) % 0x1000) else none
  else none

/-- The block an address lies in (R42), with the offset in the block; none outside every range. -/
def blkOf (a : Nat) : Option (RegBlk × Nat) :=
  if a < 0x10000 then some (.hub, a)
  else if a < 0x20000 then some (.pwr, a - 0x10000)
  else if a < 0x30000 then some (.owl, a - 0x20000)
  else if a < 0x40000 then some (.irq, a - 0x30000)
  else if a < 0x50000 then some (.mgt, a - 0x40000)
  else if a < 0x100000 then none
  else if a < 0x1A0000 then some (.hpt ((a - 0x100000) / 0x10000), (a - 0x100000) % 0x10000)
  else if a < 0x200000 then none
  else if a < 0x300000 then some (.nq, a - 0x200000)
  else if a < 0x380000 then some (.buf, a - 0x300000)
  else if a < 0x400000 then some (.memp, a - 0x380000)
  else if a < 0x410000 then some (.ciph, a - 0x400000)
  else if a < 0x510000 then some (.sett ((a - 0x410000) / 0x1000), (a - 0x410000) % 0x1000)
  else if a < 0x600000 then none
  else if a < 0x700000 then some (.ucs, a - 0x600000)
  else if a < 0x10000000 then none
  else if a < 0x18000000 then blkOfTile ((a - 0x10000000) / 0x1000000) (a % 0x1000000)
  else none

/-- UCS.ROMID of the hub and of a tile (R298). -/
def rowsRomid (hub : Bool) : List RegRow :=
  if hub then [reg1 0x0 .ro .aon 0x0B03 0, reg1 0x4 .ro .aon 0x0B01 0]
  else [reg1 0x0 .ro .aon 0x0B02 0, reg1 0x4 .ro .aon 0x0B04 0,
        reg1 0x8 .ro .aon 0x0B01 0, reg1 0xC .ro .aon 0x0B02 0]

/-- The register rows of a block. -/
def rowsOf (p : Part) (o : Nat) : RegBlk → List RegRow
  | .hub => rowsHub p
  | .pwr => rowsPwr p
  | .owl => rowsOwl
  | .irq => rowsIrq 18 hubLevel hubRsvd o
  | .mgt => rowsMgt
  | .hpt _ => rowsHpt
  | .nq => rowsNq
  | .buf => rowsBuf p
  | .memp => rowsMemp
  | .ciph => rowsCiph
  | .sett _ => rowsSett
  | .ucs => rowsUcs 0 ++ (rowsRomid true).map fun r => { r with base := r.base + 0xF000 }
  | .tile t => rowsTile t
  | .tirq _ => rowsIrq 5 tileLevel tileRsvd o
  | .lane _ _ => rowsLane
  | .det _ => rowsDet
  | .wrt _ => rowsWrt
  | .wrtc _ _ => rowsWrtC
  | .srv _ _ => rowsSrv
  | .ctl _ _ => rowsCtl
  | .spn _ => rowsSpn
  | .tucs _ k =>
    if k < 4 then rowsUcs 1 else if k = 4 then rowsUcs 2 else if k = 5 then rowsUcs 3
    else rowsRomid false

/-- The register at an address, if any (R43). -/
def regRow (p : Part) (a : Nat) : Option RegRow :=
  match blkOf a with
  | none => none
  | some (b, o) => (rowsOf p o b).find? fun r => r.hit o

/-- What an address reads as when nothing has changed it: its register's reset value, 0 elsewhere. -/
def resetVal (p : Part) (a : Nat) : Word :=
  match regRow p a with
  | some r => r.reset
  | none => 0

/-! ### Addresses by name -/

/-- The base of tile `t`'s range (R42). -/
def tileBase (t : Nat) : Nat := 0x10000000 + t * 0x1000000

/-- A HUB register. -/
def aHub (o : Nat) : Nat := o
/-- A PWR register. -/
def aPwr (o : Nat) : Nat := 0x10000 + o
/-- An OWL register. -/
def aOwl (o : Nat) : Nat := 0x20000 + o
/-- A MGT register. -/
def aMgt (o : Nat) : Nat := 0x40000 + o
/-- A register of port `p`'s HPT page. -/
def aHpt (p o : Nat) : Nat := 0x100000 + p * 0x10000 + o
/-- An NQ register. -/
def aNq (o : Nat) : Nat := 0x200000 + o
/-- A BUF register. -/
def aBuf (o : Nat) : Nat := 0x300000 + o
/-- A MEMP register. -/
def aMemp (o : Nat) : Nat := 0x380000 + o
/-- A common CIPH register. -/
def aCiph (o : Nat) : Nat := 0x400000 + o
/-- A register of a sett page. -/
def aSett (s o : Nat) : Nat := 0x410000 + s * 0x1000 + o
/-- A TILE register. -/
def aTile (t o : Nat) : Nat := tileBase t + o
/-- A LANE register. -/
def aLane (t l o : Nat) : Nat := tileBase t + 0x100000 + l * 0x1000 + o
/-- A DET register. -/
def aDet (t o : Nat) : Nat := tileBase t + 0x200000 + o
/-- A common WRT register. -/
def aWrt (t o : Nat) : Nat := tileBase t + 0x300000 + o
/-- A WRT register of a cluster's page. -/
def aWrtC (t c o : Nat) : Nat := tileBase t + 0x310000 + c * 0x10000 + o
/-- An SRV register. -/
def aSrv (t c o : Nat) : Nat := tileBase t + 0x400000 + c * 0x40000 + o
/-- A CTL register. -/
def aCtl (t c o : Nat) : Nat := tileBase t + 0x400000 + c * 0x40000 + 0x20000 + o
/-- An SPN register. -/
def aSpn (t o : Nat) : Nat := tileBase t + 0x500000 + o
/-- A register of engine `e`'s UCS page: engine 0 dispatch, 1 + 6·t + k store `k` of tile `t` (R298). -/
def aUcs (e o : Nat) : Nat :=
  if e = 0 then 0x600000 + o
  else tileBase ((e - 1) / 6) + 0x600000 + ((e - 1) % 6) * 0x1000 + o
/-- A register of interrupt controller `ic`: 0 hub, 1 + t tile (R448). -/
def aIrq (ic o : Nat) : Nat := if ic = 0 then 0x30000 + o else tileBase (ic - 1) + 0x80000 + o
/-- A register of a target page (R450). -/
def aTgt (ic n o : Nat) : Nat := aIrq ic (0x4000 + n * 0x400 + o)

end Sys2Proof
end

