-- ==== Sys2Proof/Machine/Tab.lean ====
section
/-! DEFINITION. Sparse tables: a list of (key, value) pairs in one canonical form, the keys strictly
rising and no value equal to what an unlisted key reads as. The register space of R42, the boot flash
of R475 and every per-unit state of the device are kept so, and equal contents are equal lists. -/

namespace Sys2Proof

/-- A sparse table keyed by an index or an address. -/
abbrev Tab (α : Type) := List (Nat × α)

/-- What key `k` holds; an unlisted key holds `d k`. -/
def Tab.get {α : Type} (d : Nat → α) : Tab α → Nat → α
  | [], k => d k
  | (i, v) :: t, k => if k = i then v else Tab.get d t k

/-- The table with key `k` absent. -/
def Tab.drop {α : Type} : Tab α → Nat → Tab α
  | [], _ => []
  | (i, v) :: t, k => if k = i then Tab.drop t k else (i, v) :: Tab.drop t k

/-- The table with key `k` listed as `v`, in its place. -/
def Tab.put {α : Type} : Tab α → Nat → α → Tab α
  | [], k, v => [(k, v)]
  | (i, u) :: t, k, v =>
    if k < i then (k, v) :: (i, u) :: t
    else if k = i then (k, v) :: t
    else (i, u) :: Tab.put t k v

/-- The table after writing `v` at `k`: the value an unlisted key reads as is not listed. -/
def Tab.set {α : Type} [DecidableEq α] (d : Nat → α) (t : Tab α) (k : Nat) (v : α) : Tab α :=
  if v = d k then Tab.drop t k else Tab.put t k v

/-- Every key of the table is above `b`, they rise strictly, and no entry reads as an unlisted one. -/
def Tab.wfFrom {α : Type} [DecidableEq α] (d : Nat → α) : Option Nat → Tab α → Bool
  | _, [] => true
  | b, (i, v) :: t =>
    (match b with
      | none => true
      | some j => decide (j < i)) && decide (v ≠ d i) && Tab.wfFrom d (some i) t

/-- The canonical form. -/
def Tab.wf {α : Type} [DecidableEq α] (d : Nat → α) (t : Tab α) : Bool := Tab.wfFrom d none t

/-- The table with only the entries whose key satisfies `p`; the others read as unlisted keys. -/
def Tab.keep {α : Type} (p : Nat → Bool) (t : Tab α) : Tab α := t.filter fun e => p e.1

/-- What key `k` holds in a table whose every unlisted key holds the same `d`. -/
def Tab.at {α : Type} (d : α) (t : Tab α) (k : Nat) : α := Tab.get (fun _ => d) t k

/-- The table after writing `v` at `k`, every unlisted key holding `d`. -/
def Tab.to {α : Type} [DecidableEq α] (d : α) (t : Tab α) (k : Nat) (v : α) : Tab α :=
  Tab.set (fun _ => d) t k v

/-- The table after changing what key `k` holds by `f`. -/
def Tab.upd {α : Type} [DecidableEq α] (d : α) (t : Tab α) (k : Nat) (f : α → α) : Tab α :=
  Tab.to d t k (f (Tab.at d t k))

/-- The entry of a list at a place, with a value for a place beyond it. -/
def nth {α : Type} (d : α) (l : List α) (i : Nat) : α := l.getD i d

end Sys2Proof
end

