-- ==== Sys2Proof/Machine/Signal.lean ====
section
/-! DEFINITION. The arithmetic of the read channel: the equaliser and its target (R71, R79, R80), known
patterns (R54, R59, R82), the trellis detectors (R111, R112, R115, R116, R119) and least mean squares (R83,
R85, R114). A sample is a number, or nothing where it is erased (R88). Roundings are to the nearest
(entry 7); what these rules leave open is in entry 120. -/

namespace Sys2Proof.Machine

/-- A sample of a stream: none where it is erased or lies outside what was captured (R88, R128). -/
abbrev Smp := Option Int

/-- The suffixes of a list that are not empty, longest first. -/
def tailsOf {α : Type} : List α → List (List α)
  | [] => []
  | x :: l => (x :: l) :: tailsOf l

/-- The sum of the products of two lists. -/
def dot : List Int → List Int → Int
  | a :: l, b :: m => a * b + dot l m
  | _, _ => 0

/-- `n` samples of a stream from place `i` on; places outside it are erased (R128). -/
def takeAt {α : Type} (xs : List (Option α)) (i : Int) (n : Nat) : List (Option α) :=
  if i < 0 then
    let k := min n i.natAbs
    let ys := List.replicate k none ++ xs.take (n - k)
    ys ++ List.replicate (n - ys.length) none
  else
    let ys := (xs.drop i.toNat).take n
    ys ++ List.replicate (n - ys.length) none

/-! ### Patterns -/

/-- `n` bits of 0b1100 repeated (R54, R59, R82). -/
def pat1100 (n : Nat) : List Bool := (List.range n).map fun i => decide (i % 4 < 2)

/-- The low `n` bits of a number, the most significant first. -/
def msbBits (n x : Nat) : List Bool := (List.range n).map fun k => x.testBit (n - 1 - k)

/-- Sync A and sync B (R59). -/
def syncA : Nat := 0x1E5B93A6F4C2
/-- Sync B. -/
def syncB : Nat := 0x6D0F2B971CE8

/-- One step of the generator x^15 + x^14 + 1, in the form R140 gives its own (entry 122). -/
def prbsStep (s : Nat) : Nat := (s * 2 + Nat.xor (s / 2 ^ 14 % 2) (s / 2 ^ 13 % 2)) % 2 ^ 15

/-- `n` bits of the generator from a seed (R82). -/
def prbs : Nat → Nat → List Bool
  | 0, _ => []
  | n + 1, s => (s / 2 ^ 14 % 2 == 1) :: prbs n (prbsStep s)

/-- The bits of data span `k` of a calibration track (R82): `upper` for the higher-numbered one. -/
def calSpan (d : Nat) (upper : Bool) (k : Nat) : List Bool :=
  if k < 300 then (pat1100 ((k + 1) * d)).drop (k * d) else prbs d (if upper then 0x2AAA else 0x7FFF)

/-! ### The equaliser (R71, R80, R84) -/

/-- The four taps of a target word (R79). -/
def prtTaps (w : Word) : List Int := [sfld w 31 24, sfld w 23 16, sfld w 15 8, sfld w 7 0]

/-- A channel bit as +1 or −1. -/
def pm (b : Bool) : Int := if b then 1 else -1

/-- Twice the target's output for the written bits a(n), a(n−1), a(n−2), a(n−3) (R80), saturated as the
equaliser's output is. -/
def target2 (g : List Int) (a0 a1 a2 a3 : Bool) : Int :=
  clampI (-254) 254 (dot g [pm a0, pm a1, pm a2, pm a3])

/-- Twice the target's output along a run of written bits; the bits before its start count as `false`. -/
def targetRun (g : List Int) : Bool → Bool → Bool → List Bool → List Int
  | _, _, _, [] => []
  | a1, a2, a3, b :: bs => target2 g b a1 a2 a3 :: targetRun g b a1 a2 bs

/-- One tap of 1.0 at the main place (R84). -/
def mainTap : List Int := (List.range 16).map fun k => if k = 7 then 128 else 0

/-- The 16 raw samples that one equalised sample is made of, newest first: x(n + 7) to x(n − 8); samples
outside the run count as 0. -/
def regressors (xs : List Int) : List (List Int) :=
  ((tailsOf (List.replicate 8 0 ++ xs ++ List.replicate 7 0)).take xs.length).map fun w => (w.take 16).reverse

/-- The equalised sample of 16 raw samples, taps in 1/128 (R71, R81): 8 bits, saturated at ±127 (R80). -/
def eqOut (taps w : List Int) : Int := clampI (-127) 127 (divRound (dot taps w) 128)

/-- A run of raw samples equalised; erased ones stay erased (R88). -/
def equalise (taps : List Int) (raw : List Int) (erased : List Bool) : List Smp :=
  List.zipWith (fun e w => if e then none else some (eqOut taps w)) erased (regressors raw)

/-- The 6-bit code of the converter (R71). -/
def adcCode (x : Int) : Int := clampI (-32) 31 x

/-! ### Trellises (R112, R115, R119) -/

/-- What a detector sees at one bit: both lanes' equalised samples, and bits already known (R126
PARTNER). -/
structure Obs where
  ya : Smp
  yb : Smp
  fixA : Option Bool
  fixB : Option Bool
  deriving DecidableEq, Repr

/-- The channel a detector assumes (R111): targets, couplings in 1/256, noise variances in 1/256. -/
structure Chan where
  ga : List Int
  gb : List Int
  ka : Int
  kb : Int
  va : Nat
  vb : Nat
  deriving DecidableEq, Repr

/-- The last three bits of a track in a trellis state, the latest lowest. -/
def stBits (s : Nat) : Bool × Bool × Bool := (s.testBit 0, s.testBit 1, s.testBit 2)

/-- Twice the target's output in a state whose next bit is `b`. -/
def stTarget (g : List Int) (s : Nat) (b : Bool) : Int :=
  let p := stBits s
  target2 g b p.1 p.2.1 p.2.2

/-- A cost no path of the trellis reaches. -/
def forbidden : Int := 2 ^ 100

/-- What a branch costs against known bits. -/
def fixCost (f : Option Bool) (b : Bool) : Int :=
  match f with
  | some k => if k = b then 0 else forbidden
  | none => 0

/-- The squared distance of a sample from twice 256 the assumed one, in 1/512 (R111). -/
def dist2 (y : Smp) (x : Int) : Int :=
  match y with
  | some v => (512 * v - x) * (512 * v - x)
  | none => 0

/-- The joint trellis has 64 states, three bits of each track, and four branches from each (R112). -/
def jointCost (ch : Chan) (o : Obs) (s u : Nat) : Int :=
  let a := u.testBit 0
  let b := u.testBit 1
  let xa := stTarget ch.ga (s % 8) a
  let xb := stTarget ch.gb (s / 8) b
  dist2 o.ya (256 * xa + ch.ka * xb) * ch.vb + dist2 o.yb (256 * xb + ch.kb * xa) * ch.va +
    fixCost o.fixA a + fixCost o.fixB b

/-- The state after a branch. -/
def jointNext (s u : Nat) : Nat := (s % 8 * 2 + u % 2) % 8 + 8 * ((s / 8 * 2 + u / 2) % 8)

/-- A single track has 8 states and two branches; the coupling is 0 (R115). -/
def soloCost (ch : Chan) (o : Obs) (s u : Nat) : Int :=
  dist2 o.ya (256 * stTarget ch.ga s (u.testBit 0)) + fixCost o.fixA (u.testBit 0)

/-- The state after a branch of the single-track trellis. -/
def soloNext (s u : Nat) : Nat := (s * 2 + u) % 8

/-- A trellis: its states, its branches from each, where they lead and what they cost. -/
structure Trellis where
  states : Nat
  inputs : Nat
  next : Nat → Nat → Nat
  cost : Obs → Nat → Nat → Int

/-- The joint trellis of a channel (R112). -/
def jointTrellis (ch : Chan) : Trellis := ⟨64, 4, jointNext, jointCost ch⟩
/-- The single-track trellis of a channel (R115). -/
def soloTrellis (ch : Chan) : Trellis := ⟨8, 2, soloNext, soloCost ch⟩

/-- The least of a list of costs, `forbidden` twice over for none. -/
def least (l : List Int) : Int := l.foldl min (2 * forbidden)

/-- The branches of a trellis. -/
def Trellis.branches (T : Trellis) : List (Nat × Nat) :=
  (List.range T.states).flatMap fun s => (List.range T.inputs).map fun u => (s, u)

/-- Costs of the best paths into each state, one bit further on. -/
def Trellis.forth (T : Trellis) (al : List Int) (o : Obs) : List Int :=
  (List.range T.states).map fun n =>
    least ((T.branches.filter fun b => decide (T.next b.1 b.2 = n)).map fun b => nth 0 al b.1 + T.cost o b.1 b.2)

/-- Costs of the best paths out of each state, one bit earlier. -/
def Trellis.back (T : Trellis) (be : List Int) (o : Obs) : List Int :=
  (List.range T.states).map fun s =>
    least ((List.range T.inputs).map fun u => nth 0 be (T.next s u) + T.cost o s u)

/-- The costs before each bit of a run and after its last. -/
def Trellis.forthRun (T : Trellis) : List Int → List Obs → List (List Int)
  | al, [] => [al]
  | al, o :: os => al :: T.forthRun (T.forth al o) os

/-- The costs from each bit of a run on and after its last, where all states are equal. -/
def Trellis.backRun (T : Trellis) : List Obs → List (List Int)
  | [] => [List.replicate T.states 0]
  | o :: os =>
    let r := T.backRun os
    T.back (nth [] r 0) o :: r

/-- Cost of the best path with bit `k` of the branch 1, less that of the best with 0: positive favours 0. -/
def Trellis.margin (T : Trellis) (k : Nat) (al be : List Int) (o : Obs) : Int :=
  let best (v : Bool) : Int :=
    least ((T.branches.filter fun b => b.2.testBit k == v).map fun b =>
      nth 0 al b.1 + T.cost o b.1 b.2 + nth 0 be (T.next b.1 b.2))
  best true - best false

/-- The margins of a window of bits with a warm-up on each side (R112). -/
def Trellis.window (T : Trellis) (k : Nat) (pre mid post : List Obs) : List Int :=
  let al := (T.forthRun (List.replicate T.states 0) (pre ++ mid)).drop pre.length
  let be := (T.backRun (mid ++ post)).drop 1
  (List.range mid.length).map fun i =>
    T.margin k (nth [] al i) (nth [] be i) (nth ⟨none, none, none, none⟩ mid i)

/-- Max-log-MAP over a run, in windows of 64 bits with 32 bits of warm-up (R112). -/
def Trellis.maxLogMap (T : Trellis) (k : Nat) (os : List Obs) : List Int :=
  (List.range ((os.length + 63) / 64)).flatMap fun w =>
    T.window k ((os.take (64 * w)).drop (64 * w - 32)) ((os.drop (64 * w)).take 64) ((os.drop (64 * w + 64)).take 32)

/-- A margin as a soft value in 1/4 of the log-likelihood ratio, −31 to +31 (R116): `v` is the divisor of the
channel's costs. -/
def softOf (v : Nat) (m : Int) : Int := clampI (-31) 31 (divRound m (512 * max 1 v))

/-- Whether a bit's branch metrics depend on an erased sample: the target spreads it over four (R80, R116). -/
def touched : List Smp → List Bool
  | [] => []
  | y :: ys => (y :: ys.take 3).any Option.isNone :: touched ys

/-- Soft values of one track from joint detection: `k` 0 reader A's, 1 reader B's. -/
def softJoint (ch : Chan) (k : Nat) (os : List Obs) : List Int :=
  let ms := (jointTrellis ch).maxLogMap k os
  let er := List.zipWith Bool.or (touched (os.map (·.ya))) (touched (os.map (·.yb)))
  List.zipWith (fun m e => if e then 0 else softOf (ch.va * ch.vb) m) ms er

/-- Soft values of one track from its own lane alone (R115). -/
def softSolo (g : List Int) (v : Nat) (ys : List Smp) : List Int :=
  let ms := (soloTrellis ⟨g, g, 0, 0, v, v⟩).maxLogMap 0 (ys.map fun y => ⟨y, none, none, none⟩)
  List.zipWith (fun m e => if e then 0 else softOf v m) ms (touched ys)

/-- A survivor: its cost and its latest bits, newest first. -/
abbrev Surv := Int × List Bool

/-- One bit of the Viterbi detector: the best way into each state. -/
def viterbiStep (g : List Int) (ss : List Surv) (y : Smp) : List Surv :=
  (List.range 8).map fun n =>
    let u := n % 2
    let via (s : Nat) : Surv :=
      let p := nth (0, []) ss s
      (p.1 + dist2 y (256 * stTarget g s (u == 1)), (u == 1) :: p.2.take 16)
    let p := via (n / 2)
    let q := via (n / 2 + 4)
    if q.1 < p.1 then q else p

/-- The best survivor. -/
def bestSurv (ss : List Surv) : Surv := ss.foldl (fun b s => if s.1 < b.1 then s else b) (nth (0, []) ss 0)

/-- Hard decisions of the 8-state single-track detector with a delay of 16 bits (R119): each sample past the
sixteenth decides the bit 16 before it, and the last 16 come from the best survivor. -/
def viterbiRun (g : List Int) : List Surv → Nat → List Smp → List Bool
  | ss, n, [] => ((bestSurv ss).2.take (min n 16)).reverse
  | ss, n, y :: ys =>
    let ss := viterbiStep g ss y
    if n < 16 then viterbiRun g ss (n + 1) ys
    else nth false (bestSurv ss).2 16 :: viterbiRun g ss (n + 1) ys

/-- The hard decisions of a run of equalised samples. -/
def hardBits (g : List Int) (ys : List Smp) : List Bool := viterbiRun g (List.replicate 8 (0, [])) 0 ys

/-! ### Sync marks (R119) -/

/-- Bits that differ from a 48-bit mark at place `p` of a run; a place outside it differs everywhere. -/
def syncDist (mark : Nat) (bits : List Bool) (p : Int) : Nat :=
  if p < 0 ∨ bits.length < p.toNat + 48 then 48
  else ((List.zipWith Bool.xor (msbBits 48 mark) ((bits.drop p.toNat).take 48)).filter id).length

/-- Offsets 0, −1, +1, −2, +2, … up to ±n: the nearest first, and of those the earlier. -/
def nearFirst (n : Nat) : List Int := 0 :: (List.range n).flatMap fun k : Nat => [-((k : Int) + 1), (k : Int) + 1]

/-- Sync A in a run of decisions that begins at sector bit −64: the first place in time within `thr` (R119). -/
def findA (bits : List Bool) (win thr : Nat) : Option Int :=
  ((List.range (2 * win + 1)).map fun k : Nat => 128 - (win : Int) + (k : Int)).find? fun p =>
    decide (syncDist syncA bits (p + 64) ≤ thr)

/-- Sync B about a place: the least distance within `thr`, the nearest of equals, of those the earlier; as
its offset from that place. -/
def findB (bits : List Bool) (about : Int) (win thr : Nat) : Option Int :=
  let at_ (d : Int) : Nat := syncDist syncB bits (about + d + 64)
  let b := (nearFirst win).foldl (fun b d => if at_ d < at_ b then d else b) 0
  if at_ b ≤ thr then some b else none

/-! ### Writing (R147) -/

/-- The transitions of a run of bits from bit `n` on, in 1/64 bit, each moved earlier by PC1 or PC2: `t1` and `t2`
say whether the two bits before the run were transitions, and `prev` is the bit before it. -/
def transitions (pc1 pc2 : Nat) : Bool → Bool → Bool → Nat → List Bool → List Int
  | _, _, _, _, [] => []
  | t1, t2, prev, n, b :: bs =>
    let t := b != prev
    (if t then [64 * (n : Int) - if t1 then pc1 else if t2 then pc2 else 0] else []) ++
      transitions pc1 pc2 t t1 b (n + 1) bs

/-! ### Least mean squares (R83, R85, R114) -/

/-- Sums of error times regressor, tap by tap: `e2` is twice the error against the target. -/
def lmsSums (n : Nat) (rs : List (List Int × Int)) : List Int :=
  rs.foldl (fun a r => (List.range n).map fun k => nth 0 a k + r.2 * nth 0 r.1 k) (List.replicate n 0)

/-- Training by least mean squares: taps in 1/128, held with `m` bits more; at each sample the error against
the known target moves them by 2^−m of error times regressor. -/
def lmsTrain (m : Nat) : List Int → List (List Int × Int) → List Int
  | ws, [] => ws
  | ws, (x, t2) :: rs =>
    let e2 := t2 - divRound (2 * dot ws x) (128 * 2 ^ m)
    lmsTrain m (List.zipWith (fun w v => w + 64 * e2 * v) ws x) rs

/-- The sums of squares that a normalised mean squared error compares, in 1/4: of the error against the
target, and of the target (R83 step 5). -/
def mseSums (taps : List Int) (rs : List (List Int × Int)) : Nat × Nat :=
  rs.foldl
    (fun a r =>
      let e := r.2 - 2 * eqOut taps r.1
      (a.1 + (e * e).natAbs, a.2 + (r.2 * r.2).natAbs)) (0, 0)

end Sys2Proof.Machine
end

