-- ==== Sys2Proof/Machine/TileState.lean ====
section
/-! DEFINITION. What a tile holds behind its registers: the Benbor link ends, lanes and their histories,
head channels, the detector's queues, recovery contexts, the write path, arm links, control engines,
servo readers, the spindle drive and the microcoded engines. All plain data; a unit not listed in its
table is as its `none` value says. -/

namespace Sys2Proof.Machine

/-! ### Benbor links (R29 to R37) -/

/-- One end of a Benbor link: end 0 is the hub's, end 1 the tile's. -/
structure LinkEnd where
  /-- the sequence number of the next flit expected -/
  rx : Nat
  /-- flits are being discarded until the faulty one is replayed (R33) -/
  bad : Bool
  /-- the last 256 flits sent, newest first -/
  sent : List Payload
  /-- credits held, in flits of payload, for each channel (R30) -/
  credits : List Nat
  /-- the last running totals held of the other end's, and its own of the credits it has freed, modulo 2^16
  (R32) -/
  totals : List Nat
  freed : List Nat
  /-- the channel whose total the next flit sent carries -/
  ret : Nat
  /-- times of the replays within the last 1 ms (R34) -/
  replays : List Nat
  deriving DecidableEq, Repr

/-- Credits of the management, request, data and response channels (R30). -/
def chanCredits : List Nat := [16, 64, 512, 64]

/-- A link end with every credit. -/
def LinkEnd.fresh : LinkEnd := ⟨0, false, [], chanCredits, [0, 0, 0, 0], [0, 0, 0, 0], 0, []⟩

/-! ### Lanes (R71 to R110) -/

/-- One bank of a sample history: the capture it holds, its raw samples from sector bit −64 on, and whether
each is erased (R88, R91). -/
structure Bank where
  cap : Option Nat
  raw : List Int
  erased : List Bool
  deriving DecidableEq, Repr

/-- A bank that holds nothing. -/
def Bank.none : Bank := ⟨Option.none, [], []⟩

/-- An update of taps or couplings that a capture has gathered (R85, R114): the capture and its zone, the
sums of error times regressor, and the shift of its step. -/
structure Update where
  cap : Nat
  zone : Nat
  sums : List Int
  shift : Nat
  /-- codewords of the capture that have still to prove good -/
  left : Nat
  deriving DecidableEq, Repr

/-- A lane behind its registers. -/
structure LaneX where
  /-- the bank that received the latest capture -/
  bank : Nat
  b0 : Bank
  b1 : Bank
  /-- tap sets, keyed 8·zone + target -/
  taps : Tab (List Int)
  /-- updates gathered that have no verdict yet, oldest first (R85) -/
  gathered : List Update
  /-- accepted updates that take effect at the next acquisition (R86) -/
  ready : List Update
  /-- the CFG registers as the lane took them at its latest acquisition (R108): LOOP, AGC, AFE, TACFG, EQCFG -/
  cfg : Option (List Word)
  /-- its loops are held by a wedge span (R76) -/
  wedge : Bool
  /-- it has lost lock: a zero-phase start follows on the next resync field or preamble (R77) -/
  lost : Bool
  /-- the timing loop's offset, in 2^−30 of 1/64 bit per bit, and its position beyond TIMING.PHASE, in 2^−30
  of 1/64 bit (R74, R75) -/
  fofs : Int
  frac : Int
  /-- the gain loop's value in 2^−14 of 0.125 dB (R78) -/
  gain : Int
  /-- where the asperity in progress was detected, as a bit of the track's data stream (R87) -/
  taFrom : Option Nat
  /-- training passes failed in a row, by zone (R84) -/
  tries : Tab Nat
  /-- the wedge time that the demodulator predicts for it, in 1/64 sample (R214) -/
  wtime : Option Int
  /-- when it last became idle, in ns (R497 IDLE1) -/
  used : Nat
  deriving DecidableEq, Repr

/-- A lane after a reset. -/
def LaneX.none : LaneX :=
  ⟨1, Bank.none, Bank.none, [], [], [], Option.none, false, false, 0, 0, 0, Option.none, [], Option.none, 0⟩

/-! ### Head channels: captures (R92, R101, R117 to R123) -/

/-- A sector wanted of a head: the request and, for a re-read, its context. -/
structure Want where
  req : MediaReq
  ctx : Option Nat
  /-- not before the next revolution: deferred under R25 -/
  later : Bool
  deriving DecidableEq, Repr

/-- One capture queue entry (R101): the sectors wanted of reader A's and reader B's track, and where on the
track's data stream it is expected. -/
structure CapEnt where
  /-- reader A's track -/
  low : Int
  sector : Nat
  /-- the expected data-stream position (R55) -/
  pos : Nat
  a : Option Want
  b : Option Want
  target : Nat
  deriving DecidableEq, Repr

/-- The result of one track's decode on a capture: its codeword where there is one. -/
inductive TrackRes where
  | pending
  | conv (bits : List Bool) (ok : Bool)
  | bad
  deriving DecidableEq, Repr

/-- The flags a lane sets on a capture (R77, R88, R90), and the asperities it found in it, by sector bit. -/
structure CapFlags where
  ta : Bool
  longta : Bool
  lockloss : Bool
  /-- the lane's own detector found an asperity in it (R90) -/
  found : Bool
  /-- the capture began with an acquisition (R75) -/
  acq : Bool
  asps : List (Int × Int)
  deriving DecidableEq, Repr

/-- How a lane is framed (R119 to R121): the places of sync A and sync B that frame the halves; whether the
place of A is the partner's; SLIPOFS; whether sync B framed the second half; sync B's place where nothing
framed the lane. -/
structure Framing where
  posA : Option Int
  posB : Int
  proxy : Bool
  slip : Option Int
  fromB : Bool
  lone : Option Int
  deriving DecidableEq, Repr

/-- A lane that is not framed. -/
def Framing.none : Framing := ⟨Option.none, 0, false, Option.none, false, Option.none⟩

/-- A capture, in progress or held (R91, R117, R119). -/
structure Capture where
  id : Nat
  ent : CapEnt
  /-- lanes that captured -/
  laneA : Bool
  laneB : Bool
  zone : Nat
  /-- DET.JD and DET.SYNC as they stood at its start (R137) -/
  jd : Word
  sync : Word
  /-- it began while its predecessor was in progress: the two share 144 samples (R92) -/
  follows : Bool
  flA : CapFlags
  flB : CapFlags
  frA : Framing
  frB : Framing
  resA : TrackRes
  resB : TrackRes
  /-- soft values of the latest detection of each track (R126 SAVE) -/
  softA : List Int
  softB : List Int
  /-- the detector ran on reader B's sampling edge (R113) -/
  edgeB : Bool
  deriving DecidableEq, Repr

/-- A booking of a head (R177, R242). -/
structure Booking where
  ctx : Nat
  psa : Nat
  offset : Int
  displaced : Bool
  /-- the booking has started -/
  started : Bool
  /-- it is a comb booking -/
  comb : Bool
  deriving DecidableEq, Repr

/-- A head channel's read side. -/
structure HeadX where
  /-- sectors asked for and not yet in the capture queue -/
  want : List Want
  capQ : List CapEnt
  /-- captures in progress, the older first: consecutive sectors overlap (R92) -/
  curs : List Capture
  /-- captures of the reader-A lane, modulo 2^30 (R117) -/
  count : Nat
  /-- captures whose samples the banks hold, newest first -/
  held : List Capture
  /-- the pinned capture and since when (R122) -/
  pin : Option (Nat × Nat)
  /-- coupling coefficients by zone, where they have been trained (R114) -/
  kappa : Tab (Int × Int)
  /-- coupling updates gathered, and accepted ones for the next capture -/
  kGather : List Update
  kReady : List Update
  /-- the alignment buffer: the latest samples of reader B on their way to reader A's edge (R113) -/
  align : List Int
  bookings : List Booking
  deriving DecidableEq, Repr

/-- A head channel after a reset. -/
def HeadX.none : HeadX := ⟨[], [], [], 0, [], Option.none, [], [], [], [], []⟩

/-! ### The detector and the pool (R116 to R136) -/

/-- An entry of a decoder queue (R117): its descriptor's fields and its soft values. -/
structure DecEnt where
  psa : Nat
  lane : Nat
  target : Nat
  zone : Nat
  flags : Nat
  slip : Int
  itmax : Nat
  align : Int
  capid : Nat
  soft : List Int
  deriving DecidableEq, Repr

/-- A request on the history request queue (R126, R290), with the capture it names and that capture's head. -/
structure HistReq where
  /-- the context that asked; 256 when it has ended (R184) -/
  ctx : Nat
  op : Nat
  track : Nat
  target : Nat
  limit : Nat
  offset : Nat
  slot : Nat
  capid : Option Nat
  head : Nat
  deriving DecidableEq, Repr

/-- Whom a decode or an operation's result is for. -/
inductive ResFor where
  /-- a live codeword of a capture -/
  | live (w : Want)
  /-- a stored codeword of an operation: `own` when it is the sector's own track -/
  | stored (q : HistReq) (own : Bool)
  /-- an operation that ended without a decode -/
  | ended (q : HistReq)
  deriving DecidableEq, Repr

/-- A codeword on its way through the pool. -/
structure Job where
  ent : DecEnt
  dst : ResFor
  deriving DecidableEq, Repr

/-- A decoder engine: the codeword it decodes and the next, in its other input buffer (R124). -/
structure DecEng where
  cur : Option Job
  nxt : Option Job
  deriving DecidableEq, Repr

/-- An idle engine. -/
def DecEng.idle : DecEng := ⟨none, none⟩

/-- A result on the pool output queue (R131): the decoded bits, empty unless CONV, and the descriptor. -/
structure PoolRes where
  dst : ResFor
  desc : Payload
  lane : Nat
  capid : Nat
  st : DecSt
  info : Payload
  iters : Nat
  changed : Nat
  weight : Nat
  deriving DecidableEq, Repr

/-- An operation in a stored-sample detector (R126). -/
structure HistOp where
  req : HistReq
  /-- decodes of it that are under way -/
  left : Nat
  /-- the offsets that REALIGN has still to try, once it has probed (R127) -/
  offs : Option (List Int)
  deriving DecidableEq, Repr

/-- An entry of the outbound data queue (R20 steps 10 and 11, R188). -/
structure OutSec where
  psa : Nat
  req : MediaReq
  /-- the information word without its header; empty for a drop -/
  body : Payload
  blank : Bool
  /-- the whole word's CRC-32C (R179) -/
  crc : Word
  drop : Option Cause
  capid : Nat
  ctx : Option Nat
  deriving DecidableEq, Repr

/-- A soft-store slot (R126): the context that owns it and the values it holds, if any. -/
structure SoftSlot where
  owner : Option Nat
  soft : Option (List Int)
  deriving DecidableEq, Repr

/-- A free slot. -/
def SoftSlot.free : SoftSlot := ⟨none, none⟩

/-- What a failed sector brings to the ladder (R174). -/
structure LadIn where
  index : Nat
  want : Want
  capid : Option Nat
  word : Word
  deriving DecidableEq, Repr

/-- A tag failure on the request channel (R189). -/
structure TagFail where
  psa : Nat
  req : MediaReq
  crc : Word
  ctx : Option Nat
  deriving DecidableEq, Repr

/-- The tile's detector, pool, formatter and Benbor end. -/
structure DetX where
  decQ : List Job
  /-- decoder-queue entries reserved by captures in progress (R118) -/
  decRes : Nat
  /-- the stored decoder queue of four (R134) -/
  stQ : List Job
  /-- the 32 decoder engines that hold a codeword (R124) -/
  engs : Tab DecEng
  poolOut : List PoolRes
  /-- results that wait for a place on the pool output queue (R134) -/
  late : List PoolRes
  /-- outbound entries reserved (R20 step 6) -/
  outRes : Nat
  outQ : List OutSec
  /-- drops and accepted sectors that wait for a place on the outbound queue (R23) -/
  outWait : List OutSec
  hist : List HistReq
  /-- the two stored-sample detectors' operations (R126) -/
  ops : List HistOp
  /-- the cluster served last and the head of each cluster served last, of requests and of stored entries
  (R129) -/
  rrOp : List Nat
  rrJob : List Nat
  soft : Tab SoftSlot
  ladQ : List LadIn
  tagQ : List TagFail
  /-- tile events on the request channel (R289): words for packet opcode 0xF0 -/
  events : List Word
  deriving DecidableEq, Repr

/-- A tile's queues, empty. -/
def DetX.none : DetX := ⟨[], 0, [], [], [], [], 0, [], [], [], [], [3, 23, 23, 23, 23], [3, 23, 23, 23, 23], [], [], [], []⟩

/-! ### Recovery contexts (R173) -/

/-- What the default ladder image does next (R176, R290): a POST with its operands, or a WAIT on its classes. -/
inductive LadMove where
  | hist (w : Word)
  | book (offset : Int) (displaced : Bool)
  | accept
  | drop
  | step (n : Nat)
  | slot
  | wait (mask : Nat)
  deriving DecidableEq, Repr

/-- What the default ladder image waits for (R176, R178, R180): the result of FRAMEB or REALIGN, of PARTNER or
REDETECT, of the targets of L5 with those left, of COMBINE or SAVE, of a re-read, or a TAG. -/
inductive LadStage where
  | l1 | l2
  | target (rest : List Nat)
  | combine | save | reread | tag
  deriving DecidableEq, Repr

/-- Where the default ladder image stands in a context (R173 the step's progress). -/
structure Prog where
  /-- the moves that are next -/
  todo : List LadMove
  stage : LadStage
  /-- re-reads made at the context's step -/
  made : Nat
  /-- a slot has been asked for -/
  asked : Bool
  /-- the least weight before the capture at hand -/
  mark : Option Nat
  /-- results of RELEASE still to come, which the image passes over -/
  skip : Nat
  deriving DecidableEq, Repr

/-- The default ladder image at its entry. -/
def Prog.none : Prog := ⟨[], .l1, 0, false, Option.none, 0⟩

/-- A recovery context. -/
structure Ctx where
  live : Bool
  want : Want
  capid : Option Nat
  step : Nat
  cap : Nat
  /-- least weight seen and the offset that first gave it -/
  best : Option (Nat × Int)
  /-- the offset of the re-read under way or last made -/
  offset : Int
  slot : Option Nat
  /-- CRC-32Cs of words that the tag check rejected, up to four -/
  rejected : List Word
  tagSeen : Bool
  /-- the latest accepted word, if the latest result was CONV and passed R64 -/
  good : Option Payload
  /-- results waiting for the thread: class 0 HRES, 1 RRES, 2 TAG, and their words -/
  results : List (Nat × Word)
  /-- an ACCEPT is at the cipher engine -/
  sent : Bool
  /-- booked re-reads under way -/
  booked : Bool
  /-- where the default image stands in it -/
  prog : Prog
  /-- when it was opened (R177: of two bookings that overlap, the older context's stands) -/
  born : Nat
  deriving DecidableEq, Repr

/-- No context. -/
def Ctx.none : Ctx :=
  ⟨false, ⟨⟨0, 0, 0, .host, 7⟩, Option.none, false⟩, Option.none, 0, 7, Option.none, 0, Option.none, [],
    false, Option.none, [], false, false, Prog.none, 0⟩

/-! ### The write path (R139 to R159) -/

/-- The kind of a head-write queue entry (R141). -/
inductive WrKind where
  | host | partner | marker | system | calib
  deriving DecidableEq, Repr

/-- A sector to be written: on its way from the hub, in the head-write queue or in a serialiser. -/
structure WrEnt where
  psa : Nat
  kind : WrKind
  discard : Bool
  /-- the unit's namespace and LBA, its slot and generation (R141) -/
  nsid : Nat
  lba : Nat
  slot : Nat
  gen : Nat
  /-- the 4,160 bytes of user data and metadata; the information word for a partner rewrite -/
  body : Payload
  /-- the 37,120 codeword bits after scrambling -/
  bits : List Bool
  /-- rewrites made (R152) -/
  tries : Nat
  /-- a burst of it has begun, and how many of its bits on the media are written (R144) -/
  begun : Bool
  done : Nat
  /-- it waits for the next revolution (R142) -/
  late : Bool
  deriving DecidableEq, Repr

/-- A partner sector that a write of a conventional band needs (R150): asked for, decoded and at the cipher
engine, ready to be rewritten, or dropped. -/
inductive PartSt where
  | asked
  | decoded (info : Payload)
  | ready (info : Payload)
  | lost
  deriving DecidableEq, Repr

/-- A result on its way to the hub (R157). -/
structure WrRes where
  psa : Nat
  kind : WrKind
  nsid : Nat
  lba : Nat
  gen : Nat
  st : WrSt
  deriving DecidableEq, Repr

/-- A head's write side. -/
structure HeadW where
  /-- the serialiser: the sector being written and the next -/
  ser : List WrEnt
  gate : Bool
  /-- a write run is on, and when its heater was applied -/
  run : Bool
  heatAt : Option Nat
  /-- consecutive WFAIL (R194) -/
  fails : Nat
  /-- Owl has recorded that the head cannot write (R157) -/
  told : Bool
  /-- sectors written in the run that are to be read back, and those being read back (R154) -/
  verify : List WrEnt
  verifying : List WrEnt
  /-- partner sectors of its writes, by PSA (R150) -/
  partners : List (Nat × PartSt)
  /-- sectors to be read back (R153) -/
  encroach : List Nat
  /-- the wedge of the last record within WLIM -/
  goodWedge : Nat
  /-- the wedge time that resets the write clock's phase, in 1/64 sample (R143, R214, R221) -/
  wtime : Option Int
  deriving DecidableEq, Repr

/-- A head that writes nothing. -/
def HeadW.none : HeadW := ⟨[], false, false, Option.none, 0, false, [], [], [], [], 0, Option.none⟩

/-- The tile's write path between the Benbor end and the hub. -/
structure WriteX where
  /-- sectors that have arrived from the cipher engine -/
  inQ : List WrEnt
  results : List WrRes
  deriving DecidableEq, Repr

/-- An empty write path. -/
def WriteX.none : WriteX := ⟨[], []⟩

/-- A cluster's head-write queue. -/
abbrev WrQ := List WrEnt

/-! ### The arm link (R160 to R172) -/

/-- A fault whose clearing waits for a relatch (R193): kind, head, when it was cleared. -/
structure Refault where
  kind : Nat
  head : Nat
  at_ : Nat
  deriving DecidableEq, Repr

/-- A cluster's arm link. -/
structure Arm where
  /-- setpoints pending, by head -/
  pend : Tab (Option Int)
  /-- the group served next -/
  group : Nat
  /-- control frames to send -/
  ctl : List (BitVec 64)
  /-- the control frame sent and not acknowledged: frame, STATUS frames since, resends -/
  wait : Option (BitVec 64 × Nat × Nat)
  /-- frames sent since the last control frame (R164) -/
  since : Nat
  /-- the last ACKC received -/
  ackc : Option Nat
  /-- failed upstream frames in a row -/
  bad : Nat
  /-- attempts that failed in a row -/
  attempts : Nat
  /-- the entry step of R166 under way, 1 to 5; 0: none -/
  step : Nat
  /-- frames sent in step 1 -/
  count : Nat
  /-- IDENT and REV as replied in step 3 -/
  ident : Option Nat
  rev : Option Nat
  /-- when ALCK stopped -/
  stopped : Option Nat
  /-- a PACC access under way: frames since it was sent -/
  pacc : Option Nat
  /-- the armed mask asked for -/
  mask : Nat
  /-- a TEMP read is under way -/
  temp : Bool
  /-- faults cleared and watched (R193) -/
  watch : List Refault
  deriving DecidableEq, Repr

/-- A link that is off. -/
def Arm.none : Arm :=
  ⟨[], 0, [], Option.none, 0, Option.none, 0, 0, 0, 0, Option.none, Option.none, Option.none, Option.none, 0,
    false, []⟩

/-! ### Servo readers (R207 to R223) -/

/-- A reader in the demodulator. -/
structure Reader where
  /-- 0 OFF, 1 SEARCH, 2 VERIFY, 3 LOCK -/
  st : Nat
  /-- wedge time of the last wedge found, in 1/64 sample -/
  tw : Int
  /-- the wedge interval I in 1/64 sample -/
  int : Int
  /-- consecutive missed wedges (R216) -/
  miss : Nat
  /-- wedges since a SAM was last found (R212) -/
  gone : Nat
  /-- the wedge number of the last wedge -/
  num : Nat
  /-- wedges found in VERIFY -/
  conf : Nat
  /-- the latest position in 1/1,024 pitch, if valid, and its wedge time -/
  y : Option Int
  /-- when the span of its last wedge found ended (R53) -/
  at_ : Nat
  deriving DecidableEq, Repr

/-- A reader that is off. -/
def Reader.off : Reader := ⟨0, 0, 0, 0, 0, 0, 0, none, 0⟩

/-- A head's servo and control state. -/
structure HeadS where
  /-- updates of SKEW and SEP since their VALID was cleared (R220) -/
  skewN : Nat
  sepN : Nat
  /-- a record of the head awaits the engine: valid, position in 1/1,024 -/
  rec_ : Option (Bool × Int)
  /-- the positions of the latest two consecutive valid records, newest first -/
  ys : List Int
  /-- the latest record was valid (R228) -/
  valid : Bool
  /-- consecutive records within ONTRK (R235) -/
  near : Nat
  /-- the prediction for the next wedge (R229) -/
  pred : Option Int
  /-- the streaming target, kept over a booking: track and offset -/
  home : Int × Int
  /-- the head streams, so that a pair advance steps it (R238) -/
  stream : Bool
  /-- times of the latest holds by Wolf (R248), and when the present hold began -/
  holds : List Nat
  holdAt : Option Nat
  /-- the displacement m of the setpoint in effect at the latest record, in 1/4,096 pitch (R228) -/
  m : Int
  /-- its reference has changed since its latest valid record, which took the old one (R233) -/
  moved : Bool
  /-- its target lies outside REACH while a comb booking of another head runs, which makes it off track (R242) -/
  away : Bool
  deriving DecidableEq, Repr

/-- A head before its first record. -/
def HeadS.none : HeadS :=
  ⟨0, 0, Option.none, [], false, 0, Option.none, (0, 0), false, [], Option.none, 0, false, false⟩

/-! ### Control engines (R226 to R255) -/

/-- A loop behind its registers. -/
structure Loop where
  /-- histories of each section: x1, x2, y1, y2 -/
  secs : Tab (List Int)
  /-- sections whose histories are cleared at the next sample -/
  clear : List Nat
  /-- the whole loop's histories are cleared at the next sample -/
  clearAll : Bool
  /-- the last output and the last difference -/
  u : Int
  d : Int
  /-- swings among the last 256 samples, newest first -/
  swings : List Bool
  satRun : Nat
  /-- samples since the last change of the set in use, up to 4 (R236, R246) -/
  fbFor : Nat
  /-- USEFB at the last sample -/
  fbWas : Bool
  deriving DecidableEq, Repr

/-- A loop with cleared histories. -/
def Loop.none : Loop := ⟨[], [], false, 0, 0, [], 0, 4, false⟩

/-- A change of live coefficient sets under way by Procedure B (R246, R469). -/
structure CoefUpd where
  /-- the loops whose sets change -/
  loops : List Nat
  /-- what the sets' registers will hold -/
  words : List (Nat × Word)
  /-- 0: until the fallback sets are in use; 1: until they no longer are; 2: until 4 samples have passed -/
  phase : Nat
  deriving DecidableEq, Repr

/-- A reference command at the engine (R252). -/
inductive RefCmd where
  | seek (track : Int)
  | advance
  | load (track : Int)
  | park
  deriving DecidableEq, Repr

/-- A cluster's control engine. -/
structure Ctl where
  /-- loops 0 to 24 -/
  loops : Tab Loop
  cmds : List RefCmd
  /-- pilot records without a cause (R236) -/
  clean : Nat
  /-- pilot records left of a Wolf trip -/
  trip : Nat
  /-- pilot records in a row at the current limit -/
  atLim : Nat
  /-- the mean of y + m at the last pilot record, and its wedge -/
  mean : Option Int
  /-- the comb error at the last pilot record -/
  comb : Int
  /-- wedge intervals without a contributing head -/
  lost : Nat
  /-- the current command, the current loop's integrator, the last duty -/
  cmd : Int
  integ : Int
  duty : Int
  /-- periods in a row over IERR at the limit -/
  ierr : Nat
  /-- gates are enabled -/
  gates : Bool
  /-- when the power stage was re-enabled after a fault -/
  pstageAt : Option Nat
  pstageWait : Bool
  /-- loads that failed in a row; reloads after LOST that failed in a row -/
  loads : Nat
  losts : Nat
  /-- waiting 100 ms after LOST -/
  lostWait : Bool
  /-- the first target of a load under way -/
  goal : Int
  /-- after the present park, load again -/
  reload : Bool
  /-- periods with back-EMF below UVEL at the limit -/
  stop : Nat
  /-- the park has reached its stop -/
  stopped : Bool
  /-- an emergency retract is under way: step 2 or 3; 0: none -/
  retract : Nat
  /-- the cluster is retired when its comb is parked -/
  dead : Bool
  /-- the reference velocity of a seek, in 1/1,024 track per wedge interval (R237) -/
  vref : Int
  /-- how far a comb booking has moved the comb's mean reference, in 1/1,024 pitch (R242) -/
  shift : Int
  /-- the tile core's change of live coefficient sets (R469 step 4) -/
  upd : Option CoefUpd
  deriving DecidableEq, Repr

/-- An engine after a reset. -/
def Ctl.none : Ctl :=
  ⟨[], [], 4, 0, 0, Option.none, 0, 0, 0, 0, 0, 0, false, Option.none, false, 0, 0, false, 0, false, 0,
    false, 0, false, 0, 0, Option.none⟩

/-! ### The spindle drive (R256 to R281) -/

/-- A spindle drive behind its registers. Angles in 1/2^32 cycle, speed in 1/2^32 cycle per tick. -/
structure Spn where
  theta : Int
  omega : Int
  /-- the model current and the last current, in 1/256 code (α, β) -/
  im : Int × Int
  ip : Int × Int
  /-- the current loops' integrators, the voltage vector and the present depth -/
  intD : Int
  intQ : Int
  vd : Int
  vq : Int
  depth : Int
  /-- references -/
  idRef : Int
  iqRef : Int
  /-- the speed loop's integrator, and the one kept over a re-catch -/
  integ : Int
  kept : Int
  /-- duties of the present tick -/
  du : Nat
  dv : Nat
  dw : Nat
  /-- ticks since the last speed-loop step -/
  ticks : Nat
  /-- ticks in a row over the loss limit -/
  loss : Nat
  /-- the angle turned while locked to the ramp; the time since the ramp began in ns -/
  lock : Nat
  ramp : Nat
  /-- the greatest depth demanded over the step; steps in a row over MCAP; steps under the return limit -/
  demand : Int
  past : Nat
  under : Nat
  /-- the magnitude of the back-EMF -/
  emf : Nat
  /-- failed starts in a row; a retry waits -/
  starts : Nat
  retry : Bool
  /-- its measurement is over and it waits for a place among the starts of R497 -/
  queued : Bool
  /-- when the latest re-catch resumed, and when SPFLT_N was last asserted -/
  caughtAt : Option Nat
  pflt : Option Nat
  /-- stop after the re-catch or the park -/
  stop : Bool
  stopLow : Bool
  /-- voltage mode: the advance angle -/
  phi : Int
  /-- the open-loop angle of ALIGN and RAMP -/
  openA : Int
  /-- the gates are enabled: some gate of the bridge is on -/
  gates : Bool
  /-- a measurement with the gates low (R267, R270): the back-EMF's last angle, what it has turned while observable,
  the ticks of that, and the ticks to pass before it -/
  ang : Int
  turn : Int
  span : Nat
  wait : Nat
  deriving DecidableEq, Repr

/-- A drive after a reset. -/
def Spn.none : Spn :=
  ⟨0, 0, (0, 0), (0, 0), 0, 0, 0, 0, 0, 0, 0, 0, 0, 0, 0, 0, 0, 0, 0, 0, 0, 0, 0, 0, 0, false, false,
    Option.none, Option.none, false, false, 0, 0, false, 0, 0, 0, 0⟩

/-! ### Control stores (R282 to R299) -/

/-- A bank of a store: words that differ from its ground, which is the default image or zeros. -/
structure StoreBank where
  dflt : Bool
  words : Tab Word
  deriving DecidableEq, Repr

/-- A thread or routine. -/
structure Thread where
  live : Bool
  bank : Nat
  pc : Nat
  /-- words since the start or the last WAIT -/
  steps : Nat
  /-- waiting for an event of these classes, with the register that takes the class -/
  wait : Option (Nat × Nat)
  /-- registers g1 to g31 that are not 0 -/
  g : Tab Word
  /-- the packet opcode it was started for (dispatch), and the command, by serial number; 0: none -/
  packet : Nat
  cmd : Nat
  /-- it runs vector 1 of a bank that has just become live -/
  fresh : Bool
  /-- its context ended: it ends at its next WAIT (R290) -/
  ended : Bool
  deriving DecidableEq, Repr

/-- No thread. -/
def Thread.none : Thread := ⟨false, 0, 0, 0, Option.none, [], 0, 0, false, false⟩

/-- An engine with a writable store. -/
structure Engine where
  b0 : StoreBank
  b1 : StoreBank
  threads : Tab Thread
  scratch : Tab Word
  /-- the persistent registers of a routine store -/
  g : Tab Word
  acc : Int
  /-- times of the faults within the last second -/
  faults : List Nat
  /-- events that wait for the routine under way to end: the vector and the head of its record -/
  queue : List (Nat × Nat)
  deriving DecidableEq, Repr

/-- An engine with the default image in both banks. -/
def Engine.fresh : Engine := ⟨⟨true, []⟩, ⟨true, []⟩, [], [], [], 0, [], []⟩

/-! ### Calibration (R158, R159, R462) -/

/-- A cluster's part of a CALIB: the bands that it has still to do, the first under way, and its step there: 0
the lower track of calibration pair 0, 1 the higher, 2 the system sector, 3 its reading back, 4 the move to the
pair for training, 5 the training. -/
structure CalJob where
  bands : List Nat
  step : Nat
  deriving DecidableEq, Repr

/-- No calibration. -/
def CalJob.none : CalJob := ⟨[], 0⟩

/-! ### Everything -/

/-- The tiles' blocks. Keys: link ends 2·t + e; lanes 192·t + l; heads 96·t + 24·c + h; readers
2·head + r; clusters 4·t + c; contexts 256·t + i; engines as in `aUcs`. -/
structure TileSide where
  links : Tab LinkEnd
  /-- retrains that failed in succession, by tile -/
  linkFails : Tab Nat
  lanes : Tab LaneX
  /-- zones trained since the channels came on, by cluster (R83) -/
  trained : Tab (List Nat)
  heads : Tab HeadX
  dets : Tab DetX
  ctxs : Tab Ctx
  headW : Tab HeadW
  writes : Tab WriteX
  wrQ : Tab WrQ
  arms : Tab Arm
  readers : Tab Reader
  headS : Tab HeadS
  ctls : Tab Ctl
  spns : Tab Spn
  engines : Tab Engine
  /-- packets waiting at the dispatch input: opcode and data word (R289, R291) -/
  packets : List (Nat × Word)
  /-- retirements that wait for the hub's acknowledgement: tile, kind word and cause (R195) -/
  mirror : List (Nat × Nat × Nat)
  /-- the cause each retired unit was retired for, keyed by the unit as R358 names it -/
  causes : Tab Nat
  /-- calibrations under way, by cluster (R462) -/
  calib : Tab CalJob
  deriving DecidableEq, Repr

/-- The tile side after a reset. -/
def TileSide.reset : TileSide := ⟨[], [], [], [], [], [], [], [], [], [], [], [], [], [], [], [], [], [], [], []⟩

end Sys2Proof.Machine
end

