-- ==== Sys2Proof/Machine/State.lean ====
section
/-! DEFINITION. The state of the device: the registers of the address map (R42) in one sparse table,
and behind them every queue, buffer, mode and record the spec gives the blocks. Everything is plain
data. A register that is a view of such state is read through `viewReg` and has no entry of its own. -/

namespace Sys2Proof.Machine

/-! ### What the device emits -/

/-- What leaves the device: on the management port, the host ports, the arm links, the Benbor links,
the interrupt request lines, the pins and the media. The newest stands first in `State.out`. -/
inductive Out where
  /-- bytes on MDO in one transaction (R452) -/
  | mdo (bs : Payload)
  /-- the answer to a register access that is no management packet -/
  | reply (who : Who) (addr : Nat) (w : Word) (st : Status)
  /-- an interrupt request line of a target (R436) and its non-maskable fault input (R439) -/
  | irq (ic n : Nat) (on : Bool)
  | nmi (ic n : Nat)
  /-- a completion queue entry handed to the port of its queue pair (R317, R322): DW0, DW1, SQHD, SCT, SC, DNR -/
  | cqe (qp cid dw0 dw1 sqhd sct sc : Nat) (dnr : Bool)
  /-- an RDMA Write to a host key, handed to the port of its queue pair (R317) -/
  | rdmaWrite (qp addr key : Nat) (bs : Payload)
  /-- an RDMA Read request, handed to the port of its queue pair (R308) -/
  | rdmaRead (qp cmd blk addr key len : Nat)
  /-- packets sent on a queue pair (R304, R306, R308): the first PSN, how many, their kind as in `Pkt`, their DSCP,
  their VLAN ID and PCP where the sub-port has a VLAN, and whether they are ECT(0) -/
  | packets (qp psn count kind dscp : Nat) (tag : Option (Nat × Nat)) (ect : Bool)
  /-- a transfer sent again, by the PSN of its last packet (R308) -/
  | resend (qp psn : Nat)
  /-- an acknowledge or a NAK sent (R307, R308): kind 0 ack, 1 sequence, 2 RNR with
  its timer code, 3 invalid request, 4 access -/
  | nak (qp kind psn code : Nat)
  /-- a PFC frame (R305) -/
  | pfc (p k prio quanta : Nat)
  /-- a congestion notification packet with its DSCP and, on a VLAN, its VLAN ID and PCP (R304, R306) -/
  | cnp (qp dscp : Nat) (tag : Option (Nat × Nat))
  /-- an answer to ARP, neighbour solicitation or echo (R303): kind 0, 1, 2 -/
  | neighbour (p k kind addr : Nat)
  /-- a connection-manager message sent on QP1 (R309): kind 0 REP, 1 REJ, 2 DREQ, 3 DREP; a REP
  states CRQSIZE -/
  | cm (kind qp crq : Nat)
  /-- a Benbor flit sent or sent again, and a negative acknowledge (R33) -/
  | flit (t e : Nat) (flit : Payload)
  | linkNak (t e seq : Nat)
  /-- a frame sent down an arm link (R162) -/
  | armFrame (t c : Nat) (f : BitVec 64)
  /-- a lane's high-pass corner is `corner` from bit `pos` of its track's data stream on (R88) -/
  | hpf (t l corner pos : Nat)
  /-- the write gate of a head opens or closes (R151) -/
  | gate (t c h : Nat) (on : Bool)
  /-- a burst of a sector, or of the sector that continues it, on a head's write-data pair (R143 to R148): the
  wedge interval it lies in, the wedge time and the rate offset of the write clock, where the burst begins in
  1/64 bit after the wedge, its first polarity, and its transitions in 1/64 bit after its beginning -/
  | mediaWrite (t c h psa wedge : Nat) (wtime : Option Int) (fofs : Int) (at_ : Int) (first : Bool) (moves : List Int)
  /-- a media write pointer recorded in a SYS sector (R353) -/
  | zoneRecord (psa q : Nat)
  /-- the control engine is told of a microactuator driver's fault (R155) -/
  | maFault (t c h : Nat)
  /-- the bridge of a voice coil is driven with a signed duty in 1/4096 (R250, R275) -/
  | coil (t c : Nat) (duty : Int)
  /-- the three phase duties of a spindle power stage in 1/4096, or all gates low (R259) -/
  | phases (t : Nat) (u v w : Int)
  | gatesLow (t : Nat)
  /-- a record handed from one engine to another: kind and two words (R288 to R290) -/
  | post (e kind a b : Nat)
  /-- a pin driven by the device -/
  | pin (name : String) (level : Bool)
  /-- bits shifted out of the test access port (R532) -/
  | tdo (bits : List Bool)
  deriving DecidableEq, Repr

/-! ### Interrupt controllers (R431 to R450) -/

/-- One target's private state (R435 to R444). -/
structure Target where
  /-- private sources pending, by ID -/
  pend : List Nat
  /-- private level inputs that are high, by ID -/
  level : List Nat
  /-- the priority stack above the base, top first: source ID and priority -/
  stack : List (Nat × Nat)
  /-- moderated events since the request last fell -/
  count : Nat
  /-- when the first withheld event came -/
  since : Option Nat
  /-- the withheld request has been let through -/
  released : Bool
  /-- the request line -/
  req : Bool
  deriving DecidableEq, Repr

/-- A target with nothing pending. -/
def Target.idle : Target := ⟨[], [], [], 0, none, false, false⟩

/-- The controllers: targets keyed by 32·ic + n. -/
structure Irq where
  targets : Tab Target
  /-- level sources whose input fell in service: controller, target (0 for a shared source) and source ID, and
  whether every fall since the claim was a withdrawal (R440) -/
  vanished : List ((Nat × Nat × Nat) × Bool)
  /-- hub sources latched in D0 during PS4 (R446) -/
  latched : List Nat
  deriving DecidableEq, Repr

/-! ### Owl (R479 to R493) -/

/-- An event on its way to a record (R480 to R484). -/
structure OwlEv where
  code : Nat
  die : Nat
  unit : Nat
  status : Nat
  cause : Nat
  d0 : Nat
  d1 : Nat
  /-- the operating time of the event -/
  time : Nat
  est : Bool
  late : Bool
  /-- a tile's snapshot, taken at the event -/
  snap : Option (List Word)
  deriving DecidableEq, Repr

/-- An open merge window (R485): its key is the code, die and unit of `ev`, the latest event. -/
structure MergeWin where
  ev : OwlEv
  count : Nat
  opened : Nat
  deriving DecidableEq, Repr

/-- The recorder. -/
structure Owl where
  /-- SEQ of the next record -/
  next : Nat
  /-- the slots: 64 bytes each, empty when the slot holds no record -/
  ring : Tab Payload
  /-- records held -/
  count : Nat
  queue : List OwlEv
  /-- events lost since the last 0x0003 record, by die -/
  carry : Tab Nat
  wins : List MergeWin
  /-- events that tile t holds while its link is not in service -/
  held : Tab (List OwlEv)
  /-- events beyond those that tile t has counted while its link was not in service (R482) -/
  heldLost : Tab Nat
  /-- a clear is running, with the number of records it discarded -/
  clearing : Option Nat
  /-- units of the record store that read as uncorrectable: 2·slot and the half of the record (R491) -/
  bad : List Nat
  deriving DecidableEq, Repr

/-! ### The management port and the executor (R451 to R478) -/

/-- Where an operation came from and its reply goes (R453, R460). -/
inductive Route where
  | port
  | assoc (cntlid cmd : Nat)
  deriving DecidableEq, Repr

/-- An operation waiting at the executor (R459). -/
structure MgOp where
  route : Route
  opcode : Nat
  tag : Nat
  /-- the header's reserved bytes as received (R454) -/
  rsv : Nat
  param : Payload
  deriving DecidableEq, Repr

/-- A flash operation in progress and whose it is (R474). -/
inductive FlashOp where
  | eraseStaged
  | program (off : Nat) (bs : Payload)
  | pointer (revert : Bool)
  deriving DecidableEq, Repr

/-- The executor's long operation, or the staging write it is in the midst of (R459). -/
structure Long where
  op : MgOp
  flash : Option FlashOp
  deriving DecidableEq, Repr

/-- A register access of REGISTER_WRITE or RC_COUNTER_READ that waits for a tile's link (R37): the word written, or
none and the counts that coincide with the read (R12). -/
structure Access where
  who : Who
  addr : Nat
  word : Option Word
  events : List Nat
  deriving DecidableEq, Repr

/-- The management port and executor. -/
structure Mgmt where
  /-- the status byte's ERR and EVENT -/
  err : Bool
  event : Bool
  /-- the waiting reply packet; none: READY 0 -/
  reply : Option Payload
  /-- a command of the port is being executed -/
  busy : Bool
  waiting : List MgOp
  long : Option Long
  /-- replies kept for associations (R460), by controller ID -/
  kept : Tab Payload
  /-- a requested reset waits for its reply to be released: kind and tile (R457) -/
  rst : Option (Nat × Nat)
  /-- reloads in a row that failed, by tile (R472) -/
  fails : Tab Nat
  /-- firmware images loaded (R465), by index -/
  firmware : Tab Payload
  /-- register lists of the preamplifiers (R166), by 4·t + c -/
  preamp : Tab (List (Nat × Nat))
  /-- NQNs by index (R465) -/
  names : Tab Payload
  /-- accesses that wait for a link, oldest first (R37) -/
  accs : List Access
  deriving DecidableEq, Repr

/-- A pointer record (R475): the slots that are current, previous and staged. -/
structure PtrRec where
  seq : Nat
  cur : Nat
  prev : Nat
  staged : Nat
  version : Nat
  crc : Nat
  prevVersion : Nat
  prevCrc : Nat
  deriving DecidableEq, Repr

/-- The boot flash (R474, R475). -/
structure Flash where
  /-- bytes of the configuration slots by flash offset; an unlisted byte reads 0xFF -/
  cells : Tab Byte
  /-- the two pointer records; none: erased -/
  ptrA : Option PtrRec
  ptrB : Option PtrRec
  pcycle : Nat
  optime : Nat
  /-- the retirement sets and BUF.STALE: register address and word (R198, R378) -/
  retire : Tab Word
  /-- the namespace table: register address and word (R352) -/
  ns : Tab Word
  /-- the journal: the latest RES of each slot, 8·s + k (R420) -/
  journal : Tab Nat
  /-- regions that cannot be read: 1 retirement sets, 2 namespace table, 3 journal -/
  bad : List Nat
  /-- stretches of the configuration slots that a failed program or erase has left with contents the spec
  does not give: flash offset, length, number of their free bytes (entry 2) -/
  torn : List (Nat × Nat × Nat)
  deriving DecidableEq, Repr

/-! ### Power (R494 to R508) -/

/-- A device-wide change to or from PS4 (R498, R499). -/
inductive Deep where
  | awake
  /-- entering, with a wake event that came meanwhile -/
  | entering (wake : Option Nat)
  | ps4
  | leaving
  deriving DecidableEq, Repr

/-- Power and resets. -/
structure Power where
  /-- the next boot step of R504, 1 to 8; 9: the tiles are on their way to
  BOOTPS; 10: boot has ended; 0: no power, or held in reset by TEST_EN -/
  boot : Nat
  /-- why the device boots: a reset kind of R501 -/
  kind : Nat
  /-- the next bring-in step of R505 of each tile, 1 to 6; 0: none under way; 7: its reset waits for the
  retract of its heads (R502); 8: the combs load on the return from PS2 (R498) -/
  bring : Tab Nat
  /-- tiles under a transition and the state they go to (R498) -/
  goal : Tab (Option Nat)
  /-- tiles raised by AUTOWAKE -/
  auto : List Nat
  /-- time of the latest media request of a tile, in ns -/
  lastReq : Tab Nat
  deep : Deep
  /-- when PS4 was entered -/
  deepAt : Nat
  /-- key-erase alarms latched in PS4 (R499), as CIPH.ALARM bits -/
  keyLatch : Nat
  /-- levels of PORST_N, WARM_N, WAKE_N, PFAIL_N, KEY_ERASE_N and TEST_EN -/
  porstLow : Bool
  warmLow : Bool
  pfailLow : Bool
  keyLow : Bool
  hot : Bool
  testEn : Bool
  /-- when PORST_N last rose (R513) -/
  roseAt : Nat
  /-- calibrations of SerDes, HBM PHY and synthesiser stand (R501) -/
  calibrated : Bool
  deriving DecidableEq, Repr

/-- The test access port (R531 to R533). -/
structure Tap where
  instr : Nat
  /-- the boundary register -/
  cells : List Bool
  /-- outputs are driven from the cells, or float -/
  drive : Bool
  float : Bool
  deriving DecidableEq, Repr

/-! ### Host ports, queues and namespaces (R300 to R361) -/

/-- A sub-port (R301 to R306). -/
structure SubPort where
  /-- since when it is down -/
  downAt : Option Nat
  /-- priorities whose transmission a received PFC frame has stopped, each with the end of its quanta in ns -/
  paused : List (Nat × Nat)
  /-- priorities for which the device has sent XOFF, each with the time of the last such frame -/
  xoff : List (Nat × Nat)
  /-- bytes of the receive buffer held, by priority -/
  rx : Tab Nat
  /-- its link state has changed since HPT.LINK was last read (R302, R324) -/
  changed : Bool
  deriving DecidableEq, Repr

/-- A sub-port with nothing on it. -/
def SubPort.idle : SubPort := ⟨none, [], [], [], false⟩

/-- A packet sent and not yet acknowledged (R308). -/
structure Pkt where
  psn : Nat
  /-- 0 Send, 1 RDMA Write, 2 RDMA Read request -/
  kind : Nat
  cmd : Nat
  blk : Nat
  deriving DecidableEq, Repr

/-- What joined a queue reset and wants its end (R341). -/
inductive Joiner where
  /-- a Queue Reset command -/
  | reset (cmd : Nat)
  /-- a Delete I/O Submission Queue -/
  | delete (cmd : Nat)
  /-- the ending of the queue pair or of its controller -/
  | ending
  | controller
  deriving DecidableEq, Repr

/-- A queue pair: its NVMe queue and its RDMA transport (R308, R325). Pairs 0 to 8,191 are the I/O
pool; pair 8,191 + i is the admin pair of controller i. -/
structure Qp where
  /-- NQ.QPAIR.STATE: 0 free, 1 created, 2 connected, 3 resetting, 4 ending -/
  state : Nat
  cntlid : Nat
  qid : Nat
  size : Nat
  port : Nat
  sub : Nat
  /-- a connection request holds it, or the connection stands -/
  held : Bool
  /-- the connection is established (R309) -/
  est : Bool
  /-- HSQSIZE of the connection request -/
  hsq : Nat
  /-- the path MTU agreed at connection, in bytes; 0: none yet -/
  mtu : Nat
  sqhd : Nat
  /-- the drop ring (R315): address, key, slots, entries written -/
  raddr : Nat
  rkey : Nat
  rent : Nat
  ringSeq : Nat
  /-- capsules that have arrived and not passed intake, in order -/
  intake : List Capsule
  /-- since when the first of them waits for a place -/
  waitAt : Option Nat
  joined : List Joiner
  /-- old commands that never received a completion (R339) -/
  oldLeft : Nat
  /-- next packet sequence number and the packets in flight -/
  psn : Nat
  inflight : List Pkt
  retries : Nat
  /-- rate in 1/256 Gb/s; 0: unlimited, the sub-port rate -/
  rate : Nat
  cutAt : Option Nat
  cnpAt : Option Nat
  /-- the latest cut or recovery (R306) -/
  recAt : Option Nat
  /-- the packet sequence number that the host's next request packet has; that of the first packet of its latest
  message; whether a sequence NAK waits to be answered -/
  epsn : Nat
  mpsn : Nat
  gap : Bool
  deriving DecidableEq, Repr

/-- A free queue pair. -/
def Qp.free : Qp :=
  ⟨0, 0, 0, 0, 0, 0, false, false, 0, 0, 0, 0, 0, 0, 0, [], none, [], 0, 0, [], 0, 0, none, none, none, 0, 0, false⟩

/-- An association (R312, R313). -/
structure Assoc where
  live : Bool
  ending : Bool
  hostNqn : Payload
  hostId : Payload
  manager : Bool
  discovery : Bool
  port : Nat
  sub : Nat
  /-- keep-alive in ms, 0 off, and when the timer was last restarted -/
  kato : Nat
  kaAt : Nat
  /-- controller properties CC and CSTS -/
  cc : Nat
  csts : Nat
  /-- I/O queues granted -/
  granted : Nat
  /-- completion queues recorded: QID and QSIZE -/
  cqs : List (Nat × Nat)
  /-- I/O queues created: QID and queue pair -/
  sqs : List (Nat × Nat)
  /-- asynchronous event requests held, by command -/
  aers : List Nat
  /-- asynchronous event configuration -/
  aec : Nat
  /-- events waiting for a request to complete -/
  events : List Nat
  deriving DecidableEq, Repr

/-- No association. -/
def Assoc.none : Assoc :=
  ⟨false, false, [], [], false, false, 0, 0, 0, 0, 0, 0, 0, [], [], [], 0, []⟩

/-- The ordering classes of R331. -/
inductive Cls where
  | rd | wr | iv | fl | nd | none
  deriving DecidableEq, Repr

/-- Where a command comes from (R384, R386). -/
inductive Origin where
  | host | prefetch | lock
  deriving DecidableEq, Repr

/-- Where one block of a command stands. -/
inductive BlkSt where
  /-- nothing done yet -/
  | idle
  /-- an RDMA Read of the block is outstanding -/
  | fetching
  /-- its data is held in staging -/
  | staged
  /-- a media read of it is pending -/
  | fill
  /-- its data, or zeros, can be sent; or it is in its line, for a write -/
  | ready
  | sent
  deriving DecidableEq, Repr

/-- One unit of a line (R363). -/
structure Unit4 where
  valid : Bool
  dirty : Bool
  /-- zeros by the written-page map (R373, R400) -/
  zero : Bool
  /-- eligible for cleaning (R375), and by FUA or Flush (R376) -/
  elig : Bool
  urgent : Bool
  /-- a media write of it is in flight; it has been written again since -/
  inflight : Bool
  again : Bool
  /-- poisoned: a lost dirty block (R398) -/
  lost : Bool
  /-- filled by a prefetch and not yet hit -/
  pf : Bool
  /-- a fill is pending for this command -/
  fill : Option Nat
  /-- the fill's data is not to be kept (R387) -/
  gone : Bool
  /-- the generation of the latest write (R416) and its time -/
  gen : Nat
  at_ : Nat
  /-- the commands that waited for this data's way to the media when it was issued -/
  cover : List Nat
  data : Payload
  deriving DecidableEq, Repr

/-- An invalid unit. -/
def Unit4.none : Unit4 :=
  ⟨false, false, false, false, false, false, false, false, false, Option.none, false, 0, 0, [], []⟩

/-- One block of a command. -/
structure Blk where
  st : BlkSt
  drop : Option Cause
  /-- data held in staging, or read from its line for sending: the block and its guard; empty for zeros -/
  data : Payload
  /-- what its unit held before this write, until the write is visible (R338) -/
  prior : Option Unit4
  deriving DecidableEq, Repr

/-- An idle block. -/
def Blk.idle : Blk := ⟨.idle, none, [], Option.none⟩

/-- A command outstanding in the device (R327 to R336). -/
structure Cmd where
  live : Bool
  qp : Nat
  cap : Capsule
  origin : Origin
  cls : Cls
  nsid : Nat
  /-- its range of blocks, from `lo` up to but not including `hi`; `all`: every namespace -/
  lo : Nat
  hi : Nat
  all : Bool
  /-- its number in the arrival order, once placed (R330) -/
  place : Option Nat
  turned : Bool
  visible : Bool
  done : Bool
  onMedia : Bool
  /-- ended without effect (R333) -/
  void : Bool
  /-- an old command whose completion is suppressed (R338) -/
  old : Bool
  /-- slot generation latched at its turn (R416) -/
  gen : Nat
  blks : List Blk
  deadline : Option Nat
  /-- when its deadline was last extended (R183) -/
  extAt : Option Nat
  /-- its step cap (R182) -/
  cap6 : Nat
  fua : Bool
  /-- a status that a unit's end or a failure has forced -/
  status : Status
  dw0 : Nat
  dw1 : Nat
  /-- it does not allocate lines (R385) -/
  stream : Bool
  /-- units whose way to the media it waits for: namespace and LBA (R374, R336) -/
  units : List (Nat × Nat)
  /-- the buffer's counters of waits that it has been counted in, by their offsets: a request counts once in each
  (R366, R367, R381) -/
  waited : List Nat
  deriving DecidableEq, Repr

/-- A capsule of zeros. -/
def Capsule.zero : Capsule := ⟨0, 0, 0, 0, 0, 0, 0, 0, 0, 0, 0, 0, 0, 0, []⟩

/-- No command. -/
def Cmd.none : Cmd :=
  ⟨false, 0, Capsule.zero, .host, .none, 0, 0, 0, false, Option.none, false, false, false, false,
    false, false, 0, [], Option.none, Option.none, 7, false, .ok, 0, 0, false, [], []⟩

/-- Zone states (R354). -/
inductive ZState where
  | empty | implOpen | explOpen | closed | full | readOnly | offline
  deriving DecidableEq, Repr

/-- A zone: its state, the write pointer as an offset in the zone, and the offset up to which blocks have
been written, behind the pointer of a zone that was finished (R354). -/
structure Zone where
  state : ZState
  wp : Nat
  written : Nat
  deriving DecidableEq, Repr

/-- An empty zone. -/
def Zone.fresh : Zone := ⟨.empty, 0, 0⟩

/-- A namespace change whose flash write is in progress (R352). -/
inductive NsChange where
  | create (nsid : Nat)
  | delete (nsid : Nat)
  | attach (nsid : Nat)
  | detach (nsid : Nat)
  | deadline (nsid ms : Nat)
  deriving DecidableEq, Repr

/-- Queues, ordering and namespaces. -/
structure Nq where
  qps : Tab Qp
  assocs : Tab Assoc
  cmds : Tab Cmd
  /-- the next command's serial number and the next place in the arrival order -/
  nextCmd : Nat
  nextPlace : Nat
  /-- zones keyed by 1024·nsid + zone -/
  zones : Tab Zone
  /-- media write pointers keyed by (1024·nsid + zone)·1024 + j: reached, and recorded on the media -/
  reached : Tab Nat
  recorded : Tab Nat
  /-- by the same key: whether the latest record went to SYS sector 9, and the next goes to 8 (R353) -/
  recNine : Tab Bool
  /-- namespace changes waiting for their flash write, with the command -/
  changes : List (NsChange × Nat)
  /-- creates being blanked: namespace and command (R350) -/
  blanking : List (Nat × Nat)
  /-- the round-robin pointer over waiting queues (R327) -/
  turnPtr : Nat
  /-- segments in each port's transmit queue while they cannot be sent (R28): command and block -/
  tx : Tab (List (Nat × Nat))
  deriving DecidableEq, Repr

/-! ### The buffer (R362 to R390) and memory protection (R391 to R407) -/

/-- A line in a way of a set, or an eviction copy (R363, R380). -/
structure Line where
  /-- 0: the way is empty -/
  nsid : Nat
  line : Nat
  frame : Nat
  locked : Bool
  /-- present at an INVALL that is running (R388) -/
  inval : Bool
  units : Tab Unit4
  /-- with LBA format 1, its guard slot: 256 times the guard frame, plus the slot in it (R363) -/
  slot : Option Nat
  deriving DecidableEq, Repr

/-- An empty way. -/
def Line.none : Line := ⟨0, 0, 0, false, false, [], Option.none⟩

/-- A page of the staging pool and whose it is (R365). -/
structure Page where
  cmd : Nat
  blk : Nat
  /-- which of its frame's 16 pages it is -/
  ix : Nat
  deriving DecidableEq, Repr

/-- A stream tracker of Squirrel (R382). -/
structure Tracker where
  nsid : Nat
  last : Nat
  len : Nat
  stride : Int
  conf : Nat
  run : Nat
  write : Bool
  deriving DecidableEq, Repr

/-- An encryption on its way: a unit the cleaner has issued (R376, R419). -/
structure Issue where
  nsid : Nat
  lba : Nat
  gen : Nat
  data : Payload
  /-- a marker for a lost block (R398) -/
  marker : Bool
  deriving DecidableEq, Repr

/-- A sector on a queue between the tile and the buffer (R28). -/
structure Sector where
  psa : Nat
  req : MediaReq
  /-- from the tile: 4,096 user bytes and 64 metadata bytes; after the cipher engine: the plaintext block
  and its guard; empty with `drop` and for zeros -/
  info : Payload
  /-- the header marks a blank sector (R65) -/
  blank : Bool
  drop : Option Cause
  /-- the whole word's CRC-32C (R179, R189) -/
  crc : Word
  /-- the sector's ladder context in its tile, if one is open -/
  ctx : Option Nat
  deriving DecidableEq, Repr

/-- The buffer manager and the cipher's queues. -/
structure Buf where
  /-- lines keyed by 16·set + way -/
  lines : Tab Line
  plru : Tab Nat
  copies : List Line
  /-- staging frames with the pages in use: frame number and holders -/
  stage : List (Nat × List Page)
  trackers : List Tracker
  /-- commands at their turn that wait for an eviction, for room or for a frame (R366, R367, R381) -/
  waits : List Nat
  /-- the encrypt queue (R410) -/
  encrypt : List Issue
  /-- the cipher input queue of each tile and the buffer write queue (R28) -/
  cipherIn : Tab (List Sector)
  bufWrite : List Sector
  /-- media requests held at the hub for a tile (R36) -/
  held : Tab (List MediaReq)
  /-- the scan of an IV or ND command runs (R387) -/
  scans : List Nat
  /-- frames next reclaimed from this set (R367) -/
  reclaim : Nat
  /-- a lock command's lines that wait for a way, a frame, room under the limit of R366 or an intake place: namespace,
  line, and whether it has been counted as waiting for a frame -/
  lockFill : List (Nat × Nat × Bool)
  /-- blocks whose unit was discarded while a media write of it was in flight (R381) -/
  orphans : List (Nat × Nat)
  deriving DecidableEq, Repr

/-- Memory protection. -/
structure Memp where
  /-- written-page map: pages whose bit is set -/
  written : Tab Bool
  /-- when the lap began, in ns -/
  lapAt : Nat
  /-- pages corrected in this lap; in the last, with how many laps in a row; the scrub list -/
  fixed : List Nat
  streak : Tab Nat
  scrub : List Nat
  deriving DecidableEq, Repr

/-! ### Cipher (R408 to R429) -/

/-- One key slot. -/
structure Slot where
  /-- 0 EMPTY, 1 LOADED, 2 ERASED -/
  state : Nat
  key : Payload
  /-- the shadow's generation and key -/
  shadow : Option (Nat × Payload)
  gen : Nat
  exhausted : Bool
  sctr : Nat
  res : Nat
  /-- a journal record is being written, setting RES to this value -/
  record : Option Nat
  failed : Bool
  /-- an encryption waits for the record (R420) -/
  waiting : Bool
  deriving DecidableEq, Repr

/-- A slot that holds no key. -/
def Slot.empty : Slot := ⟨0, [], none, 0, false, 0, 0, none, false, false⟩

/-- The faults: each stops the block. -/
inductive Fault where
  /-- Raised by every command whose operand names a unit that no member of the family has: a tile,
  cluster, head, lane, port, sub-port, engine, thread, controller or slot beyond the ranges of R8.
  Safe: no such command exists, and every statement assumes its operands in range. -/
  | badOperand
  deriving DecidableEq, Repr

/-- The refusals. -/
inductive Refusal where
  /-- Raised by an arm of `exec` whose command has no meaning yet. Safe: nothing is claimed of it. -/
  | notModelled (mnemonic : String)
  deriving DecidableEq, Repr

/-- The machine. -/
structure State where
  /-- which member of the family this is (R1) -/
  part : Part
  /-- the time since power-on in ns (entry 3) -/
  now : Nat
  /-- free values taken (entry 2) -/
  free : Nat
  /-- commands waiting, first in, first out -/
  pending : List Instr
  /-- what the device has emitted, newest first (entry 4) -/
  out : List Out
  /-- the register space of R42: what differs from the reset values -/
  regs : Tab Word
  irq : Irq
  owl : Owl
  mgmt : Mgmt
  flash : Flash
  power : Power
  tap : Tap
  /-- sub-ports keyed by 4·p + k -/
  ports : Tab SubPort
  nq : Nq
  buf : Buf
  memp : Memp
  /-- key slots keyed by 8·s + k -/
  slots : Tab Slot
  tl : TileSide
  deriving DecidableEq, Repr

/-- The recorder with nothing in it: the first record has SEQ 1 (R479). -/
def Owl.reset : Owl := ⟨1, [], 0, [], [], [], [], [], none, []⟩

/-- The management port and executor, idle (R477). -/
def Mgmt.reset : Mgmt := ⟨false, false, none, false, [], none, [], none, [], [], [], [], []⟩

/-- A blank boot flash (entry 9). -/
def Flash.blank : Flash := ⟨[], none, none, 0, 0, [], [], [], [], []⟩

/-- Supplies have just risen, PORST_N is still low (R506): the first boot step is next (R504). -/
def Power.reset : Power :=
  ⟨1, 0, [], [], [], [], .awake, 0, 0, true, false, false, false, false, false, 0, false⟩

/-- The test access port after a TAP reset: IDCODE is selected (R532). -/
def Tap.reset : Tap := ⟨2, [], false, false⟩

/-- Queues with nothing in them. -/
def Nq.reset : Nq := ⟨[], [], [], 1, 1, [], [], [], [], [], [], 0, []⟩

/-- An empty buffer. -/
def Buf.reset : Buf := ⟨[], [], [], [], [], [], [], [], [], [], [], 0, [], []⟩

/-- No page written. -/
def Memp.reset : Memp := ⟨[], 0, [], [], []⟩

/-- The machine of a part right after power-on. -/
def State.resetOf (p : Part) : State where
  part := p
  now := 0
  free := 0
  pending := []
  out := []
  regs := []
  irq := ⟨[], [], []⟩
  owl := Owl.reset
  mgmt := Mgmt.reset
  flash := Flash.blank
  power := Power.reset
  tap := Tap.reset
  ports := []
  nq := Nq.reset
  buf := Buf.reset
  memp := Memp.reset
  slots := []
  tl := TileSide.reset

/-- The machine right after reset: a ZH7680 (entry 1). -/
def State.reset : State := State.resetOf .zh7680

end Sys2Proof.Machine
end

