-- ==== Sys2Proof/Machine/Ops.lean ====
section
/-! DEFINITION. The named operations every meaning is written with: reading and writing a register of
the address map (R11 to R13, R42, R108), counting (R12), emitting, taking a free value, presence of a
unit (R2, R8) and which power domain a register lies in (R494). -/

namespace Sys2Proof.Machine

/-- The answer of a command's meaning. -/
abbrev Res := Host.Outcome State Fault Refusal

/-! ### Registers -/

/-- What the register at an address holds: the reset value where nothing else is listed. -/
def State.reg (s : State) (a : Nat) : Word := Tab.get (resetVal s.part) s.regs a

/-- The state with the register at an address holding `w`. -/
def State.setReg (s : State) (a : Nat) (w : Word) : State :=
  { s with regs := Tab.set (resetVal s.part) s.regs a w }

/-- Bits `hi:lo` of a register. -/
def State.fld (s : State) (a hi lo : Nat) : Nat := Sys2Proof.fld (s.reg a) hi lo

/-- The state with bits `hi:lo` of a register replaced. -/
def State.setF (s : State) (a hi lo n : Nat) : State := s.setReg a (Sys2Proof.setFld (s.reg a) hi lo n)

/-- Bit `i` of a register. -/
def State.bit (s : State) (a i : Nat) : Bool := (s.reg a).getLsbD i

/-- The state with bit `i` of a register set or cleared. -/
def State.setB (s : State) (a i : Nat) (b : Bool) : State := s.setF a i i (if b then 1 else 0)

/-- `n` added to a counter of `b` bits at bit `lo` of a register; it saturates (R12). -/
def State.bumpF (s : State) (a hi lo n : Nat) : State :=
  s.setF a hi lo (min (s.fld a hi lo + n) (2 ^ (hi + 1 - lo) - 1))

/-- `n` added to a 32-bit counter; it saturates at its all-ones value (R12). -/
def State.bump (s : State) (a : Nat) (n : Nat := 1) : State := s.bumpF a 31 0 n

/-- Bits set in a register, those of `w`. -/
def State.orReg (s : State) (a : Nat) (w : Word) : State := s.setReg a (s.reg a ||| w)

/-- Bits cleared in a register, those of `w` (a W1C write: R11). -/
def State.clrReg (s : State) (a : Nat) (w : Word) : State := s.setReg a (s.reg a &&& ~~~w)

/-! ### Emission, free values, time -/

/-- The device emits `o`. -/
def State.emit (s : State) (o : Out) : State := { s with out := o :: s.out }

/-- The device emits several things in their order. -/
def State.emits (s : State) (os : List Out) : State := os.foldl (fun s o => s.emit o) s

/-- The next free value (entry 2). -/
def State.freeVal (s : State) : Word := Config.freeValue s.free

/-- The state after a free value has been taken. -/
def State.took (s : State) : State := { s with free := s.free + 1 }

/-- Milliseconds and microseconds in ns. -/
def ms (n : Nat) : Nat := n * 1000000

/-- Microseconds in ns. -/
def us (n : Nat) : Nat := n * 1000

/-! ### Presence and index ranges (R2, R8) -/

/-- Whether a spindle tile is present (R1). -/
def State.hasTile (s : State) (t : Nat) : Bool := decide (t < s.part.tiles)

/-- Whether a host port is present (R1). -/
def State.hasPort (s : State) (p : Nat) : Bool := decide (p < s.part.ports)

/-- The present tiles, in order. -/
def State.tiles (s : State) : List Nat := List.range s.part.tiles

/-- A command for a tile: `f` when the tile is present, nothing when it is absent (R2). -/
def onTile (s : State) (t : Nat) (f : State) : Res :=
  if t < 8 then .next (if s.hasTile t then f else s) else .fault .badOperand

/-- A command for an actuator cluster. -/
def onCluster (s : State) (t c : Nat) (f : State) : Res :=
  if c < 4 then onTile s t f else .fault .badOperand

/-- A command for a head. -/
def onHead (s : State) (t c h : Nat) (f : State) : Res :=
  if h < 24 then onCluster s t c f else .fault .badOperand

/-- A command for a lane of a tile. -/
def onLane (s : State) (t l : Nat) (f : State) : Res :=
  if l < 192 then onTile s t f else .fault .badOperand

/-- A command for a sub-port: nothing when its port is absent (R2). -/
def onSub (s : State) (p k : Nat) (f : State) : Res :=
  if p < 10 ∧ k < 4 then .next (if s.hasPort p then f else s) else .fault .badOperand

/-- A command with an operand that must satisfy `ok` (R8). -/
def onOk (ok : Bool) (f : State) : Res := if ok then .next f else .fault .badOperand

/-- Lane `l` of head `h`, reader `r` of cluster `c` (R8). -/
def laneOf (c h r : Nat) : Nat := 48 * c + 2 * h + r

/-- The cluster, head and reader of a lane (R8). -/
def laneParts (l : Nat) : Nat × Nat × Nat := (l / 48, l % 48 / 2, l % 2)

/-- A head's index in its tile, 24·c + h. -/
def headIx (c h : Nat) : Nat := 24 * c + h

/-! ### Power domains (R494) -/

/-- The domain of tile `t`'s channels. -/
def domCh (t : Nat) : Nat := 4 + t

/-- The domain of tile `t`'s motion. -/
def domMo (t : Nat) : Nat := 12 + t

/-- Whether a domain is on (PWR.DOM). -/
def State.domOn (s : State) (d : Nat) : Bool := s.bit (aPwr 0xC) d

/-- A command for a unit in a domain: nothing while the domain is off (R43). -/
def whenOn (s : State) (d : Nat) (f : State) : State := if s.domOn d then f else s

/-- A command for a tile's motion side. -/
def onTileMo (s : State) (t : Nat) (f : State) : Res := onTile s t (whenOn s (domMo t) f)

/-- A command for a tile's channel side. -/
def onTileCh (s : State) (t : Nat) (f : State) : Res := onTile s t (whenOn s (domCh t) f)

/-- A command for the motion side of a cluster. -/
def onClusterMo (s : State) (t c : Nat) (f : State) : Res := onCluster s t c (whenOn s (domMo t) f)

/-- A command for the channel side of a cluster. -/
def onClusterCh (s : State) (t c : Nat) (f : State) : Res := onCluster s t c (whenOn s (domCh t) f)

/-- A command for the motion side of a head. -/
def onHeadMo (s : State) (t c h : Nat) (f : State) : Res := onHead s t c h (whenOn s (domMo t) f)

/-- A command for the channel side of a head. -/
def onHeadCh (s : State) (t c h : Nat) (f : State) : Res := onHead s t c h (whenOn s (domCh t) f)

/-- A command for a lane whose channels are powered. -/
def onLaneCh (s : State) (t l : Nat) (f : State) : Res := onLane s t l (whenOn s (domCh t) f)

/-- The domain that holds a register, by block and offset (R494; entry 10 for the arm-link and UCS
pages, which lie with the blocks they serve). -/
def blkDom : RegBlk → Nat → Nat
  | .pwr, _ | .owl, _ => 0
  | .hub, _ | .irq, _ | .mgt, _ | .nq, _ | .buf, _ | .memp, _ | .ciph, _ | .sett _, _ | .ucs, _ => 1
  | .hpt _, _ => 2
  | .lane t _, _ | .det t, _ | .wrt t, _ => domCh t
  | .wrtc t _, o => if o < 0x100 then domMo t else domCh t
  | .tile t, _ | .tirq t, _ | .srv t _, _ | .ctl t _, _ | .spn t, _ => domMo t
  | .tucs t k, _ => if k = 5 then domCh t else domMo t

/-- The tile a block belongs to, if any. -/
def blkTile : RegBlk → Option Nat
  | .lane t _ | .det t | .wrt t | .wrtc t _ | .tile t | .tirq t | .srv t _ | .ctl t _ | .spn t
  | .tucs t _ => some t
  | _ => none

/-- A domain's VOL registers take their reset values (R14, R495 step 3). -/
def State.volReset (s : State) (inDom : Nat → Bool) : State :=
  { s with regs := s.regs.filter fun e =>
      match blkOf e.1, regRow s.part e.1 with
      | some (b, o), some r => !(decide (r.keep = .vol) && inDom (blkDom b o))
      | _, _ => true }

/-- A domain's CFG registers take their reset values, before the configuration is loaded (R466). -/
def State.cfgReset (s : State) (inDom : Nat → Bool) : State :=
  { s with regs := s.regs.filter fun e =>
      match blkOf e.1, regRow s.part e.1 with
      | some (b, o), some r => !(decide (r.keep = .cfg) && inDom (blkDom b o))
      | _, _ => true }

/-! ### Link state (R37, R40) -/

/-- HUB.LINK[t].STATE. -/
def State.linkState (s : State) (t : Nat) : Nat := s.fld (aHub (0x100 + 4 * t)) 3 0

/-- Whether tile `t`'s link is in service. -/
def State.linkUp (s : State) (t : Nat) : Bool := s.linkState t == 3

/-- Whether a tile's link is training, held or retraining: accesses wait (R37). -/
def State.linkWait (s : State) (t : Nat) : Bool :=
  s.linkState t == 1 || s.linkState t == 2 || s.linkState t == 4

/-- Whether a tile is in maintenance (R461). -/
def inMaint (s : State) (t : Nat) : Bool := s.bit (aMgt 0x20) t

/-- Whether a tile's sectors and results reach the hub: its link is in service, or closed for maintenance only,
in which what is in flight completes (R35, R461; DEDUCED, entry 129). -/
def hubHears (s : State) (t : Nat) : Bool :=
  s.linkUp t || (s.linkState t == 2 && inMaint s t && decide (Tab.at 0 s.power.bring t = 0))

/-! ### Tables of units -/

/-- The state with target `n` of controller `ic` replaced. -/
def State.target (s : State) (ic n : Nat) : Target := Tab.at Target.idle s.irq.targets (32 * ic + n)

/-- The state with a target changed. -/
def State.setTarget (s : State) (ic n : Nat) (t : Target) : State :=
  { s with irq := { s.irq with targets := Tab.to Target.idle s.irq.targets (32 * ic + n) t } }

/-- A queue pair. -/
def State.qp (s : State) (n : Nat) : Qp := Tab.at Qp.free s.nq.qps n

/-- The state with a queue pair changed. -/
def State.setQp (s : State) (n : Nat) (q : Qp) : State :=
  { s with nq := { s.nq with qps := Tab.to Qp.free s.nq.qps n q } }

/-- An association, by controller ID. -/
def State.assoc (s : State) (c : Nat) : Assoc := Tab.at Assoc.none s.nq.assocs c

/-- The state with an association changed. -/
def State.setAssoc (s : State) (c : Nat) (a : Assoc) : State :=
  { s with nq := { s.nq with assocs := Tab.to Assoc.none s.nq.assocs c a } }

/-- A command by its serial number. -/
def State.cmd (s : State) (i : Nat) : Cmd := Tab.at Cmd.none s.nq.cmds i

/-- The state with a command changed. -/
def State.setCmd (s : State) (i : Nat) (c : Cmd) : State :=
  { s with nq := { s.nq with cmds := Tab.to Cmd.none s.nq.cmds i c } }

/-- A key slot, 8·s + k. -/
def State.slot (s : State) (i : Nat) : Slot := Tab.at Slot.empty s.slots i

/-- The state with a key slot changed. -/
def State.setSlot (s : State) (i : Nat) (x : Slot) : State :=
  { s with slots := Tab.to Slot.empty s.slots i x }

/-- A sub-port, 4·p + k. -/
def State.sub (s : State) (i : Nat) : SubPort := Tab.at SubPort.idle s.ports i

/-- The state with a sub-port changed. -/
def State.setSub (s : State) (i : Nat) (x : SubPort) : State :=
  { s with ports := Tab.to SubPort.idle s.ports i x }

/-- The admin queue pair of a controller: the pairs above the I/O pool. -/
def adminQp (cntlid : Nat) : Nat := 8191 + cntlid

end Sys2Proof.Machine
end

