-- ==== Sys2Proof/Machine/TileOps.lean ====
section
/-! DEFINITION. Reading and changing the units of the tile side, one accessor pair for each table. -/

namespace Sys2Proof.Machine

/-- The index of a head over all tiles. -/
def headIdx (t c h : Nat) : Nat := 96 * t + 24 * c + h

/-- A link end. -/
def State.link (s : State) (t e : Nat) : LinkEnd := Tab.at LinkEnd.fresh s.tl.links (2 * t + e)
/-- The state with a link end replaced. -/
def State.setLink (s : State) (t e : Nat) (x : LinkEnd) : State :=
  { s with tl := { s.tl with links := Tab.to LinkEnd.fresh s.tl.links (2 * t + e) x } }
/-- The state with a link end changed. -/
def State.modLink (s : State) (t e : Nat) (f : LinkEnd → LinkEnd) : State := s.setLink t e (f (s.link t e))

/-- A lane. -/
def State.lane (s : State) (t l : Nat) : LaneX := Tab.at LaneX.none s.tl.lanes (192 * t + l)
/-- The state with a lane replaced. -/
def State.setLane (s : State) (t l : Nat) (x : LaneX) : State :=
  { s with tl := { s.tl with lanes := Tab.to LaneX.none s.tl.lanes (192 * t + l) x } }
/-- The state with a lane changed. -/
def State.modLane (s : State) (t l : Nat) (f : LaneX → LaneX) : State := s.setLane t l (f (s.lane t l))

/-- The read side of head `i`, 96·t + 24·c + h. -/
def State.head (s : State) (i : Nat) : HeadX := Tab.at HeadX.none s.tl.heads (i)
/-- The state with the read side of head `i`, 96·t + 24·c + h replaced. -/
def State.setHead (s : State) (i : Nat) (x : HeadX) : State :=
  { s with tl := { s.tl with heads := Tab.to HeadX.none s.tl.heads (i) x } }
/-- The state with the read side of head `i`, 96·t + 24·c + h changed. -/
def State.modHead (s : State) (i : Nat) (f : HeadX → HeadX) : State := s.setHead i (f (s.head i))

/-- A tile's detector, pool and queues. -/
def State.det (s : State) (t : Nat) : DetX := Tab.at DetX.none s.tl.dets (t)
/-- The state with a tile's detector, pool and queues replaced. -/
def State.setDet (s : State) (t : Nat) (x : DetX) : State :=
  { s with tl := { s.tl with dets := Tab.to DetX.none s.tl.dets (t) x } }
/-- The state with a tile's detector, pool and queues changed. -/
def State.modDet (s : State) (t : Nat) (f : DetX → DetX) : State := s.setDet t (f (s.det t))

/-- A recovery context. -/
def State.ctx (s : State) (t i : Nat) : Ctx := Tab.at Ctx.none s.tl.ctxs (256 * t + i)
/-- The state with a recovery context replaced. -/
def State.setCtx (s : State) (t i : Nat) (x : Ctx) : State :=
  { s with tl := { s.tl with ctxs := Tab.to Ctx.none s.tl.ctxs (256 * t + i) x } }
/-- The state with a recovery context changed. -/
def State.modCtx (s : State) (t i : Nat) (f : Ctx → Ctx) : State := s.setCtx t i (f (s.ctx t i))

/-- The write side of head `i`. -/
def State.headW (s : State) (i : Nat) : HeadW := Tab.at HeadW.none s.tl.headW (i)
/-- The state with the write side of head `i` replaced. -/
def State.setHeadW (s : State) (i : Nat) (x : HeadW) : State :=
  { s with tl := { s.tl with headW := Tab.to HeadW.none s.tl.headW (i) x } }
/-- The state with the write side of head `i` changed. -/
def State.modHeadW (s : State) (i : Nat) (f : HeadW → HeadW) : State := s.setHeadW i (f (s.headW i))

/-- A tile's write path. -/
def State.wr (s : State) (t : Nat) : WriteX := Tab.at WriteX.none s.tl.writes (t)
/-- The state with a tile's write path replaced. -/
def State.setWr (s : State) (t : Nat) (x : WriteX) : State :=
  { s with tl := { s.tl with writes := Tab.to WriteX.none s.tl.writes (t) x } }
/-- The state with a tile's write path changed. -/
def State.modWr (s : State) (t : Nat) (f : WriteX → WriteX) : State := s.setWr t (f (s.wr t))

/-- A cluster's head-write queue. -/
def State.wrQ (s : State) (t c : Nat) : WrQ := Tab.at ([] : WrQ) s.tl.wrQ (4 * t + c)
/-- The state with a cluster's head-write queue replaced. -/
def State.setWrQ (s : State) (t c : Nat) (x : WrQ) : State :=
  { s with tl := { s.tl with wrQ := Tab.to ([] : WrQ) s.tl.wrQ (4 * t + c) x } }
/-- The state with a cluster's head-write queue changed. -/
def State.modWrQ (s : State) (t c : Nat) (f : WrQ → WrQ) : State := s.setWrQ t c (f (s.wrQ t c))

/-- An arm link. -/
def State.arm (s : State) (t c : Nat) : Arm := Tab.at Arm.none s.tl.arms (4 * t + c)
/-- The state with an arm link replaced. -/
def State.setArm (s : State) (t c : Nat) (x : Arm) : State :=
  { s with tl := { s.tl with arms := Tab.to Arm.none s.tl.arms (4 * t + c) x } }
/-- The state with an arm link changed. -/
def State.modArm (s : State) (t c : Nat) (f : Arm → Arm) : State := s.setArm t c (f (s.arm t c))

/-- Reader `r` of head `i`. -/
def State.reader (s : State) (i r : Nat) : Reader := Tab.at Reader.off s.tl.readers (2 * i + r)
/-- The state with reader `r` of head `i` replaced. -/
def State.setReader (s : State) (i r : Nat) (x : Reader) : State :=
  { s with tl := { s.tl with readers := Tab.to Reader.off s.tl.readers (2 * i + r) x } }
/-- The state with reader `r` of head `i` changed. -/
def State.modReader (s : State) (i r : Nat) (f : Reader → Reader) : State := s.setReader i r (f (s.reader i r))

/-- The servo and control state of head `i`. -/
def State.headS (s : State) (i : Nat) : HeadS := Tab.at HeadS.none s.tl.headS (i)
/-- The state with the servo and control state of head `i` replaced. -/
def State.setHeadS (s : State) (i : Nat) (x : HeadS) : State :=
  { s with tl := { s.tl with headS := Tab.to HeadS.none s.tl.headS (i) x } }
/-- The state with the servo and control state of head `i` changed. -/
def State.modHeadS (s : State) (i : Nat) (f : HeadS → HeadS) : State := s.setHeadS i (f (s.headS i))

/-- A control engine. -/
def State.ctl (s : State) (t c : Nat) : Ctl := Tab.at Ctl.none s.tl.ctls (4 * t + c)
/-- The state with a control engine replaced. -/
def State.setCtl (s : State) (t c : Nat) (x : Ctl) : State :=
  { s with tl := { s.tl with ctls := Tab.to Ctl.none s.tl.ctls (4 * t + c) x } }
/-- The state with a control engine changed. -/
def State.modCtl (s : State) (t c : Nat) (f : Ctl → Ctl) : State := s.setCtl t c (f (s.ctl t c))

/-- A spindle drive. -/
def State.spn (s : State) (t : Nat) : Spn := Tab.at Spn.none s.tl.spns (t)
/-- The state with a spindle drive replaced. -/
def State.setSpn (s : State) (t : Nat) (x : Spn) : State :=
  { s with tl := { s.tl with spns := Tab.to Spn.none s.tl.spns (t) x } }
/-- The state with a spindle drive changed. -/
def State.modSpn (s : State) (t : Nat) (f : Spn → Spn) : State := s.setSpn t (f (s.spn t))

/-- An engine. -/
def State.eng (s : State) (e : Nat) : Engine := Tab.at Engine.fresh s.tl.engines (e)
/-- The state with an engine replaced. -/
def State.setEng (s : State) (e : Nat) (x : Engine) : State :=
  { s with tl := { s.tl with engines := Tab.to Engine.fresh s.tl.engines (e) x } }
/-- The state with an engine changed. -/
def State.modEng (s : State) (e : Nat) (f : Engine → Engine) : State := s.setEng e (f (s.eng e))

end Sys2Proof.Machine
end

