-- ==== Sys2Proof/Machine/Banks.lean ====
section
/-! DEFINITION. The engines and the banks of their control stores (R282, R283, R292, R293, R295). Engine 0 is
the dispatch engine; engine 1 + 6·t + k is store `k` of tile `t` (R298). -/

namespace Sys2Proof.Machine

/-! ### Engines (R282, R283) -/

/-- The kind of an engine: 0 dispatch, 1 control, 2 spindle, 3 ladder. -/
def engKind (e : Nat) : Nat :=
  if e = 0 then 0 else if (e - 1) % 6 < 4 then 1 else if (e - 1) % 6 = 4 then 2 else 3

/-- The tile of a tile's engine. -/
def engTile (e : Nat) : Nat := (e - 1) / 6
/-- The store page of an engine (R298). -/
def engPage (e : Nat) : Nat := if e = 0 then 0 else (e - 1) % 6

/-- Words of a store. -/
def storeWords (e : Nat) : Nat :=
  if engKind e = 0 then 16384 else if engKind e = 1 then 8192 else 4096

/-- Words of scratch memory; a ladder context has 32 of its own. -/
def scratchWords (e : Nat) : Nat :=
  if engKind e = 0 then 8192 else if engKind e = 1 then 2048 else if engKind e = 2 then 1024 else 32

/-- Threads at once. -/
def engThreads (e : Nat) : Nat := if engKind e = 0 then 64 else if engKind e = 3 then 256 else 1

/-- Whether an engine keeps one register file and runs routines. -/
def isRoutine (e : Nat) : Bool := engKind e == 1 || engKind e == 2

/-- The domain of an engine: the hub's D1, a ladder's its tile's channels, the others its tile's motion (R282). -/
def engDom (e : Nat) : Nat :=
  if e = 0 then 1 else if engPage e = 5 then domCh (engTile e) else domMo (engTile e)

/-- A command for an engine: nothing when its tile is absent. -/
def onEng (s : State) (e : Nat) (f : State) : Res :=
  onOk (decide (e < 49)) (if e = 0 || s.hasTile (engTile e) then whenOn s (engDom e) f else s)

/-! ### Banks -/

/-- What a bank's word holds where nothing else is listed: the default image or 0. The printed word of
the default ladder image is R299's jump at L2_FAIL. -/
def bankGround (e : Nat) (dflt : Bool) (i : Nat) : Word :=
  if dflt then (if engKind e = 3 ∧ i = 0x0176 then 0x900001C0 else Config.defaultWord e i) else 0

/-- A word of a bank; table entries of the dispatch store lie at 0x4000 to 0x40FF (R292). -/
def bankWord (e : Nat) (b : StoreBank) (i : Nat) : Word := Tab.get (bankGround e b.dflt) b.words i

/-- LIVE: the bank that executes. -/
def liveBank (s : State) (e : Nat) : Nat := s.fld (aUcs e 4) 0 0
/-- STAGED: 0 EMPTY, 1 LOADING, 2 READY, 3 PREV. -/
def staged (s : State) (e : Nat) : Nat := s.fld (aUcs e 4) 5 4
/-- PEND. -/
def swapPending (s : State) (e : Nat) : Bool := s.bit (aUcs e 4) 8

/-- A bank of an engine. -/
def getBank (g : Engine) (b : Nat) : StoreBank := if b = 0 then g.b0 else g.b1

/-- An engine with a bank replaced. -/
def putBank (g : Engine) (b : Nat) (x : StoreBank) : Engine := if b = 0 then { g with b0 := x } else { g with b1 := x }

/-- The staged bank of an engine. -/
def stagedBank (s : State) (e : Nat) : StoreBank := getBank (s.eng e) (1 - liveBank s e)
/-- The live bank of an engine. -/
def bankLive (s : State) (e : Nat) : StoreBank := getBank (s.eng e) (liveBank s e)

/-- DRAIN: threads that run in the staged bank (R295). -/
def drain (s : State) (e : Nat) : Nat :=
  if isRoutine e then 0
  else ((s.eng e).threads.filter fun x => x.2.live && decide (x.2.bank ≠ liveBank s e)).length

/-- The bytes that SEAL checks: the words in address order, then the table entries (R293). -/
def bankBytes (e : Nat) (b : StoreBank) : Payload :=
  (List.range (storeWords e)).flatMap (fun i => beBytes 4 (bankWord e b i).toNat) ++
    (if e = 0 then (List.range 256).flatMap fun i => beBytes 4 (bankWord e b (0x4000 + i)).toNat else [])

/-- CRC-32C of a bank (R293). -/
def bankCrc (e : Nat) (b : StoreBank) : Word := crc32c (bankBytes e b)

/-- Whether UCS.ADDR names a word of a store or one of its table entries. -/
def ucsAddrOk (e a : Nat) : Bool :=
  decide (a < storeWords e) || (decide (e = 0) && decide (0x4000 ≤ a) && decide (a ≤ 0x40FF))

/-- The word that UCS.DATA shows at UCS.ADDR: of the live bank with LIVE set, else of the staged one. -/
def ucsShown (s : State) (e : Nat) : Word :=
  let a := s.fld (aUcs e 0xC) 14 0
  let b := if s.bit (aUcs e 0xC) 31 then bankLive s e else stagedBank s e
  if ucsAddrOk e a then bankWord e b a else 0

/-! ### Threads (R283, R289, R290) -/

/-- A thread of an engine. -/
def thread (s : State) (e th : Nat) : Thread := Tab.at Thread.none (s.eng e).threads th

/-- The state with a thread replaced. -/
def setThread (s : State) (e th : Nat) (x : Thread) : State :=
  s.modEng e fun g => { g with threads := Tab.to Thread.none g.threads th x }

/-- The address that an entry vector begins at: the vector's own word, which holds a JMP (R288). -/
def startThread (s : State) (e th pc : Nat) (g1 g2 : Word) (packet cmd : Nat) (fresh : Bool) : State :=
  setThread s e th
    ⟨true, liveBank s e, pc, 0, none, Tab.to 0 (Tab.to 0 [] 1 g1) 2 g2, packet, cmd, fresh, false⟩

/-! ### Routines (R283, R288) -/

/-- Whether an image other than the default one is live. The chapters of the control engine and of the spindle
drive describe what the default image does, and their commands do it; another image's routines run by their
words (entry 16). -/
def imaged (s : State) (e : Nat) : Bool := !(bankLive s e).dflt

/-- A routine begins at its vector (R283, R288); a head record lies in scratch 0 to 3, in a form that the manual
does not give. -/
def beginRoutine (s : State) (e vector head : Nat) : State :=
  let rec4 := engKind e = 1 ∧ vector = 2
  let s :=
    if rec4 then
      (List.range 4).foldl
        (fun s i =>
          let w := s.freeVal
          s.took.modEng e fun g => { g with scratch := Tab.to 0 g.scratch i w }) s
    else s
  startThread s e 0 vector 0 0 vector head (vector == 1)

/-- An event of a routine store: its routine begins, or waits until the one under way has ended (R283). -/
def routineEvent (s : State) (e vector head : Nat) : State :=
  if (thread s e 0).live then s.modEng e fun g => { g with queue := g.queue ++ [(vector, head)] }
  else beginRoutine s e vector head

/-- The next event of a routine store that has none under way. -/
def nextRoutine (s : State) (e : Nat) : State :=
  match (s.eng e).queue with
  | (v, h) :: rest => beginRoutine (s.modEng e fun g => { g with queue := rest }) e v h
  | [] => s

/-- The engine of a cluster, and of a tile's drive (R298). -/
def ctlEng (t c : Nat) : Nat := 1 + 6 * t + c
/-- The spindle engine of a tile. -/
def spnEng (t : Nat) : Nat := 1 + 6 * t + 4

end Sys2Proof.Machine
end

