-- ==== Sys2Proof/Machine/Ldpc.lean ====
section
/-! DEFINITION. The sector code (R60, R61): its parity checks, the encoder, and the decoder of R124. The base
matrix stands in the scheduler ROM (`Config.circulant`, entry 6); row i of a circulant with shift s has its 1
in column i + s, modulo 128 (entry 6). -/

namespace Sys2Proof.Machine

/-- The circulants of a block row that are present: block column and shift (R61). -/
def rowCirculants (r : Nat) : List (Nat × Nat) :=
  (List.range 290).filterMap fun c => (Config.circulant (290 * r + c)).map fun s => (c, s.toNat)

/-- Block `c` of a codeword: 128 entries. -/
def blockOf {α : Type} (w : List α) (c : Nat) : List α := (w.drop (128 * c)).take 128

/-- A block turned so that entry `i` is the one the circulant pairs with row `i`. -/
def turn {α : Type} (s : Nat) (b : List α) : List α := b.drop s ++ b.take s

/-- The exclusive or of two runs of bits. -/
def xorBits : List Bool → List Bool → List Bool := List.zipWith Bool.xor

/-- The 128 checks of a block row over the block columns that satisfy `p`. -/
def rowChecks (p : Nat → Bool) (w : List Bool) (r : Nat) : List Bool :=
  ((rowCirculants r).filter fun e => p e.1).foldl (fun a e => xorBits a (turn e.2 (blockOf w e.1)))
    (List.replicate 128 false)

/-- The syndrome of a word of 37,120 bits: 3,712 checks. -/
def syndrome (w : List Bool) : List Bool := (List.range 29).flatMap fun r => rowChecks (fun _ => true) w r

/-- The weight of a syndrome. -/
def weightOf (bs : List Bool) : Nat := (bs.filter id).length

/-- Whether a word is a codeword. -/
def isCodeword (w : List Bool) : Bool := decide (w.length = 37120) && decide (weightOf (syndrome w) = 0)

/-! ### Encoding (R60, R61, R139) -/

/-- Whether two runs of bits share an odd number of ones. -/
def parityOf : List Bool → List Bool → Bool
  | a :: l, b :: m => Bool.xor (a && b) (parityOf l m)
  | _, _ => false

/-- Unknown bits that satisfy equations over them, by elimination; a bit no equation settles is 0. -/
def solveBits : Nat → List (List Bool × Bool) → List Bool
  | 0, _ => []
  | n + 1, rows =>
    match rows.find? fun r => r.1.headD false with
    | none => false :: solveBits n (rows.map fun r => (r.1.tail, r.2))
    | some p =>
      let rest := (rows.erase p).map fun r =>
        if r.1.headD false then (xorBits r.1.tail p.1.tail, Bool.xor r.2 p.2) else (r.1.tail, r.2)
      let xs := solveBits n rest
      Bool.xor p.2 (parityOf p.1.tail xs) :: xs

/-- The equations of the 3,712 parity bits: check `i` of block row `r` over them, and what the information
bits bring to it. -/
def parityRows (info : List Bool) : List (List Bool × Bool) :=
  (List.range 29).flatMap fun r =>
    let rhs := rowChecks (fun c => decide (c < 261)) info r
    let cs := (rowCirculants r).filter fun e => decide (261 ≤ e.1)
    (List.range 128).map fun i =>
      ((List.range 3712).map fun k =>
          (cs.filter fun e => decide (128 * (e.1 - 261) + (i + e.2) % 128 = k)).length % 2 == 1,
        nth false rhs i)

/-- The codeword of 33,408 information bits: the code is systematic (R60). -/
def encodeBits (info : List Bool) : List Bool := info ++ solveBits 3712 (parityRows info)

/-! ### Decoding (R124) -/

/-- A 7-bit message. -/
def msg7 (x : Int) : Int := clampI (-63) 63 x

/-- The messages of one check back to its bits: to each the product of the others' signs, and the least of
their magnitudes less the offset. -/
def checkOut (off : Nat) (qs : List Int) : List Int :=
  let neg := (qs.filter fun q => decide (q < 0)).length % 2 == 1
  (List.range qs.length).map fun j =>
    let q := nth 0 qs j
    let others := (qs.eraseIdx j).map absI
    let m : Nat := match others with | [] => 0 | x :: xs => xs.foldl min x - off
    if Bool.xor neg (decide (q < 0)) then -(m : Int) else (m : Int)

/-- A decoder's memory: the value of every bit, and the messages of every block row by block column. -/
structure LdpcSt where
  vals : List Int
  msgs : List (List (List Int))
  deriving DecidableEq, Repr

/-- A word with block `c` replaced. -/
def setBlock (w : List Int) (c : Nat) (b : List Int) : List Int := w.take (128 * c) ++ b ++ w.drop (128 * c + 128)

/-- One block row of an iteration: the bits' values less the row's messages, the checks, the values again. -/
def layer (off : Nat) (x : LdpcSt) (r : Nat) : LdpcSt :=
  let cs := rowCirculants r
  let old := nth [] x.msgs r
  let qs := (List.range cs.length).map fun k =>
    let e := nth (0, 0) cs k
    List.zipWith (fun v m => msg7 (v - m)) (turn e.2 (blockOf x.vals e.1)) (nth (List.replicate 128 0) old k)
  let outs := (List.range 128).map fun i => checkOut off (qs.map fun q => nth 0 q i)
  let new := (List.range cs.length).map fun k => outs.map fun o => nth 0 o k
  let vals := (List.range cs.length).foldl
    (fun w k =>
      let e := nth (0, 0) cs k
      setBlock w e.1 (turn (128 - e.2) (List.zipWith (· + ·) (nth [] qs k) (nth [] new k)))) x.vals
  ⟨vals, setNth x.msgs r new⟩

/-- Hard decisions: a value below 0 is a 1 (R116). -/
def hardOf (vs : List Int) : List Bool := vs.map fun v => decide (v < 0)

/-- How a decode ends: the word, whether its syndrome is zero, the iterations used and the final weight. -/
structure Decoded where
  bits : List Bool
  conv : Bool
  iters : Nat
  weight : Nat
  deriving DecidableEq, Repr

/-- Up to `n` iterations more, after `k` that have been made: the decoder stops as soon as the syndrome is
zero (R124). -/
def decodeRun (off : Nat) : Nat → Nat → LdpcSt → Decoded
  | 0, k, x => ⟨hardOf x.vals, false, k, weightOf (syndrome (hardOf x.vals))⟩
  | n + 1, k, x =>
    let y := (List.range 29).foldl (layer off) x
    let bs := hardOf y.vals
    let w := weightOf (syndrome bs)
    if w = 0 then ⟨bs, true, k + 1, 0⟩ else decodeRun off n (k + 1) y

/-- A decode of a codeword's soft values with an iteration limit (R124). -/
def decodeSoft (itmax : Nat) (soft : List Int) : Decoded :=
  decodeRun Config.minSumOffset itmax 0
    ⟨soft, (List.range 29).map fun r => (rowCirculants r).map fun _ => List.replicate 128 0⟩

/-- Codeword bits whose hard decision a decode changed from the detector's (R131). -/
def changedBits (soft : List Int) (bits : List Bool) : Nat := weightOf (xorBits (hardOf soft) bits)

end Sys2Proof.Machine
end

