-- ==== Sys2Proof/Machine/Geometry.lean ====
section
/-! DEFINITION. Surfaces, bands, zones and sectors (R9, R10, R44 to R66) and the placement of
namespaces on them (R344 to R347): from a logical block to a physical sector address and back to the
checks a PSA and a header pass. -/

namespace Sys2Proof.Machine

/-! ### The format of a tile (R67) -/

/-- BANDS, ZONES, RT and BT of a tile. -/
def fmtBands (s : State) (t : Nat) : Nat := s.fld (aTile t 0x100) 23 16
/-- ZONES. -/
def fmtZones (s : State) (t : Nat) : Nat := s.fld (aTile t 0x100) 15 8
/-- RSVTRK. -/
def fmtRsv (s : State) (t : Nat) : Nat := s.fld (aTile t 0x100) 7 0
/-- TRACKS: tracks per band. -/
def fmtTrk (s : State) (t : Nat) : Nat := s.fld (aTile t 0x104) 23 0
/-- B of a zone: channel bits per track. -/
def zoneBits (s : State) (t z : Nat) : Nat := (s.reg (aTile t (0x200 + 8 * z))).toNat
/-- FIRSTBAND of a zone. -/
def zoneFirst (s : State) (t z : Nat) : Nat := s.fld (aTile t (0x204 + 8 * z)) 31 24
/-- S of a zone: sectors per track. -/
def zoneSect (s : State) (t z : Nat) : Nat := s.fld (aTile t (0x204 + 8 * z)) 13 0

/-- Whether a format is loaded (R67). -/
def hasFormat (s : State) (t : Nat) : Bool := decide (s.fld (aTile t 0x100) 31 24 ≠ 0)

/-- Whether band `b` is conventional (R46). -/
def isConv (s : State) (t b : Nat) : Bool := s.bit (aTile t (0x110 + 4 * (b / 32))) (b % 32)

/-- The zone of band `b`: the last zone that begins at or before it (R49). -/
def zoneOfBand (s : State) (t b : Nat) : Nat :=
  (List.range (fmtZones s t)).foldl (fun z i => if zoneFirst s t i ≤ b then i else z) 0

/-- The band of a track (R44). -/
def bandOf (s : State) (t track : Nat) : Nat := if fmtTrk s t = 0 then 0 else track / fmtTrk s t

/-- The zone of a track. -/
def zoneOf (s : State) (t track : Nat) : Nat := zoneOfBand s t (bandOf s t track)

/-- Tracks in a band's data area: BT − RT (R45). -/
def dataTracks (s : State) (t : Nat) : Nat := fmtTrk s t - fmtRsv s t

/-- Data pairs of a band (R46, R345). -/
def pairsOf (s : State) (t : Nat) (conv : Bool) : Nat :=
  if conv then dataTracks s t / 3 else dataTracks s t / 2

/-- Whether a track carries host data: it lies on a data pair of its band (R45, R46). -/
def isDataTrack (s : State) (t track : Nat) : Bool :=
  let b := bandOf s t track
  let o := track - b * fmtTrk s t
  if isConv s t b then decide (o % 3 ≠ 2) && decide (o / 3 < pairsOf s t true)
  else decide (o < dataTracks s t)

/-- The lower track of the data pair a track lies on (R46), or of the pair of reserved tracks (R45). -/
def pairLow (s : State) (t track : Nat) : Nat :=
  let b := bandOf s t track
  let o := track - b * fmtTrk s t
  let w := if isConv s t b ∧ o < dataTracks s t then 3 else 2
  track - (if o < dataTracks s t then o else o - dataTracks s t) % w

/-- The wedge span, data span and track gap of a zone, in bits (R50). -/
def wedgeSpan (s : State) (t z : Nat) : Nat := zoneBits s t z / 10000
/-- Data span. -/
def dataSpan (s : State) (t z : Nat) : Nat := 47 * zoneBits s t z / 30000
/-- Track gap. -/
def trackGap (s : State) (t z : Nat) : Nat := 600 * dataSpan s t z - 37376 * zoneSect s t z

/-- TILE.RPMLIM: the lower of 15,000 and the speed at which the largest B reaches 10.2 Gbit/s, and the
higher of 5,400 and that at which the smallest reaches 2.0 Gbit/s (R51, R67). -/
def rpmLim (s : State) (t : Nat) : Nat × Nat :=
  let bs := (List.range (fmtZones s t)).map (zoneBits s t)
  let big := bs.foldl max 0
  let small := bs.foldl min (bs.headD 0)
  if big = 0 ∨ small = 0 then (0, 0)
  else (min 15000 (10200000000 * 60 / big), max 5400 ((2000000000 * 60 + small - 1) / small))

/-! ### Physical sector addresses (R9, R10, R47) -/

/-- TILE of a PSA. -/
def psaTile (p : Nat) : Nat := p / 2 ^ 45 % 8
/-- CLUSTER of a PSA. -/
def psaCluster (p : Nat) : Nat := p / 2 ^ 43 % 4
/-- HEAD of a PSA. -/
def psaHead (p : Nat) : Nat := p / 2 ^ 38 % 32
/-- TRACK of a PSA. -/
def psaTrack (p : Nat) : Nat := p / 2 ^ 14 % 2 ^ 24
/-- SECTOR of a PSA. -/
def psaSector (p : Nat) : Nat := p % 2 ^ 14

/-- The PSA of a sector (R9). -/
def mkPsa (t c h track sector : Nat) : Nat :=
  t * 2 ^ 45 + c * 2 ^ 43 + h * 2 ^ 38 + track * 2 ^ 14 + sector

/-! ### Retired units (R1 of the register map: TILE.RLANE, RWRT, RHEAD, RUNIT through HUB.RMIR, R202) -/

/-- A word of tile `t`'s mirrored retirement set. -/
def aMir (t i : Nat) : Nat := aHub (0x1000 + 64 * t + 4 * i)

/-- Whether a lane is retired. -/
def laneRetired (s : State) (t l : Nat) : Bool := s.bit (aMir t (l / 32)) (l % 32)
/-- Whether a writer is retired. -/
def writerRetired (s : State) (t i : Nat) : Bool := s.bit (aMir t (6 + i / 32)) (i % 32)
/-- Whether a tile is retired. -/
def tileRetired (s : State) (t : Nat) : Bool := s.bit (aMir t 12) 8
/-- Whether a cluster is retired, by itself or with its tile. -/
def clusterRetired (s : State) (t c : Nat) : Bool := tileRetired s t || s.bit (aMir t 12) c
/-- Whether a head is retired, by itself or with its cluster or tile. -/
def headRetired (s : State) (t c h : Nat) : Bool :=
  clusterRetired s t c || s.bit (aMir t (9 + headIx c h / 32)) (headIx c h % 32)

/-- Why a PSA is rejected without media access, if it is: in the order of R17 (R10, R47). -/
def psaCheck (s : State) (p : Nat) : Option Status :=
  let t := psaTile p
  let tr := psaTrack p
  if 24 ≤ psaHead p then some .badField
  else if !(s.hasTile t) then some .domainOff
  else if fmtBands s t * fmtTrk s t ≤ tr ∨ zoneSect s t (zoneOf s t tr) ≤ psaSector p then some .badField
  else if bandOf s t tr % 4 ≠ psaCluster p ∨ !(isDataTrack s t tr) then some .badField
  else if headRetired s t (psaCluster p) (psaHead p) then some .retired
  else none

/-! ### The sector's header (R62 to R65) -/

/-- The 16 header bytes the write path gives a sector (R62): BLANK and SYS clear on host data. -/
def headerOf (s : State) (p : Nat) (blank sys : Bool) : Payload :=
  let t := psaTile p
  let z := zoneOf s t (psaTrack p)
  let conv := isConv s t (bandOf s t (psaTrack p))
  let body := beBytes 6 p ++ [BitVec.ofNat 8 (32 + z)] ++
    [BitVec.ofNat 8 ((if blank then 128 else 0) + (if conv then 64 else 0) + (if sys then 32 else 0))] ++ zeros 6
  body ++ beBytes 2 (crc16 body).toNat

/-- Whether the formatter accepts a decoded header for the PSA that was requested (R64, R65): a host
read that finds SYS set is a header failure. -/
def headerOk (s : State) (p : Nat) (sysWanted : Bool) (hd : Payload) : Bool :=
  let t := psaTile p
  let f := beAt hd 6 1
  let g := beAt hd 7 1
  decide (hd.length = 16) && decide (beAt hd 14 2 = (crc16 (hd.take 14)).toNat) && decide (f / 32 = 1) &&
    decide (beAt hd 0 6 = p) && decide (f % 32 = zoneOf s t (psaTrack p)) &&
    decide (g / 64 % 2 = if isConv s t (bandOf s t (psaTrack p)) then 1 else 0) &&
    decide (g / 32 % 2 = if sysWanted then 1 else 0)

/-- Whether a header marks a blank sector (R65). -/
def headerBlank (hd : Payload) : Bool := decide (beAt hd 7 1 / 128 = 1)

/-! ### The sector on the media (R53 to R60, R140) -/

/-- Where a sector begins on its track's data stream (R55). -/
def streamPos (sector : Nat) : Nat := 37376 * sector

/-- The bits of a track's data stream (R55). -/
def streamLen (s : State) (t z : Nat) : Nat := 600 * dataSpan s t z

/-- A run of samples that begins `left` bits before the end of a data span of `d` bits, without its wedge
spans of `w` bits (R53, R56); a run crosses at most `n` of them. -/
def dropWedges {α : Type} (d w : Nat) : Nat → Nat → List α → List α
  | 0, _, xs => xs
  | n + 1, left, xs => xs.take left ++ if xs.length ≤ left then [] else dropWedges d w n d (xs.drop (left + w))

/-- The seed of a sector's scrambler (R140). -/
def scrambleSeed (psa : Nat) : Nat :=
  let s := Nat.xor (psaTrack psa % 1024 * 8192 + psaSector psa % 8192) 0x555555
  if s = 0 then 0x7FFFFF else s

/-- One step of the generator x^23 + x^18 + 1. -/
def scrambleStep (s : Nat) : Nat :=
  let f := Nat.xor (s / 2 ^ 22 % 2) (s / 2 ^ 17 % 2)
  (s * 2 + f) % 2 ^ 23

/-- The first `n` bits of the scrambler from a state. -/
def scramble : Nat → Nat → List Bool
  | 0, _ => []
  | n + 1, s => (s / 2 ^ 22 % 2 == 1) :: scramble n (scrambleStep s)

/-- The 37,120 bits of a sector's scrambler. -/
def scrambler (psa : Nat) : List Bool := scramble 37120 (scrambleSeed psa)

/-- A marker's header (R150): HVER 0b110. -/
def markerHeader (psa : Nat) : Payload :=
  let b := beBytes 6 psa ++ [0xC0#8] ++ zeros 7
  b ++ beBytes 2 (crc16 b).toNat

/-- The codeword of an information word, scrambled (R60, R61, R140). -/
def scrambled (psa : Nat) (info : Payload) : List Bool :=
  xorBits (encodeBits (info.flatMap byteBits)) (scrambler psa)

/-- Soft values of a codeword with the scrambling removed (R116). -/
def descramble (psa : Nat) (soft : List Int) : List Int :=
  List.zipWith (fun v q => if q then -v else v) soft (scrambler psa)

/-- The 37,376 bits of a sector around its scrambled codeword (R59). -/
def sectorBits (cw : List Bool) : List Bool :=
  pat1100 128 ++ msbBits 48 syncA ++ cw.take 18560 ++ msbBits 48 syncB ++ cw.drop 18560 ++ pat1100 32

/-- The codeword's places among a sector's bits (R59). -/
def codewordOf {α : Type} (xs : List α) : List α := (xs.drop 176).take 18560 ++ (xs.drop 18784).take 18560

/-! ### The format record (R45, R68) -/

/-- The lower track of the format record pair of a band (R45). -/
def fmtRecTrack (s : State) (t b : Nat) : Nat := b * fmtTrk s t + dataTracks s t + 2

/-- The lower track of calibration pair `k` of a band (R45). -/
def calTrack (s : State) (t b k : Nat) : Nat := b * fmtTrk s t + dataTracks s t + 4 + 2 * k

/-- Bytes 0 to 279 of the format record, as the tile's format registers give them (R68). -/
def recordWords (s : State) (t : Nat) : Payload :=
  beBytes 4 (s.reg (aTile t 0x100)).toNat ++ beBytes 4 (fmtTrk s t) ++
    ([3, 2, 1, 0].flatMap fun i => beBytes 4 (s.reg (aTile t (0x110 + 4 * i))).toNat) ++
    (List.range 32).flatMap fun z => beBytes 4 (zoneBits s t z) ++ beBytes 1 (zoneFirst s t z) ++ [0#8] ++ beBytes 2 (zoneSect s t z)

/-- The format record of 4,096 bytes (R68). -/
def formatRecord (s : State) (t : Nat) : Payload :=
  let b := recordWords s t ++ zeros 3812
  b ++ beBytes 4 (crc32c b).toNat

/-- Whether a decoded information word is a good copy of a format record (R64, R68, R69): its header is that
of one of the SYS sectors 0 to 7 on either track of the pair, and its CRC-32C is right. -/
def goodRecord (s : State) (t c h b : Nat) (word : Payload) : Bool :=
  let tr := fmtRecTrack s t b
  let places := (List.range 16).map fun k => mkPsa t c h (tr + k / 8) (k % 8)
  let rec_ := (word.drop 16).take 4096
  (places.any fun p => headerOk s p true (word.take 16)) && decide (rec_.length = 4096) &&
    decide (beAt rec_ 4092 4 = (crc32c (rec_.take 4092)).toNat)

/-! ### Namespaces (R343 to R347, R361) -/

/-- An NS register of a namespace. -/
def aNs (nsid o : Nat) : Nat := aNq (0x40000 + 32 * (nsid - 1) + o)

/-- Whether an NSID is in range and names a namespace that exists. -/
def nsExists (s : State) (n : Nat) : Bool := decide (1 ≤ n) && decide (n ≤ 4096) && s.bit (aNs n 0) 31
/-- Whether it is attached. -/
def nsAttached (s : State) (n : Nat) : Bool := nsExists s n && s.bit (aNs n 0) 30
/-- Whether it is zoned. -/
def nsZoned (s : State) (n : Nat) : Bool := s.bit (aNs n 0) 29
/-- KIND: 1 HEAD, 2 ACTUATOR, 3 TILE, 4 BRICK (R344). -/
def nsKind (s : State) (n : Nat) : Nat := s.fld (aNs n 0) 19 16
/-- GFIRST. -/
def nsGfirst (s : State) (n : Nat) : Nat := s.fld (aNs n 4) 15 0
/-- GCOUNT. -/
def nsGcount (s : State) (n : Nat) : Nat := s.fld (aNs n 4) 31 16
/-- SU: the stripe unit, 1 for HEAD (R346). -/
def nsSu (s : State) (n : Nat) : Nat := if nsKind s n = 1 then 1 else s.fld (aNs n 8) 15 0
/-- The key slot, 8·sett + slot. -/
def nsSlot (s : State) (n : Nat) : Nat := 8 * s.fld (aNs n 8) 31 24 + s.fld (aNs n 8) 18 16
/-- The tile of a namespace that lies on one. -/
def nsTile (s : State) (n : Nat) : Nat := s.fld (aNs n 0) 15 13

/-- Heads in the set (R344). -/
def nsHeads (s : State) (n : Nat) : Nat :=
  if nsKind s n = 1 then 1 else if nsKind s n = 2 then 24 else if nsKind s n = 3 then 96
  else 96 * s.part.tiles

/-- Head `j` of the set: tile, cluster and head (R344). -/
def nsHead (s : State) (n j : Nat) : Nat × Nat × Nat :=
  let t := nsTile s n
  if nsKind s n = 1 then (t, s.fld (aNs n 0) 12 11, s.fld (aNs n 0) 10 6)
  else if nsKind s n = 2 then (t, s.fld (aNs n 0) 12 11, j)
  else if nsKind s n = 3 then (t, j % 4, j / 4)
  else (j % s.part.tiles, j / s.part.tiles % 4, j / (4 * s.part.tiles))

/-- Blocks that group `g` holds on one head: 2·P·S (R345). -/
def groupBlocks (s : State) (t g : Nat) (conv : Bool) : Nat :=
  2 * pairsOf s t conv * zoneSect s t (zoneOfBand s t (4 * g))

/-- C of a group: the blocks of the namespace it holds (R345). -/
def groupCap (s : State) (n g : Nat) : Nat :=
  nsHeads s n * groupBlocks s (nsHead s n 0).1 g (!(nsZoned s n))

/-- The least power of two at or above `n`, found among the first 64. -/
def pow2At (n : Nat) : Nat := 2 ^ ((List.range 64).foldl (fun a i => if 2 ^ a < n then i + 1 else a) 0)

/-- Zone size ZSZE of a zoned namespace (R347). -/
def zoneSize (s : State) (n : Nat) : Nat :=
  pow2At ((List.range (nsGcount s n)).foldl (fun m i => max m (groupCap s n (nsGfirst s n + i))) 0)

/-- NCAP: the sum of the groups' blocks (R347). -/
def nsCap (s : State) (n : Nat) : Nat :=
  ((List.range (nsGcount s n)).map fun i => groupCap s n (nsGfirst s n + i)).foldl (· + ·) 0

/-- NSZE (R347). -/
def nsSize (s : State) (n : Nat) : Nat :=
  if nsZoned s n then nsGcount s n * zoneSize s n else nsCap s n

/-- The zone an LBA lies in. -/
def zoneIx (s : State) (n lba : Nat) : Nat := if zoneSize s n = 0 then 0 else lba / zoneSize s n

/-- ZCAP of zone `i`. -/
def zoneCap (s : State) (n i : Nat) : Nat := groupCap s n (nsGfirst s n + i)

/-- The group of an LBA of a conventional namespace and its offset there, walking the groups (R347). -/
def convGroup (s : State) (n : Nat) : Nat → Nat → Nat → Nat × Nat
  | 0, g, o => (g, o)
  | k + 1, g, o =>
    if o < groupCap s n g then (g, o) else convGroup s n k (g + 1) (o - groupCap s n g)

/-- The band group and group offset of an LBA (R347). -/
def groupOf (s : State) (n lba : Nat) : Nat × Nat :=
  if nsZoned s n then (nsGfirst s n + zoneIx s n lba, lba - zoneIx s n lba * zoneSize s n)
  else convGroup s n (nsGcount s n) (nsGfirst s n) lba

/-- The head index and the offset on that head's band of a group offset (R346). -/
def stripeOf (u hc o : Nat) : Nat × Nat := (o / u % hc, o / (u * hc) * u + o % u)

/-- Where a block lies: its PSA (R346). -/
def psaOf (s : State) (n lba : Nat) : Nat :=
  let g := groupOf s n lba
  let jq := stripeOf (nsSu s n) (nsHeads s n) g.2
  let hd := nsHead s n jq.1
  let t := hd.1
  let sec := zoneSect s t (zoneOfBand s t (4 * g.1))
  let first := (4 * g.1 + hd.2.1) * fmtTrk s t
  let k := jq.2 / (2 * sec)
  let r := jq.2 % 2
  let track := if nsZoned s n then first + 2 * k + r else first + 3 * k + r
  mkPsa t hd.2.1 hd.2.2 track (jq.2 % (2 * sec) / 2)

/-- The stale-pair bit of a block's (head, band group): its register and bit (R378). -/
def staleOf (s : State) (psa : Nat) : Nat × Nat :=
  (aBuf (0x1000 + 4 * (96 * psaTile psa + headIx (psaCluster psa) (psaHead psa))),
    bandOf s (psaTile psa) (psaTrack psa) / 4)

/-- Whether a block lies on a stale pair (R378). -/
def isStale (s : State) (psa : Nat) : Bool := s.bit (staleOf s psa).1 (staleOf s psa).2

end Sys2Proof.Machine
end

