-- ==== Sys2Proof/Machine/Irq.lean ====
section
/-! DEFINITION. The interrupt controllers (R430 to R450): pending, eligible and requested sources,
claim and complete, the priority stack, masking and moderation. Controller 0 is the hub's; controller
1 + t is tile t's. -/

namespace Sys2Proof.Machine

/-- Targets of a controller (R430). -/
def irqTargets (ic : Nat) : Nat := if ic = 0 then 18 else 5

/-- The domain a controller lies in (R446). -/
def irqDom (ic : Nat) : Nat := if ic = 0 then 1 else domMo (ic - 1)

/-- Whether a source ID is a shared one (R431). -/
def isShared (id : Nat) : Bool := decide (0x100 ≤ id)

/-- The configuration register of a source: IRQ.SRC or the target's PRIV (R449, R450). -/
def srcAddr (ic n id : Nat) : Nat :=
  if isShared id then aIrq ic (0x1000 + 4 * (id - 0x100)) else aTgt ic n (0x100 + 4 * (id - 1))

/-- Whether a source ID exists and is not reserved (R431 to R434). -/
def srcReal (s : State) (ic n id : Nat) : Bool :=
  ((decide (1 ≤ id) && decide (id ≤ 0x40)) || (decide (0x100 ≤ id) && decide (id ≤ 0x2FF))) &&
    !(s.bit (srcAddr ic n id) 28)

/-- TYPE of a source: level or edge. -/
def srcLevel (s : State) (ic n id : Nat) : Bool := s.bit (srcAddr ic n id) 29

/-- A bit of the shared-source arrays PEND (0x100), INSVC (0x140) or LEVEL (0x180). -/
def irqBit (s : State) (ic base id : Nat) : Bool :=
  s.bit (aIrq ic (base + 4 * ((id - 0x100) / 32))) ((id - 0x100) % 32)

/-- A bit of a shared-source array set or cleared. -/
def setIrqBit (s : State) (ic base id : Nat) (b : Bool) : State :=
  s.setB (aIrq ic (base + 4 * ((id - 0x100) / 32))) ((id - 0x100) % 32) b

/-- The target a source is routed to: TARGET of a shared source, its own target of a private one. -/
def srcTarget (s : State) (ic n id : Nat) : Nat :=
  if isShared id then s.fld (srcAddr ic n id) 4 0 else n

/-- Whether a source is in service on a target: it stands on the stack. -/
def inService (s : State) (ic n id : Nat) : Bool := (s.target ic n).stack.any fun e => e.1 == id

/-- The IDs of the shared sources pending, lowest first. -/
def sharedPend (s : State) (ic : Nat) : List Nat :=
  (List.range 16).flatMap fun j =>
    let w := s.reg (aIrq ic (0x100 + 4 * j))
    if w = 0 then [] else (bitsOf w 32).map fun b => 0x100 + 32 * j + b

/-- The IDs of a target's private sources pending: edges, and levels high and not in service (R435). -/
def privPend (s : State) (ic n : Nat) : List Nat :=
  let t := s.target ic n
  t.pend ++ t.level.filter fun id => !(inService s ic n id)

/-- The priority at the top of a target's stack; 0 at the base (R438). -/
def topPrio (s : State) (ic n : Nat) : Nat :=
  match (s.target ic n).stack with
  | [] => 0
  | e :: _ => e.2

/-- The ID at the top of a target's stack; 0 at the base. -/
def topId (s : State) (ic n : Nat) : Nat :=
  match (s.target ic n).stack with
  | [] => 0
  | e :: _ => e.1

/-- PRIO of a source. -/
def srcPrio (s : State) (ic n id : Nat) : Nat := s.fld (srcAddr ic n id) 27 24

/-- Whether a source is being served: a shared one by whichever target claimed it (R435, R442). -/
def beingServed (s : State) (ic n id : Nat) : Bool :=
  if isShared id then irqBit s ic 0x140 id else inService s ic n id

/-- Whether a pending source is eligible for a target (R436); one in service is claimed again only once its
service has been completed (R435, R442). -/
def eligible (s : State) (ic n id : Nat) : Bool :=
  s.bit (srcAddr ic n id) 31 && !(beingServed s ic n id) && decide (srcTarget s ic n id = n) &&
    decide (s.fld (aTgt ic n 8) 3 0 < srcPrio s ic n id) && decide (topPrio s ic n < srcPrio s ic n id)

/-- The eligible sources of a target. -/
def eligibles (s : State) (ic n : Nat) : List Nat :=
  (privPend s ic n ++ sharedPend s ic).filter fun id => eligible s ic n id

/-- The source a claim takes: the highest PRIO, and the lowest ID among equals; 0 for none (R437). -/
def bestSource (s : State) (ic n : Nat) : Nat :=
  (eligibles s ic n).foldl
    (fun b id =>
      if b = 0 then id
      else if srcPrio s ic n b < srcPrio s ic n id then id
      else if srcPrio s ic n id = srcPrio s ic n b ∧ id < b then id
      else b) 0

/-- A target's request line brought up to date: an unmoderated eligible source asserts it, moderated
ones assert it under the conditions of R443 and R444, and it falls when none is eligible (R436). -/
def irqEval (s : State) (ic n : Nat) : State :=
  let t := s.target ic n
  let es := eligibles s ic n
  let count := s.fld (aTgt ic n 0x10) 31 24
  let on :=
    if es = [] then false
    else t.req || es.any (fun id => !(s.bit (srcAddr ic n id) 30)) || decide (count = 0) ||
      s.bit (aTgt ic n 0x24) 0 || decide (count ≤ t.count) || t.released
  let t' : Target :=
    if es = [] then { t with req := false, count := if t.req then 0 else t.count, since := none, released := false }
    else if on then { t with req := true, since := none }
    else { t with since := some (t.since.getD s.now) }
  let s := s.setTarget ic n t'
  if on = t.req then s else s.emit (.irq ic n on)

/-- Every target of a controller brought up to date. -/
def irqEvalAll (s : State) (ic : Nat) : State :=
  (List.range (irqTargets ic)).foldl (fun s n => irqEval s ic n) s

/-- The events that PS4 latches in D0: the management port, key erase and temperature through CIPH.ALARM,
and PFAIL_N (R446). -/
def latchedInPs4 (id : Nat) : Bool := id = 0x100 + 56 || id = 0x100 + 81 || id = 0x22

/-- One more moderated event of a target (R443). -/
def countEvent (s : State) (ic n id : Nat) : State :=
  if s.bit (srcAddr ic n id) 30 then
    s.setTarget ic n { s.target ic n with count := (s.target ic n).count + 1 }
  else s

/-- A source event: it becomes pending, and the request follows (R435, R436). A level source's input
rises; a level source in service stays in service. -/
def irqEvent (s : State) (ic n id : Nat) : State :=
  if !(srcReal s ic n id) then s
  else if ic = 0 ∧ s.power.deep = .ps4 then
    if latchedInPs4 id ∧ id ∉ s.irq.latched then
      { s with irq := { s.irq with latched := s.irq.latched ++ [id] } }
    else s
  else if ic ≠ 0 ∧ !(s.domOn (irqDom ic)) then s
  else
    let tn := srcTarget s ic n id
    if isShared id then
      if srcLevel s ic n id then
        if irqBit s ic 0x180 id then s
        else
          let s := setIrqBit s ic 0x180 id true
          let s := if irqBit s ic 0x140 id then s else setIrqBit s ic 0x100 id true
          irqEval (countEvent s ic tn id) ic tn
      else irqEval (countEvent (setIrqBit s ic 0x100 id true) ic tn id) ic tn
    else
      let t := s.target ic n
      if srcLevel s ic n id then
        if id ∈ t.level then s
        else irqEval (countEvent (s.setTarget ic n { t with level := t.level ++ [id] }) ic n id) ic n
      else
        let t' := if id ∈ t.pend then t else { t with pend := t.pend ++ [id] }
        irqEval (countEvent (s.setTarget ic n t') ic n id) ic n

/-- The name under which a level source's falls in service are kept. -/
def fallKey (ic n id : Nat) : Nat × Nat × Nat := (ic, if isShared id then 0 else n, id)

/-- A level source's input that is high falls, by a clear or by a withdrawal (R435). In service, a withdrawal counts for R440 only
where no clear has come before it. -/
def irqFall (s : State) (ic n id : Nat) (withdrawn : Bool) : State :=
  let high := if isShared id then irqBit s ic 0x180 id else decide (id ∈ (s.target ic n).level)
  if !(srcReal s ic n id && srcLevel s ic n id && high) then s
  else
    let serving := beingServed s ic n id
    let key := fallKey ic n id
    let gone := withdrawn && decide ((key, false) ∉ s.irq.vanished)
    let v := s.irq.vanished.filter fun e => e.1 ≠ key
    let s : State := { s with irq := { s.irq with vanished := if serving then v ++ [(key, gone)] else v } }
    if isShared id then
      irqEval (setIrqBit (setIrqBit s ic 0x180 id false) ic 0x100 id false) ic (srcTarget s ic n id)
    else
      let t := s.target ic n
      irqEval (s.setTarget ic n { t with level := t.level.filter fun i => i ≠ id }) ic n

/-- Shared edge source `i` of a controller has its event. -/
def irqEdge (s : State) (ic i : Nat) : State := irqEvent s ic 0 (0x100 + i)

/-- Shared level source `i` follows its condition `on`; a fall is a clear unless `withdrawn`. -/
def irqLevel (s : State) (ic i : Nat) (on : Bool) (withdrawn : Bool := false) : State :=
  if on = irqBit s ic 0x180 (0x100 + i) then s
  else if on then irqEvent s ic 0 (0x100 + i)
  else irqFall s ic 0 (0x100 + i) withdrawn

/-- A claim's effect on the controller: the source enters service (R437). -/
def claimSource (s : State) (ic n id : Nat) : State :=
  let t := s.target ic n
  let s := s.setTarget ic n
    { t with stack := (id, srcPrio s ic n id) :: t.stack, pend := t.pend.filter fun i => i ≠ id }
  let s : State :=
    { s with irq := { s.irq with vanished := s.irq.vanished.filter fun e => e.1 ≠ fallKey ic n id } }
  let s := if isShared id then setIrqBit (setIrqBit s ic 0x140 id true) ic 0x100 id false else s
  irqEval s ic n

/-- A source leaves service: a level source whose input is high is pending again at once (R438). -/
def leaveService (s : State) (ic n id : Nat) : State :=
  if isShared id then
    let s := setIrqBit s ic 0x140 id false
    if srcLevel s ic n id && irqBit s ic 0x180 id then setIrqBit s ic 0x100 id true else s
  else s

/-- A claim (R437): a read of CLAIM. Another reader than the target processor sees the ID and changes
nothing. The processor is no longer idle (R430). -/
def claimRead (s : State) (who : Who) (ic n : Nat) : State × Nat :=
  let id := bestSource s ic n
  if who = .core ic n then
    let s := s.setReg (aTgt ic n 0x24) 0
    if id = 0 then (s.bump (aTgt ic n 0x1C), 0) else (claimSource s ic n id, id)
  else (s, id)

/-- The source raised by a priority-stack fault of target `n` (R433, R434). -/
def stackFaultSource (ic n : Nat) : Nat := if ic = 0 then 88 + n else 272 + n

/-- A priority-stack fault (R439): PSFAULT latches the first fault, the non-maskable input and the
die's source are raised. -/
def stackFault (s : State) (ic n id : Nat) : State :=
  let a := aTgt ic n 0x14
  let s :=
    if s.bit a 31 then s
    else s.setReg a (setFld (setFld (setBit (s.reg a) 31 true) 29 20 id) 19 10 (topId s ic n))
  irqEdge (s.emit (.nmi ic n)) ic (stackFaultSource ic n)

/-- A complete by the target processor (R438, R440): true when it raised a priority-stack fault. -/
def completeWrite (s : State) (ic n id : Nat) : State × Bool :=
  let t := s.target ic n
  match t.stack with
  | (top, _) :: rest =>
    if top = id then
      let gone := decide ((fallKey ic n id, true) ∈ s.irq.vanished)
      let s := s.setTarget ic n { t with stack := rest }
      let s := leaveService s ic n id
      let s := if gone then s.bump (aTgt ic n 0x18) else s
      let s : State :=
        { s with irq := { s.irq with vanished := s.irq.vanished.filter fun e => e.1 ≠ fallKey ic n id } }
      (irqEvalAll s ic, false)
    else (stackFault s ic n id, true)
  | [] => (stackFault s ic n id, true)

/-- STACK.CLEAR (R439): every level above the base is popped and its source leaves service; the number
popped is added to PSFAULT.CLEARED (entry 11). -/
def clearStack (s : State) (ic n : Nat) : State :=
  let t := s.target ic n
  let s := s.setTarget ic n { t with stack := [] }
  let s := t.stack.foldl (fun s e => leaveService s ic n e.1) s
  irqEvalAll (s.bumpF (aTgt ic n 0x14) 7 0 t.stack.length) ic

/-- Whether an access comes from the processor of a target. -/
def isCore (who : Who) (ic n : Nat) : Bool := decide (who = .core ic n)

/-- Whether a controller and target exist in the family, and the source number is in range (R431). -/
def irqOk (ic n id : Nat) : Bool :=
  decide (ic ≤ 8) && decide (n < irqTargets ic) && decide (id ≤ 0x2FF)

/-- A controller command: nothing for an absent tile. -/
def onIrq (s : State) (ic n id : Nat) (f : State) : Res :=
  onOk (irqOk ic n id)
    (if ic = 0 then (if s.domOn 1 || s.power.deep = .ps4 then f else s)
     else if s.hasTile (ic - 1) then whenOn s (domMo (ic - 1)) f else s)

/-- IRQ_SOURCE_EVENT. -/
def execIrqSourceEvent (ic n id : Nat) (s : State) : Res := onIrq s ic n id (irqEvent s ic n id)

/-- IRQ_LEVEL_FALL. -/
def execIrqLevelFall (ic n id : Nat) (withdrawn : Bool) (s : State) : Res :=
  onIrq s ic n id (irqFall s ic n id withdrawn)

/-- CLAIM: the ID is the answer of the read (R437). -/
def execClaim (who : Who) (ic n : Nat) (s : State) : Res :=
  onIrq s ic n 0
    (let r := claimRead s who ic n
     r.1.emit (.reply who (aTgt ic n 0) (w32 r.2) .ok))

/-- STACK_CLEAR. -/
def execStackClear (ic n : Nat) (s : State) : Res := onIrq s ic n 0 (clearStack s ic n)

/-- SOURCE_CONFIG_WRITE's effect: the fields of IRQ.SRC or PRIV take the written values, unless one is
out of range (R441, R442, R449); the requests of the die follow. -/
def writeSource (s : State) (ic n id : Nat) (w : Word) : State × Status :=
  let a := srcAddr ic n id
  match regRow s.part a with
  | none => (s, .badField)
  | some r =>
    if r.mask = 0 then (s, .ok)
    else if r.inRange w then
      let s := s.setReg a ((s.reg a &&& ~~~r.mask) ||| (w &&& r.mask))
      (irqEvalAll s ic, .ok)
    else (s, .badField)

/-- SOURCE_CONFIG_WRITE. -/
def execSourceConfigWrite (ic n id : Nat) (w : Word) (s : State) : Res :=
  onIrq s ic n id
    (let r := writeSource s ic n id w
     r.1.emit (.reply .engine (srcAddr ic n id) w r.2))

/-- A write of DOORBELL: the last index is kept and doorbell source 0x002 + index is raised (R450). -/
def writeDoorbell (s : State) (ic n : Nat) (w : Word) : State :=
  irqEvent (s.setF (aTgt ic n 0x20) 4 0 (Sys2Proof.fld w 4 0)) ic n (2 + Sys2Proof.fld w 4 0)

/-- DOORBELL. -/
def execDoorbell (ic n : Nat) (w : Word) (s : State) : Res := onIrq s ic n 0 (writeDoorbell s ic n w)

/-- IRQ_TIMER_EXPIRE: TIMER reaches 0 and stops, and source 0x001 is raised; a stopped one reaches nothing
(R432, R450). -/
def execIrqTimerExpire (ic n : Nat) (s : State) : Res :=
  onIrq s ic n 0
    (if s.reg (aTgt ic n 0x28) = 0 then s else irqEvent (s.setReg (aTgt ic n 0x28) 0) ic n 1)

/-- A withheld request is let through (R443, R444). -/
def releaseRequest (s : State) (ic n : Nat) : State :=
  if (s.target ic n).since.isSome then
    irqEval (s.setTarget ic n { s.target ic n with released := true }) ic n
  else s

/-- MODERATION_TIMEOUT: TIME µs have passed since the first withheld event (R443). -/
def execModerationTimeout (ic n : Nat) (s : State) : Res :=
  onIrq s ic n 0
    (match (s.target ic n).since with
     | some t => if t + us (s.fld (aTgt ic n 0x10) 9 0) ≤ s.now then releaseRequest s ic n else s
     | none => s)

/-- TARGET_IDLE: the core executes its wait-for-interrupt operation; a withheld request is asserted at
once (R430, R444). -/
def execTargetIdle (ic n : Nat) (s : State) : Res :=
  onIrq s ic n 0 (irqEval (s.setReg (aTgt ic n 0x24) 1) ic n)

end Sys2Proof.Machine
end

