-- ==== Sys2Proof/Machine/View.lean ====
section
/-! DEFINITION. Reading a register: the registers that are views of the state behind them, and what a
read answers in an absent unit, a domain that is off, a tile whose link is not in service, or at an
address that holds no register (R2, R11, R37, R43). A read here has no side effect; the side effects
of a management read are in Access. -/

namespace Sys2Proof.Machine

/-- Bytes held in a table of payloads as a word, big-endian, 0 where there are none. -/
def wordOf (bs : Payload) (i : Nat) : Word := if bs.length < i + 4 then 0 else beWord bs i

/-- A target page's views (R450). -/
def viewTarget (s : State) (ic n o : Nat) : Option Word :=
  if o = 0 then some (w32 (bestSource s ic n))
  else if o = 4 then some (w32 (topId s ic n))
  else if o = 0xC then
    some (place 27 24 (s.target ic n).stack.length ||| place 23 20 (topPrio s ic n) |||
      place 9 0 (topId s ic n))
  else none

/-- An interrupt controller's views (R448). -/
def viewIrq (s : State) (ic o : Nat) : Option Word :=
  if 0x4000 ≤ o then viewTarget s ic ((o - 0x4000) / 0x400) ((o - 0x4000) % 0x400) else none

/-- SEQ of the oldest record held (R490). -/
def owlOldest (s : State) : Nat := (s.owl.next + 2 ^ 32 - s.owl.count) % 2 ^ 32

/-- OWL's views (R489, R491, R493). -/
def viewOwl (s : State) (o : Nat) : Option Word :=
  if o = 8 then
    some (place 31 31 (if s.owl.count = 4096 then 1 else 0) ||| (s.reg (aOwl 8) &&& maskOf 30 30) |||
      place 29 29 (if s.owl.clearing.isSome then 1 else 0) ||| place 12 0 s.owl.count)
  else if o = 0xC then some (w32 ((s.owl.next + 2 ^ 32 - 1) % 2 ^ 32))
  else if o = 0x10 then some (w32 (owlOldest s))
  else if 0x100 ≤ o ∧ o < 0x140 then
    let slot := (s.reg (aOwl 0x14)).toNat % 4096
    some (if s.owl.bad.contains (2 * slot + (o - 0x100) / 32) then 0xFFFFFFFF
      else wordOf (Tab.at [] s.owl.ring slot) (o - 0x100))
  else none

/-- The opcodes of long operations (R457, R459). -/
def longOps : List Nat := [0x10, 0x13, 0x14, 0x22, 0x23, 0x26]

/-- The long operation in progress, if one is: a staging write is none. -/
def longNow (s : State) : Option Nat :=
  match s.mgmt.long with
  | some l => if l.op.opcode ∈ longOps then some l.op.opcode else none
  | none => none

/-- BUSY of the management port (R453): a command is being executed, or the device has not loaded its
configuration yet (R504 step 1; entry 63). -/
def portBusy (s : State) : Bool := s.mgmt.busy || decide (s.power.boot < 6)

/-- MGT's views: LONG and LONGOP, PBUSY and PREADY (R459, R478). -/
def viewMgt (s : State) (o : Nat) : Option Word :=
  if o = 0 then
    some ((s.reg (aMgt 0) &&& maskOf 15 14) |||
      (match longNow s with
        | some n => place 31 31 1 ||| place 23 16 n
        | none => 0) |||
      place 13 13 (if portBusy s then 1 else 0) |||
      place 12 12 (if s.mgmt.reply.isSome then 1 else 0))
  else none

/-- The commands outstanding: the entries of the table that are live. -/
def liveCmds (s : State) : List (Nat × Cmd) := s.nq.cmds.filter fun e => e.2.live

/-- Whether a queue pair is one of the I/O pool. -/
def isIoQp (n : Nat) : Bool := decide (n < 8192)

/-- Whether a live command counts among the I/O commands of R327: a host command of an I/O queue, or
one of the device's internal queue (R384). -/
def isIoCmd (c : Cmd) : Bool := isIoQp c.qp || decide (c.origin ≠ .host)

/-- I/O and admin commands outstanding (R327). -/
def ioOutstanding (s : State) : Nat := ((liveCmds s).filter fun e => isIoCmd e.2).length

/-- Admin commands outstanding. -/
def adminOutstanding (s : State) : Nat := ((liveCmds s).filter fun e => !(isIoCmd e.2)).length

/-- I/O queue pairs taken from the pool; one that has ended has returned to it (R309, R312). -/
def qpsTaken (s : State) : Nat :=
  (s.nq.qps.filter fun e => isIoQp e.1 && decide (e.2.state ≠ 0) && decide (e.2.state ≠ 4)).length

/-- NQ's views (R361). -/
def viewNq (s : State) (o : Nat) : Option Word :=
  if o = 4 then some (w32 (ioOutstanding s))
  else if o = 8 then some (w32 (adminOutstanding s))
  else if o = 0xC then some (w32 (8192 - qpsTaken s))
  else if 0x10000 ≤ o ∧ o < 0x30000 then
    let n := (o - 0x10000) / 16
    let q := s.qp n
    if o % 16 = 0 then some (place 31 29 q.state ||| place 26 16 q.cntlid ||| place 15 0 q.qid)
    else if o % 16 = 4 then some (place 27 16 q.size ||| place 7 4 q.port ||| place 1 0 q.sub)
    else if o % 16 = 8 then some (place 11 0 q.sqhd)
    else if o % 16 = 12 then
      some (w32 ((liveCmds s).filter fun e => decide (e.2.qp = n) && decide (e.2.origin = .host)).length)
    else none
  else if 0x40000 ≤ o then
    (if s.bit (aNq (o - o % 32)) 31 || s.bit (aNq (o - o % 32)) 28 then none else some 0)
  else none

/-- Whether a line or copy holds a dirty unit. -/
def Line.dirty (l : Line) : Bool := l.units.any fun e => e.2.dirty

/-- The lines in sets. -/
def lineCount (s : State) : Nat := s.buf.lines.length

/-- The lines in sets with a dirty unit. -/
def dirtyLines (s : State) : Nat := (s.buf.lines.filter fun e => e.2.dirty).length

/-- The locked lines. -/
def lockedLines (s : State) : Nat := (s.buf.lines.filter fun e => e.2.locked).length

/-- Whether a namespace has LBA format 1 (R343). -/
def nsGuard (s : State) (nsid : Nat) : Bool := s.bit (aNq (0x40000 + 32 * (nsid - 1))) 27

/-- The guard slots in use: those of lines and of eviction copies (R363). -/
def guardSlots (s : State) : List Nat :=
  (s.buf.lines.filterMap fun e => e.2.slot) ++ s.buf.copies.filterMap (·.slot)

/-- The guard frames: those with a slot in use (R365). -/
def guardFrames (s : State) : List Nat := ((guardSlots s).map fun k => k / 256).eraseDups

/-- Frames in the staging pool: those with a page in use, eviction copies and guard frames (R365). -/
def stageFrames (s : State) : Nat :=
  s.buf.stage.length + s.buf.copies.length + (guardFrames s).length

/-- BUF's views (R390). -/
def viewBuf (s : State) (o : Nat) : Option Word :=
  if o = 0x18 then some (w32 (lineCount s))
  else if o = 0x1C then some (w32 (dirtyLines s))
  else if o = 0x20 then some (w32 (lockedLines s))
  else if o = 0x24 then some (w32 (stageFrames s))
  else if o = 0xC then some 0
  else none

/-! ### Generations in use (R416, R417) -/

/-- Whether a unit of some line or copy of a namespace of the slot is dirty and latched to `gen`. -/
def dirtyUses (s : State) (slot gen : Nat) : Nat :=
  let of (l : Line) : Nat :=
    if nsSlot s l.nsid = slot then (l.units.filter fun u => u.2.dirty && decide (u.2.gen = gen)).length else 0
  (s.buf.lines.map fun e => of e.2).foldl (· + ·) 0 + (s.buf.copies.map of).foldl (· + ·) 0

/-- The commands latched to a generation of a slot: those that have taken their turn. -/
def cmdUses (s : State) (slot gen : Nat) : Nat :=
  ((liveCmds s).filter fun e =>
    e.2.turned && decide (e.2.cls = .rd ∨ e.2.cls = .wr) && decide (nsSlot s e.2.nsid = slot) &&
      decide (e.2.gen = gen)).length

/-- The encryptions issued and not yet made that are latched to a generation of a slot. -/
def issueUses (s : State) (slot gen : Nat) : Nat :=
  (s.buf.encrypt.filter fun i => decide (nsSlot s i.nsid = slot) && decide (i.gen = gen)).length

/-- Everything latched to a generation of a slot. -/
def latchedTo (s : State) (slot gen : Nat) : Nat :=
  cmdUses s slot gen + dirtyUses s slot gen + issueUses s slot gen

/-- A sett page's views (R429): SSTAT, the counter, and the in-flight counts. -/
def viewSett (s : State) (sett o : Nat) : Option Word :=
  if o < 0x400 then
    let k := o / 0x80
    let x := s.slot (8 * sett + k)
    let at_ := o % 0x80
    if at_ = 0x20 then some 0
    else if at_ = 0x24 then
      some (place 31 16 x.gen ||| place 5 5 (if x.record.isSome && decide (x.sctr = x.res) then 1 else 0) |||
        place 4 4 (if x.exhausted then 1 else 0) ||| place 3 3 (if x.shadow.isSome then 1 else 0) |||
        place 1 0 x.state)
    else if at_ = 0x30 then some (w32 (x.sctr / 2 ^ 32))
    else if at_ = 0x34 then some (w32 x.sctr)
    else if at_ = 0x38 then
      let i := 8 * sett + k
      let old := match x.shadow with
        | some e => latchedTo s i e.1
        | none => 0
      some (place 31 16 (min old 0xFFFF) ||| place 15 0 (min (latchedTo s i x.gen) 0xFFFF))
    else none
  else none

/-- LANE.TAP[k] as LANE.TAPSEL selects it; the taps of an absent target read 0 (R109). -/
def viewLane (s : State) (t l o : Nat) : Option Word :=
  if 0x100 ≤ o then
    let z := s.fld (aLane t l 0xFC) 12 8
    let k := s.fld (aLane t l 0xFC) 2 0
    if s.reg (aTile t (0x400 + 32 * z + 4 * k)) = 0 then some 0
    else some (place 9 0 (pattern 10 (nth 0 (Tab.at [] (s.lane t l).taps (8 * z + k)) ((o - 0x100) / 4))))
  else none

/-- DET.KAPPA of the head and zone of DET.KSEL, and DET.QCSHIFT of the block of DET.QCSEL (R133). -/
def viewDet (s : State) (t o : Nat) : Option Word :=
  if o = 0x18 then
    let z := s.fld (aDet t 0x14) 12 8
    match (s.head (96 * t + s.fld (aDet t 0x14) 6 0)).kappa.find? fun e => decide (e.1 = z) with
    | some (_, a, b) => some (place 16 16 1 ||| place 15 8 (pattern 8 a) ||| place 7 0 (pattern 8 b))
    | none => some 0
  else if o = 0x20 then
    match Config.circulant (s.fld (aDet t 0x1C) 13 0) with
    | some x => some (place 31 31 1 ||| place 6 0 x.toNat)
    | none => some 0
  else none

/-- An engine's UCS page (R298): DRAIN, the word at ADDR, the identities of the banks and the CRC of the
live one. -/
def viewUcs (s : State) (e o : Nat) : Option Word :=
  if o = 0 then some 0
  else if o = 4 then some ((s.reg (aUcs e 4) &&& maskOf 15 0) ||| place 31 16 (drain s e))
  else if o = 0x10 then some (ucsShown s e)
  else if o = 0x18 then some (bankWord e (bankLive s e) 15)
  else if o = 0x1C then some (bankWord e (stagedBank s e) 15)
  else if o = 0x20 then some (bankCrc e (bankLive s e))
  else none

/-- Whether a tile is under a transition of R498, or being brought in. -/
def moving (s : State) (t : Nat) : Bool := (Tab.at none s.power.goal t).isSome || decide (Tab.at 0 s.power.bring t ≠ 0)

/-- Whether a tile is held (R508): its link is out of service, it is in maintenance, or a check of versions or
of its format record has failed (R69, R472). -/
def tileHeld (s : State) (t : Nat) : Bool :=
  s.linkState t != 3 || s.bit (aMgt 0x20) t || decide (s.fld (aMgt (0x40 + 4 * t)) 31 30 = 3) ||
    decide (2 ≤ s.fld (aTile t 0x108) 1 0)

/-- The code of a tile in PWR.TILE (R508). The nibble holds the state last reached. -/
def tileCode (s : State) (t : Nat) : Nat :=
  let st := s.fld (aPwr 8) (4 * t + 3) (4 * t)
  if !(s.hasTile t) then 0xF
  else if tileRetired s t then 0xD
  else match Tab.at none s.power.goal t with
    | some g => if g < st then 8 else 9
    | none => if Tab.at 0 s.power.bring t ≠ 0 then 8 else if s.domOn (domMo t) && tileHeld s t then 0xC else st

/-- A tile's target in PWR.TTARGET. -/
def tileTarget (s : State) (t : Nat) : Nat := s.fld (aPwr 0x40) (4 * t + 3) (4 * t)

/-- TARGET of PWR.STATE: shared by every present tile that is not retired, or 7. -/
def sharedTarget (s : State) : Nat :=
  match (s.tiles.filter fun t => !(tileRetired s t)).map (tileTarget s) with
  | [] => tileTarget s 0
  | v :: rest => if rest.all fun x => x = v then v else 7

/-- BUSY of PWR.STATE: a POWER operation, or an automatic raise or return, is in progress (R508). -/
def powerBusy (s : State) : Bool :=
  decide (longNow s = some 0x26) || s.power.goal.any (fun e => e.2.isSome) ||
    (match s.power.deep with | .awake => false | .ps4 => false | _ => true)

/-- PWR's views (R508). -/
def viewPwr (s : State) (o : Nat) : Option Word :=
  if o = 0 then
    some (place 31 31 (if powerBusy s then 1 else 0) ||| place 26 24 (sharedTarget s) ||| (s.reg (aPwr 0) &&& maskOf 18 16))
  else if o = 8 then
    some ((List.range 8).foldl (fun w t => w ||| place (4 * t + 3) (4 * t) (tileCode s t)) 0)
  else none

/-- A host port's views: queue pairs and associations open (R324), and nothing for a sub-port that the
mode does not provide. -/
def viewHpt (s : State) (p o : Nat) : Option Word :=
  let subs := if s.fld (aHpt p 0) 1 0 = 0 then 1 else if s.fld (aHpt p 0) 1 0 = 1 then 2 else 4
  if o = 0x20 then
    some (place 31 16 (s.nq.qps.filter fun e => decide (e.2.port = p) && e.2.held).length |||
      place 10 0 (s.nq.assocs.filter fun e => e.2.live && decide (e.2.port = p)).length)
  else if o = 4 then
    some ((List.range 4).foldl
      (fun w k =>
        if subs ≤ k then w
        else w ||| place (4 * k + 3) (4 * k) (if s.bit (aHpt p 0) (4 + k) then s.fld (aHpt p 4) (4 * k + 3) (4 * k) else 3)) 0)
  else if 0x40 ≤ o ∧ o < 0xD0 ∧ subs ≤ (o % 16) / 4 then some 0
  else if 0x100 ≤ o ∧ subs ≤ (o - 0x100) / 64 then some 0
  else none

/-- What a register reads as, without side effect, when its block is on and reachable. -/
def viewReg (s : State) (a : Nat) : Word :=
  match blkOf a with
  | none => 0
  | some (b, o) =>
    let v :=
      match b with
      | .irq => viewIrq s 0 o
      | .tirq t => viewIrq s (1 + t) o
      | .owl => viewOwl s o
      | .mgt => viewMgt s o
      | .nq => viewNq s o
      | .buf => viewBuf s o
      | .sett n => viewSett s n o
      | .hpt p => viewHpt s p o
      | .lane t l => viewLane s t l o
      | .det t => viewDet s t o
      | .ucs => if o < 0x1000 then viewUcs s 0 o else none
      | .tucs t k => if k < 6 then viewUcs s (1 + 6 * t + k) o else none
      | .pwr => viewPwr s o
      | _ => none
    match v, regRow s.part a with
    | _, none => 0
    | some w, _ => w
    | none, some r => if r.acc = .wo then 0 else s.reg a

/-- Why an address cannot be accessed, if it cannot (R2, R37, R43); `waited`: the 100 µs of R37 are over. -/
inductive Gate where
  | open_
  | wait
  | stop (st : Status)
  deriving DecidableEq, Repr

/-- How an access to an address fares: an absent unit or a domain that is off, a tile whose link is not
in service (in maintenance: entry 37), an address with no register. -/
def gateOf (s : State) (a : Nat) : Gate :=
  match blkOf a with
  | none =>
    if 0x10000000 ≤ a ∧ a < 0x18000000 then
      let t := (a - 0x10000000) / 0x1000000
      if !(s.hasTile t) then .stop .domainOff
      else if s.linkUp t then .stop .badField
      else if s.linkWait t then .wait else .stop .domainOff
    else .stop .badField
  | some (b, o) =>
    match blkTile b, b with
    | some t, _ =>
      if !(s.hasTile t) then .stop .domainOff
      else if s.linkWait t then .wait
      else if !(s.linkUp t) then .stop .domainOff
      else if (regRow s.part a).isNone then .stop .badField
      else if s.domOn (blkDom b o) then .open_ else .stop .domainOff
    | none, .hpt p =>
      if !(s.hasPort p) then .stop .domainOff
      else if (regRow s.part a).isNone then .stop .badField
      else if s.domOn 2 then .open_ else .stop .domainOff
    | none, _ =>
      if (regRow s.part a).isNone then .stop .badField
      else if s.domOn (blkDom b o) then .open_ else .stop .domainOff

/-- A read without side effect, as a snapshot makes it: 0 where the access cannot be made (R43, R484). -/
def peek (s : State) (a : Nat) : Word := if gateOf s a = .open_ then viewReg s a else 0

end Sys2Proof.Machine
end

