-- ==== Sys2Proof/Machine/Owl.lean ====
section
/-! DEFINITION. The Owl event recorder (R479 to R493): events, their time and snapshot, the input
queue, merge windows, records in the ring, lost events, clearing, firmware records and the window. -/

namespace Sys2Proof.Machine

/-- The UNIT word of a record (R479): tile, cluster, head, lane and INDEX. -/
def owlUnit (t c h l i : Nat) : Nat :=
  t % 8 * 0x20000000 + c % 4 * 0x8000000 + h % 32 * 0x400000 + l % 256 * 0x4000 + i % 8192

/-- The class of an event: the high 4 bits of its code (R480). -/
def owlClass (code : Nat) : Nat := code / 4096 % 16

/-- A snapshot's read of a register by a die: a tile reads its own whatever its link does (R43, R484). -/
def peekFrom (s : State) (die a : Nat) : Word :=
  match blkOf a with
  | some (b, o) =>
    if die ≠ 0 ∧ blkTile b = some (die - 1) then
      (if (regRow s.part a).isSome ∧ s.domOn (blkDom b o) then viewReg s a else 0)
    else peek s a
  | none => 0

/-- The snapshot of class `k` for die `die` as registers now read (R484; entry 137); none when the list is empty. -/
def owlSnap (s : State) (k die : Nat) : Option (List Word) :=
  let es := (List.range 7).map fun i => s.reg (aOwl (0x200 + 32 * k + 4 * i))
  if es.all (fun e => decide (e = 0)) then none
  else some (es.map fun e =>
    if e = 0 then 0
    else
      let a := (e &&& ~~~(3 : Word)).toNat
      if e.getLsbD 0 then (if die = 0 then 0 else peekFrom s die (tileBase (die - 1) + a)) else peekFrom s die a)

/-- An event as its source stamps it (R483, R484). A tile without an operating time is stamped by the
hub, with TIMEEST. -/
def owlStamp (s : State) (code die unit st cause d0 d1 : Nat) : OwlEv :=
  let hubTime := (s.reg (aMgt 0x30)).toNat
  if die = 0 then ⟨code, 0, unit, st, cause, d0, d1, hubTime, false, false, none⟩
  else
    let a := aTile (die - 1) 0x48
    let set := s.bit a 31
    ⟨code, die, unit, st, cause, d0, d1, if set then s.fld a 30 0 else hubTime, !set, false,
      owlSnap s (owlClass code) die⟩

/-- Events of a die are lost: they count in OWL.LOST and are carried to the next 0x0003 record (R486; entry 142). -/
def owlLoseN (s : State) (die n : Nat) : State :=
  let s : State := { s with owl := { s.owl with carry := Tab.upd 0 s.owl.carry die (· + n) } }
  s.bump (aOwl 0x1C) n

/-- An event is lost. -/
def owlLose (s : State) (die : Nat) : State := owlLoseN s die 1

/-- An event reaches the input queue of 64 entries (R486); the hub stamps one of a tile without an operating time
(R483). -/
def owlArrive (s : State) (e : OwlEv) : State :=
  let e := if e.est then { e with time := (s.reg (aMgt 0x30)).toNat } else e
  if s.owl.queue.length < 64 then { s with owl := { s.owl with queue := s.owl.queue ++ [e] } }
  else owlLose s e.die

/-- An event occurs (R480 to R483). A tile whose link is not in service holds up to 32 events, to send
with LATE; beyond them events are counted (R482). -/
def owlPost (s : State) (code die unit st cause d0 d1 : Nat) : State :=
  let e := owlStamp s code die unit st cause d0 d1
  if die = 0 ∨ s.linkUp (die - 1) then owlArrive s e
  else
    let h := Tab.at [] s.owl.held (die - 1)
    if h.length < 32 then
      { s with owl := { s.owl with held := Tab.to [] s.owl.held (die - 1) (h ++ [{ e with late := true }]) } }
    else { s with owl := { s.owl with heldLost := Tab.upd 0 s.owl.heldLost (die - 1) (· + 1) } }

/-- A hub event. -/
def owlHub (s : State) (code index st cause d0 d1 : Nat) : State :=
  owlPost s code 0 (index % 8192) st cause d0 d1

/-- A tile reset loses the events not yet sent, and the count of them (R482). -/
def owlDropHeld (s : State) (t : Nat) : State :=
  { s with owl := { s.owl with held := Tab.to [] s.owl.held t [], heldLost := Tab.to 0 s.owl.heldLost t 0 } }

/-- The events a tile held are sent when its link returns, and the count of those it could not hold (R482). -/
def owlFlush (s : State) (t : Nat) : State :=
  let n := Tab.at 0 s.owl.heldLost t
  let s := (Tab.at [] s.owl.held t).foldl owlArrive (owlDropHeld s t)
  if n = 0 then s else owlLoseN s (t + 1) n

/-- The 64 bytes of a record (R479). -/
def owlBytes (s : State) (e : OwlEv) (rep : Option Nat) : Payload :=
  let snap := if e.die = 0 then owlSnap s (owlClass e.code) 0 else e.snap
  let flags := (if snap.isSome then 128 else 0) + (if rep.isSome then 64 else 0) +
    (if e.est then 32 else 0) + (if e.late then 16 else 0)
  beBytes 4 s.owl.next ++ beBytes 4 (s.reg (aMgt 0x2C)).toNat ++ beBytes 4 e.time ++ beBytes 2 e.code ++
    beBytes 1 e.die ++ beBytes 1 flags ++ beBytes 4 (rep.getD 0) ++ beBytes 1 e.status ++
    beBytes 1 e.cause ++ zeros 2 ++ beBytes 4 e.unit ++ beBytes 4 e.d0 ++ beBytes 4 e.d1 ++
    (match snap with
      | some ws => ws.flatMap fun w => beBytes 4 w.toNat
      | none => zeros 28)

/-- HOLD blocks writing: OWL.CFG.HOLD is 1 and 4,096 records are held (R487). -/
def owlBlocked (s : State) : Bool := s.bit (aOwl 0) 31 && decide (s.owl.count = 4096)

/-- A record completes: its slot changes in one step, SEQ advances, hub source 64 is raised and EVENT
is set (R479, R481, R485); a blocked record is lost (R487). -/
def owlWrite (s : State) (e : OwlEv) (rep : Option Nat) : State :=
  if owlBlocked s then owlLose s e.die
  else
    let bs := owlBytes s e rep
    let s : State :=
      { s with
        owl := { s.owl with
          ring := Tab.to [] s.owl.ring (s.owl.next % 4096) bs
          bad := s.owl.bad.filter fun u => u / 2 ≠ s.owl.next % 4096
          next := (s.owl.next + 1) % 2 ^ 32
          count := min (s.owl.count + 1) 4096 }
        mgmt := { s.mgmt with event := true } }
    irqEdge s 0 64

/-- Whether two events have the same key (R485). -/
def owlSame (a b : OwlEv) : Bool := decide (a.code = b.code) && decide (a.die = b.die) && decide (a.unit = b.unit)

/-- A window's summary, written when its count is nonzero, with a fresh snapshot (R485). -/
def owlSummary (s : State) (w : MergeWin) : State :=
  if w.count = 0 then s
  else
    let snap := if w.ev.die = 0 then none else owlSnap s (owlClass w.ev.code) w.ev.die
    owlWrite s { w.ev with snap := snap } (some w.count)

/-- The window that opened earliest gives way when all 16 are open (R485). -/
def owlMakeRoom (s : State) : State :=
  if s.owl.wins.length < 16 then s
  else
    match s.owl.wins with
    | [] => s
    | w :: rest => owlSummary { s with owl := { s.owl with wins := rest } } w

/-- The recorder takes one event: merged into its window, or written, opening a window (R485). Events
of class 0 are never merged, and MERGE 0 turns merging off. -/
def owlTake (s : State) (e : OwlEv) : State :=
  if s.fld (aOwl 0) 15 0 = 0 ∨ owlClass e.code = 0 then owlWrite s e none
  else if s.owl.wins.any (fun w => owlSame w.ev e) then
    let ws := s.owl.wins.map fun w => if owlSame w.ev e then { w with ev := e, count := w.count + 1 } else w
    ({ s with owl := { s.owl with wins := ws } } : State).bump (aOwl 0x20)
  else
    let s := owlMakeRoom s
    let s := owlWrite s e none
    { s with owl := { s.owl with wins := s.owl.wins ++ [⟨e, 0, s.now⟩] } }

/-- The events lost are reported, a 0x0003 record for each die, before any other record (R486). -/
def owlReport (s : State) : State :=
  s.owl.carry.foldl
    (fun s e =>
      if owlBlocked s then s
      else
        let s : State := { s with owl := { s.owl with carry := Tab.to 0 s.owl.carry e.1 0 } }
        owlWrite s { owlStamp s 0x0003 0 0 0 0 e.2 0 with die := e.1 } none) s

/-- One record completes (R481): the 0x0001 record that ends a clear (R487), then a 0x0003 record for
events lost (R486), then the event at the head of the input queue. -/
def owlComplete (s : State) : State :=
  match s.owl.clearing with
  | some n =>
    let s : State := { s with owl := { s.owl with clearing := none } }
    owlWrite s (owlStamp s 0x0001 0 0 0 0 n 0) none
  | none =>
    match owlBlocked s, s.owl.carry with
    | false, (die, n) :: rest =>
      let s : State := { s with owl := { s.owl with carry := rest } }
      owlWrite s { owlStamp s 0x0003 0 0 0 0 n 0 with die := die } none
    | _, _ =>
      match s.owl.queue with
      | [] => s
      | e :: q => owlTake { s with owl := { s.owl with queue := q } } e

/-- A merge window ends: its summary is written if its count is nonzero and a new window for the key
opens; otherwise the key is dropped (R485). -/
def owlWindowEnd (s : State) (i : Nat) : State :=
  match s.owl.wins[i]? with
  | none => s
  | some w =>
    let rest := s.owl.wins.eraseIdx i
    if w.count = 0 then { s with owl := { s.owl with wins := rest } }
    else
      let s := owlSummary (owlReport { s with owl := { s.owl with wins := rest } }) w
      { s with owl := { s.owl with wins := s.owl.wins ++ [⟨w.ev, 0, s.now⟩] } }

/-- CLEAR: every slot is emptied, the windows close with their counts discarded, and the 0x0001 record
follows (R487). -/
def owlClearStart (s : State) : State × Status :=
  if s.owl.clearing.isSome then (s, .storeBusy)
  else
    ({ s with owl := { s.owl with ring := [], bad := [], count := 0, wins := [], clearing := some s.owl.count } }, .ok)

/-- A firmware record from FWDATA as it stands (R488). -/
def owlFirmware (s : State) (w : Word) : State :=
  let code := Sys2Proof.fld w 11 0
  let s := s.setF (aOwl 0x4C) 11 0 code
  owlPost s (0xF000 + code) 0 (s.reg (aOwl 0x40)).toNat 0 0 (s.reg (aOwl 0x44)).toNat (s.reg (aOwl 0x48)).toNat

/-- CURSOR is written: it selects the window's record and clears BADREC (R489, R491). -/
def owlCursor (s : State) (w : Word) : State := (s.setReg (aOwl 0x14) w).setB (aOwl 8) 30 false

/-- A read of WIN[15] with AUTO set advances CURSOR (R489). -/
def owlAdvance (s : State) : State :=
  if s.bit (aOwl 0x18) 0 then s.setReg (aOwl 0x14) (s.reg (aOwl 0x14) + 1) else s

/-- OWL_EVENT. -/
def execOwlEvent (code die unit st cause d0 d1 : Nat) (fromTile : Bool) (s : State) : Res :=
  onOk (decide (die ≤ 8) && decide (fromTile = decide (die ≠ 0)))
    (if die = 0 || s.hasTile (die - 1) then owlPost s code die unit st cause d0 d1 else s)

/-- MERGE_WINDOW_END. -/
def execMergeWindowEnd (i : Nat) (s : State) : Res := .next (owlWindowEnd s i)

/-- OWL_CLEAR. -/
def execOwlClear (s : State) : Res :=
  .next (let r := owlClearStart s
         r.1.emit (.reply .port (aOwl 4) 1 r.2))

/-- FIRMWARE_RECORD. -/
def execFirmwareRecord (w : Word) (s : State) : Res := .next (owlFirmware s w)

/-- CURSOR_WRITE. -/
def execCursorWrite (w : Word) (s : State) : Res := .next (owlCursor s w)

/-- WINDOW_READ_ADVANCE: the read of WIN[15] answers the word, then CURSOR advances. -/
def execWindowReadAdvance (s : State) : Res :=
  .next (owlAdvance (s.emit (.reply .port (aOwl 0x13C) (viewReg s (aOwl 0x13C)) .ok)))

/-- OWL_RECORD_COMPLETE. -/
def execOwlRecordComplete (s : State) : Res := .next (owlComplete s)

/-! ### The priority-stack fault's record (R439) -/

/-- COMPLETE written by `who` (R438, R450): another writer than the target processor has no effect. The
fault's record names the target and what PSFAULT holds. -/
def completeBy (s : State) (who : Who) (ic n id : Nat) : State × Status :=
  if isCore who ic n then
    let r := completeWrite (s.setReg (aTgt ic n 0x24) 0) ic n id
    let s := r.1
    if r.2 then
      let f := aTgt ic n 0x14
      (owlPost s 0x8002 ic (owlUnit (ic - 1) 0 0 0 n) 0 0 (s.fld f 29 20) (s.fld f 19 10), .ok)
    else (s, .ok)
  else (s, .badField)

/-- COMPLETE. -/
def execComplete (who : Who) (ic n id : Nat) (s : State) : Res :=
  onIrq s ic n id
    (let r := completeBy s who ic n id
     r.1.emit (.reply who (aTgt ic n 4) (w32 id) r.2))

end Sys2Proof.Machine
end

