-- ==== Sys2Proof/Machine/Memp.lean ====
section
/-! DEFINITION. What reading protected memory does (R395, R399, R404): counts, the latest uncorrectable
read, records and interrupts. What an uncorrectable unit does to its holder is in the blocks' files. -/

namespace Sys2Proof.Machine

/-- The store ID of a unit's address. -/
def eccStore (a : Nat) : Nat := a / 2 ^ 40 % 256
/-- The unit index in the store. -/
def eccIndex (a : Nat) : Nat := a % 2 ^ 40

/-- The store class that counters are kept for (R407). -/
def eccClassOf (a : Nat) : Nat :=
  let st := eccStore a
  if st = 0 then 0 else if st < 0x10 then 1 else min 9 (2 + (st - 0x10) / 16)

/-- A unit as its symbols. -/
def eccCells (r : EccRead) : List (BitVec 8) := r.symbols.map (BitVec.ofNat 8)

/-- How a unit reads at its address (R393). -/
def eccCls (r : EccRead) : EccClass := readUnit r.addr (eccCells r)

/-- The page of 4 KiB that holds a unit, with the store. -/
def eccPage (a : Nat) : Nat := eccStore a * 2 ^ 40 + eccIndex a / 128

/-- Hub source 48 follows MEMP.UNCORR, source 49 FATAL and SLOW (R433). -/
def mempLevels (s : State) : State :=
  let any := (List.range 10).any fun k => decide (s.reg (aMemp (0x140 + 4 * k)) ≠ 0)
  irqLevel (irqLevel s 0 48 any) 0 49 (s.bit (aMemp 0) 31 || s.bit (aMemp 0) 30)

/-- Tile source 264 follows the tile's uncorrectable reads (R434). -/
def mempTileLevel (s : State) (k : Nat) : State :=
  if 2 ≤ k ∧ s.hasTile (k - 2) then
    irqLevel s (1 + (k - 2)) 264 (decide (s.reg (aMemp (0x140 + 4 * k)) ≠ 0))
  else s

/-- A read of a unit is counted and recorded as its class asks (R395). -/
def eccCount (s : State) (r : EccRead) : State :=
  let k := eccClassOf r.addr
  match eccCls r with
  | .clean => s
  | .corrected _ _ =>
    let s := s.bump (aMemp (0x100 + 4 * k))
    let p := eccPage r.addr
    if p ∈ s.memp.fixed then s
    else
      owlHub { s with memp := { s.memp with fixed := s.memp.fixed ++ [p] } } 0x6002 (eccStore r.addr) 0 0
        (eccIndex r.addr / 128 % 2 ^ 32) 0
  | c =>
    let s := s.bump (aMemp (0x140 + 4 * k))
    let s := if c = .location then s.bump (aMemp 0x180) else s
    let s := if c = .poison then s.bump (aMemp 0x184) else s
    let i := eccIndex r.addr
    let s := s.setReg (aMemp 0x190) (place 31 24 (eccStore r.addr) ||| place 7 0 (i / 2 ^ 32))
    let s := s.setReg (aMemp 0x194) (w32 i)
    let s := s.setReg (aMemp 0x198) (w32 (beNat (folded r.addr (eccCells r))))
    let s := owlHub s 0x6001 (eccStore r.addr) 0 c.code (i / 2 ^ 32) (i % 2 ^ 32)
    mempTileLevel (mempLevels s) k

/-- A demand read that corrects a unit lists its page for scrubbing, up to 16 pages (R404). -/
def noteScrub (s : State) (r : EccRead) : State :=
  match eccCls r with
  | .corrected _ _ =>
    let p := eccIndex r.addr / 128
    if eccStore r.addr ≠ 0 ∨ p ∈ s.memp.scrub ∨ 16 ≤ s.memp.scrub.length then s
    else { s with memp := { s.memp with scrub := s.memp.scrub ++ [p] } }
  | _ => s

/-- Whether a unit is read at all: in a page of the buffer that nothing has written, no cells are (R400). -/
def unitRead (s : State) (r : EccRead) : Bool := decide (eccStore r.addr ≠ 0) || Tab.at false s.memp.written (eccPage r.addr)

/-- A page of the buffer is written whole: its bit is set (R400). -/
def pageWritten (s : State) (p : Nat) : State :=
  { s with memp := { s.memp with written := Tab.to false s.memp.written p true } }

/-- Pages whose bits are cleared (R401). -/
def pageCleared (s : State) (p : Nat) : State :=
  { s with memp := { s.memp with written := Tab.to false s.memp.written p false } }

/-- A write of part of a page: an unwritten page is first filled with zeros (R400). -/
def pagePart (s : State) (p : Nat) : State :=
  if Tab.at false s.memp.written p then s else pageWritten (s.bump (aMemp 0x24)) p

end Sys2Proof.Machine
end

