-- ==== Sys2Proof/Machine/Cmds.lean ====
section
/-! DEFINITION. Host commands as the device holds them: blocks, drops, the status of a read (R187), the
drop ring (R315 to R318), completions (R322), and their ending. -/

namespace Sys2Proof.Machine

/-! ### Capsule fields (R310, R331) -/

/-- SLBA: CDW10 and CDW11. -/
def capSlba (c : Capsule) : Nat := c.cdw10 + c.cdw11 % 2 ^ 32 * 2 ^ 32
/-- NLB, zero-based: CDW12 bits 15:0. -/
def capNlb (c : Capsule) : Nat := c.cdw12 % 2 ^ 16
/-- FUA: CDW12 bit 30. -/
def capFua (c : Capsule) : Bool := decide (c.cdw12 / 2 ^ 30 % 2 = 1)
/-- Limited Retry: CDW12 bit 31. -/
def capLimited (c : Capsule) : Bool := decide (c.cdw12 / 2 ^ 31 % 2 = 1)

/-- Blocks of a command. -/
def Cmd.len (c : Cmd) : Nat := c.blks.length

/-- The LBA of block `b` of a command. -/
def Cmd.lba (c : Cmd) (b : Nat) : Nat := c.lo + b

/-- Block `b` of a command. -/
def Cmd.blk (c : Cmd) (b : Nat) : Blk := c.blks.getD b Blk.idle

/-- The command with a block changed. -/
def Cmd.setBlk (c : Cmd) (b : Nat) (x : Blk) : Cmd := { c with blks := setNth c.blks b x }

/-- The drops of a command: block and cause. -/
def Cmd.drops (c : Cmd) : List (Nat × Cause) :=
  (List.range c.len).filterMap fun b => (c.blk b).drop.map fun x => (b, x)

/-- Whether every block has been sent. -/
def Cmd.allSent (c : Cmd) : Bool := c.blks.all fun b => decide (b.st = .sent)

/-- The status of a read from its drops: the first of the list of R187 that applies. -/
def readStatus (n : Nat) (ds : List Cause) : Status :=
  if .key ∈ ds then .keyErased
  else if ds.length = n ∧ n ≠ 0 then
    if .deadline ∈ ds then .deadline
    else if ds.all (fun d => decide (d = .auth)) then .authFail
    else if ds.all (fun d => decide (d = .retired)) then .retired
    else .unrecovered
  else if ds ≠ [] then .partialDrop
  else .ok

/-! ### Completions (R316, R317, R322) -/

/-- The path MTU of a queue pair in bytes: the lower of the configuration's and the one agreed (R308). -/
def qpMtu (s : State) (n : Nat) : Nat :=
  let m := s.fld (aHpt (s.qp n).port 8) 1 0
  let own := if m = 0 then 1024 else if m = 1 then 2048 else 4096
  if (s.qp n).mtu = 0 then own else min own (s.qp n).mtu

/-- The VLAN ID and the PCP that a port puts on what it sends; untagged without a VLAN (R304). -/
def tagOf (s : State) (p : Nat) (cnp : Bool) : Option (Nat × Nat) :=
  let v := s.fld (aHpt p 0x14) 11 0
  if v = 0 then none else some (v, if cnp then s.fld (aHpt p 0x14) 16 14 else s.fld (aHpt p 0x14) 25 23)

/-- Whether a sub-port's link is up. -/
def subUp (s : State) (p k : Nat) : Bool := decide (s.fld (aHpt p 4) (4 * k + 3) (4 * k) = 2)

/-- A transfer of `len` bytes is sent on a queue pair: its packets take sequence numbers and stay until
acknowledged (R308); an RDMA Read takes the numbers of its response's packets (entry 131). Nothing goes out on a
sub-port that is down: the transfer is sent when the link returns (R302, R319). Kinds: 0 Send, 1 RDMA Write, 2 RDMA
Read request. -/
def sendPkt (s : State) (n kind cmd blk len : Nat) : State :=
  let q := s.qp n
  let k := max 1 ((len + qpMtu s n - 1) / qpMtu s n)
  let t := s.setQp n { q with inflight := q.inflight ++ [⟨(q.psn + k - 1) % 2 ^ 24, kind, cmd, blk⟩], psn := (q.psn + k) % 2 ^ 24 }
  if subUp s q.port q.sub then
    t.emit (.packets n q.psn (if kind = 2 then 1 else k) kind (s.fld (aHpt q.port 0x14) 31 26) (tagOf s q.port false)
      (s.bit (aHpt q.port 0x10) 31))
  else t

/-- A completion entry is sent on a queue pair with explicit status code type, code and DNR. -/
def postRaw (s : State) (qp cid dw0 dw1 sct sc : Nat) (dnr : Bool) : State :=
  sendPkt (s.emit (.cqe qp cid dw0 dw1 (s.qp qp).sqhd sct sc dnr)) qp 0 0 0 16

/-- A completion entry with a status of R16 (R322). -/
def postCqe (s : State) (qp cid dw0 dw1 : Nat) (st : Status) : State :=
  postRaw s qp cid dw0 dw1 st.sct st.code st.dnr

/-- The 64 bytes of a ring entry (R316), little-endian. -/
def ringBytes (c : Cmd) (qid seq rent : Nat) : Payload :=
  let ds := c.drops
  let causes := ds.foldl (fun m d => Nat.lor m (2 ^ d.2.code)) 0
  let map := (List.range 32).map fun i =>
    BitVec.ofNat 8 ((List.range 8).foldl
      (fun m b => m + if (c.blk (8 * i + b)).drop.isSome then 2 ^ b else 0) 0)
  leBytes 2 c.cap.cid ++ leBytes 2 qid ++ leBytes 4 c.nsid ++ leBytes 8 c.lo ++ leBytes 2 (c.len - 1) ++
    leBytes 1 causes ++ leBytes 1 (Nat.xor 1 (seq / rent % 2)) ++ leBytes 4 seq ++ leBytes 4 ds.length ++
    zeros 4 ++ map

/-- A ring entry is written and DW0 names its slot with DROPV (R316, R317); a queue without a ring, and
a read without drops, write none and have DW0 0. -/
def writeRing (s : State) (c : Cmd) : State × Nat :=
  let q := s.qp c.qp
  if c.drops = [] ∨ q.rent = 0 then (s, 0)
  else
    let slot := q.ringSeq % q.rent
    let s := s.emit (.rdmaWrite c.qp (q.raddr + 64 * slot) q.rkey (ringBytes c q.qid q.ringSeq q.rent))
    let s := s.setQp c.qp { q with ringSeq := (q.ringSeq + 1) % 2 ^ 32 }
    (sendPkt s c.qp 1 0 0 64, 2 ^ 31 + slot)

/-! ### Staging pages (R365) -/

/-- The frames of the pool without the pages that `p` holds of; a frame with no page left is free. -/
def dropPages (p : Page → Bool) (fs : List (Nat × List Page)) : List (Nat × List Page) :=
  (fs.map fun f => (f.1, f.2.filter fun g => !(p g))).filter fun f => f.2 ≠ []

/-- A block's staging page is freed. -/
def freePage (s : State) (cmd blk : Nat) : State :=
  { s with buf := { s.buf with
      stage := dropPages (fun g => decide (g.cmd = cmd) && decide (g.blk = blk)) s.buf.stage } }

/-- Every staging page of a command is freed. -/
def freePages (s : State) (cmd : Nat) : State :=
  { s with buf := { s.buf with stage := dropPages (fun g => decide (g.cmd = cmd)) s.buf.stage } }

/-! ### The shadow (R417) -/

/-- The shadow is zeroed once nothing remains latched to its generation (R417). -/
def shadowCheck (s : State) (slot : Nat) : State :=
  let x := s.slot slot
  match x.shadow with
  | some (g, _) => if latchedTo s slot g = 0 then s.setSlot slot { x with shadow := none } else s
  | none => s

/-! ### Ending a command -/

/-- A command's dispatch thread ends with it (R289). -/
def endDispatch (s : State) (i : Nat) : State :=
  let es := Tab.upd Engine.fresh s.tl.engines 0 fun g =>
    { g with threads := g.threads.filter fun x => decide (x.2.cmd ≠ i) }
  { s with tl := { s.tl with engines := es } }

/-- A command leaves the device: its pages are freed and the shadow it used may be released. -/
def removeCmd (s : State) (i : Nat) : State :=
  let c := s.cmd i
  let s := freePages s i
  let s : State := { s with buf := { s.buf with waits := s.buf.waits.filter fun j => j ≠ i } }
  let s := s.setCmd i Cmd.none
  let s := endDispatch s i
  if c.cls = .rd ∨ c.cls = .wr then shadowCheck s (nsSlot s c.nsid) else s

/-- A command completes with a status: a completion is sent unless it is one of the device's own (R384)
or its queue has been reset (R338). -/
def completeCmd (s : State) (i : Nat) (st : Status) : State :=
  let c := s.cmd i
  if !c.live then s
  else if c.old then removeCmd (s.bump (aNq 0x2C)) i
  else if c.origin ≠ .host then removeCmd s i
  else removeCmd (postCqe s c.qp c.cap.cid c.dw0 c.dw1 st) i

/-- A command completes with a Fabrics status (R322): SCT 0x1. -/
def completeFabrics (s : State) (i sc dw0 : Nat) : State :=
  let c := s.cmd i
  if !c.live then s else removeCmd (postRaw s c.qp c.cap.cid dw0 0 1 sc true) i

/-- A command completes with data returned: an RDMA Write of the data, then the completion. -/
def completeData (s : State) (i : Nat) (bs : Payload) : State :=
  let c := s.cmd i
  if !c.live then s
  else completeCmd (sendPkt (s.emit (.rdmaWrite c.qp c.cap.sglAddr c.cap.sglKey bs)) c.qp 1 i 0 bs.length) i .ok

/-- A read completes (R187, R317): ring entry, then completion with its DW0. -/
def completeRead (s : State) (i : Nat) : State :=
  let c := s.cmd i
  if !c.live then s
  else
    let st := readStatus c.len (c.drops.map (·.2))
    if c.old ∨ c.origin ≠ .host then completeCmd s i st
    else
      let r := writeRing s c
      completeCmd (r.1.setCmd i { c with dw0 := r.2 }) i st

/-- A sector of a command is dropped with a cause: its block will be sent as zeros (R18, R21). -/
def dropBlk (s : State) (i b : Nat) (x : Cause) : State :=
  let c := s.cmd i
  if c.live ∧ (c.blk b).st ≠ .sent ∧ b < c.len then
    s.setCmd i (c.setBlk b { (c.blk b) with st := .ready, drop := some x, data := [] })
  else s

end Sys2Proof.Machine
end

