-- ==== Sys2Proof/Machine/TileBase.lean ====
section
/-! DEFINITION. What the tile's blocks share: records and interrupts of a tile, deferrals (R25), lane
states, pins (R122), the endings of contexts (R173, R190), drops (R186) and write results (R157). -/

namespace Sys2Proof.Machine

/-- Tile `t`'s shared edge source `i` has its event (R434). -/
def tileEdge (s : State) (t i : Nat) : State := irqEdge s (1 + t) i

/-- A record of tile `t` with its unit (R479, R480). -/
def owlTile (s : State) (t code unit st cause d0 d1 : Nat) : State :=
  owlPost s code (1 + t) unit st cause d0 d1

/-- A record of tile `t` that names a cluster. -/
def owlCluster (s : State) (t c code cause d0 d1 : Nat) : State :=
  owlTile s t code (owlUnit t c 0 0 0) 0 cause d0 d1

/-- A record of tile `t` that names a head. -/
def owlHead (s : State) (t c h code cause d0 d1 : Nat) : State :=
  owlTile s t code (owlUnit t c h 0 0) 0 cause d0 d1

/-- The tile event that reaches the dispatch engine as packet opcode 0xF0 (R289, R433). -/
def tileNotice (s : State) (t : Nat) (w : Word) : State :=
  irqEdge (s.modDet t fun d => { d with events := d.events ++ [w] }) 0 (24 + t)

/-! ### Lanes -/

/-- LANE.STATE.STATE. -/
def laneSt (s : State) (t l : Nat) : Nat := s.fld (aLane t l 4) 3 0

/-- A lane changes state (R96). -/
def setLaneSt (s : State) (t l n : Nat) : State := s.setF (aLane t l 4) 3 0 n

/-- Whether the tile's own retirement set holds a lane, writer, head or cluster, or the tile (R197). -/
def tLane (s : State) (t l : Nat) : Bool := s.bit (aTile t (0x1100 + 4 * (l / 32))) (l % 32)
/-- Whether a writer is retired in the tile's set. -/
def tWriter (s : State) (t i : Nat) : Bool := s.bit (aTile t (0x1120 + 4 * (i / 32))) (i % 32)
/-- Whether a head is retired in the tile's set, by itself. -/
def tHead (s : State) (t i : Nat) : Bool := s.bit (aTile t (0x1130 + 4 * (i / 32))) (i % 32)
/-- Whether a cluster is retired in the tile's set, by itself. -/
def tCluster (s : State) (t c : Nat) : Bool := s.bit (aTile t 0x1140) c
/-- Whether the tile is retired. -/
def tTile (s : State) (t : Nat) : Bool := s.bit (aTile t 0x1140) 8
/-- Whether a head cannot be used: it, its cluster or its tile is retired. -/
def headDead (s : State) (t c h : Nat) : Bool := tHead s t (headIx c h) || tCluster s t c || tTile s t

/-- The states in which a lane samples without a capture or with one. -/
def laneAwake (s : State) (t l : Nat) : Bool :=
  laneSt s t l == 3 || laneSt s t l == 4 || laneSt s t l == 5 || laneSt s t l == 6

/-- A deferral of `n` sectors by one revolution (R25). -/
def deferN (s : State) (t n : Nat) : State :=
  if n = 0 then s else tileEdge (s.bump (aTile t 0x20) n) t 248

/-! ### Tracks -/

/-- A 24-bit track code as a track number: the servo-only tracks are −1 and −2 (R539). -/
def trackOf (n : Nat) : Int :=
  if n % 2 ^ 24 = 2 ^ 24 - 1 then -1 else if n % 2 ^ 24 = 2 ^ 24 - 2 then -2 else (n % 2 ^ 24 : Nat)

/-- A track number as its 24-bit code. -/
def trackCode (n : Int) : Nat := pattern 24 n

/-- Whether a track is a data track of the format (R45, R46). -/
def dataTrack (s : State) (t : Nat) (n : Int) : Bool :=
  decide (0 ≤ n) && decide (n.toNat < fmtBands s t * fmtTrk s t) && isDataTrack s t n.toNat

/-! ### Pins (R93, R122) -/

/-- PIN of a lane: both bits cleared, or the bit of bank `b` set. -/
def setPin (s : State) (t l b : Nat) (on : Bool) : State :=
  if on then s.setF (aLane t l 4) 17 16 (Nat.lor (s.fld (aLane t l 4) 17 16) (2 ^ b))
  else s.setF (aLane t l 4) 17 16 0

/-- The lanes of a head. -/
def headLanes (c h : Nat) : Nat × Nat := (laneOf c h 0, laneOf c h 1)

/-- A capture is pinned, unless an earlier pin of the head stands (R122): true when it is pinned after. -/
def pinCapture (s : State) (t c h id : Nat) : State × Bool :=
  let i := headIdx t c h
  let x := s.head i
  match x.pin with
  | some (p, _) => (s, decide (p = id))
  | none =>
    if x.held.any (fun k => decide (k.id = id)) then
      let b := id / 2 ^ 30
      let s := s.setHead i { x with pin := some (id, s.now) }
      let s := setPin s t (laneOf c h 0) b true
      (setPin s t (laneOf c h 1) b true, true)
    else (s, false)

/-- A lane that is asked to sleep goes to SLEEP once it captures nothing and no bank of it is pinned (R97): its
history is invalid (R96, R107), and reader B's lane is fully off (R98). -/
def sleepIfAsked (s : State) (t l : Nat) : State :=
  if s.bit (aLane t l 0) 0 ∧ (laneSt s t l = 3) ∧ s.fld (aLane t l 4) 17 16 = 0 then
    let p := laneParts l
    let s := (setLaneSt s t l 1).modLane t l fun x => { x with b0 := Bank.none, b1 := Bank.none }
    let s := s.modHead (headIdx t p.1 p.2.1) fun x => { x with held := [] }
    if p.2.2 = 1 then s.setReg (aLane t l 8) 0 else s
  else s

/-! ### Results of the pool (R117, R131, R134) -/

/-- The descriptor of a decoder-queue entry (R117): 32 bytes. -/
def descriptor (e : DecEnt) : Payload :=
  beBytes 6 e.psa ++ beBytes 1 e.lane ++ beBytes 1 (32 * e.target + e.zone) ++ beBytes 1 e.flags ++
    beBytes 1 (pattern 8 e.slip) ++ beBytes 1 e.itmax ++ beBytes 1 (pattern 8 e.align) ++ beBytes 4 e.capid ++ zeros 16

/-- Soft values packed four to three bytes, the first highest (R117). -/
def packSoft (soft : List Int) : Payload :=
  bitsBytes (3 * ((soft.length + 3) / 4)) (soft.flatMap fun v => msbBits 6 (pattern 6 v))

/-- An entry as it stands in a decoder queue (R117): the descriptor and 37,120 soft values. -/
def entryBytes (e : DecEnt) : Payload := descriptor e ++ packSoft e.soft

/-- A result goes to the pool output queue, or waits for a place there (R131, R134). -/
def pushRes (s : State) (t : Nat) (r : PoolRes) : State :=
  s.modDet t fun d =>
    if d.late = [] ∧ d.poolOut.length < 32 then { d with poolOut := d.poolOut ++ [r] } else { d with late := d.late ++ [r] }

/-- The result of an operation that ends without a decode (R131). -/
def opResult (q : HistReq) (st : DecSt) : PoolRes :=
  let e : DecEnt := ⟨0, 0, q.target, 0, 2, 0, q.limit, 0, q.capid.getD 0, []⟩
  ⟨.ended q, descriptor e, 0, q.capid.getD 0, st, [], 0, 0, 0⟩

/-- An operation leaves its stored-sample detector. -/
def opDone (s : State) (t : Nat) (q : HistReq) : State :=
  s.modDet t fun d => { d with ops := d.ops.eraseP fun o => decide (o.req = q) }

/-- An operation ends without a decode. -/
def endOp (s : State) (t : Nat) (q : HistReq) (st : DecSt) : State := pushRes (opDone s t q) t (opResult q st)

/-- Whether an operation reads the samples of a bank (R123, R126). -/
def readsBank (op : Nat) : Bool := decide (1 ≤ op) && decide (op ≤ 4)

/-- Every operation that runs ends with ABORT: its tile is reset (R136). -/
def abortAll (s : State) (t : Nat) : State := (s.det t).ops.foldl (fun s o => endOp s t o.req .abort) s

/-- Operations that are still reading the samples of capture `id` of head `i` stop and complete with ABORT;
one whose decoder entry is complete goes on to decode, and tries no other offset (R123). -/
def abortOps (s : State) (t i id : Nat) : State :=
  let mine (o : HistOp) : Bool := decide (o.req.capid = some id) && decide (o.req.head = i) && readsBank o.req.op
  let stop := (s.det t).ops.filter fun o => mine o && decide (o.left = 0)
  let s := stop.foldl (fun s o => endOp s t o.req .abort) s
  s.modDet t fun d => { d with ops := d.ops.map fun o => if mine o then { o with offs := some [] } else o }

/-- The pin of a capture ends (R122, R123): what still reads its banks stops, and they are free. -/
def endPin (s : State) (t c h : Nat) : State :=
  let i := headIdx t c h
  let s := match (s.head i).pin with | some (id, _) => abortOps s t i id | none => s
  let s := s.modHead i fun x => { x with pin := none }
  let s := setPin s t (laneOf c h 0) 0 false
  let s := setPin s t (laneOf c h 1) 0 false
  sleepIfAsked (sleepIfAsked s t (laneOf c h 0)) t (laneOf c h 1)

/-- RELEASE of a capture: its pin ends if it is the pinned one. -/
def releaseCap (s : State) (t c h id : Nat) : State :=
  match (s.head (headIdx t c h)).pin with
  | some (p, _) => if p = id then endPin s t c h else s
  | none => s

/-! ### Contexts (R173, R190) -/

/-- The contexts of a tile that are open, with their numbers. -/
def openCtxs (s : State) (t : Nat) : List (Nat × Ctx) :=
  (s.tl.ctxs.filter fun e => decide (e.1 / 256 = t) && e.2.live).map fun e => (e.1 % 256, e.2)

/-- The hardware's scratch words 0 to 7 of a context (R290), computed from it. -/
def ctxWord (s : State) (t i : Nat) (k : Nat) : Word :=
  let x := s.ctx t i
  let p := x.want.req.psa
  if k = 0 then w32 (p / 2 ^ 32)
  else if k = 1 then w32 p
  else if k = 2 then (match x.capid with | some c => w32 c | none => 0xFFFFFFFF)
  else if k = 3 then
    (match (s.cmd x.want.req.cmd).deadline with
      | some d => w32 (min ((d - s.now) / 1000) 0xFFFFFFFE)
      | none => 0xFFFFFFFF)
  else if k = 4 then
    place 7 0 x.step ||| place 8 8 (if dataTrack s t (psaTrack p) && decide (pairLow s t (psaTrack p) ≠ psaTrack p) then 1 else 0)
  else if k = 5 then w32 x.cap
  else if k = 6 then
    (match x.best with
      | some (w, o) => place 31 16 (pattern 16 o) ||| place 15 0 w
      | none => 0xFFFF)
  else (match x.slot with | some j => w32 j | none => 0xFF)

/-- LCTX.INUSE and HIGH follow the contexts open (R201). -/
def countCtxs (s : State) (t : Nat) : State :=
  let n := (openCtxs s t).length
  let a := aTile t 0x1020
  (s.setF a 8 0 n).setF a 24 16 (max (s.fld a 24 16) n)

/-- The ladder thread of a context is told that its context has ended (R290): at once if it waits, at
its next WAIT otherwise. -/
def endThreadOf (s : State) (t i : Nat) : State :=
  let e := 1 + 6 * t + 5
  s.modEng e fun g =>
    let th := Tab.at Thread.none g.threads i
    if !th.live then g
    else if th.wait.isSome then { g with threads := Tab.to Thread.none g.threads i Thread.none }
    else { g with threads := Tab.to Thread.none g.threads i { th with ended := true } }

/-- A request whose context has ended (R184). -/
def orphanReq (i : Nat) (q : HistReq) : HistReq := if q.ctx = i then { q with ctx := 256 } else q

/-- What a decode is for, after context `i` has ended. -/
def orphanFor (i : Nat) : ResFor → ResFor
  | .live w => .live w
  | .stored q own => .stored (orphanReq i q) own
  | .ended q => .ended (orphanReq i q)

/-- A codeword on its way, after context `i` has ended. -/
def orphanJob (i : Nat) (j : Job) : Job := { j with dst := orphanFor i j.dst }

/-- The requests of a context that has ended are withdrawn; operations already running complete, and their
results are nobody's (R184). -/
def forgetOps (s : State) (t i : Nat) : State :=
  s.modDet t fun d =>
    { d with
      hist := d.hist.filter fun q => decide (q.ctx ≠ i)
      ops := d.ops.map fun o => { o with req := orphanReq i o.req }
      stQ := d.stQ.map (orphanJob i)
      engs := d.engs.map fun e => (e.1, ⟨e.2.cur.map (orphanJob i), e.2.nxt.map (orphanJob i)⟩)
      poolOut := d.poolOut.map fun r => { r with dst := orphanFor i r.dst }
      late := d.late.map fun r => { r with dst := orphanFor i r.dst } }

/-- A context ends: its pin is released, its slot freed, its bookings not yet started cancelled, and its
re-reads not yet captured forgotten (R180, R184, R190). -/
def endCtx (s : State) (t i : Nat) : State :=
  let x := s.ctx t i
  if !x.live then s
  else
    let p := x.want.req.psa
    let hi := headIdx t (psaCluster p) (psaHead p)
    let s :=
      match x.capid with
      | some id => releaseCap s t (psaCluster p) (psaHead p) id
      | none => s
    let s :=
      match x.slot with
      | some j => (s.modDet t fun d => { d with soft := Tab.to SoftSlot.free d.soft j SoftSlot.free }).setB (aDet t 0x10) j false
      | none => s
    let s := s.modHead hi fun y =>
      { y with
        bookings := y.bookings.filter fun b => b.started || decide (b.ctx ≠ i)
        want := y.want.filter fun w => decide (w.ctx ≠ some i) }
    let s := forgetOps s t i
    countCtxs (endThreadOf (s.setCtx t i Ctx.none) t i) t

/-! ### Drops (R26, R186) -/

/-- Entries of the outbound data queue that are held or reserved, of 48 (R20 step 6, R28). -/
def outUsed (s : State) (t : Nat) : Nat := (s.det t).outQ.length + (s.det t).outRes

/-- What waits for the outbound queue enters it while entries are free (R23); QHIGH follows (R41). -/
def fillOut (s : State) (t : Nat) : State :=
  let n := 48 - outUsed s t
  let s := s.modDet t fun d => { d with outQ := d.outQ ++ d.outWait.take n, outWait := d.outWait.drop n }
  s.setF (aTile t 0x30) 31 16 (max (s.det t).outQ.length (s.fld (aTile t 0x30) 31 16))

/-- An entry that has no reservation goes to the outbound data queue when one is free (R23). -/
def pushOut (s : State) (t : Nat) (o : OutSec) : State :=
  fillOut (s.modDet t fun d => { d with outWait := d.outWait ++ [o] }) t

/-- Whether a request comes from the host's side and its result goes to the hub. -/
def forHub (k : ReqKind) : Bool := k == .host || k == .prefetch || k == .lock

/-- A partner sector of a head's writes changes (R150). -/
def setPartner (s : State) (psa : Nat) (v : PartSt) : State :=
  s.modHeadW (headIdx (psaTile psa) (psaCluster psa) (psaHead psa)) fun w =>
    { w with partners := w.partners.map fun p => if p.1 = psa then (psa, v) else p }

/-- A dropped sector counts in LDROP and goes to the hub as an ordinary entry with its cause (R26); a partner is
lost to its write (R150), and what the tile reads for itself ends here. -/
def sendDrop (s : State) (t : Nat) (w : Want) (x : Cause) : State :=
  let s := s.bump (aTile t (0x1080 + 4 * x.code))
  if forHub w.req.kind then pushOut s t ⟨w.req.psa, w.req, [], false, 0, some x, 0, none⟩
  else if w.req.kind = .partner then setPartner s w.req.psa .lost
  else s

/-- A context ends DROPPED. -/
def dropCtx (s : State) (t i : Nat) (x : Cause) : State :=
  let c := s.ctx t i
  if c.live then tileNotice (endCtx (sendDrop s t c.want x) t i) t (place 31 28 1 ||| place 3 0 x.code) else s

/-- The least of a list of numbers that is at most `n` and not in it: the lowest free number below `n`. -/
def lowestFree (used : List Nat) (n : Nat) : Option Nat :=
  (List.range n).find? fun i => !(used.contains i)

/-! ### Write results (R157) -/

/-- A sector to be written ends with a result, which goes to the hub (R157). A partner rewrite that is
written counts in RMW, a marker in LOST with its Owl record (R150). -/
def endWrite (s : State) (t : Nat) (e : WrEnt) (st : WrSt) : State :=
  let s :=
    match st with
    | .written =>
      let s := s.bump (aWrt t 0x10)
      (match e.kind with
        | .partner => s.bump (aWrt t 0x20)
        | .marker =>
          owlHead (s.bump (aWrt t 0x24)) t (psaCluster e.psa) (psaHead e.psa) 0x4003 0 (e.psa / 2 ^ 32) (e.psa % 2 ^ 32)
        | _ => s)
    | .wfail => tileEdge (s.bump (aWrt t 0x18)) t (192 + 8 * psaCluster e.psa + 6)
    | .skipped => s.bump (aWrt t 0x28)
    | .retired => s
  s.modWr t fun w => { w with results := w.results ++ [⟨e.psa, e.kind, e.nsid, e.lba, e.gen, st⟩] }

/-- The queue entries of a head that satisfy `p` and its serialiser's, taken out. -/
def takeWrites (s : State) (t c h : Nat) (p : WrEnt → Bool) : State × List WrEnt :=
  let mine (e : WrEnt) : Bool := decide (psaHead e.psa = h) && p e
  let q := s.wrQ t c
  let w := s.headW (headIdx t c h)
  let out := (w.ser.filter mine) ++ (q.filter mine)
  let s := s.setWrQ t c (q.filter fun e => !(mine e))
  (s.setHeadW (headIdx t c h) { w with ser := w.ser.filter fun e => !(mine e) }, out)

/-- The write gate of a head opens or closes (R145, R148). -/
def setGate (s : State) (t c h : Nat) (on : Bool) : State :=
  let w := s.headW (headIdx t c h)
  if w.gate = on then s
  else
    ((s.setHeadW (headIdx t c h) { w with gate := on }).setB (aWrtC t c (0x10C + 16 * h)) 2 on).emit
      (.gate t c h on)

/-- Every entry of a head ends with a result: its gate closes. -/
def endHeadWrites (s : State) (t c h : Nat) (st : WrSt) : State :=
  let r := takeWrites (setGate s t c h false) t c h fun _ => true
  r.2.foldl (fun s e => endWrite s t e st) r.1

/-! ### Control engines -/

/-- CTL.STATUS.MODE. -/
def ctlMode (s : State) (t c : Nat) : Nat := s.fld (aCtl t c 4) 3 0

/-- The address of section `k` of a loop: live or fallback; loop 24 is the voice coil's (R254). -/
def secAddr (t c j k : Nat) (fb : Bool) : Nat :=
  if j < 24 then aCtl t c ((if fb then 0x4000 else 0x2000) + 128 * j + 32 * k)
  else aCtl t c ((if fb then 0x5000 else 0x3000) + 32 * k)

/-- HCTL of a head's loop, or VCTL (R254). -/
def loopCtl (t c j : Nat) : Nat := if j < 24 then aCtl t c (0x1000 + 32 * j) else aCtl t c 0x60

/-- Sections of a loop. -/
def loopSecs (j : Nat) : Nat := if j < 24 then 4 else 8

/-- A cluster changes mode (R234, R434). -/
def setMode (s : State) (t c m : Nat) : State :=
  if ctlMode s t c = m then s
  else
    let s := s.setF (aCtl t c 4) 3 0 m
    let s := if m = 4 ∨ m = 5 then s
      else (List.range 24).foldl (fun s h => s.setB (aCtl t c (0x100C + 32 * h)) 31 false) s
    tileEdge s t (192 + 8 * c + 3)

/-- The bridge of a voice coil is driven with a duty, or its gates are low. -/
def driveCoil (s : State) (t c : Nat) (duty : Int) : State :=
  (s.modCtl t c fun x => { x with duty := duty }).emit (.coil t c duty)

/-- A setpoint becomes pending for the arm link (R227, R164). -/
def setPoint (s : State) (t c h : Nat) (code : Int) : State :=
  let s := s.modArm t c fun a => { a with pend := Tab.put a.pend h (some code) }
  s.setF (aCtl t c (0x1010 + 32 * h)) 11 0 (pattern 12 code)

/-- Whether a loop takes samples: a position loop of its cluster runs, and for a head's loop the head gives valid
records and is not held (R227, R228, R248). -/
def loopRuns (s : State) (t c j : Nat) : Bool :=
  let m := ctlMode s t c
  (m == 3 || m == 4 || m == 5) &&
    (decide (24 ≤ j) || (s.headS (headIdx t c j)).valid && !(headDead s t c j) && !(s.bit (aCtl t c 0x30) j))

/-- The words of a loop's live set (R255). -/
def liveSet (s : State) (t c j : Nat) : List (Nat × Word) :=
  (List.range (loopSecs j)).flatMap fun k => (List.range 6).map fun i =>
    let a := secAddr t c j k false + 4 * i
    (a, s.reg a)

/-- Every setpoint of a cluster becomes pending as 0. -/
def zeroSetpoints (s : State) (t c : Nat) : State :=
  (List.range 24).foldl (fun s h => setPoint s t c h 0) s

/-- Whether the heads of a cluster are off the ramp. -/
def isLoaded (s : State) (t c : Nat) : Bool :=
  let m := ctlMode s t c
  m == 2 || m == 3 || m == 4 || m == 5 || m == 6

/-! ### The arm link's control frames (R162) -/

/-- CRC-8 of a frame's upper 56 bits (R161): 0x07, initial value 0xFF. -/
def crc8 (f : BitVec 64) : BitVec 8 :=
  (List.range 56).foldl
    (fun c k =>
      let b := f.getLsbD (63 - k)
      let top := c.getLsbD 7
      if top = b then c <<< 1 else (c <<< 1) ^^^ 0x07#8) 0xFF#8

/-- A frame with its type and payload, completed by its CRC. The payload is given in place. -/
def armFrame (ty : Nat) (payload : Nat) : BitVec 64 :=
  let f := BitVec.ofNat 64 (ty * 2 ^ 60 + payload % 2 ^ 60 / 256 * 256)
  f ||| (crc8 f).setWidth 64

/-- Whether a received frame's CRC is right. -/
def armCrcOk (f : BitVec 64) : Bool := decide (f.setWidth 8 = crc8 f)

/-- Bits of a frame. -/
def frameBits (f : BitVec 64) (hi lo : Nat) : Nat := f.toNat / 2 ^ lo % 2 ^ (hi + 1 - lo)

/-- A control frame is queued. -/
def sendCtl (s : State) (t c : Nat) (ty payload : Nat) : State :=
  s.modArm t c fun a => { a with ctl := a.ctl ++ [armFrame ty payload] }

/-- REGW of an entry of a preamplifier's register list: address and data. -/
def sendRegw (s : State) (t c : Nat) (e : Nat × Nat) : State :=
  sendCtl s t c 5 (e.1 % 256 * 2 ^ 52 + e.2 % 65536 * 2 ^ 36)

/-- HEAT for a head, 31 for all heads. -/
def sendHeat (s : State) (t c h power : Nat) : State := sendCtl s t c 2 (h * 2 ^ 55 + power % 1024 * 2 ^ 45)

/-- MODE with ACTIVE and an armed mask. -/
def sendMode (s : State) (t c : Nat) (active : Bool) (mask : Nat) : State :=
  sendCtl (s.modArm t c fun a => { a with mask := mask }) t c 4
    ((if active then 2 ^ 59 else 0) + mask % 2 ^ 24 * 2 ^ 32)

/-- FCLR of a fault kind with its mask, or for kind 0xF with the 24 detail bits that FAULT has in 31:8: both
stand in bits 55:32, the one place the frame's row lists (DEDUCED, entry 126). -/
def sendFclr (s : State) (t c kind mask : Nat) : State :=
  sendCtl s t c 7 (kind * 2 ^ 56 + mask % 2 ^ 24 * 2 ^ 32)

/-- SAFE. -/
def sendSafe (s : State) (t c : Nat) : State := sendCtl s t c 8 0

/-- WRT.LINK.STATE. -/
def armState (s : State) (t c : Nat) : Nat := s.fld (aWrtC t c 0) 3 0

/-- An arm link changes state (R434). -/
def setArmState (s : State) (t c n : Nat) : State :=
  if armState s t c = n then s else tileEdge (s.setF (aWrtC t c 0) 3 0 n) t (192 + 8 * c + 4)

/-! ### Records of zone write pointers (R353) -/

/-- The key of a head's media write pointer in a zone. -/
def reachKey (n z j : Nat) : Nat := (1024 * n + z) * 1024 + j

/-- The tile records a head's media write pointer in SYS sector 8 or 9, alternately, of the lower format-record
track of the head's band (R353). -/
def recordOne (s : State) (k : Nat) : State :=
  let n := k / 2 ^ 20
  let h := nsHead s n (k % 1024)
  let b := 4 * (nsGfirst s n + k / 1024 % 1024) + h.2.1
  let nine := Tab.at true s.nq.recNine k
  let q := Tab.at 0 s.nq.reached k
  let s : State := { s with nq := { s.nq with
    recorded := Tab.to 0 s.nq.recorded k q, recNine := Tab.to true s.nq.recNine k (!nine) } }
  s.emit (.zoneRecord (mkPsa h.1 h.2.1 h.2.2 (fmtRecTrack s h.1 b) (if nine then 8 else 9)) q)

/-- Before its heads park, a cluster's pointers are recorded. -/
def recordCluster (s : State) (t c : Nat) : State :=
  ((s.nq.reached ++ s.nq.recorded).map (·.1)).foldl
    (fun s k =>
      let h := nsHead s (k / 2 ^ 20) (k % 1024)
      if h.1 = t ∧ h.2.1 = c ∧ Tab.at 0 s.nq.recorded k ≠ Tab.at 0 s.nq.reached k then recordOne s k else s) s

/-! ### Park (R240) -/

/-- A park starts (R240 steps 1 and 2): heaters and writers off, setpoints 0, the comb driven outward. -/
def startPark (s : State) (t c : Nat) : State :=
  if !(isLoaded s t c) ∨ ctlMode s t c = 6 then s
  else
    let s := if armState s t c = 2 then sendMode (sendHeat s t c 31 0) t c true 0 else s
    let s := setMode (zeroSetpoints s t c) t c 6
    s.modCtl t c fun x => { x with stop := 0, stopped := false, integ := 0, gates := true }

/-- A park that the tile chooses: the pointers of the cluster's heads are recorded first (R353). -/
def parkRecorded (s : State) (t c : Nat) : State := if isLoaded s t c then startPark (recordCluster s t c) t c else s

/-! ### The Benbor link's flits and media requests (R30, R33, R36) -/

/-- Flits of payload that a sector takes on the data channel: 4,176 bytes in flits of 240 (R29). -/
def sectorFlits : Nat := 18

/-- A flit (R29): sequence number, channel of the first packet, acknowledged sequence number, the channel and
running total of a credit return, each field of a word above the next (DEDUCED, entry 125), and 240 bytes of
payload under the check. -/
def flitOf (seq chan ack ret total : Nat) (payload : Payload) : Payload :=
  let bs := beBytes 4 (seq % 4096 * 2 ^ 20 + chan % 4 * 2 ^ 18 + ack % 4096 * 2 ^ 6) ++
    beBytes 4 (ret % 4 * 2 ^ 30 + total % 65536 * 2 ^ 14) ++ payload
  bs ++ beBytes 8 (Config.flitCrc bs).toNat

/-- The sequence number of a flit. -/
def flitSeq (f : Payload) : Nat := beAt f 0 4 / 2 ^ 20 % 4096

/-- Whether a flit is whole and its check right (R33). -/
def flitOk (f : Payload) : Bool :=
  decide (f.length = 256) && decide (beAt f 248 8 = (Config.flitCrc (f.take 248)).toNat)

/-- The sequence number of a link end's next flit. -/
def nextSeq (x : LinkEnd) : Nat := match x.sent with | f :: _ => (flitSeq f + 1) % 4096 | [] => 0

/-- One flit of payload sent on a channel: it takes a credit, returns the totals of each channel in turn, and
stays for replay (R30, R32, R33). -/
def sendFlit (s : State) (t e ch : Nat) (payload : Payload) : State :=
  let x := s.link t e
  let f := flitOf (nextSeq x) ch (x.rx + 4095) x.ret (nth 0 x.freed x.ret) payload
  (s.setLink t e { x with
    sent := (f :: x.sent).take 256
    credits := setNth x.credits ch (nth 0 x.credits ch - 1)
    ret := (x.ret + 1) % 4 }).emit (.flit t e f)

/-- What a packet carries crosses on a channel in `n` flits of 240 bytes, the last filled up with zeros (entry
125). -/
def sendFlits (s : State) (t e ch n : Nat) (what : Payload) : State :=
  let bs := Config.packet ch what
  (List.range n).foldl
    (fun s k => let p := slice bs (240 * k) 240; sendFlit s t e ch (p ++ zeros (240 - p.length))) s

/-- A link end frees credits of a channel as it removes an entry: its running total grows (R23, R32). -/
def freeCredits (s : State) (t e ch n : Nat) : State :=
  s.modLink t e fun x => { x with freed := setNth x.freed ch ((nth 0 x.freed ch + n) % 65536) }

/-- Whether a link end holds credits of a channel. -/
def hasCredits (s : State) (t e ch n : Nat) : Bool := decide (n ≤ nth 0 (s.link t e).credits ch)

/-- A packet that the other end takes as it arrives: the credit it took is freed there at once (R31). -/
def crossAtOnce (s : State) (t e ch : Nat) (what : Payload) : State :=
  freeCredits (sendFlits s t e ch 1 what) t (1 - e) ch 1

/-- Whether a tile takes media requests (R36, R69, R498, R505): its link is in service, its bring-in is over,
its format record matches, its channels are on, it is not being lowered, and a request credit is held. -/
def takesMedia (s : State) (t : Nat) : Bool :=
  s.linkUp t && decide (Tab.at 0 s.power.bring t = 0) && decide (s.fld (aTile t 0x108) 1 0 = 1) &&
    s.domOn (domCh t) && (match Tab.at none s.power.goal t with
      | some g => decide (g < 2)
      | none => true) && hasCredits s t 0 1 1

end Sys2Proof.Machine
end

