-- ==== Sys2Proof/Machine/Acquire.lean ====
section
/-! DEFINITION. A reader lane between its captures and within them (R71 to R86, R96 to R99, R108, R109): its
rate, sleeping and waking, taps and their updates, acquisition and the timing loop. What the loops' rules leave
open is in entry 120. -/

namespace Sys2Proof.Machine

/-! ### Rates (R74) -/

/-- One revolution of a tile's spindle in ns, at the committed speed. -/
def revNs (s : State) (t : Nat) : Nat := 60000000000 / max 1 (s.fld (aSpn t 0xC) 15 0)

/-- The zone of a lane's cluster. -/
def laneZone (s : State) (t l : Nat) : Nat := s.fld (aLane t l 4) 12 8

/-- LANE.RATE of a lane that samples: B·N/60 of its zone, in Mbit/s (R74). -/
def setRate (s : State) (t l : Nat) : State :=
  s.setReg (aLane t l 8) (w32 (zoneBits s t (laneZone s t l) * s.fld (aSpn t 0xC) 15 0 / 60000000))

/-- A lane that does not capture samples on (R96 IDLE); one that is asked to sleep goes on to sleep (R97). -/
def idleLane (s : State) (t l : Nat) : State :=
  sleepIfAsked ((setRate (setLaneSt s t l 3) t l).modLane t l fun x => { x with used := s.now }) t l

/-! ### Sleeping and waking (R97 to R99) -/

/-- LANE_SLEEP's effect: the request stands; the lane sleeps once it captures nothing and no bank of it
is pinned. -/
def laneSleep (s : State) (t l : Nat) : State := sleepIfAsked (s.setB (aLane t l 0) 0 true) t l

/-- LANE_SLEEP. -/
def execLaneSleep (t l : Nat) (s : State) : Res := onLaneCh s t l (laneSleep s t l)

/-- A sleeping lane wakes: its SLEEP bit is cleared (R99). -/
def wakeLane (s : State) (t l : Nat) : State :=
  let s := s.setB (aLane t l 0) 0 false
  if laneSt s t l = 1 then setLaneSt s t l 2 else s

/-- Both lanes of a head wake. -/
def wakeHead (s : State) (t c h : Nat) : State := wakeLane (wakeLane s t (laneOf c h 0)) t (laneOf c h 1)

/-- LANE_WAKE_DONE: bias, synthesiser and trim are settled. SEP VALID is cleared as the lane begins to
sample (R220); a lane that was asked to sleep meanwhile sleeps again (R97). -/
def laneWakeDone (s : State) (t l : Nat) : State :=
  if laneSt s t l = 2 then
    let p := laneParts l
    let s := (s.setB (aSrv t p.1 (0x110 + 32 * p.2.1)) 31 false).modHeadS (headIdx t p.1 p.2.1) fun x => { x with sepN := 0 }
    idleLane s t l
  else s

/-- LANE_WAKE_DONE. -/
def execLaneWakeDone (t l : Nat) (s : State) : Res := onLaneCh s t l (laneWakeDone s t l)

/-! ### Taps (R79 to R81, R84, R109) -/

/-- Target `k` of zone `z` is present (R79). -/
def targetPresent (s : State) (t z k : Nat) : Bool := decide (k < 5) && decide (s.reg (aTile t (0x400 + 32 * z + 4 * k)) ≠ 0)

/-- The taps of target `k` of zone `z`, G0 to G3 (R79). -/
def targetOf (s : State) (t z k : Nat) : List Int := prtTaps (s.reg (aTile t (0x400 + 32 * z + 4 * k)))

/-- The taps of a set. -/
def tapSet (s : State) (t l z k : Nat) : List Int := Tab.at [] (s.lane t l).taps (8 * z + k)

/-- A tap of a set; 0 where none is held. -/
def tapOf (s : State) (t l z k i : Nat) : Int := nth 0 (tapSet s t l z k) i

/-- A set is replaced. -/
def putTaps (s : State) (t l z k : Nat) (ts : List Int) : State :=
  s.modLane t l fun x => { x with taps := Tab.to [] x.taps (8 * z + k) ts }

/-- LANE.EQVALID of a zone. -/
def eqValid (s : State) (t l z : Nat) : Bool := s.bit (aLane t l 0x34) z

/-- The zone whose taps a lane uses in a zone: its own where EQVALID is set, else the nearest whose bit is
set, of two equally near the lower (R84). -/
def tapZone (s : State) (t l z : Nat) : Option Nat :=
  ((List.range 32).flatMap fun d => [z - d, z + d]).find? fun y =>
    eqValid s t l y && decide (y < 32)

/-- The taps that a lane equalises with for a target: those of the zone above, or a single main tap of 1.0
where no zone has any (R81, R84). -/
def tapsFor (s : State) (t l z k : Nat) : List Int :=
  match tapZone s t l z with
  | none => mainTap
  | some y => if tapSet s t l y k = [] then mainTap else tapSet s t l y k

/-- A write of LANE.TAP[i] through LANE.TAPSEL. -/
def tapWrite (s : State) (t l i : Nat) (w : Word) : State × Status :=
  let st := laneSt s t l
  let z := s.fld (aLane t l 0xFC) 12 8
  let k := s.fld (aLane t l 0xFC) 2 0
  if !(st = 3 ∨ st = 1 ∨ st = 7) then (s, .storeBusy)
  else if !(targetPresent s t z k) then (s, .ok)
  else
    let ts := (List.range 16).map fun j => if j = i then sfld w 9 0 else tapOf s t l z k j
    let s := putTaps s t l z k ts
    (if k = 0 then s.setB (aLane t l 0x34) z true else s, .ok)

/-- LANE_TAP_WRITE. -/
def execLaneTapWrite (t l k : Nat) (w : Word) (s : State) : Res :=
  if k < 16 then
    onLaneCh s t l
      (let r := tapWrite s t l k w
       r.1.emit (.reply .port (aLane t l (0x100 + 4 * k)) w r.2))
  else .fault .badOperand

/-! ### Updates (R85, R86, R114) -/

/-- A gathered update waits for the verdict of its capture; the fifth discards the oldest (R85). -/
def gather (us : List Update) (u : Update) : List Update := if 4 ≤ us.length then us.drop 1 ++ [u] else us ++ [u]

/-- An update's step for entry `k`: 2^−shift of the sum of error times regressor (R85). -/
def Update.delta (u : Update) (k : Nat) : Int := divRound (nth 0 u.sums k) (4 * 2 ^ u.shift)

/-- Taps after an update: tap 7 stays, and taps 6 and 8 move together, so that their difference stays
(R85). -/
def stepTaps (ts : List Int) (u : Update) : List Int :=
  let a := nth 0 ts 6
  let b := nth 0 ts 8
  let d := clampI (-512 - min a b) (511 - max a b) (divRound (nth 0 u.sums 6 + nth 0 u.sums 8) (8 * 2 ^ u.shift))
  (List.range 16).map fun k =>
    if k = 7 then nth 0 ts 7 else if k = 6 ∨ k = 8 then nth 0 ts k + d else clampI (-512) 511 (nth 0 ts k + u.delta k)

/-- Accepted updates take effect at an acquisition (R86). -/
def applyTaps (s : State) (t l : Nat) : State :=
  let s := (s.lane t l).ready.foldl (fun s u => putTaps s t l u.zone 0 (stepTaps (tapSet s t l u.zone 0) u)) s
  s.modLane t l fun x => { x with ready := [] }

/-- The same for the coupling coefficients of a head, at a capture (R114). -/
def applyKappa (s : State) (i : Nat) : State :=
  s.modHead i fun x =>
    { x with
      kReady := []
      kappa := x.kReady.foldl
        (fun k u =>
          let v := Tab.at (0, 0) k u.zone
          Tab.put k u.zone (satI 8 (v.1 + u.delta 0), satI 8 (v.2 + u.delta 1))) x.kappa }

/-! ### Acquisition and the timing loop (R74 to R77) -/

/-- A CFG register of a lane, 0x20 + 4·k, as the lane took it at its latest acquisition (R108). -/
def laneCfg (s : State) (t l k : Nat) : Word :=
  match (s.lane t l).cfg with
  | some ws => nth 0 ws k
  | none => s.reg (aLane t l (0x20 + 4 * k))

/-- An acquisition (R75): CFG registers and accepted updates take effect (R86, R108), and the zero-phase start
sets the interpolator once, to a phase that is a free value (entry 120). -/
def acquire (s : State) (t l : Nat) : State :=
  let s := applyTaps s t l
  let ws := (List.range 5).map fun k => s.reg (aLane t l (0x20 + 4 * k))
  let s := s.modLane t l fun x => { x with cfg := some ws, wedge := false, lost := false, frac := 0 }
  let s := s.setF (aLane t l 0xC) 5 0 s.freeVal.toNat
  ((setLaneSt s t l 4).setB (aLane t l 4) 19 false).took

/-- The captures of a lane's head that are in progress and that the lane makes. -/
def laneCaps (s : State) (t l : Nat) : List Capture :=
  let p := laneParts l
  (s.head (headIdx t p.1 p.2.1)).curs.filter fun k => if p.2.2 = 0 then k.laneA else k.laneB

/-- Whether a lane captures. -/
def laneBusy (s : State) (t l : Nat) : Bool := laneCaps s t l ≠ []

/-- The flags of reader `r` on a capture are changed. -/
def Capture.flag (k : Capture) (r : Nat) (f : CapFlags → CapFlags) : Capture :=
  if r = 0 then { k with flA := f k.flA } else { k with flB := f k.flB }

/-- The flags of a lane on the captures in progress are changed. -/
def flagCaps (s : State) (t l : Nat) (f : Capture → CapFlags → CapFlags) : State :=
  let p := laneParts l
  s.modHead (headIdx t p.1 p.2.1) fun x =>
    { x with curs := x.curs.map fun k =>
        if (if p.2.2 = 0 then k.laneA else k.laneB) then k.flag p.2.2 (f k) else k }

/-- The wedge span that held a lane has ended: it acquires on the resync field, unless an asperity still holds
it (R76, R96). -/
def leaveWedge (s : State) (t l : Nat) : State :=
  if (s.lane t l).wedge then
    if laneSt s t l = 6 ∧ s.bit (aLane t l 4) 18 = false then acquire s t l
    else s.modLane t l fun x => { x with wedge := false }
  else s

/-- WEDGE_SPAN_HOLD's effect: the loops are held (R76). -/
def wedgeSpanHold (s : State) (t l : Nat) : State :=
  if laneSt s t l = 4 ∨ laneSt s t l = 5 ∨ laneSt s t l = 6 then
    (setLaneSt s t l 6).modLane t l fun x => { x with wedge := true }
  else s

/-- WEDGE_SPAN_HOLD. -/
def execWedgeSpanHold (t l : Nat) (s : State) : Res := onLaneCh s t l (wedgeSpanHold s t l)

/-- The timing loop: its frequency offset and its phase, in 2^−30 of 1/64 bit, and whether it asked for more
than 2,000 ppm (R74). -/
structure Pll where
  fofs : Int
  phase : Int
  beyond : Bool
  deriving DecidableEq, Repr

/-- The greatest frequency offset, 2,000 ppm, in 2^−30 of 1/64 bit a bit (R74). -/
def maxFofs : Int := 137438953

/-- One bit of the loop with its two shifts: an integral shift of 31 is off. -/
def pllStep (kp ki : Nat) (p : Pll) (e : Int) : Pll :=
  let f := p.fofs + if ki = 31 then 0 else e * 2 ^ 30 / 2 ^ ki
  let g := clampI (-maxFofs) maxFofs f
  ⟨g, p.phase + g + e * 2 ^ 30 / 2 ^ kp, p.beyond || decide (f ≠ g)⟩

/-- A run of phase errors through the loop: the first `n` with the acquisition shifts (R75). -/
def pllRun (w : Word) (n : Nat) (p : Pll) (es : List Int) : Pll :=
  let p := (es.take n).foldl (pllStep (fld w 31 28) (fld w 23 19)) p
  (es.drop n).foldl (pllStep (fld w 15 12) (fld w 7 3)) p

/-- LANE.TIMING shows the loop: FOFS in 0.1 ppm, PHASE in 1/64 bit. -/
def putPll (s : State) (t l : Nat) (p : Pll) : State :=
  let s := s.modLane t l fun x => { x with fofs := p.fofs, frac := p.phase % 2 ^ 30 }
  s.setReg (aLane t l 0xC) (place 31 16 (pattern 16 (divRound (p.fofs * 10000000) (64 * 2 ^ 30))) |||
    place 5 0 (pattern 6 (p.phase / 2 ^ 30)))

/-- The loop as a lane holds it. -/
def pllOf (s : State) (t l : Nat) : Pll :=
  ⟨(s.lane t l).fofs, (s.fld (aLane t l 0xC) 5 0 : Nat) * 2 ^ 30 + (s.lane t l).frac, false⟩

/-- PHASE_ERROR_WINDOW's effect: the loop's phase errors of 256 bits in 1/64 bit turn the interpolator; an
acquiring lane tracks after its first 64. A mean beyond 1/4 bit, and an offset at its limit, lose lock
(R74, R75, R77). -/
def phaseErrorWindow (s : State) (t l : Nat) (errs : List Int) : State :=
  let s := leaveWedge s t l
  if laneBusy s t l ∧ (laneSt s t l = 4 ∨ laneSt s t l = 5) then
    let es := errs.take 256
    let p := pllRun (laneCfg s t l 0) (if laneSt s t l = 4 then 64 else 0) (pllOf s t l) es
    let s := setLaneSt (putPll s t l p) t l 5
    if 16 * 256 < absI (es.foldl (· + ·) 0) ∨ p.beyond then
      let s := flagCaps s t l fun _ f => { f with lockloss := true }
      (s.setB (aLane t l 4) 19 false).modLane t l fun x => { x with lost := true }
    else s.setB (aLane t l 4) 19 (!(s.lane t l).lost)
  else s

/-- PHASE_ERROR_WINDOW. -/
def execPhaseErrorWindow (t l : Nat) (errs : List Int) (s : State) : Res := onLaneCh s t l (phaseErrorWindow s t l errs)

end Sys2Proof.Machine
end

