-- ==== Sys2Proof/Machine/Retire.lean ====
section
/-! DEFINITION. Retirement and reinstatement (R194 to R199, R202), what they do to zones (R355), and the
ways a written sector counts towards its writer's retirement. A unit is named as CDW10 of the Retire
command names it: KIND 1 lane, 2 writer, 3 head, 4 cluster, 5 tile (R358). -/

namespace Sys2Proof.Machine

/-- A unit as the Retire command names it (R358). -/
def kindWord (kind t c h r : Nat) : Nat :=
  kind * 2 ^ 24 + t * 2 ^ 13 + (if kind ≤ 4 then c * 2 ^ 11 else 0) +
    (if kind ≤ 3 then h * 2 ^ 6 else 0) + (if kind = 1 then r * 2 ^ 5 else 0)

/-- The UNIT word of a unit's records (R480): the fields its kind names. -/
def kindUnit (kind t c h r : Nat) : Nat :=
  owlUnit t (if kind ≤ 4 then c else 0) (if kind ≤ 3 then h else 0) (if kind = 1 then laneOf c h r else 0) 0

/-- The register and bit of a unit in its tile's retirement set (R197, R201). -/
def retireBit (t kind c h r : Nat) : Nat × Nat :=
  if kind = 1 then (aTile t (0x1100 + 4 * (laneOf c h r / 32)), laneOf c h r % 32)
  else if kind = 2 then (aTile t (0x1120 + 4 * (headIx c h / 32)), headIx c h % 32)
  else if kind = 3 then (aTile t (0x1130 + 4 * (headIx c h / 32)), headIx c h % 32)
  else if kind = 4 then (aTile t 0x1140, c)
  else (aTile t 0x1140, 8)

/-- Whether the tile's set holds a unit. -/
def unitRetired (s : State) (t kind c h r : Nat) : Bool :=
  s.bit (retireBit t kind c h r).1 (retireBit t kind c h r).2

/-- The cause a unit was retired for, 0 where it is not known (after power-on). -/
def unitCause (s : State) (w : Nat) : Nat := Tab.at 0 s.tl.causes w

/-- The state with a unit's cause noted. -/
def noteCause (s : State) (w cause : Nat) : State :=
  { s with tl := { s.tl with causes := Tab.to 0 s.tl.causes w cause } }

/-! ### Zones (R355) -/

/-- A zone of a namespace as stored. -/
def zoneAt (s : State) (n i : Nat) : Zone := Tab.at Zone.fresh s.nq.zones (1024 * n + i)

/-- The state with a zone changed. -/
def setZone (s : State) (n i : Nat) (z : Zone) : State :=
  { s with nq := { s.nq with zones := Tab.to Zone.fresh s.nq.zones (1024 * n + i) z } }

/-- Whether a head of a namespace's set cannot be written in a zone: retired, or its writer is. -/
def headUnwritable (s : State) (p : Nat × Nat × Nat) : Bool :=
  headRetired s p.1 p.2.1 p.2.2 || writerRetired s p.1 (headIx p.2.1 p.2.2)

/-- The heads of a namespace's set. -/
def nsHeadList (s : State) (n : Nat) : List (Nat × Nat × Nat) := (List.range (nsHeads s n)).map (nsHead s n)

/-- The state a zone has by its write pointer alone: Empty, Full, or Closed (R355). -/
def zoneByPtr (s : State) (n i : Nat) (z : Zone) : ZState :=
  if z.wp = 0 then .empty else if zoneCap s n i ≤ z.wp then .full else .closed

/-- The state of a zone: Offline or Read Only by its heads (R355), otherwise as stored. -/
def zoneState (s : State) (n i : Nat) : ZState :=
  let hs := nsHeadList s n
  if hs.all fun p => headRetired s p.1 p.2.1 p.2.2 then .offline
  else if hs.any (headUnwritable s) then .readOnly
  else (zoneAt s n i).state

/-- The existing namespaces. -/
def nsList (s : State) : List Nat := (List.range 4096).filterMap fun i => if nsExists s (i + 1) then some (i + 1) else none

/-- The registers of a namespace read 0 again (R361). -/
def clearNs (s : State) (n : Nat) : State := (List.range 6).foldl (fun s j => s.setReg (aNs n (4 * j)) 0) s

/-- A create whose blanking meets a retired unit of its set ends, and nothing is created (R350). -/
def endBlanking (s : State) : State :=
  s.nq.blanking.foldl
    (fun s e =>
      if (nsHeadList s e.1).any (headUnwritable s) then
        let s : State := { s with nq := { s.nq with blanking := s.nq.blanking.filter fun x => x ≠ e } }
        completeCmd (clearNs s e.1) e.2 .retired
      else s) s

/-- Zones that a retirement has made Read Only or Offline keep only what their pointer gives, so that
reinstatement returns them so (R355). -/
def settleZones (s : State) : State :=
  let s := endBlanking s
  ((s.nq.zones.map (·.1)).foldl fun s k =>
    let n := k / 1024
    let i := k % 1024
    if nsZoned s n && (zoneState s n i == .readOnly || zoneState s n i == .offline) then
      setZone s n i { zoneAt s n i with state := zoneByPtr s n i (zoneAt s n i) }
    else s) s

/-! ### What stops with a unit (R195 steps 2 and 3) -/

/-- The sectors wanted of a head are dropped with cause RETIRED, and so are its contexts (R190). -/
def dropHead (s : State) (t c h : Nat) : State :=
  let i := headIdx t c h
  let x := s.head i
  let ws := x.want ++ x.capQ.flatMap fun e => e.a.toList ++ e.b.toList
  let s := s.setHead i { x with want := [], capQ := [] }
  let s := (ws.filter fun w => w.ctx.isNone).foldl (fun s w => sendDrop s t w .retired) s
  (openCtxs s t).foldl
    (fun s e =>
      let p := e.2.want.req.psa
      if psaCluster p = c ∧ psaHead p = h then dropCtx s t e.1 .retired else s) s

/-- A lane stops (R96, R100). -/
def stopLane (s : State) (t l : Nat) : State :=
  if s.domOn (domCh t) then setLaneSt s t l 7 else s

/-- A writer stops: disarmed, its entries end with RETIRED (R155, R195). -/
def stopWriter (s : State) (t c h : Nat) : State :=
  let s := endHeadWrites s t c h .retired
  let m := (s.arm t c).mask
  if m.testBit h ∧ armState s t c = 2 then sendMode s t c true (m - 2 ^ h) else s

/-- A head stops. -/
def stopHead (s : State) (t c h : Nat) : State := stopWriter (dropHead s t c h) t c h

/-- A cluster stops: its heads, and its comb is parked. -/
def stopCluster (s : State) (t c : Nat) : State :=
  let s := (List.range 24).foldl (fun s h => stopHead s t c h) s
  let s := s.modCtl t c fun x => { x with dead := true }
  if !(isLoaded s t c) then setMode s t c 7
  else if ctlMode s t c = 6 then s else startPark s t c

/-- A tile stops. -/
def stopTile (s : State) (t : Nat) : State := (List.range 4).foldl (fun s c => stopCluster s t c) s

/-- A unit stops (R195 steps 2 and 3). -/
def stopUnit (s : State) (t kind c h r : Nat) : State :=
  if kind = 1 then stopLane s t (laneOf c h r)
  else if kind = 2 then stopWriter s t c h
  else if kind = 3 then stopHead s t c h
  else if kind = 4 then stopCluster s t c
  else stopTile s t

/-! ### Retiring (R194, R195) -/

/-- One unit's bit is set and the unit stops; a unit already retired changes nothing (R195). -/
def retireOne (s : State) (t kind c h r cause : Nat) : State :=
  if unitRetired s t kind c h r then s
  else
    let b := retireBit t kind c h r
    let w := kindWord kind t c h r
    let s := noteCause (s.setB b.1 b.2 true) w cause
    let s : State := { s with tl := { s.tl with mirror := s.tl.mirror ++ [(t, w, cause)] } }
    tileNotice (tileEdge (stopUnit s t kind c h r) t 233) t (place 31 28 2 ||| w32 (w % 2 ^ 28))

/-- Retired heads of a cluster. -/
def deadHeads (s : State) (t c : Nat) : Nat := ((List.range 24).filter fun h => tHead s t (headIx c h)).length

/-- The clusters of a tile are all retired: the hub retires the tile (0x0E). -/
def deriveTile (s : State) (t : Nat) : State :=
  if (List.range 4).all fun c => tCluster s t c then retireOne s t 5 0 0 0 0x0E else s

/-- HEADMAX heads retired retire the cluster (0x0A). -/
def deriveCluster (s : State) (t c : Nat) : State :=
  let m := s.fld (aTile t 0x100C) 31 24
  deriveTile (if m ≠ 0 ∧ m ≤ deadHeads s t c then retireOne s t 4 c 0 0 0x0A else s) t

/-- Both lanes or the writer retired retire the head (0x07). -/
def deriveHead (s : State) (t c h : Nat) : State :=
  deriveCluster
    (if (tLane s t (laneOf c h 0) && tLane s t (laneOf c h 1)) || tWriter s t (headIx c h) then
      retireOne s t 3 c h 0 0x07 else s) t c

/-- A unit is retired with what it retires by derivation (R194, R195 step 1). -/
def retire (s : State) (t kind c h r cause : Nat) : State :=
  let s := retireOne s t kind c h r cause
  if kind = 1 ∨ kind = 2 then deriveHead s t c h
  else if kind = 3 then deriveCluster s t c
  else if kind = 4 then deriveTile s t
  else s

/-! ### The mirror and its flash copy (R195 steps 4 and 5, R198, R202) -/

/-- Hub source 57: a persistence register reports a failed write (R433). -/
def persistLevel (s : State) : State :=
  irqLevel s 0 57 (s.fld (aHub 0x1200) 1 0 == 2 || s.fld (aNq 0x14) 1 0 == 2 || s.fld (aCiph 0xC) 1 0 == 2)

/-- A word of the tile's set as the mirror numbers it (R202). -/
def setWordAddr (t i : Nat) : Nat :=
  if i < 6 then aTile t (0x1100 + 4 * i)
  else if i < 9 then aTile t (0x1120 + 4 * (i - 6))
  else if i < 12 then aTile t (0x1130 + 4 * (i - 9))
  else aTile t 0x1140

/-- Both copies of a tile's retirement set become their union (R197). -/
def mergeSets (s : State) (t : Nat) : State :=
  (List.range 13).foldl
    (fun s i =>
      let u := s.reg (setWordAddr t i) ||| s.reg (aMir t i)
      (s.setReg (setWordAddr t i) u).setReg (aMir t i) u) s

/-- Whether the mirror of a tile differs from its set. -/
def mirrorDiffers (s : State) (t : Nat) : Bool :=
  (List.range 13).any fun i => decide (s.reg (setWordAddr t i) ≠ s.reg (aMir t i))

/-- A change of the retirement set makes a flash copy pending (R198). -/
def retireChanged (s : State) : State := s.setF (aHub 0x1200) 1 0 1

/-- The hub records the retirements of a tile once their mirror is acknowledged (R195 step 5). -/
def recordMirror (s : State) (t : Nat) : State :=
  let mine := s.tl.mirror.filter fun e => e.1 = t
  let s : State := { s with tl := { s.tl with mirror := s.tl.mirror.filter fun e => e.1 ≠ t } }
  mine.foldl
    (fun s e =>
      let w := e.2.1
      owlPost s 0x3002 0 (kindUnit (w / 2 ^ 24) t (w / 2 ^ 11 % 4) (w / 2 ^ 6 % 32) (w / 2 ^ 5 % 2)) 0 e.2.2 w 0) s

/-- The mirror of a tile's set is acknowledged. -/
def mirrorDone (s : State) (t : Nat) : State :=
  if mirrorDiffers s t then
    let s := mergeSets s t
    settleZones (retireChanged (recordMirror s t))
  else recordMirror s t

/-- RETIREMENT_MIRRORED: the set crosses to the hub with the tile's retirement event, while that channel is open
and has a credit (R30, R34); else it stays until the link opens (R35). -/
def execRetirementMirrored (t : Nat) (s : State) : Res :=
  onTile s t (if hubHears s t ∧ hasCredits s t 1 1 1 then
    mirrorDone (crossAtOnce s t 1 1 ((List.range 13).flatMap fun i => beBytes 4 (s.reg (setWordAddr t i)).toNat)) t else s)

/-- The hub retires a tile: the bit is set in the mirror, and in the tile's own set (R194). -/
def retireTile (s : State) (t cause : Nat) : State :=
  if tileRetired s t then s else mirrorDone (retire s t 5 0 0 0 cause) t

/-- The retirement words as the flash copy holds them: every mirror word, and BUF.STALE (R198, R378). -/
def retireWords (s : State) : Tab Word :=
  s.regs.filter fun e => (decide (aHub 0x1000 ≤ e.1) && decide (e.1 < aHub 0x1200)) ||
    (decide (aBuf 0x1000 ≤ e.1) && decide (e.1 < aBuf 0x1C00))

/-- The flash copy is written, or fails: STATE and GEN report it, and a first failure is recorded (R198). -/
def retireCopy (s : State) (ok : Bool) : State :=
  let a := aHub 0x1200
  if s.fld a 1 0 = 0 then s
  else if ok then
    let s : State := { s with flash := { s.flash with
      retire := retireWords s, bad := s.flash.bad.filter fun b => b ≠ 1 } }
    persistLevel ((s.bumpF a 31 16 1).setF a 1 0 0)
  else
    let s := owlHub s 0x7002 0 0 1 0 0
    persistLevel (s.setF a 1 0 2)

/-- RETIREMENT_FLASH_COPY. -/
def execRetirementFlashCopy (ok : Bool) (s : State) : Res := .next (retireCopy s ok)

/-! ### Reinstatement (R199) -/

/-- One unit's bit is cleared, with its cause. -/
def clearUnit (s : State) (t kind c h r : Nat) : State :=
  let b := retireBit t kind c h r
  noteCause (s.setB b.1 b.2 false) (kindWord kind t c h r) 0

/-- A reinstated lane: its suspect history and window counters are cleared, it goes to SLEEP and is
trained in every zone before its tile serves again (R83); it captures in the bank its partner captures in (R93). -/
def reinstateLane (s : State) (t c h r : Nat) : State :=
  if !(unitRetired s t 1 c h r) then s
  else
    let l := laneOf c h r
    let s := clearUnit s t 1 c h r
    let s := s.setReg (aLane t l 0x7C) 0
    let s := (List.range 6).foldl (fun s i => s.setReg (aLane t l (0x40 + 4 * i)) 0) s
    let s := s.setReg (aLane t l 0x34) 0
    let s := if r = 0 then s.setB (aSrv t c (0x10C + 32 * h)) 31 false else s
    let s := if r = 0 then s.modHeadS (headIdx t c h) fun x => { x with skewN := 0 } else s
    let s := s.modLane t l fun x => { x with bank := (s.lane t (laneOf c h (1 - r))).bank }
    let s : State := { s with tl := { s.tl with trained := Tab.to [] s.tl.trained (4 * t + c) [] } }
    if s.domOn (domCh t) then setLaneSt s t l 1 else s

/-- A head with everything inside it is reinstated. -/
def reinstateHead (s : State) (t c h : Nat) : State :=
  clearUnit (clearUnit (reinstateLane (reinstateLane s t c h 0) t c h 1) t 2 c h 0) t 3 c h 0

/-- A cluster with everything inside it is reinstated: its mode leaves RETIRED (R234). -/
def reinstateCluster (s : State) (t c : Nat) : State :=
  let s := clearUnit ((List.range 24).foldl (fun s h => reinstateHead s t c h) s) t 4 c 0 0
  let s := s.modCtl t c fun x => { x with dead := false }
  if ctlMode s t c = 7 then setMode s t c 1 else s

/-- Derived retirements whose reasons no longer hold are removed, inside out (R199). -/
def underive (s : State) (t c h : Nat) : State :=
  let s :=
    if unitCause s (kindWord 3 t c h 0) = 7 ∧ !((tLane s t (laneOf c h 0) && tLane s t (laneOf c h 1)) ||
        tWriter s t (headIx c h)) then clearUnit s t 3 c h 0 else s
  let m := s.fld (aTile t 0x100C) 31 24
  let s :=
    if unitCause s (kindWord 4 t c 0 0) = 10 ∧ (m = 0 ∨ deadHeads s t c < m) then
      let s := (clearUnit s t 4 c 0 0).modCtl t c fun x => { x with dead := false }
      if ctlMode s t c = 7 then setMode s t c 1 else s
    else s
  if unitCause s (kindWord 5 t 0 0 0) = 14 ∧ !((List.range 4).all fun c => tCluster s t c) then
    clearUnit s t 5 0 0 0 else s

/-- A unit is reinstated (R199): the mirror follows, the hub records it and copies the set. -/
def reinstate (s : State) (t kind c h r : Nat) : State :=
  let s :=
    if kind = 1 then underive (reinstateLane s t c h r) t c h
    else if kind = 2 then underive (clearUnit s t 2 c h 0) t c h
    else if kind = 3 then underive (reinstateHead s t c h) t c h
    else if kind = 4 then underive (reinstateCluster s t c) t c h
    else
      let s := clearUnit ((List.range 4).foldl (fun s c => reinstateCluster s t c) s) t 5 0 0 0
      if s.fld (aSpn t 4) 3 0 = 9 then s.setF (aSpn t 4) 3 0 1 else s
  let s := (List.range 13).foldl (fun s i => s.setReg (aMir t i) (s.reg (setWordAddr t i))) s
  let w := kindWord kind t c h r
  retireChanged (owlPost s 0x3003 0 (kindUnit kind t c h r) 0 0 w 0)

/-! ### Written sectors and the writer (R157, R194) -/

/-- A sector ends with a result, and a run of WFAIL on its head retires its writer. -/
def finishWrite (s : State) (t : Nat) (e : WrEnt) (st : WrSt) : State :=
  let c := psaCluster e.psa
  let h := psaHead e.psa
  let i := headIdx t c h
  let s := endWrite s t e st
  let n := if st = .wfail then (s.headW i).fails + 1 else if st = .written then 0 else (s.headW i).fails
  let s := s.modHeadW i fun w => { w with fails := n }
  let m := s.fld (aTile t 0x100C) 23 16
  if st = .wfail ∧ m ≠ 0 ∧ m ≤ n then retire s t 2 c h 0 0x05 else s

/-- Every entry of a head ends with WFAIL (R155, R167). -/
def failHead (s : State) (t c h : Nat) : State :=
  let r := takeWrites (setGate s t c h false) t c h fun _ => true
  r.2.foldl (fun s e => finishWrite s t e .wfail) r.1

/-- Every entry of a cluster ends with WFAIL. -/
def failCluster (s : State) (t c : Nat) : State := (List.range 24).foldl (fun s h => failHead s t c h) s

end Sys2Proof.Machine
end

