-- ==== Sys2Proof/Machine/Servo.lean ====
section
/-! DEFINITION. The servo demodulator (R203 to R225): a reader's position from its stripe times, wedge
windows, reader states, the source reader, skew and separation. Positions are in 1/1,024 track pitch. -/

namespace Sys2Proof.Machine

/-! ### Window counters of a lane (R103) -/

/-- WCNT[i] of a lane advances; it saturates at 2^24 − 1, and a retired lane's stands still (R100). -/
def wcnt (s : State) (t l i : Nat) : State :=
  if tLane s t l then s else s.bumpF (aLane t l (0x40 + 4 * i)) 23 0 1

/-! ### Dibits and the fields of a wedge (R205 to R207, R212) -/

/-- A dibit as the demodulator times it: its zero crossing in 1/64 sample, interpolated, whether its polarity is
positive, and the magnitude of the peak before the crossing (R207; entry 130). -/
structure Dibit where
  time : Int
  pos : Bool
  peak : Nat
  deriving DecidableEq, Repr

/-- The zero crossings of samples from sample `k` on: falling ones are positive dibits, rising ones negative; `pk`
is the greatest magnitude since the last crossing. -/
def dibits (k : Int) (pk : Nat) : List Int → List Dibit
  | a :: b :: rest =>
    let pk := max pk (absI a)
    if 0 < a ∧ b ≤ 0 then ⟨64 * k + divRound (64 * a) (a - b).toNat, true, pk⟩ :: dibits (k + 1) 0 (b :: rest)
    else if a < 0 ∧ 0 ≤ b then ⟨64 * k + divRound (-(64 * a)) (b - a).toNat, false, pk⟩ :: dibits (k + 1) 0 (b :: rest)
    else dibits (k + 1) pk (b :: rest)
  | _ => []

/-- A number of servo units in 1/64 sample, times 10^7 (R203, R207). -/
def unitsOf (bz : Nat) (n : Int) : Int := n * 64 * (bz : Int)

/-- The dibit nearest to a place given in 10^-7 of 1/64 sample, within half a cell of it. -/
def dibitAt (bz : Nat) (ds : List Dibit) (at_ : Int) : Option Dibit :=
  (ds.filter fun d => decide (2 * (absI (d.time * 10000000 - at_) : Int) ≤ unitsOf bz 5)).foldl
    (fun best d =>
      match best with
      | some e => if absI (d.time * 10000000 - at_) < absI (e.time * 10000000 - at_) then some d else some e
      | none => some d) none

/-- The `n` cells of a field whose first lies `off` units after the first cell of the SAM at `t0` (R205); a cell
without a dibit is none. -/
def cells (bz : Nat) (ds : List Dibit) (t0 : Int) (off : Int) (n : Nat) : List (Option Bool) :=
  (List.range n).map fun k => (dibitAt bz ds (t0 * 10000000 + unitsOf bz (off + 5 * (k : Nat)))).map (·.pos)

/-- A field as a number, most significant bit first; a cell without a dibit reads 0. -/
def cellsNum (bs : List (Option Bool)) : Nat := bs.foldl (fun a b => 2 * a + if b = some true then 1 else 0) 0

/-- The SAM's pattern 0b1110_1001, first cell first. -/
def samPattern : List Bool := [true, true, true, false, true, false, false, true]

/-- The cells of a SAM at `t0` that differ from the pattern. -/
def samErrors (bz : Nat) (ds : List Dibit) (t0 : Int) : Nat :=
  ((List.zip (cells bz ds t0 0 8) samPattern).filter fun p => decide (p.1 ≠ some p.2)).length

/-- The wedge time of a SAM at `t0` (R211): 412 units before the centre of its first cell. -/
def wedgeTime (bz : Nat) (t0 : Int) : Int := t0 - divRound (unitsOf bz 412) 10000000

/-- The positive peaks of four stripes, each 10 ± 2 units from the last in the direction `dir` (R207). -/
def stripes (bz : Nat) (ds : List Dibit) (dir : Int) : Nat → Int → List Dibit
  | 0, _ => []
  | n + 1, t =>
    match ds.find? fun d => decide (unitsOf bz 8 ≤ dir * (d.time - t) * 10000000) &&
        decide (dir * (d.time - t) * 10000000 ≤ unitsOf bz 12) with
    | some d => d :: stripes bz ds dir n d.time
    | none => []

/-- The forward and backward stripes of a chevron set that starts at `t`: the first forward peak at or after it, the
last backward peak at or before 100 units after it (R207). -/
def chevron (bz : Nat) (ds : List Dibit) (t : Int) : List Dibit × List Dibit :=
  let ps := ds.filter (·.pos)
  let f := match ps.find? fun d => decide (t ≤ d.time * 10000000) with
    | some d => d :: stripes bz ps 1 3 d.time
    | none => []
  let b := match ps.reverse.find? fun d => decide (d.time * 10000000 ≤ t + unitsOf bz 100) with
    | some d => d :: stripes bz ps.reverse (-1) 3 d.time
    | none => []
  (f, b.reverse)

/-- What the demodulator measures of one reader in one wedge (R207, R208, R211): the cells of the SAM in error and
its wedge time in 1/64 sample, or none; the wedge number and the track identity's Gray code as read; the stripe
times of each set from the set's start, in 1/64 sample; the magnitudes of the set's peaks. -/
structure WedgeIn where
  sam : Option (Nat × Int)
  wnum : Nat
  gray : Nat
  tf1 : List Int
  tb1 : List Int
  tf2 : List Int
  tb2 : List Int
  peaks1 : List Nat
  peaks2 : List Nat
  deriving DecidableEq, Repr

/-- The fields of a wedge whose SAM lies at `t0` (R205, R206, R212). -/
def readFields (bz : Nat) (ds : List Dibit) (t0 : Int) : WedgeIn :=
  let set (u : Int) : (List Dibit × List Dibit) × Int :=
    let start := t0 * 10000000 + unitsOf bz (u - 412)
    (chevron bz ds start, divRound start 10000000)
  let times (l : List Dibit) (o : Int) : List Int := l.map fun d => d.time - o
  let a := set 630
  let b := set 735
  ⟨some (samErrors bz ds t0, wedgeTime bz t0), cellsNum (cells bz ds t0 40 10), cellsNum (cells bz ds t0 90 24),
    times a.1.1 a.2, times a.1.2 a.2, times b.1.1 b.2, times b.1.2 b.2,
    (a.1.1 ++ a.1.2).map (·.peak), (b.1.1 ++ b.1.2).map (·.peak)⟩

/-- Nothing found in a wedge. -/
def WedgeIn.none : WedgeIn := ⟨Option.none, 0, 0, [], [], [], [], [], []⟩

/-- The SAM among places in a window (R212): no more than `thr` cells differ, the fewest; of equals the nearest to
the window's centre. -/
def bestSam (bz thr : Nat) (ds : List Dibit) (inside : Int → Bool) (centre : Int) : Option Int :=
  let hits := ds.filterMap fun d =>
    let e := samErrors bz ds d.time
    if inside (wedgeTime bz d.time) ∧ e ≤ thr then some (e, absI (wedgeTime bz d.time - centre), d.time) else none
  (hits.foldl
    (fun best x =>
      match best with
      | some y => if x.1 < y.1 ∨ (x.1 = y.1 ∧ x.2.1 < y.2.1) then some x else some y
      | none => some x) (none : Option (Nat × Nat × Int))).map (·.2.2)

/-- The first SAM with a wedge number 0 to 599, as SEARCH takes it (R215). -/
def firstSam (bz thr : Nat) (ds : List Dibit) : Option Int :=
  (ds.find? fun d => decide (samErrors bz ds d.time ≤ thr) && decide (cellsNum (cells bz ds d.time 40 10) < 600)).map
    (·.time)

/-! ### Position (R205 to R209) -/

/-- The number whose Gray code is `g`: each bit is the exclusive or of the code's bits at and above it. -/
def grayDec (g : Nat) : Nat :=
  (List.range 24).foldl
    (fun n k =>
      let i := 23 - k
      let b := Bool.xor (g.testBit i) (n.testBit (i + 1))
      if b then n + 2 ^ i else n) 0

/-- Whether a chevron set yields a measurement (R207): stripe times in 1/64 sample from the set's start;
`bz` converts units, 1 unit being 64·bz/10^7 of them. -/
def setOk (bz thr : Nat) (tf tb : List Int) (peaks : List Nat) : Bool :=
  let u (n : Int) : Int := n * 64 * (bz : Int)
  let gap (a b : Int) : Bool := decide (u 8 ≤ (b - a) * 10000000) && decide ((b - a) * 10000000 ≤ u 12)
  match tf, tb with
  | [f0, f1, f2, f3], [b0, b1, b2, b3] =>
    decide (peaks.length = 8) && peaks.all (fun p => decide (thr ≤ p)) && decide (0 ≤ f0) &&
      gap f0 f1 && gap f1 f2 && gap f2 f3 && gap b0 b1 && gap b1 b2 && gap b2 b3 &&
      decide (b3 * 10000000 ≤ u 100)
  | _, _ => false

/-- The outcome of the position computation: the set failed, the identity check failed, or a position. -/
inductive PosRes where
  | noSet
  | badId
  | pos (y : Int)
  deriving DecidableEq, Repr

/-- The position of a reader (R208, R209): exact in the ratio a/b, then rounded to 1/1,024 pitch. -/
def position (bz thr : Nat) (w : WedgeIn) : PosRes :=
  let n := trackOf (grayDec w.gray)
  let m := n % 8
  let one := decide (2 ≤ m) && decide (m ≤ 5)
  let tf := if one then w.tf1 else w.tf2
  let tb := if one then w.tb1 else w.tb2
  let peaks := if one then w.peaks1 else w.peaks2
  if !(setOk bz thr tf tb peaks) then .noSet
  else
    let at_ (l : List Int) (i : Nat) : Int := l.getD i 0
    let a4 := at_ tb 0 + at_ tb 1 + at_ tb 2 + at_ tb 3 - at_ tf 0 - at_ tf 1 - at_ tf 2 - at_ tf 3
    let b6 := at_ tf 3 - at_ tf 0 + at_ tb 3 - at_ tb 0
    if b6 ≤ 0 ∨ 15 * a4 < 38 * b6 ∨ 14 * b6 < 3 * a4 then .noSet
    else
      -- everything times 1,024·b6
      let k := 1024 * b6
      let p := 17920 * b6 - 3840 * a4
      let p := if one then p else p - 4 * k
      let p := if p < 0 then p + 8 * k else p
      let d := p - m * k
      let d := if 4 * k ≤ d then d - 8 * k else d
      let d := if d < -(4 * k) then d + 8 * k else d
      if 3 * k < 2 * d ∨ 2 * d < -(3 * k) then .badId
      else .pos (1024 * n + divRound d b6.toNat)

/-! ### The head's source (R219, R221) -/

/-- SRC of a head: 0 reader A, 1 reader B, 2 none. -/
def srcOf (s : State) (t c h : Nat) : Nat := s.fld (aSrv t c (0x100 + 32 * h)) 13 12

/-- The source as R219 chooses it. -/
def pickSource (s : State) (t c h : Nat) : Nat :=
  let i := headIdx t c h
  if !(tLane s t (laneOf c h 0)) && decide ((s.reader i 0).st = 3) then 0
  else if (s.reader i 1).st = 3 then 1 else 2

/-- The heads of a cluster with a source reader: SRV.STATUS.LOCKED. -/
def countLocked (s : State) (t c : Nat) : State :=
  s.setF (aSrv t c 4) 4 0 ((List.range 24).filter fun h => decide (srcOf s t c h ≠ 2)).length

/-- A head's source is chosen again: HSTATE and HINT follow; a head without one is off track (R218). A
writer placed on reader B without a valid skew is unusable (R221). -/
def chooseSource (s : State) (t c h : Nat) : State :=
  let i := headIdx t c h
  let k := pickSource s t c h
  let a := aSrv t c (0x100 + 32 * h)
  let s := s.setF a 13 12 k
  let s := s.setReg (aSrv t c (0x114 + 32 * h)) (if k = 2 then 0 else w32 (s.reader i k).int.toNat)
  let s := if k = 2 then s.setB (aCtl t c (0x100C + 32 * h)) 31 false else s
  let s := countLocked s t c
  if k = 1 ∧ tLane s t (laneOf c h 0) ∧ !(s.bit (aSrv t c (0x10C + 32 * h)) 31) ∧
      !(s.bit (aWrtC t c (0x10C + 16 * h)) 0) then
    retire (s.setB (aWrtC t c (0x10C + 16 * h)) 0 true) t 2 c h 0 0x06
  else s

/-- A reader's state in HSTATE. -/
def setReaderSt (s : State) (t c h r n : Nat) : State :=
  let s := s.modReader (headIdx t c h) r fun x => { x with st := n }
  if r = 0 then s.setF (aSrv t c (0x100 + 32 * h)) 3 0 n else s.setF (aSrv t c (0x100 + 32 * h)) 7 4 n

/-- SRV.STATUS.SPEEDOK (R213). -/
def speedOk (s : State) (t c : Nat) : Bool := s.bit (aSrv t c 4) 8

/-- Whether a reader's lane samples wedges (R98, R215, R219). A lane in WAKE, whose bias and synthesiser are
settling, is taken as not sampling them (DESIGN CHOICE, entry 79). -/
def samplesWedges (s : State) (t c h r : Nat) : Bool :=
  let l := laneOf c h r
  laneAwake s t l || (laneSt s t l == 1 && (if r = 0 then true else tLane s t (laneOf c h 0)))

/-- Lock is lost (R218): counted for the lane and the cluster, and the source is chosen again. SLOCK
losses in one window retire the lane (R194). While SPEEDOK is 0 no reader enters SEARCH (R213): the reader
goes OFF, and the loss counts all the same; so a reader that misses in VERIFY (DESIGN CHOICE, entry 79). -/
def loseLock (s : State) (t c h r : Nat) : State :=
  let l := laneOf c h r
  let s := setReaderSt s t c h r (if speedOk s t c then 1 else 0)
  let s := tileEdge ((wcnt s t l 5).bump (aSrv t c 0x14)) t (192 + 8 * c)
  let s := chooseSource s t c h
  let k := s.fld (aTile t 0x1018) 7 0
  if k ≠ 0 ∧ k ≤ s.fld (aLane t l 0x54) 23 0 then retire s t 1 c h r 0x02 else s

/-! ### Skew and separation (R220) -/

/-- One step of an estimate towards a measurement, by 1/16. -/
def sixteenth (old new : Int) : Int := old + divRound (new - old) 16

/-- Both readers of a head have given valid results in one wedge: SKEW and SEP are updated. -/
def updatePair (s : State) (t c h : Nat) : State :=
  let i := headIdx t c h
  let ra := s.reader i 0
  let rb := s.reader i 1
  match ra.y, rb.y with
  | some ya, some yb =>
    if ra.st = 3 ∧ rb.st = 3 ∧ ra.num = rb.num ∧ 0 < ra.int then
      let x := s.headS i
      let ak := aSrv t c (0x10C + 32 * h)
      let ae := aSrv t c (0x110 + 32 * h)
      let k := divRound ((rb.tw - ra.tw) * 4294967296) (600 * ra.int.toNat)
      let sk := sixteenth (sfld (s.reg ak) 23 0) k
      let se := sixteenth (sfld (s.reg ae) 15 0) (yb - ya)
      let s := s.setHeadS i { x with skewN := min 16 (x.skewN + 1), sepN := min 16 (x.sepN + 1) }
      let s := s.setF ak 23 0 (pattern 24 sk)
      let s := if 16 ≤ x.skewN + 1 then s.setB ak 31 true else s
      let s := s.setF ae 15 0 (pattern 16 se)
      if 16 ≤ x.sepN + 1 then s.setB ae 31 true else s
    else s
  | _, _ => s

/-! ### One wedge of one reader (R211 to R217) -/

/-- The centre of the window for a reader's next wedge, as a wedge time, and its half-width times 10^7 (R212). -/
def samWindow (s : State) (t c : Nat) (bz : Nat) (x : Reader) : Int × Int :=
  let k : Int := (x.gone : Int) + 1
  (x.tw + k * x.int, k * unitsOf bz (s.fld (aSrv t c 0) 31 24 : Nat))

/-- Whether the SAM found lies in the window of R212, and few enough of its cells differ. -/
def samInWindow (s : State) (t c : Nat) (bz : Nat) (x : Reader) (sam : Option (Nat × Int)) : Option Int :=
  match sam with
  | none => none
  | some (errs, tw) =>
    let w := samWindow s t c bz x
    if errs ≤ s.fld (aSrv t c 0) 15 14 ∧ (absI (tw - w.1) : Int) * 10000000 ≤ w.2 then some tw else none

/-- What a reader's demodulator makes of the samples of a wedge span, the first at sample `k0` of the lane's count
(R207, R212, R215): in SEARCH of the first SAM, else of the best in the window. -/
def demodulate (s : State) (t c h r : Nat) (k0 : Int) (xs : List Int) : WedgeIn :=
  let bz := zoneBits s t (s.fld (aLane t (laneOf c h r) 4) 12 8)
  let x := s.reader (headIdx t c h) r
  let thr := s.fld (aSrv t c 0) 15 14
  let ds := dibits k0 0 xs
  let w := samWindow s t c bz x
  let hit :=
    if x.st ≤ 1 then firstSam bz thr ds
    else bestSam bz thr ds (fun tw => decide ((absI (tw - w.1) : Int) * 10000000 ≤ w.2)) w.1
  match hit with
  | some t0 => readFields bz ds t0
  | none => WedgeIn.none

/-- The wedge interval's starting value, B/600 samples (R211). -/
def startInt (bz : Nat) : Int := (64 * bz / 600 : Nat)

/-- The head's position record of a wedge, made by its source reader (R217, R222): registers, and the
record for the control engine. -/
def makeRecord (s : State) (t c h r : Nat) : State :=
  let i := headIdx t c h
  let x := s.reader i r
  let a := aSrv t c (0x100 + 32 * h)
  let s := ((s.setF a 31 22 x.num).setB a 21 x.y.isSome).setF a 11 8 (min 15 x.miss)
  let s := s.setReg (aSrv t c (0x114 + 32 * h)) (w32 x.int.toNat)
  match x.y with
  | some y =>
    let sep := if s.bit (aSrv t c (0x110 + 32 * h)) 31 then sfld (s.reg (aSrv t c (0x110 + 32 * h))) 15 0 else 1024
    let p := if r = 0 then y else y - sep
    let s := s.setReg (aSrv t c (0x104 + 32 * h)) (place 31 8 (trackCode (p / 1024)))
    let s := s.setReg (aSrv t c (0x108 + 32 * h)) (w32 (p % 1024).toNat)
    s.modHeadS i fun z => { z with rec_ := some (true, p) }
  | none => s.modHeadS i fun z => { z with rec_ := some (false, 0) }

/-- The position of a reader in a wedge whose SAM was found (R208, R209): within JUMP of the head's prediction. -/
def wedgePos (s : State) (t c h bz : Nat) (found : Option Int) (w : WedgeIn) : PosRes :=
  match found with
  | none => .noSet
  | some _ =>
    match position bz (s.fld (aSrv t c 0) 13 8) w with
    | .pos y =>
      let j := s.fld (aSrv t c 0) 7 0
      (match (s.headS (headIdx t c h)).pred with
        | some p => if j ≠ 0 ∧ (j * 1024 : Nat) < absI (y - p) then .badId else .pos y
        | none => .pos y)
    | e => e

/-- A wedge of a reader in LOCK: found or missed, valid or not. -/
def wedgeLocked (s : State) (t c h r bz : Nat) (w : WedgeIn) : State :=
  let i := headIdx t c h
  let x := s.reader i r
  let src := decide (srcOf s t c h = r)
  let next := (x.num + 1) % 600
  let found := samInWindow s t c bz x w.sam
  let pos := wedgePos s t c h bz found w
  let y : Option Int :=
    match pos with
    | .pos y => some y
    | _ => none
  let x' : Reader :=
    match found with
    | some tw =>
      { x with
        tw := tw
        int := if x.gone = 0 then x.int + divRound (tw - x.tw - x.int) 4 else x.int
        miss := if y.isSome then 0 else x.miss + 1
        gone := 0
        num := next
        y := y }
    | none => { x with miss := x.miss + 1, gone := x.gone + 1, num := next, y := none }
  let s := s.setReader i r x'
  let s := if found.isSome ∧ w.wnum ≠ next then s.bump (aSrv t c 0x18) else s
  let s := if y.isNone ∧ src then s.bump (aSrv t c 0x10) else s
  let s := if pos = .badId then s.bump (aSrv t c 0x1C) else s
  let s := if src then makeRecord s t c h r else s
  if max 1 (s.fld (aSrv t c 0) 23 20) ≤ x'.miss then loseLock s t c h r else updatePair s t c h

/-- A wedge of a reader in VERIFY: a miss of any cause of R216, or a wrong number, leads back. -/
def wedgeVerify (s : State) (t c h r bz : Nat) (w : WedgeIn) : State :=
  let i := headIdx t c h
  let x := s.reader i r
  let found := samInWindow s t c bz x w.sam
  let pos := wedgePos s t c h bz found w
  let ok : Bool := match pos with
    | .pos _ => true
    | _ => false
  let s := if pos = .badId then s.bump (aSrv t c 0x1C) else s
  match found with
  | some tw =>
    if w.wnum = (x.num + 1) % 600 ∧ ok then
      let x' := { x with tw := tw, int := x.int + divRound (tw - x.tw - x.int) 4, num := w.wnum,
                         conf := x.conf + 1, miss := 0, gone := 0, y := none }
      let s := s.setReader i r x'
      if max 1 (s.fld (aSrv t c 0) 19 16) ≤ x'.conf then chooseSource (setReaderSt s t c h r 3) t c h else s
    else setReaderSt s t c h r (if speedOk s t c then 1 else 0)
  | none => setReaderSt s t c h r (if speedOk s t c then 1 else 0)

/-- One wedge of one reader through its states (R215). -/
def wedgeOf (s : State) (t c h r : Nat) (w : WedgeIn) : State :=
  let i := headIdx t c h
  let x := s.reader i r
  let z := s.fld (aLane t (laneOf c h r) 4) 12 8
  let bz := zoneBits s t z
  if !(samplesWedges s t c h r) ∨ !(isLoaded s t c) then
    if x.st = 0 then s else chooseSource (setReaderSt s t c h r 0) t c h
  else if x.st = 0 then if speedOk s t c then setReaderSt s t c h r 1 else s
  else if x.st = 1 then
    match w.sam with
    | some (errs, tw) =>
      if errs ≤ s.fld (aSrv t c 0) 15 14 ∧ w.wnum < 600 then
        setReaderSt (s.setReader i r { x with tw := tw, int := startInt bz, num := w.wnum, conf := 0,
                                              miss := 0, gone := 0, y := none }) t c h r 2
      else s
    | none => s
  else if x.st = 2 then wedgeVerify s t c h r bz w
  else wedgeLocked s t c h r bz w

/-- The wedge time that the demodulator predicts for a reader's next wedge (R212). -/
def nextWedge (x : Reader) : Int := x.tw + ((x.gone : Int) + 1) * x.int

/-- The head's skew in 1/64 sample of a zone, if it is valid (R220). -/
def skewTime (s : State) (t c h bz : Nat) : Option Int :=
  let a := aSrv t c (0x10C + 32 * h)
  if s.bit a 31 then some (divRound (sfld (s.reg a) 23 0 * 64 * bz) 4294967296) else none

/-- The predicted wedge time of reader `r`'s lane (R214): its own in LOCK; else the source reader's, shifted by
the skew where that is valid, for a reader that is not the source. -/
def predictFor (s : State) (t c h r bz : Nat) : Option Int :=
  let i := headIdx t c h
  let k := srcOf s t c h
  if (s.reader i r).st = 3 then some (nextWedge (s.reader i r))
  else if k = 2 then none
  else
    let d := (skewTime s t c h bz).getD 0
    some (nextWedge (s.reader i k) + if r = k then 0 else if r = 1 then d else -d)

/-- The time of the source reader's latest wedge, which the write path takes (R143, R214); on reader B's wedge
times, less the skew (R221). -/
def writeWedge (s : State) (t c h bz : Nat) : Option Int :=
  let i := headIdx t c h
  let k := srcOf s t c h
  if k = 0 then some (s.reader i 0).tw
  else if k = 1 then (skewTime s t c h bz).map fun d => (s.reader i 1).tw - d
  else none

/-- The demodulator hands the wedge times of a head to its lanes and to the write path (R214, R222). -/
def handTimes (s : State) (t c h bz : Nat) : State :=
  let give (s : State) (r : Nat) : State :=
    let p := if samplesWedges s t c h r then predictFor s t c h r bz else none
    s.modLane t (laneOf c h r) fun x => { x with wtime := p }
  let s := if s.domOn (domCh t) then give (give s 0) 1 else s
  if s.domOn (domCh t) then
    let w := writeWedge s t c h bz
    s.modHeadW (headIdx t c h) fun x => { x with wtime := w }
  else s

/-- Sectors that were deferred are asked for again on the revolution that follows (R25): once a wedge of the
head has been found since. -/
def againWants (s : State) (i : Nat) : State :=
  s.modHead i fun x => { x with want := x.want.map fun w => { w with later := false } }

/-- One wedge of one reader at the end of its span: the reader's state (R215), the times handed on (R214), and
the lane's acquisition on the resync field (R76). -/
def servoWedge (s : State) (t c h r : Nat) (w : WedgeIn) : State :=
  let i := headIdx t c h
  let s := wedgeOf s t c h r w
  let x := s.reader i r
  let s := if 2 ≤ x.st ∧ x.gone = 0 then againWants (s.setReader i r { x with at_ := s.now }) i else s
  leaveWedge (handTimes s t c h (zoneBits s t (s.fld (aLane t (laneOf c h r) 4) 12 8))) t (laneOf c h r)

/-- SERVO_WEDGE. -/
def execServoWedge (t c h r : Nat) (first : Int) (samples : List Int) (s : State) : Res :=
  if r < 2 then onHeadMo s t c h (servoWedge s t c h r (demodulate s t c h r first samples)) else .fault .badOperand

end Sys2Proof.Machine
end

