-- ==== Sys2Proof/Machine/ArmLink.lean ====
section
/-! DEFINITION. The arm link (R160 to R172): downstream frames and their acknowledgement, upstream
frames, the entry steps, loss and retraining, preamplifier faults and their permanence (R155, R193). -/

namespace Sys2Proof.Machine

/-- The setpoint field of a head in a MASET frame: 0x800 leaves the head unchanged (R162). -/
def masetField (a : Arm) (h : Nat) : Nat :=
  match a.pend.find? fun e => e.1 = h with
  | some (_, some code) => pattern 12 code
  | _ => 0x800

/-- Whether a group of four heads has a setpoint pending. -/
def groupPending (a : Arm) (g : Nat) : Bool := a.pend.any fun e => e.1 / 4 = g

/-- The group to serve: the first pending one from the round-robin pointer on (R164). -/
def nextGroup (a : Arm) : Option Nat :=
  ((List.range 6).map fun k => (a.group + k) % 6).find? fun g => groupPending a g

/-- A MASET frame of a group. -/
def masetFrame (a : Arm) (g : Nat) : BitVec 64 :=
  armFrame 1 (g * 2 ^ 56 + masetField a (4 * g) * 2 ^ 44 + masetField a (4 * g + 1) * 2 ^ 32 +
    masetField a (4 * g + 2) * 2 ^ 20 + masetField a (4 * g + 3) * 2 ^ 8)

/-- HSTAT.ARMED of every head follows the acknowledged mask. -/
def setArmed (s : State) (t c mask : Nat) : State :=
  let s := s.setReg (aWrtC t c 0x10) (w32 (mask % 2 ^ 24))
  (List.range 24).foldl (fun s h => s.setB (aWrtC t c (0x10C + 16 * h)) 3 (mask.testBit h)) s

/-- A PACC access ends (R172): with a reply, an acknowledge, or ERR. -/
def endPacc (s : State) (t c : Nat) (err : Bool) (data : Option Nat) : State :=
  let a := aWrtC t c 0x18
  let s := s.modArm t c fun x => { x with pacc := none }
  let s := (s.setB a 31 false).setB a 29 err
  match data with
  | some d => s.setF a 15 0 d
  | none => s

/-- Whether a head is within a sector: its gate is open, or its burst goes on after a wedge span (R144). -/
def HeadW.writing (w : HeadW) : Bool := w.gate || (match w.ser with | e :: _ => e.begun | [] => false)

/-- A sector that is written whole again, from its first bit. -/
def WrEnt.again (e : WrEnt) : WrEnt := { e with begun := false, done := 0 }

/-- Sectors interrupted on a head return to its serialiser's front as late (R142, R167). -/
def lateHead (s : State) (t c h : Nat) : State :=
  let i := headIdx t c h
  if !(s.headW i).writing then s
  else
    let s := setGate s t c h false
    let s := s.modHeadW i fun w => { w with ser := w.ser.map fun e => { e.again with late := true } }
    s.bump (aWrt t 0x1C)

/-- A head's heater is at its read power or off: the write heater's mark is gone (R151). -/
def heaterBack (s : State) (t c h : Nat) : State :=
  (s.modHeadW (headIdx t c h) fun w => { w with heatAt := none }).setB (aWrtC t c (0x10C + 16 * h)) 1 false

/-- Hub-side level source 197 + 8·c: a fault latch of the cluster is nonzero (R434). -/
def faultLevel (s : State) (t c : Nat) : State :=
  irqLevel s (1 + t) (197 + 8 * c)
    ((List.range 6).any fun k => decide (s.reg (aWrtC t c (0x20 + 4 * k)) ≠ 0))

/-- The link leaves service or an attempt fails (R167): gates parked, heaters off with ALCK (R151, R168), ALCK
stopped, and down after RETRAIN attempts. -/
def armLoss (s : State) (t c : Nat) : State :=
  let was := armState s t c
  if was = 0 ∨ was = 4 then s
  else
    let x := s.arm t c
    let s := (List.range 24).foldl (fun s h => heaterBack (lateHead s t c h) t c h) s
    let s := (setArmed s t c 0).setReg (aWrtC t c 0x14) 0
    let s := if x.pacc.isSome then endPacc s t c true none else s
    let n := if was = 2 then 0 else x.attempts
    let down := decide (s.fld (aWrtC t c 4) 11 8 ≤ n)
    let s := setArmState s t c (if down then 4 else 3)
    let s := s.modArm t c fun x =>
      { x with ctl := [], wait := none, pend := [], step := 0, bad := 0, attempts := n, temp := false, mask := 0,
               stopped := some s.now }
    let s := if was = 2 ∨ down then
        owlCluster s t c 0x5005 (if down then 4 else 3) (s.fld (aWrtC t c 0) 31 24) 0
      else s
    if down then retire (failCluster s t c) t 4 c 0 0 0x0B else s

/-- What the acknowledgement of a control frame completes: MODE arms its mask, REGW ends a PACC write. -/
def ackEffect (s : State) (t c : Nat) (f : BitVec 64) : State :=
  let ty := frameBits f 63 60
  if ty = 4 then setArmed s t c (frameBits f 55 32)
  else if ty = 8 then setArmed s t c 0
  else if ty = 5 then
    let a := aWrtC t c 0x18
    if (s.arm t c).pacc.isSome ∧ s.bit a 30 ∧ frameBits f 59 52 = s.fld a 23 16 then endPacc s t c false none else s
  else s

/-- One downstream slot (R164): a control frame at least once in eight, else pending setpoints, else
IDLE; IDLE alone in step 1 of R166. A PACC access without an answer within four frames ends with ERR. -/
def frameSlot (s : State) (t c : Nat) : State :=
  let st := armState s t c
  if st = 0 ∨ st = 4 ∨ ((s.arm t c).stopped).isSome ∨ (s.arm t c).step = 0 ∧ st ≠ 2 then s
  else
    let x := s.arm t c
    let canCtl := decide (x.wait.isNone) && decide (x.ctl ≠ [])
    let s :=
      if x.step = 1 then (s.setArm t c { x with count := x.count + 1 }).emit (.armFrame t c (armFrame 0 0))
      else
      match (if canCtl ∧ (7 ≤ x.since ∨ (nextGroup x).isNone) then none else nextGroup x), x.ctl with
      | some g, _ =>
        (s.setArm t c { x with
          pend := x.pend.filter fun e => e.1 / 4 ≠ g, group := (g + 1) % 6, since := x.since + 1 }).emit
          (.armFrame t c (masetFrame x g))
      | none, f :: rest =>
        if canCtl then (s.setArm t c { x with ctl := rest, wait := some (f, 0, 0), since := 0 }).emit (.armFrame t c f)
        else (s.setArm t c { x with since := x.since + 1 }).emit (.armFrame t c (armFrame 0 0))
      | none, [] =>
        (s.setArm t c { x with since := x.since + 1 }).emit (.armFrame t c (armFrame 0 0))
    match (s.arm t c).pacc with
    | some n =>
      let s := s.modArm t c fun x => { x with pacc := some (n + 1) }
      if 4 < n + 1 then endPacc s t c true none else s
    | none => s

/-- ARM_FRAME_SLOT. -/
def execArmFrameSlot (t c : Nat) (s : State) : Res := onClusterMo s t c (frameSlot s t c)

/-- A failed upstream frame (R167): LOSS in a row take the link out of service. -/
def badUpFrame (s : State) (t c : Nat) : State :=
  let s := s.bumpF (aWrtC t c 8) 31 16 1
  let n := (s.arm t c).bad + 1
  let s := s.modArm t c fun x => { x with bad := n }
  if max 1 (s.fld (aWrtC t c 4) 23 16) ≤ n then armLoss s t c else s

/-- A capture with the TA flag of reader `r`, the asperity known to it. -/
def Capture.armTa (k : Capture) (r : Nat) : Capture :=
  if r = 0 then { k with flA := { k.flA with ta := true, found := true } }
  else { k with flB := { k.flB with ta := true, found := true } }

/-- Whether reader `r`'s own detector found an asperity in a capture. -/
def Capture.hasAsp (k : Capture) (r : Nat) : Bool := if r = 0 then k.flA.found else k.flB.found

/-- The preamplifier's asperity flag of a reader (R90): TA on the captures in progress, or on the last completed
one and on its entry in the decoder queue; it counts unless the lane's own detector found one in it. -/
def armAsperity (s : State) (t l : Nat) : State :=
  let p := laneParts l
  let i := headIdx t p.1 p.2.1
  let x := s.head i
  if x.curs ≠ [] then
    let s := if x.curs.any (fun k => k.hasAsp p.2.2) then s else wcnt s t l 4
    s.modHead i fun x => { x with curs := x.curs.map fun k => k.armTa p.2.2 }
  else
    match x.held with
    | [] => wcnt s t l 4
    | k :: rest =>
      let s := if k.hasAsp p.2.2 then s else wcnt s t l 4
      let s := s.setHead i { x with held := k.armTa p.2.2 :: rest }
      s.modDet t fun d =>
        { d with decQ := d.decQ.map fun j =>
            if j.ent.lane = l ∧ j.ent.capid = k.id then
              { j with ent := { j.ent with flags := Nat.lor j.ent.flags 128 } }
            else j }

/-- A control frame is resent, or the link is lost after RESEND resends (R165, R167). -/
def statusAck (s : State) (t c ackc : Nat) : State :=
  let x := s.arm t c
  match x.wait with
  | none => s.modArm t c fun x => { x with ackc := some ackc }
  | some (f, n, k) =>
    let old := x.ackc.getD ((ackc + 3) % 4)
    let s := s.modArm t c fun x => { x with ackc := some ackc }
    if ackc = (old + 1) % 4 then ackEffect (s.modArm t c fun x => { x with wait := none }) t c f
    else if n + 1 < 2 then s.modArm t c fun x => { x with wait := some (f, n + 1, k) }
    else if k < s.fld (aWrtC t c 4) 15 12 then
      ((s.modArm t c fun x => { x with wait := some (f, 0, k + 1) }).bump (aWrtC t c 0xC)).emit (.armFrame t c f)
    else armLoss s t c

/-- A STATUS frame, or a frame that fails its check (R161, R163). -/
def statusFrame (s : State) (t c : Nat) (f : BitVec 64) : State :=
  let st := armState s t c
  if st = 0 ∨ st = 4 then s
  else if !(armCrcOk f) ∨ frameBits f 63 60 ≠ 0 then badUpFrame s t c
  else
    let s := s.modArm t c fun x => { x with bad := 0 }
    let s := (List.range 48).foldl
      (fun s k => if f.getLsbD (12 + k) then armAsperity s t (48 * c + k) else s) s
    let s := if f.getLsbD 10 then s.bumpF (aWrtC t c 8) 15 0 1 else s
    statusAck s t c (frameBits f 9 8)

/-- STATUS_FRAME. -/
def execStatusFrame (t c : Nat) (f : BitVec 64) (s : State) : Res := onClusterMo s t c (statusFrame s t c f)

/-! ### Faults of the preamplifier (R155, R193, R542) -/

/-- The retirement a permanent fault leads to (R193, R194): reader, writer or microactuator driver. -/
def permanentFault (s : State) (t c kind h : Nat) : State :=
  if kind = 0 then retire s t 2 c h 0 0x04
  else if kind = 2 then retire s t 1 c h 0 0x03
  else if kind = 3 then retire s t 1 c h 1 0x03
  else if kind = 4 then retire s t 3 c h 0 0x08
  else s

/-- The ladder engine handles a fault of a head (R193): clears it once, and takes a relatch within
REFAULT for permanent. -/
def ladderFault (s : State) (t c kind h : Nat) (clear : State → State) : State :=
  let w := ms 100 * s.fld (aTile t 0x100C) 15 8
  let old := (s.arm t c).watch.find? fun e => e.kind = kind && decide (e.head = h)
  let s := s.modArm t c fun x => { x with watch := x.watch.filter fun e => !(e.kind = kind && decide (e.head = h)) }
  let again : Bool :=
    match old with
    | some e => decide (s.now ≤ e.at_ + w)
    | none => false
  if w = 0 ∨ again then permanentFault s t c kind h
  else (clear s).modArm t c fun x => { x with watch := x.watch ++ [⟨kind, h, s.now⟩] }

/-- The write path's action on a fault of a head (R155): a writer's sectors fail; of a microactuator driver the
control engine is told, and no rule says what it does with that. -/
def headFault (s : State) (t c kind h : Nat) : State :=
  let s :=
    if kind = 0 then
      let m := (s.arm t c).mask
      let s := if m.testBit h then sendMode s t c true (m - 2 ^ h) else s
      failHead s t c h
    else if kind = 4 then s.emit (.maFault t c h)
    else s
  ladderFault s t c kind h fun s => sendFclr s t c kind (2 ^ h)

/-- A burst of a head is cut, or a sector whose burst waits at a wedge span: it is rewritten whole on the next
revolution, or fails after WRETRY rewrites (R152); a discarded one is not rewritten (R156). -/
def cutBurst (s : State) (t c h : Nat) : State :=
  let i := headIdx t c h
  let w := s.headW i
  match w.ser with
  | e :: rest =>
    if !w.writing then s
    else
      let s := setGate s t c h false
      if e.discard then finishWrite (s.modHeadW i fun w => { w with ser := rest }) t e .skipped
      else if e.tries < s.fld (aWrt t 0) 23 20 then
        (s.modHeadW i fun w => { w with ser := { e.again with tries := e.tries + 1 } :: rest }).bump (aWrt t 0x14)
      else finishWrite (s.modHeadW i fun w => { w with ser := rest }) t e .wfail
  | [] => setGate s t c h false

/-- A FAULT frame (R155, R163). Each is acted on, also while the fault it names stands latched (entry 69). -/
def faultFrame (s : State) (t c : Nat) (f : BitVec 64) : State :=
  let st := armState s t c
  let kind := frameBits f 59 56
  if st = 0 ∨ st = 4 then s
  else if !(armCrcOk f) ∨ frameBits f 63 60 ≠ 1 ∨ (5 ≤ kind ∧ kind ≠ 15) then badUpFrame s t c
  else
    let s := s.modArm t c fun x => { x with bad := 0 }
    if kind = 15 then
      let d := frameBits f 9 8
      let s := (s.orReg (aWrtC t c 0x34) (w32 d))
      let s := owlCluster (faultLevel s t c) t c 0x5007 15 d 0
      let s := (List.range 24).foldl (fun s h => cutBurst s t c h) s
      ladderFault s t c 15 31 fun s => sendFclr s t c 15 d
    else
      let m := frameBits f 55 32
      let s := faultLevel (s.orReg (aWrtC t c (0x20 + 4 * kind)) (w32 m)) t c
      let s := owlCluster s t c 0x5007 kind m 0
      ((List.range 24).filter fun h => m.testBit h).foldl (fun s h => headFault s t c kind h) s

/-- FAULT_FRAME. -/
def execFaultFrame (t c : Nat) (f : BitVec 64) (s : State) : Res := onClusterMo s t c (faultFrame s t c f)

/-- REFAULT_WINDOW_END: a cleared fault that has not latched again is counted in Owl and forgotten (R193). -/
def execRefaultWindowEnd (t c kind h : Nat) (s : State) : Res :=
  onClusterMo s t c
    (if (s.arm t c).watch.any (fun e => e.kind = kind && decide (e.head = h)) then
      owlHead (s.modArm t c fun x => { x with watch := x.watch.filter fun e => !(e.kind = kind && decide (e.head = h)) })
        t c h 0x3004 kind 0 0
    else s)

/-- A REPLY frame (R163): the answer to IDENT and REV while entering service, to TEMP, or to PACC. -/
def replyFrame (s : State) (t c : Nat) (f : BitVec 64) : State :=
  let st := armState s t c
  let a := frameBits f 59 52
  let d := frameBits f 51 36
  if st = 0 ∨ st = 4 then s
  else if !(armCrcOk f) ∨ frameBits f 63 60 ≠ 2 then badUpFrame s t c
  else
    let x := s.arm t c
    let s := s.modArm t c fun x => { x with bad := 0 }
    if x.step = 3 ∧ a = 0 then s.modArm t c fun x => { x with ident := some d }
    else if x.step = 3 ∧ a = 1 then s.modArm t c fun x => { x with rev := some d }
    else if x.pacc.isSome ∧ !(s.bit (aWrtC t c 0x18) 30) ∧ s.fld (aWrtC t c 0x18) 23 16 = a then endPacc s t c false (some d)
    else if a = 2 ∧ st = 2 then (s.modArm t c fun x => { x with temp := false }).setReg (aWrtC t c 0x14) (w32 d)
    else s

/-- REPLY_FRAME. -/
def execReplyFrame (t c : Nat) (f : BitVec 64) (s : State) : Res := onClusterMo s t c (replyFrame s t c f)

/-! ### Entering service (R166, R167) -/

/-- ALCK has been stopped 2 µs: the entry steps run again, counted in RETRAINS (R167). -/
def armRestart (s : State) (t c : Nat) : State :=
  if armState s t c = 3 ∧ (s.arm t c).stopped.isSome then
    let s := s.bumpF (aWrtC t c 0) 31 24 1
    s.modArm t c fun x =>
      { x with stopped := none, step := 1, count := 0, attempts := x.attempts + 1, ackc := none, ident := none,
               rev := none, ctl := [], wait := none }
  else s

/-- ARM_LINK_RESTART. -/
def execArmLinkRestart (t c : Nat) (s : State) : Res := onClusterMo s t c (armRestart s t c)

/-- The longest run of passing phases: its first step and its length. A run does not pass from step 31 to step
0, and of a run of even length the lower of its two middle steps is its centre (DESIGN CHOICE, entry 126). -/
def longestRun (pass : List Bool) : Nat × Nat :=
  let r := pass.foldl
    (fun (a : (Nat × Nat) × Nat × Nat) b =>
      let i := a.2.1
      let len := if b then a.2.2 + 1 else 0
      let best := if a.1.2 < len then (i + 1 - len, len) else a.1
      (best, i + 1, len)) ((0, 0), 0, 0)
  r.1

/-- The preamplifier register list of a cluster goes out by REGW (R166 step 4). -/
def sendRegList (s : State) (t c : Nat) : State :=
  (Tab.at [] s.mgmt.preamp (4 * t + c)).foldl (fun s e => sendRegw s t c e) s

/-- WCUR of a head from WRT.HWR (R162); for a head whose IW is 0 the frame carries that 0, which the frame's
range leaves out (DESIGN CHOICE, entry 126). -/
def sendWcur (s : State) (t c h : Nat) : State :=
  let a := aWrtC t c (0x104 + 16 * h)
  sendCtl s t c 3 (h * 2 ^ 55 + s.fld a 23 17 * 2 ^ 48 + s.fld a 16 12 * 2 ^ 43 + s.fld a 11 8 * 2 ^ 39)

/-- RHEAT of every head of a loaded cluster (R151). -/
def sendReadHeat (s : State) (t c : Nat) : State :=
  (List.range 24).foldl (fun s h => sendHeat s t c h (s.fld (aWrtC t c (0x108 + 16 * h)) 25 16)) s

/-- An entry step whose condition holds completes (R166). A link that is off starts at step 1. -/
def armTrain (s : State) (t c : Nat) (pass : List Bool) : State :=
  let x := s.arm t c
  let st := armState s t c
  if st = 0 then (setArmState s t c 1).modArm t c fun _ => { Arm.none with step := 1 }
  else if st = 2 ∨ st = 4 ∨ x.stopped.isSome then s
  else if x.step = 1 then if 32 ≤ x.count then s.modArm t c fun x => { x with step := 2 } else s
  else if x.step = 2 then
    let r := longestRun (pass.take 32)
    if 8 ≤ r.2 then
      let s := s.setF (aWrtC t c 0) 12 8 (r.1 + (r.2 - 1) / 2)
      sendCtl (sendCtl (s.modArm t c fun x => { x with step := 3 }) t c 6 0) t c 6 (1 * 2 ^ 52)
    else s
  else if x.step = 3 then
    match x.ident, x.rev with
    | some i, some r => sendRegList (owlCluster (s.modArm t c fun x => { x with step := 4 }) t c 0x5006 0 i r) t c
    | _, _ => s
  else if x.ctl ≠ [] ∨ x.wait.isSome then s
  else if x.step = 4 then
    let s := s.modArm t c fun x => { x with step := 5 }
    sendMode ((List.range 24).foldl (fun s h => sendWcur s t c h) s) t c true 0
  else
    let s := setArmState (s.modArm t c fun x => { x with step := 0, attempts := 0 }) t c 2
    if isLoaded s t c then sendReadHeat s t c else s

/-- ARM_LINK_TRAIN_STEP. -/
def execArmLinkTrainStep (t c : Nat) (pass : List Bool) (s : State) : Res := onClusterMo s t c (armTrain s t c pass)

/-- PREAMP_TEMP_POLL: every 1 ms TEMP is read (R169). -/
def execPreampTempPoll (t c : Nat) (s : State) : Res :=
  onClusterMo s t c
    (if armState s t c = 2 ∧ !(s.arm t c).temp then
      sendCtl (s.modArm t c fun x => { x with temp := true }) t c 6 (2 * 2 ^ 52)
    else s)

/-- A write of PACC (R172). -/
def paccWrite (s : State) (t c : Nat) (w : Word) : State × Status :=
  let a := aWrtC t c 0x18
  if s.bit a 31 then (s, .storeBusy)
  else
    let s := s.setReg a (w &&& 0x40FFFFFF#32)
    if !(w.getLsbD 31) then (s, .ok)
    else if armState s t c ≠ 2 then (s.setB a 29 true, .ok)
    else
      let ad := Sys2Proof.fld w 23 16
      let s := (s.setB a 31 true).modArm t c fun x => { x with pacc := some 0 }
      (sendCtl s t c (if w.getLsbD 30 then 5 else 6)
        (ad * 2 ^ 52 + (if w.getLsbD 30 then Sys2Proof.fld w 15 0 * 2 ^ 36 else 0)), .ok)

/-- PACC_GO. -/
def execPaccGo (t c : Nat) (w : Word) (s : State) : Res :=
  onClusterMo s t c
    (let r := paccWrite s t c w; r.1.emit (.reply .engine (aWrtC t c 0x18) w r.2))

/-- Writing 1 to FLT[k] or, for `k` = 5, FLTG clears the latch and sends FCLR (R172). -/
def clearFaults (s : State) (t c k : Nat) (w : Word) : State :=
  let a := aWrtC t c (0x20 + 4 * k)
  let m := (s.reg a &&& w)
  let m := if k = 5 then m &&& 3 else m &&& 0xFFFFFF
  if m = 0 then s else faultLevel (sendFclr (s.clrReg a m) t c (if k = 5 then 15 else k) m.toNat) t c

/-- FAULT_LATCH_CLEAR. -/
def execFaultLatchClear (t c k : Nat) (w : Word) (s : State) : Res :=
  if k < 6 then onClusterMo s t c (clearFaults s t c k w) else .fault .badOperand

end Sys2Proof.Machine
end

