-- ==== Sys2Proof/Machine/Control.lean ====
section
/-! DEFINITION. The control engine as its default microcode runs it (R226 to R255): biquad loops, the comb
error, on-track and write-unsafe, seek, load and park, Wolf, and the voice-coil power stage. Positions
are in 1/1,024 track pitch; position errors in 1/4,096 (R232). -/

namespace Sys2Proof.Machine

/-! ### Arithmetic (R231) -/

/-- The integer square root of `n`, found among numbers below 2^32 bit by bit. -/
def isqrt (n : Nat) : Nat :=
  (List.range 32).foldl (fun r k => let q := r + 2 ^ (31 - k); if q * q ≤ n then q else r) 0

/-- The 40-bit saturating accumulator. -/
def sat40 (x : Int) : Int := satI 40 x

/-- An arithmetic shift right. -/
def sar (x : Int) (n : Nat) : Int := x / (2 ^ n : Nat)

/-- A section's next output and histories, and whether it saturated: coefficients b0, b1, b2, a1, a2 as
stored, shift, histories x1, x2, y1, y2 (R231). -/
def biquad (cs : List Int) (shift : Nat) (h : List Int) (x : Int) : Int × List Int × Bool :=
  let c (i : Nat) : Int := cs.getD i 0
  let g (i : Nat) : Int := h.getD i 0
  let acc := sat40 (c 0 * x + c 1 * g 0 + c 2 * g 1 - c 3 * g 2 - c 4 * g 3)
  let acc := sat40 (acc + (2 ^ (13 - shift) : Nat))
  let raw := sar acc (14 - shift)
  let y := satI 16 raw
  (y, [x, g 0, y, g 2], decide (raw ≠ y))

/-! ### Loops (R226, R243 to R245) -/

/-- A loop of an engine. -/
def getLoop (s : State) (t c j : Nat) : Loop := Tab.at Loop.none (s.ctl t c).loops j

/-- The state with a loop changed. -/
def setLoop (s : State) (t c j : Nat) (x : Loop) : State :=
  s.modCtl t c fun y => { y with loops := Tab.to Loop.none y.loops j x }

/-- One section of a loop at one sample, with bypass and clearing (R244). -/
def runSection (s : State) (t c j k : Nat) (fb : Bool) (l : Loop) (x : Int) : Int × Loop × Bool :=
  let a := secAddr t c j k fb
  let h := if l.clearAll ∨ k ∈ l.clear then [0, 0, 0, 0] else Tab.at [0, 0, 0, 0] l.secs k
  if s.bit (a + 0x14) 31 then
    (x, { l with secs := Tab.to [0, 0, 0, 0] l.secs k [x, h.getD 0 0, x, h.getD 2 0] }, false)
  else
    let cs := (List.range 5).map fun i => sfld (s.reg (a + 4 * i)) 15 0
    let r := biquad cs (s.fld (a + 0x14) 2 0) h x
    (r.1, { l with secs := Tab.to [0, 0, 0, 0] l.secs k r.2.1 }, r.2.2)

/-- A loop at one sample: its output, whether its last section saturated, and how many did. The set in
use follows USEFB, and FBACT reports it (R245). -/
def runLoop (s : State) (t c j : Nat) (x : Int) : State × Int × Bool :=
  let fb := s.bit (loopCtl t c j) 1
  let l := getLoop s t c j
  let r := (List.range (loopSecs j)).foldl
    (fun (a : Int × Loop × Bool × Nat) k =>
      let q := runSection s t c j k fb a.2.1 a.1
      (q.1, q.2.1, q.2.2, a.2.2.2 + (if q.2.2 then 1 else 0))) (x, l, false, 0)
  let l := { r.2.1 with
    clear := [], clearAll := false
    fbFor := if fb = l.fbWas then min 4 (l.fbFor + 1) else 0
    fbWas := fb }
  let s := (setLoop s t c j l).setB (loopCtl t c j) 8 fb
  ((if r.2.2.2 = 0 then s else s.bump (aCtl t c 0x50) r.2.2.2), r.1, r.2.2.1)

/-! ### Write-unsafe (R236) -/

/-- The contributing heads of a cluster (R228). -/
def contributing (s : State) (t c : Nat) : List Nat :=
  (List.range 24).filter fun h =>
    (s.headS (headIdx t c h)).valid && !(headDead s t c h) && !(s.bit (aCtl t c 0x30) h) &&
      !(s.bit (aCtl t c (0x100C + 32 * h)) 29) && !(s.bit (aCtl t c (0x1000 + 32 * h)) 0)

/-- The causes of write-unsafe that hold. -/
def unsafeCauses (s : State) (t c : Nat) : Nat :=
  let x := s.ctl t c
  let b (i : Nat) (p : Bool) : Nat := if p then 2 ^ i else 0
  b 0 (s.bit (aCtl t c 0) 0) + b 1 (decide (ctlMode s t c ≠ 5)) + b 2 (decide (contributing s t c = [])) +
    b 3 (decide (s.fld (aCtl t c 8) 23 16 * 4 < absI x.comb)) + b 4 (decide (x.trip ≠ 0)) +
    b 5 (x.loops.any fun e => decide (e.2.fbFor < 2)) + b 6 (decide (2 ≤ x.atLim)) +
    b 7 (decide (armState s t c ≠ 2))

/-- Write-unsafe is raised at once by any cause, releasing every gate (R152), and dropped after four
pilot records without one (R236). -/
def unsafeEval (s : State) (t c : Nat) (pilot : Bool) : State :=
  let m := unsafeCauses s t c
  let s := s.setF (aCtl t c 4) 23 16 m
  if m ≠ 0 then
    let s := (s.setB (aCtl t c 4) 31 true).modCtl t c fun x => { x with clean := 0 }
    (List.range 24).foldl (fun s h => cutBurst s t c h) s
  else if pilot then
    let n := min 4 ((s.ctl t c).clean + 1)
    let s := s.modCtl t c fun x => { x with clean := n }
    if 4 ≤ n then s.setB (aCtl t c 4) 31 false else s
  else s

/-- A cluster changes mode, with what write-unsafe makes of it. -/
def goMode (s : State) (t c m : Nat) : State := unsafeEval (setMode s t c m) t c false

/-! ### Emergency retract and voice-coil faults (R251, R274, R275) -/

/-- An emergency retract of a loaded cluster that is not retracting starts (R274, R275): the mode raises
write-unsafe, which releases its gates (R236, R152). -/
def startRetract (s : State) (t c : Nat) (dead : Bool) : State :=
  if !(isLoaded s t c) ∨ (s.ctl t c).retract ≠ 0 then
    if dead ∧ !(isLoaded s t c) then setMode s t c 7 else s
  else
    let s := if armState s t c = 2 then zeroSetpoints (sendSafe s t c) t c else s
    let s := goMode s t c 6
    let s := s.modCtl t c fun x => { x with retract := 2, dead := x.dead || dead, gates := true, cmds := [] }
    driveCoil s t c (-(s.fld (aSpn t 0x3C) 31 20 : Nat))

/-- A voice-coil fault (R251): recorded, the cluster retracted and retired (cause 0x09). -/
def vcFaultNow (s : State) (t c : Nat) : State :=
  let s := owlCluster s t c 0x5002 (s.fld (aCtl t c 0x34) 5 0) 0 0
  let s := tileEdge s t (194 + 8 * c)
  let s := startRetract (zeroSetpoints s t c) t c true
  retire s t 4 c 0 0 0x09

/-- A voice-coil fault with its VFLT bit. -/
def vcFault (s : State) (t c bit : Nat) : State := vcFaultNow (s.setB (aCtl t c 0x34) bit true) t c

/-! ### Wolf (R247, R248) -/

/-- A loop's output is watched: a new swing and the run of saturated samples; true when it trips. -/
def wolfWatch (s : State) (t c j : Nat) (u : Int) (sat : Bool) : State × Bool :=
  let l := getLoop s t c j
  let d := u - l.u
  let amp := s.fld (aCtl t c 0x28) 31 24 * 64
  let cnt := s.fld (aCtl t c 0x28) 23 16
  let satn := s.fld (aCtl t c 0x28) 15 8
  let swing := decide (amp ≤ absI d) && ((decide (0 < d) && decide (l.d < 0)) || (decide (d < 0) && decide (0 < l.d)))
  let sw := (swing :: l.swings).take 256
  let run := if sat then l.satRun + 1 else 0
  let trip := decide (cnt ≠ 0) &&
    (decide (cnt ≤ (sw.filter id).length) || (decide (satn ≠ 0) && decide (satn ≤ run)))
  let l := { l with u := u, d := d, swings := if trip then [] else sw, satRun := if trip then 0 else run }
  (setLoop s t c j l, trip)

/-- A head is held (R248): setpoint 0, histories cleared, off track. Three holds within 1 s are a
microactuator fault. -/
def holdHead (s : State) (t c h : Nat) : State :=
  let i := headIdx t c h
  let s := setPoint (s.setB (aCtl t c 0x30) h true) t c h 0
  let s := (s.setB (aCtl t c (0x100C + 32 * h)) 30 true).setB (aCtl t c (0x100C + 32 * h)) 31 false
  let l := getLoop s t c h
  let s := setLoop s t c h { l with clearAll := true }
  let hs := (s.now :: (s.headS i).holds).filter fun a => decide (s.now < a + ms 1000)
  let s := s.modHeadS i fun x => { x with holds := hs, holdAt := some s.now, near := 0 }
  if 3 ≤ hs.length then
    ladderFault (s.modHeadS i fun x => { x with holds := [] }) t c 4 h id
  else s

/-- A loop trips (R248). -/
def wolfTrip (s : State) (t c j : Nat) : State :=
  let fb := s.bit (loopCtl t c j) 1
  let s := ((s.setB (aCtl t c 0x2C) j true).bump (aCtl t c 0x54)).modCtl t c fun x => { x with trip := 4 }
  let s := owlTile s t 0x5001 (owlUnit t c 0 0 j) 0 (if fb then 1 else 0) 0 0
  let s := unsafeEval (tileEdge s t (193 + 8 * c)) t c false
  if !fb then
    let l := getLoop s t c j
    setLoop (s.setB (loopCtl t c j) 1 true) t c j { l with clearAll := true }
  else if j < 24 then holdHead s t c j
  else vcFault s t c 2

/-- A held head restarts on its fallback set (R248). -/
def releaseHold (s : State) (t c h : Nat) : State :=
  if s.bit (aCtl t c 0x30) h then
    let l := getLoop s t c h
    let s := setLoop s t c h { l with clearAll := true }
    let s := (s.setB (aCtl t c 0x30) h false).setB (aCtl t c (0x100C + 32 * h)) 30 false
    s.modHeadS (headIdx t c h) fun x => { x with holdAt := none }
  else s

/-- WOLF_REARM. -/
def execWolfRearm (t c h : Nat) (s : State) : Res :=
  onHeadMo s t c h (if s.fld (aCtl t c 0x28) 7 0 ≠ 0 then releaseHold s t c h else s)

/-- A write of WOLFST clears the bits written 1 and, with REARM 0, releases their held heads (R248). -/
def clearWolfst (s : State) (t c : Nat) (w : Word) : State :=
  let s := s.clrReg (aCtl t c 0x2C) w
  if s.fld (aCtl t c 0x28) 7 0 = 0 then
    (bitsOf w 24).foldl (fun s h => releaseHold s t c h) s
  else s

/-- WOLFST_CLEAR. -/
def execWolfstClear (t c : Nat) (w : Word) (s : State) : Res := onClusterMo s t c (clearWolfst s t c w)

/-! ### References (R227, R237, R238, R242) -/

/-- A head's reference: track and offset; a change takes effect at the head's next record (R233). -/
def setRef (s : State) (t c h : Nat) (track off : Int) : State :=
  let a := aCtl t c (0x1004 + 32 * h)
  let b := aCtl t c (0x1008 + 32 * h)
  let same := decide (s.reg a = place 31 8 (trackCode track)) && decide (s.reg b = place 15 0 (pattern 16 off))
  ((s.setReg a (place 31 8 (trackCode track))).setReg b (place 15 0 (pattern 16 off))).modHeadS (headIdx t c h) fun x =>
    { x with moved := x.moved || !same }

/-- A head's reference in 1/1,024 pitch. -/
def refOf (s : State) (t c h : Nat) : Int :=
  trackOf (s.fld (aCtl t c (0x1004 + 32 * h)) 31 8) * 1024 + sfld (s.reg (aCtl t c (0x1008 + 32 * h))) 15 0

/-- CTL.REACH. -/
def reach (s : State) (t c : Nat) : Nat := s.fld (aCtl t c 0xC) 15 0

/-- How far a reference lies from where a head would be with its microactuator centred (R242). -/
def displacement (s : State) (t c h : Nat) (r : Int) : Int :=
  let y := s.headS (headIdx t c h)
  r - (y.ys.headD (refOf s t c h) + sar y.m 2)

/-- The lanes of a cluster are set to a zone: its number and their sampling rate (R74). -/
def setZoneOf (s : State) (t c z : Nat) : State :=
  let rate := zoneBits s t z * s.fld (aSpn t 0xC) 15 0 / 60000000
  (List.range 48).foldl
    (fun s k =>
      let l := 48 * c + k
      let s := s.setF (aLane t l 4) 12 8 z
      if laneAwake s t l then s.setReg (aLane t l 8) (w32 rate) else s) s

/-- Every head of a cluster that is not booked takes a target; a booked head takes it for the end of its
booking. -/
def aimAll (s : State) (t c : Nat) (track : Int) : State :=
  (List.range 24).foldl
    (fun s h =>
      let s := s.modHeadS (headIdx t c h) fun x => { x with home := (track, 0), stream := true, near := 0 }
      if s.bit (aCtl t c (0x100C + 32 * h)) 29 then s else setRef s t c h track 0) s

/-- A seek of the comb to a track (R237): mode SEEK when its mean reference moves by more than SETTLEW. -/
def startSeek (s : State) (t c : Nat) (track : Int) : State :=
  let w := max 1 (s.fld (aCtl t c 0x10) 9 4)
  let old := (List.range 24).foldl (fun (a : Int) h => a + refOf s t c h) 0
  let s := setZoneOf s t c (if track < 0 then 0 else zoneOf s t track.toNat)
  let s := aimAll s t c track
  let far := decide (w * 1024 * 24 < absI (track * 1024 * 24 - old))
  if far ∨ ctlMode s t c = 2 then
    goMode ((s.bump (aCtl t c 0x5C)).modCtl t c fun x => { x with mean := none, lost := 0 }) t c 3
  else s

/-- The comb seeks back to the references that were in force before its lock was lost (R241): each head's own. -/
def seekBack (s : State) (t c : Nat) : State :=
  let z := (s.headS (headIdx t c 0)).home.1
  let s := setZoneOf s t c (if z < 0 then 0 else zoneOf s t z.toNat)
  let s := (List.range 24).foldl
    (fun s h =>
      let x := s.headS (headIdx t c h)
      let s := s.setHeadS (headIdx t c h) { x with stream := true, near := 0 }
      if s.bit (aCtl t c (0x100C + 32 * h)) 29 then s else setRef s t c h x.home.1 x.home.2) s
  goMode ((s.bump (aCtl t c 0x5C)).modCtl t c fun x => { x with mean := none, lost := 0 }) t c 3

/-- A reference command of the tile core: what the default image makes of it, or another image's routine at
vector 4 (R288, R252). -/
def onReference (s : State) (t c : Nat) (f : State) : Res :=
  onClusterMo s t c (if imaged s (ctlEng t c) then routineEvent s (ctlEng t c) 4 0 else f)

/-- SEEK_COMMAND: accepted where the position loops run. -/
def execSeekCommand (t c track : Nat) (s : State) : Res :=
  onReference s t c
    (let m := ctlMode s t c
     if m = 3 ∨ m = 4 ∨ m = 5 then startSeek s t c (trackOf track) else s)

/-- PAIR_ADVANCE: every streaming head's reference steps by two tracks (R233, R238). -/
def pairAdvance (s : State) (t c : Nat) : State :=
  (List.range 24).foldl
    (fun s h =>
      let x := s.headS (headIdx t c h)
      if !x.stream then s
      else
        let s := s.setHeadS (headIdx t c h) { x with home := (x.home.1 + 2, x.home.2) }
        if s.bit (aCtl t c (0x100C + 32 * h)) 29 then s else setRef s t c h (x.home.1 + 2) x.home.2) s

/-- PAIR_ADVANCE. -/
def execPairAdvance (t c : Nat) (s : State) : Res :=
  onReference s t c
    (let m := ctlMode s t c
     if m = 3 ∨ m = 4 ∨ m = 5 then pairAdvance s t c else s)

/-! ### A head's record (R227, R229, R235, R152) -/

/-- The sectors of the next lower track that a cut towards it may have harmed (R153): those between the
last wedge within the limit and the present one. -/
def encroached (s : State) (t : Nat) (psa good now : Nat) : List Nat :=
  let tr := psaTrack psa
  if tr = 0 then []
  else
    let z := zoneOf s t (tr - 1)
    let d := dataSpan s t z
    let lo := good * d / 37376
    let hi := (if now ≤ good then 600 * d else now * d) / 37376
    ((List.range (hi + 1 - lo)).map fun k => lo + k).filterMap fun j =>
      if j < zoneSect s t z then some (psa - 2 ^ 14 - psaSector psa + j) else none

/-- The write limit at a wedge (R152, R153, R217): beyond it the burst is cut, and a cut from an error
toward the lower track is reported. -/
def writeLimit (s : State) (t c h : Nat) (err : Option Int) : State :=
  let i := headIdx t c h
  let w := s.headW i
  let now := s.fld (aSrv t c (0x100 + 32 * h)) 31 22
  let lim := 4 * s.fld (aWrt t 0) 31 24
  let bad :=
    match err with
    | some e => decide (lim < absI e)
    | none => true
  if !w.writing then s.setHeadW i { w with goodWedge := now }
  else if !bad then s.setHeadW i { w with goodWedge := now }
  else
    let low :=
      match err with
      | some e => decide (0 < e)
      | none => false
    let s :=
      match low, w.ser with
      | true, e :: _ =>
        (s.setHeadW i { w with encroach := w.encroach ++ encroached s t e.psa w.goodWedge now }).bump (aWrt t 0x2C)
      | _, _ => s
    cutBurst s t c h

/-- Whether a head is on track follows each valid record (R235); one that a comb booking puts out of reach is off
track while that runs (R242). -/
def trackEval (s : State) (t c h : Nat) (e : Int) : State :=
  let i := headIdx t c h
  let a := aCtl t c (0x100C + 32 * h)
  let on := s.fld (aCtl t c 8) 31 24
  let off := s.fld (aCtl t c 8) 23 16
  let m := ctlMode s t c
  if (m ≠ 4 ∧ m ≠ 5) ∨ s.bit (aCtl t c 0x30) h ∨ srcOf s t c h = 2 ∨ (s.headS i).away then
    (s.setB a 31 false).modHeadS i fun x => { x with near := 0 }
  else
    let n := if absI e ≤ on then (s.headS i).near + 1 else 0
    let s := s.modHeadS i fun x => { x with near := min n 16 }
    if off < absI e then s.setB a 31 false
    else if max 1 (s.fld (aCtl t c 8) 15 12) ≤ n then s.setB a 31 true
    else s

/-- The prediction for the head's next wedge (R229). -/
def predict (s : State) (t c h : Nat) : State :=
  s.modHeadS (headIdx t c h) fun x =>
    { x with pred :=
        if ctlMode s t c = 3 then (match x.ys with | y :: _ => some (y + (s.ctl t c).vref) | [] => none)
        else match x.ys with
          | [y, z] => some (2 * y - z)
          | _ => none }

/-- The microactuator loop of a head runs, its setpoint is pending, and Wolf watches it (R227, R232). -/
def runMicro (s : State) (t c h : Nat) (e : Int) : State :=
  let r := runLoop s t c h e
  let s := r.1
  let raw := sar r.2.1 4
  let code := clampI (-2047) 2047 raw
  let clamped := decide (raw ≠ code)
  let s := if clamped then s.bump (aCtl t c 0x50) else s
  let s := (setPoint s t c h code).setB (aCtl t c (0x1010 + 32 * h)) 31 clamped
  let q := wolfWatch s t c h r.2.1 (r.2.2 || clamped)
  if q.2 then wolfTrip q.1 t c h else q.1

/-- A position record in a mode with position loops: the head's error, whether it is on track, and its write limit
(R227, R228, R235, R152). -/
def takeRecord (s : State) (t c h : Nat) (ok : Bool) (y : Int) : State :=
  let i := headIdx t c h
  if !ok then
    let s := s.modHeadS i fun x => { x with valid := false, ys := [], pred := none, near := 0 }
    let s := s.modArm t c fun a => { a with pend := Tab.put a.pend h none }
    writeLimit s t c h none
  else
    let e := refOf s t c h - y
    let code := sfld (s.reg (aCtl t c (0x1010 + 32 * h))) 11 0
    let mag := s.fld (aCtl t c (0x1014 + 32 * h)) 15 0
    let s := s.modHeadS i fun x =>
      { x with valid := true, ys := (y :: x.ys).take 2, m := divRound (code * mag) 16, moved := false }
    let s := s.setF (aCtl t c (0x100C + 32 * h)) 15 0 (pattern 16 (satI 16 (4 * e)))
    writeLimit (trackEval s t c h e) t c h (some e)

/-- HEAD_RECORD's effect: the engine takes the head's position record. The loops and the prediction are the default
image's; another image's routine at vector 2 stands in their place (R288, entry 16). -/
def headRecord (s : State) (t c h : Nat) : State :=
  let i := headIdx t c h
  match (s.headS i).rec_ with
  | none => s
  | some (ok, y) =>
    let s := s.modHeadS i fun x => { x with rec_ := none }
    let m := ctlMode s t c
    let run := decide (m = 3 ∨ m = 4 ∨ m = 5)
    if imaged s (ctlEng t c) then
      routineEvent (if run then takeRecord s t c h ok y else s) (ctlEng t c) 2 h
    else if m = 2 then
      if srcOf s t c h = 2 then s
      else
        let k := s.modCtl t c fun x => { x with loads := 0, losts := 0 }
        if (s.ctl t c).losts ≠ 0 then seekBack k t c else startSeek k t c (s.ctl t c).goal
    else if !run then s
    else
      let e4 := satI 16 (4 * (refOf s t c h - y))
      let s := takeRecord s t c h ok y
      let s := if ok ∧ (m = 4 ∨ m = 5) ∧ !(s.bit (aCtl t c 0x30) h) then runMicro s t c h e4 else s
      predict s t c h

/-- HEAD_RECORD. -/
def execHeadRecord (t c h : Nat) (s : State) : Res := onHeadMo s t c h (headRecord s t c h)

/-! ### The pilot's record (R228, R234, R236, R237) -/

/-- The mean over the contributing heads of a value, 0 for none. -/
def meanOver (hs : List Nat) (f : Nat → Int) : Int :=
  if hs = [] then 0 else divRound (hs.foldl (fun a h => a + f h) 0) hs.length

/-- The current command of a seek (R237): velocity error times ILIM·2^−KV, limited. -/
def seekCommand (s : State) (t c : Nat) (d v : Int) (meas : Int) : State × Int :=
  let ilim := s.fld (aCtl t c 0x1C) 31 20
  let kv := s.fld (aCtl t c 0x10) 3 0
  let s := s.modCtl t c fun x => { x with vref := v }
  (s, clampI (-ilim) ilim (divRound ((v - meas) * ilim) (1024 * 2 ^ kv) + 0 * d))

/-- PILOT_RECORD's effect: comb error, voice-coil loop or seek law, mode and write-unsafe. -/
def pilotRecord (s : State) (t c : Nat) : State :=
  let m := ctlMode s t c
  let hs := contributing s t c
  let s := (s.setF (aCtl t c 4) 15 11 hs.length).setF (aCtl t c 4) 10 6 (hs.headD 31)
  let s := s.modCtl t c fun x => { x with trip := x.trip - 1 }
  if hs = [] ∨ !(m = 3 ∨ m = 4 ∨ m = 5) then unsafeEval s t c true
  else
    let pos (h : Nat) : Int := 4 * ((s.headS (headIdx t c h)).ys.headD 0) + (s.headS (headIdx t c h)).m
    let mean := meanOver hs pos
    let ev := satI 16 (meanOver hs (fun h =>
      sfld (s.reg (aCtl t c (0x100C + 32 * h))) 15 0 + (s.headS (headIdx t c h)).m) + 4 * (s.ctl t c).shift)
    let old := (s.ctl t c).mean
    let s := s.setReg (aCtl t c 0x40) (place 15 0 (pattern 16 ev))
    let s := s.modCtl t c fun x => { x with mean := some mean, comb := ev, lost := 0 }
    let ilim := s.fld (aCtl t c 0x1C) 31 20
    let s :=
      if m = 3 then
        let d := meanOver hs (fun h => 4 * refOf s t c h) - mean
        let vm := 1024 * s.fld (aCtl t c 0x10) 31 20
        let mag := min vm (isqrt (512 * s.fld (aCtl t c 0x10) 19 10 * absI d))
        let v : Int := if d < 0 then -(mag : Int) else mag
        let meas := match old with
          | some o => divRound (mean - o) 4
          | none => 0
        let r := seekCommand s t c d v meas
        let s := r.1.modCtl t c fun x => { x with cmd := r.2 }
        if absI d ≤ max 1 (s.fld (aCtl t c 0x10) 9 4) * 4096 then
          let l := getLoop s t c 24
          goMode (setLoop s t c 24 { l with clearAll := true }) t c 4
        else s
      else
        let r := runLoop s t c 24 ev
        let raw := sar r.2.1 4
        let cmd := clampI (-ilim) ilim raw
        let s := r.1.modCtl t c fun x => { x with cmd := cmd }
        let q := wolfWatch s t c 24 r.2.1 (r.2.2 || decide (raw ≠ cmd))
        let s := if q.2 then wolfTrip q.1 t c 24 else q.1
        if m = 4 ∧ ctlMode s t c = 4 ∧ hs.all (fun h => s.bit (aCtl t c (0x100C + 32 * h)) 31) then goMode s t c 5 else s
    let s := s.setF (aCtl t c 0x44) 31 16 (pattern 16 (s.ctl t c).cmd)
    let s := s.modCtl t c fun x => { x with atLim := if absI x.cmd = ilim then x.atLim + 1 else 0 }
    unsafeEval s t c true

/-- The pilot's record with another image live: its routine at vector 3, and what write-unsafe makes of the record
(R236, R288). -/
def pilotRoutine (s : State) (t c : Nat) : State :=
  let s := s.modCtl t c fun x => { x with trip := x.trip - 1 }
  unsafeEval (routineEvent s (ctlEng t c) 3 0) t c true

/-- PILOT_RECORD. -/
def execPilotRecord (t c : Nat) (s : State) : Res :=
  onClusterMo s t c (if imaged s (ctlEng t c) then pilotRoutine s t c else pilotRecord s t c)

/-! ### Load and park (R239 to R241) -/

/-- A waiting load starts once SPEEDOK holds and the arm link is in service (R239). -/
def tryLoad (s : State) (t c : Nat) : State :=
  match (s.ctl t c).cmds with
  | .load track :: rest =>
    if ctlMode s t c = 1 ∧ speedOk s t c ∧ armState s t c = 2 ∧ !(tCluster s t c) ∧ !(tTile s t) then
      let s := s.modCtl t c fun x => { x with cmds := rest, goal := track, gates := true, integ := 0 }
      sendReadHeat (goMode s t c 2) t c
    else s
  | _ => s

/-- A load request (R239). -/
def loadRequest (s : State) (t c : Nat) (track : Int) : State :=
  tryLoad (s.modCtl t c fun x => { x with cmds := [.load track] }) t c

/-- LOAD_REQUEST. -/
def execLoadRequest (t c track : Nat) (s : State) : Res := onReference s t c (loadRequest s t c (trackOf track))

/-- No reader reached LOCK within PARKTO of a load (R239): park and try once more, then a LOAD fault; a
reload after loss of lock fails twice before a LOST fault (R241). -/
def loadTimeout (s : State) (t c : Nat) : State :=
  if ctlMode s t c ≠ 2 then s
  else
    let x := s.ctl t c
    let lost := decide (x.losts ≠ 0)
    if lost ∧ 2 ≤ x.losts then vcFault s t c 5
    else if !lost ∧ 1 ≤ x.loads then vcFault s t c 4
    else
      let s := s.modCtl t c fun x =>
        { x with reload := true, loads := if lost then x.loads else x.loads + 1, losts := if lost then x.losts + 1 else 0 }
      startPark s t c

/-- LOAD_TIMEOUT. -/
def execLoadTimeout (t c : Nat) (s : State) : Res := onClusterMo s t c (loadTimeout s t c)

/-- PARK_REQUEST. -/
def execParkRequest (t c : Nat) (s : State) : Res :=
  onReference s t c (unsafeEval (parkRecorded (s.modCtl t c fun x => { x with reload := false, losts := 0, cmds := [] }) t c) t c false)

/-- PARK_STOP_REACHED: the comb rests on the ramp stop (R240 step 3). -/
def execParkStopReached (t c : Nat) (s : State) : Res :=
  onClusterMo s t c
    (if ctlMode s t c = 6 ∧ (s.ctl t c).retract = 0 then s.modCtl t c fun x => { x with stopped := true } else s)

/-- A comb is on the ramp with its gates low: UNLOADED, or RETIRED. -/
def parked (s : State) (t c : Nat) : State :=
  let x := s.ctl t c
  let s := s.modCtl t c fun x =>
    { x with gates := false, stopped := false, retract := 0, cmd := 0, integ := 0, reload := false, mean := none,
             lostWait := false, shift := 0 }
  let s := (driveCoil s t c 0)
  let s := (List.range 24).foldl
    (fun s h => s.modHeadS (headIdx t c h) fun y =>
      { y with valid := false, ys := [], pred := none, near := 0, stream := false, away := false }) s
  let s := goMode s t c (if x.dead then 7 else 1)
  if x.reload ∧ !x.dead then loadRequest s t c x.goal else s

/-- PARK_HOLD_END. -/
def execParkHoldEnd (t c : Nat) (s : State) : Res :=
  onClusterMo s t c (if ctlMode s t c = 6 ∧ (s.ctl t c).stopped then parked s t c else s)

/-- PARK_TIMEOUT: gates low, and a voice-coil fault with the PARK bit (R240). -/
def execParkTimeout (t c : Nat) (s : State) : Res :=
  onClusterMo s t c
    (if ctlMode s t c = 6 ∧ (s.ctl t c).retract = 0 ∧ !(s.ctl t c).stopped then
      vcFault (driveCoil (s.modCtl t c fun x => { x with gates := false }) t c 0) t c 3
    else s)

/-- LOST_CONTRIBUTION: no head has contributed for LOSTW wedge intervals (R241). -/
def execLostContribution (t c : Nat) (s : State) : Res :=
  onClusterMo s t c
    (let m := ctlMode s t c
     if (m = 4 ∨ m = 5) ∧ contributing s t c = [] then
       unsafeEval ((s.modCtl t c fun x => { x with cmd := 0, lostWait := true }).setF (aCtl t c 0x44) 31 16 0) t c false
     else s)

/-- The 100 ms after a loss are over (R241): seek again, or park and reload. -/
def lostWaitEnd (s : State) (t c : Nat) : State :=
  if !(s.ctl t c).lostWait then s
  else
    let s := s.modCtl t c fun x => { x with lostWait := false }
    if (List.range 24).any fun h => decide (srcOf s t c h ≠ 2) then seekBack s t c
    else
      startPark (s.modCtl t c fun x =>
        { x with reload := true, goal := (s.headS (headIdx t c 0)).home.1, losts := x.losts + 1 }) t c

/-- LOST_WAIT_END. -/
def execLostWaitEnd (t c : Nat) (s : State) : Res := onClusterMo s t c (lostWaitEnd s t c)

/-! ### Registers of the loops (R243 to R245) -/

/-- COEFFICIENT_WRITE: one coefficient, in use from the loop's next sample (R243). -/
def execCoefficientWrite (t c loop sec i : Nat) (w : Word) (s : State) : Res :=
  if loop < 25 ∧ sec < loopSecs loop ∧ i < 5 then
    onClusterMo s t c (s.setReg (secAddr t c loop sec false + 4 * i) (w &&& 0xFFFF))
  else .fault .badOperand

/-- A write of SCTL (R244, R255). -/
def writeSctl (s : State) (t c loop sec : Nat) (w : Word) : State :=
  let s := s.setReg (secAddr t c loop sec false + 0x14) (w &&& 0x80000007#32)
  if w.getLsbD 30 then
    let l := getLoop s t c loop
    setLoop s t c loop { l with clear := sec :: l.clear }
  else s

/-- SECTION_CONTROL_WRITE. -/
def execSectionControlWrite (t c loop sec : Nat) (w : Word) (s : State) : Res :=
  if loop < 25 ∧ sec < loopSecs loop then onClusterMo s t c (writeSctl s t c loop sec w) else .fault .badOperand

/-- USEFB_WRITE (R245). -/
def execUsefbWrite (t c loop : Nat) (on : Bool) (s : State) : Res :=
  if loop < 25 then onClusterMo s t c (s.setB (loopCtl t c loop) 1 on) else .fault .badOperand

/-! ### Procedure B (R246) -/

/-- The tile core's next step of Procedure B, once its condition holds: with the fallback sets in use the live sets are
written and released; 4 samples of each loop after that, WHOLD is. A loop that takes no samples delays nothing. -/
def coefStep (s : State) (t c : Nat) : State :=
  match (s.ctl t c).upd with
  | none => s
  | some u =>
    let all (p : Nat → Bool) : Bool := u.loops.all fun j => !(loopRuns s t c j) || p j
    let go (s : State) (x : Option CoefUpd) : State := s.modCtl t c fun y => { y with upd := x }
    if u.phase = 0 then
      (if all fun j => s.bit (loopCtl t c j) 8 then
        let s := u.words.foldl (fun s e => s.setReg e.1 e.2) s
        go (u.loops.foldl (fun s j => s.setB (loopCtl t c j) 1 false) s) (some { u with phase := 1 })
       else s)
    else if u.phase = 1 then
      (if all fun j => !(s.bit (loopCtl t c j) 8) then go s (some { u with phase := 2 }) else s)
    else if all fun j => decide (4 ≤ (getLoop s t c j).fbFor) then go (s.setB (aCtl t c 0) 0 false) none
    else s

/-- Every cluster's change of coefficient sets goes on. -/
def coefSteps (s : State) : State := (s.tl.ctls.map (·.1)).foldl (fun s k => coefStep s (k / 4) (k % 4)) s

/-! ### The power stage (R249 to R251, R275) -/

/-- The current command of LOADING and PARKING (R239, R240): the spec gives the back-EMF it holds and
the limit, not the law; the command is a free value within the limit (entry 2). -/
def emfCommand (s : State) (lim : Nat) : State × Int :=
  (s.took, clampI (-lim) lim (signedOf 12 s.freeVal.toNat))

/-- PWM_PERIOD's effect: the sampled current, back-EMF, the current loop, its error check (R250, R251). -/
def pwmPeriod (s : State) (t c : Nat) (cur vdiff : Int) : State :=
  let s := tryLoad s t c
  let m := ctlMode s t c
  let emf := vdiff - sar (s.fld (aCtl t c 0x24) 15 0 * cur) 8
  let s := s.setF (aCtl t c 0x44) 15 0 (pattern 16 cur)
  let s := s.setReg (aCtl t c 0x48) (place 15 0 (pattern 16 emf))
  let x := s.ctl t c
  if !x.gates ∨ x.retract ≠ 0 ∨ m = 0 ∨ m = 1 ∨ m = 7 then s
  else
    let r :=
      if m = 2 then emfCommand s (s.fld (aCtl t c 0x1C) 31 20)
      else if m = 6 then
        if x.stopped then (s, -(8 * s.fld (aCtl t c 0x20) 15 8 : Nat)) else emfCommand s (8 * s.fld (aCtl t c 0x20) 15 8)
      else (s, x.cmd)
    let s := r.1
    let cmd := r.2
    let err := cmd - cur
    let kp := s.fld (aCtl t c 0x18) 31 24
    let ki := s.fld (aCtl t c 0x18) 23 16
    let dmax := s.fld (aCtl t c 0x18) 11 0
    let integ := satI 32 (x.integ + ki * err)
    let d := clampI (-dmax) dmax (sar (kp * err + integ) 8)
    let lim := s.fld (aCtl t c 0x1C) 19 8
    let n := if lim ≠ 0 ∧ lim < absI err ∧ absI d = dmax then x.ierr + 1 else 0
    let s := s.modCtl t c fun y => { y with integ := integ, ierr := n, cmd := cmd }
    let s := (driveCoil s t c d).setF (aCtl t c 0x44) 31 16 (pattern 16 cmd)
    if 64 ≤ n then vcFault (s.modCtl t c fun y => { y with ierr := 0 }) t c 1 else s

/-- PWM_PERIOD. -/
def execPwmPeriod (t c : Nat) (cur vdiff : Int) (s : State) : Res :=
  onClusterMo s t c (pwmPeriod s t c (clampI (-2047) 2047 cur) (clampI (-2047) 2047 vdiff))

/-- VCFLT_N falls (R251): gates low, PSTAGE latched, and a fault on a second assertion within 100 ms. -/
def vcfltFall (s : State) (t c : Nat) : State :=
  let again :=
    match (s.ctl t c).pstageAt with
    | some a => decide (s.now ≤ a + ms 100)
    | none => false
  let s := (s.modCtl t c fun x => { x with gates := false, pstageAt := some s.now, pstageWait := true, integ := 0 }).setB
    (aCtl t c 0x34) 0 true
  let s := driveCoil s t c 0
  if again then vcFault (s.modCtl t c fun x => { x with pstageWait := false }) t c 0 else s

/-- VCFLT_FALL. -/
def execVcfltFall (t c : Nat) (s : State) : Res := onClusterMo s t c (vcfltFall s t c)

/-- VCFLT_REENABLE: 1 ms later the gates are enabled once more. -/
def execVcfltReenable (t c : Nat) (s : State) : Res :=
  onClusterMo s t c
    (if (s.ctl t c).pstageWait then
      s.modCtl t c fun x => { x with pstageWait := false, gates := isLoaded s t c }
    else s)

/-- RETRACT_DRIVE_END: after RETTIME both low sides are on (R275 step 3). -/
def execRetractDriveEnd (t c : Nat) (s : State) : Res :=
  onClusterMo s t c
    (if (s.ctl t c).retract = 2 then driveCoil (s.modCtl t c fun x => { x with retract := 3 }) t c 0 else s)

/-- RETRACT_BRAKE_END: gates low, UNLOADED or RETIRED (R275 step 4). -/
def execRetractBrakeEnd (t c : Nat) (s : State) : Res :=
  onClusterMo s t c (if (s.ctl t c).retract = 3 then parked s t c else s)

end Sys2Proof.Machine
end

