-- ==== Sys2Proof/Machine/Spindle.lean ====
section
/-! DEFINITION. The spindle drive (R256 to R281): the PWM tick with its sampling, current loops and Lynx,
the speed loop with field weakening and voltage mode, starting, re-catch, faults and stopping. Angles are
in 1/2^32 cycle, the speed in 1/2^32 cycle per tick, αβ currents and voltages in 1/256 code. -/

namespace Sys2Proof.Machine

/-! ### The registers' fields (R280, R281) -/

/-- SPN.STATUS.STATE. -/
def spnState (s : State) (t : Nat) : Nat := s.fld (aSpn t 4) 3 0
/-- SPN.STATUS.MODE. -/
def spnMode (s : State) (t : Nat) : Nat := s.fld (aSpn t 4) 14 12
/-- PER. -/
def spnPer (s : State) (t : Nat) : Nat := s.fld (aSpn t 0x18) 31 16
/-- POLES. -/
def spnPoles (s : State) (t : Nat) : Nat := s.fld (aSpn t 0x10) 27 24
/-- SAMPWIN in 10 ns. -/
def spnWin (s : State) (t : Nat) : Nat := s.fld (aSpn t 0x18) 7 0
/-- IMAX. -/
def spnImax (s : State) (t : Nat) : Nat := s.fld (aSpn t 0x24) 31 20
/-- LOSSERR in 1/2^32 cycle. -/
def spnLossErr (s : State) (t : Nat) : Nat := s.fld (aSpn t 0x30) 3 0 * 2 ^ 26
/-- DIR: +1 forward, −1 backward. -/
def spnDir (s : State) (t : Nat) : Int := if s.bit (aSpn t 4) 30 then -1 else 1

/-- The drive changes state (R267, R434). -/
def setSpnState (s : State) (t n : Nat) : State :=
  if spnState s t = n then s else tileEdge (s.setF (aSpn t 4) 3 0 n) t 224

/-- A bit of SPN.FLT is latched; the level source follows (R434). -/
def setSpnFlt (s : State) (t b : Nat) : State := irqLevel (s.setB (aSpn t 0x60) b true) (1 + t) 225 true

/-- SPEEDOK on SPN.STATUS and every SRV.STATUS of the tile (R263, R434). -/
def setSpeedOk (s : State) (t : Nat) (on : Bool) : State :=
  if s.bit (aSpn t 4) 31 = on then s
  else
    let s := (List.range 4).foldl (fun s c => s.setB (aSrv t c 4) 8 on) (s.setB (aSpn t 4) 31 on)
    tileEdge s t 226

/-- Every spindle gate goes low (R257). -/
def spnGatesLow (s : State) (t : Nat) : State := (s.setF (aSpn t 4) 14 12 0).emit (.gatesLow t)

/-- The duties of the next tick. -/
def setDuties (s : State) (t : Nat) (u v w : Nat) : State :=
  (s.modSpn t fun x => { x with du := u, dv := v, dw := w }).emit (.phases t u v w)

/-! ### Sampling (R258) -/

/-- Whether a phase of duty `d` is measured in a tick. -/
def phaseSeen (s : State) (t d : Nat) : Bool :=
  decide (4096 * 10 * spnWin s t ≤ (4096 - d) * spnPer s t)

/-- The three currents of a tick, or none on a blind tick: two measured phases give the third. -/
def currentsOf (a b c : Bool) (i : SpinIn) : Option (Int × Int × Int) :=
  match a, b, c with
  | true, true, true => some (i.iu, i.iv, i.iw)
  | true, true, false => some (i.iu, i.iv, -(i.iu + i.iv))
  | true, false, true => some (i.iu, -(i.iu + i.iw), i.iw)
  | false, true, true => some (-(i.iv + i.iw), i.iv, i.iw)
  | _, _, _ => none

/-- The α-β frame of three phases in 1/256 unit, keeping the amplitude of a phase (R259, R260; entry 7). -/
def clarke (u v w : Int) : Int × Int := (divRound (256 * (2 * u - v - w)) 3, divRound (256 * (v - w) * 37837) 65536)

/-- The sine of an angle in 1/2^32 cycle, in 1/32768 (R259). -/
def sinA (a : Int) : Int := Config.sine (pattern 32 a / 65536)
/-- The cosine. -/
def cosA (a : Int) : Int := sinA (a + 2 ^ 30)

/-- The d-q frame at an angle. -/
def park2 (v : Int × Int) (a : Int) : Int × Int :=
  (sar (v.1 * cosA a + v.2 * sinA a) 15, sar (v.2 * cosA a - v.1 * sinA a) 15)

/-- The α-β frame of a d-q vector at an angle. -/
def unpark (d q a : Int) : Int × Int := (sar (d * cosA a - q * sinA a) 15, sar (d * sinA a + q * cosA a) 15)

/-- An angle difference within ±half a cycle. -/
def wrapA (x : Int) : Int := signedOf 32 (pattern 32 x)

/-- The magnitude of a vector. -/
def mag (v : Int × Int) : Nat := isqrt ((v.1 * v.1 + v.2 * v.2).toNat)

/-! ### Modulation (R257, R259, R264, R266) -/

/-- The depth of a vector in 1/256 code on a bus, in 1/4,096 of VBUS/√3. -/
def depthOf (v : Int × Int) (vbus : Nat) : Nat :=
  isqrt (3 * 4096 * 4096 * ((v.1 * v.1 + v.2 * v.2).toNat)) / (256 * vbus)

/-- Min-max injection of a vector in 1/256 code: the three duties. -/
def injectDuties (v : Int × Int) (vbus : Nat) : Nat × Nat × Nat :=
  let r := divRound (v.2 * 56756) 65536
  let u := v.1
  let b := divRound (-v.1) 2 + r
  let c := divRound (-v.1) 2 - r
  let off := (max u (max b c) + min u (min b c)) / 2
  let duty (x : Int) : Nat := (clampI 0 4096 (2048 + divRound (4096 * (x - off)) (256 * vbus))).toNat
  (duty u, duty b, duty c)

/-- The sine of an angle of `x` in 1/2^32 cycle, at most a twelfth of a cycle, in 1/2^40: the series. -/
def sinFix (x : Nat) : Nat :=
  let r := x * 6746518852 / 2 ^ 22
  let sq := r * r / 2 ^ 40
  let t3 := r * sq / 2 ^ 40 / 6
  let t5 := t3 * sq / 2 ^ 40 / 20
  let t7 := t5 * sq / 2 ^ 40 / 42
  r + t5 - t3 - t7

/-- MW (R264): the depth up to which every tick is sampled, rounded to nearest. -/
def mwOf (per win : Nat) : Nat :=
  let x := 2048 * per - 40960 * win
  if per = 0 then 0 else (isqrt (64 * x * x / (3 * per * per)) + 1) / 2

/-- MCAP (R264) at a mechanical speed in 1/65,536 rpm. -/
def mcapOf (mw blind rpm poles per : Nat) : Nat :=
  let sub := blind * rpm * poles * per * 2 ^ 15 / 60000000000
  let full := 2 ^ 32 / 12
  if blind = 0 then min 4096 mw
  else if 4096 ≤ mw ∨ full ≤ sub then 4096
  else min 4096 (mw * 2 ^ 40 / (2 * sinFix (full - sub)))

/-- A duty the spec does not give: the bus reads 0, or the arc at a hexagon's vertex (entry 2). -/
def freeDuty (s : State) : State × Nat := (s.took, s.freeVal.toNat % 4097)

/-- The duties of a vector; on a bus that reads 0 they are free values. -/
def vectorDuties (s : State) (t : Nat) (v : Int × Int) (vbus : Nat) : State :=
  if vbus = 0 then
    let a := freeDuty s
    let b := freeDuty a.1
    let c := freeDuty b.1
    setDuties c.1 t a.2 b.2 c.2
  else
    let d := injectDuties v vbus
    setDuties s t d.1 d.2.1 d.2.2

/-! ### Lynx (R260, R261) -/

/-- What Lynx makes of a tick: its new state, the phase error and the angle of the back-EMF. -/
def lynx (s : State) (t : Nat) (x : Spn) (v i : Int × Int) : Spn × Int × Int :=
  let per := spnPer s t
  let rs := s.fld (aSpn t 0x14) 31 16
  let ls := s.fld (aSpn t 0x14) 15 0
  let emf (v i p : Int) : Int := v - sar (rs * i) 8 - (ls * (i - p) * 1000) / (256 * per : Nat)
  let e := (emf v.1 i.1 x.ip.1, emf v.2 i.2 x.ip.2)
  let model (v i e : Int) : Int :=
    if ls = 0 then i else i + ((per : Nat) * (v - sar (rs * i) 8 - e) * 256) / (1000 * ls : Nat)
  let ang : Int := Config.atan2 e.1 e.2 * 65536
  let err := wrapA (ang - (x.theta + 2 ^ 30 * spnDir s t))
  let omega := x.omega + sar (s.fld (aSpn t 0x30) 23 16 * err) 8
  let theta := wrapA (x.theta + omega + sar (s.fld (aSpn t 0x30) 31 24 * err) 8)
  ({ x with im := (model v.1 i.1 e.1, model v.2 i.2 e.2), ip := i, omega := omega, theta := theta,
            emf := mag e / 256 }, err, ang)

/-- Whether the rotor is observable (R261), at `k` times the threshold. -/
def observable (s : State) (t k : Nat) (x : Spn) : Bool := decide (k * 4 * s.fld (aSpn t 0x30) 15 8 ≤ x.emf)

/-- The mechanical speed of Lynx in 1/65,536 rpm (R260). -/
def lynxRpm (s : State) (t : Nat) (x : Spn) : Nat :=
  let d := 65536 * spnPer s t * spnPoles s t
  if d = 0 then 0 else absI x.omega * 60000000000 / d

/-- The electrical speed, in 1/2^32 cycle per tick, of a mechanical speed in rpm. -/
def omegaOf (s : State) (t rpm : Nat) : Int := (rpm * spnPoles s t * spnPer s t * 2 ^ 32 / 60000000000 : Nat)

/-! ### Gates, starts and faults (R267 to R275) -/

/-- The drive lets go: every gate low. -/
def letGo (s : State) (t : Nat) : State :=
  spnGatesLow (s.modSpn t fun x =>
    { x with gates := false, intD := 0, intQ := 0, vd := 0, vq := 0, idRef := 0, iqRef := 0, demand := 0, past := 0,
             under := 0, loss := 0, lock := 0, depth := 0, phi := 0 }) t

/-- The drive takes a state of commutation, in current mode. -/
def engage (s : State) (t n : Nat) : State :=
  setSpnState ((s.modSpn t fun x => { x with gates := true }).setF (aSpn t 4) 14 12 1) t n

/-- A spin-up begins: the format is not checked and no zone is trained (R69, R83), and a tile whose channels are on
goes back to bring-in step 3 (R505). -/
def spinUp (s : State) (t : Nat) : State :=
  let s := s.setReg (aTile t 0x108) 0
  let s : State := { s with tl := { s.tl with trained := s.tl.trained.filter fun e => e.1 / 4 ≠ t } }
  if s.domOn (domCh t) ∧ (let b := Tab.at 0 s.power.bring t
      b = 0 ∨ b = 8 ∨ 4 ≤ b ∧ b ≤ 6) then
    { s with power := { s.power with bring := Tab.to 0 s.power.bring t 3 } }
  else s

/-- A start from step 1 (R267). -/
def spnStart (s : State) (t : Nat) : State :=
  let s := spinUp s t
  setSpnState ((letGo (s.modSpn t fun x =>
    { x with retry := false, queued := false, stop := false, stopLow := false, turn := 0, span := 0, wait := 0 }) t).bump
      (aSpn t 0x6C)) t 2

/-- A spindle fault with a bit of SPN.FLT, or none (R273): gates low, every loaded cluster retracted, and the report
to the hub, which retires the tile when it arrives (R278). -/
def spindleFault (s : State) (t : Nat) (b : Option Nat) : State :=
  let s := match b with | some i => setSpnFlt s t i | none => s
  let s := setSpnFlt s t 6
  let s := owlTile s t 0x5004 (owlUnit t 0 0 0 0) 0 (s.fld (aSpn t 0x60) 6 0) 0 0
  let s := setSpeedOk (setSpnState (letGo s t) t 9) t false
  let s := (List.range 4).foldl (fun s c => startRetract s t c false) s
  tileNotice s t (place 31 28 3)

/-- A start fails (R269): gates low, once more after 1 s, then a STALL fault. -/
def startFails (s : State) (t : Nat) : State :=
  let n := (s.spn t).starts + 1
  let s := letGo (s.modSpn t fun x => { x with starts := n }) t
  if 2 ≤ n then spindleFault s t (some 3) else s.modSpn t fun x => { x with retry := true }

/-- Closed loop: the drive is in RUN (R267 step 6). -/
def spnRun (s : State) (t : Nat) : State :=
  engage (s.modSpn t fun x => { x with integ := 0, starts := 0, retry := false }) t 6

/-- SPN.STATUS.FAILS. -/
def spnFails (s : State) (t : Nat) : Nat := s.fld (aSpn t 4) 21 20

/-- Ticks of two electrical cycles at the last speed of R262 (R270 step 2). -/
def twoCycles (s : State) (t : Nat) : Nat :=
  2 * 2 ^ 32 / max 1 ((s.reg (aSpn t 8)).toNat * spnPoles s t * spnPer s t * 65536 / 60000000000)

/-- A re-catch has failed (R271): FAILS counts, and the third is a spindle fault with the LOSS bit. -/
def recatchFails (s : State) (t : Nat) : State :=
  let n := min 3 (spnFails s t + 1)
  let s := s.setF (aSpn t 4) 21 20 n
  if 3 ≤ n then spindleFault s t (some 2)
  else s.modSpn t fun x => { x with turn := 0, span := 0, wait := twoCycles s t }


/-- The observer is lost (R270): gates low, RECATCH; within 100 ms of a re-catch, that has failed. -/
def observerLost (s : State) (t : Nat) : State :=
  let x := s.spn t
  let again : Bool := match x.caughtAt with | some a => decide (s.now < a + ms 100) | none => false
  let s := setSpnFlt (s.modSpn t fun y => { y with kept := y.integ, caughtAt := none, turn := 0, span := 0, wait := twoCycles s t }) t 2
  let s := owlTile s t 0x5003 (owlUnit t 0 0 0 0) 0 (s.fld (aSpn t 0x60) 3 0) (s.reg (aSpn t 8)).toNat 0
  let s := setSpnState (letGo s t) t 7
  if again then recatchFails s t else s

/-- The low sides are on. -/
def lowSides (s : State) (t : Nat) : State := setDuties (s.setF (aSpn t 4) 14 12 0) t 0 0 0

/-- The drive is STOPPED, gates low. -/
def spnStopped (s : State) (t : Nat) : State :=
  setSpeedOk (setSpnState (letGo (s.modSpn t fun x => { x with stop := false, stopLow := false, retry := false }) t) t 1) t false

/-! ### The tick (R259) -/

/-- Current mode: the loops, the depth limit and the duties of the next tick; on a blind tick the
integrators and the vector hold. -/
def currentTick (s : State) (t : Nat) (i : Int × Int) (blind : Bool) (idRef iqRef a adv : Int) (vbus : Nat) : State :=
  let x := s.spn t
  let dq := park2 i a
  let kp : Int := s.fld (aSpn t 0x1C) 31 24
  let ki : Int := s.fld (aSpn t 0x1C) 23 16
  let id := divRound dq.1 256
  let iq := divRound dq.2 256
  let nd := satI 32 (x.intD + ki * (idRef - id))
  let nq := satI 32 (x.intQ + ki * (iqRef - iq))
  let vd := if blind then x.vd else sar (kp * (idRef - id) + nd) 8
  let vq := if blind then x.vq else sar (kp * (iqRef - iq) + nq) 8
  let v := unpark (256 * vd) (256 * vq) (a + adv)
  let m := depthOf v vbus
  let cap := s.fld (aSpn t 0x40) 15 0
  let beyond := decide (cap < m)
  let w := if beyond then (v.1 * cap / m, v.2 * cap / m) else v
  let hold := blind || beyond
  let d := min m cap
  let s := s.modSpn t fun y =>
    { y with intD := if hold then y.intD else nd, intQ := if hold then y.intQ else nq, vd := vd, vq := vq,
             depth := d, demand := if blind then y.demand else max y.demand m }
  let s := if blind then s else s.setReg (aSpn t 0x44) (place 31 16 (pattern 16 id) ||| place 15 0 (pattern 16 iq))
  let s := (s.setF (aSpn t 4) 14 12 (if s.fld (aSpn t 0x40) 31 16 < d then 2 else 1)).setF (aSpn t 0x48) 15 0 d
  vectorDuties s t w vbus

/-- MV (R266): 9/8 of the back-EMF's own depth, from MCAP to six-step. -/
def mvOf (s : State) (t : Nat) (emf vbus : Nat) : Nat :=
  clampN (s.fld (aSpn t 0x40) 15 0) 4517 (9 * depthOf (256 * (emf : Int), 0) vbus / 8)

/-- The angle at which a vector beyond the linear range is held (R266): the nearest vertex of the hexagon
over an arc that grows with MV, of which the spec states the end, six-step: half the arc is a free value
before it (entry 2). -/
def vertexAngle (s : State) (mv : Nat) (a : Int) : State × Int :=
  if mv ≤ 4096 then (s, a)
  else
    let sixth : Int := 715827883
    let v := divRound a 715827883 * sixth
    let half : Int := if 4517 ≤ mv then sixth else (s.freeVal.toNat % 357913942 : Nat)
    (if 4517 ≤ mv then s else s.took, if absI (a - v) ≤ half then v else a)

/-- Voltage mode: a polar vector at the back-EMF's angle and φ (R266). -/
def voltageTick (s : State) (t : Nat) (ang : Int) (vbus : Nat) : State :=
  let x := s.spn t
  let mv := mvOf s t x.emf vbus
  let r := vertexAngle s mv (wrapA (ang + x.phi * 65536))
  let s := r.1
  let amp : Int := (mv * vbus * 256 * 37837 / (4096 * 65536) : Nat)
  let v := (sar (amp * cosA r.2) 15, sar (amp * sinA r.2) 15)
  let dq := park2 v (x.theta + 3 * x.omega / 2)
  let s := s.modSpn t fun y => { y with vd := sar dq.1 8, vq := sar dq.2 8, depth := mv }
  let s := (s.setF (aSpn t 4) 14 12 (if 4517 ≤ mv then 4 else 3)).setReg (aSpn t 0x48)
    (place 31 16 (pattern 16 x.phi) ||| place 15 0 mv)
  vectorDuties s t v vbus

/-- Whether every cluster of the tile is off its heads. -/
def noneLoaded (s : State) (t : Nat) : Bool := (List.range 4).all fun c => !(isLoaded s t c)

/-- The ramp (R267 step 5): the open-loop angle turns on; a cycle locked to it hands over to RUN. -/
def rampTick (s : State) (t : Nat) (err : Int) : State :=
  let x := s.spn t
  let per := spnPer s t
  let adv := s.fld (aSpn t 0x34) 15 8 * x.ramp * per * 2 ^ 32 / 10 ^ 16
  let good := observable s t 2 x && decide (absI err ≤ spnLossErr s t) &&
    decide (absI (wrapA (x.theta - x.openA)) ≤ spnLossErr s t)
  let n := if good then x.lock + adv else 0
  let s := s.modSpn t fun y => { y with ramp := y.ramp + per, openA := wrapA (y.openA + adv), lock := n }
  if 2 ^ 32 ≤ n then spnRun s t else s

/-- A tick of a measurement with the gates low (R267 step 1, R270 step 2): what the back-EMF vector turns while the
rotor is observable (entry 134). -/
def measureTick (x : Spn) (obs : Bool) (ang : Int) : Spn :=
  if x.wait ≠ 0 then { x with wait := x.wait - 1 }
  else if !obs then { x with turn := 0, span := 0 }
  else if x.span = 0 then { x with ang := ang, span := 1 }
  else { x with ang := ang, turn := x.turn + wrapA (ang - x.ang), span := x.span + 1 }

/-- SPINDLE_TICK's effect. -/
def spindleTick (s : State) (t : Nat) (i : SpinIn) : State :=
  let st := spnState s t
  if st = 0 then s
  else
    let x := s.spn t
    let per := spnPer s t
    let cur :=
      if x.gates then currentsOf (phaseSeen s t x.du) (phaseSeen s t x.dv) (phaseSeen s t x.dw) i
      else some (0, 0, 0)
    let blind := cur.isNone
    let iab := match cur with | some (u, v, w) => clarke u v w | none => x.im
    let beyond := match cur with
      | some (u, v, w) => decide (spnImax s t < absI u ∨ spnImax s t < absI v ∨ spnImax s t < absI w)
      | none => false
    let s := if blind then s.bump (aSpn t 0x68) else s
    let r := lynx s t x (clarke i.vu i.vv i.vw) iab
    let err := r.2.1
    let adv : Int := 3 * r.1.omega / 2
    let bad := decide (spnLossErr s t < absI err)
    let y := { r.1 with ticks := x.ticks + 1, loss := if bad then x.loss + 1 else 0 }
    let s := s.setSpn t y
    let s := ((s.setReg (aSpn t 0x50) (w32 (pattern 32 y.theta / 65536))).setReg (aSpn t 0x4C) (place 15 0 y.emf)).setReg
      (aSpn t 0x54) (place 11 0 i.vbus)
    let obs := observable s t 1 y
    let ialign : Int := 8 * s.fld (aSpn t 0x24) 7 0
    if per = 0 then s
    else if st = 6 then
      if beyond then observerLost (setSpnFlt s t 1) t
      else if !obs ∨ 8 * max 1 (s.fld (aSpn t 0x30) 7 4) ≤ y.loss then observerLost s t
      else if y.stop ∧ noneLoaded s t then setSpnState s t 8
      else if 3 ≤ spnMode s t then voltageTick s t r.2.2 i.vbus
      else currentTick s t iab blind y.idRef y.iqRef x.theta adv i.vbus
    else if (st = 4 ∨ st = 5) ∧ !y.retry then
      if beyond then startFails (setSpnFlt s t 1) t
      else
        let s := currentTick s t iab blind ialign 0 (if st = 4 then 0 else y.openA) 0 i.vbus
        if st = 5 then rampTick s t err else s
    else if st = 2 ∨ st = 7 then s.modSpn t fun z => measureTick z obs r.2.2
    else if st = 3 then lowSides (if beyond then s.emit (.gatesLow t) else s) t
    else if st = 8 then
      if y.stopLow then lowSides s t
      else if !obs then
        if s.fld (aSpn t 0x38) 7 0 = 0 then spnStopped s t
        else lowSides (s.modSpn t fun z => { z with stopLow := true }) t
      else if s.fld (aSpn t 0x38) 31 20 ≠ 0 ∧ s.fld (aSpn t 0x38) 31 20 < i.vbus then lowSides (setSpnFlt s t 4) t
      else currentTick s t iab blind 0 (-(s.fld (aSpn t 0x24) 19 8 : Nat)) x.theta adv i.vbus
    else s

/-- SPINDLE_TICK. -/
def execSpindleTick (t : Nat) (i : SpinIn) (s : State) : Res := onTileMo s t (spindleTick s t i)

/-! ### The speed loop (R262 to R266) -/

/-- The wedge interval of the lowest head with a source reader in LOCK, with its zone's B (R262). -/
def wedgeSource (s : State) (t : Nat) : Option (Nat × Nat) :=
  if !(s.bit (aSpn t 0x20) 0) then none
  else
    (List.range 96).findSome? fun i =>
      let c := i / 24
      let h := i % 24
      let iv := (s.reg (aSrv t c (0x114 + 32 * h))).toNat
      if srcOf s t c h ≠ 2 ∧ iv ≠ 0 then some (iv, zoneBits s t (s.fld (aLane t (laneOf c h 0) 4) 12 8)) else none

/-- The measured speed in 1/65,536 rpm and whether the wedges gave it. -/
def measuredSpeed (s : State) (t : Nat) : Nat × Bool :=
  match wedgeSource s t with
  | some (iv, bz) => (s.fld (aSpn t 0xC) 15 0 * 65536 * 64 * bz / (600 * iv), true)
  | none => (lynxRpm s t (s.spn t), false)

/-- The PI of the speed loop (R262): the error in rpm, the sum shifted as the current loops' (entry 7). -/
def speedPi (s : State) (t : Nat) (rpm : Nat) : State × Int :=
  let x := s.spn t
  let err : Int := divRound ((s.fld (aSpn t 0xC) 15 0 * 65536 : Nat) - (rpm : Int)) 65536
  let integ := satI 32 (x.integ + s.fld (aSpn t 0x20) 23 16 * err)
  (s.modSpn t fun y => { y with integ := integ }, sar (s.fld (aSpn t 0x20) 31 24 * err + integ) 8)

/-- The field-weakening law (R265). -/
def fieldWeaken (s : State) (t : Nat) (md : Int) (mcap : Nat) : Int :=
  let x := s.spn t
  let mf : Int := min (s.fld (aSpn t 0x28) 27 16 : Nat) ((mcap : Int) - 64)
  if s.bit (aSpn t 0x28) 31 then
    clampI (-(8 * s.fld (aSpn t 0x28) 7 0 : Nat)) 0 (x.idRef - (s.fld (aSpn t 0x28) 15 8 : Nat) * (md - mf) / 256)
  else 0

/-- The region decision of R266 at a speed-loop step. -/
def regionStep (s : State) (t : Nat) (mcap : Nat) : State :=
  let x := s.spn t
  let vbus := s.fld (aSpn t 0x54) 11 0
  if 3 ≤ spnMode s t then
    let low := decide ((9 * depthOf (256 * (x.emf : Int), 0) vbus / 8 : Nat) + 128 < mcap)
    let n := if low then x.under + 1 else 0
    if 16 ≤ n then
      (s.modSpn t fun y => { y with under := 0, past := 0, intD := 256 * y.vd, intQ := 256 * y.vq }).setF (aSpn t 4) 14 12 1
    else s.modSpn t fun y => { y with under := n }
  else
    let atMin := decide (x.idRef = -(8 * s.fld (aSpn t 0x28) 7 0 : Nat))
    let past := decide ((mcap : Int) < x.demand) && (!(s.bit (aSpn t 0x28) 31) || atMin)
    let n := if past then x.past + 1 else 0
    if s.bit (aSpn t 0x2C) 31 ∧ 4 ≤ n then
      (s.modSpn t fun y => { y with past := 0, under := 0 }).setF (aSpn t 4) 14 12 3
    else s.modSpn t fun y => { y with past := n }

/-- SPEED_LOOP_STEP's effect. The step comes once every SPDDIV ticks. -/
def speedLoopStep (s : State) (t : Nat) : State :=
  let x := s.spn t
  let st := spnState s t
  if st = 0 ∨ x.ticks < max 1 (s.fld (aSpn t 0x20) 15 8) then s
  else
    let m := measuredSpeed s t
    let s := (s.modSpn t fun y => { y with ticks := 0 }).setReg (aSpn t 8) (w32 (min m.1 (2 ^ 32 - 1)))
    let s := s.setB (aSpn t 4) 29 m.2
    let lim := s.fld (aSpn t 0x38) 19 8
    let s := s.setB (aSpn t 4) 28 (decide (lim ≠ 0) && decide (s.fld (aSpn t 0x54) 11 0 < lim))
    let tgt := s.fld (aSpn t 0xC) 15 0 * 65536
    let good := decide (absI ((m.1 : Int) - tgt) * 500 ≤ tgt) && decide (tgt ≠ 0)
    let s := setSpeedOk s t (if st = 6 then good else if st = 7 then m.2 && good else false)
    let mw := mwOf (spnPer s t) (spnWin s t)
    let mcap := mcapOf mw (s.fld (aSpn t 0x2C) 23 16) m.1 (spnPoles s t) (spnPer s t)
    let s := s.setReg (aSpn t 0x40) (place 31 16 mw ||| place 15 0 mcap)
    if imaged s (spnEng t) then routineEvent s (spnEng t) 2 0
    else if st ≠ 6 then s
    else
      let md := (s.spn t).demand
      let p := speedPi s t m.1
      let s := p.1
      let s :=
        if 3 ≤ spnMode s t then
          let adv : Int := s.fld (aSpn t 0x2C) 15 0
          s.modSpn t fun y => { y with phi := clampI (-adv) adv p.2 }
        else
          let idr := fieldWeaken s t md mcap
          s.modSpn t fun y => { y with iqRef := clampI 0 (s.fld (aSpn t 0x24) 19 8) p.2, idRef := idr }
      let s := s.setB (aSpn t 4) 15 (decide ((s.spn t).idRef < 0))
      (regionStep s t mcap).modSpn t fun y => { y with demand := 0 }

/-- SPEED_LOOP_STEP. -/
def execSpeedLoopStep (t : Nat) (s : State) : Res :=
  onTileMo s t (speedLoopStep s t)

/-! ### Commands and events of the sequence (R267 to R279) -/

/-- SPFLT_N falls (R257, R269 to R271): every gate goes low. -/
def spfltFall (s : State) (t : Nat) : State :=
  let st := spnState s t
  let again : Bool := match (s.spn t).pflt with | some a => decide (s.now < a + ms 100) | none => false
  let s := setSpnFlt (s.modSpn t fun x => { x with pflt := some s.now }) t 0
  if st = 6 then
    let caught : Bool := match (s.spn t).caughtAt with | some a => decide (s.now < a + ms 100) | none => false
    let s := observerLost s t
    if again ∧ !caught then recatchFails s t else s
  else if st = 7 then
    let s := letGo s t
    if again then recatchFails s t else s
  else if (st = 4 ∨ st = 5) ∧ !(s.spn t).retry then startFails s t
  else letGo s t

/-- SPFLT_FALL. -/
def execSpfltFall (t : Nat) (s : State) : Res := onTileMo s t (spfltFall s t)

/-- RUN goes from 0 to 1: in STOPPED with a committed speed the drive starts (R267, R280). -/
def runSet (s : State) (t : Nat) : State :=
  let was := s.bit (aSpn t 0) 0
  let s := s.setB (aSpn t 0) 0 true
  if !was ∧ spnState s t = 1 ∧ s.fld (aSpn t 0xC) 15 0 ≠ 0 ∧ !s.power.pfailLow then
    spnStart (s.modSpn t fun x => { x with starts := 0 }) t
  else s

/-- RUN_SET. -/
def execRunSet (t : Nat) (s : State) : Res := onTileMo s t (runSet s t)

/-- RUN is cleared (R269, R272, R276). -/
def runClear (s : State) (t : Nat) : State :=
  let was := s.bit (aSpn t 0) 0
  let s := s.setB (aSpn t 0) 0 false
  let st := spnState s t
  if !was then s
  else if st = 2 ∨ st = 3 ∨ st = 4 ∨ st = 5 then spnStopped s t
  else if st = 6 ∨ st = 7 then
    let s := s.modSpn t fun x => { x with stop := true }
    if st = 7 then s
    else
      let s := (List.range 4).foldl (fun s c => unsafeEval (parkRecorded s t c) t c false) s
      if noneLoaded s t then setSpnState s t 8 else s
  else s

/-- RUN_CLEAR. -/
def execRunClear (t : Nat) (s : State) : Res := onTileMo s t (runClear s t)

/-- What a measurement with the gates low has found (R268): whether the rotor is observable, whether it turns
forward, the angle of the rotor flux, a quarter cycle behind the back-EMF, and the speed in 1/2^32 cycle per
tick. A start asks for two observable cycles (R267); a re-catch for an observable rotor at its end (R270). -/
structure Turning where
  obs : Bool
  fwd : Bool
  theta : Int
  omega : Int
  deriving DecidableEq, Repr

/-- The measurement of a tile's drive. -/
def measured (s : State) (t : Nat) (start : Bool) : Turning :=
  let x := s.spn t
  let fwd := decide (0 < x.turn)
  ⟨if start then decide (2 * 2 ^ 32 ≤ absI x.turn) else decide (x.turn ≠ 0), fwd,
    wrapA (x.ang - (if fwd then 2 ^ 30 else -(2 ^ 30))), divRound x.turn (x.span - 1)⟩

/-- SPN.CATCH and DIR after a measurement (R268, R280, R281). -/
def noteCatch (s : State) (t : Nat) (m : Turning) : State :=
  let rpm := lynxRpm s t { s.spn t with omega := m.omega } / 65536
  let s := s.setReg (aSpn t 0x58)
    (place 31 30 (if !m.obs then 1 else if m.fwd then 2 else 3) ||| place 15 0 (if m.obs then min 65535 rpm else 0))
  s.setB (aSpn t 4) 30 (m.obs && !m.fwd)

/-- Lynx is preset to the measured angle and speed. -/
def presetLynx (s : State) (t : Nat) (m : Turning) : State :=
  s.modSpn t fun x => { x with theta := m.theta, omega := m.omega, loss := 0, ip := (0, 0), im := (0, 0) }

/-- Whether a start that goes through BRAKE or ALIGN has its place (R497): fewer than SPINMAX tiles are in one,
and no tile before this one waits. -/
def startPlace (s : State) (t : Nat) : Bool :=
  let n := s.fld (aPwr 4) 23 20
  let going := s.tiles.filter fun u => decide (u ≠ t) && decide (3 ≤ spnState s u) && decide (spnState s u ≤ 5)
  n = 0 || (decide (going.length < n) && !((List.range t).any fun u => decide (spnState s u = 2) && (s.spn u).queued))

/-- MEASURE_END (R267 step 2, R268). A start that needs a place and finds none waits in MEASURE (R497). -/
def measureEnd (s : State) (t : Nat) : State :=
  if spnState s t ≠ 2 then s
  else
    let m := measured s t true
    let s := noteCatch s t m
    let wait := !(m.obs && m.fwd) && !(startPlace s t)
    let s := s.modSpn t fun x => { x with queued := wait }
    if wait then s
    else if m.obs ∧ m.fwd then spnRun (presetLynx s t m) t
    else if m.obs then lowSides (setSpnState (s.modSpn t fun x => { x with gates := true }) t 3) t
    else engage (s.modSpn t fun x => { x with openA := 0, ramp := 0, lock := 0 }) t 4

/-- MEASURE_END. -/
def execMeasureEnd (t : Nat) (s : State) : Res := onTileMo s t (measureEnd s t)

/-- BRAKE_MEASURE: a rotor no longer observable goes back to step 1; the gates are low while it is measured. -/
def brakeMeasure (s : State) (t : Nat) : State :=
  if spnState s t ≠ 3 then s
  else if observable s t 1 (s.spn t) then lowSides (s.emit (.gatesLow t)) t
  else setSpnState (letGo (s.modSpn t fun x => { x with turn := 0, span := 0, wait := 0 }) t) t 2

/-- BRAKE_MEASURE. -/
def execBrakeMeasure (t : Nat) (s : State) : Res := onTileMo s t (brakeMeasure s t)

/-- ALIGN_END. -/
def execAlignEnd (t : Nat) (s : State) : Res :=
  onTileMo s t
    (if spnState s t = 4 ∧ !(s.spn t).retry then
      setSpnState (s.modSpn t fun x => { x with openA := 0, ramp := 0, lock := 0 }) t 5
    else s)

/-- RAMP_TIMEOUT. -/
def execRampTimeout (t : Nat) (s : State) : Res :=
  onTileMo s t (if spnState s t = 5 ∧ !(s.spn t).retry then startFails s t else s)

/-- START_RETRY. -/
def execStartRetry (t : Nat) (s : State) : Res := onTileMo s t (if (s.spn t).retry then spnStart s t else s)

/-- The end of a re-catch's four cycles (R270 steps 3 and 4, R271). -/
def recatchMeasureEnd (s : State) (t : Nat) : State :=
  if spnState s t ≠ 7 then s
  else
    let m := measured s t false
    let s := (noteCatch s t m).bump (aSpn t 0x64)
    if m.obs ∧ m.fwd then
      let stop := (s.spn t).stop
      let s := presetLynx s t m
      let s := engage (s.modSpn t fun x => { x with integ := x.kept, caughtAt := some s.now }) t 6
      if stop then (List.range 4).foldl (fun s c => unsafeEval (parkRecorded s t c) t c false) s else s
    else recatchFails s t

/-- RECATCH_MEASURE_END. -/
def execRecatchMeasureEnd (t : Nat) (s : State) : Res := onTileMo s t (recatchMeasureEnd s t)

/-- RECATCH_HOLD_END. -/
def execRecatchHoldEnd (t : Nat) (s : State) : Res :=
  onTileMo s t
    (if spnState s t = 6 ∧ (s.spn t).caughtAt.isSome then
      (s.modSpn t fun x => { x with caughtAt := none }).setF (aSpn t 4) 21 20 0
    else s)

/-- STOP_BRAKE_END. -/
def execStopBrakeEnd (t : Nat) (s : State) : Res :=
  onTileMo s t (if spnState s t = 8 ∧ (s.spn t).stopLow then spnStopped s t else s)

/-- PFAIL_N falls on a tile (R274): gates low, PFAIL latched, every loaded cluster retracted, to load again. -/
def pfailTile (s : State) (t : Nat) : State :=
  let st := spnState s t
  if st = 0 then s
  else
    let s := setSpnFlt (letGo s t) t 5
    let s := if st = 9 then s else spnStopped s t
    (List.range 4).foldl
      (fun s c =>
        if isLoaded s t c ∧ (s.ctl t c).retract = 0 then
          startRetract (s.modCtl t c fun x => { x with reload := true }) t c false
        else s) s

/-- PFAIL_FALL. -/
def pfailFall (s : State) : State :=
  let s : State := { s with power := { s.power with pfailLow := true } }
  s.tiles.foldl pfailTile (owlHub s 0x1003 0 0 0 0 0)

/-- PFAIL_FALL. -/
def execPfailFall (s : State) : Res := .next (pfailFall s)

/-- PFAIL_RISE: each drive that is to run starts under R267 (R275). -/
def execPfailRise (s : State) : Res :=
  .next
    (let s : State := { s with power := { s.power with pfailLow := false } }
     s.tiles.foldl
      (fun s t =>
        if s.bit (aSpn t 0) 0 ∧ spnState s t = 1 ∧ s.fld (aSpn t 0xC) 15 0 ≠ 0 then
          spnStart (s.modSpn t fun x => { x with starts := 0 }) t
        else s) s)

/-- SPINDLE_RUN_COMMAND: the engine takes the tile core's command (R278). -/
def execSpindleRunCommand (t : Nat) (s : State) : Res :=
  onTileMo s t (if imaged s (spnEng t) then routineEvent s (spnEng t) 3 0 else runSet s t)

/-- SPINDLE_STOP_COMMAND. -/
def execSpindleStopCommand (t : Nat) (s : State) : Res :=
  onTileMo s t (if imaged s (spnEng t) then routineEvent s (spnEng t) 3 0 else runClear s t)

/-- RESET_FAILS. -/
def execResetFails (t : Nat) (s : State) : Res := onTileMo s t (s.setF (aSpn t 4) 21 20 0)

end Sys2Proof.Machine
end

