-- ==== Sys2Proof/Machine/Stores.lean ====
section
/-! DEFINITION. The writable control stores (R282 to R299): banks, loading, sealing, swapping and
reverting, threads and the events that start and resume them, and microcode faults. Engine 0 is the
dispatch engine; engine 1 + 6·t + k is store `k` of tile `t` (R298). -/

namespace Sys2Proof.Machine

/-- The lowest thread that is free. -/
def freeThread (s : State) (e : Nat) : Option Nat :=
  lowestFree (((s.eng e).threads.filter fun x => x.2.live).map (·.1)) (engThreads e)

/-- The dispatch-table entry of a packet opcode in the live bank. -/
def dispatchEntry (s : State) (op : Nat) : Word := bankWord 0 (bankLive s 0) (0x4000 + op)

/-- Whether a packet opcode has a valid entry: the default image has one for every opcode of R289 that is
formed; another image has those it sets (R289, R293). -/
def dispatchValid (s : State) (op : Nat) : Bool := (bankLive s 0).dflt || (dispatchEntry s op).getLsbD 31

/-- A packet arrives at the dispatch engine (R289): a thread starts at its table entry, or it waits for
a thread. -/
def dispatchPacket (s : State) (op : Nat) (w : Word) (cmd : Nat) : State :=
  match freeThread s 0 with
  | some th => startThread s 0 th (fld (dispatchEntry s op) 13 0) w 0 op cmd false
  | none => if cmd = 0 then { s with tl := { s.tl with packets := s.tl.packets ++ [(op, w)] } } else s

/-- A waiting packet takes a thread that has become free. -/
def nextPacket (s : State) : State :=
  match s.tl.packets with
  | [] => s
  | (op, w) :: rest =>
    if (freeThread s 0).isSome then dispatchPacket { s with tl := { s.tl with packets := rest } } op w 0 else s

/-- A thread or routine ends; what waited for it goes on. -/
def endThread (s : State) (e th : Nat) : State :=
  let s := setThread s e th Thread.none
  if e = 0 then nextPacket s else if isRoutine e then nextRoutine s e else s

/-- The registers that a write to g0 leaves alone (R283). -/
def putG (g : Tab Word) (r : Nat) (w : Word) : Tab Word := if r = 0 then g else Tab.to 0 g r w

/-- The event of class `k` resumes a waiting thread: A := the class, g1 and g2 the data words (R285). -/
def resumeWith (s : State) (e th k : Nat) (d1 d2 : Word) : State :=
  let x := thread s e th
  match x.wait with
  | some (mask, a) =>
    if x.live ∧ mask.testBit k then
      setThread s e th { x with wait := none, steps := 0, g := putG (putG (putG x.g a (w32 k)) 1 d1) 2 d2 }
    else s
  | none => s

/-- TILE_RESPONSE. -/
def execTileResponse (th : Nat) (d1 d2 : Word) (s : State) : Res :=
  onOk (decide (th < 64)) (resumeWith s 0 th 0 d1 d2)

/-- BUFFER_RESPONSE. -/
def execBufferResponse (th : Nat) (d1 d2 : Word) (s : State) : Res :=
  onOk (decide (th < 64)) (resumeWith s 0 th 1 d1 d2)

/-- RDMA_RESPONSE. -/
def execRdmaResponse (th : Nat) (d1 d2 : Word) (s : State) : Res :=
  onOk (decide (th < 64)) (resumeWith s 0 th 2 d1 d2)

/-- TILE_EVENT: the oldest event that waits at the tile crosses on the request channel and starts a thread at packet
opcode 0xF0 (R289); it waits while the channel is closed or has no credit (R30, R34, R35). At the report of a spindle
fault the hub retires the tile (R273, R278). -/
def execTileEvent (t : Nat) (s : State) : Res :=
  onTile s t
    (match (s.det t).events with
     | [] => s
     | ev :: rest =>
       if s.linkUp t ∧ hasCredits s t 1 1 1 then
         let s := s.modDet t fun d => { d with events := rest }
         let s := dispatchPacket (crossAtOnce s t 1 1 (beBytes 4 ev.toNat)) 0xF0 ev 0
         if fld ev 31 28 = 3 then retireTile s t 0x0C else s
       else s)

/-- DISPATCH_TIMER_TICK: packets that a fault returned run again, and the timer packet starts a thread. -/
def execDispatchTimerTick (s : State) : Res := .next (dispatchPacket (nextPacket s) 0xF3 0 0)

/-! ### Safe points, swaps and faults (R291, R294) -/

/-- Whether an engine's safe point is at once (R294). -/
def atOnce (s : State) (e : Nat) : Bool :=
  let k := engKind e
  if k = 0 ∨ k = 3 then true
  else if k = 1 then ctlMode s (engTile e) (engPage e) == 0 || ctlMode s (engTile e) (engPage e) == 1
  else spnState s (engTile e) == 0 || spnState s (engTile e) == 1 || spnState s (engTile e) == 9

/-- A record of an engine: its store page in INDEX (R480). -/
def owlStore (s : State) (e code cause d0 d1 : Nat) : State :=
  if e = 0 then owlHub s code 0 0 cause d0 d1
  else owlTile s (engTile e) code (owlUnit (engTile e) 0 0 0 (engPage e)) 0 cause d0 d1

/-- The banks exchange roles (R294); the new live bank runs vector 1, unless a failed vector-1 routine
brought the exchange (R291); a routine under way ends first, in its own bank (R294, R295). The default image's own
vectors 0 and 1 have no effect that the manual names, and are over at once (entry 16). -/
def swapBanks (s : State) (e : Nat) (vector1 : Bool) : State :=
  let old := bankWord e (bankLive s e) 15
  let s := s.setF (aUcs e 4) 0 0 (1 - liveBank s e)
  let s := (s.setF (aUcs e 4) 5 4 3).setB (aUcs e 4) 8 false
  let s := owlStore (s.bump (aUcs e 0x24)) e 0x2005 0 (bankWord e (bankLive s e) 15).toNat old.toNat
  if vector1 ∧ imaged s e then
    if isRoutine e then
      if (thread s e 0).live then s.modEng e fun g => { g with queue := (1, 0) :: g.queue }
      else startThread s e 0 1 0 0 0 0 true
    else
      match freeThread s e with
      | some i => startThread s e i 1 0 0 0 0 true
      | none => s
  else s

/-- SWAP_EFFECT: at the engine's safe point. -/
def execSwapEffect (e : Nat) (s : State) : Res := onEng s e (if swapPending s e then swapBanks s e true else s)

/-- A swap or revert is pending; it takes effect at once where the engine's safe point is (R294). -/
def makePending (s : State) (e : Nat) : State :=
  let s := s.setB (aUcs e 4) 8 true
  if atOnce s e then swapBanks s e true else s

/-- The faulting work stops (R291): a command ends with ST_STORE_BUSY, an internal packet returns to the
head of the dispatch input, a sector is dropped, a head record counts as one with VALID clear (R229). -/
def stopWork (s : State) (e : Nat) (x : Thread) (th : Nat) : State :=
  if engKind e = 0 then
    if x.cmd ≠ 0 then completeCmd s x.cmd .storeBusy
    else if 0xF0 ≤ x.packet then
      { s with tl := { s.tl with packets := (x.packet, Tab.at 0 x.g 1) :: s.tl.packets } }
    else s
  else if engKind e = 3 then (if x.fresh then s else dropCtx s (engTile e) th .media)
  else if engKind e = 1 ∧ x.packet = 2 then
    s.modArm (engTile e) (engPage e) fun a => { a with pend := Tab.put a.pend x.cmd none }
  else s

/-- A routine store that has come to rest takes its next event. -/
def restRoutine (s : State) (e : Nat) : State :=
  if isRoutine e ∧ !(thread s e 0).live then nextRoutine s e else s

/-- What repeated faults lead to (R291). -/
def faultLimit (s : State) (e : Nat) : State :=
  if engKind e = 1 then vcFaultNow s (engTile e) (engPage e)
  else if engKind e = 2 then spindleFault s (engTile e) none
  else s

/-- A microcode fault with its cause (R291). -/
def microFault (s : State) (e th cause : Nat) : State :=
  let x := thread s e th
  let last := place 31 28 cause ||| place 27 27 x.bank ||| place 23 16 (if isRoutine e then 0 else th) ||| place 13 0 x.pc
  let s := (s.setReg (aUcs e 0x2C) last).bump (aUcs e 0x28)
  let s := owlStore s e 0x2006 cause last.toNat 0
  let s := if e = 0 then irqEdge s 0 112 else tileEdge s (engTile e) (256 + engPage e)
  let recent := s.now :: (s.eng e).faults.filter fun a => decide (s.now < a + ms 1000)
  let s := s.modEng e fun g => { g with faults := recent }
  let s := stopWork (setThread s e th Thread.none) e x th
  let live := decide (x.bank = liveBank s e)
  let can := decide (staged s e = 3) && !(swapPending s e)
  restRoutine
    (if x.fresh ∧ live then swapBanks s e false
     else if live ∧ s.bit (aUcs e 8) 31 ∧ can then makePending s e
     else if max 1 (s.fld (aUcs e 8) 23 16) ≤ recent.length then faultLimit s e
     else s) e

/-! ### The commands of the manager (R292, R293) -/

/-- A reply of a store's register access. -/
def ucsReply (r : State × Status) (e o : Nat) (w : Word) : State := r.1.emit (.reply .port (aUcs e o) w r.2)

/-- LOAD. -/
def ucsLoad (s : State) (e : Nat) : State × Status :=
  if swapPending s e ∨ drain s e ≠ 0 then (s, .storeBusy)
  else
    let s := s.modEng e fun g => putBank g (1 - liveBank s e) ⟨false, []⟩
    ((s.setReg (aUcs e 0xC) 0).setF (aUcs e 4) 5 4 1, .ok)

/-- SEAL. -/
def ucsSeal (s : State) (e : Nat) : State × Status :=
  if staged s e ≠ 1 then (s, .badField)
  else
    let b := stagedBank s e
    let entries := [0xF0, 0xF1, 0xF2, 0xF3].all fun op => (bankWord 0 b (0x4000 + op)).getLsbD 31
    if e = 0 ∧ !entries then (s, .badField)
    else if bankCrc e b ≠ s.reg (aUcs e 0x14) then (s, .badCrc)
    else (s.setF (aUcs e 4) 5 4 2, .ok)

/-- SWAP. -/
def ucsSwap (s : State) (e : Nat) : State × Status :=
  if swapPending s e then (s, .storeBusy)
  else if staged s e ≠ 2 then (s, .badField)
  else (makePending s e, .ok)

/-- REVERT. -/
def ucsRevert (s : State) (e : Nat) : State × Status :=
  if swapPending s e then (s, .storeBusy)
  else if staged s e ≠ 3 then (s, .noPrevious)
  else (makePending s e, .ok)

/-- CANCEL. -/
def ucsCancel (s : State) (e : Nat) : State × Status := (s.setB (aUcs e 4) 8 false, .ok)

/-- A write of UCS.CMD (R292, R298). -/
def ucsCmd (s : State) (e n : Nat) : State × Status :=
  if n = 1 then ucsLoad s e
  else if n = 2 then ucsSeal s e
  else if n = 3 then ucsSwap s e
  else if n = 4 then ucsRevert s e
  else if n = 5 then ucsCancel s e
  else (s, .badField)

/-- ADDR after an access. -/
def ucsNext (s : State) (e : Nat) : State := s.setF (aUcs e 0xC) 14 0 (s.fld (aUcs e 0xC) 14 0 + 1)

/-- A write of UCS.DATA. -/
def ucsPut (s : State) (e : Nat) (w : Word) : State × Status :=
  if s.bit (aUcs e 0xC) 31 then (s, .badField)
  else if staged s e ≠ 1 then (s, if drain s e ≠ 0 then .storeBusy else .badField)
  else
    let a := s.fld (aUcs e 0xC) 14 0
    let s :=
      if ucsAddrOk e a then
        s.modEng e fun g =>
          let k := 1 - liveBank s e
          let b := getBank g k
          putBank g k { b with words := Tab.set (bankGround e b.dflt) b.words a w }
      else s
    (ucsNext s e, .ok)

/-- A read of UCS.DATA. -/
def ucsGet (s : State) (e : Nat) : State × Word := (ucsNext s e, ucsShown s e)

/-- UCS_LOAD. -/
def execUcsLoad (e : Nat) (s : State) : Res := onEng s e (ucsReply (ucsLoad s e) e 0 1)
/-- SEAL. -/
def execSeal (e : Nat) (s : State) : Res := onEng s e (ucsReply (ucsSeal s e) e 0 2)
/-- SWAP. -/
def execSwap (e : Nat) (s : State) : Res := onEng s e (ucsReply (ucsSwap s e) e 0 3)
/-- UCS_REVERT. -/
def execUcsRevert (e : Nat) (s : State) : Res := onEng s e (ucsReply (ucsRevert s e) e 0 4)
/-- CANCEL. -/
def execCancel (e : Nat) (s : State) : Res := onEng s e (ucsReply (ucsCancel s e) e 0 5)
/-- UCS_DATA_WRITE. -/
def execUcsDataWrite (e : Nat) (w : Word) (s : State) : Res := onEng s e (ucsReply (ucsPut s e w) e 0x10 w)
/-- UCS_DATA_READ. -/
def execUcsDataRead (e : Nat) (s : State) : Res :=
  onEng s e
    (let r := ucsGet s e
     r.1.emit (.reply .port (aUcs e 0x10) r.2 .ok))

/-! ### Loading an image (R296, R297) -/

/-- An image is loaded into both banks at a reset: bank 0 is live, STAGED is EMPTY, every thread has ended,
the engine's memories are initialised (R401), and vector 0 runs; no image named: the default image, whose vector 0
is over at once (entry 16). -/
def loadStore (s : State) (e : Nat) (image : Option (Tab Word)) : State :=
  let b : StoreBank := match image with | some ws => ⟨false, ws⟩ | none => ⟨true, []⟩
  let s := s.setEng e { Engine.fresh with b0 := b, b1 := b }
  let s := s.setReg (aUcs e 4) 0
  if imaged s e then startThread s e 0 0 0 0 0 0 false else s

/-- A commit that changes a store's image loads, seals and swaps it (R296). -/
def swapInStore (s : State) (e : Nat) (image : Option (Tab Word)) : State :=
  let b : StoreBank := match image with | some ws => ⟨false, ws⟩ | none => ⟨true, []⟩
  let s := s.modEng e fun g => putBank g (1 - liveBank s e) b
  makePending ((s.setF (aUcs e 4) 5 4 2)) e

end Sys2Proof.Machine
end

