-- ==== Sys2Proof/Machine/Lanes.lean ====
section
/-! DEFINITION. Asperities (R87 to R89) and the training of lanes and couplings on the calibration tracks
(R82 to R84, R114). What the training's rules leave open is in entries 120 and 124. -/

namespace Sys2Proof.Machine

/-! ### Asperities (R87, R88) -/

/-- Magnitudes of 32 times the baseline at the last `n` samples of a run, the latest first: the baseline is the
mean of the last 32 samples (R87). -/
def baselines (n : Nat) (xs : List Int) : List Nat :=
  (List.range n).map fun k => absI (((xs.reverse.drop k).take 32).foldl (· + ·) 0)

/-- Whether a run of raw samples shows an asperity: the baseline beyond `thr` at the last `n` of them. -/
def asperityOn (thr n : Nat) (xs : List Int) : Bool :=
  decide (31 + n ≤ xs.length) && (baselines n xs).all fun b => decide (32 * thr < b)

/-- Whether it shows the end of one: the baseline below half of `thr` at the last 64 samples. -/
def asperityOff (thr : Nat) (xs : List Int) : Bool :=
  decide (95 ≤ xs.length) && (baselines 64 xs).all fun b => decide (2 * b < 32 * thr)

/-- Sector bits beyond every sector: the end of an asperity that has not ended. -/
def farBit : Int := 1048576

/-- ASPERITY_BEGIN's effect: detected at bit `pos` of the track's data stream on its latest raw samples. The
high-pass corner switches, the loops hold, the capture is flagged, and the window counts it (R88). -/
def asperityBegin (s : State) (t l pos : Nat) (last : List Int) : State :=
  let s := leaveWedge s t l
  let w := laneCfg s t l 3
  let st := laneSt s t l
  if (st = 3 ∨ st = 4 ∨ st = 5) ∧ !(s.bit (aLane t l 4) 18) ∧ fld w 31 27 ≠ 0 ∧
      asperityOn (fld w 31 27) (max 1 (fld w 23 16)) last then
    let s := if st = 3 then s else setLaneSt s t l 6
    let s := wcnt (s.setB (aLane t l 4) 18 true) t l 4
    let s := s.modLane t l fun x => { x with taFrom := some pos }
    let s := flagCaps s t l fun k f =>
      { f with ta := true, found := true, asps := f.asps ++ [((pos : Int) - k.ent.pos, farBit)] }
    s.emit (.hpf t l (fld (laneCfg s t l 2) 6 4) pos)
  else s

/-- ASPERITY_BEGIN. -/
def execAsperityBegin (t l pos : Nat) (last : List Int) (s : State) : Res := onLaneCh s t l (asperityBegin s t l pos last)

/-- An asperity of a capture that has no end yet ends at a sector bit. -/
def closeAsp (e : Int) (a : Int × Int) : Int × Int := if a.2 = farBit then (a.1, e) else a

/-- ASPERITY_END's effect: the corner returns 64 samples later; one longer than 4,096 samples sets LONGTA
(R88). A lane that captures tracks again, unless a wedge span holds it. -/
def asperityEnd (s : State) (t l pos : Nat) (last : List Int) : State :=
  let s := leaveWedge s t l
  match (s.lane t l).taFrom with
  | none => s
  | some from_ =>
    if asperityOff (fld (laneCfg s t l 3) 31 27) last then
      let s := s.setB (aLane t l 4) 18 false
      let s := if laneSt s t l = 6 then setLaneSt s t l 5 else s
      let s := s.modLane t l fun x => { x with taFrom := none }
      let s := flagCaps s t l fun k f =>
        { f with longta := f.longta || decide (from_ + 4096 < pos)
                 asps := f.asps.map (closeAsp ((pos : Int) - k.ent.pos)) }
      s.emit (.hpf t l (fld (laneCfg s t l 2) 10 8) (pos + 64))
    else s

/-- ASPERITY_END. -/
def execAsperityEnd (t l pos : Nat) (last : List Int) (s : State) : Res := onLaneCh s t l (asperityEnd s t l pos last)

/-- The erasure marks of `n` samples from sector bit −64 on: the blocks of 8 from PRE before each asperity's
detection to POST after its end (R88). -/
def erasureMarks (w : Word) (asps : List (Int × Int)) (n : Nat) : List Bool :=
  (List.range n).map fun i : Nat =>
    let b : Int := (i / 8 : Nat)
    asps.any fun a =>
      decide ((a.1 + 64) / 8 - (fld w 15 8 : Nat) ≤ b) && decide (b ≤ (a.2 + 64) / 8 + (fld w 7 0 : Nat))

/-! ### Training (R82 to R84, R114) -/

/-- What a lane brings to a training pass: for each of data spans 300 to 599 the raw samples, the first being
that of the span's first bit (R83 step 4). -/
abbrev Pass := List (List Int)

/-- The samples of a pass, each with its regressors and twice the target's output for the known bits
(R80, R82). -/
def passRegs (d : Nat) (upper : Bool) (g : List Int) (p : Pass) : List (List Int × Int) :=
  p.flatMap fun xs => List.zip (regressors (xs.take d)) (targetRun g false false false (calSpan d upper 300))

/-- The taps that a pass trains for a target by least mean squares, from a single main tap (R83, entry 124). -/
def trainTaps (d : Nat) (upper : Bool) (g : List Int) (p : Pass) : List Int :=
  let m := Config.trainStep
  (lmsTrain m (mainTap.map fun w => w * 2 ^ m) (passRegs d upper g p)).map fun w => clampI (-512) 511 (divRound w (2 ^ m))

/-- Whether a lane's normalised mean squared error over the last 30 spans is within MSEMAX (R83 step 5). -/
def mseOk (lim d : Nat) (upper : Bool) (g taps : List Int) (p : Pass) : Bool :=
  let r := mseSums taps (passRegs d upper g (p.drop (p.length - 30)))
  decide (lim = 0) || decide (1024 * r.1 ≤ lim * r.2)

/-- One lane's training pass in a zone: the trim of its converter is a free value (R83 step 3); a first
failure asks for another revolution, a second leaves EQVALID clear and Owl records it (R83, R84). -/
def trainLane (s : State) (t l z : Nat) (p : Pass) : State :=
  if tLane s t l ∨ laneSt s t l = 7 then s
  else
    let d := dataSpan s t z
    let upper := decide (l % 2 = 1)
    let lim := s.fld (aLane t l 0x30) 15 8
    let s := (s.setReg (aLane t l 0x14) s.freeVal).took
    let g (k : Nat) : List Int := targetOf s t z k
    let new (k : Nat) : List Int := trainTaps d upper (g k) p
    if mseOk lim d upper (g 0) (new 0) p then
      let s := (List.range 5).foldl (fun s k => if targetPresent s t z k then putTaps s t l z k (new k) else s) s
      (s.setB (aLane t l 0x34) z true).modLane t l fun x => { x with tries := Tab.to 0 x.tries z 0 }
    else if Tab.at 0 (s.lane t l).tries z = 0 then s.modLane t l fun x => { x with tries := Tab.to 0 x.tries z 1 }
    else
      let q := laneParts l
      owlTile ((s.setB (aLane t l 0x34) z false).modLane t l fun x => { x with tries := Tab.to 0 x.tries z 0 }) t 0x4002
        (owlUnit t q.1 q.2.1 l 0) 0 z 0 0

/-- The coupling that least mean squares finds: at each sample the error of the own target and the coupling
times the partner's moves it, in 2^−(8+m) (R111, R114). -/
def trainCoupling (m : Nat) (rs : List (Int × Int × Int)) : Int :=
  let k := rs.foldl
    (fun k r =>
      let e := 512 * 2 ^ m * (r.1 : Int) - (256 * 2 ^ m * r.2.1 + k * r.2.2)
      k + divRound (e * r.2.2) (4 * 2 ^ m)) 0
  satI 8 (divRound k (2 ^ m))

/-- The equalised samples of a pass with the lane's own target and its partner's, doubled. -/
def couplingRegs (d : Nat) (upper : Bool) (g go taps : List Int) (p : Pass) : List (Int × Int × Int) :=
  p.flatMap fun xs =>
    List.zipWith (fun w x => (eqOut taps w, x.1, x.2)) (regressors (xs.take d))
      (List.zip (targetRun g false false false (calSpan d upper 300)) (targetRun go false false false (calSpan d (!upper) 300)))

/-- Both coefficients of a head for a zone, from the passes of its lanes (R114); with a lane retired
there is nothing to train on. -/
def trainHead (s : State) (t c h z : Nat) (pa pb : Pass) : State :=
  if tLane s t (laneOf c h 0) ∨ tLane s t (laneOf c h 1) then s
  else
  let d := dataSpan s t z
  let g := targetOf s t z 0
  let m := Config.trainStep
  let ka := trainCoupling m (couplingRegs d false g g (tapsFor s t (laneOf c h 0) z 0) pa)
  let kb := trainCoupling m (couplingRegs d true g g (tapsFor s t (laneOf c h 1) z 0) pb)
  s.modHead (headIdx t c h) fun x => { x with kappa := Tab.put x.kappa z (ka, kb) }

/-- Lanes of a cluster that have failed a first pass in a zone: a second revolution follows (R83 step 5). -/
def passAgain (s : State) (t c z : Nat) : Bool :=
  (List.range 48).any fun k => decide (Tab.at 0 (s.lane t (48 * c + k)).tries z = 1)

/-- The zones that a cluster has trained since its channels came on (R83). -/
def trainedZones (s : State) (t c : Nat) : List Nat := Tab.at [] s.tl.trained (4 * t + c)

/-- The next zone that a cluster has still to train. -/
def nextZone (s : State) (t c : Nat) : Option Nat :=
  (List.range (fmtZones s t)).find? fun z => !((trainedZones s t c).contains z)

/-- A cluster moves onto calibration pair 0 of its band in the next zone that it has to train (R83 steps 1 and
2). -/
def trainMove (s : State) (t c : Nat) : State :=
  let m := ctlMode s t c
  match nextZone s t c with
  | some z => if m = 3 ∨ m = 4 ∨ m = 5 then startSeek s t c (calTrack s t (4 * z + c) 0 : Nat) else s
  | none => s

/-- TRAINING_PASS_END's effect: each lane of the cluster brings its pass; a zone is trained when no lane
asks for its second revolution, and while the tile is brought in the cluster moves to the next (R83). -/
def trainingPassEnd (s : State) (t c z : Nat) (passes : List Pass) : State :=
  let s := (List.range 48).foldl (fun s k => trainLane s t (48 * c + k) z (nth [] passes k)) s
  let s := (List.range 24).foldl (fun s h => trainHead s t c h z (nth [] passes (2 * h)) (nth [] passes (2 * h + 1))) s
  if passAgain s t c z then s
  else
    let s : State := { s with tl := { s.tl with
      trained := Tab.to [] s.tl.trained (4 * t + c) ((trainedZones s t c).filter (fun y => decide (y ≠ z)) ++ [z]) } }
    if Tab.at 0 s.power.bring t = 6 then trainMove s t c else s

/-- TRAINING_PASS_END. -/
def execTrainingPassEnd (t c z : Nat) (passes : List Pass) (s : State) : Res :=
  if z < 32 then onClusterCh s t c (trainingPassEnd s t c z passes) else .fault .badOperand

end Sys2Proof.Machine
end

