-- ==== Sys2Proof/Machine/Capture.lean ====
section
/-! DEFINITION. Captures (R25, R55 to R58, R76, R85, R91 to R104, R111 to R121, R177): which sectors a head
takes next, the start and end of a capture, framing, detection, updates and window counters. What detection's
rules leave open is in entry 120. -/

namespace Sys2Proof.Machine

/-! ### Deferrals (R25, R183) -/

/-- A read's deadline is extended by one revolution for a revolution in which a sector of it was
deferred, at most once each (R183). -/
def extendDeadline (s : State) (t cmd : Nat) : State :=
  let c := s.cmd cmd
  let rev := revNs s t
  let done : Bool := match c.extAt with | some a => decide (s.now < a + rev) | none => false
  match c.deadline with
  | some d => if c.live ∧ !done then s.setCmd cmd { c with deadline := some (d + rev), extAt := some s.now } else s
  | none => s

/-- Sectors are deferred to the next revolution (R25). -/
def deferWants (s : State) (t c h : Nat) (ws : List Want) : State :=
  let s := deferN s t ws.length
  let s := ws.foldl (fun s w => extendDeadline s t w.req.cmd) s
  s.modHead (headIdx t c h) fun x => { x with want := x.want ++ ws.map fun w => { w with later := true } }

/-! ### Which sector comes next (R58, R101, R177, R180) -/

/-- The booking of a context on a head, if any. -/
def bookingOf (x : HeadX) (w : Want) : Option Booking :=
  match w.ctx with
  | some i => x.bookings.find? fun b => decide (b.ctx = i)
  | none => none

/-- Whether a booking of the head has started. -/
def headBooked (x : HeadX) : Bool := x.bookings.any fun b => b.started

/-- Where a wanted sector is read: reader A's track, and whether reader B lies on the sector's track. -/
def wantPlace (s : State) (t : Nat) (x : HeadX) (w : Want) : Int × Bool :=
  let tr := psaTrack w.req.psa
  let low : Int := pairLow s t tr
  let onB := decide (low ≠ tr)
  match bookingOf x w with
  | some b => if b.displaced then (if onB then ((tr : Int), false) else (low - 1, true)) else (low, onB)
  | none => (low, onB)

/-- Whether a wanted sector can be taken now: a re-read in its booking, another sector outside one, and a
deferred one on a later revolution. -/
def wantDue (x : HeadX) (w : Want) : Bool :=
  !w.later &&
    match w.ctx with
    | some _ => (match bookingOf x w with | some b => b.started | none => false)
    | none => !(headBooked x)

/-- Where on its track's data stream a head is (R53, R55): the span of its latest wedge has ended `now − at_`
ago. -/
def headPos (s : State) (t c h : Nat) : Nat :=
  let x := s.reader (headIdx t c h) (if srcOf s t c h = 1 then 1 else 0)
  let z := laneZone s t (laneOf c h 0)
  let d := dataSpan s t z
  x.num * d + min d ((s.now - x.at_) * zoneBits s t z * s.fld (aSpn t 0xC) 15 0 / 60000000000)

/-- Bits of the data stream from a head's place to the start of a sector. -/
def bitsTo (s : State) (t c h psa : Nat) : Nat :=
  let n := 600 * dataSpan s t (zoneOf s t (psaTrack psa))
  (37376 * psaSector psa + n - headPos s t c h % max 1 n) % max 1 n

/-- Bits of the data stream since the start of a sector. -/
def bitsSince (s : State) (t c h psa : Nat) : Nat :=
  let n := 600 * dataSpan s t (zoneOf s t (psaTrack psa))
  (headPos s t c h + n - 37376 * psaSector psa % max 1 n) % max 1 n

/-- The first in angular order, from the head on, of the sectors wanted that satisfy `p` (R58). -/
def nearest (s : State) (t c h : Nat) (p : Want → Bool) (ws : List Want) : Option Want :=
  (ws.filter p).foldl
    (fun b w =>
      match b with
      | none => some w
      | some v => if bitsTo s t c h w.req.psa < bitsTo s t c h v.req.psa then some w else b) none

/-- Whether a wanted sector lies on the pair that its head is on; a re-read is taken in its booking (R177). -/
def onPair (s : State) (t c h : Nat) (w : Want) : Bool :=
  let i := headIdx t c h
  w.ctx.isSome || decide ((wantPlace s t (s.head i) w).1 = (s.headS i).home.1)

/-- One entry of the capture queue from the sectors wanted: the first in angular order, with the one beside
it. No rule names another target than 0 for it (R101). -/
def takeEntry (s : State) (t c h : Nat) : Option State :=
  let i := headIdx t c h
  let x := s.head i
  match nearest s t c h (fun w => wantDue x w && onPair s t c h w) x.want with
  | none => none
  | some w =>
    let pl := wantPlace s t x w
    let mate := x.want.find? fun v =>
      wantDue x v && decide ((wantPlace s t x v).1 = pl.1) && decide ((wantPlace s t x v).2 ≠ pl.2) &&
        decide (psaSector v.req.psa = psaSector w.req.psa)
    let rest := x.want.erase w
    let rest := match mate with | some v => rest.erase v | none => rest
    let sec := psaSector w.req.psa
    let ent : CapEnt := ⟨pl.1, sec, 37376 * sec, if pl.2 then mate else some w, if pl.2 then some w else mate, 0⟩
    some (s.setHead i { x with want := rest, capQ := x.capQ ++ [ent] })

/-- The capture queue is filled to its four entries. -/
def fillQueue : Nat → State → Nat → Nat → Nat → State
  | 0, s, _, _, _ => s
  | n + 1, s, t, c, h =>
    if 4 ≤ (s.head (headIdx t c h)).capQ.length then s
    else
      match takeEntry s t c h with
      | some s => fillQueue n s t c h
      | none => s

/-- CTL.HERR.ONTRK of a head (R235), on the reference it has: a change of that takes effect at its next record
(R233). -/
def onTrack (s : State) (t c h : Nat) : Bool :=
  s.bit (aCtl t c (0x100C + 32 * h)) 31 && !((s.headS (headIdx t c h)).moved)

/-- The queue is filled while the head is on track: the order begins where the head then is (R58). -/
def fillCap (s : State) (t c h : Nat) : State := if onTrack s t c h then fillQueue 4 s t c h else s

/-! ### Which track a head goes to (R46, R58, R142, R149) -/

/-- The sectors of a capture queue entry. -/
def entWants (e : CapEnt) : List Want := e.a.toList ++ e.b.toList

/-- The tracks that a head's work asks its reference to be on: the track of the sector in its serialiser, which
it writes next; else reader A's of the sectors wanted of it, and those of the sectors queued for it. -/
def headTracks (s : State) (t c h : Nat) : List Int :=
  let i := headIdx t c h
  let x := s.head i
  let track (e : WrEnt) : Int := (psaTrack e.psa : Nat)
  match (s.headW i).ser with
  | e :: _ => [track e]
  | [] =>
    (x.capQ.filter fun e => (entWants e).all fun w => w.ctx.isNone).map (fun e => e.low) ++
      (x.want.filter fun w => w.ctx.isNone).map (fun w => (wantPlace s t x w).1) ++
      ((s.wrQ t c).filter fun e => decide (psaHead e.psa = h)).map track

/-- Whether a head has work where it is, or is at work. -/
def headWorks (s : State) (t c h : Nat) : Bool :=
  let i := headIdx t c h
  let x := s.head i
  headBooked x || decide (x.curs ≠ []) || (s.headW i).writing || (headTracks s t c h).contains (s.headS i).home.1

/-- A head with no work where it is goes to the first track of its work: by its microactuator if the track is
within REACH, else with the comb, once no head of the cluster has work where it is. No rule says in what
order a tile takes the pairs of its work (DESIGN CHOICE, entry 128). -/
def headGo (s : State) (t c h : Nat) : State :=
  let i := headIdx t c h
  let m := ctlMode s t c
  match headTracks s t c h with
  | [] => s
  | tr :: _ =>
    if headWorks s t c h ∨ !(m = 3 ∨ m = 4 ∨ m = 5) then s
    else if absI (displacement s t c h (1024 * tr)) ≤ reach s t c ∧ zoneOf s t tr.toNat = laneZone s t (laneOf c h 0) then
      setRef (s.modHeadS i fun x => { x with home := (tr, 0), stream := true, near := 0 }) t c h tr 0
    else if (List.range 24).any fun j => headWorks s t c j then s
    else startSeek s t c tr

/-! ### Media requests (R20 steps 2 to 5, R36, R99) -/

/-- Sectors are wanted of a head: its lanes wake (R99), and the head goes to them. -/
def wantSectors (s : State) (t c h : Nat) (ws : List Want) : State :=
  let s := (wakeHead s t c h).modHead (headIdx t c h) fun x => { x with want := x.want ++ ws }
  fillCap (headGo s t c h) t c h

/-- A media request reaches a tile in service. -/
def mediaRequest (s : State) (t : Nat) (req : MediaReq) : State :=
  let s : State := { s with power := { s.power with lastReq := Tab.to 0 s.power.lastReq t s.now } }
  let c := psaCluster req.psa
  let h := psaHead req.psa
  let w : Want := ⟨req, none, false⟩
  if headDead s t c h then sendDrop s t w .retired else wantSectors s t c h [w]

/-- Whether the buffer has reserved landing space for every sector of a request's command (R20 step 3): none of
its blocks is still to be placed. -/
def placedAll (s : State) (r : MediaReq) : Bool :=
  let c := s.cmd r.cmd
  !c.live || (List.range c.len).all fun b => (c.blk b).st != .idle

/-- MEDIA_REQUEST's effect: the oldest request held for the tile whose command has its landing space, and with it
room for the response (R31), takes a credit of the request channel; for a tile that takes no media requests now
it stays held at the hub (R20 step 4, R36). -/
def mediaSend (s : State) (t : Nat) : State :=
  let held := Tab.at [] s.buf.held t
  match held.find? (placedAll s) with
  | none => s
  | some req =>
    if takesMedia s t then
      let s : State := { s with buf := { s.buf with held := Tab.to [] s.buf.held t (held.erase req) } }
      mediaRequest (crossAtOnce s t 0 1 (beBytes 6 req.psa)) t req
    else s

/-- MEDIA_REQUEST. -/
def execMediaRequest (t : Nat) (s : State) : Res := onTileCh s t (mediaSend s t)

/-! ### The start of a capture (R25, R92, R93, R102, R118, R145) -/

/-- Whether a wanted sector needs an entry of the outbound data queue (R20 step 6, R150 step 3): a re-read's
word goes to its context, and what the tile reads for itself stays there. -/
def needOut (w : Want) : Bool := w.ctx.isNone && (forHub w.req.kind || w.req.kind == .partner)

/-- How many of a list of wanted sectors need an outbound entry. -/
def outNeed (ws : List Want) : Nat := (ws.filter needOut).length

/-- A capture queue entry with the sectors for which an outbound entry is free, reader A's first; the others
are deferred (R25). -/
def keepWants (free : Nat) (e : CapEnt) : CapEnt :=
  let a := e.a.filter fun w => !(needOut w) || decide (1 ≤ free)
  let n := outNeed a.toList
  { e with a := a, b := e.b.filter fun w => !(needOut w) || decide (n + 1 ≤ free) }

/-- Whether a lane can take a capture: it samples, and is not asked to sleep (R97). -/
def laneReady (s : State) (t l : Nat) : Bool := laneAwake s t l && !(s.bit (aLane t l 0) 0)

/-- A lane begins a capture in bank `b`: it acquires, unless it tracks on from the sector before (R75); lost
lock means a zero-phase start here too (R77), and an asperity in progress holds it (R88). -/
def beginLane (s : State) (t l id tgt : Nat) : State :=
  let x := s.lane t l
  let s := if laneSt s t l = 3 ∨ x.lost then acquire s t l else s
  let s := if s.bit (aLane t l 4) 18 then setLaneSt s t l 6 else s
  let k : Bank := ⟨some id, [], []⟩
  let b := id / 2 ^ 30
  let s := s.modLane t l fun x => { (if b = 0 then { x with b0 := k } else { x with b1 := k }) with bank := b }
  s.setF (aLane t l 4) 23 20 tgt

/-- The flags of a capture as it begins in a lane. -/
def firstFlags (s : State) (t l pos : Nat) : CapFlags :=
  let x := s.lane t l
  let on := s.bit (aLane t l 4) 18
  ⟨on, false, false, on, laneSt s t l == 3 || x.lost,
    match x.taFrom with | some f => [((f : Int) - pos, farBit)] | none => []⟩

/-- A capture begins: bank `b`, the lanes that are not retired. -/
def beginCapture (s : State) (t c h b : Nat) (e : CapEnt) : State :=
  let i := headIdx t c h
  let la := laneOf c h 0
  let lb := laneOf c h 1
  let s := applyKappa s i
  let x := s.head i
  let ra := !(tLane s t la)
  let rb := !(tLane s t lb)
  let id := b * 2 ^ 30 + x.count
  let cap : Capture :=
    ⟨id, e, ra, rb, laneZone s t la, s.reg (aDet t 0), s.reg (aDet t 4), decide (x.curs ≠ []), firstFlags s t la e.pos,
      firstFlags s t lb e.pos, Framing.none, Framing.none, .pending, .pending, [], [], false⟩
  let s := s.setHead i
    { x with curs := x.curs ++ [cap], count := (x.count + 1) % 2 ^ 30,
             held := x.held.filter fun k => decide (k.id / 2 ^ 30 ≠ b) }
  let s := if ra then beginLane s t la id e.target else s
  let s := if rb then beginLane s t lb id e.target else s
  s.modDet t fun d => { d with outRes := d.outRes + outNeed (entWants e), decRes := d.decRes + (entWants e).length }

/-- CAPTURE_START's effect on the entry at the head of the queue; `passed`: its expected position has passed
(R102). A head that is not on track, or whose lanes cannot capture, begins none (R218, R97); one that writes
takes none (R145); one that is booked for another sector defers it (R177), and one on another pair wants it
again. -/
def captureStart (s : State) (t c h : Nat) (passed : Bool) : State :=
  let i := headIdx t c h
  let s := fillCap (headGo s t c h) t c h
  let x := s.head i
  match x.capQ with
  | [] => s
  | e :: rest =>
    let booked := (entWants e).any fun w => w.ctx.isSome
    let la := laneOf c h 0
    let lb := laneOf c h 1
    let ra := !(tLane s t la)
    let rb := !(tLane s t lb)
    let pop (s : State) : State := s.modHead i fun y => { y with capQ := rest }
    let back (s : State) : State := deferWants (pop s) t c h (entWants e)
    let b := 1 - (s.lane t (if ra then la else lb)).bank
    let d := s.det t
    let k := keepWants (48 - outUsed s t) e
    if passed ∨ (headBooked x ∧ !booked) then back s
    else if !booked ∧ e.low ≠ (s.headS i).home.1 then
      s.modHead i fun y => { y with capQ := rest, want := entWants e ++ y.want }
    else if 2 ≤ x.curs.length ∨ !(onTrack s t c h) ∨ (ra ∧ !(laneReady s t la)) ∨ (rb ∧ !(laneReady s t lb)) then s
    else if (s.headW i).writing then back s
    else if s.bit (aLane t la 4) (16 + b) ∨ s.bit (aLane t lb 4) (16 + b) then
      back ((if ra then s.bump (aLane t la 0x80) else s) |> fun s => if rb then s.bump (aLane t lb 0x80) else s)
    else if entWants k = [] then back s
    else if 64 < d.decRes + d.decQ.length + (entWants k).length then back (s.bump (aDet t 0x10C))
    else
      beginCapture (deferWants (pop s) t c h ((entWants e).filter fun w => !((entWants k).contains w))) t c h b k

/-- CAPTURE_START. -/
def execCaptureStart (t c h : Nat) (passed : Bool) (s : State) : Res := onHeadCh s t c h (captureStart s t c h passed)

/-! ### Windows (R103, R104, R192) -/

/-- The verdict on a closed window (R192): bit i of the counts over their thresholds. -/
def windowSuspect (s : State) (t : Nat) (n : Nat → Nat) : Bool :=
  let beyond (i lim : Nat) : Bool := decide (lim ≠ 0) && decide (lim < n i)
  beyond 1 (256 * s.fld (aTile t 0x1010) 31 16) || beyond 2 (16 * s.fld (aTile t 0x1010) 15 0) ||
    beyond 3 (16 * s.fld (aTile t 0x1014) 31 16) || beyond 4 (16 * s.fld (aTile t 0x1014) 15 0) ||
    beyond 5 (s.fld (aTile t 0x1018) 15 8)

/-- A lane's window closes in one step (R104); three suspect windows in a row retire the lane (R194). -/
def closeWindow (s : State) (t l : Nat) : State :=
  let n (i : Nat) : Nat := s.fld (aLane t l (0x40 + 4 * i)) 23 0
  let bad := windowSuspect s t n
  let s := (List.range 5).foldl (fun s j => s.setReg (aLane t l (0x64 + 4 * j)) (w32 (n (j + 1)))) s
  let s := s.setReg (aLane t l 0x60) (w32 (2 ^ 24))
  let s := (List.range 6).foldl (fun s j => s.setReg (aLane t l (0x40 + 4 * j)) 0) s
  let a := aLane t l 0x7C
  let v := (s.fld a 2 0 * 2 + if bad then 1 else 0) % 8
  let s := (s.bumpF a 15 8 1).setF a 2 0 v
  let p := laneParts l
  let s := if bad then owlTile s t 0x3001 (owlUnit t p.1 p.2.1 l 0) 0 0 (s.reg a).toNat 0 else s
  let s := tileEdge s t l
  if v = 7 then retire s t 1 p.1 p.2.1 p.2.2 0x01 else s

/-- A capture for a host or prefetch read counts in WCNT[0]; the one that would bring it to 2^24 closes
the window (R103, R104). -/
def countCapture (s : State) (t l : Nat) : State :=
  if tLane s t l then s
  else if s.fld (aLane t l 0x40) 23 0 = 2 ^ 24 - 1 then closeWindow s t l
  else wcnt s t l 0

/-! ### Samples (R56, R71, R91) -/

/-- Samples that a bank holds: sector bits −64 to 37,455 (R91). -/
def bankLen : Nat := 37520

/-- Bits from the start of a capture, 64 before its sector's first, to the end of its data span (R55). -/
def spanLeft (d : Nat) (e : CapEnt) : Nat := d - (e.pos + d - 64 % d) % d

/-- The samples of a capture with the wedge spans taken out (R56). -/
def dataSamples (s : State) (t : Nat) (k : Capture) (xs : List Int) : List Int :=
  let d := dataSpan s t k.zone
  if d = 0 then xs.take bankLen else (dropWedges d (wedgeSpan s t k.zone) (xs.length / d + 1) (spanLeft d k.ent) xs).take bankLen

/-- The bank that a lane fills: samples that are missing are erased (R88, R91). -/
def fillBank (s : State) (t l : Nat) (k : Capture) (f : CapFlags) (xs : List Int) : Bank :=
  let ys := dataSamples s t k xs
  let er := erasureMarks (laneCfg s t l 3) f.asps ys.length
  ⟨some k.id, ys ++ List.replicate (bankLen - ys.length) 0, er ++ List.replicate (bankLen - ys.length) true⟩

/-- The bank of a lane that holds a capture. -/
def bankOf (s : State) (t l id : Nat) : Bank := if id / 2 ^ 30 = 0 then (s.lane t l).b0 else (s.lane t l).b1

/-- A lane's equalised samples of a capture, for a target (R81, R95). -/
def equalised (s : State) (t l : Nat) (k : Capture) (tgt : Nat) (b : Bank) : List Smp :=
  equalise (tapsFor s t l k.zone tgt) b.raw b.erased

/-- Samples at the ends of the converter's range (R78); of two captures that overlap, the 144 samples they share
count in the first (R92). -/
def clipped (k : Capture) (xs : List Int) : Nat :=
  ((if k.follows then xs.drop 144 else xs).filter fun x => decide (x ≤ -32 ∨ 31 ≤ x)).length

/-! ### Framing (R119 to R121) -/

/-- A proxy position (R120): the reader skew in bits, when it is valid and within ±128. -/
def skewBits (s : State) (t c h z : Nat) : Option Int :=
  let a := aSrv t c (0x10C + 32 * h)
  let k := divRound (sfld (s.reg a) 23 0 * zoneBits s t z) 4294967296
  if s.bit a 31 ∧ absI k ≤ 128 then some k else none

/-- A lane framed with sync A at `p`: sync B within 8 bits of its place frames the second half (R119). -/
def framedAt (w : Word) (bits : List Bool) (p : Int) (proxy : Bool) : Framing :=
  match findB bits (p + 18608) 8 (fld w 3 0) with
  | some d => ⟨some p, p + 18608 + d, proxy, if d = 0 then none else some d, true, none⟩
  | none => ⟨some p, p + 18608, proxy, none, false, none⟩

/-- Sync A in a lane's decisions, within the window and threshold of DET.SYNC (R119). -/
def ownSync (w : Word) (bits : List Bool) : Option Int := findA bits (fld w 31 24) (fld w 11 8)

/-- Framing of a lane: on its own sync A, by proxy at the place `other` that its partner's gives, or not, with
sync B's place if it is found (R119 to R121). -/
def frameLane (w : Word) (bits : List Bool) (other : Option Int) : Framing :=
  match ownSync w bits, other with
  | some p, _ => framedAt w bits p false
  | none, some q => framedAt w bits q true
  | none, none => { Framing.none with lone := (findB bits 18736 (fld w 23 16) (fld w 3 0)).map (18736 + ·) }

/-- The sector's 37,376 places in a lane's stream from bit −64 on: the first half at sync A, the second at
sync B; a shift of `d` bits moves the first half only when sync B framed the second (R119, R128). -/
def frameStream {α : Type} (f : Framing) (d : Int) (xs : List (Option α)) : List (Option α) :=
  takeAt xs (f.posA.getD 128 - 64 + d) 18736 ++ takeAt xs (f.posB + 64 + if f.fromB then 0 else d) 18640

/-! ### Detection (R111 to R116) -/

/-- Whether a reader's track can be detected jointly with its partner's (R115 row 3). -/
def sameArea (s : State) (t : Nat) (own other : Int) : Bool :=
  dataTrack s t other && decide (0 ≤ own) &&
    decide (zoneOf s t own.toNat = zoneOf s t other.toNat) && decide (isConv s t (bandOf s t own.toNat) = isConv s t (bandOf s t other.toNat))

/-- Whether reader `r`'s track of a capture is detected alone (R115): DET.JD.JOINT is 0, the partner's lane did
not capture or is not framed, or its track is no data track of the same zone and kind. -/
def alone (s : State) (t : Nat) (k : Capture) (r : Nat) : Bool :=
  let own := k.ent.low + r
  let other := k.ent.low + 1 - r
  let mate := if r = 0 then k.laneB && k.frB.posA.isSome else k.laneA && k.frA.posA.isSome
  !(k.jd.getLsbD 31) || !mate || !(sameArea s t own other)

/-- The PSA of the sector that reader `r` lies on in a capture. -/
def capPsa (t c h : Nat) (k : Capture) (r : Nat) : Nat := mkPsa t c h (k.ent.low + r).toNat k.ent.sector

/-- The channel that the detector assumes for a capture and a target (R111): the noise of each lane, which no
rule gives an estimator for, is a free value (entry 120). -/
def chanOf (s : State) (i : Nat) (k : Capture) (g : List Int) : Chan :=
  let q := Tab.at (0, 0) (s.head i).kappa k.zone
  ⟨g, g, q.1, q.2, 1 + s.freeVal.toNat, 1 + s.took.freeVal.toNat⟩

/-- Observations of a run of sector bits, with bits of either track that are known. -/
def obsRun (xa xb : List Smp) (fa fb : List (Option Bool)) : List Obs :=
  List.zipWith (fun (x : Smp × Smp) (f : Option Bool × Option Bool) => ⟨x.1, x.2, f.1, f.2⟩) (List.zip xa xb) (List.zip fa fb)

/-- No bit known. -/
def noFix (n : Nat) : List (Option Bool) := List.replicate n none

/-- Soft values of reader `r`'s track as they stand on the media: jointly, or from its own lane alone. -/
def softTrack (ch : Chan) (r : Nat) (single : Bool) (xa xb : List Smp) (fa fb : List (Option Bool)) : List Int :=
  if single then (if r = 0 then softSolo ch.ga ch.va xa else softSolo ch.gb ch.vb xb)
  else softJoint ch r (obsRun xa xb fa fb)

/-- The 37,120 soft values of a codeword, descrambled (R116). -/
def softWord (psa : Nat) (media : List Int) : List Int := descramble psa (codewordOf media)

/-! ### Updates and gain (R78, R85, R114) -/

/-- The error of each sample against the decisions of both tracks, in 1/512: what the channel gives for them less
the sample (R111); `kq` couples the partner's. -/
def errors (g : List Int) (kq : Int) (own other : List Bool) (xs : List Smp) : List (Option Int) :=
  let a := targetRun g false false false own
  let b := targetRun g false false false (if other = [] then own.map fun _ => false else other)
  let k := if other = [] then 0 else kq
  List.zipWith (fun (p : Int × Int) (x : Smp) => x.map fun y => 256 * p.1 + k * p.2 - 512 * y) (List.zip a b) xs

/-- Sums of error times regressor over the samples that are there. -/
def updateSums (n : Nat) (rs : List (Option (List Int))) (es : List (Option Int)) : List Int :=
  lmsSums n ((List.zip rs es).filterMap fun p =>
    match p.1, p.2 with
    | some x, some e => some (x, e)
    | _, _ => none)

/-- What the gain loop takes from a capture in 2^−14 steps (R78): on the preamble of an acquisition, each four
samples' peak against TARGET, and in data each sample against its decision; a shift of 15 holds. -/
def gainMove (agc : Word) (acq : Bool) (raw : List Int) (es : List (Option Int)) (xs : List Smp) : Int :=
  let up (k : Nat) (e : Int) : Int := if k = 15 then 0 else e * 2 ^ 14 / 2 ^ k
  let peak (j : Nat) : Nat := ((raw.drop (96 + 4 * j)).take 4).foldl (fun m x => max m (absI x)) 0
  let pat := (List.range 16).foldl (fun (a : Int) j => a + up (fld agc 23 20) ((fld agc 31 27 : Nat) - (peak j : Nat))) 0
  let dat := (List.zip es xs).foldl
    (fun (a : Int) p =>
      match p.1, p.2 with
      | some e, some y => a + up (fld agc 19 16) (divRound (if y < 0 then -e else e) 512)
      | _, _ => a) 0
  (if acq then pat else 0) + dat

/-- LANE.GAIN follows the loop, 0 to 288 (R71, R108). -/
def moveGain (s : State) (t l : Nat) (d : Int) : State :=
  let g := clampI 0 (288 * 2 ^ 14) ((s.lane t l).gain + d)
  (s.modLane t l fun x => { x with gain := g }).setF (aLane t l 0x10) 8 0 (g / 2 ^ 14).toNat

/-- A lane's loops and its gathered update at the end of a capture: taps of target 0 of a trained zone adapt
while MU is not 0 (R85). -/
def adaptLane (s : State) (t l : Nat) (k : Capture) (f : CapFlags) (fr : Framing) (b : Bank) (es : List (Option Int))
    (xs : List Smp) : State :=
  let s := moveGain s t l (gainMove (laneCfg s t l 1) f.acq b.raw es xs)
  let mu := fld (laneCfg s t l 4) 28 24
  if mu = 0 ∨ k.ent.target ≠ 0 ∨ !(eqValid s t l k.zone) then s
  else
    let rs := frameStream fr 0 ((regressors b.raw).map some)
    s.modLane t l fun x => { x with gathered := gather x.gathered ⟨k.id, k.zone, updateSums 16 rs es, mu, 1⟩ }

/-! ### The end of a capture (R103, R104, R113, R119 to R121, R192) -/

/-- The result of one track is noted on its held capture. -/
def noteTrack (s : State) (t c h r id : Nat) (v : TrackRes) : State :=
  s.modHead (headIdx t c h) fun x =>
    { x with held := x.held.map fun k =>
        if k.id = id then (if r = 0 then { k with resA := v } else { k with resB := v }) else k }

/-- The FLAGS byte of a lane's codeword (R117). -/
def capFlags (f : CapFlags) (fr : Framing) (single stored : Bool) : Nat :=
  (if f.ta then 128 else 0) + (if f.longta then 64 else 0) + (if f.lockloss then 32 else 0) +
    (if single then 16 else 0) + (if fr.proxy then 8 else 0) + (if fr.slip.isSome then 4 else 0) + (if stored then 2 else 0)

/-- A live result without a decode: SYNCMISS, GONE or ABSENT; its decoder entry is freed (R121, R131). It is no
live codeword, so DET.L0FAIL does not count it (DESIGN CHOICE, entry 127). -/
def liveEnd (s : State) (t : Nat) (w : Want) (e : DecEnt) (st : DecSt) : State :=
  pushRes (s.modDet t fun d => { d with decRes := d.decRes - 1 }) t ⟨.live w, descriptor e, e.lane, e.capid, st, [], 0, 0, 0⟩

/-- One track of a capture at its end: ABSENT, without framing, or an entry of the decoder queue. -/
def endTrack (s : State) (t c h r : Nat) (w : Want) (k : Capture) (single : Bool) : State :=
  let l := laneOf c h r
  let f := if r = 0 then k.flA else k.flB
  let fr := if r = 0 then k.frA else k.frB
  let e : DecEnt :=
    ⟨w.req.psa, l, k.ent.target, k.zone, capFlags f fr single false, fr.slip.getD 0, s.fld (aDet t 8) 31 26, 0, k.id,
      if r = 0 then k.softA else k.softB⟩
  if !(if r = 0 then k.laneA else k.laneB) then liveEnd (noteTrack s t c h r k.id .bad) t w { e with soft := [] } .absent
  else if fr.posA.isNone then
    let p := pinCapture (noteTrack s t c h r k.id .bad) t c h k.id
    liveEnd p.1 t w { e with soft := [] } (if p.2 then .syncmiss else .gone)
  else
    let s := s.modDet t fun d => { d with decQ := d.decQ ++ [⟨e, .live w⟩], decRes := d.decRes - 1 }
    s.setF (aTile t 0x30) 15 0 (max (s.det t).decQ.length (s.fld (aTile t 0x30) 15 0))

/-- The counters of a capture that has ended (R103, R119 to R121). Two lanes that slip in one capture add 1 to
DET.SLIP, which R137 has count captures (DESIGN CHOICE, entry 127). -/
def countEnd (s : State) (t c h : Nat) (k : Capture) : State :=
  let la := laneOf c h 0
  let lb := laneOf c h 1
  let host := (entWants k.ent).any fun w => forHub w.req.kind || w.req.kind == .verify
  let s := if host ∧ k.laneA then countCapture s t la else s
  let s := if host ∧ k.laneB then countCapture s t lb else s
  let miss (s : State) (l : Nat) (fr : Framing) : State :=
    if fr.posA.isNone then wcnt (wcnt s t l 1) t l 2 else if fr.proxy then wcnt s t l 2 else s
  let s := if k.laneA then miss s la k.frA else s
  let s := if k.laneB then miss s lb k.frB else s
  let s := if k.frA.proxy ∨ k.frB.proxy then s.bump (aDet t 0x108) else s
  let s := if k.frA.slip.isSome ∨ k.frB.slip.isSome then s.bump (aDet t 0x104) else s
  if (k.frA.posA.isSome ∧ alone s t k 0) ∨ (k.frB.posA.isSome ∧ alone s t k 1) then s.bump (aDet t 0x100) else s

/-- A lane at the end of a capture: with another one due it goes on, else it waits (R96), or sleeps (R97). -/
def endLane (s : State) (t l : Nat) (more : Bool) : State :=
  let st := laneSt s t l
  if !(st = 4 ∨ st = 5 ∨ st = 6) then s
  else if more ∧ !(s.bit (aLane t l 0) 0) then (if st = 4 then setLaneSt s t l 5 else s)
  else idleLane (s.modLane t l fun x => { x with wedge := false }) t l

/-- A bank is filled, and the clipped samples counted. -/
def storeLane (s : State) (t l : Nat) (k : Capture) (b : Bank) (xs : List Int) : State :=
  let s := s.modLane t l fun x => if k.id / 2 ^ 30 = 0 then { x with b0 := b } else { x with b1 := b }
  s.bump (aLane t l 0x84) (clipped k (dataSamples s t k xs))

/-- The framing of a capture from both lanes' hard decisions (R119, R120). -/
def frameCapture (s : State) (t c h : Nat) (k : Capture) (ya yb : List Smp) : Capture :=
  let g := targetOf s t k.zone k.ent.target
  let ba := hardBits g ya
  let bb := hardBits g yb
  let skew := skewBits s t c h k.zone
  let fromB : Option Int := if k.laneB then (match ownSync k.sync bb, skew with | some p, some d => some (p - d) | _, _ => none) else none
  let fromA : Option Int := if k.laneA then (match ownSync k.sync ba, skew with | some p, some d => some (p + d) | _, _ => none) else none
  { k with frA := if k.laneA then frameLane k.sync ba fromB else Framing.none
           frB := if k.laneB then frameLane k.sync bb fromA else Framing.none }

/-- The detection of a capture at its end: soft values of both tracks on the media, and their errors. -/
structure Live where
  xa : List Smp
  xb : List Smp
  ma : List Int
  mb : List Int
  deriving DecidableEq, Repr

/-- Both tracks of a framed capture are detected (R111 to R116); an unframed lane gives nothing. -/
def detectLive (s : State) (t : Nat) (k : Capture) (ch : Chan) (ya yb : List Smp) : Live :=
  let xa := frameStream k.frA 0 ya
  let xb := frameStream k.frB 0 yb
  let n := noFix 37376
  ⟨xa, xb, if k.frA.posA.isSome then softTrack ch 0 (alone s t k 0) xa xb n n else [],
    if k.frB.posA.isSome then softTrack ch 1 (alone s t k 1) xa xb n n else []⟩

/-- The coupling update that a jointly detected capture gathers while XMU is not 0 (R114). -/
def adaptKappa (s : State) (t i : Nat) (k : Capture) (g : List Int) (da db : List Bool) (ea eb : List (Option Int)) : State :=
  let xmu := fld k.jd 12 8
  if xmu = 0 ∨ alone s t k 0 ∨ alone s t k 1 then s
  else
    let reg (bs : List Bool) : List (Option (List Int)) := (targetRun g false false false bs).map fun v => some [v]
    let neg (es : List (Option Int)) : List (Option Int) := es.map fun e => e.map fun v => -v
    let sums := updateSums 1 (reg db) (neg ea) ++ updateSums 1 (reg da) (neg eb)
    s.modHead i fun x => { x with kGather := gather x.kGather ⟨k.id, k.zone, sums, xmu, (entWants k.ent).length⟩ }

/-- The calibration of a cluster that is under way. -/
def calJob (s : State) (t c : Nat) : CalJob := Tab.at CalJob.none s.tl.calib (4 * t + c)

/-- A head's lag is measured (R159): the offset of sync A from its place, in bits of the zone, corrects HGAP,
rounded; a lag out of range leaves the writer unusable and retires it (R146, R194). A sector that reader A does
not frame measures nothing (DESIGN CHOICE, entry 128). -/
def measureLag (s : State) (t c h : Nat) (k : Capture) : State :=
  let mine := (entWants k.ent).any fun w => w.req.kind == .system
  match k.frA.posA with
  | none => s
  | some p =>
    if !mine ∨ (calJob s t c).step ≠ 4 ∨ k.frA.proxy then s
    else
      let a := aWrtC t c (0x100 + 16 * h)
      let v := ((s.reg a).toNat : Int) + divRound ((p - 128) * (2 ^ 32 : Nat)) (zoneBits s t k.zone)
      if 0 ≤ v ∧ v ≤ 131072 then s.setReg a (w32 v.toNat)
      else retire (s.setB (aWrtC t c (0x10C + 16 * h)) 0 true) t 2 c h 0 0x06

/-- CAPTURE_END's effect on the oldest capture in progress: `a` and `b` are the raw samples of the two lanes from
sector bit −64 on, wedge spans included. A lane retired meanwhile gives none (R100). -/
def captureEnd (s : State) (t c h : Nat) (a b : List Int) : State :=
  let i := headIdx t c h
  let x := s.head i
  match x.curs with
  | [] => s
  | k0 :: rest =>
    let la := laneOf c h 0
    let lb := laneOf c h 1
    let k1 : Capture := { k0 with laneA := k0.laneA && !(tLane s t la), laneB := k0.laneB && !(tLane s t lb) }
    let bankA := fillBank s t la k1 k1.flA a
    let bankB := fillBank s t lb k1 k1.flB b
    let ya := if k1.laneA then equalised s t la k1 k1.ent.target bankA else []
    let yb := if k1.laneB then equalised s t lb k1 k1.ent.target bankB else []
    let k2 := frameCapture s t c h k1 ya yb
    let g := targetOf s t k2.zone k2.ent.target
    let ch := chanOf s i k2 g
    let d := detectLive s t k2 ch ya yb
    let da := d.ma.map fun v => decide (v < 0)
    let db := d.mb.map fun v => decide (v < 0)
    let ea := errors g ch.ka da (if alone s t k2 0 then [] else db) d.xa
    let eb := errors g ch.kb db (if alone s t k2 1 then [] else da) d.xb
    let k : Capture :=
      { k2 with softA := softWord (capPsa t c h k2 0) d.ma, softB := softWord (capPsa t c h k2 1) d.mb
                edgeB := k2.frA.posA.isNone && k2.frB.posA.isSome }
    let s := s.took.took.setHead i { x with curs := rest, held := k :: x.held, align := (dataSamples s t k b).drop (bankLen - 256) }
    let s := if k.laneA then storeLane s t la k bankA a else s
    let s := if k.laneB then storeLane s t lb k bankB b else s
    let s := if k.frA.posA.isSome then adaptLane s t la k k.flA k.frA bankA ea d.xa else s
    let s := if k.frB.posA.isSome then adaptLane s t lb k k.flB k.frB bankB eb d.xb else s
    let s := adaptKappa s t i k g da db ea eb
    let s := measureLag (countEnd s t c h k) t c h k
    -- the codewords
    let s := match k.ent.a with | some w => endTrack s t c h 0 w k (alone s t k 0) | none => s
    let s := match k.ent.b with | some w => endTrack s t c h 1 w k (alone s t k 1) | none => s
    let more := decide (rest ≠ []) || decide (x.capQ ≠ [])
    fillCap (headGo (endLane (endLane s t la more) t lb more) t c h) t c h

/-- CAPTURE_END. -/
def execCaptureEnd (t c h : Nat) (a b : List Int) (s : State) : Res := onHeadCh s t c h (captureEnd s t c h a b)

end Sys2Proof.Machine
end

