-- ==== Sys2Proof/Machine/Detect.lean ====
section
/-! DEFINITION. The decoder pool, the formatter's check and the operations on stored samples (R117 to
R134): engines and their order, results, pins, adaptation verdicts, and what the ladder learns. -/

namespace Sys2Proof.Machine

/-! ### Adaptation verdicts (R85, R114) -/

/-- A capture's gathered tap update has its verdict: it applies at the next acquisition, or is discarded. -/
def tapVerdict (x : LaneX) (id : Nat) (good : Bool) : LaneX :=
  let mine := x.gathered.filter fun u => decide (u.cap = id)
  { x with
    gathered := x.gathered.filter fun u => decide (u.cap ≠ id)
    ready := if good then x.ready ++ mine else x.ready }

/-- The same for its coupling update, which needs every codeword that was requested of the capture. -/
def kappaVerdict (x : HeadX) (id : Nat) (good : Bool) : HeadX :=
  let mine := x.kGather.filter fun u => decide (u.cap = id)
  let rest := x.kGather.filter fun u => decide (u.cap ≠ id)
  if !good then { x with kGather := rest }
  else if mine.any fun u => decide (1 < u.left) then
    { x with kGather := x.kGather.map fun u => if u.cap = id then { u with left := u.left - 1 } else u }
  else { x with kGather := rest, kReady := x.kReady ++ mine }

/-- The verdict on one codeword of a capture: decoded at L0 and passed by R64, or not. -/
def verdict (s : State) (t c h r id : Nat) (good : Bool) : State :=
  (s.modLane t (laneOf c h r) fun x => tapVerdict x id good).modHead (headIdx t c h) fun x => kappaVerdict x id good

/-! ### The order of work (R129, R134) -/

/-- A place in the round of clusters and, within a cluster, of heads, after those served last (R129): `rr` is
the cluster served last and the head of each cluster served last. -/
def rrPlace (rr : List Nat) (i : Nat) : Nat :=
  let c := i % 96 / 24
  let h := i % 24
  (c + 3 - nth 0 rr 0) % 4 * 24 + (h + 23 - nth 0 rr (c + 1)) % 24

/-- The order after head `i` has been served. -/
def rrServed (rr : List Nat) (i : Nat) : List Nat := setNth (setNth rr 0 (i % 96 / 24)) (i % 96 / 24 + 1) (i % 24)

/-- The first of a list in round-robin order of the heads its entries name. -/
def rrPick {α : Type} (rr : List Nat) (hd : α → Nat) (l : List α) : Option α :=
  l.foldl
    (fun b x =>
      match b with
      | none => some x
      | some y => if rrPlace rr (hd x) < rrPlace rr (hd y) then some x else b) none

/-- The head whose stored samples a job decodes; nothing for a live codeword. -/
def jobHead (j : Job) : Nat :=
  match j.dst with
  | .stored q _ => q.head
  | .ended q => q.head
  | .live _ => 0

/-- Whether a codeword comes from stored samples. -/
def isStored (j : Job) : Bool :=
  match j.dst with
  | .live _ => false
  | _ => true

/-- An engine. -/
def DetX.eng (d : DetX) (k : Nat) : DecEng := Tab.at DecEng.idle d.engs k

/-- The detector with an engine replaced. -/
def DetX.setEng (d : DetX) (k : Nat) (x : DecEng) : DetX := { d with engs := Tab.to DecEng.idle d.engs k x }

/-- Engines at work on stored codewords, of all clusters or of one. -/
def storedEngs (d : DetX) (c : Option Nat) : Nat :=
  ((List.range 32).filter fun k =>
    match (d.eng k).cur with
    | some j => isStored j && (match c with | some c => decide (jobHead j % 96 / 24 = c) | none => true)
    | none => false).length

/-- The next live codeword goes to an idle engine, or to the second input buffer of a busy one (R124, R129);
the limit is DET.POOL's at the assignment (R137). -/
def giveLive (pool : Word) (d : DetX) : DetX :=
  match d.decQ with
  | [] => d
  | j :: rest =>
    let j : Job := { j with ent := { j.ent with itmax := fld pool 31 26 } }
    match (List.range 32).find? fun k => decide ((d.eng k).cur = none) with
    | some k => { (d.setEng k { d.eng k with cur := some j }) with decQ := rest }
    | none =>
      match (List.range 32).find? fun k => decide ((d.eng k).nxt = none) with
      | some k => { (d.setEng k { d.eng k with nxt := some j }) with decQ := rest }
      | none => d

/-- The next stored codeword goes to an idle engine, within STMAX, GATE and CLMAX (R129). -/
def giveStored (pool : Word) (d : DetX) : DetX :=
  let fits (j : Job) : Bool := decide (storedEngs d (some (jobHead j % 96 / 24)) < fld pool 4 0)
  if fld pool 23 19 ≤ storedEngs d none ∨ fld pool 15 8 ≤ d.decQ.length then d
  else
    match rrPick d.rrJob jobHead (d.stQ.filter fits), (List.range 32).find? fun k => decide ((d.eng k).cur = none) with
    | some j, some k =>
      { (d.setEng k { d.eng k with cur := some j }) with stQ := d.stQ.erase j, rrJob := rrServed d.rrJob (jobHead j) }
    | _, _ => d

/-- A request goes to a stored-sample detector that has none (R129). -/
def giveOp (d : DetX) : DetX :=
  if 2 ≤ d.ops.length then d
  else
    match rrPick d.rrOp (fun q => q.head) d.hist with
    | none => d
    | some q => { d with hist := d.hist.erase q, ops := d.ops ++ [⟨q, 0, none⟩], rrOp := rrServed d.rrOp q.head }

/-- Requests on the history request queue that hold a credit of its 16 (R134): a credit returns when the
operation completes. -/
def histUsed (d : DetX) : Nat := d.hist.length + d.ops.length

/-- `n` times a change of the detector. -/
def repeatDet (n : Nat) (f : DetX → DetX) (d : DetX) : DetX := (List.range n).foldl (fun d _ => f d) d

/-- What waits in the detector and the pool goes on while there is room (R23, R129, R134). -/
def pumpDet (pool : Word) (d : DetX) : DetX :=
  let n := 32 - d.poolOut.length
  let d := { d with poolOut := d.poolOut ++ d.late.take n, late := d.late.drop n }
  repeatDet 32 (giveStored pool) (repeatDet 64 (giveLive pool) (repeatDet 2 giveOp d))

/-- The same for a tile. -/
def detPump (s : State) (t : Nat) : State := s.modDet t (pumpDet (s.reg (aDet t 8)))

/-! ### Decodes (R124, R131, R132) -/

/-- The result entry of a decode (R131): the decoded bits only when it converged. -/
def decodeRes (j : Job) (r : Decoded) : PoolRes :=
  ⟨j.dst, descriptor j.ent, j.ent.lane, j.ent.capid, if r.conv then .conv else .fail,
    if r.conv then bitsBytes 4176 r.bits else [], r.iters, changedBits j.ent.soft r.bits, r.weight⟩

/-- What a live decode counts (R85, R122, R132): a failed one pins its capture, unless an earlier pin stands. -/
def liveDecoded (s : State) (t : Nat) (j : Job) (r : Decoded) : State :=
  let p := laneParts j.ent.lane
  if r.conv then
    noteTrack (s.bump (aDet t (0x200 + 4 * (r.iters - 1)))) t p.1 p.2.1 p.2.2 j.ent.capid (.conv r.bits false)
  else
    let s := noteTrack s t p.1 p.2.1 p.2.2 j.ent.capid .bad
    let s := (wcnt s t j.ent.lane 1).bump (aDet t 0x110)
    let s := verdict s t p.1 p.2.1 p.2.2 j.ent.capid false
    (pinCapture s t p.1 p.2.1 j.ent.capid).1

/-- What a stored decode counts (R132). -/
def storedDecoded (s : State) (t : Nat) (j : Job) (r : Decoded) : State :=
  let p := laneParts j.ent.lane
  if r.conv then noteTrack (s.bump (aDet t 0x114)) t p.1 p.2.1 p.2.2 j.ent.capid (.conv r.bits false)
  else s.bump (aDet t 0x118)

/-- DECODE_RESULT's effect: engine `k` ends its codeword and goes on with its next; one with a result and no
place for it waits (R134). -/
def decodeResult (s : State) (t k : Nat) : State :=
  let s := detPump s t
  let d := s.det t
  match (d.eng k).cur with
  | none => s
  | some j =>
    if 32 ≤ d.poolOut.length ∨ d.late ≠ [] then s
    else
      let r := decodeSoft j.ent.itmax j.ent.soft
      let s := s.setDet t (d.setEng k ⟨(d.eng k).nxt, none⟩)
      let s := pushRes s t (decodeRes j r)
      detPump (if isStored j then storedDecoded s t j r else liveDecoded s t j r) t

/-- DECODE_RESULT: `job` is the engine, 0 to 31. -/
def execDecodeResult (t job : Nat) (s : State) : Res := onTileCh s t (decodeResult s t job)

/-! ### The formatter (R20 step 10, R64, R131, R179) -/

/-- The 4,176-byte information word splits into its header and the rest. -/
def wordHeader (info : Payload) : Payload := info.take 16
/-- The user data and metadata of an information word. -/
def wordBody (info : Payload) : Payload := info.drop 16

/-- Whether an information word passes R64 for a request. -/
def wordOk (s : State) (w : Want) (info : Payload) : Bool :=
  headerOk s w.req.psa (w.req.kind == .system) (wordHeader info)

/-- Whether a context has had this word rejected by the tag check (R179). -/
def wasRejected (x : Ctx) (info : Payload) : Bool := x.rejected.contains (crc32c info)

/-- What a context learns of a result (R173): its word if it can be accepted, its weight otherwise. -/
def ctxLearns (x : Ctx) (ok : Bool) (info : Payload) (weight : Nat) : Ctx :=
  if ok then { x with good := some info }
  else
    { x with
      good := none
      best := match x.best with
        | none => some (weight, x.offset)
        | some (w, o) => if weight < w then some (weight, x.offset) else some (w, o) }

/-- The sector descriptor's entry on the outbound queue (R20 step 10, R188). -/
def outEntry (w : Want) (info : Payload) (capid : Nat) : OutSec :=
  ⟨w.req.psa, w.req, wordBody info, headerBlank (wordHeader info), crc32c info, none, capid, w.ctx⟩

/-- An accepted word goes on to the hub (R20 step 11): a partner's is kept by its write too, until the cipher
engine has authenticated it (R150 step 3). -/
def sendWord (s : State) (t : Nat) (w : Want) (info : Payload) (capid : Nat) : State :=
  let s := if w.req.kind = .partner then setPartner s w.req.psa (.decoded info) else s
  if forHub w.req.kind ∨ w.req.kind = .partner then pushOut s t (outEntry w info capid) else s

/-- A result word of HRES and RRES (R290). -/
def resWord (st : DecSt) (hdrOk : Bool) (iters weight : Nat) : Word :=
  place 31 28 st.code ||| place 27 27 (if hdrOk then 1 else 0) ||| place 26 21 iters ||| place 15 0 weight

/-- The index of a sector's entry to the ladder by the status of its live result (R174). -/
def entryIndex (st : DecSt) : Nat :=
  match st with
  | .conv => 1
  | .syncmiss => 2
  | .gone => 3
  | .absent => 4
  | _ => 0

/-- Whether a capture is the one that its head has pinned. -/
def isPinned (s : State) (t lane id : Nat) : Bool :=
  let p := laneParts lane
  match (s.head (headIdx t p.1 p.2.1)).pin with
  | some (k, _) => decide (k = id)
  | none => false

/-- A capture that failed is pinned, unless an earlier pin stands; then its sector goes on as GONE (R122). -/
def pinFailed (s : State) (t : Nat) (r : PoolRes) : State × DecSt :=
  let p := laneParts r.lane
  let s := if r.st = .conv then (pinCapture s t p.1 p.2.1 r.capid).1 else s
  (s, if r.st = .absent ∨ r.st = .gone ∨ isPinned s t r.lane r.capid then r.st else .gone)

/-- The word of a failed live result. -/
def failWord (r : PoolRes) (st : DecSt) (again : Bool) : Word :=
  if st = .fail ∨ st = .conv then resWord (if again then .fail else st) false r.iters r.weight else resWord st false 0 0

/-- A failed live result on its way to the ladder (R122, R174). -/
def liveFails (s : State) (t : Nat) (w : Want) (r : PoolRes) : State :=
  let p := pinFailed s t r
  let cap := if p.2 = .gone ∨ p.2 = .absent then none else some r.capid
  p.1.modDet t fun d => { d with ladQ := d.ladQ ++ [⟨entryIndex p.2, w, cap, failWord r p.2 false⟩] }

/-- A re-read's live result is known to its context (R178). -/
def rereadResult (s : State) (t i : Nat) (w : Want) (r : PoolRes) : State :=
  let x := s.ctx t i
  if !x.live then s
  else
    let again := decide (r.st = .conv) && wasRejected x r.info
    let ok := decide (r.st = .conv) && wordOk s w r.info && !again
    if ok then
      s.modCtx t i fun x =>
        let y := ctxLearns x true r.info r.weight
        { y with capid := none, results := y.results ++ [(1, resWord .conv true r.iters r.weight)] }
    else
      let p := pinFailed s t r
      let cap := if p.2 = .gone ∨ p.2 = .absent then none else some r.capid
      p.1.modCtx t i fun x =>
        let y := if r.st = .conv ∨ r.st = .fail then ctxLearns x false r.info r.weight else { x with good := none }
        { y with capid := cap, results := y.results ++ [(1, failWord r p.2 again)] }

/-- A written sector that was read back (R154): WRITTEN, or rewritten and counted under R152; one whose key has
been erased meanwhile is not (R156). -/
def verified (s : State) (t : Nat) (w : Want) (good : Bool) : State :=
  let i := headIdx t (psaCluster w.req.psa) (psaHead w.req.psa)
  match (s.headW i).verifying.find? fun e => decide (e.psa = w.req.psa) with
  | none => s
  | some e =>
    let s := s.modHeadW i fun y => { y with verifying := y.verifying.erase e }
    if good then finishWrite s t e .written
    else if e.discard then finishWrite s t e .skipped
    else if e.tries < s.fld (aWrt t 0) 23 20 then
      let e : WrEnt := { e with tries := e.tries + 1, begun := false, done := 0, late := false }
      (s.modWr t fun y => { y with inQ := e :: y.inQ }).bump (aWrt t 0x14)
    else finishWrite s t e .wfail

/-- Whether a word that was read back is the one written: it passes R64, or is the marker that stands there,
which no R64 check passes (R150, R154; DESIGN CHOICE, entry 127). -/
def verifyOk (s : State) (t : Nat) (w : Want) (info : Payload) : Bool :=
  let i := headIdx t (psaCluster w.req.psa) (psaHead w.req.psa)
  wordOk s w info || ((s.headW i).verifying.any fun e => decide (e.psa = w.req.psa) && decide (e.kind = .marker)) &&
    decide (wordHeader info = markerHeader w.req.psa)

/-- A live result at the formatter. -/
def liveResult (s : State) (t : Nat) (w : Want) (r : PoolRes) : State :=
  let p := laneParts r.lane
  let s := if needOut w then s.modDet t fun d => { d with outRes := d.outRes - 1 } else s
  let conv := decide (r.st = .conv)
  let hdr := conv && wordOk s w r.info
  let s := if conv && !hdr then wcnt s t r.lane 3 else s
  let s := if conv then verdict s t p.1 p.2.1 p.2.2 r.capid hdr else s
  match w.ctx with
  | some i => rereadResult s t i w r
  | none =>
    if w.req.kind = .verify then verified s t w (conv && verifyOk s t w r.info)
    else if hdr then sendWord s t w r.info r.capid
    else liveFails s t w r

/-- A result of class 0, HRES, for a context that is open (R290). -/
def tellCtx (s : State) (t i : Nat) (w : Word) : State :=
  if i < 256 ∧ (s.ctx t i).live then s.modCtx t i fun x => { x with results := x.results ++ [(0, w)] } else s

/-- Whether the operation of a result has to go on: REALIGN with offsets left after a result that is not good,
PARTNER once the partner has been decoded (R126). -/
def opGoesOn (o : HistOp) (own good conv : Bool) : Bool :=
  if o.req.op = 3 then !good && (match o.offs with | some (_ :: _) => true | _ => false)
  else if o.req.op = 4 then !own && conv
  else false

/-- The result of a stored decode at the formatter (R131): the operation goes on or completes, and its context
learns of its own track. A failed decode of the partner completes PARTNER with FAIL. -/
def storedResult (s : State) (t : Nat) (q : HistReq) (own : Bool) (r : PoolRes) : State :=
  match (s.det t).ops.find? fun o => decide (o.req = q) with
  | none => s
  | some o =>
    let x := s.ctx t q.ctx
    let conv := decide (r.st = .conv)
    let again := conv && own && wasRejected x r.info
    let ok := conv && own && wordOk s x.want r.info && !again
    let on := opGoesOn o own ok conv
    let upd (f : HistOp → HistOp) (s : State) : State :=
      s.modDet t fun d => { d with ops := d.ops.map fun p => if p.req = q then f p else p }
    let s := upd (fun p => { p with left := p.left - 1 }) s
    let s := if on ∨ 1 < o.left then s else opDone s t q
    let s := if own ∧ q.ctx < 256 ∧ x.live then s.modCtx t q.ctx fun y => ctxLearns y ok r.info r.weight else s
    if on then s else tellCtx s t q.ctx (resWord (if again then .fail else r.st) ok r.iters r.weight)

/-- FORMATTER_RESULT's effect on the first result of the pool output queue. -/
def formatterResult (s : State) (t : Nat) : State :=
  let d := s.det t
  match d.poolOut with
  | [] => detPump s t
  | r :: rest =>
    let s := s.setDet t { d with poolOut := rest }
    let s :=
      match r.dst with
      | .live w => liveResult s t w r
      | .stored q own => storedResult s t q own r
      | .ended q => tellCtx s t q.ctx (resWord r.st false 0 0)
    fillOut (detPump s t) t

/-- FORMATTER_RESULT. -/
def execFormatterResult (t : Nat) (s : State) : Res := onTileCh s t (formatterResult s t)

/-! ### The way to the hub (R20 step 11, R29, R30) -/

/-- SECTOR_SEND: the first outbound sector crosses on the data channel to the cipher input queue of its tile, with
a place there and its credits, and its request's completion on the response channel (R30). A drop takes what a
good sector takes (R26). -/
def sectorSend (s : State) (t : Nat) : State :=
  let d := s.det t
  match d.outQ with
  | [] => s
  | o :: rest =>
    let q := Tab.at [] s.buf.cipherIn t
    if hubHears s t ∧ q.length < 32 ∧ hasCredits s t 1 2 sectorFlits ∧ hasCredits s t 1 3 1 then
      let s := sendFlits (s.setDet t { d with outQ := rest }) t 1 2 sectorFlits (o.body ++ beBytes 6 o.psa)
      let s := fillOut (crossAtOnce s t 1 3 (beBytes 6 o.psa)) t
      let e : Sector := ⟨o.psa, o.req, o.body, o.blank, o.drop, o.crc, o.ctx⟩
      { s with buf := { s.buf with cipherIn := Tab.to [] s.buf.cipherIn t (q ++ [e]) } }
    else s

/-- SECTOR_SEND. -/
def execSectorSend (t : Nat) (s : State) : Res := onTileCh s t (sectorSend s t)

/-! ### Pins end by time (R122, R123) -/

/-- Contexts lose the capture whose pin has ended. -/
def forgetCap (s : State) (t c h id : Nat) : State :=
  (openCtxs s t).foldl
    (fun s e =>
      let p := e.2.want.req.psa
      if e.2.capid = some id ∧ psaCluster p = c ∧ psaHead p = h then
        s.modCtx t e.1 fun x => { x with capid := none } else s) s

/-- PIN_EXPIRE. -/
def pinExpire (s : State) (t c h : Nat) : State :=
  match (s.head (headIdx t c h)).pin with
  | none => s
  | some (id, at_) =>
    if s.now < at_ + us (s.fld (aDet t 0xC) 15 0) then s
    else tileEdge ((forgetCap (endPin s t c h) t c h id).bump (aDet t 0x11C)) t 240

/-- PIN_EXPIRE. -/
def execPinExpire (t c h : Nat) (s : State) : Res := onHeadCh s t c h (pinExpire s t c h)

/-! ### Operations on stored samples (R95, R126 to R128) -/

/-- The first operation of a kind that a stored-sample detector is to work on. -/
def opFirst (s : State) (t op : Nat) : Option HistOp :=
  (s.det t).ops.find? fun o => decide (o.req.op = op) && decide (o.left = 0)

/-- The held capture of a request, if its banks are pinned. -/
def opCapture (s : State) (q : HistReq) : Option Capture :=
  let hd := s.head q.head
  match q.capid, hd.pin with
  | some id, some (p, _) => if id = p then hd.held.find? fun k => decide (k.id = id) else none
  | _, _ => none

/-- Whether reader B read a context's own track. -/
def ctxOnB (s : State) (t i : Nat) (k : Capture) : Bool :=
  decide (((psaTrack (s.ctx t i).want.req.psa : Nat) : Int) ≠ k.ent.low)

/-- Whether an operation is on reader B's track: the named one, or the sector's own. -/
def opOnB (s : State) (t : Nat) (q : HistReq) (k : Capture) : Bool :=
  if q.track = 1 then false else if q.track = 2 then true else ctxOnB s t q.ctx k

/-- The readers whose tracks an operation names: 0 reader A, 1 reader B. -/
def opReaders (s : State) (t : Nat) (q : HistReq) (k : Capture) : List Nat :=
  if q.track = 3 then [0, 1] else [if opOnB s t q k then 1 else 0]

/-- Whether a request's target and limit are in range: the target is present in the capture's zone (R290). -/
def opRange (s : State) (t : Nat) (q : HistReq) (k : Capture) : Bool :=
  decide (q.limit ≤ 40) && decide (q.target < 5) && (decide (q.target = 0) || targetPresent s t k.zone q.target)

/-- The cluster and head of a request. -/
def opHead (q : HistReq) : Nat × Nat := (q.head % 96 / 24, q.head % 24)

/-- The latest detection of a track is kept on the held capture (R126 SAVE). -/
def noteSoft (s : State) (i id r : Nat) (soft : List Int) : State :=
  s.modHead i fun x =>
    { x with held := x.held.map fun y => if y.id = id then (if r = 0 then { y with softA := soft } else { y with softB := soft }) else y }

/-- A request is worked on: GONE without its pinned capture, BADREQ out of range, else the operation. Without
the capture its fields are not looked at (DESIGN CHOICE, entry 127). -/
def storedOp (s : State) (t op : Nat) (bad : HistReq → Bool) (f : State → HistReq → Capture → State) : State :=
  let s := detPump s t
  match opFirst s t op with
  | none => s
  | some o =>
    match opCapture s o.req with
    | none => detPump (endOp s t o.req .gone) t
    | some k =>
      detPump (if bad o.req ∨ !(opRange s t o.req k) then endOp s t o.req .badreq else f s o.req k) t

/-- The track's lane was retired: the operation completes with ABSENT (R131). -/
def laneGone (k : Capture) (r : Nat) : Bool := !(if r = 0 then k.laneA else k.laneB)

/-- Units of sample histories as an operation reads them. In its store, a lane's bank holds units 0 to 937 from
(2·lane + bank)·938 on (R91, R395; entry 133). -/
abbrev HistReads := List EccRead

/-- Whether a unit read is one of a tile's sample histories. -/
def isHist (t : Nat) (u : EccRead) : Bool := decide (eccStore u.addr = 0x10 + 16 * t) && decide (eccIndex u.addr < 360192)

/-- The units of a lane's bank that read as uncorrectable. -/
def badUnits (t l b : Nat) (us : HistReads) : List Nat :=
  (us.filter fun u => isHist t u && decide (eccIndex u.addr / 938 = 2 * l + b) && (eccCls u).bad).map
    fun u => eccIndex u.addr % 938

/-- A bank as the history read port delivers it (R91, R95): all 40 samples of an uncorrectable unit are
erasures. -/
def readBank (b : Bank) (us : List Nat) : Bank :=
  { b with erased := (List.range b.erased.length).map fun i => nth true b.erased i || us.contains (i / 40) }

/-- The units read are counted (R395), and LANE.MEMERR counts the uncorrectable ones (R91). -/
def countReads (s : State) (t : Nat) (us : HistReads) : State :=
  us.foldl
    (fun s u =>
      if isHist t u then
        let s := eccCount s u
        if (eccCls u).bad then s.bump (aLane t (eccIndex u.addr / 1876) 0x88) else s
      else s) s

/-- How a stored detection is made: the framing of both lanes, the shift of each, and bits already known. -/
structure Redo where
  fa : Framing
  fb : Framing
  da : Int
  db : Int
  fixA : List (Option Bool)
  fixB : List (Option Bool)
  deriving DecidableEq, Repr

/-- Both lanes as the capture framed them. -/
def Redo.plain (k : Capture) : Redo := ⟨k.frA, k.frB, 0, 0, noFix 37376, noFix 37376⟩

/-- A shift of the tracks that an operation names (R128). -/
def Redo.shift (x : Redo) (rs : List Nat) (d : Int) : Redo :=
  { x with da := if rs.contains 0 then d else 0, db := if rs.contains 1 then d else 0 }

/-- Soft values of reader `r`'s track from stored samples (R95, R111 to R116, R126): re-equalised with the
target, framed and shifted, detected jointly or alone under R115. -/
def storedSoft (s : State) (t c h : Nat) (k : Capture) (tgt r : Nat) (x : Redo) (us : HistReads) : List Int :=
  let units (j : Nat) : List Nat := badUnits t (laneOf c h j) (k.id / 2 ^ 30) us
  let la := laneOf c h 0
  let lb := laneOf c h 1
  let ya := equalised s t la k tgt (readBank (bankOf s t la k.id) (units 0))
  let yb := equalised s t lb k tgt (readBank (bankOf s t lb k.id) (units 1))
  let k : Capture := { k with frA := x.fa, frB := x.fb }
  let ch := chanOf s (headIdx t c h) k (targetOf s t k.zone tgt)
  softTrack ch r (alone s t k r) (frameStream x.fa x.da ya) (frameStream x.fb x.db yb) x.fixA x.fixB

/-- The decoder entry of a stored detection (R117). -/
def storedEnt (s : State) (t c h : Nat) (q : HistReq) (k : Capture) (r : Nat) (x : Redo) (soft : List Int) : DecEnt :=
  let k' : Capture := { k with frA := x.fa, frB := x.fb }
  let fr := if r = 0 then x.fa else x.fb
  ⟨capPsa t c h k r, laneOf c h r, q.target, k.zone, capFlags (if r = 0 then k.flA else k.flB) fr (alone s t k' r) true,
    fr.slip.getD 0, q.limit, if r = 0 then x.da else x.db, k.id, soft⟩

/-- Codewords of an operation go to the stored decoder queue of four, or wait in the detector (R134); with limit
0 nothing is decoded (R126). `rs` gives each track's reader and its soft values. -/
def sendStored (s0 s : State) (t : Nat) (q : HistReq) (js : List Job) : State :=
  if q.limit = 0 then endOp s t q .detonly
  else if 4 < (s.det t).stQ.length + js.length then s0
  else
    s.modDet t fun d =>
      { d with stQ := d.stQ ++ js, ops := d.ops.map fun o => if o.req = q then { o with left := js.length } else o }

/-- Re-detection of the tracks an operation names (R126 REDETECT): each decode ends in its own result, and a track
whose lane was retired in ABSENT. -/
def redetect (s0 : State) (t : Nat) (q : HistReq) (k : Capture) (rs : List Nat) (x : Redo) (us : HistReads) : State :=
  let p := opHead q
  let own := if ctxOnB s0 t q.ctx k then 1 else 0
  let live := rs.filter fun r => !(laneGone k r)
  if live = [] then endOp s0 t q .absent
  else
    let psa (r : Nat) : Nat := capPsa t p.1 p.2 k r
    let soft (r : Nat) : List Int := softWord (psa r) (storedSoft s0 t p.1 p.2 k q.target r x us)
    let s := countReads s0.took.took t us
    let s := live.foldl (fun s r => noteSoft s q.head k.id r (soft r)) s
    let s := if live.length < rs.length then pushRes s t (opResult q .absent) else s
    sendStored s0 s t q (live.map fun r => ⟨storedEnt s0 t p.1 p.2 q k r x (soft r), .stored q (decide (r = own))⟩)

/-- An offset as the request word gives it: signed 8 bits. -/
def reqOffset (q : HistReq) : Int := signedOf 8 q.offset

/-- REDETECT: the named tracks, shifted by the request's offset. -/
def execRedetect (t : Nat) (us : HistReads) (s : State) : Res :=
  onTileCh s t (storedOp s t 1 (fun q => decide (64 < absI (reqOffset q))) fun s q k =>
    let rs := opReaders s t q k
    redetect s t q k rs ((Redo.plain k).shift rs (reqOffset q)) us)

/-- Sync B of a stored track: where the live stream had it, or as a search of the history finds it (R126). -/
def storedSyncB (s : State) (t c h : Nat) (k : Capture) (r : Nat) (us : HistReads) : Option Int :=
  match (if r = 0 then k.frA.lone else k.frB.lone) with
  | some p => some p
  | none =>
    let l := laneOf c h r
    let us := badUnits t l (k.id / 2 ^ 30) us
    let w := s.reg (aDet t 4)
    let bits := hardBits (targetOf s t k.zone 0) (equalised s t l k 0 (readBank (bankOf s t l k.id) us))
    (findB bits 18736 (fld w 23 16) (fld w 3 0)).map (18736 + ·)

/-- Framing of both halves from sync B at `p` (R126 FRAMEB). -/
def Framing.fromSyncB (p : Int) : Framing := ⟨some (p - 18608), p, false, Option.none, true, Option.none⟩

/-- FRAMEB: the named tracks framed from sync B; without one in the history the operation ends. -/
def framebOp (s : State) (t : Nat) (q : HistReq) (k : Capture) (us : HistReads) : State :=
  let p := opHead q
  let rs := opReaders s t q k
  let at_ (r : Nat) : Option Int := if rs.contains r then storedSyncB s t p.1 p.2 k r us else none
  if rs.any fun r => !(laneGone k r) && (at_ r).isNone then endOp s t q .syncmiss
  else
    let fr (r : Nat) (f : Framing) : Framing := match at_ r with | some b => Framing.fromSyncB b | none => f
    redetect s t q k rs { Redo.plain k with fa := fr 0 k.frA, fb := fr 1 k.frB } us

/-- FRAMEB. -/
def execFrameb (t : Nat) (us : HistReads) (s : State) : Res :=
  onTileCh s t (storedOp s t 2 (fun _ => false) fun s q k => framebOp s t q k us)

/-- The offsets that a header probe tries, in order (R127): SLIPOFS, then those within distance 40, nearest
first; of equals the smaller, and of those the positive. -/
def probeOrder (slip : Option Int) (dist : Int → Nat) : List Int :=
  let offs : List Int := [1, -1, 2, -2, 3, -3, 4, -4, 5, -5, 6, -6, 7, -7, 8, -8]
  let rest := (List.range 41).flatMap fun d => offs.filter fun o => decide (dist o = d) && decide (some o ≠ slip)
  match slip with
  | some o => if dist o ≤ 40 then o :: rest else rest
  | none => rest

/-- The distance of a header probe at an offset (R127): the tentative header bits against the headers expected of
the PSA with BLANK set and clear. -/
def probeDist (s : State) (psa : Nat) (sys : Bool) (soft : List Int) : Nat :=
  let bits := hardOf (soft.take 128)
  let far (blank : Bool) : Nat := weightOf (xorBits bits ((headerOf s psa blank sys).flatMap byteBits))
  min (far true) (far false)

/-- The offsets that REALIGN is to try on a track, from the probe of its stored samples. -/
def probeOffs (s : State) (t : Nat) (q : HistReq) (k : Capture) (r : Nat) (us : HistReads) : List Int :=
  let p := opHead q
  let psa := capPsa t p.1 p.2 k r
  let sys := decide ((s.ctx t q.ctx).want.req.kind = .system)
  let dist (d : Int) : Nat :=
    probeDist s psa sys (softWord psa (storedSoft s t p.1 p.2 k q.target r ((Redo.plain k).shift [r] d) us))
  (probeOrder (if r = 0 then k.frA.slip else k.frB.slip) dist).take q.offset

/-- REALIGN: the probe, and the next offset it chose. -/
def realignOp (s : State) (t : Nat) (q : HistReq) (k : Capture) (us : HistReads) : State :=
  let r := if opOnB s t q k then 1 else 0
  let old := ((s.det t).ops.find? fun o => decide (o.req = q)).bind fun o => o.offs
  if laneGone k r then endOp s t q .absent
  else
    match old.getD (probeOffs s t q k r us) with
    | [] => endOp s t q .fail
    | d :: rest =>
      let s := s.modDet t fun x => { x with ops := x.ops.map fun o => if o.req = q then { o with offs := some rest } else o }
      redetect s t q k [r] ((Redo.plain k).shift [r] d) us

/-- REALIGN: its offset field is the count of tries, 1 to 16. -/
def execRealign (t : Nat) (us : HistReads) (s : State) : Res :=
  onTileCh s t (storedOp s t 3 (fun q => decide (q.offset = 0) || decide (16 < q.offset)) fun s q k => realignOp s t q k us)

/-- The channel bits of a decoded track, each known (R126 PARTNER). -/
def knownBits (psa : Nat) (bits : List Bool) : List (Option Bool) := (sectorBits (xorBits bits (scrambler psa))).map some

/-- PARTNER: the partner's decode where the capture has none, then the named track's with the partner's bits
fixed. With limit 0 a partner without a result cannot be decoded, and the operation fails without a decode to
count (DESIGN CHOICE, entry 127). -/
def partnerOp (s : State) (t : Nat) (q : HistReq) (k : Capture) (us : HistReads) : State :=
  let p := opHead q
  let r := if opOnB s t q k then 1 else 0
  let psa := capPsa t p.1 p.2 k (1 - r)
  if laneGone k r then endOp s t q .absent
  else
    match (if r = 0 then k.resB else k.resA) with
    | .conv bits _ =>
      let fix := knownBits psa bits
      redetect s t q k [r]
        { Redo.plain k with fixA := if r = 0 then noFix 37376 else fix, fixB := if r = 0 then fix else noFix 37376 } us
    | _ =>
      if q.limit = 0 ∨ laneGone k (1 - r) then endOp s t q .fail
      else redetect s t q k [1 - r] (Redo.plain k) us

/-- PARTNER. -/
def execPartner (t : Nat) (us : HistReads) (s : State) : Res :=
  onTileCh s t (storedOp s t 4 (fun _ => false) fun s q k => partnerOp s t q k us)

/-- A slot is filled or emptied, and DET.SSTORE follows. -/
def setSoft (s : State) (t j : Nat) (x : SoftSlot) : State :=
  (s.modDet t fun d => { d with soft := Tab.to SoftSlot.free d.soft j x }).setB (aDet t 0x10) j x.soft.isSome

/-- The latest soft values of the track an operation names. -/
def opSoft (s : State) (t : Nat) (q : HistReq) (k : Capture) : List Int := if opOnB s t q k then k.softB else k.softA

/-- SAVE. -/
def execSave (t : Nat) (s : State) : Res :=
  onTileCh s t
    (storedOp s t 5 (fun q => decide (7 < q.slot)) fun s q k =>
      let v := opSoft s t q k
      if v = [] then endOp s t q .gone else endOp (setSoft s t q.slot ⟨some q.ctx, some v⟩) t q .detonly)

/-- COMBINE's effect: the sums saturate at ±31. -/
def combineOp (s : State) (t : Nat) (q : HistReq) (k : Capture) : State :=
  let r := if opOnB s t q k then 1 else 0
  let p := opHead q
  match (Tab.at SoftSlot.free (s.det t).soft q.slot).soft with
  | none => endOp s t q .gone
  | some v =>
    let sum := List.zipWith (fun a b => clampI (-31) 31 (a + b)) (opSoft s t q k) v
    sendStored s (noteSoft s q.head k.id r sum) t q
      [⟨storedEnt s t p.1 p.2 q k r (Redo.plain k) sum, .stored q (decide (r = if ctxOnB s t q.ctx k then 1 else 0))⟩]

/-- COMBINE. -/
def execCombine (t : Nat) (s : State) : Res :=
  onTileCh s t (storedOp s t 6 (fun q => decide (7 < q.slot)) fun s q k => combineOp s t q k)

/-- FREE: the slot is empty. -/
def execFree (t : Nat) (s : State) : Res :=
  onTileCh s t
    (storedOp s t 7 (fun q => decide (7 < q.slot)) fun s q _ =>
      let s := setSoft s t q.slot SoftSlot.free
      let s := s.modCtx t q.ctx fun x => if x.slot = some q.slot then { x with slot := none } else x
      endOp s t q .detonly)

/-- RELEASE: the pin on the capture ends. -/
def execRelease (t : Nat) (s : State) : Res :=
  onTileCh s t
    (storedOp s t 8 (fun _ => false) fun s q k =>
      let p := opHead q
      let s := releaseCap s t p.1 p.2 k.id
      endOp (s.modCtx t q.ctx fun x => if x.capid = some k.id then { x with capid := none } else x) t q .detonly)

end Sys2Proof.Machine
end

