-- ==== Sys2Proof/Machine/Ladder.lean ====
section
/-! DEFINITION. The Badger ladder (R173 to R191, R242, R290): contexts, bookings, what a ladder thread's
messages do, tag failures and the deadline instant. -/

namespace Sys2Proof.Machine

/-! ### The default image (R176 to R181, R185, R299)

The default ladder image is not printed but for its addresses of R299; its order of steps is. The model runs it by
its messages: each is a row, acted on when it is the next of the image (entry 16). The deadline check of R185 is
made where a booking is made. -/

/-- A request word of HIST (R290): operation, target, iteration limit, tries and slot, on the sector's own track. -/
def histWord (op target limit tries slot : Nat) : Word :=
  place 31 28 op ||| place 25 23 target ||| place 21 16 limit ||| place 15 8 tries ||| place 7 0 slot

/-- L1TRY, L2ITER, L5TGT. -/
def l1Try (s : State) (t : Nat) : Nat := s.fld (aTile t 0x1004) 31 28
/-- L2ITER. -/
def l2Iter (s : State) (t : Nat) : Nat := s.fld (aTile t 0x1004) 27 22
/-- L5TGT. -/
def l5Tgt (s : State) (t : Nat) : Nat := s.fld (aTile t 0x1004) 15 13

/-- Whether the lane that normally reads a context's track is retired: its re-reads are displaced (R181). -/
def laneLost (s : State) (t i : Nat) : Bool :=
  let p := (s.ctx t i).want.req.psa
  let r := if pairLow s t (psaTrack p) = psaTrack p then 0 else 1
  tLane s t (laneOf (psaCluster p) (psaHead p) r)

/-- The re-reads of a step, their offsets and whether each is displaced (R176, R180, R181). A magnitude of zero
skips both its signs, and L4OFS counts the offsets left (DESIGN CHOICE, entry 16); those of L6 are at offset 0. -/
def rereadsOf (s : State) (t i n : Nat) : List (Int × Bool) :=
  let lost := laneLost s t i
  let w := s.reg (aTile t 0x1008)
  if n = 3 then List.replicate (s.fld (aTile t 0x1004) 21 19) (0, lost)
  else if n = 4 then
    let os := [fld w 23 16, fld w 15 8, fld w 7 0].filter fun o => decide (o ≠ 0)
    ((os.flatMap fun (o : Nat) => [(o : Int), -(o : Int)]).take (s.fld (aTile t 0x1004) 18 16)).map fun o => (o, lost)
  else if n = 5 then
    if l5Tgt s t = 0 then [] else [((match (s.ctx t i).best with | some b => b.2 | none => 0), lost)]
  else if n = 6 ∧ !lost then List.replicate (s.fld (aTile t 0x1004) 12 11) (0, true)
  else []

/-- The image goes on with these moves and then waits as its stage says. -/
def planned (s : State) (t i : Nat) (todo : List LadMove) (stage : LadStage) : State :=
  s.modCtx t i fun x => { x with prog := { x.prog with todo := todo, stage := stage } }

/-- The re-read after `n` of step `k`, of that step or a later one: a free slot at the first re-read (R180), the
step declared when it changes, the booking; none left: L7. -/
def nextReread (s : State) (t i k n : Nat) (before : List LadMove) : State :=
  let x := s.ctx t i
  let from_ := ((rereadsOf s t i k).drop n).map fun r => (k, r)
  let later := (List.range 7).flatMap fun j => if k < j then (rereadsOf s t i j).map fun r => (j, r) else []
  match from_ ++ later with
  | [] => planned s t i (before ++ [.drop]) .reread
  | (j, r) :: _ =>
    let s := s.modCtx t i fun x =>
      { x with prog := { x.prog with made := if j = k then n + 1 else 1, asked := true, mark := x.best.map (·.1) } }
    planned s t i
      (before ++ (if j = x.step then [] else [.step j]) ++ (if x.prog.asked then [] else [.slot]) ++
        [.book r.1 r.2, .wait 2]) .reread

/-- After a capture's recovery: its pin is released and the next re-read follows (R176, R299). -/
def afterCapture (s : State) (t i : Nat) : State :=
  let x := s.ctx t i
  if x.capid.isSome then
    nextReread (s.modCtx t i fun x => { x with prog := { x.prog with skip := x.prog.skip + 1 } }) t i x.step x.prog.made
      [.hist (histWord 8 0 0 0 0)]
  else nextReread s t i x.step x.prog.made []

/-- A capture's recovery ends without a result: a weight below any seen before is saved to the context's slot
(R180). -/
def captureLost (s : State) (t i : Nat) : State :=
  let x := s.ctx t i
  let better : Bool := match x.best, x.prog.mark with
    | some b, some m => decide (b.1 < m)
    | some _, none => true
    | none, _ => false
  match x.slot with
  | some j =>
    if x.capid.isSome ∧ better ∧ 3 ≤ x.step then planned s t i [.hist (histWord 5 0 0 0 j), .wait 1] .save
    else afterCapture s t i
  | none => afterCapture s t i

/-- COMBINE at L6 when the context's slot is filled (R180); its limit is L2ITER (DESIGN CHOICE, entry 16). -/
def tryCombine (s : State) (t i : Nat) : State :=
  let x := s.ctx t i
  match x.slot with
  | some j =>
    if x.step = 6 ∧ x.capid.isSome ∧ (Tab.at SoftSlot.free (s.det t).soft j).soft.isSome then
      planned s t i [.hist (histWord 6 0 (l2Iter s t) 0 j), .wait 1] .combine
    else captureLost s t i
  | none => captureLost s t i

/-- The targets of L5, one after another (R176). -/
def nextTarget (s : State) (t i : Nat) (ks : List Nat) : State :=
  match ks with
  | k :: rest =>
    if (s.ctx t i).capid.isSome then planned s t i [.hist (histWord 1 k (l2Iter s t) 0 0), .wait 1] (.target rest)
    else captureLost s t i
  | [] => captureLost s t i

/-- What follows L2 on a capture: the targets at L5, COMBINE at L6. -/
def afterL2 (s : State) (t i : Nat) : State :=
  let x := s.ctx t i
  if x.step = 5 then
    let z := zoneOf s t (psaTrack x.want.req.psa)
    nextTarget s t i (([1, 2, 3, 4].filter fun k => targetPresent s t z k).take (l5Tgt s t))
  else tryCombine s t i

/-- L2 on a context's capture (R176, R178): PARTNER when the partner codeword has a CONV result, else REDETECT. -/
def runL2 (s : State) (t i : Nat) : State :=
  let x := s.ctx t i
  let m := l2Iter s t
  match x.capid with
  | none => afterCapture s t i
  | some id =>
    if m = 0 then afterL2 s t i
    else
      let p := x.want.req.psa
      let k := (s.head (headIdx t (psaCluster p) (psaHead p))).held.find? fun k => decide (k.id = id)
      let partner := match k with
        | some k =>
          (match (if ((psaTrack p : Nat) : Int) = k.ent.low then k.resB else k.resA) with
          | .conv _ _ => true
          | _ => false)
        | none => false
      planned s t i ((if x.step = 1 then [.step 2] else []) ++ [.hist (histWord (if partner then 4 else 1) 0 m 0 0), .wait 1]) .l2

/-- L1 on a context's capture: FRAMEB after a SYNCMISS, else REALIGN, both with a limit of 8. -/
def runL1 (s : State) (t i : Nat) (syncmiss : Bool) : State :=
  let n := l1Try s t
  if (s.ctx t i).capid.isNone then afterCapture s t i
  else if n = 0 then runL2 s t i
  else planned s t i [.hist (if syncmiss then histWord 2 0 8 0 0 else histWord 3 0 8 n 0), .wait 1] .l1

/-- The image at its entry, with the result word that the sector entered with (R174, R288). A tag failure may enter
at L1 or L2, whose capture is gone. -/
def enterImage (s : State) (t i : Nat) (word : Word) : State :=
  let x := s.ctx t i
  if x.step = 1 then runL1 s t i (decide (fld word 31 28 = 2))
  else if x.step = 2 then runL2 s t i
  else nextReread s t i x.step 0 []

/-- ACCEPT_REL (R299): ACCEPT, RELEASE, and a WAIT for TAG. -/
def acceptRel (s : State) (t i : Nat) : State :=
  planned (s.modCtx t i fun x => { x with prog := { x.prog with skip := x.prog.skip + 1 } }) t i
    [.accept, .hist (histWord 8 0 0 0 0), .wait 4] .tag

/-- The image goes on after an event of class `k` with its word. A result of RELEASE is passed over; an accepted
result is sent; a TAG resumes at the next step, whose capture has been released (R189). -/
def resumeImage (s : State) (t i k : Nat) (word : Word) : State :=
  let x := s.ctx t i
  let good := decide (fld word 31 28 = 0) && word.getLsbD 27
  if k = 0 ∧ x.prog.skip ≠ 0 then
    planned (s.modCtx t i fun x => { x with prog := { x.prog with skip := x.prog.skip - 1 } }) t i [.wait 1] x.prog.stage
  else if k = 2 then nextReread s t i (x.step + 1) 0 []
  else if good then acceptRel s t i
  else
    match x.prog.stage with
    | .l1 => runL2 s t i
    | .l2 => afterL2 s t i
    | .target rest => nextTarget s t i rest
    | .combine => captureLost s t i
    | .save => afterCapture s t i
    | .reread => runL1 s t i (decide (fld word 31 28 = 2))
    | .tag => planned s t i [.wait 4] .tag

/-- Whether a ladder thread runs the default image. -/
def byProgram (s : State) (e th : Nat) : Bool := engKind e == 3 && (getBank (s.eng e) (thread s e th).bank).dflt

/-- A context's result of a class reaches its ladder thread, if it waits for that class (R290). -/
def deliverResult (s : State) (t i k : Nat) : State :=
  let e := 1 + 6 * t + 5
  let x := s.ctx t i
  match x.results.find? (fun r => decide (r.1 = k)), (thread s e i).wait with
  | some r, some (mask, _) =>
    if x.live ∧ (thread s e i).live ∧ mask.testBit k then
      let s := resumeWith (s.setCtx t i { x with results := x.results.erase r }) e i k r.2 0
      if byProgram s e i then resumeImage s t i k r.2 else s
    else s
  | _, _ => s

/-- HRES. -/
def execHres (t ctx : Nat) (s : State) : Res :=
  if ctx < 256 then onTile s t (deliverResult s t ctx 0) else .fault .badOperand

/-- RRES. -/
def execRres (t ctx : Nat) (s : State) : Res :=
  if ctx < 256 then onTile s t (deliverResult s t ctx 1) else .fault .badOperand

/-! ### Entering (R174, R175, R182) -/

/-- The highest step that a read may run (R182): partner recovery has no cap. -/
def capOf (s : State) (t : Nat) (w : Want) : Nat :=
  if w.req.kind = .prefetch ∨ w.req.kind = .lock then s.fld (aTile t 0x1000) 23 20
  else if w.req.kind = .host ∧ w.req.cap ≠ 7 then s.fld (aTile t 0x1000) 27 24
  else 7

/-- The step a sector enters at, by the index of its entry (R174). -/
def entryStep (s : State) (t index : Nat) : Nat :=
  if index < 3 then 1 else if index = 5 then s.fld (aTile t 0x1000) 31 28 else 3

/-- A context is dropped at L7 or above its cap: AUTH where the tag check has rejected a result (R191). -/
def dropLast (s : State) (t i : Nat) : State :=
  dropCtx s t i (if (s.ctx t i).tagSeen then .auth else .media)

/-- No context is free (R175): the capture is released, the sector goes back to the hub and will be asked
for again, which counts as a deferral under R183; what the tile reads for itself, it wants again on a later
revolution. -/
def returnSector (s : State) (t : Nat) (w : Want) (capid : Option Nat) : State :=
  let c := psaCluster w.req.psa
  let h := psaHead w.req.psa
  let s := match capid with | some id => releaseCap s t c h id | none => s
  let s := extendDeadline (tileEdge (s.bump (aTile t 0x1024)) t 232) t w.req.cmd
  if forHub w.req.kind then
    { s with buf := { s.buf with held := Tab.to [] s.buf.held t (Tab.at [] s.buf.held t ++ [w.req]) } }
  else s.modHead (headIdx t c h) fun x => { x with want := x.want ++ [{ w with ctx := none, later := true }] }

/-- The lowest context that is free: neither open nor with a thread that has not come to its end yet (R173, R290). -/
def freeCtx (s : State) (t : Nat) : Option Nat :=
  lowestFree ((openCtxs s t).map (·.1) ++
    ((s.eng (1 + 6 * t + 5)).threads.filter fun x => x.2.live).map (·.1)) 256

/-- A sector takes the lowest free context at its entry step and a ladder thread begins at vector 2 with
the entry's index and its result word (R288). -/
def openCtx (s : State) (t index : Nat) (w : Want) (capid : Option Nat) (word : Word) (rejected : List Word) : State :=
  match freeCtx s t with
  | none => returnSector s t w capid
  | some i =>
    let st := entryStep s t index
    let cap := capOf s t w
    let best := if rejected = [] ∧ capid.isSome ∧ fld word 31 28 = 1 then some (fld word 15 0, (0 : Int)) else none
    let s := s.setCtx t i
      ⟨true, { w with ctx := some i, later := false }, capid, st, cap, best, 0, none, rejected, rejected ≠ [], none, [], false, false, Prog.none, s.now⟩
    let s := countCtxs (s.bump (aTile t (0x1040 + 4 * index))) t
    let s := startThread s (1 + 6 * t + 5) i 2 (w32 index) word 0 0 false
    let s := if byProgram s (1 + 6 * t + 5) i then enterImage s t i word else s
    if headDead s t (psaCluster w.req.psa) (psaHead w.req.psa) then dropCtx s t i .retired
    else if st = 7 ∨ cap < st then dropLast s t i
    else s

/-- LADDER_ENTRY: the first sector that waits for the ladder engine. -/
def ladderEntry (s : State) (t : Nat) : State :=
  let d := s.det t
  match d.ladQ with
  | [] => s
  | e :: rest => openCtx (s.setDet t { d with ladQ := rest }) t e.index e.want e.capid e.word []

/-- LADDER_ENTRY. -/
def execLadderEntry (t : Nat) (s : State) : Res := onTileCh s t (ladderEntry s t)

/-- A tag failure of a sector (R189): its context resumes, or one opens with entry index 5; one that
finds its context ended is discarded (R190). -/
def tagReturn (s : State) (t : Nat) (f : TagFail) : State :=
  match f.ctx with
  | none => openCtx s t 5 ⟨f.req, none, false⟩ none (resWord .conv true 0 0) [f.crc]
  | some i =>
    let x := s.ctx t i
    if x.live ∧ x.want.req.psa = f.psa then
      let s := s.setCtx t i
        { x with sent := false, good := none, tagSeen := true, rejected := (x.rejected ++ [f.crc]).take 4,
                 results := x.results ++ [(2, f.crc)] }
      deliverResult s t i 2
    else s

/-- TAG_FAILURE_RETURN: the oldest tag failure on the request channel, while that is open and has a credit (R30,
R34, R35, R189). -/
def execTagFailureReturn (t : Nat) (s : State) : Res :=
  onTileCh s t
    (let d := s.det t
     match d.tagQ with
     | [] => s
     | f :: rest =>
       if hubHears s t ∧ hasCredits s t 0 1 1 then
         tagReturn (crossAtOnce (s.setDet t { d with tagQ := rest }) t 0 1 (beBytes 6 f.psa)) t f
       else s)

/-! ### Bookings (R177, R180, R242) -/

/-- Whether two bookings of a head are one (R177). -/
def sameBooking (s : State) (t : Nat) (a b : Booking) : Bool :=
  decide (pairLow s t (psaTrack a.psa) = pairLow s t (psaTrack b.psa)) && decide (a.offset = b.offset) &&
    decide (a.displaced = b.displaced)

/-- The bookings held for a cluster (R252). -/
def bookingsOf (s : State) (t c : Nat) : Nat :=
  ((List.range 24).map fun h => (s.head (headIdx t c h)).bookings.length).foldl (· + ·) 0

/-- Whether less than a revolution and GUARD remain of a context's deadline (R185). -/
def tooLate (s : State) (t i : Nat) : Bool :=
  match (s.cmd (s.ctx t i).want.req.cmd).deadline with
  | some d => decide (d < s.now + revNs s t + us (s.fld (aTile t 0x1000) 15 0))
  | none => false

/-- BOOK's effect: a re-read is booked; too late for a revolution, the sector drops with cause DEADLINE. -/
def bookReread (s : State) (t i : Nat) (offset : Int) (displaced : Bool) : State :=
  let x := s.ctx t i
  if !x.live then s
  else if tooLate s t i then dropCtx s t i .deadline
  else
    let c := psaCluster x.want.req.psa
    let h := psaHead x.want.req.psa
    let hi := headIdx t c h
    let b : Booking := ⟨i, x.want.req.psa, offset, displaced, false, false⟩
    let shared := (s.head hi).bookings.any fun y => !y.started && sameBooking s t y b
    let s := if shared then s else s.bump (aTile t 0x1028)
    let s := s.setCtx t i { x with offset := offset, good := none, capid := none, booked := true }
    wakeHead (s.modHead hi fun y => { y with bookings := y.bookings ++ [b], want := y.want ++ [x.want] }) t c h

/-- The reference of a booking in 1/1,024 pitch (R242): the pair, the step's offset, and a track more for a
displaced read. -/
def bookingRef (s : State) (t : Nat) (b : Booking) : Int × Int :=
  let tr := psaTrack b.psa
  let low := pairLow s t tr
  ((low : Int), b.offset + if b.displaced then (if tr = low then -1024 else 1024) else 0)

/-- Sectors of a head's streaming that fall in a booked window are deferred (R177); the others are wanted as
before. -/
def deferWindow (s : State) (t c h : Nat) (inside : Want → Bool) : State :=
  let i := headIdx t c h
  let x := s.head i
  let free (e : CapEnt) : Bool := (entWants e).all fun w => w.ctx.isNone
  let all := (x.capQ.filter free).flatMap entWants ++ x.want
  let out (w : Want) : Bool := w.ctx.isNone && !w.later && inside w
  let s := s.setHead i { x with capQ := x.capQ.filter fun e => !(free e), want := all.filter fun w => !(out w) }
  deferWants s t c h (all.filter out)

/-- From where to where on its head's data stream a booking lasts (R177): from four wedge intervals before its
capture begins to the second wedge after that ends. A start that has passed is the next revolution's. -/
def bookSpan (s : State) (t c h : Nat) (b : Booking) : Nat × Nat :=
  let d := max 1 (dataSpan s t (zoneOf s t (psaTrack b.psa)))
  let n := bitsTo s t c h b.psa
  let p := headPos s t c h + n + if n < 4 * d then 600 * d else 0
  (p - 64 - 4 * d, ((p + 37456) / d + 2) * d)

/-- The booking of a head whose time comes next: the one that starts first, unless one of an older context overlaps
it, which keeps the revolution (R177; entry 139). -/
def dueBooking (s : State) (t c h : Nat) : Option Booking :=
  let bs := (s.head (headIdx t c h)).bookings
  let best (f : Booking → Nat) (l : List Booking) : Option Booking :=
    l.foldl (fun a b =>
      match a with
      | none => some b
      | some k => if f b < f k then some b else some k) none
  match best (fun b => (bookSpan s t c h b).1) bs with
  | none => none
  | some k => best (fun b => (s.ctx t b.ctx).born) (bs.filter fun b => decide ((bookSpan s t c h b).1 < (bookSpan s t c h k).2))

/-- The heads of a cluster that a comb booking of head `h`, which moves the comb by `move`, puts out of REACH are off
track (R242). -/
def putAway (s : State) (t c h : Nat) (move : Int) : State :=
  (List.range 24).foldl
    (fun s j =>
      if j ≠ h ∧ reach s t c < absI (displacement s t c j (refOf s t c j) - move) then
        (s.setB (aCtl t c (0x100C + 32 * j)) 31 false).modHeadS (headIdx t c j) fun y => { y with away := true, near := 0 }
      else s) s

/-- A comb booking ends: the comb's reference returns, and no head is out of reach for it (R242). -/
def combBack (s : State) (t c : Nat) : State :=
  (List.range 24).foldl (fun s j => s.modHeadS (headIdx t c j) fun y => { y with away := false })
    (s.modCtl t c fun k => { k with shift := 0 })

/-- BOOKING_START's effect: the booking that is due and those that share it begin; beyond the reach of the
microactuator the comb moves. -/
def bookingStart (s : State) (t c h : Nat) : State :=
  let i := headIdx t c h
  let x := s.head i
  let m := ctlMode s t c
  let first := if headBooked x ∨ ¬(m = 4 ∨ m = 5) then none else dueBooking s t c h
  match first with
  | none => s
  | some b =>
    let r := bookingRef s t b
    let s := deferWindow s t c h fun w => decide (bitsTo s t c h w.req.psa < bitsTo s t c h b.psa)
    let x := s.head i
    let disp := displacement s t c h (r.1 * 1024 + r.2)
    let lim := reach s t c
    let comb := decide (lim < absI disp)
    let bs := x.bookings.map fun k => if sameBooking s t k b then { k with started := true, comb := comb } else k
    let s := s.setHead i { x with bookings := bs }
    let s := (setRef s t c h r.1 r.2).setB (aCtl t c (0x100C + 32 * h)) 29 true
    if comb then
      let move := if disp < 0 then disp + lim else disp - lim
      putAway ((s.bump (aCtl t c 0x58)).modCtl t c fun k => { k with shift := k.shift + move }) t c h move
    else s

/-- BOOKING_START. -/
def execBookingStart (t c h : Nat) (s : State) : Res := onHeadCh s t c h (bookingStart s t c h)

/-- BOOKING_END's effect: the head returns to its streaming target; a re-read that has not been captured
moves to the next revolution, which counts as a deferral. -/
def bookingEnd (s : State) (t c h : Nat) : State :=
  let i := headIdx t c h
  let x := s.head i
  if !(headBooked x) then s
  else
    let s := match x.bookings.find? fun b => b.started with
      | some b => deferWindow s t c h fun w => decide (bitsSince s t c h w.req.psa < bitsSince s t c h b.psa)
      | none => s
    let x := s.head i
    let waiting (b : Booking) : Bool :=
      (x.want ++ x.capQ.flatMap entWants).any fun w => decide (w.ctx = some b.ctx)
    let comb := x.bookings.any fun b => b.started && b.comb
    let again := x.bookings.filter fun b => b.started && waiting b
    let queued := (x.capQ.flatMap entWants).filter fun w => again.any fun b => decide (w.ctx = some b.ctx)
    let s := s.setHead i
      { x with
        bookings := (x.bookings.filter fun b => !b.started) ++ again.map fun b => { b with started := false, comb := false }
        capQ := x.capQ.filter fun e => !((entWants e).any fun w => queued.contains w)
        want := x.want ++ queued }
    let s := again.foldl (fun s b => extendDeadline (deferN s t 1) t (s.ctx t b.ctx).want.req.cmd) s
    let s := (x.bookings.filter fun b => b.started && !(waiting b)).foldl
      (fun s b => s.modCtx t b.ctx fun y => { y with booked := false }) s
    let home := (s.headS i).home
    let s := (setRef s t c h home.1 home.2).setB (aCtl t c (0x100C + 32 * h)) 29 false
    headGo (if comb then combBack s t c else s) t c h

/-- BOOKING_END. -/
def execBookingEnd (t c h : Nat) (s : State) : Res := onHeadCh s t c h (bookingEnd s t c h)

/-! ### The messages of a ladder thread (R290) -/

/-- HIST: one request for the history request queue of 16, for whose credit the thread waits (R134, R286); an
operation outside the list is out of range. -/
def histPost (s : State) (t i : Nat) (w : Word) : State :=
  if !(s.ctx t i).live then s
  else
    let op := fld w 31 28
    let x := s.ctx t i
    let p := x.want.req.psa
    let q : HistReq :=
      ⟨i, op, fld w 27 26, fld w 25 23, fld w 21 16, fld w 15 8, fld w 7 0, x.capid,
        headIdx t (psaCluster p) (psaHead p)⟩
    if op = 0 ∨ 8 < op then pushRes s t (opResult q .badreq)
    else detPump (s.modDet t fun d => { d with hist := d.hist ++ [q] }) t

/-- ACCEPT: the latest result that is CONV and passes R64 goes to the hub; none: a POST fault. -/
def acceptCtx (s : State) (t i : Nat) : Option State :=
  let x := s.ctx t i
  if !x.live then some s
  else
    match x.good with
    | none => none
    | some info =>
      let s := s.setCtx t i { x with sent := true, good := none }
      some (if needOut { x.want with ctx := none } then sendWord s t x.want info (x.capid.getD 0)
        else countCtxs (endThreadOf (endCtx (s.bump (aTile t (0x1060 + 4 * x.step))) t i) t i) t)

/-- A context ends RECOVERED at its step (R173, R201), when its tag has been found correct. -/
def recoverCtx (s : State) (t i : Nat) : State :=
  let x := s.ctx t i
  if x.live then tileNotice (endCtx (s.bump (aTile t (0x1060 + 4 * x.step))) t i) t (place 31 28 0 ||| place 7 0 x.step)
  else s

/-- DROP: the cause is R191's. -/
def dropPost (s : State) (t i : Nat) : State := if (s.ctx t i).live then dropLast s t i else s

/-- STEP: a step above the cap, and step 7, drop the sector. -/
def stepPost (s : State) (t i n : Nat) : State :=
  let x := s.ctx t i
  if !x.live ∨ n = 0 ∨ 7 < n then s
  else if n = 7 ∨ x.cap < n then dropLast s t i
  else s.setCtx t i { x with step := n }

/-- SLOT: the lowest free slot is the context's. -/
def slotPost (s : State) (t i : Nat) : State :=
  let x := s.ctx t i
  let used := ((s.det t).soft.filter fun e => e.2.owner.isSome || e.2.soft.isSome).map (·.1)
  if !x.live ∨ x.slot.isSome then s
  else
    match lowestFree used 8 with
    | none => s
    | some j =>
      (s.setCtx t i { x with slot := some j }).modDet t fun d =>
        { d with soft := Tab.to SoftSlot.free d.soft j ⟨some i, none⟩ }

end Sys2Proof.Machine
end

