-- ==== Sys2Proof/Machine/WritePath.lean ====
section
/-! DEFINITION. The write path (R139 to R159): assembly and scrambling, serialisers, bursts and what they put
on the media, partners of conventional bands, heaters and verification. -/

namespace Sys2Proof.Machine

/-! ### Assembly (R58, R139 to R141, R149) -/

/-- The information word of an entry (R139, R150). -/
def wordOf' (s : State) (e : WrEnt) : Payload :=
  match e.kind with
  | .host => headerOf s e.psa false false ++ e.body
  | .system | .calib => headerOf s e.psa false true ++ e.body
  | .marker => markerHeader e.psa ++ zeros 4160
  | .partner => e.body

/-- Whether one entry goes before another by R149: the same sector of the track below, in one shingled pair. -/
def goesBefore (s : State) (t : Nat) (x e : WrEnt) : Bool :=
  decide (x.psa + 2 ^ 14 = e.psa) && decide (pairLow s t (psaTrack e.psa) = psaTrack x.psa)

/-- The sector to encode next: of the oldest whose cluster's queue of eight has a place, the head's sector of the
same track that comes first under the head (R58), none before one that R149 puts before it. -/
def encodeNext (s : State) (t : Nat) : Option WrEnt :=
  let q := (s.wr t).inQ
  match q.find? fun e => decide ((s.wrQ t (psaCluster e.psa)).length < 8) with
  | none => none
  | some e =>
    let c := psaCluster e.psa
    let h := psaHead e.psa
    let mates := q.filter fun x => decide (x.psa / 2 ^ 14 = e.psa / 2 ^ 14)
    let near := mates.foldl (fun b x => if bitsTo s t c h x.psa < bitsTo s t c h b.psa then x else b) e
    q.find? (fun x => goesBefore s t x near) |>.getD near

/-- SECTOR_ENCODE's effect: a sector is assembled, encoded and scrambled, and queued for its head. -/
def sectorEncode (s : State) (t : Nat) : State :=
  match encodeNext s t with
  | none => s
  | some e =>
    let w := s.wr t
    let s := s.setWr t { w with inQ := w.inQ.erase e }
    let s := if e.kind = .host ∨ (e.kind = .marker ∧ e.nsid ≠ 0) then freeCredits s t 1 2 sectorFlits else s
    let bits := if e.discard ∨ e.kind = .calib then [] else scrambled e.psa (wordOf' s e)
    let c := psaCluster e.psa
    let h := psaHead e.psa
    let s := s.modWrQ t c fun q => q ++ [{ e with bits := bits }]
    headGo (wakeHead s t c h) t c h

/-- SECTOR_ENCODE. -/
def execSectorEncode (t : Nat) (s : State) : Res := onTileCh s t (sectorEncode s t)

/-! ### Partners of conventional bands (R150) -/

/-- The partner sector that a write spills onto: sector j of track 3k + 1 for a write to track 3k. -/
def partnerOf (s : State) (t psa : Nat) : Option Nat :=
  let tr := psaTrack psa
  let b := bandOf s t tr
  if isConv s t b ∧ (tr - b * fmtTrk s t) % 3 = 0 then some (psa + 2 ^ 14) else none

/-- The partner that a write needs preserved: no write for it is queued. -/
def needsPartner (s : State) (t c h : Nat) (e : WrEnt) : Option Nat :=
  match partnerOf s t e.psa with
  | none => none
  | some p =>
    let queued := ((s.headW (headIdx t c h)).ser ++ s.wrQ t c ++ (s.wr t).inQ).any fun x => decide (x.psa = p) && !x.discard
    if e.discard ∨ (e.kind ≠ .host ∧ e.kind ≠ .marker) ∨ queued then none else some p

/-- A partner as its write knows it. -/
def partnerState (w : HeadW) (p : Nat) : Option PartSt := (w.partners.find? fun x => decide (x.1 = p)).map (·.2)

/-- Whether a partner is held for rewriting, or known to be dropped. -/
def partnerHeld (w : HeadW) (p : Nat) : Bool :=
  match partnerState w p with
  | some (.ready _) => true
  | some .lost => true
  | _ => false

/-- PARTNER_READ's effect: the partners that the head's queued writes need and that are not asked for are read
together, with no cap and no deadline (R150 steps 1 and 2, R182). -/
def partnerRead (s : State) (t c h : Nat) : State :=
  let i := headIdx t c h
  let mine := (s.wrQ t c).filter fun e => decide (psaHead e.psa = h)
  let ps := (mine.filterMap (needsPartner s t c h)).filter fun p => (partnerState (s.headW i) p).isNone
  if ps = [] then s
  else
    let s := s.modHeadW i fun w => { w with partners := w.partners ++ ps.map fun p => (p, .asked) }
    if headDead s t c h then ps.foldl (fun s p => setPartner s p .lost) s
    else wantSectors s t c h (ps.map fun p => ⟨⟨p, 0, 0, .partner, 7⟩, none, false⟩)

/-- PARTNER_READ. -/
def execPartnerRead (t c h : Nat) (s : State) : Res := onHeadCh s t c h (partnerRead s t c h)

/-- PARTNER_REWRITE: a partner whose sector has been written is queued for rewriting, or a marker for it. -/
def partnerRewrite (s : State) (t c h : Nat) : State :=
  let i := headIdx t c h
  let w := s.headW i
  let gone (p : Nat) : Bool := !((w.ser ++ s.wrQ t c ++ (s.wr t).inQ).any fun e => decide (e.psa + 2 ^ 14 = p))
  match w.partners.find? fun x => gone x.1 && partnerHeld w x.1 with
  | none => s
  | some x =>
    let (kind, body) : WrKind × Payload := match x.2 with
      | .ready info => (.partner, info)
      | _ => (.marker, [])
    let e : WrEnt := ⟨x.1, kind, false, 0, 0, 0, 0, body, [], 0, false, 0, false⟩
    let s := s.setHeadW i { w with partners := w.partners.erase x }
    s.modWr t fun y => { y with inQ := e :: y.inQ }

/-- PARTNER_REWRITE. -/
def execPartnerRewrite (t c h : Nat) (s : State) : Res := onHeadCh s t c h (partnerRewrite s t c h)

/-! ### Serialisers (R142, R146, R149, R156, R157) -/

/-- A head that cannot write ends an entry: RETIRED, WFAIL with one record, SKIPPED for a discarded entry. -/
def refuseEntry (s : State) (t c h : Nat) (e : WrEnt) : Option State :=
  let i := headIdx t c h
  let a := aWrtC t c (0x104 + 16 * h)
  if e.discard then some (finishWrite s t e .skipped)
  else if tWriter s t (headIx c h) ∨ headDead s t c h then some (finishWrite s t e .retired)
  else
    let cause := if s.fld a 23 17 = 0 then 1 else if s.bit (aWrtC t c (0x10C + 16 * h)) 0 then 2 else 0
    if cause = 0 then none
    else
      let s :=
        if (s.headW i).told then s
        else
          owlHead (s.modHeadW i fun w => { w with told := true }) t c h 0x4006 cause (s.reg a).toNat
            (s.reg (aWrtC t c (0x100 + 16 * h))).toNat
      some (finishWrite s t e .wfail)

/-- Whether an entry can be taken now: a partner that it needs is held, and no write that R149 puts before it is
queued. -/
def takeable (s : State) (t c h : Nat) (e : WrEnt) : Bool :=
  (match needsPartner s t c h e with
    | none => true
    | some p => partnerHeld (s.headW (headIdx t c h)) p) &&
    !((s.wrQ t c).any fun x => goesBefore s t x e)

/-- SERIALISER_TAKE's effect; `late`: it came less than 64 bits before its burst. -/
def serialiserTake (s : State) (t c h : Nat) (late : Bool) : State :=
  let i := headIdx t c h
  let w := s.headW i
  match (s.wrQ t c).find? fun e => decide (psaHead e.psa = h) && takeable s t c h e with
  | none => s
  | some e =>
    if 2 ≤ w.ser.length then s
    else
      let s := s.modWrQ t c fun q => q.erase e
      match refuseEntry s t c h e with
      | some s => s
      | none =>
        let s := s.setHeadW i { w with ser := w.ser ++ [{ e with late := late }], run := true }
        headGo (if late then s.bump (aWrt t 0x1C) else s) t c h

/-- SERIALISER_TAKE. -/
def execSerialiserTake (t c h : Nat) (late : Bool) (s : State) : Res := onHeadCh s t c h (serialiserTake s t c h late)

/-! ### Heaters and arming (R145, R151) -/

/-- WRITE_HEAT: the write heater, and the MODE frame that arms the head. -/
def writeHeat (s : State) (t c h : Nat) : State :=
  let i := headIdx t c h
  let due := (s.headW i).ser ≠ [] ∨ ((s.wrQ t c).any fun e => decide (psaHead e.psa = h)) = true
  if due ∧ armState s t c = 2 ∧ isLoaded s t c then
    let s := sendHeat s t c h (s.fld (aWrtC t c (0x108 + 16 * h)) 9 0)
    let s := sendMode s t c true (Nat.lor (s.arm t c).mask (2 ^ h))
    (s.modHeadW i fun w => { w with run := true, heatAt := some s.now }).setB (aWrtC t c (0x10C + 16 * h)) 1 true
  else s

/-- WRITE_HEAT. -/
def execWriteHeat (t c h : Nat) (s : State) : Res := onHeadCh s t c h (writeHeat s t c h)

/-- Whether a queued sector of a head is due to begin within one revolution (R151): it can be taken, and lies on
the pair that the head is on. -/
def dueSoon (s : State) (t c h : Nat) (e : WrEnt) : Bool :=
  decide (psaHead e.psa = h) && takeable s t c h e &&
    decide ((pairLow s t (psaTrack e.psa) : Int) = pairLow s t (s.headS (headIdx t c h)).home.1.toNat)

/-- WRITE_RUN_END: nothing more is due for the head; RHEAT is sent and the head disarmed. -/
def writeRunEnd (s : State) (t c h : Nat) : State :=
  let i := headIdx t c h
  let w := s.headW i
  if w.run ∧ w.ser = [] ∧ ((s.wrQ t c).any (dueSoon s t c h)) = false then
    let s := s.setHeadW i { w with run := false, heatAt := none }
    let s := s.setB (aWrtC t c (0x10C + 16 * h)) 1 false
    if armState s t c = 2 then
      let s := sendHeat s t c h (s.fld (aWrtC t c (0x108 + 16 * h)) 25 16)
      let m := (s.arm t c).mask
      if m.testBit h then sendMode s t c true (m - 2 ^ h) else s
    else s
  else s

/-- WRITE_RUN_END. -/
def execWriteRunEnd (t c h : Nat) (s : State) : Res := onHeadCh s t c h (writeRunEnd s t c h)

/-! ### Bursts (R54, R55, R142 to R148, R151) -/

/-- Whether the write heater has been on for PREHEAT. -/
def heated (s : State) (t i : Nat) : Bool :=
  match (s.headW i).heatAt with
  | some a => decide (a + us (s.fld (aWrt t 0) 15 0) ≤ s.now)
  | none => false

/-- Where an entry begins on its track's data stream (R55); a calibration track begins at its start. -/
def entStart (e : WrEnt) : Nat := if e.kind = .calib then 0 else streamPos (psaSector e.psa)

/-- The bits an entry puts on its track's data stream: a sector's 37,376, with the track gap after the last of its
track (R55); of a calibration track, all its data spans (R82, R158). -/
def entBits (s : State) (t : Nat) (e : WrEnt) : List Bool :=
  let z := zoneOf s t (psaTrack e.psa)
  if e.kind = .calib then
    (List.range 600).flatMap (calSpan (dataSpan s t z) (decide (pairLow s t (psaTrack e.psa) ≠ psaTrack e.psa)))
  else sectorBits e.bits ++ if psaSector e.psa + 1 = zoneSect s t z then pat1100 (trackGap s t z) else []

/-- How many bits `entBits` gives. -/
def entLen (s : State) (t : Nat) (e : WrEnt) : Nat :=
  let z := zoneOf s t (psaTrack e.psa)
  if e.kind = .calib then 600 * dataSpan s t z
  else 37376 + if psaSector e.psa + 1 = zoneSect s t z then trackGap s t z else 0

/-- Where in its data span a burst of an entry begins, and how many of the entry's bits it writes: up to the
entry's end or the next wedge span (R144). -/
def burstSpan (s : State) (t : Nat) (e : WrEnt) : Nat × Nat :=
  let d := dataSpan s t (zoneOf s t (psaTrack e.psa))
  let off := (entStart e + e.done) % max 1 d
  (off, min (entLen s t e - e.done) (d - off))

/-- What stands before an entry's bits in a burst that is not continuous with another (R144): the resync field at
the start of a data span, else the lead, as much of it as lies in the span. -/
def burstLead (off : Nat) : List Bool := if off = 0 then pat1100 96 else (pat1100 8).drop (8 - min 8 off)

/-- Bits go out on a head's write-data pair (R143, R147, R148): from `off` bits after the wedge span that stands
before data span `k` on, delayed by HGAP, on the phase of the latest wedge and the rate of reader A's sampling
edge. `joined`: the bits before were 0b1100. The first bit of a burst counts as no transition (DESIGN CHOICE,
entry 128). -/
def burstOut (s : State) (t c h psa k : Nat) (off : Int) (joined : Bool) (bits : List Bool) : State :=
  let z := zoneOf s t (psaTrack psa)
  let w := s.reg (aWrtC t c (0x104 + 16 * h))
  let gap := s.fld (aWrtC t c (0x100 + 16 * h)) 17 0
  let first := nth false bits 0
  let prev := if joined then false else first
  if bits = [] then s
  else s.emit (.mediaWrite t c h psa k (s.headW (headIdx t c h)).wtime (s.lane t (laneOf c h 0)).fofs
    (64 * (wedgeSpan s t z + off) + divRound (64 * gap * zoneBits s t z) 4294967296) first
    (transitions (fld w 31 28) (fld w 27 24) false joined prev 0 bits))

/-- The burst of the sector at the head of the serialiser, or the part of a continuous one that it adds. -/
def sendBurst (s : State) (t c h : Nat) (e : WrEnt) (joined : Bool) : State :=
  let d := dataSpan s t (zoneOf s t (psaTrack e.psa))
  let p := burstSpan s t e
  let lead := if joined then [] else burstLead p.1
  burstOut s t c h e.psa ((entStart e + e.done) / max 1 d) ((p.1 : Int) - lead.length) joined
    (lead ++ ((entBits s t e).drop e.done).take p.2)

/-- Whether a head can begin a burst of an entry now: on the entry's track and within the write limit (R22 step 7,
R149, R152), no write-unsafe, its writer armed (R145), no supply or temperature fault of the preamplifier
(R155), and no capture under way. -/
def burstReady (s : State) (t c h : Nat) (e : WrEnt) : Bool :=
  let i := headIdx t c h
  let err := sfld (s.reg (aCtl t c (0x100C + 32 * h))) 15 0
  onTrack s t c h && decide ((s.headS i).home.1 = (psaTrack e.psa : Nat)) && decide (absI err ≤ 16 * s.fld (aWrt t 0) 31 24) &&
    !(s.bit (aCtl t c 4) 31) && s.bit (aWrtC t c (0x10C + 16 * h)) 3 && decide (s.reg (aWrtC t c 0x34) = 0) &&
    decide ((s.head i).curs = [])

/-- WRITE_BURST_START's effect at the angle of the first sector in the serialiser. One whose heater is not on for
PREHEAT, or whose head is booked or off track for a comb booking, is late (R142, R151). -/
def burstStart (s : State) (t c h : Nat) : State :=
  let i := headIdx t c h
  let w := s.headW i
  match w.ser with
  | [] => s
  | e :: rest =>
    if w.gate then s
    else if e.late then headGo (s.setHeadW i { w with ser := { e with late := false } :: rest }) t c h
    else
      match refuseEntry (s.setHeadW i { w with ser := rest }) t c h e with
      | some s => s
      | none =>
        let away := s.bit (aCtl t c (0x100C + 32 * h)) 29 || (decide ((s.ctl t c).shift ≠ 0) && !(onTrack s t c h))
        if !e.begun ∧ (!(heated s t i) ∨ away) then s.bump (aWrt t 0x1C)
        else if !(burstReady s t c h e) then headGo s t c h
        else
          let s := s.setHeadW i { w with ser := { e with begun := true } :: rest }
          sendBurst (setGate s t c h true) t c h e false

/-- WRITE_BURST_START. -/
def execWriteBurstStart (t c h : Nat) (s : State) : Res := onHeadCh s t c h (burstStart s t c h)

/-- A sector whose last burst has ended is written; while VERIFY is 1 it is read back first (R154). -/
def sectorWritten (s : State) (t c h : Nat) (e : WrEnt) : State :=
  let back : Bool := match e.kind with
    | .host | .partner | .marker => s.bit (aWrt t 0) 16
    | _ => false
  if back then s.modHeadW (headIdx t c h) fun w => { w with verify := w.verify ++ [e] } else finishWrite s t e .written

/-- WRITE_BURST_END's effect: at a wedge span the gate is released and the sector goes on in its next burst; a
sector that is complete is written, and the next one that directly follows goes on in the same burst; else the
tail ends it (R144). A burst of a head that is no longer armed was cut (R145). -/
def burstEnd (s : State) (t c h : Nat) : State :=
  let i := headIdx t c h
  let w := s.headW i
  match w.ser with
  | [] => s
  | e :: rest =>
    if !w.gate then s
    else if !(s.bit (aWrtC t c (0x10C + 16 * h)) 3) then cutBurst s t c h
    else
      let d := dataSpan s t (zoneOf s t (psaTrack e.psa))
      let p := burstSpan s t e
      if e.done + p.2 < entLen s t e then
        setGate (s.setHeadW i { w with ser := { e with done := e.done + p.2 } :: rest }) t c h false
      else
        let left := d - (p.1 + p.2)
        let s := s.setHeadW i { w with ser := rest }
        match rest with
        | f :: more =>
          if left ≠ 0 ∧ f.psa = e.psa + 1 ∧ !f.discard ∧ !f.late then
            let s := s.modHeadW i fun w => { w with ser := { f with begun := true } :: more }
            sendBurst (sectorWritten s t c h e) t c h f true
          else
            let s := burstOut s t c h e.psa ((entStart e + e.done) / max 1 d) (p.1 + p.2) true ((pat1100 8).take (min 8 left))
            headGo (sectorWritten (setGate s t c h false) t c h e) t c h
        | [] =>
          let s := burstOut s t c h e.psa ((entStart e + e.done) / max 1 d) (p.1 + p.2) true ((pat1100 8).take (min 8 left))
          headGo (sectorWritten (setGate s t c h false) t c h e) t c h

/-- WRITE_BURST_END. -/
def execWriteBurstEnd (t c h : Nat) (s : State) : Res := onHeadCh s t c h (burstEnd s t c h)

/-! ### Reading back (R154) -/

/-- VERIFY_READ's effect: the sectors of the run that has ended are read back. -/
def verifyRead (s : State) (t c h : Nat) : State :=
  let i := headIdx t c h
  let w := s.headW i
  if w.run ∨ w.verify = [] then s
  else
    let s := s.setHeadW i { w with verify := [], verifying := w.verifying ++ w.verify }
    wantSectors s t c h (w.verify.map fun e => ⟨⟨e.psa, 0, 0, .verify, 7⟩, none, false⟩)

/-- VERIFY_READ. -/
def execVerifyRead (t c h : Nat) (s : State) : Res := onHeadCh s t c h (verifyRead s t c h)

/-! ### Key erase (R156) -/

/-- Every host entry that names an erased slot and has not begun is discarded; one in progress is cut and
not rewritten, and one that is being read back is not rewritten either. -/
def discardSlot (s : State) (slot : Nat) : State :=
  let hit (e : WrEnt) : WrEnt := if e.kind = .host ∧ e.slot = slot then { e with discard := true } else e
  s.tiles.foldl
    (fun s t =>
      let s := s.modWr t fun w => { w with inQ := w.inQ.map hit }
      let s := (List.range 4).foldl (fun s c => s.modWrQ t c fun q => q.map hit) s
      (List.range 96).foldl
        (fun s j =>
          let s := s.modHeadW (96 * t + j) fun w =>
            { w with ser := w.ser.map hit, verify := w.verify.map hit, verifying := w.verifying.map hit }
          match (s.headW (96 * t + j)).ser with
          | e :: _ => if e.discard ∧ (s.headW (96 * t + j)).writing then cutBurst s t (j / 24) (j % 24) else s
          | [] => s) s) s

end Sys2Proof.Machine
end

