-- ==== Sys2Proof/Machine/Cache.lean ====
section
/-! DEFINITION. The buffer as a cache (R362 to R372, R380 to R385): sets, ways and frames, the staging
pool, replacement and eviction, units, fills and the prefetcher's trackers. -/

namespace Sys2Proof.Machine

/-! ### Lines and units (R363, R364) -/

/-- The set of a line (R364). -/
def setOf (s : State) (n l : Nat) : Nat :=
  let k := n * 2 ^ 36 + l
  Nat.xor (Nat.xor k (k / 2 ^ 23)) (k / 2 ^ 46) % 2 ^ 23 % s.part.sets

/-- The line in a way, by its key 16·set + way. -/
def lineOf (s : State) (key : Nat) : Line := Tab.at Line.none s.buf.lines key

/-- The state with a way's line replaced. -/
def setLine (s : State) (key : Nat) (x : Line) : State :=
  { s with buf := { s.buf with lines := Tab.to Line.none s.buf.lines key x } }

/-- The way that holds a line of a namespace. -/
def lineAt (s : State) (n l : Nat) : Option Nat :=
  ((List.range 16).map fun w => 16 * setOf s n l + w).find? fun k =>
    let x := lineOf s k
    decide (x.nsid = n) && decide (x.line = l) && decide (n ≠ 0)

/-- The eviction copy of a line, by its place among the copies. -/
def copyAt (s : State) (n l : Nat) : Option Nat :=
  s.buf.copies.findIdx? fun x => decide (x.nsid = n) && decide (x.line = l)

/-- Unit `u` of a line. -/
def unitAt (l : Line) (u : Nat) : Unit4 := Tab.at Unit4.none l.units u

/-- A line with a unit replaced. -/
def putUnit (l : Line) (u : Nat) (x : Unit4) : Line := { l with units := Tab.to Unit4.none l.units u x }

/-- Where a unit is held: in a way or in an eviction copy. -/
inductive Place where
  | way (key : Nat)
  | copy (i : Nat)
  deriving DecidableEq, Repr

/-- The line at a place. -/
def lineIn (s : State) : Place → Line
  | .way k => lineOf s k
  | .copy i => s.buf.copies.getD i Line.none

/-- The state with the line at a place replaced. -/
def setLineIn (s : State) (p : Place) (x : Line) : State :=
  match p with
  | .way k => setLine s k x
  | .copy i => { s with buf := { s.buf with copies := setNth s.buf.copies i x } }

/-- The unit of a block at a place. -/
def unitIn (s : State) (p : Place) (lba : Nat) : Unit4 := unitAt (lineIn s p) (lba % 16)

/-- The state with the unit of a block at a place replaced. -/
def setUnitIn (s : State) (p : Place) (lba : Nat) (x : Unit4) : State :=
  setLineIn s p (putUnit (lineIn s p) (lba % 16) x)

/-- The places that hold a block's line: its eviction copy before its way. -/
def placesOf (s : State) (n lba : Nat) : List Place :=
  (match copyAt s n (lba / 16) with | some i => [.copy i] | none => []) ++
    (match lineAt s n (lba / 16) with | some k => [.way k] | none => [])

/-- Every place with a line in it. -/
def allPlaces (s : State) : List Place :=
  (s.buf.lines.map fun e => Place.way e.1) ++ (List.range s.buf.copies.length).map Place.copy

/-- Whether some unit of a line has a fill pending. -/
def lineFills (l : Line) : Bool := l.units.any fun e => e.2.fill.isSome

/-- A line leaves its set; a lock that goes with it is counted (R387, R388). -/
def dropLine (s : State) (key : Nat) : State :=
  let s := if (lineOf s key).locked then s.bump (aBuf 0x120) else s
  setLine s key Line.none

/-! ### Replacement (R368) -/

/-- Bit `b` of a way's number, from the root. -/
def wayBit (w d : Nat) : Nat := w / 2 ^ (3 - d) % 2

/-- The tree after a touch of way `w`. -/
def plruTouch (tree w : Nat) : Nat :=
  ((List.range 4).foldl
    (fun (st : Nat × Nat) d =>
      let node := st.1
      let b := wayBit w d
      let t := if b = 0 then Nat.lor st.2 (2 ^ node) else st.2 - (if st.2.testBit node then 2 ^ node else 0)
      (2 * node + 1 + b, t)) (0, tree)).2

/-- The way that the victim search reaches. -/
def plruVictim (tree : Nat) : Nat :=
  ((List.range 4).foldl
    (fun (st : Nat × Nat) _ =>
      let b := if tree.testBit st.1 then 1 else 0
      (2 * st.1 + 1 + b, 2 * st.2 + b)) (0, 0)).2

/-- A way is touched. -/
def touchWay (s : State) (key : Nat) : State :=
  { s with buf := { s.buf with plru := Tab.upd 0 s.buf.plru (key / 16) fun t => plruTouch t (key % 16) } }

/-- Whether a write at its turn is putting data into a line. -/
def takesData (s : State) (n l : Nat) : Bool :=
  (liveCmds s).any fun e =>
    let c := e.2
    decide (c.cls = .wr) && c.turned && !c.visible && !c.void && decide (c.nsid = n) &&
      decide (c.lo / 16 ≤ l) && decide (l ≤ (c.lo + c.len - 1) / 16)

/-- Whether a way may be a victim. -/
def eligibleWay (s : State) (key : Nat) : Bool :=
  let x := lineOf s key
  decide (x.nsid ≠ 0) && !x.locked && !(lineFills x) && !(takesData s x.nsid x.line)

/-- The victim of a set among the ways that satisfy `ok`: the way the search reaches, or the next. -/
def victim (s : State) (set : Nat) (ok : Nat → Bool) : Option Nat :=
  let w0 := plruVictim (Tab.at 0 s.buf.plru set)
  ((List.range 16).map fun i => 16 * set + (w0 + i) % 16).find? ok

/-! ### Frames (R362, R365, R367) -/

/-- Frames that a line, a copy or the staging pool holds by number. -/
def usedFrames (s : State) : List Nat :=
  (s.buf.lines.map fun e => e.2.frame) ++ (s.buf.copies.map (·.frame)) ++ s.buf.stage.map (·.1) ++ guardFrames s

/-- Whether a frame is on the free list, when those of `more` are spoken for. -/
def frameFree (s : State) (more : List Nat) : Bool := decide (lineCount s + stageFrames s + more.length < s.part.frames)

/-- Clean lines that the reclaimer may drop. -/
def reclaimable (s : State) : List Nat :=
  (s.buf.lines.map (·.1)).filter fun k => eligibleWay s k && !(lineOf s k).dirty

/-- The next set in round-robin order that holds a reclaimable line. -/
def nextReclaim (s : State) : Option Nat :=
  let far (set : Nat) : Nat := (set + s.part.sets - s.buf.reclaim % s.part.sets) % s.part.sets
  (reclaimable s).foldl
    (fun b k =>
      match b with
      | none => some (k / 16)
      | some x => if far (k / 16) < far x then some (k / 16) else b) none

/-- A frame: from the free list, the lowest free, or reclaimed from a clean line; none: the request waits.
Frames of `more` are spoken for. -/
def takeFrame (s : State) (more : List Nat) : Option (State × Nat) :=
  if frameFree s more then
    let used := usedFrames s ++ more
    (lowestFree used (used.length + 1)).map fun f => (s, f)
  else
    match nextReclaim s with
    | none => none
    | some set =>
      (victim s set fun k => eligibleWay s k && !(lineOf s k).dirty).map fun k =>
        let f := (lineOf s k).frame
        let s := setLine s k Line.none
        ({ s with buf := { s.buf with reclaim := (set + 1) % s.part.sets } }, f)

/-- A staging page for a block of a command: in a frame of the pool with a free page, else in a new frame. -/
def takePage (s : State) (cmd blk : Nat) : Option State :=
  match s.buf.stage.findIdx? fun f => decide (f.2.length < 16) with
  | some i =>
    some { s with buf := { s.buf with
      stage :=
        let f := nth (0, []) s.buf.stage i
        setNth s.buf.stage i (f.1, f.2 ++ [⟨cmd, blk, (lowestFree (f.2.map (·.ix)) 16).getD 0⟩]) } }
  | none =>
    (takeFrame s []).map fun r => { r.1 with buf := { r.1.buf with stage := r.1.buf.stage ++ [(r.2, [⟨cmd, blk, 0⟩])] } }

/-- The page number of a block's staging page, if it has one. -/
def pageOfBlk (s : State) (cmd blk : Nat) : Option Nat :=
  s.buf.stage.findSome? fun f =>
    (f.2.find? fun g => decide (g.cmd = cmd) && decide (g.blk = blk)).map fun g => 16 * f.1 + g.ix

/-- Whether a block already has a staging page. -/
def hasPage (s : State) (cmd blk : Nat) : Bool := (pageOfBlk s cmd blk).isSome

/-- The limit of R366 on dirty lines and locked clean ones. -/
def dirtyLimit (s : State) : Nat := s.part.frames - s.fld (aBuf 0) 31 24 * 16384

/-- Lines with a dirty unit, and locked ones without. -/
def dirtyUse (s : State) : Nat := (s.buf.lines.filter fun e => e.2.dirty || e.2.locked).length

/-! ### Allocation and eviction (R368, R369, R380) -/

/-- How asking for a way ends. -/
inductive Alloc where
  | got (s : State) (key : Nat)
  /-- every way is ineligible -/
  | full
  /-- no frame can be had -/
  | wait

/-- A new line of a namespace, with its guard slot if it has one. -/
def freshLine (n l f : Nat) (slot : Option Nat) : Line := ⟨n, l, f, false, false, [], slot⟩

/-- A guard slot for a line of a namespace with LBA format 1 (R363, R365): the lowest free one of the guard frames,
else the first of a new frame; none: the request waits. Another line has none. -/
def takeSlot (s : State) (n : Nat) : Option (State × Option Nat) :=
  if !(nsGuard s n) then some (s, none)
  else
    let used := guardSlots s
    match ((guardFrames s).flatMap fun f => (List.range 256).map fun k => 256 * f + k).filter fun k => !(used.contains k) with
    | k :: rest => some (s, some (rest.foldl min k))
    | [] => (takeFrame s []).map fun r => (r.1, some (256 * r.2))

/-- The frames that a slot not yet in its line speaks for. -/
def slotFrame (slot : Option Nat) : List Nat := slot.toList.map fun k => k / 256

/-- The 32 bytes that hold the object guard of a block of a line with a guard slot, by their number in HBM: a slot has
16 bytes for each of its 16 blocks (R363, R395). -/
def guardUnit (slot lba : Nat) : Nat := 8 * slot + lba % 16 / 2

/-- An object guard is written to its line's guard slot (R363): a part of a page (R400). -/
def guardWritten (s : State) (x : Line) : State :=
  match x.slot with
  | some k => pagePart s (k / 16)
  | none => s

/-- The dirty victim becomes an eviction copy (R380): its dirty units are eligible at once. -/
def evictCopy (s : State) (x : Line) : State :=
  let y : Line := { x with inval := false, units := x.units.map fun e => (e.1, if e.2.dirty then { e.2 with elig := true } else e.2) }
  ({ s with buf := { s.buf with copies := s.buf.copies ++ [y] } } : State).bump (aBuf 0x108)

/-- A way for a line of a namespace that is in no way. -/
def allocWay (s : State) (n l : Nat) (slot : Option Nat) : Alloc :=
  let set := setOf s n l
  match ((List.range 16).map fun w => 16 * set + w).find? fun k => decide ((lineOf s k).nsid = 0) with
  | some k =>
    match takeFrame s (slotFrame slot) with
    | none => .wait
    | some r => .got (setLine r.1 k (freshLine n l r.2 slot)) k
  | none =>
    match victim s set (eligibleWay s) with
    | none => .full
    | some k =>
      let x := lineOf s k
      if x.dirty then
        match takeFrame s (slotFrame slot) with
        | none => .wait
        | some r => .got (setLine (evictCopy r.1 x) k (freshLine n l r.2 slot)) k
      else .got (setLine s k (freshLine n l x.frame slot)) k

/-- A line of a namespace takes a guard slot, if its LBA format has guards, and a way. -/
def allocLine (s : State) (n l : Nat) : Alloc :=
  match takeSlot s n with
  | none => .wait
  | some r => allocWay r.1 n l r.2

/-! ### Waiting commands (R366, R367, R369, R381) -/

/-- A command waits in the buffer; it is counted once for each reason (R366, R367, R381). -/
def bufWait (s : State) (i : Nat) (counter : Nat) : State :=
  let s : State := if i ∈ s.buf.waits then s else { s with buf := { s.buf with waits := s.buf.waits ++ [i] } }
  if counter = 0 ∨ counter ∈ (s.cmd i).waited then s
  else (s.setCmd i { s.cmd i with waited := counter :: (s.cmd i).waited }).bump (aBuf counter)

/-- A command no longer waits. -/
def bufGo (s : State) (i : Nat) : State := { s with buf := { s.buf with waits := s.buf.waits.filter fun j => j ≠ i } }

/-! ### Media requests (R36, R386, R497) -/

/-- The state a tile has last reached, in PWR.TILE. -/
def pwrTile (s : State) (t : Nat) : Nat := s.fld (aPwr 8) (4 * t + 3) (4 * t)
/-- PWR.TILE of a tile set. -/
def setPwrTile (s : State) (t n : Nat) : State := s.setF (aPwr 8) (4 * t + 3) (4 * t) n

/-- AUTOWAKE (R497): a media request for a tile in PS2 or PS3 raises it to PS1. -/
def autoWake (s : State) (t : Nat) : State :=
  if s.bit (aPwr 4) 31 ∧ (pwrTile s t = 2 ∨ pwrTile s t = 3) ∧ !(moving s t) ∧ !(tileRetired s t) ∧
      9 ≤ s.power.boot ∧ s.power.deep = .awake ∧ tileTarget s t ≠ 4 then
    let p := s.power
    { s with power := { p with goal := Tab.to none p.goal t (some 1), auto := t :: p.auto.filter fun x => x ≠ t } }
  else s

/-- A media request is placed at the hub for its tile. -/
def holdRequest (s : State) (r : MediaReq) : State :=
  let t := psaTile r.psa
  autoWake { s with buf := { s.buf with held := Tab.to [] s.buf.held t (Tab.at [] s.buf.held t ++ [r]) } } t

/-! ### Blocks of reads (R370 to R372) -/

/-- The kind of media read a command makes. -/
def reqKind (c : Cmd) : ReqKind :=
  match c.origin with
  | .host => .host
  | .prefetch => .prefetch
  | .lock => .lock

/-- A block's data can be sent; one of the device's own reads sends nothing and ends with its last block. -/
def blkReady (s : State) (i b : Nat) (data : Payload) : State :=
  let c := s.cmd i
  if c.origin = .host then s.setCmd i (c.setBlk b { (c.blk b) with st := .ready, data := data })
  else
    let c := c.setBlk b { (c.blk b) with st := .sent, data := [] }
    let s := freePage (s.setCmd i c) i b
    if c.allSent then completeCmd s i .ok else s

/-- A block is dropped at the hub without media access, counted in NQ.HDROP (R186). -/
def hubDrop (s : State) (i b : Nat) (x : Cause) : State :=
  let c := s.cmd i
  let s := s.bump (aNq 0x38)
  if c.origin = .host then dropBlk s i b x else blkReady s i b []

/-- Whether a block of a zoned namespace lies at or beyond its zone's write pointer (R354). -/
def unwritten (s : State) (n lba : Nat) : Bool :=
  nsZoned s n && decide ((zoneAt s n (zoneIx s n lba)).written ≤ lba - zoneIx s n lba * zoneSize s n)

/-- A media read of block `b` of command `i`, or a drop of it where its pair is retired or stale (R196,
R378). -/
def askMedia (s : State) (i b : Nat) : State :=
  let c := s.cmd i
  let p := psaOf s c.nsid (c.lba b)
  if headRetired s (psaTile p) (psaCluster p) (psaHead p) ∨ isStale s p then hubDrop s i b .retired
  else
    let s := s.setCmd i (c.setBlk b { (c.blk b) with st := .fill })
    holdRequest (s.bump (aBuf 0x104)) ⟨p, i, b, reqKind c, c.cap6⟩

/-- Whether a block's media read would be dropped at the hub. -/
def mediaBarred (s : State) (n lba : Nat) : Bool :=
  let p := psaOf s n lba
  headRetired s (psaTile p) (psaCluster p) (psaHead p) || isStale s p

/-- The read of a block that its line or copy holds. -/
def serveUnit (s : State) (i b : Nat) (p : Place) : State :=
  let c := s.cmd i
  let lba := c.lba b
  let u := unitIn s p lba
  if u.lost then hubDrop s i b .media
  else if c.origin ≠ .host then blkReady s i b []
  else
    let s := s.bump (aBuf 0x100)
    let s := match p with
      | .way k => touchWay s k
      | .copy _ => s.bump (aBuf 0x10C)
    let s := if u.pf then setUnitIn (s.bump (aBuf 0x12C)) p lba { u with pf := false } else s
    blkReady s i b (if u.zero then [] else u.data)

/-- The read of a block lands in staging. -/
def missStaged (s : State) (i b counter : Nat) : State × Bool :=
  if hasPage s i b then (askMedia s i b, true)
  else
    match takePage s i b with
    | none => (bufWait s i 0x118, false)
    | some s => (askMedia (if counter = 0 then s else s.bump (aBuf counter)) i b, true)

/-- Whether an earlier block of a read, in the same line, has landed in staging: BUF.SETFULL counts each line of a read
once (R369, R371; entry 140). -/
def lineStaged (s : State) (i b : Nat) : Bool :=
  let c := s.cmd i
  (List.range b).any fun k => decide (c.lba k / 16 = c.lba b / 16) && hasPage s i k

/-- The read of a block lands in its line: the unit's fill is pending. -/
def missLine (s : State) (i b key : Nat) : State :=
  let lba := (s.cmd i).lba b
  if mediaBarred s (s.cmd i).nsid lba then askMedia s i b
  else
    let u := unitIn s (.way key) lba
    askMedia (setUnitIn s (.way key) lba { u with fill := some i, gone := false }) i b

/-- One idle block of a read is served, joins a fill, or goes to the media; false: it must wait. -/
def readBlk (s : State) (i b : Nat) : State × Bool :=
  let c := s.cmd i
  let n := c.nsid
  let lba := c.lba b
  if unwritten s n lba then (blkReady s i b [], true)
  else
    let cp := match copyAt s n (lba / 16) with
      | some j => if (unitIn s (.copy j) lba).valid then some (Place.copy j) else none
      | none => none
    match lineAt s n (lba / 16), cp with
    | some k, _ =>
      let u := unitIn s (.way k) lba
      if u.fill.isSome then
        if u.gone then missStaged s i b 0
        else (s.setCmd i (c.setBlk b { (c.blk b) with st := .fill }), true)
      else if u.valid then (serveUnit s i b (.way k), true)
      else
        match cp with
        | some p => (serveUnit s i b p, true)
        | none => (missLine s i b k, true)
    | none, some p => (serveUnit s i b p, true)
    | none, none =>
      if mediaBarred s n lba then (askMedia s i b, true)
      else if c.stream then missStaged s i b 0x134
      else
        match allocLine s n (lba / 16) with
        | .got s k => (missLine s i b k, true)
        | .full => missStaged s i b (if lineStaged s i b then 0 else 0x11C)
        | .wait => (bufWait s i 0x118, false)

/-- Every idle block of a read in order, up to the first that must wait. -/
def readBlks (i : Nat) : List Nat → State → State
  | [], s => bufGo s i
  | b :: rest, s =>
    if (s.cmd i).live ∧ ((s.cmd i).blk b).st = .idle then
      let r := readBlk s i b
      if r.2 then readBlks i rest r.1 else r.1
    else readBlks i rest s

/-- A read's blocks proceed. -/
def readProgress (s : State) (i : Nat) : State := readBlks i (List.range (s.cmd i).len) s

/-! ### Squirrel (R382 to R385) -/

/-- Whether a command of `n` blocks from `slba` follows a tracker. -/
def follows (x : Tracker) (n slba : Nat) : Bool :=
  decide (x.nsid = n) && (decide (slba = x.last + x.len) || decide ((slba : Int) = x.last + x.stride))

/-- A stream tracker takes a host command (R382). -/
def trackStream (s : State) (n slba len : Nat) (write : Bool) : State × Tracker :=
  let ts := s.buf.trackers
  let r : List Tracker × Tracker :=
    match ts.findIdx? fun x => follows x n slba with
    | some i =>
      let x := nth ⟨0, 0, 0, 0, 0, 0, false⟩ ts i
      let d : Int := (slba : Int) - x.last
      let x := if d = x.stride then { x with conf := min (x.conf + 1) 15 } else { x with stride := d, conf := 1 }
      (ts.eraseIdx i, x)
    | none => (if ts.length < 1024 then ts else ts.drop 1, ⟨n, 0, 0, 0, 0, 0, write⟩)
  let x := r.2
  let run := if 0 < x.run ∧ slba = x.last + x.len ∧ write = x.write then x.run + len else len
  let x := { x with run := run, last := slba, len := len, write := write }
  ({ s with buf := { s.buf with trackers := r.1 ++ [x] } }, x)

/-- Whether a tracker is streaming (R385). -/
def streaming (s : State) (x : Tracker) : Bool :=
  let m := s.fld (aBuf 4) 15 0
  decide (m ≠ 0) && decide (m * 256 ≤ x.run)

/-- The lines that a confirmed read tracker asks for, with the units asked of each (R383). -/
def prefetchLines (s : State) (x : Tracker) : List (Nat × List Nat) :=
  let depth := s.fld (aBuf 4) 31 24
  if depth = 0 ∨ x.stride = 0 ∨ x.write ∨ x.conf < max 1 (s.fld (aBuf 4) 23 20) then []
  else if x.stride = (x.len : Int) then
    let l := (x.last + x.len - 1) / 16
    (List.range depth).map fun i => (l + 1 + i, List.range 16)
  else if x.stride.natAbs ≤ 2 ^ 24 then
    let bs := (List.range depth).flatMap fun (i : Nat) =>
      (List.range x.len).filterMap fun (j : Nat) =>
        let b : Int := (x.last : Int) + ((i : Int) + 1) * x.stride + (j : Int)
        if b < 0 then none else some b.toNat
    let ls := bs.foldl (fun (acc : List Nat) b => if acc.contains (b / 16) then acc else acc ++ [b / 16]) []
    ls.map fun l => (l, (bs.filter fun b => decide (b / 16 = l)).map (· % 16))
  else []

/-- Whether units of a line are all valid or pending. -/
def lineServed (s : State) (n l : Nat) (us : List Nat) : Bool :=
  match lineAt s n l with
  | none => false
  | some k => us.all fun u => (unitAt (lineOf s k) u).valid || (unitAt (lineOf s k) u).fill.isSome

/-- A read of the device's own for a line (R384, R386), placed at its ordering point. -/
def ownRead (s : State) (n l : Nat) (o : Origin) : State :=
  let hi := min (16 * l + 16) (nsSize s n)
  let q := s.nq
  let c : Cmd :=
    { Cmd.none with
      live := true, origin := o, cls := .rd, nsid := n, lo := 16 * l, hi := hi, place := some q.nextPlace
      blks := List.replicate (hi - 16 * l) Blk.idle, cap6 := 7 }
  { s with nq := { q with
      cmds := Tab.to Cmd.none q.cmds q.nextCmd c, nextCmd := q.nextCmd + 1, nextPlace := q.nextPlace + 1 } }

/-- Whether an intake place is free for an I/O command (R327). -/
def ioPlaceFree (s : State) : Bool := decide (ioOutstanding s < 131072)

/-- The prefetches a read tracker requests (R383, R384). -/
def prefetch (s : State) (n : Nat) (x : Tracker) : State :=
  (prefetchLines s x).foldl
    (fun s e =>
      if nsSize s n ≤ 16 * e.1 ∨ lineServed s n e.1 e.2 then s
      else
        let s := s.bump (aBuf 0x128)
        if ioPlaceFree s then ownRead s n e.1 .prefetch else s.bump (aBuf 0x130)) s

end Sys2Proof.Machine
end

