-- ==== Sys2Proof/Machine/Buffer.lean ====
section
/-! DEFINITION. The buffer at work: landing sectors (R371, R372), write data on its way to visibility
(R373, R374), cleaning and write results (R375 to R379), evictions, invalidation (R387, R388), locks
(R386), the deadline instant (R184, R186) and what an uncorrectable unit does (R397, R398). -/

namespace Sys2Proof.Machine

/-! ### Commands that wait for the media (R336, R374, R377) -/

/-- Whether a command's range takes in a namespace's blocks as a Flush does. -/
def coversNs (c : Cmd) (n : Nat) : Bool := c.all || decide (c.nsid = n)

/-- Whether every zone pointer of a command's namespaces has been recorded (R336, R353). -/
def recordsOk (s : State) (c : Cmd) : Bool :=
  (s.nq.reached ++ s.nq.recorded).all fun e =>
    !(coversNs c (e.1 / 2 ^ 20)) || decide (Tab.at 0 s.nq.recorded e.1 = Tab.at 0 s.nq.reached e.1)

/-- A command whose data has all reached the media completes, if that is what it waits for. -/
def tryEnd (s : State) (i : Nat) : State :=
  let c := s.cmd i
  if !c.live ∨ c.units ≠ [] then s
  else
    match c.cls with
    | .wr => if c.visible then completeCmd (s.setCmd i { c with onMedia := true }) i c.status else s
    | .fl => if c.done ∧ recordsOk s c then completeCmd s i c.status else s
    | .none => if c.done then completeCmd s i c.status else s
    | _ => s

/-- Commands that wait for a block to reach the media. -/
def waitersOf (s : State) (n lba : Nat) : List Nat :=
  ((liveCmds s).filter fun e => e.2.units.contains (n, lba)).map (·.1)

/-- A block's wait ends for some commands, with a status. -/
def unitDone (s : State) (n lba : Nat) (who : List Nat) (st : Status) : State :=
  who.foldl
    (fun s i =>
      let c := s.cmd i
      if c.units.contains (n, lba) then
        tryEnd (s.setCmd i { c with units := c.units.filter fun x => x ≠ (n, lba), status := c.status.orElse st }) i
      else s) s

/-- The dirty units of a command's namespaces. -/
def dirtyOf (s : State) (c : Cmd) : List (Nat × Nat) :=
  (allPlaces s).flatMap fun p =>
    let l := lineIn s p
    if coversNs c l.nsid then (l.units.filter fun e => e.2.dirty).map fun e => (l.nsid, 16 * l.line + e.1) else []

/-- Every unit of every place changed. -/
def mapUnits (s : State) (f : Nat → Nat → Unit4 → Unit4) : State :=
  (allPlaces s).foldl
    (fun s p =>
      let l := lineIn s p
      setLineIn s p { l with units := l.units.map fun e => (e.1, f l.nsid (16 * l.line + e.1) e.2) }) s

/-- Units made eligible for cleaning: dirty ones that satisfy `p` (R375). -/
def makeEligible (s : State) (p : Nat → Nat → Unit4 → Bool) (urgent : Bool) : State :=
  mapUnits s fun n lba u => if u.dirty && p n lba u then { u with elig := true, urgent := u.urgent || urgent } else u

/-! ### Discarding units (R377, R381, R387, R389) -/

/-- A unit loses its contents: a dirty one is counted, a media write in flight is left to end unheeded,
and a fill completes for its reads only. -/
def discardUnit (s : State) (p : Place) (lba : Nat) (st : Status) : State :=
  let n := (lineIn s p).nsid
  let u := unitIn s p lba
  let s := setUnitIn s p lba { Unit4.none with fill := u.fill, gone := u.fill.isSome }
  let s : State := if u.inflight then { s with buf := { s.buf with orphans := s.buf.orphans ++ [(n, lba)] } } else s
  if u.dirty then unitDone (s.bump (aBuf 0x138)) n lba (waitersOf s n lba) st else s

/-- A line with no valid unit and no fill pending leaves its set (R387). -/
def leaveIfEmpty (s : State) (key : Nat) : State :=
  let l := lineOf s key
  if l.nsid ≠ 0 ∧ !(lineFills l) ∧ !(l.units.any fun e => e.2.valid) then dropLine s key else s

/-- The blocks of a range are invalidated in every line and copy (R387, R381). -/
def invalidate (s : State) (n lo hi : Nat) (st : Status) : State :=
  let here := (allPlaces s).filter fun p =>
    let l := lineIn s p
    decide (l.nsid = n) && decide (lo < 16 * l.line + 16) && decide (16 * l.line < hi)
  let s := here.foldl
    (fun s p =>
      let l := lineIn s p
      (l.units.map (·.1)).foldl
        (fun s u => let b := 16 * l.line + u; if lo ≤ b ∧ b < hi then discardUnit s p b st else s) s) s
  here.foldl (fun s p => match p with | .way k => leaveIfEmpty s k | .copy _ => s) s

/-- Lines named by an INVALL leave once they have no dirty unit; with the last, INVBUSY falls (R388). -/
def invCheck (s : State) : State :=
  if !(s.bit (aBuf 0x10) 31) then s
  else
    let s := (s.buf.lines.map (·.1)).foldl
      (fun s k => let l := lineOf s k; if l.inval ∧ !l.dirty ∧ !(lineFills l) then dropLine s k else s) s
    if s.buf.lines.any fun e => e.2.inval then s else irqEdge (s.setB (aBuf 0x10) 31 false) 0 40

/-! ### Landing (R371, R372, R397) -/

/-- The commands whose read of a block waits for its fill, and the block. -/
def joinersOf (s : State) (n lba : Nat) : List (Nat × Nat) :=
  (liveCmds s).flatMap fun e =>
    let c := e.2
    if c.cls = .rd ∧ c.nsid = n ∧ c.lo ≤ lba ∧ lba < c.lo + c.len ∧ (c.blk (lba - c.lo)).st = .fill ∧
        !(hasPage s e.1 (lba - c.lo)) then [(e.1, lba - c.lo)] else []

/-- A dropped block of a read: sent as zeros; one of the device's own reads just passes it. -/
def dropRead (s : State) (i b : Nat) (x : Cause) : State :=
  if (s.cmd i).origin = .host then dropBlk s i b x else blkReady s i b []

/-- What a fill ends in: data, a drop with its cause, or nothing (its read was ended). -/
inductive FillEnd where
  | data (bs : Payload)
  | drop (x : Cause)
  | ended
  deriving DecidableEq, Repr

/-- Whether a joining read issues its own media read after a fill ended without data (R372). -/
def ownRetry (c : Cmd) (req : MediaReq) (own : Bool) (e : FillEnd) : Bool :=
  match e with
  | .data _ => false
  | .ended => !own
  | .drop _ => !own && (decide (req.cap < c.cap6) || (decide (c.origin = .host) && decide (req.kind ≠ .host)))

/-- A fill of a unit ends: the unit takes the data unless it is gone, and the reads that joined take the
outcome, or read the media themselves. -/
def fillEnds (s : State) (key lba : Nat) (req : MediaReq) (e : FillEnd) : State :=
  let n := (lineOf s key).nsid
  let u := unitIn s (.way key) lba
  let u' : Unit4 :=
    match e with
    | .data bs =>
      if u.gone then { u with fill := none, gone := false }
      else { u with fill := none, valid := true, dirty := false, zero := false, lost := false, pf := decide (req.kind = .prefetch), data := bs }
    | _ => { u with fill := none, gone := false }
  let s := setUnitIn s (.way key) lba u'
  let s :=
    match e with
    | .data _ =>
      let s := guardWritten (pageWritten s (16 * (lineOf s key).frame + lba % 16)) (lineOf s key)
      if req.kind = .host then touchWay s key else s
    | _ => s
  let s := (joinersOf s n lba).foldl
    (fun s j =>
      let c := s.cmd j.1
      let own := decide (j.1 = req.cmd)
      match e with
      | .data bs => blkReady s j.1 j.2 bs
      | _ =>
        if ownRetry c req own e then
          if (unitIn s (.way key) lba).fill.isSome then s else missLine s j.1 j.2 key
        else
          match e with
          | .drop x => dropRead s j.1 j.2 x
          | _ => s) s
  let l := lineOf s key
  invCheck (if l.locked ∧ !u.gone then s else leaveIfEmpty s key)

/-- The unit whose fill a media read is, found by its PSA. -/
def fillOf (s : State) (i psa : Nat) : Option (Nat × Nat) :=
  s.buf.lines.findSome? fun e =>
    e.2.units.findSome? fun x =>
      let lba := 16 * e.2.line + x.1
      if x.2.fill = some i ∧ psaOf s e.2.nsid lba = psa then some (e.1, lba) else none

/-- A block of a read takes its sector in staging. -/
def landStaged (s : State) (i b : Nat) (e : FillEnd) : State :=
  let c := s.cmd i
  if !c.live ∨ (c.blk b).st ≠ .fill then s
  else
    match e with
    | .data bs =>
      let s := match pageOfBlk s i b with
        | some p => pageWritten s p
        | none => s
      blkReady s i b bs
    | .drop x => dropRead s i b x
    | .ended => s

/-- The outcome of a media read reaches the buffer. -/
def landOutcome (s : State) (psa : Nat) (req : MediaReq) (e : FillEnd) : State :=
  match fillOf s req.cmd psa with
  | some (key, lba) => fillEnds s key lba req e
  | none => landStaged s req.cmd req.blk e

/-- A lock command ends when its last line is locked and filled (R386). -/
def lockCheck (s : State) : State :=
  if s.bit (aBuf 0x40) 31 ∧ s.buf.lockFill = [] ∧ !((liveCmds s).any fun e => decide (e.2.origin = .lock)) then
    irqEdge ((s.setB (aBuf 0x40) 31 false).setB (aBuf 0x10) 30 false) 0 41
  else s

/-! ### Sending a read's blocks (R20 step 14, R21, R365) -/

/-- Whether data can be sent on a queue pair: its sub-port is up and its data priority is not stopped
(R302, R305). -/
def canSend (s : State) (n : Nat) : Bool :=
  let q := s.qp n
  decide (s.fld (aHpt q.port 4) (4 * q.sub + 3) (4 * q.sub) = 2) &&
    !((s.sub (4 * q.port + q.sub)).paused.any fun e => decide (e.1 = s.fld (aHpt q.port 0x14) 25 23))

/-- Bytes of a block on the wire: 4,096, and 16 of guard with LBA format 1 (R343). -/
def blkBytes (s : State) (n : Nat) : Nat := if nsGuard s n then 4112 else 4096

/-- A payload of exactly `n` bytes: cut, or filled with zeros. -/
def padTo (n : Nat) (bs : Payload) : Payload := bs.take n ++ zeros (n - bs.length)

/-- A block goes to the host by RDMA Write; its landing page is freed. -/
def sendBlk (s : State) (i b : Nat) : State :=
  let c := s.cmd i
  let x := c.blk b
  let n := blkBytes s c.nsid
  let s := s.emit (.rdmaWrite c.qp (c.cap.sglAddr + n * b) c.cap.sglKey (padTo n x.data))
  let s := sendPkt s c.qp 1 i b n
  let c := s.cmd i
  freePage (s.setCmd i (c.setBlk b { x with st := .sent, data := [] })) i b

/-- RDMA_DATA_SEND's effect; while the sub-port cannot send, up to 64 segments wait in the port's transmit
queue (R28). -/
def rdmaDataSend (s : State) (i b : Nat) : State :=
  let c := s.cmd i
  if !c.live ∨ c.len ≤ b ∨ (c.blk b).st ≠ .ready ∨ c.cls ≠ .rd ∨ c.origin ≠ .host ∨ c.old then s
  else if canSend s c.qp then
    let p := (s.qp c.qp).port
    sendBlk { s with nq := { s.nq with tx := Tab.upd [] s.nq.tx p fun l => l.filter fun x => x ≠ (i, b) } } i b
  else
    let p := (s.qp c.qp).port
    let q := Tab.at [] s.nq.tx p
    if q.contains (i, b) ∨ 64 ≤ q.length then s
    else { s with nq := { s.nq with tx := Tab.to [] s.nq.tx p (q ++ [(i, b)]) } }

/-- A port's transmit queue is sent as far as it can be. -/
def drainTx (s : State) (p : Nat) : State :=
  (Tab.at [] s.nq.tx p).foldl
    (fun s x => if canSend s (s.cmd x.1).qp then rdmaDataSend s x.1 x.2 else s) s

/-- READ_COMPLETION: every block of the read has been sent. -/
def execReadCompletion (i : Nat) (s : State) : Res :=
  .next
    (let c := s.cmd i
     if c.live ∧ c.cls = .rd ∧ c.origin = .host ∧ c.allSent ∧ c.len ≠ 0 then completeRead s i else s)

/-! ### Reads that end early (R184, R186, R190, R372) -/

/-- Whether a media read is still at the hub or in a ladder context, so that ending its command ends it. -/
def cutShort (s : State) (i b : Nat) : Bool :=
  let mine (q : MediaReq) : Bool := decide (q.cmd = i) && decide (q.blk = b)
  s.tiles.any fun t =>
    (Tab.at [] s.buf.held t).any mine || (openCtxs s t).any fun e => mine e.2.want.req

/-- The media reads of a command that are cut short: the requests at the hub are withdrawn, the contexts
end, and the fills end for the reads that joined them. -/
def endMedia (s : State) (i : Nat) : State :=
  let c := s.cmd i
  let cut := (List.range c.len).filter fun b => cutShort s i b
  let s := s.tiles.foldl
    (fun s t =>
      let s : State := { s with buf := { s.buf with
        held := Tab.to [] s.buf.held t ((Tab.at [] s.buf.held t).filter fun q => q.cmd ≠ i) } }
      (openCtxs s t).foldl (fun s e => if e.2.want.req.cmd = i then endCtx s t e.1 else s) s) s
  cut.foldl
    (fun s b =>
      let p := psaOf s c.nsid (c.lba b)
      match fillOf s i p with
      | some (key, lba) => fillEnds s key lba ⟨p, i, b, reqKind c, c.cap6⟩ .ended
      | none => s) s

/-- Blocks of a read whose plaintext has not reached the buffer. -/
def undelivered (c : Cmd) : List Nat :=
  (List.range c.len).filter fun b => decide ((c.blk b).st = .idle ∨ (c.blk b).st = .fill) && (c.blk b).drop.isNone

/-- A sector of a command is dropped at the hub or in its tile, and counted where it lay (R186). -/
def dropCounted (s : State) (i b : Nat) (x : Cause) : State :=
  let c := s.cmd i
  let t := psaTile (psaOf s c.nsid (c.lba b))
  let held := (c.blk b).st == .idle || (Tab.at [] s.buf.held t).any fun q => decide (q.cmd = i) && decide (q.blk = b)
  dropBlk (if held then s.bump (aNq 0x38) else s.bump (aTile t (0x1080 + 4 * x.code))) i b x

/-- DEADLINE_INSTANT's effect (R184). -/
def deadlineInstant (s : State) (i : Nat) : State :=
  let c := s.cmd i
  match c.deadline with
  | none => s
  | some d =>
    if !c.live ∨ c.cls ≠ .rd ∨ s.now < d then s
    else
      let s := (undelivered c).foldl (fun s b => dropCounted s i b .deadline) s
      let s := bufGo (endMedia s i) i
      dispatchPacket (s.setCmd i { s.cmd i with deadline := none, turned := true }) 0xF1 (w32 i) 0

/-- DEADLINE_INSTANT. -/
def execDeadlineInstant (i : Nat) (s : State) : Res := .next (deadlineInstant s i)

/-- A tile leaves service with reads in flight: their sectors are dropped with cause TILE (R18, R36). -/
def dropTileReads (s : State) (t : Nat) : State :=
  let onTile (c : Cmd) (b : Nat) : Bool := decide (psaTile (psaOf s c.nsid (c.lba b)) = t)
  let held := Tab.at [] s.buf.held t
  let s : State := { s with buf := { s.buf with held := Tab.to [] s.buf.held t [], cipherIn := Tab.to [] s.buf.cipherIn t [] } }
  (liveCmds s).foldl
    (fun s e =>
      let c := e.2
      if c.cls ≠ .rd then s
      else
        (List.range c.len).foldl
          (fun s b =>
            if ((s.cmd e.1).blk b).st = .fill ∧ onTile c b then
              let p := psaOf s c.nsid (c.lba b)
              let s := if held.any fun q => decide (q.cmd = e.1) && decide (q.blk = b) then s.bump (aNq 0x38) else s
              landOutcome s p ⟨p, e.1, b, reqKind c, 7⟩ (.drop .tile)
            else s) s) s

/-! ### Writes (R366, R373, R374) -/

/-- Blocks of a command's queue pair that are being fetched. -/
def fetching (s : State) (qp : Nat) : Nat :=
  ((liveCmds s).map fun e =>
    if e.2.qp = qp then (e.2.blks.filter fun x => decide (x.st = .fetching)).length else 0).foldl (· + ·) 0

/-- The RDMA Reads of a write's blocks, at most 16 at a time on its queue pair (R308, R365). -/
def fetchBlks (i : Nat) : List Nat → State → State
  | [], s => s
  | b :: rest, s =>
    let c := s.cmd i
    if (c.blk b).st ≠ .idle then fetchBlks i rest s
    else if 16 ≤ fetching s c.qp ∨ !(canSend s c.qp) then s
    else
      let go (s : State) : State :=
        let n := blkBytes s c.nsid
        let s := s.emit (.rdmaRead c.qp i b (c.cap.sglAddr + n * b) c.cap.sglKey n)
        let s := sendPkt s c.qp 2 i b n
        s.setCmd i ((s.cmd i).setBlk b { ((s.cmd i).blk b) with st := .fetching })
      if c.turned ∨ hasPage s i b then fetchBlks i rest (go s)
      else
        match takePage s i b with
        | none => bufWait s i 0x118
        | some s => fetchBlks i rest (go s)

/-- Whether a Flush that a write's data falls under waits (R375). -/
def flushWaits (s : State) (n place : Nat) : Bool :=
  (liveCmds s).any fun e => decide (e.2.cls = .fl) && coversNs e.2 n && decide (place < e.2.place.getD 0)

/-- A block of a write at its turn is copied into its line; false: it waits. -/
def putBlk (s : State) (i b : Nat) : State × Bool :=
  let c := s.cmd i
  let n := c.nsid
  let lba := c.lba b
  let zero := decide (c.cap.opcode = 0x08)
  let put (s : State) (k : Nat) : State :=
    let u := unitIn s (.way k) lba
    let now := s.fld (aBuf 0) 15 8 = 0
    let fl := flushWaits s n (c.place.getD 0)
    let s := setUnitIn s (.way k) lba
      { u with
        valid := true, dirty := true, zero := zero, lost := false, pf := false, gone := u.fill.isSome
        again := u.inflight, elig := c.fua || c.stream || fl || now, urgent := c.fua || fl, gen := c.gen
        at_ := s.now, data := if zero then [] else padTo 4112 (c.blk b).data }
    let pg := 16 * (lineOf s k).frame + lba % 16
    let s := if zero then pageCleared s pg else guardWritten (pageWritten s pg) (lineOf s k)
    freePage (s.setCmd i ((s.cmd i).setBlk b { (c.blk b) with st := .ready, data := [], prior := some u })) i b
  if (copyAt s n (lba / 16)).isSome then (bufWait s i 0x110, false)
  else
    match lineAt s n (lba / 16) with
    | some k =>
      if (lineOf s k).dirty ∨ (lineOf s k).locked ∨ dirtyUse s < dirtyLimit s then (put s k, true)
      else (bufWait s i 0x114, false)
    | none =>
      if dirtyLimit s ≤ dirtyUse s then (bufWait s i 0x114, false)
      else
        match allocLine s n (lba / 16) with
        | .got s k => (put s k, true)
        | .full => (bufWait s i 0, false)
        | .wait => (bufWait s i 0x118, false)

/-- The blocks of a write that are held are copied into their lines, up to the first that waits. -/
def putBlks (i : Nat) : List Nat → State → State
  | [], s => bufGo s i
  | b :: rest, s =>
    if ((s.cmd i).blk b).st = .staged then
      let r := putBlk s i b
      if r.2 then putBlks i rest r.1 else r.1
    else putBlks i rest s

/-- The state of a zone whose pointer has moved by a write (R354). -/
def zoneWritten (s : State) (n z wp : Nat) : Zone :=
  let x := zoneAt s n z
  ⟨if zoneCap s n z ≤ wp then .full else if x.state = .explOpen then .explOpen else .implOpen, wp, wp⟩

/-- A write is visible (R332, R338): the zone's pointer advances, its ways are touched, later Flushes
wait for it, and it completes or waits for the media (R374). -/
def becomeVisible (s : State) (i : Nat) : State :=
  let c := s.cmd i
  let n := c.nsid
  let us := (List.range c.len).map fun b => (n, c.lba b)
  let s := s.setCmd i { c with visible := true }
  let s :=
    if nsZoned s n then
      let z := zoneIx s n c.lo
      setZone s n z (zoneWritten s n z (c.lo + c.len - z * zoneSize s n))
    else s
  let s :=
    if c.stream then s
    else us.foldl (fun s e => match lineAt s n (e.2 / 16) with | some k => touchWay s k | none => s) s
  let s := (liveCmds s).foldl
    (fun s e =>
      if e.2.cls = .fl ∧ coversNs e.2 n ∧ c.place.getD 0 < e.2.place.getD 0 then
        s.setCmd e.1 { e.2 with units := e.2.units ++ us.filter fun x => !(e.2.units.contains x) }
      else s) s
  if s.bit (aBuf 8) 0 ∧ !c.fua then completeCmd s i .ok
  else tryEnd (s.setCmd i { s.cmd i with units := us }) i

/-- A write goes on as far as it can: it fetches its data, and at its turn copies it into its lines. -/
def writeProgress (s : State) (i : Nat) : State :=
  let c := s.cmd i
  if !c.live ∨ c.cls ≠ .wr ∨ c.void then s
  else if c.visible then tryEnd s i
  else
    let s := fetchBlks i (List.range c.len) s
    let s := if (s.cmd i).turned then putBlks i (List.range c.len) s else s
    let c := s.cmd i
    if c.turned ∧ (c.blks.all fun x => decide (x.st = .ready)) then becomeVisible s i else s

/-- The response of an RDMA Read ends its request, whether or not its command is still there (R308, R339). -/
def readArrived (s : State) (i b : Nat) : State :=
  let mine (k : Pkt) : Bool := decide (k.kind = 2) && decide (k.cmd = i) && decide (k.blk = b)
  match s.nq.qps.find? fun e => e.2.inflight.any mine with
  | some e => s.setQp e.1 { e.2 with inflight := e.2.inflight.filter fun k => !(mine k) }
  | none => s

/-- RDMA_READ_RESPONSE's effect: the data of a block of a write arrives, into staging or, after the turn,
into its line. -/
def readResponse (s : State) (i b : Nat) (data : Payload) : State :=
  let s := readArrived s i b
  let c := s.cmd i
  if !c.live ∨ c.len ≤ b ∨ (c.blk b).st ≠ .fetching then s
  else
    let s := match pageOfBlk s i b with
      | some p => pageWritten s p
      | none => s
    writeProgress (s.setCmd i (c.setBlk b { (c.blk b) with st := .staged, data := data })) i

/-- RDMA_READ_RESPONSE. -/
def execRdmaReadResponse (i b : Nat) (data : Payload) (s : State) : Res := .next (readResponse s i b data)

/-! ### Cleaning (R375, R376) -/

/-- A dirty unit with where it is: place, namespace and LBA. -/
structure Dirty where
  place : Place
  nsid : Nat
  lba : Nat
  unit : Unit4
  deriving DecidableEq, Repr

/-- The dirty units that no media write is in flight for. -/
def dirtyUnits (s : State) : List Dirty :=
  (allPlaces s).flatMap fun p =>
    let l := lineIn s p
    l.units.filterMap fun e =>
      let lba := 16 * l.line + e.1
      if e.2.dirty ∧ !e.2.inflight ∧ !(s.buf.orphans.contains (l.nsid, lba)) then some ⟨p, l.nsid, lba, e.2⟩ else none

/-- The HIWAT condition (R375). -/
def hiwat (s : State) : Bool := decide (s.fld (aBuf 0) 19 16 * dirtyLimit s / 16 < dirtyLines s)

/-- Whether a tile, or the device, is entering PS2 or a deeper state. -/
def goingDown (s : State) (t : Nat) : Bool :=
  (match Tab.at none s.power.goal t with
    | some g => decide (2 ≤ g)
    | none => false) || s.power.deep != .awake

/-- Whether a block's data belongs to a write that is not yet visible: it may still end without effect
(R338), so it does not go to the media. -/
def unseen (s : State) (n lba : Nat) : Bool :=
  (liveCmds s).any fun e =>
    let c := e.2
    decide (c.cls = .wr) && c.turned && !c.visible && decide (c.nsid = n) && decide (c.lo ≤ lba) &&
      decide (lba < c.lo + c.len)

/-- Whether a dirty unit is eligible (R375). -/
def isElig (s : State) (d : Dirty) : Bool :=
  (d.unit.elig || hiwat s || s.bit (aBuf 0x10) 31 || goingDown s (psaTile (psaOf s d.nsid d.lba))) &&
    !(unseen s d.nsid d.lba)

/-- The class of an eligible unit (R376): 1 FUA or Flush, 2 while the HIWAT condition holds, 3. -/
def dirtyClass (s : State) (d : Dirty) : Nat := if d.unit.urgent then 1 else if hiwat s then 2 else 3

/-- The oldest unit of the best class. -/
def firstDirty (s : State) (ds : List Dirty) : Option Dirty :=
  ds.foldl
    (fun b d =>
      match b with
      | none => some d
      | some x =>
        let k := dirtyClass s d
        let kx := dirtyClass s x
        if k < kx ∨ (k = kx ∧ d.unit.at_ < x.unit.at_) then some d else b) none

/-- The track pair of a block: tile, cluster, head and lower track. -/
def pairOf (s : State) (n lba : Nat) : Nat :=
  let p := psaOf s n lba
  mkPsa (psaTile p) (psaCluster p) (psaHead p) (pairLow s (psaTile p) (psaTrack p)) 0

/-- The place of a block in a run: lower track first, then by sector (R149, R376). -/
def runKey (s : State) (d : Dirty) : Nat := psaOf s d.nsid d.lba

/-- An insertion into a list in rising order of a key. -/
def insertBy {α : Type} (f : α → Nat) (x : α) : List α → List α
  | [] => [x]
  | y :: t => if f x ≤ f y then x :: y :: t else y :: insertBy f x t

/-- A list in rising order of a key. -/
def sortBy {α : Type} (f : α → Nat) (l : List α) : List α := l.foldr (insertBy f) []

/-- The block of head `j` at offset `q` of its band in zone `z` (R346, inverted). -/
def zoneBlock (s : State) (n z j q : Nat) : Nat :=
  let u := nsSu s n
  z * zoneSize s n + q / u * (u * nsHeads s n) + j * u + q % u

/-- The head and offset of a block of a zone: j and q (R346). -/
def zoneOffset (s : State) (n lba : Nat) : Nat × Nat :=
  stripeOf (nsSu s n) (nsHeads s n) (lba - zoneIx s n lba * zoneSize s n)

/-- Whether a block still has data on its way to the media. -/
def onItsWay (s : State) (n lba : Nat) : Bool :=
  s.buf.orphans.contains (n, lba) ||
    (placesOf s n lba).any fun p => (unitIn s p lba).dirty || (unitIn s p lba).inflight

/-- Whether every lower offset of a zoned block's band is on the media, in the run, or discarded. -/
def inOrder (s : State) (run : List Dirty) (d : Dirty) : Bool :=
  let jq := zoneOffset s d.nsid d.lba
  let z := zoneIx s d.nsid d.lba
  let from_ := Tab.at 0 s.nq.reached (reachKey d.nsid z jq.1)
  (List.range (jq.2 - from_)).all fun k =>
    let lba := zoneBlock s d.nsid z jq.1 (from_ + k)
    run.any (fun x => decide (x.nsid = d.nsid) && decide (x.lba = lba)) || !(onItsWay s d.nsid lba)

/-- The units of a run in their order: of a zoned namespace, those whose lower offsets go before them. -/
def runOf (s : State) (d : Dirty) (ds : List Dirty) : List Dirty :=
  let mates := ds.filter fun x => decide (pairOf s x.nsid x.lba = pairOf s d.nsid d.lba)
  let elig := mates.filter (isElig s)
  let pairMate (x : Dirty) : Bool :=
    !(unseen s x.nsid x.lba) && elig.any fun e => decide (psaSector (psaOf s e.nsid e.lba) = psaSector (psaOf s x.nsid x.lba))
  let all := if nsZoned s d.nsid then elig else mates.filter fun x => isElig s x || pairMate x
  if nsZoned s d.nsid then
    (sortBy (fun x => (zoneOffset s x.nsid x.lba).2) all).foldl
      (fun run x => if inOrder s run x then run ++ [x] else run) []
  else sortBy (runKey s) all

/-- A unit is issued to the cipher engine; the commands that wait for it are noted. -/
def issueUnit (s : State) (d : Dirty) : State :=
  let u := { d.unit with inflight := true, again := false, elig := false, urgent := false, cover := waitersOf s d.nsid d.lba }
  let s := setUnitIn s d.place d.lba u
  let i : Issue := ⟨d.nsid, d.lba, d.unit.gen, if d.unit.zero then zeros 4112 else padTo 4112 d.unit.data, d.unit.lost⟩
  { s with buf := { s.buf with encrypt := s.buf.encrypt ++ [i] } }

/-- CLEANER_ISSUE's effect: the run of the first eligible unit, as far as the encrypt queue has room. Within a run
the lower track's sectors are queued first, also in a zoned namespace: of the run's blocks none is above one that
still waits (R376; entry 132). -/
def cleanerIssue (s : State) : State :=
  let ds := dirtyUnits s
  let room := 64 - s.buf.encrypt.length
  let ready := ds.filter fun d => isElig s d && decide (runOf s d ds ≠ [])
  match firstDirty s ready with
  | none => s
  | some d =>
    let run := runOf s d ds
    (sortBy (runKey s) (run.take room)).foldl issueUnit s

/-- CLEAN_DELAY_EXPIRE: CLEANDLY ms have passed since a unit was last written (R375). -/
def execCleanDelayExpire (n lba : Nat) (s : State) : Res :=
  .next (makeEligible s (fun m b u =>
    decide (m = n) && decide (b = lba) && decide (u.at_ + ms (s.fld (aBuf 0) 15 8) ≤ s.now)) false)

/-! ### Write results (R377, R378) -/

/-- The (head, band group) pair of a block is stale (R378). -/
def setStale (s : State) (psa : Nat) : State :=
  let b := staleOf s psa
  retireChanged (s.setB b.1 b.2 true)

/-- A head's pointer in a zone follows a block that has reached the media (R353). -/
def advanceReached (s : State) (n lba : Nat) : State :=
  if nsZoned s n then
    let z := zoneIx s n lba
    let jq := zoneOffset s n lba
    let k := reachKey n z jq.1
    { s with nq := { s.nq with reached := Tab.to 0 s.nq.reached k (max (Tab.at 0 s.nq.reached k) (jq.2 + 1)) } }
  else s

/-- A write result reaches its unit (R377). -/
def applyResult (s : State) (n lba psa : Nat) (st : WrSt) : State :=
  if s.buf.orphans.contains (n, lba) then
    { s with buf := { s.buf with orphans := s.buf.orphans.erase (n, lba) } }
  else
    match (placesOf s n lba).find? fun p => (unitIn s p lba).inflight with
    | none => s
    | some p =>
      let u := unitIn s p lba
      let again := { u with inflight := false, again := false, cover := [] }
      let slot := nsSlot s n
      let s :=
        match st with
        | .written =>
          let s := advanceReached s n lba
          let who := if u.again then u.cover else waitersOf s n lba
          let s := setUnitIn s p lba
            (if u.again then again else if u.lost then { Unit4.none with fill := u.fill, gone := u.gone }
             else { again with dirty := false })
          unitDone s n lba who .ok
        | .wfail => (setUnitIn s p lba { again with elig := true }).bump (aBuf 0x13C)
        | .skipped =>
          if u.again then setUnitIn s p lba again
          else discardUnit (setUnitIn s p lba again) p lba .keyErased
        | .retired =>
          let s := setStale s psa
          if u.again then setUnitIn s p lba { again with elig := true }
          else discardUnit (setUnitIn s p lba again) p lba .retired
      let s := match p with
        | .way k => if (lineOf s k).locked then s else leaveIfEmpty s k
        | .copy _ => s
      invCheck (shadowCheck s slot)

/-- WRITE_RESULT: the oldest result of a tile; the dispatch engine's packet is opcode 0xF2 (R289). -/
def writeResult (s : State) (t : Nat) : State :=
  let w := s.wr t
  match w.results with
  | [] => s
  | r :: rest =>
    if !(hubHears s t) ∨ !(hasCredits s t 1 3 1) then s
    else
      let s := crossAtOnce (s.setWr t { w with results := rest }) t 1 3 (beBytes 6 r.psa)
      dispatchPacket (applyResult s r.nsid r.lba r.psa r.st) 0xF2 (place 31 28 (match r.st with
        | .written => 0 | .wfail => 1 | .skipped => 2 | .retired => 3) ||| w32 (r.lba % 2 ^ 28)) 0

/-- WRITE_RESULT. -/
def execWriteResult (t : Nat) (s : State) : Res := onTile s t (writeResult s t)

/-- Every media write of a tile's sectors that is on its way ends RETIRED: its link is down (R36). -/
def endTileWrites (s : State) (t : Nat) : State :=
  let es := (allPlaces s).flatMap fun p =>
    let l := lineIn s p
    (l.units.filter fun e => e.2.inflight).map fun e => (l.nsid, 16 * l.line + e.1)
  let s := s.setWr t WriteX.none
  (es ++ s.buf.orphans).foldl
    (fun s e => let p := psaOf s e.1 e.2; if psaTile p = t ∧ !(s.buf.encrypt.any fun i => decide ((i.nsid, i.lba) = e)) then
      applyResult s e.1 e.2 p .retired else s) s

/-! ### Evictions, frames and waits (R367, R380, R381) -/

/-- EVICTION_END: a copy with no dirty unit left returns its frame. -/
def execEvictionEnd (i : Nat) (s : State) : Res :=
  .next
    (if i < s.buf.copies.length ∧ !(s.buf.copies.getD i Line.none).dirty then
      { s with buf := { s.buf with copies := s.buf.copies.eraseIdx i } }
    else s)

/-- Locked lines of a set. -/
def setLocks (s : State) (set : Nat) : Nat :=
  ((List.range 16).filter fun w => (lineOf s (16 * set + w)).locked).length

/-- A line of a lock command is locked; one whose set holds LOCKMAX locks stays unlocked (R386). It waits for room under
the limit of R366, and an absent one for an intake place, a way or a frame too: then the answer is what still waits.
A line whose namespace has gone meanwhile is done. -/
def lockOne (s : State) (e : Nat × Nat × Bool) : State × Option (Nat × Nat × Bool) :=
  let n := e.1
  let l := e.2.1
  let at_ := lineAt s n l
  let x := match at_ with
    | some k => lineOf s k
    | none => Line.none
  if !(nsExists s n) ∨ x.locked then (s, none)
  else if s.fld (aBuf 0) 23 20 ≤ setLocks s (setOf s n l) then ((s.bump (aBuf 0x124)).setF (aBuf 0x40) 29 28 1, none)
  else if !x.dirty ∧ dirtyLimit s ≤ dirtyUse s then (s, some e)
  else
    match at_ with
    | some k => (setLine s k { x with locked := true }, none)
    | none =>
      if !(ioPlaceFree s) then (s, some e)
      else
        match allocLine s n l with
        | .got s k => (ownRead (setLine s k { lineOf s k with locked := true }) n l .lock, none)
        | .full => (s, some e)
        | .wait => (if e.2.2 then s else s.bump (aBuf 0x118), some (n, l, true))

/-- The locks that wait are tried again. -/
def lockRetry (s : State) : State :=
  let r := s.buf.lockFill.foldl
    (fun (r : State × List (Nat × Nat × Bool)) e =>
      let x := lockOne r.1 e
      (x.1, r.2 ++ x.2.toList)) (s, [])
  lockCheck { r.1 with buf := { r.1.buf with lockFill := r.2 } }

/-- FRAME_AVAILABLE: the commands that wait in the buffer try again, in their order. -/
def frameAvailable (s : State) : State :=
  lockRetry (s.buf.waits.foldl
    (fun s i =>
      let c := s.cmd i
      if !c.live then bufGo s i
      else
        match c.cls with
        | .rd => if c.turned then readProgress s i else bufGo s i
        | .wr => writeProgress (if (s.cmd i).visible then bufGo s i else s) i
        | _ => s) s)

/-- FRAME_AVAILABLE. -/
def execFrameAvailable (s : State) : Res := .next (frameAvailable s)

/-! ### Locks, INVALL and stale pairs (R378, R386, R388) -/

/-- A lock of a run of lines. -/
def lockRun (s : State) (n first count : Nat) : State :=
  let s := (s.setB (aBuf 0x40) 31 true).setB (aBuf 0x10) 30 true
  lockCheck ((List.range count).foldl
    (fun s d =>
      let r := lockOne s (n, first + d, false)
      { r.1 with buf := { r.1.buf with lockFill := r.1.buf.lockFill ++ r.2.toList } }) s)

/-- An unlock of a run of lines. -/
def unlockRun (s : State) (n first count : Nat) : State :=
  irqEdge ((List.range count).foldl
    (fun s d =>
      match lineAt s n (first + d) with
      | some k => setLine s k { lineOf s k with locked := false }
      | none => s) s) 0 41

/-- A write of BUF.LKCTL (R386, R390). -/
def lkctlWrite (s : State) (w : Word) : State × Status :=
  if s.bit (aBuf 0x40) 31 then (s, .storeBusy)
  else
    let s := s.setReg (aBuf 0x40) (w &&& 0x40000000)
    if !(bitAt w 31) then (s, .ok)
    else
      let n := s.fld (aBuf 0x30) 12 0
      let first := s.fld (aBuf 0x34) 3 0 * 2 ^ 32 + (s.reg (aBuf 0x38)).toNat
      let count := s.fld (aBuf 0x3C) 16 0
      if !(nsExists s n) then (irqEdge (s.setF (aBuf 0x40) 29 28 2) 0 41, .ok)
      else if nsSize s n < 16 * (first + count) then (irqEdge (s.setF (aBuf 0x40) 29 28 3) 0 41, .ok)
      else if bitAt w 30 then (lockRun s n first count, .ok)
      else (unlockRun s n first count, .ok)

/-- LOCK_LINES: LKCTL written with GO and OP. -/
def execLockLines (w : Word) (s : State) : Res :=
  .next (let r := lkctlWrite s (w ||| 0xC0000000)
         r.1.emit (.reply .port (aBuf 0x40) (w ||| 0xC0000000) r.2))

/-- UNLOCK_LINES: LKCTL written with GO and OP clear. -/
def execUnlockLines (w : Word) (s : State) : Res :=
  .next (let v := (w ||| 0x80000000) &&& 0xBFFFFFFF
         let r := lkctlWrite s v
         r.1.emit (.reply .port (aBuf 0x40) v r.2))

/-- INVALL (R388). -/
def invall (s : State) : State × Status :=
  if s.bit (aBuf 0x10) 31 then (s, .storeBusy)
  else
    let s : State := { s with buf := { s.buf with lines := s.buf.lines.map fun e => (e.1, { e.2 with inval := true }) } }
    (invCheck (makeEligible (s.setB (aBuf 0x10) 31 true) (fun _ _ _ => true) false), .ok)

/-- INVALL. -/
def execInvall (s : State) : Res :=
  .next (let r := invall s
         r.1.emit (.reply .port (aBuf 0xC) 1 r.2))

/-- STALE_CLEAR: the manager writes 1 to bits of BUF.STALE[i] (R378). -/
def staleClear (s : State) (i : Nat) (w : Word) : State :=
  if s.reg (aBuf (0x1000 + 4 * i)) &&& w = 0 then s else retireChanged (s.clrReg (aBuf (0x1000 + 4 * i)) w)

/-- STALE_CLEAR. -/
def execStaleClear (i : Nat) (w : Word) (s : State) : Res := onOk (decide (i < 768)) (staleClear s i w)

/-! ### Uncorrectable units of the buffer and the Woodpecker (R397 to R405) -/

/-- A dirty block is lost (R398): it stays valid and dirty, poisoned. -/
def loseBlock (s : State) (p : Place) (n lba : Nat) : State :=
  let u := unitIn s p lba
  if u.lost then s
  else
    owlPost ((setUnitIn s p lba { u with lost := true }).bump (aMemp 0x188)) 0x4005 0 n 0 0 (lba / 2 ^ 32) (lba % 2 ^ 32)

/-- A unit of a line or copy that is uncorrectable: a dirty block is lost, a clean unit invalid (R397, R398). -/
def spoilUnit (s : State) (p : Place) (lba : Nat) : State :=
  let u := unitIn s p lba
  if u.dirty then loseBlock s p (lineIn s p).nsid lba
  else if u.valid then setUnitIn s p lba { u with valid := false, pf := false, data := [] }
  else s

/-- An uncorrectable unit of a guard frame counts as a part of each block whose object guard it holds (R397). -/
def guardBad (s : State) (a : Nat) : State :=
  match (allPlaces s).find? fun p => decide ((lineIn s p).slot = some (a / 8)) with
  | some p =>
    let lba := 16 * (lineIn s p).line + 2 * (a % 8)
    spoilUnit (spoilUnit s p lba) p (lba + 1)
  | none => s

/-- An uncorrectable unit of the buffer, by what its page holds (R397). -/
def hbmBad (s : State) (a : Nat) : State :=
  let pg := eccIndex a / 128
  let f := pg / 16
  match (allPlaces s).find? fun p => decide ((lineIn s p).frame = f) && decide ((lineIn s p).nsid ≠ 0) with
  | some p =>
    spoilUnit s p (16 * (lineIn s p).line + pg % 16)
  | none =>
    match (s.buf.stage.find? fun e => decide (e.1 = f)).bind fun e => e.2.find? fun g => decide (g.ix = pg % 16) with
    | none => guardBad s (eccIndex a)
    | some g =>
      let c := s.cmd g.cmd
      if !c.live then s
      else if c.cls = .rd then dropRead s g.cmd g.blk .media
      else if c.cap.sglKind = 1 then completeCmd s g.cmd .badCrc
      else if (c.blk g.blk).st = .staged then
        writeProgress (s.setCmd g.cmd (c.setBlk g.blk { (c.blk g.blk) with st := .idle, data := [] })) g.cmd
      else s

/-- The unit of a guard frame that the object guard of a sector's block is merged into (R343, R363, R396). -/
def sectorGuard (s : State) (e : Sector) : Option Nat :=
  match fillOf s e.req.cmd e.psa with
  | some (key, lba) => (lineOf s key).slot.map fun k => guardUnit k lba
  | none => none

/-- SECTOR_LANDING's effect: the first sector of the buffer write queue. Its object guard is merged into a
unit of a guard frame, which is read first (R396): `rd` are the symbols found. A unit that cannot be corrected stays
poisoned, so that the block cannot be kept, and the other block whose guard it holds neither (R397; entry 138). -/
def sectorLanding (s : State) (rd : EccRead) : State :=
  match s.buf.bufWrite with
  | [] => s
  | e :: rest =>
    let s : State := { s with buf := { s.buf with bufWrite := rest } }
    let unit := if e.drop = none then sectorGuard s e else none
    let r : EccRead := { rd with addr := unit.getD 0 }
    let merges := unit.isSome && unitRead s r
    let s := if merges then noteScrub (eccCount s r) r else s
    let bad := merges && (eccCls r).bad
    let s := if bad then guardBad s r.addr else s
    lockCheck (landOutcome s e.psa e.req
      (match e.drop with
        | some x => .drop x
        | none => if bad then .drop .media else .data e.info))

/-- The next page with its written bit after `p`; none: the lap ends. -/
def nextPage (s : State) (p : Nat) : Option Nat := (s.memp.written.find? fun e => decide (p < e.1)).map (·.1)

/-- The page that the Woodpecker reads next (R402, R404): a listed one before its lap order, and in that the first
written page from WPPOS on. -/
def wpPage (s : State) : Option Nat :=
  match s.memp.scrub with
  | p :: _ => some p
  | [] =>
    let at_ := s.fld (aMemp 0x18) 25 0
    match (s.memp.written.find? fun e => decide (at_ ≤ e.1)).map (·.1) with
    | some p => some p
    | none => s.memp.written.head?.map (·.1)

/-- A lap ends (R405). -/
def lapEnd (s : State) : State :=
  let s := (s.setReg (aMemp 0x10) (w32 ((s.now - s.memp.lapAt) / 1000000))).bump (aMemp 0x14)
  let m := s.memp
  let hot := m.fixed.filter fun p => decide (p < 2 ^ 40)
  let streak : Tab Nat := hot.foldl (fun t p => Tab.to 0 t p (Tab.at 0 m.streak p + 1)) []
  let first := match s.memp.written with
    | e :: _ => e.1
    | [] => 0
  let s : State := { s with memp := { m with lapAt := s.now, fixed := [], streak := streak } }
  (streak.filter fun e => decide (3 ≤ e.2)).foldl
    (fun s e => owlHub s 0x6004 0 0 0 e.1 e.2) (s.setF (aMemp 0x18) 25 0 first)

/-- The tag store's unit, both copies (R399). -/
def tagUnits (s : State) (a b : Option EccRead) : State :=
  let s := (a.toList ++ b.toList).foldl eccCount s
  match a, b with
  | some x, some y =>
    if (eccCls x).bad ∧ (eccCls y).bad ∧ !(s.bit (aMemp 0) 31) then
      mempLevels (owlHub (s.setB (aMemp 0) 31 true) 0x6005 0 0 0 (eccIndex x.addr % 2 ^ 32) 0)
    else s
  | _, _ => s

/-- The written-page map's unit: when uncorrectable, its 256 pages count as written (R395). -/
def mapUnit (s : State) (a : Option EccRead) : State :=
  match a with
  | none => s
  | some x =>
    let s := eccCount s x
    if (eccCls x).bad then (List.range 256).foldl (fun s k => pageWritten s (256 * eccIndex x.addr + k)) s else s

/-- WOODPECKER_BURST's effect: the units of one burst, of the page that is next (R402), one unit of the tag store in
both copies, and one of the written-page map (R402, R403). -/
def woodpecker (s : State) (us : List EccRead) (t1 t2 map : Option EccRead) (overwritten : Bool) : State :=
  if !(s.bit (aMemp 4) 31) ∨ s.power.deep = .ps4 then s.setB (aMemp 0) 29 false
  else
    let s := s.setB (aMemp 0) 29 true
    let us := us.filter fun u => decide (eccStore u.addr = 0) && decide (wpPage s = some (eccPage u.addr)) && unitRead s u
    let s := us.foldl
      (fun s u =>
        let s := eccCount s u
        match eccCls u with
        | .clean => s
        | .corrected _ _ => if overwritten then s.bump (aMemp 0x20) else s.bump (aMemp 0x1C)
        | _ => hbmBad s u.addr) s
    let s := mapUnit (tagUnits s t1 t2) map
    match us with
    | [] => s
    | u :: _ =>
      let pg := eccIndex u.addr / 128
      let last := decide (eccIndex u.addr % 128 / 8 = 15)
      if pg ∈ s.memp.scrub then
        if last then { s with memp := { s.memp with scrub := s.memp.scrub.erase pg } } else s
      else if last then
        match nextPage s pg with
        | some p => s.setF (aMemp 0x18) 25 0 p
        | none => lapEnd s
      else s.setF (aMemp 0x18) 25 0 pg

/-- WOODPECKER_SLOW: a lap has run longer than LIMIT minutes (R405). -/
def execWoodpeckerSlow (s : State) : Res :=
  .next
    (let lim := s.fld (aMemp 4) 15 0
     let run := (s.now - s.memp.lapAt) / 1000000
     if lim = 0 ∨ run < lim * 60000 ∨ s.bit (aMemp 0) 30 then s
     else mempLevels (owlHub (s.setB (aMemp 0) 30 true) 0x6003 0 0 0 run 0))

end Sys2Proof.Machine
end

