-- ==== Sys2Proof/Machine/Cipher.lean ====
section
/-! DEFINITION. The cipher engine and its setts (R408 to R427): messages and nonces, decryption and
encryption, write counters and their journal, key slots, rewrites, erases and alarms, the test
operation. -/

namespace Sys2Proof.Machine

/-! ### Messages (R408, R409) -/

/-- The slot field of a nonce: sett, slot and 21 bits (R409, R426). -/
def slotField (slot low : Nat) : Nat := slot / 8 * 2 ^ 24 + slot % 8 * 2 ^ 21 + low % 2 ^ 21

/-- CIPH.CFG.SALT. -/
def salt (s : State) : Nat := s.fld (aCiph 0) 20 0

/-- The IV of a message (R408). -/
def ivOf (field ctr : Nat) : Payload := beBytes 4 field ++ beBytes 8 ctr

/-- The additional authenticated data of a message (R408). -/
def aadOf (n lba ctr : Nat) : Payload := beBytes 4 n ++ beBytes 8 lba ++ beBytes 8 ctr

/-- The key of a generation of a slot: the live one or the shadow's (R416, R417). -/
def keyOf (s : State) (slot gen : Nat) : Option Payload :=
  let x := s.slot slot
  if x.state = 1 ∧ x.gen = gen then some x.key
  else
    match x.shadow with
    | some (g, k) => if g = gen then some k else none
    | none => none

/-- A block and its guard encrypted into a sector (R66, R408). -/
def encryptSector (key : Payload) (field n lba ctr : Nat) (plain : Payload) : Payload :=
  let r := gcmSeal key (ivOf field ctr) (aadOf n lba ctr) plain
  r.1.take 4096 ++ r.2 ++ r.1.drop 4096 ++ beBytes 8 ctr ++ zeros 24

/-- A sector decrypted: the block and its guard, if the tag is correct. -/
def decryptSector (key : Payload) (field n lba : Nat) (body : Payload) : Option Payload :=
  let ctr := beAt body 4128 8
  gcmOpen key (ivOf field ctr) (aadOf n lba ctr) (body.take 4096 ++ slice body 4112 16) (slice body 4096 16)

/-! ### Decryption (R410, R411, R416, R418) -/

/-- Whose a sector is: namespace, LBA and generation, from its command, or from the unit whose fill it is
(the live generation, when the command has ended). -/
def sectorOf (s : State) (e : Sector) : Option (Nat × Nat × Nat) :=
  let c := s.cmd e.req.cmd
  if c.live ∧ c.cls = .rd ∧ e.req.blk < c.len ∧ psaOf s c.nsid (c.lba e.req.blk) = e.psa then
    some (c.nsid, c.lba e.req.blk, c.gen)
  else
    (fillOf s e.req.cmd e.psa).map fun k =>
      ((lineOf s k.1).nsid, k.2, (s.slot (nsSlot s (lineOf s k.1).nsid)).gen)

/-- The LBA of a namespace that lies at a PSA: the inverse of R346's mapping. -/
def lbaOf (s : State) (n psa : Nat) : Option Nat :=
  let t := psaTile psa
  let tr := psaTrack psa
  let band := bandOf s t tr
  let g := band / 4
  let u := nsSu s n
  let hc := nsHeads s n
  let o := tr - band * fmtTrk s t
  let w := if nsZoned s n then 2 else 3
  match (List.range hc).find? fun j => decide (nsHead s n j = (t, psaCluster psa, psaHead psa)) with
  | none => none
  | some j =>
    let q := o / w * (2 * zoneSect s t (zoneOfBand s t (4 * g))) + 2 * psaSector psa + o % w
    let off := q / max 1 u * (u * hc) + j * u + q % max 1 u
    let i := g - nsGfirst s n
    let lba := if nsZoned s n then i * zoneSize s n + off
      else ((List.range i).map fun k => groupCap s n (nsGfirst s n + k)).foldl (· + ·) 0 + off
    if nsGfirst s n ≤ g ∧ i < nsGcount s n ∧ psaOf s n lba = psa then some lba else none

/-- The namespace and LBA that lie at a PSA, if any. -/
def blockAt (s : State) (psa : Nat) : Option (Nat × Nat) :=
  (nsList s).findSome? fun n => (lbaOf s n psa).map fun b => (n, b)

/-- Whose a sector that is decrypted is; a partner's block is found by its place (R150 step 3), and no command
has latched its generation, which is the live one (DESIGN CHOICE, entry 128). -/
def ownerOf (s : State) (e : Sector) : Option (Nat × Nat × Nat) :=
  if e.req.kind = .partner then (blockAt s e.psa).map fun b => (b.1, b.2, (s.slot (nsSlot s b.1)).gen) else sectorOf s e

/-- A partner that has been authenticated is ready for its rewrite, its word as it was decoded (R150). -/
def partnerReady (s : State) (psa : Nat) : State :=
  let w := s.headW (headIdx (psaTile psa) (psaCluster psa) (psaHead psa))
  match partnerState w psa with
  | some (.decoded info) => setPartner s psa (.ready info)
  | _ => s

/-- A sector enters the buffer write queue. -/
def toBuffer (s : State) (e : Sector) : State := { s with buf := { s.buf with bufWrite := s.buf.bufWrite ++ [e] } }

/-- CIPHER_DECRYPT's effect on the first sector of a tile's cipher input queue. -/
def cipherDecrypt (s : State) (t : Nat) : State :=
  match Tab.at [] s.buf.cipherIn t with
  | [] => s
  | e :: rest =>
    if 256 ≤ s.buf.bufWrite.length then s
    else
      let s : State := { s with buf := { s.buf with cipherIn := Tab.to [] s.buf.cipherIn t rest } }
      let s := freeCredits s t 0 2 sectorFlits
      let ended (s : State) : State := match e.ctx with
        | some i => recoverCtx s t i
        | none => s
      let own := decide (e.req.kind = .partner)
      if e.drop.isSome then toBuffer s e
      else
        match ownerOf s e with
        | none => if own then setPartner (ended s) e.psa .lost else s
        | some (n, lba, gen) =>
          if e.blank then (if own then partnerReady (ended s) e.psa else toBuffer (ended s) { e with info := [] })
          else
            let slot := nsSlot s n
            match keyOf s slot gen with
            | none =>
              let s := match e.ctx with
                | some i => if (s.ctx t i).live then endCtx s t i else s
                | none => s
              let s := s.bump (aCiph 0x1C)
              if own then setPartner s e.psa .lost else toBuffer s { e with info := [], drop := some .key }
            | some key =>
              match decryptSector key (slotField slot (salt s)) n lba e.info with
              | some plain =>
                let s := ended (s.bump (aCiph 0x14))
                if own then partnerReady s e.psa else toBuffer s { e with info := plain }
              | none =>
                (s.bump (aCiph 0x18)).modDet t fun d => { d with tagQ := d.tagQ ++ [⟨e.psa, e.req, e.crc, e.ctx⟩] }

/-- CIPHER_DECRYPT. -/
def execCipherDecrypt (t : Nat) (s : State) : Res := onTile s t (cipherDecrypt s t)

/-! ### The journal (R420, R422) -/

/-- CIPH.PERSIST follows the records: failed, pending or written. -/
def journalState (s : State) : State :=
  if s.fld (aCiph 0xC) 1 0 = 3 then s
  else
    let any (p : Slot → Bool) : Bool := s.slots.any fun e => p e.2
    let n := if any (fun x => x.failed) then 2 else if any (fun x => x.record.isSome) then 1 else 0
    persistLevel (s.setF (aCiph 0xC) 1 0 n)

/-- An encryption near RES starts a record that raises the reservation. -/
def wantRecord (s : State) (slot : Nat) : State :=
  let x := s.slot slot
  if x.record.isNone ∧ x.res ≤ x.sctr + 2 ^ 18 then
    journalState (s.setSlot slot { x with record := some (x.res + 2 ^ 20) })
  else s

/-- JOURNAL_WRITE_DONE's effect. -/
def journalDone (s : State) (slot : Nat) (ok : Bool) : State :=
  let x := s.slot slot
  match x.record with
  | none => s
  | some v =>
    if ok then
      let s : State := { s with flash := { s.flash with journal := Tab.to 0 s.flash.journal slot v } }
      journalState ((s.setSlot slot { x with res := v, record := none, failed := false, waiting := false }).bumpF (aCiph 0xC) 31 16 1)
    else
      let s := owlHub s 0x7002 0 0 3 0 0
      journalState (s.setSlot slot { x with failed := true })

/-- JOURNAL_WRITE_DONE. -/
def execJournalWriteDone (sett slot : Nat) (ok : Bool) (s : State) : Res :=
  onOk (decide (sett < 256) && decide (slot < 8)) (journalDone s (8 * sett + slot) ok)

/-- JOURNAL_RETRY: a failed record is being written again. -/
def execJournalRetry (sett slot : Nat) (s : State) : Res :=
  onOk (decide (sett < 256) && decide (slot < 8))
    (let i := 8 * sett + slot
     if (s.slot i).failed then journalState (s.setSlot i { s.slot i with failed := false }) else s)

/-! ### Encryption (R410, R416, R419 to R421) -/

/-- Whether an issue's tile takes a sector now: its link is in service and holds the credits. -/
def tileTakes (s : State) (t : Nat) : Bool := s.linkUp t && hasCredits s t 0 2 sectorFlits

/-- A sector crosses to its tile's write path (R22 step 5). -/
def toTile (s : State) (e : WrEnt) : State :=
  let t := psaTile e.psa
  (sendFlits s t 0 2 sectorFlits (e.body ++ beBytes 6 e.psa)).modWr t fun w => { w with inQ := w.inQ ++ [e] }

/-- A unit's encryption ends SKIPPED: its key has been erased (R418). -/
def skipIssue (s : State) (i : Issue) : State :=
  applyResult (s.bump (aCiph 0x1C)) i.nsid i.lba (psaOf s i.nsid i.lba) .skipped

/-- Whether an issue can go on now: it has a value to take, or needs none. -/
def issueReady (s : State) (i : Issue) : Bool :=
  let p := psaOf s i.nsid i.lba
  let slot := nsSlot s i.nsid
  headUnwritable s (psaTile p, psaCluster p, psaHead p) ||
    (if i.marker then tileTakes s (psaTile p)
     else (keyOf s slot i.gen).isNone || (tileTakes s (psaTile p) && decide ((s.slot slot).sctr < (s.slot slot).res)))

/-- The slots whose encryptions begin to wait at RES: each wait is counted once (R420). -/
def noteWaits (s : State) : State :=
  s.buf.encrypt.foldl
    (fun s i =>
      let slot := nsSlot s i.nsid
      if i.marker ∨ (keyOf s slot i.gen).isNone then s
      else
        let s := wantRecord s slot
        let x := s.slot slot
        if x.res ≤ x.sctr ∧ !x.waiting then (s.setSlot slot { x with waiting := true }).bump (aCiph 0x20) else s) s

/-- CIPHER_ENCRYPT's effect: the first unit of the encrypt queue that can go on. -/
def cipherEncrypt (s : State) : State :=
  let s := noteWaits s
  match s.buf.encrypt.find? (issueReady s) with
  | none => s
  | some i =>
    let s : State := { s with buf := { s.buf with encrypt := s.buf.encrypt.erase i } }
    let p := psaOf s i.nsid i.lba
    let slot := nsSlot s i.nsid
    if headUnwritable s (psaTile p, psaCluster p, psaHead p) then applyResult s i.nsid i.lba p .retired
    else if i.marker then toTile s ⟨p, .marker, false, i.nsid, i.lba, 0, 0, [], [], 0, false, 0, false⟩
    else
      match keyOf s slot i.gen with
      | none => skipIssue s i
      | some key =>
        let x := s.slot slot
        let body := encryptSector key (slotField slot (salt s)) i.nsid i.lba x.sctr i.data
        let n := x.sctr + 1
        let s := (s.setSlot slot { x with sctr := n, exhausted := x.exhausted || decide (2 ^ 64 - 2 ^ 32 ≤ n) }).bump (aCiph 0x10)
        shadowCheck (toTile s ⟨p, .host, false, i.nsid, i.lba, slot, i.gen, body, [], 0, false, 0, false⟩) slot

/-- CIPHER_ENCRYPT. -/
def execCipherEncrypt (s : State) : Res := .next (cipherEncrypt s)

/-! ### Key slots (R412 to R418) -/

/-- The owner NQN that a sett is bound to (R415). -/
def settOwner (s : State) (sett : Nat) : Option Payload :=
  let w := aSett sett 0xF00
  if s.bit w 31 then some (Tab.at [] s.mgmt.names (2 + s.fld w 10 0)) else none

/-- Whether an accessor may reach a sett's page (R415). -/
def settAllowed (s : State) (who : Who) (sett : Nat) : Bool :=
  match who with
  | .port => true
  | .assoc c =>
    let a := s.assoc c
    a.live && (a.manager || (match settOwner s sett with
      | some nqn => decide (nqn = a.hostNqn) && decide (nqn ≠ [])
      | none => false))
  | _ => false

/-- An R425 condition holds: CIPH.ALARM.HELD. -/
def held425 (s : State) : Bool := s.power.keyLow || s.power.hot

/-- The 32 bytes of SKEY[0..7] of a slot (R413). -/
def skeyBytes (s : State) (sett k : Nat) : Payload :=
  (List.range 8).flatMap fun i => beBytes 4 (s.reg (aSett sett (0x80 * k + 4 * i))).toNat

/-- SKEY[0..7] set to 0. -/
def clearSkey (s : State) (sett k : Nat) : State :=
  (List.range 8).foldl (fun s i => s.setReg (aSett sett (0x80 * k + 4 * i)) 0) s

/-- SKCV: the first three bytes of AES-256 of a zero block (R413). -/
def setSkcv (s : State) (slot : Nat) (key : Option Payload) : State :=
  s.setReg (aSett (slot / 8) (0x80 * (slot % 8) + 0x28)) (match key with
    | some k => w32 (beAt (aes256 k (zeros 16)) 0 3)
    | none => 0)

/-- LOAD (R413, R417). -/
def keyLoad (s : State) (sett k : Nat) : State × Status :=
  let i := 8 * sett + k
  let x := s.slot i
  let key := skeyBytes s sett k
  if key.all fun b => decide (b = 0) then (s, .badField)
  else if held425 s then (s, .storeBusy)
  else if x.state = 1 ∧ x.shadow.isSome then (s, .storeBusy)
  else
    let gen := (x.gen + 1) % 2 ^ 16
    let s := setSkcv (clearSkey s sett k) i (some key)
    if x.state = 1 then
      let s := s.setSlot i { x with key := key, gen := gen, shadow := some (x.gen, x.key) }
      (shadowCheck (makeEligible s (fun n _ u => decide (nsSlot s n = i) && decide (u.gen = x.gen)) false) i, .ok)
    else (s.setSlot i { x with state := 1, key := key, gen := gen }, .ok)

/-- The effects of an erase on everything latched to a key of the slots that satisfy `p` (R389, R418):
contexts are dropped, lines and copies invalidated, write entries discarded, and writes whose data is
staged end without effect. -/
def eraseEffects (s : State) (p : Nat → Bool) : State :=
  let hit (c : Cmd) : Bool := p (nsSlot s c.nsid)
  let s := s.tiles.foldl
    (fun s t => (openCtxs s t).foldl
      (fun s e => let c := s.cmd e.2.want.req.cmd; if c.live ∧ hit c then dropCtx s t e.1 .key else s) s) s
  let s := (nsList s).foldl (fun s n => if p (nsSlot s n) then invalidate s n 0 (2 ^ 64) .keyErased else s) s
  let s : State := { s with buf := { s.buf with copies := s.buf.copies.filter fun l => !(p (nsSlot s l.nsid)) } }
  let s := (nsList s).foldl (fun s n => if p (nsSlot s n) then discardSlot s (nsSlot s n) else s) s
  (liveCmds s).foldl
    (fun s e =>
      let c := e.2
      if c.cls = .wr ∧ hit c ∧ !c.visible ∧ c.turned then completeCmd s e.1 .keyErased
      else if (c.cls = .wr ∨ c.cls = .rd) ∧ hit c ∧ !c.turned then
        (freePages s e.1).setCmd e.1 { c with status := .keyErased }
      else s) s

/-- ERASE on SCMD (R414). -/
def slotErase (s : State) (sett k : Nat) : State :=
  let i := 8 * sett + k
  let x := s.slot i
  let gen := (x.gen + 1) % 2 ^ 16
  let s := clearSkey s sett k
  if x.state = 1 then
    eraseEffects (setSkcv (s.setSlot i { x with state := 2, key := [], shadow := none, gen := gen }) i none) fun j => decide (j = i)
  else s.setSlot i { x with gen := gen }

/-- A write of SCMD by an accessor. -/
def scmdWrite (s : State) (who : Who) (sett k n : Nat) : State × Status :=
  if !(settAllowed s who sett) then (s, .badField)
  else if n = 1 then keyLoad s sett k
  else if n = 2 then (slotErase s sett k, .ok)
  else (s, .badField)

/-- A sett command's answer. -/
def settReply (r : State × Status) (who : Who) (sett o n : Nat) : State := r.1.emit (.reply who (aSett sett o) (w32 n) r.2)

/-- KEY_LOAD. -/
def execKeyLoad (who : Who) (sett k : Nat) (s : State) : Res :=
  onOk (decide (sett < 256) && decide (k < 8)) (settReply (scmdWrite s who sett k 1) who sett (0x80 * k + 0x20) 1)

/-- SLOT_ERASE. -/
def execSlotErase (who : Who) (sett k : Nat) (s : State) : Res :=
  onOk (decide (sett < 256) && decide (k < 8)) (settReply (scmdWrite s who sett k 2) who sett (0x80 * k + 0x20) 2)

/-! ### Alarms (R424, R425, R499) -/

/-- Every key, live and shadow, is zeroed (R424, R427, R502). -/
def zeroKeys (s : State) : State :=
  let s := (s.slots.map (·.1)).foldl (fun s i => setSkcv s i none) s
  { s with slots := s.slots.map fun e => (e.1, { e.2 with key := [], shadow := none }) }

/-- Every slot becomes ERASED with GEN + 1. -/
def eraseSlots (s : State) : State :=
  (List.range 2048).foldl
    (fun s i =>
      let x := s.slot i
      s.setSlot i { x with state := 2, key := [], shadow := none, gen := (x.gen + 1) % 2 ^ 16 }) s

/-- CIPH.ALARM changes: HELD follows the R425 conditions, hub source 56 the register (R428, R433). -/
def alarmLevel (s : State) : State :=
  let s := s.setB (aCiph 8) 31 (held425 s)
  irqLevel s 0 56 (decide (s.reg (aCiph 8) ≠ 0))

/-- An alarm's full effect. -/
def raiseAlarm (s : State) (b : Nat) : State :=
  let s := alarmLevel (s.setB (aCiph 8) b true)
  let s := owlHub s 0x7001 0 0 (2 ^ b) 0 0
  eraseEffects (eraseSlots (zeroKeys s)) fun _ => true

/-- An alarm (R424). In PS4 the keys are zeroed from D0 at once and the rest follows on wake (R499). Without power,
or held in reset by TEST_EN, there is none. -/
def keyAlarm (s : State) (b : Nat) : State :=
  if s.power.boot = 0 then s
  else if s.power.deep = .ps4 then
    let s := zeroKeys s
    irqEvent { s with power := { s.power with keyLatch := Nat.lor s.power.keyLatch (2 ^ b) } } 0 0 (0x100 + 56)
  else raiseAlarm s b

/-- ERASEALL. -/
def execEraseall (s : State) : Res := .next ((keyAlarm s 3).emit (.reply .port (aCiph 4) 0xE .ok))

/-- KEY_ERASE_N_LOW: the pin is low for `ns` (R424); a shorter pulse than 100 ns does nothing. -/
def execKeyEraseNLow (ns : Nat) (s : State) : Res :=
  .next (if ns < 100 ∨ s.power.keyLow then s else keyAlarm { s with power := { s.power with keyLow := true } } 2)

/-- KEY_ERASE_N_RELEASE. -/
def execKeyEraseNRelease (s : State) : Res := .next (alarmLevel { s with power := { s.power with keyLow := false } })

/-- TEMPERATURE_ALARM: a junction sensor reads above 105 °C. -/
def execTemperatureAlarm (decidegrees : Int) (s : State) : Res :=
  .next (if decidegrees ≤ 1050 ∨ s.power.hot then s else keyAlarm { s with power := { s.power with hot := true } } 1)

/-- TEMPERATURE_ALARM_CLEAR: no junction is above 105 °C. -/
def execTemperatureAlarmClear (decidegrees : Int) (s : State) : Res :=
  .next (if 1050 < decidegrees then s else alarmLevel { s with power := { s.power with hot := false } })

/-- The operating range of a rail in mV, in the order of the table of R509. -/
def railRange : Nat → Nat × Nat
  | 0 | 2 => (900, 1000)
  | 1 | 3 => (1140, 1260)
  | 4 => (1050, 1150)
  | _ => (1710, 1800)

/-- GLITCH_TRIP: a rail left its range by more than 40 mV for 10 ns or longer while the monitors were
armed, from 10 ms after PORST_N rose until it falls (R513). -/
def execGlitchTrip (rail mv ns : Nat) (s : State) : Res :=
  onOk (decide (rail < 7))
    (let r := railRange rail
     if 10 ≤ ns ∧ (mv + 40 < r.1 ∨ r.2 + 40 < mv) ∧ !s.power.porstLow ∧ s.power.roseAt + ms 10 ≤ s.now then keyAlarm s 0
     else s)

/-! ### The test operation (R426) -/

/-- Bytes of registers of a sett page. -/
def settBytes (s : State) (sett o n : Nat) : Payload :=
  (List.range n).flatMap fun j => beBytes 4 (s.reg (aSett sett (o + 4 * j))).toNat

/-- Registers of a sett page written from bytes. -/
def putSettBytes (s : State) (sett o : Nat) (bs : Payload) : State :=
  (List.range (bs.length / 4)).foldl (fun s j => s.setReg (aSett sett (o + 4 * j)) (beWord bs (4 * j))) s

/-- The test operation's result and its effect on the registers; TSTAT reports it. -/
def testRun (s : State) (sett : Nat) : State × Status :=
  let a := aSett sett
  let k := s.fld (a 0x400) 2 0
  let len := s.fld (a 0x40C) 6 0
  let x := s.slot (8 * sett + k)
  let fin (s : State) (st : Status) : State × Status := (s.setReg (a 0x408) (w32 st.code), st)
  if len = 0 ∨ 64 < len then fin s .badLength
  else if x.state = 0 then fin s .slotEmpty
  else if x.state ≠ 1 then fin s .keyErased
  else
    let ctr := (s.reg (a 0x41C)).toNat * 2 ^ 32 + (s.reg (a 0x420)).toNat
    let lba := (s.reg (a 0x414)).toNat * 2 ^ 32 + (s.reg (a 0x418)).toNat
    let iv := ivOf (slotField (8 * sett + k) 0x1FFFFF) ctr
    let aad := aadOf (s.reg (a 0x410)).toNat lba ctr
    let data := settBytes s sett 0x440 16
    let msg := data.take len
    if s.bit (a 0x400) 8 then
      match gcmOpen x.key iv aad msg (settBytes s sett 0x480 4) with
      | some pt => fin (putSettBytes s sett 0x440 (pt ++ data.drop len)) .ok
      | none => fin (putSettBytes s sett 0x440 (zeros 64)) .authFail
    else
      let r := gcmSeal x.key iv aad msg
      fin (putSettBytes (putSettBytes s sett 0x440 (r.1 ++ data.drop len)) sett 0x480 r.2) .ok

/-- A write of TCMD with GO (R426). -/
def testGo (s : State) (who : Who) (sett : Nat) : State × Status :=
  if settAllowed s who sett then testRun s sett else (s, .badField)

/-- TEST_OPERATION. -/
def execTestOperation (who : Who) (sett : Nat) (s : State) : Res :=
  onOk (decide (sett < 256)) (settReply (testGo s who sett) who sett 0x404 0x80000000)

/-! ### Sectors that a cut may have harmed (R153, R379) -/

/-- Units valid in the buffer whose sectors were reported become dirty and eligible. -/
def dirtyReported (s : State) (ps : List Nat) : State :=
  mapUnits s fun n lba u =>
    if u.valid && ps.contains (psaOf s n lba) then
      { u with dirty := true, elig := true, again := u.again || u.inflight
               gen := if u.dirty then u.gen else (s.slot (nsSlot s n)).gen }
    else u

/-- Whether the buffer holds the block at a PSA. -/
def heldInBuffer (s : State) (psa : Nat) : Bool :=
  (allPlaces s).any fun p =>
    let l := lineIn s p
    l.units.any fun e => e.2.valid && decide (psaOf s l.nsid (16 * l.line + e.1) = psa)

/-- ENCROACH_READBACK's effect on the first head with reported sectors: those that the buffer holds are written
again, and the tile reads back the others on a later revolution. -/
def encroachReadback (s : State) (t : Nat) : State :=
  match (List.range 96).find? fun j => decide ((s.headW (96 * t + j)).encroach ≠ []) with
  | none => s
  | some j =>
    let ps := (s.headW (96 * t + j)).encroach
    let s := s.modHeadW (96 * t + j) fun w => { w with encroach := [] }
    let rest := ps.filter fun p => !(heldInBuffer s p)
    let s := dirtyReported s ps
    if headDead s t (j / 24) (j % 24) then s
    else wantSectors s t (j / 24) (j % 24) (rest.map fun p => ⟨⟨p, 0, 0, .readback, 7⟩, none, true⟩)

/-- ENCROACH_READBACK. -/
def execEncroachReadback (t : Nat) (s : State) : Res := onTileCh s t (encroachReadback s t)

end Sys2Proof.Machine
end

