-- ==== Sys2Proof/Machine/Image.lean ====
section
/-! DEFINITION. The configuration image in the boot flash (R464 to R466, R475) and its loading: the hub's
registers, stores and firmware, and a tile's sections (R469 steps 3 and 4, R297, R505 step 2). -/

namespace Sys2Proof.Machine

/-! ### The configuration slots (R475) -/

/-- A byte of the boot flash; erased bytes read 0xFF, and those of a failed operation are free (entry 2). -/
def flashByte (s : State) (o : Nat) : Byte :=
  match s.flash.torn.find? fun e => decide (e.1 ≤ o) && decide (o < e.1 + e.2.1) with
  | some e => Config.freeByte e.2.2 o
  | none => Tab.at 0xFF s.flash.cells o

/-- The flash offset of configuration slot `k`. -/
def slotBase (k : Nat) : Nat := (k + 1) * 0x1000000

/-- Bytes of a slot. -/
def slotBytes (s : State) (k o n : Nat) : Payload := (List.range n).map fun i => flashByte s (slotBase k + o + i)

/-- A big-endian number of a slot. -/
def slotNum (s : State) (k o n : Nat) : Nat := beNat (slotBytes s k o n)

/-- The pointer record that counts: the one with the higher sequence (R475). -/
def ptrRec (s : State) : Option PtrRec :=
  match s.flash.ptrA, s.flash.ptrB with
  | some a, some b => some (if a.seq < b.seq then b else a)
  | some a, none => some a
  | none, b => b

/-- The slot that the device runs from: the current slot, or the previous one after a fallback; none with
no configuration (R476). -/
def liveSlot (s : State) : Option Nat :=
  match ptrRec s with
  | none => none
  | some r =>
    let v := (s.reg (aMgt 4)).toNat
    if v = 0 then none
    else if v = r.version ∧ (s.reg (aMgt 8)).toNat = r.crc then some r.cur else some r.prev

/-! ### The image (R464, R465) -/

/-- LENGTH of the image in a slot. -/
def imgLen (s : State) (k : Nat) : Nat := slotNum s k 12 4
/-- SECTIONS. -/
def imgCount (s : State) (k : Nat) : Nat := slotNum s k 16 2
/-- VERSION. -/
def imgVersion (s : State) (k : Nat) : Nat := slotNum s k 8 4
/-- The trailing CRC. -/
def imgCrc (s : State) (k : Nat) : Nat := slotNum s k (imgLen s k - 4) 4

/-- LENGTH is one that R464 allows. -/
def imgLenOk (s : State) (k : Nat) : Bool :=
  decide (64 ≤ imgLen s k) && decide (imgLen s k ≤ 16777216) && decide (imgLen s k % 4 = 0)

/-- The trailing CRC is valid (R476). -/
def imgValid (s : State) (k : Nat) : Bool :=
  imgLenOk s k && decide ((crc32c (slotBytes s k 0 (imgLen s k - 4))).toNat = imgCrc s k)

/-- A directory entry. -/
structure Sect where
  type : Nat
  index : Nat
  off : Nat
  len : Nat
  crc : Nat
  deriving DecidableEq, Repr

/-- Entry `i` of the directory. -/
def sectOf (s : State) (k i : Nat) : Sect :=
  let o := 32 + 16 * i
  ⟨slotNum s k o 2, slotNum s k (o + 2) 2, slotNum s k (o + 4) 4, slotNum s k (o + 8) 4, slotNum s k (o + 12) 4⟩

/-- The directory. -/
def imgSects (s : State) (k : Nat) : List Sect := (List.range (imgCount s k)).map (sectOf s k)

/-- The bytes of a section. -/
def sectBytes (s : State) (k : Nat) (x : Sect) : Payload := slotBytes s k x.off x.len

/-- A section of a type and index. -/
def findSect (s : State) (k type index : Nat) : Option Sect :=
  (imgSects s k).find? fun x => decide (x.type = type) && decide (x.index = index)

/-- The entries of a REGS section: address and value. -/
def regEntries (bs : Payload) : List (Nat × Word) :=
  (List.range (bs.length / 8)).map fun i => (beAt bs (8 * i) 4, beWord bs (8 * i + 4))

/-- The entries of the REGS section of an index. -/
def regSect (s : State) (k index : Nat) : List (Nat × Word) :=
  match findSect s k 1 index with
  | some x => regEntries (sectBytes s k x)
  | none => []

/-- A tile's entries, offsets from its base: those of its own section replace those of the section for
every tile (R466). -/
def tileEntries (s : State) (k t : Nat) : List (Nat × Word) :=
  let own := regSect s k t
  ((regSect s k 0xFFFE).filter fun e => !(own.any fun x => decide (x.1 = e.1))) ++ own

/-- Words of a store's image, with the dispatch store's table (R465). -/
def imageWords (e : Nat) : Nat := storeWords e + (if e = 0 then 256 else 0)

/-- The UCODE section for a store: its tile's own, or the one for every tile. -/
def codeSect (s : State) (k e : Nat) : Option Sect :=
  if e = 0 then findSect s k 2 0
  else
    match findSect s k 2 ((1 + engTile e) * 256 + engPage e) with
    | some x => some x
    | none => findSect s k 2 (0xFF00 + engPage e)

/-- The image that a slot names for a store; none: the default image (R466). -/
def storeImage (s : State) (k e : Nat) : Option (Tab Word) :=
  (codeSect s k e).map fun x =>
    let bs := sectBytes s k x
    (List.range (imageWords e)).filterMap fun i => if beWord bs (4 * i) = 0 then none else some (i, beWord bs (4 * i))

/-! ### Loading registers -/

/-- The value a register takes from an image: its reserved bits keep their reset values, and CLR of a
section control word reads 0 (R255). -/
def cfgWord (r : RegRow) (w : Word) : Word := (r.reset &&& ~~~r.mask) ||| (w &&& r.mask)

/-- Whether an offset of a CTL page is a section control word. -/
def isSctl (o : Nat) : Bool := decide (0x2000 ≤ o) && decide (o < 0x6000) && decide (o % 32 = 0x14)

/-- A CFG register in one of the domains takes a value of the image. -/
def loadReg (s : State) (inDom : Nat → Bool) (a : Nat) (w : Word) : State :=
  match blkOf a, regRow s.part a with
  | some (b, o), some r =>
    if r.keep = .cfg ∧ inDom (blkDom b o) then
      let v := cfgWord r w
      let sctl := match b with
        | .ctl _ _ => isSctl o
        | _ => false
      s.setReg a (if sctl then setBit v 30 false else v)
    else s
  | _, _ => s

/-- The MGT registers of versions, which no image names. -/
def verRegs : List Nat := [aMgt 4, aMgt 8, aMgt 0xC, aMgt 0x10]

/-- The hub's CFG registers in some domains are loaded from a slot, the others at their reset values; the
versions stay as the executor has set them (R466). -/
def loadHubRegs (s : State) (slot : Option Nat) (inDom : Nat → Bool) : State :=
  let kept := verRegs.map fun a => (a, s.reg a)
  let s := s.cfgReset fun d => inDom d && decide (d < 4)
  let s := kept.foldl (fun s e => s.setReg e.1 e.2) s
  let s := match slot with
    | some k => ((regSect s k 0xFFFF).filter fun e => e.1 ∉ verRegs).foldl (fun s e => loadReg s (fun d => inDom d && decide (d < 4)) e.1 e.2) s
    | none => s
  irqEvalAll s 0

/-- Firmware images and names of a slot (R465). -/
def loadHubImages (s : State) (slot : Option Nat) : State :=
  let get (type : Nat) : Tab Payload :=
    match slot with
    | none => []
    | some k => ((imgSects s k).filter fun x => decide (x.type = type)).foldl
        (fun t x => Tab.to [] t x.index (sectBytes s k x)) []
  { s with mgmt := { s.mgmt with firmware := get 3, names := get 5 } }

/-- The dispatch store is loaded (R297). -/
def loadDispatch (s : State) (slot : Option Nat) : State := loadStore s 0 (slot.bind fun k => storeImage s k 0)

/-- The sections of a slot that concern a tile have good CRCs. -/
def tileSectsOk (s : State) (slot : Option Nat) (t : Nat) : Bool :=
  match slot with
  | none => true
  | some k => (imgSects s k).all fun x =>
      let mine := (decide (x.type = 1) && (decide (x.index = t) || decide (x.index = 0xFFFE))) ||
        (decide (x.type = 2) && (decide (x.index / 256 = 1 + t) || decide (x.index / 256 = 0xFF))) ||
        (decide (x.type = 4) && (decide (x.index / 4 = t) || decide (x.index = 0xFF)))
      !mine || decide ((crc32c (sectBytes s k x)).toNat = x.crc)

/-- The preamplifier list of a cluster (R166, R465): address and data. -/
def preampList (s : State) (k t c : Nat) : List (Nat × Nat) :=
  let bs :=
    match findSect s k 4 (4 * t + c) with
    | some x => sectBytes s k x
    | none => match findSect s k 4 0xFF with
      | some x => sectBytes s k x
      | none => []
  (List.range (bs.length / 4)).map fun i => (beAt bs (4 * i) 1, beAt bs (4 * i + 1) 2)

/-- Whether a domain is among a tile's motion and channel domains asked for. -/
def tileDom (t : Nat) (mo ch : Bool) (d : Nat) : Bool := (mo && decide (d = domMo t)) || (ch && decide (d = domCh t))

/-- A tile's CFG registers in its domains are loaded from a slot (R469 step 4, R495 step 5): with the
motion domain its version, its permitted speeds (R51) and its preamplifier lists. -/
def loadTileRegs (s : State) (slot : Option Nat) (t : Nat) (mo ch : Bool) : State :=
  let ver := verRegs.map s.reg
  let s := s.cfgReset (tileDom t mo ch)
  let s := match slot with
    | some k => (tileEntries s k t).foldl (fun s e => loadReg s (tileDom t mo ch) (tileBase t + e.1) e.2) s
    | none => s
  let s := irqEvalAll s (1 + t)
  if mo then
    let r := rpmLim s t
    let s := s.setReg (aTile t 0x10C) (if hasFormat s t then place 31 16 r.1 ||| place 15 0 r.2 else 0)
    let s := (s.setReg (aTile t 0x40) (nth 0 ver 0)).setReg (aTile t 0x44) (nth 0 ver 1)
    let ps := (List.range 4).foldl
      (fun ps c => Tab.to [] ps (4 * t + c) (match slot with | some k => preampList s k t c | none => [])) s.mgmt.preamp
    { s with mgmt := { s.mgmt with preamp := ps } }
  else s

/-- The engines of a tile in its motion and channel domains: the ladder's store lies in D(4 + t) (R282). -/
def tileEngines (t : Nat) (mo ch : Bool) : List Nat :=
  (if mo then (List.range 5).map fun k => 1 + 6 * t + k else []) ++ (if ch then [1 + 6 * t + 5] else [])

/-- A tile's stores are loaded (R297). -/
def loadTileStores (s : State) (slot : Option Nat) (t : Nat) (mo ch : Bool) : State :=
  (tileEngines t mo ch).foldl (fun s e => loadStore s e (slot.bind fun k => storeImage s k e)) s

/-! ### Agreement (R35, R472, R473) -/

/-- Whether a tile holds the hub's configuration. -/
def tileAgrees (s : State) (t : Nat) : Bool :=
  decide (s.reg (aTile t 0x40) = s.reg (aMgt 4)) && decide (s.reg (aTile t 0x44) = s.reg (aMgt 8))

/-- The hub's operating time is sent to a tile (R473). -/
def sendOptime (s : State) (t : Nat) : State :=
  s.setReg (aTile t 0x48) (place 31 31 1 ||| (s.reg (aMgt 0x30) &&& maskOf 30 0))

/-- MGT.TILEVER of a tile. -/
def aVer (t : Nat) : Nat := aMgt (0x40 + 4 * t)

/-- The live sets that a load changes under loops that run go over by Procedure B (R246, R469): until it writes them
they stay as they were before, in `old`. -/
def holdSets (old s : State) (t c : Nat) : State :=
  let was : List Nat := match (s.ctl t c).upd with
    | some u => u.loops
    | none => []
  let js := (List.range 25).filter fun j =>
    decide (j ∈ was) || loopRuns old t c j && decide (liveSet old t c j ≠ liveSet s t c j)
  if js = [] then s
  else
    let words := js.flatMap (liveSet s t c)
    let s := (js.flatMap (liveSet old t c)).foldl (fun s e => s.setReg e.1 e.2) s
    let s := js.foldl (fun s j => s.setB (loopCtl t c j) 1 true) (s.setB (aCtl t c 0) 0 true)
    s.modCtl t c fun x => { x with upd := some ⟨js, words, 0⟩ }

/-- The entries of a cluster's preamplifier list that have changed go out by REGW, on a link that is in service
(R469 step 4). -/
def sendPreamp (old s : State) (t c : Nat) : State :=
  let was := Tab.at [] old.mgmt.preamp (4 * t + c)
  if armState s t c = 2 then
    ((Tab.at [] s.mgmt.preamp (4 * t + c)).filter fun e => e ∉ was).foldl (fun s e => sendRegw s t c e) s
  else s

/-- A tile receives its sections; they take effect when they are whole. -/
def sendSections (s : State) (t : Nat) : State :=
  let slot := liveSlot s
  if tileSectsOk s slot t then
    let old := s
    let s := loadTileRegs s slot t true (s.domOn (domCh t))
    let s := (List.range 4).foldl (fun s c => sendPreamp old (holdSets old s t c) t c) s
    (tileEngines t true (s.domOn (domCh t))).foldl
      (fun s e =>
        let img := slot.bind fun k => storeImage s k e
        let b := bankLive s e
        if b.dflt = img.isNone ∧ (img.isNone ∨ img = some b.words) then s else swapInStore s e img) s
  else s

/-- One check of agreement with what follows (R472): a tile that does not agree is reloaded and checked
again; after two reloads in a row that fail it stays held. True when it agrees. -/
def checkAgreement (s : State) (t : Nat) : State × Bool :=
  let s := sendOptime s t
  let good (s : State) : State :=
    let m := s.mgmt
    ({ s with mgmt := { m with fails := Tab.to 0 m.fails t 0 } } : State).setF (aVer t) 31 30 1
  if tileAgrees s t then (good s, true)
  else
    let s := owlPost s 0x2003 0 (owlUnit t 0 0 0 0) Status.versionMismatch.code 0 (s.reg (aTile t 0x40)).toNat (s.reg (aTile t 0x44)).toNat
    let s := sendSections ((s.setF (aVer t) 31 30 2).bumpF (aVer t) 15 8 1) t
    if tileAgrees s t then (good s, true)
    else
      let m := s.mgmt
      let n := Tab.at 0 m.fails t + 1
      let s : State := { s with mgmt := { m with fails := Tab.to 0 m.fails t n } }
      (if 2 ≤ n then s.setF (aVer t) 31 30 3 else s, false)

end Sys2Proof.Machine
end

