-- ==== Sys2Proof/Machine/Links.lean ====
section
/-! DEFINITION. The Benbor links (R29 to R37): flits, replays, retraining, training and its end, and the
pace of the clockless fabric (R40). -/

namespace Sys2Proof.Machine

/-- HUB.LINK[t]. -/
def aLink (t : Nat) : Nat := aHub (0x100 + 4 * t)

/-- A tile's link takes a state: both ends report it and hub source 16 + t is raised (R40, R41, R433). -/
def setLinkState (s : State) (t n : Nat) : State :=
  if s.linkState t = n then s
  else irqEdge ((s.setF (aLink t) 3 0 n).setF (aTile t 0x10) 3 0 n) 0 (16 + t)

/-- The link retrains: it carries nothing until it has trained again (R34). -/
def retrain (s : State) (t : Nat) : State := setLinkState (s.bumpF (aLink t) 23 16 1) t 4

/-- Whether a link carries flits: it is trained (R35). -/
def linkLive (s : State) (t : Nat) : Bool := s.linkState t == 2 || s.linkState t == 3

/-- The flits that a link end keeps from sequence number `n` on, oldest first (R33). -/
def fromFlit (x : LinkEnd) (n : Nat) : List Payload :=
  ((x.sent.takeWhile fun f => decide (flitSeq f ≠ n)).reverse) |> fun later =>
    (x.sent.find? fun f => decide (flitSeq f = n)).toList ++ later

/-- The replays of a link end within the last 1 ms. -/
def recentReplays (s : State) (x : LinkEnd) : List Nat := x.replays.filter fun a => decide (s.now < a + ms 1)

/-- A negative acknowledge makes the other end replay: LINKREP counts it, and more than 16 replays of the link
in 1 ms make it retrain (R33, R34). -/
def linkReplay (s : State) (t e n : Nat) : State :=
  let x := s.link t e
  if !(x.sent.any fun f => decide (flitSeq f = n)) then s
  else
    let recent := s.now :: recentReplays s x
    let both := recent.length + (recentReplays s (s.link t (1 - e))).length
    let s := s.setLink t e { x with replays := recent }
    let s := (fromFlit x n).foldl (fun s f => s.emit (.flit t e f)) s
    let s := s.bump (aHub (0x120 + 4 * t))
    if 16 < both then retrain s t else s

/-- A credit return carries a running total: the end gains the difference (R32), and never holds more credits
than the channel has (R30). -/
def creditReturn (s : State) (t e chan total : Nat) : State :=
  s.modLink t e fun x =>
    let d := (total + 2 ^ 16 - nth 0 x.totals chan) % 2 ^ 16
    { x with
      credits := setNth x.credits chan (min (nth 0 chanCredits chan) (nth 0 x.credits chan + d))
      totals := setNth x.totals chan (total % 2 ^ 16) }

/-- A flit reaches an end of a link; `isNak`: its acknowledged sequence number is a negative acknowledge, which
no bit of the flit tells (entry 125). One with a wrong check or out of its turn is discarded, and asked for
again once: a replayed flit that is wrong again draws no second negative acknowledge (DESIGN CHOICE, entry 125:
R33 does not say). What a flit's packets do, the rows of those packets say. -/
def flitReceive (s : State) (t e : Nat) (f : Payload) (isNak : Bool) : State :=
  let x := s.link t e
  if !(linkLive s t) then s
  else if !(flitOk f) ∨ flitSeq f ≠ x.rx then
    if x.bad then s else (s.setLink t e { x with bad := true }).emit (.linkNak t e x.rx)
  else
    let s := s.setLink t e { x with rx := (x.rx + 1) % 4096, bad := false }
    let s := creditReturn s t e (beAt f 4 4 / 2 ^ 30 % 4) (beAt f 4 4 / 2 ^ 14 % 2 ^ 16)
    if isNak then linkReplay s t e (beAt f 0 4 / 2 ^ 6 % 4096) else s

/-- FLIT_RECEIVE: end 0 is the hub's, end 1 the tile's. -/
def execFlitReceive (t e : Nat) (f : Payload) (isNak : Bool) (s : State) : Res :=
  if e < 2 then onTile s t (flitReceive s t e f isNak) else .fault .badOperand

/-- LINK_ACK_TIMEOUT: no acknowledge for 10 µs (R34). -/
def execLinkAckTimeout (t : Nat) (s : State) : Res := onTile s t (if linkLive s t then retrain s t else s)

/-- A trained link agrees on versions, time and retirement sets, and opens its other channels; one in
maintenance stays held, and one that does not agree (R35, R461, R472). -/
def linkOpen (s : State) (t : Nat) : State :=
  let r := checkAgreement s t
  let s := r.1
  if !r.2 then setLinkState s t 2
  else
    let s := settleZones (mergeSets s t)
    let s := if s.tl.mirror.any fun e => decide (e.1 = t) then retireChanged (recordMirror s t) else s
    if inMaint s t then setLinkState s t 2 else owlFlush (setLinkState s t 3) t

/-- A link is down for good: the tile is retired with cause "link", its reads drop their sectors and its
writes end (R34, R36). -/
def linkDown (s : State) (t : Nat) : State :=
  let s := setLinkState s t 5
  let s := (s.setF (aVer t) 31 30 0)
  let s : State := { s with power := { s.power with bring := Tab.to 0 s.power.bring t 0 } }
  endTileWrites (dropTileReads (retireTile s t 0x0D) t) t

/-- The flits of a link end are numbered anew after training; credits and totals stand (R32). -/
def freshFlits (x : LinkEnd) : LinkEnd := { x with rx := 0, bad := false, sent := [], replays := [] }

/-- A training ends (R34, R35). R34 speaks of failed retrains: a failed first training (STATE 1) is tried again
in STATE 4, counts in RETRAINS and is one of the three (DESIGN CHOICE, entry 125). -/
def linkTrained (s : State) (t : Nat) (ok : Bool) : State :=
  let st := s.linkState t
  if st ≠ 1 ∧ st ≠ 4 then s
  else
    let setFails (s : State) (n : Nat) : State := { s with tl := { s.tl with linkFails := Tab.to 0 s.tl.linkFails t n } }
    if ok then
      let s := ((setFails s 0).modLink t 0 freshFlits).modLink t 1 freshFlits
      let b := Tab.at 0 s.power.bring t
      if b = 1 then
        let s : State := { s with power := { s.power with bring := Tab.to 0 s.power.bring t 2 } }
        setLinkState s t 2
      else if b = 2 then setLinkState s t 2
      else linkOpen s t
    else
      let n := Tab.at 0 s.tl.linkFails t + 1
      let s := setFails s n
      if 3 ≤ n then linkDown s t else retrain s t

/-- LINK_TRAINED. -/
def execLinkTrained (t : Nat) (ok : Bool) (s : State) : Res := onTile s t (linkTrained s t ok)

/-- PACE_MEASURE: every 1 ms while D1 runs; PS4 retains the last value (R40). -/
def execPaceMeasure (ratio : Nat) (s : State) : Res :=
  .next (if s.domOn 1 ∧ s.power.deep ≠ .ps4 then s.setReg (aHub 0x10) (place 15 0 ratio) else s)

end Sys2Proof.Machine
end

