-- ==== Sys2Proof/Machine/Queues.lean ====
section
/-! DEFINITION. Host commands from the wire to their turn (R327 to R336): packet opcodes (R289), intake,
the checks of R17 and R423, the ordering point, and range invalidation (R334, R387). -/

namespace Sys2Proof.Machine

/-! ### Packet opcodes (R289) -/

/-- The packet opcode of a capsule on an I/O or an admin queue; none: no such packet is formed. -/
def packetOp (io : Bool) (c : Capsule) : Option Nat :=
  if c.opcode = 0x7F then (if c.fctype < 16 then some (0xE0 + c.fctype) else none)
  else if io then (if c.opcode < 0x80 then some c.opcode else none)
  else if c.opcode < 0x40 then some (0x80 + c.opcode)
  else if 0xC0 ≤ c.opcode ∧ c.opcode < 0xE0 then some c.opcode
  else none

/-- The packet opcode of a command; the device's own reads are Reads (R384). -/
def cmdOp (c : Cmd) : Nat := if c.origin = .host then (packetOp (isIoQp c.qp) c.cap).getD 0xFF else 0x02

/-- The packet opcodes that name a command of this manual or of the standards it follows: Flush, Write,
Read, Write Zeroes, Dataset Management, Zone Management Send and Receive, Zone Append; the admin
commands; the vendor commands of R358 and R460; the Fabrics commands of R310. -/
def knownOps : List Nat :=
  [0x00, 0x01, 0x02, 0x08, 0x09, 0x79, 0x7A, 0x7D,
   0x80, 0x81, 0x82, 0x84, 0x85, 0x86, 0x88, 0x89, 0x8A, 0x8C, 0x8D, 0x95, 0x98,
   0xC0, 0xC1, 0xC2, 0xC3, 0xC4, 0xC9, 0xCA,
   0xE0, 0xE1, 0xE4, 0xE5, 0xE6, 0xE8]

/-- Commands that only the manager role may send (R348, R358). -/
def managerOps : List Nat := [0x8D, 0x95, 0xC2, 0xC3]

/-- Commands that a discovery controller serves beside the Fabrics commands (R310, R314). -/
def discoveryOps : List Nat := [0x82, 0x86, 0x89, 0x8A, 0x8C, 0x98]

/-- Commands of zoned namespaces alone (R354). -/
def zoneOps : List Nat := [0x79, 0x7A, 0x7D]

/-- Commands that read or write blocks and check their slot (R423). -/
def dataOps : List Nat := [0x00 + 0x01, 0x02, 0x08, 0x7D]

/-- Commands that write blocks. -/
def writeOps : List Nat := [0x01, 0x08, 0x7D]

/-! ### Capsule fields -/

/-- Zone Send Action and Zone Receive Action: CDW13 bits 7:0. -/
def capAction (c : Capsule) : Nat := c.cdw13 % 256
/-- Select All: CDW13 bit 8. -/
def capAll (c : Capsule) : Bool := decide (c.cdw13 / 256 % 2 = 1)
/-- The deallocate attribute: CDW11 bit 2. -/
def capDealloc (c : Capsule) : Bool := decide (c.cdw11 / 4 % 2 = 1)
/-- NSID for every namespace. -/
def allNs : Nat := 0xFFFFFFFF

/-- Ranges of a Dataset Management command: start and end; a length of 0 is ignored (R359). -/
def dsmRanges (c : Capsule) : List (Nat × Nat) :=
  ((List.range (c.cdw10 % 256 + 1)).map fun i =>
    (leAt c.data (16 * i + 8) 8, leAt c.data (16 * i + 8) 8 + leAt c.data (16 * i + 4) 4)).filter fun r => r.1 ≠ r.2

/-- The length of the whole reply kept for an association (R460). -/
def keptLen (s : State) (cntlid : Nat) : Nat := (Tab.at [] s.mgmt.kept cntlid).length

/-- The bytes that a command transfers, by its packet opcode; none: it transfers nothing (R311). -/
def dataLen (s : State) (qp op : Nat) (c : Capsule) : Option Nat :=
  if op = 1 ∨ op = 2 ∨ op = 0x7D then some ((capNlb c + 1) * blkBytes s c.nsid)
  else if op = 9 then some ((c.cdw10 % 256 + 1) * 16)
  else if op = 0x7A then some ((c.cdw12 % 2 ^ 32 + 1) * 4)
  else if op = 0x82 then some ((c.cdw10 / 2 ^ 16 % 2 ^ 16 + c.cdw11 % 2 ^ 16 * 2 ^ 16 + 1) * 4)
  else if op = 0x86 ∨ op = 0x95 ∨ op = 0xC1 then some 4096
  else if op = 0x8D then (if c.cdw10 % 16 = 0 then some 4096 else none)
  else if op = 0xC4 then some 512
  else if op = 0xC9 then some (c.cdw10 % 2 ^ 16)
  else if op = 0xCA then some (keptLen s (s.qp qp).cntlid)
  else if op = 0xE1 then some 1024
  else none

/-- Whether a command's data goes from the host to the device. -/
def dataOut (op : Nat) : Bool := op ∈ [1, 9, 0x7D, 0x8D, 0x95, 0xC9, 0xE1]

/-! ### The checks at intake (R17, R311, R329, R351, R423) -/

/-- The association of a queue pair. -/
def qpAssoc (s : State) (qp : Nat) : Assoc := s.assoc (s.qp qp).cntlid

/-- ST_BAD_OPCODE (R289, R310, R348, R358, R460): the opcode is unknown, its dispatch entry is not valid,
the role or the kind of controller does not allow it, or the namespace is not zoned. -/
def badOpcode (s : State) (qp : Nat) (op : Nat) (c : Capsule) : Bool :=
  let a := qpAssoc s qp
  op ∉ knownOps || !(dispatchValid s op) || (decide (op ∈ managerOps) && !a.manager) ||
    (a.live && a.discovery && decide (op < 0xE0) && decide (op ∉ discoveryOps)) ||
    (decide (op ∈ zoneOps) && nsAttached s c.nsid && !(nsZoned s c.nsid))

/-- ST_BAD_LENGTH (R311, R329, R460, R310). -/
def badLength (s : State) (qp op : Nat) (c : Capsule) : Bool :=
  ((op = 1 ∨ op = 2 ∨ op = 0x7D) && decide ((if nsGuard s c.nsid then 255 else 256) < capNlb c + 1)) ||
    (op = 0xC9 && (decide (c.cdw10 % 2 ^ 16 < 12) || decide (4108 < c.cdw10 % 2 ^ 16))) ||
    (match dataLen s qp op c with
      | none => false
      | some n => decide (c.sglKind < 2) && (decide (c.sglLen ≠ n) && !(op = 0xCA && n = 0) ||
          (c.sglKind = 1 && decide (8192 < c.sglLen))))

/-- The namespace that a command names is attached, or it names every one where it may (R351). -/
def badNamespace (s : State) (op : Nat) (c : Capsule) : Bool :=
  if op = 0 then !(nsAttached s c.nsid) && decide (c.nsid ≠ allNs)
  else if op < 0x80 then !(nsAttached s c.nsid)
  else false

/-- A range beyond the namespace, an SLBA that is no zone's start where it must be, or an action that the
zoned command set does not give (R354). -/
def badRange (s : State) (op : Nat) (c : Capsule) : Bool :=
  let n := c.nsid
  let size := nsSize s n
  let a := capSlba c
  let start := decide (a % max 1 (zoneSize s n) = 0) && decide (a < size)
  if op = 1 ∨ op = 2 ∨ op = 8 then decide (size < a + capNlb c + 1)
  else if op = 0x7D then !start
  else if op = 0x79 then decide (capAction c = 0) || decide (5 < capAction c) || !(capAll c || start)
  else if op = 0x7A then decide (1 < capAction c) || decide (7 < c.cdw13 / 256 % 256) || decide (size ≤ a)
  else if op = 9 then (dsmRanges c).any fun r => decide (size < r.2)
  else false

/-- The fields of admin commands that the device checks at intake: the features it knows, and the selections
and namespaces of Namespace Management and Attachment (R325, R348, R351, R357). -/
def badAdmin (s : State) (op : Nat) (c : Capsule) : Bool :=
  let sel := c.cdw10 % 16
  if op = 0x89 ∨ op = 0x8A then 
    decide (c.cdw10 % 256 ∉ [0x06, 0x07, 0x0B, 0x0F, 0xC0]) || (decide (c.cdw10 % 256 = 0xC0) && !(nsAttached s c.nsid))
  else if op = 0x8D then decide (1 < sel) || (decide (sel = 1) && decide (c.nsid ≠ allNs) && !(nsExists s c.nsid))
  else if op = 0x95 then decide (1 < sel) || !(nsExists s c.nsid)
  else false

/-- ST_BAD_FIELD (R311, R351, R354): the SGL descriptor, the namespace or the range. -/
def badField (s : State) (qp op : Nat) (c : Capsule) : Bool :=
  ((dataLen s qp op c).isSome && (decide (2 ≤ c.sglKind) || (c.sglKind = 1 && !(dataOut op)))) ||
    badNamespace s op c || badRange s op c || badAdmin s op c

/-- The blocks a data command names as they stand: an append's blocks have no place yet. -/
def namedBlocks (s : State) (op : Nat) (c : Capsule) : List Nat :=
  if op = 0x7D then [capSlba c] else (List.range (capNlb c + 1)).map fun i => capSlba c + i

/-- ST_RETIRED of a write: a block on a unit that cannot be written, a stale pair (R196, R378), or a zone
that is Read Only or Offline (R355). -/
def badRetired (s : State) (op : Nat) (c : Capsule) : Bool :=
  decide (op ∈ writeOps) &&
    ((nsZoned s c.nsid && (let z := zoneState s c.nsid (zoneIx s c.nsid (capSlba c)); z == .readOnly || z == .offline)) ||
      (namedBlocks s op c).any fun b =>
        let p := psaOf s c.nsid b
        headUnwritable s (psaTile p, psaCluster p, psaHead p) || isStale s p)

/-- The namespace's slot at intake (R423). -/
def slotCheck (s : State) (op : Nat) (c : Capsule) : Status :=
  if op ∈ dataOps then
    let x := s.slot (nsSlot s c.nsid)
    if x.state = 0 then .slotEmpty
    else if x.state = 2 then .keyErased
    else if op ∈ writeOps ∧ x.exhausted then .nonceExhausted
    else .ok
  else .ok

/-- Why a command is rejected at intake, in the order of R17; ok: it is admitted. Before its Connect a
queue pair takes nothing else; a tag store that is FATAL stops data commands (R399). -/
def intakeCheck (s : State) (qp : Nat) (c : Capsule) : Status :=
  match packetOp (isIoQp qp) c with
  | none => .badOpcode
  | some op =>
    if badOpcode s qp op c then .badOpcode
    else if badLength s qp op c then .badLength
    else if ((s.qp qp).state ≠ 2 ∧ op ≠ 0xE1) ∨ badField s qp op c then .badField
    else if badRetired s op c then .retired
    else if op < 0x80 ∧ s.bit (aMemp 0) 31 then .storeBusy
    else slotCheck s op c

/-! ### Classes and ranges (R331) -/

/-- The class of a command by its packet opcode. -/
def classOf (op : Nat) (c : Capsule) : Cls :=
  if op = 2 then .rd
  else if op = 1 ∨ op = 8 ∨ op = 0x7D then .wr
  else if op = 9 then (if capDealloc c then .iv else .none)
  else if op = 0x79 then (if capAction c = 5 then .none else .iv)
  else if op = 0 then .fl
  else if op = 0x8D then (if c.cdw10 % 16 = 1 then .nd else .none)
  else .none

/-- The first block of a zone, and the one after its last. -/
def zoneSpan (s : State) (n z : Nat) : Nat × Nat := (z * zoneSize s n, (z + 1) * zoneSize s n)

/-- The range of a command as the ordering point takes it: its first block and the one after its last. -/
def orderSpan (s : State) (op : Nat) (c : Capsule) : Nat × Nat :=
  let n := c.nsid
  let a := capSlba c
  let z := zoneSpan s n (zoneIx s n a)
  if op = 2 then (a, a + capNlb c + 1)
  else if op = 1 ∨ op = 8 then (a, if nsZoned s n then z.2 else a + capNlb c + 1)
  else if op = 0x7D then z
  else if op = 0x79 then (if capAll c then (0, nsSize s n) else z)
  else (0, nsSize s n)

/-- The ranges of a placed command (R331). -/
def rangesOf (s : State) (c : Cmd) : List (Nat × Nat) :=
  if c.cls = .iv ∧ c.cap.opcode = 9 then dsmRanges c.cap
  else if c.cls = .wr ∧ c.cap.opcode = 0x7D then [zoneSpan s c.nsid (zoneIx s c.nsid c.lo)]
  else [(c.lo, c.hi)]

/-- Whether two commands overlap: their namespaces meet and their ranges share a block. -/
def overlap (s : State) (a b : Cmd) : Bool :=
  (a.all || b.all || decide (a.nsid = b.nsid)) &&
    (a.all || b.all || a.cls == .fl || b.cls == .fl || a.cls == .nd || b.cls == .nd ||
      (rangesOf s a).any fun x => (rangesOf s b).any fun y => decide (x.1 < y.2) && decide (y.1 < x.2))

/-! ### The ordering point (R330 to R333) -/

/-- Whether an earlier command has reached the milestone that a later one waits for. -/
def milestone (e l : Cmd) : Bool :=
  match e.cls, l.cls with
  | .rd, .rd | .rd, .fl => true
  | .rd, _ => false
  | .wr, _ => e.visible || e.void
  | .iv, .fl => true
  | .iv, _ => e.done
  | _, _ => true

/-- The earlier commands that a placed command overlaps. -/
def earlier (s : State) (i : Nat) : List (Nat × Cmd) :=
  let c := s.cmd i
  (liveCmds s).filter fun e =>
    (match e.2.place, c.place with
      | some a, some b => decide (a < b)
      | _, _ => false) && overlap s e.2 c

/-- Whether a command's turn has come. -/
def turnReady (s : State) (i : Nat) : Bool := (earlier s i).all fun e => milestone e.2 (s.cmd i)

/-- Whether a command fails behind a delete of its namespace: an earlier ND, or the namespace is gone; a
Flush of every namespace passes (R333). -/
def behindDelete (s : State) (i : Nat) : Bool :=
  let c := s.cmd i
  if c.cls = .fl ∧ c.all then false
  else (!c.all && !(nsExists s c.nsid)) || (earlier s i).any fun e => e.2.cls == .nd

/-! ### Admission (R327, R328) -/

/-- The command that a capsule becomes. -/
def newCmd (s : State) (qp op : Nat) (c : Capsule) : Cmd :=
  let cls := classOf op c
  let r := orderSpan s op c
  let data := op ∈ dataOps
  let len := if data then capNlb c + 1 else 0
  let bytes := blkBytes s c.nsid
  let blk (b : Nat) : Blk :=
    if op = 8 then ⟨.staged, none, [], none⟩
    else if op ≠ 2 ∧ c.sglKind = 1 then ⟨.staged, none, slice c.data (bytes * b) bytes, none⟩
    else Blk.idle
  let dl := s.fld (aNs c.nsid 0xC) 15 0
  { Cmd.none with
    live := true, qp := qp, cap := c, cls := cls, nsid := c.nsid, lo := r.1, hi := r.2
    all := decide (cls = .fl ∨ cls = .nd) && decide (c.nsid = allNs)
    turned := decide (cls = .none)
    blks := (List.range len).map blk
    deadline := if op = 2 ∧ dl ≠ 0 then some (s.now + ms dl) else Option.none
    cap6 := if op = 2 ∧ capLimited c then 6 else 7
    fua := decide (cls = .wr) && capFua c }

/-- Staging pages for the blocks that a capsule brought (R365). -/
def stageAll (s : State) (i : Nat) : State :=
  (List.range (s.cmd i).len).foldl
    (fun s b =>
      if ((s.cmd i).blk b).data = [] then s
      else match takePage s i b with
        | some s => match pageOfBlk s i b with
          | some p => pageWritten s p
          | none => s
        | none => s) s

/-- A command enters the device: it is placed at its ordering point, or, of no class, is dispatched at
once (R328, R330); a write begins to fetch its data (R333), a Flush takes the dirty units it covers
(R336), a stream tracker sees it (R382). -/
def enter (s : State) (qp op : Nat) (cap : Capsule) : State :=
  let i := s.nq.nextCmd
  let c := newCmd s qp op cap
  let ordered := decide (c.cls ≠ .none)
  let c := if ordered then { c with place := some s.nq.nextPlace } else c
  let q := s.nq
  let s : State := { s with nq := { q with
    cmds := Tab.to Cmd.none q.cmds i c, nextCmd := i + 1, nextPlace := if ordered then q.nextPlace + 1 else q.nextPlace } }
  if !ordered then dispatchPacket s op (w32 i) i
  else
    let s :=
      if op ∈ dataOps then
        let r := trackStream s c.nsid (capSlba cap) c.len (decide (op ≠ 2))
        r.1.setCmd i { r.1.cmd i with stream := streaming r.1 r.2 }
      else s
    let s :=
      if c.cls = .fl then
        let us := dirtyOf s c
        makeEligible (s.setCmd i { s.cmd i with units := us }) (fun n b _ => us.contains (n, b)) true
      else s
    let s := if turnReady s i then s else s.bump (aNq 0x34)
    if c.cls = .wr then writeProgress (stageAll s i) i else s

/-- Whether a pool has a free place (R327). -/
def placeFree (s : State) (qp : Nat) : Bool :=
  if isIoQp qp then decide (ioOutstanding s < 131072) else decide (adminOutstanding s < 4096)

/-- The queues of a pool that wait for a place, and among them the one next in round-robin order. -/
def nextWaiting (s : State) (io : Bool) : Option Nat :=
  let ws := (s.nq.qps.filter fun e => decide (isIoQp e.1 = io) && e.2.waitAt.isSome).map (·.1)
  match ws.find? fun n => decide (s.nq.turnPtr < n) with
  | some n => some n
  | none => ws.head?

/-- A capsule leaves intake: SQHD passes it. -/
def popCapsule (s : State) (qp : Nat) : State :=
  let q := s.qp qp
  s.setQp qp { q with intake := q.intake.drop 1, waitAt := none, sqhd := (q.sqhd + 1) % (q.size + 1) }

/-- A capsule that waited too long completes with ST_QUEUE_FULL (R327). -/
def fullOut (s : State) (qp : Nat) (c : Capsule) : State :=
  postCqe ((popCapsule s qp).bump (aNq 0x20)) qp c.cid 0 0 .queueFull

/-- Set Features of the asynchronous event configuration and of the keep-alive timer: settings of the
association alone, which take effect at intake (entry 60). -/
def assocFeature (s : State) (qp op : Nat) (c : Capsule) : Option State :=
  let i := (s.qp qp).cntlid
  let a := s.assoc i
  if op = 0x89 ∧ c.cdw10 % 256 = 0x0B then some (s.setAssoc i { a with aec := c.cdw11 % 2 ^ 32 })
  else if op = 0x89 ∧ c.cdw10 % 256 = 0x0F then
    some (s.setAssoc i { a with kato := (c.cdw11 % 2 ^ 32 + 99) / 100 * 100, kaAt := s.now })
  else none

/-- CAPSULE_ADMIT's effect: the first capsule of a queue takes a place, or begins to wait for one. -/
def capsuleAdmit (s : State) (qp : Nat) : State :=
  let q := s.qp qp
  match q.intake with
  | [] => s
  | c :: _ =>
    if q.state = 3 ∨ q.state = 4 then s
    else
      let next := nextWaiting s (isIoQp qp)
      if placeFree s qp ∧ (next = none ∨ next = some qp) then
        let st := intakeCheck s qp c
        let s := popCapsule s qp
        let s : State := { s with nq := { s.nq with turnPtr := qp } }
        match st, packetOp (isIoQp qp) c with
        | .ok, some op =>
          if op = 9 ∧ !(capDealloc c) then postCqe s qp c.cid 0 0 .ok
          else match assocFeature s qp op c with
            | some s => postCqe s qp c.cid 0 0 .ok
            | none => enter s qp op c
        | st, _ => postCqe s qp c.cid 0 0 st
      else if q.waitAt.isSome then s
      else
        let s := (s.setQp qp { q with waitAt := some s.now }).bump (aNq 0x24)
        if s.fld (aNq 0) 15 8 = 0 ∧ !(placeFree s qp) then fullOut s qp c else s

/-- A queue pair's number is one of the family's: the I/O pool, and the admin pairs above it. -/
def qpOk (qp : Nat) : Bool := decide (qp < 12288)

/-- CAPSULE_ADMIT. -/
def execCapsuleAdmit (qp : Nat) (s : State) : Res := onOk (qpOk qp) (capsuleAdmit s qp)

/-- QFULL_TIMEOUT: the first capsule has waited QFULLT ms (R327). -/
def execQfullTimeout (qp : Nat) (s : State) : Res :=
  onOk (qpOk qp)
    (let q := s.qp qp
     match q.intake, q.waitAt with
     | c :: _, some t => if t + ms (s.fld (aNq 0) 15 8) ≤ s.now then fullOut s qp c else s
     | _, _ => s)

/-- A host's Send is acknowledged, up to the packet before the one that is expected next (R307). -/
def ackSend (s : State) (n : Nat) : State := s.emit (.nak n 0 (((s.qp n).epsn + 2 ^ 24 - 1) % 2 ^ 24) 0)

/-- A Send that finds no receive buffer: an RNR NAK with timer code RNRT, and the host sends it again (R308). -/
def refuseSend (s : State) (n : Nat) : State :=
  let q := s.qp n
  ((s.setQp n { q with epsn := q.mpsn }).bump (aHpt q.port (0xC0 + 4 * q.sub))).emit
    (.nak n 2 q.mpsn (s.fld (aHpt q.port 8) 20 16))

/-- CAPSULE_RECEIVE: a capsule arrives on a queue pair; after a reset's boundary it completes with
ST_QUEUE_RESET and has no effect (R339); one that finds no receive buffer of the CRQSIZE that the queue
has is answered with an RNR NAK (R308). -/
def capsuleReceive (s : State) (qp : Nat) (c : Capsule) : State :=
  let q := s.qp qp
  if !q.held then s
  else if q.state = 3 then postCqe (ackSend s qp) qp c.cid 0 0 .queueReset
  else if q.state = 4 then s
  else if q.hsq + 1 ≤ q.intake.length then refuseSend s qp
  else ackSend (s.setQp qp { q with intake := q.intake ++ [c] }) qp

/-- CAPSULE_RECEIVE. -/
def execCapsuleReceive (qp : Nat) (c : Capsule) (s : State) : Res := onOk (qpOk qp) (capsuleReceive s qp c)

/-! ### The turn (R333, R334, R354, R416) -/

/-- Lines that a list of ranges spans. -/
def rangeLines (rs : List (Nat × Nat)) : Nat := (rs.map fun r => (r.2 - r.1 + 15) / 16).foldl (· + ·) 0

/-- A command's ranges are invalidated (R334). -/
def invalidateCmd (s : State) (i : Nat) : State :=
  let c := s.cmd i
  (rangesOf s c).foldl (fun s r => invalidate s c.nsid r.1 r.2 .ok) s

/-- Whether an IV command invalidates its range: a deallocate, and a zone Reset (R354, R356). -/
def invalidates (c : Cmd) : Bool := decide (c.cls = .iv) && (decide (c.cap.opcode = 9) || decide (capAction c.cap = 4))

/-- The turn of a zoned write: where it goes, or why it ends without effect (R354, R355). -/
def zoneTurn (s : State) (c : Cmd) : Except Status Nat :=
  let n := c.nsid
  let z := zoneIx s n c.lo
  let st := zoneState s n z
  let at_ := (zoneSpan s n z).1 + (zoneAt s n z).wp
  let first := if c.cap.opcode = 0x7D then at_ else c.lo
  if st = .readOnly ∨ st = .offline then .error .retired
  else if st = .full ∨ first ≠ at_ ∨ (zoneSpan s n z).1 + zoneCap s n z < first + c.len then .error .badField
  else .ok first

/-- A command takes its turn: it latches its slot's generation and starts its dispatch thread. -/
def takeTurn (s : State) (i : Nat) : State :=
  let c := s.cmd i
  let c := { c with turned := true, gen := (s.slot (nsSlot s c.nsid)).gen }
  dispatchPacket (s.setCmd i c) (cmdOp c) (w32 i) i

/-- Why a command of the media is rejected for the sectors it names: the first of R10 and R47 that holds (in the
order of R17); the sectors of a tile whose format is not loaded are held for it (R36, R67). -/
def psaStatus (s : State) (c : Cmd) : Status :=
  let sts := (List.range c.len).map fun b =>
    let p := psaOf s c.nsid (c.lba b)
    if s.hasTile (psaTile p) ∧ !(hasFormat s (psaTile p)) then none else psaCheck s p
  if sts.contains (some .badField) then .badField else if sts.contains (some .domainOff) then .domainOff else .ok

/-- ORDERING_TURN's effect. -/
def orderingTurn (s : State) (i : Nat) : State :=
  let c := s.cmd i
  if !c.live ∨ c.turned ∨ c.place = none then s
  else if behindDelete s i then completeCmd s i .badField
  else if !(turnReady s i) then s
  else
    match c.cls with
    | .rd =>
      let st := c.status.orElse (psaStatus s c)
      if st = .ok then takeTurn s i else completeCmd s i st
    | .wr =>
      if c.status ≠ .ok then completeCmd s i c.status
      else if nsZoned s c.nsid then
        match zoneTurn s c with
        | .error st => completeCmd s i st
        | .ok lo =>
          let app := decide (c.cap.opcode = 0x7D)
          let c := { c with
            lo := lo, dw0 := if app then lo % 2 ^ 32 else 0, dw1 := if app then lo / 2 ^ 32 else 0 }
          if psaStatus s c = .ok then takeTurn (s.setCmd i c) i else completeCmd s i (psaStatus s c)
      else if psaStatus s c = .ok then takeTurn s i
      else completeCmd s i (psaStatus s c)
    | .iv =>
      let s := takeTurn s i
      if !(invalidates c) then s
      else if 65536 < rangeLines (rangesOf s c) then { s with buf := { s.buf with scans := s.buf.scans ++ [i] } }
      else
        let s := invalidateCmd s i
        if c.cap.opcode = 9 then s.setCmd i { s.cmd i with done := true } else s
    | _ => takeTurn s i

/-- ORDERING_TURN. -/
def execOrderingTurn (i : Nat) (s : State) : Res := .next (orderingTurn s i)

/-- Lines and copies of namespaces that exist no longer are invalidated: the range of a delete (R352). -/
def invalidateDeleted (s : State) : State :=
  let ns := (s.buf.lines.map fun e => e.2.nsid) ++ s.buf.copies.map fun l => l.nsid
  ns.foldl (fun s n => if n = 0 ∨ nsExists s n then s else invalidate s n 0 (2 ^ 64) .ok) s

/-- A delete's invalidation has ended: the command completes (R352). -/
def deleteEnds (s : State) (i : Nat) : State := completeCmd s i .ok

/-- INVALIDATION_SCAN_DONE: the scan of every tag has passed the range (R387). -/
def scanDone (s : State) (i : Nat) : State :=
  if i ∉ s.buf.scans then s
  else
    let s : State := { s with buf := { s.buf with scans := s.buf.scans.filter fun j => j ≠ i } }
    let c := s.cmd i
    if !c.live then s
    else if c.cls = .nd then deleteEnds (invalidateDeleted s) i
    else
      let s := invalidateCmd s i
      if c.cap.opcode = 9 then s.setCmd i { s.cmd i with done := true } else s

/-- INVALIDATION_SCAN_DONE. -/
def execInvalidationScanDone (i : Nat) (s : State) : Res := .next (scanDone s i)

/-! ### I/O commands (R20, R22, R336, R354, R356) -/

/-- A row's effect on a command at its turn, when it is that row's command. -/
def onCmd (s : State) (i op : Nat) (f : State) : Res :=
  .next (let c := s.cmd i; if c.live ∧ c.turned ∧ cmdOp c = op then f else s)

/-- READ's effect: the blocks are served, joined to fills or sought on the media; a confirmed tracker prefetches
(R20, R370, R383). -/
def readTurn (s : State) (i : Nat) : State :=
    (let c := s.cmd i
     let s := readProgress s i
     if c.origin ≠ .host then s
     else match s.buf.trackers.find? fun x => decide (x.nsid = c.nsid) && decide (x.last = c.lo) && !x.write with
       | some x => prefetch s c.nsid x
       | none => s)

/-- WRITE (R22, R373). -/
def execWrite (i : Nat) (s : State) : Res := onCmd s i 0x01 (writeProgress s i)

/-- WRITE_ZEROES: visible at its turn (R332, R356). -/
def execWriteZeroes (i : Nat) (s : State) : Res := onCmd s i 0x08 (writeProgress s i)

/-- ZONE_APPEND: written at the write pointer of its turn (R354). -/
def execZoneAppend (i : Nat) (s : State) : Res := onCmd s i 0x7D (writeProgress s i)

/-- FLUSH: it completes when everything it covers is on the media and recorded (R336). -/
def execFlush (i : Nat) (s : State) : Res :=
  onCmd s i 0x00 (tryEnd (s.setCmd i { s.cmd i with done := true }) i)

/-- DATASET_MANAGEMENT: it completes when its invalidation is done (R356). -/
def execDatasetManagement (i : Nat) (s : State) : Res :=
  onCmd s i 0x09 (if (s.cmd i).done then completeCmd s i .ok else s)

end Sys2Proof.Machine
end

