-- ==== Sys2Proof/Machine/Zones.lean ====
section
/-! DEFINITION. Zones (R353 to R355): the actions of Zone Management Send, the reports of Zone Management
Receive, and the records of the write pointers on the media. -/

namespace Sys2Proof.Machine

/-! ### Zone actions (R354) -/

/-- The zones of a zoned namespace. -/
def zonesOf (s : State) (n : Nat) : List Nat := List.range (nsGcount s n)

/-- The pointers of a zone's heads as they will be recorded: at the start, or at the end of every band. -/
def setReached (s : State) (n z : Nat) (full : Bool) : State :=
  let t := (nsHead s n 0).1
  let v := if full then groupBlocks s t (nsGfirst s n + z) false else 0
  (List.range (nsHeads s n)).foldl
    (fun s j => { s with nq := { s.nq with reached := Tab.to 0 s.nq.reached (reachKey n z j) v } }) s

/-- The stale bits of a zone's pairs are cleared by its Reset (R378). -/
def clearZoneStale (s : State) (n z : Nat) : State :=
  let g := nsGfirst s n + z
  let s' := (List.range (nsHeads s n)).foldl
    (fun s j => let h := nsHead s n j; s.setB (aBuf (0x1000 + 4 * (96 * h.1 + headIx h.2.1 h.2.2))) g false) s
  if s'.regs = s.regs then s else retireChanged s'

/-- One action on a zone in a state: the zone after it, or none where the zone does not allow it. -/
def zoneAct (s : State) (n z act : Nat) : Option State :=
  let x := zoneAt s n z
  let st := zoneState s n z
  if st = .readOnly ∨ st = .offline then none
  else if act = 3 then
    (if st = .full then none else some (setZone s n z { x with state := .explOpen }))
  else if act = 1 then
    (if st = .implOpen ∨ st = .explOpen then
      some (setZone s n z { x with state := if x.wp = 0 then .empty else .closed })
    else if st = .closed then some s else none)
  else if act = 2 then some (setReached (setZone s n z ⟨.full, zoneCap s n z, x.written⟩) n z true)
  else some (clearZoneStale (setReached (setZone s n z Zone.fresh) n z false) n z)

/-- The zones that an action with Select All acts on: Open closed ones, Close open ones, Finish open and
closed ones, Reset those and the full ones. -/
def selected (s : State) (n act : Nat) : List Nat :=
  (zonesOf s n).filter fun z =>
    match zoneState s n z with
    | .implOpen | .explOpen => decide (act ≠ 3)
    | .closed => decide (act ≠ 1)
    | .full => decide (act = 4)
    | _ => false

/-- A zone action's row: at its turn, its scan over, it acts and completes. -/
def zoneSend (s : State) (i act : Nat) : State :=
  let c := s.cmd i
  if !c.live ∨ !c.turned ∨ cmdOp c ≠ 0x79 ∨ capAction c.cap ≠ act ∨ i ∈ s.buf.scans then s
  else if act = 5 then completeCmd s i .badField
  else if capAll c.cap then
    completeCmd ((selected s c.nsid act).foldl (fun s z => (zoneAct s c.nsid z act).getD s) s) i .ok
  else
    match zoneAct s c.nsid (zoneIx s c.nsid (capSlba c.cap)) act with
    | some s => completeCmd s i .ok
    | none => completeCmd s i .badField

/-- ZONE_OPEN. -/
def execZoneOpen (i : Nat) (s : State) : Res := .next (zoneSend s i 3)
/-- ZONE_CLOSE. -/
def execZoneClose (i : Nat) (s : State) : Res := .next (zoneSend s i 1)
/-- ZONE_FINISH. -/
def execZoneFinish (i : Nat) (s : State) : Res := .next (zoneSend s i 2)
/-- ZONE_RESET. -/
def execZoneReset (i : Nat) (s : State) : Res := .next (zoneSend s i 4)
/-- ZONE_OFFLINE. -/
def execZoneOffline (i : Nat) (s : State) : Res := .next (zoneSend s i 5)

/-! ### Reports (R354) -/

/-- A zone state's code in a descriptor of the Zoned Namespace command set. -/
def zoneCode : ZState → Nat
  | .empty => 1 | .implOpen => 2 | .explOpen => 3 | .closed => 4
  | .readOnly => 0xD | .full => 0xE | .offline => 0xF

/-- Whether a zone passes a report's filter. -/
def zonePasses (f : Nat) (z : ZState) : Bool :=
  match f with
  | 0 => true
  | 1 => z == .empty
  | 2 => z == .implOpen
  | 3 => z == .explOpen
  | 4 => z == .closed
  | 5 => z == .full
  | 6 => z == .readOnly
  | _ => z == .offline

/-- A 64-byte zone descriptor. -/
def zoneDesc (s : State) (n z : Nat) : Payload :=
  let first := (zoneSpan s n z).1
  leBytes 1 2 ++ leBytes 1 (zoneCode (zoneState s n z) * 16) ++ zeros 6 ++ leBytes 8 (zoneCap s n z) ++
    leBytes 8 first ++ leBytes 8 (first + (zoneAt s n z).wp) ++ zeros 32

/-- A report's data: the number of zones and their descriptors from SLBA on. -/
def zoneReport (s : State) (c : Capsule) : Payload :=
  let n := c.nsid
  let len := (c.cdw12 % 2 ^ 32 + 1) * 4
  let zs := (zonesOf s n).filter fun z =>
    decide (zoneIx s n (capSlba c) ≤ z) && zonePasses (c.cdw13 / 256 % 256) (zoneState s n z)
  let room := (len - 64) / 64
  let count := if c.cdw13 / 65536 % 2 = 1 then min room zs.length else zs.length
  padTo len (leBytes 8 count ++ zeros 56 ++ (zs.take room).flatMap (zoneDesc s n))

/-- A report's row. -/
def zoneReceive (s : State) (i act : Nat) : State :=
  let c := s.cmd i
  if c.live ∧ cmdOp c = 0x7A ∧ capAction c.cap = act then completeData s i (zoneReport s c.cap) else s

/-- REPORT_ZONES. -/
def execReportZones (i : Nat) (s : State) : Res := .next (zoneReceive s i 0)
/-- EXTENDED_REPORT_ZONES: no descriptor extensions are supported, so the descriptors are the same. -/
def execExtendedReportZones (i : Nat) (s : State) : Res := .next (zoneReceive s i 1)

/-! ### Records (R353, R336) -/

/-- The record of a head's pointer in a zone is written, and Flushes that waited for it may end. -/
def pointerRecord (s : State) (n z j : Nat) : State :=
  let k := reachKey n z j
  let t := (nsHead s n j).1
  if !(nsExists s n) ∨ !(nsZoned s n) ∨ nsGcount s n ≤ z ∨ nsHeads s n ≤ j ∨ !(s.domOn (domCh t)) then s
  else
    let s := recordOne s k
    ((liveCmds s).map (·.1)).foldl (fun s i => if (s.cmd i).cls = .fl then tryEnd s i else s) s

/-- ZONE_POINTER_RECORD. -/
def execZonePointerRecord (n z j : Nat) (s : State) : Res := .next (pointerRecord s n z j)

/-- A zone's pointer as the records give it: the least offset whose block lies at or beyond its head's
recorded pointer (R353). -/
def recordedWp (s : State) (n z : Nat) : Nat :=
  let cap := zoneCap s n z
  let h := nsHeads s n
  let u := nsSu s n
  (List.range h).foldl
    (fun w j =>
      let q := Tab.at 0 s.nq.recorded (reachKey n z j)
      if groupBlocks s (nsHead s n 0).1 (nsGfirst s n + z) false ≤ q then w
      else min w (q / u * (u * h) + j * u + q % u)) cap

/-- Every zone's pointer and state follow the records; Owl records each that moved back (R353). -/
def rebuildZones (s : State) : State :=
  let s : State := { s with nq := { s.nq with reached := s.nq.recorded } }
  (nsList s).foldl
    (fun s n =>
      if !(nsZoned s n) then s
      else (zonesOf s n).foldl
        (fun s z =>
          let x := zoneAt s n z
          let wp := recordedWp s n z
          let s := setZone s n z ⟨zoneByPtr s n z ⟨.empty, wp, wp⟩, wp, wp⟩
          if wp < x.wp then owlHub s 0x4004 n 0 0 z (x.wp - wp) else s) s) s

end Sys2Proof.Machine
end

