-- ==== Sys2Proof/Machine/Resets.lean ====
section
/-! DEFINITION. Queue resets (R337 to R341), the ending of queue pairs and associations (R319), and the
asynchronous events of controllers. -/

namespace Sys2Proof.Machine

/-! ### The boundary (R337, R338) -/

/-- A turned write that ends without effect leaves its range as it was: each unit it has written holds
again what it held before (R338). -/
def restoreUnits (s : State) (i : Nat) : State :=
  let c := s.cmd i
  (List.range c.len).foldl
    (fun s b =>
      match (c.blk b).prior with
      | none => s
      | some u =>
        (placesOf s c.nsid (c.lba b)).foldl
          (fun s p =>
            let x := unitIn s p (c.lba b)
            let s := setUnitIn s p (c.lba b) { u with fill := x.fill, inflight := x.inflight, again := x.inflight }
            match p with
            | .way k => leaveIfEmpty s k
            | .copy _ => s) s) s

/-- Whether a command's operation goes on at the executor or with a flash write, whatever becomes of its
queue. -/
def runsOn (s : State) (i : Nat) : Bool :=
  let at_ (m : MgOp) : Bool := match m.route with
    | .assoc _ j => decide (j = i)
    | .port => false
  s.nq.changes.any (fun e => decide (e.2 = i)) || s.nq.blanking.any (fun e => decide (e.2 = i)) ||
    s.mgmt.waiting.any at_ || (match s.mgmt.long with | some l => at_ l.op | none => false)

/-- An old command at the boundary (R338): it is ended, or runs on without its completion. -/
def boundaryCmd (s : State) (i : Nat) : State :=
  let c := s.cmd i
  let ended (s : State) : State := removeCmd (s.bump (aNq 0x30)) i
  let silent (s : State) : State := removeCmd (s.bump (aNq 0x2C)) i
  match c.cls with
  | .rd => ended (endMedia s i)
  | .wr => if c.visible then silent s else ended (restoreUnits s i)
  | .iv =>
    if c.done then silent s
    else ended { s with buf := { s.buf with scans := s.buf.scans.filter fun j => j ≠ i } }
  | .fl => ended s
  | .nd => if c.turned then s.setCmd i { c with old := true } else ended s
  | .none => if runsOn s i then s.setCmd i { c with old := true } else ended s

/-- The commands of a queue that passed intake. -/
def oldCmds (s : State) (n : Nat) : List Nat :=
  ((liveCmds s).filter fun e => decide (e.2.qp = n) && decide (e.2.origin = .host) && !e.2.old).map (·.1)

/-- The boundary of a queue: its capsules at intake are discarded, and count as consumed and as old. -/
def boundary (s : State) (n : Nat) : State :=
  let q := s.qp n
  let k := q.intake.length
  let olds := oldCmds s n
  let s := s.setQp n { q with
    intake := [], waitAt := none, sqhd := (q.sqhd + k) % (q.size + 1), oldLeft := olds.length + k }
  olds.foldl boundaryCmd (s.bump (aNq 0x30) k)

/-- A cause of R337 reaches a queue: its boundary, or it joins the reset in progress (R341). -/
def startReset (s : State) (n : Nat) (js : List Joiner) (ending : Bool) : State :=
  let s := s.bump (aNq 0x28)
  let q := s.qp n
  let st := if ending then 4 else q.state
  if q.state = 3 ∨ q.state = 4 then s.setQp n { q with joined := q.joined ++ js, state := st }
  else boundary (s.setQp n { q with joined := js, state := if ending then 4 else 3, oldLeft := 0 }) n

/-! ### The end of a reset (R339, R341) -/

/-- The queue pairs that a controller still holds. -/
def pairsHeld (s : State) (cntlid : Nat) : List Nat :=
  (s.nq.qps.filter fun e => decide (e.2.state ≠ 0) && decide (e.2.cntlid = cntlid)).map (·.1)

/-- An association whose every queue reset has completed frees its controller ID (R312). -/
def assocDone (s : State) (cntlid : Nat) : State :=
  if (s.assoc cntlid).ending ∧ pairsHeld s cntlid = [] then s.setAssoc cntlid Assoc.none else s

/-- The submission queue of a pair is no longer its association's. -/
def dropSq (s : State) (n : Nat) : State :=
  let c := (s.qp n).cntlid
  let a := s.assoc c
  s.setAssoc c { a with sqs := a.sqs.filter fun e => e.2 ≠ n }

/-- What joined a reset learns of its end (R339, R341). -/
def tellJoined (s : State) (left : Nat) : Joiner → State
  | .reset i => completeCmd (s.setCmd i { s.cmd i with dw0 := left % 2 ^ 16 }) i .ok
  | .delete i => completeCmd s i .ok
  | _ => s

/-- QUEUE_RESET_COMPLETE's effect: no RDMA Write or Read of an old command remains; the queue is connected
again, or returns to its pool. -/
def resetComplete (s : State) (n : Nat) : State :=
  let q := s.qp n
  if (q.state ≠ 3 ∧ q.state ≠ 4) ∨ q.inflight.any (fun k => decide (k.kind ≠ 0)) then s
  else
    let deleted := q.joined.any fun j => match j with | .delete _ => true | _ => false
    let s :=
      if q.state = 4 then (dropSq s n).setQp n Qp.free
      else if deleted then ((dropSq s n).emit (.cm 2 n 0)).setQp n Qp.free
      else s.setQp n { q with state := 2, joined := [], oldLeft := 0 }
    assocDone (q.joined.foldl (fun s j => tellJoined s q.oldLeft j) s) q.cntlid

/-- QUEUE_RESET_COMPLETE. -/
def execQueueResetComplete (n : Nat) (s : State) : Res := onOk (qpOk n) (resetComplete s n)

/-! ### Endings (R319) -/

/-- A queue pair ends: its connection is gone with everything in flight, and its queue is reset; `dreq`: the
device says so to the host. -/
def endPair (s : State) (n : Nat) (dreq : Bool) : State :=
  let q := s.qp n
  if q.state = 0 ∨ (q.state = 4 ∧ !q.held) then s
  else
    let s := if dreq ∧ q.held then s.emit (.cm 2 n 0) else s
    let s := startReset s n [.ending] true
    s.setQp n { s.qp n with held := false, est := false, inflight := [] }

/-- The admin queue pair of an association. -/
def adminOf (s : State) (cntlid : Nat) : Option Nat :=
  (s.nq.qps.find? fun e => !(isIoQp e.1) && decide (e.2.state ≠ 0) && decide (e.2.cntlid = cntlid)).map (·.1)

/-- An association ends by a row of R319, 0 for a reset of the hub (R323): all its queue pairs end, its
management reply is gone, and Owl records it. -/
def endAssoc (s : State) (cntlid row : Nat) (dreq : Bool) : State :=
  let a := s.assoc cntlid
  if !a.live ∨ a.ending then s
  else
    let s := s.setAssoc cntlid { a with ending := true, aers := [], events := [] }
    let s : State := { s with mgmt := { s.mgmt with kept := Tab.to [] s.mgmt.kept cntlid [] } }
    let s := owlHub s 0x8001 cntlid 0 row a.port a.sub
    let s := a.sqs.foldl (fun s e => endPair s e.2 dreq) s
    let s := match adminOf s cntlid with
      | some n => endPair s n dreq
      | none => s
    assocDone s cntlid

/-- A connected queue pair's end reaches its association: an admin pair ends it, an I/O pair leaves it.
`io` and `admin` are the rows of R319 that apply. -/
def pairGone (s : State) (n : Nat) (admin : Nat) (dreq : Bool) : State :=
  let q := s.qp n
  if isIoQp n then endPair s n dreq
  else if q.state = 1 then s.setQp n Qp.free
  else if (s.assoc q.cntlid).live ∧ !(s.assoc q.cntlid).ending then endAssoc s q.cntlid admin dreq
  else endPair s n dreq

/-- A queue pair goes to error: rows 4 and 5 of R319. -/
def qpError (s : State) (n : Nat) : State := pairGone s n 5 true

/-- Every queue pair of a sub-port goes to error: row 6. -/
def subportDown (s : State) (p k : Nat) : State :=
  ((s.nq.qps.filter fun e => e.2.held && decide (e.2.port = p) && decide (e.2.sub = k)).map (·.1)).foldl
    (fun s n => pairGone s n 6 true) s

/-- An NVMe controller reset (row 7): every I/O queue pair ends, and the records of queues and the granted
count are gone. -/
def controllerReset (s : State) (cntlid : Nat) : State :=
  let a := s.assoc cntlid
  let s := a.sqs.foldl (fun s e => endPair s e.2 true) s
  let a := s.assoc cntlid
  s.setAssoc cntlid { a with granted := 0, cqs := [] }

/-- KEEP_ALIVE_TIMEOUT: row 3. -/
def execKeepAliveTimeout (cntlid : Nat) (s : State) : Res :=
  onOk (decide (1 ≤ cntlid) && decide (cntlid ≤ 1024))
    (let a := s.assoc cntlid
     if a.live ∧ a.kato ≠ 0 ∧ a.kaAt + ms a.kato ≤ s.now then endAssoc s cntlid 3 true else s)

/-! ### Asynchronous events (R314, R351) -/

/-- A controller's events complete the requests it holds, each with its event in DW0. -/
def deliverEvents (cntlid : Nat) : List Nat → State → State
  | [], s => s
  | ev :: rest, s =>
    let a := s.assoc cntlid
    match a.aers with
    | [] => s
    | i :: more =>
      let s := s.setAssoc cntlid { a with aers := more, events := rest }
      deliverEvents cntlid rest (completeCmd (s.setCmd i { s.cmd i with dw0 := ev }) i .ok)

/-- An event for a controller that has it enabled; one that waits is not repeated. -/
def postEvent (s : State) (cntlid ev enable : Nat) : State :=
  let a := s.assoc cntlid
  if !a.live ∨ a.ending ∨ !(a.aec.testBit enable) ∨ a.events.contains ev then s
  else deliverEvents cntlid (a.events ++ [ev]) (s.setAssoc cntlid { a with events := a.events ++ [ev] })

/-- Live associations by controller ID. -/
def assocIds (s : State) : List Nat := (s.nq.assocs.filter fun e => e.2.live).map (·.1)

/-- Namespace Attribute Changed to every controller that has it enabled (R351). -/
def nsEvent (s : State) : State :=
  (assocIds s).foldl (fun s c => if (s.assoc c).discovery then s else postEvent s c 0x00040002 8) s

/-- Discovery Log Page Change to every discovery association that has it enabled (R314). -/
def discoveryEvent (s : State) : State :=
  (assocIds s).foldl (fun s c => if (s.assoc c).discovery then postEvent s c 0x0070F002 31 else s) s

end Sys2Proof.Machine
end

