-- ==== Sys2Proof/Machine/Admin.lean ====
section
/-! DEFINITION. Admin commands (R325, R326, R342, R348 to R352, R357, R358): features, I/O queues,
Identify and log pages, namespaces with their flash writes, maps, and the queue reset. -/

namespace Sys2Proof.Machine

/-! ### Queues and features (R325, R326, R342, R357, R374) -/

/-- An admin row's effect on its command, with the command's capsule and controller. -/
def onAdmin (s : State) (i op : Nat) (f : Capsule → Nat → State) : Res :=
  .next
    (let c := s.cmd i
     if c.live ∧ c.turned ∧ cmdOp c = op ∧ !(runsOn s i) then f c.cap (s.qp c.qp).cntlid else s)

/-- A command completes with ST_OK and a DW0. -/
def completeDw0 (s : State) (i dw0 : Nat) : State := completeCmd (s.setCmd i { s.cmd i with dw0 := dw0 }) i .ok

/-- The feature identifier of a command. -/
def capFid (c : Capsule) : Nat := c.cdw10 % 256

/-- Number of Queues: min(NSQR + 1, NCQR + 1, QPMAX) queues, zero-based in both halves of DW0. -/
def numberOfQueues (s : State) (i : Nat) (c : Capsule) (cntlid : Nat) : State :=
  let nsq := c.cdw11 % 2 ^ 16
  let ncq := c.cdw11 / 2 ^ 16 % 2 ^ 16
  if capFid c ≠ 7 then s
  else if nsq = 0xFFFF ∨ ncq = 0xFFFF then completeCmd s i .badField
  else
    let n := min (min (nsq + 1) (ncq + 1)) (s.fld (aNq 0) 31 16)
    completeDw0 (s.setAssoc cntlid { s.assoc cntlid with granted := n }) i ((n - 1) * 65537)

/-- NUMBER_OF_QUEUES. -/
def execNumberOfQueues (i : Nat) (s : State) : Res := onAdmin s i 0x89 (numberOfQueues s i)

/-- Volatile Write Cache: WCE is set; clearing it completes once every unit now dirty is on the media. -/
def volatileWriteCache (s : State) (i : Nat) (c : Capsule) : State :=
  if capFid c ≠ 6 ∨ (s.cmd i).done then s
  else
    let on := decide (c.cdw11 % 2 = 1)
    let s := s.setB (aBuf 8) 0 on
    if on then completeCmd s i .ok
    else
      let us := dirtyOf s { Cmd.none with all := true }
      tryEnd (s.setCmd i { s.cmd i with units := us, done := true }) i

/-- VOLATILE_WRITE_CACHE. -/
def execVolatileWriteCache (i : Nat) (s : State) : Res := onAdmin s i 0x89 fun c _ => volatileWriteCache s i c

/-- A change of the namespace table waits for its flash write (R352). -/
def askChange (s : State) (x : NsChange) (i : Nat) : State :=
  ({ s with nq := { s.nq with changes := s.nq.changes ++ [(x, i)] } } : State).setF (aNq 0x14) 1 0 1

/-- READ_DEADLINE: the namespace's deadline changes with the flash write. -/
def execReadDeadline (i : Nat) (s : State) : Res :=
  onAdmin s i 0x89 fun c _ => if capFid c = 0xC0 then askChange s (.deadline c.nsid (c.cdw11 % 2 ^ 16)) i else s

/-- GET_FEATURES. -/
def execGetFeatures (i : Nat) (s : State) : Res :=
  onAdmin s i 0x8A fun c cntlid =>
    let a := s.assoc cntlid
    let f := capFid c
    if f = 6 then completeDw0 s i (if s.bit (aBuf 8) 0 then 1 else 0)
    else if f = 7 then
      (if a.granted = 0 then completeDw0 s.took i s.freeVal.toNat else completeDw0 s i ((a.granted - 1) * 65537))
    else if f = 0x0B then completeDw0 s i a.aec
    else if f = 0x0F then completeDw0 s i a.kato
    else completeDw0 s i (s.fld (aNs c.nsid 0xC) 15 0)

/-- QSIZE and QID of a create, QID of a delete. -/
def capQsize (c : Capsule) : Nat := c.cdw10 / 2 ^ 16 % 2 ^ 16
/-- QID. -/
def capQid (c : Capsule) : Nat := c.cdw10 % 2 ^ 16

/-- CREATE_IO_COMPLETION_QUEUE. -/
def execCreateIoCompletionQueue (i : Nat) (s : State) : Res :=
  onAdmin s i 0x85 fun c cntlid =>
    let a := s.assoc cntlid
    let q := capQid c
    if capQsize c = 0 then completeCmd s i .badLength
    else if q = 0 ∨ a.granted < q ∨ a.cqs.any (fun e => decide (e.1 = q)) then completeCmd s i .badField
    else completeCmd (s.setAssoc cntlid { a with cqs := a.cqs ++ [(q, capQsize c)] }) i .ok

/-- The queue pair that a create takes: the lowest that is free, else the lowest whose end has yet to
complete. -/
def poolPair (s : State) : Option Nat :=
  match (List.range 8192).find? fun n => decide ((s.qp n).state = 0) with
  | some n => some n
  | none => (List.range 8192).find? fun n => decide ((s.qp n).state = 4) && !(s.qp n).held

/-- CREATE_IO_SUBMISSION_QUEUE. -/
def execCreateIoSubmissionQueue (i : Nat) (s : State) : Res :=
  onAdmin s i 0x81 fun c cntlid =>
    let a := s.assoc cntlid
    let q := capQid c
    if capQsize c = 0 then completeCmd s i .badLength
    else if q = 0 ∨ a.granted < q ∨ a.sqs.any (fun e => decide (e.1 = q)) ∨
        !(a.cqs.contains (q, capQsize c)) ∨ c.cdw11 / 2 ^ 16 % 2 ^ 16 ≠ q then completeCmd s i .badField
    else match poolPair s with
      | none => completeCmd s i .queueFull
      | some n =>
        let s := resetComplete s n
        let a := s.assoc cntlid
        let s := s.setQp n { Qp.free with state := 1, cntlid := cntlid, qid := q, size := capQsize c }
        completeCmd (s.setAssoc cntlid { a with sqs := a.sqs ++ [(q, n)] }) i .ok

/-- The queue pair of a controller's submission queue. -/
def sqPair (s : State) (cntlid qid : Nat) : Option Nat :=
  ((s.assoc cntlid).sqs.find? fun e => decide (e.1 = qid)).map (·.2)

/-- Whether a Delete or a Queue Reset waits for a reset. -/
def joinedBy (s : State) (i : Nat) : Bool :=
  s.nq.qps.any fun e => e.2.joined.any fun j => decide (j = .reset i) || decide (j = .delete i)

/-- DELETE_IO_SUBMISSION_QUEUE. -/
def execDeleteIoSubmissionQueue (i : Nat) (s : State) : Res :=
  onAdmin s i 0x80 fun c cntlid =>
    if joinedBy s i then s
    else match sqPair s cntlid (capQid c) with
      | none => completeCmd s i .badField
      | some n =>
        if (s.qp n).state = 1 then completeCmd ((dropSq s n).setQp n Qp.free) i .ok
        else startReset s n [.delete i] false

/-- DELETE_IO_COMPLETION_QUEUE. -/
def execDeleteIoCompletionQueue (i : Nat) (s : State) : Res :=
  onAdmin s i 0x84 fun c cntlid =>
    let a := s.assoc cntlid
    let q := capQid c
    if a.sqs.any (fun e => decide (e.1 = q)) ∨ !(a.cqs.any fun e => decide (e.1 = q)) then completeCmd s i .badField
    else completeCmd (s.setAssoc cntlid { a with cqs := a.cqs.filter fun e => e.1 ≠ q }) i .ok

/-- ABORT: DW0 bit 0 reports "not aborted" (R342). -/
def execAbort (i : Nat) (s : State) : Res := onAdmin s i 0x88 fun _ _ => completeDw0 s i 1

/-- QUEUE_RESET (R358): an unknown queue, or a controller that only the manager may name, is out of range. -/
def execQueueReset (i : Nat) (s : State) : Res :=
  onAdmin s i 0xC0 fun c cntlid =>
    let other := c.cdw11 % 2 ^ 16
    if joinedBy s i then s
    else if other ≠ 0 ∧ !(s.assoc cntlid).manager then completeCmd s i .badField
    else match sqPair s (if other = 0 then cntlid else other) (capQid c) with
      | none => completeCmd s i .badField
      | some n =>
        if (s.qp n).state = 1 then completeCmd (s.bump (aNq 0x28)) i .ok
        else startReset s n [.reset i] false

/-! ### Identify and log pages (R310, R312, R314, R329, R343, R347, R354) -/

/-- A payload with bytes replaced from an offset on. -/
def overlay (bs : Payload) (o : Nat) (new : Payload) : Payload :=
  bs.take o ++ new ++ bs.drop (o + new.length)

/-- `n` bytes that the spec states nowhere. -/
def freeBytes (s : State) (n : Nat) : Payload := (List.range n).map (Config.freeByte s.free)

/-- Identify Controller: the fields the manual gives, over bytes it does not. -/
def idController (s : State) (cntlid : Nat) : Payload :=
  [ (76, leBytes 1 0x02), (77, leBytes 1 8), (78, leBytes 2 cntlid), (258, leBytes 1 0), (525, leBytes 1 1),
    (768, padTo 256 (Tab.at [] s.mgmt.names 0)), (1792, leBytes 4 516), (1796, leBytes 4 1),
    (1800, leBytes 2 0), (1803, leBytes 1 1) ].foldl (fun bs e => overlay bs e.1 e.2) (freeBytes s 4096)

/-- Identify Namespace. -/
def idNamespace (s : State) (n : Nat) : Payload :=
  let guard := if nsGuard s n then 0x11 else 0
  [ (0, leBytes 8 (nsSize s n) ++ leBytes 8 (nsCap s n) ++ leBytes 8 (nsCap s n)), (25, leBytes 1 1),
    (26, leBytes 1 guard), (28, leBytes 2 0), (33, leBytes 1 0),
    (128, leBytes 2 0 ++ leBytes 1 12), (132, leBytes 2 16 ++ leBytes 1 12) ].foldl
    (fun bs e => overlay bs e.1 e.2) (freeBytes s 4096)

/-- Identify Namespace of the Zoned Namespace command set: MAR and MOR without limit, and the zone size of
each format. -/
def idZoned (s : State) (n : Nat) : Payload :=
  let z := leBytes 8 (zoneSize s n) ++ zeros 8
  [ (4, leBytes 4 0xFFFFFFFF ++ leBytes 4 0xFFFFFFFF), (2816, z ++ z) ].foldl
    (fun bs e => overlay bs e.1 e.2) (freeBytes s 4096)

/-- A list of up to 1,024 NSIDs above a number. -/
def nsidList (s : State) (above : Nat) (p : Nat → Bool) : Payload :=
  padTo 4096 ((((nsList s).filter fun n => decide (above < n) && p n).take 1024).flatMap (leBytes 4))

/-- The data of an Identify command, by its CNS and command set; none: not in range. -/
def identifyData (s : State) (c : Capsule) (cntlid : Nat) : Option Payload :=
  let cns := c.cdw10 % 256
  let csi := c.cdw11 / 2 ^ 24 % 256
  let n := c.nsid
  if cns = 1 then some (idController s cntlid)
  else if cns = 0 then (if nsAttached s n then some (idNamespace s n) else none)
  else if cns = 0x11 then (if nsExists s n then some (idNamespace s n) else none)
  else if cns = 2 then some (nsidList s n (nsAttached s))
  else if cns = 0x10 then some (nsidList s n fun _ => true)
  else if cns = 5 ∧ csi = 2 then (if nsAttached s n ∧ nsZoned s n then some (idZoned s n) else none)
  else if cns = 6 ∧ csi = 2 then some (overlay (freeBytes s 4096) 0 (leBytes 1 0))
  else if cns = 6 ∧ csi = 0 then some (overlay (freeBytes s 4096) 1 (leBytes 1 0))
  else none

/-- IDENTIFY. -/
def execIdentify (i : Nat) (s : State) : Res :=
  onAdmin s i 0x86 fun c cntlid =>
    match identifyData s c cntlid with
    | some bs => completeData s.took i bs
    | none => completeCmd s i .badField

/-- ASCII bytes of a text. -/
def ascii (t : String) : Payload := t.toList.map fun c => BitVec.ofNat 8 c.toNat

/-- A number in decimal. -/
def decimal (n : Nat) : Payload :=
  let d (k : Nat) : Payload := [BitVec.ofNat 8 (48 + k % 10)]
  (if 100 ≤ n then d (n / 100) else []) ++ (if 10 ≤ n then d (n / 10) else []) ++ d n

/-- Four hexadecimal digits. -/
def hex4 (n : Nat) : Payload :=
  [n / 4096, n / 256, n / 16, n].map fun k => BitVec.ofNat 8 (if k % 16 < 10 then 48 + k % 16 else 87 + k % 16)

/-- An address of a sub-port as 16 bytes (R324). -/
def hptAddr (s : State) (p k i : Nat) : Payload :=
  (List.range 4).flatMap fun j => beBytes 4 (s.reg (aHpt p (0x100 + 64 * k + 16 * i + 4 * j))).toNat

/-- Whether an address is IPv4, held as ::ffff:a.b.c.d. -/
def isV4 (a : Payload) : Bool := decide (a.take 12 = zeros 10 ++ [0xFF, 0xFF])

/-- An address as text. -/
def addrText (a : Payload) : Payload :=
  if isV4 a then
    (List.range 4).flatMap fun i => (if i = 0 then [] else ascii ".") ++ decimal (beAt a (12 + i) 1)
  else (List.range 8).flatMap fun i => (if i = 0 then [] else ascii ":") ++ hex4 (beAt a (2 * i) 2)

/-- The addresses of every sub-port whose link is up, with its port. -/
def upAddrs (s : State) : List (Nat × Payload) :=
  (List.range s.part.ports).flatMap fun p => (List.range 4).flatMap fun k =>
    if subUp s p k then
      ((List.range 4).map (hptAddr s p k)).filterMap fun a => if a = zeros 16 then none else some (p, a)
    else []

/-- One entry of the Discovery log page. -/
def discoveryEntry (s : State) (e : Nat × Payload) : Payload :=
  [ (0, [1, if isV4 e.2 then 1 else 2, 2, 0] ++ leBytes 2 e.1 ++ leBytes 2 0xFFFF), (32, padTo 32 (ascii "4420")),
    (256, padTo 256 (Tab.at [] s.mgmt.names 0)), (512, padTo 256 (addrText e.2)), (768, [1, 1, 1]) ].foldl
    (fun bs x => overlay bs x.1 x.2) (zeros 1024)

/-- The Discovery log page: generation counter, number of records, and the records. -/
def discoveryLog (s : State) : Payload :=
  let es := upAddrs s
  freeBytes s 8 ++ leBytes 8 es.length ++ zeros 1008 ++ es.flatMap (discoveryEntry s)

/-- GET_LOG_PAGE: the Discovery log page of a discovery controller; of the others the pages whose contents
the standard gives and the manual does not. -/
def execGetLogPage (i : Nat) (s : State) : Res :=
  onAdmin s i 0x82 fun c cntlid =>
    let lid := c.cdw10 % 256
    let n := (dataLen s (s.cmd i).qp 0x82 c).getD 0
    if (s.assoc cntlid).discovery then
      (if lid = 0x70 then completeData s.took i (padTo n ((discoveryLog s).drop (c.cdw12 + c.cdw13 * 2 ^ 32)))
       else completeCmd s i .badField)
    else if 1 ≤ lid ∧ lid ≤ 4 then completeData s.took i (freeBytes s n)
    else completeCmd s i .badField

/-! ### Creating namespaces (R344, R345, R348 to R350) -/

/-- The tiles of a namespace's set. -/
def nsTiles (s : State) (n : Nat) : List Nat := if nsKind s n = 4 then s.tiles else [nsTile s n]

/-- The bands of a namespace's group on its tiles: the cluster's own, or all four. -/
def groupBands (s : State) (n g : Nat) : List Nat :=
  if nsKind s n < 3 then [4 * g + s.fld (aNs n 0) 12 11] else (List.range 4).map fun c => 4 * g + c

/-- The format registers of a tile. -/
def formatWords (s : State) (t : Nat) : List Word :=
  [s.reg (aTile t 0x100), s.reg (aTile t 0x104)] ++ (List.range 4).map (fun i => s.reg (aTile t (0x110 + 4 * i))) ++
    (List.range (2 * fmtZones s t)).map fun i => s.reg (aTile t (0x200 + 4 * i))

/-- The groups of a namespace. -/
def nsGroups (s : State) (n : Nat) : List Nat := (List.range (nsGcount s n)).map fun i => nsGfirst s n + i

/-- The namespaces that hold their pairs: those that exist, and creates on their way. -/
def holders (s : State) : List Nat :=
  nsList s ++ s.nq.blanking.map (·.1) ++ s.nq.changes.filterMap fun e => match e.1 with | .create n => some n | _ => none

/-- Whether two namespaces share a head and a band group. -/
def nsShare (s : State) (a b : Nat) : Bool :=
  decide (nsGfirst s a < nsGfirst s b + nsGcount s b) && decide (nsGfirst s b < nsGfirst s a + nsGcount s a) &&
    (nsHeadList s a).any fun h => (nsHeadList s b).contains h

/-- The registers of a candidate, from the placement descriptor of a create (R348, R361). -/
def writeCandidate (s : State) (n : Nat) (c : Capsule) : State :=
  let d := c.data
  let at_ (o k : Nat) : Nat := leAt d (3840 + o) k
  let guard := if at_ 0 1 = 0 then 0 else leAt d 26 1 % 16
  let st := place 29 29 (if c.cdw11 / 2 ^ 24 % 256 = 2 then 1 else 0) ||| place 27 27 guard |||
    place 19 16 (at_ 0 1) ||| place 15 13 (at_ 1 1) ||| place 12 11 (at_ 2 1) ||| place 10 6 (at_ 3 1)
  let s := s.setReg (aNs n 0) st
  let s := s.setReg (aNs n 4) (place 31 16 (at_ 6 2) ||| place 15 0 (at_ 4 2))
  let s := s.setReg (aNs n 8) (place 31 24 (at_ 10 1) ||| place 18 16 (at_ 11 1) ||| place 15 0 (at_ 8 2))
  let s := s.setReg (aNs n 0xC) (place 15 0 (at_ 12 4))
  let cap := nsCap s n
  (s.setReg (aNs n 0x10) (w32 (cap / 2 ^ 32))).setReg (aNs n 0x14) (w32 cap)

/-- Whether the descriptor of a create is in range, before its placement is looked at (R348). -/
def descriptorOk (c : Capsule) : Bool :=
  let d := c.data
  let at_ (o k : Nat) : Nat := leAt d (3840 + o) k
  let kind := at_ 0 1
  let csi := c.cdw11 / 2 ^ 24 % 256
  let fl := leAt d 26 1
  decide (csi = 0 ∨ csi = 2) && decide (fl % 16 < 2) && decide (fl / 32 = 0) &&
    (decide (fl % 16 = 0) || decide (fl / 16 % 2 = 1)) && decide (1 ≤ kind) && decide (kind ≤ 4) &&
    decide (at_ 1 1 < 8) && decide (at_ 2 1 < 4) && decide (at_ 3 1 < 24) &&
    (decide (kind ≠ 4) || decide (at_ 1 1 = 0)) && (decide (kind < 3) || decide (at_ 2 1 = 0)) &&
    (decide (kind = 1) || decide (at_ 3 1 = 0)) &&
    (decide (kind = 1) || (decide (at_ 8 2 % 2 = 0) && decide (2 ≤ at_ 8 2) && decide (at_ 8 2 ≤ 256))) &&
    decide (at_ 11 1 < 8) && decide (at_ 12 4 ≤ 65535) && decide (at_ 16 8 = 0) && decide (at_ 24 8 = 0)

/-- Whether the placement of a candidate is one that R345, R348 and R349 allow. -/
def placementOk (s : State) (n : Nat) (c : Capsule) : Bool :=
  let ts := nsTiles s n
  let conv := !(nsZoned s n)
  let size := leAt c.data 0 8
  let cap := leAt c.data 8 8
  (ts.all fun t => s.hasTile t && hasFormat s t && decide (nsGfirst s n + nsGcount s n ≤ fmtBands s t / 4) &&
      decide (formatWords s t = formatWords s (ts.headD 0)) &&
      (nsGroups s n).all fun g => (groupBands s n g).all fun b => isConv s t b == conv) &&
    !((nsHeadList s n).any fun h => headRetired s h.1 h.2.1 h.2.2) &&
    !((holders s).any fun m => nsShare s n m) &&
    decide (size = 0 ∨ size = nsSize s n) && decide (cap = 0 ∨ cap = nsCap s n)

/-- The lowest NSID that is free. -/
def freeNsid (s : State) : Option Nat :=
  ((List.range 4096).map (· + 1)).find? fun n => !((holders s).contains n)

/-- NAMESPACE_CREATE's effect: the checks; a conventional namespace is blanked, a zoned one goes to the
flash at once. -/
def namespaceCreate (s : State) (i : Nat) (c : Capsule) : State :=
  if c.cdw10 % 16 ≠ 0 then s
  else if leAt c.data 3846 2 = 0 then completeCmd s i .badLength
  else if !(descriptorOk c) then completeCmd s i .badField
  else match freeNsid s with
    | none => completeCmd s i (if placementOk (writeCandidate s 4097 c) 4097 c then .queueFull else .badField)
    | some n =>
      let s' := writeCandidate s n c
      if !(placementOk s' n c) then completeCmd s i .badField
      else if nsZoned s' n then askChange s' (.create n) i
      else ({ s' with nq := { s'.nq with blanking := s'.nq.blanking ++ [(n, i)] } } : State).setB (aNs n 0) 28 true

/-- NAMESPACE_CREATE. -/
def execNamespaceCreate (i : Nat) (s : State) : Res := onAdmin s i 0x8D fun c _ => namespaceCreate s i c

/-- BLANKING_DONE: every tile of the set being in service, the blank sectors are written and the table is
next. -/
def execBlankingDone (n : Nat) (s : State) : Res :=
  onOk (decide (1 ≤ n) && decide (n ≤ 4096))
    (match s.nq.blanking.find? fun e => decide (e.1 = n) with
     | none => s
     | some e =>
       if (nsTiles s n).all fun t => s.linkUp t && decide (Tab.at 0 s.power.bring t = 0) then
         let s : State := { s with nq := { s.nq with blanking := s.nq.blanking.filter fun x => x ≠ e } }
         askChange (s.setB (aNs n 0) 28 false) (.create n) e.2
       else s)

/-! ### Delete, attachment and the table's flash write (R351, R352) -/

/-- NAMESPACE_DELETE: at its turn the table is written without the namespace. -/
def execNamespaceDelete (i : Nat) (s : State) : Res :=
  onAdmin s i 0x8D fun c _ =>
    if c.cdw10 % 16 = 1 ∧ !(s.buf.scans.contains i) then askChange s (.delete c.nsid) i else s

/-- An attachment command: an attach of an attached namespace, or a detach of a detached one, is out of
range. -/
def attachment (s : State) (i : Nat) (c : Capsule) (on : Bool) : State :=
  if c.cdw10 % 16 ≠ (if on then 0 else 1) then s
  else if !(nsExists s c.nsid) ∨ nsAttached s c.nsid = on then completeCmd s i .badField
  else askChange s (if on then .attach c.nsid else .detach c.nsid) i

/-- NAMESPACE_ATTACH. -/
def execNamespaceAttach (i : Nat) (s : State) : Res := onAdmin s i 0x95 fun c _ => attachment s i c true
/-- NAMESPACE_DETACH. -/
def execNamespaceDetach (i : Nat) (s : State) : Res := onAdmin s i 0x95 fun c _ => attachment s i c false

/-- The namespace table as the flash copy holds it: the registers of the namespaces that exist. -/
def nsTable (s : State) : Tab Word :=
  s.regs.filter fun e => decide (aNq 0x40000 ≤ e.1) && decide (e.1 < aNq 0x60000) && s.bit (e.1 - (e.1 - aNq 0x40000) % 32) 31

/-- The number of namespaces (NQ.NSCOUNT). -/
def countNs (s : State) : State := s.setReg (aNq 0x10) (w32 (nsList s).length)

/-- The zones and records of a namespace are gone. -/
def clearZones (s : State) (n : Nat) : State :=
  let q := s.nq
  { s with nq := { q with
    zones := q.zones.filter fun e => e.1 / 1024 ≠ n
    reached := q.reached.filter fun e => e.1 / 2 ^ 20 ≠ n, recorded := q.recorded.filter fun e => e.1 / 2 ^ 20 ≠ n } }

/-- The stale bits of a namespace's pairs are cleared (R378). -/
def clearStale (s : State) (n : Nat) : State :=
  let s' := (nsHeadList s n).foldl
    (fun s h => (nsGroups s n).foldl
      (fun s g => s.setB (aBuf (0x1000 + 4 * (96 * h.1 + headIx h.2.1 h.2.2))) g false) s) s
  if s'.regs = s.regs then s else retireChanged s'

/-- A namespace leaves the table. -/
def removeNs (s : State) (n : Nat) : State := clearNs (clearZones (clearStale s n) n) n

/-- A change takes effect with its flash write, and its command completes (R350 to R352, R357). -/
def applyChange (s : State) (x : NsChange) (i : Nat) : State :=
  match x with
  | .create n => completeDw0 (countNs (clearZones (s.setF (aNs n 0) 31 28 (8 + s.fld (aNs n 0) 29 29 * 2)) n)) i n
  | .attach n => completeCmd (nsEvent (s.setB (aNs n 0) 30 true)) i .ok
  | .detach n => completeCmd (nsEvent (s.setB (aNs n 0) 30 false)) i .ok
  | .deadline n d => completeCmd (s.setF (aNs n 0xC) 15 0 d) i .ok
  | .delete n =>
    let gone := if n = allNs then nsList s else [n]
    let big := gone.any fun m => decide (65536 < (nsSize s m + 15) / 16)
    let s := countNs (gone.foldl removeNs s)
    if big then { s with buf := { s.buf with scans := s.buf.scans ++ [i] } }
    else deleteEnds (invalidateDeleted s) i

/-- NS_TABLE_FLASH_WRITE's effect. -/
def tableWrite (s : State) (ok : Bool) : State :=
  match s.nq.changes with
  | [] => s
  | (x, i) :: rest =>
    let s : State := { s with nq := { s.nq with changes := rest } }
    let still := if rest = [] then 0 else 1
    if ok then
      let s := applyChange s x i
      let s : State := { s with flash := { s.flash with ns := nsTable s, bad := s.flash.bad.filter fun b => b ≠ 2 } }
      persistLevel ((s.bumpF (aNq 0x14) 31 16 1).setF (aNq 0x14) 1 0 still)
    else
      let s := match x with
        | .create n => clearNs s n
        | _ => s
      let s := owlHub s 0x7002 0 0 2 0 0
      persistLevel ((completeCmd s i .storeBusy).setF (aNq 0x14) 1 0 2)

/-- NS_TABLE_FLASH_WRITE. -/
def execNsTableFlashWrite (ok : Bool) (s : State) : Res := .next (tableWrite s ok)

/-! ### Maps, retirement and reinstatement (R194, R199, R202, R358) -/

/-- Placement Map: the (head, band group) pairs that are taken. -/
def placementMap (s : State) : Payload :=
  let hs := holders s
  let taken (t g b : Nat) : Bool := hs.any fun n =>
    (nsGroups s n).contains g && (nsHeadList s n).contains (t, b / 24, b % 24)
  padTo 4096 ((List.range 8).flatMap fun t => (List.range 32).flatMap fun g => (List.range 12).map fun k =>
    BitVec.ofNat 8 ((List.range 8).foldl (fun m j => m + if taken t g (8 * k + j) then 2 ^ j else 0) 0))

/-- PLACEMENT_MAP. -/
def execPlacementMap (i : Nat) (s : State) : Res := onAdmin s i 0xC1 fun _ _ => completeData s i (placementMap s)

/-- Retirement Map: the 16 words of HUB.RMIR of each tile. -/
def retirementMap (s : State) : Payload :=
  (List.range 8).flatMap fun t => (List.range 16).flatMap fun i => leBytes 4 (s.reg (aMir t i)).toNat

/-- RETIREMENT_MAP. -/
def execRetirementMap (i : Nat) (s : State) : Res := onAdmin s i 0xC4 fun _ _ => completeData s i (retirementMap s)

/-- The unit that a retire word names: kind, tile, cluster, head and reader. -/
def unitWord (w : Nat) : Nat × Nat × Nat × Nat × Nat :=
  (w / 2 ^ 24 % 256, w / 2 ^ 13 % 8, w / 2 ^ 11 % 4, w / 2 ^ 6 % 32, w / 2 ^ 5 % 2)

/-- A retire word's check: the kind, a head in range, unused fields zero, and the tile present. -/
def unitCheck (s : State) (w : Nat) : Status :=
  let u := unitWord w
  let k := u.1
  if k = 0 ∨ 5 < k ∨ w / 2 ^ 16 % 256 ≠ 0 ∨ w % 32 ≠ 0 ∨ 24 ≤ u.2.2.2.1 ∨ (k = 5 ∧ u.2.2.1 ≠ 0) ∨
      (3 < k ∧ u.2.2.2.1 ≠ 0) ∨ (k ≠ 1 ∧ u.2.2.2.2 ≠ 0) then .badField
  else if !(s.hasTile u.2.1) then .domainOff
  else .ok

/-- Retire by the manager, cause 0x0F (R194, R195, R358); a unit retired already stays as it is. -/
def retireOp (s : State) (w : Nat) : State × Status :=
  match unitCheck s w with
  | .ok =>
    let u := unitWord w
    if u.1 = 5 then (retireTile s u.2.1 0x0F, .ok)
    else if unitRetired s u.2.1 u.1 u.2.2.1 u.2.2.2.1 u.2.2.2.2 then (s, .ok)
    else (retire s u.2.1 u.1 u.2.2.1 u.2.2.2.1 u.2.2.2.2 0x0F, .ok)
  | st => (s, st)

/-- Reinstate, only in maintenance (R199). -/
def reinstateOp (s : State) (w : Nat) : State × Status :=
  match unitCheck s w with
  | .ok =>
    let u := unitWord w
    if inMaint s u.2.1 then (reinstate s u.2.1 u.1 u.2.2.1 u.2.2.2.1 u.2.2.2.2, .ok) else (s, .badField)
  | st => (s, st)

/-- RETIRE_COMMAND. -/
def execRetireCommand (i : Nat) (s : State) : Res :=
  onAdmin s i 0xC2 fun c _ => let r := retireOp s c.cdw10; completeCmd r.1 i r.2

/-- REINSTATE_COMMAND. -/
def execReinstateCommand (i : Nat) (s : State) : Res :=
  onAdmin s i 0xC3 fun c _ => let r := reinstateOp s c.cdw10; completeCmd r.1 i r.2

end Sys2Proof.Machine
end

