-- ==== Sys2Proof/Machine/Fabrics.lean ====
section
/-! DEFINITION. The connection manager (R309) and the Fabrics commands (R310, R312, R313, R315, R319, R322):
Connect, properties, Disconnect, Keep Alive and the requests for asynchronous events. -/

namespace Sys2Proof.Machine

/-! ### Connection-manager messages (R309) -/

/-- The admin queue pairs that are held. -/
def adminHeld (s : State) : Nat := (s.nq.qps.filter fun e => !(isIoQp e.1) && e.2.held).length

/-- The admin queue pair that a request takes: the lowest that is free. -/
def adminPair (s : State) : Option Nat :=
  if 1024 ≤ adminHeld s then none
  else ((List.range 2048).map (· + 8192)).find? fun n => decide ((s.qp n).state = 0)

/-- Whether an address is one of a sub-port's; an IPv4 address is held as ::ffff:a.b.c.d. -/
def ownAddr (s : State) (p k addr : Nat) : Bool :=
  decide (addr ≠ 0) && (List.range 4).any fun i =>
    let a := beNat (hptAddr s p k i)
    decide (a = addr) || decide (a = 0xFFFF * 2 ^ 32 + addr)

/-- The queue pair that a request asks for; none: REJ. -/
def reqPair (s : State) (r : CmReq) : Option Nat :=
  if !(ownAddr s r.port r.sub r.addr) ∨ 4095 < r.hsqsize ∨ r.hrqsize ≠ r.hsqsize + 1 then none
  else if r.qid = 0 then adminPair s
  else match sqPair s r.cntlid r.qid with
    | some n => if (s.qp n).state = 1 ∧ !(s.qp n).held then some n else none
    | none => none

/-- A REQ: its queue pair is held and REP answers with CRQSIZE equal to HRQSIZE, or REJ does. -/
def cmReq (s : State) (r : CmReq) : State :=
  if !(subUp s r.port r.sub) then s
  else match reqPair s r with
    | none => s.emit (.cm 1 0 0)
    | some n =>
      let q := if r.qid = 0 then { Qp.free with state := 1, size := r.hsqsize } else s.qp n
      (s.setQp n { q with
        held := true, hsq := r.hsqsize, mtu := r.mtu, port := r.port, sub := r.sub
        epsn := r.psn % 2 ^ 24, mpsn := r.psn % 2 ^ 24 }).emit
        (.cm 0 n r.hrqsize)

/-- CM_REQ. -/
def execCmReq (r : CmReq) (s : State) : Res := onSub s r.port r.sub (cmReq s r)

/-- CM_RTU: the connection is established. -/
def execCmRtu (n : Nat) (s : State) : Res :=
  onOk (qpOk n) (if (s.qp n).held then s.setQp n { s.qp n with est := true } else s)

/-- CM_DREQ: DREP answers, and rows 1 and 2 of R319 apply. -/
def execCmDreq (n : Nat) (s : State) : Res :=
  onOk (qpOk n) (if (s.qp n).held then pairGone (s.emit (.cm 3 n 0)) n 2 false else s)

/-- CM_DREP: the disconnection that the device asked for is over. -/
def execCmDrep (n : Nat) (s : State) : Res := onOk (qpOk n) (s.setQp n { s.qp n with est := false })

/-- CM_REJ: the host gives up the connection attempt; its queue pair is held no longer. -/
def execCmRej (n : Nat) (s : State) : Res :=
  onOk (qpOk n)
    (let q := s.qp n
     if !q.held ∨ q.est ∨ q.state ≠ 1 then s
     else if isIoQp n then s.setQp n { q with held := false }
     else s.setQp n Qp.free)

/-- CM_MRA: the host asks for more time; no timer of this manual waits for it. -/
def execCmMra (n : Nat) (s : State) : Res := onOk (qpOk n) s

/-! ### Connect (R312, R313, R315, R326) -/

/-- A Fabrics row's effect on its command, with the command's capsule. -/
def onFabric (s : State) (i ft : Nat) (f : Capsule → State) : Res :=
  .next (let c := s.cmd i; if c.live ∧ cmdOp c = 0xE0 + ft then f c.cap else s)

/-- A text in a field of fixed length ends at its first zero byte. -/
def untilZero (bs : Payload) : Payload := bs.takeWhile fun b => b ≠ 0

/-- The NQN of discovery. -/
def discoveryNqn : Payload := ascii "nqn.2014-08.org.nvmexpress.discovery"

/-- The first byte of a drop-ring descriptor that breaks R315, if one does. -/
def ringFault (d : Payload) (size : Nat) : Option Nat :=
  let rent := leAt d 972 4
  if rent ≠ 0 ∧ leAt d 960 8 % 64 ≠ 0 then some 960
  else if rent ≠ 0 ∧ !(pow2At rent = rent ∧ 16 ≤ rent ∧ rent ≤ 65536 ∧ size + 1 ≤ rent) then some 972
  else ((List.range 48).map (· + 976)).find? fun o => decide (leAt d o 1 ≠ 0)

/-- Connect Invalid Parameters, at a byte of the Connect data or, where the manual names none, with a DW0
that it does not state. -/
def badConnect (s : State) (i : Nat) (at_ : Option Nat) : State :=
  match at_ with
  | some o => completeFabrics s i 0x82 (2 ^ 16 + o)
  | none => completeFabrics s.took i 0x82 s.freeVal.toNat

/-- The lowest free controller ID. -/
def freeCntlid (s : State) : Option Nat :=
  ((List.range 1024).map (· + 1)).find? fun c => !(s.assoc c).live

/-- An admin Connect: a new association, in the manager role if its host NQN is the manager's. -/
def connectAdmin (s : State) (i : Nat) (c : Capsule) : State :=
  let n := (s.cmd i).qp
  let d := c.data
  let sub := untilZero (slice d 256 256)
  let host := untilZero (slice d 512 256)
  if leAt d 16 2 ≠ 0xFFFF ∨ isIoQp n ∨ (sub ≠ Tab.at [] s.mgmt.names 0 ∧ sub ≠ discoveryNqn) then badConnect s i none
  else match freeCntlid s with
    | none => completeFabrics s i 0x81 0
    | some id =>
      let q := s.qp n
      let s := s.setAssoc id { Assoc.none with
        live := true, hostNqn := host, hostId := slice d 0 16, discovery := decide (sub = discoveryNqn)
        manager := decide (host = Tab.at [] s.mgmt.names 1) && decide (host ≠ []) && decide (sub ≠ discoveryNqn)
        port := q.port, sub := q.sub, kato := (c.cdw12 % 2 ^ 32 + 99) / 100 * 100, kaAt := s.now }
      completeDw0 (s.setQp n { q with state := 2, cntlid := id, size := c.cdw11 % 2 ^ 16 }) i id

/-- An I/O Connect of a created queue of a live association. -/
def connectIo (s : State) (i qid : Nat) (c : Capsule) : State :=
  let n := (s.cmd i).qp
  let d := c.data
  let id := leAt d 16 2
  let a := s.assoc id
  let q := s.qp n
  let size := c.cdw11 % 2 ^ 16
  if !a.live ∨ a.ending ∨ a.hostNqn ≠ untilZero (slice d 512 256) ∨ a.hostId ≠ slice d 0 16 ∨
      sqPair s id qid ≠ some n ∨ size ≠ q.size ∨ q.hsq ≠ q.size then badConnect s i none
  else match ringFault d size with
    | some o => badConnect s i (some o)
    | none =>
      completeDw0 (s.setQp n { q with
        state := 2, raddr := leAt d 960 8, rkey := leAt d 968 4, rent := leAt d 972 4, ringSeq := 0 }) i id

/-- CONNECT. -/
def execConnect (i : Nat) (s : State) : Res :=
  onFabric s i 1 fun c =>
    let qid := c.cdw10 / 2 ^ 16 % 2 ^ 16
    if (s.qp (s.cmd i).qp).state ≠ 1 then completeCmd s i .badField
    else if c.cdw10 % 2 ^ 16 ≠ 0 then completeFabrics s i 0x80 0
    else if qid = 0 then connectAdmin s i c
    else connectIo s i qid c

/-! ### Properties, Disconnect, Keep Alive (R310, R312, R319) -/

/-- PROPERTY_GET: CC and CSTS; CAP and VS as values the manual does not state. -/
def execPropertyGet (i : Nat) (s : State) : Res :=
  onFabric s i 4 fun c =>
    let a := qpAssoc s (s.cmd i).qp
    let o := c.cdw11 % 2 ^ 32
    let wide := decide (c.cdw10 % 8 = 1)
    if o = 0x14 ∧ !wide then completeDw0 s i a.cc
    else if o = 0x1C ∧ !wide then completeDw0 s i a.csts
    else if o = 8 ∧ !wide then completeDw0 s.took i s.freeVal.toNat
    else if o = 0 ∧ wide then
      let s' := s.took
      completeDw0 (s'.took.setCmd i { s'.cmd i with dw1 := s'.freeVal.toNat }) i s.freeVal.toNat
    else completeCmd s i .badField

/-- CC is written: EN 1 makes the controller ready; EN 0 resets it; a shutdown notification is done at once. -/
def writeCc (s : State) (cntlid w : Nat) : State :=
  let a := s.assoc cntlid
  let was := a.cc % 2
  let en := w % 2
  let shn := w / 2 ^ 14 % 4
  let s := s.setAssoc cntlid { a with cc := w, csts := en + if shn ≠ 0 then 8 else 0 }
  if was = 1 ∧ en = 0 then controllerReset s cntlid else s

/-- PROPERTY_SET. -/
def execPropertySet (i : Nat) (s : State) : Res :=
  onFabric s i 0 fun c =>
    if c.cdw11 % 2 ^ 32 = 0x14 ∧ c.cdw10 % 8 = 0 then
      completeCmd (writeCc s (s.qp (s.cmd i).qp).cntlid (c.cdw12 % 2 ^ 32)) i .ok
    else completeCmd s i .badField

/-- DISCONNECT: of an I/O queue; its pair ends after the completion. -/
def execDisconnect (i : Nat) (s : State) : Res :=
  onFabric s i 8 fun _ =>
    let n := (s.cmd i).qp
    if isIoQp n then pairGone (completeCmd s i .ok) n 1 true else completeCmd s i .badField

/-- AUTHENTICATION_SEND: not supported. -/
def execAuthenticationSend (i : Nat) (s : State) : Res := onFabric s i 5 fun _ => completeCmd s i .badOpcode
/-- AUTHENTICATION_RECEIVE: not supported. -/
def execAuthenticationReceive (i : Nat) (s : State) : Res := onFabric s i 6 fun _ => completeCmd s i .badOpcode

/-- KEEP_ALIVE: the association's timer starts again. -/
def execKeepAlive (i : Nat) (s : State) : Res :=
  onAdmin s i 0x98 fun _ cntlid =>
    completeCmd (s.setAssoc cntlid { s.assoc cntlid with kaAt := s.now }) i .ok

/-- ASYNCHRONOUS_EVENT_REQUEST: the request is held until an event comes. -/
def execAsynchronousEventRequest (i : Nat) (s : State) : Res :=
  onAdmin s i 0x8C fun _ cntlid =>
    let a := s.assoc cntlid
    if a.aers.contains i then s
    else deliverEvents cntlid a.events (s.setAssoc cntlid { a with aers := a.aers ++ [i] })

end Sys2Proof.Machine
end

