-- ==== Sys2Proof/Machine/Ports.lean ====
section
/-! DEFINITION. Host ports (R300 to R308, R319): links, frames and what answers them, priority flow control,
congestion control, and the acknowledges and timers of queue pairs. -/

namespace Sys2Proof.Machine

/-! ### Sub-ports (R300, R301, R302) -/

/-- Sub-ports that a port's mode provides. -/
def subCount (s : State) (p : Nat) : Nat :=
  let m := s.fld (aHpt p 0) 1 0
  if m = 0 then 1 else if m = 1 then 2 else 4

/-- Whether a sub-port is enabled: its mode provides it, its ENABLE bit is set, and D2 is on. -/
def subEnabled (s : State) (p k : Nat) : Bool :=
  s.hasPort p && decide (k < subCount s p) && s.bit (aHpt p 0) (4 + k) && s.domOn 2

/-- The state of a sub-port's link as HPT.LINK shows it. -/
def setSubLink (s : State) (p k n : Nat) : State := s.setF (aHpt p 4) (4 * k + 3) (4 * k) n

/-- Hub level source `p`: a link change not yet read, or an uncorrectable codeword (R433). -/
def portLevel (s : State) (p : Nat) : State :=
  irqLevel s 0 p ((List.range 4).any fun k =>
    (s.sub (4 * p + k)).changed || decide (s.reg (aHpt p (0x50 + 4 * k)) ≠ 0))

/-- The queue pairs on a sub-port. -/
def pairsOn (s : State) (p k : Nat) : List Nat :=
  (s.nq.qps.filter fun e => e.2.held && decide (e.2.port = p) && decide (e.2.sub = k)).map (·.1)

/-- Every packet in flight of a queue pair is sent again; HPT.RETX counts each. -/
def resendAll (s : State) (n : Nat) : State :=
  let q := s.qp n
  q.inflight.foldl (fun s x => (s.bump (aHpt q.port (0xB0 + 4 * q.sub))).emit (.resend n x.psn)) s

/-- What waits for a sub-port goes on: segments of the transmit queue, and the RDMA Reads of writes. -/
def subGo (s : State) (p k : Nat) : State :=
  let s := drainTx s p
  (liveCmds s).foldl
    (fun s e => if e.2.cls = .wr ∧ (s.qp e.2.qp).port = p ∧ (s.qp e.2.qp).sub = k then writeProgress s e.1 else s) s

/-- A sub-port goes down (R302); with PDOWNT 0 its queue pairs go to error at once (R319). -/
def subLost (s : State) (p k st : Nat) : State :=
  let i := 4 * p + k
  let x := s.sub i
  let s := setSubLink s p k st
  let s := portLevel (s.setSub i { x with downAt := some s.now, paused := [], xoff := [], rx := [], changed := true }) p
  let s := discoveryEvent s
  if s.fld (aHpt p 8) 31 24 = 0 then subportDown s p k else s

/-- PCS_ALIGNMENT_LOSS: the sub-port is down and aligns again. -/
def execPcsAlignmentLoss (p k : Nat) (s : State) : Res :=
  onSub s p k (if subUp s p k then subLost s p k 1 else s)

/-- PCS_REALIGNED: the sub-port is up; what was lost is sent again (R319). -/
def execPcsRealigned (p k : Nat) (s : State) : Res :=
  onSub s p k
    (if subUp s p k ∨ !(subEnabled s p k) then s
     else
       let i := 4 * p + k
       let s := setSubLink s p k 2
       let s := portLevel (s.setSub i { s.sub i with downAt := none, changed := true }) p
       discoveryEvent (subGo ((pairsOn s p k).foldl resendAll s) p k))

/-- PDOWN_TIMEOUT: the sub-port has stayed down for PDOWNT. -/
def execPdownTimeout (p k : Nat) (s : State) : Res :=
  onSub s p k
    (match (s.sub (4 * p + k)).downAt with
     | some t => if !(subUp s p k) ∧ t + ms (100 * s.fld (aHpt p 8) 31 24) ≤ s.now then subportDown s p k else s
     | none => s)

/-- The ports follow their configuration: a sub-port that is no longer enabled is down, one that is newly
enabled begins to align (R301, R323). -/
def portsFollow (s : State) : State :=
  (List.range s.part.ports).foldl
    (fun s p => (List.range 4).foldl
      (fun s k =>
        let st := s.fld (aHpt p 4) (4 * k + 3) (4 * k)
        if subEnabled s p k then (if st = 0 then setSubLink s p k 1 else s)
        else if st = 0 then s
        else if st = 2 then subLost s p k 0 else setSubLink s p k 0) s) s

/-! ### Frames (R303, R305 to R307) -/

/-- A frame is discarded and counted. -/
def rxDiscard (s : State) (p k : Nat) : State := s.bump (aHpt p (0x60 + 4 * k))

/-- A PFC frame is sent. -/
def sendPfc (s : State) (p k prio quanta : Nat) : State :=
  (s.bump (aHpt p (0x70 + 4 * k))).emit (.pfc p k prio quanta)

/-- Whether flow control is enabled for a priority. -/
def pfcOn (s : State) (p prio : Nat) : Bool := s.bit (aHpt p 0xC) prio

/-- Bytes that a sub-port holds. -/
def subHolds (x : SubPort) : Nat := (x.rx.map (·.2)).foldl (· + ·) 0

/-- Bytes of a port's receive buffer that are held. -/
def rxHeld (s : State) (p : Nat) : Nat :=
  ((List.range 4).map fun k => subHolds (s.sub (4 * p + k))).foldl (· + ·) 0

/-- Bytes of the receive buffer of a port. -/
def rxSize : Nat := 4 * 2 ^ 20

/-- The ns that a number of PFC quanta of 512 bit times last at a port's sub-port rate. -/
def quantaNs (s : State) (p q : Nat) : Nat := q * 512 * subCount s p / 1600

/-- A frame enters the receive buffer; above XOFF its priority is stopped. -/
def rxHold (s : State) (p k : Nat) (f : RxFrame) : State :=
  let i := 4 * p + k
  let x := s.sub i
  let n := Tab.at 0 x.rx f.prio + f.bytes
  let s := s.setSub i { x with rx := Tab.to 0 x.rx f.prio n }
  if pfcOn s p f.prio ∧ s.fld (aHpt p 0xC) 31 24 * 16384 < n ∧ !(x.xoff.any fun e => decide (e.1 = f.prio)) then
    sendPfc (s.setSub i { s.sub i with xoff := (f.prio, s.now) :: x.xoff }) p k f.prio 0xFFFF
  else s

/-- A mark is answered with a CNP, at most one per CNPINT (R306). -/
def answerMark (s : State) (p k n : Nat) : State :=
  let q := s.qp n
  let due : Bool := match q.cnpAt with
    | some t => decide (t + us (s.fld (aHpt p 0x10) 23 16) ≤ s.now)
    | none => true
  if s.bit (aHpt p 0x10) 31 ∧ due then
    ((s.setQp n { q with cnpAt := some s.now }).bump (aHpt p (0x90 + 4 * k))).emit
      (.cnp n (s.fld (aHpt p 0x14) 22 17) (tagOf s p true))
  else s

/-- Whether a frame carries RoCEv2 to one of the sub-port's addresses, on its VLAN (R303, R307). -/
def isRoce (s : State) (p k : Nat) (f : RxFrame) : Bool :=
  decide (f.udp = 4791) && decide (f.vlan = s.fld (aHpt p 0x14) 11 0) && ownAddr s p k f.dst

/-- The transport opcodes that the device takes (R307; their numbers: entry 131): Send First, Middle, Last and Only
without immediate data, RDMA Read responses, acknowledges, the datagram Send of QP1, and the CNP. -/
def rocePermits (op : Nat) : Bool := decide (op ∈ [0, 1, 2, 4, 13, 14, 15, 16, 17, 0x64, 0x81])

/-- Whether a transport opcode is a Send's. -/
def roceSend (op : Nat) : Bool := decide (op ∈ [0, 1, 2, 4])

/-- Whether a packet comes before or at a sequence number. -/
def upTo (x psn : Nat) : Bool := decide ((psn + 2 ^ 24 - x) % 2 ^ 24 < 2 ^ 23)

/-- A packet of a host's Send (R307): in its turn it is taken; one that has come before is acknowledged again; one
ahead of its turn draws a sequence NAK, once until the expected one comes (entry 131). The Send itself comes as
CAPSULE_RECEIVE. -/
def rxSend (s : State) (n op psn : Nat) : State :=
  let q := s.qp n
  let last := (q.epsn + 2 ^ 24 - 1) % 2 ^ 24
  if psn = q.epsn then
    s.setQp n { q with epsn := (psn + 1) % 2 ^ 24, mpsn := if op = 0 ∨ op = 4 then psn else q.mpsn, gap := false }
  else if upTo psn last then s.emit (.nak n 0 last 0)
  else if q.gap then s
  else ((s.setQp n { q with gap := true }).bump (aHpt q.port (0xC0 + 4 * q.sub))).emit (.nak n 1 q.epsn 0)

/-- What a frame is to the queue pair that it names, when that is held on the sub-port (R307, R311). -/
def rxPacket (s : State) (p k : Nat) (f : RxFrame) : State :=
  let q := s.qp f.qp
  if !q.held ∨ q.port ≠ p ∨ q.sub ≠ k then s
  else if roceSend f.op then rxSend s f.qp f.op (f.psn % 2 ^ 24)
  else if rocePermits f.op then s
  else qpError (s.emit (.nak f.qp 3 (f.psn % 2 ^ 24) 0)) f.qp

/-- FRAME_RECEIVE's effect: FEC counts, discards, the receive buffer, marks, and requests that R307 does not
allow; what an allowed frame carries comes as its own command. -/
def frameReceive (s : State) (p k : Nat) (f : RxFrame) : State :=
  if !(subUp s p k) then s
  else
    let s := s.bump (aHpt p (0x40 + 4 * k)) f.fecCorr
    let s := if f.fecUnc = 0 then s else portLevel (s.bump (aHpt p (0x50 + 4 * k)) f.fecUnc) p
    if f.fecBad ∨ f.pause ∨ !(isRoce s p k f) then rxDiscard s p k
    else if rxSize < rxHeld s p + f.bytes then rxDiscard s p k
    else
      let s := rxHold s p k f
      rxPacket (if f.ce then answerMark s p k f.qp else s) p k f

/-- FRAME_RECEIVE. -/
def execFrameReceive (p k : Nat) (f : RxFrame) (s : State) : Res :=
  if f.prio < 8 ∧ qpOk f.qp then onSub s p k (frameReceive s p k f) else .fault .badOperand

/-- A request for one of the sub-port's own addresses is answered; any other is discarded (R303). -/
def neighbour (s : State) (p k kind addr : Nat) : State :=
  if !(subUp s p k) then s
  else if ownAddr s p k addr then s.emit (.neighbour p k kind addr) else rxDiscard s p k

/-- ARP_REQUEST. -/
def execArpRequest (p k addr : Nat) (s : State) : Res := onSub s p k (neighbour s p k 0 addr)
/-- NEIGHBOR_SOLICITATION. -/
def execNeighborSolicitation (p k addr : Nat) (s : State) : Res := onSub s p k (neighbour s p k 1 addr)
/-- ICMP_ECHO. -/
def execIcmpEcho (p k addr : Nat) (s : State) : Res := onSub s p k (neighbour s p k 2 addr)

/-! ### Priority flow control (R305) -/

/-- A priority may be sent again. -/
def pfcResume (s : State) (p k prio : Nat) : State :=
  let i := 4 * p + k
  let x := s.sub i
  subGo (s.setSub i { x with paused := x.paused.filter fun e => e.1 ≠ prio }) p k

/-- A received PFC frame stops an enabled priority, or lets it go on; others are discarded. -/
def pfcFrame (s : State) (p k prio quanta : Nat) : State :=
  let i := 4 * p + k
  let x := s.sub i
  if !(subUp s p k) then s
  else if !(pfcOn s p prio) then rxDiscard s p k
  else
    let s := s.bump (aHpt p (0x80 + 4 * k))
    if quanta = 0 then pfcResume s p k prio
    else s.setSub i { x with paused := (prio, s.now + quantaNs s p quanta) :: x.paused.filter fun e => e.1 ≠ prio }

/-- PFC_FRAME. -/
def execPfcFrame (p k prio quanta : Nat) (s : State) : Res :=
  if prio < 8 ∧ quanta < 65536 then onSub s p k (pfcFrame s p k prio quanta) else .fault .badOperand

/-- PFC_PAUSE_EXPIRE: the quanta of the last PFC frame have passed. -/
def execPfcPauseExpire (p k prio : Nat) (s : State) : Res :=
  if prio < 8 then
    onSub s p k
      (if (s.sub (4 * p + k)).paused.any fun e => decide (e.1 = prio) && decide (e.2 ≤ s.now) then pfcResume s p k prio else s)
  else .fault .badOperand

/-- PFC_REFRESH: XOFF is repeated every 32,768 quanta while it holds. -/
def execPfcRefresh (p k prio : Nat) (s : State) : Res :=
  if prio < 8 then
    onSub s p k
      (let i := 4 * p + k
       let x := s.sub i
       if subUp s p k ∧ (x.xoff.any fun e => decide (e.1 = prio) && decide (e.2 + quantaNs s p 32768 ≤ s.now)) then
         sendPfc (s.setSub i { x with xoff := (prio, s.now) :: x.xoff.filter fun e => e.1 ≠ prio }) p k prio 0xFFFF
       else s)
  else .fault .badOperand

/-- What the receive buffer of a sub-port holds is taken from it; below XON the priorities it had stopped
are released (entry 61). -/
def rxDrain (s : State) (i : Nat) : State :=
  let x := s.sub i
  if x.rx = [] then s
  else
    let p := i / 4
    let on := decide (0 < s.fld (aHpt p 0xC) 23 16)
    let s := s.setSub i { x with rx := [], xoff := if on then [] else x.xoff }
    if on then x.xoff.foldl (fun s e => sendPfc s p (i % 4) e.1 0) s else s

/-! ### Congestion control (R306) -/

/-- A sub-port's rate in 1/256 Gb/s. -/
def subRate (s : State) (p : Nat) : Nat := 1600 / subCount s p * 256

/-- A CNP cuts the rate of its queue pair, at most once per CNPINT, to no less than 1 Gb/s. -/
def cnpReceive (s : State) (p k n : Nat) : State :=
  if !(subUp s p k) then s
  else
    let s := s.bump (aHpt p (0xA0 + 4 * k))
    let q := s.qp n
    if !(s.bit (aHpt p 0x10) 31) ∨ !q.held ∨ q.port ≠ p ∨ q.sub ≠ k then s
    else
      let due : Bool := match q.cutAt with
        | some t => decide (t + us (s.fld (aHpt p 0x10) 23 16) ≤ s.now)
        | none => true
      let r := if q.rate = 0 then subRate s p else q.rate
      let cut := max 256 (r - r / 2 ^ s.fld (aHpt p 0x10) 27 24)
      s.setQp n { q with
        rate := if due then cut else q.rate, cutAt := if due then some s.now else q.cutAt, recAt := some s.now }

/-- CNP_RECEIVE. -/
def execCnpReceive (p k n : Nat) (s : State) : Res :=
  if qpOk n then onSub s p k (cnpReceive s p k n) else .fault .badOperand

/-- RATE_RECOVERY: RTIMER without a CNP has passed; at the sub-port's rate the queue pair is free again. -/
def execRateRecovery (n : Nat) (s : State) : Res :=
  onOk (qpOk n)
    (let q := s.qp n
     match q.recAt with
     | none => s
     | some t =>
       if q.rate = 0 ∨ !(s.bit (aHpt q.port 0x10) 31) ∨ s.now < t + us (s.fld (aHpt q.port 0x10) 15 8) then s
       else
         let r := q.rate + 256 * s.fld (aHpt q.port 0x10) 7 0
         s.setQp n { q with rate := if subRate s q.port ≤ r then 0 else r, recAt := some s.now })

/-! ### Acknowledges and retries (R308) -/

/-- Packets up to a sequence number are acknowledged; an RDMA Read ends with its response. -/
def ackUpTo (s : State) (n psn : Nat) : State :=
  let q := s.qp n
  s.setQp n { q with inflight := q.inflight.filter fun x => decide (x.kind = 2) || !(upTo x.psn psn), retries := 0 }

/-- Whether a queue pair's sub-port is up: its timers and retries stand still otherwise (R319). -/
def pairUp (s : State) (n : Nat) : Bool := (s.qp n).held && subUp s (s.qp n).port (s.qp n).sub

/-- ACK_RECEIVE. -/
def execAckReceive (n psn : Nat) (s : State) : Res :=
  onOk (qpOk n && decide (psn < 2 ^ 24)) (if pairUp s n then ackUpTo s n psn else s)

/-- A retry: what is in flight is sent again, or after RETRY of them the queue pair goes to error. -/
def retry (s : State) (n : Nat) : State :=
  let q := s.qp n
  if q.inflight = [] then s
  else if q.retries < s.fld (aHpt q.port 8) 15 13 then
    let s := s.setQp n { q with retries := q.retries + 1 }
    resendAll s n
  else qpError s n

/-- A NAK: 1 sequence error, 2 RNR, which waits for its timer; an invalid or refused request ends the pair
(R307, R308, R311). -/
def nakReceive (s : State) (n kind psn : Nat) : State :=
  if !(pairUp s n) then s
  else if kind = 1 then
    let r := (s.qp n).retries
    let s := ackUpTo s n ((psn + 2 ^ 24 - 1) % 2 ^ 24)
    let s := s.setQp n { s.qp n with retries := r }
    retry s n
  else if kind = 2 then s
  else qpError s n

/-- NAK_RECEIVE. -/
def execNakReceive (n kind psn : Nat) (s : State) : Res :=
  onOk (qpOk n && decide (1 ≤ kind) && decide (kind ≤ 4) && decide (psn < 2 ^ 24)) (nakReceive s n kind psn)

/-- ACK_TIMEOUT: nothing was acknowledged for 4.096 µs · 2^TIMEOUT. -/
def execAckTimeout (n : Nat) (s : State) : Res := onOk (qpOk n) (if pairUp s n then retry s n else s)

/-- RNR_TIMER_EXPIRE: what was refused for want of a buffer is sent again, without limit. -/
def execRnrTimerExpire (n : Nat) (s : State) : Res := onOk (qpOk n) (if pairUp s n then resendAll s n else s)

end Sys2Proof.Machine
end

