-- ==== Sys2Proof/Machine/Access.lean ====
section
/-! DEFINITION. Register accesses with their side effects (R11 to R13, R37, R43, R108, R458): a read that
clears, claims or advances, and a write that commands its block. Whoever makes an access makes it here: the
management port, an association, an engine or a processor. -/

namespace Sys2Proof.Machine

/-! ### Reads -/

/-- What a read of an open register does beside answering (R11): an RC register is cleared, and the levels
that follow it fall. -/
def afterRead (s : State) (who : Who) (a : Nat) (r : RegRow) : State :=
  let s := if r.acc = .rc then s.setReg a 0 else s
  match blkOf a with
  | some (.memp, o) =>
    if 0x140 ≤ o ∧ o < 0x168 then mempTileLevel (mempLevels s) ((o - 0x140) / 4) else s
  | some (.hpt p, o) =>
    if o = 4 then
      portLevel ((List.range 4).foldl (fun s k => s.setSub (4 * p + k) { s.sub (4 * p + k) with changed := false }) s) p
    else if 0x50 ≤ o ∧ o < 0x60 then portLevel s p
    else s
  | some (.owl, o) => if o = 0x13C then owlAdvance s else s
  | some (.ucs, o) => if o = 0x10 then ucsNext s 0 else s
  | some (.tucs t k, o) => if o = 0x10 then ucsNext s (1 + 6 * t + k) else s
  | some (.irq, o) => if 0x4000 ≤ o ∧ o % 0x400 = 0 then (claimRead s who 0 ((o - 0x4000) / 0x400)).1 else s
  | some (.tirq t, o) => if 0x4000 ≤ o ∧ o % 0x400 = 0 then (claimRead s who (1 + t) ((o - 0x4000) / 0x400)).1 else s
  | _ => s

/-- Whether an accessor may reach an address at all: a sett page only under R415. -/
def pageOk (s : State) (who : Who) (a : Nat) : Bool :=
  match blkOf a with
  | some (.sett n, _) => settAllowed s who n
  | _ => true

/-- A read of a register by an accessor: the state after it, the word and the status (R11, R37, R43). -/
def readReg (s : State) (who : Who) (a : Nat) : State × Word × Status :=
  match gateOf s a with
  | .stop st => (s, 0, st)
  | .wait => (s, 0, .storeBusy)
  | .open_ =>
    if !(pageOk s who a) then (s, 0, .badField)
    else match regRow s.part a with
      | none => (s, 0, .badField)
      | some r => (afterRead s who a r, viewReg s a, .ok)

/-! ### Writes -/

/-- A write as the access type gives it: out-of-range values write nothing (R108), reserved fields stay (R13). -/
def plainWrite (s : State) (r : RegRow) (a : Nat) (w : Word) : State × Status :=
  match r.acc with
  | .ro | .rc => (s, .ok)
  | .w1c => (s.clrReg a (w &&& r.mask), .ok)
  | .rw | .wo | .rwl =>
    if r.inRange w then (s.setReg a ((s.reg a &&& ~~~r.mask) ||| (w &&& r.mask)), .ok) else (s, .badField)

/-- The ranges that depend on another field or register. -/
def fieldsOk (s : State) (b : RegBlk) (o : Nat) (w : Word) : Bool :=
  match b with
  | .lane t _ => o ≠ 0xFC || decide (fld w 12 8 < fmtZones s t) && decide (fld w 2 0 ≤ 4)
  | .det t => o ≠ 0x14 || decide (fld w 12 8 < fmtZones s t)
  | .ctl _ _ => o ≠ 8 || decide (fld w 31 24 < fld w 23 16)
  | .spn _ =>
    (o ≠ 0x24 || decide (fld w 19 8 ≤ fld w 31 20)) && (o ≠ 0x2C || !(w.getLsbD 31) || decide (fld w 15 0 ≠ 0))
  | .irq | .tirq _ => !(decide (0x4000 ≤ o ∧ o % 0x400 = 0x10)) || fld w 31 24 = 0 || decide (fld w 9 0 ≠ 0)
  | .ucs => o ≠ 0xC || ucsAddrOk 0 (fld w 14 0)
  | .tucs t k => o ≠ 0xC || ucsAddrOk (1 + 6 * t + k) (fld w 14 0)
  | _ => true

/-- A write of an interrupt controller's register (R437 to R450). -/
def writeIrq (s : State) (who : Who) (ic o : Nat) (r : RegRow) (w : Word) : State × Status :=
  let a := aIrq ic o
  if o < 0x4000 then writeSource s ic 0 (0x100 + (o - 0x1000) / 4) w
  else
    let n := (o - 0x4000) / 0x400
    let p := (o - 0x4000) % 0x400
    if 0x100 ≤ p then writeSource s ic n ((p - 0x100) / 4 + 1) w
    else if p = 4 then completeBy s who ic n (fld w 9 0)
    else if p = 0xC then ((if w.getLsbD 31 then clearStack s ic n else s), .ok)
    else if p = 0x20 then (writeDoorbell s ic n w, .ok)
    else
      let x := plainWrite s r a w
      (irqEval x.1 ic n, x.2)

/-- A write of an engine's UCS page (R292, R298). -/
def writeUcs (s : State) (e o : Nat) (r : RegRow) (w : Word) : State × Status :=
  if o = 0 then ucsCmd s e (fld w 3 0)
  else if o = 0x10 then ucsPut s e w
  else plainWrite s r (aUcs e o) w

/-- A write of a CTL register (R244, R248, R255). -/
def writeCtl (s : State) (t c o : Nat) (r : RegRow) (w : Word) : State × Status :=
  if o = 0x2C then (clearWolfst s t c w, .ok)
  else if isSctl o ∧ o < 0x4000 then
    (if o < 0x3000 then writeSctl s t c ((o - 0x2000) / 128) ((o - 0x2000) % 128 / 32) w
     else writeSctl s t c 24 ((o - 0x3000) / 32) w, .ok)
  else plainWrite s r (aCtl t c o) w

/-- A write of an SPN register; an RWL register only while the drive is idle (R276, R280). -/
def writeSpn (s : State) (t o : Nat) (r : RegRow) (w : Word) : State × Status :=
  let st := spnState s t
  if o = 0 then ((if w.getLsbD 0 then runSet s t else runClear s t), .ok)
  else if o = 0x60 then
    let s := s.clrReg (aSpn t 0x60) (w &&& r.mask)
    (irqLevel s (1 + t) 225 (decide (s.reg (aSpn t 0x60) ≠ 0)), .ok)
  else if r.acc = .rwl ∧ !(st = 0 ∨ st = 1 ∨ st = 9) then (s, .storeBusy)
  else plainWrite s r (aSpn t o) w

/-- A write of a block's register. LANE.CTRL.SLEEP written 0 wakes the lane of a tile in PS0 (R496). -/
def writeBlk (s : State) (who : Who) (a : Nat) (b : RegBlk) (o : Nat) (r : RegRow) (w : Word) : State × Status :=
  match b with
  | .owl =>
    if o = 4 then (if fld w 3 0 = 1 then owlClearStart s else (s, .badField))
    else if o = 0x14 then (owlCursor s w, .ok)
    else if o = 0x4C then (owlFirmware s w, .ok)
    else plainWrite s r a w
  | .irq => writeIrq s who 0 o r w
  | .tirq t => writeIrq s who (1 + t) o r w
  | .buf =>
    if o = 0xC then (if fld w 3 0 = 1 then invall s else (s, .badField))
    else if o = 0x40 then lkctlWrite s w
    else if 0x1000 ≤ o then (staleClear s ((o - 0x1000) / 4) w, .ok)
    else plainWrite s r a w
  | .ciph =>
    if o = 4 then (if fld w 3 0 = 0xE then (keyAlarm s 3, .ok) else (s, .badField))
    else if o = 8 then (alarmLevel (s.clrReg a (w &&& r.mask)), .ok)
    else plainWrite s r a w
  | .sett n =>
    if o < 0x400 ∧ o % 0x80 = 0x20 then scmdWrite s who n (o / 0x80) (fld w 3 0)
    else if o = 0x404 then (if w.getLsbD 31 then testGo s who n else (s, .ok))
    else plainWrite s r a w
  | .ucs => if o < 0x1000 then writeUcs s 0 o r w else plainWrite s r a w
  | .tucs t k => if k < 6 then writeUcs s (1 + 6 * t + k) o r w else plainWrite s r a w
  | .lane t l =>
    if o = 0 then
      ((if w.getLsbD 0 then laneSleep s t l else if pwrTile s t = 0 then wakeLane s t l else s.setB a 0 false), .ok)
    else if 0x100 ≤ o then tapWrite s t l ((o - 0x100) / 4) w
    else plainWrite s r a w
  | .wrtc t c =>
    if o = 0x18 then paccWrite s t c w
    else if 0x20 ≤ o ∧ o ≤ 0x34 then (clearFaults s t c ((o - 0x20) / 4) w, .ok)
    else plainWrite s r a w
  | .ctl t c => writeCtl s t c o r w
  | .spn t => writeSpn s t o r w
  | _ => plainWrite s r a w

/-- A write of a register by an accessor: the state after it and the status (R11, R37, R43, R108). A register
that cannot be written takes no effect. -/
def writeReg (s : State) (who : Who) (a : Nat) (w : Word) : State × Status :=
  match gateOf s a with
  | .stop st => (s, st)
  | .wait => (s, .storeBusy)
  | .open_ =>
    if !(pageOk s who a) then (s, .badField)
    else match blkOf a, regRow s.part a with
      | some (b, o), some r =>
        if r.acc = .ro ∨ r.acc = .rc then (s, .ok)
        else if r.acc ≠ .w1c ∧ !(fieldsOk s b o w) then (s, .badField)
        else writeBlk s who a b o r w
      | _, _ => (s, .badField)

/-! ### The rows -/

/-- Whether an accessor may access an address: an association without the manager role only its own sett
page (R460). -/
def accessOk (s : State) (who : Who) (a : Nat) : Bool :=
  match who with
  | .assoc c => (s.assoc c).live && ((s.assoc c).manager ||
      (match blkOf a with | some (.sett n, _) => settAllowed s who n | _ => false))
  | _ => true

/-- A write access and its answer. -/
def writeAccess (s : State) (who : Who) (a : Nat) (w : Word) : State :=
  let r := writeReg s who a w
  r.1.emit (.reply who a w r.2)

/-- The counters of an RC register, lowest first: WRT.LERR and TILE.QHIGH hold two (R41, R172). -/
def rcFields (a : Nat) : List (Nat × Nat) :=
  match blkOf a with
  | some (.wrtc _ _, o) => if o = 8 then [(15, 0), (31, 16)] else [(31, 0)]
  | some (.tile _, o) => if o = 0x30 then [(15, 0), (31, 16)] else [(31, 0)]
  | _ => [(31, 0)]

/-- A read access and its answer, with the counts of the events that coincide with it, one for each counter of an
RC register: the answer is the value before them, and the register then holds only them (R12). -/
def readAccess (s : State) (who : Who) (a : Nat) (events : List Nat) : State :=
  let r := readReg s who a
  let s := r.1.emit (.reply who a r.2.1 r.2.2)
  match regRow s.part a with
  | some x =>
    if x.acc = .rc ∧ r.2.2 = .ok then
      (List.zip (rcFields a) events).foldl (fun s e => s.bumpF a e.1.1 e.1.2 e.2) s
    else s
  | none => s

/-- An access is made, whatever the link's state. -/
def doAccess (s : State) (x : Access) : State :=
  match x.word with
  | some w => writeAccess s x.who x.addr w
  | none => readAccess s x.who x.addr x.events

/-- An access is made, or waits while the tile's link trains, retrains or is held (R37; entry 136). -/
def offerAccess (s : State) (x : Access) : State :=
  if gateOf s x.addr = .wait then { s with mgmt := { s.mgmt with accs := s.mgmt.accs ++ [x] } } else doAccess s x

/-- The waiting accesses that satisfy `p` are made, oldest first. -/
def serveAccs (s : State) (p : Access → Bool) : State :=
  let s' : State := { s with mgmt := { s.mgmt with accs := s.mgmt.accs.filter fun x => !(p x) } }
  (s.mgmt.accs.filter p).foldl doAccess s'

/-- REGISTER_WRITE: the answer carries the status. -/
def execRegisterWrite (who : Who) (a : Nat) (w : Word) (s : State) : Res :=
  onOk (decide (a < 2 ^ 32))
    (if a % 4 ≠ 0 ∨ !(accessOk s who a) then s.emit (.reply who a w .badField)
     else offerAccess s ⟨who, a, some w, []⟩)

/-- RC_COUNTER_READ. -/
def execRcCounterRead (a : Nat) (events : List Nat) (s : State) : Res :=
  onOk (decide (a < 2 ^ 32)) (offerAccess s ⟨.port, a, none, events⟩)

end Sys2Proof.Machine
end

