-- ==== Sys2Proof/Machine/Executor.lean ====
section
/-! DEFINITION. The management port and the executor (R451 to R460): packets, replies, the order of
operations and the end of one. -/

namespace Sys2Proof.Machine

/-! ### Packets (R454 to R456) -/

/-- A reply packet (R455). -/
def replyPacket (op tag st : Nat) (data : Payload) : Payload :=
  let body := beBytes 1 0x6B ++ beBytes 1 op ++ beBytes 2 tag ++ beBytes 1 st ++ beBytes 1 0 ++
    beBytes 2 data.length ++ data
  body ++ beBytes 4 (crc32c body).toNat

/-- A command packet (R454). -/
def commandPacket (op tag : Nat) (param : Payload) : Payload :=
  let body := beBytes 1 0x4B ++ beBytes 1 op ++ beBytes 2 tag ++ beBytes 2 param.length ++ zeros 2 ++ param
  body ++ beBytes 4 (crc32c body).toNat

/-- Whether a packet has no header or a wrong MAGIC: it is discarded without a reply (R456 step 1). -/
def noPacket (bs : Payload) : Bool := decide (bs.length < 8) || decide (beAt bs 0 1 ≠ 0x4B)

/-- Steps 2 and 3 of a packet's check (R456). -/
def packetStatus (bs : Payload) : Status :=
  let n := beAt bs 4 2
  if 4096 < n ∨ bs.length ≠ 12 + n then .badLength
  else if crc32c (bs.take (8 + n)) ≠ beWord bs (8 + n) then .badCrc
  else .ok

/-- The operation that a checked packet carries. -/
def packetOpOf (route : Route) (bs : Payload) : MgOp :=
  ⟨route, beAt bs 1 1, beAt bs 2 2, beAt bs 6 2, slice bs 8 (beAt bs 4 2)⟩

/-- The opcodes of R457. -/
def mgmtOps : List Nat :=
  [0x01, 0x02, 0x03, 0x10, 0x11, 0x12, 0x13, 0x14, 0x15, 0x20, 0x21, 0x22, 0x23, 0x24, 0x25, 0x26]

/-- The operations carried out between the steps of a long one (R459). -/
def freeOps : List Nat := [0x01, 0x02, 0x03, 0x15]

/-! ### Replies (R453, R460) -/

/-- A reply is ready: the port's waits for a FETCH; an association's is kept, and its command completes with
the reply's STATUS and RLEN. -/
def sendReply (s : State) (route : Route) (op tag : Nat) (st : Status) (data : Payload) : State :=
  let bs := replyPacket op tag st.code data
  match route with
  | .port => { s with mgmt := { s.mgmt with reply := some bs, busy := false } }
  | .assoc c i =>
    let s : State :=
      if (s.assoc c).live ∧ !(s.assoc c).ending then
        { s with mgmt := { s.mgmt with kept := Tab.to [] s.mgmt.kept c bs } }
      else s
    completeCmd (s.setCmd i { s.cmd i with dw0 := data.length }) i st

/-- An operation ends. MGT.LASTOP reports the latest long one that was carried out (R459). -/
def finishOp (s : State) (m : MgOp) (st : Status) (data : Payload) : State :=
  let s := if m.opcode ∈ longOps then s.setReg (aMgt 0x1C) (place 15 8 m.opcode ||| place 7 0 st.code) else s
  sendReply s m.route m.opcode m.tag st data

/-- The long operation in progress ends. -/
def finishLong (s : State) (st : Status) (data : Payload) : State :=
  match s.mgmt.long with
  | none => s
  | some l => finishOp { s with mgmt := { s.mgmt with long := none } } l.op st data

/-- An operation becomes the executor's long one. -/
def beginLong (s : State) (m : MgOp) (f : Option FlashOp) : State :=
  { s with mgmt := { s.mgmt with long := some ⟨m, f⟩ } }

/-! ### Operations in their order (R459) -/

/-- A packet of the port waits for the executor on management core 16 (R432; entry 141). -/
def portWaits (s : State) (route : Route) : State :=
  match route with
  | .port => irqEvent s 0 16 0x22
  | .assoc _ _ => s

/-- The operation at the head leaves the order; the port's waits no longer. -/
def popOp (s : State) : State :=
  match s.mgmt.waiting with
  | [] => s
  | m :: rest =>
    let s : State := { s with mgmt := { s.mgmt with waiting := rest } }
    match m.route with
    | .port => irqFall s 0 16 0x22 false
    | .assoc _ _ => s

/-- A packet becomes a waiting operation, or is answered under R456, or is no packet at all; an opcode that
R457 does not list is answered ST_BAD_OPCODE. The Bool: the packet was discarded without a reply. -/
def offerPacket (s : State) (route : Route) (bs : Payload) : State × Bool :=
  if noPacket bs then (s, true)
  else
    let m := packetOpOf route bs
    match packetStatus bs with
    | .ok =>
      if m.opcode ∈ mgmtOps then (portWaits { s with mgmt := { s.mgmt with waiting := s.mgmt.waiting ++ [m] } } route, false)
      else (sendReply s route m.opcode m.tag .badOpcode [], false)
    | st => (sendReply (s.bump (aMgt 0x64)) route m.opcode m.tag st [], false)

/-- Whether a reply packet of the port is discarded by a new SEND, and what a packet on the port begins
with: a packet is accepted while the port is not busy (R453). -/
def portAccepts (s : State) : Bool := !(portBusy s) && !s.power.testEn

/-- A packet on the port, after the type byte (R453, R456). -/
def portPacket (s : State) (bs : Payload) : State :=
  if s.power.testEn then s
  else if portBusy s then ({ s with mgmt := { s.mgmt with err := true } } : State).bump (aMgt 0x60)
  else
    let s := if s.mgmt.reply.isSome then s.bump (aMgt 0x60) else s
    let s := irqFall s 0 16 0x23 true
    let s : State := { s with mgmt := { s.mgmt with reply := none, busy := true } }
    let r := offerPacket s .port bs
    if r.2 then { r.1 with mgmt := { r.1.mgmt with busy := false, err := true } } else r.1

/-- Whether an operation answers to an opcode, a TAG and a PARAM. -/
def opIs (op tag : Nat) (param : Payload) (m : MgOp) : Bool :=
  decide (m.opcode = op) && decide (m.tag = tag) && decide (m.param = param)

/-- An operation's row names its packet: where none such waits or is under way, it is the port's, sent at
that moment (entry 64). -/
def offerOp (s : State) (op tag : Nat) (param : Payload) : State :=
  let isLong : Bool := match s.mgmt.long with | some l => opIs op tag param l.op | none => false
  if s.mgmt.waiting.any (opIs op tag param) || isLong then s
  else portPacket s (commandPacket op tag param)

/-- Whether the executor can take an operation: D1 runs, and no staging write is in the midst. -/
def executorFree (s : State) : Bool :=
  decide (6 ≤ s.power.boot) && (match s.power.deep with | .ps4 => false | .leaving => false | _ => true) &&
    (s.mgmt.long.isNone || (longNow s).isSome)

/-- An operation's row: the operation at the head of the executor's order is carried out when it is the
row's. -/
def onOp (s : State) (op tag : Nat) (param : Payload) (f : State → MgOp → State) : Res :=
  onOk (decide (tag < 65536) && decide (param.length ≤ 4096))
    (let s := offerOp s op tag param
     match s.mgmt.waiting with
     | m :: _ => if opIs op tag param m ∧ executorFree s then f (popOp s) m else s
     | [] => s)

/-- The checks of R17 and the executor's own busy (R459): ST_OK when the operation may go on. -/
def opStatus (s : State) (m : MgOp) (badLen badFld : Bool) (tile : Option Nat) : Status :=
  if badLen then .badLength
  else if badFld || decide (m.rsv ≠ 0) then .badField
  else if (match tile with | some t => !(s.hasTile t) | none => false) then .domainOff
  else if (longNow s).isSome ∧ m.opcode ∉ freeOps then .storeBusy
  else .ok

/-- An operation that its checks refuse ends with their status: one that finds a long one in progress is not
carried out. -/
def refuseOp (s : State) (m : MgOp) (st : Status) : State :=
  if (longNow s).isSome ∧ m.opcode ∉ freeOps ∧ st = .storeBusy then sendReply s m.route m.opcode m.tag st []
  else finishOp s m st []

/-- An operation after its checks. -/
def checkedOp (s : State) (m : MgOp) (badLen badFld : Bool) (tile : Option Nat) (f : State) : State :=
  match opStatus s m badLen badFld tile with
  | .ok => f
  | st => refuseOp s m st

/-- Who accesses registers by an operation (R460). -/
def opWho (m : MgOp) : Who :=
  match m.route with
  | .port => .port
  | .assoc c _ => .assoc c

/-- Bytes of a register word. -/
def wordBytes (w : Word) : Payload := beBytes 4 w.toNat

end Sys2Proof.Machine
end

