-- ==== Sys2Proof/Machine/Power.lean ====
section
/-! DEFINITION. Power domains and their switching (R494, R495), bring-in of tiles (R505, R69, R461), power
states and their transitions (R496 to R500). -/

namespace Sys2Proof.Machine

/-! ### Tile domains (R495) -/

/-- The state with a domain marked on or off. -/
def setDom (s : State) (d : Nat) (on : Bool) : State := s.setB (aPwr 0xC) d on

/-- What a tile's channel domain holds besides registers is gone. -/
def forgetCh (s : State) (t : Nat) : State :=
  let y := s.tl
  { s with tl := { y with
    lanes := y.lanes.filter fun e => e.1 / 192 ≠ t
    trained := y.trained.filter fun e => e.1 / 4 ≠ t
    calib := y.calib.filter fun e => e.1 / 4 ≠ t
    heads := y.heads.filter fun e => e.1 / 96 ≠ t
    dets := y.dets.filter fun e => e.1 ≠ t
    ctxs := y.ctxs.filter fun e => e.1 / 256 ≠ t
    headW := y.headW.filter fun e => e.1 / 96 ≠ t
    writes := y.writes.filter fun e => e.1 ≠ t
    wrQ := y.wrQ.filter fun e => e.1 / 4 ≠ t
    engines := y.engines.filter fun e => e.1 ≠ 6 * t + 6 } }

/-- What a tile's motion domain holds besides registers is gone. -/
def forgetMo (s : State) (t : Nat) : State :=
  let y := s.tl
  let s : State := { s with tl := { y with
    links := y.links.filter fun e => e.1 / 2 ≠ t
    linkFails := y.linkFails.filter fun e => e.1 ≠ t
    arms := y.arms.filter fun e => e.1 / 4 ≠ t
    readers := y.readers.filter fun e => e.1 / 192 ≠ t
    headS := y.headS.filter fun e => e.1 / 96 ≠ t
    ctls := y.ctls.filter fun e => e.1 / 4 ≠ t
    spns := y.spns.filter fun e => e.1 ≠ t
    engines := y.engines.filter fun e => !(decide (6 * t + 1 ≤ e.1) && decide (e.1 ≤ 6 * t + 5)) } }
  { s with irq := { s.irq with
    targets := s.irq.targets.filter fun e => e.1 / 32 ≠ 1 + t
    vanished := s.irq.vanished.filter fun e => e.1.1 ≠ 1 + t } }

/-- What a tile's channels have under way is stopped: bursts are cut (R170), and operations on stored samples end
with ABORT (R136). -/
def stopChannels (s : State) (t : Nat) : State :=
  abortAll (s.tl.headW.foldl (fun s e => if e.1 / 96 = t then setGate s t (e.1 % 96 / 24) (e.1 % 24) false else s) s) t

/-- D(4 + t) goes off, or is reset (R107, R136, R170, R200). The registers of class AON have their one home in
the register table, which is their D0 mirror too (entry 65). -/
def chOff (s : State) (t : Nat) : State :=
  setDom (forgetCh ((stopChannels s t).volReset fun d => decide (d = domCh t)) t) (domCh t) false

/-- A tile's link closes with its domain (R40): the hub's end reads absent, and nothing is checked (R478). -/
def linkOff (s : State) (t : Nat) : State := (setLinkState s t 0).setF (aVer t) 31 30 0

/-- D(12 + t) goes off, or is reset (R223, R253, R279, R447). -/
def moOff (s : State) (t : Nat) : State :=
  setDom (forgetMo ((linkOff s t).volReset fun d => decide (d = domMo t)) t) (domMo t) false

/-- D(4 + t) returns (R495): its registers are loaded, the ladder's store too; a retired lane stays so (R96). -/
def chOn (s : State) (t : Nat) : State :=
  let s := setDom s (domCh t) true
  let slot := liveSlot s
  let s := loadTileStores (loadTileRegs s slot t false true) slot t false true
  (List.range 192).foldl (fun s l => if tLane s t l then setLaneSt s t l 7 else s) s

/-- D(12 + t) returns (R495, R505 step 1): registers and stores are loaded from sections that are whole, the
spindle is STOPPED, the combs are on the ramp, and the link trains. -/
def moOn (s : State) (t : Nat) : State :=
  let s := setDom s (domMo t) true
  let slot := liveSlot s
  let s :=
    if tileSectsOk s slot t then loadTileStores (loadTileRegs s slot t true false) slot t true false
    else s.cfgReset (tileDom t true false)
  let s := setSpnState s t (if tTile s t then 9 else 1)
  let s := (List.range 4).foldl
    (fun s c =>
      let dead := tCluster s t c || tTile s t
      setMode (s.modCtl t c fun x => { x with dead := dead }) t c (if dead then 7 else 1)) s
  setLinkState s t 1

/-- The motion domain is reset while it stays powered. -/
def moReset (s : State) (t : Nat) : State := moOn (moOff s t) t

/-! ### Where a tile stands -/

/-- The next bring-in step of a tile. -/
def bringOf (s : State) (t : Nat) : Nat := Tab.at 0 s.power.bring t
/-- The state with a tile's bring-in step set. -/
def setBring (s : State) (t n : Nat) : State := { s with power := { s.power with bring := Tab.to 0 s.power.bring t n } }
/-- The state a tile is on its way to. -/
def goalOf (s : State) (t : Nat) : Option Nat := Tab.at none s.power.goal t
/-- The state with a tile's way set. -/
def setGoal (s : State) (t : Nat) (g : Option Nat) : State :=
  { s with power := { s.power with goal := Tab.to none s.power.goal t g } }

/-- The state that a bring-in leads a tile to: its way's end, or its target; PS4 lowers every tile to PS3. -/
def aimOf (s : State) (t : Nat) : Nat := min ((goalOf s t).getD (tileTarget s t)) 3

/-- The format check has kept a tile out of service (R69). -/
def formatBad (s : State) (t : Nat) : Bool :=
  s.domOn (domMo t) && decide (2 ≤ s.fld (aTile t 0x108) 1 0)

/-- Whether a tile counts as having reached a state (R497, R500): it has, or it is retired, its link is down, or
its format check keeps it (entry 66). -/
def reached (s : State) (t g : Nat) : Bool :=
  tileRetired s t || s.linkState t == 5 || (!(moving s t) && (decide (pwrTile s t = g) || formatBad s t))

/-- Nothing is in flight between the hub and a tile (R461, R498). -/
def tileQuiet (s : State) (t : Nat) : Bool :=
  let y := s.tl
  let d := s.det t
  y.heads.all (fun e => e.1 / 96 ≠ t || (decide (e.2.want = []) && decide (e.2.capQ = []) && decide (e.2.curs = []))) &&
    decide (openCtxs s t = []) && decide (d.decQ = []) && decide (d.poolOut = []) && decide (d.outQ = []) &&
    decide (d.stQ = []) && decide (d.engs = []) && decide (d.late = []) && decide (d.outWait = []) &&
    decide (d.ladQ = []) && decide (d.tagQ = []) && decide (s.wr t = WriteX.none) &&
    y.wrQ.all (fun e => e.1 / 4 ≠ t || decide (e.2 = [])) &&
    y.headW.all (fun e => e.1 / 96 ≠ t || (decide (e.2.ser = []) && decide (e.2.verify = []) && decide (e.2.verifying = []) &&
      decide (e.2.partners = []))) && decide (Tab.at [] s.buf.cipherIn t = [])

/-- A head of a tile has a media write pointer that is not recorded (R353). -/
def unrecorded (s : State) (t : Nat) : Bool :=
  (s.nq.reached ++ s.nq.recorded).any fun e =>
    decide ((nsHead s (e.1 / 2 ^ 20) (e.1 % 1024)).1 = t) &&
      decide (Tab.at 0 s.nq.reached e.1 ≠ Tab.at 0 s.nq.recorded e.1)

/-- A unit whose block lies on a tile is dirty (R389). -/
def dirtyOn (s : State) (t : Nat) : Bool :=
  (allPlaces s).any fun p =>
    let l := lineIn s p
    l.units.any fun e => e.2.dirty && decide (psaTile (psaOf s l.nsid (16 * l.line + e.1)) = t)

/-! ### The end of operations that wait for tiles -/

/-- The tiles that a POWER or MAINT operation names. -/
def namedTiles (s : State) (b : Nat) : List Nat := if b = 0xFF then s.tiles else [b]

/-- A change of power state has ended (R497). -/
def powerEnded (s : State) (g : Nat) : State := owlHub (irqEdge (s.setF (aPwr 0) 18 16 g) 0 80) 0x1002 0 0 g 0 0

/-- A POWER operation in progress: tiles that stand still set out, and it ends once every tile it names has
reached the state; for PS4 the hub follows its tiles (R497, R498, R500). -/
def powerPump (s : State) (m : MgOp) : State :=
  let g := beAt m.param 0 1
  let ts := namedTiles s (beAt m.param 1 1)
  let s := ts.foldl (fun s t => if reached s t (min g 3) || moving s t then s else setGoal s t (some (min g 3))) s
  if !(ts.all fun t => reached s t (min g 3)) then s
  else if g < 4 then finishLong (powerEnded s g) .ok []
  else match s.power.deep with
    | .awake => { s with power := { s.power with deep := .entering none } }
    | _ => s

/-- A MAINT operation in progress ends: entering, once nothing is in flight on the tile; leaving, once the
tile is brought in, or held by its format check (R461). -/
def maintPump (s : State) (m : MgOp) : State :=
  let t := beAt m.param 0 1
  if beAt m.param 1 1 = 1 then (if tileQuiet s t then finishLong s .ok [] else s)
  else if bringOf s t = 0 then finishLong s .ok [] else s

/-- A bring-in of a tile that has been retired stops (R505), and so does its way. -/
def dropRetired (s : State) (t : Nat) : State :=
  if tileRetired s t ∧ (3 ≤ bringOf s t ∧ bringOf s t ≤ 6 ∨ bringOf s t = 8) then setGoal (setBring s t 0) t none
  else if tileRetired s t ∧ (goalOf s t).isSome then setGoal s t none else s

/-- Boot has ended once every tile stands at BOOTPS (R508). -/
def bootEnd (s : State) : State :=
  let g := s.fld (aPwr 4) 27 24
  if s.power.boot = 9 ∧ s.tiles.all fun t => reached s t g then
    { s.setF (aPwr 0) 18 16 g with power := { s.power with boot := 10 } }
  else s

/-- Operations, boot and waiting accesses go on with what the tiles have reached. -/
def settle (s : State) : State :=
  let s := serveAccs (bootEnd (s.tiles.foldl dropRetired s)) fun x => decide (gateOf s x.addr ≠ .wait)
  match s.mgmt.long with
  | some l => if l.op.opcode = 0x26 then powerPump s l.op else if l.op.opcode = 0x22 then maintPump s l.op else s
  | none => s

/-! ### Bring-in (R505) -/

/-- A tile has come to a state. -/
def arrived (s : State) (t g : Nat) : State := setGoal (setBring (setPwrTile s t g) t 0) t none

/-- Step 4, or the like on the return from PS2, begins: the channels return and the combs load on calibration
pair 0 of band c (R239). -/
def beginLoad (s : State) (t b : Nat) : State :=
  let s := if s.domOn (domCh t) then s else chOn s t
  (List.range 4).foldl
    (fun s c =>
      if isLoaded s t c || tCluster s t c then s
      else loadRequest (s.modCtl t c fun x => { x with losts := 0 }) t c (calTrack s t c 0 : Nat)) (setBring s t b)

/-- Step 2: sections, agreement, OPTIME and the merge of the sets (R35, R472). A retired tile stops here, and one
whose target is PS3 goes there; in maintenance the tile stays held. -/
def bringAgree (s : State) (t : Nat) : State :=
  let s := linkOpen (if tileAgrees s t then s else sendSections s t) t
  if !(s.linkUp t) then s
  else if tileRetired s t then setGoal (setBring s t 0) t none
  else if aimOf s t = 3 then arrived (moOff s t) t 3
  else runSet (setBring s t 3) t

/-- Step 3 has ended: the spindle is at speed. -/
def bringSpun (s : State) (t : Nat) : State := if aimOf s t = 2 then arrived s t 2 else beginLoad s t 4

/-- The first good copy of the format record (R69): of the copies that the heads have read, as decoded words keyed
24·c + h, in the order of cluster 0 in band 0, head 0 first, then of the next clusters in their bands. A tile
with no format loaded reads none (R67). -/
def formatHead (s : State) (t : Nat) (copies : List (Nat × Payload)) : Option (Nat × Nat × Payload) :=
  if !(hasFormat s t) then none
  else
    (List.range 96).findSome? fun k =>
      let c := k / 24
      let h := k % 24
      if headDead s t c h then none
      else
        match copies.find? fun e => decide (e.1 = k) with
        | some e => if goodRecord s t c h c e.2 then some (c, h, e.2) else none
        | none => none

/-- The format check (R69): bytes 0 to 279 of the copy against the format registers. FMTSTAT tells its result; a
tile that fails stays out of service. -/
def formatCheck (s : State) (t : Nat) (copies : List (Nat × Payload)) : State × Bool :=
  let r : Nat × Nat × Nat := match formatHead s t copies with
    | some p => (if slice p.2.2 16 280 = recordWords s t then 1 else 2, p.1, p.2.1)
    | none => (3, 0, 0)
  let v := place 15 14 r.2.1 ||| place 12 8 r.2.2 ||| place 1 0 r.1
  let s := tileEdge (s.setReg (aTile t 0x108) v) t 249
  if r.1 = 1 then (s, true) else (owlTile s t 0x4001 (owlUnit t 0 0 0 0) 0 r.1 v.toNat 0, false)

/-- Whether the clusters in service have trained the zones below `n` (R83). -/
def trainedTo (s : State) (t n : Nat) : Bool :=
  (List.range 4).all fun c => tCluster s t c || (List.range n).all fun z => (trainedZones s t c).contains z

/-- Step 5: with zone 0 trained, the format check; on a match the remaining zones are trained, otherwise the tile
stays held. -/
def bringFormat (s : State) (t : Nat) (copies : List (Nat × Payload)) : State :=
  if hasFormat s t ∧ !(trainedTo s t 1) then s
  else
    let r := formatCheck s t copies
    if r.2 then (List.range 4).foldl (fun s c => trainMove s t c) (setBring r.1 t 6) else setGoal (setBring r.1 t 0) t none

/-- Step 6: with every zone trained, the lanes in service that were off are IDLE (R96, R107), and the tile takes
media requests; in PS1 its lanes sleep. -/
def bringServe (s : State) (t : Nat) : State :=
  if !(trainedTo s t (fmtZones s t)) then s
  else
    let g := aimOf s t
    let s := (List.range 192).foldl (fun s l => if laneSt s t l = 0 then idleLane s t l else s) (arrived s t g)
    if g = 1 then (List.range 192).foldl (fun s l => laneSleep s t l) s else s

/-- A bring-in step whose condition holds completes, and the next begins. -/
def bringStep (s : State) (t : Nat) (ok : Bool) (copies : List (Nat × Payload)) : State :=
  let b := bringOf s t
  if !ok then s
  else if b = 5 then bringFormat s t copies
  else if b = 7 then
    if (List.range 4).any fun c => decide ((s.ctl t c).retract ≠ 0) then s
    else if s.power.boot < 9 then setBring (moOff s t) t 0
    else irqEdge (setBring (moReset s t) t 1) 0 (24 + t)
  else if b = 2 then bringAgree s t
  else if b = 3 then (if speedOk s t 0 ∧ spnState s t = 6 then bringSpun s t else s)
  else if b = 4 then setBring s t 5
  else if b = 6 then bringServe s t
  else if b = 8 then setBring s t (if s.fld (aTile t 0x108) 1 0 = 1 then 6 else 5)
  else s

/-- TILE_BRING_IN_STEP: `ok` says that the step's condition outside the device holds; `copies` are what the heads
have read of the format record. -/
def execTileBringInStep (t : Nat) (ok : Bool) (copies : List (Nat × Payload)) (s : State) : Res :=
  onTile s t (settle (bringStep s t ok copies))

/-- Leaving maintenance: the tile is brought in, past every step whose result stands, but not past the
agreement nor the format check (R461). -/
def leaveMaint (s : State) (t : Nat) : State :=
  let s := s.setB (aMgt 0x20) t false
  if !(s.domOn (domMo t)) ∨ bringOf s t = 7 then s
  else if !(linkLive s t) then setBring s t 1
  else
    let s := bringAgree (setBring s t 2) t
    let s := if bringOf s t = 3 ∧ speedOk s t 0 ∧ spnState s t = 6 then bringSpun s t else s
    let loaded := (List.range 4).all fun c => tCluster s t c || isLoaded s t c
    if bringOf s t = 4 ∧ loaded then setBring s t 5 else s

/-! ### Transitions of a tile (R498) -/

/-- One step down. -/
def stepDown (s : State) (t : Nat) : State :=
  let cur := pwrTile s t
  if cur = 0 then
    let s := (List.range 192).foldl (fun s l => laneSleep s t l) s
    if (List.range 192).all fun l => laneSt s t l ∈ [0, 1, 7] then setPwrTile s t 1 else s
  else if cur = 1 then
    if !(tileQuiet s t) ∨ dirtyOn s t ∨ unrecorded s t then s
    else if (List.range 4).any fun c => isLoaded s t c then
      (List.range 4).foldl (fun s c => unsafeEval (startPark s t c) t c false) s
    else
      let ok := speedOk s t 0
      let s := chOff s t
      let s : State := { s with
        regs := s.regs.filter fun e => match blkOf e.1, regRow s.part e.1 with
          | some (.srv u _, _), some r => !(decide (u = t) && decide (r.keep = .vol))
          | _, _ => true
        tl := { s.tl with readers := s.tl.readers.filter fun e => e.1 / 192 ≠ t }
        buf := { s.buf with trackers := [] } }
      let s := (List.range 4).foldl
        (fun s c => (s.setB (aSrv t c 4) 8 ok).modCtl t c fun x => { x with loops := [] }) s
      setPwrTile s t 2
  else if cur = 2 then
    let s := runClear s t
    if spnState s t ∈ [0, 1, 9] then setPwrTile (moOff s t) t 3 else s
  else s

/-- One step up: above PS2 and PS3 the bring-in does the rest; from PS2 it checks no format again, unless no check
has matched since the spin-up (R69, R498). -/
def stepUp (s : State) (t : Nat) : State :=
  let cur := pwrTile s t
  if cur = 3 then setBring (moOn s t) t 1
  else if cur = 2 then (if speedOk s t 0 ∧ spnState s t = 6 then beginLoad s t 8 else s)
  else if cur = 1 then
    let s := (List.range 192).foldl (fun s l => if laneSt s t l = 1 then wakeLane s t l else s) s
    if (List.range 192).all fun l => !(laneSt s t l ∈ [1, 2]) then setPwrTile s t 0 else s
  else s

/-- A tile that stands still and has requests waiting is raised (R500). -/
def wakeForRequests (s : State) (t : Nat) : State := if Tab.at [] s.buf.held t = [] then s else autoWake s t

/-- A step of a tile on its way. -/
def tileStep (s : State) (t : Nat) : State :=
  match goalOf s t with
  | none => s
  | some g =>
    if bringOf s t ≠ 0 then s
    else
      let s := if pwrTile s t < g then stepDown s t else if g < pwrTile s t then stepUp s t else s
      if pwrTile s t = g ∧ bringOf s t = 0 then wakeForRequests (setGoal s t none) t else s

/-! ### PS4 (R498, R499) -/

/-- A wake event: it ends PS4, or waits for its entry to complete (R499, R500). -/
def wake (s : State) (src : Nat) : State :=
  match s.power.deep with
  | .ps4 => { s.setF (aPwr 0x18) 3 0 src with power := { s.power with deep := .leaving } }
  | .entering none => { s with power := { s.power with deep := .entering (some src) } }
  | _ => s

/-- The flash takes OPTIME (R473). -/
def saveOptime (s : State) : State :=
  if s.fld (aMgt 0x28) 31 28 = 1 then { s with flash := { s.flash with optime := (s.reg (aMgt 0x30)).toNat } } else s

/-- PS4 is reached: D2 and D3 are off, D1 is retained. -/
def enterPs4 (s : State) (w : Option Nat) : State :=
  let s := saveOptime s
  let s := (List.range s.part.ports).foldl (fun s p => irqLevel s 0 p false true) s
  let s := s.volReset fun d => decide (d = 2) || decide (d = 3)
  let s : State := { s with ports := [] }
  let s := finishLong (powerEnded (s.setB (aUcs 0 4) 8 false) 4) .ok []
  let s := (s.setReg (aPwr 0xC) 1).setReg (aPwr 0x10) 2
  let s : State := { s with power := { s.power with deep := .ps4, deepAt := s.now } }
  match w with
  | some src => wake s src
  | none => s

/-- The device leaves PS4 to PS3: D1 leaves retention, D3 and D2 return, what D0 has latched becomes pending, and
an alarm's remaining effects come before any command (R446, R498, R499). -/
def leavePs4 (s : State) : State :=
  let s := (s.setReg (aPwr 0xC) 0xF).setReg (aPwr 0x10) 0
  let ids := s.irq.latched
  let bits := s.power.keyLatch
  let s : State := { s with irq := { s.irq with latched := [] }, power := { s.power with deep := .awake, keyLatch := 0 } }
  let s := (List.range 4).foldl (fun s b => if bits.testBit b then raiseAlarm s b else s) s
  let s := ids.foldl (fun s i => irqEvent s 0 (if i = 0x22 then 16 else 0) i) s
  let s := portsFollow (loadHubRegs s (liveSlot s) fun d => decide (d = 2) || decide (d = 3))
  let s := s.tiles.foldl (fun s t => s.setF (aPwr 0x40) (4 * t + 3) (4 * t) 3) s
  powerEnded s 3

/-- A step of the hub into or out of PS4. -/
def deepStep (s : State) : State :=
  match s.power.deep with
  | .entering w =>
    if (assocIds s) ≠ [] then (assocIds s).foldl (fun s c => endAssoc s c 0 true) s
    else if s.buf.encrypt ≠ [] ∨ s.buf.cipherIn.any fun e => decide (e.2 ≠ []) then s
    else enterPs4 s w
  | .leaving => leavePs4 s
  | _ => s

/-- POWER_TRANSITION_STEP: of tile `t`, or of the hub for t = 8. -/
def execPowerTransitionStep (t : Nat) (s : State) : Res :=
  if t = 8 then .next (settle (deepStep s)) else onTile s t (settle (tileStep s t))

/-! ### Idle times and wake events (R497, R499) -/

/-- IDLE_RETURN: a tile that AUTOWAKE raised has had no media request for IDLE2 seconds. -/
def execIdleReturn (t : Nat) (s : State) : Res :=
  onTile s t
    (let n := s.fld (aPwr 4) 15 8
     if t ∈ s.power.auto ∧ n ≠ 0 ∧ !(moving s t) ∧ Tab.at 0 s.power.lastReq t + ms (1000 * n) ≤ s.now then
       let s : State := { s with power := { s.power with auto := s.power.auto.filter fun x => x ≠ t } }
       if pwrTile s t < aimOf s t then setGoal s t (some (aimOf s t)) else s
     else s)

/-- LANE_IDLE_SLEEP: a lane woken by a request has captured nothing for IDLE1 ms, in PS1. -/
def execLaneIdleSleep (t l : Nat) (s : State) : Res :=
  onLane s t l
    (let n := s.fld (aPwr 4) 7 0
     if pwrTile s t = 1 ∧ !(moving s t) ∧ n ≠ 0 ∧ laneSt s t l = 3 ∧ (s.lane t l).used + ms n ≤ s.now then laneSleep s t l
     else s)

/-- WAKE_N: the pin is low for `ns` (R530). -/
def execWakeN (ns : Nat) (s : State) : Res :=
  .next (if ns < 1000 ∨ s.power.testEn ∨ !(s.bit (aPwr 0x14) 31) then s else wake s 2)

/-- WAKE_TIMER: WAKET seconds of PS4 are over. -/
def execWakeTimer (s : State) : Res :=
  .next
    (let n := s.fld (aPwr 0x14) 23 0
     if n ≠ 0 ∧ s.power.deep = .ps4 ∧ s.power.deepAt + ms (1000 * n) ≤ s.now then wake s 3 else s)

end Sys2Proof.Machine
end

