-- ==== Sys2Proof/Machine/Boot.lean ====
section
/-! DEFINITION. Boot (R504, R476) and the resets of the hub, a tile and the device (R501 to R503, R506, R507,
R521), each with what the chapters' own tables give (R107 to R492). -/

namespace Sys2Proof.Machine

/-! ### The configuration at boot (R476) -/

/-- Whether the boot flash was found usable (R474). -/
def flashUsable (s : State) : Bool := decide (s.fld (aMgt 0x28) 31 28 = 1)

/-- The slot that boot loads, and whether it is the previous one. -/
def bootSlot (s : State) : Option (Nat × Bool) :=
  if !(flashUsable s) then none
  else match ptrRec s with
    | none => none
    | some r => if imgValid s r.cur then some (r.cur, false) else if imgValid s r.prev then some (r.prev, true) else none

/-- The hub's registers in some domains, its store, firmware and names are loaded; MGT tells what was. -/
def loadConfig (s : State) (inDom : Nat → Bool) : State :=
  let b := bootSlot s
  let r := (ptrRec s).getD ⟨0, 0, 0, 0, 0, 0, 0, 0⟩
  let slot := b.map (·.1)
  let back : Bool := match b with | some x => x.2 | none => false
  let s := ((s.setB (aMgt 0) 14 b.isNone).setB (aMgt 0) 15 back)
  let s := match slot with
    | some k => (s.setReg (aMgt 4) (w32 (imgVersion s k))).setReg (aMgt 8) (w32 (imgCrc s k))
    | none => (s.setReg (aMgt 4) 0).setReg (aMgt 8) 0
  let s := (s.setReg (aMgt 0xC) (if slot.isSome then w32 r.prevVersion else 0)).setReg (aMgt 0x10)
    (if slot.isSome then w32 r.prevCrc else 0)
  let s := s.setReg (aMgt 0x18) (w32 r.seq)
  let s := loadDispatch (loadHubImages (loadHubRegs s slot inDom) slot) slot
  if back then owlHub s 0x2004 0 0 0 (s.reg (aMgt 4)).toNat 0 else s

/-- The namespace table is that of the flash copy (R352). -/
def loadNs (s : State) : State :=
  let regs := s.regs.filter fun e => !(decide (aNq 0x40000 ≤ e.1) && decide (e.1 < aNq 0x60000))
  countNs ((if 2 ∈ s.flash.bad then [] else s.flash.ns).foldl (fun s e => s.setReg e.1 e.2) { s with regs := regs })

/-- The levels of the hub's sources as the blocks now give them. -/
def hubLevels (s : State) : State :=
  (List.range s.part.ports).foldl portLevel (mempLevels (persistLevel (alarmLevel s)))

/-! ### Boot (R504) -/

/-- Step 3: the flash is probed (R474), the counters are read, and PCYCLE counts a power-on (R473). What mode and
density a usable flash has is free (entry 67). -/
def bootProbe (s : State) (ok : Bool) : State :=
  let v := s.freeVal
  let s := s.took
  let w := if ok then place 31 28 1 ||| place 27 24 (1 + v.toNat % 3) ||| place 15 0 (64 + v.toNat / 4 % 65472)
    else place 31 28 (2 + v.toNat % 3)
  let s := s.setReg (aMgt 0x28) w
  if s.power.kind ≠ 0 then s
  else
    let n := (if ok then s.flash.pcycle else 0) + 1
    let s : State := if ok then { s with flash := { s.flash with pcycle := n } } else s
    (s.setReg (aMgt 0x2C) (w32 n)).setReg (aMgt 0x30) (w32 (if ok then s.flash.optime else 0))

/-- Step 4: retirement sets and BUF.STALE, namespace table and journal; a region that cannot be read leaves its
part empty, the keys' EXHAUSTED, and is recorded (R198, R352, R378, R422). -/
def bootTables (s : State) : State :=
  let lost (n : Nat) : Bool := !(flashUsable s) || s.flash.bad.contains n
  let s :=
    if s.power.kind ≠ 0 then s
    else if lost 1 then owlHub s 0x7003 0 0 1 0 0
    else s.flash.retire.foldl (fun s e => s.setReg e.1 e.2) s
  let s := if lost 2 then loadNs { s with flash := { s.flash with ns := [] } } else loadNs s
  let s := if s.power.kind = 0 ∧ lost 2 then owlHub s 0x7003 0 0 2 0 0 else s
  if s.power.kind ≠ 0 then s
  else if lost 3 then
    let s := (List.range 2048).foldl (fun s i => s.setSlot i { s.slot i with exhausted := true }) s
    owlHub (s.setF (aCiph 0xC) 1 0 3) 0x7003 0 0 3 0 0
  else s.flash.journal.foldl (fun s e => s.setSlot e.1 { s.slot e.1 with sctr := e.2, res := e.2 }) s

/-- Step 8: every present tile is brought in up to BOOTPS, and the zones follow the tiles' records (R353, R497); with
no configuration no tile enters service (R476). -/
def bootTiles (s : State) : State :=
  let g := s.fld (aPwr 4) 27 24
  let s := s.tiles.foldl (fun s t => s.setF (aPwr 0x40) (4 * t + 3) (4 * t) g) s
  let s : State := { s with power := { s.power with boot := 9 } }
  if s.bit (aMgt 0) 14 then s
  else rebuildZones (s.tiles.foldl (fun s t => if bringOf s t = 7 then s else setBring (moOn s t) t 1) s)

/-- A boot step whose condition holds completes. -/
def bootStep (s : State) (ok : Bool) : State :=
  let b := s.power.boot
  let next (s : State) : State := { s with power := { s.power with boot := b + 1 } }
  if b = 3 then next (bootProbe s ok)
  else if !ok then s
  else if b = 1 then
    let s := if s.power.kind = 0 then owlHub s 0x0002 0 0 0 (s.reg (aMgt 0x24)).toNat (s.reg (aHub 4)).toNat
      else owlHub s 0x1001 0 0 s.power.kind 0 0
    next { s with
      power := { s.power with porstLow := false, warmLow := false, roseAt := s.now }
      tap := { s.tap with drive := false, float := false } }
  else if b = 2 then next (setDom s 1 true)
  else if b = 4 then next (bootTables s)
  else if b = 5 then next (hubLevels (loadConfig s fun d => decide (d < 4)))
  else if b = 6 then next { setDom s 3 true with power := { s.power with calibrated := true }, memp := Memp.reset }
  else if b = 7 then next (portsFollow (setDom s 2 true))
  else if b = 8 then bootTiles s
  else s

/-- BOOT_STEP: `ok` says that the step's condition holds (for step 1: the pin is high); for step 3, that a usable
flash is found. -/
def execBootStep (ok : Bool) (s : State) : Res :=
  .next (if s.power.testEn then s else settle (bootStep s ok))

/-! ### Loss of supply and power-on (R501, R506, R507, R521) -/

/-- Everything volatile is lost: the flash, the media's records and the pins stand, with the time, what has been
emitted, and the model's own counters. -/
def coldState (s : State) (boot : Nat) : State :=
  let z := State.resetOf s.part
  { z with
    now := s.now, free := s.free, pending := s.pending, out := s.out, flash := s.flash
    nq := { z.nq with zones := s.nq.zones, reached := s.nq.recorded, recorded := s.nq.recorded, recNine := s.nq.recNine }
    tap := s.tap
    power := { z.power with
      boot := boot, pfailLow := s.power.pfailLow, keyLow := s.power.keyLow, hot := s.power.hot, testEn := s.power.testEn } }

/-- POWER_ON: the supplies have risen in their order, with PORST_N low. -/
def execPowerOn (s : State) : Res := .next (coldState s (if s.power.testEn then 0 else 1))

/-- SUPPLY_LOSS: before an orderly one OPTIME is written (R473, R507). -/
def execSupplyLoss (orderly : Bool) (s : State) : Res :=
  .next
    (let rest : Bool := s.power.deep == .ps4 || s.tiles.all fun t => !(s.domOn (domMo t)) || tileRetired s t
     coldState (if orderly ∧ rest ∧ s.power.porstLow then saveOptime s else s) 0)

/-- TEST_ENABLE: while TEST_EN is high the device holds itself in power-on reset. -/
def execTestEnable (high : Bool) (s : State) : Res :=
  .next
    (if s.power.testEn = high then s
     else coldState { s with power := { s.power with testEn := high } } (if high then 0 else 1))

/-! ### PORST_N and WARM_N (R501, R502) -/

/-- PWR.RSTLAST and PWR.RSTCNT take a reset of a kind (R508). -/
def noteReset (s : State) (kind t : Nat) : State :=
  (s.setReg (aPwr 0x1C) (place 10 8 t ||| place 3 0 kind)).bump (aPwr (0x20 + 4 * kind))

/-- Tiles whose combs are on their heads: their motion domain is held out of reset until the retract ends. -/
def loadedTiles (s : State) : List Nat :=
  s.tiles.filter fun t => s.domOn (domMo t) && !(noneLoaded s t || (List.range 4).all fun c => !(isLoaded s t c))

/-- Every loaded comb of a tile retracts, and the spindle gates go low after it (R274). -/
def retractTile (s : State) (t : Nat) : State :=
  (List.range 4).foldl (fun s c => startRetract s t c false) s

/-- Open merge windows end with their summaries (R492). -/
def owlWindowsEnd (s : State) : State :=
  s.owl.wins.foldl owlSummary { s with owl := { s.owl with wins := [] } }

/-- The keys after PORST_N or WARM_N (R427): EMPTY, with GEN and the counters kept. -/
def emptySlots (s : State) : State :=
  { s with slots := (s.slots.map fun e =>
      (e.1, { Slot.empty with
        gen := e.2.gen, exhausted := e.2.exhausted, sctr := e.2.sctr, res := e.2.res })).filter fun e =>
          decide (e.2 ≠ Slot.empty) }

/-- A reset by a pin, at its fall: keys and cache are gone, everything is reset but what AON keeps, and the
motion of the tiles that still retract (R389, R427, R502, R503). -/
def pinReset (s : State) (kind : Nat) : State :=
  let held := loadedTiles s
  let s := held.foldl retractTile s
  let s := owlWindowsEnd (s.tiles.foldl stopChannels s)
  let stays (d : Nat) : Bool := held.any fun t => d = domMo t
  let latch := s.power.keyLatch
  let s := (s.volReset fun d => !(stays d)).cfgReset fun d => !(stays d)
  let s := held.foldl (fun s t => setDom s (domMo t) true) s
  let y := s.tl
  let keep (t : Nat) : Bool := held.contains t
  let s : State := { s with
    irq := { targets := s.irq.targets.filter fun e => keep (e.1 / 32 - 1) && decide (32 ≤ e.1)
             vanished := s.irq.vanished.filter fun e => keep (e.1.1 - 1) && decide (e.1.1 ≠ 0)
             latched := [] }
    owl := { s.owl with held := [], heldLost := [] }
    mgmt := { Mgmt.reset with event := s.mgmt.event }
    ports := []
    nq := { Nq.reset with
      zones := s.nq.zones, reached := s.nq.recorded, recorded := s.nq.recorded, recNine := s.nq.recNine
      nextCmd := s.nq.nextCmd, nextPlace := s.nq.nextPlace }
    buf := Buf.reset
    memp := Memp.reset
    tl := { TileSide.reset with
      arms := y.arms.filter fun e => keep (e.1 / 4)
      readers := y.readers.filter fun e => keep (e.1 / 192)
      headS := y.headS.filter fun e => keep (e.1 / 96)
      ctls := y.ctls.filter fun e => keep (e.1 / 4)
      spns := y.spns.filter fun e => keep e.1
      mirror := y.mirror
      causes := y.causes }
    power := { Power.reset with
      boot := 1, kind := kind, bring := held.map fun t => (t, 7)
      porstLow := decide (kind = 1) || s.power.porstLow, warmLow := decide (kind = 2) || s.power.warmLow
      pfailLow := s.power.pfailLow, keyLow := s.power.keyLow, hot := s.power.hot, testEn := s.power.testEn
      roseAt := s.power.roseAt, calibrated := decide (kind = 2) && s.power.calibrated } }
  noteReset ((emptySlots s).orReg (aCiph 8) (place 3 0 latch)) kind 0

/-- PORST_N: the pin has been low for `ns`; a pulse below 1 µs is ignored (R501, R530; entry 68). -/
def execPorstN (ns : Nat) (s : State) : Res :=
  .next (if ns < 1000 ∨ s.power.testEn ∨ s.power.boot = 0 then s else pinReset s 1)

/-- WARM_N: as PORST_N; with both low, PORST_N applies. -/
def execWarmN (ns : Nat) (s : State) : Res :=
  .next
    (if ns < 1000 ∨ s.power.testEn ∨ s.power.boot = 0 then s
     else if s.power.porstLow then { s with power := { s.power with warmLow := true } }
     else pinReset s 2)

/-! ### The hub soft reset -/

/-- Every association and command ends, with no completion (R323, R360): boundaries as under a queue reset. -/
def endAll (s : State) : State :=
  let s := (assocIds s).foldl (fun s c => endAssoc s c 0 false) s
  (liveCmds s).foldl (fun s e => removeCmd (if (s.cmd e.1).cls = .rd then endMedia s e.1 else s) e.1) s

/-- Units whose encryption was still at the hub stay dirty, to be issued again (R427); a running INVALL ends
(R389). -/
def softLine (s : State) (l : Line) : Line :=
  { l with
    inval := false
    units := l.units.map fun e =>
      let lba := 16 * l.line + e.1
      let back := s.buf.encrypt.any fun i => decide (i.nsid = l.nsid) && decide (i.lba = lba)
      (e.1, { e.2 with inflight := e.2.inflight && !back, again := e.2.again && !back, fill := none, gone := false, cover := [] }) }

/-- HUB_SOFT_RESET: D1 only (R501, R503). -/
def hubSoftReset (s : State) : State :=
  let s := endAll s
  let s := s.tiles.foldl (fun s t => (openCtxs s t).foldl (fun s e => endCtx s t e.1) s) s
  let links := s.tiles.filter fun t => s.domOn (domMo t)
  let mempRegs := s.regs.filter fun e => decide (aMemp 0 ≤ e.1) && decide (e.1 < aCiph 0)
  let flash := s.reg (aMgt 0x28)
  let s := s.volReset fun d => decide (d = 1)
  let s := (mempRegs.foldl (fun s e => s.setReg e.1 e.2) s).setReg (aMgt 0x28) flash
  let b := s.buf
  let s : State := { s with
    irq := { targets := s.irq.targets.filter fun e => decide (32 ≤ e.1)
             vanished := s.irq.vanished.filter fun e => decide (e.1.1 ≠ 0), latched := [] }
    mgmt := { Mgmt.reset with event := s.mgmt.event, err := s.mgmt.err, preamp := s.mgmt.preamp }
    nq := { Nq.reset with
      zones := s.nq.zones, reached := s.nq.reached, recorded := s.nq.recorded, recNine := s.nq.recNine
      nextCmd := s.nq.nextCmd, nextPlace := s.nq.nextPlace }
    buf := { Buf.reset with
      lines := b.lines.map fun e => (e.1, softLine s e.2), plru := b.plru
      copies := b.copies.map (softLine s), orphans := b.orphans
      stage := (dropPages (fun p => decide (p.cmd ≠ 0)) b.stage) }
    slots := s.slots.map fun e => (e.1, { e.2 with record := none, waiting := false })
    power := { s.power with goal := [], auto := [] }
    tl := { s.tl with packets := [] } }
  let s := hubLevels (loadNs (loadConfig s fun d => decide (d = 1)))
  let s := links.foldl
    (fun s t => ((setLinkState s t 1).modLink t 0 freshFlits).modLink t 1 freshFlits) s
  noteReset (owlHub s 0x1001 0 0 3 0 0) 3 0

/-- HUB_SOFT_RESET. -/
def execHubSoftReset (s : State) : Res :=
  .next (if s.power.boot < 6 ∨ s.power.deep = .ps4 then s else hubSoftReset s)

/-! ### The reset of a tile -/

/-- Units in flight to a tile stay dirty, and are issued again after its bring-in (R389); those whose encryption is
still at the hub go on. -/
def reissueLine (s : State) (t : Nat) (l : Line) : Line :=
  { l with units := l.units.map fun e =>
      let lba := 16 * l.line + e.1
      let atHub := s.buf.encrypt.any fun i => decide (i.nsid = l.nsid) && decide (i.lba = lba)
      if e.2.inflight ∧ psaTile (psaOf s l.nsid lba) = t ∧ !atHub then (e.1, { e.2 with inflight := false, again := false, elig := true, cover := [] })
      else e }

/-- Sectors at a tile that are not yet written end with WFAIL (R170): their units are eligible again (R377). -/
def failWrites (s : State) (t : Nat) : State :=
  let es := (s.wr t).inQ ++ (List.range 4).flatMap (s.wrQ t) ++ (List.range 96).flatMap fun j => (s.headW (96 * t + j)).ser
  (es.filter fun e => e.kind == .host || e.kind == .marker).foldl (fun s e => applyResult s e.nsid e.lba e.psa .wfail) s

/-- A tile's reset (R501, R502): its reads are dropped, its contexts end, its domains are reset, after the retract of
loaded heads, and it is brought in again. -/
def tileReset (s : State) (t : Nat) : State :=
  let s := noteReset (owlPost s 0x1001 0 (owlUnit t 0 0 0 0) 0 4 0 0) 4 t
  let s := failWrites (dropTileReads (owlDropHeld s t) t) t
  let b := s.buf
  let s : State := { s with buf := { b with
    lines := b.lines.map fun e => (e.1, reissueLine s t e.2), copies := b.copies.map (reissueLine s t)
    orphans := b.orphans.filter fun e => decide (psaTile (psaOf s e.1 e.2) ≠ t) } }
  let hold := !(noneLoaded s t)
  let on := s.domOn (domMo t)
  let s := setGoal (if hold then retractTile s t else s) t none
  let s := if s.domOn (domCh t) then chOff s t else s
  let s := if hold then setBring (setLinkState s t 1) t 7
    else if on then irqEdge (setBring (moReset s t) t 1) 0 (24 + t)
    else setBring (moOn s t) t 1
  match s.mgmt.long with
  | some l => if l.op.opcode = 0x22 ∧ beAt l.op.param 0 1 = t then finishLong s .ok [] else s
  | none => s

/-- TILE_RESET. -/
def execTileReset (t : Nat) (s : State) : Res :=
  onTile s t (if s.power.boot < 9 ∨ s.power.deep ≠ .awake then s else settle (tileReset s t))

/-! ### The reset that a RESET operation asks for (R457) -/

/-- It begins. -/
def beginReset (s : State) : State :=
  match s.mgmt.rst with
  | none => s
  | some (kind, t) =>
    let s : State := { s with mgmt := { s.mgmt with rst := none } }
    if kind = 1 then hubSoftReset s else settle (tileReset s t)

/-- RESET_START: 10 ms after the reply was made ready. -/
def execResetStart (s : State) : Res := .next (beginReset s)

end Sys2Proof.Machine
end

