-- ==== Sys2Proof/Machine/Commit.lean ====
section
/-! DEFINITION. The staged slot and its erasing and programming (R467, R474), and what COMMIT and REVERT check
and do (R468 to R471, with the commit checks of R51, R67, R79, R254, R264, R324, R409, R534 and the busy rules of
R70, R277, R321, R409). -/

namespace Sys2Proof.Machine

/-! ### The staged slot (R467) -/

/-- The roles of the slots; with no pointer record the staged slot is 0, the current 1 and the previous 2. -/
def roles (s : State) : PtrRec := (ptrRec s).getD ⟨0, 1, 2, 0, 0, 0, 0, 0⟩

/-- The flash offset of the staged slot. -/
def stagedBase (s : State) : Nat := slotBase (roles s).staged

/-- Stretches of free bytes less the addresses from `lo` up to `hi`. -/
def cutTorn (ts : List (Nat × Nat × Nat)) (lo hi : Nat) : List (Nat × Nat × Nat) :=
  ts.flatMap fun e =>
    (if e.1 < lo then [(e.1, min (e.1 + e.2.1) lo - e.1, e.2.2)] else []) ++
      (if hi < e.1 + e.2.1 then [(max e.1 hi, e.1 + e.2.1 - max e.1 hi, e.2.2)] else [])

/-- A stretch whose program or erase has begun holds free bytes until it is done. -/
def tearFlash (s : State) (lo n : Nat) : State :=
  ({ s with flash := { s.flash with
    cells := s.flash.cells.filter fun e => !(decide (lo ≤ e.1) && decide (e.1 < lo + n))
    torn := cutTorn s.flash.torn lo (lo + n) ++ [(lo, n, s.free)] } } : State).took

/-- A stretch is programmed: each of its bytes reads as given. -/
def writeFlash (s : State) (lo : Nat) (bs : Payload) : State :=
  let torn := cutTorn s.flash.torn lo (lo + bs.length)
  let cells := ((List.range bs.length).zip bs).foldl (fun t e => Tab.to 0xFF t (lo + e.1) e.2) s.flash.cells
  { s with flash := { s.flash with cells := cells, torn := torn } }

/-- MGT.STAGED.STATE. -/
def stagedState (s : State) : Nat := s.fld (aMgt 0x14) 31 30

/-- The staged slot is being erased. -/
def eraseStart (s : State) : State := (tearFlash s (stagedBase s) 16777216).setReg (aMgt 0x14) (place 31 30 2)

/-- Its erase has ended; after a failure its contents are unknown. -/
def eraseEnd (s : State) (ok : Bool) : State :=
  let lo := stagedBase s
  if ok then
    { s.setReg (aMgt 0x14) 0 with flash := { s.flash with torn := cutTorn s.flash.torn lo (lo + 16777216) } }
  else s.setReg (aMgt 0x14) (place 31 30 3)

/-- Bytes are being programmed: what the slot will hold is the AND of its bytes and the new ones. -/
def programStart (s : State) (m : MgOp) (off : Nat) (bs : Payload) : State :=
  let lo := stagedBase s + off
  let new := (List.range bs.length).map fun i => flashByte s (lo + i) &&& bs.getD i 0
  beginLong (tearFlash s lo bs.length) m (some (.program off new))

/-- They have been programmed and verified. -/
def programEnd (s : State) (off : Nat) (bs : Payload) : State :=
  let high := max (s.fld (aMgt 0x14) 16 0) ((off + bs.length + 255) / 256)
  (writeFlash s (stagedBase s + off) bs).setReg (aMgt 0x14) (place 31 30 1 ||| place 16 0 high)

/-! ### Checks of an image (R464 to R466, R468) -/

/-- The engine whose store a UCODE section names: of the first tile where it is for every tile. -/
def codeEngine (index : Nat) : Option Nat :=
  let hi := index / 256
  let k := index % 256
  if hi = 0 then (if k = 0 then some 0 else none)
  else if hi ≤ 8 ∧ k < 6 then some (1 + 6 * (hi - 1) + k)
  else if hi = 0xFF ∧ k < 6 then some (1 + k)
  else none

/-- SLEN is one that R465 allows. -/
def sectLenOk (x : Sect) : Bool :=
  if x.type = 1 then decide (x.len % 8 = 0)
  else if x.type = 2 then
    match codeEngine x.index with
    | some e => decide (x.len = 4 * imageWords e)
    | none => true
  else if x.type = 3 then decide (x.len ≤ 1048576)
  else if x.type = 4 then decide (x.len % 4 = 0) && decide (x.len ≤ 960)
  else if x.type = 5 then decide (1 ≤ x.len) && decide (x.len ≤ 223)
  else true

/-- TYPE and INDEX are ones that R465 lists; SOWN names owner NQNs 0 to 2,047. -/
def sectIndexOk (x : Sect) : Bool :=
  if x.type = 1 then decide (x.index = 0xFFFF ∨ x.index = 0xFFFE ∨ x.index < 8)
  else if x.type = 2 then (codeEngine x.index).isSome
  else if x.type = 3 then decide (x.index < 4)
  else if x.type = 4 then decide (x.index < 32 ∨ x.index = 0xFF)
  else if x.type = 5 then decide (x.index < 2050)
  else false

/-- Step 2 of R468: LENGTH, SECTIONS and the section lengths. -/
def lengthsOk (s : State) (k : Nat) : Bool :=
  imgLenOk s k && decide (1 ≤ imgCount s k) && decide (imgCount s k ≤ 1024) && (imgSects s k).all sectLenOk

/-- Whether two sections overlap. -/
def sectsMeet (x y : Sect) : Bool := decide (x.off < y.off + y.len) && decide (y.off < x.off + x.len)

/-- The directory: sections behind it, before the trailing CRC, aligned, apart, and no two alike. -/
def directoryOk (s : State) (k : Nat) : Bool :=
  let xs := imgSects s k
  xs.all (fun x => sectIndexOk x && decide (x.off % 4 = 0) && decide (32 + 16 * imgCount s k ≤ x.off) &&
      decide (x.off + x.len ≤ imgLen s k - 4)) &&
    decide (xs.Pairwise fun x y => sectsMeet x y = false ∧ ¬ (x.type = y.type ∧ x.index = y.index))

/-- The header's MAGIC, FORMAT, PART, VERSION and zero bytes. -/
def headerFieldsOk (s : State) (k : Nat) : Bool :=
  let part := slotNum s k 6 2
  decide (slotNum s k 0 4 = 0x49424E44) && decide (slotNum s k 4 2 = 1) &&
    decide (part = 0 ∨ part = s.part.number) && decide (imgVersion s k ≠ 0) &&
    decide (imgVersion s k ≠ (s.reg (aMgt 4)).toNat) && decide (slotNum s k 18 14 = 0)

/-- A register entry of a section: class CFG, and its fields in range (R466); `c` holds what the image makes
of the registers. -/
def entryOk (c : State) (a : Nat) (w : Word) : Bool :=
  match blkOf a, regRow c.part a with
  | some (b, o), some r => decide (r.keep = .cfg) && r.inRange w && fieldsOk c b o w
  | _, _ => false

/-- The rules of R465 and R466 for the contents of a section. -/
def sectOk (s c : State) (k : Nat) (x : Sect) : Bool :=
  let bs := sectBytes s k x
  if x.type = 1 then (regEntries bs).all fun e =>
    if x.index = 0xFFFF then decide (e.1 < 0x10000000) && entryOk c e.1 e.2
    else decide (e.1 < 0x1000000) && entryOk c (tileBase (if x.index = 0xFFFE then 0 else x.index) + e.1) e.2
  else if x.type = 4 then (List.range (x.len / 4)).all fun i =>
    decide (0x10 ≤ beAt bs (4 * i) 1) && decide (beAt bs (4 * i + 3) 1 = 0)
  else true

/-- What an image makes of the registers, loaded for the hub and every present tile. -/
def candidate (s : State) (k : Nat) : State :=
  s.tiles.foldl (fun s t => loadTileRegs s (some k) t true true)
    (loadHubImages (loadHubRegs s (some k) fun _ => true) (some k))

/-- A zone's registers are valid (R49, R50, R67). -/
def zoneOk (c : State) (t z : Nat) : Bool :=
  let f := zoneFirst c t z
  decide (zoneBits c t z % 30000 = 0) && decide (18688 ≤ dataSpan c t z) &&
    decide (zoneSect c t z = 600 * dataSpan c t z / 37376) && decide (1 ≤ zoneSect c t z) &&
    decide (zoneSect c t z ≤ 16383) && decide (f % 4 = 0) && decide (f < fmtBands c t) &&
    (if z = 0 then decide (f = 0) else decide (zoneFirst c t (z - 1) < f))

/-- A tile's format registers are valid (R48 to R50, R67). -/
def formatOk (c : State) (t : Nat) : Bool :=
  decide (c.fld (aTile t 0x100) 31 24 = 1) && decide (4 ≤ fmtBands c t) && decide (fmtBands c t ≤ 128) &&
    decide (fmtBands c t % 4 = 0) && decide (1 ≤ fmtZones c t) && decide (fmtZones c t ≤ 32) &&
    decide (6 ≤ fmtRsv c t) && decide (fmtRsv c t % 2 = 0) && decide (fmtRsv c t < fmtTrk c t) &&
    decide (fmtTrk c t % 2 = 0) && decide (fmtBands c t * fmtTrk c t ≤ 16777214) &&
    (List.range (fmtZones c t)).all (zoneOk c t) &&
    (List.range 32).all fun z => decide (z < fmtZones c t) ||
      (decide (c.reg (aTile t (0x200 + 8 * z)) = 0) && decide (c.reg (aTile t (0x204 + 8 * z)) = 0))

/-- Some word of a fallback set of `n` sections is not zero (R254). -/
def setNonzero (c : State) (a n : Nat) : Bool :=
  (List.range n).any fun i => (List.range 6).any fun j => decide (c.reg (a + 32 * i + 4 * j) ≠ 0)

/-- The commit checks of a tile's chapters: format, spindle speed (R51), target 0 of every zone (R79), fallback
sets (R254), and MW (R264). -/
def tileConfigOk (c : State) (t : Nat) : Bool :=
  let rpm := c.fld (aSpn t 0xC) 15 0
  formatOk c t && decide ((rpmLim c t).2 ≤ rpm) && decide (rpm ≤ (rpmLim c t).1) &&
    (List.range (fmtZones c t)).all (fun z => decide (c.reg (aTile t (0x400 + 32 * z)) ≠ 0)) &&
    (List.range 4).all (fun k => setNonzero c (aCtl t k 0x5000) 8 &&
      (List.range 24).all fun h => setNonzero c (aCtl t k (0x4000 + 128 * h)) 4) &&
    decide (2048 ≤ mwOf (spnPer c t) (spnWin c t))

/-- The ranges of a port's registers that depend on one another (R324). -/
def portConfigOk (c : State) (p : Nat) : Bool :=
  let ecn := c.reg (aHpt p 0x10)
  let pfc := c.reg (aHpt p 0xC)
  (decide (fld pfc 7 0 = 0) || decide (fld pfc 23 16 < fld pfc 31 24)) &&
    (!(ecn.getLsbD 31) || (decide (1 ≤ fld ecn 27 24) && decide (fld ecn 27 24 ≤ 8) && decide (fld ecn 23 16 ≠ 0) &&
      decide (fld ecn 15 8 ≠ 0))) &&
    (decide (c.fld (aHpt p 0) 7 4 = 0) || decide (c.fld (aHpt p 8) 12 8 ≠ 0))

/-- The commit checks of the hub's chapters: SALT (R409), the ports (R324), and NAMES 0 and 1 (R534). -/
def hubConfigOk (c : State) : Bool :=
  decide (c.fld (aCiph 0) 20 0 ≠ 0x1FFFFF) && (List.range c.part.ports).all (portConfigOk c) &&
    decide (Tab.at [] c.mgmt.names 0 ≠ []) && decide (Tab.at [] c.mgmt.names 1 ≠ [])

/-- Step 3 of R468. -/
def fieldsValid (s : State) (k : Nat) : Bool :=
  headerFieldsOk s k && directoryOk s k &&
    (let c := candidate s k
     (imgSects s k).all (sectOk s c k) && hubConfigOk c && s.tiles.all (tileConfigOk c))

/-- Step 4 of R468. -/
def crcsOk (s : State) (k : Nat) (crc : Word) : Bool :=
  decide (crc32c (slotBytes s k 0 (imgLen s k)) = crc) && imgValid s k &&
    (imgSects s k).all fun x => decide ((crc32c (sectBytes s k x)).toNat = x.crc)

/-! ### Busy rules (R468 order 6) -/

/-- Whether a tile is in service: its link is, its bring-in is complete, its format matched, and it is not
retired. -/
def tileServes (s : State) (t : Nat) : Bool :=
  s.linkUp t && decide (bringOf s t = 0) && !(formatBad s t) && !(tileRetired s t)

/-- Whether a store runs another image than a slot names. -/
def storeChanges (s : State) (k e : Nat) : Bool :=
  let img := storeImage s k e
  let b := bankLive s e
  !(decide (b.dflt = img.isNone) && (img.isNone || decide (img = some b.words)))

/-- The engines whose stores a commit reaches at once. -/
def liveEngines (s : State) : List Nat :=
  0 :: (s.tiles.filter (tileServes s)).flatMap fun t => tileEngines t true (s.domOn (domCh t))

/-- R70: the format of a tile in service changes. -/
def formatBusy (s c : State) (t : Nat) : Bool :=
  tileServes s t && ([0x100, 0x104, 0x110, 0x114, 0x118, 0x11C] ++ (List.range 64).map fun i => 0x200 + 4 * i).any
    fun o => decide (c.reg (aTile t o) ≠ s.reg (aTile t o))

/-- R277: TARGET, MOTOR or PWM changes of a spindle that is driven. -/
def spindleBusy (s c : State) (t : Nat) : Bool :=
  s.domOn (domMo t) && !(spnState s t = 0 || spnState s t = 1 || spnState s t = 9) &&
    [0xC, 0x10, 0x18].any fun o => decide (c.reg (aSpn t o) ≠ s.reg (aSpn t o))

/-- R321: the mode, MAC base, addresses or VLAN of a sub-port with an open queue pair change. -/
def portConfigBusy (s c : State) (p : Nat) : Bool :=
  (List.range 4).any fun k => decide (pairsOn s p k ≠ []) &&
    (([0, 0x18, 0x1C] ++ (List.range 16).map fun i => 0x100 + 64 * k + 4 * i).any
        (fun o => decide (c.reg (aHpt p o) ≠ s.reg (aHpt p o))) ||
      decide (c.fld (aHpt p 0x14) 11 0 ≠ s.fld (aHpt p 0x14) 11 0))

/-- A busy rule holds against the image of a slot. -/
def commitBusy (s : State) (k : Nat) : Bool :=
  let c := candidate s k
  powerBusy s || s.tiles.any (fun t => formatBusy s c t || spindleBusy s c t) ||
    (List.range s.part.ports).any (portConfigBusy s c) ||
    (decide (c.fld (aCiph 0) 20 0 ≠ s.fld (aCiph 0) 20 0) && decide (nsList s ≠ [])) ||
    (liveEngines s).any fun e => storeChanges s k e && (swapPending s e || decide (drain s e ≠ 0))

/-- Steps 3 to 6 of R468 for a COMMIT. -/
def commitCheck (s : State) (base : Nat) (crc : Word) : Status :=
  let k := (roles s).staged
  if !(lengthsOk s k) then .badLength
  else if !(fieldsValid s k) then .badField
  else if !(crcsOk s k crc) then .badCrc
  else if base ≠ (s.reg (aMgt 4)).toNat then .versionMismatch
  else if commitBusy s k then .storeBusy
  else .ok

/-- The checks of a REVERT after its PLEN (R470). -/
def revertCheck (s : State) (base : Nat) : Status :=
  let k := (roles s).prev
  if !(imgValid s k) then .badCrc
  else if base ≠ (s.reg (aMgt 4)).toNat then .versionMismatch
  else if commitBusy s k then .storeBusy
  else if s.reg (aMgt 0xC) = 0 then .noPrevious
  else .ok

/-! ### The steps of a commit (R469, R470) -/

/-- The pointer record of a commit or a revert. -/
def nextRec (s : State) (revert : Bool) : PtrRec :=
  let r := roles s
  if revert then ⟨r.seq + 1, r.prev, r.cur, r.staged, r.prevVersion, r.prevCrc, r.version, r.crc⟩
  else ⟨r.seq + 1, r.staged, r.cur, r.prev, imgVersion s r.staged, imgCrc s r.staged, r.version, r.crc⟩

/-- A pointer record is written in the place of the one that does not count; a failed write leaves none there. -/
def putRec (s : State) (r : Option PtrRec) : State :=
  let toA : Bool := match s.flash.ptrA, s.flash.ptrB with
    | some a, some b => decide (a.seq < b.seq)
    | some _, none => false
    | none, _ => true
  { s with flash := if toA then { s.flash with ptrA := r } else { s.flash with ptrB := r } }

/-- Step 2: versions and COMMITS. -/
def setVersions (s : State) (r : PtrRec) : State :=
  (((((s.setReg (aMgt 4) (w32 r.version)).setReg (aMgt 8) (w32 r.crc)).setReg (aMgt 0xC) (w32 r.prevVersion)).setReg
    (aMgt 0x10) (w32 r.prevCrc)).setReg (aMgt 0x18) (w32 r.seq)).setF (aMgt 0) 15 14 0

/-- Step 4 for a tile in service; one that does not agree is held (R472). -/
def takeConfig (s : State) (t : Nat) : State :=
  let r := checkAgreement (sendSections s t) t
  if r.2 then r.1 else setLinkState r.1 t 2

/-- A tile held for its versions is tried again (R472). -/
def retryHeld (s : State) (t : Nat) : State :=
  if s.linkState t = 2 ∧ bringOf s t = 0 ∧ !(inMaint s t) then bringAgree (setBring s t 2) t else s

/-- Steps 3 and 4; a device that had no configuration brings its tiles in (R534). -/
def configTakes (s : State) (k : Nat) (blank : Bool) : State :=
  let served := s.tiles.filter (tileServes s)
  let change := storeChanges s k 0
  let s := loadHubImages (loadHubRegs s (some k) fun _ => true) (some k)
  let s := portsFollow (hubLevels (if change then swapInStore s 0 (storeImage s k 0) else s))
  let s := served.foldl takeConfig s
  let s := s.tiles.foldl retryHeld s
  if blank ∧ 9 ≤ s.power.boot then
    let g := s.fld (aPwr 4) 27 24
    rebuildZones (s.tiles.foldl (fun s t =>
      setBring (moOn (s.setF (aPwr 0x40) (4 * t + 3) (4 * t) g) t) t 1) s)
  else s

/-- Steps 1 to 5: the pointer record has been written. -/
def commitDone (s : State) (revert : Bool) : State :=
  let blank := s.bit (aMgt 0) 14
  let r := nextRec s revert
  let s := setVersions (putRec s (some r)) r
  let s := configTakes (if revert then s else eraseStart s) r.cur blank
  let s := owlHub (irqEdge s 0 72) (if revert then 0x2002 else 0x2001) 0 0 0 r.version r.crc
  finishLong s .ok (beBytes 4 r.version ++ beBytes 4 r.crc)

/-! ### The end of a flash operation (R474) -/

/-- An erase or a program has ended: first the erase that no operation waits for, then the executor's own. -/
def flashDone (s : State) (ok : Bool) : State :=
  let mine : Option FlashOp := s.mgmt.long.bind fun l => l.flash
  if mine = some .eraseStaged then finishLong (eraseEnd s ok) (if ok then .ok else .storeBusy) []
  else if stagedState s = 2 then eraseEnd s ok
  else match mine with
    | some (.program off bs) =>
      if ok then finishLong (programEnd s off bs) .ok [] else finishLong s .storeBusy []
    | some (.pointer revert) => if ok then commitDone s revert else finishLong (putRec s none) .storeBusy []
    | _ => s

end Sys2Proof.Machine
end

