-- ==== Sys2Proof/Machine/Mgmt.lean ====
section
/-! DEFINITION. The management port's transactions (R451 to R456), the operations of R457 with their checks
(R458 to R462, R467 to R470), the management commands of an association (R460), and the hub's own periodic
checks and writes (R472 to R474). -/

namespace Sys2Proof.Machine

/-! ### The operations' own effects -/

/-- Whether `n` bytes of a PARAM from offset `o` on are zero. -/
def zeroAt (m : MgOp) (o n : Nat) : Bool := decide (beAt m.param o n = 0)

/-- IDENT. -/
def identOp (s : State) (m : MgOp) : State :=
  checkedOp s m (decide (m.param ≠ [])) false none
    (finishOp s m .ok ([aHub 0, aHub 4, aMgt 0x24, aMgt 4].flatMap fun a => wordBytes (viewReg s a)))

/-- VERSION. -/
def versionOp (s : State) (m : MgOp) : State :=
  checkedOp s m (decide (m.param ≠ [])) false none
    (finishOp s m .ok (([4, 8, 0xC, 0x10, 0x18, 0x14] ++ (List.range 8).map fun t => 0x40 + 4 * t).flatMap
      fun o => wordBytes (viewReg s (aMgt o))))

/-- The words that a REG_READ or REG_WRITE names. -/
def regWords (m : MgOp) : Nat := if m.opcode = 2 then beAt m.param 4 2 else m.param.length / 4 - 1

/-- Whether a PARAM has the length of a REG_READ or REG_WRITE. -/
def regLenBad (m : MgOp) : Bool :=
  if m.opcode = 2 then decide (m.param.length ≠ 8) || decide (regWords m = 0) || decide (1024 < regWords m)
  else decide (m.param.length % 4 ≠ 0) || decide (m.param.length < 8) || decide (1023 < regWords m)

/-- Whether an address or a zero field is out of range. -/
def regFldBad (m : MgOp) : Bool :=
  decide (beAt m.param 0 4 % 4 ≠ 0) || (decide (m.opcode = 2) && !(zeroAt m 6 2))

/-- Whether an access of a register operation waits for a tile's link (R37). -/
def regWaits (s : State) (m : MgOp) : Bool :=
  !(regLenBad m) && !(regFldBad m) && decide (m.rsv = 0) && (List.range (regWords m)).any fun i =>
    let a := beAt m.param 0 4 + 4 * i
    accessOk s (opWho m) a && decide (gateOf s a = .wait)

/-- A word read for an operation (R458, R460). -/
def readWord (s : State) (who : Who) (a : Nat) : State × Word × Status :=
  if accessOk s who a then readReg s who a else (s, 0, .badField)

/-- A word written for an operation. -/
def writeWord (s : State) (who : Who) (a : Nat) (w : Word) : State × Status :=
  if accessOk s who a then writeReg s who a w else (s, .badField)

/-- REG_READ: every word is read, and the status is the first that is not ST_OK (R458). -/
def regReadOp (s : State) (m : MgOp) : State :=
  checkedOp s m (regLenBad m) (regFldBad m) none
    (let r := (List.range (regWords m)).foldl
      (fun (r : State × Payload × Status) i =>
        let x := readWord r.1 (opWho m) (beAt m.param 0 4 + 4 * i)
        (x.1, r.2.1 ++ wordBytes x.2.1, r.2.2.orElse x.2.2)) (s, [], .ok)
     finishOp r.1 m r.2.2 r.2.1)

/-- REG_WRITE. -/
def regWriteOp (s : State) (m : MgOp) : State :=
  checkedOp s m (regLenBad m) (regFldBad m) none
    (let r := (List.range (regWords m)).foldl
      (fun (r : State × Status) i =>
        let x := writeWord r.1 (opWho m) (beAt m.param 0 4 + 4 * i) (beWord m.param (4 + 4 * i))
        (x.1, r.2.orElse x.2)) (s, .ok)
     finishOp r.1 m r.2 [])

/-- STAGE_CLEAR: an erase that is running already is the one (R467). -/
def stageClearOp (s : State) (m : MgOp) : State :=
  checkedOp s m (decide (m.param ≠ [])) false none
    (if !(flashUsable s) then finishOp s m .storeBusy []
     else beginLong (if stagedState s = 2 then s else eraseStart s) m (some .eraseStaged))

/-- STAGE_WRITE. -/
def stageWriteOp (s : State) (m : MgOp) : State :=
  let off := beAt m.param 0 4
  let bs := m.param.drop 4
  checkedOp s m (decide (m.param.length ≤ 4)) (decide (16777216 < off + bs.length)) none
    (if !(flashUsable s) ∨ stagedState s = 2 then finishOp s m .storeBusy [] else programStart s m off bs)

/-- STAGE_READ. -/
def stageReadOp (s : State) (m : MgOp) : State :=
  let off := beAt m.param 0 4
  let n := beAt m.param 4 2
  checkedOp s m (decide (m.param.length ≠ 8) || decide (n = 0) || decide (4096 < n))
    (decide (16777216 < off + n) || !(zeroAt m 6 2)) none
    (if flashUsable s then finishOp s m .ok ((List.range n).map fun i => flashByte s (stagedBase s + off + i))
     else finishOp s m .storeBusy [])

/-- COMMIT: its checks, then the pointer record (R468). -/
def commitOp (s : State) (m : MgOp) : State :=
  let badImage := flashUsable s && (longNow s).isNone && !(lengthsOk s (roles s).staged)
  checkedOp s m (decide (m.param.length ≠ 8) || badImage) false none
    (if !(flashUsable s) then finishOp s m .storeBusy []
     else match commitCheck s (beAt m.param 0 4) (beWord m.param 4) with
       | .ok => beginLong s m (some (.pointer false))
       | st => finishOp s m st [])

/-- REVERT (R470). -/
def revertOp (s : State) (m : MgOp) : State :=
  checkedOp s m (decide (m.param.length ≠ 4)) false none
    (if !(flashUsable s) then finishOp s m .storeBusy []
     else match revertCheck s (beAt m.param 0 4) with
       | .ok => beginLong s m (some (.pointer true))
       | st => finishOp s m st [])

/-- RETIRE and REINSTATE: the word is checked as that of the vendor command (R358). -/
def unitOp (s : State) (m : MgOp) (f : State → Nat → State × Status) : State :=
  let w := beAt m.param 0 4
  checkedOp s m (decide (m.param.length ≠ 4)) (decide (unitCheck s w = .badField))
    (some (unitWord w).2.1)
    (let r := f s w
     finishOp r.1 m r.2 [])

/-- MAINT: entering closes the request and data channels; leaving brings the tile in (R461). -/
def maintOp (s : State) (m : MgOp) : State :=
  let t := beAt m.param 0 1
  let on := decide (beAt m.param 1 1 = 1)
  checkedOp s m (decide (m.param.length ≠ 4))
    (decide (7 < t) || decide (1 < beAt m.param 1 1) || !(zeroAt m 2 2)) (some t)
    (if inMaint s t = on then finishOp s m .ok []
     else
       let s := beginLong s m none
       settle (if on then
          let s := s.setB (aMgt 0x20) t true
          if s.linkUp t then setLinkState s t 2 else s
        else leaveMaint s t))

/-! ### Calibration (R158, R159, R462) -/

/-- The state with a cluster's calibration set. -/
def setCalJob (s : State) (t c : Nat) (j : CalJob) : State :=
  { s with tl := { s.tl with calib := Tab.to CalJob.none s.tl.calib (4 * t + c) j } }

/-- Whether a head of a cluster is calibrated: it and its writer are in service, and it can write (R157). -/
def calHead (s : State) (t c h : Nat) : Bool :=
  !(headDead s t c h) && !(tWriter s t (headIx c h)) && decide (s.fld (aWrtC t c (0x104 + 16 * h)) 23 17 ≠ 0) &&
    !(s.bit (aWrtC t c (0x10C + 16 * h)) 0)

/-- Whether a cluster has neither writes nor reads to do. -/
def clusterIdle (s : State) (t c : Nat) : Bool :=
  decide (s.wrQ t c = []) && (s.wr t).inQ.all (fun e => decide (psaCluster e.psa ≠ c)) &&
    (List.range 24).all fun h =>
      let i := headIdx t c h
      let x := s.head i
      decide ((s.headW i).ser = []) && decide (x.want = []) && decide (x.capQ = []) && decide (x.curs = [])

/-- Every head that is calibrated writes at sector 0 of a track: the whole of a calibration track (R158), or a
system sector, whose 4,160 bytes are zero (DESIGN CHOICE, entry 128). -/
def calWrite (s : State) (t c track : Nat) (kind : WrKind) (body : Payload) : State :=
  let es := ((List.range 24).filter (calHead s t c)).map fun h : Nat =>
    (⟨mkPsa t c h track 0, kind, false, 0, 0, 0, 0, body, [], 0, false, 0, false⟩ : WrEnt)
  s.modWr t fun w => { w with inQ := w.inQ ++ es }

/-- Every head that is calibrated reads the system sector at sector 0 of a track back (R159). -/
def calRead (s : State) (t c track : Nat) : State :=
  ((List.range 24).filter (calHead s t c)).foldl
    (fun s h => wantSectors s t c h [⟨⟨mkPsa t c h track 0, 0, 0, .system, 7⟩, none, false⟩]) s

/-- One step of a cluster's calibration, once what came before is done: the two tracks of pair 0 on different
revolutions, the lag on pair 1 where the format has one (entry 128), and the training in the band's zone
(R462). A cluster that is off its tracks ends it. -/
def calStep (s : State) (t c : Nat) : State :=
  let j := calJob s t c
  match j.bands with
  | [] => s
  | b :: rest =>
    let z := zoneOfBand s t b
    let m := ctlMode s t c
    let go (s : State) (n : Nat) : State := setCalJob s t c ⟨j.bands, n⟩
    if tCluster s t c ∨ !(m = 3 ∨ m = 4 ∨ m = 5) then setCalJob s t c CalJob.none
    else if j.step = 5 then
      (if (trainedZones s t c).contains z then setCalJob s t c (if rest = [] then CalJob.none else ⟨rest, 0⟩) else s)
    else if !(clusterIdle s t c) then s
    else if j.step = 0 then calWrite (go s 1) t c (calTrack s t b 0) .calib []
    else if j.step = 1 then calWrite (go s 2) t c (calTrack s t b 0 + 1) .calib []
    else if j.step = 2 then
      (if 8 ≤ fmtRsv s t then calWrite (go s 3) t c (calTrack s t b 1) .system (zeros 4160) else go s 4)
    else if j.step = 3 then calRead (go s 4) t c (calTrack s t b 1)
    else
      let s : State := { s with tl := { s.tl with
        trained := Tab.to [] s.tl.trained (4 * t + c) ((trainedZones s t c).filter fun y => decide (y ≠ z)) } }
      startSeek (go s 5) t c (calTrack s t b 0 : Nat)

/-- A CALIB in progress: each cluster goes on, and when all have done their bands the reply carries HGAP of
every head (R462). -/
def calibPump (s : State) (m : MgOp) : State :=
  let t := beAt m.param 0 1
  let s := (List.range 4).foldl (fun s c => calStep s t c) s
  if (List.range 4).all fun c => decide (calJob s t c = CalJob.none) then
    finishLong s .ok ((List.range 4).flatMap fun c => (List.range 24).flatMap fun h =>
      wordBytes (s.reg (aWrtC t c (0x100 + 16 * h))))
  else s

/-- CALIB (R462): each named band is rewritten by its cluster, and the lag of the cluster's heads measured; a tile
whose channels are off calibrates nothing. -/
def calibOp (s : State) (m : MgOp) : State :=
  let t := beAt m.param 0 1
  let b := beAt m.param 1 1
  checkedOp s m (decide (m.param.length ≠ 4))
    (decide (7 < t) || (decide (b ≠ 0xFF) && decide (127 < b)) || !(zeroAt m 2 2) ||
      (s.hasTile t && (!(inMaint s t) || tileRetired s t || decide (spnState s t ≠ 6) ||
        (decide (b ≠ 0xFF) && decide (fmtBands s t ≤ b))))) (some t)
    (let bands := if s.domOn (domCh t) then (if b = 0xFF then List.range (fmtBands s t) else [b]) else []
     let s := beginLong s m none
     calibPump ((List.range 4).foldl (fun s c => setCalJob s t c ⟨bands.filter fun k => decide (k % 4 = c), 0⟩) s) m)

/-- KEY_ERASE: alarm bit 3 (R424). -/
def keyEraseOp (s : State) (m : MgOp) : State :=
  checkedOp s m (decide (m.param.length ≠ 4)) (decide (beAt m.param 0 4 ≠ 0x45524153)) none
    (finishOp (keyAlarm s 3) m .ok [])

/-- POWER: the targets are set, and the tiles go (R497); what names the state it finds changes nothing. -/
def powerOp (s : State) (m : MgOp) : State :=
  let g := beAt m.param 0 1
  let b := beAt m.param 1 1
  checkedOp s m (decide (m.param.length ≠ 4))
    (decide (4 < g) || (decide (7 < b) && decide (b ≠ 0xFF)) || (decide (g = 4) && decide (b ≠ 0xFF)) || !(zeroAt m 2 2))
    (if b = 0xFF then none else some b)
    (let ts := namedTiles s b
     if g < 4 ∧ ts.all fun t => decide (tileTarget s t = g) && decide (pwrTile s t = g) && !(moving s t) then
       finishOp s m .ok []
     else
       let s := ts.foldl (fun s t => s.setF (aPwr 0x40) (4 * t + 3) (4 * t) g) s
       settle (beginLong s m none))

/-- RESET: its reply is made ready, and the reset waits for its release (R457); the sender of a hub soft reset
never gets it (R460). -/
def resetOp (s : State) (m : MgOp) : State :=
  let k := beAt m.param 0 1
  let t := beAt m.param 1 1
  checkedOp s m (decide (m.param.length ≠ 4))
    (!(k = 1 || k = 2) || (decide (k = 2) && decide (7 < t)) || !(zeroAt m 2 2)) (if k = 2 then some t else none)
    (let s : State := { s with mgmt := { s.mgmt with rst := some (k, t) } }
     match m.route with
     | .assoc _ i => if k = 1 then completeCmd s i .ok else finishOp s m .ok []
     | .port => finishOp s m .ok [])

/-! ### The rows of the operations -/

/-- A RESET at the head of the order is carried out: no row stands for it. -/
def resetHead (s : State) : State :=
  match s.mgmt.waiting with
  | m :: _ => if m.opcode = 0x25 ∧ executorFree s then resetOp (popOp s) m else s
  | [] => s

/-- Every RESET that stands at the head, one behind another. -/
def resetHeads (s : State) : State := s.mgmt.waiting.foldl (fun s _ => resetHead s) s

/-- An operation's row, with the resets that its end lets through. -/
def opRow (op tag : Nat) (param : Payload) (f : State → MgOp → State) (s : State) : Res :=
  onOp (resetHeads s) op tag param fun s m => resetHeads (f s m)

/-- A register operation's row: it stays at the head while an access waits for a link (R37). -/
def heldRow (op tag : Nat) (param : Payload) (f : State → MgOp → State) (s : State) : Res :=
  opRow op tag param
    (fun s m => if regWaits s m then { s with mgmt := { s.mgmt with waiting := m :: s.mgmt.waiting } } else f s m) s

/-- IDENT. -/
def execIdent (tag : Nat) (param : Payload) (s : State) : Res := opRow 0x01 tag param identOp s
/-- REG_READ. -/
def execRegRead (tag : Nat) (param : Payload) (s : State) : Res := heldRow 0x02 tag param regReadOp s
/-- REG_WRITE. -/
def execRegWrite (tag : Nat) (param : Payload) (s : State) : Res := heldRow 0x03 tag param regWriteOp s
/-- STAGE_CLEAR. -/
def execStageClear (tag : Nat) (param : Payload) (s : State) : Res := opRow 0x10 tag param stageClearOp s
/-- STAGE_WRITE. -/
def execStageWrite (tag : Nat) (param : Payload) (s : State) : Res := opRow 0x11 tag param stageWriteOp s
/-- STAGE_READ. -/
def execStageRead (tag : Nat) (param : Payload) (s : State) : Res := opRow 0x12 tag param stageReadOp s
/-- COMMIT. -/
def execCommit (tag : Nat) (param : Payload) (s : State) : Res := opRow 0x13 tag param commitOp s
/-- REVERT. -/
def execRevert (tag : Nat) (param : Payload) (s : State) : Res := opRow 0x14 tag param revertOp s
/-- VERSION. -/
def execVersion (tag : Nat) (param : Payload) (s : State) : Res := opRow 0x15 tag param versionOp s
/-- RETIRE. -/
def execRetire (tag : Nat) (param : Payload) (s : State) : Res := opRow 0x20 tag param (fun s m => unitOp s m retireOp) s
/-- REINSTATE. -/
def execReinstate (tag : Nat) (param : Payload) (s : State) : Res :=
  opRow 0x21 tag param (fun s m => unitOp s m reinstateOp) s
/-- MAINT with ON other than 0. -/
def execMaintEnter (tag : Nat) (param : Payload) (s : State) : Res :=
  if beAt param 1 1 = 0 then onOk (decide (tag < 65536) && decide (param.length ≤ 4096)) s
  else opRow 0x22 tag param maintOp s
/-- MAINT with ON = 0. -/
def execMaintLeave (tag : Nat) (param : Payload) (s : State) : Res :=
  if beAt param 1 1 = 0 then opRow 0x22 tag param maintOp s
  else onOk (decide (tag < 65536) && decide (param.length ≤ 4096)) s
/-- CALIB: the operation begins, or goes on where it is in progress (R459). -/
def execCalib (tag : Nat) (param : Payload) (s : State) : Res :=
  if (match s.mgmt.long with | some l => opIs 0x23 tag param l.op && decide (l.flash = none) | none => false) then
    onOk (decide (tag < 65536) && decide (param.length ≤ 4096))
      (match s.mgmt.long with | some l => resetHeads (calibPump s l.op) | none => s)
  else opRow 0x23 tag param calibOp s
/-- KEY_ERASE. -/
def execKeyErase (tag : Nat) (param : Payload) (s : State) : Res := opRow 0x24 tag param keyEraseOp s
/-- POWER. -/
def execPower (tag : Nat) (param : Payload) (s : State) : Res := opRow 0x26 tag param powerOp s

/-- MGMT_ACCESS_TIMEOUT: what waits for tile `t` has waited 100 µs, accesses and the register operation at the
head; those that still find no link in service fail (R37). -/
def accessTimeout (s : State) (t : Nat) : State :=
  let s := serveAccs s fun x => decide (tileBase t ≤ x.addr) && decide (x.addr < tileBase (t + 1))
  match s.mgmt.waiting with
  | m :: _ =>
    let waits := regWaits s m && (List.range (regWords m)).any fun i =>
      let a := beAt m.param 0 4 + 4 * i
      decide (tileBase t ≤ a) && decide (a < tileBase (t + 1)) && decide (gateOf s a = .wait)
    if (m.opcode = 2 ∨ m.opcode = 3) ∧ waits ∧ executorFree s then
      resetHeads (if m.opcode = 2 then regReadOp (popOp s) m else regWriteOp (popOp s) m)
    else s
  | [] => s

/-- MGMT_ACCESS_TIMEOUT. -/
def execMgmtAccessTimeout (t : Nat) (s : State) : Res := onTile s t (accessTimeout s t)

/-! ### Transactions on the port (R452, R453) -/

/-- Whether the port is powered and not held in reset. -/
def portLive (s : State) : Bool := !s.power.testEn && decide (s.power.boot ≠ 0)

/-- SEND, with the bytes behind the type byte; in PS4 it wakes the hub (R477, R499). -/
def sendPacket (s : State) (bs : Payload) : State :=
  if !(portLive s) then s
  else
    let taken := portAccepts s
    let s := portPacket s bs
    let asks : Bool := match s.power.deep with
      | .ps4 => true
      | .entering _ => true
      | _ => false
    let s := if taken ∧ asks ∧ s.mgmt.busy then wake s 1 else s
    resetHeads s

/-- SEND. -/
def execSend (packet : Payload) (s : State) : Res := .next (sendPacket s packet)

/-- FETCH: a whole one releases the reply, and a reset that waits for it begins; a shorter one leaves it. -/
def fetchReply (s : State) (whole : Bool) : State :=
  if !(portLive s) then s
  else match s.mgmt.reply with
    | none => s.emit (.mdo [0])
    | some bs =>
      if whole then
        let s := (s.emit (.mdo bs))
        beginReset (irqEvent { s with mgmt := { s.mgmt with reply := none } } 0 16 0x23)
      else s

/-- FETCH. -/
def execFetch (whole : Bool) (s : State) : Res := .next (fetchReply s whole)

/-- The status byte (R452). -/
def statusByte (s : State) : Byte :=
  let b (x : Bool) (n : Nat) : Nat := if x then n else 0
  BitVec.ofNat 8 (b s.mgmt.reply.isSome 128 + b (portBusy s) 64 + b s.mgmt.err 32 + b s.mgmt.event 16)

/-- POLL: the status byte; ERR and EVENT are cleared. -/
def execPoll (s : State) : Res :=
  .next
    (if portLive s then
       let s := s.emit (.mdo [statusByte s])
       { s with mgmt := { s.mgmt with err := false, event := false } }
     else s)

/-- IGNORED_TRANSACTION: any other first byte. -/
def execIgnoredTransaction (first : Nat) (s : State) : Res :=
  onOk (decide (first < 256))
    (if !(portLive s) ∨ first = 0x5E ∨ first = 0x5F ∨ first = 0x50 then s
     else ({ s with mgmt := { s.mgmt with err := true } } : State).bump (aMgt 0x60))

/-! ### The management commands of an association (R460) -/

/-- MANAGEMENT_SEND: a packet exactly as on the port; without the manager role only REG_READ and REG_WRITE. -/
def managementSend (s : State) (i : Nat) (c : Capsule) (cntlid : Nat) : State :=
  let bs := c.data.take (c.cdw10 % 2 ^ 16)
  let s : State := { s with mgmt := { s.mgmt with kept := Tab.to [] s.mgmt.kept cntlid [] } }
  if noPacket bs then completeCmd s i .badField
  else
    let m := packetOpOf (.assoc cntlid i) bs
    if packetStatus bs = .ok ∧ !(s.assoc cntlid).manager ∧ m.opcode ≠ 2 ∧ m.opcode ≠ 3 then
      sendReply s m.route m.opcode m.tag .badOpcode []
    else resetHeads (offerPacket s (.assoc cntlid i) bs).1

/-- MANAGEMENT_SEND. -/
def execManagementSend (i : Nat) (s : State) : Res := onAdmin s i 0xC9 (managementSend s i)

/-- MANAGEMENT_RECEIVE: the kept reply, whole, when its TAG matches. -/
def execManagementReceive (i : Nat) (s : State) : Res :=
  onAdmin s i 0xCA fun c cntlid =>
    let bs := Tab.at [] s.mgmt.kept cntlid
    if bs ≠ [] ∧ beAt bs 2 2 = c.cdw10 % 2 ^ 16 then completeData s i bs else completeCmd s i .badField

/-! ### The hub's own checks and writes (R472 to R474) -/

/-- Whether a tile is checked for agreement: it is in service, or held while it is reloaded. -/
def agreementDue (s : State) (t : Nat) : Bool :=
  tileServes s t || (s.linkState t == 2 && decide (bringOf s t = 0) && !(inMaint s t) &&
    decide (s.fld (aVer t) 31 30 = 2))

/-- One tile's check: one that does not agree is out of service; one that agrees again returns. -/
def agreementTile (s : State) (t : Nat) : State :=
  let r := checkAgreement s t
  if !r.2 then setLinkState r.1 t 2
  else if r.1.linkUp t then r.1 else linkOpen r.1 t

/-- AGREEMENT_CHECK: every 1 s. -/
def execAgreementCheck (s : State) : Res :=
  .next
    (if executorFree s then (s.tiles.filter (agreementDue s)).foldl agreementTile s else s)

/-- OPTIME_WRITE: the flash counters take OPTIME when the write succeeds. -/
def execOptimeWrite (ok : Bool) (s : State) : Res := .next (if ok then saveOptime s else s)

/-- FLASH_OPERATION_DONE. -/
def execFlashOperationDone (ok : Bool) (s : State) : Res := .next (resetHeads (flashDone s ok))

end Sys2Proof.Machine
end

