-- ==== Sys2Proof/Machine/Micro.lean ====
section
/-! DEFINITION. The microwords of the writable engines (R284 to R291): the word that a thread or routine's bank
holds at its address, split and executed, its faults, and the messages it posts. A row runs the word when it is the
row's own. -/

namespace Sys2Proof.Machine

/-! ### Microwords (R284, R285) -/

/-- A microword split into its fields (R284): OP 31:26, A 25:21, B 20:16, the second source register C 15:11 of a
register-register operation, and IMM 15:0. -/
structure MWord where
  op : Nat
  a : Nat
  b : Nat
  c : Nat
  imm : BitVec 16
  deriving DecidableEq, Repr

/-- The fields of a word. -/
def splitWord (w : Word) : MWord := ⟨fld w 31 26, fld w 25 21, fld w 20 16, fld w 15 11, w.setWidth 16⟩

/-- The operations of R285; every other OP is a BADOP fault. -/
def opListed (op : Nat) : Bool :=
  [0x00, 0x01, 0x02, 0x03, 0x04, 0x05, 0x06, 0x07, 0x08, 0x09, 0x0A, 0x0B, 0x0C, 0x0D, 0x10, 0x11, 0x12, 0x13, 0x14,
    0x15, 0x16, 0x18, 0x19, 0x1A, 0x1B, 0x20, 0x21, 0x22, 0x23, 0x24, 0x25, 0x26, 0x27, 0x28, 0x29, 0x2A, 0x2B, 0x30,
    0x31, 0x3F].contains op

/-- The word that a thread executes next: of its bank, at its address. -/
def wordAt (s : State) (e th : Nat) : Word :=
  bankWord e (getBank (s.eng e) (thread s e th).bank) (thread s e th).pc

/-! ### Running one word -/

/-- Words per run between two WAITs (UCS.CFG.STEPMAX). -/
def stepMax (s : State) (e : Nat) : Nat := s.fld (aUcs e 8) 15 0

/-- A thread with one more word counted. -/
def countWord (s : State) (e th : Nat) : State :=
  setThread s e th { thread s e th with steps := (thread s e th).steps + 1 }

/-- A thread that runs executes the word at its address when its OP is `op`, unless STEPMAX is spent (R291 cause
0x2); an OP outside the table is a fault of cause 0x1. Another OP of the table is another row's, and the default
ladder image runs by its messages: nothing happens here. -/
def runWord (s : State) (e th op : Nat) (f : State → MWord → State) : State :=
  let x := thread s e th
  let m := splitWord (wordAt s e th)
  if !x.live ∨ x.wait.isSome ∨ byProgram s e th ∨ (m.op ≠ op ∧ opListed m.op) then s
  else if stepMax s e ≤ x.steps then microFault s e th 2
  else if m.op = op then f (countWord s e th) m
  else microFault (countWord s e th) e th 1

/-- A microword's row: an engine and a thread of it. -/
def onWord (s : State) (e th op : Nat) (f : State → MWord → State) : Res :=
  if e < 49 ∧ th < engThreads e then onEng s e (runWord s e th op f) else .fault .badOperand

/-- The thread goes on at an address of its store; beyond it is a BADJMP fault, and so is the image identity at 15,
which is never executed (R288, entry 16). -/
def goto_ (s : State) (e th pc : Nat) : State :=
  if pc < storeWords e ∧ pc ≠ 15 then setThread s e th { thread s e th with pc := pc } else microFault s e th 6

/-- The thread goes on at the next word. -/
def nextWord (s : State) (e th : Nat) : State := goto_ s e th ((thread s e th).pc + 1)

/-! ### Registers (R283) -/

/-- A register of a thread, or of a routine store's one file; g0 reads 0. -/
def getReg (s : State) (e th r : Nat) : Word :=
  if r = 0 then 0 else Tab.at 0 (if isRoutine e then (s.eng e).g else (thread s e th).g) r

/-- A register written; a write to g0 is discarded. -/
def putReg (s : State) (e th r : Nat) (w : Word) : State :=
  if isRoutine e then s.modEng e fun g => { g with g := putG g.g r w }
  else
    let x := thread s e th
    setThread s e th { x with g := putG x.g r w }

/-- A word that computes A from the registers. -/
def compute (s : State) (e th a : Nat) (w : Word) : State := nextWord (putReg s e th a w) e th

/-- The sign-extended immediate. -/
def sext (imm : BitVec 16) : Word := imm.signExtend 32
/-- The zero-extended immediate. -/
def zext (imm : BitVec 16) : Word := imm.setWidth 32

/-! ### Arithmetic and logic (R285) -/

/-- A register-register operation. -/
def wordRR (s : State) (e th op : Nat) (f : Word → Word → Word) : Res :=
  onWord s e th op fun s m => compute s e th m.a (f (getReg s e th m.b) (getReg s e th m.c))

/-- A register-immediate operation. -/
def wordRI (s : State) (e th op : Nat) (f : Word → BitVec 16 → Word) : Res :=
  onWord s e th op fun s m => compute s e th m.a (f (getReg s e th m.b) m.imm)

/-- A truth value as a word. -/
def truth (b : Bool) : Word := if b then 1 else 0

/-- NOP. -/
def execNop (e th : Nat) (s : State) : Res := onWord s e th 0x00 fun s _ => nextWord s e th
/-- ADD. -/
def execAdd (e th : Nat) (s : State) : Res := wordRR s e th 0x01 (· + ·)
/-- SUB. -/
def execSub (e th : Nat) (s : State) : Res := wordRR s e th 0x02 (· - ·)
/-- AND. -/
def execAnd (e th : Nat) (s : State) : Res := wordRR s e th 0x03 (· &&& ·)
/-- OR. -/
def execOr (e th : Nat) (s : State) : Res := wordRR s e th 0x04 (· ||| ·)
/-- XOR. -/
def execXor (e th : Nat) (s : State) : Res := wordRR s e th 0x05 (· ^^^ ·)
/-- SHL by C mod 32. -/
def execShl (e th : Nat) (s : State) : Res := wordRR s e th 0x06 fun x y => x <<< (y.toNat % 32)
/-- SHR, logical. -/
def execShr (e th : Nat) (s : State) : Res := wordRR s e th 0x07 fun x y => x >>> (y.toNat % 32)
/-- SAR, arithmetic. -/
def execSar (e th : Nat) (s : State) : Res := wordRR s e th 0x08 fun x y => x.sshiftRight (y.toNat % 32)
/-- MUL: the low 32 bits of the product. -/
def execMul (e th : Nat) (s : State) : Res := wordRR s e th 0x09 (· * ·)
/-- SLT, signed. -/
def execSlt (e th : Nat) (s : State) : Res := wordRR s e th 0x0A fun x y => truth (x.slt y)
/-- SLTU, unsigned. -/
def execSltu (e th : Nat) (s : State) : Res := wordRR s e th 0x0B fun x y => truth (x.ult y)
/-- MIN, signed. -/
def execMin (e th : Nat) (s : State) : Res := wordRR s e th 0x0C fun x y => if x.slt y then x else y
/-- MAX, signed. -/
def execMax (e th : Nat) (s : State) : Res := wordRR s e th 0x0D fun x y => if x.slt y then y else x
/-- ADDI. -/
def execAddi (e th : Nat) (s : State) : Res := wordRI s e th 0x10 fun x i => x + sext i
/-- ANDI. -/
def execAndi (e th : Nat) (s : State) : Res := wordRI s e th 0x11 fun x i => x &&& zext i
/-- ORI. -/
def execOri (e th : Nat) (s : State) : Res := wordRI s e th 0x12 fun x i => x ||| zext i
/-- LUI. -/
def execLui (e th : Nat) (s : State) : Res := wordRI s e th 0x13 fun _ i => zext i <<< 16
/-- SHLI. -/
def execShli (e th : Nat) (s : State) : Res := wordRI s e th 0x14 fun x i => x <<< (i.toNat % 32)
/-- SHRI. -/
def execShri (e th : Nat) (s : State) : Res := wordRI s e th 0x15 fun x i => x >>> (i.toNat % 32)
/-- SARI. -/
def execSari (e th : Nat) (s : State) : Res := wordRI s e th 0x16 fun x i => x.sshiftRight (i.toNat % 32)

/-! ### The accumulator (R231, R285): control and spindle engines only -/

/-- A word of the accumulator; in a dispatch or ladder engine it is a BADOP fault. -/
def wordAcc (s : State) (e th op : Nat) (f : State → MWord → State) : Res :=
  onWord s e th op fun s m => if isRoutine e then f s m else microFault s e th 1

/-- The low half of a register, signed. -/
def half (w : Word) : Int := sfld w 15 0

/-- The accumulator after adding a product, saturated to 40 bits. -/
def accumulate (s : State) (e th b c : Nat) (sign : Int) : State :=
  let p := sign * (half (getReg s e th b) * half (getReg s e th c))
  nextWord (s.modEng e fun g => { g with acc := satI 40 (g.acc + p) }) e th

/-- MAC. -/
def execMac (e th : Nat) (s : State) : Res := wordAcc s e th 0x18 fun s m => accumulate s e th m.b m.c 1
/-- MSU. -/
def execMsu (e th : Nat) (s : State) : Res := wordAcc s e th 0x19 fun s m => accumulate s e th m.b m.c (-1)
/-- ACLR. -/
def execAclr (e th : Nat) (s : State) : Res :=
  wordAcc s e th 0x1A fun s _ => nextWord (s.modEng e fun g => { g with acc := 0 }) e th

/-- The register that counts AOUT saturations: CTL.SAT, SPN.USAT. -/
def satCounter (e : Nat) : Nat :=
  if engKind e = 1 then aCtl (engTile e) (engPage e) 0x50 else aSpn (engTile e) 0x70

/-- AOUT: the accumulator rounded, shifted and saturated to 16 bits; a shift outside 1 to 31 gives a value
that the manual does not state. -/
def execAout (e th : Nat) (s : State) : Res :=
  wordAcc s e th 0x1B fun s m =>
    let n := m.imm.toNat
    if n = 0 ∨ 31 < n then compute s.took e th m.a s.freeVal
    else
      let v := ((s.eng e).acc + 2 ^ (n - 1)) / (2 ^ n : Nat)
      let s := if satI 16 v = v then s else s.bump (satCounter e)
      compute s e th m.a (w32 (pattern 32 (satI 16 v)))

/-! ### Branches, calls and ends (R285) -/

/-- A branch: taken, it goes to its own address plus the immediate. -/
def branch (s : State) (e th op : Nat) (p : Word → Word → Bool) : Res :=
  onWord s e th op fun s m =>
    if p (getReg s e th m.a) (getReg s e th m.b) then
      goto_ s e th (w32 (thread s e th).pc + sext m.imm).toNat
    else nextWord s e th

/-- BEQ. -/
def execBeq (e th : Nat) (s : State) : Res := branch s e th 0x20 fun x y => x == y
/-- BNE. -/
def execBne (e th : Nat) (s : State) : Res := branch s e th 0x21 fun x y => x != y
/-- BLT. -/
def execBlt (e th : Nat) (s : State) : Res := branch s e th 0x22 fun x y => x.slt y
/-- BGE. -/
def execBge (e th : Nat) (s : State) : Res := branch s e th 0x23 fun x y => !(x.slt y)
/-- JMP. -/
def execJmp (e th : Nat) (s : State) : Res := onWord s e th 0x24 fun s m => goto_ s e th m.imm.toNat
/-- CALL: g31 is the link. -/
def execCall (e th : Nat) (s : State) : Res :=
  onWord s e th 0x25 fun s m => goto_ (putReg s e th 31 (w32 ((thread s e th).pc + 1))) e th m.imm.toNat
/-- RET. -/
def execRet (e th : Nat) (s : State) : Res := onWord s e th 0x26 fun s _ => goto_ s e th (getReg s e th 31).toNat
/-- END. -/
def execEndThread (e th : Nat) (s : State) : Res := onWord s e th 0x27 fun s _ => endThread s e th
/-- FAULT: cause USER. -/
def execFault (e th : Nat) (s : State) : Res := onWord s e th 0x3F fun s _ => microFault s e th 7

/-! ### Registers of the device (R287) -/

/-- Whether an engine may read a register of a block. -/
def mayRead (e : Nat) (b : RegBlk) : Bool :=
  let t := engTile e
  match engKind e, b with
  | 0, .hub | 0, .pwr | 0, .owl | 0, .irq | 0, .mgt | 0, .hpt _ | 0, .nq | 0, .buf | 0, .memp => true
  | 1, .srv t' c | 1, .ctl t' c => decide (t' = t) && decide (c = engPage e)
  | 2, .spn t' | 2, .srv t' _ => decide (t' = t)
  | 3, .tile t' | 3, .lane t' _ | 3, .det t' => decide (t' = t)
  | _, _ => false

/-- Whether an engine may write a register of a block: not the coefficient sets (R246). -/
def mayWrite (e : Nat) (b : RegBlk) (o : Nat) : Bool :=
  let t := engTile e
  match engKind e, b with
  | 0, .nq | 0, .buf => true
  | 1, .ctl t' c => decide (t' = t) && decide (c = engPage e) && decide (o < 0x2000)
  | 2, .spn t' => decide (t' = t)
  | _, _ => false

/-- The address that a word names: a hub address, or an offset from the tile's base. -/
def engAddr (s : State) (e th b : Nat) (imm : BitVec 16) : Nat :=
  (getReg s e th b + zext imm).toNat + if e = 0 then 0 else tileBase (engTile e)

/-- LDR. -/
def execLdr (e th : Nat) (s : State) : Res :=
  onWord s e th 0x28 fun s m =>
    let x := engAddr s e th m.b m.imm
    match blkOf x, regRow s.part x with
    | some (k, o), some r =>
      if !(mayRead e k) then microFault s e th 3
      else if s.domOn (blkDom k o) then
        let w := viewReg s x
        compute (afterRead s .engine x r) e th m.a w
      else compute s e th m.a 0
    | _, _ => microFault s e th 3

/-- STR: what the register does not take, it does not take here either (R11, R108). -/
def execStr (e th : Nat) (s : State) : Res :=
  onWord s e th 0x29 fun s m =>
    let x := engAddr s e th m.b m.imm
    let w := getReg s e th m.a
    match blkOf x, regRow s.part x with
    | some (k, o), some r =>
      if !(mayWrite e k o) then microFault s e th 3
      else
        let s := nextWord s e th
        if !(s.domOn (blkDom k o)) ∨ r.acc = .ro ∨ r.acc = .rc ∨ (r.acc ≠ .w1c ∧ !(fieldsOk s k o w)) then s
        else (writeBlk s .engine x k o r w).1
    | _, _ => microFault s e th 3

/-! ### Scratch memory (R283, R290) -/

/-- The address in scratch that a word names. -/
def scratchAt (s : State) (e th b : Nat) (imm : BitVec 16) : Nat := (getReg s e th b + zext imm).toNat

/-- The key of a scratch word: a ladder context has 32 of its own. -/
def scratchKey (e th i : Nat) : Nat := if engKind e = 3 then 32 * th + i else i

/-- LDS. -/
def execLds (e th : Nat) (s : State) : Res :=
  onWord s e th 0x2A fun s m =>
    let i := scratchAt s e th m.b m.imm
    if scratchWords e ≤ i then microFault s e th 4
    else
      compute s e th m.a
        (if engKind e = 3 ∧ i < 8 then ctxWord s (engTile e) th i else Tab.at 0 (s.eng e).scratch (scratchKey e th i))

/-- STS. -/
def execSts (e th : Nat) (s : State) : Res :=
  onWord s e th 0x2B fun s m =>
    let i := scratchAt s e th m.b m.imm
    if scratchWords e ≤ i ∨ (engKind e = 3 ∧ i < 8) then microFault s e th 4
    else
      let w := getReg s e th m.a
      nextWord (s.modEng e fun g => { g with scratch := Tab.to 0 g.scratch (scratchKey e th i) w }) e th

/-! ### WAIT (R285, R290) -/

/-- A thread suspends until an event of a class of `mask`; a ladder thread takes at once a result that is already
there. -/
def suspend (s : State) (e th mask a : Nat) : State :=
  let s := setThread s e th { thread s e th with wait := some (mask, a) }
  if engKind e = 3 then
    let t := engTile e
    deliverResult (deliverResult (deliverResult s t th 0) t th 1) t th 2
  else s

/-- The default image's WAIT, when it is next (entry 16). -/
def programWait (s : State) (e th : Nat) : State :=
  let t := engTile e
  let x := thread s e th
  if !x.live ∨ x.wait.isSome then s
  else if x.ended then endThread s e th
  else
    match (s.ctx t th).prog.todo with
    | .wait mask :: rest =>
      suspend (countWord (s.modCtx t th fun y => { y with prog := { y.prog with todo := rest } }) e th) e th mask 0
    | _ => s

/-- WAIT: the thread suspends; a ladder thread whose context has ended ends. In a routine store it is a BADOP fault,
since no class is listed. -/
def execWait (e th : Nat) (s : State) : Res :=
  if byProgram s e th ∧ e < 49 ∧ th < 256 then onEng s e (programWait s e th)
  else
    onWord s e th 0x31 fun s m =>
      if isRoutine e then microFault s e th 1
      else if (thread s e th).ended then endThread s e th
      else
        let s := nextWord s e th
        if (thread s e th).live then suspend s e th m.imm.toNat m.a else s

/-! ### Messages (R288, R290) -/

/-- The POST kinds of an engine (R288, R290): 1 to 6 of a ladder engine, 1 to 5 of the others. -/
def postKind (e kind : Nat) : Bool := decide (1 ≤ kind) && decide (kind ≤ (if engKind e = 3 then 6 else 5))

/-- A POST of a kind, with its operands' values from registers A and B: a kind that the engine does not have is a
POST fault, and another kind that it has is another row's. -/
def postWord (s : State) (e th kind : Nat) (f : State → Nat → Nat → State) : State :=
  let m := splitWord (wordAt s e th)
  let k := fld (wordAt s e th) 15 8
  if m.op = 0x30 ∧ k ≠ kind ∧ postKind e k then s
  else
    runWord s e th 0x30 fun s m =>
      if k = kind then f s (getReg s e th m.a).toNat (getReg s e th m.b).toNat else microFault s e th 5

/-- A POST: the message leaves, the thread goes on, and the unit acts. -/
def wordPost (s : State) (e th kind : Nat) (f : State → Nat → Nat → State) : State :=
  postWord s e th kind fun s a b => f (nextWord (s.emit (.post e kind a b)) e th) a b

/-- A POST of the dispatch engine: the record waits in scratch memory for the unit that the kind names; what
the unit does is its own command (entry 62). -/
def dispatchPost (s : State) (th kind : Nat) : Res :=
  onOk (decide (th < 64)) (wordPost s 0 th kind fun s _ _ => s)

/-- TREQ. -/
def execTreq (th : Nat) (s : State) : Res := dispatchPost s th 1
/-- BREQ. -/
def execBreq (th : Nat) (s : State) : Res := dispatchPost s th 2
/-- CPL. -/
def execCpl (th : Nat) (s : State) : Res := dispatchPost s th 3
/-- RDMA. -/
def execRdma (th : Nat) (s : State) : Res := dispatchPost s th 4
/-- OWL. -/
def execOwlPost (th : Nat) (s : State) : Res := dispatchPost s th 5

/-- A POST of a control engine. -/
def controlPost (s : State) (t c kind : Nat) (f : State → Nat → Nat → State) : Res :=
  onCluster s t c (wordPost s (ctlEng t c) 0 kind f)

/-- SETP: a head's setpoint, limited as R232 limits it. -/
def execSetp (t c : Nat) (s : State) : Res :=
  controlPost s t c 1 fun s a b => if a < 24 then setPoint s t c a (clampI (-2047) 2047 (signedOf 32 b)) else s

/-- PRED: a head's prediction in 1/1,024 pitch, −1 for none. -/
def execPred (t c : Nat) (s : State) : Res :=
  controlPost s t c 2 fun s a b =>
    if a < 24 then
      s.modHeadS (headIdx t c a) fun x => { x with pred := if b % 2 ^ 32 = 2 ^ 32 - 1 then none else some (signedOf 32 b) }
    else s

/-- VCMD: the voice-coil current command, limited to ±ILIM. -/
def execVcmd (t c : Nat) (s : State) : Res :=
  controlPost s t c 3 fun s a _ =>
    let lim := s.fld (aCtl t c 0x1C) 31 20
    let cmd := clampI (-lim) lim (signedOf 32 a)
    (s.modCtl t c fun x => { x with cmd := cmd }).setF (aCtl t c 0x44) 31 16 (pattern 16 cmd)

/-- MODE: a mode code of R234. -/
def execCtlMode (t c : Nat) (s : State) : Res :=
  controlPost s t c 4 fun s a _ => if a < 8 then goMode s t c a else s

/-- FREP: a fault report (R252): a microactuator fault of a head (cause 0x08), a voice-coil fault (0x09). -/
def execFrep (t c : Nat) (s : State) : Res :=
  controlPost s t c 5 fun s a b =>
    if a = 8 ∧ b < 24 then ladderFault s t c 4 b id
    else if a = 9 then
      retire (startRetract (zeroSetpoints (tileEdge s t (194 + 8 * c)) t c) t c true) t 4 c 0 0 0x09
    else s

/-- A POST of a spindle engine. -/
def spindlePost (s : State) (t kind : Nat) (f : State → Nat → Nat → State) : Res :=
  onTile s t (wordPost s (spnEng t) 0 kind f)

/-- IREF: the current references. -/
def execIref (t : Nat) (s : State) : Res :=
  spindlePost s t 1 fun s a b =>
    (s.modSpn t fun x => { x with idRef := signedOf 32 a, iqRef := signedOf 32 b }).setB (aSpn t 4) 15
      (decide (signedOf 32 a < 0))

/-- VVEC: the voltage vector's depth and angle: the drive is in voltage mode. -/
def execVvec (t : Nat) (s : State) : Res :=
  spindlePost s t 2 fun s a b =>
    if spnState s t = 6 then
      let s := s.modSpn t fun x => { x with depth := min a 4517, phi := signedOf 16 b }
      (s.setF (aSpn t 4) 14 12 (if 4517 ≤ a then 4 else 3)).setReg (aSpn t 0x48) (place 31 16 b ||| place 15 0 (min a 4517))
    else s

/-- STATE: a state code of R281. -/
def execSpnState (t : Nat) (s : State) : Res :=
  spindlePost s t 3 fun s a _ => if a ≤ 9 then setSpnState s t a else s

/-- RETRACT: every loaded cluster of the tile is retracted. -/
def execRetract (t : Nat) (s : State) : Res :=
  spindlePost s t 4 fun s _ _ => (List.range 4).foldl (fun s c => startRetract s t c false) s

/-- SPFLT: fault bits; with STALL, LOSS or FAULT among them, a spindle fault (R273). -/
def execSpflt (t : Nat) (s : State) : Res :=
  spindlePost s t 5 fun s a _ =>
    let s := (List.range 6).foldl (fun s i => if a.testBit i then setSpnFlt s t i else s) s
    if a.testBit 2 || a.testBit 3 || a.testBit 6 then spindleFault s t none else s

/-! ### Messages of a ladder thread (R290) -/

/-- The kind of a move of the default image, and its operands; none for a WAIT. -/
def moveOps : LadMove → Option (Nat × Nat × Nat)
  | .hist w => some (1, w.toNat, 0)
  | .book off disp => some (2, pattern 32 off, if disp then 1 else 0)
  | .accept => some (3, 0, 0)
  | .drop => some (4, 1, 0)
  | .step n => some (5, n, 0)
  | .slot => some (6, 0, 0)
  | .wait _ => none

/-- The default image's POST of a kind, when it is next: `held` tells whether it waits for a credit of the queue
that the kind names, which holds the thread (R286). -/
def programPost (s : State) (t ctx kind : Nat) (held : State → Bool) (f : State → Nat → Nat → State) : State :=
  let e := 1 + 6 * t + 5
  let x := thread s e ctx
  if !x.live ∨ x.wait.isSome then s
  else
    match (s.ctx t ctx).prog.todo with
    | m :: rest =>
      match moveOps m with
      | some (k, a, b) =>
        if k ≠ kind ∨ held s then s
        else
          let s := countWord (s.modCtx t ctx fun y => { y with prog := { y.prog with todo := rest } }) e ctx
          f (s.emit (.post e kind a b)) a b
      | none => s
    | [] => s

/-- A POST of a ladder thread: its context is its thread; after the context's ending it has no effect. -/
def ladderPost (s : State) (t ctx kind : Nat) (held : State → Bool) (f : State → Nat → Nat → State) : Res :=
  let e := 1 + 6 * t + 5
  let act (s : State) (a b : Nat) : State := if (s.ctx t ctx).live then f s a b else s
  if ctx < 256 then
    onTile s t
      (if byProgram s e ctx then programPost s t ctx kind held act
       else if held s ∧ (splitWord (wordAt s e ctx)).op = 0x30 ∧ fld (wordAt s e ctx) 15 8 = kind then s
       else wordPost s e ctx kind act)
  else .fault .badOperand

/-- A POST that waits for no credit. -/
def neverHeld (_ : State) : Bool := false

/-- HIST: it waits for a credit of the 16 of the history request queue (R134). -/
def execHist (t ctx : Nat) (s : State) : Res :=
  ladderPost s t ctx 1 (fun s => (s.ctx t ctx).live && decide (16 ≤ histUsed (s.det t))) fun s a _ => histPost s t ctx (w32 a)

/-- BOOK: an offset in 1/1,024 pitch, for the sector's pair or displaced; it waits for a credit of the cluster's
16 bookings (R252). -/
def execBook (t ctx : Nat) (s : State) : Res :=
  ladderPost s t ctx 2
    (fun s => (s.ctx t ctx).live && decide (16 ≤ bookingsOf s t (psaCluster (s.ctx t ctx).want.req.psa)))
    fun s a b => bookReread s t ctx (signedOf 32 a) (decide (b = 1))

/-- ACCEPT: without an accepted result it is a POST fault. -/
def execAccept (t ctx : Nat) (s : State) : Res :=
  let e := 1 + 6 * t + 5
  if ctx < 256 then
    onTile s t
      (if byProgram s e ctx then programPost s t ctx 3 neverHeld fun s _ _ => (acceptCtx s t ctx).getD s
       else
         postWord s e ctx 3 fun s a b =>
           match acceptCtx s t ctx with
           | none => microFault s e ctx 5
           | some _ =>
             let s := nextWord (s.emit (.post e 3 a b)) e ctx
             (acceptCtx s t ctx).getD s)
  else .fault .badOperand

/-- DROP. -/
def execDrop (t ctx : Nat) (s : State) : Res := ladderPost s t ctx 4 neverHeld fun s _ _ => dropPost s t ctx
/-- STEP. -/
def execStep (t ctx : Nat) (s : State) : Res := ladderPost s t ctx 5 neverHeld fun s a _ => stepPost s t ctx a
/-- SLOT. -/
def execSlot (t ctx : Nat) (s : State) : Res := ladderPost s t ctx 6 neverHeld fun s _ _ => slotPost s t ctx

end Sys2Proof.Machine
end

