-- ==== Sys2Proof/Machine/Protect.lean ====
section
/-! DEFINITION. What an uncorrectable unit does to the store it lies in (R395), and the commands that read protected
memory: READ with the tag store, SECTOR_LANDING, RDMA_DATA_SEND, CLEANER_ISSUE and WOODPECKER_BURST. The manual gives
no place to a store's units beyond "per slot", "per entry" and so on; the order of units here is entry 133's. -/

namespace Sys2Proof.Machine

/-! ### Units of the stores (R395, entry 133) -/

/-- The word that every word of an uncorrectable unit of a store is fetched as: OP 0x3E (R395). -/
def badWord : Word := 0xF8000000

/-- The units of one bank of an engine's store, of 8 words each. -/
def bankUnits (e : Nat) : Nat := storeWords e / 8

/-- Words of a bank from `a` on read as uncorrectable. -/
def spoilWords (s : State) (e b a : Nat) : State :=
  s.modEng e fun g =>
    let x := getBank g b
    putBank g b { x with words := (List.range 8).foldl (fun w i => Tab.set (bankGround e x.dflt) w (a + i) badWord) x.words }

/-- A unit of the dispatch store: both banks' words, then both banks' table entries. -/
def dispatchBad (s : State) (i : Nat) : State :=
  let n := bankUnits 0
  if i < 2 * n then spoilWords s 0 (i / n) (8 * (i % n))
  else if i < 2 * n + 64 then spoilWords s 0 ((i - 2 * n) / 32) (0x4000 + 8 * ((i - 2 * n) % 32))
  else s

/-- A unit of a tile's stores: engine by engine in page order, both banks of each. -/
def tileStoreBad (s : State) (t i : Nat) : State :=
  ((List.range 6).foldl
    (fun (r : Option Nat × State) k =>
      let e := 1 + 6 * t + k
      let n := bankUnits e
      match r.1 with
      | none => r
      | some j => if j < 2 * n then (none, spoilWords r.2 e (j / n) (8 * (j % n))) else (some (j - 2 * n), r.2))
    (some i, s)).2

/-- A unit of the other hub SRAM: that of a queue pair resets it; that of a command ends it with ST_STORE_BUSY. -/
def hubSramBad (s : State) (i : Nat) : State :=
  if qpOk i then (if (s.qp i).state = 2 then startReset s i [] false else s)
  else completeCmd s (i - 12288) .storeBusy

/-- A unit of a sample history: all 40 of its samples are erasures (R91). -/
def historyBad (s : State) (t i : Nat) : State :=
  if 360192 ≤ i then s
  else
    let l := i / 1876
    let f (b : Bank) : Bank := readBank b [i % 938]
    (s.modLane t l fun x => if i / 938 % 2 = 0 then { x with b0 := f x.b0 } else { x with b1 := f x.b1 }).bump (aLane t l 0x88)

/-- The units of an entry with 37,120 soft values (R117): 32 bytes of descriptor and 27,840 of values. -/
def entryUnits : Nat := 871

/-- Soft values of which unit `u` of an entry holds a bit are 0; values are packed four to three bytes. -/
def softBad (u : Nat) (xs : List Int) : List Int :=
  if u = 0 then xs
  else
    let lo := 256 * (u - 1)
    (List.range xs.length).map fun k => if lo < 6 * k + 6 ∧ 6 * k < lo + 256 then 0 else nth 0 xs k

/-- A unit of the decoder queue's 64 entries, of the soft store's 8, or of the pool's 32 results: soft values enter
the decoder as 0; a decoded word ends FAIL. -/
def poolBad (s : State) (t i : Nat) : State :=
  let k := i / entryUnits
  let u := i % entryUnits
  if k < 64 then
    s.modDet t fun d => { d with decQ := d.decQ.modify k fun j => { j with ent := { j.ent with soft := softBad u j.ent.soft } } }
  else if k < 72 then
    s.modDet t fun d => { d with soft := Tab.upd SoftSlot.free d.soft (k - 64) fun x => { x with soft := x.soft.map (softBad u) } }
  else
    s.modDet t fun d => { d with poolOut := d.poolOut.modify (i - 72 * entryUnits) fun r =>
      if r.st = .conv then { r with st := .fail, info := [] } else r }

/-- A unit of the formatter and write queues: the outbound queue's 48 entries, then each cluster's 8. A read sector is
dropped with cause MEDIA; a write entry ends WFAIL, and the cleaner issues it again. -/
def queueBad (s : State) (t i : Nat) : State :=
  if i < 48 then
    s.modDet t fun d => { d with outQ := d.outQ.modify i fun o => { o with body := [], drop := some (o.drop.getD .media) } }
  else
    let c := (i - 48) / 8
    match (s.wrQ t c)[(i - 48) % 8]? with
    | some e => if c < 4 then finishWrite (s.modWrQ t c fun q => q.eraseIdx ((i - 48) % 8)) t e .wfail else s
    | none => s

/-- A unit of the Owl record store: its words read as ones and BADREC is set (R491). -/
def recordBad (s : State) (i : Nat) : State :=
  if 8192 ≤ i then s
  else
    let s : State := { s with owl := { s.owl with bad := i :: s.owl.bad.filter fun j => j ≠ i } }
    s.setB (aOwl 8) 30 true

/-- What an uncorrectable unit does, by its store (R395). A unit of the tag store has a second copy (R399). -/
def storeBad (s : State) (a : Nat) : State :=
  let st := eccStore a
  let i := eccIndex a
  let t := (st - 0x10) / 16
  if st = 0 then hbmBad s a
  else if st = 2 then (List.range 256).foldl (fun s k => pageWritten s (256 * i + k)) s
  else if st = 3 then (if i < 2048 then slotErase s (i / 8) (i % 8) else s)
  else if st = 4 then dispatchBad s i
  else if st = 5 then hubSramBad s i
  else if st = 6 then recordBad s i
  else if st < 0x10 ∨ !(s.hasTile t) ∨ !(s.domOn (domCh t)) then s
  else if st % 16 = 0 then historyBad s t i
  else if st % 16 = 1 then poolBad s t i
  else if st % 16 = 2 then dropCtx s t i .media
  else if st % 16 = 3 then tileStoreBad s t i
  else if st % 16 = 4 then queueBad s t i
  else s

/-- A unit of some store is read: counted (R395, R404), and when uncorrectable its store's rule applies. -/
def storeRead (s : State) (u : EccRead) : State :=
  if !(unitRead s u) then s
  else
    let s := noteScrub (eccCount s u) u
    if (eccCls u).bad then storeBad s u.addr else s

/-- Several units. -/
def storeReads (s : State) (us : List EccRead) : State := us.foldl storeRead s

/-! ### The commands -/

/-- READ: with the units of the tag store that its lookup read, from both copies where both were (R399). -/
def execRead (i : Nat) (t1 t2 : Option EccRead) (s : State) : Res := onCmd s i 0x02 (readTurn (tagUnits s t1 t2) i)

/-- SECTOR_LANDING: `rd` is the unit of a guard frame that an object guard is merged into, `us` other units that were
read meanwhile. -/
def execSectorLanding (rd : EccRead) (us : List EccRead) (s : State) : Res := .next (sectorLanding (storeReads s us) rd)

/-- Whether a unit of the buffer holds the object guard of a block in a line (R397). -/
def inBlock (s : State) (p : Place) (lba : Nat) (a : Nat) : Bool :=
  match (lineIn s p).slot with
  | some k => decide (eccIndex a = guardUnit k lba)
  | none => false

/-- The page of the buffer that holds a block which a read is to send: its staging page, or its place in a line. -/
def blkPage (s : State) (i b : Nat) : Option (Nat × Option Place) :=
  match pageOfBlk s i b with
  | some p => some (p, none)
  | none =>
    let lba := (s.cmd i).lba b
    ((placesOf s (s.cmd i).nsid lba).find? fun p => (unitIn s p lba).valid).map fun p => (16 * (lineIn s p).frame + lba % 16, some p)

/-- A block is sent, with the units of the buffer that were read for it. One that proves uncorrectable ends the
transfer that had begun: a clean unit's block is sought on the media and written again whole, a dirty or staged one is
written again as zeros and dropped (R397, R398). -/
def sendRead (s : State) (i b : Nat) (us : List EccRead) : State :=
  let c := s.cmd i
  if !c.live ∨ c.len ≤ b ∨ (c.blk b).st ≠ .ready ∨ !(canSend s c.qp) then rdmaDataSend s i b
  else
    let held := blkPage s i b
    let guards (a : Nat) : Bool := match held with
      | some (_, some p) => inBlock s p (c.lba b) a
      | _ => false
    let hit := (us.any fun u => decide (eccStore u.addr = 0) && unitRead s u && (eccCls u).bad &&
      (decide (held.map (·.1) = some (eccIndex u.addr / 128)) || guards u.addr)) = true
    let dirty : Bool := match held with
      | some (_, some p) => (unitIn s p (c.lba b)).dirty
      | _ => false
    let s := storeReads s us
    if !hit ∨ (c.blk b).drop.isSome then rdmaDataSend s i b
    else
      match held with
      | some (_, some _) =>
        if dirty then rdmaDataSend (dropRead s i b .media) i b
        else readProgress (s.setCmd i ((s.cmd i).setBlk b { ((s.cmd i).blk b) with st := .idle, data := [] })) i
      | _ => rdmaDataSend s i b

/-- RDMA_DATA_SEND. -/
def execRdmaDataSend (i b : Nat) (us : List EccRead) (s : State) : Res := .next (sendRead s i b us)

/-- CLEANER_ISSUE, with the units of the buffer that the cleaner reads (R376, R398). -/
def execCleanerIssue (us : List EccRead) (s : State) : Res := .next (cleanerIssue (storeReads s us))

/-- WOODPECKER_BURST. -/
def execWoodpeckerBurst (us : List EccRead) (t1 t2 map : Option EccRead) (overwritten : Bool) (s : State) : Res :=
  .next (woodpecker s us t1 t2 map overwritten)

end Sys2Proof.Machine
end

