-- ==== Sys2Proof/Machine/Tap.lean ====
section
/-! DEFINITION. The test access port (R532, R533): its instructions and the boundary register. The bits of a
data register leave on TDO in the order in which they are shifted out. -/

namespace Sys2Proof.Machine

/-- The state with the port's instruction and what it does to the outputs. -/
def setTap (s : State) (instr : Nat) (drive float : Bool) : State :=
  { s with tap := { s.tap with instr := instr, drive := drive, float := float } }

/-- The scan of an instruction: the instruction register captures 0b0000_0001, least significant bit first out (R532). -/
def tapScan (s : State) (instr : Nat) (drive float : Bool) : State :=
  (setTap s instr drive float).emit (.tdo [true, false, false, false, false, false, false, false])

/-- BYPASS is selected: its one-bit register captures 0. -/
def tapBypass (s : State) : State := (tapScan s 0xFF false false).emit (.tdo [false])

/-- An instruction that acts on the outputs does so only while PORST_N is low; otherwise it acts as BYPASS. -/
def tapInReset (s : State) (f : State) : State := if s.power.porstLow then f else tapBypass s

/-- TAP_RESET: IDCODE is selected and the outputs are the device's. -/
def execTapReset (s : State) : Res := .next (setTap s 2 false false)

/-- EXTEST: the outputs are driven from the boundary cells. -/
def execExtest (s : State) : Res := .next (tapInReset s (tapScan s 0 true false))

/-- SAMPLE/PRELOAD: the balls' levels are captured and shifted out, and the cells loaded. -/
def execSamplePreload (captured loaded : List Bool) (s : State) : Res :=
  .next
    (let s := (tapScan s 1 false false).emit (.tdo captured)
     { s with tap := { s.tap with cells := loaded } })

/-- IDCODE: the part's code leaves least significant bit first. -/
def execIdcode (s : State) : Res :=
  .next ((tapScan s 2 false false).emit (.tdo ((List.range 32).map fun i => s.part.idcode.getLsbD i)))

/-- HIGHZ: the outputs float, with the bypass register selected. -/
def execHighz (s : State) : Res := .next (tapInReset s ((tapScan s 3 false true).emit (.tdo [false])))

/-- CLAMP: the outputs keep the cells' levels, with the bypass register selected. -/
def execClamp (s : State) : Res := .next (tapInReset s ((tapScan s 4 true false).emit (.tdo [false])))

/-- BYPASS, and any instruction that R532 does not list. -/
def execBypass (code : Nat) (s : State) : Res :=
  onOk (decide (code < 256)) (if code ≤ 4 then s else tapBypass s)

end Sys2Proof.Machine
end

