-- ==== Sys2Proof/Machine/Dispatch.lean ====
section
/-! DEFINITION. Every command's meaning, one arm per constructor of Instr. -/

namespace Sys2Proof.Machine

def exec (i : Instr) (s : State) : Host.Outcome State Fault Refusal :=
  match i with
  | .registerWrite who addr w => Sys2Proof.Machine.execRegisterWrite who addr w s
  | .rcCounterRead addr events => Sys2Proof.Machine.execRcCounterRead addr events s
  | .flitReceive t e f isNak => Sys2Proof.Machine.execFlitReceive t e f isNak s
  | .linkAckTimeout t => Sys2Proof.Machine.execLinkAckTimeout t s
  | .linkTrained t ok => Sys2Proof.Machine.execLinkTrained t ok s
  | .mgmtAccessTimeout t => Sys2Proof.Machine.execMgmtAccessTimeout t s
  | .paceMeasure ratio => Sys2Proof.Machine.execPaceMeasure ratio s
  | .tileEvent t => Sys2Proof.Machine.execTileEvent t s
  | .mediaRequest t => Sys2Proof.Machine.execMediaRequest t s
  | .captureStart t c h passed => Sys2Proof.Machine.execCaptureStart t c h passed s
  | .captureEnd t c h a b => Sys2Proof.Machine.execCaptureEnd t c h a b s
  | .wedgeSpanHold t l => Sys2Proof.Machine.execWedgeSpanHold t l s
  | .phaseErrorWindow t l errs => Sys2Proof.Machine.execPhaseErrorWindow t l errs s
  | .asperityBegin t l pos last => Sys2Proof.Machine.execAsperityBegin t l pos last s
  | .asperityEnd t l pos last => Sys2Proof.Machine.execAsperityEnd t l pos last s
  | .laneSleep t l => Sys2Proof.Machine.execLaneSleep t l s
  | .laneWakeDone t l => Sys2Proof.Machine.execLaneWakeDone t l s
  | .trainingPassEnd t c z passes => Sys2Proof.Machine.execTrainingPassEnd t c z passes s
  | .laneTapWrite t l k w => Sys2Proof.Machine.execLaneTapWrite t l k w s
  | .decodeResult t job => Sys2Proof.Machine.execDecodeResult t job s
  | .pinExpire t c h => Sys2Proof.Machine.execPinExpire t c h s
  | .formatterResult t => Sys2Proof.Machine.execFormatterResult t s
  | .sectorSend t => Sys2Proof.Machine.execSectorSend t s
  | .redetect t us => Sys2Proof.Machine.execRedetect t us s
  | .frameb t us => Sys2Proof.Machine.execFrameb t us s
  | .realign t us => Sys2Proof.Machine.execRealign t us s
  | .partner t us => Sys2Proof.Machine.execPartner t us s
  | .save t => Sys2Proof.Machine.execSave t s
  | .combine t => Sys2Proof.Machine.execCombine t s
  | .free t => Sys2Proof.Machine.execFree t s
  | .release t => Sys2Proof.Machine.execRelease t s
  | .hres t ctx => Sys2Proof.Machine.execHres t ctx s
  | .rres t ctx => Sys2Proof.Machine.execRres t ctx s
  | .cipherDecrypt t => Sys2Proof.Machine.execCipherDecrypt t s
  | .cipherEncrypt => Sys2Proof.Machine.execCipherEncrypt s
  | .sectorLanding rd us => Sys2Proof.Machine.execSectorLanding rd us s
  | .rdmaDataSend ix b us => Sys2Proof.Machine.execRdmaDataSend ix b us s
  | .readCompletion cmd => Sys2Proof.Machine.execReadCompletion cmd s
  | .sectorEncode t => Sys2Proof.Machine.execSectorEncode t s
  | .serialiserTake t c h late => Sys2Proof.Machine.execSerialiserTake t c h late s
  | .writeBurstStart t c h => Sys2Proof.Machine.execWriteBurstStart t c h s
  | .writeBurstEnd t c h => Sys2Proof.Machine.execWriteBurstEnd t c h s
  | .encroachReadback t => Sys2Proof.Machine.execEncroachReadback t s
  | .verifyRead t c h => Sys2Proof.Machine.execVerifyRead t c h s
  | .partnerRead t c h => Sys2Proof.Machine.execPartnerRead t c h s
  | .partnerRewrite t c h => Sys2Proof.Machine.execPartnerRewrite t c h s
  | .writeHeat t c h => Sys2Proof.Machine.execWriteHeat t c h s
  | .writeRunEnd t c h => Sys2Proof.Machine.execWriteRunEnd t c h s
  | .writeResult t => Sys2Proof.Machine.execWriteResult t s
  | .armFrameSlot t c => Sys2Proof.Machine.execArmFrameSlot t c s
  | .statusFrame t c frame => Sys2Proof.Machine.execStatusFrame t c frame s
  | .faultFrame t c frame => Sys2Proof.Machine.execFaultFrame t c frame s
  | .replyFrame t c frame => Sys2Proof.Machine.execReplyFrame t c frame s
  | .armLinkRestart t c => Sys2Proof.Machine.execArmLinkRestart t c s
  | .armLinkTrainStep t c pass => Sys2Proof.Machine.execArmLinkTrainStep t c pass s
  | .preampTempPoll t c => Sys2Proof.Machine.execPreampTempPoll t c s
  | .paccGo t c w => Sys2Proof.Machine.execPaccGo t c w s
  | .faultLatchClear t c k w => Sys2Proof.Machine.execFaultLatchClear t c k w s
  | .ladderEntry t => Sys2Proof.Machine.execLadderEntry t s
  | .bookingStart t c h => Sys2Proof.Machine.execBookingStart t c h s
  | .bookingEnd t c h => Sys2Proof.Machine.execBookingEnd t c h s
  | .tagFailureReturn t => Sys2Proof.Machine.execTagFailureReturn t s
  | .deadlineInstant cmd => Sys2Proof.Machine.execDeadlineInstant cmd s
  | .refaultWindowEnd t c kind h => Sys2Proof.Machine.execRefaultWindowEnd t c kind h s
  | .retirementMirrored t => Sys2Proof.Machine.execRetirementMirrored t s
  | .retirementFlashCopy ok => Sys2Proof.Machine.execRetirementFlashCopy ok s
  | .servoWedge t c h r first samples => Sys2Proof.Machine.execServoWedge t c h r first samples s
  | .headRecord t c h => Sys2Proof.Machine.execHeadRecord t c h s
  | .pilotRecord t c => Sys2Proof.Machine.execPilotRecord t c s
  | .seekCommand t c track => Sys2Proof.Machine.execSeekCommand t c track s
  | .pairAdvance t c => Sys2Proof.Machine.execPairAdvance t c s
  | .loadRequest t c track => Sys2Proof.Machine.execLoadRequest t c track s
  | .loadTimeout t c => Sys2Proof.Machine.execLoadTimeout t c s
  | .parkRequest t c => Sys2Proof.Machine.execParkRequest t c s
  | .parkStopReached t c => Sys2Proof.Machine.execParkStopReached t c s
  | .parkHoldEnd t c => Sys2Proof.Machine.execParkHoldEnd t c s
  | .parkTimeout t c => Sys2Proof.Machine.execParkTimeout t c s
  | .lostContribution t c => Sys2Proof.Machine.execLostContribution t c s
  | .lostWaitEnd t c => Sys2Proof.Machine.execLostWaitEnd t c s
  | .coefficientWrite t c loop sec ix w => Sys2Proof.Machine.execCoefficientWrite t c loop sec ix w s
  | .sectionControlWrite t c loop sec w => Sys2Proof.Machine.execSectionControlWrite t c loop sec w s
  | .usefbWrite t c loop on => Sys2Proof.Machine.execUsefbWrite t c loop on s
  | .wolfRearm t c h => Sys2Proof.Machine.execWolfRearm t c h s
  | .wolfstClear t c w => Sys2Proof.Machine.execWolfstClear t c w s
  | .pwmPeriod t c current vdiff => Sys2Proof.Machine.execPwmPeriod t c current vdiff s
  | .vcfltFall t c => Sys2Proof.Machine.execVcfltFall t c s
  | .vcfltReenable t c => Sys2Proof.Machine.execVcfltReenable t c s
  | .retractDriveEnd t c => Sys2Proof.Machine.execRetractDriveEnd t c s
  | .retractBrakeEnd t c => Sys2Proof.Machine.execRetractBrakeEnd t c s
  | .spindleTick t ix => Sys2Proof.Machine.execSpindleTick t ix s
  | .speedLoopStep t => Sys2Proof.Machine.execSpeedLoopStep t s
  | .spfltFall t => Sys2Proof.Machine.execSpfltFall t s
  | .runSet t => Sys2Proof.Machine.execRunSet t s
  | .runClear t => Sys2Proof.Machine.execRunClear t s
  | .measureEnd t => Sys2Proof.Machine.execMeasureEnd t s
  | .brakeMeasure t => Sys2Proof.Machine.execBrakeMeasure t s
  | .alignEnd t => Sys2Proof.Machine.execAlignEnd t s
  | .rampTimeout t => Sys2Proof.Machine.execRampTimeout t s
  | .startRetry t => Sys2Proof.Machine.execStartRetry t s
  | .recatchMeasureEnd t => Sys2Proof.Machine.execRecatchMeasureEnd t s
  | .recatchHoldEnd t => Sys2Proof.Machine.execRecatchHoldEnd t s
  | .stopBrakeEnd t => Sys2Proof.Machine.execStopBrakeEnd t s
  | .pfailFall => Sys2Proof.Machine.execPfailFall s
  | .pfailRise => Sys2Proof.Machine.execPfailRise s
  | .spindleRunCommand t => Sys2Proof.Machine.execSpindleRunCommand t s
  | .spindleStopCommand t => Sys2Proof.Machine.execSpindleStopCommand t s
  | .resetFails t => Sys2Proof.Machine.execResetFails t s
  | .ucsLoad e => Sys2Proof.Machine.execUcsLoad e s
  | .seal e => Sys2Proof.Machine.execSeal e s
  | .swap e => Sys2Proof.Machine.execSwap e s
  | .ucsRevert e => Sys2Proof.Machine.execUcsRevert e s
  | .cancel e => Sys2Proof.Machine.execCancel e s
  | .ucsDataWrite e w => Sys2Proof.Machine.execUcsDataWrite e w s
  | .ucsDataRead e => Sys2Proof.Machine.execUcsDataRead e s
  | .swapEffect e => Sys2Proof.Machine.execSwapEffect e s
  | .nop e th => Sys2Proof.Machine.execNop e th s
  | .add e th => Sys2Proof.Machine.execAdd e th s
  | .sub e th => Sys2Proof.Machine.execSub e th s
  | .and e th => Sys2Proof.Machine.execAnd e th s
  | .or e th => Sys2Proof.Machine.execOr e th s
  | .xor e th => Sys2Proof.Machine.execXor e th s
  | .shl e th => Sys2Proof.Machine.execShl e th s
  | .shr e th => Sys2Proof.Machine.execShr e th s
  | .sar e th => Sys2Proof.Machine.execSar e th s
  | .mul e th => Sys2Proof.Machine.execMul e th s
  | .slt e th => Sys2Proof.Machine.execSlt e th s
  | .sltu e th => Sys2Proof.Machine.execSltu e th s
  | .min e th => Sys2Proof.Machine.execMin e th s
  | .max e th => Sys2Proof.Machine.execMax e th s
  | .addi e th => Sys2Proof.Machine.execAddi e th s
  | .andi e th => Sys2Proof.Machine.execAndi e th s
  | .ori e th => Sys2Proof.Machine.execOri e th s
  | .lui e th => Sys2Proof.Machine.execLui e th s
  | .shli e th => Sys2Proof.Machine.execShli e th s
  | .shri e th => Sys2Proof.Machine.execShri e th s
  | .sari e th => Sys2Proof.Machine.execSari e th s
  | .mac e th => Sys2Proof.Machine.execMac e th s
  | .msu e th => Sys2Proof.Machine.execMsu e th s
  | .aclr e th => Sys2Proof.Machine.execAclr e th s
  | .aout e th => Sys2Proof.Machine.execAout e th s
  | .beq e th => Sys2Proof.Machine.execBeq e th s
  | .bne e th => Sys2Proof.Machine.execBne e th s
  | .blt e th => Sys2Proof.Machine.execBlt e th s
  | .bge e th => Sys2Proof.Machine.execBge e th s
  | .jmp e th => Sys2Proof.Machine.execJmp e th s
  | .call e th => Sys2Proof.Machine.execCall e th s
  | .ret e th => Sys2Proof.Machine.execRet e th s
  | .endThread e th => Sys2Proof.Machine.execEndThread e th s
  | .ldr e th => Sys2Proof.Machine.execLdr e th s
  | .str e th => Sys2Proof.Machine.execStr e th s
  | .lds e th => Sys2Proof.Machine.execLds e th s
  | .sts e th => Sys2Proof.Machine.execSts e th s
  | .wait e th => Sys2Proof.Machine.execWait e th s
  | .fault e th => Sys2Proof.Machine.execFault e th s
  | .treq th => Sys2Proof.Machine.execTreq th s
  | .breq th => Sys2Proof.Machine.execBreq th s
  | .cpl th => Sys2Proof.Machine.execCpl th s
  | .rdma th => Sys2Proof.Machine.execRdma th s
  | .owlPost th => Sys2Proof.Machine.execOwlPost th s
  | .tileResponse th d1 d2 => Sys2Proof.Machine.execTileResponse th d1 d2 s
  | .bufferResponse th d1 d2 => Sys2Proof.Machine.execBufferResponse th d1 d2 s
  | .rdmaResponse th d1 d2 => Sys2Proof.Machine.execRdmaResponse th d1 d2 s
  | .dispatchTimerTick => Sys2Proof.Machine.execDispatchTimerTick s
  | .setp t c => Sys2Proof.Machine.execSetp t c s
  | .pred t c => Sys2Proof.Machine.execPred t c s
  | .vcmd t c => Sys2Proof.Machine.execVcmd t c s
  | .ctlMode t c => Sys2Proof.Machine.execCtlMode t c s
  | .frep t c => Sys2Proof.Machine.execFrep t c s
  | .iref t => Sys2Proof.Machine.execIref t s
  | .vvec t => Sys2Proof.Machine.execVvec t s
  | .spnState t => Sys2Proof.Machine.execSpnState t s
  | .retract t => Sys2Proof.Machine.execRetract t s
  | .spflt t => Sys2Proof.Machine.execSpflt t s
  | .book t ctx => Sys2Proof.Machine.execBook t ctx s
  | .accept t ctx => Sys2Proof.Machine.execAccept t ctx s
  | .drop t ctx => Sys2Proof.Machine.execDrop t ctx s
  | .step t ctx => Sys2Proof.Machine.execStep t ctx s
  | .slot t ctx => Sys2Proof.Machine.execSlot t ctx s
  | .frameReceive p k f => Sys2Proof.Machine.execFrameReceive p k f s
  | .arpRequest p k addr => Sys2Proof.Machine.execArpRequest p k addr s
  | .neighborSolicitation p k addr => Sys2Proof.Machine.execNeighborSolicitation p k addr s
  | .icmpEcho p k addr => Sys2Proof.Machine.execIcmpEcho p k addr s
  | .pcsAlignmentLoss p k => Sys2Proof.Machine.execPcsAlignmentLoss p k s
  | .pcsRealigned p k => Sys2Proof.Machine.execPcsRealigned p k s
  | .pfcRefresh p k prio => Sys2Proof.Machine.execPfcRefresh p k prio s
  | .pfcFrame p k prio quanta => Sys2Proof.Machine.execPfcFrame p k prio quanta s
  | .cnpReceive p k qp => Sys2Proof.Machine.execCnpReceive p k qp s
  | .rateRecovery qp => Sys2Proof.Machine.execRateRecovery qp s
  | .ackReceive qp psn => Sys2Proof.Machine.execAckReceive qp psn s
  | .nakReceive qp kind psn => Sys2Proof.Machine.execNakReceive qp kind psn s
  | .ackTimeout qp => Sys2Proof.Machine.execAckTimeout qp s
  | .rdmaReadResponse cmd blk data => Sys2Proof.Machine.execRdmaReadResponse cmd blk data s
  | .capsuleReceive qp cap => Sys2Proof.Machine.execCapsuleReceive qp cap s
  | .cmReq r => Sys2Proof.Machine.execCmReq r s
  | .cmRtu qp => Sys2Proof.Machine.execCmRtu qp s
  | .cmDreq qp => Sys2Proof.Machine.execCmDreq qp s
  | .cmDrep qp => Sys2Proof.Machine.execCmDrep qp s
  | .cmRej qp => Sys2Proof.Machine.execCmRej qp s
  | .cmMra qp => Sys2Proof.Machine.execCmMra qp s
  | .keepAliveTimeout cntlid => Sys2Proof.Machine.execKeepAliveTimeout cntlid s
  | .pdownTimeout p k => Sys2Proof.Machine.execPdownTimeout p k s
  | .capsuleAdmit qp => Sys2Proof.Machine.execCapsuleAdmit qp s
  | .qfullTimeout qp => Sys2Proof.Machine.execQfullTimeout qp s
  | .orderingTurn cmd => Sys2Proof.Machine.execOrderingTurn cmd s
  | .invalidationScanDone cmd => Sys2Proof.Machine.execInvalidationScanDone cmd s
  | .read cmd t1 t2 => Sys2Proof.Machine.execRead cmd t1 t2 s
  | .write cmd => Sys2Proof.Machine.execWrite cmd s
  | .writeZeroes cmd => Sys2Proof.Machine.execWriteZeroes cmd s
  | .zoneAppend cmd => Sys2Proof.Machine.execZoneAppend cmd s
  | .flush cmd => Sys2Proof.Machine.execFlush cmd s
  | .datasetManagement cmd => Sys2Proof.Machine.execDatasetManagement cmd s
  | .zoneOpen cmd => Sys2Proof.Machine.execZoneOpen cmd s
  | .zoneClose cmd => Sys2Proof.Machine.execZoneClose cmd s
  | .zoneFinish cmd => Sys2Proof.Machine.execZoneFinish cmd s
  | .zoneReset cmd => Sys2Proof.Machine.execZoneReset cmd s
  | .zoneOffline cmd => Sys2Proof.Machine.execZoneOffline cmd s
  | .reportZones cmd => Sys2Proof.Machine.execReportZones cmd s
  | .extendedReportZones cmd => Sys2Proof.Machine.execExtendedReportZones cmd s
  | .identify cmd => Sys2Proof.Machine.execIdentify cmd s
  | .getLogPage cmd => Sys2Proof.Machine.execGetLogPage cmd s
  | .numberOfQueues cmd => Sys2Proof.Machine.execNumberOfQueues cmd s
  | .volatileWriteCache cmd => Sys2Proof.Machine.execVolatileWriteCache cmd s
  | .readDeadline cmd => Sys2Proof.Machine.execReadDeadline cmd s
  | .getFeatures cmd => Sys2Proof.Machine.execGetFeatures cmd s
  | .createIoCompletionQueue cmd => Sys2Proof.Machine.execCreateIoCompletionQueue cmd s
  | .createIoSubmissionQueue cmd => Sys2Proof.Machine.execCreateIoSubmissionQueue cmd s
  | .deleteIoSubmissionQueue cmd => Sys2Proof.Machine.execDeleteIoSubmissionQueue cmd s
  | .deleteIoCompletionQueue cmd => Sys2Proof.Machine.execDeleteIoCompletionQueue cmd s
  | .abort cmd => Sys2Proof.Machine.execAbort cmd s
  | .namespaceCreate cmd => Sys2Proof.Machine.execNamespaceCreate cmd s
  | .namespaceDelete cmd => Sys2Proof.Machine.execNamespaceDelete cmd s
  | .namespaceAttach cmd => Sys2Proof.Machine.execNamespaceAttach cmd s
  | .namespaceDetach cmd => Sys2Proof.Machine.execNamespaceDetach cmd s
  | .blankingDone nsid => Sys2Proof.Machine.execBlankingDone nsid s
  | .nsTableFlashWrite ok => Sys2Proof.Machine.execNsTableFlashWrite ok s
  | .zonePointerRecord nsid zone j => Sys2Proof.Machine.execZonePointerRecord nsid zone j s
  | .connect cmd => Sys2Proof.Machine.execConnect cmd s
  | .propertyGet cmd => Sys2Proof.Machine.execPropertyGet cmd s
  | .propertySet cmd => Sys2Proof.Machine.execPropertySet cmd s
  | .disconnect cmd => Sys2Proof.Machine.execDisconnect cmd s
  | .authenticationSend cmd => Sys2Proof.Machine.execAuthenticationSend cmd s
  | .authenticationReceive cmd => Sys2Proof.Machine.execAuthenticationReceive cmd s
  | .queueReset cmd => Sys2Proof.Machine.execQueueReset cmd s
  | .queueResetComplete qp => Sys2Proof.Machine.execQueueResetComplete qp s
  | .placementMap cmd => Sys2Proof.Machine.execPlacementMap cmd s
  | .retireCommand cmd => Sys2Proof.Machine.execRetireCommand cmd s
  | .reinstateCommand cmd => Sys2Proof.Machine.execReinstateCommand cmd s
  | .retirementMap cmd => Sys2Proof.Machine.execRetirementMap cmd s
  | .managementSend cmd => Sys2Proof.Machine.execManagementSend cmd s
  | .managementReceive cmd => Sys2Proof.Machine.execManagementReceive cmd s
  | .frameAvailable => Sys2Proof.Machine.execFrameAvailable s
  | .evictionEnd copy => Sys2Proof.Machine.execEvictionEnd copy s
  | .cleanDelayExpire nsid lba => Sys2Proof.Machine.execCleanDelayExpire nsid lba s
  | .cleanerIssue us => Sys2Proof.Machine.execCleanerIssue us s
  | .lockLines w => Sys2Proof.Machine.execLockLines w s
  | .unlockLines w => Sys2Proof.Machine.execUnlockLines w s
  | .invall => Sys2Proof.Machine.execInvall s
  | .staleClear ix w => Sys2Proof.Machine.execStaleClear ix w s
  | .woodpeckerBurst units tag1 tag2 map overwritten => Sys2Proof.Machine.execWoodpeckerBurst units tag1 tag2 map overwritten s
  | .woodpeckerSlow => Sys2Proof.Machine.execWoodpeckerSlow s
  | .keyLoad who sett slot => Sys2Proof.Machine.execKeyLoad who sett slot s
  | .slotErase who sett slot => Sys2Proof.Machine.execSlotErase who sett slot s
  | .eraseall => Sys2Proof.Machine.execEraseall s
  | .keyEraseNLow ns => Sys2Proof.Machine.execKeyEraseNLow ns s
  | .temperatureAlarm decidegrees => Sys2Proof.Machine.execTemperatureAlarm decidegrees s
  | .glitchTrip rail millivolts ns => Sys2Proof.Machine.execGlitchTrip rail millivolts ns s
  | .testOperation who sett => Sys2Proof.Machine.execTestOperation who sett s
  | .journalWriteDone sett slot ok => Sys2Proof.Machine.execJournalWriteDone sett slot ok s
  | .journalRetry sett slot => Sys2Proof.Machine.execJournalRetry sett slot s
  | .irqSourceEvent ic n id => Sys2Proof.Machine.execIrqSourceEvent ic n id s
  | .irqLevelFall ic n id withdrawn => Sys2Proof.Machine.execIrqLevelFall ic n id withdrawn s
  | .claim who ic n => Sys2Proof.Machine.execClaim who ic n s
  | .complete who ic n id => Sys2Proof.Machine.execComplete who ic n id s
  | .stackClear ic n => Sys2Proof.Machine.execStackClear ic n s
  | .sourceConfigWrite ic n id w => Sys2Proof.Machine.execSourceConfigWrite ic n id w s
  | .doorbell ic n w => Sys2Proof.Machine.execDoorbell ic n w s
  | .irqTimerExpire ic n => Sys2Proof.Machine.execIrqTimerExpire ic n s
  | .moderationTimeout ic n => Sys2Proof.Machine.execModerationTimeout ic n s
  | .targetIdle ic n => Sys2Proof.Machine.execTargetIdle ic n s
  | .send packet => Sys2Proof.Machine.execSend packet s
  | .fetch whole => Sys2Proof.Machine.execFetch whole s
  | .poll => Sys2Proof.Machine.execPoll s
  | .ident tag param => Sys2Proof.Machine.execIdent tag param s
  | .regRead tag param => Sys2Proof.Machine.execRegRead tag param s
  | .regWrite tag param => Sys2Proof.Machine.execRegWrite tag param s
  | .stageClear tag param => Sys2Proof.Machine.execStageClear tag param s
  | .stageWrite tag param => Sys2Proof.Machine.execStageWrite tag param s
  | .stageRead tag param => Sys2Proof.Machine.execStageRead tag param s
  | .commit tag param => Sys2Proof.Machine.execCommit tag param s
  | .revert tag param => Sys2Proof.Machine.execRevert tag param s
  | .version tag param => Sys2Proof.Machine.execVersion tag param s
  | .retire tag param => Sys2Proof.Machine.execRetire tag param s
  | .reinstate tag param => Sys2Proof.Machine.execReinstate tag param s
  | .maintEnter tag param => Sys2Proof.Machine.execMaintEnter tag param s
  | .maintLeave tag param => Sys2Proof.Machine.execMaintLeave tag param s
  | .calib tag param => Sys2Proof.Machine.execCalib tag param s
  | .keyErase tag param => Sys2Proof.Machine.execKeyErase tag param s
  | .power tag param => Sys2Proof.Machine.execPower tag param s
  | .resetStart => Sys2Proof.Machine.execResetStart s
  | .hubSoftReset => Sys2Proof.Machine.execHubSoftReset s
  | .tileReset t => Sys2Proof.Machine.execTileReset t s
  | .agreementCheck => Sys2Proof.Machine.execAgreementCheck s
  | .optimeWrite ok => Sys2Proof.Machine.execOptimeWrite ok s
  | .flashOperationDone ok => Sys2Proof.Machine.execFlashOperationDone ok s
  | .owlEvent code die unit status cause d0 d1 fromTile => Sys2Proof.Machine.execOwlEvent code die unit status cause d0 d1 fromTile s
  | .mergeWindowEnd ix => Sys2Proof.Machine.execMergeWindowEnd ix s
  | .owlClear => Sys2Proof.Machine.execOwlClear s
  | .firmwareRecord w => Sys2Proof.Machine.execFirmwareRecord w s
  | .cursorWrite w => Sys2Proof.Machine.execCursorWrite w s
  | .windowReadAdvance => Sys2Proof.Machine.execWindowReadAdvance s
  | .powerOn => Sys2Proof.Machine.execPowerOn s
  | .porstN ns => Sys2Proof.Machine.execPorstN ns s
  | .warmN ns => Sys2Proof.Machine.execWarmN ns s
  | .bootStep ok => Sys2Proof.Machine.execBootStep ok s
  | .tileBringInStep t ok copies => Sys2Proof.Machine.execTileBringInStep t ok copies s
  | .powerTransitionStep t => Sys2Proof.Machine.execPowerTransitionStep t s
  | .idleReturn t => Sys2Proof.Machine.execIdleReturn t s
  | .laneIdleSleep t l => Sys2Proof.Machine.execLaneIdleSleep t l s
  | .wakeN ns => Sys2Proof.Machine.execWakeN ns s
  | .wakeTimer => Sys2Proof.Machine.execWakeTimer s
  | .testEnable high => Sys2Proof.Machine.execTestEnable high s
  | .tapReset => Sys2Proof.Machine.execTapReset s
  | .extest => Sys2Proof.Machine.execExtest s
  | .samplePreload captured loaded => Sys2Proof.Machine.execSamplePreload captured loaded s
  | .idcode => Sys2Proof.Machine.execIdcode s
  | .highz => Sys2Proof.Machine.execHighz s
  | .clamp => Sys2Proof.Machine.execClamp s
  | .bypass code => Sys2Proof.Machine.execBypass code s
  | .hist t ctx => Sys2Proof.Machine.execHist t ctx s
  | .ignoredTransaction first => Sys2Proof.Machine.execIgnoredTransaction first s
  | .pfcPauseExpire p k prio => Sys2Proof.Machine.execPfcPauseExpire p k prio s
  | .rnrTimerExpire qp => Sys2Proof.Machine.execRnrTimerExpire qp s
  | .keyEraseNRelease => Sys2Proof.Machine.execKeyEraseNRelease s
  | .temperatureAlarmClear decidegrees => Sys2Proof.Machine.execTemperatureAlarmClear decidegrees s
  | .supplyLoss orderly => Sys2Proof.Machine.execSupplyLoss orderly s
  | .owlRecordComplete => Sys2Proof.Machine.execOwlRecordComplete s
  | .keepAlive cmd => Sys2Proof.Machine.execKeepAlive cmd s
  | .asynchronousEventRequest cmd => Sys2Proof.Machine.execAsynchronousEventRequest cmd s

end Sys2Proof.Machine
end

