-- ==== Sys2Proof/Machine/Idle.lean ====
section
/-! DEFINITION. What the device does when no command waits (entry 3): a microsecond of time passes. The
timers that registers show count with it (IRQ TIMER, R450; MGT.OPTIME, R473), and the receive buffers of
the host ports are emptied (entry 61). What waits for the tiles or for the executor goes on, and so
do changes of coefficient sets (R246). -/

namespace Sys2Proof.Machine

/-- A running TIMER of a target counts one microsecond down; at 0 it raises source 0x001 (R450). -/
def tickTimer (s : State) (a : Nat) : State :=
  match blkOf a with
  | some (b, o) =>
    let ic : Option Nat :=
      match b with
      | .irq => some 0
      | .tirq t => some (1 + t)
      | _ => none
    match ic with
    | some ic =>
      if 0x4000 ≤ o ∧ o % 0x400 = 0x28 then
        let n := (o - 0x4000) / 0x400
        let v := (s.reg a).toNat
        if v = 0 then s
        else
          let s := s.setReg a (w32 (v - 1))
          if v = 1 then irqEvent s ic n 1 else s
      else s
    | none => s
  | none => s

/-- The unit of MGT.OPTIME in ns: 1/1,024 hour (R473). -/
def optimeUnit : Nat := 3515625000

/-- A microsecond passes. -/
def idle (s : State) : State :=
  let n := s.now + us 1
  let s :=
    if n / optimeUnit ≠ s.now / optimeUnit then s.setReg (aMgt 0x30) (s.reg (aMgt 0x30) + 1) else s
  let s : State := { s with now := n }
  let s := (s.ports.map (·.1)).foldl rxDrain s
  resetHeads (settle (coefSteps ((s.regs.map (·.1)).foldl tickTimer s)))

end Sys2Proof.Machine
end

