-- ==== Sys2Proof/Safety.lean ====
section
/-! DEFINITION. The words the statements are written with: the canonical form of the register space, what it
means that nothing else of the state has changed, and that a tile's or the hub's side is powered. -/

namespace Sys2Proof.Machine

/-- The register space is in canonical form: addresses rise strictly and none is listed at its reset
value. -/
def State.regsWf (s : State) : Bool := Tab.wf (resetVal s.part) s.regs

/-- Every register reads as before, but those at the addresses `as`. -/
def regsKept (as : List Nat) (s t : State) : Prop := ∀ a, a ∉ as → t.reg a = s.reg a

/-- Nothing has changed but registers, and of these only those at the addresses `as`. -/
def onlyRegs (as : List Nat) (s t : State) : Prop := regsKept as s t ∧ t = { s with regs := t.regs }

/-- Nothing has changed but the registers at the addresses `as` and the units of the tiles. -/
def onlyTile (as : List Nat) (s t : State) : Prop := regsKept as s t ∧ t = { s with regs := t.regs, tl := t.tl }

/-- Tile `t` is present and its motion side powered. -/
def motionOn (s : State) (t : Nat) : Prop := s.hasTile t = true ∧ s.domOn (domMo t) = true

/-- Tile `t` is present and its channels powered. -/
def channelOn (s : State) (t : Nat) : Prop := s.hasTile t = true ∧ s.domOn (domCh t) = true

/-- An engine whose tile is present and whose domain is on. -/
def engineOn (s : State) (e : Nat) : Prop := e < 49 ∧ (e = 0 ∨ s.hasTile (engTile e) = true) ∧ s.domOn (engDom e) = true

/-- The registers of the interrupt controllers (R448). -/
def irqSpace (a : Nat) : Bool :=
  decide (0x30000 ≤ a ∧ a < 0x40000) ||
    decide (0x10000000 ≤ a ∧ 0x80000 ≤ a % 0x1000000 ∧ a % 0x1000000 < 0x100000)

/-- A register that raising a source or posting a record may change: one of an interrupt controller, or
OWL.LOST (R486). -/
def noticeReg (a : Nat) : Bool := irqSpace a || decide (a = aOwl 0x1C)

/-- Every register reads as before, but those at the addresses `as` and those that notices change. -/
def noticeRegsKept (as : List Nat) (s t : State) : Prop :=
  ∀ a, a ∉ as → noticeReg a = false → t.reg a = s.reg a

/-- Nothing has changed but the interrupt controllers, the recorder's queue and what has been emitted. -/
def onlyNotices (s t : State) : Prop :=
  t = { s with regs := t.regs, irq := t.irq, owl := t.owl, out := t.out } ∧ s.out <:+ t.out ∧ noticeRegsKept [] s t

/-- As `onlyNotices`, and the registers at the addresses `as`. -/
def regsAndNotices (as : List Nat) (s t : State) : Prop :=
  t = { s with regs := t.regs, irq := t.irq, owl := t.owl, out := t.out } ∧ s.out <:+ t.out ∧ noticeRegsKept as s t

/-- As `regsAndNotices`, and the units of the tiles. -/
def tileAndNotices (as : List Nat) (s t : State) : Prop :=
  t = { s with regs := t.regs, irq := t.irq, owl := t.owl, out := t.out, tl := t.tl } ∧ s.out <:+ t.out ∧
    noticeRegsKept as s t

/-- Nothing has changed but registers, what notices change, the units of the tiles and the free values taken. -/
def tilesOnly (s t : State) : Prop :=
  t = { s with regs := t.regs, irq := t.irq, owl := t.owl, out := t.out, tl := t.tl, free := t.free } ∧ s.out <:+ t.out

/-- Thread `th` of engine `e` runs: the engine is on, the thread lives, waits for nothing and has a word of
STEPMAX left. -/
def running (s : State) (e th : Nat) : Prop :=
  engineOn s e ∧ th < engThreads e ∧ (thread s e th).live = true ∧ (thread s e th).wait = none ∧
    (thread s e th).steps < stepMax s e

/-- Thread `th` of engine `e` runs, and the word `w` of its bank is next; a thread of the default ladder image runs
by its messages instead (entry 16). -/
def runsWord (s : State) (e th : Nat) (w : Word) : Prop := running s e th ∧ byProgram s e th = false ∧ wordAt s e th = w

/-- Thread `th` of engine `e` posts a message of a kind with its operands, and is then in `k`: by the POST word that is
next, or, for the default ladder image, by the move that is next. -/
def posts (s : State) (e th kind a b : Nat) (k : State) : Prop :=
  (∃ w, runsWord s e th w ∧ fld w 31 26 = 0x30 ∧ fld w 15 8 = kind ∧ a = (getReg s e th (fld w 25 21)).toNat ∧
    b = (getReg s e th (fld w 20 16)).toNat ∧ (thread s e th).pc + 1 < storeWords e ∧ (thread s e th).pc ≠ 14 ∧
    k = { setThread s e th { thread s e th with pc := (thread s e th).pc + 1, steps := (thread s e th).steps + 1 } with
      out := .post e kind a b :: s.out }) ∨
  (∃ m rest, byProgram s e th = true ∧ (thread s e th).live = true ∧ (thread s e th).wait = none ∧
    (s.ctx (engTile e) th).prog.todo = m :: rest ∧ moveOps m = some (kind, a, b) ∧
    k = { setThread (s.modCtx (engTile e) th fun y => { y with prog := { y.prog with todo := rest } }) e th
        { thread s e th with steps := (thread s e th).steps + 1 } with
      out := .post e kind a b :: s.out })

/-- The thread has gone on to the address `pc` with one more word counted and its engine's accumulator holds
`acc`; other threads and engines and the store are as before, and nothing but the engines has changed. -/
def wentOnAcc (s u : State) (e th pc : Nat) (acc : Int) : Prop :=
  (thread u e th).pc = pc ∧ (thread u e th).steps = (thread s e th).steps + 1 ∧ (thread u e th).live = true ∧
    (thread u e th).wait = none ∧ (∀ j, j ≠ th → thread u e j = thread s e j) ∧ (∀ d, d ≠ e → u.eng d = s.eng d) ∧
    (u.eng e).acc = acc ∧ (u.eng e).b0 = (s.eng e).b0 ∧ (u.eng e).b1 = (s.eng e).b1 ∧
    u = { s with tl := { s.tl with engines := u.tl.engines } }

/-- As `wentOnAcc`, with the accumulator as before. -/
def wentOn (s u : State) (e th pc : Nat) : Prop := wentOnAcc s u e th pc (s.eng e).acc

/-- Of a thread's registers only `a` has changed, and reads `w`; g0 reads 0; scratch memory is as before. -/
def regSet (s u : State) (e th a : Nat) (w : Word) : Prop :=
  (u.eng e).scratch = (s.eng e).scratch ∧
    ∀ r, getReg u e th r = if r = 0 then 0 else if r = a then w else getReg s e th r

/-- No head of the cluster has its write gate open. -/
def gatesShut (s : State) (t c : Nat) : Prop := ∀ h, h < 24 → (s.headW (headIdx t c h)).gate = false

/-- No head of the cluster is within a sector: its gate is shut, and no burst waits at a wedge span (R144). -/
def noneWriting (s : State) (t c : Nat) : Prop := ∀ h, h < 24 → (s.headW (headIdx t c h)).writing = false

/-- An event of a routine store's engine `e` has come to its image: the routine at the vector begins for head `h`, or
the event waits until the routine under way has ended (R283, R288). -/
def vectored (s u : State) (e v h : Nat) : Prop :=
  if (thread s e 0).live then (u.eng e).queue = (s.eng e).queue ++ [(v, h)]
  else thread u e 0 = ⟨true, liveBank s e, v, 0, none, [], v, h, false, false⟩

/-- Command `i` is a live command of a host whose completion is sent, with the packet opcode `op`. -/
def hostCmd (s : State) (i op : Nat) : Prop :=
  (s.cmd i).live = true ∧ (s.cmd i).origin = .host ∧ (s.cmd i).old = false ∧ cmdOp (s.cmd i) = op

/-- Packets of a transfer of `len` bytes on a queue pair (R308). -/
def packetsOf (s : State) (n len : Nat) : Nat := max 1 ((len + qpMtu s n - 1) / qpMtu s n)

/-- The packets that a sub-port sends for a transfer from sequence number `psn` on; none while it is down (R302). -/
def onWire (s : State) (n psn kind len : Nat) : List Out :=
  let q := s.qp n
  if subUp s q.port q.sub then
    [.packets n psn (if kind = 2 then 1 else packetsOf s n len) kind (s.fld (aHpt q.port 0x14) 31 26)
      (tagOf s q.port false) (s.bit (aHpt q.port 0x10) 31)]
  else []

/-- A completion entry, newest first: its packet from `psn` on, and the entry. -/
def cqeSent (s : State) (n psn cid dw0 dw1 sct sc : Nat) (dnr : Bool) : List Out :=
  onWire s n psn 0 16 ++ [.cqe n cid dw0 dw1 (s.qp n).sqhd sct sc dnr]

/-- An RDMA Write of `bs`, newest first: its packets from `psn` on, and the transfer. -/
def writeSent (s : State) (n psn addr key : Nat) (bs : Payload) (len : Nat) : List Out :=
  onWire s n psn 1 len ++ [.rdmaWrite n addr key bs]

/-- Command `i` has completed: its entry with DW0, DW1 and the status is the newest output, and it has left the
device. -/
def completes (s u : State) (i dw0 dw1 : Nat) (st : Status) : Prop :=
  u.out = cqeSent s (s.cmd i).qp (s.qp (s.cmd i).qp).psn (s.cmd i).cap.cid dw0 dw1 st.sct st.code st.dnr ++ s.out ∧
    (u.cmd i).live = false

/-- The executor, the flash, power, the ports and the test port are as before. -/
def hostSideOnly (s u : State) : Prop :=
  u.mgmt = s.mgmt ∧ u.flash = s.flash ∧ u.power = s.power ∧ u.ports = s.ports ∧ u.tap = s.tap

/-- Command `i` is a live admin command of a host at its turn, with the packet opcode `op`, not waiting for the
executor or a flash write. -/
def adminCmd (s : State) (i op : Nat) : Prop := hostCmd s i op ∧ (s.cmd i).turned = true ∧ runsOn s i = false

/-- Command `i` is not one that the admin row of opcode `op` acts on now. -/
def adminIdle (s : State) (i op : Nat) : Prop :=
  (s.cmd i).live = false ∨ (s.cmd i).turned = false ∨ cmdOp (s.cmd i) ≠ op ∨ runsOn s i = true

/-- As `completes` with ST_OK, after an RDMA Write of `bs` to the command's data buffer. -/
def returns (s u : State) (i : Nat) (bs : Payload) : Prop :=
  u.out = cqeSent s (s.cmd i).qp (((s.qp (s.cmd i).qp).psn + packetsOf s (s.cmd i).qp bs.length) % 2 ^ 24) (s.cmd i).cap.cid
      (s.cmd i).dw0 (s.cmd i).dw1 Status.ok.sct Status.ok.code Status.ok.dnr ++
    writeSent s (s.cmd i).qp (s.qp (s.cmd i).qp).psn (s.cmd i).cap.sglAddr (s.cmd i).cap.sglKey bs bs.length ++ s.out ∧
    (u.cmd i).live = false

/-- Command `i` has completed with a status of the Fabrics (R322): SCT 0x1, DNR set. -/
def fabricStatus (s u : State) (i dw0 sc : Nat) : Prop :=
  u.out = cqeSent s (s.cmd i).qp (s.qp (s.cmd i).qp).psn (s.cmd i).cap.cid dw0 0 1 sc true ++ s.out ∧ (u.cmd i).live = false

/-- An interrupt controller that is powered: the hub's outside PS4, or a present tile's with its motion side on. -/
def irqOn (s : State) (ic : Nat) : Prop :=
  ic = 0 ∧ s.domOn 1 = true ∧ s.power.deep ≠ .ps4 ∨ 1 ≤ ic ∧ ic ≤ 8 ∧ motionOn s (ic - 1)

/-- Nothing has changed but the interrupt controllers and what has been emitted. -/
def irqsOnly (s u : State) : Prop :=
  u = { s with regs := u.regs, irq := u.irq, out := u.out } ∧ s.out <:+ u.out ∧
    ∀ a, irqSpace a = false → u.reg a = s.reg a

/-- The port's operation `op` with this TAG and PARAM alone waits at the executor, which is awake with no long
operation in progress. -/
def opReady (s : State) (op tag : Nat) (param : Payload) : Prop :=
  s.mgmt.waiting = [⟨.port, op, tag, 0, param⟩] ∧ s.mgmt.long = none ∧ 6 ≤ s.power.boot ∧ s.power.deep = .awake ∧
    tag < 65536 ∧ param.length ≤ 4096

/-- The operation that waited has ended with a reply on the port. -/
def opEnds (u : State) (op tag : Nat) (st : Status) (data : Payload) : Prop :=
  u.mgmt.reply = some (replyPacket op tag st.code data) ∧ u.mgmt.busy = false

/-- Nothing has changed but the management side, the interrupt controllers, registers and what has been emitted. -/
def mgmtOnly (s u : State) : Prop := u = { s with regs := u.regs, irq := u.irq, out := u.out, mgmt := u.mgmt }

/-- A block whose every writable register is plain: a write sets its fields and does nothing else. -/
def plainBlk : RegBlk → Bool
  | .hub | .pwr | .mgt | .hpt _ | .nq | .memp | .tile _ | .det _ | .wrt _ | .srv _ _ => true
  | _ => false

/-- Head `i` still has to read for a request: it stands among the sectors wanted or in the capture queue. -/
def wanted (s : State) (i : Nat) (req : MediaReq) : Prop :=
  (∃ w ∈ (s.head i).want, w.req = req) ∨ ∃ e ∈ (s.head i).capQ, ∃ w ∈ e.a.toList ++ e.b.toList, w.req = req

end Sys2Proof.Machine
end

