-- ==== Sys2Proof/WellFormed.lean ====
section
/-! DEFINITION. The commands whose operands lie in the ranges of the indices (R8) and of the fields that
carry them. A command outside them is no command of the device: `exec` answers it with the fault
`badOperand`, in every state. -/

namespace Sys2Proof

/-- A tile's number. -/
def tileOk (t : Nat) : Bool := decide (t < 8)
/-- A tile's and a cluster's number. -/
def clusterOk (t c : Nat) : Bool := tileOk t && decide (c < 4)
/-- A tile's, a cluster's and a head's number. -/
def headOk (t c h : Nat) : Bool := clusterOk t c && decide (h < 24)
/-- A tile's and a lane's number. -/
def laneOk (t l : Nat) : Bool := tileOk t && decide (l < 192)
/-- A port's and a sub-port's number. -/
def subOk (p k : Nat) : Bool := decide (p < 10) && decide (k < 4)
/-- A sett's and a slot's number. -/
def slotOk (sett slot : Nat) : Bool := decide (sett < 256) && decide (slot < 8)
/-- The tag and the parameters of a management operation (R454). -/
def opOk (tag : Nat) (param : Payload) : Bool := decide (tag < 65536) && decide (param.length ≤ 4096)
/-- An engine and one of its threads (R282). -/
def wordOk (e th : Nat) : Bool := decide (e < 49) && decide (th < Machine.engThreads e)

/-- Whether a command's operands are in range. -/
def Instr.wf : Instr → Bool
  | .registerWrite _ addr _ => decide (addr < 2 ^ 32)
  | .rcCounterRead addr _ => decide (addr < 2 ^ 32)
  | .flitReceive t e _ _ => tileOk t && decide (e < 2)
  | .linkAckTimeout t => tileOk t
  | .linkTrained t _ => tileOk t
  | .mgmtAccessTimeout t => tileOk t
  | .paceMeasure _ => true
  | .tileEvent t => tileOk t
  | .mediaRequest t => tileOk t
  | .captureStart t c h _ => headOk t c h
  | .captureEnd t c h _ _ => headOk t c h
  | .wedgeSpanHold t l => laneOk t l
  | .phaseErrorWindow t l _ => laneOk t l
  | .asperityBegin t l _ _ => laneOk t l
  | .asperityEnd t l _ _ => laneOk t l
  | .laneSleep t l => laneOk t l
  | .laneWakeDone t l => laneOk t l
  | .trainingPassEnd t c z _ => clusterOk t c && decide (z < 32)
  | .laneTapWrite t l k _ => laneOk t l && decide (k < 16)
  | .decodeResult t _ => tileOk t
  | .pinExpire t c h => headOk t c h
  | .formatterResult t => tileOk t
  | .sectorSend t => tileOk t
  | .redetect t _ => tileOk t
  | .frameb t _ => tileOk t
  | .realign t _ => tileOk t
  | .partner t _ => tileOk t
  | .save t => tileOk t
  | .combine t => tileOk t
  | .free t => tileOk t
  | .release t => tileOk t
  | .hres t ctx => tileOk t && decide (ctx < 256)
  | .rres t ctx => tileOk t && decide (ctx < 256)
  | .cipherDecrypt t => tileOk t
  | .cipherEncrypt => true
  | .sectorLanding _ _ => true
  | .rdmaDataSend _ _ _ => true
  | .readCompletion _ => true
  | .sectorEncode t => tileOk t
  | .serialiserTake t c h _ => headOk t c h
  | .writeBurstStart t c h => headOk t c h
  | .writeBurstEnd t c h => headOk t c h
  | .encroachReadback t => tileOk t
  | .verifyRead t c h => headOk t c h
  | .partnerRead t c h => headOk t c h
  | .partnerRewrite t c h => headOk t c h
  | .writeHeat t c h => headOk t c h
  | .writeRunEnd t c h => headOk t c h
  | .writeResult t => tileOk t
  | .armFrameSlot t c => clusterOk t c
  | .statusFrame t c _ => clusterOk t c
  | .faultFrame t c _ => clusterOk t c
  | .replyFrame t c _ => clusterOk t c
  | .armLinkRestart t c => clusterOk t c
  | .armLinkTrainStep t c _ => clusterOk t c
  | .preampTempPoll t c => clusterOk t c
  | .paccGo t c _ => clusterOk t c
  | .faultLatchClear t c k _ => clusterOk t c && decide (k < 6)
  | .ladderEntry t => tileOk t
  | .bookingStart t c h => headOk t c h
  | .bookingEnd t c h => headOk t c h
  | .tagFailureReturn t => tileOk t
  | .deadlineInstant _ => true
  | .refaultWindowEnd t c _ _ => clusterOk t c
  | .retirementMirrored t => tileOk t
  | .retirementFlashCopy _ => true
  | .servoWedge t c h r _ _ => headOk t c h && decide (r < 2)
  | .headRecord t c h => headOk t c h
  | .pilotRecord t c => clusterOk t c
  | .seekCommand t c _ => clusterOk t c
  | .pairAdvance t c => clusterOk t c
  | .loadRequest t c _ => clusterOk t c
  | .loadTimeout t c => clusterOk t c
  | .parkRequest t c => clusterOk t c
  | .parkStopReached t c => clusterOk t c
  | .parkHoldEnd t c => clusterOk t c
  | .parkTimeout t c => clusterOk t c
  | .lostContribution t c => clusterOk t c
  | .lostWaitEnd t c => clusterOk t c
  | .coefficientWrite t c loop sec i _ => clusterOk t c && decide (loop < 25) && decide (sec < Machine.loopSecs loop) && decide (i < 5)
  | .sectionControlWrite t c loop sec _ => clusterOk t c && decide (loop < 25) && decide (sec < Machine.loopSecs loop)
  | .usefbWrite t c loop _ => clusterOk t c && decide (loop < 25)
  | .wolfRearm t c h => headOk t c h
  | .wolfstClear t c _ => clusterOk t c
  | .pwmPeriod t c _ _ => clusterOk t c
  | .vcfltFall t c => clusterOk t c
  | .vcfltReenable t c => clusterOk t c
  | .retractDriveEnd t c => clusterOk t c
  | .retractBrakeEnd t c => clusterOk t c
  | .spindleTick t _ => tileOk t
  | .speedLoopStep t => tileOk t
  | .spfltFall t => tileOk t
  | .runSet t => tileOk t
  | .runClear t => tileOk t
  | .measureEnd t => tileOk t
  | .brakeMeasure t => tileOk t
  | .alignEnd t => tileOk t
  | .rampTimeout t => tileOk t
  | .startRetry t => tileOk t
  | .recatchMeasureEnd t => tileOk t
  | .recatchHoldEnd t => tileOk t
  | .stopBrakeEnd t => tileOk t
  | .pfailFall => true
  | .pfailRise => true
  | .spindleRunCommand t => tileOk t
  | .spindleStopCommand t => tileOk t
  | .resetFails t => tileOk t
  | .ucsLoad e => decide (e < 49)
  | .seal e => decide (e < 49)
  | .swap e => decide (e < 49)
  | .ucsRevert e => decide (e < 49)
  | .cancel e => decide (e < 49)
  | .ucsDataWrite e _ => decide (e < 49)
  | .ucsDataRead e => decide (e < 49)
  | .swapEffect e => decide (e < 49)
  | .nop e th => wordOk e th
  | .add e th => wordOk e th
  | .sub e th => wordOk e th
  | .and e th => wordOk e th
  | .or e th => wordOk e th
  | .xor e th => wordOk e th
  | .shl e th => wordOk e th
  | .shr e th => wordOk e th
  | .sar e th => wordOk e th
  | .mul e th => wordOk e th
  | .slt e th => wordOk e th
  | .sltu e th => wordOk e th
  | .min e th => wordOk e th
  | .max e th => wordOk e th
  | .addi e th => wordOk e th
  | .andi e th => wordOk e th
  | .ori e th => wordOk e th
  | .lui e th => wordOk e th
  | .shli e th => wordOk e th
  | .shri e th => wordOk e th
  | .sari e th => wordOk e th
  | .mac e th => wordOk e th
  | .msu e th => wordOk e th
  | .aclr e th => wordOk e th
  | .aout e th => wordOk e th
  | .beq e th => wordOk e th
  | .bne e th => wordOk e th
  | .blt e th => wordOk e th
  | .bge e th => wordOk e th
  | .jmp e th => wordOk e th
  | .call e th => wordOk e th
  | .ret e th => wordOk e th
  | .endThread e th => wordOk e th
  | .ldr e th => wordOk e th
  | .str e th => wordOk e th
  | .lds e th => wordOk e th
  | .sts e th => wordOk e th
  | .wait e th => wordOk e th
  | .fault e th => wordOk e th
  | .treq th => decide (th < 64)
  | .breq th => decide (th < 64)
  | .cpl th => decide (th < 64)
  | .rdma th => decide (th < 64)
  | .owlPost th => decide (th < 64)
  | .tileResponse th _ _ => decide (th < 64)
  | .bufferResponse th _ _ => decide (th < 64)
  | .rdmaResponse th _ _ => decide (th < 64)
  | .dispatchTimerTick => true
  | .setp t c => clusterOk t c
  | .pred t c => clusterOk t c
  | .vcmd t c => clusterOk t c
  | .ctlMode t c => clusterOk t c
  | .frep t c => clusterOk t c
  | .iref t => tileOk t
  | .vvec t => tileOk t
  | .spnState t => tileOk t
  | .retract t => tileOk t
  | .spflt t => tileOk t
  | .book t ctx => tileOk t && decide (ctx < 256)
  | .accept t ctx => tileOk t && decide (ctx < 256)
  | .drop t ctx => tileOk t && decide (ctx < 256)
  | .step t ctx => tileOk t && decide (ctx < 256)
  | .slot t ctx => tileOk t && decide (ctx < 256)
  | .frameReceive p k f => subOk p k && decide (f.prio < 8) && Machine.qpOk f.qp
  | .arpRequest p k _ => subOk p k
  | .neighborSolicitation p k _ => subOk p k
  | .icmpEcho p k _ => subOk p k
  | .pcsAlignmentLoss p k => subOk p k
  | .pcsRealigned p k => subOk p k
  | .pfcRefresh p k prio => subOk p k && decide (prio < 8)
  | .pfcFrame p k prio quanta => subOk p k && decide (prio < 8) && decide (quanta < 65536)
  | .cnpReceive p k qp => subOk p k && Machine.qpOk qp
  | .rateRecovery qp => Machine.qpOk qp
  | .ackReceive qp psn => Machine.qpOk qp && decide (psn < 2 ^ 24)
  | .nakReceive qp kind psn => Machine.qpOk qp && decide (1 ≤ kind) && decide (kind ≤ 4) && decide (psn < 2 ^ 24)
  | .ackTimeout qp => Machine.qpOk qp
  | .rdmaReadResponse _ _ _ => true
  | .capsuleReceive qp _ => Machine.qpOk qp
  | .cmReq r => subOk r.port r.sub
  | .cmRtu qp => Machine.qpOk qp
  | .cmDreq qp => Machine.qpOk qp
  | .cmDrep qp => Machine.qpOk qp
  | .cmRej qp => Machine.qpOk qp
  | .cmMra qp => Machine.qpOk qp
  | .keepAliveTimeout cntlid => decide (1 ≤ cntlid) && decide (cntlid ≤ 1024)
  | .pdownTimeout p k => subOk p k
  | .capsuleAdmit qp => Machine.qpOk qp
  | .qfullTimeout qp => Machine.qpOk qp
  | .orderingTurn _ => true
  | .invalidationScanDone _ => true
  | .read _ _ _ => true
  | .write _ => true
  | .writeZeroes _ => true
  | .zoneAppend _ => true
  | .flush _ => true
  | .datasetManagement _ => true
  | .zoneOpen _ => true
  | .zoneClose _ => true
  | .zoneFinish _ => true
  | .zoneReset _ => true
  | .zoneOffline _ => true
  | .reportZones _ => true
  | .extendedReportZones _ => true
  | .identify _ => true
  | .getLogPage _ => true
  | .numberOfQueues _ => true
  | .volatileWriteCache _ => true
  | .readDeadline _ => true
  | .getFeatures _ => true
  | .createIoCompletionQueue _ => true
  | .createIoSubmissionQueue _ => true
  | .deleteIoSubmissionQueue _ => true
  | .deleteIoCompletionQueue _ => true
  | .abort _ => true
  | .namespaceCreate _ => true
  | .namespaceDelete _ => true
  | .namespaceAttach _ => true
  | .namespaceDetach _ => true
  | .blankingDone nsid => decide (1 ≤ nsid) && decide (nsid ≤ 4096)
  | .nsTableFlashWrite _ => true
  | .zonePointerRecord _ _ _ => true
  | .connect _ => true
  | .propertyGet _ => true
  | .propertySet _ => true
  | .disconnect _ => true
  | .authenticationSend _ => true
  | .authenticationReceive _ => true
  | .queueReset _ => true
  | .queueResetComplete qp => Machine.qpOk qp
  | .placementMap _ => true
  | .retireCommand _ => true
  | .reinstateCommand _ => true
  | .retirementMap _ => true
  | .managementSend _ => true
  | .managementReceive _ => true
  | .frameAvailable => true
  | .evictionEnd _ => true
  | .cleanDelayExpire _ _ => true
  | .cleanerIssue _ => true
  | .lockLines _ => true
  | .unlockLines _ => true
  | .invall => true
  | .staleClear i _ => decide (i < 768)
  | .woodpeckerBurst _ _ _ _ _ => true
  | .woodpeckerSlow => true
  | .keyLoad _ sett k => slotOk sett k
  | .slotErase _ sett k => slotOk sett k
  | .eraseall => true
  | .keyEraseNLow _ => true
  | .temperatureAlarm _ => true
  | .glitchTrip rail _ _ => decide (rail < 7)
  | .testOperation _ sett => decide (sett < 256)
  | .journalWriteDone sett k _ => slotOk sett k
  | .journalRetry sett k => slotOk sett k
  | .irqSourceEvent ic n id => Machine.irqOk ic n id
  | .irqLevelFall ic n id _ => Machine.irqOk ic n id
  | .claim _ ic n => Machine.irqOk ic n 0
  | .complete _ ic n id => Machine.irqOk ic n id
  | .stackClear ic n => Machine.irqOk ic n 0
  | .sourceConfigWrite ic n id _ => Machine.irqOk ic n id
  | .doorbell ic n _ => Machine.irqOk ic n 0
  | .irqTimerExpire ic n => Machine.irqOk ic n 0
  | .moderationTimeout ic n => Machine.irqOk ic n 0
  | .targetIdle ic n => Machine.irqOk ic n 0
  | .send _ => true
  | .fetch _ => true
  | .poll => true
  | .ident tag param => opOk tag param
  | .regRead tag param => opOk tag param
  | .regWrite tag param => opOk tag param
  | .stageClear tag param => opOk tag param
  | .stageWrite tag param => opOk tag param
  | .stageRead tag param => opOk tag param
  | .commit tag param => opOk tag param
  | .revert tag param => opOk tag param
  | .version tag param => opOk tag param
  | .retire tag param => opOk tag param
  | .reinstate tag param => opOk tag param
  | .maintEnter tag param => opOk tag param
  | .maintLeave tag param => opOk tag param
  | .calib tag param => opOk tag param
  | .keyErase tag param => opOk tag param
  | .power tag param => opOk tag param
  | .resetStart => true
  | .hubSoftReset => true
  | .tileReset t => tileOk t
  | .agreementCheck => true
  | .optimeWrite _ => true
  | .flashOperationDone _ => true
  | .owlEvent _ die _ _ _ _ _ fromTile => decide (die ≤ 8) && (fromTile == decide (die ≠ 0))
  | .mergeWindowEnd _ => true
  | .owlClear => true
  | .firmwareRecord _ => true
  | .cursorWrite _ => true
  | .windowReadAdvance => true
  | .powerOn => true
  | .porstN _ => true
  | .warmN _ => true
  | .bootStep _ => true
  | .tileBringInStep t _ _ => tileOk t
  | .powerTransitionStep t => decide (t ≤ 8)
  | .idleReturn t => tileOk t
  | .laneIdleSleep t l => laneOk t l
  | .wakeN _ => true
  | .wakeTimer => true
  | .testEnable _ => true
  | .tapReset => true
  | .extest => true
  | .samplePreload _ _ => true
  | .idcode => true
  | .highz => true
  | .clamp => true
  | .bypass code => decide (code < 256)
  | .hist t ctx => tileOk t && decide (ctx < 256)
  | .ignoredTransaction first => decide (first < 256)
  | .pfcPauseExpire p k prio => subOk p k && decide (prio < 8)
  | .rnrTimerExpire qp => Machine.qpOk qp
  | .keyEraseNRelease => true
  | .temperatureAlarmClear _ => true
  | .supplyLoss _ => true
  | .owlRecordComplete => true
  | .keepAlive _ => true
  | .asynchronousEventRequest _ => true

end Sys2Proof
end

