-- ==== Sys2Proof/Certificates/Slice0/Obligations.lean ====
section
/-! DEFINITION. The statements for the provers. Each says in its comment which rules of the spec it rests on. -/

open Sys2Proof Sys2Proof.Machine

/-- A step takes the command at the front of the queue; on an empty queue the device idles (entry 3, the model's choice). -/
def Obligations.StepRunsFrontCommand : Prop :=
  (∀ (i : Instr) (rest : List Instr) (s : State), step { s with pending := i :: rest } = exec i { s with pending := rest }) ∧
  (∀ s : State, s.pending = [] → step s = .next (idle s))

/-- In every state, a command whose indices are in range (R8) completes, and any other is answered with the fault `badOperand`. -/
def Obligations.InRangeCommandsComplete : Prop :=
  ∀ (i : Instr) (s : State),
    (i.wf = true → ∃ t, exec i s = .next t) ∧ (i.wf = false → exec i s = .fault .badOperand)

/-- Whatever command is at the front of the queue, and when the device idles, the register space stays canonical. -/
def Obligations.StepKeepsRegistersCanonical : Prop :=
  ∀ s t : State, s.regsWf = true → step s = .next t → t.regsWf = true

/-- The state after reset. -/
def Obligations.ResetIsCanonical : Prop :=
  State.reset.regsWf = true ∧ (∀ a, State.reset.reg a = resetVal State.reset.part a) ∧
  State.reset.pending = [] ∧ State.reset.out = [] ∧ State.reset.power.boot = 1 ∧ ∀ t, t < 8 → State.reset.linkState t = 0

/-- What no command changes, whatever else it does. -/
def Obligations.CommandsKeepTheRest : Prop :=
  ∀ (i : Instr) (s t : State), exec i s = .next t →
    t.part = s.part ∧ t.pending = s.pending ∧ t.now = s.now ∧ s.free ≤ t.free ∧ s.out <:+ t.out ∧
      (s.regsWf = true → t.regsWf = true)

/-- Idling is the model's choice (entry 3). -/
def Obligations.IdleStepPassesTime : Prop :=
  ∀ s : State, s.pending = [] → ∃ t, step s = .next t ∧ t.part = s.part ∧ t.pending = [] ∧ t.now = s.now + 1000 ∧
    s.free ≤ t.free ∧ s.out <:+ t.out ∧ (s.regsWf = true → t.regsWf = true)

/-- REGISTER_WRITE of plain registers (R11, R13, R108). -/
def Obligations.RegisterWriteSetsItsFields : Prop :=
  ∀ (s : State) (who : Who) (a : Nat) (w : Word) (b : RegBlk) (o : Nat) (r : RegRow),
    a < 2 ^ 32 → (∀ c, who ≠ .assoc c) →
    (a % 4 ≠ 0 → exec (.registerWrite who a w) s = .next { s with out := .reply who a w .badField :: s.out }) ∧
    (a % 4 = 0 → gateOf s a = .open_ → blkOf a = some (b, o) → plainBlk b = true → regRow s.part a = some r →
      (r.acc = .rw → fieldsOk s b o w = true → r.inRange w = true →
        ∃ t, exec (.registerWrite who a w) s = .next t ∧
          (∀ i, i < 32 → (t.reg a).getLsbD i = if r.mask.getLsbD i then w.getLsbD i else (s.reg a).getLsbD i) ∧
          regsKept [a] s t ∧ t = { s with regs := t.regs, out := .reply who a w .ok :: s.out }) ∧
      (r.acc = .rw → fieldsOk s b o w = true → r.inRange w = false →
        exec (.registerWrite who a w) s = .next { s with out := .reply who a w .badField :: s.out }) ∧
      (r.acc = .ro ∨ r.acc = .rc →
        exec (.registerWrite who a w) s = .next { s with out := .reply who a w .ok :: s.out }))

/-- RC_COUNTER_READ (R11, R12, R37). -/
def Obligations.RcCounterReadClears : Prop :=
  ∀ (s : State) (a : Nat) (ns : List Nat), a < 2 ^ 32 →
    (∀ (b : RegBlk) (o : Nat) (r : RegRow), gateOf s a = .open_ → blkOf a = some (b, o) →
      (plainBlk b = true ∧ b ≠ .memp ∧ (∀ p, b ≠ .hpt p) ∨ ∃ t c, b = .wrtc t c) → regRow s.part a = some r → r.acc = .rc →
      ∃ t, exec (.rcCounterRead a ns) s = .next t ∧
        t = { s with regs := t.regs, out := .reply .port a (viewReg s a) .ok :: s.out } ∧ regsKept [a] s t ∧
        (rcFields a = [(31, 0)] → t.reg a = w32 (min (nth 0 ns 0) (2 ^ 32 - 1))) ∧
        (rcFields a = [(15, 0), (31, 16)] → t.fld a 15 0 = min (nth 0 ns 0) 65535 ∧ t.fld a 31 16 = min (nth 0 ns 1) 65535)) ∧
    (gateOf s a = .wait → exec (.rcCounterRead a ns) s = .next { s with
      mgmt := { s.mgmt with accs := s.mgmt.accs ++ [⟨.port, a, none, ns⟩] } })

/-- FLIT_RECEIVE (R29, R30, R32, R33): `chan` and `total` are the flit's credit return, `n` the flit it asks for again. -/
def Obligations.FlitsArriveInOrder : Prop :=
  ∀ (s : State) (t e chan total n : Nat) (f : Payload), s.hasTile t = true → (s.linkState t = 2 ∨ s.linkState t = 3) →
    e < 2 → chan = beAt f 4 4 / 2 ^ 30 % 4 → total = beAt f 4 4 / 2 ^ 14 % 2 ^ 16 → n = beAt f 0 4 / 2 ^ 6 % 4096 →
    (flitOk f = true → flitSeq f = (s.link t e).rx →
      ∃ u, exec (.flitReceive t e f false) s = .next u ∧
        u.link t e = { s.link t e with
          rx := ((s.link t e).rx + 1) % 4096, bad := false
          credits := setNth (s.link t e).credits chan (min (nth 0 chanCredits chan)
            (nth 0 (s.link t e).credits chan + (total + 2 ^ 16 - nth 0 (s.link t e).totals chan) % 2 ^ 16))
          totals := setNth (s.link t e).totals chan (total % 2 ^ 16) } ∧
        (∀ t' e', 2 * t' + e' ≠ 2 * t + e → u.link t' e' = s.link t' e') ∧
        u = { s with tl := { s.tl with links := u.tl.links } }) ∧
    (∀ nak, (flitOk f = false ∨ flitSeq f ≠ (s.link t e).rx) →
      ((s.link t e).bad = false → exec (.flitReceive t e f nak) s =
        .next ((s.setLink t e { s.link t e with bad := true }).emit (.linkNak t e (s.link t e).rx))) ∧
      ((s.link t e).bad = true → exec (.flitReceive t e f nak) s = .next s)) ∧
    (∀ g, flitOk f = true → flitSeq f = (s.link t e).rx → (s.link t e).sent.find? (fun x => decide (flitSeq x = n)) = some g →
      (recentReplays s (s.link t e)).length + (recentReplays s (s.link t (1 - e))).length < 16 →
      ∃ u, exec (.flitReceive t e f true) s = .next u ∧
        u.out = (((s.link t e).sent.takeWhile fun x => decide (flitSeq x ≠ n)).map fun x => Out.flit t e x) ++
          .flit t e g :: s.out ∧
        u.fld (aHub (0x120 + 4 * t)) 31 0 = min (s.fld (aHub (0x120 + 4 * t)) 31 0 + 1) (2 ^ 32 - 1) ∧
        (u.link t e).rx = ((s.link t e).rx + 1) % 4096 ∧
        onlyRegs [aHub (0x120 + 4 * t)] s { u with tl := s.tl, out := s.out })

/-- LINK_ACK_TIMEOUT, LINK_TRAINED and PACE_MEASURE (R34, R35, R40). -/
def Obligations.LinksTrainAndRetrain : Prop :=
  ∀ (s : State) (t : Nat), s.hasTile t = true →
    ((s.linkState t = 2 ∨ s.linkState t = 3) → exec (.linkAckTimeout t) s = .next
      (irqEdge (((s.bumpF (aLink t) 23 16 1).setF (aLink t) 3 0 4).setF (aTile t 0x10) 3 0 4)
        0 (16 + t))) ∧
    (s.linkState t ≠ 2 → s.linkState t ≠ 3 → exec (.linkAckTimeout t) s = .next s) ∧
    (∀ ok, s.linkState t ≠ 1 → s.linkState t ≠ 4 → exec (.linkTrained t ok) s = .next s) ∧
    (s.linkState t = 1 → Tab.at 0 s.tl.linkFails t < 2 → exec (.linkTrained t false) s = .next
      (irqEdge (((({ s with tl := { s.tl with linkFails := Tab.to 0 s.tl.linkFails t (Tab.at 0 s.tl.linkFails t + 1) } }
        : State).bumpF (aLink t) 23 16 1).setF (aLink t) 3 0 4).setF (aTile t 0x10) 3 0 4)
        0 (16 + t))) ∧
    (s.linkState t = 4 → Tab.at 0 s.tl.linkFails t < 2 → exec (.linkTrained t false) s = .next
      (({ s with tl := { s.tl with linkFails := Tab.to 0 s.tl.linkFails t (Tab.at 0 s.tl.linkFails t + 1) } }
        : State).bumpF (aLink t) 23 16 1)) ∧
    (s.linkState t = 1 → Tab.at 0 s.power.bring t = 1 → ∃ u, exec (.linkTrained t true) s = .next u ∧
      u.linkState t = 2 ∧ Tab.at 0 u.power.bring t = 2 ∧ Tab.at 0 u.tl.linkFails t = 0 ∧
      (∀ e, e < 2 → u.link t e = { s.link t e with rx := 0, bad := false, sent := [], replays := [] }) ∧
      u.nq = s.nq ∧ u.buf = s.buf ∧ u.slots = s.slots ∧ u.flash = s.flash ∧ u.mgmt = s.mgmt) ∧
    (∀ ratio, s.domOn 1 = true → s.power.deep ≠ .ps4 → exec (.paceMeasure ratio) s =
      .next (s.setReg (aHub 0x10) (place 15 0 ratio))) ∧
    (∀ ratio, s.domOn 1 = false ∨ s.power.deep = .ps4 → exec (.paceMeasure ratio) s = .next s)

/-- WEDGE_SPAN_HOLD, PHASE_ERROR_WINDOW, ASPERITY_BEGIN and ASPERITY_END (R74, R76, R77, R87, R88), of a lane that no wedge
span holds before. -/
def Obligations.LanesHoldAndRideOut : Prop :=
  ∀ (s : State) (t l : Nat), channelOn s t → l < 192 →
    ((laneSt s t l = 4 ∨ laneSt s t l = 5 ∨ laneSt s t l = 6) → exec (.wedgeSpanHold t l) s = .next
      ((s.setF (aLane t l 4) 3 0 6).modLane t l fun x => { x with wedge := true })) ∧
    (laneSt s t l ≠ 4 → laneSt s t l ≠ 5 → laneSt s t l ≠ 6 → exec (.wedgeSpanHold t l) s = .next s) ∧
    ((s.lane t l).wedge = false →
      (∀ (errs : List Int) (p : Pll), laneBusy s t l = true → (laneSt s t l = 4 ∨ laneSt s t l = 5) →
        p = pllRun (laneCfg s t l 0) (if laneSt s t l = 4 then 64 else 0) (pllOf s t l) (errs.take 256) →
        ∃ u, exec (.phaseErrorWindow t l errs) s = .next u ∧ laneSt u t l = 5 ∧
          u.fld (aLane t l 0xC) 31 16 = pattern 16 (divRound (p.fofs * 10000000) (64 * 2 ^ 30)) ∧
          u.fld (aLane t l 0xC) 5 0 = pattern 6 (p.phase / 2 ^ 30) ∧
          ((4096 < absI ((errs.take 256).foldl (· + ·) 0) ∨ p.beyond = true) → u.bit (aLane t l 4) 19 = false ∧
            (u.lane t l).lost = true ∧ ∀ k ∈ laneCaps u t l, (if l % 2 = 0 then k.flA else k.flB).lockloss = true) ∧
          (absI ((errs.take 256).foldl (· + ·) 0) ≤ 4096 → p.beyond = false →
            u.bit (aLane t l 4) 19 = !(s.lane t l).lost ∧ u.tl.heads = s.tl.heads) ∧
          onlyTile [aLane t l 4, aLane t l 0xC] s u) ∧
      (∀ errs, laneBusy s t l = false ∨ laneSt s t l ≠ 4 ∧ laneSt s t l ≠ 5 → exec (.phaseErrorWindow t l errs) s = .next s) ∧
      (∀ (pos : Nat) (last : List Int), (laneSt s t l = 3 ∨ laneSt s t l = 4 ∨ laneSt s t l = 5) →
        s.bit (aLane t l 4) 18 = false → fld (laneCfg s t l 3) 31 27 ≠ 0 →
        asperityOn (fld (laneCfg s t l 3) 31 27) (max 1 (fld (laneCfg s t l 3) 23 16)) last = true →
        ∃ u, exec (.asperityBegin t l pos last) s = .next u ∧ laneSt u t l = (if laneSt s t l = 3 then 3 else 6) ∧
          u.bit (aLane t l 4) 18 = true ∧ (u.lane t l).taFrom = some pos ∧
          u.out = .hpf t l (fld (laneCfg s t l 2) 6 4) pos :: s.out ∧
          (tLane s t l = false → u.fld (aLane t l 0x50) 23 0 = min (s.fld (aLane t l 0x50) 23 0 + 1) (2 ^ 24 - 1)) ∧
          (∀ k ∈ laneCaps u t l, (if l % 2 = 0 then k.flA else k.flB).ta = true) ∧
          onlyTile [aLane t l 4, aLane t l 0x50] s { u with out := s.out }) ∧
      (∀ pos last, fld (laneCfg s t l 3) 31 27 = 0 ∨ s.bit (aLane t l 4) 18 = true →
        exec (.asperityBegin t l pos last) s = .next s) ∧
      (∀ (from_ pos : Nat) (last : List Int), (s.lane t l).taFrom = some from_ →
        asperityOff (fld (laneCfg s t l 3) 31 27) last = true →
        ∃ u, exec (.asperityEnd t l pos last) s = .next u ∧ laneSt u t l = (if laneSt s t l = 6 then 5 else laneSt s t l) ∧
          u.bit (aLane t l 4) 18 = false ∧ (u.lane t l).taFrom = none ∧
          u.out = .hpf t l (fld (laneCfg s t l 2) 10 8) (pos + 64) :: s.out ∧
          (from_ + 4096 < pos → ∀ k ∈ laneCaps u t l, (if l % 2 = 0 then k.flA else k.flB).longta = true) ∧
          onlyTile [aLane t l 4] s { u with out := s.out }) ∧
      (∀ pos last, (s.lane t l).taFrom = none → exec (.asperityEnd t l pos last) s = .next s))

/-- LANE_SLEEP, LANE_WAKE_DONE and LANE_IDLE_SLEEP (R97 to R99, R220, R497). -/
def Obligations.LanesSleepAndWake : Prop :=
  ∀ (s : State) (t l i : Nat), s.hasTile t = true → l < 192 → i = headIdx t (l / 48) (l % 48 / 2) →
    (∀ cmd : Instr, (cmd = .laneSleep t l ∧ s.domOn (domCh t) = true ∨
        cmd = .laneIdleSleep t l ∧ pwrTile s t = 1 ∧ moving s t = false ∧ s.fld (aPwr 4) 7 0 ≠ 0 ∧
          (s.lane t l).used + ms (s.fld (aPwr 4) 7 0) ≤ s.now) →
      laneSt s t l = 3 → s.fld (aLane t l 4) 17 16 = 0 → ∃ u, exec cmd s = .next u ∧
        laneSt u t l = 1 ∧ u.bit (aLane t l 0) 0 = true ∧ (u.lane t l).b0 = Bank.none ∧ (u.lane t l).b1 = Bank.none ∧
        (u.head i).held = [] ∧ (l % 2 = 1 → u.reg (aLane t l 8) = 0) ∧
        onlyTile [aLane t l 0, aLane t l 4, aLane t l 8] s u) ∧
    (s.domOn (domCh t) = true → (laneSt s t l ≠ 3 ∨ s.fld (aLane t l 4) 17 16 ≠ 0) →
      exec (.laneSleep t l) s = .next (s.setB (aLane t l 0) 0 true)) ∧
    (s.domOn (domCh t) = true → laneSt s t l = 2 → s.bit (aLane t l 0) 0 = false →
      ∃ u, exec (.laneWakeDone t l) s = .next u ∧ laneSt u t l = 3 ∧ (u.lane t l).used = s.now ∧
        u.reg (aLane t l 8) = w32 (zoneBits s t (s.fld (aLane t l 4) 12 8) * s.fld (aSpn t 0xC) 15 0 / 60000000) ∧
        u.bit (aSrv t (l / 48) (0x110 + 32 * (l % 48 / 2))) 31 = false ∧ (u.headS i).sepN = 0 ∧
        onlyTile [aLane t l 4, aLane t l 8, aSrv t (l / 48) (0x110 + 32 * (l % 48 / 2))] s u) ∧
    (s.domOn (domCh t) = true → laneSt s t l ≠ 2 → exec (.laneWakeDone t l) s = .next s) ∧
    (pwrTile s t ≠ 1 ∨ laneSt s t l ≠ 3 ∨ s.now < (s.lane t l).used + ms (s.fld (aPwr 4) 7 0) →
      exec (.laneIdleSleep t l) s = .next s)

/-- LANE_TAP_WRITE and TRAINING_PASS_END (R83, R84, R109, R114), while the tile is not brought in. -/
def Obligations.TapsAreWrittenAndTrained : Prop :=
  ∀ (s : State) (t : Nat), channelOn s t →
    (∀ l k w z g, l < 192 → k < 16 → z = s.fld (aLane t l 0xFC) 12 8 → g = s.fld (aLane t l 0xFC) 2 0 →
      ((laneSt s t l = 3 ∨ laneSt s t l = 1 ∨ laneSt s t l = 7) → targetPresent s t z g = true →
        ∃ u, exec (.laneTapWrite t l k w) s = .next u ∧
          (∀ j, j < 16 → tapOf u t l z g j = if j = k then sfld w 9 0 else tapOf s t l z g j) ∧
          (g = 0 → u.bit (aLane t l 0x34) z = true) ∧ onlyTile [aLane t l 0x34] s { u with out := s.out } ∧
          (g ≠ 0 → u.regs = s.regs) ∧ u.out = .reply .port (aLane t l (0x100 + 4 * k)) w .ok :: s.out) ∧
      ((laneSt s t l = 3 ∨ laneSt s t l = 1 ∨ laneSt s t l = 7) → targetPresent s t z g = false →
        exec (.laneTapWrite t l k w) s = .next (s.emit (.reply .port (aLane t l (0x100 + 4 * k)) w .ok))) ∧
      (laneSt s t l ≠ 3 → laneSt s t l ≠ 1 → laneSt s t l ≠ 7 →
        exec (.laneTapWrite t l k w) s = .next (s.emit (.reply .port (aLane t l (0x100 + 4 * k)) w .storeBusy)))) ∧
    (∀ c z (passes : List Pass), c < 4 → z < 32 → Tab.at 0 s.power.bring t ≠ 6 →
      ∃ u, exec (.trainingPassEnd t c z passes) s = .next u ∧
      (∀ l k upper (p : Pass), k < 48 → l = 48 * c + k → upper = decide (k % 2 = 1) → p = nth [] passes k →
        tLane s t l = false → laneSt s t l ≠ 7 →
        (mseOk (s.fld (aLane t l 0x30) 15 8) (dataSpan s t z) upper (targetOf s t z 0)
            (trainTaps (dataSpan s t z) upper (targetOf s t z 0) p) p = true → u.bit (aLane t l 0x34) z = true ∧
          ∀ g, g < 5 → targetPresent s t z g = true →
            tapSet u t l z g = trainTaps (dataSpan s t z) upper (targetOf s t z g) p) ∧
        (mseOk (s.fld (aLane t l 0x30) 15 8) (dataSpan s t z) upper (targetOf s t z 0)
            (trainTaps (dataSpan s t z) upper (targetOf s t z 0) p) p = false → (u.lane t l).taps = (s.lane t l).taps ∧
          (Tab.at 0 (s.lane t l).tries z = 0 → Tab.at 0 (u.lane t l).tries z = 1) ∧
          (Tab.at 0 (s.lane t l).tries z ≠ 0 → u.bit (aLane t l 0x34) z = false))) ∧
      (∀ h, h < 24 → tLane s t (laneOf c h 0) = false → tLane s t (laneOf c h 1) = false →
        Tab.at (0, 0) (u.head (headIdx t c h)).kappa z =
          (trainCoupling Config.trainStep (couplingRegs (dataSpan s t z) false (targetOf s t z 0) (targetOf s t z 0)
              (tapsFor u t (laneOf c h 0) z 0) (nth [] passes (2 * h))),
            trainCoupling Config.trainStep (couplingRegs (dataSpan s t z) true (targetOf s t z 0) (targetOf s t z 0)
              (tapsFor u t (laneOf c h 1) z 0) (nth [] passes (2 * h + 1))))) ∧
      ((∀ k, k < 48 → Tab.at 0 (u.lane t (48 * c + k)).tries z ≠ 1) → z ∈ trainedZones u t c) ∧
      u = { s with regs := u.regs, irq := u.irq, owl := u.owl, out := u.out, tl := u.tl, free := u.free } ∧ s.out <:+ u.out ∧
      noticeRegsKept ((List.range 48).flatMap fun k => [aLane t (48 * c + k) 0x34, aLane t (48 * c + k) 0x14]) s u)

/-- MEDIA_REQUEST (R20 steps 2 to 5, R30, R31, R36, R99, R186). -/
def Obligations.MediaRequestsAreWanted : Prop :=
  ∀ (s : State) (t : Nat), channelOn s t →
    ((Tab.at [] s.buf.held t).find? (placedAll s) = none → exec (.mediaRequest t) s = .next s) ∧
    (∀ req c h, (Tab.at [] s.buf.held t).find? (placedAll s) = some req → c = psaCluster req.psa → h = psaHead req.psa →
      (takesMedia s t = false → exec (.mediaRequest t) s = .next s) ∧
      (takesMedia s t = true → c < 4 → h < 24 → ∃ u, exec (.mediaRequest t) s = .next u ∧
        Tab.at 0 u.power.lastReq t = s.now ∧ Tab.at [] u.buf.held t = (Tab.at [] s.buf.held t).erase req ∧
        nth 0 (u.link t 0).credits 1 = nth 0 (s.link t 0).credits 1 - 1 ∧
        (headDead s t c h = true → (s.det t).outWait = [] → outUsed s t < 48 → forHub req.kind = true →
          (u.det t).outQ = (s.det t).outQ ++ [⟨req.psa, req, [], false, 0, some .retired, 0, none⟩]) ∧
        (headDead s t c h = false → wanted u (headIdx t c h) req ∧ u.bit (aLane t (laneOf c h 0) 0) 0 = false ∧
          u.bit (aLane t (laneOf c h 1) 0) 0 = false) ∧
        u.nq = s.nq ∧ u.slots = s.slots ∧ u.flash = s.flash ∧ u.mgmt = s.mgmt ∧ u.ports = s.ports))

/-- CAPTURE_START (R25, R92, R93, R101, R102, R117, R118). -/
def Obligations.CapturesStartInTheOtherBank : Prop :=
  ∀ (s : State) (t c h b n i : Nat) (e : CapEnt) (rest : List CapEnt), channelOn s t → c < 4 → h < 24 → i = headIdx t c h →
    fillCap (headGo s t c h) t c h = s → (s.head i).capQ = e :: rest →
    b = 1 - (s.lane t (laneOf c h 0)).bank → n = (entWants e).length →
    ((∀ w ∈ entWants e, w.ctx = none) → headBooked (s.head i) = false → e.low = (s.headS i).home.1 →
      (s.head i).curs.length < 2 → (s.head i).count < 2 ^ 30 → onTrack s t c h = true → (s.headW i).writing = false →
      (∀ r, r < 2 → tLane s t (laneOf c h r) = false ∧ laneReady s t (laneOf c h r) = true ∧
        s.bit (aLane t (laneOf c h r) 4) (16 + b) = false) →
      outUsed s t + outNeed (entWants e) ≤ 48 → 1 ≤ n → (s.det t).decRes + (s.det t).decQ.length + n ≤ 64 →
      ∃ u k, exec (.captureStart t c h false) s = .next u ∧ (u.head i).curs = (s.head i).curs ++ [k] ∧ k.ent = e ∧
        k.id = b * 2 ^ 30 + (s.head i).count ∧ k.laneA = true ∧ k.laneB = true ∧ (u.head i).capQ = rest ∧
        (u.head i).count = ((s.head i).count + 1) % 2 ^ 30 ∧
        (∀ r, r < 2 → (u.lane t (laneOf c h r)).bank = b ∧ laneSt u t (laneOf c h r) ≠ 3 ∧
          bankOf u t (laneOf c h r) k.id = ⟨some k.id, [], []⟩) ∧
        (u.det t).outRes = (s.det t).outRes + outNeed (entWants e) ∧ (u.det t).decRes = (s.det t).decRes + n ∧
        u.nq = s.nq ∧ u.buf = s.buf ∧ u.out = s.out) ∧
    (∃ u, exec (.captureStart t c h true) s = .next u ∧ (u.head i).curs = (s.head i).curs ∧ (u.head i).capQ = rest ∧
      (u.head i).want = (s.head i).want ++ (entWants e).map (fun w => { w with later := true }) ∧ u.buf = s.buf)

/-- CAPTURE_END of a capture that both lanes frame, at a head whose next work is where it is (R56, R91, R111, R116,
R117, R119). -/
def Obligations.FramedCapturesReachTheDecoder : Prop :=
  ∀ (s : State) (t c h i : Nat) (a b : List Int) (k kf : Capture) (rest : List Capture) (ba bb : Bank) (d : Live),
    channelOn s t → c < 4 → h < 24 → i = headIdx t c h → (s.head i).curs = k :: rest → k.laneA = true → k.laneB = true →
    (∀ r, r < 2 → tLane s t (laneOf c h r) = false ∧ s.fld (aLane t (laneOf c h r) 0x40) 23 0 < 2 ^ 24 - 1 ∧
      s.bit (aLane t (laneOf c h r) 0) 0 = false) →
    (calJob s t c).step ≠ 4 → (s.head i).want = [] →
    (headTracks s t c h = [] ∨ (headTracks s t c h).contains (s.headS i).home.1 = true) →
    ba = fillBank s t (laneOf c h 0) k k.flA a → bb = fillBank s t (laneOf c h 1) k k.flB b →
    kf = frameCapture s t c h k (equalised s t (laneOf c h 0) k k.ent.target ba)
      (equalised s t (laneOf c h 1) k k.ent.target bb) →
    kf.frA.posA ≠ none → kf.frB.posA ≠ none →
    d = detectLive s t kf (chanOf s i kf (targetOf s t kf.zone kf.ent.target))
      (equalised s t (laneOf c h 0) k k.ent.target ba) (equalised s t (laneOf c h 1) k k.ent.target bb) →
    ∃ u, exec (.captureEnd t c h a b) s = .next u ∧ (u.head i).curs = rest ∧
      (∃ k', (u.head i).held.head? = some k' ∧ k'.id = k.id ∧ k'.ent = k.ent) ∧
      bankOf u t (laneOf c h 0) k.id = ba ∧ bankOf u t (laneOf c h 1) k.id = bb ∧
      (∀ w, k.ent.a = some w → ∃ j ∈ (u.det t).decQ, j.dst = .live w ∧ j.ent.psa = w.req.psa ∧
        j.ent.lane = laneOf c h 0 ∧ j.ent.capid = k.id ∧ j.ent.soft = softWord (capPsa t c h kf 0) d.ma) ∧
      (∀ w, k.ent.b = some w → ∃ j ∈ (u.det t).decQ, j.dst = .live w ∧ j.ent.psa = w.req.psa ∧
        j.ent.lane = laneOf c h 1 ∧ j.ent.capid = k.id ∧ j.ent.soft = softWord (capPsa t c h kf 1) d.mb) ∧
      u = { s with regs := u.regs, irq := u.irq, owl := u.owl, out := u.out, tl := u.tl, free := u.free }

/-- DECODE_RESULT, where nothing else waits in the detector, and PIN_EXPIRE (R122 to R124, R129, R131, R132). -/
def Obligations.DecodesEndInThePool : Prop :=
  ∀ (s : State) (t : Nat), channelOn s t →
    (detPump s t = s →
      (∀ k j (r : Decoded) i, ((s.det t).eng k).cur = some j → r = decodeSoft j.ent.itmax j.ent.soft →
        i = headIdx t (j.ent.lane / 48) (j.ent.lane % 48 / 2) → j.ent.lane < 192 → (s.det t).late = [] →
        (s.det t).poolOut.length < 32 → ∃ u, exec (.decodeResult t k) s = .next u ∧
          (u.det t).poolOut = (s.det t).poolOut ++ [decodeRes j r] ∧
          (isStored j = false → r.conv = true → u.fld (aDet t (0x200 + 4 * (r.iters - 1))) 31 0 =
            min (s.fld (aDet t (0x200 + 4 * (r.iters - 1))) 31 0 + 1) (2 ^ 32 - 1)) ∧
          (isStored j = false → r.conv = false →
            u.fld (aDet t 0x110) 31 0 = min (s.fld (aDet t 0x110) 31 0 + 1) (2 ^ 32 - 1) ∧
            ((s.head i).pin = none → ((s.head i).held.any fun k => decide (k.id = j.ent.capid)) = true →
              (u.head i).pin = some (j.ent.capid, s.now))) ∧
          (isStored j = true → r.conv = true →
            u.fld (aDet t 0x114) 31 0 = min (s.fld (aDet t 0x114) 31 0 + 1) (2 ^ 32 - 1)) ∧
          (isStored j = true → r.conv = false →
            u.fld (aDet t 0x118) 31 0 = min (s.fld (aDet t 0x118) 31 0 + 1) (2 ^ 32 - 1)) ∧
          u = { s with regs := u.regs, tl := u.tl }) ∧
      (∀ k, ((s.det t).eng k).cur = none → exec (.decodeResult t k) s = .next s) ∧
      (∀ k, 32 ≤ (s.det t).poolOut.length → exec (.decodeResult t k) s = .next s)) ∧
    (∀ c h id at_, c < 4 → h < 24 → (s.head (headIdx t c h)).pin = some (id, at_) →
      (s.now < at_ + us (s.fld (aDet t 0xC) 15 0) → exec (.pinExpire t c h) s = .next s) ∧
      (at_ + us (s.fld (aDet t 0xC) 15 0) ≤ s.now → ∃ u, exec (.pinExpire t c h) s = .next u ∧
        (u.head (headIdx t c h)).pin = none ∧
        u = { s with regs := u.regs, irq := u.irq, out := u.out, tl := u.tl }))

/-- FORMATTER_RESULT and SECTOR_SEND (R20 steps 10 and 11, R30, R64, R122, R174, R188). -/
def Obligations.FormatterFeedsHubAndLadder : Prop :=
  ∀ (s : State) (t : Nat), channelOn s t → (s.det t).outWait = [] →
    (∀ r rest w, (s.det t).poolOut = r :: rest → (s.det t).late = [] → r.lane < 192 → r.dst = .live w → w.ctx = none →
      (w.req.kind = .host ∨ w.req.kind = .prefetch ∨ w.req.kind = .lock) →
      1 ≤ (s.det t).outRes → outUsed s t ≤ 48 →
      (r.st = .conv → wordOk s w r.info = true →
        ∃ u, exec (.formatterResult t) s = .next u ∧ (u.det t).poolOut = rest ∧ (u.det t).outRes = (s.det t).outRes - 1 ∧
          (u.det t).outQ = (s.det t).outQ ++ [⟨w.req.psa, w.req, r.info.drop 16, headerBlank (r.info.take 16),
            crc32c r.info, none, r.capid, none⟩] ∧ (u.det t).ladQ = (s.det t).ladQ ∧ onlyTile [aTile t 0x30] s u) ∧
      ((r.st = .fail ∨ r.st = .syncmiss) →
        ∃ u, exec (.formatterResult t) s = .next u ∧ (u.det t).poolOut = rest ∧ (u.det t).outQ = (s.det t).outQ ∧
          (u.det t).outRes = (s.det t).outRes - 1 ∧
          (isPinned s t r.lane r.capid = true → (u.det t).ladQ = (s.det t).ladQ ++
            [⟨if r.st = .fail then 0 else 2, w, some r.capid, place 31 28 r.st.code |||
              place 26 21 (if r.st = .fail then r.iters else 0) ||| place 15 0 (if r.st = .fail then r.weight else 0)⟩]) ∧
          (isPinned s t r.lane r.capid = false →
            (u.det t).ladQ = (s.det t).ladQ ++ [⟨3, w, none, place 31 28 DecSt.gone.code⟩]) ∧
          onlyTile [aTile t 0x30] s u)) ∧
    ((s.det t).poolOut = [] → detPump s t = s → exec (.formatterResult t) s = .next s) ∧
    (∀ o rest, (s.det t).outQ = o :: rest →
      (hubHears s t = true → (Tab.at [] s.buf.cipherIn t).length < 32 → 18 ≤ nth 0 (s.link t 1).credits 2 →
        1 ≤ nth 0 (s.link t 1).credits 3 →
        ∃ u, exec (.sectorSend t) s = .next u ∧ (u.det t).outQ = rest ∧
          Tab.at [] u.buf.cipherIn t = Tab.at [] s.buf.cipherIn t ++ [⟨o.psa, o.req, o.body, o.blank, o.drop, o.crc, o.ctx⟩] ∧
          nth 0 (u.link t 1).credits 2 = nth 0 (s.link t 1).credits 2 - 18 ∧
          nth 0 (u.link t 1).credits 3 = nth 0 (s.link t 1).credits 3 - 1 ∧ regsKept [aTile t 0x30] s u ∧ u.nq = s.nq ∧
          u.buf = { s.buf with cipherIn := u.buf.cipherIn } ∧
          u = { s with regs := u.regs, buf := u.buf, tl := u.tl, out := u.out }) ∧
      (hubHears s t = false ∨ nth 0 (s.link t 1).credits 2 < 18 → exec (.sectorSend t) s = .next s))

/-- GONE and BADREQ of R126 and R131 for the eight operations, where nothing else waits in the detector. -/
def Obligations.StoredOperationsNeedTheirCapture : Prop :=
  ∀ (s : State) (t : Nat) (i : Instr) (op : Nat), channelOn s t → detPump s t = s →
    (op = 1 ∧ (∃ us, i = .redetect t us) ∨ op = 2 ∧ (∃ us, i = .frameb t us) ∨ op = 3 ∧ (∃ us, i = .realign t us) ∨
      op = 4 ∧ (∃ us, i = .partner t us) ∨ op = 5 ∧ i = .save t ∨ op = 6 ∧ i = .combine t ∨
      op = 7 ∧ i = .free t ∨ op = 8 ∧ i = .release t) →
    (opFirst s t op = none → exec i s = .next s) ∧
    (∀ o, opFirst s t op = some o → (s.det t).late = [] → (s.det t).poolOut.length < 32 →
      (opCapture s o.req = none ∨ ((op = 5 ∨ op = 6 ∨ op = 7) ∧ 7 < o.req.slot) ∨ 40 < o.req.limit ∨ 4 < o.req.target) →
      ∃ u, exec i s = .next u ∧
        (u.det t).poolOut = (s.det t).poolOut ++ [opResult o.req (if opCapture s o.req = none then .gone else .badreq)] ∧
        u = { s with tl := { s.tl with dets := u.tl.dets } })

/-- REDETECT, FRAMEB, REALIGN, PARTNER and COMBINE detect the stored track again and send it to the stored decoder
queue; what its decode tells the context (R64, R126 to R128, R131, R179). `us` are the units read. -/
def Obligations.StoredDecodesConverge : Prop :=
  (∀ (s : State) (t op r : Nat) (o : HistOp) (q : HistReq) (k : Capture) (x : Redo) (us : List EccRead) (i : Instr),
    channelOn s t → detPump s t = s → opFirst s t op = some o → q = o.req → opCapture s q = some k → k.laneA = true →
    k.laneB = true → q.track = r + 1 → r < 2 → 1 ≤ q.limit → opRange s t q k = true → (s.det t).stQ.length < 4 →
    (op = 1 ∧ i = .redetect t us ∧ absI (reqOffset q) ≤ 64 ∧ x = (Redo.plain k).shift [r] (reqOffset q) ∨
      op = 2 ∧ i = .frameb t us ∧ (∃ p, (if r = 0 then k.frA.lone else k.frB.lone) = some p ∧
        x = if r = 0 then { Redo.plain k with fa := Framing.fromSyncB p } else { Redo.plain k with fb := Framing.fromSyncB p }) ∨
      op = 3 ∧ i = .realign t us ∧ 1 ≤ q.offset ∧ q.offset ≤ 16 ∧ o.offs = none ∧
        ((s.det t).ops.find? fun y => decide (y.req = q)) = some o ∧
        (∃ d rest, probeOffs s t q k r us = d :: rest ∧ x = (Redo.plain k).shift [r] d) ∨
      op = 4 ∧ i = .partner t us ∧ (∃ bits b, (if r = 0 then k.resB else k.resA) = .conv bits b ∧
        x = if r = 0 then { Redo.plain k with fixB := knownBits (capPsa t (opHead q).1 (opHead q).2 k 1) bits }
          else { Redo.plain k with fixA := knownBits (capPsa t (opHead q).1 (opHead q).2 k 0) bits })) →
    ∃ u j, exec i s = .next u ∧ (j ∈ (u.det t).stQ ∨ ∃ e, ((u.det t).eng e).cur = some j) ∧
      j.dst = .stored q (decide (r = if ctxOnB s t q.ctx k then 1 else 0)) ∧ j.ent.itmax = q.limit ∧ j.ent.capid = k.id ∧
      j.ent.soft = softWord (capPsa t (opHead q).1 (opHead q).2 k r) (storedSoft s t (opHead q).1 (opHead q).2 k q.target r x us) ∧
      u.nq = s.nq ∧ u.buf = s.buf ∧ u.slots = s.slots ∧ u.mgmt = s.mgmt ∧ u.power = s.power) ∧
  (∀ (s : State) (t : Nat) (o : HistOp) (q : HistReq) (k : Capture) (v : List Int),
    channelOn s t → detPump s t = s → opFirst s t 6 = some o → q = o.req → opCapture s q = some k → opRange s t q k = true →
    q.slot ≤ 7 → 1 ≤ q.limit → (s.det t).stQ.length < 4 →
    (Tab.at SoftSlot.free (s.det t).soft q.slot).soft = some v →
    ∃ u j, exec (.combine t) s = .next u ∧ (j ∈ (u.det t).stQ ∨ ∃ e, ((u.det t).eng e).cur = some j) ∧
      j.ent.itmax = q.limit ∧ j.ent.capid = k.id ∧
      j.ent.soft = List.zipWith (fun a b => clampI (-31) 31 (a + b)) (opSoft s t q k) v ∧
      u = { s with tl := { s.tl with dets := u.tl.dets, heads := u.tl.heads } }) ∧
  (∀ (s : State) (t : Nat) (q : HistReq) (r : PoolRes) (rest : List PoolRes) (o : HistOp), channelOn s t →
    (s.det t).poolOut = r :: rest → r.dst = .stored q true → ((s.det t).ops.find? fun o => decide (o.req = q)) = some o →
    o.left = 1 → q.ctx < 256 → (s.ctx t q.ctx).live = true → r.st = .conv →
    wordOk s (s.ctx t q.ctx).want r.info = true → wasRejected (s.ctx t q.ctx) r.info = false →
    ∃ u, exec (.formatterResult t) s = .next u ∧ (u.ctx t q.ctx).good = some r.info ∧
      (u.ctx t q.ctx).results = (s.ctx t q.ctx).results ++
        [(0, place 31 28 0 ||| place 27 27 1 ||| place 26 21 r.iters ||| place 15 0 r.weight)] ∧
      onlyTile [aTile t 0x30] s u)

/-- SAVE, FREE and RELEASE (R122, R126), where nothing else waits in the detector and the pool has room. -/
def Obligations.SoftValuesAreSavedAndFreed : Prop :=
  ∀ (s : State) (t : Nat) (o : HistOp) (q : HistReq) (k : Capture), channelOn s t → detPump s t = s → q = o.req →
    opCapture s q = some k → opRange s t q k = true → (s.det t).late = [] → (s.det t).poolOut.length < 32 →
    (opFirst s t 5 = some o → q.slot ≤ 7 → opSoft s t q k ≠ [] →
      ∃ u, exec (.save t) s = .next u ∧
        Tab.at SoftSlot.free (u.det t).soft q.slot = ⟨some q.ctx, some (opSoft s t q k)⟩ ∧
        u.bit (aDet t 0x10) q.slot = true ∧ (u.det t).poolOut = (s.det t).poolOut ++ [opResult q .detonly] ∧
        onlyTile [aDet t 0x10] s u) ∧
    (opFirst s t 7 = some o → q.slot ≤ 7 →
      ∃ u, exec (.free t) s = .next u ∧ Tab.at SoftSlot.free (u.det t).soft q.slot = SoftSlot.free ∧
        u.bit (aDet t 0x10) q.slot = false ∧ (u.det t).poolOut = (s.det t).poolOut ++ [opResult q .detonly] ∧
        onlyTile [aDet t 0x10] s u) ∧
    (opFirst s t 8 = some o → q.head = headIdx t (opHead q).1 (opHead q).2 →
      ∃ u, exec (.release t) s = .next u ∧ (u.head q.head).pin = none ∧ opResult q .detonly ∈ (u.det t).poolOut ++ (u.det t).late ∧
        ((s.ctx t q.ctx).capid = some k.id → (u.ctx t q.ctx).capid = none) ∧
        u = { s with regs := u.regs, tl := u.tl })

/-- CIPHER_DECRYPT (R23, R32, R150, R408 to R411, R418). Where no key opens the sector of a partner, it is lost. -/
def Obligations.SectorsAreDecryptedInOrder : Prop :=
  ∀ (s : State) (t : Nat), s.hasTile t = true →
    (Tab.at [] s.buf.cipherIn t = [] → exec (.cipherDecrypt t) s = .next s) ∧
    (∀ (e : Sector) (rest : List Sector) (v : State), Tab.at [] s.buf.cipherIn t = e :: rest →
      v = ({ s with buf := { s.buf with cipherIn := Tab.to [] s.buf.cipherIn t rest } } : State).modLink t 0 (fun x =>
        { x with freed := setNth x.freed 2 ((nth 0 x.freed 2 + 18) % 65536) }) →
      (256 ≤ s.buf.bufWrite.length → exec (.cipherDecrypt t) s = .next s) ∧
      (s.buf.bufWrite.length < 256 → e.drop.isSome = true →
        exec (.cipherDecrypt t) s = .next { v with buf := { v.buf with bufWrite := s.buf.bufWrite ++ [e] } }) ∧
      (∀ n lba gen slot, s.buf.bufWrite.length < 256 → e.drop = none → e.ctx = none → e.req.kind ≠ .partner →
        sectorOf s e = some (n, lba, gen) → slot = nsSlot s n →
        (e.blank = true → exec (.cipherDecrypt t) s =
          .next { v with buf := { v.buf with bufWrite := s.buf.bufWrite ++ [{ e with info := [] }] } }) ∧
        (∀ key plain, e.blank = false → keyOf s slot gen = some key →
          decryptSector key (slotField slot (s.fld (aCiph 0) 20 0)) n lba e.info = some plain →
          exec (.cipherDecrypt t) s = .next (({ v with buf := { v.buf with
            bufWrite := s.buf.bufWrite ++ [{ e with info := plain }] } } : State).bump (aCiph 0x14))) ∧
        (∀ key, e.blank = false → keyOf s slot gen = some key →
          decryptSector key (slotField slot (s.fld (aCiph 0) 20 0)) n lba e.info = none →
          exec (.cipherDecrypt t) s = .next ((v.bump (aCiph 0x18)).modDet t fun d =>
            { d with tagQ := d.tagQ ++ [⟨e.psa, e.req, e.crc, none⟩] })) ∧
        (e.blank = false → keyOf s slot gen = none → exec (.cipherDecrypt t) s = .next (({ v with buf := { v.buf with
            bufWrite := s.buf.bufWrite ++ [{ e with info := [], drop := some .key }] } } : State).bump (aCiph 0x1C)))) ∧
      (∀ n lba gen i key plain, s.buf.bufWrite.length < 256 → e.drop = none → e.blank = false → e.ctx = some i →
        (s.ctx t i).live = true → e.req.kind ≠ .partner → sectorOf s e = some (n, lba, gen) →
        keyOf s (nsSlot s n) gen = some key →
        decryptSector key (slotField (nsSlot s n) (s.fld (aCiph 0) 20 0)) n lba e.info = some plain →
        ∃ u, exec (.cipherDecrypt t) s = .next u ∧ (u.ctx t i).live = false ∧
          u.buf = { v.buf with bufWrite := s.buf.bufWrite ++ [{ e with info := plain }] }) ∧
      (∀ n lba key x, s.buf.bufWrite.length < 256 → e.drop = none → e.blank = false → e.ctx = none →
        e.req.kind = .partner → blockAt s e.psa = some (n, lba) →
        keyOf s (nsSlot s n) (s.slot (nsSlot s n)).gen = some key →
        x = (if (decryptSector key (slotField (nsSlot s n) (s.fld (aCiph 0) 20 0)) n lba e.info).isSome then
          (match partnerState (s.headW (headIdx (psaTile e.psa) (psaCluster e.psa) (psaHead e.psa))) e.psa with
            | some (.decoded info) => (v.bump (aCiph 0x14)).modHeadW
                (headIdx (psaTile e.psa) (psaCluster e.psa) (psaHead e.psa)) fun w =>
                  { w with partners := w.partners.map fun p => if p.1 = e.psa then (e.psa, .ready info) else p }
            | _ => v.bump (aCiph 0x14))
          else (v.bump (aCiph 0x18)).modDet t fun d => { d with tagQ := d.tagQ ++ [⟨e.psa, e.req, e.crc, none⟩] }) →
        exec (.cipherDecrypt t) s = .next x) ∧
      (∀ n lba, s.buf.bufWrite.length < 256 → e.drop = none → e.blank = false → e.ctx = none → e.req.kind = .partner →
        blockAt s e.psa = some (n, lba) → keyOf s (nsSlot s n) (s.slot (nsSlot s n)).gen = none →
        exec (.cipherDecrypt t) s = .next ((v.bump (aCiph 0x1C)).modHeadW
          (headIdx (psaTile e.psa) (psaCluster e.psa) (psaHead e.psa)) fun w =>
            { w with partners := w.partners.map fun p => if p.1 = e.psa then (e.psa, .lost) else p })))

/-- CIPHER_ENCRYPT (R22, R408 to R410, R419, R420). -/
def Obligations.EncryptionTakesACounterValue : Prop :=
  (∀ s : State, s.buf.encrypt = [] → exec .cipherEncrypt s = .next s) ∧
  ∀ (s : State) (i : Issue) (rest : List Issue) (p slot : Nat), s.buf.encrypt = i :: rest → p = psaOf s i.nsid i.lba →
    slot = nsSlot s i.nsid → headUnwritable s (psaTile p, psaCluster p, psaHead p) = false →
    s.linkUp (psaTile p) = true → 18 ≤ nth 0 (s.link (psaTile p) 0).credits 2 →
    (∀ j ∈ s.buf.encrypt, j.marker = true ∨ keyOf s (nsSlot s j.nsid) j.gen = none ∨
      (s.slot (nsSlot s j.nsid)).sctr + 2 ^ 18 < (s.slot (nsSlot s j.nsid)).res) →
    (∀ key, i.marker = false → keyOf s slot i.gen = some key → ∃ u, exec .cipherEncrypt s = .next u ∧
      u.buf = { s.buf with encrypt := rest } ∧
      (u.wr (psaTile p)).inQ = (s.wr (psaTile p)).inQ ++ [⟨p, .host, false, i.nsid, i.lba, slot, i.gen,
        encryptSector key (slotField slot (s.fld (aCiph 0) 20 0)) i.nsid i.lba (s.slot slot).sctr i.data, [], 0, false, 0, false⟩] ∧
      (u.slot slot).sctr = (s.slot slot).sctr + 1 ∧ (∀ j, j ≠ slot → u.slot j = s.slot j) ∧
      nth 0 (u.link (psaTile p) 0).credits 2 = nth 0 (s.link (psaTile p) 0).credits 2 - 18 ∧
      u.fld (aCiph 0x10) 31 0 = min (s.fld (aCiph 0x10) 31 0 + 1) (2 ^ 32 - 1) ∧ regsKept [aCiph 0x10] s u ∧
      u = { s with regs := u.regs, buf := u.buf, slots := u.slots, tl := u.tl, out := u.out }) ∧
    (i.marker = true → ∃ u, exec .cipherEncrypt s = .next u ∧ u.buf = { s.buf with encrypt := rest } ∧
      (u.wr (psaTile p)).inQ = (s.wr (psaTile p)).inQ ++
        [⟨p, .marker, false, i.nsid, i.lba, 0, 0, [], [], 0, false, 0, false⟩] ∧
      nth 0 (u.link (psaTile p) 0).credits 2 = nth 0 (s.link (psaTile p) 0).credits 2 - 18 ∧
      u = { s with buf := u.buf, tl := u.tl, out := u.out })

/-- SECTOR_LANDING (R371, R372). `us` are other units read meanwhile, counted first. -/
def Obligations.SectorsLandWhereTheyAreAwaited : Prop :=
  ∀ (r s : State) (rd : EccRead) (us : List EccRead), s = storeReads r us →
    (s.buf.bufWrite = [] → exec (.sectorLanding rd us) r = .next s) ∧
    (∀ e rest c, s.buf.bufWrite = e :: rest → c = s.cmd e.req.cmd → fillOf s e.req.cmd e.psa = none → c.live = true →
      c.origin = .host → e.req.blk < c.len → (c.blk e.req.blk).st = .fill →
      s.bit (aBuf 0x40) 31 = false →
      ∃ u, exec (.sectorLanding rd us) r = .next u ∧ u.buf.bufWrite = rest ∧
        ((u.cmd e.req.cmd).blk e.req.blk).st = .ready ∧
        (e.drop = none → ((u.cmd e.req.cmd).blk e.req.blk).data = e.info) ∧
        (∀ x, e.drop = some x → ((u.cmd e.req.cmd).blk e.req.blk).drop = some x ∧
          ((u.cmd e.req.cmd).blk e.req.blk).data = []) ∧
        u = { s with buf := u.buf, nq := { s.nq with cmds := u.nq.cmds }, memp := u.memp }) ∧
    (∀ e rest key lba, s.buf.bufWrite = e :: rest → fillOf s e.req.cmd e.psa = some (key, lba) → e.drop = none →
      (∀ k r, (lineOf s key).slot = some k → r = { rd with addr := guardUnit k lba } → unitRead s r = true →
        (eccCls r).bad = false) →
      (unitIn s (.way key) lba).gone = false → s.bit (aBuf 0x10) 31 = false →
      ∃ u, exec (.sectorLanding rd us) r = .next u ∧ u.buf.bufWrite = rest ∧
        (unitIn u (.way key) lba).valid = true ∧ (unitIn u (.way key) lba).dirty = false ∧
        (unitIn u (.way key) lba).fill = none ∧ (unitIn u (.way key) lba).data = e.info ∧
        (lineOf u key).nsid = (lineOf s key).nsid ∧ (lineOf u key).line = (lineOf s key).line)

/-- RDMA_DATA_SEND and READ_COMPLETION (R21, R187, R308, R316, R317, R322, R397, R398): `s` is the state once the units
`us` of the buffer have been read. -/
def Obligations.ReadsSendAndComplete : Prop :=
  ∀ (i : Nat) (c : Cmd), c.live = true → c.cls = .rd → c.origin = .host → c.old = false →
    (∀ (r s : State) (us : List EccRead) (b n psn : Nat), s = storeReads r us → c = r.cmd i → c = s.cmd i → b < c.len →
      (c.blk b).st = .ready → n = blkBytes s c.nsid → psn = (s.qp c.qp).psn →
      (canSend r c.qp = true → canSend s c.qp = true → (∀ x ∈ us, (eccCls x).bad = false) →
        ∃ u, exec (.rdmaDataSend i b us) r = .next u ∧
          u.out = writeSent s c.qp psn (c.cap.sglAddr + n * b) c.cap.sglKey (padTo n (c.blk b).data) n ++ s.out ∧
          ((u.cmd i).blk b).st = .sent ∧ u = { s with nq := u.nq, buf := u.buf, out := u.out }) ∧
      (∀ k p x, canSend r c.qp = true → canSend s c.qp = true → blkPage r i b = some (k, some p) → x ∈ us →
        (eccCls x).bad = true → eccStore x.addr = 0 → unitRead r x = true →
        (eccIndex x.addr / 128 = k ∨ inBlock r p (c.lba b) x.addr = true) → (unitIn r p (c.lba b)).dirty = true →
        (c.blk b).drop = none → ∃ u, exec (.rdmaDataSend i b us) r = .next u ∧
          u.out = writeSent s c.qp psn (c.cap.sglAddr + n * b) c.cap.sglKey (padTo n []) n ++ s.out ∧
          ((u.cmd i).blk b).st = .sent ∧ ((u.cmd i).blk b).drop = some .media)) ∧
    (∀ (s : State) (us : List EccRead), c = s.cmd i →
      (∀ b p, b < c.len → (c.blk b).st = .ready → canSend s c.qp = false → p = (s.qp c.qp).port →
        (i, b) ∉ Tab.at [] s.nq.tx p → (Tab.at [] s.nq.tx p).length < 64 →
        exec (.rdmaDataSend i b us) s = .next { s with nq := { s.nq with
          tx := Tab.to [] s.nq.tx p (Tab.at [] s.nq.tx p ++ [(i, b)]) } }) ∧
      (∀ b, (c.blk b).st ≠ .ready → exec (.rdmaDataSend i b us) s = .next s) ∧
      (∀ st q, c.allSent = true → c.len ≠ 0 → st = readStatus c.len (c.drops.map (·.2)) → q = s.qp c.qp →
        ((c.drops = [] ∨ q.rent = 0) → ∃ u, exec (.readCompletion i) s = .next u ∧ (u.cmd i).live = false ∧
          u.out = cqeSent s c.qp q.psn c.cap.cid 0 c.dw1 st.sct st.code st.dnr ++ s.out) ∧
        (c.drops ≠ [] → q.rent ≠ 0 → ∃ u, exec (.readCompletion i) s = .next u ∧ (u.cmd i).live = false ∧
          (u.qp c.qp).ringSeq = (q.ringSeq + 1) % 2 ^ 32 ∧
          u.out = cqeSent s c.qp ((q.psn + packetsOf s c.qp 64) % 2 ^ 24) c.cap.cid (2 ^ 31 + q.ringSeq % q.rent) c.dw1
              st.sct st.code st.dnr ++
            writeSent s c.qp q.psn (q.raddr + 64 * (q.ringSeq % q.rent)) q.rkey
              (ringBytes c q.qid q.ringSeq q.rent) 64 ++ s.out)))

/-- RDMA_READ_RESPONSE (R308, R365). -/
def Obligations.WriteDataArrivesInStaging : Prop :=
  ∀ (s : State) (i b : Nat) (data : Payload) (c : Cmd), c = s.cmd i →
    (c.live = true → c.cls = .wr → c.void = false → c.visible = false → c.turned = false → b < c.len →
      (c.blk b).st = .fetching → ∃ u, exec (.rdmaReadResponse i b data) s = .next u ∧
        ((u.cmd i).blk b).st = .staged ∧ ((u.cmd i).blk b).data = data ∧ u.power = s.power ∧ u.slots = s.slots) ∧
    ((c.live = false ∨ c.len ≤ b ∨ (c.blk b).st ≠ .fetching) → ∃ u, exec (.rdmaReadResponse i b data) s = .next u ∧
      u = { s with nq := { s.nq with qps := u.nq.qps } })

/-- TILE_RESPONSE, BUFFER_RESPONSE, RDMA_RESPONSE, HRES and RRES (R285, R289, R290, R299). Which moves the default
ladder image makes between its printed addresses is the model's choice (entry 16). -/
def Obligations.ResponsesResumeWaitingThreads : Prop :=
  ∀ (s : State),
    (∀ (th k : Nat) (d1 d2 : Word) (i : Instr), th < 64 →
      (k = 0 ∧ i = .tileResponse th d1 d2 ∨ k = 1 ∧ i = .bufferResponse th d1 d2 ∨ k = 2 ∧ i = .rdmaResponse th d1 d2) →
      (∀ mask a, (thread s 0 th).live = true → (thread s 0 th).wait = some (mask, a) → mask.testBit k = true →
        ∃ u, exec i s = .next u ∧ (thread u 0 th).wait = none ∧ (thread u 0 th).steps = 0 ∧
          (∀ r, Tab.at 0 (thread u 0 th).g r = if r = 2 then d2 else if r = 1 then d1
            else if r = a ∧ a ≠ 0 then w32 k else Tab.at 0 (thread s 0 th).g r) ∧
          (∀ j, j ≠ th → thread u 0 j = thread s 0 j) ∧ u = { s with tl := { s.tl with engines := u.tl.engines } }) ∧
      ((thread s 0 th).live = false ∨ (∀ mask a, (thread s 0 th).wait = some (mask, a) → mask.testBit k = false) →
        exec i s = .next s)) ∧
    (∀ (t n k : Nat) (i : Instr), s.hasTile t = true → n < 256 →
      (k = 0 ∧ i = .hres t n ∨ k = 1 ∧ i = .rres t n) →
      (∀ r mask a, ((s.ctx t n).results.find? fun r => decide (r.1 = k)) = some r → (s.ctx t n).live = true →
        (thread s (6 + 6 * t) n).live = true → (thread s (6 + 6 * t) n).wait = some (mask, a) → mask.testBit k = true →
        ∃ u, exec i s = .next u ∧ (u.ctx t n).results = (s.ctx t n).results.erase r ∧
          (thread u (6 + 6 * t) n).wait = none ∧ Tab.at 0 (thread u (6 + 6 * t) n).g 1 = r.2 ∧
          Tab.at 0 (thread u (6 + 6 * t) n).g 2 = 0 ∧
          (a ≠ 0 → a ≠ 1 → a ≠ 2 → Tab.at 0 (thread u (6 + 6 * t) n).g a = w32 k) ∧
          (byProgram s (6 + 6 * t) n = true → (k = 1 ∨ (s.ctx t n).prog.skip = 0) → fld r.2 31 28 = 0 →
            r.2.getLsbD 27 = true → (u.ctx t n).prog.todo = [.accept, .hist 0x80000000, .wait 4]) ∧
          (byProgram s (6 + 6 * t) n = false → (u.ctx t n).prog = (s.ctx t n).prog) ∧
          u = { s with tl := { s.tl with ctxs := u.tl.ctxs, engines := u.tl.engines } }) ∧
      (((s.ctx t n).results.find? fun r => decide (r.1 = k)) = none → exec i s = .next s))

/-- TILE_EVENT and DISPATCH_TIMER_TICK (R30, R34, R35, R273, R288, R289). -/
def Obligations.PacketsStartDispatchThreads : Prop :=
  ∀ (s : State),
    (∀ t, s.hasTile t = true →
      ((s.det t).events = [] ∨ s.linkUp t = false ∨ nth 0 (s.link t 1).credits 1 = 0 → exec (.tileEvent t) s = .next s) ∧
      (∀ ev rest, (s.det t).events = ev :: rest → s.linkUp t = true → 1 ≤ nth 0 (s.link t 1).credits 1 →
        (∀ th, fld ev 31 28 ≠ 3 → freeThread s 0 = some th → ∃ u, exec (.tileEvent t) s = .next u ∧
          (u.det t).events = rest ∧ nth 0 (u.link t 1).credits 1 = nth 0 (s.link t 1).credits 1 - 1 ∧
          thread u 0 th =
            ⟨true, liveBank s 0, fld (dispatchEntry s 0xF0) 13 0, 0, none, Tab.to 0 [] 1 ev, 0xF0, 0, false, false⟩ ∧
          (∀ j, j ≠ th → thread u 0 j = thread s 0 j) ∧
          u = { s with out := u.out, tl := { s.tl with dets := u.tl.dets, engines := u.tl.engines, links := u.tl.links } }) ∧
        (fld ev 31 28 ≠ 3 → freeThread s 0 = none → ∃ u, exec (.tileEvent t) s = .next u ∧ (u.det t).events = rest ∧
          u.tl.packets = s.tl.packets ++ [(0xF0, ev)] ∧
          u = { s with out := u.out, tl := { s.tl with dets := u.tl.dets, packets := u.tl.packets, links := u.tl.links } }) ∧
        (fld ev 31 28 = 3 → ∃ u, exec (.tileEvent t) s = .next u ∧ tileRetired u t = true))) ∧
    (∀ th, s.tl.packets = [] → freeThread s 0 = some th → ∃ u, exec .dispatchTimerTick s = .next u ∧
      thread u 0 th = ⟨true, liveBank s 0, fld (dispatchEntry s 0xF3) 13 0, 0, none, [], 0xF3, 0, false, false⟩ ∧
      (∀ j, j ≠ th → thread u 0 j = thread s 0 j) ∧ u = { s with tl := { s.tl with engines := u.tl.engines } }) ∧
    (freeThread s 0 = none → exec .dispatchTimerTick s = .next
      { s with tl := { s.tl with packets := s.tl.packets ++ [(0xF3, 0)] } })

/-- The commands of R292 and SWAP_EFFECT (R292 to R294). -/
def Obligations.StoresAreLoadedSealedAndSwapped : Prop :=
  ∀ (s : State) (e : Nat), engineOn s e →
    ((swapPending s e = true ∨ drain s e ≠ 0) → exec (.ucsLoad e) s = .next (s.emit (.reply .port (aUcs e 0) 1 .storeBusy))) ∧
    (swapPending s e = false → drain s e = 0 → ∃ u, exec (.ucsLoad e) s = .next u ∧ staged u e = 1 ∧
      u.reg (aUcs e 0xC) = 0 ∧ (∀ a, bankWord e (getBank (u.eng e) (1 - liveBank s e)) a = 0) ∧
      u.out = .reply .port (aUcs e 0) 1 .ok :: s.out ∧ onlyTile [aUcs e 0xC, aUcs e 4] s { u with out := s.out }) ∧
    (∀ w, s.bit (aUcs e 0xC) 31 = false → staged s e = 1 → ucsAddrOk e (s.fld (aUcs e 0xC) 14 0) = true →
      ∃ u, exec (.ucsDataWrite e w) s = .next u ∧
        bankWord e (getBank (u.eng e) (1 - liveBank s e)) (s.fld (aUcs e 0xC) 14 0) = w ∧
        u.fld (aUcs e 0xC) 14 0 = (s.fld (aUcs e 0xC) 14 0 + 1) % 2 ^ 15 ∧
        u.out = .reply .port (aUcs e 0x10) w .ok :: s.out ∧ onlyTile [aUcs e 0xC] s { u with out := s.out }) ∧
    (∀ w, s.bit (aUcs e 0xC) 31 = true ∨ staged s e ≠ 1 ∧ drain s e = 0 →
      exec (.ucsDataWrite e w) s = .next (s.emit (.reply .port (aUcs e 0x10) w .badField))) ∧
    (∀ w, s.bit (aUcs e 0xC) 31 = false → staged s e ≠ 1 → drain s e ≠ 0 →
      exec (.ucsDataWrite e w) s = .next (s.emit (.reply .port (aUcs e 0x10) w .storeBusy))) ∧
    (exec (.ucsDataRead e) s = .next
      ((s.setF (aUcs e 0xC) 14 0 (s.fld (aUcs e 0xC) 14 0 + 1)).emit (.reply .port (aUcs e 0x10) (ucsShown s e) .ok))) ∧
    (staged s e = 1 → (e = 0 → ([0xF0, 0xF1, 0xF2, 0xF3].all fun op => (bankWord 0 (stagedBank s 0) (0x4000 + op)).getLsbD 31) = true) →
      (bankCrc e (stagedBank s e) = s.reg (aUcs e 0x14) → exec (.seal e) s = .next
        ((s.setF (aUcs e 4) 5 4 2).emit (.reply .port (aUcs e 0) 2 .ok))) ∧
      (bankCrc e (stagedBank s e) ≠ s.reg (aUcs e 0x14) → exec (.seal e) s = .next
        (s.emit (.reply .port (aUcs e 0) 2 .badCrc)))) ∧
    (staged s e ≠ 1 → exec (.seal e) s = .next (s.emit (.reply .port (aUcs e 0) 2 .badField))) ∧
    (swapPending s e = true → exec (.swap e) s = .next (s.emit (.reply .port (aUcs e 0) 3 .storeBusy)) ∧
      exec (.ucsRevert e) s = .next (s.emit (.reply .port (aUcs e 0) 4 .storeBusy))) ∧
    (swapPending s e = false → staged s e ≠ 2 → exec (.swap e) s = .next (s.emit (.reply .port (aUcs e 0) 3 .badField))) ∧
    (swapPending s e = false → staged s e ≠ 3 → exec (.ucsRevert e) s = .next (s.emit (.reply .port (aUcs e 0) 4 .noPrevious))) ∧
    (swapPending s e = false → atOnce (s.setB (aUcs e 4) 8 true) e = false →
      (staged s e = 2 → exec (.swap e) s = .next ((s.setB (aUcs e 4) 8 true).emit (.reply .port (aUcs e 0) 3 .ok))) ∧
      (staged s e = 3 → exec (.ucsRevert e) s = .next ((s.setB (aUcs e 4) 8 true).emit (.reply .port (aUcs e 0) 4 .ok)))) ∧
    exec (.cancel e) s = .next ((s.setB (aUcs e 4) 8 false).emit (.reply .port (aUcs e 0) 5 .ok)) ∧
    (swapPending s e = false → exec (.swapEffect e) s = .next s)

/-- Swaps that take effect (R291, R294). That vector 1 of the default image is over at once is the model's choice
(entry 16). -/
def Obligations.SwapsExchangeTheBanks : Prop :=
  ∀ (s : State) (e : Nat) (i : Instr), engineOn s e →
    (i = .swapEffect e ∧ swapPending s e = true ∨
      (i = .swap e ∧ staged s e = 2 ∨ i = .ucsRevert e ∧ staged s e = 3) ∧ swapPending s e = false ∧
        atOnce (s.setB (aUcs e 4) 8 true) e = true) →
    ∃ u, exec i s = .next u ∧ liveBank u e = 1 - liveBank s e ∧ staged u e = 3 ∧ swapPending u e = false ∧
      u.fld (aUcs e 0x24) 31 0 = min (s.fld (aUcs e 0x24) 31 0 + 1) (2 ^ 32 - 1) ∧
      getBank (u.eng e) 0 = getBank (s.eng e) 0 ∧ getBank (u.eng e) 1 = getBank (s.eng e) 1 ∧
      ((getBank (s.eng e) (1 - liveBank s e)).dflt = false →
        (∀ th, (if isRoutine e then (if (thread s e 0).live then none else some 0) else freeThread s e) = some th →
          thread u e th = ⟨true, 1 - liveBank s e, 1, 0, none, [], 0, 0, true, false⟩) ∧
        (isRoutine e = true → (thread s e 0).live = true → thread u e 0 = thread s e 0 ∧
          (u.eng e).queue = (1, 0) :: (s.eng e).queue)) ∧
      ((getBank (s.eng e) (1 - liveBank s e)).dflt = true → u.tl = s.tl) ∧
      tileAndNotices [aUcs e 4, aUcs e 0x24] s u

/-- SECTOR_ENCODE, SERIALISER_TAKE, WRITE_HEAT, WRITE_BURST_START, WRITE_BURST_END and WRITE_RUN_END (R54, R55, R58, R59,
R140, R142 to R149, R151, R154, R156, R157). Where a head goes next (`headGo`), and that the first bit of a burst counts as
no transition, are the model's choices (entry 128). -/
def Obligations.SectorsAreScrambledTakenAndWritten : Prop :=
  (∀ (v : State) (t c h : Nat), tilesOnly v (headGo v t c h) ∧
    ((headTracks v t c h = [] ∨ headWorks v t c h = true) → headGo v t c h = v)) ∧
  ∀ (s : State) (t c h i : Nat), channelOn s t → c < 4 → h < 24 → i = headIdx t c h →
    (∀ e, encodeNext s t = some e →
      ∃ u, exec (.sectorEncode t) s = .next u ∧ (u.wr t).inQ = (s.wr t).inQ.erase e ∧
        u.wrQ t (psaCluster e.psa) = s.wrQ t (psaCluster e.psa) ++
          [{ e with bits := if e.discard ∨ e.kind = .calib then [] else scrambled e.psa (wordOf' s e) }] ∧
        (e.kind = .host → 2 < (s.link t 1).freed.length →
          nth 0 (u.link t 1).freed 2 = (nth 0 (s.link t 1).freed 2 + 18) % 65536) ∧
        tilesOnly s u) ∧
    (∀ e late q, ((s.wrQ t c).find? fun e => decide (psaHead e.psa = h) && takeable s t c h e) = some e →
      q = (s.wrQ t c).erase e → (s.headW i).ser.length < 2 →
      (e.discard = true → e.kind = .host → psaCluster e.psa = c → ∃ u, exec (.serialiserTake t c h late) s = .next u ∧
        u.wrQ t c = q ∧ (u.headW i).ser = (s.headW i).ser ∧
        (u.wr t).results = (s.wr t).results ++ [⟨e.psa, e.kind, e.nsid, e.lba, e.gen, .skipped⟩] ∧
        onlyTile [aWrt t 0x28] s u) ∧
      (e.discard = false → tWriter s t (headIx c h) = true ∨ headDead s t c h = true → psaCluster e.psa = c →
        ∃ u, exec (.serialiserTake t c h late) s = .next u ∧ u.wrQ t c = q ∧ (u.headW i).ser = (s.headW i).ser ∧
          (u.wr t).results = (s.wr t).results ++ [⟨e.psa, e.kind, e.nsid, e.lba, e.gen, .retired⟩] ∧ onlyTile [] s u) ∧
      (e.discard = false → tWriter s t (headIx c h) = false → headDead s t c h = false →
        s.fld (aWrtC t c (0x104 + 16 * h)) 23 17 ≠ 0 → s.bit (aWrtC t c (0x10C + 16 * h)) 0 = false →
        ∃ v, exec (.serialiserTake t c h late) s = .next (headGo v t c h) ∧ v.wrQ t c = q ∧
          (v.headW i).ser = (s.headW i).ser ++ [{ e with late := late }] ∧ (v.headW i).run = true ∧
          v.fld (aWrt t 0x1C) 31 0 = min (s.fld (aWrt t 0x1C) 31 0 + (if late then 1 else 0)) (2 ^ 32 - 1) ∧
          onlyTile [aWrt t 0x1C] s v)) ∧
    (((s.headW i).ser ≠ [] ∨ ∃ e ∈ s.wrQ t c, psaHead e.psa = h) → armState s t c = 2 → isLoaded s t c = true →
      ∃ u, exec (.writeHeat t c h) s = .next u ∧ (u.headW i).run = true ∧ (u.headW i).heatAt = some s.now ∧
        (u.headW i).ser = (s.headW i).ser ∧ u.bit (aWrtC t c (0x10C + 16 * h)) 1 = true ∧
        (u.arm t c).mask = Nat.lor (s.arm t c).mask (2 ^ h) ∧
        (u.arm t c).ctl = (s.arm t c).ctl ++
          [armFrame 2 (h * 2 ^ 55 + s.fld (aWrtC t c (0x108 + 16 * h)) 9 0 % 1024 * 2 ^ 45),
            armFrame 4 (2 ^ 59 + Nat.lor (s.arm t c).mask (2 ^ h) % 2 ^ 24 * 2 ^ 32)] ∧
        onlyTile [aWrtC t c (0x10C + 16 * h)] s u) ∧
    (∀ e rest, (s.headW i).ser = e :: rest → (s.headW i).gate = false →
      (e.late = true → exec (.writeBurstStart t c h) s =
        .next (headGo (s.setHeadW i { s.headW i with ser := { e with late := false } :: rest }) t c h)) ∧
      (∀ away, e.late = false → e.discard = false → tWriter s t (headIx c h) = false → headDead s t c h = false →
        s.fld (aWrtC t c (0x104 + 16 * h)) 23 17 ≠ 0 → s.bit (aWrtC t c (0x10C + 16 * h)) 0 = false →
        away = (s.bit (aCtl t c (0x100C + 32 * h)) 29 || (decide ((s.ctl t c).shift ≠ 0) && !(onTrack s t c h))) →
        (e.begun = false → heated s t i = false ∨ away = true →
          exec (.writeBurstStart t c h) s = .next (s.bump (aWrt t 0x1C))) ∧
        (e.begun = true ∨ heated s t i = true ∧ away = false →
          (burstReady s t c h e = false → exec (.writeBurstStart t c h) s = .next (headGo s t c h)) ∧
          (∀ p lead bits, onTrack s t c h = true → (s.headS i).home.1 = (psaTrack e.psa : Nat) →
            absI (sfld (s.reg (aCtl t c (0x100C + 32 * h))) 15 0) ≤ 16 * s.fld (aWrt t 0) 31 24 →
            s.bit (aCtl t c 4) 31 = false → s.bit (aWrtC t c (0x10C + 16 * h)) 3 = true → s.reg (aWrtC t c 0x34) = 0 →
            (s.head i).curs = [] → p = burstSpan s t e → lead = burstLead p.1 →
            bits = lead ++ ((entBits s t e).drop e.done).take p.2 →
            ∃ u, exec (.writeBurstStart t c h) s = .next u ∧ (u.headW i).gate = true ∧
              (u.headW i).ser = { e with begun := true } :: rest ∧ u.bit (aWrtC t c (0x10C + 16 * h)) 2 = true ∧
              u.out = .mediaWrite t c h e.psa
                  ((entStart e + e.done) / max 1 (dataSpan s t (zoneOf s t (psaTrack e.psa))))
                  (s.headW i).wtime (s.lane t (laneOf c h 0)).fofs
                  (64 * (wedgeSpan s t (zoneOf s t (psaTrack e.psa)) + ((p.1 : Int) - lead.length)) +
                    divRound (64 * s.fld (aWrtC t c (0x100 + 16 * h)) 17 0 * zoneBits s t (zoneOf s t (psaTrack e.psa)))
                      4294967296)
                  (nth false bits 0)
                  (transitions (s.fld (aWrtC t c (0x104 + 16 * h)) 31 28) (s.fld (aWrtC t c (0x104 + 16 * h)) 27 24)
                    false false (nth false bits 0) 0 bits) :: .gate t c h true :: s.out ∧
              onlyTile [aWrtC t c (0x10C + 16 * h)] s { u with out := s.out })))) ∧
    (∀ e rest d p k, (s.headW i).ser = e :: rest → (s.headW i).gate = true →
      d = dataSpan s t (zoneOf s t (psaTrack e.psa)) → p = burstSpan s t e → k = (entStart e + e.done) / max 1 d →
      (s.bit (aWrtC t c (0x10C + 16 * h)) 3 = false → e.discard = false → e.tries < s.fld (aWrt t 0) 23 20 →
        ∃ u, exec (.writeBurstEnd t c h) s = .next u ∧ (u.headW i).gate = false ∧
          (u.headW i).ser = { e with begun := false, done := 0, tries := e.tries + 1 } :: rest ∧
          u.fld (aWrt t 0x14) 31 0 = min (s.fld (aWrt t 0x14) 31 0 + 1) (2 ^ 32 - 1) ∧
          u.out = .gate t c h false :: s.out ∧
          onlyTile [aWrt t 0x14, aWrtC t c (0x10C + 16 * h)] s { u with out := s.out }) ∧
      (s.bit (aWrtC t c (0x10C + 16 * h)) 3 = true → e.done + p.2 < entLen s t e →
        ∃ u, exec (.writeBurstEnd t c h) s = .next u ∧ (u.headW i).gate = false ∧
          (u.headW i).ser = { e with done := e.done + p.2 } :: rest ∧
          u.out = .gate t c h false :: s.out ∧ onlyTile [aWrtC t c (0x10C + 16 * h)] s { u with out := s.out }) ∧
      (s.bit (aWrtC t c (0x10C + 16 * h)) 3 = true → entLen s t e ≤ e.done + p.2 → psaCluster e.psa = c →
        psaHead e.psa = h → e.kind = .host →
        ((∀ f more, rest = f :: more → p.1 + p.2 = d ∨ f.psa ≠ e.psa + 1 ∨ f.discard = true ∨ f.late = true) →
          ∃ v, exec (.writeBurstEnd t c h) s = .next (headGo v t c h) ∧ (v.headW i).ser = rest ∧ (v.headW i).gate = false ∧
            v.out = .gate t c h false ::
              (burstOut s t c h e.psa k (p.1 + p.2) true ((pat1100 8).take (min 8 (d - (p.1 + p.2))))).out ∧
            (s.bit (aWrt t 0) 16 = false →
              (v.wr t).results = (s.wr t).results ++ [⟨e.psa, e.kind, e.nsid, e.lba, e.gen, .written⟩] ∧
              (v.headW i).fails = 0 ∧ v.fld (aWrt t 0x10) 31 0 = min (s.fld (aWrt t 0x10) 31 0 + 1) (2 ^ 32 - 1)) ∧
            (s.bit (aWrt t 0) 16 = true → (v.headW i).verify = (s.headW i).verify ++ [e] ∧ v.wr t = s.wr t) ∧
            onlyTile [aWrt t 0x10, aWrtC t c (0x10C + 16 * h)] s { v with out := s.out }) ∧
        (∀ f more d' q bits, s.bit (aWrt t 0) 16 = false → rest = f :: more → p.1 + p.2 < d → f.psa = e.psa + 1 →
          f.discard = false → f.late = false → d' = dataSpan s t (zoneOf s t (psaTrack f.psa)) → q = burstSpan s t f →
          bits = ((entBits s t f).drop f.done).take q.2 →
          ∃ u, exec (.writeBurstEnd t c h) s = .next u ∧ (u.headW i).ser = { f with begun := true } :: more ∧
            (u.headW i).gate = true ∧
            (u.wr t).results = (s.wr t).results ++ [⟨e.psa, e.kind, e.nsid, e.lba, e.gen, .written⟩] ∧
            (u.headW i).fails = 0 ∧ u.fld (aWrt t 0x10) 31 0 = min (s.fld (aWrt t 0x10) 31 0 + 1) (2 ^ 32 - 1) ∧
            u.out = (burstOut s t c h f.psa ((entStart f + f.done) / max 1 d') q.1 true bits).out ∧
            onlyTile [aWrt t 0x10] s { u with out := s.out }))) ∧
    ((s.headW i).run = true → (s.headW i).ser = [] → (∀ e ∈ s.wrQ t c, dueSoon s t c h e = false) →
      ∃ u, exec (.writeRunEnd t c h) s = .next u ∧ (u.headW i).run = false ∧ (u.headW i).heatAt = none ∧
        u.bit (aWrtC t c (0x10C + 16 * h)) 1 = false ∧
        (armState s t c ≠ 2 → (u.arm t c).ctl = (s.arm t c).ctl) ∧
        (armState s t c = 2 → (s.arm t c).mask.testBit h = true → (u.arm t c).mask = (s.arm t c).mask - 2 ^ h ∧
          (u.arm t c).ctl = (s.arm t c).ctl ++
            [armFrame 2 (h * 2 ^ 55 + s.fld (aWrtC t c (0x108 + 16 * h)) 25 16 % 1024 * 2 ^ 45),
              armFrame 4 (2 ^ 59 + ((s.arm t c).mask - 2 ^ h) % 2 ^ 24 * 2 ^ 32)]) ∧
        onlyTile [aWrtC t c (0x10C + 16 * h)] s u)

/-- PARTNER_READ, PARTNER_REWRITE, ENCROACH_READBACK, VERIFY_READ with its result, and WRITE_RESULT (R30, R150 to R154,
R157, R182, R353, R377, R379). -/
def Obligations.WrittenSectorsAreChecked : Prop :=
  (∀ (s : State) (t c h i : Nat), channelOn s t → c < 4 → h < 24 → i = headIdx t c h →
    (∀ ps, ps = (((s.wrQ t c).filter fun e => decide (psaHead e.psa = h)).filterMap (needsPartner s t c h)).filter
        (fun p => (partnerState (s.headW i) p).isNone) →
      (ps = [] → exec (.partnerRead t c h) s = .next s) ∧
      (ps ≠ [] → headDead s t c h = false → ∃ v, exec (.partnerRead t c h) s = .next (fillCap (headGo v t c h) t c h) ∧
        (v.headW i).partners = (s.headW i).partners ++ ps.map (fun p => (p, PartSt.asked)) ∧
        (v.head i).want = (s.head i).want ++ ps.map (fun p => ⟨⟨p, 0, 0, .partner, 7⟩, none, false⟩) ∧
        v = { s with regs := v.regs, tl := v.tl })) ∧
    (∀ x e, ((s.headW i).partners.find? fun x =>
        !(((s.headW i).ser ++ s.wrQ t c ++ (s.wr t).inQ).any fun e => decide (e.psa + 2 ^ 14 = x.1)) &&
          partnerHeld (s.headW i) x.1) = some x →
      (∀ info, x.2 = .ready info → e = ⟨x.1, .partner, false, 0, 0, 0, 0, info, [], 0, false, 0, false⟩) →
      (x.2 = .lost → e = ⟨x.1, .marker, false, 0, 0, 0, 0, [], [], 0, false, 0, false⟩) →
      (x.2 = .lost ∨ ∃ info, x.2 = .ready info) →
      exec (.partnerRewrite t c h) s = .next
        ((s.setHeadW i { s.headW i with partners := (s.headW i).partners.erase x }).modWr t fun y =>
          { y with inQ := e :: y.inQ })) ∧
    ((s.headW i).run = true ∨ (s.headW i).verify = [] → exec (.verifyRead t c h) s = .next s) ∧
    ((s.headW i).run = false → (s.headW i).verify ≠ [] →
      ∃ v, exec (.verifyRead t c h) s = .next (fillCap (headGo v t c h) t c h) ∧ (v.headW i).verify = [] ∧
        (v.headW i).verifying = (s.headW i).verifying ++ (s.headW i).verify ∧
        (v.head i).want = (s.head i).want ++ (s.headW i).verify.map (fun e => ⟨⟨e.psa, 0, 0, .verify, 7⟩, none, false⟩) ∧
        v = { s with regs := v.regs, tl := v.tl }) ∧
    (∀ r rest w e, (s.det t).poolOut = r :: rest → r.dst = .live w → w.ctx = none → w.req.kind = .verify →
      psaTile w.req.psa = t → psaCluster w.req.psa = c → psaHead w.req.psa = h → r.lane < 192 →
      ((s.headW i).verifying.find? fun e => decide (e.psa = w.req.psa)) = some e →
      ∃ u, exec (.formatterResult t) s = .next u ∧
        (r.st = .conv → wordOk s w r.info = true →
          (u.wr t).results = (s.wr t).results ++ [⟨e.psa, e.kind, e.nsid, e.lba, e.gen, .written⟩] ∧
          (u.wr t).inQ = (s.wr t).inQ) ∧
        (r.st ≠ .conv → e.discard = true →
          (u.wr t).results = (s.wr t).results ++ [⟨e.psa, e.kind, e.nsid, e.lba, e.gen, .skipped⟩]) ∧
        (r.st ≠ .conv → e.discard = false → e.tries < s.fld (aWrt t 0) 23 20 → (u.wr t).results = (s.wr t).results ∧
          (u.wr t).inQ = { e with tries := e.tries + 1, begun := false, done := 0, late := false } :: (s.wr t).inQ ∧
          u.fld (aWrt t 0x14) 31 0 = min (s.fld (aWrt t 0x14) 31 0 + 1) (2 ^ 32 - 1)) ∧
        (r.st ≠ .conv → e.discard = false → s.fld (aWrt t 0) 23 20 ≤ e.tries →
          (s.headW i).fails + 1 < s.fld (aTile t 0x100C) 23 16 →
          (u.wr t).results = (s.wr t).results ++ [⟨e.psa, e.kind, e.nsid, e.lba, e.gen, .wfail⟩] ∧
          (u.headW i).fails = (s.headW i).fails + 1) ∧
        tilesOnly s u)) ∧
  ∀ (s : State) (t : Nat), channelOn s t →
    ((∀ j, j < 96 → (s.headW (96 * t + j)).encroach = []) → exec (.encroachReadback t) s = .next s) ∧
    (∀ j ps, j < 96 → ps = (s.headW (96 * t + j)).encroach → ps ≠ [] →
      (∀ k, k < j → (s.headW (96 * t + k)).encroach = []) →
      ∃ v, (v.headW (96 * t + j)).encroach = [] ∧
        (∀ k lba, (unitIn s (.way k) lba).valid = true → lba / 16 = (lineOf s k).line →
          psaOf s (lineOf s k).nsid lba ∈ ps →
          (unitIn v (.way k) lba).dirty = true ∧ (unitIn v (.way k) lba).elig = true ∧
            (unitIn v (.way k) lba).data = (unitIn s (.way k) lba).data) ∧
        (headDead s t (j / 24) (j % 24) = true → exec (.encroachReadback t) s = .next v) ∧
        (headDead s t (j / 24) (j % 24) = false →
          exec (.encroachReadback t) s = .next (fillCap (headGo v t (j / 24) (j % 24)) t (j / 24) (j % 24)) ∧
          (v.head (96 * t + j)).want = (s.head (96 * t + j)).want ++
            (ps.filter fun p => !(heldInBuffer s p)).map (fun p => ⟨⟨p, 0, 0, .readback, 7⟩, none, true⟩)) ∧
        v = { s with regs := v.regs, tl := v.tl, buf := v.buf }) ∧
    (hubHears s t = false ∨ nth 0 (s.link t 1).credits 3 = 0 → exec (.writeResult t) s = .next s) ∧
    (∀ r rest, hubHears s t = true → 1 ≤ nth 0 (s.link t 1).credits 3 → (s.wr t).results = r :: rest →
      ∃ u, exec (.writeResult t) s = .next u ∧ (u.wr t).results = rest ∧
      nth 0 (u.link t 1).credits 3 = nth 0 (s.link t 1).credits 3 - 1 ∧
      ((r.nsid, r.lba) ∈ s.buf.orphans → u.buf = { s.buf with orphans := s.buf.orphans.erase (r.nsid, r.lba) } ∧ u.nq = s.nq) ∧
      (∀ p, (r.nsid, r.lba) ∉ s.buf.orphans → s.bit (aBuf 0x10) 31 = false →
        ((placesOf s r.nsid r.lba).find? fun p => (unitIn s p r.lba).inflight) = some p →
        (r.st = .wfail → (unitIn u p r.lba).inflight = false ∧
          ((unitIn u p r.lba).elig = true ∨ (unitIn u p r.lba).valid = false) ∧
          u.fld (aBuf 0x13C) 31 0 = min (s.fld (aBuf 0x13C) 31 0 + 1) (2 ^ 32 - 1)) ∧
        (r.st = .written → (unitIn s p r.lba).again = false → (unitIn s p r.lba).lost = false →
          (unitIn u p r.lba).inflight = false ∧ (unitIn u p r.lba).dirty = false)))

/-- ARM_FRAME_SLOT, STATUS_FRAME, REPLY_FRAME, FAULT_FRAME, FAULT_LATCH_CLEAR and REFAULT_WINDOW_END (R155, R162 to R165,
R169, R172, R193). Where FCLR carries its detail bits is the model's reading (entry 126). -/
def Obligations.ArmLinkFramesAndFaults : Prop :=
  ∀ (s : State) (t c : Nat), motionOn s t → c < 4 → armState s t c = 2 →
    ((s.arm t c).stopped = none → (s.arm t c).pacc = none → (s.arm t c).step ≠ 1 →
      (∀ f rest, (s.arm t c).wait = none → (s.arm t c).ctl = f :: rest →
        (7 ≤ (s.arm t c).since ∨ nextGroup (s.arm t c) = none) →
        exec (.armFrameSlot t c) s = .next ((s.setArm t c { s.arm t c with
          ctl := rest, wait := some (f, 0, 0), since := 0 }).emit (.armFrame t c f))) ∧
      (∀ g, nextGroup (s.arm t c) = some g → ((s.arm t c).ctl = [] ∨ (s.arm t c).wait ≠ none ∨ (s.arm t c).since < 7) →
        exec (.armFrameSlot t c) s = .next ((s.setArm t c { s.arm t c with
          pend := (s.arm t c).pend.filter fun e => e.1 / 4 ≠ g, group := (g + 1) % 6
          since := (s.arm t c).since + 1 }).emit (.armFrame t c (masetFrame (s.arm t c) g)))) ∧
      (nextGroup (s.arm t c) = none → ((s.arm t c).ctl = [] ∨ (s.arm t c).wait ≠ none) →
        ∃ u, exec (.armFrameSlot t c) s = .next u ∧ u.out = .armFrame t c (armFrame 0 0) :: s.out ∧
          (u.arm t c).since = (s.arm t c).since + 1 ∧ (u.arm t c).ctl = (s.arm t c).ctl ∧
          (u.arm t c).wait = (s.arm t c).wait ∧ onlyTile [] s { u with out := s.out })) ∧
    (∀ f, (armCrcOk f = false ∨ frameBits f 63 60 ≠ 0) → (s.arm t c).bad + 1 < s.fld (aWrtC t c 4) 23 16 →
      ∃ u, exec (.statusFrame t c f) s = .next u ∧ (u.arm t c).bad = (s.arm t c).bad + 1 ∧
        u.fld (aWrtC t c 8) 31 16 = min (s.fld (aWrtC t c 8) 31 16 + 1) (2 ^ 16 - 1) ∧ onlyTile [aWrtC t c 8] s u) ∧
    (∀ f g n k, armCrcOk f = true → frameBits f 63 60 = 0 → (∀ j, j < 48 → f.getLsbD (12 + j) = false) →
      f.getLsbD 10 = false → (s.arm t c).wait = some (g, n, k) →
      (frameBits f 9 8 = ((s.arm t c).ackc.getD ((frameBits f 9 8 + 3) % 4) + 1) % 4 → ∃ u,
        exec (.statusFrame t c f) s = .next u ∧ (u.arm t c).wait = none ∧ (u.arm t c).ackc = some (frameBits f 9 8) ∧
        (u.arm t c).bad = 0 ∧ (frameBits g 63 60 = 4 → u.reg (aWrtC t c 0x10) = w32 (frameBits g 55 32 % 2 ^ 24) ∧
          ∀ h, h < 24 → u.bit (aWrtC t c (0x10C + 16 * h)) 3 = (frameBits g 55 32).testBit h) ∧
        (frameBits g 63 60 ≠ 4 → frameBits g 63 60 ≠ 8 → frameBits g 63 60 ≠ 5 → u.regs = s.regs) ∧
        u = { s with regs := u.regs, tl := u.tl }) ∧
      (frameBits f 9 8 ≠ ((s.arm t c).ackc.getD ((frameBits f 9 8 + 3) % 4) + 1) % 4 →
        (n = 0 → ∃ u, exec (.statusFrame t c f) s = .next u ∧ (u.arm t c).wait = some (g, 1, k) ∧ onlyTile [] s u) ∧
        (n ≠ 0 → k < s.fld (aWrtC t c 4) 15 12 → ∃ u, exec (.statusFrame t c f) s = .next u ∧
          (u.arm t c).wait = some (g, 0, k + 1) ∧ u.out = .armFrame t c g :: s.out ∧
          u.fld (aWrtC t c 0xC) 31 0 = min (s.fld (aWrtC t c 0xC) 31 0 + 1) (2 ^ 32 - 1) ∧
          onlyTile [aWrtC t c 0xC] s { u with out := s.out }))) ∧
    (∀ f, armCrcOk f = true → frameBits f 63 60 = 2 → (s.arm t c).step ≠ 3 →
      ((s.arm t c).pacc = none → frameBits f 59 52 = 2 → ∃ u, exec (.replyFrame t c f) s = .next u ∧
        (u.arm t c).temp = false ∧ u.reg (aWrtC t c 0x14) = w32 (frameBits f 51 36) ∧ onlyTile [aWrtC t c 0x14] s u) ∧
      ((s.arm t c).pacc ≠ none → s.bit (aWrtC t c 0x18) 30 = false → frameBits f 59 52 = s.fld (aWrtC t c 0x18) 23 16 →
        ∃ u, exec (.replyFrame t c f) s = .next u ∧ (u.arm t c).pacc = none ∧ u.bit (aWrtC t c 0x18) 31 = false ∧
          u.bit (aWrtC t c 0x18) 29 = false ∧ u.fld (aWrtC t c 0x18) 15 0 = frameBits f 51 36 ∧
          onlyTile [aWrtC t c 0x18] s u)) ∧
    (∀ f k, armCrcOk f = true → frameBits f 63 60 = 1 → frameBits f 59 56 = k → k < 5 →
      ∃ u, exec (.faultFrame t c f) s = .next u ∧
        u.reg (aWrtC t c (0x20 + 4 * k)) = s.reg (aWrtC t c (0x20 + 4 * k)) ||| w32 (frameBits f 55 32) ∧
        (∀ h, k ≠ 0 → h < 24 → frameBits f 55 32 = 2 ^ h → s.fld (aTile t 0x100C) 15 8 ≠ 0 →
          (∀ e ∈ (s.arm t c).watch, ¬(e.kind = k ∧ e.head = h)) →
          (u.arm t c).watch = (s.arm t c).watch ++ [⟨k, h, s.now⟩] ∧
          (u.arm t c).ctl = (s.arm t c).ctl ++ [armFrame 7 (k * 2 ^ 56 + 2 ^ h % 2 ^ 24 * 2 ^ 32)] ∧
          (k = 4 → .maFault t c h ∈ u.out) ∧
          tileAndNotices [aWrtC t c (0x20 + 4 * k)] s u)) ∧
    (∀ f, armCrcOk f = true → frameBits f 63 60 = 1 → frameBits f 59 56 = 15 →
      ∃ u, exec (.faultFrame t c f) s = .next u ∧
        u.reg (aWrtC t c 0x34) = s.reg (aWrtC t c 0x34) ||| w32 (frameBits f 9 8) ∧
        (∀ h e rest, h < 24 → (s.headW (headIdx t c h)).ser = e :: rest → (s.headW (headIdx t c h)).gate = true →
          e.discard = false → e.tries < s.fld (aWrt t 0) 23 20 → (u.headW (headIdx t c h)).gate = false ∧
            (u.headW (headIdx t c h)).ser = { e with begun := false, done := 0, tries := e.tries + 1 } :: rest)) ∧
    (∀ k w m, k < 6 → m = s.reg (aWrtC t c (0x20 + 4 * k)) &&& w &&& (if k = 5 then 3 else 0xFFFFFF) →
      (m = 0 → exec (.faultLatchClear t c k w) s = .next s) ∧
      (m ≠ 0 → ∃ u, exec (.faultLatchClear t c k w) s = .next u ∧
        u.reg (aWrtC t c (0x20 + 4 * k)) = s.reg (aWrtC t c (0x20 + 4 * k)) &&& ~~~m ∧
        (u.arm t c).ctl = (s.arm t c).ctl ++ [armFrame 7 ((if k = 5 then 15 else k) * 2 ^ 56 +
          m.toNat % 2 ^ 24 * 2 ^ 32)] ∧
        tileAndNotices [aWrtC t c (0x20 + 4 * k)] s u)) ∧
    (∀ k h, h < 24 → ((∀ e ∈ (s.arm t c).watch, ¬(e.kind = k ∧ e.head = h)) → exec (.refaultWindowEnd t c k h) s = .next s) ∧
      ((∃ e ∈ (s.arm t c).watch, e.kind = k ∧ e.head = h) → ∃ u, exec (.refaultWindowEnd t c k h) s = .next u ∧
        (∀ e, e ∈ (u.arm t c).watch ↔ e ∈ (s.arm t c).watch ∧ ¬(e.kind = k ∧ e.head = h)) ∧ tileAndNotices [] s u))

/-- ARM_LINK_TRAIN_STEP, ARM_LINK_RESTART, PREAMP_TEMP_POLL and PACC_GO (R151, R166, R167, R169, R172). `longestRun` takes no
run past step 31, the centre rounds down, and WCUR of a head whose IW is 0 carries 0: the model's choices (entry 126). -/
def Obligations.ArmLinkEntersService : Prop :=
  ∀ (s : State) (t c : Nat), motionOn s t → c < 4 →
    (∀ pass, armState s t c = 0 → ∃ u, exec (.armLinkTrainStep t c pass) s = .next u ∧
      u.fld (aWrtC t c 0) 3 0 = 1 ∧ u.arm t c = { Arm.none with step := 1 } ∧ tileAndNotices [aWrtC t c 0] s u) ∧
    (∀ pass, (armState s t c = 2 ∨ armState s t c = 4) → exec (.armLinkTrainStep t c pass) s = .next s) ∧
    (∀ pass, armState s t c = 1 ∨ armState s t c = 3 → (s.arm t c).stopped = none →
      ((s.arm t c).step = 1 → 32 ≤ (s.arm t c).count →
        exec (.armLinkTrainStep t c pass) s = .next (s.setArm t c { s.arm t c with step := 2 })) ∧
      ((s.arm t c).step = 1 → (s.arm t c).count < 32 → exec (.armLinkTrainStep t c pass) s = .next s) ∧
      (∀ at_ n, (s.arm t c).step = 2 → longestRun (pass.take 32) = (at_, n) →
        (n < 8 → exec (.armLinkTrainStep t c pass) s = .next s) ∧
        (8 ≤ n → ∃ u, exec (.armLinkTrainStep t c pass) s = .next u ∧ (u.arm t c).step = 3 ∧
          u.fld (aWrtC t c 0) 12 8 = (at_ + (n - 1) / 2) % 32 ∧
          (u.arm t c).ctl = (s.arm t c).ctl ++ [armFrame 6 0, armFrame 6 (2 ^ 52)] ∧ onlyTile [aWrtC t c 0] s u)) ∧
      (∀ i r, (s.arm t c).step = 3 → (s.arm t c).ident = some i → (s.arm t c).rev = some r →
        ∃ u, exec (.armLinkTrainStep t c pass) s = .next u ∧ (u.arm t c).step = 4 ∧
          (u.arm t c).ctl = (s.arm t c).ctl ++ (Tab.at [] s.mgmt.preamp (4 * t + c)).map (fun e =>
            armFrame 5 (e.1 % 256 * 2 ^ 52 + e.2 % 65536 * 2 ^ 36)) ∧ tileAndNotices [] s u) ∧
      ((s.arm t c).step = 4 → (s.arm t c).ctl = [] → (s.arm t c).wait = none →
        ∃ u, exec (.armLinkTrainStep t c pass) s = .next u ∧ (u.arm t c).step = 5 ∧ (u.arm t c).mask = 0 ∧
          (u.arm t c).ctl = (List.range 24).map (fun h =>
            armFrame 3 (h * 2 ^ 55 + s.fld (aWrtC t c (0x104 + 16 * h)) 23 17 * 2 ^ 48 +
              s.fld (aWrtC t c (0x104 + 16 * h)) 16 12 * 2 ^ 43 + s.fld (aWrtC t c (0x104 + 16 * h)) 11 8 * 2 ^ 39)) ++
            [armFrame 4 (2 ^ 59)] ∧ onlyTile [] s u) ∧
      ((s.arm t c).step = 5 → (s.arm t c).ctl = [] → (s.arm t c).wait = none →
        ∃ u, exec (.armLinkTrainStep t c pass) s = .next u ∧ u.fld (aWrtC t c 0) 3 0 = 2 ∧ (u.arm t c).step = 0 ∧
          (u.arm t c).attempts = 0 ∧ tileAndNotices [aWrtC t c 0] s u)) ∧
    (armState s t c = 3 → (s.arm t c).stopped ≠ none → ∃ u, exec (.armLinkRestart t c) s = .next u ∧
      (u.arm t c).stopped = none ∧ (u.arm t c).step = 1 ∧ (u.arm t c).count = 0 ∧
      (u.arm t c).attempts = (s.arm t c).attempts + 1 ∧
      u.fld (aWrtC t c 0) 31 24 = min (s.fld (aWrtC t c 0) 31 24 + 1) 255 ∧ onlyTile [aWrtC t c 0] s u) ∧
    ((armState s t c ≠ 3 ∨ (s.arm t c).stopped = none) → exec (.armLinkRestart t c) s = .next s) ∧
    (armState s t c = 2 → (s.arm t c).temp = false → ∃ u, exec (.preampTempPoll t c) s = .next u ∧
      (u.arm t c).temp = true ∧ (u.arm t c).ctl = (s.arm t c).ctl ++ [armFrame 6 (2 * 2 ^ 52)] ∧ onlyTile [] s u) ∧
    ((armState s t c ≠ 2 ∨ (s.arm t c).temp = true) → exec (.preampTempPoll t c) s = .next s) ∧
    (∀ w, s.bit (aWrtC t c 0x18) 31 = true → exec (.paccGo t c w) s = .next (s.emit (.reply .engine (aWrtC t c 0x18) w .storeBusy))) ∧
    (∀ w, s.bit (aWrtC t c 0x18) 31 = false → w.getLsbD 31 = true → ∃ u, exec (.paccGo t c w) s = .next u ∧
      u.out = .reply .engine (aWrtC t c 0x18) w .ok :: s.out ∧ onlyTile [aWrtC t c 0x18] s { u with out := s.out } ∧
      u.fld (aWrtC t c 0x18) 23 16 = fld w 23 16 ∧
      (armState s t c ≠ 2 → u.bit (aWrtC t c 0x18) 31 = false ∧ u.bit (aWrtC t c 0x18) 29 = true ∧ u.tl = s.tl) ∧
      (armState s t c = 2 → u.bit (aWrtC t c 0x18) 31 = true ∧ u.bit (aWrtC t c 0x18) 29 = false ∧
        (u.arm t c).pacc = some 0 ∧ (u.arm t c).ctl = (s.arm t c).ctl ++
          [if w.getLsbD 30 then armFrame 5 (fld w 23 16 * 2 ^ 52 + fld w 15 0 * 2 ^ 36) else armFrame 6 (fld w 23 16 * 2 ^ 52)]))

/-- The words of R285 that compute, and NOP: the word of the thread's bank at its address is run by its own row. -/
def Obligations.WordsComputeTheirResult : Prop :=
  ∀ (s : State) (e th : Nat) (w : Word) (op a b c : Nat) (imm : BitVec 16) (x y : Word), runsWord s e th w →
    (thread s e th).pc + 1 < storeWords e → (thread s e th).pc ≠ 14 → op = fld w 31 26 → a = fld w 25 21 → b = fld w 20 16 →
    c = fld w 15 11 → imm = w.setWidth 16 → x = getReg s e th b → y = getReg s e th c →
    (∀ i v, (i = .add e th ∧ op = 0x01 ∧ v = x + y ∨ i = .sub e th ∧ op = 0x02 ∧ v = x - y ∨
        i = .and e th ∧ op = 0x03 ∧ v = x &&& y ∨ i = .or e th ∧ op = 0x04 ∧ v = x ||| y ∨
        i = .xor e th ∧ op = 0x05 ∧ v = x ^^^ y ∨ i = .shl e th ∧ op = 0x06 ∧ v = x <<< (y.toNat % 32) ∨
        i = .shr e th ∧ op = 0x07 ∧ v = x >>> (y.toNat % 32) ∨
        i = .sar e th ∧ op = 0x08 ∧ v = x.sshiftRight (y.toNat % 32) ∨
        i = .mul e th ∧ op = 0x09 ∧ v = w32 (x.toNat * y.toNat) ∨
        i = .slt e th ∧ op = 0x0A ∧ v = (if x.toInt < y.toInt then 1 else 0) ∨
        i = .sltu e th ∧ op = 0x0B ∧ v = (if x.toNat < y.toNat then 1 else 0) ∨
        i = .min e th ∧ op = 0x0C ∧ v = (if x.toInt ≤ y.toInt then x else y) ∨
        i = .max e th ∧ op = 0x0D ∧ v = (if x.toInt ≤ y.toInt then y else x) ∨
        i = .addi e th ∧ op = 0x10 ∧ v = x + imm.signExtend 32 ∨ i = .andi e th ∧ op = 0x11 ∧ v = x &&& imm.setWidth 32 ∨
        i = .ori e th ∧ op = 0x12 ∧ v = x ||| imm.setWidth 32 ∨ i = .lui e th ∧ op = 0x13 ∧ v = w32 (imm.toNat * 2 ^ 16) ∨
        i = .shli e th ∧ op = 0x14 ∧ v = x <<< (imm.toNat % 32) ∨ i = .shri e th ∧ op = 0x15 ∧ v = x >>> (imm.toNat % 32) ∨
        i = .sari e th ∧ op = 0x16 ∧ v = x.sshiftRight (imm.toNat % 32)) →
      ∃ u, exec i s = .next u ∧ regSet s u e th a v ∧ wentOn s u e th ((thread s e th).pc + 1)) ∧
    (op = 0x00 → ∃ u, exec (.nop e th) s = .next u ∧ regSet s u e th 0 0 ∧ wentOn s u e th ((thread s e th).pc + 1)) ∧
    (isRoutine e = true →
      (∀ i v, (i = .mac e th ∧ op = 0x18 ∧ v = satI 40 ((s.eng e).acc + sfld x 15 0 * sfld y 15 0) ∨
          i = .msu e th ∧ op = 0x19 ∧ v = satI 40 ((s.eng e).acc - sfld x 15 0 * sfld y 15 0) ∨
          i = .aclr e th ∧ op = 0x1A ∧ v = 0) →
        ∃ u, exec i s = .next u ∧ regSet s u e th 0 0 ∧ wentOnAcc s u e th ((thread s e th).pc + 1) v) ∧
      (∀ n v, op = 0x1B → n = imm.toNat →
        (1 ≤ n → n ≤ 31 → v = ((s.eng e).acc + 2 ^ (n - 1)) / (2 ^ n : Nat) →
          ∃ u, exec (.aout e th) s = .next u ∧ regSet s u e th a (w32 (pattern 32 (satI 16 v))) ∧
            u.fld (satCounter e) 31 0 =
              min (s.fld (satCounter e) 31 0 + (if -32768 ≤ v ∧ v ≤ 32767 then 0 else 1)) (2 ^ 32 - 1) ∧
            regsKept [satCounter e] s u ∧ wentOn s { u with regs := s.regs } e th ((thread s e th).pc + 1)) ∧
        ((n = 0 ∨ 31 < n) → ∃ u, exec (.aout e th) s = .next u ∧ regSet s u e th a s.freeVal ∧ u.free = s.free + 1 ∧
          wentOn s { u with free := s.free } e th ((thread s e th).pc + 1))))

/-- The words of R285 that jump, load, store, wait and end; the faults BADOP and STEPMAX of R291; a word of another row
(entry 16). -/
def Obligations.WordsBranchLoadAndStore : Prop :=
  ∀ (s : State) (e th : Nat) (w : Word) (op a b : Nat) (imm : BitVec 16) (x y : Word) (k : State) (pc : Nat),
    runsWord s e th w → op = fld w 31 26 → a = fld w 25 21 → b = fld w 20 16 → imm = w.setWidth 16 →
    pc = (thread s e th).pc → x = getReg s e th a → y = getReg s e th b →
    k = setThread s e th { thread s e th with steps := (thread s e th).steps + 1 } →
    (∀ i p n, pc + 1 < storeWords e → pc ≠ 14 →
      (i = .beq e th ∧ op = 0x20 ∧ p = decide (x = y) ∨ i = .bne e th ∧ op = 0x21 ∧ p = decide (x ≠ y) ∨
        i = .blt e th ∧ op = 0x22 ∧ p = decide (x.toInt < y.toInt) ∨
        i = .bge e th ∧ op = 0x23 ∧ p = decide (y.toInt ≤ x.toInt)) →
      n = (if p then (w32 pc + imm.signExtend 32).toNat else pc + 1) →
      (n < storeWords e → n ≠ 15 → ∃ u, exec i s = .next u ∧ regSet s u e th 0 0 ∧ wentOn s u e th n) ∧
      (storeWords e ≤ n ∨ n = 15 → exec i s = .next (microFault k e th 6))) ∧
    (∀ i n, (i = .jmp e th ∧ op = 0x24 ∧ n = imm.toNat ∨ i = .ret e th ∧ op = 0x26 ∧ n = (getReg s e th 31).toNat) →
      (n < storeWords e → n ≠ 15 → ∃ u, exec i s = .next u ∧ regSet s u e th 0 0 ∧ wentOn s u e th n) ∧
      (storeWords e ≤ n ∨ n = 15 → exec i s = .next (microFault k e th 6))) ∧
    (op = 0x25 → imm.toNat < storeWords e → imm.toNat ≠ 15 →
      ∃ u, exec (.call e th) s = .next u ∧ regSet s u e th 31 (w32 (pc + 1)) ∧ wentOn s u e th imm.toNat) ∧
    (∀ adr blk o r, pc + 1 < storeWords e → pc ≠ 14 →
      adr = (y + imm.setWidth 32).toNat + (if e = 0 then 0 else tileBase (engTile e)) →
      blkOf adr = some (blk, o) → regRow s.part adr = some r →
      (op = 0x28 → mayRead e blk = false → exec (.ldr e th) s = .next (microFault k e th 3)) ∧
      (op = 0x28 → mayRead e blk = true → s.domOn (blkDom blk o) = true → afterRead k .engine adr r = k →
        ∃ u, exec (.ldr e th) s = .next u ∧ regSet s u e th a (viewReg k adr) ∧ wentOn s u e th (pc + 1)) ∧
      (op = 0x28 → mayRead e blk = true → s.domOn (blkDom blk o) = false →
        ∃ u, exec (.ldr e th) s = .next u ∧ regSet s u e th a 0 ∧ wentOn s u e th (pc + 1)) ∧
      (op = 0x29 → mayWrite e blk o = false → exec (.str e th) s = .next (microFault k e th 3)) ∧
      (op = 0x29 → mayWrite e blk o = true → s.domOn (blkDom blk o) = true →
        (r.acc = .rw ∧ fieldsOk k blk o x = true ∨ r.acc = .w1c) →
        ∃ u, exec (.str e th) s = .next (writeBlk u .engine adr blk o r x).1 ∧
          regSet s u e th 0 0 ∧ wentOn s u e th (pc + 1))) ∧
    (∀ n, n = (y + imm.setWidth 32).toNat →
      (scratchWords e ≤ n → (op = 0x2A → exec (.lds e th) s = .next (microFault k e th 4)) ∧
        (op = 0x2B → exec (.sts e th) s = .next (microFault k e th 4))) ∧
      (n < scratchWords e → (engKind e ≠ 3 ∨ 8 ≤ n) → pc + 1 < storeWords e → pc ≠ 14 →
        (op = 0x2A → ∃ u, exec (.lds e th) s = .next u ∧
          regSet s u e th a (Tab.at 0 (s.eng e).scratch (scratchKey e th n)) ∧ wentOn s u e th (pc + 1)) ∧
        (op = 0x2B → ∃ u, exec (.sts e th) s = .next u ∧ (∀ r, getReg u e th r = getReg s e th r) ∧
          (∀ j, Tab.at 0 (u.eng e).scratch j = if j = scratchKey e th n then x else Tab.at 0 (s.eng e).scratch j) ∧
          wentOn s u e th (pc + 1))) ∧
      (n < 8 → engKind e = 3 → (op = 0x2B → exec (.sts e th) s = .next (microFault k e th 4)) ∧
        (op = 0x2A → pc + 1 < storeWords e → pc ≠ 14 → ∃ u, exec (.lds e th) s = .next u ∧
          regSet s u e th a (ctxWord k (engTile e) th n) ∧ wentOn s u e th (pc + 1)))) ∧
    (op = 0x3F → exec (.fault e th) s = .next (microFault k e th 7)) ∧
    (op = 0x27 → (e = 0 → s.tl.packets = []) → (isRoutine e = true → (s.eng e).queue = []) →
      ∃ u, exec (.endThread e th) s = .next u ∧ thread u e th = Thread.none ∧
        (∀ j, j ≠ th → thread u e j = thread s e j) ∧ onlyTile [] s u) ∧
    (isRoutine e = false → ∀ i, (i = .mac e th ∧ op = 0x18 ∨ i = .msu e th ∧ op = 0x19 ∨ i = .aclr e th ∧ op = 0x1A ∨
        i = .aout e th ∧ op = 0x1B) → exec i s = .next (microFault k e th 1)) ∧
    (op = 0x31 → (isRoutine e = true → exec (.wait e th) s = .next (microFault k e th 1)) ∧
      (isRoutine e = false → (thread s e th).ended = true → exec (.wait e th) s = .next (endThread k e th)) ∧
      (isRoutine e = false → (thread s e th).ended = false → (engKind e = 3 → (s.ctx (engTile e) th).results = []) →
        pc + 1 < storeWords e → pc ≠ 14 →
        ∃ u, exec (.wait e th) s = .next u ∧ (thread u e th).wait = some (imm.toNat, a) ∧
          (thread u e th).pc = pc + 1 ∧ (thread u e th).live = true ∧ (∀ j, j ≠ th → thread u e j = thread s e j) ∧
          onlyTile [] s u)) ∧
    (∀ i n, (i = .nop e th ∧ n = 0x00 ∨ i = .add e th ∧ n = 0x01 ∨ i = .mac e th ∧ n = 0x18 ∨ i = .beq e th ∧ n = 0x20 ∨
        i = .ldr e th ∧ n = 0x28 ∨ i = .sts e th ∧ n = 0x2B ∨ i = .wait e th ∧ n = 0x31 ∨ i = .fault e th ∧ n = 0x3F) →
      (op ≠ n → opListed op = true → exec i s = .next s) ∧ (opListed op = false → exec i s = .next (microFault k e th 1)))

/-- HIST, BOOK, ACCEPT, DROP, STEP, SLOT, LADDER_ENTRY and TAG_FAILURE_RETURN (R134, R174 to R180, R185, R188 to R191, R286,
R288, R290): `k` is the state once the message has left. Which messages the default image sends when is the model's
choice (entry 16). -/
def Obligations.LadderThreadsAct : Prop :=
  ∀ (s : State) (t n e : Nat), channelOn s t → n < 256 → e = 1 + 6 * t + 5 →
    (∀ (kind a b : Nat) (k : State) (x : Ctx), posts s e n kind a b k → x = k.ctx t n →
      (x.live = false → ∀ i, (i = .hist t n ∧ kind = 1 ∨ i = .book t n ∧ kind = 2 ∨ i = .drop t n ∧ kind = 4 ∨
        i = .step t n ∧ kind = 5 ∨ i = .slot t n ∧ kind = 6) → exec i s = .next k) ∧
      (x.live = true →
        (∀ q, kind = 1 → 1 ≤ fld (w32 a) 31 28 → fld (w32 a) 31 28 ≤ 8 →
          q = ⟨n, fld (w32 a) 31 28, fld (w32 a) 27 26, fld (w32 a) 25 23, fld (w32 a) 21 16, fld (w32 a) 15 8, fld (w32 a) 7 0,
            x.capid, headIdx t (psaCluster x.want.req.psa) (psaHead x.want.req.psa)⟩ →
          ((s.det t).hist.length + (s.det t).ops.length < 16 → exec (.hist t n) s =
            .next (detPump (k.modDet t fun d => { d with hist := d.hist ++ [q] }) t)) ∧
          (16 ≤ (s.det t).hist.length + (s.det t).ops.length → exec (.hist t n) s = .next s)) ∧
        (∀ q, kind = 1 → (fld (w32 a) 31 28 = 0 ∨ 8 < fld (w32 a) 31 28) → (s.det t).hist.length + (s.det t).ops.length < 16 →
          (s.det t).late = [] → (s.det t).poolOut.length < 32 →
          q = ⟨n, fld (w32 a) 31 28, fld (w32 a) 27 26, fld (w32 a) 25 23, fld (w32 a) 21 16, fld (w32 a) 15 8, fld (w32 a) 7 0,
            x.capid, headIdx t (psaCluster x.want.req.psa) (psaHead x.want.req.psa)⟩ →
          exec (.hist t n) s = .next (k.modDet t fun d => { d with poolOut := d.poolOut ++ [opResult q .badreq] })) ∧
        (∀ c h, kind = 2 → c = psaCluster x.want.req.psa → h = psaHead x.want.req.psa →
          (16 ≤ bookingsOf s t c → exec (.book t n) s = .next s) ∧
          (bookingsOf s t c < 16 → tooLate k t n = false → ∃ u, exec (.book t n) s = .next u ∧
            u.ctx t n = { x with offset := signedOf 32 a, good := none, capid := none, booked := true } ∧
            (u.head (headIdx t c h)).bookings = (k.head (headIdx t c h)).bookings ++
              [⟨n, x.want.req.psa, signedOf 32 a, decide (b = 1), false, false⟩] ∧
            (u.head (headIdx t c h)).want = (k.head (headIdx t c h)).want ++ [x.want] ∧ tilesOnly k u)) ∧
        (∀ i cause, (i = .book t n ∧ kind = 2 ∧ bookingsOf s t (psaCluster x.want.req.psa) < 16 ∧ tooLate k t n = true ∧
              cause = .deadline ∨
            (i = .drop t n ∧ kind = 4 ∨ i = .step t n ∧ kind = 5 ∧ (a = 7 ∨ x.cap < a ∧ a < 7 ∧ a ≠ 0)) ∧
              cause = (if x.tagSeen then .auth else .media)) →
          ∃ u, exec i s = .next u ∧ (u.ctx t n).live = false ∧
            (forHub x.want.req.kind = true → (s.det t).outWait = [] → outUsed s t < 48 →
              (u.det t).outQ = (s.det t).outQ ++ [⟨x.want.req.psa, x.want.req, [], false, 0, some cause, 0, none⟩]) ∧
            u.fld (aTile t (0x1080 + 4 * cause.code)) 31 0 =
              min (s.fld (aTile t (0x1080 + 4 * cause.code)) 31 0 + 1) (2 ^ 32 - 1) ∧ tilesOnly k u) ∧
        (kind = 3 → byProgram s e n = false → x.good = none → exec (.accept t n) s = .next
          (microFault (setThread s e n { thread s e n with steps := (thread s e n).steps + 1 }) e n 5)) ∧
        (∀ info, kind = 3 → x.good = some info → forHub x.want.req.kind = true → (s.det t).outWait = [] →
          outUsed s t < 48 → ∃ u, exec (.accept t n) s = .next u ∧ u.ctx t n = { x with sent := true, good := none } ∧
            (u.det t).outQ = (s.det t).outQ ++ [⟨x.want.req.psa, x.want.req, info.drop 16, headerBlank (info.take 16),
              crc32c info, none, x.capid.getD 0, x.want.ctx⟩] ∧ onlyTile [aTile t 0x30] k u) ∧
        (kind = 5 → 1 ≤ a → a < 7 → a ≤ x.cap → exec (.step t n) s = .next (k.setCtx t n { x with step := a })) ∧
        (∀ j, kind = 6 → x.slot = none →
          lowestFree (((s.det t).soft.filter fun k => k.2.owner.isSome || k.2.soft.isSome).map (·.1)) 8 = some j →
          ∃ u, exec (.slot t n) s = .next u ∧ u.ctx t n = { x with slot := some j } ∧
            Tab.at SoftSlot.free (u.det t).soft j = ⟨some n, none⟩ ∧
            (∀ k, k ≠ j → Tab.at SoftSlot.free (u.det t).soft k = Tab.at SoftSlot.free (s.det t).soft k) ∧
            onlyTile [] k u))) ∧
    (∀ i ix w cap word rej, freeCtx s t = some n →
      (∃ l rest, (s.det t).ladQ = l :: rest ∧ i = .ladderEntry t ∧ ix = l.index ∧ ix < 6 ∧ w = l.want ∧ cap = l.capid ∧
          word = l.word ∧ rej = [] ∨
        ∃ f rest, (s.det t).tagQ = f :: rest ∧ hubHears s t = true ∧ 1 ≤ nth 0 (s.link t 0).credits 1 ∧ f.ctx = none ∧
          i = .tagFailureReturn t ∧ ix = 5 ∧ w = ⟨f.req, none, false⟩ ∧ cap = none ∧ word = resWord .conv true 0 0 ∧
          rej = [f.crc]) →
      headDead s t (psaCluster w.req.psa) (psaHead w.req.psa) = false → entryStep s t ix < 7 → entryStep s t ix ≤ capOf s t w →
      ∃ u, exec i s = .next u ∧ (u.ctx t n).live = true ∧ (u.ctx t n).want = { w with ctx := some n, later := false } ∧
        (u.ctx t n).step = entryStep s t ix ∧ (u.ctx t n).cap = capOf s t w ∧ (u.ctx t n).capid = cap ∧
        (u.ctx t n).rejected = rej ∧ (u.ctx t n).slot = none ∧
        thread u e n = ⟨true, liveBank s e, 2, 0, none, Tab.to 0 (Tab.to 0 [] 1 (w32 ix)) 2 word, 0, 0, false, false⟩ ∧
        ((bankLive s e).dflt = true → ix < 3 → cap ≠ none → s.fld (aTile t 0x1004) 31 28 ≠ 0 →
          (u.ctx t n).prog.todo = [.hist (if fld word 31 28 = 2 then place 31 28 2 ||| place 21 16 8
            else place 31 28 3 ||| place 21 16 8 ||| place 15 8 (s.fld (aTile t 0x1004) 31 28)), .wait 1]) ∧
        u.fld (aTile t (0x1040 + 4 * ix)) 31 0 = min (s.fld (aTile t (0x1040 + 4 * ix)) 31 0 + 1) (2 ^ 32 - 1) ∧
        onlyTile [aTile t (0x1040 + 4 * ix), aTile t 0x1020] s { u with out := s.out }) ∧
    ((hubHears s t = false ∨ nth 0 (s.link t 0).credits 1 = 0) → exec (.tagFailureReturn t) s = .next s) ∧
    (∀ f rest x, (s.det t).tagQ = f :: rest → hubHears s t = true → 1 ≤ nth 0 (s.link t 0).credits 1 → f.ctx = some n →
      x = s.ctx t n → ∃ u, exec (.tagFailureReturn t) s = .next u ∧ (u.det t).tagQ = rest ∧
        (¬(x.live = true ∧ x.want.req.psa = f.psa) → u.ctx t n = x) ∧
        (x.live = true → x.want.req.psa = f.psa → (thread s e n).wait = none → u.ctx t n = { x with
          sent := false, good := none, tagSeen := true, rejected := (x.rejected ++ [f.crc]).take 4
          results := x.results ++ [(2, f.crc)] }) ∧
        onlyTile [] s { u with out := s.out })

/-- BOOKING_START, BOOKING_END, DEADLINE_INSTANT, RETIREMENT_MIRRORED and RETIREMENT_FLASH_COPY (R177, R180, R184, R195 to
R198, R242). -/
def Obligations.BookingsDeadlinesAndRetirements : Prop :=
  ∀ (s : State),
    (∀ t c h i, channelOn s t → c < 4 → h < 24 → i = headIdx t c h →
      ((s.head i).bookings = [] ∨ ¬(ctlMode s t c = 4 ∨ ctlMode s t c = 5) → exec (.bookingStart t c h) s = .next s) ∧
      ((s.head i).bookings ≠ [] → (dueBooking s t c h).isSome = true) ∧
      (∀ b, dueBooking s t c h = some b → b ∈ (s.head i).bookings ∧ ∃ k ∈ (s.head i).bookings,
        (∀ j ∈ (s.head i).bookings, (bookSpan s t c h k).1 ≤ (bookSpan s t c h j).1) ∧
        ∀ j ∈ (s.head i).bookings, (bookSpan s t c h j).1 < (bookSpan s t c h k).2 →
          (s.ctx t b.ctx).born ≤ (s.ctx t j.ctx).born) ∧
      (∀ b, dueBooking s t c h = some b → headBooked (s.head i) = false → (ctlMode s t c = 4 ∨ ctlMode s t c = 5) →
        ∃ u, exec (.bookingStart t c h) s = .next u ∧
          (∃ k ∈ (u.head i).bookings, k.started = true ∧ k.ctx = b.ctx ∧ k.psa = b.psa ∧ k.offset = b.offset) ∧
          u.fld (aCtl t c (0x1004 + 32 * h)) 31 8 = trackCode (pairLow s t (psaTrack b.psa)) % 2 ^ 24 ∧
          u.fld (aCtl t c (0x1008 + 32 * h)) 15 0 = pattern 16 (b.offset + (if b.displaced then
            (if psaTrack b.psa = pairLow s t (psaTrack b.psa) then -1024 else 1024) else 0)) ∧
          u.bit (aCtl t c (0x100C + 32 * h)) 29 = true ∧
          u = { s with regs := u.regs, irq := u.irq, out := u.out, tl := u.tl, nq := { s.nq with cmds := u.nq.cmds } }) ∧
      (headBooked (s.head i) = false → exec (.bookingEnd t c h) s = .next s) ∧
      (headBooked (s.head i) = true →
        (∀ b ∈ (s.head i).bookings, b.started = true → ∀ w ∈ (s.head i).want ++ (s.head i).capQ.flatMap entWants, w.ctx ≠ some b.ctx) →
        ∃ v, exec (.bookingEnd t c h) s = .next (headGo v t c h) ∧
          (v.head i).bookings = (s.head i).bookings.filter (fun b => !b.started) ∧
          (∀ w ∈ (s.head i).want, w.ctx ≠ none → w ∈ (v.head i).want) ∧
          (∀ b ∈ (s.head i).bookings, b.started = true → (v.ctx t b.ctx).booked = false) ∧
          v.fld (aCtl t c (0x1004 + 32 * h)) 31 8 = trackCode (s.headS i).home.1 % 2 ^ 24 ∧
          v.fld (aCtl t c (0x1008 + 32 * h)) 15 0 = pattern 16 (s.headS i).home.2 ∧
          v.bit (aCtl t c (0x100C + 32 * h)) 29 = false ∧
          v = { s with regs := v.regs, irq := v.irq, out := v.out, tl := v.tl, nq := { s.nq with cmds := v.nq.cmds } })) ∧
    (∀ i d, (s.cmd i).live = true → (s.cmd i).cls = .rd → (s.cmd i).deadline = some d →
      (s.now < d → exec (.deadlineInstant i) s = .next s) ∧
      (d ≤ s.now → ∃ u, exec (.deadlineInstant i) s = .next u ∧ (u.cmd i).deadline = none ∧ (u.cmd i).turned = true ∧
        ((∀ t ∈ s.tiles, (∀ q ∈ Tab.at [] s.buf.held t, q.cmd ≠ i) ∧
            ∀ e ∈ openCtxs s t, e.2.want.req.cmd ≠ i) →
          ∀ b ∈ undelivered (s.cmd i), ((u.cmd i).blk b).drop = some .deadline ∧ ((u.cmd i).blk b).st = .ready))) ∧
    (∀ t, s.hasTile t = true → (hubHears s t = false ∨ nth 0 (s.link t 1).credits 1 = 0) →
      exec (.retirementMirrored t) s = .next s) ∧
    (∀ t, s.hasTile t = true → hubHears s t = true → 1 ≤ nth 0 (s.link t 1).credits 1 →
      ∃ u, exec (.retirementMirrored t) s = .next u ∧ nth 0 (u.link t 1).credits 1 = nth 0 (s.link t 1).credits 1 - 1 ∧
      (s.nq.blanking = [] → ∀ j, j < 13 → u.reg (setWordAddr t j) = s.reg (setWordAddr t j) ||| s.reg (aMir t j) ∧
        u.reg (aMir t j) = s.reg (setWordAddr t j) ||| s.reg (aMir t j)) ∧
      u.tl.mirror = s.tl.mirror.filter fun e => e.1 ≠ t) ∧
    (∀ ok, s.fld (aHub 0x1200) 1 0 = 0 → exec (.retirementFlashCopy ok) s = .next s) ∧
    (s.fld (aHub 0x1200) 1 0 ≠ 0 →
      (∃ u, exec (.retirementFlashCopy true) s = .next u ∧ u.flash.retire = retireWords s ∧ u.fld (aHub 0x1200) 1 0 = 0 ∧
        u.fld (aHub 0x1200) 31 16 = min (s.fld (aHub 0x1200) 31 16 + 1) 65535 ∧
        u.flash = { s.flash with retire := u.flash.retire, bad := s.flash.bad.filter fun b => b ≠ 1 } ∧
        regsAndNotices [aHub 0x1200] { s with flash := u.flash } u) ∧
      (∃ u, exec (.retirementFlashCopy false) s = .next u ∧ u.fld (aHub 0x1200) 1 0 = 2 ∧
        u.fld (aHub 0x1200) 31 16 = s.fld (aHub 0x1200) 31 16 ∧ regsAndNotices [aHub 0x1200] s u))

/-- The POST words of R289 and R290 of the dispatch, control and spindle engines (R227, R232, R234, R252, R273, R281): `k` is
the state once the message has left. -/
def Obligations.PostedRecordsAct : Prop :=
  ∀ (s : State) (a b : Nat),
    (∀ th n i k, posts s 0 th n a b k →
      (i = .treq th ∧ n = 1 ∨ i = .breq th ∧ n = 2 ∨ i = .cpl th ∧ n = 3 ∨ i = .rdma th ∧ n = 4 ∨ i = .owlPost th ∧ n = 5) →
      exec i s = .next k) ∧
    (∀ t c n k, t < 8 → c < 4 → posts s (1 + 6 * t + c) 0 n a b k →
      (n = 1 → (24 ≤ a → exec (.setp t c) s = .next k) ∧
        (a < 24 → ∃ u, exec (.setp t c) s = .next u ∧
          (u.arm t c).pend = Tab.put (s.arm t c).pend a (some (clampI (-2047) 2047 (signedOf 32 b))) ∧
          u.fld (aCtl t c (0x1010 + 32 * a)) 11 0 = pattern 12 (clampI (-2047) 2047 (signedOf 32 b)) ∧
          onlyTile [aCtl t c (0x1010 + 32 * a)] k u)) ∧
      (n = 2 → (24 ≤ a → exec (.pred t c) s = .next k) ∧
        (a < 24 → exec (.pred t c) s = .next (k.setHeadS (headIdx t c a)
          { s.headS (headIdx t c a) with pred := if b % 2 ^ 32 = 2 ^ 32 - 1 then none else some (signedOf 32 b) }))) ∧
      (∀ v, n = 3 → v = clampI (-(s.fld (aCtl t c 0x1C) 31 20 : Nat)) (s.fld (aCtl t c 0x1C) 31 20) (signedOf 32 a) →
        ∃ u, exec (.vcmd t c) s = .next u ∧ u.ctl t c = { s.ctl t c with cmd := v } ∧
          u.fld (aCtl t c 0x44) 31 16 = pattern 16 v ∧ onlyTile [aCtl t c 0x44] k u) ∧
      (n = 4 → (8 ≤ a → exec (.ctlMode t c) s = .next k) ∧
        (a < 8 → (∀ h, h < 24 → (s.headW (headIdx t c h)).ser = []) →
          ∃ u, exec (.ctlMode t c) s = .next u ∧ ctlMode u t c = a)) ∧
      (n = 5 → (a ≠ 8 → a ≠ 9 → exec (.frep t c) s = .next k) ∧
        (a = 8 → b < 24 → s.fld (aTile t 0x100C) 15 8 ≠ 0 → (∀ k ∈ (s.arm t c).watch, ¬(k.kind = 4 ∧ k.head = b)) →
          ∃ u, exec (.frep t c) s = .next u ∧ (u.arm t c).watch = (s.arm t c).watch ++ [⟨4, b, s.now⟩] ∧ onlyTile [] k u) ∧
        (a = 9 → ∃ u, exec (.frep t c) s = .next u ∧ tCluster u t c = true))) ∧
    (∀ t n k, t < 8 → posts s (1 + 6 * t + 4) 0 n a b k →
      (n = 1 → ∃ u, exec (.iref t) s = .next u ∧ (u.spn t).idRef = signedOf 32 a ∧ (u.spn t).iqRef = signedOf 32 b ∧
        u.bit (aSpn t 4) 15 = decide (signedOf 32 a < 0) ∧ onlyTile [aSpn t 4] k u) ∧
      (n = 2 → (spnState s t ≠ 6 → exec (.vvec t) s = .next k) ∧
        (spnState s t = 6 → ∃ u, exec (.vvec t) s = .next u ∧ (u.spn t).depth = (min a 4517 : Nat) ∧
          (u.spn t).phi = signedOf 16 b ∧ spnMode u t = (if 4517 ≤ a then 4 else 3) ∧ u.fld (aSpn t 0x48) 15 0 = min a 4517 ∧
          onlyTile [aSpn t 4, aSpn t 0x48] k u)) ∧
      (n = 3 → (9 < a → exec (.spnState t) s = .next k) ∧
        (a ≤ 9 → ∃ u, exec (.spnState t) s = .next u ∧ spnState u t = a ∧ tileAndNotices [aSpn t 4] k u)) ∧
      (n = 4 → ∃ u, exec (.retract t) s = .next u ∧ tilesOnly k u ∧
        ∀ c, c < 4 → isLoaded s t c = true → (s.ctl t c).retract = 0 → ctlMode u t c = 6 ∧ (u.ctl t c).retract = 2) ∧
      (n = 5 → ∃ u, exec (.spflt t) s = .next u ∧
        (a.testBit 2 = false → a.testBit 3 = false → a.testBit 6 = false →
          (∀ j, j < 32 → u.bit (aSpn t 0x60) j = (s.bit (aSpn t 0x60) j || (decide (j < 6) && a.testBit j))) ∧
          tileAndNotices [aSpn t 0x60] k u) ∧
        ((a.testBit 2 = true ∨ a.testBit 3 = true ∨ a.testBit 6 = true) →
          spnState u t = 9 ∧ u.bit (aSpn t 0x60) 6 = true)))

/-- SERVO_WEDGE (R207 to R219), HEAD_RECORD, PILOT_RECORD, SEEK_COMMAND and PAIR_ADVANCE (R227 to R238) with the default
image live; another image's routine at vector 2, 3 or 4 takes the event (R288, entry 16). -/
def Obligations.PositionsAreTakenAndFollowed : Prop :=
  ∀ (s : State) (t c h r i l : Nat) (x : Reader), motionOn s t → c < 4 → h < 24 → r < 2 → i = headIdx t c h →
    l = laneOf c h r → x = s.reader i r →
    (∀ f xs w bz a, w = demodulate s t c h r f xs → bz = zoneBits s t (s.fld (aLane t l 4) 12 8) → a = aSrv t c (0x100 + 32 * h) →
      (samplesWedges s t c h r = false ∨ isLoaded s t c = false → ∃ u, exec (.servoWedge t c h r f xs) s = .next u ∧
        u.reader i r = { x with st := 0 } ∧ (x.st ≠ 0 → u.fld a (4 * r + 3) (4 * r) = 0) ∧ tilesOnly s u) ∧
      (samplesWedges s t c h r = true → isLoaded s t c = true →
        (x.st ≤ 1 → (s.lane t l).wedge = true → laneSt s t l = 6 → s.bit (aLane t l 4) 18 = false →
          ∃ u, exec (.servoWedge t c h r f xs) s = .next u ∧ laneSt u t l = 4 ∧ (u.lane t l).wedge = false ∧
            (u.lane t l).lost = false ∧ u.bit (aLane t l 4) 19 = false ∧ tilesOnly s u) ∧
        ((x.st = 0 ∧ speedOk s t c = false) ∨ (x.st = 1 ∧ w.sam = none) → ∃ u, exec (.servoWedge t c h r f xs) s = .next u ∧
          u.reader i r = x ∧ ((s.lane t l).wedge = false → onlyTile [] s u)) ∧
        (x.st = 0 → speedOk s t c = true → ∃ u, exec (.servoWedge t c h r f xs) s = .next u ∧ u.reader i r = { x with st := 1 } ∧
          u.fld a (4 * r + 3) (4 * r) = 1 ∧ ((s.lane t l).wedge = false → onlyTile [a] s u)) ∧
        (∀ e tw, x.st = 1 → w.sam = some (e, tw) → e ≤ s.fld (aSrv t c 0) 15 14 → w.wnum < 600 →
          ∃ u, exec (.servoWedge t c h r f xs) s = .next u ∧
            u.reader i r = ⟨2, tw, startInt bz, 0, 0, w.wnum, 0, none, s.now⟩ ∧
            u.fld a (4 * r + 3) (4 * r) = 2 ∧ ((s.lane t l).wedge = false → onlyTile [a] s u)) ∧
        (x.st = 2 →
          ((samInWindow s t c bz x w.sam = none ∨ w.wnum ≠ (x.num + 1) % 600 ∨
              ∀ y, wedgePos s t c h bz (samInWindow s t c bz x w.sam) w ≠ .pos y) →
            ∃ u, exec (.servoWedge t c h r f xs) s = .next u ∧ u.reader i r = { x with st := if speedOk s t c then 1 else 0 } ∧
              ((s.lane t l).wedge = false → onlyTile [a, aSrv t c 0x1C] s u)) ∧
          (∀ tw y, samInWindow s t c bz x w.sam = some tw → w.wnum = (x.num + 1) % 600 → wedgePos s t c h bz (some tw) w = .pos y →
            ∃ u, exec (.servoWedge t c h r f xs) s = .next u ∧ (u.reader i r).num = w.wnum ∧ (u.reader i r).tw = tw ∧
              (u.reader i r).conf = x.conf + 1 ∧
              (u.reader i r).st = (if max 1 (s.fld (aSrv t c 0) 19 16) ≤ x.conf + 1 then 3 else 2) ∧ tilesOnly s u)) ∧
        (∀ y tw, x.st = 3 → r = 0 → srcOf s t c h = 0 → samInWindow s t c bz x w.sam = some tw →
          wedgePos s t c h bz (some tw) w = .pos y →
          ∃ u, exec (.servoWedge t c h r f xs) s = .next u ∧ (u.reader i r).st = 3 ∧ (u.reader i r).y = some y ∧
            (u.reader i r).miss = 0 ∧ (u.reader i r).gone = 0 ∧ (u.reader i r).tw = tw ∧ (u.reader i r).num = (x.num + 1) % 600 ∧
            (x.gone = 0 → (u.reader i r).int = x.int + divRound (tw - x.tw - x.int) 4) ∧
            (u.headS i).rec_ = some (true, y) ∧
            u.reg (aSrv t c (0x104 + 32 * h)) = place 31 8 (trackCode (y / 1024)) ∧
            u.reg (aSrv t c (0x108 + 32 * h)) = w32 (y % 1024).toNat ∧
            (s.domOn (domCh t) = true → (u.lane t l).wtime = some (nextWedge (u.reader i r)) ∧ (u.headW i).wtime = some tw) ∧
            tilesOnly s u) ∧
        (x.st = 3 → samInWindow s t c bz x w.sam = none → ∃ u, exec (.servoWedge t c h r f xs) s = .next u ∧
          (u.reader i r).miss = x.miss + 1 ∧ (u.reader i r).gone = x.gone + 1 ∧
          (u.reader i r).y = none ∧ (u.reader i r).num = (x.num + 1) % 600 ∧
          (u.reader i r).st = (if max 1 (s.fld (aSrv t c 0) 23 20) ≤ x.miss + 1 then (if speedOk s t c then 1 else 0) else 3) ∧
          tilesOnly s u))) ∧
    ((s.headS i).rec_ = none → exec (.headRecord t c h) s = .next s) ∧
    (imaged s (ctlEng t c) = true →
      ((s.headS i).rec_ ≠ none → ∃ u, exec (.headRecord t c h) s = .next u ∧ (u.headS i).rec_ = none ∧
        vectored s u (ctlEng t c) 2 h ∧ tilesOnly s u) ∧
      (∃ u, exec (.pilotRecord t c) s = .next u ∧ (u.ctl t c).trip = (s.ctl t c).trip - 1 ∧ vectored s u (ctlEng t c) 3 0 ∧
        tilesOnly s u) ∧
      (∀ track k, (k = .seekCommand t c track ∨ k = .pairAdvance t c) → ∃ u, exec k s = .next u ∧
        vectored s u (ctlEng t c) 4 0 ∧ u = { s with tl := { s.tl with engines := u.tl.engines } })) ∧
    (imaged s (ctlEng t c) = false →
      (ctlMode s t c = 2 → (s.headS i).rec_ ≠ none → srcOf s t c h ≠ 2 → noneWriting s t c →
        ∃ u, exec (.headRecord t c h) s = .next u ∧ (u.headS i).rec_ = none ∧ ctlMode u t c = 3 ∧ (u.ctl t c).loads = 0 ∧
          (u.ctl t c).losts = 0 ∧
          (u.headS i).home = (if (s.ctl t c).losts = 0 then ((s.ctl t c).goal, 0) else (s.headS i).home) ∧ tilesOnly s u) ∧
      (ctlMode s t c = 3 ∨ ctlMode s t c = 4 ∨ ctlMode s t c = 5 →
        (∀ y, (s.headS i).rec_ = some (true, y) → ∃ u, exec (.headRecord t c h) s = .next u ∧ (u.headS i).rec_ = none ∧
          (u.headS i).valid = true ∧ (u.headS i).ys = (y :: (s.headS i).ys).take 2 ∧ (u.headS i).moved = false ∧
          u.fld (aCtl t c (0x100C + 32 * h)) 15 0 = pattern 16 (satI 16 (4 * (refOf s t c h - y))) ∧
          (s.fld (aCtl t c 8) 23 16 < absI (refOf s t c h - y) ∨ (s.headS i).away = true → u.bit (aCtl t c (0x100C + 32 * h)) 31 = false) ∧ tilesOnly s u) ∧
        (∀ y, (s.headS i).rec_ = some (false, y) → ∃ u, exec (.headRecord t c h) s = .next u ∧ (u.headS i).rec_ = none ∧
          (u.headS i).valid = false ∧ (u.headS i).ys = [] ∧ (u.headS i).pred = none ∧ (u.headW i).gate = false ∧ tilesOnly s u) ∧
        (∀ track, ∃ u, exec (.seekCommand t c track) s = .next u ∧ tilesOnly s u ∧ ∀ j, j < 24 →
          (u.headS (headIdx t c j)).home = (trackOf track, 0) ∧ (u.headS (headIdx t c j)).stream = true ∧
          (s.bit (aCtl t c (0x100C + 32 * j)) 29 = false →
            u.reg (aCtl t c (0x1004 + 32 * j)) = place 31 8 (trackCode (trackOf track)) ∧ u.reg (aCtl t c (0x1008 + 32 * j)) = 0)) ∧
        (∃ u, exec (.pairAdvance t c) s = .next u ∧ (∀ j, j < 24 →
            (∃ m, u.headS (headIdx t c j) = (if (s.headS (headIdx t c j)).stream then { s.headS (headIdx t c j) with
              home := ((s.headS (headIdx t c j)).home.1 + 2, (s.headS (headIdx t c j)).home.2), moved := m }
              else s.headS (headIdx t c j))) ∧
            ((s.headS (headIdx t c j)).stream = true → s.bit (aCtl t c (0x100C + 32 * j)) 29 = false →
              u.reg (aCtl t c (0x1004 + 32 * j)) = place 31 8 (trackCode ((s.headS (headIdx t c j)).home.1 + 2)))) ∧
          onlyTile ((List.range 24).flatMap fun j => [aCtl t c (0x1004 + 32 * j), aCtl t c (0x1008 + 32 * j)]) s u)) ∧
      (∀ track, ¬(ctlMode s t c = 3 ∨ ctlMode s t c = 4 ∨ ctlMode s t c = 5) →
        exec (.seekCommand t c track) s = .next s ∧ exec (.pairAdvance t c) s = .next s) ∧
      (∃ u, exec (.pilotRecord t c) s = .next u ∧ u.fld (aCtl t c 4) 15 11 = (contributing s t c).length ∧
        u.fld (aCtl t c 4) 10 6 = (contributing s t c).headD 31 ∧ tilesOnly s u ∧
        (∀ mean, contributing s t c ≠ [] → ctlMode s t c = 3 → noneWriting s t c →
          mean = meanOver (contributing s t c) (fun j =>
            4 * ((s.headS (headIdx t c j)).ys.headD 0) + (s.headS (headIdx t c j)).m) →
          absI (meanOver (contributing s t c) (fun j => 4 * refOf s t c j) - mean) ≤ max 1 (s.fld (aCtl t c 0x10) 9 4) * 4096 →
          ctlMode u t c = 4 ∧ (u.ctl t c).mean = some mean)))

/-- LOAD_REQUEST and PARK_REQUEST with the default image live (another image's routine at vector 4 takes them, R288), and
LOAD_TIMEOUT to LOST_WAIT_END, RETRACT_DRIVE_END and RETRACT_BRAKE_END (R239 to R241, R274, R275). -/
def Obligations.CombsLoadParkAndRetract : Prop :=
  ∀ (s : State) (t c : Nat), motionOn s t → c < 4 →
    (imaged s (ctlEng t c) = true → ∀ track k, (k = .loadRequest t c track ∨ k = .parkRequest t c) →
      ∃ u, exec k s = .next u ∧ vectored s u (ctlEng t c) 4 0 ∧ u = { s with tl := { s.tl with engines := u.tl.engines } }) ∧
    (imaged s (ctlEng t c) = false →
      (∀ track,
        (ctlMode s t c = 1 → speedOk s t c = true → armState s t c = 2 → tCluster s t c = false → tTile s t = false →
          noneWriting s t c → ∃ u, exec (.loadRequest t c track) s = .next u ∧ ctlMode u t c = 2 ∧
            (u.ctl t c).goal = trackOf track ∧ (u.ctl t c).cmds = [] ∧ (u.ctl t c).gates = true ∧ tilesOnly s u) ∧
        ((ctlMode s t c ≠ 1 ∨ speedOk s t c = false ∨ armState s t c ≠ 2 ∨ tCluster s t c = true ∨ tTile s t = true) →
          exec (.loadRequest t c track) s = .next (s.setCtl t c { s.ctl t c with cmds := [.load (trackOf track)] }))) ∧
      (noneWriting s t c → ∃ u, exec (.parkRequest t c) s = .next u ∧ (u.ctl t c).cmds = [] ∧ (u.ctl t c).reload = false ∧
        (isLoaded s t c = true → ctlMode s t c ≠ 6 → ctlMode u t c = 6 ∧ (u.ctl t c).stopped = false) ∧
        (isLoaded s t c = false → ctlMode u t c = ctlMode s t c) ∧
        u.cmd = s.cmd ∧ tilesOnly { s with nq := { s.nq with recorded := u.nq.recorded, recNine := u.nq.recNine } } u)) ∧
    (ctlMode s t c ≠ 2 → exec (.loadTimeout t c) s = .next s) ∧
    (ctlMode s t c = 2 → ∃ u, exec (.loadTimeout t c) s = .next u ∧ tilesOnly s u ∧
      ((s.ctl t c).losts = 0 → (s.ctl t c).loads = 0 → ctlMode u t c = 6 ∧ (u.ctl t c).reload = true ∧ (u.ctl t c).loads = 1) ∧
      ((s.ctl t c).losts = 1 → ctlMode u t c = 6 ∧ (u.ctl t c).reload = true ∧ (u.ctl t c).losts = 2) ∧
      ((s.ctl t c).losts = 0 → 1 ≤ (s.ctl t c).loads → u.bit (aCtl t c 0x34) 4 = true ∧ tCluster u t c = true) ∧
      (2 ≤ (s.ctl t c).losts → u.bit (aCtl t c 0x34) 5 = true ∧ tCluster u t c = true)) ∧
    (exec (.parkStopReached t c) s = .next (if ctlMode s t c = 6 ∧ (s.ctl t c).retract = 0 then
      s.setCtl t c { s.ctl t c with stopped := true } else s)) ∧
    (¬(ctlMode s t c = 6 ∧ (s.ctl t c).stopped = true) → exec (.parkHoldEnd t c) s = .next s) ∧
    ((s.ctl t c).retract ≠ 3 → exec (.retractBrakeEnd t c) s = .next s) ∧
    (∀ i, (i = .parkHoldEnd t c ∧ ctlMode s t c = 6 ∧ (s.ctl t c).stopped = true ∨
        i = .retractBrakeEnd t c ∧ (s.ctl t c).retract = 3) → noneWriting s t c →
      ((s.ctl t c).reload = false ∨ (s.ctl t c).dead = true) → ∃ u, exec i s = .next u ∧
        ctlMode u t c = (if (s.ctl t c).dead then 7 else 1) ∧ (u.ctl t c).gates = false ∧ (u.ctl t c).duty = 0 ∧
        (u.ctl t c).retract = 0 ∧ (u.ctl t c).stopped = false ∧ tilesOnly s u) ∧
    ((ctlMode s t c ≠ 6 ∨ (s.ctl t c).retract ≠ 0 ∨ (s.ctl t c).stopped = true) → exec (.parkTimeout t c) s = .next s) ∧
    (ctlMode s t c = 6 → (s.ctl t c).retract = 0 → (s.ctl t c).stopped = false → ∃ u, exec (.parkTimeout t c) s = .next u ∧
      u.bit (aCtl t c 0x34) 3 = true ∧ tCluster u t c = true ∧ tilesOnly s u) ∧
    ((¬(ctlMode s t c = 4 ∨ ctlMode s t c = 5) ∨ contributing s t c ≠ []) → exec (.lostContribution t c) s = .next s) ∧
    ((ctlMode s t c = 4 ∨ ctlMode s t c = 5) → contributing s t c = [] → ∃ u, exec (.lostContribution t c) s = .next u ∧
      (u.ctl t c).lostWait = true ∧ (u.ctl t c).cmd = 0 ∧ u.fld (aCtl t c 0x44) 31 16 = 0 ∧ u.bit (aCtl t c 4) 31 = true ∧
      gatesShut u t c ∧ tilesOnly s u) ∧
    ((s.ctl t c).lostWait = false → exec (.lostWaitEnd t c) s = .next s) ∧
    ((s.ctl t c).lostWait = true → noneWriting s t c →
      ((∃ h, h < 24 ∧ srcOf s t c h ≠ 2) → ∃ u, exec (.lostWaitEnd t c) s = .next u ∧ ctlMode u t c = 3 ∧
        (u.ctl t c).lostWait = false ∧ tilesOnly s u ∧ ∀ j, j < 24 → (u.headS (headIdx t c j)).home = (s.headS (headIdx t c j)).home ∧
          (s.bit (aCtl t c (0x100C + 32 * j)) 29 = false →
            u.fld (aCtl t c (0x1004 + 32 * j)) 31 8 = trackCode (s.headS (headIdx t c j)).home.1 % 2 ^ 24 ∧
            u.fld (aCtl t c (0x1008 + 32 * j)) 15 0 = pattern 16 (s.headS (headIdx t c j)).home.2)) ∧
      ((∀ h, h < 24 → srcOf s t c h = 2) → isLoaded s t c = true → ctlMode s t c ≠ 6 → ∃ u,
        exec (.lostWaitEnd t c) s = .next u ∧ ctlMode u t c = 6 ∧ (u.ctl t c).reload = true ∧
        (u.ctl t c).lostWait = false ∧ (u.ctl t c).losts = (s.ctl t c).losts + 1 ∧ tilesOnly s u)) ∧
    ((s.ctl t c).retract ≠ 2 → exec (.retractDriveEnd t c) s = .next s) ∧
    ((s.ctl t c).retract = 2 → ∃ u, exec (.retractDriveEnd t c) s = .next u ∧
      u.ctl t c = { s.ctl t c with retract := 3, duty := 0 } ∧ u.out = .coil t c 0 :: s.out ∧ onlyTile [] s { u with out := s.out })

/-- COEFFICIENT_WRITE to WOLFST_CLEAR, PWM_PERIOD, VCFLT_FALL and VCFLT_REENABLE. -/
def Obligations.CoefficientsWolfAndCoil : Prop :=
  ∀ (s : State) (t c : Nat), motionOn s t → c < 4 →
    (∀ loop sec i w, loop < 25 → sec < loopSecs loop → i < 5 → ∃ u, exec (.coefficientWrite t c loop sec i w) s = .next u ∧
      u.reg (secAddr t c loop sec false + 4 * i) = w &&& 0xFFFF ∧ onlyRegs [secAddr t c loop sec false + 4 * i] s u) ∧
    (∀ loop sec w, loop < 25 → sec < loopSecs loop → ∃ u, exec (.sectionControlWrite t c loop sec w) s = .next u ∧
      u.reg (secAddr t c loop sec false + 0x14) = w &&& 0x80000007 ∧
      (w.getLsbD 30 = true → (getLoop u t c loop).clear = sec :: (getLoop s t c loop).clear) ∧
      (w.getLsbD 30 = false → u.tl = s.tl) ∧ onlyTile [secAddr t c loop sec false + 0x14] s u) ∧
    (∀ loop on, loop < 25 → ∃ u, exec (.usefbWrite t c loop on) s = .next u ∧ u.bit (loopCtl t c loop) 1 = on ∧
      (∀ j, j ≠ 1 → u.bit (loopCtl t c loop) j = s.bit (loopCtl t c loop) j) ∧ onlyRegs [loopCtl t c loop] s u) ∧
    (∀ h, h < 24 → (s.fld (aCtl t c 0x28) 7 0 = 0 ∨ s.bit (aCtl t c 0x30) h = false) → exec (.wolfRearm t c h) s = .next s) ∧
    (∀ h, h < 24 → s.fld (aCtl t c 0x28) 7 0 ≠ 0 → s.bit (aCtl t c 0x30) h = true → ∃ u, exec (.wolfRearm t c h) s = .next u ∧
      u.bit (aCtl t c 0x30) h = false ∧ u.bit (aCtl t c (0x100C + 32 * h)) 30 = false ∧ (getLoop u t c h).clearAll = true ∧
      (u.headS (headIdx t c h)).holdAt = none ∧ onlyTile [aCtl t c 0x30, aCtl t c (0x100C + 32 * h)] s u) ∧
    (∀ w, ∃ u, exec (.wolfstClear t c w) s = .next u ∧ u.reg (aCtl t c 0x2C) = s.reg (aCtl t c 0x2C) &&& ~~~w ∧
      (s.fld (aCtl t c 0x28) 7 0 ≠ 0 → onlyRegs [aCtl t c 0x2C] s u) ∧
      (s.fld (aCtl t c 0x28) 7 0 = 0 → ∀ h, h < 24 → u.bit (aCtl t c 0x30) h = (s.bit (aCtl t c 0x30) h && !(w.getLsbD h))) ∧
      u = { s with regs := u.regs, tl := u.tl }) ∧
    (∀ cur vd k x, (s.ctl t c).cmds = [] → k = clampI (-2047) 2047 cur → x = s.ctl t c →
      ((x.gates = false ∨ x.retract ≠ 0 ∨ ctlMode s t c = 0 ∨ ctlMode s t c = 1 ∨ ctlMode s t c = 7) →
        ∃ u, exec (.pwmPeriod t c cur vd) s = .next u ∧ u.fld (aCtl t c 0x44) 15 0 = pattern 16 k ∧
          onlyRegs [aCtl t c 0x44, aCtl t c 0x48] s u) ∧
      (∀ err integ dmax d, x.gates = true → x.retract = 0 → (ctlMode s t c = 3 ∨ ctlMode s t c = 4 ∨ ctlMode s t c = 5) →
        err = x.cmd - k → integ = satI 32 (x.integ + s.fld (aCtl t c 0x18) 23 16 * err) → dmax = s.fld (aCtl t c 0x18) 11 0 →
        d = clampI (-(dmax : Int)) dmax ((s.fld (aCtl t c 0x18) 31 24 * err + integ) / (256 : Nat)) → x.ierr < 63 →
        ∃ u, exec (.pwmPeriod t c cur vd) s = .next u ∧ (u.ctl t c).duty = d ∧ (u.ctl t c).integ = integ ∧
          u.fld (aCtl t c 0x44) 15 0 = pattern 16 k ∧ u.fld (aCtl t c 0x44) 31 16 = pattern 16 x.cmd ∧
          (u.ctl t c).ierr = (if s.fld (aCtl t c 0x1C) 19 8 ≠ 0 ∧ s.fld (aCtl t c 0x1C) 19 8 < err.natAbs ∧ d.natAbs = dmax
            then x.ierr + 1 else 0) ∧
          u.out = .coil t c d :: s.out ∧ onlyTile [aCtl t c 0x44, aCtl t c 0x48] s { u with out := s.out }) ∧
      (x.gates = true → x.retract = 0 → ctlMode s t c = 2 → x.ierr < 63 → ∃ u, exec (.pwmPeriod t c cur vd) s = .next u ∧
        ((u.ctl t c).cmd.natAbs ≤ s.fld (aCtl t c 0x1C) 31 20) ∧ u.fld (aCtl t c 0x44) 15 0 = pattern 16 k ∧
        ∃ d, u.out = .coil t c d :: s.out ∧ onlyTile [aCtl t c 0x44, aCtl t c 0x48] s { u with out := s.out, free := s.free }) ∧
      (x.gates = true → x.retract = 0 → ctlMode s t c = 6 → x.ierr < 63 → ∃ u, exec (.pwmPeriod t c cur vd) s = .next u ∧
        (x.stopped = true → (u.ctl t c).cmd = -(8 * s.fld (aCtl t c 0x20) 15 8 : Nat)) ∧
        (u.ctl t c).cmd.natAbs ≤ 8 * s.fld (aCtl t c 0x20) 15 8 ∧ u.fld (aCtl t c 0x44) 15 0 = pattern 16 k ∧
        ∃ d, u.out = .coil t c d :: s.out ∧ onlyTile [aCtl t c 0x44, aCtl t c 0x48] s { u with out := s.out, free := s.free })) ∧
    (∃ u, exec (.vcfltFall t c) s = .next u ∧ u.bit (aCtl t c 0x34) 0 = true ∧ tilesOnly s u ∧
      ((∀ a, (s.ctl t c).pstageAt = some a → a + ms 100 < s.now) → (u.ctl t c).gates = false ∧ (u.ctl t c).duty = 0 ∧
        (u.ctl t c).pstageWait = true ∧ (u.ctl t c).pstageAt = some s.now ∧ u.out = .coil t c 0 :: s.out) ∧
      (∀ a, (s.ctl t c).pstageAt = some a → s.now ≤ a + ms 100 → tCluster u t c = true)) ∧
    exec (.vcfltReenable t c) s = .next (if (s.ctl t c).pstageWait then
      s.setCtl t c { s.ctl t c with pstageWait := false, gates := isLoaded s t c } else s)

/-- The commands of the spindle drive (R256 to R281, R497); with another image live its routines at vectors 2 and 3 take
the speed-loop step and the tile core's commands (R288, entry 16). -/
def Obligations.SpindleStartsRunsAndStops : Prop :=
  ∀ (s : State),
    (∀ t n, motionOn s t → n = spnState s t →
      (imaged s (spnEng t) = true → ∀ i, (i = .spindleRunCommand t ∨ i = .spindleStopCommand t) → ∃ u, exec i s = .next u ∧
        vectored s u (spnEng t) 3 0 ∧ u = { s with tl := { s.tl with engines := u.tl.engines } }) ∧
      (∀ i, (i = .runSet t ∨ i = .spindleRunCommand t ∧ imaged s (spnEng t) = false) →
        ∃ u, exec i s = .next u ∧ u.bit (aSpn t 0) 0 = true ∧
        (s.bit (aSpn t 0) 0 = false → n = 1 → s.fld (aSpn t 0xC) 15 0 ≠ 0 → s.power.pfailLow = false →
          spnState u t = 2 ∧ (u.spn t).gates = false ∧ (u.spn t).starts = 0 ∧ u.reg (aTile t 0x108) = 0 ∧
          (∀ c, c < 4 → trainedZones u t c = []) ∧
          tileAndNotices [aSpn t 0, aSpn t 4, aSpn t 0x6C, aTile t 0x108]
            { s with power := { s.power with bring := u.power.bring } } u) ∧
        ((s.bit (aSpn t 0) 0 = true ∨ n ≠ 1 ∨ s.fld (aSpn t 0xC) 15 0 = 0 ∨ s.power.pfailLow = true) → onlyRegs [aSpn t 0] s u)) ∧
      (∀ i, (i = .runClear t ∨ i = .spindleStopCommand t ∧ imaged s (spnEng t) = false) →
        ∃ u, exec i s = .next u ∧ u.bit (aSpn t 0) 0 = false ∧
        tilesOnly { s with nq := { s.nq with recorded := u.nq.recorded, recNine := u.nq.recNine } } u ∧
        (s.bit (aSpn t 0) 0 = false → onlyRegs [aSpn t 0] s u) ∧
        (s.bit (aSpn t 0) 0 = true → 2 ≤ n → n ≤ 5 → spnState u t = 1 ∧ (u.spn t).gates = false) ∧
        (s.bit (aSpn t 0) 0 = true → n = 7 → (u.spn t).stop = true ∧ spnState u t = 7) ∧
        (s.bit (aSpn t 0) 0 = true → n = 6 → (∀ c, c < 4 → isLoaded s t c = false ∧ noneWriting s t c) → spnState u t = 8)) ∧
      (∀ m, n = 2 → m = measured s t true → ∃ u, exec (.measureEnd t) s = .next u ∧
        u.fld (aSpn t 0x58) 31 30 = (if m.obs then if m.fwd then 2 else 3 else 1) ∧
        u.fld (aSpn t 0x58) 15 0 = (if m.obs then min 65535 (lynxRpm s t { s.spn t with omega := m.omega } / 65536) else 0) ∧
        u.bit (aSpn t 4) 30 = (m.obs && !m.fwd) ∧
        ((m.obs && m.fwd) = true → spnState u t = 6 ∧ (u.spn t).gates = true ∧ (u.spn t).theta = m.theta ∧ (u.spn t).omega = m.omega) ∧
        ((m.obs && m.fwd) = false → startPlace s t = true → spnState u t = (if m.obs then 3 else 4) ∧ (u.spn t).gates = true) ∧
        ((m.obs && m.fwd) = false → startPlace s t = false → spnState u t = 2 ∧ (u.spn t).queued = true) ∧
        tileAndNotices [aSpn t 0x58, aSpn t 4] s u) ∧
      (n ≠ 2 → exec (.measureEnd t) s = .next s) ∧
      (n ≠ 3 → exec (.brakeMeasure t) s = .next s) ∧
      (n = 3 → observable s t 1 (s.spn t) = true → ∃ u, exec (.brakeMeasure t) s = .next u ∧ spnState u t = 3 ∧
        u.out = .phases t 0 0 0 :: .gatesLow t :: s.out ∧ onlyTile [aSpn t 4] s { u with out := s.out }) ∧
      (∀ i m, (i = .brakeMeasure t ∧ n = 3 ∧ observable s t 1 (s.spn t) = false ∧ m = 2 ∨
          i = .alignEnd t ∧ n = 4 ∧ (s.spn t).retry = false ∧ m = 5 ∨
          i = .rampTimeout t ∧ n = 5 ∧ (s.spn t).retry = false ∧ (s.spn t).starts = 0 ∧ m = 5 ∨
          i = .startRetry t ∧ (s.spn t).retry = true ∧ m = 2 ∨ i = .stopBrakeEnd t ∧ n = 8 ∧ (s.spn t).stopLow = true ∧ m = 1) →
        ∃ u, exec i s = .next u ∧ spnState u t = m ∧ (i ≠ .alignEnd t → (u.spn t).gates = false) ∧
          ((u.spn t).retry = true ↔ i = .rampTimeout t ∨ i = .brakeMeasure t ∧ (s.spn t).retry = true) ∧
          tilesOnly { s with power := { s.power with bring := u.power.bring } } u) ∧
      ((n ≠ 4 ∨ (s.spn t).retry = true) → exec (.alignEnd t) s = .next s) ∧
      ((n ≠ 5 ∨ (s.spn t).retry = true) → exec (.rampTimeout t) s = .next s) ∧
      ((s.spn t).retry = false → exec (.startRetry t) s = .next s) ∧
      ((n ≠ 8 ∨ (s.spn t).stopLow = false) → exec (.stopBrakeEnd t) s = .next s) ∧
      (n ≠ 7 → exec (.recatchMeasureEnd t) s = .next s) ∧
      (∀ m, n = 7 → m = measured s t false → ∃ u, exec (.recatchMeasureEnd t) s = .next u ∧
        u.fld (aSpn t 0x64) 31 0 = min (s.fld (aSpn t 0x64) 31 0 + 1) (2 ^ 32 - 1) ∧
        tilesOnly { s with nq := { s.nq with recorded := u.nq.recorded, recNine := u.nq.recNine } } u ∧
        ((m.obs && m.fwd) = true → spnState u t = 6 ∧ (u.spn t).gates = true ∧ (u.spn t).caughtAt = some s.now) ∧
        ((m.obs && m.fwd) = false → s.fld (aSpn t 4) 21 20 < 2 → spnState u t = 7 ∧
          u.fld (aSpn t 4) 21 20 = s.fld (aSpn t 4) 21 20 + 1) ∧
        ((m.obs && m.fwd) = false → 2 ≤ s.fld (aSpn t 4) 21 20 → spnState u t = 9 ∧ u.bit (aSpn t 0x60) 2 = true ∧
          u.bit (aSpn t 0x60) 6 = true ∧ (u.spn t).gates = false)) ∧
      (n = 6 → (s.spn t).caughtAt ≠ none → ∃ u, exec (.recatchHoldEnd t) s = .next u ∧ (u.spn t).caughtAt = none ∧
        u.fld (aSpn t 4) 21 20 = 0 ∧ onlyTile [aSpn t 4] s u) ∧
      ((n ≠ 6 ∨ (s.spn t).caughtAt = none) → exec (.recatchHoldEnd t) s = .next s) ∧
      (∃ u, exec (.resetFails t) s = .next u ∧ u.fld (aSpn t 4) 21 20 = 0 ∧ spnState u t = n ∧ onlyRegs [aSpn t 4] s u) ∧
      (∃ u, exec (.spfltFall t) s = .next u ∧ u.bit (aSpn t 0x60) 0 = true ∧ (u.spn t).pflt = some s.now ∧
        (u.spn t).gates = false ∧ (n = 6 → (s.spn t).caughtAt = none → (s.spn t).pflt = none → spnState u t = 7) ∧ tilesOnly s u) ∧
      (∀ i, n = 0 → exec (.spindleTick t i) s = .next s) ∧
      (∀ i, n ≠ 0 → n ≠ 6 → n ≠ 4 → n ≠ 5 → n ≠ 8 → ∃ u, exec (.spindleTick t i) s = .next u ∧ spnState u t = n ∧
        (u.spn t).ticks = (s.spn t).ticks + 1 ∧ u.fld (aSpn t 0x54) 11 0 = i.vbus % 4096 ∧
        u = { s with regs := u.regs, tl := u.tl, out := u.out }) ∧
      ((n = 0 ∨ (s.spn t).ticks < max 1 (s.fld (aSpn t 0x20) 15 8)) → exec (.speedLoopStep t) s = .next s) ∧
      (∀ good, n ≠ 0 → max 1 (s.fld (aSpn t 0x20) 15 8) ≤ (s.spn t).ticks →
        good = (decide (s.fld (aSpn t 0xC) 15 0 ≠ 0) &&
          decide ((((measuredSpeed s t).1 : Int) - s.fld (aSpn t 0xC) 15 0 * 65536).natAbs * 500 ≤ s.fld (aSpn t 0xC) 15 0 * 65536)) →
        ∃ u, exec (.speedLoopStep t) s = .next u ∧
          (u.spn t).ticks = 0 ∧ u.reg (aSpn t 8) = w32 (min (measuredSpeed s t).1 (2 ^ 32 - 1)) ∧ spnState u t = n ∧
          u.bit (aSpn t 4) 29 = (measuredSpeed s t).2 ∧
          u.bit (aSpn t 4) 31 = (if n = 6 then good else if n = 7 then (measuredSpeed s t).2 && good else false) ∧
          (imaged s (spnEng t) = true → vectored s u (spnEng t) 2 0) ∧ tilesOnly s u)) ∧
    (∃ u, exec .pfailFall s = .next u ∧ u.power = { s.power with pfailLow := true } ∧ ∀ t ∈ s.tiles, spnState s t ≠ 0 →
      u.bit (aSpn t 0x60) 5 = true ∧ (u.spn t).gates = false) ∧
    (∃ u, exec .pfailRise s = .next u ∧ u.power = { s.power with pfailLow := false, bring := u.power.bring } ∧ ∀ t ∈ s.tiles,
      s.bit (aSpn t 0) 0 = true → spnState s t = 1 → s.fld (aSpn t 0xC) 15 0 ≠ 0 → spnState u t = 2)

/-- The commands of the host ports (R300 to R307). -/
def Obligations.PortsReceiveAndControlFlow : Prop :=
  ∀ (s : State) (p k i : Nat), s.hasPort p = true → p < 10 → k < 4 → i = 4 * p + k →
    (subUp s p k = false → (∀ f, f.prio < 8 → qpOk f.qp = true → exec (.frameReceive p k f) s = .next s) ∧
      (∀ a, exec (.arpRequest p k a) s = .next s ∧ exec (.neighborSolicitation p k a) s = .next s ∧
        exec (.icmpEcho p k a) s = .next s) ∧
      (∀ prio q, prio < 8 → q < 65536 → exec (.pfcFrame p k prio q) s = .next s ∧ exec (.pfcRefresh p k prio) s = .next s) ∧
      (∀ n, qpOk n = true → exec (.cnpReceive p k n) s = .next s) ∧ exec (.pcsAlignmentLoss p k) s = .next s) ∧
    (subUp s p k = true →
      (∀ f, f.prio < 8 → qpOk f.qp = true → f.fecUnc = 0 →
        ((f.fecBad = true ∨ f.pause = true ∨ isRoce s p k f = false ∨ rxSize < rxHeld s p + f.bytes) →
          exec (.frameReceive p k f) s = .next ((s.bump (aHpt p (0x40 + 4 * k)) f.fecCorr).bump (aHpt p (0x60 + 4 * k)))) ∧
        (f.fecBad = false → f.pause = false → isRoce s p k f = true → rxHeld s p + f.bytes ≤ rxSize →
          (((s.qp f.qp).held = false ∨ (s.qp f.qp).port ≠ p ∨ (s.qp f.qp).sub ≠ k ∨
              (rocePermits f.op = true ∧ roceSend f.op = false)) → f.ce = false →
            ∃ u, exec (.frameReceive p k f) s = .next u ∧ Tab.at 0 (u.sub i).rx f.prio = Tab.at 0 (s.sub i).rx f.prio + f.bytes ∧
              (pfcOn s p f.prio = true → s.fld (aHpt p 0xC) 31 24 * 16384 < Tab.at 0 (s.sub i).rx f.prio + f.bytes →
                (∀ e ∈ (s.sub i).xoff, e.1 ≠ f.prio) →
                (u.sub i).xoff = (f.prio, s.now) :: (s.sub i).xoff ∧ u.out = .pfc p k f.prio 0xFFFF :: s.out) ∧
              ((pfcOn s p f.prio = false ∨ ∃ e ∈ (s.sub i).xoff, e.1 = f.prio) → u.out = s.out) ∧
              u = { s with regs := u.regs, out := u.out, ports := u.ports } ∧
              regsKept [aHpt p (0x40 + 4 * k), aHpt p (0x70 + 4 * k)] s u) ∧
          (rocePermits f.op = true → f.ce = true → s.bit (aHpt p 0x10) 31 = true → (s.qp f.qp).cnpAt = none →
            ∃ u, exec (.frameReceive p k f) s = .next u ∧ (u.qp f.qp).cnpAt = some s.now ∧
              .cnp f.qp (s.fld (aHpt p 0x14) 22 17) (tagOf s p true) ∈ u.out) ∧
          (∀ q n last, q = s.qp f.qp → q.held = true → q.port = p → q.sub = k → n = f.psn % 2 ^ 24 →
            last = (q.epsn + 2 ^ 24 - 1) % 2 ^ 24 → f.ce = false →
            (roceSend f.op = true → ∃ u, exec (.frameReceive p k f) s = .next u ∧
              Tab.at 0 (u.sub i).rx f.prio = Tab.at 0 (s.sub i).rx f.prio + f.bytes ∧
              (n = q.epsn → u.qp f.qp = { q with
                epsn := (n + 1) % 2 ^ 24, mpsn := if f.op = 0 ∨ f.op = 4 then n else q.mpsn, gap := false }) ∧
              (n ≠ q.epsn → (last + 2 ^ 24 - n) % 2 ^ 24 < 2 ^ 23 → u.qp f.qp = q ∧ .nak f.qp 0 last 0 ∈ u.out) ∧
              (n ≠ q.epsn → 2 ^ 23 ≤ (last + 2 ^ 24 - n) % 2 ^ 24 → u.qp f.qp = { q with gap := true } ∧
                (q.gap = false → .nak f.qp 1 q.epsn 0 ∈ u.out ∧
                  u.fld (aHpt p (0xC0 + 4 * k)) 31 0 = min (s.fld (aHpt p (0xC0 + 4 * k)) 31 0 + 1) (2 ^ 32 - 1)))) ∧
            (rocePermits f.op = false → ∃ u, exec (.frameReceive p k f) s = .next u ∧ .nak f.qp 3 n 0 ∈ u.out ∧
              (f.qp < 8192 → q.state = 2 → (u.qp f.qp).held = false))))) ∧
      (∀ a x, (x = (0, Instr.arpRequest p k a) ∨ x = (1, .neighborSolicitation p k a) ∨ x = (2, .icmpEcho p k a)) →
        (ownAddr s p k a = true → exec x.2 s = .next (s.emit (.neighbour p k x.1 a))) ∧
        (ownAddr s p k a = false → exec x.2 s = .next (s.bump (aHpt p (0x60 + 4 * k))))) ∧
      (∃ u, exec (.pcsAlignmentLoss p k) s = .next u ∧ u.sub i = ⟨some s.now, [], [], [], true⟩ ∧
        (∀ j, j ≠ i → u.sub j = s.sub j) ∧
        (s.fld (aHpt p 8) 31 24 ≠ 0 → u.fld (aHpt p 4) (4 * k + 3) (4 * k) = 1)) ∧
      exec (.pcsRealigned p k) s = .next s ∧
      (∀ prio, prio < 8 →
        ((∃ e ∈ (s.sub i).xoff, e.1 = prio ∧ e.2 + quantaNs s p 32768 ≤ s.now) → exec (.pfcRefresh p k prio) s = .next
          (((s.setSub i { s.sub i with xoff := (prio, s.now) :: (s.sub i).xoff.filter fun e => e.1 ≠ prio }).bump
            (aHpt p (0x70 + 4 * k))).emit (.pfc p k prio 0xFFFF))) ∧
        ((∀ e ∈ (s.sub i).xoff, e.1 = prio → s.now < e.2 + quantaNs s p 32768) → exec (.pfcRefresh p k prio) s = .next s)) ∧
      (∀ prio q, prio < 8 → q < 65536 →
        (pfcOn s p prio = false → exec (.pfcFrame p k prio q) s = .next (s.bump (aHpt p (0x60 + 4 * k)))) ∧
        (pfcOn s p prio = true → ∃ u, exec (.pfcFrame p k prio q) s = .next u ∧
          (q = 0 → ∀ e ∈ (u.sub i).paused, e.1 ≠ prio) ∧ (q ≠ 0 → (prio, s.now + quantaNs s p q) ∈ (u.sub i).paused) ∧
          (∀ e, e.1 ≠ prio → (e ∈ (u.sub i).paused ↔ e ∈ (s.sub i).paused)) ∧
          (u.sub i).xoff = (s.sub i).xoff ∧ (u.sub i).rx = (s.sub i).rx)) ∧
      (∀ n r, qpOk n = true → s.bit (aHpt p 0x10) 31 = true → (s.qp n).held = true → (s.qp n).port = p → (s.qp n).sub = k →
        (∀ a, (s.qp n).cutAt = some a → a + us (s.fld (aHpt p 0x10) 23 16) ≤ s.now) →
        r = (if (s.qp n).rate = 0 then subRate s p else (s.qp n).rate) →
        exec (.cnpReceive p k n) s = .next ((s.bump (aHpt p (0xA0 + 4 * k))).setQp n { s.qp n with
          rate := max 256 (r - r / 2 ^ s.fld (aHpt p 0x10) 27 24), cutAt := some s.now, recAt := some s.now }))) ∧
    (subUp s p k = false → subEnabled s p k = true → ∃ u, exec (.pcsRealigned p k) s = .next u ∧
      (u.sub i).downAt = none ∧ (u.sub i).changed = true ∧ (∀ j, j ≠ i → u.sub j = s.sub j) ∧
      (s.nq.qps = [] → s.nq.cmds = [] → Tab.at [] s.nq.tx p = [] → subUp u p k = true)) ∧
    (((s.sub i).downAt = none ∨ subUp s p k = true ∨
        ∃ a, (s.sub i).downAt = some a ∧ s.now < a + ms (100 * s.fld (aHpt p 8) 31 24)) → exec (.pdownTimeout p k) s = .next s) ∧
    (∀ a, (s.sub i).downAt = some a → subUp s p k = false → a + ms (100 * s.fld (aHpt p 8) 31 24) ≤ s.now →
      ∃ u, exec (.pdownTimeout p k) s = .next u ∧ ∀ n, n < 8192 → (s.qp n).held = true → (s.qp n).state = 2 →
        (s.qp n).port = p → (s.qp n).sub = k → (u.qp n).held = false) ∧
    (∀ prio, prio < 8 →
      ((∀ e ∈ (s.sub i).paused, e.1 = prio → s.now < e.2) → exec (.pfcPauseExpire p k prio) s = .next s) ∧
      ((∃ e ∈ (s.sub i).paused, e.1 = prio ∧ e.2 ≤ s.now) → ∃ u, exec (.pfcPauseExpire p k prio) s = .next u ∧
        ∀ e, e ∈ (u.sub i).paused ↔ e ∈ (s.sub i).paused ∧ e.1 ≠ prio)) ∧
    (∀ n, qpOk n = true → ((s.qp n).recAt = none ∨ (s.qp n).rate = 0 ∨ s.bit (aHpt (s.qp n).port 0x10) 31 = false ∨
        ∃ a, (s.qp n).recAt = some a ∧ s.now < a + us (s.fld (aHpt (s.qp n).port 0x10) 15 8)) →
      exec (.rateRecovery n) s = .next s) ∧
    (∀ n a r, qpOk n = true → (s.qp n).recAt = some a → (s.qp n).rate ≠ 0 → s.bit (aHpt (s.qp n).port 0x10) 31 = true →
      a + us (s.fld (aHpt (s.qp n).port 0x10) 15 8) ≤ s.now → r = (s.qp n).rate + 256 * s.fld (aHpt (s.qp n).port 0x10) 7 0 →
      exec (.rateRecovery n) s = .next (s.setQp n { s.qp n with
        rate := if subRate s (s.qp n).port ≤ r then 0 else r, recAt := some s.now }))

/-- ACK_RECEIVE to RNR_TIMER_EXPIRE and CM_REQ to KEEP_ALIVE_TIMEOUT. -/
def Obligations.PairsAreAcknowledgedAndConnected : Prop :=
  ∀ (s : State),
    (∀ n q, n < 12288 → q = s.qp n →
      (∀ psn kind, psn < 2 ^ 24 → 1 ≤ kind → kind ≤ 4 → pairUp s n = false →
        exec (.ackReceive n psn) s = .next s ∧ exec (.nakReceive n kind psn) s = .next s ∧
        exec (.ackTimeout n) s = .next s ∧ exec (.rnrTimerExpire n) s = .next s) ∧
      (pairUp s n = true →
        (∀ psn, psn < 2 ^ 24 → exec (.ackReceive n psn) s = .next (s.setQp n { q with
            inflight := q.inflight.filter fun x => decide (x.kind = 2) || !(upTo x.psn psn), retries := 0 }) ∧
          exec (.nakReceive n 2 psn) s = .next s ∧
          (∀ kind, (kind = 3 ∨ kind = 4) → n < 8192 → q.state = 2 → ∃ u, exec (.nakReceive n kind psn) s = .next u ∧
            (u.qp n).held = false ∧ (u.qp n).est = false ∧ (u.qp n).inflight = [] ∧ .cm 2 n 0 ∈ u.out)) ∧
        (∀ i l, (i = .ackTimeout n ∧ l = q.inflight ∨ ∃ psn, psn < 2 ^ 24 ∧ i = .nakReceive n 1 psn ∧
            l = q.inflight.filter fun x => decide (x.kind = 2) || !(upTo x.psn ((psn + 2 ^ 24 - 1) % 2 ^ 24))) →
          (l ≠ [] → q.retries < s.fld (aHpt q.port 8) 15 13 → ∃ u, exec i s = .next u ∧
            u.out = (l.map fun x => Out.resend n x.psn).reverse ++ s.out ∧ (u.qp n).inflight = l ∧
            (u.qp n).retries = q.retries + 1 ∧ (∀ m, m ≠ n → u.qp m = s.qp m) ∧
            regsKept [aHpt q.port (0xB0 + 4 * q.sub)] s u) ∧
          (l ≠ [] → s.fld (aHpt q.port 8) 15 13 ≤ q.retries → n < 8192 → q.state = 2 →
            ∃ u, exec i s = .next u ∧ (u.qp n).held = false)) ∧
        (q.inflight = [] → exec (.ackTimeout n) s = .next s) ∧
        (∃ u, exec (.rnrTimerExpire n) s = .next u ∧ u.out = (q.inflight.map fun x => Out.resend n x.psn).reverse ++ s.out ∧
          onlyRegs [aHpt q.port (0xB0 + 4 * q.sub)] s { u with out := s.out })) ∧
      exec (.cmRtu n) s = .next (if q.held then s.setQp n { q with est := true } else s) ∧
      exec (.cmDrep n) s = .next (s.setQp n { q with est := false }) ∧ exec (.cmMra n) s = .next s ∧
      (q.held = false → exec (.cmDreq n) s = .next s) ∧
      (q.held = true → q.state = 2 → n < 8192 → ∃ u, exec (.cmDreq n) s = .next u ∧ (u.qp n).held = false ∧
        (u.qp n).est = false ∧ .cm 3 n 0 ∈ u.out) ∧
      exec (.cmRej n) s = .next (if q.held ∧ q.est = false ∧ q.state = 1 then
        s.setQp n (if n < 8192 then { q with held := false } else Qp.free) else s)) ∧
    (∀ r : CmReq, s.hasPort r.port = true → r.port < 10 → r.sub < 4 →
      (subUp s r.port r.sub = false → exec (.cmReq r) s = .next s) ∧
      (subUp s r.port r.sub = true →
        ((ownAddr s r.port r.sub r.addr = false ∨ 4095 < r.hsqsize ∨ r.hrqsize ≠ r.hsqsize + 1 ∨ reqPair s r = none) →
          exec (.cmReq r) s = .next (s.emit (.cm 1 0 0))) ∧
        (∀ n, reqPair s r = some n → ∃ u, exec (.cmReq r) s = .next u ∧ u.qp n =
            { (if r.qid = 0 then { Qp.free with state := 1, size := r.hsqsize } else s.qp n) with
              held := true, hsq := r.hsqsize, mtu := r.mtu, port := r.port, sub := r.sub, epsn := r.psn % 2 ^ 24
              mpsn := r.psn % 2 ^ 24 } ∧
          (∀ m, m ≠ n → u.qp m = s.qp m) ∧ u.out = .cm 0 n r.hrqsize :: s.out ∧
          u = { s with nq := { s.nq with qps := u.nq.qps }, out := u.out }))) ∧
    (∀ c a, 1 ≤ c → c ≤ 1024 → a = s.assoc c →
      ((a.live = false ∨ a.kato = 0 ∨ s.now < a.kaAt + ms a.kato ∨ a.ending = true) → exec (.keepAliveTimeout c) s = .next s) ∧
      (a.live = true → a.kato ≠ 0 → a.kaAt + ms a.kato ≤ s.now → a.ending = false → ∃ u, exec (.keepAliveTimeout c) s = .next u ∧
        ((u.assoc c).ending = true ∨ u.assoc c = Assoc.none) ∧ Tab.at [] u.mgmt.kept c = [] ∧
        ∀ e ∈ a.sqs, e.2 < 8192 → (s.qp e.2).state = 2 → (u.qp e.2).held = false))

/-- CAPSULE_RECEIVE, CAPSULE_ADMIT, QFULL_TIMEOUT, ORDERING_TURN and INVALIDATION_SCAN_DONE. -/
def Obligations.CapsulesAreAdmittedInOrder : Prop :=
  ∀ (s : State),
    (∀ n q, n < 12288 → q = s.qp n →
      (∀ c, ((q.held = false ∨ q.state = 4) → exec (.capsuleReceive n c) s = .next s) ∧
        (q.held = true → q.state = 3 → ∃ u, exec (.capsuleReceive n c) s = .next u ∧
          u.out = cqeSent s n q.psn c.cid 0 0 Status.queueReset.sct Status.queueReset.code Status.queueReset.dnr ++
            .nak n 0 ((q.epsn + 2 ^ 24 - 1) % 2 ^ 24) 0 :: s.out ∧
          (u.qp n).intake = q.intake ∧ u = { s with nq := { s.nq with qps := u.nq.qps }, out := u.out }) ∧
        (q.held = true → q.state ≠ 3 → q.state ≠ 4 → exec (.capsuleReceive n c) s = .next
          (if q.hsq < q.intake.length then ((s.setQp n { q with epsn := q.mpsn }).bump (aHpt q.port (0xC0 + 4 * q.sub))).emit
              (.nak n 2 q.mpsn (s.fld (aHpt q.port 8) 20 16))
           else (s.setQp n { q with intake := q.intake ++ [c] }).emit (.nak n 0 ((q.epsn + 2 ^ 24 - 1) % 2 ^ 24) 0)))) ∧
      ((q.intake = [] ∨ q.state = 3 ∨ q.state = 4) → exec (.capsuleAdmit n) s = .next s) ∧
      (∀ c rest, q.intake = c :: rest → q.state ≠ 3 → q.state ≠ 4 →
        (placeFree s n = true → (nextWaiting s (isIoQp n) = none ∨ nextWaiting s (isIoQp n) = some n) →
          (intakeCheck s n c ≠ .ok → ∃ u, exec (.capsuleAdmit n) s = .next u ∧ (u.qp n).intake = rest ∧
            (u.qp n).sqhd = (q.sqhd + 1) % (q.size + 1) ∧
            u.out = onWire s n q.psn 0 16 ++ .cqe n c.cid 0 0 ((q.sqhd + 1) % (q.size + 1)) (intakeCheck s n c).sct
              (intakeCheck s n c).code (intakeCheck s n c).dnr :: s.out ∧ u = { s with nq := u.nq, out := u.out }) ∧
          (∀ op, intakeCheck s n c = .ok → packetOp (isIoQp n) c = some op → ¬(op = 9 ∧ capDealloc c = false) →
            assocFeature s n op c = none → ∃ u, exec (.capsuleAdmit n) s = .next u ∧ (u.qp n).intake = rest ∧
              (u.qp n).sqhd = (q.sqhd + 1) % (q.size + 1) ∧ u.nq.nextCmd = s.nq.nextCmd + 1 ∧
              (u.cmd s.nq.nextCmd).live = true ∧ (u.cmd s.nq.nextCmd).cap = c ∧ (u.cmd s.nq.nextCmd).qp = n ∧
              (u.cmd s.nq.nextCmd).cls = classOf op c ∧ (u.cmd s.nq.nextCmd).turned = decide (classOf op c = .none) ∧
              (u.cmd s.nq.nextCmd).place = (if classOf op c = .none then none else some s.nq.nextPlace) ∧ hostSideOnly s u)) ∧
        (placeFree s n = false → q.waitAt = none → s.fld (aNq 0) 15 8 ≠ 0 → ∃ u, exec (.capsuleAdmit n) s = .next u ∧
          u.qp n = { q with waitAt := some s.now } ∧ (∀ m, m ≠ n → u.qp m = s.qp m) ∧
          u.fld (aNq 0x24) 31 0 = min (s.fld (aNq 0x24) 31 0 + 1) (2 ^ 32 - 1) ∧
          onlyRegs [aNq 0x24] s { u with nq := s.nq }) ∧
        (∀ a, q.waitAt = some a →
          (s.now < a + ms (s.fld (aNq 0) 15 8) → exec (.qfullTimeout n) s = .next s) ∧
          (a + ms (s.fld (aNq 0) 15 8) ≤ s.now → ∃ u, exec (.qfullTimeout n) s = .next u ∧ (u.qp n).intake = rest ∧
            (u.qp n).waitAt = none ∧ u.out = onWire s n q.psn 0 16 ++ .cqe n c.cid 0 0 ((q.sqhd + 1) % (q.size + 1))
              Status.queueFull.sct Status.queueFull.code Status.queueFull.dnr :: s.out ∧
            u.fld (aNq 0x20) 31 0 = min (s.fld (aNq 0x20) 31 0 + 1) (2 ^ 32 - 1)))) ∧
      ((q.intake = [] ∨ q.waitAt = none) → exec (.qfullTimeout n) s = .next s)) ∧
    (∀ i c, c = s.cmd i →
      ((c.live = false ∨ c.turned = true ∨ c.place = none) → exec (.orderingTurn i) s = .next s) ∧
      (c.live = true → c.turned = false → c.place ≠ none → c.origin = .host → c.old = false →
        (behindDelete s i = true → ∃ u, exec (.orderingTurn i) s = .next u ∧ completes s u i c.dw0 c.dw1 .badField ∧ hostSideOnly s u) ∧
        (behindDelete s i = false → turnReady s i = false → exec (.orderingTurn i) s = .next s) ∧
        (behindDelete s i = false → turnReady s i = true →
          ((c.cls = .rd ∧ c.status = .ok ∧ psaStatus s c = .ok ∨ c.cls = .fl ∨ c.cls = .nd) → ∃ u, exec (.orderingTurn i) s = .next u ∧
            u.cmd i = { c with turned := true, gen := (s.slot (nsSlot s c.nsid)).gen } ∧ (∀ j, j ≠ i → u.cmd j = s.cmd j) ∧
            (∀ th, freeThread s 0 = some th → (thread u 0 th).live = true ∧ (thread u 0 th).cmd = i ∧
              Tab.at 0 (thread u 0 th).g 1 = w32 i) ∧ u = { s with nq := { s.nq with cmds := u.nq.cmds }, tl := u.tl }) ∧
          (∀ st, c.cls = .wr → c.status = .ok → nsZoned s c.nsid = true → zoneTurn s c = .error st →
            ∃ u, exec (.orderingTurn i) s = .next u ∧ completes s u i c.dw0 c.dw1 st ∧ hostSideOnly s u) ∧
          (∀ lo, c.cls = .wr → c.status = .ok → (nsZoned s c.nsid = true ∧ zoneTurn s c = .ok lo ∨ nsZoned s c.nsid = false ∧ lo = c.lo) →
            (psaStatus s { c with lo := lo } = .ok → ∃ u, exec (.orderingTurn i) s = .next u ∧ (u.cmd i).turned = true ∧
              (u.cmd i).lo = lo ∧ (u.cmd i).gen = (s.slot (nsSlot s c.nsid)).gen ∧ hostSideOnly s u) ∧
            (psaStatus s { c with lo := lo } ≠ .ok → ∃ u, exec (.orderingTurn i) s = .next u ∧
              completes s u i c.dw0 c.dw1 (psaStatus s { c with lo := lo }) ∧ hostSideOnly s u)) ∧
          (∀ st, (c.cls = .rd ∧ st = c.status.orElse (psaStatus s c) ∨ c.cls = .wr ∧ st = c.status) → st ≠ .ok →
            ∃ u, exec (.orderingTurn i) s = .next u ∧ completes s u i c.dw0 c.dw1 st ∧ hostSideOnly s u))) ∧
      (i ∉ s.buf.scans → exec (.invalidationScanDone i) s = .next s) ∧
      (i ∈ s.buf.scans → c.live = true → c.cls = .iv → c.cap.opcode = 9 → ∃ u, exec (.invalidationScanDone i) s = .next u ∧
        i ∉ u.buf.scans ∧ ((u.cmd i).done = true ∨ (u.cmd i).live = false) ∧ hostSideOnly s u))

/-- READ to DATASET_MANAGEMENT, the zone actions and reports, and ZONE_POINTER_RECORD. -/
def Obligations.IoCommandsAreServed : Prop :=
  ∀ (s : State) (i : Nat) (c : Cmd), c = s.cmd i →
    (∀ x op t1 t2, (x = Instr.read i t1 t2 ∧ op = 2 ∨ x = .write i ∧ op = 1 ∨ x = .writeZeroes i ∧ op = 8 ∨ x = .zoneAppend i ∧ op = 0x7D ∨
        x = .flush i ∧ op = 0 ∨ x = .datasetManagement i ∧ op = 9) →
      (c.live = false ∨ c.turned = false ∨ cmdOp c ≠ op) → exec x s = .next s) ∧
    (hostCmd s i 2 → c.turned = true → (∀ b, c.blks = [b] → b.st = .idle → unwritten s c.nsid c.lo = true →
      (∀ x ∈ s.buf.trackers, x.nsid ≠ c.nsid) → ∃ u, exec (.read i none none) s = .next u ∧
        ((u.cmd i).blk 0).st = .ready ∧ ((u.cmd i).blk 0).data = [] ∧ (∀ j, j ≠ i → u.cmd j = s.cmd j) ∧ u.out = s.out ∧
        hostSideOnly s u)) ∧
    (∀ x op, (x = Instr.write i ∧ op = 1 ∨ x = .writeZeroes i ∧ op = 8 ∨ x = .zoneAppend i ∧ op = 0x7D) → hostCmd s i op →
      c.turned = true → c.cls = .wr → c.void = false → c.visible = false → (∀ b ∈ c.blks, b.st = .ready) →
      nsZoned s c.nsid = false → (∀ e ∈ s.nq.cmds, e.2.cls = .fl → e.1 ≠ i) → s.bit (aBuf 8) 0 = true → c.fua = false →
      ∃ u, exec x s = .next u ∧ completes s u i c.dw0 c.dw1 .ok ∧ hostSideOnly s u) ∧
    (hostCmd s i 0 → c.turned = true → c.cls = .fl → c.units = [] → recordsOk s { c with done := true } = true →
      ∃ u, exec (.flush i) s = .next u ∧ completes s u i c.dw0 c.dw1 c.status ∧ hostSideOnly s u) ∧
    (hostCmd s i 9 → c.turned = true → (c.done = false → exec (.datasetManagement i) s = .next s) ∧
      (c.done = true → ∃ u, exec (.datasetManagement i) s = .next u ∧ completes s u i c.dw0 c.dw1 .ok ∧ hostSideOnly s u)) ∧
    (∀ x act, (x = Instr.zoneClose i ∧ act = 1 ∨ x = .zoneFinish i ∧ act = 2 ∨ x = .zoneOpen i ∧ act = 3 ∨
        x = .zoneReset i ∧ act = 4 ∨ x = .zoneOffline i ∧ act = 5) →
      ((c.live = false ∨ c.turned = false ∨ cmdOp c ≠ 0x79 ∨ capAction c.cap ≠ act ∨ i ∈ s.buf.scans) → exec x s = .next s) ∧
      (hostCmd s i 0x79 → c.turned = true → capAction c.cap = act → i ∉ s.buf.scans → ∃ u, exec x s = .next u ∧
        ((act = 5 ∨ capAll c.cap = false ∧ zoneAct s c.nsid (zoneIx s c.nsid (capSlba c.cap)) act = none) →
          completes s u i c.dw0 c.dw1 .badField ∧ u.nq.zones = s.nq.zones) ∧
        (∀ z w, act ≠ 5 → capAll c.cap = false → z = zoneIx s c.nsid (capSlba c.cap) → w = zoneAt s c.nsid z →
          zoneState s c.nsid z ≠ .readOnly → zoneState s c.nsid z ≠ .offline →
          (act = 3 → zoneState s c.nsid z ≠ .full → zoneAt u c.nsid z = { w with state := .explOpen } ∧
            completes s u i c.dw0 c.dw1 .ok) ∧
          (act = 1 → (zoneState s c.nsid z = .implOpen ∨ zoneState s c.nsid z = .explOpen) →
            zoneAt u c.nsid z = { w with state := if w.wp = 0 then .empty else .closed } ∧ completes s u i c.dw0 c.dw1 .ok) ∧
          (act = 2 → zoneAt u c.nsid z = ⟨.full, zoneCap s c.nsid z, w.written⟩ ∧ completes s u i c.dw0 c.dw1 .ok) ∧
          (act = 4 → zoneAt u c.nsid z = ⟨.empty, 0, 0⟩ ∧ completes s u i c.dw0 c.dw1 .ok)) ∧ hostSideOnly s u)) ∧
    (∀ x act, (x = Instr.reportZones i ∧ act = 0 ∨ x = .extendedReportZones i ∧ act = 1) →
      ((c.live = false ∨ cmdOp c ≠ 0x7A ∨ capAction c.cap ≠ act) → exec x s = .next s) ∧
      (hostCmd s i 0x7A → capAction c.cap = act → ∃ u, exec x s = .next u ∧
        returns s u i (zoneReport s c.cap) ∧
        u.nq.zones = s.nq.zones ∧ hostSideOnly s u)) ∧
    (∀ n z j, nsExists s n = true → nsZoned s n = true → z < nsGcount s n → j < nsHeads s n →
      s.domOn (domCh (nsHead s n j).1) = true → ∃ u, exec (.zonePointerRecord n z j) s = .next u ∧
        Tab.at 0 u.nq.recorded (reachKey n z j) = Tab.at 0 s.nq.reached (reachKey n z j) ∧ hostSideOnly s u)

/-- IDENTIFY to ASYNCHRONOUS_EVENT_REQUEST, QUEUE_RESET and QUEUE_RESET_COMPLETE. -/
def Obligations.AdminCommandsAct : Prop :=
  ∀ (s : State) (i : Nat) (c : Cmd) (id : Nat) (a : Assoc), c = s.cmd i → id = (s.qp c.qp).cntlid → a = s.assoc id →
    (∀ x op, (x = Instr.identify i ∧ op = 0x86 ∨ x = .getLogPage i ∧ op = 0x82 ∨ x = .numberOfQueues i ∧ op = 0x89 ∨
        x = .volatileWriteCache i ∧ op = 0x89 ∨ x = .readDeadline i ∧ op = 0x89 ∨ x = .getFeatures i ∧ op = 0x8A ∨
        x = .createIoCompletionQueue i ∧ op = 0x85 ∨ x = .createIoSubmissionQueue i ∧ op = 0x81 ∨
        x = .deleteIoSubmissionQueue i ∧ op = 0x80 ∨ x = .deleteIoCompletionQueue i ∧ op = 0x84 ∨ x = .abort i ∧ op = 0x88 ∨
        x = .queueReset i ∧ op = 0xC0 ∨ x = .keepAlive i ∧ op = 0x98 ∨ x = .asynchronousEventRequest i ∧ op = 0x8C) →
      adminIdle s i op → exec x s = .next s) ∧
    (adminCmd s i 0x86 →
      (∀ bs, (identifyData s c.cap id = some bs ∨ c.cap.cdw10 % 256 = 0x10 ∧ bs = padTo 4096
            ((((nsList s).filter fun n => decide (c.cap.nsid < n)).take 1024).flatMap (leBytes 4))) →
          ∃ u, exec (.identify i) s = .next u ∧ returns s u i bs ∧ hostSideOnly s u) ∧
        (identifyData s c.cap id = none → ∃ u, exec (.identify i) s = .next u ∧ completes s u i c.dw0 c.dw1 .badField ∧
          hostSideOnly s u)) ∧
    (adminCmd s i 0x82 → ∀ lid n, lid = c.cap.cdw10 % 256 → n = (dataLen s c.qp 0x82 c.cap).getD 0 →
      ∃ u, exec (.getLogPage i) s = .next u ∧ hostSideOnly s u ∧
        (a.discovery = true → lid = 0x70 →
          returns s u i (padTo n ((discoveryLog s).drop (c.cap.cdw12 + c.cap.cdw13 * 2 ^ 32)))) ∧
        (a.discovery = false → 1 ≤ lid → lid ≤ 4 → returns s u i (freeBytes s n)) ∧
        (a.discovery = true → lid ≠ 0x70 → completes s u i c.dw0 c.dw1 .badField) ∧
        (a.discovery = false → lid = 0 ∨ 4 < lid → completes s u i c.dw0 c.dw1 .badField)) ∧
    (adminCmd s i 0x89 →
      (capFid c.cap ≠ 7 → exec (.numberOfQueues i) s = .next s) ∧
      (capFid c.cap = 7 → ∃ u, exec (.numberOfQueues i) s = .next u ∧ hostSideOnly s u ∧
        ((c.cap.cdw11 % 2 ^ 16 = 0xFFFF ∨ c.cap.cdw11 / 2 ^ 16 % 2 ^ 16 = 0xFFFF) → completes s u i c.dw0 c.dw1 .badField) ∧
        (∀ n, c.cap.cdw11 % 2 ^ 16 ≠ 0xFFFF → c.cap.cdw11 / 2 ^ 16 % 2 ^ 16 ≠ 0xFFFF →
          n = min (min (c.cap.cdw11 % 2 ^ 16 + 1) (c.cap.cdw11 / 2 ^ 16 % 2 ^ 16 + 1)) (s.fld (aNq 0) 31 16) →
          (u.assoc id).granted = n ∧ completes s u i ((n - 1) * 65537) c.dw1 .ok)) ∧
      ((capFid c.cap ≠ 6 ∨ c.done = true) → exec (.volatileWriteCache i) s = .next s) ∧
      (capFid c.cap = 6 → c.done = false → c.cls = .none → ∃ u, exec (.volatileWriteCache i) s = .next u ∧ hostSideOnly s u ∧
        u.bit (aBuf 8) 0 = decide (c.cap.cdw11 % 2 = 1) ∧ onlyRegs [aBuf 8] s { u with nq := s.nq, buf := s.buf, tl := s.tl, out := s.out } ∧
        (c.cap.cdw11 % 2 = 1 → completes s u i c.dw0 c.dw1 .ok) ∧
        (c.cap.cdw11 % 2 = 0 → dirtyOf s { Cmd.none with all := true } = [] → completes s u i c.dw0 c.dw1 c.status) ∧
        (c.cap.cdw11 % 2 = 0 → dirtyOf s { Cmd.none with all := true } ≠ [] → u.out = s.out ∧
          u.cmd i = { c with units := dirtyOf s { Cmd.none with all := true }, done := true })) ∧
      (capFid c.cap ≠ 0xC0 → exec (.readDeadline i) s = .next s) ∧
      (capFid c.cap = 0xC0 → ∃ u, exec (.readDeadline i) s = .next u ∧
        u.nq = { s.nq with changes := s.nq.changes ++ [(.deadline c.cap.nsid (c.cap.cdw11 % 2 ^ 16), i)] } ∧
        u.fld (aNq 0x14) 1 0 = 1 ∧ onlyRegs [aNq 0x14] s { u with nq := s.nq })) ∧
    (adminCmd s i 0x8A → ∀ f, f = capFid c.cap → ∃ u, exec (.getFeatures i) s = .next u ∧ hostSideOnly s u ∧
      (f = 6 → completes s u i (if s.bit (aBuf 8) 0 then 1 else 0) c.dw1 .ok) ∧
      (f = 7 → a.granted ≠ 0 → completes s u i ((a.granted - 1) * 65537) c.dw1 .ok) ∧
      (f = 7 → a.granted = 0 → completes s u i s.freeVal.toNat c.dw1 .ok ∧ u.free = s.free + 1) ∧
      (f = 0x0B → completes s u i a.aec c.dw1 .ok) ∧ (f = 0x0F → completes s u i a.kato c.dw1 .ok) ∧
      (f = 0xC0 → completes s u i (s.fld (aNs c.cap.nsid 0xC) 15 0) c.dw1 .ok)) ∧
    (∀ q z, q = capQid c.cap → z = capQsize c.cap →
      (adminCmd s i 0x85 → ∃ u, exec (.createIoCompletionQueue i) s = .next u ∧ hostSideOnly s u ∧
        (z = 0 → completes s u i c.dw0 c.dw1 .badLength) ∧
        (z ≠ 0 → (q = 0 ∨ a.granted < q ∨ ∃ e ∈ a.cqs, e.1 = q) → completes s u i c.dw0 c.dw1 .badField) ∧
        (z ≠ 0 → q ≠ 0 → q ≤ a.granted → (∀ e ∈ a.cqs, e.1 ≠ q) →
          completes s u i c.dw0 c.dw1 .ok ∧ u.assoc id = { a with cqs := a.cqs ++ [(q, z)] })) ∧
      (adminCmd s i 0x81 →
        (z = 0 → ∃ u, exec (.createIoSubmissionQueue i) s = .next u ∧ completes s u i c.dw0 c.dw1 .badLength ∧ hostSideOnly s u) ∧
        (z ≠ 0 → (q = 0 ∨ a.granted < q ∨ (∃ e ∈ a.sqs, e.1 = q) ∨ (q, z) ∉ a.cqs ∨ c.cap.cdw11 / 2 ^ 16 % 2 ^ 16 ≠ q) →
          ∃ u, exec (.createIoSubmissionQueue i) s = .next u ∧ completes s u i c.dw0 c.dw1 .badField ∧ hostSideOnly s u) ∧
        (z ≠ 0 → q ≠ 0 → q ≤ a.granted → (∀ e ∈ a.sqs, e.1 ≠ q) → (q, z) ∈ a.cqs → c.cap.cdw11 / 2 ^ 16 % 2 ^ 16 = q →
          (poolPair s = none → ∃ u, exec (.createIoSubmissionQueue i) s = .next u ∧
            completes s u i c.dw0 c.dw1 .queueFull ∧ hostSideOnly s u) ∧
          (∀ n, poolPair s = some n → (s.qp n).state = 0 → n ≠ c.qp → ∃ u, exec (.createIoSubmissionQueue i) s = .next u ∧
            completes s u i c.dw0 c.dw1 .ok ∧ u.assoc id = { a with sqs := a.sqs ++ [(q, n)] } ∧
            u.qp n = { Qp.free with state := 1, cntlid := id, qid := q, size := z } ∧ hostSideOnly s u))) ∧
      (adminCmd s i 0x84 → ∃ u, exec (.deleteIoCompletionQueue i) s = .next u ∧ hostSideOnly s u ∧
        (((∃ e ∈ a.sqs, e.1 = q) ∨ ∀ e ∈ a.cqs, e.1 ≠ q) → completes s u i c.dw0 c.dw1 .badField) ∧
        ((∀ e ∈ a.sqs, e.1 ≠ q) → (∃ e ∈ a.cqs, e.1 = q) → completes s u i c.dw0 c.dw1 .ok ∧
          u.assoc id = { a with cqs := a.cqs.filter fun e => e.1 ≠ q })) ∧
      (∀ x op, (x = Instr.deleteIoSubmissionQueue i ∧ op = 0x80 ∨ x = .queueReset i ∧ op = 0xC0) → adminCmd s i op →
        ∀ cn, cn = (if op = 0xC0 ∧ c.cap.cdw11 % 2 ^ 16 ≠ 0 then c.cap.cdw11 % 2 ^ 16 else id) →
        (joinedBy s i = true → exec x s = .next s) ∧
        (joinedBy s i = false →
          ((sqPair s cn q = none ∨ op = 0xC0 ∧ c.cap.cdw11 % 2 ^ 16 ≠ 0 ∧ a.manager = false) →
            ∃ u, exec x s = .next u ∧ completes s u i c.dw0 c.dw1 .badField ∧ hostSideOnly s u) ∧
          (∀ n, sqPair s cn q = some n → (op = 0xC0 → c.cap.cdw11 % 2 ^ 16 ≠ 0 → a.manager = true) →
            ((s.qp n).state = 1 → n ≠ c.qp → ∃ u, exec x s = .next u ∧ completes s u i c.dw0 c.dw1 .ok ∧ hostSideOnly s u ∧
              (op = 0x80 → u.qp n = Qp.free)) ∧
            ((s.qp n).state ≠ 1 → ∃ u, exec x s = .next u ∧
              ((s.qp n).state ≠ 3 → (s.qp n).state ≠ 4 → oldCmds s n = [] →
                u.qp n = { s.qp n with intake := [], waitAt := none, joined := [if op = 0x80 then .delete i else .reset i]
                                       state := 3, oldLeft := (s.qp n).intake.length
                                       sqhd := ((s.qp n).sqhd + (s.qp n).intake.length) % ((s.qp n).size + 1) } ∧
                u = { s with regs := u.regs, nq := { s.nq with qps := u.nq.qps } } ∧
                u.fld (aNq 0x28) 31 0 = min (s.fld (aNq 0x28) 31 0 + 1) (2 ^ 32 - 1))) ∧
            (((s.qp n).state = 3 ∨ (s.qp n).state = 4) → exec x s = .next ((s.bump (aNq 0x28)).setQp n
              { s.qp n with joined := (s.qp n).joined ++ [if op = 0x80 then .delete i else .reset i] })))))) ∧
    (adminCmd s i 0x88 → ∃ u, exec (.abort i) s = .next u ∧ completes s u i 1 c.dw1 .ok ∧ hostSideOnly s u) ∧
    (adminCmd s i 0x98 → ∃ u, exec (.keepAlive i) s = .next u ∧ completes s u i c.dw0 c.dw1 .ok ∧
      u.assoc id = { a with kaAt := s.now } ∧ hostSideOnly s u) ∧
    (adminCmd s i 0x8C →
      (i ∈ a.aers → exec (.asynchronousEventRequest i) s = .next s) ∧
      (i ∉ a.aers → a.events = [] →
        exec (.asynchronousEventRequest i) s = .next (s.setAssoc id { a with aers := a.aers ++ [i] })) ∧
      (∀ ev rest, a.aers = [] → a.events = ev :: rest → ∃ u, exec (.asynchronousEventRequest i) s = .next u ∧
        completes s u i ev c.dw1 .ok ∧ u.assoc id = { a with events := rest } ∧ hostSideOnly s u)) ∧
    (∀ n q, n < 12288 → q = s.qp n →
      ((q.state ≠ 3 ∧ q.state ≠ 4 ∨ ∃ k ∈ q.inflight, k.kind ≠ 0) → exec (.queueResetComplete n) s = .next s) ∧
      ((∀ k ∈ q.inflight, k.kind = 0) → (s.assoc q.cntlid).ending = false →
        (q.state = 3 → q.joined = [] →
          exec (.queueResetComplete n) s = .next (s.setQp n { q with state := 2, oldLeft := 0 })) ∧
        (q.state = 3 → q.joined = [.reset i] → c.live = true → c.origin = .host → c.old = false → c.qp ≠ n →
          ∃ u, exec (.queueResetComplete n) s = .next u ∧ completes s u i (q.oldLeft % 2 ^ 16) c.dw1 .ok ∧
            u.qp n = { q with state := 2, joined := [], oldLeft := 0 } ∧ hostSideOnly s u) ∧
        (q.state = 3 → q.joined = [.delete i] → c.live = true → c.origin = .host → c.old = false → c.qp ≠ n →
          ∃ u, exec (.queueResetComplete n) s = .next u ∧ u.qp n = Qp.free ∧ (u.cmd i).live = false ∧
            u.out = cqeSent s c.qp (s.qp c.qp).psn c.cap.cid c.dw0 c.dw1 Status.ok.sct Status.ok.code Status.ok.dnr ++
              .cm 2 n 0 :: s.out ∧ hostSideOnly s u) ∧
        (q.state = 4 → q.joined = [.ending] → ∃ u, exec (.queueResetComplete n) s = .next u ∧ u.qp n = Qp.free ∧
          (∀ m, m ≠ n → u.qp m = s.qp m) ∧ u.out = s.out ∧ u = { s with nq := { s.nq with qps := u.nq.qps, assocs := u.nq.assocs } })) ∧
      ((∀ k ∈ q.inflight, k.kind = 0) → (s.assoc q.cntlid).ending = true → q.state = 4 → q.joined = [.ending] →
        pairsHeld (s.setQp n Qp.free) q.cntlid = [] → ∃ u, exec (.queueResetComplete n) s = .next u ∧
          u.qp n = Qp.free ∧ u.assoc q.cntlid = Assoc.none))

/-- NAMESPACE_CREATE, DELETE, ATTACH and DETACH, BLANKING_DONE and NS_TABLE_FLASH_WRITE. -/
def Obligations.NamespacesFollowTheirFlashWrites : Prop :=
  ∀ (s : State) (i : Nat) (c : Cmd), c = s.cmd i →
    (∀ x op sel, (x = Instr.namespaceCreate i ∧ op = 0x8D ∧ sel = 0 ∨ x = .namespaceDelete i ∧ op = 0x8D ∧ sel = 1 ∨
        x = .namespaceAttach i ∧ op = 0x95 ∧ sel = 0 ∨ x = .namespaceDetach i ∧ op = 0x95 ∧ sel = 1) →
      (adminIdle s i op ∨ c.cap.cdw10 % 16 ≠ sel) → exec x s = .next s) ∧
    (adminCmd s i 0x8D → c.cap.cdw10 % 16 = 0 → ∃ u, exec (.namespaceCreate i) s = .next u ∧ hostSideOnly s u ∧
      (leAt c.cap.data 3846 2 = 0 → completes s u i c.dw0 c.dw1 .badLength) ∧
      (leAt c.cap.data 3846 2 ≠ 0 → descriptorOk c.cap = false → completes s u i c.dw0 c.dw1 .badField) ∧
      (leAt c.cap.data 3846 2 ≠ 0 → descriptorOk c.cap = true →
        (freeNsid s = none → completes s u i c.dw0 c.dw1
          (if placementOk (writeCandidate s 4097 c.cap) 4097 c.cap then .queueFull else .badField)) ∧
        (∀ n, freeNsid s = some n →
          (placementOk (writeCandidate s n c.cap) n c.cap = false → completes s u i c.dw0 c.dw1 .badField) ∧
          (placementOk (writeCandidate s n c.cap) n c.cap = true →
            (∀ m, 1 ≤ m → m < n → m ∈ holders s) ∧ n ∉ holders s ∧ u.out = s.out ∧ nsExists u n = false ∧
            nsGfirst u n = leAt c.cap.data 3844 2 ∧ nsGcount u n = leAt c.cap.data 3846 2 ∧
            nsKind u n = leAt c.cap.data 3840 1 ∧
            (c.cap.cdw11 / 2 ^ 24 % 256 = 2 → u.nq.changes = s.nq.changes ++ [(.create n, i)] ∧
              u.nq.blanking = s.nq.blanking ∧ u.fld (aNq 0x14) 1 0 = 1) ∧
            (c.cap.cdw11 / 2 ^ 24 % 256 = 0 → u.nq.changes = s.nq.changes ∧
              u.nq.blanking = s.nq.blanking ++ [(n, i)] ∧ u.bit (aNs n 0) 28 = true))))) ∧
    (adminCmd s i 0x8D → c.cap.cdw10 % 16 = 1 →
      (i ∈ s.buf.scans → exec (.namespaceDelete i) s = .next s) ∧
      (i ∉ s.buf.scans → ∃ u, exec (.namespaceDelete i) s = .next u ∧ u.fld (aNq 0x14) 1 0 = 1 ∧
        u.nq = { s.nq with changes := s.nq.changes ++ [(.delete c.cap.nsid, i)] } ∧
        onlyRegs [aNq 0x14] s { u with nq := s.nq })) ∧
    (∀ x sel y, (x = Instr.namespaceAttach i ∧ sel = 0 ∧ y = NsChange.attach c.cap.nsid ∨
        x = .namespaceDetach i ∧ sel = 1 ∧ y = .detach c.cap.nsid) → adminCmd s i 0x95 → c.cap.cdw10 % 16 = sel →
      ((nsExists s c.cap.nsid = false ∨ nsAttached s c.cap.nsid = decide (sel = 0)) → ∃ u, exec x s = .next u ∧
        completes s u i c.dw0 c.dw1 .badField ∧ hostSideOnly s u) ∧
      (nsExists s c.cap.nsid = true → nsAttached s c.cap.nsid = decide (sel = 1) → ∃ u, exec x s = .next u ∧
        u.fld (aNq 0x14) 1 0 = 1 ∧ u.nq = { s.nq with changes := s.nq.changes ++ [(y, i)] } ∧
        onlyRegs [aNq 0x14] s { u with nq := s.nq })) ∧
    (∀ n, 1 ≤ n → n ≤ 4096 →
      ((∀ e ∈ s.nq.blanking, e.1 ≠ n) → exec (.blankingDone n) s = .next s) ∧
      ((∃ t ∈ nsTiles s n, s.linkUp t = false ∨ Tab.at 0 s.power.bring t ≠ 0) → exec (.blankingDone n) s = .next s) ∧
      (∀ j, s.nq.blanking = [(n, j)] → (∀ t ∈ nsTiles s n, s.linkUp t = true ∧ Tab.at 0 s.power.bring t = 0) →
        ∃ u, exec (.blankingDone n) s = .next u ∧ u.bit (aNs n 0) 28 = false ∧ u.fld (aNq 0x14) 1 0 = 1 ∧
          u.nq = { s.nq with blanking := [], changes := s.nq.changes ++ [(.create n, j)] } ∧
          onlyRegs [aNs n 0, aNq 0x14] s { u with nq := s.nq })) ∧
    (∀ ok, s.nq.changes = [] → exec (.nsTableFlashWrite ok) s = .next s) ∧
    (∀ x rest, s.nq.changes = (x, i) :: rest →
      (∃ u, exec (.nsTableFlashWrite false) s = .next u ∧ u.nq.changes = rest ∧ u.fld (aNq 0x14) 1 0 = 2 ∧
        (u.cmd i).live = false ∧ u.flash = s.flash ∧
        (c.live = true → c.origin = .host → c.old = false → .cqe c.qp c.cap.cid c.dw0 c.dw1 (s.qp c.qp).sqhd
          Status.storeBusy.sct Status.storeBusy.code Status.storeBusy.dnr ∈ u.out) ∧
        ((∀ n, x ≠ .create n) → ∀ m j, 1 ≤ m → m ≤ 4096 → j < 8 → u.reg (aNs m (4 * j)) = s.reg (aNs m (4 * j)))) ∧
      (∃ u, exec (.nsTableFlashWrite true) s = .next u ∧
        (∀ n, x = .create n → 1 ≤ n → n ≤ 4096 → u.nq.changes = rest ∧ nsExists u n = true ∧ nsAttached u n = false ∧ (u.cmd i).live = false ∧
          (c.live = true → c.origin = .host → c.old = false → .cqe c.qp c.cap.cid n c.dw1 (s.qp c.qp).sqhd
            Status.ok.sct Status.ok.code Status.ok.dnr ∈ u.out) ∧
          u.fld (aNq 0x14) 1 0 = (if rest = [] then 0 else 1) ∧ u.reg (aNq 0x10) = w32 (nsList u).length ∧
          (∀ m j, 1 ≤ m → m ≤ 4096 → j < 8 → nsExists u m = true →
            Tab.at 0 u.flash.ns (aNs m (4 * j)) = u.reg (aNs m (4 * j)))) ∧
        (∀ n d, x = .deadline n d → 1 ≤ n → n ≤ 4096 → d < 65536 → u.nq.changes = rest ∧ u.fld (aNs n 0xC) 15 0 = d ∧ (u.cmd i).live = false ∧
          u.fld (aNq 0x14) 1 0 = (if rest = [] then 0 else 1) ∧
          (c.live = true → c.origin = .host → c.old = false → .cqe c.qp c.cap.cid c.dw0 c.dw1 (s.qp c.qp).sqhd
            Status.ok.sct Status.ok.code Status.ok.dnr ∈ u.out)) ∧
        (∀ n b, (x = .attach n ∧ b = true ∨ x = .detach n ∧ b = false) → 1 ≤ n → n ≤ 4096 →
          u.nq.changes = rest ∧ u.bit (aNs n 0) 30 = b ∧ (u.cmd i).live = false) ∧
        (∀ n, x = .delete n → 1 ≤ n → n ≤ 4096 → (nsSize s n + 15) / 16 ≤ 65536 → s.buf.lines = [] → s.buf.copies = [] →
          u.nq.changes = rest ∧ nsExists u n = false ∧ (u.cmd i).live = false)))

/-- PLACEMENT_MAP, RETIREMENT_MAP, RETIRE_COMMAND, REINSTATE_COMMAND, MANAGEMENT_SEND and MANAGEMENT_RECEIVE. -/
def Obligations.ManagementCommandsAct : Prop :=
  ∀ (s : State) (i : Nat) (c : Cmd) (id : Nat), c = s.cmd i → id = (s.qp c.qp).cntlid →
    (∀ x op, (x = Instr.placementMap i ∧ op = 0xC1 ∨ x = .retirementMap i ∧ op = 0xC4 ∨ x = .retireCommand i ∧ op = 0xC2 ∨
        x = .reinstateCommand i ∧ op = 0xC3 ∨ x = .managementSend i ∧ op = 0xC9 ∨ x = .managementReceive i ∧ op = 0xCA) →
      adminIdle s i op → exec x s = .next s) ∧
    (adminCmd s i 0xC1 → ∃ u, exec (.placementMap i) s = .next u ∧ returns s u i (placementMap s) ∧ hostSideOnly s u) ∧
    (adminCmd s i 0xC4 → ∃ u, exec (.retirementMap i) s = .next u ∧ hostSideOnly s u ∧ returns s u i
      ((List.range 8).flatMap fun t => (List.range 16).flatMap fun k => leBytes 4 (s.reg (aMir t k)).toNat)) ∧
    (∀ x op, (x = Instr.retireCommand i ∧ op = 0xC2 ∨ x = .reinstateCommand i ∧ op = 0xC3) → adminCmd s i op →
      unitCheck s c.cap.cdw10 ≠ .ok → ∃ u, exec x s = .next u ∧
        completes s u i c.dw0 c.dw1 (unitCheck s c.cap.cdw10) ∧ hostSideOnly s u) ∧
    (∀ k t cl h r, unitWord c.cap.cdw10 = (k, t, cl, h, r) → unitCheck s c.cap.cdw10 = .ok →
      (adminCmd s i 0xC2 → ∃ u, exec (.retireCommand i) s = .next u ∧
        (k < 5 → unitRetired s t k cl h r = true → completes s u i c.dw0 c.dw1 .ok ∧ hostSideOnly s u) ∧
        (k < 5 → unitRetired s t k cl h r = false → u = completeCmd (retire s t k cl h r 0x0F) i .ok) ∧
        (k = 5 → u = completeCmd (retireTile s t 0x0F) i .ok)) ∧
      (adminCmd s i 0xC3 → ∃ u, exec (.reinstateCommand i) s = .next u ∧
        (inMaint s t = false → completes s u i c.dw0 c.dw1 .badField ∧ hostSideOnly s u) ∧
        (inMaint s t = true → k = 2 → unitRetired u t k cl h r = false))) ∧
    (adminCmd s i 0xC9 → ∀ bs m, bs = c.cap.data.take (c.cap.cdw10 % 2 ^ 16) → m = packetOpOf (.assoc id i) bs →
      ∃ u, exec (.managementSend i) s = .next u ∧
        (noPacket bs = true → completes s u i c.dw0 c.dw1 .badField ∧ Tab.at [] u.mgmt.kept id = []) ∧
        (noPacket bs = false → packetStatus bs ≠ .ok → s.mgmt.waiting = [] → completes s u i 0 c.dw1 (packetStatus bs) ∧
          u.fld (aMgt 0x64) 31 0 = min (s.fld (aMgt 0x64) 31 0 + 1) (2 ^ 32 - 1)) ∧
        (noPacket bs = false → packetStatus bs = .ok → s.mgmt.waiting = [] →
          (m.opcode ∉ mgmtOps ∨ (s.assoc id).manager = false ∧ m.opcode ≠ 2 ∧ m.opcode ≠ 3) →
          completes s u i 0 c.dw1 .badOpcode ∧ ((s.assoc id).live = true → (s.assoc id).ending = false →
            Tab.at [] u.mgmt.kept id = replyPacket m.opcode m.tag Status.badOpcode.code [])) ∧
        (noPacket bs = false → packetStatus bs = .ok → s.mgmt.waiting = [] → m.opcode ∈ mgmtOps → m.opcode ≠ 0x25 →
          ((s.assoc id).manager = true ∨ m.opcode = 2 ∨ m.opcode = 3) →
          u = { s with mgmt := { s.mgmt with kept := Tab.to [] s.mgmt.kept id [], waiting := [m] } })) ∧
    (adminCmd s i 0xCA → ∀ bs, bs = Tab.at [] s.mgmt.kept id → ∃ u, exec (.managementReceive i) s = .next u ∧
      hostSideOnly s u ∧
      (bs ≠ [] → beAt bs 2 2 = c.cap.cdw10 % 2 ^ 16 → returns s u i bs) ∧
      ((bs = [] ∨ beAt bs 2 2 ≠ c.cap.cdw10 % 2 ^ 16) → completes s u i c.dw0 c.dw1 .badField))

/-- CONNECT, PROPERTY_GET, PROPERTY_SET, DISCONNECT, AUTHENTICATION_SEND and AUTHENTICATION_RECEIVE. -/
def Obligations.FabricsCommandsAct : Prop :=
  ∀ (s : State) (i : Nat) (c : Cmd) (q : Qp) (d : Payload), c = s.cmd i → q = s.qp c.qp → d = c.cap.data →
    (∀ x op, (x = Instr.connect i ∧ op = 0xE1 ∨ x = .propertyGet i ∧ op = 0xE4 ∨ x = .propertySet i ∧ op = 0xE0 ∨
        x = .disconnect i ∧ op = 0xE8 ∨ x = .authenticationSend i ∧ op = 0xE5 ∨ x = .authenticationReceive i ∧ op = 0xE6) →
      (c.live = false ∨ cmdOp c ≠ op) → exec x s = .next s) ∧
    (hostCmd s i 0xE1 →
      (q.state ≠ 1 → ∃ u, exec (.connect i) s = .next u ∧ completes s u i c.dw0 c.dw1 .badField ∧ hostSideOnly s u) ∧
      (q.state = 1 → c.cap.cdw10 % 2 ^ 16 ≠ 0 → ∃ u, exec (.connect i) s = .next u ∧ fabricStatus s u i 0 0x80 ∧
        hostSideOnly s u) ∧
      (q.state = 1 → c.cap.cdw10 % 2 ^ 16 = 0 → c.cap.cdw10 / 2 ^ 16 % 2 ^ 16 = 0 →
        ((leAt d 16 2 ≠ 0xFFFF ∨ c.qp < 8192 ∨ untilZero (slice d 256 256) ≠ Tab.at [] s.mgmt.names 0 ∧
            untilZero (slice d 256 256) ≠ discoveryNqn) →
          ∃ u x, exec (.connect i) s = .next u ∧ fabricStatus s u i x 0x82 ∧ u.free = s.free + 1 ∧ hostSideOnly s u) ∧
        (leAt d 16 2 = 0xFFFF → 8192 ≤ c.qp → ∀ sub, sub = untilZero (slice d 256 256) →
          (sub = Tab.at [] s.mgmt.names 0 ∨ sub = discoveryNqn) →
          ((∀ k, 1 ≤ k → k ≤ 1024 → (s.assoc k).live = true) → ∃ u, exec (.connect i) s = .next u ∧
            fabricStatus s u i 0 0x81 ∧ hostSideOnly s u) ∧
          (∀ id, 1 ≤ id → id ≤ 1024 → (s.assoc id).live = false → (∀ k, 1 ≤ k → k < id → (s.assoc k).live = true) →
            ∃ u, exec (.connect i) s = .next u ∧ completes s u i id c.dw1 .ok ∧ (u.assoc id).live = true ∧
              (u.assoc id).hostNqn = untilZero (slice d 512 256) ∧ (u.assoc id).hostId = slice d 0 16 ∧
              (u.assoc id).discovery = decide (sub = discoveryNqn) ∧
              ((u.assoc id).manager = true ↔ (u.assoc id).hostNqn = Tab.at [] s.mgmt.names 1 ∧ (u.assoc id).hostNqn ≠ [] ∧
                sub ≠ discoveryNqn) ∧
              (u.assoc id).kato = (c.cap.cdw12 % 2 ^ 32 + 99) / 100 * 100 ∧ (u.assoc id).kaAt = s.now ∧
              (u.assoc id).sqs = [] ∧ (∀ k, k ≠ id → u.assoc k = s.assoc k) ∧ (u.qp c.qp).state = 2 ∧
              (u.qp c.qp).cntlid = id ∧ (u.qp c.qp).size = c.cap.cdw11 % 2 ^ 16 ∧
              (∀ m, m ≠ c.qp → u.qp m = s.qp m) ∧ hostSideOnly s u))) ∧
      (∀ qid id a, qid = c.cap.cdw10 / 2 ^ 16 % 2 ^ 16 → id = leAt d 16 2 → a = s.assoc id → q.state = 1 →
        c.cap.cdw10 % 2 ^ 16 = 0 → qid ≠ 0 →
        ((a.live = false ∨ a.ending = true ∨ a.hostNqn ≠ untilZero (slice d 512 256) ∨ a.hostId ≠ slice d 0 16 ∨
            sqPair s id qid ≠ some c.qp ∨ c.cap.cdw11 % 2 ^ 16 ≠ q.size ∨ q.hsq ≠ q.size) →
          ∃ u x, exec (.connect i) s = .next u ∧ fabricStatus s u i x 0x82 ∧ u.free = s.free + 1 ∧ hostSideOnly s u) ∧
        (a.live = true → a.ending = false → a.hostNqn = untilZero (slice d 512 256) → a.hostId = slice d 0 16 →
          sqPair s id qid = some c.qp → c.cap.cdw11 % 2 ^ 16 = q.size → q.hsq = q.size →
          (∀ o, ringFault d q.size = some o → ∃ u, exec (.connect i) s = .next u ∧
            fabricStatus s u i (2 ^ 16 + o) 0x82 ∧ hostSideOnly s u) ∧
          (ringFault d q.size = none → ∃ u, exec (.connect i) s = .next u ∧ completes s u i id c.dw1 .ok ∧
            (u.qp c.qp).state = 2 ∧ (u.qp c.qp).raddr = leAt d 960 8 ∧ (u.qp c.qp).rkey = leAt d 968 4 ∧
            (u.qp c.qp).rent = leAt d 972 4 ∧ (u.qp c.qp).ringSeq = 0 ∧ u.nq.assocs = s.nq.assocs ∧ hostSideOnly s u)))) ∧
    (hostCmd s i 0xE4 → ∀ o z, o = c.cap.cdw11 % 2 ^ 32 → z = c.cap.cdw10 % 8 → ∃ u, exec (.propertyGet i) s = .next u ∧
      hostSideOnly s u ∧ u.nq.assocs = s.nq.assocs ∧
      (o = 0x14 → z ≠ 1 → completes s u i (qpAssoc s c.qp).cc c.dw1 .ok) ∧
      (o = 0x1C → z ≠ 1 → completes s u i (qpAssoc s c.qp).csts c.dw1 .ok) ∧
      (o = 8 → z ≠ 1 → completes s u i s.freeVal.toNat c.dw1 .ok ∧ u.free = s.free + 1) ∧
      (o = 0 → z = 1 → completes s u i s.freeVal.toNat s.took.freeVal.toNat .ok ∧ u.free = s.free + 2) ∧
      ((o ≠ 0x14 ∧ o ≠ 0x1C ∧ o ≠ 8 ∧ o ≠ 0 ∨ z = 1 ∧ o ≠ 0 ∨ z ≠ 1 ∧ o = 0) → completes s u i c.dw0 c.dw1 .badField)) ∧
    (hostCmd s i 0xE0 →
      ((c.cap.cdw11 % 2 ^ 32 ≠ 0x14 ∨ c.cap.cdw10 % 8 ≠ 0) → ∃ u, exec (.propertySet i) s = .next u ∧
        completes s u i c.dw0 c.dw1 .badField ∧ hostSideOnly s u) ∧
      (∀ id a w, id = q.cntlid → a = s.assoc id → w = c.cap.cdw12 % 2 ^ 32 → c.cap.cdw11 % 2 ^ 32 = 0x14 →
        c.cap.cdw10 % 8 = 0 → (a.cc % 2 = 0 ∨ w % 2 = 1 ∨ a.sqs = []) → ∃ u, exec (.propertySet i) s = .next u ∧
          completes s u i c.dw0 c.dw1 .ok ∧ hostSideOnly s u ∧ (u.assoc id).cc = w ∧
          (u.assoc id).csts = w % 2 + (if w / 2 ^ 14 % 4 = 0 then 0 else 8) ∧
          (a.cc % 2 = 1 → w % 2 = 0 → (u.assoc id).granted = 0 ∧ (u.assoc id).cqs = []))) ∧
    (hostCmd s i 0xE8 →
      (8192 ≤ c.qp → ∃ u, exec (.disconnect i) s = .next u ∧ completes s u i c.dw0 c.dw1 .badField ∧ hostSideOnly s u) ∧
      (c.qp < 8192 → q.held = true → q.state = 2 → (∀ j ∈ oldCmds s c.qp, j = i) → ∃ u, exec (.disconnect i) s = .next u ∧
        u.out = .cm 2 c.qp 0 :: (cqeSent s c.qp q.psn c.cap.cid c.dw0 c.dw1 Status.ok.sct Status.ok.code Status.ok.dnr ++ s.out) ∧
        (u.cmd i).live = false ∧ (u.qp c.qp).state = 4 ∧ (u.qp c.qp).held = false ∧ (u.qp c.qp).est = false ∧
        (u.qp c.qp).intake = [] ∧ (u.qp c.qp).inflight = [] ∧ (u.qp c.qp).joined = [.ending] ∧ hostSideOnly s u)) ∧
    (∀ x op, (x = Instr.authenticationSend i ∧ op = 0xE5 ∨ x = .authenticationReceive i ∧ op = 0xE6) → hostCmd s i op →
      ∃ u, exec x s = .next u ∧ completes s u i c.dw0 c.dw1 .badOpcode ∧ hostSideOnly s u)

/-- FRAME_AVAILABLE to STALE_CLEAR, WOODPECKER_BURST and WOODPECKER_SLOW. -/
def Obligations.LinesWaitLeaveAndLock : Prop :=
  ∀ (s : State),
    (s.buf.waits = [] → s.buf.lockFill = [] → s.bit (aBuf 0x40) 31 = false → exec .frameAvailable s = .next s) ∧
    (∀ i, s.buf.waits = [i] → s.buf.lockFill = [] → s.bit (aBuf 0x40) 31 = false →
      ((s.cmd i).live = false → exec .frameAvailable s = .next { s with buf := { s.buf with waits := [] } }) ∧
      (∀ b, (s.cmd i).live = true → (s.cmd i).cls = .rd → (s.cmd i).origin = .host → (s.cmd i).turned = true →
        (s.cmd i).blks = [b] → b.st = .idle → unwritten s (s.cmd i).nsid (s.cmd i).lo = true → ∃ u,
          exec .frameAvailable s = .next u ∧ u.buf.waits = [] ∧ ((u.cmd i).blk 0).st = .ready ∧
          ((u.cmd i).blk 0).data = [] ∧ (∀ j, j ≠ i → u.cmd j = s.cmd j) ∧ u.regs = s.regs)) ∧
    (∀ n l w k, s.buf.waits = [] → s.buf.lockFill = [(n, l, w)] → nsExists s n = true → lineAt s n l = some k →
      (lineOf s k).locked = false → setLocks s (setOf s n l) < s.fld (aBuf 0) 23 20 →
      ((lineOf s k).dirty = true ∨ dirtyUse s < dirtyLimit s) → ∃ u, exec .frameAvailable s = .next u ∧
      u.buf = { s.buf with lines := u.buf.lines, lockFill := [] } ∧ lineOf u k = { lineOf s k with locked := true } ∧
      (∀ j, j ≠ k → lineOf u j = lineOf s j)) ∧
    (∀ i, ((s.buf.copies.length ≤ i ∨ (s.buf.copies.getD i Line.none).dirty = true) → exec (.evictionEnd i) s = .next s) ∧
      (i < s.buf.copies.length → (s.buf.copies.getD i Line.none).dirty = false →
        exec (.evictionEnd i) s = .next { s with buf := { s.buf with copies := s.buf.copies.eraseIdx i } })) ∧
    (∀ n b f, f = (fun (x : Line) => { x with units := x.units.map fun e => (e.1,
          if e.2.dirty = true ∧ x.nsid = n ∧ 16 * x.line + e.1 = b ∧ e.2.at_ + ms (s.fld (aBuf 0) 15 8) ≤ s.now then
            { e.2 with elig := true } else e.2) }) →
      ∃ u, exec (.cleanDelayExpire n b) s = .next u ∧ (∀ k, lineOf u k = f (lineOf s k)) ∧
        u.buf.copies = s.buf.copies.map f ∧ u = { s with buf := { s.buf with lines := u.buf.lines, copies := u.buf.copies } }) ∧
    (∀ us k, k = storeReads s us → (∀ d ∈ dirtyUnits k, isElig k d = false) → exec (.cleanerIssue us) s = .next k) ∧
    (∀ us k d, k = storeReads s us → dirtyUnits k = [d] → isElig k d = true → nsZoned k d.nsid = false →
      k.buf.encrypt.length < 64 → ∃ u, exec (.cleanerIssue us) s = .next u ∧
        unitIn u d.place d.lba = { d.unit with inflight := true, again := false, elig := false, urgent := false
                                               cover := waitersOf k d.nsid d.lba } ∧
        u.buf.encrypt = k.buf.encrypt ++ [⟨d.nsid, d.lba, d.unit.gen,
          if d.unit.zero then zeros 4112 else padTo 4112 d.unit.data, d.unit.lost⟩] ∧
        u = { k with buf := { k.buf with encrypt := u.buf.encrypt, lines := u.buf.lines, copies := u.buf.copies } }) ∧
    (∀ x w, (∃ v, x = Instr.lockLines v ∧ w = v ||| 0xC0000000 ∨ x = .unlockLines v ∧ w = (v ||| 0x80000000) &&& 0xBFFFFFFF) →
      ∀ n first count, n = s.fld (aBuf 0x30) 12 0 → first = s.fld (aBuf 0x34) 3 0 * 2 ^ 32 + (s.reg (aBuf 0x38)).toNat →
      count = s.fld (aBuf 0x3C) 16 0 →
      (s.bit (aBuf 0x40) 31 = true → exec x s = .next (s.emit (.reply .port (aBuf 0x40) w .storeBusy))) ∧
      (s.bit (aBuf 0x40) 31 = false → ∃ u, exec x s = .next u ∧ u.out.head? = some (.reply .port (aBuf 0x40) w .ok) ∧
        (nsExists s n = false → u.fld (aBuf 0x40) 29 28 = 2 ∧ u.buf = s.buf) ∧
        (nsExists s n = true → nsSize s n < 16 * (first + count) → u.fld (aBuf 0x40) 29 28 = 3 ∧ u.buf = s.buf))) ∧
    (∀ v n first count, n = s.fld (aBuf 0x30) 12 0 → first = s.fld (aBuf 0x34) 3 0 * 2 ^ 32 + (s.reg (aBuf 0x38)).toNat →
      count = s.fld (aBuf 0x3C) 16 0 → s.bit (aBuf 0x40) 31 = false → nsExists s n = true →
      16 * (first + count) ≤ nsSize s n →
      (∀ k, count = 1 → lineAt s n first = some k → (lineOf s k).locked = false →
        setLocks s (setOf s n first) < s.fld (aBuf 0) 23 20 → ((lineOf s k).dirty = true ∨ dirtyUse s < dirtyLimit s) →
        s.buf.lockFill = [] → (∀ e ∈ s.nq.cmds, e.2.origin ≠ .lock) →
        ∃ u, exec (.lockLines v) s = .next u ∧ lineOf u k = { lineOf s k with locked := true } ∧
          (∀ j, j ≠ k → lineOf u j = lineOf s j) ∧ u.bit (aBuf 0x40) 31 = false ∧ u.fld (aBuf 0x40) 29 28 = 0) ∧
      (∃ u, exec (.unlockLines v) s = .next u ∧ u.bit (aBuf 0x40) 31 = false ∧ u.fld (aBuf 0x40) 29 28 = 0 ∧
        ∀ d k, d < count → lineAt s n (first + d) = some k → (lineOf u k).locked = false)) ∧
    (s.bit (aBuf 0x10) 31 = true → exec .invall s = .next (s.emit (.reply .port (aBuf 0xC) 1 .storeBusy))) ∧
    (s.bit (aBuf 0x10) 31 = false → ∃ u, exec .invall s = .next u ∧
      u.out.head? = some (.reply .port (aBuf 0xC) 1 .ok) ∧
      ((∀ e ∈ s.buf.lines, e.2.dirty = false ∧ lineFills e.2 = false) → u.buf.lines = [] ∧ u.bit (aBuf 0x10) 31 = false) ∧
      (∀ k x, s.buf.lines = [(k, x)] → x.dirty = true → u.bit (aBuf 0x10) 31 = true ∧ lineOf u k = { x with
        inval := true, units := x.units.map fun e => (e.1, if e.2.dirty then { e.2 with elig := true } else e.2) })) ∧
    (∀ i w a, i < 768 → a = aBuf (0x1000 + 4 * i) →
      (s.reg a &&& w = 0 → exec (.staleClear i w) s = .next s) ∧
      (s.reg a &&& w ≠ 0 → ∃ u, exec (.staleClear i w) s = .next u ∧ u.reg a = s.reg a &&& ~~~w ∧
        u.fld (aHub 0x1200) 1 0 = 1 ∧ onlyRegs [a, aHub 0x1200] s u)) ∧
    (∀ us t1 t2 m o, (s.bit (aMemp 4) 31 = false ∨ s.power.deep = .ps4) →
      exec (.woodpeckerBurst us t1 t2 m o) s = .next (s.setB (aMemp 0) 29 false)) ∧
    (s.bit (aMemp 4) 31 = true → s.power.deep ≠ .ps4 →
      (∀ o, exec (.woodpeckerBurst [] none none none o) s = .next (s.setB (aMemp 0) 29 true)) ∧
      (∀ x o, ¬(eccStore x.addr = 0 ∧ wpPage s = some (eccPage x.addr) ∧ unitRead s x = true) →
        exec (.woodpeckerBurst [x] none none none o) s = .next (s.setB (aMemp 0) 29 true)) ∧
      (∀ x o pg last, pg = eccIndex x.addr / 128 → last = decide (eccIndex x.addr % 128 / 8 = 15) →
        eccStore x.addr = 0 → wpPage s = some (eccPage x.addr) → unitRead s x = true → eccCls x = .clean →
        ∃ u, exec (.woodpeckerBurst [x] none none none o) s = .next u ∧ u.bit (aMemp 0) 29 = true ∧ u.out = s.out ∧
          u.buf = s.buf ∧
          (pg ∈ s.memp.scrub → u.memp = { s.memp with scrub := if last then s.memp.scrub.erase pg else s.memp.scrub } ∧
            onlyRegs [aMemp 0] s { u with memp := s.memp }) ∧
          (pg ∉ s.memp.scrub → last = false → u.fld (aMemp 0x18) 25 0 = pg % 2 ^ 26 ∧ onlyRegs [aMemp 0, aMemp 0x18] s u) ∧
          (∀ p, pg ∉ s.memp.scrub → last = true → nextPage s pg = some p → u.fld (aMemp 0x18) 25 0 = p % 2 ^ 26 ∧
            onlyRegs [aMemp 0, aMemp 0x18] s u)) ∧
      (∀ x o j v, eccStore x.addr = 0 → wpPage s = some (eccPage x.addr) → unitRead s x = true →
        eccCls x = .corrected j v → ∃ u, exec (.woodpeckerBurst [x] none none none o) s = .next u ∧
        u.bit (aMemp 0) 29 = true ∧ u.buf = s.buf ∧
        (∀ a, a = aMemp (if o then 0x20 else 0x1C) → u.fld a 31 0 = min (s.fld a 31 0 + 1) (2 ^ 32 - 1)) ∧
        (eccIndex x.addr / 128 ∈ s.memp.scrub ∨ eccIndex x.addr % 128 / 8 ≠ 15 →
          ∀ a, a = aMemp (0x100 + 4 * eccClassOf x.addr) → u.fld a 31 0 = min (s.fld a 31 0 + 1) (2 ^ 32 - 1)))) ∧
    (∀ lim run, lim = s.fld (aMemp 4) 15 0 → run = (s.now - s.memp.lapAt) / 1000000 →
      ((lim = 0 ∨ run < lim * 60000 ∨ s.bit (aMemp 0) 30 = true) → exec .woodpeckerSlow s = .next s) ∧
      (lim ≠ 0 → lim * 60000 ≤ run → s.bit (aMemp 0) 30 = false → ∃ u, exec .woodpeckerSlow s = .next u ∧
        u.bit (aMemp 0) 30 = true ∧ regsAndNotices [aMemp 0] s u))

/-- KEY_LOAD to JOURNAL_RETRY. -/
def Obligations.KeysAreLoadedAndErased : Prop :=
  ∀ (s : State) (sett k i : Nat) (x : Slot), sett < 256 → k < 8 → i = 8 * sett + k → x = s.slot i →
    (∀ who a key, a = aSett sett (0x80 * k + 0x20) → key = skeyBytes s sett k →
      (settAllowed s who sett = false →
        exec (.keyLoad who sett k) s = .next (s.emit (.reply who a 1 .badField)) ∧
        exec (.slotErase who sett k) s = .next (s.emit (.reply who a 2 .badField)) ∧
        exec (.testOperation who sett) s = .next (s.emit (.reply who (aSett sett 0x404) 0x80000000 .badField))) ∧
      (settAllowed s who sett = true →
        ((∀ b ∈ key, b = 0) → exec (.keyLoad who sett k) s = .next (s.emit (.reply who a 1 .badField))) ∧
        ((∃ b ∈ key, b ≠ 0) → (held425 s = true ∨ x.state = 1 ∧ x.shadow ≠ none) →
          exec (.keyLoad who sett k) s = .next (s.emit (.reply who a 1 .storeBusy))) ∧
        ((∃ b ∈ key, b ≠ 0) → held425 s = false → (x.state = 1 → x.shadow = none) →
          ∃ u, exec (.keyLoad who sett k) s = .next u ∧ u.out = .reply who a 1 .ok :: s.out ∧ (u.slot i).state = 1 ∧
            (u.slot i).key = key ∧ (u.slot i).gen = (x.gen + 1) % 2 ^ 16 ∧ (u.slot i).sctr = x.sctr ∧
            (u.slot i).exhausted = x.exhausted ∧ (∀ j, j ≠ i → u.slot j = s.slot j) ∧
            (∀ j, j < 8 → u.reg (aSett sett (0x80 * k + 4 * j)) = 0) ∧
            ((u.slot i).shadow = (if x.state = 1 then some (x.gen, x.key) else x.shadow) ∨ (u.slot i).shadow = none)) ∧
        (∃ u, exec (.slotErase who sett k) s = .next u ∧ u.out.head? = some (.reply who a 2 .ok) ∧
          (x.state ≠ 1 → u.slot i = { x with gen := (x.gen + 1) % 2 ^ 16 } ∧ (∀ j, j ≠ i → u.slot j = s.slot j) ∧
            u = { s with regs := u.regs, slots := u.slots, out := u.out }) ∧
          (x.state = 1 → s.nq.cmds = [] → nsList s = [] →
            u.slot i = { x with state := 2, key := [], shadow := none, gen := (x.gen + 1) % 2 ^ 16 } ∧
            (∀ j, j ≠ i → u.slot j = s.slot j) ∧ (∀ j, j < 8 → u.reg (aSett sett (0x80 * k + 4 * j)) = 0))))) ∧
    (∀ y b, (y = Instr.eraseall ∧ b = 3 ∨ (∃ ns, y = .keyEraseNLow ns ∧ 100 ≤ ns ∧ b = 2 ∧ s.power.keyLow = false) ∨
        (∃ d, y = .temperatureAlarm d ∧ 1050 < d ∧ b = 1 ∧ s.power.hot = false) ∨
        (∃ rail mv ns, y = .glitchTrip rail mv ns ∧ rail < 7 ∧ 10 ≤ ns ∧ b = 0 ∧ s.power.porstLow = false ∧
          (mv + 40 < (railRange rail).1 ∨ (railRange rail).2 + 40 < mv) ∧ s.power.roseAt + ms 10 ≤ s.now)) →
      (s.power.boot = 0 → ∃ u, exec y s = .next u ∧ u.slots = s.slots ∧ u.regs = s.regs) ∧
      (s.power.boot ≠ 0 → s.power.deep ≠ .ps4 → s.nq.cmds = [] → nsList s = [] → ∃ u, exec y s = .next u ∧
        u.bit (aCiph 8) b = true ∧ ∀ j, j < 2048 → u.slot j =
          { s.slot j with state := 2, key := [], shadow := none, gen := ((s.slot j).gen + 1) % 2 ^ 16 })) ∧
    (∀ ns, (ns < 100 ∨ s.power.keyLow = true) → exec (.keyEraseNLow ns) s = .next s) ∧
    (∀ d, (d ≤ 1050 ∨ s.power.hot = true) → exec (.temperatureAlarm d) s = .next s) ∧
    (∀ rail mv ns, rail < 7 → (ns < 10 ∨ (railRange rail).1 ≤ mv + 40 ∧ mv ≤ (railRange rail).2 + 40 ∨
        s.power.porstLow = true ∨ s.now < s.power.roseAt + ms 10) → exec (.glitchTrip rail mv ns) s = .next s) ∧
    (∃ u, exec .keyEraseNRelease s = .next u ∧ u.power = { s.power with keyLow := false } ∧
      u.bit (aCiph 8) 31 = s.power.hot ∧ regsAndNotices [aCiph 8] s { u with power := s.power }) ∧
    (∀ d, (1050 < d → exec (.temperatureAlarmClear d) s = .next s) ∧
      (d ≤ 1050 → ∃ u, exec (.temperatureAlarmClear d) s = .next u ∧ u.power = { s.power with hot := false } ∧
        u.bit (aCiph 8) 31 = s.power.keyLow ∧ regsAndNotices [aCiph 8] s { u with power := s.power })) ∧
    (∀ who a t ctr lba iv aad data len, settAllowed s who sett = true → a = aSett sett → t = s.slot (8 * sett + s.fld (a 0x400) 2 0) →
      len = s.fld (a 0x40C) 6 0 → ctr = (s.reg (a 0x41C)).toNat * 2 ^ 32 + (s.reg (a 0x420)).toNat →
      lba = (s.reg (a 0x414)).toNat * 2 ^ 32 + (s.reg (a 0x418)).toNat →
      iv = ivOf (slotField (8 * sett + s.fld (a 0x400) 2 0) 0x1FFFFF) ctr → aad = aadOf (s.reg (a 0x410)).toNat lba ctr →
      data = settBytes s sett 0x440 16 →
      (∀ st, ((len = 0 ∨ 64 < len) ∧ st = .badLength ∨ len ≠ 0 ∧ len ≤ 64 ∧ t.state = 0 ∧ st = .slotEmpty ∨
          len ≠ 0 ∧ len ≤ 64 ∧ t.state ≠ 0 ∧ t.state ≠ 1 ∧ st = .keyErased) → exec (.testOperation who sett) s =
        .next ((s.setReg (a 0x408) (w32 st.code)).emit (.reply who (a 0x404) 0x80000000 st))) ∧
      (len ≠ 0 → len ≤ 64 → t.state = 1 → ∃ u, exec (.testOperation who sett) s = .next u ∧ u.slots = s.slots ∧
        (∀ r, s.bit (a 0x400) 8 = false → r = gcmSeal t.key iv aad (data.take len) →
          u.out = .reply who (a 0x404) 0x80000000 .ok :: s.out ∧ u.reg (a 0x408) = w32 Status.ok.code ∧
          (∀ j, j < 16 → u.reg (a (0x440 + 4 * j)) = beWord (r.1 ++ data.drop len) (4 * j)) ∧
          (∀ j, j < 4 → u.reg (a (0x480 + 4 * j)) = beWord r.2 (4 * j))) ∧
        (s.bit (a 0x400) 8 = true → gcmOpen t.key iv aad (data.take len) (settBytes s sett 0x480 4) = none →
          u.out = .reply who (a 0x404) 0x80000000 .authFail :: s.out ∧ u.reg (a 0x408) = w32 Status.authFail.code ∧
          (∀ j, j < 16 → u.reg (a (0x440 + 4 * j)) = 0)))) ∧
    (∀ ok, x.record = none → exec (.journalWriteDone sett k ok) s = .next s) ∧
    (∀ v, x.record = some v →
      (∃ u, exec (.journalWriteDone sett k true) s = .next u ∧ Tab.at 0 u.flash.journal i = v ∧
        u.slot i = { x with res := v, record := none, failed := false, waiting := false } ∧
        (∀ j, j ≠ i → u.slot j = s.slot j)) ∧
      (∃ u, exec (.journalWriteDone sett k false) s = .next u ∧ u.slot i = { x with failed := true } ∧
        (∀ j, j ≠ i → u.slot j = s.slot j) ∧ u.flash = s.flash ∧ (s.fld (aCiph 0xC) 1 0 ≠ 3 → u.fld (aCiph 0xC) 1 0 = 2))) ∧
    (x.failed = false → exec (.journalRetry sett k) s = .next s) ∧
    (x.failed = true → ∃ u, exec (.journalRetry sett k) s = .next u ∧ u.slot i = { x with failed := false } ∧
      (∀ j, j ≠ i → u.slot j = s.slot j))

/-- IRQ_SOURCE_EVENT to TARGET_IDLE. -/
def Obligations.SourcesAreClaimedAndCompleted : Prop :=
  ∀ (s : State) (ic n id : Nat), irqOn s ic → n < irqTargets ic → id ≤ 0x2FF →
    (srcReal s ic n id = false → exec (.irqSourceEvent ic n id) s = .next s ∧
      ∀ b, exec (.irqLevelFall ic n id b) s = .next s) ∧
    (srcReal s ic n id = true → srcLevel s ic n id = false → ∃ u, exec (.irqSourceEvent ic n id) s = .next u ∧
      irqsOnly s u ∧ (0x100 ≤ id → irqBit u ic 0x100 id = true) ∧ (id < 0x100 → id ∈ (u.target ic n).pend) ∧
      (∀ tn, tn = srcTarget s ic n id → eligible s ic tn id = true → s.bit (srcAddr ic n id) 30 = false →
        (u.target ic tn).req = true ∧
        u.out = if (s.target ic tn).req then s.out else .irq ic tn true :: s.out)) ∧
    (srcReal s ic n id = true → srcLevel s ic n id = true →
      ((0x100 ≤ id ∧ irqBit s ic 0x180 id = true ∨ id < 0x100 ∧ id ∈ (s.target ic n).level) →
        exec (.irqSourceEvent ic n id) s = .next s) ∧
      (0x100 ≤ id → irqBit s ic 0x180 id = false → ∃ u, exec (.irqSourceEvent ic n id) s = .next u ∧ irqsOnly s u ∧
        irqBit u ic 0x180 id = true ∧ irqBit u ic 0x100 id = (irqBit s ic 0x100 id || !(irqBit s ic 0x140 id))) ∧
      (id < 0x100 → id ∉ (s.target ic n).level → ∃ u, exec (.irqSourceEvent ic n id) s = .next u ∧ irqsOnly s u ∧
        id ∈ (u.target ic n).level) ∧
      (∀ w, ¬(0x100 ≤ id ∧ irqBit s ic 0x180 id = true ∨ id < 0x100 ∧ id ∈ (s.target ic n).level) →
        exec (.irqLevelFall ic n id w) s = .next s) ∧
      (∀ w, (0x100 ≤ id ∧ irqBit s ic 0x180 id = true ∨ id < 0x100 ∧ id ∈ (s.target ic n).level) →
        ∃ u, exec (.irqLevelFall ic n id w) s = .next u ∧ irqsOnly s u ∧
        (0x100 ≤ id → irqBit u ic 0x180 id = false ∧ irqBit u ic 0x100 id = false ∧
          (((ic, 0, id), true) ∈ u.irq.vanished ↔ irqBit s ic 0x140 id = true ∧ w = true ∧ ((ic, 0, id), false) ∉ s.irq.vanished)) ∧
        (id < 0x100 → id ∉ (u.target ic n).level ∧
          (((ic, n, id), true) ∈ u.irq.vanished ↔
            inService s ic n id = true ∧ w = true ∧ ((ic, n, id), false) ∉ s.irq.vanished)))) ∧
    (∀ who b, b = bestSource s ic n →
      (who ≠ .core ic n → exec (.claim who ic n) s = .next (s.emit (.reply who (aTgt ic n 0) (w32 b) .ok))) ∧
      (who = .core ic n → b = 0 → exec (.claim who ic n) s = .next
        (((s.setReg (aTgt ic n 0x24) 0).bump (aTgt ic n 0x1C)).emit (.reply who (aTgt ic n 0) 0 .ok))) ∧
      (who = .core ic n → b ≠ 0 → b ≤ 0x2FF → ∃ u, exec (.claim who ic n) s = .next u ∧ irqsOnly s u ∧
        u.out.head? = some (.reply who (aTgt ic n 0) (w32 b) .ok) ∧
        (u.target ic n).stack = (b, srcPrio s ic n b) :: (s.target ic n).stack ∧
        (0x100 ≤ b → irqBit u ic 0x140 b = true ∧ irqBit u ic 0x100 b = false) ∧ b ∉ (u.target ic n).pend)) ∧
    (∀ who r, r = Out.reply who (aTgt ic n 4) (w32 id) .ok →
      (who ≠ .core ic n → exec (.complete who ic n id) s =
        .next (s.emit (.reply who (aTgt ic n 4) (w32 id) .badField))) ∧
      (who = .core ic n → ∃ u, exec (.complete who ic n id) s = .next u ∧
        (∀ p rest, (s.target ic n).stack = (id, p) :: rest → irqsOnly s u ∧ u.out.head? = some r ∧
          (u.target ic n).stack = rest ∧ (∀ b, ((ic, if 0x100 ≤ id then 0 else n, id), b) ∉ u.irq.vanished) ∧
          (0x100 ≤ id → irqBit u ic 0x140 id = false ∧ irqBit u ic 0x100 id =
            (irqBit s ic 0x100 id || srcLevel s ic n id && irqBit s ic 0x180 id))) ∧
        (topId s ic n ≠ id ∨ (s.target ic n).stack = [] → (u.target ic n).stack = (s.target ic n).stack ∧
          u.bit (aTgt ic n 0x14) 31 = true ∧ (s.bit (aTgt ic n 0x14) 31 = true →
            u.reg (aTgt ic n 0x14) = s.reg (aTgt ic n 0x14)) ∧
          (s.bit (aTgt ic n 0x14) 31 = false → u.fld (aTgt ic n 0x14) 29 20 = id ∧
            u.fld (aTgt ic n 0x14) 19 10 = topId s ic n % 1024) ∧ .nmi ic n ∈ u.out))) ∧
    ((∀ e ∈ (s.target ic n).stack, e.1 ≤ 0x2FF) → ∃ u, exec (.stackClear ic n) s = .next u ∧ irqsOnly s u ∧
      (u.target ic n).stack = [] ∧ (∀ e ∈ (s.target ic n).stack, 0x100 ≤ e.1 → irqBit u ic 0x140 e.1 = false) ∧
      u.fld (aTgt ic n 0x14) 7 0 = min (s.fld (aTgt ic n 0x14) 7 0 + (s.target ic n).stack.length) 255) ∧
    (∀ w a, a = srcAddr ic n id → 1 ≤ id →
      (regRow s.part a = none → exec (.sourceConfigWrite ic n id w) s = .next (s.emit (.reply .engine a w .badField))) ∧
      (∀ r, regRow s.part a = some r → r.mask ≠ 0 → r.inRange w = true → ∃ u,
        exec (.sourceConfigWrite ic n id w) s = .next u ∧ u.reg a = (s.reg a &&& ~~~r.mask) ||| (w &&& r.mask) ∧
        onlyRegs [a] s { u with irq := s.irq, out := s.out } ∧ u.out.head? = some (.reply .engine a w .ok))) ∧
    (∀ w k, k = Sys2Proof.fld w 4 0 → ∃ u, exec (.doorbell ic n w) s = .next u ∧ irqsOnly s u ∧
      u.fld (aTgt ic n 0x20) 4 0 = k ∧ (srcReal s ic n (2 + k) = true → srcLevel s ic n (2 + k) = false →
        2 + k ∈ (u.target ic n).pend)) ∧
    (s.reg (aTgt ic n 0x28) = 0 → exec (.irqTimerExpire ic n) s = .next s) ∧
    (s.reg (aTgt ic n 0x28) ≠ 0 → ∃ u, exec (.irqTimerExpire ic n) s = .next u ∧ irqsOnly s u ∧ u.reg (aTgt ic n 0x28) = 0 ∧
      (srcReal s ic n 1 = true → srcLevel s ic n 1 = false → 1 ∈ (u.target ic n).pend)) ∧
    (((s.target ic n).since = none ∨ ∃ a, (s.target ic n).since = some a ∧ s.now < a + us (s.fld (aTgt ic n 0x10) 9 0)) →
      exec (.moderationTimeout ic n) s = .next s) ∧
    (∀ a, (s.target ic n).since = some a → a + us (s.fld (aTgt ic n 0x10) 9 0) ≤ s.now → ∃ u, exec (.moderationTimeout ic n) s = .next u ∧ irqsOnly s u ∧
      u.regs = s.regs ∧ (u.target ic n).req = decide (eligibles s ic n ≠ [])) ∧
    (∃ u, exec (.targetIdle ic n) s = .next u ∧ irqsOnly s u ∧ u.reg (aTgt ic n 0x24) = 1 ∧
      (u.target ic n).req = decide (eligibles s ic n ≠ []))

/-- SEND, FETCH, POLL, IGNORED_TRANSACTION, IDENT to POWER, and MGMT_ACCESS_TIMEOUT. -/
def Obligations.OperationsAreCheckedAndAct : Prop :=
  ∀ (s : State) (tag : Nat) (param : Payload) (s1 : State), s1 = irqFall { s with mgmt := { s.mgmt with waiting := [] } } 0 16 0x22 false →
    (portLive s = false → exec .poll s = .next s ∧ (∀ w, exec (.fetch w) s = .next s) ∧ (∀ p, exec (.send p) s = .next s) ∧
      ∀ n, n < 256 → exec (.ignoredTransaction n) s = .next s) ∧
    (portLive s = true →
      exec .poll s = .next { s.emit (.mdo [statusByte s]) with mgmt := { s.mgmt with err := false, event := false } } ∧
      (∀ n, n < 256 → exec (.ignoredTransaction n) s = .next (if n = 0x5E ∨ n = 0x5F ∨ n = 0x50 then s else
        ({ s with mgmt := { s.mgmt with err := true } } : State).bump (aMgt 0x60))) ∧
      (∀ w, s.mgmt.reply = none → exec (.fetch w) s = .next (s.emit (.mdo [0]))) ∧
      (∀ bs, s.mgmt.reply = some bs → exec (.fetch false) s = .next s ∧ (s.mgmt.rst = none →
        ∃ u, exec (.fetch true) s = .next u ∧ u.mgmt = { s.mgmt with reply := none } ∧ .mdo bs ∈ u.out ∧ mgmtOnly s u)) ∧
      (∀ p, s.mgmt.waiting = [] → s.power.deep = .awake → ∃ u, exec (.send p) s = .next u ∧ mgmtOnly s u ∧
        (portBusy s = true → u.mgmt = { s.mgmt with err := true } ∧
          u.fld (aMgt 0x60) 31 0 = min (s.fld (aMgt 0x60) 31 0 + 1) (2 ^ 32 - 1)) ∧
        (portBusy s = false → (packetOpOf .port p).opcode ≠ 0x25 →
          (noPacket p = true → u.mgmt = { s.mgmt with reply := none, busy := false, err := true }) ∧
          (noPacket p = false → packetStatus p ≠ .ok →
            opEnds u (packetOpOf .port p).opcode (packetOpOf .port p).tag (packetStatus p) []) ∧
          (noPacket p = false → packetStatus p = .ok → (packetOpOf .port p).opcode ∉ mgmtOps →
            opEnds u (packetOpOf .port p).opcode (packetOpOf .port p).tag .badOpcode []) ∧
          (noPacket p = false → packetStatus p = .ok → (packetOpOf .port p).opcode ∈ mgmtOps →
            u.mgmt = { s.mgmt with reply := none, busy := true, waiting := [packetOpOf .port p] })))) ∧
    (∀ x op bad, (x = Instr.ident tag param ∧ op = 1 ∧ bad = (param ≠ []) ∨ x = .version tag param ∧ op = 0x15 ∧ bad = (param ≠ []) ∨
        x = .regRead tag param ∧ op = 2 ∧ bad = (param.length ≠ 8) ∨ x = .regWrite tag param ∧ op = 3 ∧ bad = (param.length % 4 ≠ 0) ∨
        x = .stageClear tag param ∧ op = 0x10 ∧ bad = (param ≠ []) ∨ x = .stageWrite tag param ∧ op = 0x11 ∧ bad = (param.length ≤ 4) ∨
        x = .stageRead tag param ∧ op = 0x12 ∧ bad = (param.length ≠ 8) ∨ x = .commit tag param ∧ op = 0x13 ∧ bad = (param.length ≠ 8) ∨
        x = .revert tag param ∧ op = 0x14 ∧ bad = (param.length ≠ 4) ∨ x = .retire tag param ∧ op = 0x20 ∧ bad = (param.length ≠ 4) ∨
        x = .reinstate tag param ∧ op = 0x21 ∧ bad = (param.length ≠ 4) ∨ x = .keyErase tag param ∧ op = 0x24 ∧ bad = (param.length ≠ 4) ∨
        x = .power tag param ∧ op = 0x26 ∧ bad = (param.length ≠ 4) ∨ x = .calib tag param ∧ op = 0x23 ∧ bad = (param.length ≠ 4) ∨
        x = .maintEnter tag param ∧ op = 0x22 ∧ bad = (param.length ≠ 4 ∧ beAt param 1 1 ≠ 0) ∨
        x = .maintLeave tag param ∧ op = 0x22 ∧ bad = (param.length ≠ 4 ∧ beAt param 1 1 = 0)) →
      (s.mgmt.waiting = [⟨.port, op, tag, 0, param⟩] → s.power.boot < 6 → tag < 65536 → param.length ≤ 4096 →
        (op = 0x23 → s.mgmt.long = none) → exec x s = .next s) ∧
      (opReady s op tag param → bad → ∃ u, exec x s = .next u ∧ opEnds u op tag .badLength [] ∧ mgmtOnly s u) ∧
      (opReady s op tag param → ¬bad → flashUsable s = false → op ∈ [0x10, 0x13, 0x14] → ∃ u, exec x s = .next u ∧
        opEnds u op tag .storeBusy [] ∧ mgmtOnly s u)) ∧
    (param = [] →
      (opReady s 1 tag param → ∃ u, exec (.ident tag param) s = .next u ∧ mgmtOnly s u ∧
        opEnds u 1 tag .ok ([aHub 0, aHub 4, aMgt 0x24, aMgt 4].flatMap fun a => wordBytes (viewReg s1 a))) ∧
      (opReady s 0x15 tag param → ∃ u, exec (.version tag param) s = .next u ∧ mgmtOnly s u ∧ opEnds u 0x15 tag .ok
        (([4, 8, 0xC, 0x10, 0x18, 0x14] ++ (List.range 8).map fun t => 0x40 + 4 * t).flatMap fun o =>
          wordBytes (viewReg s1 (aMgt o)))) ∧
      (opReady s 0x10 tag param → flashUsable s = true → ∃ u, exec (.stageClear tag param) s = .next u ∧
        u.mgmt.long = some ⟨⟨.port, 0x10, tag, 0, param⟩, some .eraseStaged⟩ ∧ stagedState u = 2)) ∧
    (∀ a r b o, a = beAt param 0 4 → a % 4 = 0 → gateOf s1 a = .open_ → blkOf a = some (b, o) → plainBlk b = true →
      regRow s.part a = some r →
      (opReady s 2 tag param → param.length = 8 → beAt param 4 2 = 1 → beAt param 6 2 = 0 → ∃ u,
        exec (.regRead tag param) s = .next u ∧ opEnds u 2 tag .ok (wordBytes (viewReg s1 a))) ∧
      (opReady s 3 tag param → param.length = 8 → r.acc = .rw → fieldsOk s1 b o (beWord param 4) = true → ∃ u,
        exec (.regWrite tag param) s = .next u ∧ mgmtOnly s u ∧
        (r.inRange (beWord param 4) = false → opEnds u 3 tag .badField [] ∧ u.reg a = s1.reg a) ∧
        (r.inRange (beWord param 4) = true → opEnds u 3 tag .ok [] ∧
          ∀ i, i < 32 → (u.reg a).getLsbD i = if r.mask.getLsbD i then (beWord param 4).getLsbD i else (s1.reg a).getLsbD i))) ∧
    (∀ off bs, off = beAt param 0 4 → bs = param.drop 4 → opReady s 0x11 tag param → bs ≠ [] → ∃ u,
      exec (.stageWrite tag param) s = .next u ∧
      (16777216 < off + bs.length → opEnds u 0x11 tag .badField [] ∧ u.flash = s.flash) ∧
      (off + bs.length ≤ 16777216 → (flashUsable s = false ∨ stagedState s = 2) → opEnds u 0x11 tag .storeBusy [] ∧ u.flash = s.flash) ∧
      (off + bs.length ≤ 16777216 → flashUsable s = true → stagedState s ≠ 2 → u.mgmt.long = some ⟨⟨.port, 0x11, tag, 0, param⟩,
        some (.program off ((List.range bs.length).map fun i => flashByte s (stagedBase s + off + i) &&& bs.getD i 0))⟩)) ∧
    (∀ off n, off = beAt param 0 4 → n = beAt param 4 2 → opReady s 0x12 tag param → param.length = 8 → n ≠ 0 → n ≤ 4096 →
      beAt param 6 2 = 0 → off + n ≤ 16777216 → ∃ u, exec (.stageRead tag param) s = .next u ∧ mgmtOnly s u ∧
        (flashUsable s = true → opEnds u 0x12 tag .ok ((List.range n).map fun i => flashByte s (stagedBase s + off + i))) ∧
        (flashUsable s = false → opEnds u 0x12 tag .storeBusy [])) ∧
    (∀ x op rev st, (x = Instr.commit tag param ∧ op = 0x13 ∧ rev = false ∧ param.length = 8 ∧
          st = commitCheck s1 (beAt param 0 4) (beWord param 4) ∨
        x = .revert tag param ∧ op = 0x14 ∧ rev = true ∧ param.length = 4 ∧ st = revertCheck s1 (beAt param 0 4)) →
      opReady s op tag param → flashUsable s = true → ∃ u, exec x s = .next u ∧ mgmtOnly s u ∧
        (st ≠ .ok → opEnds u op tag st []) ∧
        (st = .ok → u.mgmt.long = some ⟨⟨.port, op, tag, 0, param⟩, some (.pointer rev)⟩)) ∧
    (∀ w k t c h r, w = beAt param 0 4 → unitWord w = (k, t, c, h, r) → param.length = 4 →
      (∀ x op, (x = Instr.retire tag param ∧ op = 0x20 ∨ x = .reinstate tag param ∧ op = 0x21) → opReady s op tag param →
        unitCheck s w ≠ .ok → ∃ u, exec x s = .next u ∧ opEnds u op tag (unitCheck s w) [] ∧ mgmtOnly s u) ∧
      (opReady s 0x20 tag param → unitCheck s w = .ok → ∃ u, exec (.retire tag param) s = .next u ∧
        (k < 5 → unitRetired s t k c h r = true → opEnds u 0x20 tag .ok [] ∧ mgmtOnly s u) ∧
        (k < 5 → unitRetired s t k c h r = false →
          u = resetHeads (finishOp (retire s1 t k c h r 0x0F) ⟨.port, 0x20, tag, 0, param⟩ .ok []))) ∧
      (opReady s 0x21 tag param → unitCheck s w = .ok → ∃ u, exec (.reinstate tag param) s = .next u ∧
        (inMaint s t = false → opEnds u 0x21 tag .badField [] ∧ mgmtOnly s u) ∧
        (inMaint s t = true → u = resetHeads (finishOp (reinstate s1 t k c h r) ⟨.port, 0x21, tag, 0, param⟩ .ok [])))) ∧
    (∀ t, t = beAt param 0 1 → param.length = 4 → t ≤ 7 → beAt param 2 2 = 0 → s.mgmt.accs = [] → opReady s 0x22 tag param →
      (beAt param 1 1 = 1 → ∃ u, exec (.maintEnter tag param) s = .next u ∧
        (s.hasTile t = false → opEnds u 0x22 tag .domainOff []) ∧ (s.hasTile t = true → u.bit (aMgt 0x20) t = true ∧
          ((inMaint s t = true ∨ tileQuiet s t = true) → opEnds u 0x22 tag .ok []) ∧
          (inMaint s t = false → tileQuiet s t = false → u.mgmt.long = some ⟨⟨.port, 0x22, tag, 0, param⟩, none⟩))) ∧
      (beAt param 1 1 = 0 → s.hasTile t = true → (inMaint s t = false ∨ s.domOn (domMo t) = false ∧ Tab.at 0 s.power.bring t = 0) →
        ∃ u, exec (.maintLeave tag param) s = .next u ∧ u.bit (aMgt 0x20) t = false ∧ opEnds u 0x22 tag .ok [])) ∧
    (∀ t b c m vs, t = beAt param 0 1 → b = beAt param 1 1 → c = b % 4 → m = ⟨.port, 0x23, tag, 0, param⟩ →
      vs = ((List.range 4).flatMap fun k => (List.range 24).flatMap fun h => wordBytes (s.reg (aWrtC t k (0x100 + 16 * h)))) →
      param.length = 4 → t ≤ 7 → b ≤ 127 →
      (opReady s 0x23 tag param → b < fmtBands s t → beAt param 2 2 = 0 → s.hasTile t = true → inMaint s t = true →
        tileRetired s t = false → spnState s t = 6 → ∃ u, exec (.calib tag param) s = .next u ∧
        ((s.domOn (domCh t) = false ∨ tCluster s t c = true ∨ ctlMode s t c ∉ [3, 4, 5]) → opEnds u 0x23 tag .ok vs) ∧
        (s.domOn (domCh t) = true → tCluster s t c = false → ctlMode s t c ∈ [3, 4, 5] → clusterIdle s t c = true →
          u.mgmt.long = some ⟨m, none⟩ ∧ calJob u t c = ⟨[b], 1⟩ ∧ (u.wr t).inQ = (s.wr t).inQ ++
            ((List.range 24).filter (calHead s t c)).map fun h : Nat =>
              (⟨mkPsa t c h (calTrack s t b 0) 0, .calib, false, 0, 0, 0, 0, [], [], 0, false, 0, false⟩ : WrEnt))) ∧
      (s.mgmt.long = some ⟨m, none⟩ → s.mgmt.waiting = [] → tag < 65536 → (∀ k, k < 4 → k ≠ c → calJob s t k = CalJob.none) →
        calJob s t c = ⟨[b], 5⟩ → zoneOfBand s t b ∈ trainedZones s t c → ∃ u, exec (.calib tag param) s = .next u ∧
          calJob u t c = CalJob.none ∧ u.mgmt.long = none ∧ opEnds u 0x23 tag .ok vs)) ∧
    (opReady s 0x24 tag param → param.length = 4 → ∃ u, exec (.keyErase tag param) s = .next u ∧
      (beAt param 0 4 ≠ 0x45524153 → opEnds u 0x24 tag .badField [] ∧ mgmtOnly s u) ∧
      (beAt param 0 4 = 0x45524153 → s.nq.cmds = [] → nsList s = [] → opEnds u 0x24 tag .ok [] ∧ u.bit (aCiph 8) 3 = true ∧
        ∀ i, i < 2048 → (u.slot i).state = 2 ∧ (u.slot i).key = [])) ∧
    (∀ g b, g = beAt param 0 1 → b = beAt param 1 1 → opReady s 0x26 tag param → param.length = 4 → g ≤ 3 → b ≤ 7 →
      beAt param 2 2 = 0 → s.mgmt.accs = [] → ∃ u, exec (.power tag param) s = .next u ∧ (s.hasTile b = false → opEnds u 0x26 tag .domainOff []) ∧
        (s.hasTile b = true → tileTarget u b = g ∧ (tileTarget s b = g → pwrTile s b = g → moving s b = false →
          opEnds u 0x26 tag .ok [] ∧ mgmtOnly s u))) ∧
    (∀ t, s.hasTile t = true →
      (s.mgmt.waiting = [] → s.mgmt.accs = [] → exec (.mgmtAccessTimeout t) s = .next s) ∧
      (∀ who a w, s.mgmt.waiting = [] → s.mgmt.accs = [⟨who, a, some w, []⟩] → tileBase t ≤ a → a < tileBase (t + 1) →
        gateOf s a = .wait → exec (.mgmtAccessTimeout t) s =
          .next ({ s with mgmt := { s.mgmt with accs := [] } }.emit (.reply who a w .storeBusy))) ∧
      (∀ a, s.mgmt.accs = [] → opReady s 2 tag param → param.length = 8 → beAt param 4 2 = 1 → beAt param 6 2 = 0 →
        a = beAt param 0 4 → a % 4 = 0 → tileBase t ≤ a → a < tileBase (t + 1) → gateOf s a = .wait → ∃ u,
          exec (.regRead tag param) s = .next u ∧ u.mgmt.waiting = s.mgmt.waiting ∧ mgmtOnly s u ∧ ∃ v,
          exec (.mgmtAccessTimeout t) s = .next v ∧ opEnds v 2 tag .storeBusy (wordBytes 0) ∧ mgmtOnly s v))

/-- AGREEMENT_CHECK to TILE_BRING_IN_STEP, with SUPPLY_LOSS and TEST_ENABLE. -/
def Obligations.DeviceResetsAndBoots : Prop :=
  ∀ (s : State),
    ((executorFree s = false ∨ ∀ t ∈ s.tiles, agreementDue s t = false) → exec .agreementCheck s = .next s) ∧
    (∀ t, executorFree s = true → s.tiles.filter (agreementDue s) = [t] → t < 8 → tileAgrees s t = true → s.linkUp t = true →
      ∃ u, exec .agreementCheck s = .next u ∧ u.fld (aVer t) 31 30 = 1 ∧ Tab.at 0 u.mgmt.fails t = 0 ∧
        u.linkState t = s.linkState t) ∧
    (∀ ok, exec (.optimeWrite ok) s = .next (if ok = true ∧ s.fld (aMgt 0x28) 31 28 = 1 then
      { s with flash := { s.flash with optime := (s.reg (aMgt 0x30)).toNat } } else s)) ∧
    (∀ ok, s.mgmt.waiting = [] →
      (s.mgmt.long = none → stagedState s ≠ 2 → exec (.flashOperationDone ok) s = .next s) ∧
      (s.mgmt.long = none → stagedState s = 2 → ∃ u, exec (.flashOperationDone ok) s = .next u ∧
        stagedState u = (if ok then 0 else 3)) ∧
      (∀ m f, s.mgmt.long = some ⟨m, some f⟩ → m.route = .port → ∃ u, exec (.flashOperationDone ok) s = .next u ∧
        (f = .eraseStaged → stagedState u = (if ok then 0 else 3) ∧ u.mgmt.long = none ∧
          opEnds u m.opcode m.tag (if ok then .ok else .storeBusy) []) ∧
        (∀ off bs, f = .program off bs → stagedState s ≠ 2 → u.mgmt.long = none ∧
          opEnds u m.opcode m.tag (if ok then .ok else .storeBusy) [] ∧
          (ok = true → stagedState u = 1 ∧ ∀ i b, bs[i]? = some b → flashByte u (stagedBase s + off + i) = b)) ∧
        (∀ r, f = .pointer r → stagedState s ≠ 2 → ok = false → u.mgmt.long = none ∧
          opEnds u m.opcode m.tag .storeBusy []))) ∧
    (s.mgmt.rst = none → exec .resetStart s = .next s) ∧
    ((s.power.boot < 6 ∨ s.power.deep = .ps4) → exec .hubSoftReset s = .next s) ∧
    (∀ x, (x = Instr.hubSoftReset ∧ 6 ≤ s.power.boot ∧ s.power.deep ≠ .ps4 ∨ x = .resetStart ∧ ∃ t, s.mgmt.rst = some (1, t)) →
      ∃ u, exec x s = .next u ∧ u.nq.cmds = [] ∧ u.mgmt.waiting = [] ∧ u.mgmt.long = none ∧ u.fld (aPwr 0x1C) 3 0 = 3) ∧
    (∀ t, s.hasTile t = true → ((s.power.boot < 9 ∨ s.power.deep ≠ .awake) → exec (.tileReset t) s = .next s) ∧
      (9 ≤ s.power.boot → s.power.deep = .awake → exec (.tileReset t) s = .next (settle (tileReset s t)))) ∧
    (∀ x b, (x = Instr.powerOn ∧ b = (if s.power.testEn then 0 else 1) ∨ (∃ o, x = .supplyLoss o) ∧ b = 0 ∨
        (∃ h, x = .testEnable h ∧ s.power.testEn ≠ h ∧ b = if h then 0 else 1)) → ∃ u, exec x s = .next u ∧
      u.regs = [] ∧ u.slots = [] ∧ u.nq.cmds = [] ∧ u.buf = Buf.reset ∧ u.tl = TileSide.reset ∧ u.power.boot = b ∧
      u.nq.zones = s.nq.zones ∧ u.nq.recorded = s.nq.recorded ∧ u.nq.reached = s.nq.recorded ∧ u.now = s.now ∧
      u.power.pfailLow = s.power.pfailLow ∧ u.power.keyLow = s.power.keyLow ∧
      u.flash = { s.flash with optime := u.flash.optime } ∧ ((∀ o, x ≠ .supplyLoss o) → u.flash = s.flash)) ∧
    (∀ h, s.power.testEn = h → exec (.testEnable h) s = .next s) ∧
    (∀ ns, (ns < 1000 ∨ s.power.testEn = true ∨ s.power.boot = 0) →
      exec (.porstN ns) s = .next s ∧ exec (.warmN ns) s = .next s) ∧
    (∀ ns, 1000 ≤ ns → s.power.testEn = false → s.power.boot ≠ 0 →
      (s.power.porstLow = true → exec (.warmN ns) s = .next { s with power := { s.power with warmLow := true } }) ∧
      (∀ x k, (x = Instr.porstN ns ∧ k = 1 ∨ x = .warmN ns ∧ k = 2 ∧ s.power.porstLow = false) → loadedTiles s = [] →
        s.owl.wins = [] → ∃ u, exec x s = .next u ∧ u.power.boot = 1 ∧ u.power.kind = k ∧ u.nq.cmds = [] ∧ u.buf = Buf.reset ∧
          u.mgmt.waiting = [] ∧ u.mgmt.long = none ∧ (∀ i, (u.slot i).key = [] ∧ (u.slot i).state = 0) ∧
          u.fld (aPwr 0x1C) 3 0 = k ∧ (k = 1 → u.power.porstLow = true) ∧ (k = 2 → u.power.warmLow = true) ∧
          u.flash = s.flash ∧ u.nq.recorded = s.nq.recorded)) ∧
    (∀ ok, s.power.testEn = true → exec (.bootStep ok) s = .next s) ∧
    (∀ b, b = s.power.boot → s.power.testEn = false → 1 ≤ b → b ≤ 8 → s.mgmt.long = none → s.mgmt.accs = [] → s.power.bring = [] →
      s.power.goal = [] →
      (b ≠ 3 → exec (.bootStep false) s = .next s) ∧
      (∀ ok, b = 3 → ∃ u, exec (.bootStep ok) s = .next u ∧ u.power.boot = 4 ∧
        (u.fld (aMgt 0x28) 31 28 = 1 ↔ ok = true) ∧ u.free = s.free + 1) ∧
      (∃ u, exec (.bootStep true) s = .next u ∧ (b ≤ 7 → u.power.boot = b + 1) ∧
        (b = 1 → u.power.porstLow = false ∧ u.power.warmLow = false ∧ u.power.roseAt = s.now) ∧
        (b = 2 → u.domOn 1 = true) ∧ (b = 6 → u.domOn 3 = true ∧ u.power.calibrated = true) ∧ (b = 7 → u.domOn 2 = true) ∧
        (b = 8 → s.bit (aMgt 0) 14 = true → (u.power.boot = 9 ∨ u.power.boot = 10) ∧
          ∀ t ∈ s.tiles, tileTarget u t = s.fld (aPwr 4) 27 24))) ∧
    (∀ t b cs, s.hasTile t = true → b = bringOf s t → s.mgmt.long = none → s.mgmt.accs = [] → s.power.boot = 10 →
      (∀ k ∈ s.tiles, tileRetired s k = false) →
      (∀ ok, (b = 0 ∨ b = 1) → exec (.tileBringInStep t ok cs) s = .next s) ∧
      exec (.tileBringInStep t false cs) s = .next s ∧
      (b = 3 → (speedOk s t 0 = false ∨ spnState s t ≠ 6) → exec (.tileBringInStep t true cs) s = .next s) ∧
      (b = 3 → speedOk s t 0 = true → spnState s t = 6 → aimOf s t = 2 → ∃ u, exec (.tileBringInStep t true cs) s = .next u ∧
        bringOf u t = 0 ∧ goalOf u t = none ∧ pwrTile u t = 2) ∧
      (b = 4 → exec (.tileBringInStep t true cs) s = .next (setBring s t 5)) ∧
      (b = 8 → exec (.tileBringInStep t true cs) s =
        .next (setBring s t (if s.fld (aTile t 0x108) 1 0 = 1 then 6 else 5))) ∧
      (b = 5 → hasFormat s t = true → trainedTo s t 1 = false → exec (.tileBringInStep t true cs) s = .next s) ∧
      (b = 5 → (hasFormat s t = false ∨ trainedTo s t 1 = true) → ∃ u, exec (.tileBringInStep t true cs) s = .next u ∧
        (∀ c h w, formatHead s t cs = some (c, h, w) → c < 4 → h < 24 → u.fld (aTile t 0x108) 15 14 = c ∧
          u.fld (aTile t 0x108) 12 8 = h ∧
          (slice w 16 280 = recordWords s t → bringOf u t = 6 ∧ u.fld (aTile t 0x108) 1 0 = 1) ∧
          (slice w 16 280 ≠ recordWords s t → bringOf u t = 0 ∧ goalOf u t = none ∧ u.fld (aTile t 0x108) 1 0 = 2)) ∧
        (formatHead s t cs = none → bringOf u t = 0 ∧ goalOf u t = none ∧ u.fld (aTile t 0x108) 1 0 = 3)) ∧
      (b = 6 → trainedTo s t (fmtZones s t) = false → exec (.tileBringInStep t true cs) s = .next s) ∧
      (b = 6 → trainedTo s t (fmtZones s t) = true → ∃ u, exec (.tileBringInStep t true cs) s = .next u ∧ bringOf u t = 0 ∧
        goalOf u t = none ∧ pwrTile u t = aimOf s t ∧
        (aimOf s t ≠ 1 → ∀ l, l < 192 → laneSt s t l = 0 → tLane s t l = false → laneSt u t l ∈ [1, 3])))

/-- POWER_TRANSITION_STEP, IDLE_RETURN, WAKE_N, WAKE_TIMER and the Owl's commands. -/
def Obligations.PowerMovesAndOwlRecords : Prop :=
  ∀ (s : State),
    (∀ t, s.hasTile t = true → s.mgmt.long = none → s.mgmt.accs = [] → s.power.boot = 10 → (∀ k ∈ s.tiles, tileRetired s k = false) →
      ((goalOf s t = none ∨ bringOf s t ≠ 0) → exec (.powerTransitionStep t) s = .next s) ∧
      (∀ g, goalOf s t = some g → bringOf s t = 0 →
        (pwrTile s t = 1 → 1 < g → (tileQuiet s t = false ∨ dirtyOn s t = true ∨ unrecorded s t = true) →
          exec (.powerTransitionStep t) s = .next s) ∧
        (pwrTile s t = 0 → g = 1 → (∀ l, l < 192 → laneSt s t l = 0 ∨ laneSt s t l = 7) → Tab.at [] s.buf.held t = [] →
          ∃ u, exec (.powerTransitionStep t) s = .next u ∧ pwrTile u t = 1 ∧ goalOf u t = none) ∧
        (pwrTile s t = 2 → g < 2 → (speedOk s t 0 = false ∨ spnState s t ≠ 6) →
          exec (.powerTransitionStep t) s = .next s) ∧
        (pwrTile s t = 3 → g < 3 → exec (.powerTransitionStep t) s = .next (settle (setBring (moOn s t) t 1))))) ∧
    (s.mgmt.long = none → s.mgmt.accs = [] → s.power.boot = 10 → (∀ k ∈ s.tiles, tileRetired s k = false) →
      (s.power.deep = .awake → exec (.powerTransitionStep 8) s = .next s) ∧
      (∀ w, s.power.deep = .entering w → assocIds s = [] → s.buf.encrypt ≠ [] → exec (.powerTransitionStep 8) s = .next s) ∧
      (∀ w, s.power.deep = .entering w → assocIds s = [] → s.buf.encrypt = [] → (∀ e ∈ s.buf.cipherIn, e.2 = []) →
        ∃ u, exec (.powerTransitionStep 8) s = .next u ∧ u.reg (aPwr 0xC) = 1 ∧ u.power.deepAt = s.now ∧
          u.power.deep = (if w = none then .ps4 else .leaving))) ∧
    (∀ t n, s.hasTile t = true → n = s.fld (aPwr 4) 15 8 →
      ((t ∉ s.power.auto ∨ n = 0 ∨ moving s t = true ∨ s.now < Tab.at 0 s.power.lastReq t + ms (1000 * n)) →
        exec (.idleReturn t) s = .next s) ∧
      (t ∈ s.power.auto → n ≠ 0 → moving s t = false → Tab.at 0 s.power.lastReq t + ms (1000 * n) ≤ s.now →
        ∃ u, exec (.idleReturn t) s = .next u ∧ t ∉ u.power.auto ∧ (pwrTile s t < aimOf s t → goalOf u t = some (aimOf s t)) ∧
          u = { s with power := u.power })) ∧
    (∀ x k ok, ((∃ ns, x = Instr.wakeN ns ∧ k = 2 ∧ ok = (1000 ≤ ns ∧ s.power.testEn = false ∧ s.bit (aPwr 0x14) 31 = true)) ∨
        x = .wakeTimer ∧ k = 3 ∧ ok = (s.fld (aPwr 0x14) 23 0 ≠ 0 ∧ s.power.deep = .ps4 ∧
          s.power.deepAt + ms (1000 * s.fld (aPwr 0x14) 23 0) ≤ s.now)) →
      ((¬ok ∨ s.power.deep = .awake) → exec x s = .next s) ∧
      (ok → s.power.deep = .ps4 → ∃ u, exec x s = .next u ∧ u.power = { s.power with deep := .leaving } ∧
        u.fld (aPwr 0x18) 3 0 = k ∧ onlyRegs [aPwr 0x18] s { u with power := s.power }) ∧
      (ok → s.power.deep = .entering none →
        exec x s = .next { s with power := { s.power with deep := .entering (some k) } })) ∧
    (∀ code die unit st cause d0 d1 e, die ≤ 8 → e = owlStamp s code die unit st cause d0 d1 →
      (die ≠ 0 → s.hasTile (die - 1) = false →
        exec (.owlEvent code die unit st cause d0 d1 (decide (die ≠ 0))) s = .next s) ∧
      ((die = 0 ∨ s.hasTile (die - 1) = true ∧ s.linkUp (die - 1) = true) → ∃ u,
        exec (.owlEvent code die unit st cause d0 d1 (decide (die ≠ 0))) s = .next u ∧
        (s.owl.queue.length < 64 → u = { s with owl := { s.owl with queue := s.owl.queue ++ [e] } }) ∧
        (64 ≤ s.owl.queue.length → u.owl.queue = s.owl.queue ∧ Tab.at 0 u.owl.carry die = Tab.at 0 s.owl.carry die + 1 ∧
          u.fld (aOwl 0x1C) 31 0 = min (s.fld (aOwl 0x1C) 31 0 + 1) (2 ^ 32 - 1))) ∧
      (die ≠ 0 → s.hasTile (die - 1) = true → s.linkUp (die - 1) = false → ∃ u,
        exec (.owlEvent code die unit st cause d0 d1 (decide (die ≠ 0))) s = .next u ∧ u.owl.queue = s.owl.queue ∧
        Tab.at [] u.owl.held (die - 1) = (if (Tab.at [] s.owl.held (die - 1)).length < 32 then
          Tab.at [] s.owl.held (die - 1) ++ [{ e with late := true }] else Tab.at [] s.owl.held (die - 1)) ∧
        Tab.at 0 u.owl.heldLost (die - 1) = Tab.at 0 s.owl.heldLost (die - 1) +
          (if (Tab.at [] s.owl.held (die - 1)).length < 32 then 0 else 1))) ∧
    (∀ i, (s.owl.wins.length ≤ i → exec (.mergeWindowEnd i) s = .next s) ∧
      (∀ w, s.owl.wins[i]? = some w → (w.count = 0 →
          exec (.mergeWindowEnd i) s = .next { s with owl := { s.owl with wins := s.owl.wins.eraseIdx i } }) ∧
        (w.count ≠ 0 → (s.bit (aOwl 0) 31 = false ∨ s.owl.carry = [] ∧ owlBlocked s = false) → ∃ u,
          exec (.mergeWindowEnd i) s = .next u ∧ u.owl.next = (s.owl.next + s.owl.carry.length + 1) % 2 ^ 32 ∧ u.owl.wins = s.owl.wins.eraseIdx i ++ [⟨w.ev, 0, s.now⟩]))) ∧
    (s.owl.clearing ≠ none → exec .owlClear s = .next (s.emit (.reply .port (aOwl 4) 1 .storeBusy))) ∧
    (s.owl.clearing = none → exec .owlClear s = .next { s.emit (.reply .port (aOwl 4) 1 .ok) with
      owl := { s.owl with ring := [], bad := [], count := 0, wins := [], clearing := some s.owl.count } }) ∧
    (∀ w, s.owl.queue.length < 64 → ∃ u, exec (.firmwareRecord w) s = .next u ∧ u.fld (aOwl 0x4C) 11 0 = Sys2Proof.fld w 11 0 ∧
      ∃ e, u.owl.queue = s.owl.queue ++ [e] ∧ e.code = 0xF000 + Sys2Proof.fld w 11 0 ∧ e.die = 0 ∧
        e.unit = (s.reg (aOwl 0x40)).toNat ∧ e.d0 = (s.reg (aOwl 0x44)).toNat ∧ e.d1 = (s.reg (aOwl 0x48)).toNat) ∧
    (∀ w, ∃ u, exec (.cursorWrite w) s = .next u ∧ u.reg (aOwl 0x14) = w ∧ u.bit (aOwl 8) 30 = false ∧
      onlyRegs [aOwl 0x14, aOwl 8] s u) ∧
    (∃ u, exec .windowReadAdvance s = .next u ∧ u.out = .reply .port (aOwl 0x13C) (viewReg s (aOwl 0x13C)) .ok :: s.out ∧
      onlyRegs [aOwl 0x14] s { u with out := s.out } ∧
      u.reg (aOwl 0x14) = if s.bit (aOwl 0x18) 0 then s.reg (aOwl 0x14) + 1 else s.reg (aOwl 0x14)) ∧
    (∃ u, exec .owlRecordComplete s = .next u ∧
      (∀ n e, s.owl.clearing = some n → owlBlocked s = false → e = owlStamp s 0x0001 0 0 0 0 n 0 →
        u.owl.clearing = none ∧ u.owl.next = (s.owl.next + 1) % 2 ^ 32 ∧ u.mgmt.event = true ∧
        u.owl.count = min (s.owl.count + 1) 4096 ∧ u.owl.queue = s.owl.queue) ∧
      (∀ die n rest, s.owl.clearing = none → owlBlocked s = false → s.owl.carry = (die, n) :: rest →
        u.owl.carry = rest ∧ u.owl.next = (s.owl.next + 1) % 2 ^ 32 ∧ u.owl.queue = s.owl.queue ∧
        Tab.at [] u.owl.ring (s.owl.next % 4096) = owlBytes { s with owl := { s.owl with carry := rest } }
          { owlStamp s 0x0003 0 0 0 0 n 0 with die := die } none) ∧
      (s.owl.clearing = none → s.owl.carry = [] → s.owl.queue = [] → u = s) ∧
      (∀ e q, s.owl.clearing = none → s.owl.carry = [] → s.owl.queue = e :: q → owlBlocked s = false →
        ((s.fld (aOwl 0) 15 0 = 0 ∨ owlClass e.code = 0) → u.owl.queue = q ∧ u.owl.wins = s.owl.wins ∧
          Tab.at [] u.owl.ring (s.owl.next % 4096) = owlBytes { s with owl := { s.owl with queue := q } } e none ∧
          u.owl.next = (s.owl.next + 1) % 2 ^ 32) ∧
        (s.fld (aOwl 0) 15 0 ≠ 0 → owlClass e.code ≠ 0 → (∃ w ∈ s.owl.wins, owlSame w.ev e = true) →
          u.owl.queue = q ∧ u.owl.next = s.owl.next ∧ u.owl.wins = s.owl.wins.map (fun w =>
            if owlSame w.ev e then { w with ev := e, count := w.count + 1 } else w) ∧
          u.fld (aOwl 0x20) 31 0 = min (s.fld (aOwl 0x20) 31 0 + 1) (2 ^ 32 - 1))))

/-- TAP_RESET to BYPASS. -/
def Obligations.TestPortActsInReset : Prop :=
  ∀ (s : State) (byp : State) (ir : Out), ir = .tdo [true, false, false, false, false, false, false, false] →
    byp = { s with tap := { s.tap with instr := 0xFF, drive := false, float := false }
                   out := .tdo [false] :: ir :: s.out } →
    exec .tapReset s = .next { s with tap := { s.tap with instr := 2, drive := false, float := false } } ∧
    (s.power.porstLow = true →
      exec .extest s = .next { s with tap := { s.tap with instr := 0, drive := true, float := false }, out := ir :: s.out } ∧
      exec .highz s = .next { s with tap := { s.tap with instr := 3, drive := false, float := true }
                                     out := .tdo [false] :: ir :: s.out } ∧
      exec .clamp s = .next { s with tap := { s.tap with instr := 4, drive := true, float := false }
                                     out := .tdo [false] :: ir :: s.out }) ∧
    (s.power.porstLow = false → exec .extest s = .next byp ∧ exec .highz s = .next byp ∧ exec .clamp s = .next byp) ∧
    (∀ cs ls, exec (.samplePreload cs ls) s = .next { s with tap := ⟨1, ls, false, false⟩, out := .tdo cs :: ir :: s.out }) ∧
    (∃ u id, exec .idcode s = .next u ∧ u = { s with tap := { s.tap with instr := 2, drive := false, float := false }
                                                     out := .tdo ((List.range 32).map fun i => Nat.testBit id i) :: ir :: s.out } ∧
      (s.part = .zh7680 → id = 0x17680A5F) ∧ (s.part = .zh7640 → id = 0x17640A5F) ∧
      (s.part = .zh7620 → id = 0x17620A5F) ∧ (s.part = .zh7610 → id = 0x17610A5F)) ∧
    (∀ c, c < 256 → exec (.bypass c) s = .next (if c ≤ 4 then s else byp))

/-- R9. -/
def Obligations.SectorAddressLayout : Prop :=
  (∀ (t c h track sector p : Nat), t < 8 → c < 4 → h < 24 → track < 2 ^ 24 → sector < 2 ^ 14 →
    p = mkPsa t c h track sector → p < 2 ^ 48 ∧ p >>> 45 = t ∧ (p >>> 43) % 4 = c ∧ (p >>> 38) % 32 = h ∧
      (p >>> 14) % 2 ^ 24 = track ∧ p % 2 ^ 14 = sector ∧
      psaTile p = t ∧ psaCluster p = c ∧ psaHead p = h ∧ psaTrack p = track ∧ psaSector p = sector) ∧
  (∀ p, p < 2 ^ 48 → mkPsa (psaTile p) (psaCluster p) (psaHead p) (psaTrack p) (psaSector p) = p)

/-- R63. -/
def Obligations.HeaderCheckIsTheRemainder : Prop :=
  ∀ (bit : BitVec 16 → Bool → BitVec 16) (bits : Payload → List Bool),
    bit = (fun (c : BitVec 16) (b : Bool) => (c <<< 1) ^^^ (if c.getLsbD 15 != b then 0x1021#16 else 0#16)) →
    bits = (fun (bs : Payload) => bs.flatMap fun x => (List.range 8).map fun i => x.getLsbD (7 - i)) →
    (∀ bs, crc16 bs = (bits bs).foldl bit 0xFFFF#16) ∧
    (∀ xs ys : Payload, xs.length = ys.length →
      crc16 xs ^^^ crc16 ys = (bits (List.zipWith (fun x y => x ^^^ y) xs ys)).foldl bit 0#16) ∧
    (∀ s psa blank sys, (headerOf s psa blank sys).drop 14 = beBytes 2 (crc16 ((headerOf s psa blank sys).take 14)).toNat)
end

