-- ==== Sys2Proof/Laws/Bits.lean ====
section
/-! SUPPORT. What bytes and flits say: a number written in bytes reads back, and a flit that the device forms
passes its check and carries its fields. -/

namespace Sys2Proof.Machine

@[simp] theorem beBytes_length (n x : Nat) : (beBytes n x).length = n := by
  induction n with
  | zero => rfl
  | succ n ih => simp [beBytes, ih]

theorem beNat_foldl (n x a : Nat) :
    (beBytes n x).foldl (fun a b => a * 256 + b.toNat) a = a * 256 ^ n + x % 256 ^ n := by
  induction n generalizing a with
  | zero => simp [beBytes, Nat.mod_one]
  | succ n ih =>
    have e : x % 256 ^ (n + 1) = x % 256 ^ n + 256 ^ n * (x / 256 ^ n % 256) := by
      rw [Nat.pow_succ, Nat.mod_mul]
    have d : 256 ^ (n + 1) = 256 ^ n * 256 := rfl
    rw [beBytes, List.foldl_cons, ih, e, BitVec.toNat_ofNat, d, show (256 : Nat) = 2 ^ 8 from rfl, Nat.add_mul,
      Nat.mul_assoc, Nat.mul_comm (2 ^ 8) (_ ^ n), Nat.mul_comm (_ % _) (_ ^ n)]
    omega

theorem beNat_beBytes (n x : Nat) : beNat (beBytes n x) = x % 256 ^ n := by
  unfold beNat
  rw [beNat_foldl]
  simp

/-- The fields of a flit stand before its check. -/
theorem flitOf_ok (seq chan ack ret total : Nat) (p : Payload) (h : p.length = 240) :
    flitOk (flitOf seq chan ack ret total p) = true := by
  unfold flitOk flitOf beAt slice
  simp only [List.length_append, beBytes_length, h, Bool.and_eq_true, decide_eq_true_eq]
  refine ⟨trivial, ?_⟩
  rw [List.drop_left' (by simp [h]), List.take_left' (by simp [h]), List.take_of_length_le (by simp), beNat_beBytes,
    Nat.mod_eq_of_lt]
  exact (Config.flitCrc _).isLt

theorem flitOf_head (seq chan ack ret total : Nat) (p : Payload) :
    beAt (flitOf seq chan ack ret total p) 0 4 = seq % 4096 * 2 ^ 20 + chan % 4 * 2 ^ 18 + ack % 4096 * 2 ^ 6 := by
  unfold flitOf beAt slice
  simp only [List.append_assoc, List.drop_zero]
  rw [List.take_left' (by simp), beNat_beBytes]
  omega

theorem flitOf_credit (seq chan ack ret total : Nat) (p : Payload) :
    beAt (flitOf seq chan ack ret total p) 4 4 = ret % 4 * 2 ^ 30 + total % 65536 * 2 ^ 14 := by
  unfold flitOf beAt slice
  simp only [List.append_assoc]
  rw [List.drop_left' (by simp), List.take_left' (by simp), beNat_beBytes]
  omega

theorem flitOf_seq (seq chan ack ret total : Nat) (p : Payload) :
    flitSeq (flitOf seq chan ack ret total p) = seq % 4096 := by
  unfold flitSeq
  rw [flitOf_head]
  omega

end Sys2Proof.Machine
end

