-- ==== Sys2Proof/Laws/Tab.lean ====
section
/-! SUPPORT. Sparse tables: reading what was written, and the canonical form that every operation keeps. -/

namespace Sys2Proof

variable {α : Type} [DecidableEq α]

theorem Tab.get_put_self (d : Nat → α) (t : Tab α) (k : Nat) (v : α) : Tab.get d (Tab.put t k v) k = v := by
  induction t with
  | nil => simp [Tab.put, Tab.get]
  | cons e t ih =>
    obtain ⟨i, u⟩ := e
    by_cases h1 : k < i
    · simp [Tab.put, Tab.get, h1]
    · by_cases h2 : k = i <;> simp [Tab.put, Tab.get, h1, h2, ih]

theorem Tab.get_put_ne (d : Nat → α) (t : Tab α) {k j : Nat} (v : α) (h : j ≠ k) :
    Tab.get d (Tab.put t k v) j = Tab.get d t j := by
  induction t with
  | nil => simp [Tab.put, Tab.get, h]
  | cons e t ih =>
    obtain ⟨i, u⟩ := e
    by_cases h1 : k < i
    · simp [Tab.put, Tab.get, h1, h]
    · by_cases h2 : k = i
      · subst h2; simp [Tab.put, Tab.get, h]
      · simp [Tab.put, Tab.get, h1, h2, ih]

theorem Tab.get_drop_self (d : Nat → α) (t : Tab α) (k : Nat) : Tab.get d (Tab.drop t k) k = d k := by
  induction t with
  | nil => simp [Tab.drop, Tab.get]
  | cons e t ih =>
    obtain ⟨i, u⟩ := e
    by_cases h : k = i <;> simp [Tab.drop, Tab.get, h, ih]
    subst h; exact ih

theorem Tab.get_drop_ne (d : Nat → α) (t : Tab α) {k j : Nat} (h : j ≠ k) :
    Tab.get d (Tab.drop t k) j = Tab.get d t j := by
  induction t with
  | nil => simp [Tab.drop, Tab.get]
  | cons e t ih =>
    obtain ⟨i, u⟩ := e
    by_cases h2 : k = i
    · subst h2; simp [Tab.drop, Tab.get, h, ih]
    · simp [Tab.drop, Tab.get, h2, ih]

/-- A key reads as what was written to it. -/
@[simp] theorem Tab.get_set_self (d : Nat → α) (t : Tab α) (k : Nat) (v : α) : Tab.get d (Tab.set d t k v) k = v := by
  unfold Tab.set
  split
  · next h => rw [Tab.get_drop_self, h]
  · exact Tab.get_put_self d t k v

/-- Every other key reads as before. -/
theorem Tab.get_set_ne (d : Nat → α) (t : Tab α) {k j : Nat} (v : α) (h : j ≠ k) :
    Tab.get d (Tab.set d t k v) j = Tab.get d t j := by
  unfold Tab.set
  split
  · exact Tab.get_drop_ne d t h
  · exact Tab.get_put_ne d t v h

@[simp] theorem Tab.at_to_self (d : α) (t : Tab α) (k : Nat) (v : α) : Tab.at d (Tab.to d t k v) k = v :=
  Tab.get_set_self _ t k v

theorem Tab.at_to_ne (d : α) (t : Tab α) {k j : Nat} (v : α) (h : j ≠ k) : Tab.at d (Tab.to d t k v) j = Tab.at d t j :=
  Tab.get_set_ne _ t v h

@[simp] theorem Tab.at_upd_self (d : α) (t : Tab α) (k : Nat) (f : α → α) : Tab.at d (Tab.upd d t k f) k = f (Tab.at d t k) :=
  Tab.at_to_self d t k _

theorem Tab.at_upd_ne (d : α) (t : Tab α) {k j : Nat} (f : α → α) (h : j ≠ k) : Tab.at d (Tab.upd d t k f) j = Tab.at d t j :=
  Tab.at_to_ne d t _ h

/-! ### The canonical form -/

theorem Tab.wfFrom_mono (d : Nat → α) {b c : Option Nat} {t : Tab α}
    (h : ∀ j, b = some j → ∀ i, c = some i → j ≤ i) (hb : c = none → b = none) (w : Tab.wfFrom d c t = true) :
    Tab.wfFrom d b t = true := by
  cases t with
  | nil => simp [Tab.wfFrom]
  | cons e t =>
    obtain ⟨i, v⟩ := e
    simp only [Tab.wfFrom, Bool.and_eq_true] at w ⊢
    refine ⟨⟨?_, w.1.2⟩, w.2⟩
    cases b with
    | none => rfl
    | some j =>
      cases c with
      | none => simp at hb
      | some k =>
        have := h j rfl k rfl
        have w1 := w.1.1
        simp at w1 ⊢
        omega

theorem Tab.wfFrom_filter (d : Nat → α) (p : Nat × α → Bool) {b : Option Nat} {t : Tab α}
    (w : Tab.wfFrom d b t = true) : Tab.wfFrom d b (t.filter p) = true := by
  induction t generalizing b with
  | nil => simp [Tab.wfFrom]
  | cons e t ih =>
    obtain ⟨i, v⟩ := e
    simp only [Tab.wfFrom, Bool.and_eq_true] at w
    have rest := ih w.2
    by_cases hp : p (i, v) = true
    · simp only [List.filter_cons, hp, if_true, Tab.wfFrom, Bool.and_eq_true]
      exact ⟨w.1, rest⟩
    · simp only [List.filter_cons, hp]
      refine Tab.wfFrom_mono d ?_ ?_ rest
      · intro j hj k hk
        cases hk
        subst hj
        have := w.1.1
        simp at this
        omega
      · simp

theorem Tab.drop_eq_filter (t : Tab α) (k : Nat) : Tab.drop t k = t.filter fun e => !(decide (k = e.1)) := by
  induction t with
  | nil => rfl
  | cons e t ih =>
    obtain ⟨i, v⟩ := e
    by_cases h : k = i
    · subst h; simp [Tab.drop, ih]
    · simp [Tab.drop, h, ih]

theorem Tab.wfFrom_put (d : Nat → α) {b : Option Nat} {t : Tab α} {k : Nat} {v : α}
    (w : Tab.wfFrom d b t = true) (hk : ∀ j, b = some j → j < k) (hv : v ≠ d k) :
    Tab.wfFrom d b (Tab.put t k v) = true := by
  induction t generalizing b with
  | nil =>
    cases b with
    | none => simp [Tab.put, Tab.wfFrom, hv]
    | some j => simp [Tab.put, Tab.wfFrom, hv, hk j rfl]
  | cons e t ih =>
    obtain ⟨i, u⟩ := e
    simp only [Tab.wfFrom, Bool.and_eq_true] at w
    unfold Tab.put
    split
    · next h =>
      simp only [Tab.wfFrom, Bool.and_eq_true, decide_eq_true_eq]
      refine ⟨⟨?_, hv⟩, ⟨h, ?_⟩, w.2⟩
      · cases b with
        | none => rfl
        | some j => simpa using hk j rfl
      · simpa using w.1.2
    · next h =>
      split
      · next h2 =>
        subst h2
        simp only [Tab.wfFrom, Bool.and_eq_true, decide_eq_true_eq]
        exact ⟨⟨w.1.1, hv⟩, w.2⟩
      · next h2 =>
        simp only [Tab.wfFrom, Bool.and_eq_true]
        refine ⟨w.1, ih w.2 ?_⟩
        intro j hj
        cases hj
        omega

/-- A write keeps the canonical form. -/
theorem Tab.wf_set (d : Nat → α) {t : Tab α} {k : Nat} {v : α} (w : Tab.wf d t = true) :
    Tab.wf d (Tab.set d t k v) = true := by
  unfold Tab.set
  split
  · rw [Tab.drop_eq_filter]; exact Tab.wfFrom_filter d _ w
  · next h => exact Tab.wfFrom_put d w (by simp) h

/-- Leaving entries out keeps the canonical form. -/
theorem Tab.wf_filter (d : Nat → α) (p : Nat × α → Bool) {t : Tab α} (w : Tab.wf d t = true) :
    Tab.wf d (t.filter p) = true := Tab.wfFrom_filter d p w

end Sys2Proof
end

