-- ==== Sys2Proof/Laws/State.lean ====
section
/-! SUPPORT. What each update of the state leaves as it was, field by field, and what it leaves of every table
of units; what a unit reads as after it has been written. -/

namespace Sys2Proof.Machine

variable (s : State)

/-! ### The derived updates are the basic ones -/

@[simp] theorem State.setF_eq (a hi lo n) : s.setF a hi lo n = s.setReg a (Sys2Proof.setFld (s.reg a) hi lo n) := rfl
@[simp] theorem State.setB_eq (a i b) : s.setB a i b = s.setReg a (Sys2Proof.setBit (s.reg a) i b) := rfl
@[simp] theorem State.orReg_eq (a w) : s.orReg a w = s.setReg a (s.reg a ||| w) := rfl
@[simp] theorem State.clrReg_eq (a w) : s.clrReg a w = s.setReg a (s.reg a &&& ~~~w) := rfl
@[simp] theorem State.modLink_eq (t e f) : s.modLink t e f = s.setLink t e (f (s.link t e)) := rfl
@[simp] theorem State.modLane_eq (t l f) : s.modLane t l f = s.setLane t l (f (s.lane t l)) := rfl
@[simp] theorem State.modHead_eq (i f) : s.modHead i f = s.setHead i (f (s.head i)) := rfl
@[simp] theorem State.modDet_eq (t f) : s.modDet t f = s.setDet t (f (s.det t)) := rfl
@[simp] theorem State.modCtx_eq (t i f) : s.modCtx t i f = s.setCtx t i (f (s.ctx t i)) := rfl
@[simp] theorem State.modHeadW_eq (i f) : s.modHeadW i f = s.setHeadW i (f (s.headW i)) := rfl
@[simp] theorem State.modWr_eq (t f) : s.modWr t f = s.setWr t (f (s.wr t)) := rfl
@[simp] theorem State.modWrQ_eq (t c f) : s.modWrQ t c f = s.setWrQ t c (f (s.wrQ t c)) := rfl
@[simp] theorem State.modArm_eq (t c f) : s.modArm t c f = s.setArm t c (f (s.arm t c)) := rfl
@[simp] theorem State.modReader_eq (i r f) : s.modReader i r f = s.setReader i r (f (s.reader i r)) := rfl
@[simp] theorem State.modHeadS_eq (i f) : s.modHeadS i f = s.setHeadS i (f (s.headS i)) := rfl
@[simp] theorem State.modCtl_eq (t c f) : s.modCtl t c f = s.setCtl t c (f (s.ctl t c)) := rfl
@[simp] theorem State.modSpn_eq (t f) : s.modSpn t f = s.setSpn t (f (s.spn t)) := rfl
@[simp] theorem State.modEng_eq (e f) : s.modEng e f = s.setEng e (f (s.eng e)) := rfl

/-! ### Fields -/

@[simp] theorem State.setReg_part (a w) : (s.setReg a w).part = s.part := rfl
@[simp] theorem State.setReg_now (a w) : (s.setReg a w).now = s.now := rfl
@[simp] theorem State.setReg_free (a w) : (s.setReg a w).free = s.free := rfl
@[simp] theorem State.setReg_pending (a w) : (s.setReg a w).pending = s.pending := rfl
@[simp] theorem State.setReg_out (a w) : (s.setReg a w).out = s.out := rfl
@[simp] theorem State.setReg_irq (a w) : (s.setReg a w).irq = s.irq := rfl
@[simp] theorem State.setReg_owl (a w) : (s.setReg a w).owl = s.owl := rfl
@[simp] theorem State.setReg_mgmt (a w) : (s.setReg a w).mgmt = s.mgmt := rfl
@[simp] theorem State.setReg_flash (a w) : (s.setReg a w).flash = s.flash := rfl
@[simp] theorem State.setReg_power (a w) : (s.setReg a w).power = s.power := rfl
@[simp] theorem State.setReg_tap (a w) : (s.setReg a w).tap = s.tap := rfl
@[simp] theorem State.setReg_ports (a w) : (s.setReg a w).ports = s.ports := rfl
@[simp] theorem State.setReg_nq (a w) : (s.setReg a w).nq = s.nq := rfl
@[simp] theorem State.setReg_buf (a w) : (s.setReg a w).buf = s.buf := rfl
@[simp] theorem State.setReg_memp (a w) : (s.setReg a w).memp = s.memp := rfl
@[simp] theorem State.setReg_slots (a w) : (s.setReg a w).slots = s.slots := rfl
@[simp] theorem State.setReg_tl (a w) : (s.setReg a w).tl = s.tl := rfl
@[simp] theorem State.emit_part (x) : (s.emit x).part = s.part := rfl
@[simp] theorem State.emit_now (x) : (s.emit x).now = s.now := rfl
@[simp] theorem State.emit_free (x) : (s.emit x).free = s.free := rfl
@[simp] theorem State.emit_pending (x) : (s.emit x).pending = s.pending := rfl
@[simp] theorem State.emit_regs (x) : (s.emit x).regs = s.regs := rfl
@[simp] theorem State.emit_irq (x) : (s.emit x).irq = s.irq := rfl
@[simp] theorem State.emit_owl (x) : (s.emit x).owl = s.owl := rfl
@[simp] theorem State.emit_mgmt (x) : (s.emit x).mgmt = s.mgmt := rfl
@[simp] theorem State.emit_flash (x) : (s.emit x).flash = s.flash := rfl
@[simp] theorem State.emit_power (x) : (s.emit x).power = s.power := rfl
@[simp] theorem State.emit_tap (x) : (s.emit x).tap = s.tap := rfl
@[simp] theorem State.emit_ports (x) : (s.emit x).ports = s.ports := rfl
@[simp] theorem State.emit_nq (x) : (s.emit x).nq = s.nq := rfl
@[simp] theorem State.emit_buf (x) : (s.emit x).buf = s.buf := rfl
@[simp] theorem State.emit_memp (x) : (s.emit x).memp = s.memp := rfl
@[simp] theorem State.emit_slots (x) : (s.emit x).slots = s.slots := rfl
@[simp] theorem State.emit_tl (x) : (s.emit x).tl = s.tl := rfl
@[simp] theorem State.took_part : (s.took).part = s.part := rfl
@[simp] theorem State.took_now : (s.took).now = s.now := rfl
@[simp] theorem State.took_pending : (s.took).pending = s.pending := rfl
@[simp] theorem State.took_out : (s.took).out = s.out := rfl
@[simp] theorem State.took_regs : (s.took).regs = s.regs := rfl
@[simp] theorem State.took_irq : (s.took).irq = s.irq := rfl
@[simp] theorem State.took_owl : (s.took).owl = s.owl := rfl
@[simp] theorem State.took_mgmt : (s.took).mgmt = s.mgmt := rfl
@[simp] theorem State.took_flash : (s.took).flash = s.flash := rfl
@[simp] theorem State.took_power : (s.took).power = s.power := rfl
@[simp] theorem State.took_tap : (s.took).tap = s.tap := rfl
@[simp] theorem State.took_ports : (s.took).ports = s.ports := rfl
@[simp] theorem State.took_nq : (s.took).nq = s.nq := rfl
@[simp] theorem State.took_buf : (s.took).buf = s.buf := rfl
@[simp] theorem State.took_memp : (s.took).memp = s.memp := rfl
@[simp] theorem State.took_slots : (s.took).slots = s.slots := rfl
@[simp] theorem State.took_tl : (s.took).tl = s.tl := rfl
@[simp] theorem State.setTarget_part (ic n x) : (s.setTarget ic n x).part = s.part := rfl
@[simp] theorem State.setTarget_now (ic n x) : (s.setTarget ic n x).now = s.now := rfl
@[simp] theorem State.setTarget_free (ic n x) : (s.setTarget ic n x).free = s.free := rfl
@[simp] theorem State.setTarget_pending (ic n x) : (s.setTarget ic n x).pending = s.pending := rfl
@[simp] theorem State.setTarget_out (ic n x) : (s.setTarget ic n x).out = s.out := rfl
@[simp] theorem State.setTarget_regs (ic n x) : (s.setTarget ic n x).regs = s.regs := rfl
@[simp] theorem State.setTarget_owl (ic n x) : (s.setTarget ic n x).owl = s.owl := rfl
@[simp] theorem State.setTarget_mgmt (ic n x) : (s.setTarget ic n x).mgmt = s.mgmt := rfl
@[simp] theorem State.setTarget_flash (ic n x) : (s.setTarget ic n x).flash = s.flash := rfl
@[simp] theorem State.setTarget_power (ic n x) : (s.setTarget ic n x).power = s.power := rfl
@[simp] theorem State.setTarget_tap (ic n x) : (s.setTarget ic n x).tap = s.tap := rfl
@[simp] theorem State.setTarget_ports (ic n x) : (s.setTarget ic n x).ports = s.ports := rfl
@[simp] theorem State.setTarget_nq (ic n x) : (s.setTarget ic n x).nq = s.nq := rfl
@[simp] theorem State.setTarget_buf (ic n x) : (s.setTarget ic n x).buf = s.buf := rfl
@[simp] theorem State.setTarget_memp (ic n x) : (s.setTarget ic n x).memp = s.memp := rfl
@[simp] theorem State.setTarget_slots (ic n x) : (s.setTarget ic n x).slots = s.slots := rfl
@[simp] theorem State.setTarget_tl (ic n x) : (s.setTarget ic n x).tl = s.tl := rfl
@[simp] theorem State.setQp_part (n x) : (s.setQp n x).part = s.part := rfl
@[simp] theorem State.setQp_now (n x) : (s.setQp n x).now = s.now := rfl
@[simp] theorem State.setQp_free (n x) : (s.setQp n x).free = s.free := rfl
@[simp] theorem State.setQp_pending (n x) : (s.setQp n x).pending = s.pending := rfl
@[simp] theorem State.setQp_out (n x) : (s.setQp n x).out = s.out := rfl
@[simp] theorem State.setQp_regs (n x) : (s.setQp n x).regs = s.regs := rfl
@[simp] theorem State.setQp_irq (n x) : (s.setQp n x).irq = s.irq := rfl
@[simp] theorem State.setQp_owl (n x) : (s.setQp n x).owl = s.owl := rfl
@[simp] theorem State.setQp_mgmt (n x) : (s.setQp n x).mgmt = s.mgmt := rfl
@[simp] theorem State.setQp_flash (n x) : (s.setQp n x).flash = s.flash := rfl
@[simp] theorem State.setQp_power (n x) : (s.setQp n x).power = s.power := rfl
@[simp] theorem State.setQp_tap (n x) : (s.setQp n x).tap = s.tap := rfl
@[simp] theorem State.setQp_ports (n x) : (s.setQp n x).ports = s.ports := rfl
@[simp] theorem State.setQp_buf (n x) : (s.setQp n x).buf = s.buf := rfl
@[simp] theorem State.setQp_memp (n x) : (s.setQp n x).memp = s.memp := rfl
@[simp] theorem State.setQp_slots (n x) : (s.setQp n x).slots = s.slots := rfl
@[simp] theorem State.setQp_tl (n x) : (s.setQp n x).tl = s.tl := rfl
@[simp] theorem State.setAssoc_part (c x) : (s.setAssoc c x).part = s.part := rfl
@[simp] theorem State.setAssoc_now (c x) : (s.setAssoc c x).now = s.now := rfl
@[simp] theorem State.setAssoc_free (c x) : (s.setAssoc c x).free = s.free := rfl
@[simp] theorem State.setAssoc_pending (c x) : (s.setAssoc c x).pending = s.pending := rfl
@[simp] theorem State.setAssoc_out (c x) : (s.setAssoc c x).out = s.out := rfl
@[simp] theorem State.setAssoc_regs (c x) : (s.setAssoc c x).regs = s.regs := rfl
@[simp] theorem State.setAssoc_irq (c x) : (s.setAssoc c x).irq = s.irq := rfl
@[simp] theorem State.setAssoc_owl (c x) : (s.setAssoc c x).owl = s.owl := rfl
@[simp] theorem State.setAssoc_mgmt (c x) : (s.setAssoc c x).mgmt = s.mgmt := rfl
@[simp] theorem State.setAssoc_flash (c x) : (s.setAssoc c x).flash = s.flash := rfl
@[simp] theorem State.setAssoc_power (c x) : (s.setAssoc c x).power = s.power := rfl
@[simp] theorem State.setAssoc_tap (c x) : (s.setAssoc c x).tap = s.tap := rfl
@[simp] theorem State.setAssoc_ports (c x) : (s.setAssoc c x).ports = s.ports := rfl
@[simp] theorem State.setAssoc_buf (c x) : (s.setAssoc c x).buf = s.buf := rfl
@[simp] theorem State.setAssoc_memp (c x) : (s.setAssoc c x).memp = s.memp := rfl
@[simp] theorem State.setAssoc_slots (c x) : (s.setAssoc c x).slots = s.slots := rfl
@[simp] theorem State.setAssoc_tl (c x) : (s.setAssoc c x).tl = s.tl := rfl
@[simp] theorem State.setCmd_part (i x) : (s.setCmd i x).part = s.part := rfl
@[simp] theorem State.setCmd_now (i x) : (s.setCmd i x).now = s.now := rfl
@[simp] theorem State.setCmd_free (i x) : (s.setCmd i x).free = s.free := rfl
@[simp] theorem State.setCmd_pending (i x) : (s.setCmd i x).pending = s.pending := rfl
@[simp] theorem State.setCmd_out (i x) : (s.setCmd i x).out = s.out := rfl
@[simp] theorem State.setCmd_regs (i x) : (s.setCmd i x).regs = s.regs := rfl
@[simp] theorem State.setCmd_irq (i x) : (s.setCmd i x).irq = s.irq := rfl
@[simp] theorem State.setCmd_owl (i x) : (s.setCmd i x).owl = s.owl := rfl
@[simp] theorem State.setCmd_mgmt (i x) : (s.setCmd i x).mgmt = s.mgmt := rfl
@[simp] theorem State.setCmd_flash (i x) : (s.setCmd i x).flash = s.flash := rfl
@[simp] theorem State.setCmd_power (i x) : (s.setCmd i x).power = s.power := rfl
@[simp] theorem State.setCmd_tap (i x) : (s.setCmd i x).tap = s.tap := rfl
@[simp] theorem State.setCmd_ports (i x) : (s.setCmd i x).ports = s.ports := rfl
@[simp] theorem State.setCmd_buf (i x) : (s.setCmd i x).buf = s.buf := rfl
@[simp] theorem State.setCmd_memp (i x) : (s.setCmd i x).memp = s.memp := rfl
@[simp] theorem State.setCmd_slots (i x) : (s.setCmd i x).slots = s.slots := rfl
@[simp] theorem State.setCmd_tl (i x) : (s.setCmd i x).tl = s.tl := rfl
@[simp] theorem State.setSlot_part (i x) : (s.setSlot i x).part = s.part := rfl
@[simp] theorem State.setSlot_now (i x) : (s.setSlot i x).now = s.now := rfl
@[simp] theorem State.setSlot_free (i x) : (s.setSlot i x).free = s.free := rfl
@[simp] theorem State.setSlot_pending (i x) : (s.setSlot i x).pending = s.pending := rfl
@[simp] theorem State.setSlot_out (i x) : (s.setSlot i x).out = s.out := rfl
@[simp] theorem State.setSlot_regs (i x) : (s.setSlot i x).regs = s.regs := rfl
@[simp] theorem State.setSlot_irq (i x) : (s.setSlot i x).irq = s.irq := rfl
@[simp] theorem State.setSlot_owl (i x) : (s.setSlot i x).owl = s.owl := rfl
@[simp] theorem State.setSlot_mgmt (i x) : (s.setSlot i x).mgmt = s.mgmt := rfl
@[simp] theorem State.setSlot_flash (i x) : (s.setSlot i x).flash = s.flash := rfl
@[simp] theorem State.setSlot_power (i x) : (s.setSlot i x).power = s.power := rfl
@[simp] theorem State.setSlot_tap (i x) : (s.setSlot i x).tap = s.tap := rfl
@[simp] theorem State.setSlot_ports (i x) : (s.setSlot i x).ports = s.ports := rfl
@[simp] theorem State.setSlot_nq (i x) : (s.setSlot i x).nq = s.nq := rfl
@[simp] theorem State.setSlot_buf (i x) : (s.setSlot i x).buf = s.buf := rfl
@[simp] theorem State.setSlot_memp (i x) : (s.setSlot i x).memp = s.memp := rfl
@[simp] theorem State.setSlot_tl (i x) : (s.setSlot i x).tl = s.tl := rfl
@[simp] theorem State.setSub_part (i x) : (s.setSub i x).part = s.part := rfl
@[simp] theorem State.setSub_now (i x) : (s.setSub i x).now = s.now := rfl
@[simp] theorem State.setSub_free (i x) : (s.setSub i x).free = s.free := rfl
@[simp] theorem State.setSub_pending (i x) : (s.setSub i x).pending = s.pending := rfl
@[simp] theorem State.setSub_out (i x) : (s.setSub i x).out = s.out := rfl
@[simp] theorem State.setSub_regs (i x) : (s.setSub i x).regs = s.regs := rfl
@[simp] theorem State.setSub_irq (i x) : (s.setSub i x).irq = s.irq := rfl
@[simp] theorem State.setSub_owl (i x) : (s.setSub i x).owl = s.owl := rfl
@[simp] theorem State.setSub_mgmt (i x) : (s.setSub i x).mgmt = s.mgmt := rfl
@[simp] theorem State.setSub_flash (i x) : (s.setSub i x).flash = s.flash := rfl
@[simp] theorem State.setSub_power (i x) : (s.setSub i x).power = s.power := rfl
@[simp] theorem State.setSub_tap (i x) : (s.setSub i x).tap = s.tap := rfl
@[simp] theorem State.setSub_nq (i x) : (s.setSub i x).nq = s.nq := rfl
@[simp] theorem State.setSub_buf (i x) : (s.setSub i x).buf = s.buf := rfl
@[simp] theorem State.setSub_memp (i x) : (s.setSub i x).memp = s.memp := rfl
@[simp] theorem State.setSub_slots (i x) : (s.setSub i x).slots = s.slots := rfl
@[simp] theorem State.setSub_tl (i x) : (s.setSub i x).tl = s.tl := rfl
@[simp] theorem State.setLink_part (t e x) : (s.setLink t e x).part = s.part := rfl
@[simp] theorem State.setLink_now (t e x) : (s.setLink t e x).now = s.now := rfl
@[simp] theorem State.setLink_free (t e x) : (s.setLink t e x).free = s.free := rfl
@[simp] theorem State.setLink_pending (t e x) : (s.setLink t e x).pending = s.pending := rfl
@[simp] theorem State.setLink_out (t e x) : (s.setLink t e x).out = s.out := rfl
@[simp] theorem State.setLink_regs (t e x) : (s.setLink t e x).regs = s.regs := rfl
@[simp] theorem State.setLink_irq (t e x) : (s.setLink t e x).irq = s.irq := rfl
@[simp] theorem State.setLink_owl (t e x) : (s.setLink t e x).owl = s.owl := rfl
@[simp] theorem State.setLink_mgmt (t e x) : (s.setLink t e x).mgmt = s.mgmt := rfl
@[simp] theorem State.setLink_flash (t e x) : (s.setLink t e x).flash = s.flash := rfl
@[simp] theorem State.setLink_power (t e x) : (s.setLink t e x).power = s.power := rfl
@[simp] theorem State.setLink_tap (t e x) : (s.setLink t e x).tap = s.tap := rfl
@[simp] theorem State.setLink_ports (t e x) : (s.setLink t e x).ports = s.ports := rfl
@[simp] theorem State.setLink_nq (t e x) : (s.setLink t e x).nq = s.nq := rfl
@[simp] theorem State.setLink_buf (t e x) : (s.setLink t e x).buf = s.buf := rfl
@[simp] theorem State.setLink_memp (t e x) : (s.setLink t e x).memp = s.memp := rfl
@[simp] theorem State.setLink_slots (t e x) : (s.setLink t e x).slots = s.slots := rfl
@[simp] theorem State.setLane_part (t l x) : (s.setLane t l x).part = s.part := rfl
@[simp] theorem State.setLane_now (t l x) : (s.setLane t l x).now = s.now := rfl
@[simp] theorem State.setLane_free (t l x) : (s.setLane t l x).free = s.free := rfl
@[simp] theorem State.setLane_pending (t l x) : (s.setLane t l x).pending = s.pending := rfl
@[simp] theorem State.setLane_out (t l x) : (s.setLane t l x).out = s.out := rfl
@[simp] theorem State.setLane_regs (t l x) : (s.setLane t l x).regs = s.regs := rfl
@[simp] theorem State.setLane_irq (t l x) : (s.setLane t l x).irq = s.irq := rfl
@[simp] theorem State.setLane_owl (t l x) : (s.setLane t l x).owl = s.owl := rfl
@[simp] theorem State.setLane_mgmt (t l x) : (s.setLane t l x).mgmt = s.mgmt := rfl
@[simp] theorem State.setLane_flash (t l x) : (s.setLane t l x).flash = s.flash := rfl
@[simp] theorem State.setLane_power (t l x) : (s.setLane t l x).power = s.power := rfl
@[simp] theorem State.setLane_tap (t l x) : (s.setLane t l x).tap = s.tap := rfl
@[simp] theorem State.setLane_ports (t l x) : (s.setLane t l x).ports = s.ports := rfl
@[simp] theorem State.setLane_nq (t l x) : (s.setLane t l x).nq = s.nq := rfl
@[simp] theorem State.setLane_buf (t l x) : (s.setLane t l x).buf = s.buf := rfl
@[simp] theorem State.setLane_memp (t l x) : (s.setLane t l x).memp = s.memp := rfl
@[simp] theorem State.setLane_slots (t l x) : (s.setLane t l x).slots = s.slots := rfl
@[simp] theorem State.setHead_part (i x) : (s.setHead i x).part = s.part := rfl
@[simp] theorem State.setHead_now (i x) : (s.setHead i x).now = s.now := rfl
@[simp] theorem State.setHead_free (i x) : (s.setHead i x).free = s.free := rfl
@[simp] theorem State.setHead_pending (i x) : (s.setHead i x).pending = s.pending := rfl
@[simp] theorem State.setHead_out (i x) : (s.setHead i x).out = s.out := rfl
@[simp] theorem State.setHead_regs (i x) : (s.setHead i x).regs = s.regs := rfl
@[simp] theorem State.setHead_irq (i x) : (s.setHead i x).irq = s.irq := rfl
@[simp] theorem State.setHead_owl (i x) : (s.setHead i x).owl = s.owl := rfl
@[simp] theorem State.setHead_mgmt (i x) : (s.setHead i x).mgmt = s.mgmt := rfl
@[simp] theorem State.setHead_flash (i x) : (s.setHead i x).flash = s.flash := rfl
@[simp] theorem State.setHead_power (i x) : (s.setHead i x).power = s.power := rfl
@[simp] theorem State.setHead_tap (i x) : (s.setHead i x).tap = s.tap := rfl
@[simp] theorem State.setHead_ports (i x) : (s.setHead i x).ports = s.ports := rfl
@[simp] theorem State.setHead_nq (i x) : (s.setHead i x).nq = s.nq := rfl
@[simp] theorem State.setHead_buf (i x) : (s.setHead i x).buf = s.buf := rfl
@[simp] theorem State.setHead_memp (i x) : (s.setHead i x).memp = s.memp := rfl
@[simp] theorem State.setHead_slots (i x) : (s.setHead i x).slots = s.slots := rfl
@[simp] theorem State.setDet_part (t x) : (s.setDet t x).part = s.part := rfl
@[simp] theorem State.setDet_now (t x) : (s.setDet t x).now = s.now := rfl
@[simp] theorem State.setDet_free (t x) : (s.setDet t x).free = s.free := rfl
@[simp] theorem State.setDet_pending (t x) : (s.setDet t x).pending = s.pending := rfl
@[simp] theorem State.setDet_out (t x) : (s.setDet t x).out = s.out := rfl
@[simp] theorem State.setDet_regs (t x) : (s.setDet t x).regs = s.regs := rfl
@[simp] theorem State.setDet_irq (t x) : (s.setDet t x).irq = s.irq := rfl
@[simp] theorem State.setDet_owl (t x) : (s.setDet t x).owl = s.owl := rfl
@[simp] theorem State.setDet_mgmt (t x) : (s.setDet t x).mgmt = s.mgmt := rfl
@[simp] theorem State.setDet_flash (t x) : (s.setDet t x).flash = s.flash := rfl
@[simp] theorem State.setDet_power (t x) : (s.setDet t x).power = s.power := rfl
@[simp] theorem State.setDet_tap (t x) : (s.setDet t x).tap = s.tap := rfl
@[simp] theorem State.setDet_ports (t x) : (s.setDet t x).ports = s.ports := rfl
@[simp] theorem State.setDet_nq (t x) : (s.setDet t x).nq = s.nq := rfl
@[simp] theorem State.setDet_buf (t x) : (s.setDet t x).buf = s.buf := rfl
@[simp] theorem State.setDet_memp (t x) : (s.setDet t x).memp = s.memp := rfl
@[simp] theorem State.setDet_slots (t x) : (s.setDet t x).slots = s.slots := rfl
@[simp] theorem State.setCtx_part (t i x) : (s.setCtx t i x).part = s.part := rfl
@[simp] theorem State.setCtx_now (t i x) : (s.setCtx t i x).now = s.now := rfl
@[simp] theorem State.setCtx_free (t i x) : (s.setCtx t i x).free = s.free := rfl
@[simp] theorem State.setCtx_pending (t i x) : (s.setCtx t i x).pending = s.pending := rfl
@[simp] theorem State.setCtx_out (t i x) : (s.setCtx t i x).out = s.out := rfl
@[simp] theorem State.setCtx_regs (t i x) : (s.setCtx t i x).regs = s.regs := rfl
@[simp] theorem State.setCtx_irq (t i x) : (s.setCtx t i x).irq = s.irq := rfl
@[simp] theorem State.setCtx_owl (t i x) : (s.setCtx t i x).owl = s.owl := rfl
@[simp] theorem State.setCtx_mgmt (t i x) : (s.setCtx t i x).mgmt = s.mgmt := rfl
@[simp] theorem State.setCtx_flash (t i x) : (s.setCtx t i x).flash = s.flash := rfl
@[simp] theorem State.setCtx_power (t i x) : (s.setCtx t i x).power = s.power := rfl
@[simp] theorem State.setCtx_tap (t i x) : (s.setCtx t i x).tap = s.tap := rfl
@[simp] theorem State.setCtx_ports (t i x) : (s.setCtx t i x).ports = s.ports := rfl
@[simp] theorem State.setCtx_nq (t i x) : (s.setCtx t i x).nq = s.nq := rfl
@[simp] theorem State.setCtx_buf (t i x) : (s.setCtx t i x).buf = s.buf := rfl
@[simp] theorem State.setCtx_memp (t i x) : (s.setCtx t i x).memp = s.memp := rfl
@[simp] theorem State.setCtx_slots (t i x) : (s.setCtx t i x).slots = s.slots := rfl
@[simp] theorem State.setHeadW_part (i x) : (s.setHeadW i x).part = s.part := rfl
@[simp] theorem State.setHeadW_now (i x) : (s.setHeadW i x).now = s.now := rfl
@[simp] theorem State.setHeadW_free (i x) : (s.setHeadW i x).free = s.free := rfl
@[simp] theorem State.setHeadW_pending (i x) : (s.setHeadW i x).pending = s.pending := rfl
@[simp] theorem State.setHeadW_out (i x) : (s.setHeadW i x).out = s.out := rfl
@[simp] theorem State.setHeadW_regs (i x) : (s.setHeadW i x).regs = s.regs := rfl
@[simp] theorem State.setHeadW_irq (i x) : (s.setHeadW i x).irq = s.irq := rfl
@[simp] theorem State.setHeadW_owl (i x) : (s.setHeadW i x).owl = s.owl := rfl
@[simp] theorem State.setHeadW_mgmt (i x) : (s.setHeadW i x).mgmt = s.mgmt := rfl
@[simp] theorem State.setHeadW_flash (i x) : (s.setHeadW i x).flash = s.flash := rfl
@[simp] theorem State.setHeadW_power (i x) : (s.setHeadW i x).power = s.power := rfl
@[simp] theorem State.setHeadW_tap (i x) : (s.setHeadW i x).tap = s.tap := rfl
@[simp] theorem State.setHeadW_ports (i x) : (s.setHeadW i x).ports = s.ports := rfl
@[simp] theorem State.setHeadW_nq (i x) : (s.setHeadW i x).nq = s.nq := rfl
@[simp] theorem State.setHeadW_buf (i x) : (s.setHeadW i x).buf = s.buf := rfl
@[simp] theorem State.setHeadW_memp (i x) : (s.setHeadW i x).memp = s.memp := rfl
@[simp] theorem State.setHeadW_slots (i x) : (s.setHeadW i x).slots = s.slots := rfl
@[simp] theorem State.setWr_part (t x) : (s.setWr t x).part = s.part := rfl
@[simp] theorem State.setWr_now (t x) : (s.setWr t x).now = s.now := rfl
@[simp] theorem State.setWr_free (t x) : (s.setWr t x).free = s.free := rfl
@[simp] theorem State.setWr_pending (t x) : (s.setWr t x).pending = s.pending := rfl
@[simp] theorem State.setWr_out (t x) : (s.setWr t x).out = s.out := rfl
@[simp] theorem State.setWr_regs (t x) : (s.setWr t x).regs = s.regs := rfl
@[simp] theorem State.setWr_irq (t x) : (s.setWr t x).irq = s.irq := rfl
@[simp] theorem State.setWr_owl (t x) : (s.setWr t x).owl = s.owl := rfl
@[simp] theorem State.setWr_mgmt (t x) : (s.setWr t x).mgmt = s.mgmt := rfl
@[simp] theorem State.setWr_flash (t x) : (s.setWr t x).flash = s.flash := rfl
@[simp] theorem State.setWr_power (t x) : (s.setWr t x).power = s.power := rfl
@[simp] theorem State.setWr_tap (t x) : (s.setWr t x).tap = s.tap := rfl
@[simp] theorem State.setWr_ports (t x) : (s.setWr t x).ports = s.ports := rfl
@[simp] theorem State.setWr_nq (t x) : (s.setWr t x).nq = s.nq := rfl
@[simp] theorem State.setWr_buf (t x) : (s.setWr t x).buf = s.buf := rfl
@[simp] theorem State.setWr_memp (t x) : (s.setWr t x).memp = s.memp := rfl
@[simp] theorem State.setWr_slots (t x) : (s.setWr t x).slots = s.slots := rfl
@[simp] theorem State.setWrQ_part (t c x) : (s.setWrQ t c x).part = s.part := rfl
@[simp] theorem State.setWrQ_now (t c x) : (s.setWrQ t c x).now = s.now := rfl
@[simp] theorem State.setWrQ_free (t c x) : (s.setWrQ t c x).free = s.free := rfl
@[simp] theorem State.setWrQ_pending (t c x) : (s.setWrQ t c x).pending = s.pending := rfl
@[simp] theorem State.setWrQ_out (t c x) : (s.setWrQ t c x).out = s.out := rfl
@[simp] theorem State.setWrQ_regs (t c x) : (s.setWrQ t c x).regs = s.regs := rfl
@[simp] theorem State.setWrQ_irq (t c x) : (s.setWrQ t c x).irq = s.irq := rfl
@[simp] theorem State.setWrQ_owl (t c x) : (s.setWrQ t c x).owl = s.owl := rfl
@[simp] theorem State.setWrQ_mgmt (t c x) : (s.setWrQ t c x).mgmt = s.mgmt := rfl
@[simp] theorem State.setWrQ_flash (t c x) : (s.setWrQ t c x).flash = s.flash := rfl
@[simp] theorem State.setWrQ_power (t c x) : (s.setWrQ t c x).power = s.power := rfl
@[simp] theorem State.setWrQ_tap (t c x) : (s.setWrQ t c x).tap = s.tap := rfl
@[simp] theorem State.setWrQ_ports (t c x) : (s.setWrQ t c x).ports = s.ports := rfl
@[simp] theorem State.setWrQ_nq (t c x) : (s.setWrQ t c x).nq = s.nq := rfl
@[simp] theorem State.setWrQ_buf (t c x) : (s.setWrQ t c x).buf = s.buf := rfl
@[simp] theorem State.setWrQ_memp (t c x) : (s.setWrQ t c x).memp = s.memp := rfl
@[simp] theorem State.setWrQ_slots (t c x) : (s.setWrQ t c x).slots = s.slots := rfl
@[simp] theorem State.setArm_part (t c x) : (s.setArm t c x).part = s.part := rfl
@[simp] theorem State.setArm_now (t c x) : (s.setArm t c x).now = s.now := rfl
@[simp] theorem State.setArm_free (t c x) : (s.setArm t c x).free = s.free := rfl
@[simp] theorem State.setArm_pending (t c x) : (s.setArm t c x).pending = s.pending := rfl
@[simp] theorem State.setArm_out (t c x) : (s.setArm t c x).out = s.out := rfl
@[simp] theorem State.setArm_regs (t c x) : (s.setArm t c x).regs = s.regs := rfl
@[simp] theorem State.setArm_irq (t c x) : (s.setArm t c x).irq = s.irq := rfl
@[simp] theorem State.setArm_owl (t c x) : (s.setArm t c x).owl = s.owl := rfl
@[simp] theorem State.setArm_mgmt (t c x) : (s.setArm t c x).mgmt = s.mgmt := rfl
@[simp] theorem State.setArm_flash (t c x) : (s.setArm t c x).flash = s.flash := rfl
@[simp] theorem State.setArm_power (t c x) : (s.setArm t c x).power = s.power := rfl
@[simp] theorem State.setArm_tap (t c x) : (s.setArm t c x).tap = s.tap := rfl
@[simp] theorem State.setArm_ports (t c x) : (s.setArm t c x).ports = s.ports := rfl
@[simp] theorem State.setArm_nq (t c x) : (s.setArm t c x).nq = s.nq := rfl
@[simp] theorem State.setArm_buf (t c x) : (s.setArm t c x).buf = s.buf := rfl
@[simp] theorem State.setArm_memp (t c x) : (s.setArm t c x).memp = s.memp := rfl
@[simp] theorem State.setArm_slots (t c x) : (s.setArm t c x).slots = s.slots := rfl
@[simp] theorem State.setReader_part (i r x) : (s.setReader i r x).part = s.part := rfl
@[simp] theorem State.setReader_now (i r x) : (s.setReader i r x).now = s.now := rfl
@[simp] theorem State.setReader_free (i r x) : (s.setReader i r x).free = s.free := rfl
@[simp] theorem State.setReader_pending (i r x) : (s.setReader i r x).pending = s.pending := rfl
@[simp] theorem State.setReader_out (i r x) : (s.setReader i r x).out = s.out := rfl
@[simp] theorem State.setReader_regs (i r x) : (s.setReader i r x).regs = s.regs := rfl
@[simp] theorem State.setReader_irq (i r x) : (s.setReader i r x).irq = s.irq := rfl
@[simp] theorem State.setReader_owl (i r x) : (s.setReader i r x).owl = s.owl := rfl
@[simp] theorem State.setReader_mgmt (i r x) : (s.setReader i r x).mgmt = s.mgmt := rfl
@[simp] theorem State.setReader_flash (i r x) : (s.setReader i r x).flash = s.flash := rfl
@[simp] theorem State.setReader_power (i r x) : (s.setReader i r x).power = s.power := rfl
@[simp] theorem State.setReader_tap (i r x) : (s.setReader i r x).tap = s.tap := rfl
@[simp] theorem State.setReader_ports (i r x) : (s.setReader i r x).ports = s.ports := rfl
@[simp] theorem State.setReader_nq (i r x) : (s.setReader i r x).nq = s.nq := rfl
@[simp] theorem State.setReader_buf (i r x) : (s.setReader i r x).buf = s.buf := rfl
@[simp] theorem State.setReader_memp (i r x) : (s.setReader i r x).memp = s.memp := rfl
@[simp] theorem State.setReader_slots (i r x) : (s.setReader i r x).slots = s.slots := rfl
@[simp] theorem State.setHeadS_part (i x) : (s.setHeadS i x).part = s.part := rfl
@[simp] theorem State.setHeadS_now (i x) : (s.setHeadS i x).now = s.now := rfl
@[simp] theorem State.setHeadS_free (i x) : (s.setHeadS i x).free = s.free := rfl
@[simp] theorem State.setHeadS_pending (i x) : (s.setHeadS i x).pending = s.pending := rfl
@[simp] theorem State.setHeadS_out (i x) : (s.setHeadS i x).out = s.out := rfl
@[simp] theorem State.setHeadS_regs (i x) : (s.setHeadS i x).regs = s.regs := rfl
@[simp] theorem State.setHeadS_irq (i x) : (s.setHeadS i x).irq = s.irq := rfl
@[simp] theorem State.setHeadS_owl (i x) : (s.setHeadS i x).owl = s.owl := rfl
@[simp] theorem State.setHeadS_mgmt (i x) : (s.setHeadS i x).mgmt = s.mgmt := rfl
@[simp] theorem State.setHeadS_flash (i x) : (s.setHeadS i x).flash = s.flash := rfl
@[simp] theorem State.setHeadS_power (i x) : (s.setHeadS i x).power = s.power := rfl
@[simp] theorem State.setHeadS_tap (i x) : (s.setHeadS i x).tap = s.tap := rfl
@[simp] theorem State.setHeadS_ports (i x) : (s.setHeadS i x).ports = s.ports := rfl
@[simp] theorem State.setHeadS_nq (i x) : (s.setHeadS i x).nq = s.nq := rfl
@[simp] theorem State.setHeadS_buf (i x) : (s.setHeadS i x).buf = s.buf := rfl
@[simp] theorem State.setHeadS_memp (i x) : (s.setHeadS i x).memp = s.memp := rfl
@[simp] theorem State.setHeadS_slots (i x) : (s.setHeadS i x).slots = s.slots := rfl
@[simp] theorem State.setCtl_part (t c x) : (s.setCtl t c x).part = s.part := rfl
@[simp] theorem State.setCtl_now (t c x) : (s.setCtl t c x).now = s.now := rfl
@[simp] theorem State.setCtl_free (t c x) : (s.setCtl t c x).free = s.free := rfl
@[simp] theorem State.setCtl_pending (t c x) : (s.setCtl t c x).pending = s.pending := rfl
@[simp] theorem State.setCtl_out (t c x) : (s.setCtl t c x).out = s.out := rfl
@[simp] theorem State.setCtl_regs (t c x) : (s.setCtl t c x).regs = s.regs := rfl
@[simp] theorem State.setCtl_irq (t c x) : (s.setCtl t c x).irq = s.irq := rfl
@[simp] theorem State.setCtl_owl (t c x) : (s.setCtl t c x).owl = s.owl := rfl
@[simp] theorem State.setCtl_mgmt (t c x) : (s.setCtl t c x).mgmt = s.mgmt := rfl
@[simp] theorem State.setCtl_flash (t c x) : (s.setCtl t c x).flash = s.flash := rfl
@[simp] theorem State.setCtl_power (t c x) : (s.setCtl t c x).power = s.power := rfl
@[simp] theorem State.setCtl_tap (t c x) : (s.setCtl t c x).tap = s.tap := rfl
@[simp] theorem State.setCtl_ports (t c x) : (s.setCtl t c x).ports = s.ports := rfl
@[simp] theorem State.setCtl_nq (t c x) : (s.setCtl t c x).nq = s.nq := rfl
@[simp] theorem State.setCtl_buf (t c x) : (s.setCtl t c x).buf = s.buf := rfl
@[simp] theorem State.setCtl_memp (t c x) : (s.setCtl t c x).memp = s.memp := rfl
@[simp] theorem State.setCtl_slots (t c x) : (s.setCtl t c x).slots = s.slots := rfl
@[simp] theorem State.setSpn_part (t x) : (s.setSpn t x).part = s.part := rfl
@[simp] theorem State.setSpn_now (t x) : (s.setSpn t x).now = s.now := rfl
@[simp] theorem State.setSpn_free (t x) : (s.setSpn t x).free = s.free := rfl
@[simp] theorem State.setSpn_pending (t x) : (s.setSpn t x).pending = s.pending := rfl
@[simp] theorem State.setSpn_out (t x) : (s.setSpn t x).out = s.out := rfl
@[simp] theorem State.setSpn_regs (t x) : (s.setSpn t x).regs = s.regs := rfl
@[simp] theorem State.setSpn_irq (t x) : (s.setSpn t x).irq = s.irq := rfl
@[simp] theorem State.setSpn_owl (t x) : (s.setSpn t x).owl = s.owl := rfl
@[simp] theorem State.setSpn_mgmt (t x) : (s.setSpn t x).mgmt = s.mgmt := rfl
@[simp] theorem State.setSpn_flash (t x) : (s.setSpn t x).flash = s.flash := rfl
@[simp] theorem State.setSpn_power (t x) : (s.setSpn t x).power = s.power := rfl
@[simp] theorem State.setSpn_tap (t x) : (s.setSpn t x).tap = s.tap := rfl
@[simp] theorem State.setSpn_ports (t x) : (s.setSpn t x).ports = s.ports := rfl
@[simp] theorem State.setSpn_nq (t x) : (s.setSpn t x).nq = s.nq := rfl
@[simp] theorem State.setSpn_buf (t x) : (s.setSpn t x).buf = s.buf := rfl
@[simp] theorem State.setSpn_memp (t x) : (s.setSpn t x).memp = s.memp := rfl
@[simp] theorem State.setSpn_slots (t x) : (s.setSpn t x).slots = s.slots := rfl
@[simp] theorem State.setEng_part (e x) : (s.setEng e x).part = s.part := rfl
@[simp] theorem State.setEng_now (e x) : (s.setEng e x).now = s.now := rfl
@[simp] theorem State.setEng_free (e x) : (s.setEng e x).free = s.free := rfl
@[simp] theorem State.setEng_pending (e x) : (s.setEng e x).pending = s.pending := rfl
@[simp] theorem State.setEng_out (e x) : (s.setEng e x).out = s.out := rfl
@[simp] theorem State.setEng_regs (e x) : (s.setEng e x).regs = s.regs := rfl
@[simp] theorem State.setEng_irq (e x) : (s.setEng e x).irq = s.irq := rfl
@[simp] theorem State.setEng_owl (e x) : (s.setEng e x).owl = s.owl := rfl
@[simp] theorem State.setEng_mgmt (e x) : (s.setEng e x).mgmt = s.mgmt := rfl
@[simp] theorem State.setEng_flash (e x) : (s.setEng e x).flash = s.flash := rfl
@[simp] theorem State.setEng_power (e x) : (s.setEng e x).power = s.power := rfl
@[simp] theorem State.setEng_tap (e x) : (s.setEng e x).tap = s.tap := rfl
@[simp] theorem State.setEng_ports (e x) : (s.setEng e x).ports = s.ports := rfl
@[simp] theorem State.setEng_nq (e x) : (s.setEng e x).nq = s.nq := rfl
@[simp] theorem State.setEng_buf (e x) : (s.setEng e x).buf = s.buf := rfl
@[simp] theorem State.setEng_memp (e x) : (s.setEng e x).memp = s.memp := rfl
@[simp] theorem State.setEng_slots (e x) : (s.setEng e x).slots = s.slots := rfl
@[simp] theorem State.emit_out (x) : (s.emit x).out = x :: s.out := rfl
@[simp] theorem State.took_free : s.took.free = s.free + 1 := rfl

/-! ### Tables of units -/

@[simp] theorem State.setLink_link (t e x) : (s.setLink t e x).link t e = x := Tab.at_to_self _ _ _ _
@[simp] theorem State.setLink_lane (t e x t' l') : (s.setLink t e x).lane t' l' = s.lane t' l' := rfl
@[simp] theorem State.setLink_head (t e x i') : (s.setLink t e x).head i' = s.head i' := rfl
@[simp] theorem State.setLink_det (t e x t') : (s.setLink t e x).det t' = s.det t' := rfl
@[simp] theorem State.setLink_ctx (t e x t' i') : (s.setLink t e x).ctx t' i' = s.ctx t' i' := rfl
@[simp] theorem State.setLink_headW (t e x i') : (s.setLink t e x).headW i' = s.headW i' := rfl
@[simp] theorem State.setLink_wr (t e x t') : (s.setLink t e x).wr t' = s.wr t' := rfl
@[simp] theorem State.setLink_wrQ (t e x t' c') : (s.setLink t e x).wrQ t' c' = s.wrQ t' c' := rfl
@[simp] theorem State.setLink_arm (t e x t' c') : (s.setLink t e x).arm t' c' = s.arm t' c' := rfl
@[simp] theorem State.setLink_reader (t e x i' r') : (s.setLink t e x).reader i' r' = s.reader i' r' := rfl
@[simp] theorem State.setLink_headS (t e x i') : (s.setLink t e x).headS i' = s.headS i' := rfl
@[simp] theorem State.setLink_ctl (t e x t' c') : (s.setLink t e x).ctl t' c' = s.ctl t' c' := rfl
@[simp] theorem State.setLink_spn (t e x t') : (s.setLink t e x).spn t' = s.spn t' := rfl
@[simp] theorem State.setLink_eng (t e x e') : (s.setLink t e x).eng e' = s.eng e' := rfl
@[simp] theorem State.setLane_lane (t l x) : (s.setLane t l x).lane t l = x := Tab.at_to_self _ _ _ _
@[simp] theorem State.setLane_link (t l x t' e') : (s.setLane t l x).link t' e' = s.link t' e' := rfl
@[simp] theorem State.setLane_head (t l x i') : (s.setLane t l x).head i' = s.head i' := rfl
@[simp] theorem State.setLane_det (t l x t') : (s.setLane t l x).det t' = s.det t' := rfl
@[simp] theorem State.setLane_ctx (t l x t' i') : (s.setLane t l x).ctx t' i' = s.ctx t' i' := rfl
@[simp] theorem State.setLane_headW (t l x i') : (s.setLane t l x).headW i' = s.headW i' := rfl
@[simp] theorem State.setLane_wr (t l x t') : (s.setLane t l x).wr t' = s.wr t' := rfl
@[simp] theorem State.setLane_wrQ (t l x t' c') : (s.setLane t l x).wrQ t' c' = s.wrQ t' c' := rfl
@[simp] theorem State.setLane_arm (t l x t' c') : (s.setLane t l x).arm t' c' = s.arm t' c' := rfl
@[simp] theorem State.setLane_reader (t l x i' r') : (s.setLane t l x).reader i' r' = s.reader i' r' := rfl
@[simp] theorem State.setLane_headS (t l x i') : (s.setLane t l x).headS i' = s.headS i' := rfl
@[simp] theorem State.setLane_ctl (t l x t' c') : (s.setLane t l x).ctl t' c' = s.ctl t' c' := rfl
@[simp] theorem State.setLane_spn (t l x t') : (s.setLane t l x).spn t' = s.spn t' := rfl
@[simp] theorem State.setLane_eng (t l x e') : (s.setLane t l x).eng e' = s.eng e' := rfl
@[simp] theorem State.setHead_head (i x) : (s.setHead i x).head i = x := Tab.at_to_self _ _ _ _
@[simp] theorem State.setHead_link (i x t' e') : (s.setHead i x).link t' e' = s.link t' e' := rfl
@[simp] theorem State.setHead_lane (i x t' l') : (s.setHead i x).lane t' l' = s.lane t' l' := rfl
@[simp] theorem State.setHead_det (i x t') : (s.setHead i x).det t' = s.det t' := rfl
@[simp] theorem State.setHead_ctx (i x t' i') : (s.setHead i x).ctx t' i' = s.ctx t' i' := rfl
@[simp] theorem State.setHead_headW (i x i') : (s.setHead i x).headW i' = s.headW i' := rfl
@[simp] theorem State.setHead_wr (i x t') : (s.setHead i x).wr t' = s.wr t' := rfl
@[simp] theorem State.setHead_wrQ (i x t' c') : (s.setHead i x).wrQ t' c' = s.wrQ t' c' := rfl
@[simp] theorem State.setHead_arm (i x t' c') : (s.setHead i x).arm t' c' = s.arm t' c' := rfl
@[simp] theorem State.setHead_reader (i x i' r') : (s.setHead i x).reader i' r' = s.reader i' r' := rfl
@[simp] theorem State.setHead_headS (i x i') : (s.setHead i x).headS i' = s.headS i' := rfl
@[simp] theorem State.setHead_ctl (i x t' c') : (s.setHead i x).ctl t' c' = s.ctl t' c' := rfl
@[simp] theorem State.setHead_spn (i x t') : (s.setHead i x).spn t' = s.spn t' := rfl
@[simp] theorem State.setHead_eng (i x e') : (s.setHead i x).eng e' = s.eng e' := rfl
@[simp] theorem State.setDet_det (t x) : (s.setDet t x).det t = x := Tab.at_to_self _ _ _ _
@[simp] theorem State.setDet_link (t x t' e') : (s.setDet t x).link t' e' = s.link t' e' := rfl
@[simp] theorem State.setDet_lane (t x t' l') : (s.setDet t x).lane t' l' = s.lane t' l' := rfl
@[simp] theorem State.setDet_head (t x i') : (s.setDet t x).head i' = s.head i' := rfl
@[simp] theorem State.setDet_ctx (t x t' i') : (s.setDet t x).ctx t' i' = s.ctx t' i' := rfl
@[simp] theorem State.setDet_headW (t x i') : (s.setDet t x).headW i' = s.headW i' := rfl
@[simp] theorem State.setDet_wr (t x t') : (s.setDet t x).wr t' = s.wr t' := rfl
@[simp] theorem State.setDet_wrQ (t x t' c') : (s.setDet t x).wrQ t' c' = s.wrQ t' c' := rfl
@[simp] theorem State.setDet_arm (t x t' c') : (s.setDet t x).arm t' c' = s.arm t' c' := rfl
@[simp] theorem State.setDet_reader (t x i' r') : (s.setDet t x).reader i' r' = s.reader i' r' := rfl
@[simp] theorem State.setDet_headS (t x i') : (s.setDet t x).headS i' = s.headS i' := rfl
@[simp] theorem State.setDet_ctl (t x t' c') : (s.setDet t x).ctl t' c' = s.ctl t' c' := rfl
@[simp] theorem State.setDet_spn (t x t') : (s.setDet t x).spn t' = s.spn t' := rfl
@[simp] theorem State.setDet_eng (t x e') : (s.setDet t x).eng e' = s.eng e' := rfl
@[simp] theorem State.setCtx_ctx (t i x) : (s.setCtx t i x).ctx t i = x := Tab.at_to_self _ _ _ _
@[simp] theorem State.setCtx_link (t i x t' e') : (s.setCtx t i x).link t' e' = s.link t' e' := rfl
@[simp] theorem State.setCtx_lane (t i x t' l') : (s.setCtx t i x).lane t' l' = s.lane t' l' := rfl
@[simp] theorem State.setCtx_head (t i x i') : (s.setCtx t i x).head i' = s.head i' := rfl
@[simp] theorem State.setCtx_det (t i x t') : (s.setCtx t i x).det t' = s.det t' := rfl
@[simp] theorem State.setCtx_headW (t i x i') : (s.setCtx t i x).headW i' = s.headW i' := rfl
@[simp] theorem State.setCtx_wr (t i x t') : (s.setCtx t i x).wr t' = s.wr t' := rfl
@[simp] theorem State.setCtx_wrQ (t i x t' c') : (s.setCtx t i x).wrQ t' c' = s.wrQ t' c' := rfl
@[simp] theorem State.setCtx_arm (t i x t' c') : (s.setCtx t i x).arm t' c' = s.arm t' c' := rfl
@[simp] theorem State.setCtx_reader (t i x i' r') : (s.setCtx t i x).reader i' r' = s.reader i' r' := rfl
@[simp] theorem State.setCtx_headS (t i x i') : (s.setCtx t i x).headS i' = s.headS i' := rfl
@[simp] theorem State.setCtx_ctl (t i x t' c') : (s.setCtx t i x).ctl t' c' = s.ctl t' c' := rfl
@[simp] theorem State.setCtx_spn (t i x t') : (s.setCtx t i x).spn t' = s.spn t' := rfl
@[simp] theorem State.setCtx_eng (t i x e') : (s.setCtx t i x).eng e' = s.eng e' := rfl
@[simp] theorem State.setHeadW_headW (i x) : (s.setHeadW i x).headW i = x := Tab.at_to_self _ _ _ _
@[simp] theorem State.setHeadW_link (i x t' e') : (s.setHeadW i x).link t' e' = s.link t' e' := rfl
@[simp] theorem State.setHeadW_lane (i x t' l') : (s.setHeadW i x).lane t' l' = s.lane t' l' := rfl
@[simp] theorem State.setHeadW_head (i x i') : (s.setHeadW i x).head i' = s.head i' := rfl
@[simp] theorem State.setHeadW_det (i x t') : (s.setHeadW i x).det t' = s.det t' := rfl
@[simp] theorem State.setHeadW_ctx (i x t' i') : (s.setHeadW i x).ctx t' i' = s.ctx t' i' := rfl
@[simp] theorem State.setHeadW_wr (i x t') : (s.setHeadW i x).wr t' = s.wr t' := rfl
@[simp] theorem State.setHeadW_wrQ (i x t' c') : (s.setHeadW i x).wrQ t' c' = s.wrQ t' c' := rfl
@[simp] theorem State.setHeadW_arm (i x t' c') : (s.setHeadW i x).arm t' c' = s.arm t' c' := rfl
@[simp] theorem State.setHeadW_reader (i x i' r') : (s.setHeadW i x).reader i' r' = s.reader i' r' := rfl
@[simp] theorem State.setHeadW_headS (i x i') : (s.setHeadW i x).headS i' = s.headS i' := rfl
@[simp] theorem State.setHeadW_ctl (i x t' c') : (s.setHeadW i x).ctl t' c' = s.ctl t' c' := rfl
@[simp] theorem State.setHeadW_spn (i x t') : (s.setHeadW i x).spn t' = s.spn t' := rfl
@[simp] theorem State.setHeadW_eng (i x e') : (s.setHeadW i x).eng e' = s.eng e' := rfl
@[simp] theorem State.setWr_wr (t x) : (s.setWr t x).wr t = x := Tab.at_to_self _ _ _ _
@[simp] theorem State.setWr_link (t x t' e') : (s.setWr t x).link t' e' = s.link t' e' := rfl
@[simp] theorem State.setWr_lane (t x t' l') : (s.setWr t x).lane t' l' = s.lane t' l' := rfl
@[simp] theorem State.setWr_head (t x i') : (s.setWr t x).head i' = s.head i' := rfl
@[simp] theorem State.setWr_det (t x t') : (s.setWr t x).det t' = s.det t' := rfl
@[simp] theorem State.setWr_ctx (t x t' i') : (s.setWr t x).ctx t' i' = s.ctx t' i' := rfl
@[simp] theorem State.setWr_headW (t x i') : (s.setWr t x).headW i' = s.headW i' := rfl
@[simp] theorem State.setWr_wrQ (t x t' c') : (s.setWr t x).wrQ t' c' = s.wrQ t' c' := rfl
@[simp] theorem State.setWr_arm (t x t' c') : (s.setWr t x).arm t' c' = s.arm t' c' := rfl
@[simp] theorem State.setWr_reader (t x i' r') : (s.setWr t x).reader i' r' = s.reader i' r' := rfl
@[simp] theorem State.setWr_headS (t x i') : (s.setWr t x).headS i' = s.headS i' := rfl
@[simp] theorem State.setWr_ctl (t x t' c') : (s.setWr t x).ctl t' c' = s.ctl t' c' := rfl
@[simp] theorem State.setWr_spn (t x t') : (s.setWr t x).spn t' = s.spn t' := rfl
@[simp] theorem State.setWr_eng (t x e') : (s.setWr t x).eng e' = s.eng e' := rfl
@[simp] theorem State.setWrQ_wrQ (t c x) : (s.setWrQ t c x).wrQ t c = x := Tab.at_to_self _ _ _ _
@[simp] theorem State.setWrQ_link (t c x t' e') : (s.setWrQ t c x).link t' e' = s.link t' e' := rfl
@[simp] theorem State.setWrQ_lane (t c x t' l') : (s.setWrQ t c x).lane t' l' = s.lane t' l' := rfl
@[simp] theorem State.setWrQ_head (t c x i') : (s.setWrQ t c x).head i' = s.head i' := rfl
@[simp] theorem State.setWrQ_det (t c x t') : (s.setWrQ t c x).det t' = s.det t' := rfl
@[simp] theorem State.setWrQ_ctx (t c x t' i') : (s.setWrQ t c x).ctx t' i' = s.ctx t' i' := rfl
@[simp] theorem State.setWrQ_headW (t c x i') : (s.setWrQ t c x).headW i' = s.headW i' := rfl
@[simp] theorem State.setWrQ_wr (t c x t') : (s.setWrQ t c x).wr t' = s.wr t' := rfl
@[simp] theorem State.setWrQ_arm (t c x t' c') : (s.setWrQ t c x).arm t' c' = s.arm t' c' := rfl
@[simp] theorem State.setWrQ_reader (t c x i' r') : (s.setWrQ t c x).reader i' r' = s.reader i' r' := rfl
@[simp] theorem State.setWrQ_headS (t c x i') : (s.setWrQ t c x).headS i' = s.headS i' := rfl
@[simp] theorem State.setWrQ_ctl (t c x t' c') : (s.setWrQ t c x).ctl t' c' = s.ctl t' c' := rfl
@[simp] theorem State.setWrQ_spn (t c x t') : (s.setWrQ t c x).spn t' = s.spn t' := rfl
@[simp] theorem State.setWrQ_eng (t c x e') : (s.setWrQ t c x).eng e' = s.eng e' := rfl
@[simp] theorem State.setArm_arm (t c x) : (s.setArm t c x).arm t c = x := Tab.at_to_self _ _ _ _
@[simp] theorem State.setArm_link (t c x t' e') : (s.setArm t c x).link t' e' = s.link t' e' := rfl
@[simp] theorem State.setArm_lane (t c x t' l') : (s.setArm t c x).lane t' l' = s.lane t' l' := rfl
@[simp] theorem State.setArm_head (t c x i') : (s.setArm t c x).head i' = s.head i' := rfl
@[simp] theorem State.setArm_det (t c x t') : (s.setArm t c x).det t' = s.det t' := rfl
@[simp] theorem State.setArm_ctx (t c x t' i') : (s.setArm t c x).ctx t' i' = s.ctx t' i' := rfl
@[simp] theorem State.setArm_headW (t c x i') : (s.setArm t c x).headW i' = s.headW i' := rfl
@[simp] theorem State.setArm_wr (t c x t') : (s.setArm t c x).wr t' = s.wr t' := rfl
@[simp] theorem State.setArm_wrQ (t c x t' c') : (s.setArm t c x).wrQ t' c' = s.wrQ t' c' := rfl
@[simp] theorem State.setArm_reader (t c x i' r') : (s.setArm t c x).reader i' r' = s.reader i' r' := rfl
@[simp] theorem State.setArm_headS (t c x i') : (s.setArm t c x).headS i' = s.headS i' := rfl
@[simp] theorem State.setArm_ctl (t c x t' c') : (s.setArm t c x).ctl t' c' = s.ctl t' c' := rfl
@[simp] theorem State.setArm_spn (t c x t') : (s.setArm t c x).spn t' = s.spn t' := rfl
@[simp] theorem State.setArm_eng (t c x e') : (s.setArm t c x).eng e' = s.eng e' := rfl
@[simp] theorem State.setReader_reader (i r x) : (s.setReader i r x).reader i r = x := Tab.at_to_self _ _ _ _
@[simp] theorem State.setReader_link (i r x t' e') : (s.setReader i r x).link t' e' = s.link t' e' := rfl
@[simp] theorem State.setReader_lane (i r x t' l') : (s.setReader i r x).lane t' l' = s.lane t' l' := rfl
@[simp] theorem State.setReader_head (i r x i') : (s.setReader i r x).head i' = s.head i' := rfl
@[simp] theorem State.setReader_det (i r x t') : (s.setReader i r x).det t' = s.det t' := rfl
@[simp] theorem State.setReader_ctx (i r x t' i') : (s.setReader i r x).ctx t' i' = s.ctx t' i' := rfl
@[simp] theorem State.setReader_headW (i r x i') : (s.setReader i r x).headW i' = s.headW i' := rfl
@[simp] theorem State.setReader_wr (i r x t') : (s.setReader i r x).wr t' = s.wr t' := rfl
@[simp] theorem State.setReader_wrQ (i r x t' c') : (s.setReader i r x).wrQ t' c' = s.wrQ t' c' := rfl
@[simp] theorem State.setReader_arm (i r x t' c') : (s.setReader i r x).arm t' c' = s.arm t' c' := rfl
@[simp] theorem State.setReader_headS (i r x i') : (s.setReader i r x).headS i' = s.headS i' := rfl
@[simp] theorem State.setReader_ctl (i r x t' c') : (s.setReader i r x).ctl t' c' = s.ctl t' c' := rfl
@[simp] theorem State.setReader_spn (i r x t') : (s.setReader i r x).spn t' = s.spn t' := rfl
@[simp] theorem State.setReader_eng (i r x e') : (s.setReader i r x).eng e' = s.eng e' := rfl
@[simp] theorem State.setHeadS_headS (i x) : (s.setHeadS i x).headS i = x := Tab.at_to_self _ _ _ _
@[simp] theorem State.setHeadS_link (i x t' e') : (s.setHeadS i x).link t' e' = s.link t' e' := rfl
@[simp] theorem State.setHeadS_lane (i x t' l') : (s.setHeadS i x).lane t' l' = s.lane t' l' := rfl
@[simp] theorem State.setHeadS_head (i x i') : (s.setHeadS i x).head i' = s.head i' := rfl
@[simp] theorem State.setHeadS_det (i x t') : (s.setHeadS i x).det t' = s.det t' := rfl
@[simp] theorem State.setHeadS_ctx (i x t' i') : (s.setHeadS i x).ctx t' i' = s.ctx t' i' := rfl
@[simp] theorem State.setHeadS_headW (i x i') : (s.setHeadS i x).headW i' = s.headW i' := rfl
@[simp] theorem State.setHeadS_wr (i x t') : (s.setHeadS i x).wr t' = s.wr t' := rfl
@[simp] theorem State.setHeadS_wrQ (i x t' c') : (s.setHeadS i x).wrQ t' c' = s.wrQ t' c' := rfl
@[simp] theorem State.setHeadS_arm (i x t' c') : (s.setHeadS i x).arm t' c' = s.arm t' c' := rfl
@[simp] theorem State.setHeadS_reader (i x i' r') : (s.setHeadS i x).reader i' r' = s.reader i' r' := rfl
@[simp] theorem State.setHeadS_ctl (i x t' c') : (s.setHeadS i x).ctl t' c' = s.ctl t' c' := rfl
@[simp] theorem State.setHeadS_spn (i x t') : (s.setHeadS i x).spn t' = s.spn t' := rfl
@[simp] theorem State.setHeadS_eng (i x e') : (s.setHeadS i x).eng e' = s.eng e' := rfl
@[simp] theorem State.setCtl_ctl (t c x) : (s.setCtl t c x).ctl t c = x := Tab.at_to_self _ _ _ _
@[simp] theorem State.setCtl_link (t c x t' e') : (s.setCtl t c x).link t' e' = s.link t' e' := rfl
@[simp] theorem State.setCtl_lane (t c x t' l') : (s.setCtl t c x).lane t' l' = s.lane t' l' := rfl
@[simp] theorem State.setCtl_head (t c x i') : (s.setCtl t c x).head i' = s.head i' := rfl
@[simp] theorem State.setCtl_det (t c x t') : (s.setCtl t c x).det t' = s.det t' := rfl
@[simp] theorem State.setCtl_ctx (t c x t' i') : (s.setCtl t c x).ctx t' i' = s.ctx t' i' := rfl
@[simp] theorem State.setCtl_headW (t c x i') : (s.setCtl t c x).headW i' = s.headW i' := rfl
@[simp] theorem State.setCtl_wr (t c x t') : (s.setCtl t c x).wr t' = s.wr t' := rfl
@[simp] theorem State.setCtl_wrQ (t c x t' c') : (s.setCtl t c x).wrQ t' c' = s.wrQ t' c' := rfl
@[simp] theorem State.setCtl_arm (t c x t' c') : (s.setCtl t c x).arm t' c' = s.arm t' c' := rfl
@[simp] theorem State.setCtl_reader (t c x i' r') : (s.setCtl t c x).reader i' r' = s.reader i' r' := rfl
@[simp] theorem State.setCtl_headS (t c x i') : (s.setCtl t c x).headS i' = s.headS i' := rfl
@[simp] theorem State.setCtl_spn (t c x t') : (s.setCtl t c x).spn t' = s.spn t' := rfl
@[simp] theorem State.setCtl_eng (t c x e') : (s.setCtl t c x).eng e' = s.eng e' := rfl
@[simp] theorem State.setSpn_spn (t x) : (s.setSpn t x).spn t = x := Tab.at_to_self _ _ _ _
@[simp] theorem State.setSpn_link (t x t' e') : (s.setSpn t x).link t' e' = s.link t' e' := rfl
@[simp] theorem State.setSpn_lane (t x t' l') : (s.setSpn t x).lane t' l' = s.lane t' l' := rfl
@[simp] theorem State.setSpn_head (t x i') : (s.setSpn t x).head i' = s.head i' := rfl
@[simp] theorem State.setSpn_det (t x t') : (s.setSpn t x).det t' = s.det t' := rfl
@[simp] theorem State.setSpn_ctx (t x t' i') : (s.setSpn t x).ctx t' i' = s.ctx t' i' := rfl
@[simp] theorem State.setSpn_headW (t x i') : (s.setSpn t x).headW i' = s.headW i' := rfl
@[simp] theorem State.setSpn_wr (t x t') : (s.setSpn t x).wr t' = s.wr t' := rfl
@[simp] theorem State.setSpn_wrQ (t x t' c') : (s.setSpn t x).wrQ t' c' = s.wrQ t' c' := rfl
@[simp] theorem State.setSpn_arm (t x t' c') : (s.setSpn t x).arm t' c' = s.arm t' c' := rfl
@[simp] theorem State.setSpn_reader (t x i' r') : (s.setSpn t x).reader i' r' = s.reader i' r' := rfl
@[simp] theorem State.setSpn_headS (t x i') : (s.setSpn t x).headS i' = s.headS i' := rfl
@[simp] theorem State.setSpn_ctl (t x t' c') : (s.setSpn t x).ctl t' c' = s.ctl t' c' := rfl
@[simp] theorem State.setSpn_eng (t x e') : (s.setSpn t x).eng e' = s.eng e' := rfl
@[simp] theorem State.setEng_eng (e x) : (s.setEng e x).eng e = x := Tab.at_to_self _ _ _ _
@[simp] theorem State.setEng_link (e x t' e') : (s.setEng e x).link t' e' = s.link t' e' := rfl
@[simp] theorem State.setEng_lane (e x t' l') : (s.setEng e x).lane t' l' = s.lane t' l' := rfl
@[simp] theorem State.setEng_head (e x i') : (s.setEng e x).head i' = s.head i' := rfl
@[simp] theorem State.setEng_det (e x t') : (s.setEng e x).det t' = s.det t' := rfl
@[simp] theorem State.setEng_ctx (e x t' i') : (s.setEng e x).ctx t' i' = s.ctx t' i' := rfl
@[simp] theorem State.setEng_headW (e x i') : (s.setEng e x).headW i' = s.headW i' := rfl
@[simp] theorem State.setEng_wr (e x t') : (s.setEng e x).wr t' = s.wr t' := rfl
@[simp] theorem State.setEng_wrQ (e x t' c') : (s.setEng e x).wrQ t' c' = s.wrQ t' c' := rfl
@[simp] theorem State.setEng_arm (e x t' c') : (s.setEng e x).arm t' c' = s.arm t' c' := rfl
@[simp] theorem State.setEng_reader (e x i' r') : (s.setEng e x).reader i' r' = s.reader i' r' := rfl
@[simp] theorem State.setEng_headS (e x i') : (s.setEng e x).headS i' = s.headS i' := rfl
@[simp] theorem State.setEng_ctl (e x t' c') : (s.setEng e x).ctl t' c' = s.ctl t' c' := rfl
@[simp] theorem State.setEng_spn (e x t') : (s.setEng e x).spn t' = s.spn t' := rfl
@[simp] theorem State.setQp_qp (n x) : (s.setQp n x).qp n = x := Tab.at_to_self _ _ _ _
theorem State.setQp_qp_ne {n j} (x) (h : j ≠ n) : (s.setQp n x).qp j = s.qp j := Tab.at_to_ne _ _ _ h
@[simp] theorem State.setQp_assoc (n x j) : (s.setQp n x).assoc j = s.assoc j := rfl
@[simp] theorem State.setQp_cmd (n x j) : (s.setQp n x).cmd j = s.cmd j := rfl
@[simp] theorem State.setAssoc_assoc (c x) : (s.setAssoc c x).assoc c = x := Tab.at_to_self _ _ _ _
theorem State.setAssoc_assoc_ne {c j} (x) (h : j ≠ c) : (s.setAssoc c x).assoc j = s.assoc j := Tab.at_to_ne _ _ _ h
@[simp] theorem State.setAssoc_qp (c x j) : (s.setAssoc c x).qp j = s.qp j := rfl
@[simp] theorem State.setAssoc_cmd (c x j) : (s.setAssoc c x).cmd j = s.cmd j := rfl
@[simp] theorem State.setCmd_cmd (i x) : (s.setCmd i x).cmd i = x := Tab.at_to_self _ _ _ _
theorem State.setCmd_cmd_ne {i j} (x) (h : j ≠ i) : (s.setCmd i x).cmd j = s.cmd j := Tab.at_to_ne _ _ _ h
@[simp] theorem State.setCmd_qp (i x j) : (s.setCmd i x).qp j = s.qp j := rfl
@[simp] theorem State.setCmd_assoc (i x j) : (s.setCmd i x).assoc j = s.assoc j := rfl
@[simp] theorem State.setSlot_slot (i x) : (s.setSlot i x).slot i = x := Tab.at_to_self _ _ _ _
theorem State.setSlot_slot_ne {i j} (x) (h : j ≠ i) : (s.setSlot i x).slot j = s.slot j := Tab.at_to_ne _ _ _ h
@[simp] theorem State.setSub_sub (i x) : (s.setSub i x).sub i = x := Tab.at_to_self _ _ _ _
theorem State.setSub_sub_ne {i j} (x) (h : j ≠ i) : (s.setSub i x).sub j = s.sub j := Tab.at_to_ne _ _ _ h
@[simp] theorem State.setTarget_target (ic n x) : (s.setTarget ic n x).target ic n = x := Tab.at_to_self _ _ _ _

/-! ### Registers -/

/-- A register reads as what was written to it. -/
@[simp] theorem State.setReg_reg (a w) : (s.setReg a w).reg a = w := Tab.get_set_self _ _ _ _

/-- Every other register reads as before. -/
theorem State.setReg_reg_ne {a b} (w) (h : b ≠ a) : (s.setReg a w).reg b = s.reg b := Tab.get_set_ne _ _ _ h

@[simp] theorem State.emit_reg (x b) : (s.emit x).reg b = s.reg b := rfl
@[simp] theorem State.emit_fld (x b hi lo) : (s.emit x).fld b hi lo = s.fld b hi lo := rfl
@[simp] theorem State.emit_bit (x b i') : (s.emit x).bit b i' = s.bit b i' := rfl
@[simp] theorem State.took_reg (b) : (s.took).reg b = s.reg b := rfl
@[simp] theorem State.took_fld (b hi lo) : (s.took).fld b hi lo = s.fld b hi lo := rfl
@[simp] theorem State.took_bit (b i') : (s.took).bit b i' = s.bit b i' := rfl
@[simp] theorem State.setTarget_reg (ic n x b) : (s.setTarget ic n x).reg b = s.reg b := rfl
@[simp] theorem State.setTarget_fld (ic n x b hi lo) : (s.setTarget ic n x).fld b hi lo = s.fld b hi lo := rfl
@[simp] theorem State.setTarget_bit (ic n x b i') : (s.setTarget ic n x).bit b i' = s.bit b i' := rfl
@[simp] theorem State.setQp_reg (n x b) : (s.setQp n x).reg b = s.reg b := rfl
@[simp] theorem State.setQp_fld (n x b hi lo) : (s.setQp n x).fld b hi lo = s.fld b hi lo := rfl
@[simp] theorem State.setQp_bit (n x b i') : (s.setQp n x).bit b i' = s.bit b i' := rfl
@[simp] theorem State.setAssoc_reg (c x b) : (s.setAssoc c x).reg b = s.reg b := rfl
@[simp] theorem State.setAssoc_fld (c x b hi lo) : (s.setAssoc c x).fld b hi lo = s.fld b hi lo := rfl
@[simp] theorem State.setAssoc_bit (c x b i') : (s.setAssoc c x).bit b i' = s.bit b i' := rfl
@[simp] theorem State.setCmd_reg (i x b) : (s.setCmd i x).reg b = s.reg b := rfl
@[simp] theorem State.setCmd_fld (i x b hi lo) : (s.setCmd i x).fld b hi lo = s.fld b hi lo := rfl
@[simp] theorem State.setCmd_bit (i x b i') : (s.setCmd i x).bit b i' = s.bit b i' := rfl
@[simp] theorem State.setSlot_reg (i x b) : (s.setSlot i x).reg b = s.reg b := rfl
@[simp] theorem State.setSlot_fld (i x b hi lo) : (s.setSlot i x).fld b hi lo = s.fld b hi lo := rfl
@[simp] theorem State.setSlot_bit (i x b i') : (s.setSlot i x).bit b i' = s.bit b i' := rfl
@[simp] theorem State.setSub_reg (i x b) : (s.setSub i x).reg b = s.reg b := rfl
@[simp] theorem State.setSub_fld (i x b hi lo) : (s.setSub i x).fld b hi lo = s.fld b hi lo := rfl
@[simp] theorem State.setSub_bit (i x b i') : (s.setSub i x).bit b i' = s.bit b i' := rfl
@[simp] theorem State.setLink_reg (t e x b) : (s.setLink t e x).reg b = s.reg b := rfl
@[simp] theorem State.setLink_fld (t e x b hi lo) : (s.setLink t e x).fld b hi lo = s.fld b hi lo := rfl
@[simp] theorem State.setLink_bit (t e x b i') : (s.setLink t e x).bit b i' = s.bit b i' := rfl
@[simp] theorem State.setLane_reg (t l x b) : (s.setLane t l x).reg b = s.reg b := rfl
@[simp] theorem State.setLane_fld (t l x b hi lo) : (s.setLane t l x).fld b hi lo = s.fld b hi lo := rfl
@[simp] theorem State.setLane_bit (t l x b i') : (s.setLane t l x).bit b i' = s.bit b i' := rfl
@[simp] theorem State.setHead_reg (i x b) : (s.setHead i x).reg b = s.reg b := rfl
@[simp] theorem State.setHead_fld (i x b hi lo) : (s.setHead i x).fld b hi lo = s.fld b hi lo := rfl
@[simp] theorem State.setHead_bit (i x b i') : (s.setHead i x).bit b i' = s.bit b i' := rfl
@[simp] theorem State.setDet_reg (t x b) : (s.setDet t x).reg b = s.reg b := rfl
@[simp] theorem State.setDet_fld (t x b hi lo) : (s.setDet t x).fld b hi lo = s.fld b hi lo := rfl
@[simp] theorem State.setDet_bit (t x b i') : (s.setDet t x).bit b i' = s.bit b i' := rfl
@[simp] theorem State.setCtx_reg (t i x b) : (s.setCtx t i x).reg b = s.reg b := rfl
@[simp] theorem State.setCtx_fld (t i x b hi lo) : (s.setCtx t i x).fld b hi lo = s.fld b hi lo := rfl
@[simp] theorem State.setCtx_bit (t i x b i') : (s.setCtx t i x).bit b i' = s.bit b i' := rfl
@[simp] theorem State.setHeadW_reg (i x b) : (s.setHeadW i x).reg b = s.reg b := rfl
@[simp] theorem State.setHeadW_fld (i x b hi lo) : (s.setHeadW i x).fld b hi lo = s.fld b hi lo := rfl
@[simp] theorem State.setHeadW_bit (i x b i') : (s.setHeadW i x).bit b i' = s.bit b i' := rfl
@[simp] theorem State.setWr_reg (t x b) : (s.setWr t x).reg b = s.reg b := rfl
@[simp] theorem State.setWr_fld (t x b hi lo) : (s.setWr t x).fld b hi lo = s.fld b hi lo := rfl
@[simp] theorem State.setWr_bit (t x b i') : (s.setWr t x).bit b i' = s.bit b i' := rfl
@[simp] theorem State.setWrQ_reg (t c x b) : (s.setWrQ t c x).reg b = s.reg b := rfl
@[simp] theorem State.setWrQ_fld (t c x b hi lo) : (s.setWrQ t c x).fld b hi lo = s.fld b hi lo := rfl
@[simp] theorem State.setWrQ_bit (t c x b i') : (s.setWrQ t c x).bit b i' = s.bit b i' := rfl
@[simp] theorem State.setArm_reg (t c x b) : (s.setArm t c x).reg b = s.reg b := rfl
@[simp] theorem State.setArm_fld (t c x b hi lo) : (s.setArm t c x).fld b hi lo = s.fld b hi lo := rfl
@[simp] theorem State.setArm_bit (t c x b i') : (s.setArm t c x).bit b i' = s.bit b i' := rfl
@[simp] theorem State.setReader_reg (i r x b) : (s.setReader i r x).reg b = s.reg b := rfl
@[simp] theorem State.setReader_fld (i r x b hi lo) : (s.setReader i r x).fld b hi lo = s.fld b hi lo := rfl
@[simp] theorem State.setReader_bit (i r x b i') : (s.setReader i r x).bit b i' = s.bit b i' := rfl
@[simp] theorem State.setHeadS_reg (i x b) : (s.setHeadS i x).reg b = s.reg b := rfl
@[simp] theorem State.setHeadS_fld (i x b hi lo) : (s.setHeadS i x).fld b hi lo = s.fld b hi lo := rfl
@[simp] theorem State.setHeadS_bit (i x b i') : (s.setHeadS i x).bit b i' = s.bit b i' := rfl
@[simp] theorem State.setCtl_reg (t c x b) : (s.setCtl t c x).reg b = s.reg b := rfl
@[simp] theorem State.setCtl_fld (t c x b hi lo) : (s.setCtl t c x).fld b hi lo = s.fld b hi lo := rfl
@[simp] theorem State.setCtl_bit (t c x b i') : (s.setCtl t c x).bit b i' = s.bit b i' := rfl
@[simp] theorem State.setSpn_reg (t x b) : (s.setSpn t x).reg b = s.reg b := rfl
@[simp] theorem State.setSpn_fld (t x b hi lo) : (s.setSpn t x).fld b hi lo = s.fld b hi lo := rfl
@[simp] theorem State.setSpn_bit (t x b i') : (s.setSpn t x).bit b i' = s.bit b i' := rfl
@[simp] theorem State.setEng_reg (e x b) : (s.setEng e x).reg b = s.reg b := rfl
@[simp] theorem State.setEng_fld (e x b hi lo) : (s.setEng e x).fld b hi lo = s.fld b hi lo := rfl
@[simp] theorem State.setEng_bit (e x b i') : (s.setEng e x).bit b i' = s.bit b i' := rfl

end Sys2Proof.Machine
end

