-- ==== Sys2Proof/Laws/Fields.lean ====
section
/-! SUPPORT. Bit fields of a word: the bits of a field that has been written are the number's, all others stay. -/

namespace Sys2Proof

theorem maskOf_getLsbD (hi lo i : Nat) : (maskOf hi lo).getLsbD i = (decide (i < 32) && decide (lo ≤ i) && decide (i < hi + 1)) := by
  unfold maskOf w32
  rw [BitVec.getLsbD_ofNat, Nat.testBit_shiftLeft, Nat.testBit_two_pow_sub_one]
  by_cases h1 : i < 32 <;> by_cases h2 : lo ≤ i <;> simp [h1, h2]
  omega

theorem place_getLsbD (hi lo n i : Nat) :
    (place hi lo n).getLsbD i = (decide (i < 32) && decide (lo ≤ i) && decide (i < hi + 1) && n.testBit (i - lo)) := by
  unfold place w32
  rw [BitVec.getLsbD_ofNat, Nat.testBit_shiftLeft, Nat.testBit_mod_two_pow]
  by_cases h2 : lo ≤ i
  · have e : (i - lo < hi + 1 - lo) = (i < hi + 1) := propext (by omega)
    simp only [e]
    by_cases h1 : i < 32 <;> simp [h1, h2]
  · simp [h2]

/-- Bit `i` of a word whose field has been written. -/
theorem setFld_getLsbD (w : Word) (hi lo n : Nat) {i : Nat} (h : i < 32) :
    (setFld w hi lo n).getLsbD i = if lo ≤ i ∧ i ≤ hi then n.testBit (i - lo) else w.getLsbD i := by
  unfold setFld
  rw [BitVec.getLsbD_or, BitVec.getLsbD_and, BitVec.getLsbD_not, maskOf_getLsbD, place_getLsbD]
  by_cases h1 : lo ≤ i <;> by_cases h2 : i ≤ hi
  · have : i < hi + 1 := by omega
    simp [h, h1, h2, this]
  · have : ¬ i < hi + 1 := by omega
    simp [h, h1, h2, this]
  · simp [h, h1]
  · simp [h, h1]

@[simp] theorem setBit_getLsbD_self (w : Word) {i : Nat} (b : Bool) (h : i < 32) : (setBit w i b).getLsbD i = b := by
  unfold setBit
  rw [setFld_getLsbD _ _ _ _ h]
  cases b <;> simp

theorem setBit_getLsbD_ne (w : Word) {i j : Nat} (b : Bool) (h : j < 32) (n : j ≠ i) :
    (setBit w i b).getLsbD j = w.getLsbD j := by
  unfold setBit
  rw [setFld_getLsbD _ _ _ _ h, if_neg]
  omega

theorem fld_testBit (w : Word) (hi lo i : Nat) : (fld w hi lo).testBit i = (decide (i < hi + 1 - lo) && w.getLsbD (lo + i)) := by
  unfold fld
  rw [Nat.testBit_mod_two_pow, Nat.testBit_shiftRight]
  rfl

/-- A field reads as the number written to it, modulo its width. -/
theorem fld_setFld_self (w : Word) {hi lo : Nat} (n : Nat) (h : hi < 32) :
    fld (setFld w hi lo n) hi lo = n % 2 ^ (hi + 1 - lo) := by
  apply Nat.eq_of_testBit_eq
  intro i
  rw [fld_testBit, Nat.testBit_mod_two_pow]
  by_cases h1 : i < hi + 1 - lo
  · rw [setFld_getLsbD _ _ _ _ (by omega), if_pos (by omega)]
    simp [h1]
  · simp [h1]

/-- A field reads as before where another one, apart from it, has been written. -/
theorem fld_setFld_ne (w : Word) {hi lo hi' lo' : Nat} (n : Nat) (h : hi' < 32) (d : hi' < lo ∨ hi < lo') :
    fld (setFld w hi lo n) hi' lo' = fld w hi' lo' := by
  apply Nat.eq_of_testBit_eq
  intro i
  rw [fld_testBit, fld_testBit]
  by_cases h1 : i < hi' + 1 - lo'
  · rw [setFld_getLsbD _ _ _ _ (by omega), if_neg (by omega)]
  · simp [h1]

theorem fld_setBit_ne (w : Word) {i hi lo : Nat} (b : Bool) (h : hi < 32) (d : hi < i ∨ i < lo) :
    fld (setBit w i b) hi lo = fld w hi lo := fld_setFld_ne _ _ h d

theorem setFld_getLsbD_ne (w : Word) {hi lo i : Nat} (n : Nat) (h : i < 32) (d : i < lo ∨ hi < i) :
    (setFld w hi lo n).getLsbD i = w.getLsbD i := by
  rw [setFld_getLsbD _ _ _ _ h, if_neg]
  omega

end Sys2Proof
end

