-- ==== Sys2Proof/Laws/Keeps.lean ====
section
/-! SUPPORT. What every operation of the machine keeps, whatever else it does: the part, the queue of waiting
commands and the time stay; free values are only taken, never put back; what has been emitted stands; the
register space stays in its canonical form. One lemma per operation, `<operation>_keeps`, says so; here are the
relation and the forms that the meanings are built with. -/

namespace Sys2Proof.Machine

/-- What no operation breaks, from the state `o` to the state `s`. -/
structure Keeps (o s : State) : Prop where
  part : s.part = o.part
  pending : s.pending = o.pending
  now : s.now = o.now
  free : o.free ≤ s.free
  out : o.out <:+ s.out
  regs : o.regsWf = true → s.regsWf = true

/-- What a meaning's next state keeps, if it answers one. -/
structure Goes (o : State) (r : Res) : Prop where
  next : ∀ s, r = .next s → Keeps o s

/-- The same for an operation that may answer nothing. -/
structure May (o : State) (r : Option State) : Prop where
  gives : ∀ s, r = some s → Keeps o s

theorem keeps_refl (o : State) : Keeps o o := ⟨rfl, rfl, rfl, Nat.le_refl _, List.suffix_refl _, id⟩

theorem Keeps.trans {a b c : State} (h : Keeps a b) (k : Keeps b c) : Keeps a c :=
  ⟨k.part.trans h.part, k.pending.trans h.pending, k.now.trans h.now, Nat.le_trans h.free k.free, h.out.trans k.out,
    fun w => k.regs (h.regs w)⟩

theorem keeps_step {o r : State} (x : State) (hx : Keeps o x) (k : Keeps o x → Keeps o r) : Keeps o r := k hx

theorem goes_step {o : State} {r : Res} (x : State) (hx : Keeps o x) (k : Keeps o x → Goes o r) : Goes o r := k hx

theorem may_step {o : State} {r : Option State} (x : State) (hx : Keeps o x) (k : Keeps o x → May o r) : May o r := k hx

theorem keeps_ite {o a b : State} {c : Prop} [Decidable c] (ha : Keeps o a) (hb : Keeps o b) :
    Keeps o (if c then a else b) := by split <;> assumption

theorem keeps_ite_fst {α : Type} {o : State} {a b : State × α} {c : Prop} [Decidable c] (ha : Keeps o a.1)
    (hb : Keeps o b.1) : Keeps o (if c then a else b).1 := by split <;> assumption

theorem goes_ite {o : State} {a b : Res} {c : Prop} [Decidable c] (ha : Goes o a) (hb : Goes o b) :
    Goes o (if c then a else b) := by split <;> assumption

theorem keeps_pair {α : Type} {o a : State} {x : α} (h : Keeps o a) : Keeps o (a, x).1 := h

theorem keeps_foldl {α : Type} {o s : State} {f : State → α → State} {l : List α}
    (hf : ∀ x a, Keeps o x → Keeps o (f x a)) (h : Keeps o s) : Keeps o (l.foldl f s) := by
  induction l generalizing s with
  | nil => exact h
  | cons a l ih => exact ih (hf _ _ h)

theorem keeps_foldl_fst {α β : Type} {o : State} {s : State × β} {f : State × β → α → State × β} {l : List α}
    (hf : ∀ x a, Keeps o x.1 → Keeps o (f x a).1) (h : Keeps o s.1) : Keeps o (l.foldl f s).1 := by
  induction l generalizing s with
  | nil => exact h
  | cons a l ih => exact ih (hf _ _ h)

theorem keeps_foldl_snd {α β : Type} {o : State} {s : β × State} {f : β × State → α → β × State} {l : List α}
    (hf : ∀ x a, Keeps o x.2 → Keeps o (f x a).2) (h : Keeps o s.2) : Keeps o (l.foldl f s).2 := by
  induction l generalizing s with
  | nil => exact h
  | cons a l ih => exact ih (hf _ _ h)

theorem keeps_getD {o s : State} {r : Option State} (hr : May o r) (h : Keeps o s) : Keeps o (r.getD s) := by
  cases r with
  | none => exact h
  | some x => exact hr.gives x rfl

theorem goes_next {o s : State} (h : Keeps o s) : Goes o (.next s) :=
  ⟨fun _ e => by cases e; exact h⟩

theorem goes_fault {o : State} {e : Fault} : Goes o (.fault e) := ⟨fun _ h => by cases h⟩

theorem may_some {o s : State} (h : Keeps o s) : May o (some s) := ⟨fun _ e => by cases e; exact h⟩

theorem may_none {o : State} : May o none := ⟨fun _ h => by cases h⟩

theorem May.of {o s : State} {r : Option State} (e : r = some s) (h : May o r) : Keeps o s := h.gives s e

/-- A change of anything else. -/
theorem keeps_mk {o s : State} {a1 a2 a3 a4 a5 a6 a7 a8 a9 a10 a11 a12} :
    Keeps o ⟨s.part, s.now, s.free, s.pending, s.out, s.regs, a1, a2, a3, a4, a5, a6, a7, a8, a9, a10, a11, a12⟩ ↔
      Keeps o s :=
  ⟨fun h => ⟨h.part, h.pending, h.now, h.free, h.out, h.regs⟩, fun h => ⟨h.part, h.pending, h.now, h.free, h.out, h.regs⟩⟩

/-- The same, with free values taken. -/
theorem keeps_mk_free {o s : State} {n a1 a2 a3 a4 a5 a6 a7 a8 a9 a10 a11 a12} (h : Keeps o s) :
    Keeps o ⟨s.part, s.now, s.free + n, s.pending, s.out, s.regs, a1, a2, a3, a4, a5, a6, a7, a8, a9, a10, a11, a12⟩ :=
  ⟨h.part, h.pending, h.now, Nat.le_trans h.free (Nat.le_add_right _ _), h.out, h.regs⟩

/-- The same, with registers left at their reset values. -/
theorem keeps_mk_filter {o s : State} {p : Nat × Word → Bool} {a1 a2 a3 a4 a5 a6 a7 a8 a9 a10 a11 a12} (h : Keeps o s) :
    Keeps o ⟨s.part, s.now, s.free, s.pending, s.out, s.regs.filter p, a1, a2, a3, a4, a5, a6, a7, a8, a9, a10, a11, a12⟩ :=
  ⟨h.part, h.pending, h.now, h.free, h.out, fun w => Tab.wf_filter _ p (h.regs w)⟩

theorem setReg_keeps {o s : State} {a w} (h : Keeps o s) : Keeps o (s.setReg a w) :=
  ⟨h.part, h.pending, h.now, h.free, h.out, fun x => Tab.wf_set _ (h.regs x)⟩

theorem emit_keeps {o s : State} {x} (h : Keeps o s) : Keeps o (s.emit x) :=
  ⟨h.part, h.pending, h.now, h.free, h.out.trans (List.suffix_cons _ _), h.regs⟩

end Sys2Proof.Machine
end

