-- ==== Sys2Proof/Laws/KeepsBase.lean ====
section
/-! SUPPORT. What the registers, the units, the interrupt controllers, the recorder, the commands, the tiles and their stores keep (`Keeps`): one lemma per operation. -/

namespace Sys2Proof.Machine

theorem setF_keeps {o x0 x1 x2 x3 x4} (h0 : Keeps o x0) : Keeps o (State.setF x0 x1 x2 x3 x4) := by
  unfold State.setF
  repeat' first
    | with_reducible assumption | with_reducible apply setReg_keeps

theorem setB_keeps {o x0 x1 x2 x3} (h0 : Keeps o x0) : Keeps o (State.setB x0 x1 x2 x3) := by
  unfold State.setB
  repeat' first
    | with_reducible assumption | with_reducible apply setF_keeps | with_reducible apply keeps_ite

theorem bumpF_keeps {o x0 x1 x2 x3 x4} (h0 : Keeps o x0) : Keeps o (State.bumpF x0 x1 x2 x3 x4) := by
  unfold State.bumpF
  repeat' first
    | with_reducible assumption | with_reducible apply setF_keeps

theorem bump_keeps {o x0 x1 x2} (h0 : Keeps o x0) : Keeps o (State.bump x0 x1 x2) := by
  unfold State.bump
  repeat' first
    | with_reducible assumption | with_reducible apply bumpF_keeps

theorem orReg_keeps {o x0 x1 x2} (h0 : Keeps o x0) : Keeps o (State.orReg x0 x1 x2) := by
  unfold State.orReg
  repeat' first
    | with_reducible assumption | with_reducible apply setReg_keeps

theorem clrReg_keeps {o x0 x1 x2} (h0 : Keeps o x0) : Keeps o (State.clrReg x0 x1 x2) := by
  unfold State.clrReg
  repeat' first
    | with_reducible assumption | with_reducible apply setReg_keeps

theorem emits_keeps {o x0 x1} (h0 : Keeps o x0) : Keeps o (State.emits x0 x1) := by
  unfold State.emits
  repeat' first
    | with_reducible assumption | (intro) | with_reducible apply emit_keeps | with_reducible apply keeps_foldl

theorem took_keeps {o x0} (h0 : Keeps o x0) : Keeps o (State.took x0) := by
  unfold State.took
  repeat' first
    | simp -zeta only [↓keeps_mk, id_eq] | with_reducible assumption
    | (have x := trivial; extract_lets +onlyGivenNames x; (fail_if_success have y : True := x); first | (refine keeps_step x ?_ (fun hx => ?_); focus dsimp -zeta only [x]; rotate_left; clear_value x; rotate_right) | skip)
    | with_reducible apply keeps_mk_free

theorem onTile_goes {o x0 x1 x2} (h0 : Keeps o x0) (h1 : Keeps o x2) : Goes o (onTile x0 x1 x2) := by
  unfold onTile
  repeat' first
    | with_reducible assumption | with_reducible apply keeps_ite | with_reducible apply goes_ite
    | with_reducible apply goes_next | exact goes_fault

theorem onCluster_goes {o x0 x1 x2 x3} (h0 : Keeps o x0) (h1 : Keeps o x3) : Goes o (onCluster x0 x1 x2 x3) := by
  unfold onCluster
  repeat' first
    | with_reducible assumption | with_reducible apply onTile_goes | with_reducible apply keeps_ite
    | with_reducible apply goes_ite | with_reducible apply goes_next | exact goes_fault

theorem onHead_goes {o x0 x1 x2 x3 x4} (h0 : Keeps o x0) (h1 : Keeps o x4) : Goes o (onHead x0 x1 x2 x3 x4) := by
  unfold onHead
  repeat' first
    | with_reducible assumption | with_reducible apply onCluster_goes | with_reducible apply keeps_ite
    | with_reducible apply goes_ite | with_reducible apply goes_next | exact goes_fault

theorem onLane_goes {o x0 x1 x2 x3} (h0 : Keeps o x0) (h1 : Keeps o x3) : Goes o (onLane x0 x1 x2 x3) := by
  unfold onLane
  repeat' first
    | with_reducible assumption | with_reducible apply onTile_goes | with_reducible apply keeps_ite
    | with_reducible apply goes_ite | with_reducible apply goes_next | exact goes_fault

theorem onSub_goes {o x0 x1 x2 x3} (h0 : Keeps o x0) (h1 : Keeps o x3) : Goes o (onSub x0 x1 x2 x3) := by
  unfold onSub
  repeat' first
    | with_reducible assumption | with_reducible apply keeps_ite | with_reducible apply goes_ite
    | with_reducible apply goes_next | exact goes_fault

theorem onOk_goes {o x0 x1} (h0 : Keeps o x1) : Goes o (onOk x0 x1) := by
  unfold onOk
  repeat' first
    | with_reducible assumption | with_reducible apply keeps_ite | with_reducible apply goes_ite
    | with_reducible apply goes_next | exact goes_fault

theorem whenOn_keeps {o x0 x1 x2} (h0 : Keeps o x0) (h1 : Keeps o x2) : Keeps o (whenOn x0 x1 x2) := by
  unfold whenOn
  repeat' first
    | with_reducible assumption | with_reducible apply keeps_ite

theorem onTileMo_goes {o x0 x1 x2} (h0 : Keeps o x0) (h1 : Keeps o x2) : Goes o (onTileMo x0 x1 x2) := by
  unfold onTileMo
  repeat' first
    | with_reducible assumption | with_reducible apply onTile_goes | with_reducible apply whenOn_keeps
    | with_reducible apply goes_next

theorem onTileCh_goes {o x0 x1 x2} (h0 : Keeps o x0) (h1 : Keeps o x2) : Goes o (onTileCh x0 x1 x2) := by
  unfold onTileCh
  repeat' first
    | with_reducible assumption | with_reducible apply onTile_goes | with_reducible apply whenOn_keeps
    | with_reducible apply goes_next

theorem onClusterMo_goes {o x0 x1 x2 x3} (h0 : Keeps o x0) (h1 : Keeps o x3) :
    Goes o (onClusterMo x0 x1 x2 x3) := by
  unfold onClusterMo
  repeat' first
    | with_reducible assumption | with_reducible apply onCluster_goes | with_reducible apply whenOn_keeps
    | with_reducible apply goes_next

theorem onClusterCh_goes {o x0 x1 x2 x3} (h0 : Keeps o x0) (h1 : Keeps o x3) :
    Goes o (onClusterCh x0 x1 x2 x3) := by
  unfold onClusterCh
  repeat' first
    | with_reducible assumption | with_reducible apply onCluster_goes | with_reducible apply whenOn_keeps
    | with_reducible apply goes_next

theorem onHeadMo_goes {o x0 x1 x2 x3 x4} (h0 : Keeps o x0) (h1 : Keeps o x4) :
    Goes o (onHeadMo x0 x1 x2 x3 x4) := by
  unfold onHeadMo
  repeat' first
    | with_reducible assumption | with_reducible apply onHead_goes | with_reducible apply whenOn_keeps
    | with_reducible apply goes_next

theorem onHeadCh_goes {o x0 x1 x2 x3 x4} (h0 : Keeps o x0) (h1 : Keeps o x4) :
    Goes o (onHeadCh x0 x1 x2 x3 x4) := by
  unfold onHeadCh
  repeat' first
    | with_reducible assumption | with_reducible apply onHead_goes | with_reducible apply whenOn_keeps
    | with_reducible apply goes_next

theorem onLaneCh_goes {o x0 x1 x2 x3} (h0 : Keeps o x0) (h1 : Keeps o x3) : Goes o (onLaneCh x0 x1 x2 x3) := by
  unfold onLaneCh
  repeat' first
    | with_reducible assumption | with_reducible apply onLane_goes | with_reducible apply whenOn_keeps
    | with_reducible apply goes_next

theorem volReset_keeps {o x0 x1} (h0 : Keeps o x0) : Keeps o (State.volReset x0 x1) := by
  unfold State.volReset
  repeat' first
    | simp -zeta only [↓keeps_mk, id_eq] | with_reducible assumption | (intro)
    | (have x := trivial; extract_lets +onlyGivenNames x; (fail_if_success have y : True := x); first | (refine keeps_step x ?_ (fun hx => ?_); focus dsimp -zeta only [x]; rotate_left; clear_value x; rotate_right) | skip)
    | with_reducible apply keeps_mk_filter | split

theorem cfgReset_keeps {o x0 x1} (h0 : Keeps o x0) : Keeps o (State.cfgReset x0 x1) := by
  unfold State.cfgReset
  repeat' first
    | simp -zeta only [↓keeps_mk, id_eq] | with_reducible assumption | (intro)
    | (have x := trivial; extract_lets +onlyGivenNames x; (fail_if_success have y : True := x); first | (refine keeps_step x ?_ (fun hx => ?_); focus dsimp -zeta only [x]; rotate_left; clear_value x; rotate_right) | skip)
    | with_reducible apply keeps_mk_filter | split

theorem setTarget_keeps {o x0 x1 x2 x3} (h0 : Keeps o x0) : Keeps o (State.setTarget x0 x1 x2 x3) := by
  unfold State.setTarget
  repeat' first
    | simp -zeta only [↓keeps_mk, id_eq] | with_reducible assumption
    | (have x := trivial; extract_lets +onlyGivenNames x; (fail_if_success have y : True := x); first | (refine keeps_step x ?_ (fun hx => ?_); focus dsimp -zeta only [x]; rotate_left; clear_value x; rotate_right) | skip)

theorem setQp_keeps {o x0 x1 x2} (h0 : Keeps o x0) : Keeps o (State.setQp x0 x1 x2) := by
  unfold State.setQp
  repeat' first
    | simp -zeta only [↓keeps_mk, id_eq] | with_reducible assumption
    | (have x := trivial; extract_lets +onlyGivenNames x; (fail_if_success have y : True := x); first | (refine keeps_step x ?_ (fun hx => ?_); focus dsimp -zeta only [x]; rotate_left; clear_value x; rotate_right) | skip)

theorem setAssoc_keeps {o x0 x1 x2} (h0 : Keeps o x0) : Keeps o (State.setAssoc x0 x1 x2) := by
  unfold State.setAssoc
  repeat' first
    | simp -zeta only [↓keeps_mk, id_eq] | with_reducible assumption
    | (have x := trivial; extract_lets +onlyGivenNames x; (fail_if_success have y : True := x); first | (refine keeps_step x ?_ (fun hx => ?_); focus dsimp -zeta only [x]; rotate_left; clear_value x; rotate_right) | skip)

theorem setCmd_keeps {o x0 x1 x2} (h0 : Keeps o x0) : Keeps o (State.setCmd x0 x1 x2) := by
  unfold State.setCmd
  repeat' first
    | simp -zeta only [↓keeps_mk, id_eq] | with_reducible assumption
    | (have x := trivial; extract_lets +onlyGivenNames x; (fail_if_success have y : True := x); first | (refine keeps_step x ?_ (fun hx => ?_); focus dsimp -zeta only [x]; rotate_left; clear_value x; rotate_right) | skip)

theorem setSlot_keeps {o x0 x1 x2} (h0 : Keeps o x0) : Keeps o (State.setSlot x0 x1 x2) := by
  unfold State.setSlot
  repeat' first
    | simp -zeta only [↓keeps_mk, id_eq] | with_reducible assumption
    | (have x := trivial; extract_lets +onlyGivenNames x; (fail_if_success have y : True := x); first | (refine keeps_step x ?_ (fun hx => ?_); focus dsimp -zeta only [x]; rotate_left; clear_value x; rotate_right) | skip)

theorem setSub_keeps {o x0 x1 x2} (h0 : Keeps o x0) : Keeps o (State.setSub x0 x1 x2) := by
  unfold State.setSub
  repeat' first
    | simp -zeta only [↓keeps_mk, id_eq] | with_reducible assumption
    | (have x := trivial; extract_lets +onlyGivenNames x; (fail_if_success have y : True := x); first | (refine keeps_step x ?_ (fun hx => ?_); focus dsimp -zeta only [x]; rotate_left; clear_value x; rotate_right) | skip)

theorem setLink_keeps {o x0 x1 x2 x3} (h0 : Keeps o x0) : Keeps o (State.setLink x0 x1 x2 x3) := by
  unfold State.setLink
  repeat' first
    | simp -zeta only [↓keeps_mk, id_eq] | with_reducible assumption
    | (have x := trivial; extract_lets +onlyGivenNames x; (fail_if_success have y : True := x); first | (refine keeps_step x ?_ (fun hx => ?_); focus dsimp -zeta only [x]; rotate_left; clear_value x; rotate_right) | skip)

theorem modLink_keeps {o x0 x1 x2 x3} (h0 : Keeps o x0) : Keeps o (State.modLink x0 x1 x2 x3) := by
  unfold State.modLink
  repeat' first
    | with_reducible assumption | with_reducible apply setLink_keeps

theorem setLane_keeps {o x0 x1 x2 x3} (h0 : Keeps o x0) : Keeps o (State.setLane x0 x1 x2 x3) := by
  unfold State.setLane
  repeat' first
    | simp -zeta only [↓keeps_mk, id_eq] | with_reducible assumption
    | (have x := trivial; extract_lets +onlyGivenNames x; (fail_if_success have y : True := x); first | (refine keeps_step x ?_ (fun hx => ?_); focus dsimp -zeta only [x]; rotate_left; clear_value x; rotate_right) | skip)

theorem modLane_keeps {o x0 x1 x2 x3} (h0 : Keeps o x0) : Keeps o (State.modLane x0 x1 x2 x3) := by
  unfold State.modLane
  repeat' first
    | with_reducible assumption | with_reducible apply setLane_keeps

theorem setHead_keeps {o x0 x1 x2} (h0 : Keeps o x0) : Keeps o (State.setHead x0 x1 x2) := by
  unfold State.setHead
  repeat' first
    | simp -zeta only [↓keeps_mk, id_eq] | with_reducible assumption
    | (have x := trivial; extract_lets +onlyGivenNames x; (fail_if_success have y : True := x); first | (refine keeps_step x ?_ (fun hx => ?_); focus dsimp -zeta only [x]; rotate_left; clear_value x; rotate_right) | skip)

theorem modHead_keeps {o x0 x1 x2} (h0 : Keeps o x0) : Keeps o (State.modHead x0 x1 x2) := by
  unfold State.modHead
  repeat' first
    | with_reducible assumption | with_reducible apply setHead_keeps

theorem setDet_keeps {o x0 x1 x2} (h0 : Keeps o x0) : Keeps o (State.setDet x0 x1 x2) := by
  unfold State.setDet
  repeat' first
    | simp -zeta only [↓keeps_mk, id_eq] | with_reducible assumption
    | (have x := trivial; extract_lets +onlyGivenNames x; (fail_if_success have y : True := x); first | (refine keeps_step x ?_ (fun hx => ?_); focus dsimp -zeta only [x]; rotate_left; clear_value x; rotate_right) | skip)

theorem modDet_keeps {o x0 x1 x2} (h0 : Keeps o x0) : Keeps o (State.modDet x0 x1 x2) := by
  unfold State.modDet
  repeat' first
    | with_reducible assumption | with_reducible apply setDet_keeps

theorem setCtx_keeps {o x0 x1 x2 x3} (h0 : Keeps o x0) : Keeps o (State.setCtx x0 x1 x2 x3) := by
  unfold State.setCtx
  repeat' first
    | simp -zeta only [↓keeps_mk, id_eq] | with_reducible assumption
    | (have x := trivial; extract_lets +onlyGivenNames x; (fail_if_success have y : True := x); first | (refine keeps_step x ?_ (fun hx => ?_); focus dsimp -zeta only [x]; rotate_left; clear_value x; rotate_right) | skip)

theorem modCtx_keeps {o x0 x1 x2 x3} (h0 : Keeps o x0) : Keeps o (State.modCtx x0 x1 x2 x3) := by
  unfold State.modCtx
  repeat' first
    | with_reducible assumption | with_reducible apply setCtx_keeps

theorem setHeadW_keeps {o x0 x1 x2} (h0 : Keeps o x0) : Keeps o (State.setHeadW x0 x1 x2) := by
  unfold State.setHeadW
  repeat' first
    | simp -zeta only [↓keeps_mk, id_eq] | with_reducible assumption
    | (have x := trivial; extract_lets +onlyGivenNames x; (fail_if_success have y : True := x); first | (refine keeps_step x ?_ (fun hx => ?_); focus dsimp -zeta only [x]; rotate_left; clear_value x; rotate_right) | skip)

theorem modHeadW_keeps {o x0 x1 x2} (h0 : Keeps o x0) : Keeps o (State.modHeadW x0 x1 x2) := by
  unfold State.modHeadW
  repeat' first
    | with_reducible assumption | with_reducible apply setHeadW_keeps

theorem setWr_keeps {o x0 x1 x2} (h0 : Keeps o x0) : Keeps o (State.setWr x0 x1 x2) := by
  unfold State.setWr
  repeat' first
    | simp -zeta only [↓keeps_mk, id_eq] | with_reducible assumption
    | (have x := trivial; extract_lets +onlyGivenNames x; (fail_if_success have y : True := x); first | (refine keeps_step x ?_ (fun hx => ?_); focus dsimp -zeta only [x]; rotate_left; clear_value x; rotate_right) | skip)

theorem modWr_keeps {o x0 x1 x2} (h0 : Keeps o x0) : Keeps o (State.modWr x0 x1 x2) := by
  unfold State.modWr
  repeat' first
    | with_reducible assumption | with_reducible apply setWr_keeps

theorem setWrQ_keeps {o x0 x1 x2 x3} (h0 : Keeps o x0) : Keeps o (State.setWrQ x0 x1 x2 x3) := by
  unfold State.setWrQ
  repeat' first
    | simp -zeta only [↓keeps_mk, id_eq] | with_reducible assumption
    | (have x := trivial; extract_lets +onlyGivenNames x; (fail_if_success have y : True := x); first | (refine keeps_step x ?_ (fun hx => ?_); focus dsimp -zeta only [x]; rotate_left; clear_value x; rotate_right) | skip)

theorem modWrQ_keeps {o x0 x1 x2 x3} (h0 : Keeps o x0) : Keeps o (State.modWrQ x0 x1 x2 x3) := by
  unfold State.modWrQ
  repeat' first
    | with_reducible assumption | with_reducible apply setWrQ_keeps

theorem setArm_keeps {o x0 x1 x2 x3} (h0 : Keeps o x0) : Keeps o (State.setArm x0 x1 x2 x3) := by
  unfold State.setArm
  repeat' first
    | simp -zeta only [↓keeps_mk, id_eq] | with_reducible assumption
    | (have x := trivial; extract_lets +onlyGivenNames x; (fail_if_success have y : True := x); first | (refine keeps_step x ?_ (fun hx => ?_); focus dsimp -zeta only [x]; rotate_left; clear_value x; rotate_right) | skip)

theorem modArm_keeps {o x0 x1 x2 x3} (h0 : Keeps o x0) : Keeps o (State.modArm x0 x1 x2 x3) := by
  unfold State.modArm
  repeat' first
    | with_reducible assumption | with_reducible apply setArm_keeps

theorem setReader_keeps {o x0 x1 x2 x3} (h0 : Keeps o x0) : Keeps o (State.setReader x0 x1 x2 x3) := by
  unfold State.setReader
  repeat' first
    | simp -zeta only [↓keeps_mk, id_eq] | with_reducible assumption
    | (have x := trivial; extract_lets +onlyGivenNames x; (fail_if_success have y : True := x); first | (refine keeps_step x ?_ (fun hx => ?_); focus dsimp -zeta only [x]; rotate_left; clear_value x; rotate_right) | skip)

theorem modReader_keeps {o x0 x1 x2 x3} (h0 : Keeps o x0) : Keeps o (State.modReader x0 x1 x2 x3) := by
  unfold State.modReader
  repeat' first
    | with_reducible assumption | with_reducible apply setReader_keeps

theorem setHeadS_keeps {o x0 x1 x2} (h0 : Keeps o x0) : Keeps o (State.setHeadS x0 x1 x2) := by
  unfold State.setHeadS
  repeat' first
    | simp -zeta only [↓keeps_mk, id_eq] | with_reducible assumption
    | (have x := trivial; extract_lets +onlyGivenNames x; (fail_if_success have y : True := x); first | (refine keeps_step x ?_ (fun hx => ?_); focus dsimp -zeta only [x]; rotate_left; clear_value x; rotate_right) | skip)

theorem modHeadS_keeps {o x0 x1 x2} (h0 : Keeps o x0) : Keeps o (State.modHeadS x0 x1 x2) := by
  unfold State.modHeadS
  repeat' first
    | with_reducible assumption | with_reducible apply setHeadS_keeps

theorem setCtl_keeps {o x0 x1 x2 x3} (h0 : Keeps o x0) : Keeps o (State.setCtl x0 x1 x2 x3) := by
  unfold State.setCtl
  repeat' first
    | simp -zeta only [↓keeps_mk, id_eq] | with_reducible assumption
    | (have x := trivial; extract_lets +onlyGivenNames x; (fail_if_success have y : True := x); first | (refine keeps_step x ?_ (fun hx => ?_); focus dsimp -zeta only [x]; rotate_left; clear_value x; rotate_right) | skip)

theorem modCtl_keeps {o x0 x1 x2 x3} (h0 : Keeps o x0) : Keeps o (State.modCtl x0 x1 x2 x3) := by
  unfold State.modCtl
  repeat' first
    | with_reducible assumption | with_reducible apply setCtl_keeps

theorem setSpn_keeps {o x0 x1 x2} (h0 : Keeps o x0) : Keeps o (State.setSpn x0 x1 x2) := by
  unfold State.setSpn
  repeat' first
    | simp -zeta only [↓keeps_mk, id_eq] | with_reducible assumption
    | (have x := trivial; extract_lets +onlyGivenNames x; (fail_if_success have y : True := x); first | (refine keeps_step x ?_ (fun hx => ?_); focus dsimp -zeta only [x]; rotate_left; clear_value x; rotate_right) | skip)

theorem modSpn_keeps {o x0 x1 x2} (h0 : Keeps o x0) : Keeps o (State.modSpn x0 x1 x2) := by
  unfold State.modSpn
  repeat' first
    | with_reducible assumption | with_reducible apply setSpn_keeps

theorem setEng_keeps {o x0 x1 x2} (h0 : Keeps o x0) : Keeps o (State.setEng x0 x1 x2) := by
  unfold State.setEng
  repeat' first
    | simp -zeta only [↓keeps_mk, id_eq] | with_reducible assumption
    | (have x := trivial; extract_lets +onlyGivenNames x; (fail_if_success have y : True := x); first | (refine keeps_step x ?_ (fun hx => ?_); focus dsimp -zeta only [x]; rotate_left; clear_value x; rotate_right) | skip)

theorem modEng_keeps {o x0 x1 x2} (h0 : Keeps o x0) : Keeps o (State.modEng x0 x1 x2) := by
  unfold State.modEng
  repeat' first
    | with_reducible assumption | with_reducible apply setEng_keeps

theorem setIrqBit_keeps {o x0 x1 x2 x3 x4} (h0 : Keeps o x0) : Keeps o (setIrqBit x0 x1 x2 x3 x4) := by
  unfold setIrqBit
  repeat' first
    | with_reducible assumption | with_reducible apply setB_keeps

theorem irqEval_keeps {o x0 x1 x2} (h0 : Keeps o x0) : Keeps o (irqEval x0 x1 x2) := by
  unfold irqEval
  repeat' first
    | simp -zeta only [↓keeps_mk, id_eq] | with_reducible assumption | (intro)
    | with_reducible apply setTarget_keeps | with_reducible apply emit_keeps | with_reducible apply keeps_ite
    | with_reducible apply keeps_getD
    | (have x := trivial; extract_lets +onlyGivenNames x; (fail_if_success have y : True := x); first | (refine keeps_step x ?_ (fun hx => ?_); focus dsimp -zeta only [x]; rotate_left; clear_value x; rotate_right) | skip)

theorem irqEvalAll_keeps {o x0 x1} (h0 : Keeps o x0) : Keeps o (irqEvalAll x0 x1) := by
  unfold irqEvalAll
  repeat' first
    | with_reducible assumption | (intro) | with_reducible apply irqEval_keeps | with_reducible apply keeps_foldl

theorem countEvent_keeps {o x0 x1 x2 x3} (h0 : Keeps o x0) : Keeps o (countEvent x0 x1 x2 x3) := by
  unfold countEvent
  repeat' first
    | simp -zeta only [↓keeps_mk, id_eq] | with_reducible assumption | with_reducible apply setTarget_keeps
    | with_reducible apply keeps_ite
    | (have x := trivial; extract_lets +onlyGivenNames x; (fail_if_success have y : True := x); first | (refine keeps_step x ?_ (fun hx => ?_); focus dsimp -zeta only [x]; rotate_left; clear_value x; rotate_right) | skip)

theorem irqEvent_keeps {o x0 x1 x2 x3} (h0 : Keeps o x0) : Keeps o (irqEvent x0 x1 x2 x3) := by
  unfold irqEvent
  repeat' first
    | simp -zeta only [↓keeps_mk, id_eq] | with_reducible assumption | with_reducible apply setIrqBit_keeps
    | with_reducible apply irqEval_keeps | with_reducible apply countEvent_keeps
    | with_reducible apply setTarget_keeps | with_reducible apply keeps_ite
    | (have x := trivial; extract_lets +onlyGivenNames x; (fail_if_success have y : True := x); first | (refine keeps_step x ?_ (fun hx => ?_); focus dsimp -zeta only [x]; rotate_left; clear_value x; rotate_right) | skip)

theorem irqFall_keeps {o x0 x1 x2 x3 x4} (h0 : Keeps o x0) : Keeps o (irqFall x0 x1 x2 x3 x4) := by
  unfold irqFall
  repeat' first
    | simp -zeta only [↓keeps_mk, id_eq] | with_reducible assumption | (intro) | with_reducible apply irqEval_keeps
    | with_reducible apply setIrqBit_keeps | with_reducible apply setTarget_keeps | with_reducible apply keeps_ite
    | (have x := trivial; extract_lets +onlyGivenNames x; (fail_if_success have y : True := x); first | (refine keeps_step x ?_ (fun hx => ?_); focus dsimp -zeta only [x]; rotate_left; clear_value x; rotate_right) | skip)
    | split

theorem irqEdge_keeps {o x0 x1 x2} (h0 : Keeps o x0) : Keeps o (irqEdge x0 x1 x2) := by
  unfold irqEdge
  repeat' first
    | with_reducible assumption | with_reducible apply irqEvent_keeps

theorem irqLevel_keeps {o x0 x1 x2 x3 x4} (h0 : Keeps o x0) : Keeps o (irqLevel x0 x1 x2 x3 x4) := by
  unfold irqLevel
  repeat' first
    | with_reducible assumption | with_reducible apply irqEvent_keeps | with_reducible apply irqFall_keeps
    | with_reducible apply keeps_ite

theorem claimSource_keeps {o x0 x1 x2 x3} (h0 : Keeps o x0) : Keeps o (claimSource x0 x1 x2 x3) := by
  unfold claimSource
  repeat' first
    | simp -zeta only [↓keeps_mk, id_eq] | with_reducible assumption | (intro)
    | with_reducible apply setTarget_keeps | with_reducible apply setIrqBit_keeps
    | with_reducible apply irqEval_keeps | with_reducible apply keeps_ite
    | (have x := trivial; extract_lets +onlyGivenNames x; (fail_if_success have y : True := x); first | (refine keeps_step x ?_ (fun hx => ?_); focus dsimp -zeta only [x]; rotate_left; clear_value x; rotate_right) | skip)
    | split

theorem leaveService_keeps {o x0 x1 x2 x3} (h0 : Keeps o x0) : Keeps o (leaveService x0 x1 x2 x3) := by
  unfold leaveService
  repeat' first
    | simp -zeta only [↓keeps_mk, id_eq] | with_reducible assumption | with_reducible apply setIrqBit_keeps
    | with_reducible apply keeps_ite
    | (have x := trivial; extract_lets +onlyGivenNames x; (fail_if_success have y : True := x); first | (refine keeps_step x ?_ (fun hx => ?_); focus dsimp -zeta only [x]; rotate_left; clear_value x; rotate_right) | skip)

theorem claimRead_keeps {o x0 x1 x2 x3} (h0 : Keeps o x0) : Keeps o (claimRead x0 x1 x2 x3).1 := by
  unfold claimRead
  repeat' first
    | simp -zeta only [↓keeps_mk, id_eq] | with_reducible assumption | with_reducible apply setReg_keeps
    | with_reducible apply bump_keeps | with_reducible apply claimSource_keeps | with_reducible apply keeps_ite
    | with_reducible apply keeps_ite_fst
    | (have x := trivial; extract_lets +onlyGivenNames x; (fail_if_success have y : True := x); first | (refine keeps_step x ?_ (fun hx => ?_); focus dsimp -zeta only [x]; rotate_left; clear_value x; rotate_right) | skip)

theorem stackFault_keeps {o x0 x1 x2 x3} (h0 : Keeps o x0) : Keeps o (stackFault x0 x1 x2 x3) := by
  unfold stackFault
  repeat' first
    | simp -zeta only [↓keeps_mk, id_eq] | with_reducible assumption | with_reducible apply setReg_keeps
    | with_reducible apply irqEdge_keeps | with_reducible apply emit_keeps | with_reducible apply keeps_ite
    | (have x := trivial; extract_lets +onlyGivenNames x; (fail_if_success have y : True := x); first | (refine keeps_step x ?_ (fun hx => ?_); focus dsimp -zeta only [x]; rotate_left; clear_value x; rotate_right) | skip)

theorem completeWrite_keeps {o x0 x1 x2 x3} (h0 : Keeps o x0) : Keeps o (completeWrite x0 x1 x2 x3).1 := by
  unfold completeWrite
  repeat' first
    | simp -zeta only [↓keeps_mk, id_eq] | with_reducible assumption | (intro)
    | with_reducible apply setTarget_keeps | with_reducible apply leaveService_keeps
    | with_reducible apply bump_keeps | with_reducible apply irqEvalAll_keeps
    | with_reducible apply stackFault_keeps | with_reducible apply keeps_ite | with_reducible apply keeps_ite_fst
    | (have x := trivial; extract_lets +onlyGivenNames x; (fail_if_success have y : True := x); first | (refine keeps_step x ?_ (fun hx => ?_); focus dsimp -zeta only [x]; rotate_left; clear_value x; rotate_right) | skip)
    | split

theorem clearStack_keeps {o x0 x1 x2} (h0 : Keeps o x0) : Keeps o (clearStack x0 x1 x2) := by
  unfold clearStack
  repeat' first
    | simp -zeta only [↓keeps_mk, id_eq] | with_reducible assumption | (intro)
    | with_reducible apply setTarget_keeps | with_reducible apply leaveService_keeps
    | with_reducible apply irqEvalAll_keeps | with_reducible apply bumpF_keeps | with_reducible apply keeps_foldl
    | (have x := trivial; extract_lets +onlyGivenNames x; (fail_if_success have y : True := x); first | (refine keeps_step x ?_ (fun hx => ?_); focus dsimp -zeta only [x]; rotate_left; clear_value x; rotate_right) | skip)

theorem onIrq_goes {o x0 x1 x2 x3 x4} (h0 : Keeps o x0) (h1 : Keeps o x4) : Goes o (onIrq x0 x1 x2 x3 x4) := by
  unfold onIrq
  repeat' first
    | simp -zeta only [↓keeps_mk, id_eq] | with_reducible assumption | with_reducible apply onOk_goes
    | with_reducible apply whenOn_keeps | with_reducible apply keeps_ite | with_reducible apply goes_ite
    | with_reducible apply goes_next

theorem execIrqSourceEvent_goes {o x0 x1 x2 x3} (h0 : Keeps o x3) : Goes o (execIrqSourceEvent x0 x1 x2 x3) := by
  unfold execIrqSourceEvent
  repeat' first
    | simp -zeta only [↓keeps_mk, id_eq] | with_reducible assumption | with_reducible apply onIrq_goes
    | with_reducible apply irqEvent_keeps | with_reducible apply goes_next

theorem execIrqLevelFall_goes {o x0 x1 x2 x3 x4} (h0 : Keeps o x4) : Goes o (execIrqLevelFall x0 x1 x2 x3 x4) := by
  unfold execIrqLevelFall
  repeat' first
    | simp -zeta only [↓keeps_mk, id_eq] | with_reducible assumption | with_reducible apply onIrq_goes
    | with_reducible apply irqFall_keeps | with_reducible apply goes_next

theorem execClaim_goes {o x0 x1 x2 x3} (h0 : Keeps o x3) : Goes o (execClaim x0 x1 x2 x3) := by
  unfold execClaim
  repeat' first
    | with_reducible assumption | with_reducible apply onIrq_goes | with_reducible apply claimRead_keeps
    | with_reducible apply emit_keeps | with_reducible apply goes_next
    | (have x := trivial; extract_lets +onlyGivenNames x; (fail_if_success have y : True := x); first | (refine goes_step x ?_ (fun hx => ?_); focus dsimp -zeta only [x]; rotate_left; clear_value x; rotate_right) | (refine keeps_step x ?_ (fun hx => ?_); focus dsimp -zeta only [x]; rotate_left; clear_value x; rotate_right) | skip)

theorem execStackClear_goes {o x0 x1 x2} (h0 : Keeps o x2) : Goes o (execStackClear x0 x1 x2) := by
  unfold execStackClear
  repeat' first
    | with_reducible assumption | with_reducible apply onIrq_goes | with_reducible apply clearStack_keeps
    | with_reducible apply goes_next

theorem writeSource_keeps {o x0 x1 x2 x3 x4} (h0 : Keeps o x0) : Keeps o (writeSource x0 x1 x2 x3 x4).1 := by
  unfold writeSource
  repeat' first
    | simp -zeta only [↓keeps_mk, id_eq] | with_reducible assumption | with_reducible apply setReg_keeps
    | with_reducible apply irqEvalAll_keeps | with_reducible apply keeps_ite | with_reducible apply keeps_ite_fst
    | (have x := trivial; extract_lets +onlyGivenNames x; (fail_if_success have y : True := x); first | (refine keeps_step x ?_ (fun hx => ?_); focus dsimp -zeta only [x]; rotate_left; clear_value x; rotate_right) | skip)
    | split

theorem execSourceConfigWrite_goes {o x0 x1 x2 x3 x4} (h0 : Keeps o x4) :
    Goes o (execSourceConfigWrite x0 x1 x2 x3 x4) := by
  unfold execSourceConfigWrite
  repeat' first
    | simp -zeta only [↓keeps_mk, id_eq] | with_reducible assumption | with_reducible apply onIrq_goes
    | with_reducible apply writeSource_keeps | with_reducible apply emit_keeps | with_reducible apply goes_next
    | (have x := trivial; extract_lets +onlyGivenNames x; (fail_if_success have y : True := x); first | (refine goes_step x ?_ (fun hx => ?_); focus dsimp -zeta only [x]; rotate_left; clear_value x; rotate_right) | (refine keeps_step x ?_ (fun hx => ?_); focus dsimp -zeta only [x]; rotate_left; clear_value x; rotate_right) | skip)

theorem writeDoorbell_keeps {o x0 x1 x2 x3} (h0 : Keeps o x0) : Keeps o (writeDoorbell x0 x1 x2 x3) := by
  unfold writeDoorbell
  repeat' first
    | with_reducible assumption | with_reducible apply irqEvent_keeps | with_reducible apply setF_keeps

theorem execDoorbell_goes {o x0 x1 x2 x3} (h0 : Keeps o x3) : Goes o (execDoorbell x0 x1 x2 x3) := by
  unfold execDoorbell
  repeat' first
    | with_reducible assumption | with_reducible apply onIrq_goes | with_reducible apply writeDoorbell_keeps
    | with_reducible apply goes_next

theorem execIrqTimerExpire_goes {o x0 x1 x2} (h0 : Keeps o x2) : Goes o (execIrqTimerExpire x0 x1 x2) := by
  unfold execIrqTimerExpire
  repeat' first
    | with_reducible apply keeps_ite
    | with_reducible assumption | with_reducible apply onIrq_goes | with_reducible apply irqEvent_keeps
    | with_reducible apply setReg_keeps | with_reducible apply goes_next

theorem releaseRequest_keeps {o x0 x1 x2} (h0 : Keeps o x0) : Keeps o (releaseRequest x0 x1 x2) := by
  unfold releaseRequest
  repeat' first
    | simp -zeta only [↓keeps_mk, id_eq] | with_reducible assumption | with_reducible apply irqEval_keeps
    | with_reducible apply setTarget_keeps | with_reducible apply keeps_ite
    | (have x := trivial; extract_lets +onlyGivenNames x; (fail_if_success have y : True := x); first | (refine keeps_step x ?_ (fun hx => ?_); focus dsimp -zeta only [x]; rotate_left; clear_value x; rotate_right) | skip)

theorem execModerationTimeout_goes {o x0 x1 x2} (h0 : Keeps o x2) : Goes o (execModerationTimeout x0 x1 x2) := by
  unfold execModerationTimeout
  repeat' first
    | with_reducible assumption | with_reducible apply onIrq_goes | with_reducible apply releaseRequest_keeps
    | with_reducible apply keeps_ite | with_reducible apply goes_ite | with_reducible apply goes_next | split

theorem execTargetIdle_goes {o x0 x1 x2} (h0 : Keeps o x2) : Goes o (execTargetIdle x0 x1 x2) := by
  unfold execTargetIdle
  repeat' first
    | with_reducible assumption | with_reducible apply onIrq_goes | with_reducible apply irqEval_keeps
    | with_reducible apply setReg_keeps | with_reducible apply goes_next

theorem onEng_goes {o x0 x1 x2} (h0 : Keeps o x0) (h1 : Keeps o x2) : Goes o (onEng x0 x1 x2) := by
  unfold onEng
  repeat' first
    | with_reducible assumption | with_reducible apply onOk_goes | with_reducible apply whenOn_keeps
    | with_reducible apply keeps_ite | with_reducible apply goes_ite | with_reducible apply goes_next

theorem setThread_keeps {o x0 x1 x2 x3} (h0 : Keeps o x0) : Keeps o (setThread x0 x1 x2 x3) := by
  unfold setThread
  repeat' first
    | simp -zeta only [↓keeps_mk, id_eq] | with_reducible assumption | (intro) | with_reducible apply modEng_keeps
    | (have x := trivial; extract_lets +onlyGivenNames x; (fail_if_success have y : True := x); first | (refine keeps_step x ?_ (fun hx => ?_); focus dsimp -zeta only [x]; rotate_left; clear_value x; rotate_right) | skip)

theorem startThread_keeps {o x0 x1 x2 x3 x4 x5 x6 x7 x8} (h0 : Keeps o x0) :
    Keeps o (startThread x0 x1 x2 x3 x4 x5 x6 x7 x8) := by
  unfold startThread
  repeat' first
    | with_reducible assumption | with_reducible apply setThread_keeps

theorem beginRoutine_keeps {o x0 x1 x2 x3} (h0 : Keeps o x0) : Keeps o (beginRoutine x0 x1 x2 x3) := by
  unfold beginRoutine
  repeat' first
    | simp -zeta only [↓keeps_mk, id_eq] | with_reducible assumption | (intro) | with_reducible apply modEng_keeps
    | with_reducible apply took_keeps | with_reducible apply startThread_keeps | with_reducible apply keeps_ite
    | with_reducible apply keeps_foldl
    | (have x := trivial; extract_lets +onlyGivenNames x; (fail_if_success have y : True := x); first | (refine keeps_step x ?_ (fun hx => ?_); focus dsimp -zeta only [x]; rotate_left; clear_value x; rotate_right) | skip)

theorem routineEvent_keeps {o x0 x1 x2 x3} (h0 : Keeps o x0) : Keeps o (routineEvent x0 x1 x2 x3) := by
  unfold routineEvent
  repeat' first
    | simp -zeta only [↓keeps_mk, id_eq] | with_reducible assumption | (intro) | with_reducible apply modEng_keeps
    | with_reducible apply beginRoutine_keeps | with_reducible apply keeps_ite
    | (have x := trivial; extract_lets +onlyGivenNames x; (fail_if_success have y : True := x); first | (refine keeps_step x ?_ (fun hx => ?_); focus dsimp -zeta only [x]; rotate_left; clear_value x; rotate_right) | skip)

theorem nextRoutine_keeps {o x0 x1} (h0 : Keeps o x0) : Keeps o (nextRoutine x0 x1) := by
  unfold nextRoutine
  repeat' first
    | simp -zeta only [↓keeps_mk, id_eq] | with_reducible assumption | (intro)
    | with_reducible apply beginRoutine_keeps | with_reducible apply modEng_keeps
    | (have x := trivial; extract_lets +onlyGivenNames x; (fail_if_success have y : True := x); first | (refine keeps_step x ?_ (fun hx => ?_); focus dsimp -zeta only [x]; rotate_left; clear_value x; rotate_right) | skip)
    | split

theorem owlLoseN_keeps {o x0 x1 x2} (h0 : Keeps o x0) : Keeps o (owlLoseN x0 x1 x2) := by
  unfold owlLoseN
  repeat' first
    | simp -zeta only [↓keeps_mk, id_eq] | with_reducible assumption | (intro)
    | with_reducible apply bump_keeps
    | (have x := trivial; extract_lets +onlyGivenNames x; (fail_if_success have y : True := x); first | (refine keeps_step x ?_ (fun hx => ?_); focus dsimp -zeta only [x]; rotate_left; clear_value x; rotate_right) | skip)

theorem owlLose_keeps {o x0 x1} (h0 : Keeps o x0) : Keeps o (owlLose x0 x1) := by
  unfold owlLose
  repeat' first
    | with_reducible apply owlLoseN_keeps
    | simp -zeta only [↓keeps_mk, id_eq] | with_reducible assumption | with_reducible apply bump_keeps
    | (have x := trivial; extract_lets +onlyGivenNames x; (fail_if_success have y : True := x); first | (refine keeps_step x ?_ (fun hx => ?_); focus dsimp -zeta only [x]; rotate_left; clear_value x; rotate_right) | skip)

theorem owlArrive_keeps {o x0 x1} (h0 : Keeps o x0) : Keeps o (owlArrive x0 x1) := by
  unfold owlArrive
  repeat' first
    | simp -zeta only [↓keeps_mk, id_eq] | with_reducible assumption | with_reducible apply owlLose_keeps
    | with_reducible apply keeps_ite
    | (have x := trivial; extract_lets +onlyGivenNames x; (fail_if_success have y : True := x); first | (refine keeps_step x ?_ (fun hx => ?_); focus dsimp -zeta only [x]; rotate_left; clear_value x; rotate_right) | skip)

theorem owlPost_keeps {o x0 x1 x2 x3 x4 x5 x6 x7} (h0 : Keeps o x0) :
    Keeps o (owlPost x0 x1 x2 x3 x4 x5 x6 x7) := by
  unfold owlPost
  repeat' first
    | simp -zeta only [↓keeps_mk, id_eq] | with_reducible assumption | with_reducible apply owlArrive_keeps
    | with_reducible apply owlLose_keeps | with_reducible apply keeps_ite
    | (have x := trivial; extract_lets +onlyGivenNames x; (fail_if_success have y : True := x); first | (refine keeps_step x ?_ (fun hx => ?_); focus dsimp -zeta only [x]; rotate_left; clear_value x; rotate_right) | skip)

theorem owlHub_keeps {o x0 x1 x2 x3 x4 x5 x6} (h0 : Keeps o x0) : Keeps o (owlHub x0 x1 x2 x3 x4 x5 x6) := by
  unfold owlHub
  repeat' first
    | with_reducible assumption | with_reducible apply owlPost_keeps

theorem owlDropHeld_keeps {o x0 x1} (h0 : Keeps o x0) : Keeps o (owlDropHeld x0 x1) := by
  unfold owlDropHeld
  repeat' first
    | simp -zeta only [↓keeps_mk, id_eq] | with_reducible assumption
    | (have x := trivial; extract_lets +onlyGivenNames x; (fail_if_success have y : True := x); first | (refine keeps_step x ?_ (fun hx => ?_); focus dsimp -zeta only [x]; rotate_left; clear_value x; rotate_right) | skip)

theorem owlFlush_keeps {o x0 x1} (h0 : Keeps o x0) : Keeps o (owlFlush x0 x1) := by
  unfold owlFlush
  repeat' first
    | with_reducible apply owlDropHeld_keeps | with_reducible apply owlLoseN_keeps | with_reducible apply keeps_ite
    | simp -zeta only [↓keeps_mk, id_eq] | with_reducible assumption | (intro)
    | with_reducible apply owlArrive_keeps | with_reducible apply keeps_foldl
    | (have x := trivial; extract_lets +onlyGivenNames x; (fail_if_success have y : True := x); first | (refine keeps_step x ?_ (fun hx => ?_); focus dsimp -zeta only [x]; rotate_left; clear_value x; rotate_right) | skip)

theorem owlWrite_keeps {o x0 x1 x2} (h0 : Keeps o x0) : Keeps o (owlWrite x0 x1 x2) := by
  unfold owlWrite
  repeat' first
    | simp -zeta only [↓keeps_mk, id_eq] | with_reducible assumption | (intro) | with_reducible apply owlLose_keeps
    | with_reducible apply irqEdge_keeps | with_reducible apply keeps_ite
    | (have x := trivial; extract_lets +onlyGivenNames x; (fail_if_success have y : True := x); first | (refine keeps_step x ?_ (fun hx => ?_); focus dsimp -zeta only [x]; rotate_left; clear_value x; rotate_right) | skip)
    | split

theorem owlSummary_keeps {o x0 x1} (h0 : Keeps o x0) : Keeps o (owlSummary x0 x1) := by
  unfold owlSummary
  repeat' first
    | simp -zeta only [↓keeps_mk, id_eq] | with_reducible assumption | with_reducible apply owlWrite_keeps
    | with_reducible apply keeps_ite
    | (have x := trivial; extract_lets +onlyGivenNames x; (fail_if_success have y : True := x); first | (refine keeps_step x ?_ (fun hx => ?_); focus dsimp -zeta only [x]; rotate_left; clear_value x; rotate_right) | skip)

theorem owlMakeRoom_keeps {o x0} (h0 : Keeps o x0) : Keeps o (owlMakeRoom x0) := by
  unfold owlMakeRoom
  repeat' first
    | simp -zeta only [↓keeps_mk, id_eq] | with_reducible assumption | with_reducible apply owlSummary_keeps
    | with_reducible apply keeps_ite
    | (have x := trivial; extract_lets +onlyGivenNames x; (fail_if_success have y : True := x); first | (refine keeps_step x ?_ (fun hx => ?_); focus dsimp -zeta only [x]; rotate_left; clear_value x; rotate_right) | skip)
    | split

theorem owlTake_keeps {o x0 x1} (h0 : Keeps o x0) : Keeps o (owlTake x0 x1) := by
  unfold owlTake
  repeat' first
    | simp -zeta only [↓keeps_mk, id_eq] | with_reducible assumption | (intro)
    | with_reducible apply owlWrite_keeps | with_reducible apply bump_keeps
    | with_reducible apply owlMakeRoom_keeps | with_reducible apply keeps_ite
    | (have x := trivial; extract_lets +onlyGivenNames x; (fail_if_success have y : True := x); first | (refine keeps_step x ?_ (fun hx => ?_); focus dsimp -zeta only [x]; rotate_left; clear_value x; rotate_right) | skip)

theorem owlComplete_keeps {o x0} (h0 : Keeps o x0) : Keeps o (owlComplete x0) := by
  unfold owlComplete
  repeat' first
    | simp -zeta only [↓keeps_mk, id_eq] | with_reducible assumption | with_reducible apply owlWrite_keeps
    | with_reducible apply owlTake_keeps
    | (have x := trivial; extract_lets +onlyGivenNames x; (fail_if_success have y : True := x); first | (refine keeps_step x ?_ (fun hx => ?_); focus dsimp -zeta only [x]; rotate_left; clear_value x; rotate_right) | skip)
    | split

theorem owlReport_keeps {o x0} (h0 : Keeps o x0) : Keeps o (owlReport x0) := by
  unfold owlReport
  repeat' first
    | simp -zeta only [↓keeps_mk, id_eq] | with_reducible assumption | (intro)
    | with_reducible apply owlWrite_keeps
    | with_reducible apply keeps_foldl
    | with_reducible apply keeps_ite
    | (have x := trivial; extract_lets +onlyGivenNames x; (fail_if_success have y : True := x); first | (refine keeps_step x ?_ (fun hx => ?_); focus dsimp -zeta only [x]; rotate_left; clear_value x; rotate_right) | skip)

theorem owlWindowEnd_keeps {o x0 x1} (h0 : Keeps o x0) : Keeps o (owlWindowEnd x0 x1) := by
  unfold owlWindowEnd
  repeat' first
    | with_reducible apply owlReport_keeps
    | simp -zeta only [↓keeps_mk, id_eq] | with_reducible assumption | with_reducible apply owlSummary_keeps
    | with_reducible apply keeps_ite
    | (have x := trivial; extract_lets +onlyGivenNames x; (fail_if_success have y : True := x); first | (refine keeps_step x ?_ (fun hx => ?_); focus dsimp -zeta only [x]; rotate_left; clear_value x; rotate_right) | skip)
    | split

theorem owlClearStart_keeps {o x0} (h0 : Keeps o x0) : Keeps o (owlClearStart x0).1 := by
  unfold owlClearStart
  repeat' first
    | simp -zeta only [↓keeps_mk, id_eq] | with_reducible assumption | with_reducible apply keeps_ite
    | with_reducible apply keeps_ite_fst
    | (have x := trivial; extract_lets +onlyGivenNames x; (fail_if_success have y : True := x); first | (refine keeps_step x ?_ (fun hx => ?_); focus dsimp -zeta only [x]; rotate_left; clear_value x; rotate_right) | skip)

theorem owlFirmware_keeps {o x0 x1} (h0 : Keeps o x0) : Keeps o (owlFirmware x0 x1) := by
  unfold owlFirmware
  repeat' first
    | with_reducible assumption | with_reducible apply setF_keeps | with_reducible apply owlPost_keeps
    | (have x := trivial; extract_lets +onlyGivenNames x; (fail_if_success have y : True := x); first | (refine keeps_step x ?_ (fun hx => ?_); focus dsimp -zeta only [x]; rotate_left; clear_value x; rotate_right) | skip)

theorem owlCursor_keeps {o x0 x1} (h0 : Keeps o x0) : Keeps o (owlCursor x0 x1) := by
  unfold owlCursor
  repeat' first
    | with_reducible assumption | with_reducible apply setB_keeps | with_reducible apply setReg_keeps

theorem owlAdvance_keeps {o x0} (h0 : Keeps o x0) : Keeps o (owlAdvance x0) := by
  unfold owlAdvance
  repeat' first
    | with_reducible assumption | with_reducible apply setReg_keeps | with_reducible apply keeps_ite

theorem execOwlEvent_goes {o x0 x1 x2 x3 x4 x5 x6 x7 x8} (h0 : Keeps o x8) :
    Goes o (execOwlEvent x0 x1 x2 x3 x4 x5 x6 x7 x8) := by
  unfold execOwlEvent
  repeat' first
    | with_reducible assumption | with_reducible apply onOk_goes | with_reducible apply owlPost_keeps
    | with_reducible apply keeps_ite | with_reducible apply goes_ite | with_reducible apply goes_next

theorem execMergeWindowEnd_goes {o x0 x1} (h0 : Keeps o x1) : Goes o (execMergeWindowEnd x0 x1) := by
  unfold execMergeWindowEnd
  repeat' first
    | with_reducible assumption | with_reducible apply owlWindowEnd_keeps | with_reducible apply goes_next

theorem execOwlClear_goes {o x0} (h0 : Keeps o x0) : Goes o (execOwlClear x0) := by
  unfold execOwlClear
  repeat' first
    | with_reducible assumption | with_reducible apply owlClearStart_keeps | with_reducible apply emit_keeps
    | with_reducible apply goes_next
    | (have x := trivial; extract_lets +onlyGivenNames x; (fail_if_success have y : True := x); first | (refine goes_step x ?_ (fun hx => ?_); focus dsimp -zeta only [x]; rotate_left; clear_value x; rotate_right) | (refine keeps_step x ?_ (fun hx => ?_); focus dsimp -zeta only [x]; rotate_left; clear_value x; rotate_right) | skip)

theorem execFirmwareRecord_goes {o x0 x1} (h0 : Keeps o x1) : Goes o (execFirmwareRecord x0 x1) := by
  unfold execFirmwareRecord
  repeat' first
    | with_reducible assumption | with_reducible apply owlFirmware_keeps | with_reducible apply goes_next

theorem execCursorWrite_goes {o x0 x1} (h0 : Keeps o x1) : Goes o (execCursorWrite x0 x1) := by
  unfold execCursorWrite
  repeat' first
    | with_reducible assumption | with_reducible apply owlCursor_keeps | with_reducible apply goes_next

theorem execWindowReadAdvance_goes {o x0} (h0 : Keeps o x0) : Goes o (execWindowReadAdvance x0) := by
  unfold execWindowReadAdvance
  repeat' first
    | with_reducible assumption | with_reducible apply owlAdvance_keeps | with_reducible apply emit_keeps
    | with_reducible apply goes_next

theorem execOwlRecordComplete_goes {o x0} (h0 : Keeps o x0) : Goes o (execOwlRecordComplete x0) := by
  unfold execOwlRecordComplete
  repeat' first
    | with_reducible assumption | with_reducible apply owlComplete_keeps | with_reducible apply goes_next

theorem completeBy_keeps {o x0 x1 x2 x3 x4} (h0 : Keeps o x0) : Keeps o (completeBy x0 x1 x2 x3 x4).1 := by
  unfold completeBy
  repeat' first
    | simp -zeta only [↓keeps_mk, id_eq] | with_reducible assumption | with_reducible apply completeWrite_keeps
    | with_reducible apply setReg_keeps | with_reducible apply owlPost_keeps | with_reducible apply keeps_ite
    | with_reducible apply keeps_ite_fst
    | (have x := trivial; extract_lets +onlyGivenNames x; (fail_if_success have y : True := x); first | (refine keeps_step x ?_ (fun hx => ?_); focus dsimp -zeta only [x]; rotate_left; clear_value x; rotate_right) | skip)

theorem execComplete_goes {o x0 x1 x2 x3 x4} (h0 : Keeps o x4) : Goes o (execComplete x0 x1 x2 x3 x4) := by
  unfold execComplete
  repeat' first
    | simp -zeta only [↓keeps_mk, id_eq] | with_reducible assumption | with_reducible apply onIrq_goes
    | with_reducible apply completeBy_keeps | with_reducible apply emit_keeps | with_reducible apply goes_next
    | (have x := trivial; extract_lets +onlyGivenNames x; (fail_if_success have y : True := x); first | (refine goes_step x ?_ (fun hx => ?_); focus dsimp -zeta only [x]; rotate_left; clear_value x; rotate_right) | (refine keeps_step x ?_ (fun hx => ?_); focus dsimp -zeta only [x]; rotate_left; clear_value x; rotate_right) | skip)

theorem sendPkt_keeps {o x0 x1 x2 x3 x4 x5} (h0 : Keeps o x0) : Keeps o (sendPkt x0 x1 x2 x3 x4 x5) := by
  unfold sendPkt
  repeat' first
    | simp -zeta only [↓keeps_mk, id_eq] | with_reducible assumption | with_reducible apply setQp_keeps
    | with_reducible apply emit_keeps | with_reducible apply keeps_ite
    | (have x := trivial; extract_lets +onlyGivenNames x; (fail_if_success have y : True := x); first | (refine keeps_step x ?_ (fun hx => ?_); focus dsimp -zeta only [x]; rotate_left; clear_value x; rotate_right) | skip)

theorem postRaw_keeps {o x0 x1 x2 x3 x4 x5 x6 x7} (h0 : Keeps o x0) :
    Keeps o (postRaw x0 x1 x2 x3 x4 x5 x6 x7) := by
  unfold postRaw
  repeat' first
    | with_reducible assumption | with_reducible apply sendPkt_keeps | with_reducible apply emit_keeps

theorem postCqe_keeps {o x0 x1 x2 x3 x4 x5} (h0 : Keeps o x0) : Keeps o (postCqe x0 x1 x2 x3 x4 x5) := by
  unfold postCqe
  repeat' first
    | with_reducible assumption | with_reducible apply postRaw_keeps

theorem writeRing_keeps {o x0 x1} (h0 : Keeps o x0) : Keeps o (writeRing x0 x1).1 := by
  unfold writeRing
  repeat' first
    | simp -zeta only [↓keeps_mk, id_eq] | with_reducible assumption | with_reducible apply emit_keeps
    | with_reducible apply setQp_keeps | with_reducible apply sendPkt_keeps | with_reducible apply keeps_ite
    | with_reducible apply keeps_ite_fst
    | (have x := trivial; extract_lets +onlyGivenNames x; (fail_if_success have y : True := x); first | (refine keeps_step x ?_ (fun hx => ?_); focus dsimp -zeta only [x]; rotate_left; clear_value x; rotate_right) | skip)

theorem freePage_keeps {o x0 x1 x2} (h0 : Keeps o x0) : Keeps o (freePage x0 x1 x2) := by
  unfold freePage
  repeat' first
    | simp -zeta only [↓keeps_mk, id_eq] | with_reducible assumption | (intro)
    | (have x := trivial; extract_lets +onlyGivenNames x; (fail_if_success have y : True := x); first | (refine keeps_step x ?_ (fun hx => ?_); focus dsimp -zeta only [x]; rotate_left; clear_value x; rotate_right) | skip)

theorem freePages_keeps {o x0 x1} (h0 : Keeps o x0) : Keeps o (freePages x0 x1) := by
  unfold freePages
  repeat' first
    | simp -zeta only [↓keeps_mk, id_eq] | with_reducible assumption | (intro)
    | (have x := trivial; extract_lets +onlyGivenNames x; (fail_if_success have y : True := x); first | (refine keeps_step x ?_ (fun hx => ?_); focus dsimp -zeta only [x]; rotate_left; clear_value x; rotate_right) | skip)

theorem shadowCheck_keeps {o x0 x1} (h0 : Keeps o x0) : Keeps o (shadowCheck x0 x1) := by
  unfold shadowCheck
  repeat' first
    | simp -zeta only [↓keeps_mk, id_eq] | with_reducible assumption | with_reducible apply setSlot_keeps
    | with_reducible apply keeps_ite
    | (have x := trivial; extract_lets +onlyGivenNames x; (fail_if_success have y : True := x); first | (refine keeps_step x ?_ (fun hx => ?_); focus dsimp -zeta only [x]; rotate_left; clear_value x; rotate_right) | skip)
    | split

theorem endDispatch_keeps {o x0 x1} (h0 : Keeps o x0) : Keeps o (endDispatch x0 x1) := by
  unfold endDispatch
  repeat' first
    | simp -zeta only [↓keeps_mk, id_eq] | with_reducible assumption | (intro)
    | (have x := trivial; extract_lets +onlyGivenNames x; (fail_if_success have y : True := x); first | (refine keeps_step x ?_ (fun hx => ?_); focus dsimp -zeta only [x]; rotate_left; clear_value x; rotate_right) | skip)
    | split

theorem removeCmd_keeps {o x0 x1} (h0 : Keeps o x0) : Keeps o (removeCmd x0 x1) := by
  unfold removeCmd
  repeat' first
    | simp -zeta only [↓keeps_mk, id_eq] | with_reducible assumption | (intro)
    | with_reducible apply freePages_keeps | with_reducible apply setCmd_keeps
    | with_reducible apply endDispatch_keeps | with_reducible apply shadowCheck_keeps
    | with_reducible apply keeps_ite
    | (have x := trivial; extract_lets +onlyGivenNames x; (fail_if_success have y : True := x); first | (refine keeps_step x ?_ (fun hx => ?_); focus dsimp -zeta only [x]; rotate_left; clear_value x; rotate_right) | skip)
    | split

theorem completeCmd_keeps {o x0 x1 x2} (h0 : Keeps o x0) : Keeps o (completeCmd x0 x1 x2) := by
  unfold completeCmd
  repeat' first
    | with_reducible assumption | with_reducible apply removeCmd_keeps | with_reducible apply bump_keeps
    | with_reducible apply postCqe_keeps | with_reducible apply keeps_ite
    | (have x := trivial; extract_lets +onlyGivenNames x; (fail_if_success have y : True := x); first | (refine keeps_step x ?_ (fun hx => ?_); focus dsimp -zeta only [x]; rotate_left; clear_value x; rotate_right) | skip)

theorem completeFabrics_keeps {o x0 x1 x2 x3} (h0 : Keeps o x0) : Keeps o (completeFabrics x0 x1 x2 x3) := by
  unfold completeFabrics
  repeat' first
    | with_reducible assumption | with_reducible apply removeCmd_keeps | with_reducible apply postRaw_keeps
    | with_reducible apply keeps_ite
    | (have x := trivial; extract_lets +onlyGivenNames x; (fail_if_success have y : True := x); first | (refine keeps_step x ?_ (fun hx => ?_); focus dsimp -zeta only [x]; rotate_left; clear_value x; rotate_right) | skip)

theorem completeData_keeps {o x0 x1 x2} (h0 : Keeps o x0) : Keeps o (completeData x0 x1 x2) := by
  unfold completeData
  repeat' first
    | with_reducible assumption | with_reducible apply completeCmd_keeps | with_reducible apply sendPkt_keeps
    | with_reducible apply emit_keeps | with_reducible apply keeps_ite
    | (have x := trivial; extract_lets +onlyGivenNames x; (fail_if_success have y : True := x); first | (refine keeps_step x ?_ (fun hx => ?_); focus dsimp -zeta only [x]; rotate_left; clear_value x; rotate_right) | skip)

theorem completeRead_keeps {o x0 x1} (h0 : Keeps o x0) : Keeps o (completeRead x0 x1) := by
  unfold completeRead
  repeat' first
    | simp -zeta only [↓keeps_mk, id_eq] | with_reducible assumption | with_reducible apply completeCmd_keeps
    | with_reducible apply writeRing_keeps | with_reducible apply setCmd_keeps | with_reducible apply keeps_ite
    | with_reducible apply keeps_ite_fst
    | (have x := trivial; extract_lets +onlyGivenNames x; (fail_if_success have y : True := x); first | (refine keeps_step x ?_ (fun hx => ?_); focus dsimp -zeta only [x]; rotate_left; clear_value x; rotate_right) | skip)

theorem dropBlk_keeps {o x0 x1 x2 x3} (h0 : Keeps o x0) : Keeps o (dropBlk x0 x1 x2 x3) := by
  unfold dropBlk
  repeat' first
    | simp -zeta only [↓keeps_mk, id_eq] | with_reducible assumption | with_reducible apply setCmd_keeps
    | with_reducible apply keeps_ite
    | (have x := trivial; extract_lets +onlyGivenNames x; (fail_if_success have y : True := x); first | (refine keeps_step x ?_ (fun hx => ?_); focus dsimp -zeta only [x]; rotate_left; clear_value x; rotate_right) | skip)

theorem tileEdge_keeps {o x0 x1 x2} (h0 : Keeps o x0) : Keeps o (tileEdge x0 x1 x2) := by
  unfold tileEdge
  repeat' first
    | with_reducible assumption | with_reducible apply irqEdge_keeps

theorem owlTile_keeps {o x0 x1 x2 x3 x4 x5 x6 x7} (h0 : Keeps o x0) :
    Keeps o (owlTile x0 x1 x2 x3 x4 x5 x6 x7) := by
  unfold owlTile
  repeat' first
    | with_reducible assumption | with_reducible apply owlPost_keeps

theorem owlCluster_keeps {o x0 x1 x2 x3 x4 x5 x6} (h0 : Keeps o x0) :
    Keeps o (owlCluster x0 x1 x2 x3 x4 x5 x6) := by
  unfold owlCluster
  repeat' first
    | with_reducible assumption | with_reducible apply owlTile_keeps

theorem owlHead_keeps {o x0 x1 x2 x3 x4 x5 x6 x7} (h0 : Keeps o x0) :
    Keeps o (owlHead x0 x1 x2 x3 x4 x5 x6 x7) := by
  unfold owlHead
  repeat' first
    | with_reducible assumption | with_reducible apply owlTile_keeps

theorem tileNotice_keeps {o x0 x1 x2} (h0 : Keeps o x0) : Keeps o (tileNotice x0 x1 x2) := by
  unfold tileNotice
  repeat' first
    | simp -zeta only [↓keeps_mk, id_eq] | with_reducible assumption | (intro) | with_reducible apply irqEdge_keeps
    | with_reducible apply modDet_keeps
    | (have x := trivial; extract_lets +onlyGivenNames x; (fail_if_success have y : True := x); first | (refine keeps_step x ?_ (fun hx => ?_); focus dsimp -zeta only [x]; rotate_left; clear_value x; rotate_right) | skip)

theorem setLaneSt_keeps {o x0 x1 x2 x3} (h0 : Keeps o x0) : Keeps o (setLaneSt x0 x1 x2 x3) := by
  unfold setLaneSt
  repeat' first
    | with_reducible assumption | with_reducible apply setF_keeps

theorem deferN_keeps {o x0 x1 x2} (h0 : Keeps o x0) : Keeps o (deferN x0 x1 x2) := by
  unfold deferN
  repeat' first
    | with_reducible assumption | with_reducible apply tileEdge_keeps | with_reducible apply bump_keeps
    | with_reducible apply keeps_ite

theorem setPin_keeps {o x0 x1 x2 x3 x4} (h0 : Keeps o x0) : Keeps o (setPin x0 x1 x2 x3 x4) := by
  unfold setPin
  repeat' first
    | with_reducible assumption | with_reducible apply setF_keeps | with_reducible apply keeps_ite

theorem pinCapture_keeps {o x0 x1 x2 x3 x4} (h0 : Keeps o x0) : Keeps o (pinCapture x0 x1 x2 x3 x4).1 := by
  unfold pinCapture
  repeat' first
    | simp -zeta only [↓keeps_mk, id_eq] | with_reducible assumption | (intro) | with_reducible apply setHead_keeps
    | with_reducible apply setPin_keeps | with_reducible apply keeps_ite | with_reducible apply keeps_ite_fst
    | (have x := trivial; extract_lets +onlyGivenNames x; (fail_if_success have y : True := x); first | (refine keeps_step x ?_ (fun hx => ?_); focus dsimp -zeta only [x]; rotate_left; clear_value x; rotate_right) | skip)
    | split

theorem sleepIfAsked_keeps {o x0 x1 x2} (h0 : Keeps o x0) : Keeps o (sleepIfAsked x0 x1 x2) := by
  unfold sleepIfAsked
  repeat' first
    | simp -zeta only [↓keeps_mk, id_eq] | with_reducible assumption | (intro) | with_reducible apply modLane_keeps
    | with_reducible apply setLaneSt_keeps | with_reducible apply modHead_keeps | with_reducible apply setReg_keeps
    | with_reducible apply keeps_ite
    | (have x := trivial; extract_lets +onlyGivenNames x; (fail_if_success have y : True := x); first | (refine keeps_step x ?_ (fun hx => ?_); focus dsimp -zeta only [x]; rotate_left; clear_value x; rotate_right) | skip)

theorem pushRes_keeps {o x0 x1 x2} (h0 : Keeps o x0) : Keeps o (pushRes x0 x1 x2) := by
  unfold pushRes
  repeat' first
    | simp -zeta only [↓keeps_mk, id_eq] | with_reducible assumption | (intro) | with_reducible apply modDet_keeps
    | with_reducible apply keeps_ite
    | (have x := trivial; extract_lets +onlyGivenNames x; (fail_if_success have y : True := x); first | (refine keeps_step x ?_ (fun hx => ?_); focus dsimp -zeta only [x]; rotate_left; clear_value x; rotate_right) | skip)

theorem opDone_keeps {o x0 x1 x2} (h0 : Keeps o x0) : Keeps o (opDone x0 x1 x2) := by
  unfold opDone
  repeat' first
    | simp -zeta only [↓keeps_mk, id_eq] | with_reducible assumption | (intro) | with_reducible apply modDet_keeps
    | (have x := trivial; extract_lets +onlyGivenNames x; (fail_if_success have y : True := x); first | (refine keeps_step x ?_ (fun hx => ?_); focus dsimp -zeta only [x]; rotate_left; clear_value x; rotate_right) | skip)

theorem endOp_keeps {o x0 x1 x2 x3} (h0 : Keeps o x0) : Keeps o (endOp x0 x1 x2 x3) := by
  unfold endOp
  repeat' first
    | with_reducible assumption | with_reducible apply pushRes_keeps | with_reducible apply opDone_keeps

theorem abortAll_keeps {o x0 x1} (h0 : Keeps o x0) : Keeps o (abortAll x0 x1) := by
  unfold abortAll
  repeat' first
    | with_reducible assumption | (intro) | with_reducible apply endOp_keeps | with_reducible apply keeps_foldl

theorem abortOps_keeps {o x0 x1 x2 x3} (h0 : Keeps o x0) : Keeps o (abortOps x0 x1 x2 x3) := by
  unfold abortOps
  repeat' first
    | simp -zeta only [↓keeps_mk, id_eq] | with_reducible assumption | (intro) | with_reducible apply endOp_keeps
    | with_reducible apply modDet_keeps | with_reducible apply keeps_ite | with_reducible apply keeps_foldl
    | (have x := trivial; extract_lets +onlyGivenNames x; (fail_if_success have y : True := x); first | (refine keeps_step x ?_ (fun hx => ?_); focus dsimp -zeta only [x]; rotate_left; clear_value x; rotate_right) | (have _ : State → State := x; dsimp -zeta only [x]) | (have _ : Nat → State → State := x; dsimp -zeta only [x]) | (have _ : State → Nat → State := x; dsimp -zeta only [x]) | skip)
    | split

theorem endPin_keeps {o x0 x1 x2 x3} (h0 : Keeps o x0) : Keeps o (endPin x0 x1 x2 x3) := by
  unfold endPin
  repeat' first
    | simp -zeta only [↓keeps_mk, id_eq] | with_reducible assumption | (intro)
    | with_reducible apply abortOps_keeps | with_reducible apply modHead_keeps | with_reducible apply setPin_keeps
    | with_reducible apply sleepIfAsked_keeps
    | (have x := trivial; extract_lets +onlyGivenNames x; (fail_if_success have y : True := x); first | (refine keeps_step x ?_ (fun hx => ?_); focus dsimp -zeta only [x]; rotate_left; clear_value x; rotate_right) | skip)
    | split

theorem releaseCap_keeps {o x0 x1 x2 x3 x4} (h0 : Keeps o x0) : Keeps o (releaseCap x0 x1 x2 x3 x4) := by
  unfold releaseCap
  repeat' first
    | simp -zeta only [↓keeps_mk, id_eq] | with_reducible assumption | with_reducible apply endPin_keeps
    | with_reducible apply keeps_ite | split

theorem countCtxs_keeps {o x0 x1} (h0 : Keeps o x0) : Keeps o (countCtxs x0 x1) := by
  unfold countCtxs
  repeat' first
    | with_reducible assumption | with_reducible apply setF_keeps
    | (have x := trivial; extract_lets +onlyGivenNames x; (fail_if_success have y : True := x); first | (refine keeps_step x ?_ (fun hx => ?_); focus dsimp -zeta only [x]; rotate_left; clear_value x; rotate_right) | skip)

theorem endThreadOf_keeps {o x0 x1 x2} (h0 : Keeps o x0) : Keeps o (endThreadOf x0 x1 x2) := by
  unfold endThreadOf
  repeat' first
    | simp -zeta only [↓keeps_mk, id_eq] | with_reducible assumption | (intro) | with_reducible apply modEng_keeps
    | with_reducible apply keeps_ite
    | (have x := trivial; extract_lets +onlyGivenNames x; (fail_if_success have y : True := x); first | (refine keeps_step x ?_ (fun hx => ?_); focus dsimp -zeta only [x]; rotate_left; clear_value x; rotate_right) | skip)

theorem forgetOps_keeps {o x0 x1 x2} (h0 : Keeps o x0) : Keeps o (forgetOps x0 x1 x2) := by
  unfold forgetOps
  repeat' first
    | simp -zeta only [↓keeps_mk, id_eq] | with_reducible assumption | (intro) | with_reducible apply modDet_keeps
    | (have x := trivial; extract_lets +onlyGivenNames x; (fail_if_success have y : True := x); first | (refine keeps_step x ?_ (fun hx => ?_); focus dsimp -zeta only [x]; rotate_left; clear_value x; rotate_right) | skip)
    | split

theorem endCtx_keeps {o x0 x1 x2} (h0 : Keeps o x0) : Keeps o (endCtx x0 x1 x2) := by
  unfold endCtx
  repeat' first
    | simp -zeta only [↓keeps_mk, id_eq] | with_reducible assumption | (intro)
    | with_reducible apply releaseCap_keeps | with_reducible apply setB_keeps | with_reducible apply modDet_keeps
    | with_reducible apply modHead_keeps | with_reducible apply forgetOps_keeps
    | with_reducible apply countCtxs_keeps | with_reducible apply endThreadOf_keeps
    | with_reducible apply setCtx_keeps | with_reducible apply keeps_ite
    | (have x := trivial; extract_lets +onlyGivenNames x; (fail_if_success have y : True := x); first | (refine keeps_step x ?_ (fun hx => ?_); focus dsimp -zeta only [x]; rotate_left; clear_value x; rotate_right) | skip)
    | split

theorem fillOut_keeps {o x0 x1} (h0 : Keeps o x0) : Keeps o (fillOut x0 x1) := by
  unfold fillOut
  repeat' first
    | simp -zeta only [↓keeps_mk, id_eq] | with_reducible assumption | (intro) | with_reducible apply modDet_keeps
    | with_reducible apply setF_keeps
    | (have x := trivial; extract_lets +onlyGivenNames x; (fail_if_success have y : True := x); first | (refine keeps_step x ?_ (fun hx => ?_); focus dsimp -zeta only [x]; rotate_left; clear_value x; rotate_right) | skip)

theorem pushOut_keeps {o x0 x1 x2} (h0 : Keeps o x0) : Keeps o (pushOut x0 x1 x2) := by
  unfold pushOut
  repeat' first
    | simp -zeta only [↓keeps_mk, id_eq] | with_reducible assumption | (intro) | with_reducible apply fillOut_keeps
    | with_reducible apply modDet_keeps
    | (have x := trivial; extract_lets +onlyGivenNames x; (fail_if_success have y : True := x); first | (refine keeps_step x ?_ (fun hx => ?_); focus dsimp -zeta only [x]; rotate_left; clear_value x; rotate_right) | skip)

theorem setPartner_keeps {o x0 x1 x2} (h0 : Keeps o x0) : Keeps o (setPartner x0 x1 x2) := by
  unfold setPartner
  repeat' first
    | simp -zeta only [↓keeps_mk, id_eq] | with_reducible assumption | (intro)
    | with_reducible apply modHeadW_keeps | with_reducible apply keeps_ite
    | (have x := trivial; extract_lets +onlyGivenNames x; (fail_if_success have y : True := x); first | (refine keeps_step x ?_ (fun hx => ?_); focus dsimp -zeta only [x]; rotate_left; clear_value x; rotate_right) | skip)

theorem sendDrop_keeps {o x0 x1 x2 x3} (h0 : Keeps o x0) : Keeps o (sendDrop x0 x1 x2 x3) := by
  unfold sendDrop
  repeat' first
    | with_reducible assumption | with_reducible apply bump_keeps | with_reducible apply pushOut_keeps
    | with_reducible apply setPartner_keeps | with_reducible apply keeps_ite
    | (have x := trivial; extract_lets +onlyGivenNames x; (fail_if_success have y : True := x); first | (refine keeps_step x ?_ (fun hx => ?_); focus dsimp -zeta only [x]; rotate_left; clear_value x; rotate_right) | skip)

theorem dropCtx_keeps {o x0 x1 x2 x3} (h0 : Keeps o x0) : Keeps o (dropCtx x0 x1 x2 x3) := by
  unfold dropCtx
  repeat' first
    | with_reducible assumption | with_reducible apply tileNotice_keeps | with_reducible apply endCtx_keeps
    | with_reducible apply sendDrop_keeps | with_reducible apply keeps_ite
    | (have x := trivial; extract_lets +onlyGivenNames x; (fail_if_success have y : True := x); first | (refine keeps_step x ?_ (fun hx => ?_); focus dsimp -zeta only [x]; rotate_left; clear_value x; rotate_right) | skip)

theorem endWrite_keeps {o x0 x1 x2 x3} (h0 : Keeps o x0) : Keeps o (endWrite x0 x1 x2 x3) := by
  unfold endWrite
  repeat' first
    | simp -zeta only [↓keeps_mk, id_eq] | with_reducible assumption | (intro) | with_reducible apply bump_keeps
    | with_reducible apply owlHead_keeps | with_reducible apply tileEdge_keeps | with_reducible apply modWr_keeps
    | (have x := trivial; extract_lets +onlyGivenNames x; (fail_if_success have y : True := x); first | (refine keeps_step x ?_ (fun hx => ?_); focus dsimp -zeta only [x]; rotate_left; clear_value x; rotate_right) | skip)
    | split

theorem takeWrites_keeps {o x0 x1 x2 x3 x4} (h0 : Keeps o x0) : Keeps o (takeWrites x0 x1 x2 x3 x4).1 := by
  unfold takeWrites
  repeat' first
    | simp -zeta only [↓keeps_mk, id_eq] | with_reducible assumption | (intro) | with_reducible apply setWrQ_keeps
    | with_reducible apply setHeadW_keeps
    | (have x := trivial; extract_lets +onlyGivenNames x; (fail_if_success have y : True := x); first | (refine keeps_step x ?_ (fun hx => ?_); focus dsimp -zeta only [x]; rotate_left; clear_value x; rotate_right) | (have _ : State → State := x; dsimp -zeta only [x]) | (have _ : Nat → State → State := x; dsimp -zeta only [x]) | (have _ : State → Nat → State := x; dsimp -zeta only [x]) | skip)
    | split

theorem setGate_keeps {o x0 x1 x2 x3 x4} (h0 : Keeps o x0) : Keeps o (setGate x0 x1 x2 x3 x4) := by
  unfold setGate
  repeat' first
    | simp -zeta only [↓keeps_mk, id_eq] | with_reducible assumption | with_reducible apply emit_keeps
    | with_reducible apply setB_keeps | with_reducible apply setHeadW_keeps | with_reducible apply keeps_ite
    | (have x := trivial; extract_lets +onlyGivenNames x; (fail_if_success have y : True := x); first | (refine keeps_step x ?_ (fun hx => ?_); focus dsimp -zeta only [x]; rotate_left; clear_value x; rotate_right) | skip)

theorem endHeadWrites_keeps {o x0 x1 x2 x3 x4} (h0 : Keeps o x0) : Keeps o (endHeadWrites x0 x1 x2 x3 x4) := by
  unfold endHeadWrites
  repeat' first
    | with_reducible assumption | (intro) | with_reducible apply takeWrites_keeps
    | with_reducible apply setGate_keeps | with_reducible apply endWrite_keeps | with_reducible apply keeps_foldl
    | (have x := trivial; extract_lets +onlyGivenNames x; (fail_if_success have y : True := x); first | (refine keeps_step x ?_ (fun hx => ?_); focus dsimp -zeta only [x]; rotate_left; clear_value x; rotate_right) | skip)

theorem setMode_keeps {o x0 x1 x2 x3} (h0 : Keeps o x0) : Keeps o (setMode x0 x1 x2 x3) := by
  unfold setMode
  repeat' first
    | with_reducible assumption | (intro) | with_reducible apply setF_keeps | with_reducible apply setB_keeps
    | with_reducible apply tileEdge_keeps | with_reducible apply keeps_ite | with_reducible apply keeps_foldl
    | (have x := trivial; extract_lets +onlyGivenNames x; (fail_if_success have y : True := x); first | (refine keeps_step x ?_ (fun hx => ?_); focus dsimp -zeta only [x]; rotate_left; clear_value x; rotate_right) | skip)

theorem driveCoil_keeps {o x0 x1 x2 x3} (h0 : Keeps o x0) : Keeps o (driveCoil x0 x1 x2 x3) := by
  unfold driveCoil
  repeat' first
    | simp -zeta only [↓keeps_mk, id_eq] | with_reducible assumption | (intro) | with_reducible apply emit_keeps
    | with_reducible apply modCtl_keeps
    | (have x := trivial; extract_lets +onlyGivenNames x; (fail_if_success have y : True := x); first | (refine keeps_step x ?_ (fun hx => ?_); focus dsimp -zeta only [x]; rotate_left; clear_value x; rotate_right) | skip)

theorem setPoint_keeps {o x0 x1 x2 x3 x4} (h0 : Keeps o x0) : Keeps o (setPoint x0 x1 x2 x3 x4) := by
  unfold setPoint
  repeat' first
    | simp -zeta only [↓keeps_mk, id_eq] | with_reducible assumption | (intro) | with_reducible apply modArm_keeps
    | with_reducible apply setF_keeps
    | (have x := trivial; extract_lets +onlyGivenNames x; (fail_if_success have y : True := x); first | (refine keeps_step x ?_ (fun hx => ?_); focus dsimp -zeta only [x]; rotate_left; clear_value x; rotate_right) | skip)

theorem zeroSetpoints_keeps {o x0 x1 x2} (h0 : Keeps o x0) : Keeps o (zeroSetpoints x0 x1 x2) := by
  unfold zeroSetpoints
  repeat' first
    | with_reducible assumption | (intro) | with_reducible apply setPoint_keeps | with_reducible apply keeps_foldl

theorem sendCtl_keeps {o x0 x1 x2 x3 x4} (h0 : Keeps o x0) : Keeps o (sendCtl x0 x1 x2 x3 x4) := by
  unfold sendCtl
  repeat' first
    | simp -zeta only [↓keeps_mk, id_eq] | with_reducible assumption | (intro) | with_reducible apply modArm_keeps
    | (have x := trivial; extract_lets +onlyGivenNames x; (fail_if_success have y : True := x); first | (refine keeps_step x ?_ (fun hx => ?_); focus dsimp -zeta only [x]; rotate_left; clear_value x; rotate_right) | skip)

theorem sendRegw_keeps {o x0 x1 x2 x3} (h0 : Keeps o x0) : Keeps o (sendRegw x0 x1 x2 x3) := by
  unfold sendRegw
  repeat' first
    | simp -zeta only [↓keeps_mk, id_eq] | with_reducible assumption | (intro)
    | with_reducible apply sendCtl_keeps
    | (have x := trivial; extract_lets +onlyGivenNames x; (fail_if_success have y : True := x); first | (refine keeps_step x ?_ (fun hx => ?_); focus dsimp -zeta only [x]; rotate_left; clear_value x; rotate_right) | skip)

theorem sendHeat_keeps {o x0 x1 x2 x3 x4} (h0 : Keeps o x0) : Keeps o (sendHeat x0 x1 x2 x3 x4) := by
  unfold sendHeat
  repeat' first
    | with_reducible assumption | with_reducible apply sendCtl_keeps

theorem sendMode_keeps {o x0 x1 x2 x3 x4} (h0 : Keeps o x0) : Keeps o (sendMode x0 x1 x2 x3 x4) := by
  unfold sendMode
  repeat' first
    | simp -zeta only [↓keeps_mk, id_eq] | with_reducible assumption | (intro) | with_reducible apply sendCtl_keeps
    | with_reducible apply modArm_keeps | with_reducible apply keeps_ite
    | (have x := trivial; extract_lets +onlyGivenNames x; (fail_if_success have y : True := x); first | (refine keeps_step x ?_ (fun hx => ?_); focus dsimp -zeta only [x]; rotate_left; clear_value x; rotate_right) | skip)

theorem sendFclr_keeps {o x0 x1 x2 x3 x4} (h0 : Keeps o x0) : Keeps o (sendFclr x0 x1 x2 x3 x4) := by
  unfold sendFclr
  repeat' first
    | with_reducible assumption | with_reducible apply sendCtl_keeps

theorem sendSafe_keeps {o x0 x1 x2} (h0 : Keeps o x0) : Keeps o (sendSafe x0 x1 x2) := by
  unfold sendSafe
  repeat' first
    | with_reducible assumption | with_reducible apply sendCtl_keeps

theorem setArmState_keeps {o x0 x1 x2 x3} (h0 : Keeps o x0) : Keeps o (setArmState x0 x1 x2 x3) := by
  unfold setArmState
  repeat' first
    | with_reducible assumption | with_reducible apply tileEdge_keeps | with_reducible apply setF_keeps
    | with_reducible apply keeps_ite

theorem recordOne_keeps {o x0 x1} (h0 : Keeps o x0) : Keeps o (recordOne x0 x1) := by
  unfold recordOne
  repeat' first
    | simp -zeta only [↓keeps_mk, id_eq] | with_reducible assumption | with_reducible apply emit_keeps
    | with_reducible apply keeps_ite
    | (have x := trivial; extract_lets +onlyGivenNames x; (fail_if_success have y : True := x); first | (refine keeps_step x ?_ (fun hx => ?_); focus dsimp -zeta only [x]; rotate_left; clear_value x; rotate_right) | skip)

theorem recordCluster_keeps {o x0 x1 x2} (h0 : Keeps o x0) : Keeps o (recordCluster x0 x1 x2) := by
  unfold recordCluster
  repeat' first
    | with_reducible assumption | (intro) | with_reducible apply recordOne_keeps | with_reducible apply keeps_ite
    | with_reducible apply keeps_foldl
    | (have x := trivial; extract_lets +onlyGivenNames x; (fail_if_success have y : True := x); first | (refine keeps_step x ?_ (fun hx => ?_); focus dsimp -zeta only [x]; rotate_left; clear_value x; rotate_right) | skip)

theorem startPark_keeps {o x0 x1 x2} (h0 : Keeps o x0) : Keeps o (startPark x0 x1 x2) := by
  unfold startPark
  repeat' first
    | simp -zeta only [↓keeps_mk, id_eq] | with_reducible assumption | (intro)
    | with_reducible apply sendMode_keeps | with_reducible apply sendHeat_keeps
    | with_reducible apply setMode_keeps | with_reducible apply zeroSetpoints_keeps
    | with_reducible apply modCtl_keeps | with_reducible apply keeps_ite
    | (have x := trivial; extract_lets +onlyGivenNames x; (fail_if_success have y : True := x); first | (refine keeps_step x ?_ (fun hx => ?_); focus dsimp -zeta only [x]; rotate_left; clear_value x; rotate_right) | skip)

theorem parkRecorded_keeps {o x0 x1 x2} (h0 : Keeps o x0) : Keeps o (parkRecorded x0 x1 x2) := by
  unfold parkRecorded
  repeat' first
    | with_reducible assumption | with_reducible apply startPark_keeps | with_reducible apply recordCluster_keeps
    | with_reducible apply keeps_ite

theorem sendFlit_keeps {o x0 x1 x2 x3 x4} (h0 : Keeps o x0) : Keeps o (sendFlit x0 x1 x2 x3 x4) := by
  unfold sendFlit
  repeat' first
    | with_reducible assumption | with_reducible apply emit_keeps | with_reducible apply setLink_keeps
    | (have x := trivial; extract_lets +onlyGivenNames x; (fail_if_success have y : True := x); first | (refine keeps_step x ?_ (fun hx => ?_); focus dsimp -zeta only [x]; rotate_left; clear_value x; rotate_right) | skip)

theorem sendFlits_keeps {o x0 x1 x2 x3 x4 x5} (h0 : Keeps o x0) : Keeps o (sendFlits x0 x1 x2 x3 x4 x5) := by
  unfold sendFlits
  repeat' first
    | with_reducible assumption | (intro) | with_reducible apply sendFlit_keeps | with_reducible apply keeps_foldl
    | (have x := trivial; extract_lets +onlyGivenNames x; (fail_if_success have y : True := x); first | (refine keeps_step x ?_ (fun hx => ?_); focus dsimp -zeta only [x]; rotate_left; clear_value x; rotate_right) | skip)

theorem freeCredits_keeps {o x0 x1 x2 x3 x4} (h0 : Keeps o x0) : Keeps o (freeCredits x0 x1 x2 x3 x4) := by
  unfold freeCredits
  repeat' first
    | simp -zeta only [↓keeps_mk, id_eq] | with_reducible assumption | (intro) | with_reducible apply modLink_keeps
    | (have x := trivial; extract_lets +onlyGivenNames x; (fail_if_success have y : True := x); first | (refine keeps_step x ?_ (fun hx => ?_); focus dsimp -zeta only [x]; rotate_left; clear_value x; rotate_right) | skip)

theorem crossAtOnce_keeps {o x0 x1 x2 x3 x4} (h0 : Keeps o x0) : Keeps o (crossAtOnce x0 x1 x2 x3 x4) := by
  unfold crossAtOnce
  repeat' first
    | with_reducible assumption | with_reducible apply freeCredits_keeps | with_reducible apply sendFlits_keeps

theorem mempLevels_keeps {o x0} (h0 : Keeps o x0) : Keeps o (mempLevels x0) := by
  unfold mempLevels
  repeat' first
    | with_reducible assumption | (intro) | with_reducible apply irqLevel_keeps
    | (have x := trivial; extract_lets +onlyGivenNames x; (fail_if_success have y : True := x); first | (refine keeps_step x ?_ (fun hx => ?_); focus dsimp -zeta only [x]; rotate_left; clear_value x; rotate_right) | skip)

theorem mempTileLevel_keeps {o x0 x1} (h0 : Keeps o x0) : Keeps o (mempTileLevel x0 x1) := by
  unfold mempTileLevel
  repeat' first
    | with_reducible assumption | with_reducible apply irqLevel_keeps | with_reducible apply keeps_ite

theorem eccCount_keeps {o x0 x1} (h0 : Keeps o x0) : Keeps o (eccCount x0 x1) := by
  unfold eccCount
  repeat' first
    | simp -zeta only [↓keeps_mk, id_eq] | with_reducible assumption | with_reducible apply bump_keeps
    | with_reducible apply owlHub_keeps | with_reducible apply setReg_keeps
    | with_reducible apply mempTileLevel_keeps | with_reducible apply mempLevels_keeps
    | with_reducible apply keeps_ite
    | (have x := trivial; extract_lets +onlyGivenNames x; (fail_if_success have y : True := x); first | (refine keeps_step x ?_ (fun hx => ?_); focus dsimp -zeta only [x]; rotate_left; clear_value x; rotate_right) | skip)
    | split

theorem noteScrub_keeps {o x0 x1} (h0 : Keeps o x0) : Keeps o (noteScrub x0 x1) := by
  unfold noteScrub
  repeat' first
    | simp -zeta only [↓keeps_mk, id_eq] | with_reducible assumption | with_reducible apply keeps_ite
    | (have x := trivial; extract_lets +onlyGivenNames x; (fail_if_success have y : True := x); first | (refine keeps_step x ?_ (fun hx => ?_); focus dsimp -zeta only [x]; rotate_left; clear_value x; rotate_right) | skip)
    | split

theorem pageWritten_keeps {o x0 x1} (h0 : Keeps o x0) : Keeps o (pageWritten x0 x1) := by
  unfold pageWritten
  repeat' first
    | simp -zeta only [↓keeps_mk, id_eq] | with_reducible assumption
    | (have x := trivial; extract_lets +onlyGivenNames x; (fail_if_success have y : True := x); first | (refine keeps_step x ?_ (fun hx => ?_); focus dsimp -zeta only [x]; rotate_left; clear_value x; rotate_right) | skip)

theorem pageCleared_keeps {o x0 x1} (h0 : Keeps o x0) : Keeps o (pageCleared x0 x1) := by
  unfold pageCleared
  repeat' first
    | simp -zeta only [↓keeps_mk, id_eq] | with_reducible assumption
    | (have x := trivial; extract_lets +onlyGivenNames x; (fail_if_success have y : True := x); first | (refine keeps_step x ?_ (fun hx => ?_); focus dsimp -zeta only [x]; rotate_left; clear_value x; rotate_right) | skip)

theorem pagePart_keeps {o x0 x1} (h0 : Keeps o x0) : Keeps o (pagePart x0 x1) := by
  unfold pagePart
  repeat' first
    | with_reducible assumption | with_reducible apply pageWritten_keeps | with_reducible apply bump_keeps
    | with_reducible apply keeps_ite

theorem setRate_keeps {o x0 x1 x2} (h0 : Keeps o x0) : Keeps o (setRate x0 x1 x2) := by
  unfold setRate
  repeat' first
    | with_reducible assumption | with_reducible apply setReg_keeps

theorem idleLane_keeps {o x0 x1 x2} (h0 : Keeps o x0) : Keeps o (idleLane x0 x1 x2) := by
  unfold idleLane
  repeat' first
    | simp -zeta only [↓keeps_mk, id_eq] | with_reducible assumption | (intro)
    | with_reducible apply sleepIfAsked_keeps | with_reducible apply modLane_keeps
    | with_reducible apply setRate_keeps | with_reducible apply setLaneSt_keeps
    | (have x := trivial; extract_lets +onlyGivenNames x; (fail_if_success have y : True := x); first | (refine keeps_step x ?_ (fun hx => ?_); focus dsimp -zeta only [x]; rotate_left; clear_value x; rotate_right) | skip)

theorem laneSleep_keeps {o x0 x1 x2} (h0 : Keeps o x0) : Keeps o (laneSleep x0 x1 x2) := by
  unfold laneSleep
  repeat' first
    | with_reducible assumption | with_reducible apply sleepIfAsked_keeps | with_reducible apply setB_keeps

theorem execLaneSleep_goes {o x0 x1 x2} (h0 : Keeps o x2) : Goes o (execLaneSleep x0 x1 x2) := by
  unfold execLaneSleep
  repeat' first
    | with_reducible assumption | with_reducible apply onLaneCh_goes | with_reducible apply laneSleep_keeps
    | with_reducible apply goes_next

theorem wakeLane_keeps {o x0 x1 x2} (h0 : Keeps o x0) : Keeps o (wakeLane x0 x1 x2) := by
  unfold wakeLane
  repeat' first
    | with_reducible assumption | with_reducible apply setB_keeps | with_reducible apply setLaneSt_keeps
    | with_reducible apply keeps_ite
    | (have x := trivial; extract_lets +onlyGivenNames x; (fail_if_success have y : True := x); first | (refine keeps_step x ?_ (fun hx => ?_); focus dsimp -zeta only [x]; rotate_left; clear_value x; rotate_right) | skip)

theorem wakeHead_keeps {o x0 x1 x2 x3} (h0 : Keeps o x0) : Keeps o (wakeHead x0 x1 x2 x3) := by
  unfold wakeHead
  repeat' first
    | with_reducible assumption | with_reducible apply wakeLane_keeps

theorem laneWakeDone_keeps {o x0 x1 x2} (h0 : Keeps o x0) : Keeps o (laneWakeDone x0 x1 x2) := by
  unfold laneWakeDone
  repeat' first
    | simp -zeta only [↓keeps_mk, id_eq] | with_reducible assumption | (intro)
    | with_reducible apply modHeadS_keeps | with_reducible apply setB_keeps | with_reducible apply idleLane_keeps
    | with_reducible apply keeps_ite
    | (have x := trivial; extract_lets +onlyGivenNames x; (fail_if_success have y : True := x); first | (refine keeps_step x ?_ (fun hx => ?_); focus dsimp -zeta only [x]; rotate_left; clear_value x; rotate_right) | skip)

theorem execLaneWakeDone_goes {o x0 x1 x2} (h0 : Keeps o x2) : Goes o (execLaneWakeDone x0 x1 x2) := by
  unfold execLaneWakeDone
  repeat' first
    | with_reducible assumption | with_reducible apply onLaneCh_goes | with_reducible apply laneWakeDone_keeps
    | with_reducible apply goes_next

theorem putTaps_keeps {o x0 x1 x2 x3 x4 x5} (h0 : Keeps o x0) : Keeps o (putTaps x0 x1 x2 x3 x4 x5) := by
  unfold putTaps
  repeat' first
    | simp -zeta only [↓keeps_mk, id_eq] | with_reducible assumption | (intro) | with_reducible apply modLane_keeps
    | (have x := trivial; extract_lets +onlyGivenNames x; (fail_if_success have y : True := x); first | (refine keeps_step x ?_ (fun hx => ?_); focus dsimp -zeta only [x]; rotate_left; clear_value x; rotate_right) | skip)

theorem tapWrite_keeps {o x0 x1 x2 x3 x4} (h0 : Keeps o x0) : Keeps o (tapWrite x0 x1 x2 x3 x4).1 := by
  unfold tapWrite
  repeat' first
    | with_reducible assumption | (intro) | with_reducible apply putTaps_keeps | with_reducible apply setB_keeps
    | with_reducible apply keeps_ite | with_reducible apply keeps_ite_fst
    | (have x := trivial; extract_lets +onlyGivenNames x; (fail_if_success have y : True := x); first | (refine keeps_step x ?_ (fun hx => ?_); focus dsimp -zeta only [x]; rotate_left; clear_value x; rotate_right) | skip)

theorem execLaneTapWrite_goes {o x0 x1 x2 x3 x4} (h0 : Keeps o x4) : Goes o (execLaneTapWrite x0 x1 x2 x3 x4) := by
  unfold execLaneTapWrite
  repeat' first
    | with_reducible assumption | with_reducible apply onLaneCh_goes | with_reducible apply tapWrite_keeps
    | with_reducible apply emit_keeps | with_reducible apply keeps_ite | with_reducible apply keeps_ite_fst
    | with_reducible apply goes_ite | with_reducible apply goes_next | exact goes_fault
    | (have x := trivial; extract_lets +onlyGivenNames x; (fail_if_success have y : True := x); first | (refine goes_step x ?_ (fun hx => ?_); focus dsimp -zeta only [x]; rotate_left; clear_value x; rotate_right) | (refine keeps_step x ?_ (fun hx => ?_); focus dsimp -zeta only [x]; rotate_left; clear_value x; rotate_right) | skip)

theorem applyTaps_keeps {o x0 x1 x2} (h0 : Keeps o x0) : Keeps o (applyTaps x0 x1 x2) := by
  unfold applyTaps
  repeat' first
    | simp -zeta only [↓keeps_mk, id_eq] | with_reducible assumption | (intro) | with_reducible apply putTaps_keeps
    | with_reducible apply modLane_keeps | with_reducible apply keeps_foldl
    | (have x := trivial; extract_lets +onlyGivenNames x; (fail_if_success have y : True := x); first | (refine keeps_step x ?_ (fun hx => ?_); focus dsimp -zeta only [x]; rotate_left; clear_value x; rotate_right) | skip)

theorem applyKappa_keeps {o x0 x1} (h0 : Keeps o x0) : Keeps o (applyKappa x0 x1) := by
  unfold applyKappa
  repeat' first
    | with_reducible assumption | (intro) | with_reducible apply modHead_keeps | with_reducible apply keeps_foldl
    | (have x := trivial; extract_lets +onlyGivenNames x; (fail_if_success have y : True := x); first | (refine keeps_step x ?_ (fun hx => ?_); focus dsimp -zeta only [x]; rotate_left; clear_value x; rotate_right) | skip)

theorem acquire_keeps {o x0 x1 x2} (h0 : Keeps o x0) : Keeps o (acquire x0 x1 x2) := by
  unfold acquire
  repeat' first
    | simp -zeta only [↓keeps_mk, id_eq] | with_reducible assumption | (intro)
    | with_reducible apply applyTaps_keeps | with_reducible apply modLane_keeps | with_reducible apply setF_keeps
    | with_reducible apply took_keeps | with_reducible apply setB_keeps | with_reducible apply setLaneSt_keeps
    | (have x := trivial; extract_lets +onlyGivenNames x; (fail_if_success have y : True := x); first | (refine keeps_step x ?_ (fun hx => ?_); focus dsimp -zeta only [x]; rotate_left; clear_value x; rotate_right) | skip)

theorem flagCaps_keeps {o x0 x1 x2 x3} (h0 : Keeps o x0) : Keeps o (flagCaps x0 x1 x2 x3) := by
  unfold flagCaps
  repeat' first
    | simp -zeta only [↓keeps_mk, id_eq] | with_reducible assumption | (intro) | with_reducible apply modHead_keeps
    | with_reducible apply keeps_ite
    | (have x := trivial; extract_lets +onlyGivenNames x; (fail_if_success have y : True := x); first | (refine keeps_step x ?_ (fun hx => ?_); focus dsimp -zeta only [x]; rotate_left; clear_value x; rotate_right) | skip)

theorem leaveWedge_keeps {o x0 x1 x2} (h0 : Keeps o x0) : Keeps o (leaveWedge x0 x1 x2) := by
  unfold leaveWedge
  repeat' first
    | simp -zeta only [↓keeps_mk, id_eq] | with_reducible assumption | (intro) | with_reducible apply acquire_keeps
    | with_reducible apply modLane_keeps | with_reducible apply keeps_ite
    | (have x := trivial; extract_lets +onlyGivenNames x; (fail_if_success have y : True := x); first | (refine keeps_step x ?_ (fun hx => ?_); focus dsimp -zeta only [x]; rotate_left; clear_value x; rotate_right) | skip)

theorem wedgeSpanHold_keeps {o x0 x1 x2} (h0 : Keeps o x0) : Keeps o (wedgeSpanHold x0 x1 x2) := by
  unfold wedgeSpanHold
  repeat' first
    | simp -zeta only [↓keeps_mk, id_eq] | with_reducible assumption | (intro) | with_reducible apply modLane_keeps
    | with_reducible apply setLaneSt_keeps | with_reducible apply keeps_ite
    | (have x := trivial; extract_lets +onlyGivenNames x; (fail_if_success have y : True := x); first | (refine keeps_step x ?_ (fun hx => ?_); focus dsimp -zeta only [x]; rotate_left; clear_value x; rotate_right) | skip)

theorem execWedgeSpanHold_goes {o x0 x1 x2} (h0 : Keeps o x2) : Goes o (execWedgeSpanHold x0 x1 x2) := by
  unfold execWedgeSpanHold
  repeat' first
    | with_reducible assumption | with_reducible apply onLaneCh_goes | with_reducible apply wedgeSpanHold_keeps
    | with_reducible apply goes_next

theorem putPll_keeps {o x0 x1 x2 x3} (h0 : Keeps o x0) : Keeps o (putPll x0 x1 x2 x3) := by
  unfold putPll
  repeat' first
    | simp -zeta only [↓keeps_mk, id_eq] | with_reducible assumption | (intro) | with_reducible apply modLane_keeps
    | with_reducible apply setReg_keeps
    | (have x := trivial; extract_lets +onlyGivenNames x; (fail_if_success have y : True := x); first | (refine keeps_step x ?_ (fun hx => ?_); focus dsimp -zeta only [x]; rotate_left; clear_value x; rotate_right) | skip)

theorem phaseErrorWindow_keeps {o x0 x1 x2 x3} (h0 : Keeps o x0) : Keeps o (phaseErrorWindow x0 x1 x2 x3) := by
  unfold phaseErrorWindow
  repeat' first
    | simp -zeta only [↓keeps_mk, id_eq] | with_reducible assumption | (intro)
    | with_reducible apply leaveWedge_keeps | with_reducible apply setLaneSt_keeps
    | with_reducible apply putPll_keeps | with_reducible apply flagCaps_keeps | with_reducible apply modLane_keeps
    | with_reducible apply setB_keeps | with_reducible apply keeps_ite | with_reducible apply keeps_foldl
    | (have x := trivial; extract_lets +onlyGivenNames x; (fail_if_success have y : True := x); first | (refine keeps_step x ?_ (fun hx => ?_); focus dsimp -zeta only [x]; rotate_left; clear_value x; rotate_right) | skip)

theorem execPhaseErrorWindow_goes {o x0 x1 x2 x3} (h0 : Keeps o x3) :
    Goes o (execPhaseErrorWindow x0 x1 x2 x3) := by
  unfold execPhaseErrorWindow
  repeat' first
    | with_reducible assumption | with_reducible apply onLaneCh_goes | with_reducible apply phaseErrorWindow_keeps
    | with_reducible apply goes_next

end Sys2Proof.Machine
end

