-- ==== Sys2Proof/Laws/KeepsTile.lean ====
section
/-! SUPPORT. What retirement, the servo and the arms, the spindle, the writable stores, the lanes, captures, the detectors, the ladder and the write path keep (`Keeps`): one lemma per operation. -/

namespace Sys2Proof.Machine

theorem noteCause_keeps {o x0 x1 x2} (h0 : Keeps o x0) : Keeps o (noteCause x0 x1 x2) := by
  unfold noteCause
  repeat' first
    | simp -zeta only [↓keeps_mk, id_eq] | with_reducible assumption
    | (have x := trivial; extract_lets +onlyGivenNames x; (fail_if_success have y : True := x); first | (refine keeps_step x ?_ (fun hx => ?_); focus dsimp -zeta only [x]; rotate_left; clear_value x; rotate_right) | skip)

theorem setZone_keeps {o x0 x1 x2 x3} (h0 : Keeps o x0) : Keeps o (setZone x0 x1 x2 x3) := by
  unfold setZone
  repeat' first
    | simp -zeta only [↓keeps_mk, id_eq] | with_reducible assumption
    | (have x := trivial; extract_lets +onlyGivenNames x; (fail_if_success have y : True := x); first | (refine keeps_step x ?_ (fun hx => ?_); focus dsimp -zeta only [x]; rotate_left; clear_value x; rotate_right) | skip)

theorem clearNs_keeps {o x0 x1} (h0 : Keeps o x0) : Keeps o (clearNs x0 x1) := by
  unfold clearNs
  repeat' first
    | with_reducible assumption | (intro) | with_reducible apply setReg_keeps | with_reducible apply keeps_foldl

theorem endBlanking_keeps {o x0} (h0 : Keeps o x0) : Keeps o (endBlanking x0) := by
  unfold endBlanking
  repeat' first
    | simp -zeta only [↓keeps_mk, id_eq] | with_reducible assumption | (intro)
    | with_reducible apply completeCmd_keeps | with_reducible apply clearNs_keeps | with_reducible apply keeps_ite
    | with_reducible apply keeps_foldl
    | (have x := trivial; extract_lets +onlyGivenNames x; (fail_if_success have y : True := x); first | (refine keeps_step x ?_ (fun hx => ?_); focus dsimp -zeta only [x]; rotate_left; clear_value x; rotate_right) | skip)
    | split

theorem settleZones_keeps {o x0} (h0 : Keeps o x0) : Keeps o (settleZones x0) := by
  unfold settleZones
  repeat' first
    | simp -zeta only [↓keeps_mk, id_eq] | with_reducible assumption | (intro)
    | with_reducible apply endBlanking_keeps | with_reducible apply setZone_keeps | with_reducible apply keeps_ite
    | with_reducible apply keeps_foldl
    | (have x := trivial; extract_lets +onlyGivenNames x; (fail_if_success have y : True := x); first | (refine keeps_step x ?_ (fun hx => ?_); focus dsimp -zeta only [x]; rotate_left; clear_value x; rotate_right) | skip)

theorem dropHead_keeps {o x0 x1 x2 x3} (h0 : Keeps o x0) : Keeps o (dropHead x0 x1 x2 x3) := by
  unfold dropHead
  repeat' first
    | simp -zeta only [↓keeps_mk, id_eq] | with_reducible assumption | (intro) | with_reducible apply setHead_keeps
    | with_reducible apply sendDrop_keeps | with_reducible apply dropCtx_keeps | with_reducible apply keeps_ite
    | with_reducible apply keeps_foldl
    | (have x := trivial; extract_lets +onlyGivenNames x; (fail_if_success have y : True := x); first | (refine keeps_step x ?_ (fun hx => ?_); focus dsimp -zeta only [x]; rotate_left; clear_value x; rotate_right) | skip)
    | split

theorem stopLane_keeps {o x0 x1 x2} (h0 : Keeps o x0) : Keeps o (stopLane x0 x1 x2) := by
  unfold stopLane
  repeat' first
    | with_reducible assumption | with_reducible apply setLaneSt_keeps | with_reducible apply keeps_ite

theorem stopWriter_keeps {o x0 x1 x2 x3} (h0 : Keeps o x0) : Keeps o (stopWriter x0 x1 x2 x3) := by
  unfold stopWriter
  repeat' first
    | with_reducible assumption | with_reducible apply endHeadWrites_keeps | with_reducible apply sendMode_keeps
    | with_reducible apply keeps_ite
    | (have x := trivial; extract_lets +onlyGivenNames x; (fail_if_success have y : True := x); first | (refine keeps_step x ?_ (fun hx => ?_); focus dsimp -zeta only [x]; rotate_left; clear_value x; rotate_right) | skip)

theorem stopHead_keeps {o x0 x1 x2 x3} (h0 : Keeps o x0) : Keeps o (stopHead x0 x1 x2 x3) := by
  unfold stopHead
  repeat' first
    | with_reducible assumption | with_reducible apply stopWriter_keeps | with_reducible apply dropHead_keeps

theorem stopCluster_keeps {o x0 x1 x2} (h0 : Keeps o x0) : Keeps o (stopCluster x0 x1 x2) := by
  unfold stopCluster
  repeat' first
    | simp -zeta only [↓keeps_mk, id_eq] | with_reducible assumption | (intro)
    | with_reducible apply stopHead_keeps | with_reducible apply modCtl_keeps | with_reducible apply setMode_keeps
    | with_reducible apply startPark_keeps | with_reducible apply keeps_ite | with_reducible apply keeps_foldl
    | (have x := trivial; extract_lets +onlyGivenNames x; (fail_if_success have y : True := x); first | (refine keeps_step x ?_ (fun hx => ?_); focus dsimp -zeta only [x]; rotate_left; clear_value x; rotate_right) | skip)

theorem stopTile_keeps {o x0 x1} (h0 : Keeps o x0) : Keeps o (stopTile x0 x1) := by
  unfold stopTile
  repeat' first
    | with_reducible assumption | (intro) | with_reducible apply stopCluster_keeps
    | with_reducible apply keeps_foldl

theorem stopUnit_keeps {o x0 x1 x2 x3 x4 x5} (h0 : Keeps o x0) : Keeps o (stopUnit x0 x1 x2 x3 x4 x5) := by
  unfold stopUnit
  repeat' first
    | with_reducible assumption | with_reducible apply stopLane_keeps | with_reducible apply stopWriter_keeps
    | with_reducible apply stopHead_keeps | with_reducible apply stopCluster_keeps
    | with_reducible apply stopTile_keeps | with_reducible apply keeps_ite

theorem retireOne_keeps {o x0 x1 x2 x3 x4 x5 x6} (h0 : Keeps o x0) : Keeps o (retireOne x0 x1 x2 x3 x4 x5 x6) := by
  unfold retireOne
  repeat' first
    | simp -zeta only [↓keeps_mk, id_eq] | with_reducible assumption | with_reducible apply noteCause_keeps
    | with_reducible apply setB_keeps | with_reducible apply tileNotice_keeps | with_reducible apply tileEdge_keeps
    | with_reducible apply stopUnit_keeps | with_reducible apply keeps_ite
    | (have x := trivial; extract_lets +onlyGivenNames x; (fail_if_success have y : True := x); first | (refine keeps_step x ?_ (fun hx => ?_); focus dsimp -zeta only [x]; rotate_left; clear_value x; rotate_right) | skip)

theorem deriveTile_keeps {o x0 x1} (h0 : Keeps o x0) : Keeps o (deriveTile x0 x1) := by
  unfold deriveTile
  repeat' first
    | with_reducible assumption | (intro) | with_reducible apply retireOne_keeps | with_reducible apply keeps_ite

theorem deriveCluster_keeps {o x0 x1 x2} (h0 : Keeps o x0) : Keeps o (deriveCluster x0 x1 x2) := by
  unfold deriveCluster
  repeat' first
    | with_reducible assumption | with_reducible apply deriveTile_keeps | with_reducible apply retireOne_keeps
    | with_reducible apply keeps_ite
    | (have x := trivial; extract_lets +onlyGivenNames x; (fail_if_success have y : True := x); first | (refine keeps_step x ?_ (fun hx => ?_); focus dsimp -zeta only [x]; rotate_left; clear_value x; rotate_right) | skip)

theorem deriveHead_keeps {o x0 x1 x2 x3} (h0 : Keeps o x0) : Keeps o (deriveHead x0 x1 x2 x3) := by
  unfold deriveHead
  repeat' first
    | with_reducible assumption | with_reducible apply deriveCluster_keeps | with_reducible apply retireOne_keeps
    | with_reducible apply keeps_ite

theorem retire_keeps {o x0 x1 x2 x3 x4 x5 x6} (h0 : Keeps o x0) : Keeps o (retire x0 x1 x2 x3 x4 x5 x6) := by
  unfold retire
  repeat' first
    | with_reducible assumption | with_reducible apply retireOne_keeps | with_reducible apply deriveHead_keeps
    | with_reducible apply deriveCluster_keeps | with_reducible apply deriveTile_keeps
    | with_reducible apply keeps_ite
    | (have x := trivial; extract_lets +onlyGivenNames x; (fail_if_success have y : True := x); first | (refine keeps_step x ?_ (fun hx => ?_); focus dsimp -zeta only [x]; rotate_left; clear_value x; rotate_right) | skip)

theorem persistLevel_keeps {o x0} (h0 : Keeps o x0) : Keeps o (persistLevel x0) := by
  unfold persistLevel
  repeat' first
    | with_reducible assumption | with_reducible apply irqLevel_keeps

theorem mergeSets_keeps {o x0 x1} (h0 : Keeps o x0) : Keeps o (mergeSets x0 x1) := by
  unfold mergeSets
  repeat' first
    | with_reducible assumption | (intro) | with_reducible apply setReg_keeps | with_reducible apply keeps_foldl
    | (have x := trivial; extract_lets +onlyGivenNames x; (fail_if_success have y : True := x); first | (refine keeps_step x ?_ (fun hx => ?_); focus dsimp -zeta only [x]; rotate_left; clear_value x; rotate_right) | skip)

theorem retireChanged_keeps {o x0} (h0 : Keeps o x0) : Keeps o (retireChanged x0) := by
  unfold retireChanged
  repeat' first
    | with_reducible assumption | with_reducible apply setF_keeps

theorem recordMirror_keeps {o x0 x1} (h0 : Keeps o x0) : Keeps o (recordMirror x0 x1) := by
  unfold recordMirror
  repeat' first
    | simp -zeta only [↓keeps_mk, id_eq] | with_reducible assumption | (intro) | with_reducible apply owlPost_keeps
    | with_reducible apply keeps_foldl
    | (have x := trivial; extract_lets +onlyGivenNames x; (fail_if_success have y : True := x); first | (refine keeps_step x ?_ (fun hx => ?_); focus dsimp -zeta only [x]; rotate_left; clear_value x; rotate_right) | skip)
    | split

theorem mirrorDone_keeps {o x0 x1} (h0 : Keeps o x0) : Keeps o (mirrorDone x0 x1) := by
  unfold mirrorDone
  repeat' first
    | with_reducible assumption | with_reducible apply mergeSets_keeps | with_reducible apply settleZones_keeps
    | with_reducible apply retireChanged_keeps | with_reducible apply recordMirror_keeps
    | with_reducible apply keeps_ite
    | (have x := trivial; extract_lets +onlyGivenNames x; (fail_if_success have y : True := x); first | (refine keeps_step x ?_ (fun hx => ?_); focus dsimp -zeta only [x]; rotate_left; clear_value x; rotate_right) | skip)

theorem execRetirementMirrored_goes {o x0 x1} (h0 : Keeps o x1) : Goes o (execRetirementMirrored x0 x1) := by
  unfold execRetirementMirrored
  repeat' first
    | with_reducible assumption | (intro) | with_reducible apply onTile_goes
    | with_reducible apply mirrorDone_keeps | with_reducible apply crossAtOnce_keeps
    | with_reducible apply keeps_ite | with_reducible apply goes_ite | with_reducible apply goes_next

theorem retireTile_keeps {o x0 x1 x2} (h0 : Keeps o x0) : Keeps o (retireTile x0 x1 x2) := by
  unfold retireTile
  repeat' first
    | with_reducible assumption | with_reducible apply mirrorDone_keeps | with_reducible apply retire_keeps
    | with_reducible apply keeps_ite

theorem retireCopy_keeps {o x0 x1} (h0 : Keeps o x0) : Keeps o (retireCopy x0 x1) := by
  unfold retireCopy
  repeat' first
    | simp -zeta only [↓keeps_mk, id_eq] | with_reducible assumption | (intro)
    | with_reducible apply persistLevel_keeps | with_reducible apply setF_keeps | with_reducible apply bumpF_keeps
    | with_reducible apply owlHub_keeps | with_reducible apply keeps_ite
    | (have x := trivial; extract_lets +onlyGivenNames x; (fail_if_success have y : True := x); first | (refine keeps_step x ?_ (fun hx => ?_); focus dsimp -zeta only [x]; rotate_left; clear_value x; rotate_right) | skip)
    | split

theorem execRetirementFlashCopy_goes {o x0 x1} (h0 : Keeps o x1) : Goes o (execRetirementFlashCopy x0 x1) := by
  unfold execRetirementFlashCopy
  repeat' first
    | with_reducible assumption | with_reducible apply retireCopy_keeps | with_reducible apply goes_next

theorem clearUnit_keeps {o x0 x1 x2 x3 x4 x5} (h0 : Keeps o x0) : Keeps o (clearUnit x0 x1 x2 x3 x4 x5) := by
  unfold clearUnit
  repeat' first
    | with_reducible assumption | with_reducible apply noteCause_keeps | with_reducible apply setB_keeps
    | (have x := trivial; extract_lets +onlyGivenNames x; (fail_if_success have y : True := x); first | (refine keeps_step x ?_ (fun hx => ?_); focus dsimp -zeta only [x]; rotate_left; clear_value x; rotate_right) | skip)

theorem reinstateLane_keeps {o x0 x1 x2 x3 x4} (h0 : Keeps o x0) : Keeps o (reinstateLane x0 x1 x2 x3 x4) := by
  unfold reinstateLane
  repeat' first
    | simp -zeta only [↓keeps_mk, id_eq] | with_reducible assumption | (intro)
    | with_reducible apply clearUnit_keeps | with_reducible apply setReg_keeps | with_reducible apply setB_keeps
    | with_reducible apply modHeadS_keeps | with_reducible apply modLane_keeps
    | with_reducible apply setLaneSt_keeps | with_reducible apply keeps_ite | with_reducible apply keeps_foldl
    | (have x := trivial; extract_lets +onlyGivenNames x; (fail_if_success have y : True := x); first | (refine keeps_step x ?_ (fun hx => ?_); focus dsimp -zeta only [x]; rotate_left; clear_value x; rotate_right) | skip)

theorem reinstateHead_keeps {o x0 x1 x2 x3} (h0 : Keeps o x0) : Keeps o (reinstateHead x0 x1 x2 x3) := by
  unfold reinstateHead
  repeat' first
    | with_reducible assumption | with_reducible apply clearUnit_keeps | with_reducible apply reinstateLane_keeps

theorem reinstateCluster_keeps {o x0 x1 x2} (h0 : Keeps o x0) : Keeps o (reinstateCluster x0 x1 x2) := by
  unfold reinstateCluster
  repeat' first
    | simp -zeta only [↓keeps_mk, id_eq] | with_reducible assumption | (intro)
    | with_reducible apply clearUnit_keeps | with_reducible apply reinstateHead_keeps
    | with_reducible apply modCtl_keeps | with_reducible apply setMode_keeps | with_reducible apply keeps_ite
    | with_reducible apply keeps_foldl
    | (have x := trivial; extract_lets +onlyGivenNames x; (fail_if_success have y : True := x); first | (refine keeps_step x ?_ (fun hx => ?_); focus dsimp -zeta only [x]; rotate_left; clear_value x; rotate_right) | skip)

theorem underive_keeps {o x0 x1 x2 x3} (h0 : Keeps o x0) : Keeps o (underive x0 x1 x2 x3) := by
  unfold underive
  repeat' first
    | simp -zeta only [↓keeps_mk, id_eq] | with_reducible assumption | (intro)
    | with_reducible apply clearUnit_keeps | with_reducible apply modCtl_keeps | with_reducible apply setMode_keeps
    | with_reducible apply keeps_ite
    | (have x := trivial; extract_lets +onlyGivenNames x; (fail_if_success have y : True := x); first | (refine keeps_step x ?_ (fun hx => ?_); focus dsimp -zeta only [x]; rotate_left; clear_value x; rotate_right) | skip)

theorem reinstate_keeps {o x0 x1 x2 x3 x4 x5} (h0 : Keeps o x0) : Keeps o (reinstate x0 x1 x2 x3 x4 x5) := by
  unfold reinstate
  repeat' first
    | with_reducible assumption | (intro) | with_reducible apply underive_keeps
    | with_reducible apply reinstateLane_keeps | with_reducible apply clearUnit_keeps
    | with_reducible apply reinstateHead_keeps | with_reducible apply reinstateCluster_keeps
    | with_reducible apply setF_keeps | with_reducible apply setReg_keeps
    | with_reducible apply retireChanged_keeps | with_reducible apply owlPost_keeps
    | with_reducible apply keeps_ite | with_reducible apply keeps_foldl
    | (have x := trivial; extract_lets +onlyGivenNames x; (fail_if_success have y : True := x); first | (refine keeps_step x ?_ (fun hx => ?_); focus dsimp -zeta only [x]; rotate_left; clear_value x; rotate_right) | skip)

theorem finishWrite_keeps {o x0 x1 x2 x3} (h0 : Keeps o x0) : Keeps o (finishWrite x0 x1 x2 x3) := by
  unfold finishWrite
  repeat' first
    | simp -zeta only [↓keeps_mk, id_eq] | with_reducible assumption | (intro)
    | with_reducible apply endWrite_keeps | with_reducible apply modHeadW_keeps | with_reducible apply retire_keeps
    | with_reducible apply keeps_ite
    | (have x := trivial; extract_lets +onlyGivenNames x; (fail_if_success have y : True := x); first | (refine keeps_step x ?_ (fun hx => ?_); focus dsimp -zeta only [x]; rotate_left; clear_value x; rotate_right) | skip)

theorem failHead_keeps {o x0 x1 x2 x3} (h0 : Keeps o x0) : Keeps o (failHead x0 x1 x2 x3) := by
  unfold failHead
  repeat' first
    | with_reducible assumption | (intro) | with_reducible apply takeWrites_keeps
    | with_reducible apply setGate_keeps | with_reducible apply finishWrite_keeps
    | with_reducible apply keeps_foldl
    | (have x := trivial; extract_lets +onlyGivenNames x; (fail_if_success have y : True := x); first | (refine keeps_step x ?_ (fun hx => ?_); focus dsimp -zeta only [x]; rotate_left; clear_value x; rotate_right) | skip)

theorem failCluster_keeps {o x0 x1 x2} (h0 : Keeps o x0) : Keeps o (failCluster x0 x1 x2) := by
  unfold failCluster
  repeat' first
    | with_reducible assumption | (intro) | with_reducible apply failHead_keeps | with_reducible apply keeps_foldl

theorem wcnt_keeps {o x0 x1 x2 x3} (h0 : Keeps o x0) : Keeps o (wcnt x0 x1 x2 x3) := by
  unfold wcnt
  repeat' first
    | with_reducible assumption | with_reducible apply bumpF_keeps | with_reducible apply keeps_ite

theorem countLocked_keeps {o x0 x1 x2} (h0 : Keeps o x0) : Keeps o (countLocked x0 x1 x2) := by
  unfold countLocked
  repeat' first
    | with_reducible assumption | (intro) | with_reducible apply setF_keeps | split

theorem chooseSource_keeps {o x0 x1 x2 x3} (h0 : Keeps o x0) : Keeps o (chooseSource x0 x1 x2 x3) := by
  unfold chooseSource
  repeat' first
    | with_reducible assumption | with_reducible apply setF_keeps | with_reducible apply setReg_keeps
    | with_reducible apply setB_keeps | with_reducible apply countLocked_keeps | with_reducible apply retire_keeps
    | with_reducible apply keeps_ite
    | (have x := trivial; extract_lets +onlyGivenNames x; (fail_if_success have y : True := x); first | (refine keeps_step x ?_ (fun hx => ?_); focus dsimp -zeta only [x]; rotate_left; clear_value x; rotate_right) | skip)

theorem setReaderSt_keeps {o x0 x1 x2 x3 x4 x5} (h0 : Keeps o x0) : Keeps o (setReaderSt x0 x1 x2 x3 x4 x5) := by
  unfold setReaderSt
  repeat' first
    | simp -zeta only [↓keeps_mk, id_eq] | with_reducible assumption | (intro)
    | with_reducible apply modReader_keeps | with_reducible apply setF_keeps | with_reducible apply keeps_ite
    | (have x := trivial; extract_lets +onlyGivenNames x; (fail_if_success have y : True := x); first | (refine keeps_step x ?_ (fun hx => ?_); focus dsimp -zeta only [x]; rotate_left; clear_value x; rotate_right) | skip)

theorem loseLock_keeps {o x0 x1 x2 x3 x4} (h0 : Keeps o x0) : Keeps o (loseLock x0 x1 x2 x3 x4) := by
  unfold loseLock
  repeat' first
    | with_reducible assumption | with_reducible apply setReaderSt_keeps | with_reducible apply tileEdge_keeps
    | with_reducible apply bump_keeps | with_reducible apply wcnt_keeps | with_reducible apply chooseSource_keeps
    | with_reducible apply retire_keeps | with_reducible apply keeps_ite
    | (have x := trivial; extract_lets +onlyGivenNames x; (fail_if_success have y : True := x); first | (refine keeps_step x ?_ (fun hx => ?_); focus dsimp -zeta only [x]; rotate_left; clear_value x; rotate_right) | skip)

theorem updatePair_keeps {o x0 x1 x2 x3} (h0 : Keeps o x0) : Keeps o (updatePair x0 x1 x2 x3) := by
  unfold updatePair
  repeat' first
    | simp -zeta only [↓keeps_mk, id_eq] | with_reducible assumption | with_reducible apply setHeadS_keeps
    | with_reducible apply setF_keeps | with_reducible apply setB_keeps | with_reducible apply keeps_ite
    | (have x := trivial; extract_lets +onlyGivenNames x; (fail_if_success have y : True := x); first | (refine keeps_step x ?_ (fun hx => ?_); focus dsimp -zeta only [x]; rotate_left; clear_value x; rotate_right) | skip)
    | split

theorem makeRecord_keeps {o x0 x1 x2 x3 x4} (h0 : Keeps o x0) : Keeps o (makeRecord x0 x1 x2 x3 x4) := by
  unfold makeRecord
  repeat' first
    | simp -zeta only [↓keeps_mk, id_eq] | with_reducible assumption | (intro) | with_reducible apply setF_keeps
    | with_reducible apply setB_keeps | with_reducible apply setReg_keeps | with_reducible apply modHeadS_keeps
    | with_reducible apply keeps_ite
    | (have x := trivial; extract_lets +onlyGivenNames x; (fail_if_success have y : True := x); first | (refine keeps_step x ?_ (fun hx => ?_); focus dsimp -zeta only [x]; rotate_left; clear_value x; rotate_right) | skip)
    | split

theorem wedgeLocked_keeps {o x0 x1 x2 x3 x4 x5 x6} (h0 : Keeps o x0) :
    Keeps o (wedgeLocked x0 x1 x2 x3 x4 x5 x6) := by
  unfold wedgeLocked
  repeat' first
    | simp -zeta only [↓keeps_mk, id_eq] | with_reducible assumption | with_reducible apply setReader_keeps
    | with_reducible apply bump_keeps | with_reducible apply makeRecord_keeps | with_reducible apply loseLock_keeps
    | with_reducible apply updatePair_keeps | with_reducible apply keeps_ite
    | (have x := trivial; extract_lets +onlyGivenNames x; (fail_if_success have y : True := x); first | (refine keeps_step x ?_ (fun hx => ?_); focus dsimp -zeta only [x]; rotate_left; clear_value x; rotate_right) | skip)
    | split

theorem wedgeVerify_keeps {o x0 x1 x2 x3 x4 x5 x6} (h0 : Keeps o x0) :
    Keeps o (wedgeVerify x0 x1 x2 x3 x4 x5 x6) := by
  unfold wedgeVerify
  repeat' first
    | simp -zeta only [↓keeps_mk, id_eq] | with_reducible assumption | with_reducible apply bump_keeps
    | with_reducible apply setReader_keeps | with_reducible apply chooseSource_keeps
    | with_reducible apply setReaderSt_keeps | with_reducible apply keeps_ite
    | (have x := trivial; extract_lets +onlyGivenNames x; (fail_if_success have y : True := x); first | (refine keeps_step x ?_ (fun hx => ?_); focus dsimp -zeta only [x]; rotate_left; clear_value x; rotate_right) | clear_value x | skip)
    | split

theorem wedgeOf_keeps {o x0 x1 x2 x3 x4 x5} (h0 : Keeps o x0) : Keeps o (wedgeOf x0 x1 x2 x3 x4 x5) := by
  unfold wedgeOf
  repeat' first
    | simp -zeta only [↓keeps_mk, id_eq] | with_reducible assumption | with_reducible apply chooseSource_keeps
    | with_reducible apply setReaderSt_keeps | with_reducible apply setReader_keeps
    | with_reducible apply wedgeVerify_keeps | with_reducible apply wedgeLocked_keeps
    | with_reducible apply keeps_ite
    | (have x := trivial; extract_lets +onlyGivenNames x; (fail_if_success have y : True := x); first | (refine keeps_step x ?_ (fun hx => ?_); focus dsimp -zeta only [x]; rotate_left; clear_value x; rotate_right) | skip)
    | split

theorem handTimes_keeps {o x0 x1 x2 x3 x4} (h0 : Keeps o x0) : Keeps o (handTimes x0 x1 x2 x3 x4) := by
  unfold handTimes
  repeat' first
    | simp -zeta only [↓keeps_mk, id_eq] | with_reducible assumption | (intro) | with_reducible apply modLane_keeps
    | with_reducible apply modHeadW_keeps | with_reducible apply keeps_ite
    | (have x := trivial; extract_lets +onlyGivenNames x; (fail_if_success have y : True := x); first | (refine keeps_step x ?_ (fun hx => ?_); focus dsimp -zeta only [x]; rotate_left; clear_value x; rotate_right) | (have _ : State → State := x; dsimp -zeta only [x]) | (have _ : Nat → State → State := x; dsimp -zeta only [x]) | (have _ : State → Nat → State := x; dsimp -zeta only [x]) | skip)

theorem againWants_keeps {o x0 x1} (h0 : Keeps o x0) : Keeps o (againWants x0 x1) := by
  unfold againWants
  repeat' first
    | simp -zeta only [↓keeps_mk, id_eq] | with_reducible assumption | (intro) | with_reducible apply modHead_keeps
    | (have x := trivial; extract_lets +onlyGivenNames x; (fail_if_success have y : True := x); first | (refine keeps_step x ?_ (fun hx => ?_); focus dsimp -zeta only [x]; rotate_left; clear_value x; rotate_right) | skip)

theorem servoWedge_keeps {o x0 x1 x2 x3 x4 x5} (h0 : Keeps o x0) : Keeps o (servoWedge x0 x1 x2 x3 x4 x5) := by
  unfold servoWedge
  repeat' first
    | simp -zeta only [↓keeps_mk, id_eq] | with_reducible assumption | with_reducible apply wedgeOf_keeps
    | with_reducible apply againWants_keeps | with_reducible apply setReader_keeps
    | with_reducible apply leaveWedge_keeps | with_reducible apply handTimes_keeps | with_reducible apply keeps_ite
    | (have x := trivial; extract_lets +onlyGivenNames x; (fail_if_success have y : True := x); first | (refine keeps_step x ?_ (fun hx => ?_); focus dsimp -zeta only [x]; rotate_left; clear_value x; rotate_right) | skip)

theorem execServoWedge_goes {o x0 x1 x2 x3 x4 x5 x6} (h0 : Keeps o x6) :
    Goes o (execServoWedge x0 x1 x2 x3 x4 x5 x6) := by
  unfold execServoWedge
  repeat' first
    | with_reducible assumption | with_reducible apply onHeadMo_goes | with_reducible apply servoWedge_keeps
    | with_reducible apply keeps_ite | with_reducible apply goes_ite | with_reducible apply goes_next
    | exact goes_fault

theorem setArmed_keeps {o x0 x1 x2 x3} (h0 : Keeps o x0) : Keeps o (setArmed x0 x1 x2 x3) := by
  unfold setArmed
  repeat' first
    | with_reducible assumption | (intro) | with_reducible apply setReg_keeps | with_reducible apply setB_keeps
    | with_reducible apply keeps_foldl
    | (have x := trivial; extract_lets +onlyGivenNames x; (fail_if_success have y : True := x); first | (refine keeps_step x ?_ (fun hx => ?_); focus dsimp -zeta only [x]; rotate_left; clear_value x; rotate_right) | skip)

theorem endPacc_keeps {o x0 x1 x2 x3 x4} (h0 : Keeps o x0) : Keeps o (endPacc x0 x1 x2 x3 x4) := by
  unfold endPacc
  repeat' first
    | simp -zeta only [↓keeps_mk, id_eq] | with_reducible assumption | (intro) | with_reducible apply modArm_keeps
    | with_reducible apply setB_keeps | with_reducible apply setF_keeps
    | (have x := trivial; extract_lets +onlyGivenNames x; (fail_if_success have y : True := x); first | (refine keeps_step x ?_ (fun hx => ?_); focus dsimp -zeta only [x]; rotate_left; clear_value x; rotate_right) | skip)
    | split

theorem lateHead_keeps {o x0 x1 x2 x3} (h0 : Keeps o x0) : Keeps o (lateHead x0 x1 x2 x3) := by
  unfold lateHead
  repeat' first
    | simp -zeta only [↓keeps_mk, id_eq] | with_reducible assumption | (intro) | with_reducible apply setGate_keeps
    | with_reducible apply modHeadW_keeps | with_reducible apply bump_keeps | with_reducible apply keeps_ite
    | (have x := trivial; extract_lets +onlyGivenNames x; (fail_if_success have y : True := x); first | (refine keeps_step x ?_ (fun hx => ?_); focus dsimp -zeta only [x]; rotate_left; clear_value x; rotate_right) | skip)

theorem heaterBack_keeps {o x0 x1 x2 x3} (h0 : Keeps o x0) : Keeps o (heaterBack x0 x1 x2 x3) := by
  unfold heaterBack
  repeat' first
    | simp -zeta only [↓keeps_mk, id_eq] | with_reducible assumption | (intro) | with_reducible apply setB_keeps
    | with_reducible apply modHeadW_keeps
    | (have x := trivial; extract_lets +onlyGivenNames x; (fail_if_success have y : True := x); first | (refine keeps_step x ?_ (fun hx => ?_); focus dsimp -zeta only [x]; rotate_left; clear_value x; rotate_right) | skip)

theorem faultLevel_keeps {o x0 x1 x2} (h0 : Keeps o x0) : Keeps o (faultLevel x0 x1 x2) := by
  unfold faultLevel
  repeat' first
    | with_reducible assumption | (intro) | with_reducible apply irqLevel_keeps

theorem armLoss_keeps {o x0 x1 x2} (h0 : Keeps o x0) : Keeps o (armLoss x0 x1 x2) := by
  unfold armLoss
  repeat' first
    | simp -zeta only [↓keeps_mk, id_eq] | with_reducible assumption | (intro)
    | with_reducible apply heaterBack_keeps | with_reducible apply lateHead_keeps
    | with_reducible apply setReg_keeps | with_reducible apply setArmed_keeps | with_reducible apply endPacc_keeps
    | with_reducible apply setArmState_keeps | with_reducible apply modArm_keeps
    | with_reducible apply owlCluster_keeps | with_reducible apply retire_keeps
    | with_reducible apply failCluster_keeps | with_reducible apply keeps_ite | with_reducible apply keeps_foldl
    | (have x := trivial; extract_lets +onlyGivenNames x; (fail_if_success have y : True := x); first | (refine keeps_step x ?_ (fun hx => ?_); focus dsimp -zeta only [x]; rotate_left; clear_value x; rotate_right) | skip)

theorem ackEffect_keeps {o x0 x1 x2 x3} (h0 : Keeps o x0) : Keeps o (ackEffect x0 x1 x2 x3) := by
  unfold ackEffect
  repeat' first
    | with_reducible assumption | with_reducible apply setArmed_keeps | with_reducible apply endPacc_keeps
    | with_reducible apply keeps_ite
    | (have x := trivial; extract_lets +onlyGivenNames x; (fail_if_success have y : True := x); first | (refine keeps_step x ?_ (fun hx => ?_); focus dsimp -zeta only [x]; rotate_left; clear_value x; rotate_right) | skip)

theorem frameSlot_keeps {o x0 x1 x2} (h0 : Keeps o x0) : Keeps o (frameSlot x0 x1 x2) := by
  unfold frameSlot
  repeat' first
    | simp -zeta only [↓keeps_mk, id_eq] | with_reducible assumption | (intro) | with_reducible apply emit_keeps
    | with_reducible apply setArm_keeps | with_reducible apply modArm_keeps | with_reducible apply endPacc_keeps
    | with_reducible apply keeps_ite
    | (have x := trivial; extract_lets +onlyGivenNames x; (fail_if_success have y : True := x); first | (refine keeps_step x ?_ (fun hx => ?_); focus dsimp -zeta only [x]; rotate_left; clear_value x; rotate_right) | skip)
    | split

theorem execArmFrameSlot_goes {o x0 x1 x2} (h0 : Keeps o x2) : Goes o (execArmFrameSlot x0 x1 x2) := by
  unfold execArmFrameSlot
  repeat' first
    | with_reducible assumption | with_reducible apply onClusterMo_goes | with_reducible apply frameSlot_keeps
    | with_reducible apply goes_next

theorem badUpFrame_keeps {o x0 x1 x2} (h0 : Keeps o x0) : Keeps o (badUpFrame x0 x1 x2) := by
  unfold badUpFrame
  repeat' first
    | simp -zeta only [↓keeps_mk, id_eq] | with_reducible assumption | (intro) | with_reducible apply bumpF_keeps
    | with_reducible apply modArm_keeps | with_reducible apply armLoss_keeps | with_reducible apply keeps_ite
    | (have x := trivial; extract_lets +onlyGivenNames x; (fail_if_success have y : True := x); first | (refine keeps_step x ?_ (fun hx => ?_); focus dsimp -zeta only [x]; rotate_left; clear_value x; rotate_right) | skip)

theorem armAsperity_keeps {o x0 x1 x2} (h0 : Keeps o x0) : Keeps o (armAsperity x0 x1 x2) := by
  unfold armAsperity
  repeat' first
    | simp -zeta only [↓keeps_mk, id_eq] | with_reducible assumption | (intro) | with_reducible apply wcnt_keeps
    | with_reducible apply modHead_keeps | with_reducible apply setHead_keeps | with_reducible apply modDet_keeps
    | with_reducible apply keeps_ite
    | (have x := trivial; extract_lets +onlyGivenNames x; (fail_if_success have y : True := x); first | (refine keeps_step x ?_ (fun hx => ?_); focus dsimp -zeta only [x]; rotate_left; clear_value x; rotate_right) | skip)
    | split

theorem statusAck_keeps {o x0 x1 x2 x3} (h0 : Keeps o x0) : Keeps o (statusAck x0 x1 x2 x3) := by
  unfold statusAck
  repeat' first
    | simp -zeta only [↓keeps_mk, id_eq] | with_reducible assumption | (intro) | with_reducible apply modArm_keeps
    | with_reducible apply ackEffect_keeps | with_reducible apply emit_keeps | with_reducible apply bump_keeps
    | with_reducible apply armLoss_keeps | with_reducible apply keeps_ite | with_reducible apply keeps_getD
    | (have x := trivial; extract_lets +onlyGivenNames x; (fail_if_success have y : True := x); first | (refine keeps_step x ?_ (fun hx => ?_); focus dsimp -zeta only [x]; rotate_left; clear_value x; rotate_right) | skip)
    | split

theorem statusFrame_keeps {o x0 x1 x2 x3} (h0 : Keeps o x0) : Keeps o (statusFrame x0 x1 x2 x3) := by
  unfold statusFrame
  repeat' first
    | simp -zeta only [↓keeps_mk, id_eq] | with_reducible assumption | (intro)
    | with_reducible apply badUpFrame_keeps | with_reducible apply modArm_keeps
    | with_reducible apply armAsperity_keeps | with_reducible apply bumpF_keeps
    | with_reducible apply statusAck_keeps | with_reducible apply keeps_ite | with_reducible apply keeps_foldl
    | (have x := trivial; extract_lets +onlyGivenNames x; (fail_if_success have y : True := x); first | (refine keeps_step x ?_ (fun hx => ?_); focus dsimp -zeta only [x]; rotate_left; clear_value x; rotate_right) | skip)

theorem execStatusFrame_goes {o x0 x1 x2 x3} (h0 : Keeps o x3) : Goes o (execStatusFrame x0 x1 x2 x3) := by
  unfold execStatusFrame
  repeat' first
    | with_reducible assumption | with_reducible apply onClusterMo_goes | with_reducible apply statusFrame_keeps
    | with_reducible apply goes_next

theorem permanentFault_keeps {o x0 x1 x2 x3 x4} (h0 : Keeps o x0) : Keeps o (permanentFault x0 x1 x2 x3 x4) := by
  unfold permanentFault
  repeat' first
    | with_reducible assumption | with_reducible apply retire_keeps | with_reducible apply keeps_ite

theorem ladderFault_keeps {o x0 x1 x2 x3 x4 x5} (h0 : Keeps o x0) (h1 : ∀ y0, Keeps o y0 → Keeps o (x5 y0)) :
    Keeps o (ladderFault x0 x1 x2 x3 x4 x5) := by
  unfold ladderFault
  repeat' first
    | simp -zeta only [↓keeps_mk, id_eq] | with_reducible assumption | (intro) | with_reducible apply modArm_keeps
    | with_reducible apply permanentFault_keeps | with_reducible apply h1 | with_reducible apply keeps_ite
    | (have x := trivial; extract_lets +onlyGivenNames x; (fail_if_success have y : True := x); first | (refine keeps_step x ?_ (fun hx => ?_); focus dsimp -zeta only [x]; rotate_left; clear_value x; rotate_right) | skip)
    | split

theorem headFault_keeps {o x0 x1 x2 x3 x4} (h0 : Keeps o x0) : Keeps o (headFault x0 x1 x2 x3 x4) := by
  unfold headFault
  repeat' first
    | with_reducible assumption | (intro) | with_reducible apply sendMode_keeps
    | with_reducible apply failHead_keeps | with_reducible apply emit_keeps
    | with_reducible apply ladderFault_keeps | with_reducible apply sendFclr_keeps | with_reducible apply keeps_ite
    | (have x := trivial; extract_lets +onlyGivenNames x; (fail_if_success have y : True := x); first | (refine keeps_step x ?_ (fun hx => ?_); focus dsimp -zeta only [x]; rotate_left; clear_value x; rotate_right) | skip)

theorem cutBurst_keeps {o x0 x1 x2 x3} (h0 : Keeps o x0) : Keeps o (cutBurst x0 x1 x2 x3) := by
  unfold cutBurst
  repeat' first
    | simp -zeta only [↓keeps_mk, id_eq] | with_reducible assumption | (intro) | with_reducible apply setGate_keeps
    | with_reducible apply finishWrite_keeps | with_reducible apply modHeadW_keeps
    | with_reducible apply bump_keeps | with_reducible apply keeps_ite
    | (have x := trivial; extract_lets +onlyGivenNames x; (fail_if_success have y : True := x); first | (refine keeps_step x ?_ (fun hx => ?_); focus dsimp -zeta only [x]; rotate_left; clear_value x; rotate_right) | skip)
    | split

theorem faultFrame_keeps {o x0 x1 x2 x3} (h0 : Keeps o x0) : Keeps o (faultFrame x0 x1 x2 x3) := by
  unfold faultFrame
  repeat' first
    | simp -zeta only [↓keeps_mk, id_eq] | with_reducible assumption | (intro)
    | with_reducible apply badUpFrame_keeps | with_reducible apply modArm_keeps | with_reducible apply orReg_keeps
    | with_reducible apply owlCluster_keeps | with_reducible apply faultLevel_keeps
    | with_reducible apply cutBurst_keeps | with_reducible apply ladderFault_keeps
    | with_reducible apply sendFclr_keeps | with_reducible apply headFault_keeps | with_reducible apply keeps_ite
    | with_reducible apply keeps_foldl
    | (have x := trivial; extract_lets +onlyGivenNames x; (fail_if_success have y : True := x); first | (refine keeps_step x ?_ (fun hx => ?_); focus dsimp -zeta only [x]; rotate_left; clear_value x; rotate_right) | skip)
    | split

theorem execFaultFrame_goes {o x0 x1 x2 x3} (h0 : Keeps o x3) : Goes o (execFaultFrame x0 x1 x2 x3) := by
  unfold execFaultFrame
  repeat' first
    | with_reducible assumption | with_reducible apply onClusterMo_goes | with_reducible apply faultFrame_keeps
    | with_reducible apply goes_next

theorem execRefaultWindowEnd_goes {o x0 x1 x2 x3 x4} (h0 : Keeps o x4) :
    Goes o (execRefaultWindowEnd x0 x1 x2 x3 x4) := by
  unfold execRefaultWindowEnd
  repeat' first
    | simp -zeta only [↓keeps_mk, id_eq] | with_reducible assumption | (intro)
    | with_reducible apply onClusterMo_goes | with_reducible apply owlHead_keeps
    | with_reducible apply modArm_keeps | with_reducible apply keeps_ite | with_reducible apply goes_ite
    | with_reducible apply goes_next
    | (have x := trivial; extract_lets +onlyGivenNames x; (fail_if_success have y : True := x); first | (refine goes_step x ?_ (fun hx => ?_); focus dsimp -zeta only [x]; rotate_left; clear_value x; rotate_right) | (refine keeps_step x ?_ (fun hx => ?_); focus dsimp -zeta only [x]; rotate_left; clear_value x; rotate_right) | skip)
    | split

theorem replyFrame_keeps {o x0 x1 x2 x3} (h0 : Keeps o x0) : Keeps o (replyFrame x0 x1 x2 x3) := by
  unfold replyFrame
  repeat' first
    | simp -zeta only [↓keeps_mk, id_eq] | with_reducible assumption | (intro)
    | with_reducible apply badUpFrame_keeps | with_reducible apply modArm_keeps
    | with_reducible apply endPacc_keeps | with_reducible apply setReg_keeps | with_reducible apply keeps_ite
    | (have x := trivial; extract_lets +onlyGivenNames x; (fail_if_success have y : True := x); first | (refine keeps_step x ?_ (fun hx => ?_); focus dsimp -zeta only [x]; rotate_left; clear_value x; rotate_right) | skip)

theorem execReplyFrame_goes {o x0 x1 x2 x3} (h0 : Keeps o x3) : Goes o (execReplyFrame x0 x1 x2 x3) := by
  unfold execReplyFrame
  repeat' first
    | with_reducible assumption | with_reducible apply onClusterMo_goes | with_reducible apply replyFrame_keeps
    | with_reducible apply goes_next

theorem armRestart_keeps {o x0 x1 x2} (h0 : Keeps o x0) : Keeps o (armRestart x0 x1 x2) := by
  unfold armRestart
  repeat' first
    | simp -zeta only [↓keeps_mk, id_eq] | with_reducible assumption | (intro) | with_reducible apply bumpF_keeps
    | with_reducible apply modArm_keeps | with_reducible apply keeps_ite
    | (have x := trivial; extract_lets +onlyGivenNames x; (fail_if_success have y : True := x); first | (refine keeps_step x ?_ (fun hx => ?_); focus dsimp -zeta only [x]; rotate_left; clear_value x; rotate_right) | skip)

theorem execArmLinkRestart_goes {o x0 x1 x2} (h0 : Keeps o x2) : Goes o (execArmLinkRestart x0 x1 x2) := by
  unfold execArmLinkRestart
  repeat' first
    | with_reducible assumption | with_reducible apply onClusterMo_goes | with_reducible apply armRestart_keeps
    | with_reducible apply goes_next

theorem sendRegList_keeps {o x0 x1 x2} (h0 : Keeps o x0) : Keeps o (sendRegList x0 x1 x2) := by
  unfold sendRegList
  repeat' first
    | with_reducible apply sendRegw_keeps
    | with_reducible assumption | (intro) | with_reducible apply sendCtl_keeps | with_reducible apply keeps_foldl

theorem sendWcur_keeps {o x0 x1 x2 x3} (h0 : Keeps o x0) : Keeps o (sendWcur x0 x1 x2 x3) := by
  unfold sendWcur
  repeat' first
    | with_reducible assumption | with_reducible apply sendCtl_keeps
    | (have x := trivial; extract_lets +onlyGivenNames x; (fail_if_success have y : True := x); first | (refine keeps_step x ?_ (fun hx => ?_); focus dsimp -zeta only [x]; rotate_left; clear_value x; rotate_right) | skip)

theorem sendReadHeat_keeps {o x0 x1 x2} (h0 : Keeps o x0) : Keeps o (sendReadHeat x0 x1 x2) := by
  unfold sendReadHeat
  repeat' first
    | with_reducible assumption | (intro) | with_reducible apply sendHeat_keeps | with_reducible apply keeps_foldl

theorem armTrain_keeps {o x0 x1 x2 x3} (h0 : Keeps o x0) : Keeps o (armTrain x0 x1 x2 x3) := by
  unfold armTrain
  repeat' first
    | simp -zeta only [↓keeps_mk, id_eq] | with_reducible assumption | (intro) | with_reducible apply modArm_keeps
    | with_reducible apply setArmState_keeps | with_reducible apply setF_keeps | with_reducible apply sendCtl_keeps
    | with_reducible apply sendRegList_keeps | with_reducible apply owlCluster_keeps
    | with_reducible apply sendMode_keeps | with_reducible apply sendWcur_keeps
    | with_reducible apply sendReadHeat_keeps | with_reducible apply keeps_ite | with_reducible apply keeps_foldl
    | (have x := trivial; extract_lets +onlyGivenNames x; (fail_if_success have y : True := x); first | (refine keeps_step x ?_ (fun hx => ?_); focus dsimp -zeta only [x]; rotate_left; clear_value x; rotate_right) | skip)
    | split

theorem execArmLinkTrainStep_goes {o x0 x1 x2 x3} (h0 : Keeps o x3) :
    Goes o (execArmLinkTrainStep x0 x1 x2 x3) := by
  unfold execArmLinkTrainStep
  repeat' first
    | with_reducible assumption | with_reducible apply onClusterMo_goes | with_reducible apply armTrain_keeps
    | with_reducible apply goes_next

theorem execPreampTempPoll_goes {o x0 x1 x2} (h0 : Keeps o x2) : Goes o (execPreampTempPoll x0 x1 x2) := by
  unfold execPreampTempPoll
  repeat' first
    | simp -zeta only [↓keeps_mk, id_eq] | with_reducible assumption | (intro)
    | with_reducible apply onClusterMo_goes | with_reducible apply sendCtl_keeps
    | with_reducible apply modArm_keeps | with_reducible apply keeps_ite | with_reducible apply goes_ite
    | with_reducible apply goes_next
    | (have x := trivial; extract_lets +onlyGivenNames x; (fail_if_success have y : True := x); first | (refine goes_step x ?_ (fun hx => ?_); focus dsimp -zeta only [x]; rotate_left; clear_value x; rotate_right) | (refine keeps_step x ?_ (fun hx => ?_); focus dsimp -zeta only [x]; rotate_left; clear_value x; rotate_right) | skip)

theorem paccWrite_keeps {o x0 x1 x2 x3} (h0 : Keeps o x0) : Keeps o (paccWrite x0 x1 x2 x3).1 := by
  unfold paccWrite
  repeat' first
    | simp -zeta only [↓keeps_mk, id_eq] | with_reducible assumption | (intro) | with_reducible apply setReg_keeps
    | with_reducible apply setB_keeps | with_reducible apply modArm_keeps | with_reducible apply sendCtl_keeps
    | with_reducible apply keeps_ite | with_reducible apply keeps_ite_fst
    | (have x := trivial; extract_lets +onlyGivenNames x; (fail_if_success have y : True := x); first | (refine keeps_step x ?_ (fun hx => ?_); focus dsimp -zeta only [x]; rotate_left; clear_value x; rotate_right) | skip)

theorem execPaccGo_goes {o x0 x1 x2 x3} (h0 : Keeps o x3) : Goes o (execPaccGo x0 x1 x2 x3) := by
  unfold execPaccGo
  repeat' first
    | with_reducible assumption | with_reducible apply onClusterMo_goes | with_reducible apply paccWrite_keeps
    | with_reducible apply emit_keeps | with_reducible apply goes_next
    | (have x := trivial; extract_lets +onlyGivenNames x; (fail_if_success have y : True := x); first | (refine goes_step x ?_ (fun hx => ?_); focus dsimp -zeta only [x]; rotate_left; clear_value x; rotate_right) | (refine keeps_step x ?_ (fun hx => ?_); focus dsimp -zeta only [x]; rotate_left; clear_value x; rotate_right) | skip)

theorem clearFaults_keeps {o x0 x1 x2 x3 x4} (h0 : Keeps o x0) : Keeps o (clearFaults x0 x1 x2 x3 x4) := by
  unfold clearFaults
  repeat' first
    | with_reducible assumption | with_reducible apply faultLevel_keeps | with_reducible apply sendFclr_keeps
    | with_reducible apply clrReg_keeps | with_reducible apply keeps_ite
    | (have x := trivial; extract_lets +onlyGivenNames x; (fail_if_success have y : True := x); first | (refine keeps_step x ?_ (fun hx => ?_); focus dsimp -zeta only [x]; rotate_left; clear_value x; rotate_right) | skip)

theorem execFaultLatchClear_goes {o x0 x1 x2 x3 x4} (h0 : Keeps o x4) :
    Goes o (execFaultLatchClear x0 x1 x2 x3 x4) := by
  unfold execFaultLatchClear
  repeat' first
    | with_reducible assumption | with_reducible apply onClusterMo_goes | with_reducible apply clearFaults_keeps
    | with_reducible apply keeps_ite | with_reducible apply goes_ite | with_reducible apply goes_next
    | exact goes_fault

theorem setLoop_keeps {o x0 x1 x2 x3 x4} (h0 : Keeps o x0) : Keeps o (setLoop x0 x1 x2 x3 x4) := by
  unfold setLoop
  repeat' first
    | simp -zeta only [↓keeps_mk, id_eq] | with_reducible assumption | (intro) | with_reducible apply modCtl_keeps
    | (have x := trivial; extract_lets +onlyGivenNames x; (fail_if_success have y : True := x); first | (refine keeps_step x ?_ (fun hx => ?_); focus dsimp -zeta only [x]; rotate_left; clear_value x; rotate_right) | skip)

theorem runLoop_keeps {o x0 x1 x2 x3 x4} (h0 : Keeps o x0) : Keeps o (runLoop x0 x1 x2 x3 x4).1 := by
  unfold runLoop
  repeat' first
    | with_reducible assumption | (intro) | with_reducible apply setB_keeps | with_reducible apply setLoop_keeps
    | with_reducible apply bump_keeps | with_reducible apply keeps_ite | with_reducible apply keeps_ite_fst
    | with_reducible apply keeps_foldl
    | (have x := trivial; extract_lets +onlyGivenNames x; (fail_if_success have y : True := x); first | (refine keeps_step x ?_ (fun hx => ?_); focus dsimp -zeta only [x]; rotate_left; clear_value x; rotate_right) | skip)

theorem unsafeEval_keeps {o x0 x1 x2 x3} (h0 : Keeps o x0) : Keeps o (unsafeEval x0 x1 x2 x3) := by
  unfold unsafeEval
  repeat' first
    | simp -zeta only [↓keeps_mk, id_eq] | with_reducible assumption | (intro) | with_reducible apply setF_keeps
    | with_reducible apply modCtl_keeps | with_reducible apply setB_keeps | with_reducible apply cutBurst_keeps
    | with_reducible apply keeps_ite | with_reducible apply keeps_foldl
    | (have x := trivial; extract_lets +onlyGivenNames x; (fail_if_success have y : True := x); first | (refine keeps_step x ?_ (fun hx => ?_); focus dsimp -zeta only [x]; rotate_left; clear_value x; rotate_right) | skip)

theorem goMode_keeps {o x0 x1 x2 x3} (h0 : Keeps o x0) : Keeps o (goMode x0 x1 x2 x3) := by
  unfold goMode
  repeat' first
    | with_reducible assumption | with_reducible apply unsafeEval_keeps | with_reducible apply setMode_keeps

theorem startRetract_keeps {o x0 x1 x2 x3} (h0 : Keeps o x0) : Keeps o (startRetract x0 x1 x2 x3) := by
  unfold startRetract
  repeat' first
    | simp -zeta only [↓keeps_mk, id_eq] | with_reducible assumption | (intro) | with_reducible apply setMode_keeps
    | with_reducible apply zeroSetpoints_keeps | with_reducible apply sendSafe_keeps
    | with_reducible apply goMode_keeps | with_reducible apply modCtl_keeps | with_reducible apply driveCoil_keeps
    | with_reducible apply keeps_ite
    | (have x := trivial; extract_lets +onlyGivenNames x; (fail_if_success have y : True := x); first | (refine keeps_step x ?_ (fun hx => ?_); focus dsimp -zeta only [x]; rotate_left; clear_value x; rotate_right) | skip)

theorem vcFaultNow_keeps {o x0 x1 x2} (h0 : Keeps o x0) : Keeps o (vcFaultNow x0 x1 x2) := by
  unfold vcFaultNow
  repeat' first
    | with_reducible assumption | with_reducible apply owlCluster_keeps | with_reducible apply tileEdge_keeps
    | with_reducible apply startRetract_keeps | with_reducible apply zeroSetpoints_keeps
    | with_reducible apply retire_keeps
    | (have x := trivial; extract_lets +onlyGivenNames x; (fail_if_success have y : True := x); first | (refine keeps_step x ?_ (fun hx => ?_); focus dsimp -zeta only [x]; rotate_left; clear_value x; rotate_right) | skip)

theorem vcFault_keeps {o x0 x1 x2 x3} (h0 : Keeps o x0) : Keeps o (vcFault x0 x1 x2 x3) := by
  unfold vcFault
  repeat' first
    | with_reducible assumption | with_reducible apply vcFaultNow_keeps | with_reducible apply setB_keeps

theorem wolfWatch_keeps {o x0 x1 x2 x3 x4 x5} (h0 : Keeps o x0) : Keeps o (wolfWatch x0 x1 x2 x3 x4 x5).1 := by
  unfold wolfWatch
  repeat' first
    | simp -zeta only [↓keeps_mk, id_eq] | with_reducible assumption | with_reducible apply setLoop_keeps
    | with_reducible apply keeps_ite | with_reducible apply keeps_ite_fst
    | (have x := trivial; extract_lets +onlyGivenNames x; (fail_if_success have y : True := x); first | (refine keeps_step x ?_ (fun hx => ?_); focus dsimp -zeta only [x]; rotate_left; clear_value x; rotate_right) | skip)
    | split

theorem holdHead_keeps {o x0 x1 x2 x3} (h0 : Keeps o x0) : Keeps o (holdHead x0 x1 x2 x3) := by
  unfold holdHead
  repeat' first
    | simp -zeta only [↓keeps_mk, id_eq] | with_reducible assumption | (intro)
    | with_reducible apply setPoint_keeps | with_reducible apply setB_keeps | with_reducible apply setLoop_keeps
    | with_reducible apply modHeadS_keeps | with_reducible apply ladderFault_keeps | with_reducible apply keeps_ite
    | (have x := trivial; extract_lets +onlyGivenNames x; (fail_if_success have y : True := x); first | (refine keeps_step x ?_ (fun hx => ?_); focus dsimp -zeta only [x]; rotate_left; clear_value x; rotate_right) | skip)
    | split

theorem wolfTrip_keeps {o x0 x1 x2 x3} (h0 : Keeps o x0) : Keeps o (wolfTrip x0 x1 x2 x3) := by
  unfold wolfTrip
  repeat' first
    | simp -zeta only [↓keeps_mk, id_eq] | with_reducible assumption | (intro) | with_reducible apply modCtl_keeps
    | with_reducible apply bump_keeps | with_reducible apply setB_keeps | with_reducible apply owlTile_keeps
    | with_reducible apply unsafeEval_keeps | with_reducible apply tileEdge_keeps
    | with_reducible apply setLoop_keeps | with_reducible apply holdHead_keeps | with_reducible apply vcFault_keeps
    | with_reducible apply keeps_ite
    | (have x := trivial; extract_lets +onlyGivenNames x; (fail_if_success have y : True := x); first | (refine keeps_step x ?_ (fun hx => ?_); focus dsimp -zeta only [x]; rotate_left; clear_value x; rotate_right) | skip)

theorem releaseHold_keeps {o x0 x1 x2 x3} (h0 : Keeps o x0) : Keeps o (releaseHold x0 x1 x2 x3) := by
  unfold releaseHold
  repeat' first
    | simp -zeta only [↓keeps_mk, id_eq] | with_reducible assumption | (intro) | with_reducible apply setLoop_keeps
    | with_reducible apply setB_keeps | with_reducible apply modHeadS_keeps | with_reducible apply keeps_ite
    | (have x := trivial; extract_lets +onlyGivenNames x; (fail_if_success have y : True := x); first | (refine keeps_step x ?_ (fun hx => ?_); focus dsimp -zeta only [x]; rotate_left; clear_value x; rotate_right) | skip)

theorem execWolfRearm_goes {o x0 x1 x2 x3} (h0 : Keeps o x3) : Goes o (execWolfRearm x0 x1 x2 x3) := by
  unfold execWolfRearm
  repeat' first
    | with_reducible assumption | with_reducible apply onHeadMo_goes | with_reducible apply releaseHold_keeps
    | with_reducible apply keeps_ite | with_reducible apply goes_ite | with_reducible apply goes_next

theorem clearWolfst_keeps {o x0 x1 x2 x3} (h0 : Keeps o x0) : Keeps o (clearWolfst x0 x1 x2 x3) := by
  unfold clearWolfst
  repeat' first
    | with_reducible assumption | (intro) | with_reducible apply clrReg_keeps
    | with_reducible apply releaseHold_keeps | with_reducible apply keeps_ite | with_reducible apply keeps_foldl
    | (have x := trivial; extract_lets +onlyGivenNames x; (fail_if_success have y : True := x); first | (refine keeps_step x ?_ (fun hx => ?_); focus dsimp -zeta only [x]; rotate_left; clear_value x; rotate_right) | skip)

theorem execWolfstClear_goes {o x0 x1 x2 x3} (h0 : Keeps o x3) : Goes o (execWolfstClear x0 x1 x2 x3) := by
  unfold execWolfstClear
  repeat' first
    | with_reducible assumption | with_reducible apply onClusterMo_goes | with_reducible apply clearWolfst_keeps
    | with_reducible apply goes_next

theorem setRef_keeps {o x0 x1 x2 x3 x4 x5} (h0 : Keeps o x0) : Keeps o (setRef x0 x1 x2 x3 x4 x5) := by
  unfold setRef
  repeat' first
    | simp -zeta only [↓keeps_mk, id_eq] | with_reducible assumption | (intro)
    | with_reducible apply modHeadS_keeps | with_reducible apply setReg_keeps
    | (have x := trivial; extract_lets +onlyGivenNames x; (fail_if_success have y : True := x); first | (refine keeps_step x ?_ (fun hx => ?_); focus dsimp -zeta only [x]; rotate_left; clear_value x; rotate_right) | skip)

theorem setZoneOf_keeps {o x0 x1 x2 x3} (h0 : Keeps o x0) : Keeps o (setZoneOf x0 x1 x2 x3) := by
  unfold setZoneOf
  repeat' first
    | with_reducible assumption | (intro) | with_reducible apply setF_keeps | with_reducible apply setReg_keeps
    | with_reducible apply keeps_ite | with_reducible apply keeps_foldl
    | (have x := trivial; extract_lets +onlyGivenNames x; (fail_if_success have y : True := x); first | (refine keeps_step x ?_ (fun hx => ?_); focus dsimp -zeta only [x]; rotate_left; clear_value x; rotate_right) | skip)

theorem aimAll_keeps {o x0 x1 x2 x3} (h0 : Keeps o x0) : Keeps o (aimAll x0 x1 x2 x3) := by
  unfold aimAll
  repeat' first
    | simp -zeta only [↓keeps_mk, id_eq] | with_reducible assumption | (intro)
    | with_reducible apply modHeadS_keeps | with_reducible apply setRef_keeps | with_reducible apply keeps_ite
    | with_reducible apply keeps_foldl
    | (have x := trivial; extract_lets +onlyGivenNames x; (fail_if_success have y : True := x); first | (refine keeps_step x ?_ (fun hx => ?_); focus dsimp -zeta only [x]; rotate_left; clear_value x; rotate_right) | skip)

theorem startSeek_keeps {o x0 x1 x2 x3} (h0 : Keeps o x0) : Keeps o (startSeek x0 x1 x2 x3) := by
  unfold startSeek
  repeat' first
    | simp -zeta only [↓keeps_mk, id_eq] | with_reducible assumption | (intro)
    | with_reducible apply setZoneOf_keeps | with_reducible apply aimAll_keeps | with_reducible apply goMode_keeps
    | with_reducible apply modCtl_keeps | with_reducible apply bump_keeps | with_reducible apply keeps_ite
    | with_reducible apply keeps_foldl
    | (have x := trivial; extract_lets +onlyGivenNames x; (fail_if_success have y : True := x); first | (refine keeps_step x ?_ (fun hx => ?_); focus dsimp -zeta only [x]; rotate_left; clear_value x; rotate_right) | skip)

theorem onReference_goes {o x0 x1 x2 x3} (h0 : Keeps o x0) (h1 : Keeps o x3) :
    Goes o (onReference x0 x1 x2 x3) := by
  unfold onReference
  repeat' first
    | with_reducible assumption | with_reducible apply onClusterMo_goes | with_reducible apply routineEvent_keeps
    | with_reducible apply keeps_ite | with_reducible apply goes_ite | with_reducible apply goes_next

theorem execSeekCommand_goes {o x0 x1 x2 x3} (h0 : Keeps o x3) : Goes o (execSeekCommand x0 x1 x2 x3) := by
  unfold execSeekCommand
  repeat' first
    | with_reducible assumption | with_reducible apply onReference_goes | with_reducible apply startSeek_keeps
    | with_reducible apply keeps_ite | with_reducible apply goes_ite | with_reducible apply goes_next
    | (have x := trivial; extract_lets +onlyGivenNames x; (fail_if_success have y : True := x); first | (refine goes_step x ?_ (fun hx => ?_); focus dsimp -zeta only [x]; rotate_left; clear_value x; rotate_right) | (refine keeps_step x ?_ (fun hx => ?_); focus dsimp -zeta only [x]; rotate_left; clear_value x; rotate_right) | skip)

theorem pairAdvance_keeps {o x0 x1 x2} (h0 : Keeps o x0) : Keeps o (pairAdvance x0 x1 x2) := by
  unfold pairAdvance
  repeat' first
    | simp -zeta only [↓keeps_mk, id_eq] | with_reducible assumption | (intro)
    | with_reducible apply setHeadS_keeps | with_reducible apply setRef_keeps | with_reducible apply keeps_ite
    | with_reducible apply keeps_foldl
    | (have x := trivial; extract_lets +onlyGivenNames x; (fail_if_success have y : True := x); first | (refine keeps_step x ?_ (fun hx => ?_); focus dsimp -zeta only [x]; rotate_left; clear_value x; rotate_right) | skip)

theorem execPairAdvance_goes {o x0 x1 x2} (h0 : Keeps o x2) : Goes o (execPairAdvance x0 x1 x2) := by
  unfold execPairAdvance
  repeat' first
    | with_reducible assumption | with_reducible apply onReference_goes | with_reducible apply pairAdvance_keeps
    | with_reducible apply keeps_ite | with_reducible apply goes_ite | with_reducible apply goes_next
    | (have x := trivial; extract_lets +onlyGivenNames x; (fail_if_success have y : True := x); first | (refine goes_step x ?_ (fun hx => ?_); focus dsimp -zeta only [x]; rotate_left; clear_value x; rotate_right) | (refine keeps_step x ?_ (fun hx => ?_); focus dsimp -zeta only [x]; rotate_left; clear_value x; rotate_right) | skip)

theorem writeLimit_keeps {o x0 x1 x2 x3 x4} (h0 : Keeps o x0) : Keeps o (writeLimit x0 x1 x2 x3 x4) := by
  unfold writeLimit
  repeat' first
    | simp -zeta only [↓keeps_mk, id_eq] | with_reducible assumption | with_reducible apply setHeadW_keeps
    | with_reducible apply bump_keeps | with_reducible apply cutBurst_keeps | with_reducible apply keeps_ite
    | (have x := trivial; extract_lets +onlyGivenNames x; (fail_if_success have y : True := x); first | (refine keeps_step x ?_ (fun hx => ?_); focus dsimp -zeta only [x]; rotate_left; clear_value x; rotate_right) | skip)
    | split

theorem trackEval_keeps {o x0 x1 x2 x3 x4} (h0 : Keeps o x0) : Keeps o (trackEval x0 x1 x2 x3 x4) := by
  unfold trackEval
  repeat' first
    | simp -zeta only [↓keeps_mk, id_eq] | with_reducible assumption | (intro)
    | with_reducible apply modHeadS_keeps | with_reducible apply setB_keeps | with_reducible apply keeps_ite
    | (have x := trivial; extract_lets +onlyGivenNames x; (fail_if_success have y : True := x); first | (refine keeps_step x ?_ (fun hx => ?_); focus dsimp -zeta only [x]; rotate_left; clear_value x; rotate_right) | skip)

theorem predict_keeps {o x0 x1 x2 x3} (h0 : Keeps o x0) : Keeps o (predict x0 x1 x2 x3) := by
  unfold predict
  repeat' first
    | simp -zeta only [↓keeps_mk, id_eq] | with_reducible assumption | (intro)
    | with_reducible apply modHeadS_keeps | with_reducible apply keeps_ite
    | (have x := trivial; extract_lets +onlyGivenNames x; (fail_if_success have y : True := x); first | (refine keeps_step x ?_ (fun hx => ?_); focus dsimp -zeta only [x]; rotate_left; clear_value x; rotate_right) | skip)
    | split

theorem runMicro_keeps {o x0 x1 x2 x3 x4} (h0 : Keeps o x0) : Keeps o (runMicro x0 x1 x2 x3 x4) := by
  unfold runMicro
  repeat' first
    | with_reducible assumption | with_reducible apply runLoop_keeps | with_reducible apply bump_keeps
    | with_reducible apply setB_keeps | with_reducible apply setPoint_keeps | with_reducible apply wolfWatch_keeps
    | with_reducible apply wolfTrip_keeps | with_reducible apply keeps_ite | with_reducible apply keeps_ite_fst
    | (have x := trivial; extract_lets +onlyGivenNames x; (fail_if_success have y : True := x); first | (refine keeps_step x ?_ (fun hx => ?_); focus dsimp -zeta only [x]; rotate_left; clear_value x; rotate_right) | skip)

theorem takeRecord_keeps {o x0 x1 x2 x3 x4 x5} (h0 : Keeps o x0) : Keeps o (takeRecord x0 x1 x2 x3 x4 x5) := by
  unfold takeRecord
  repeat' first
    | simp -zeta only [↓keeps_mk, id_eq] | with_reducible assumption | (intro)
    | with_reducible apply modHeadS_keeps | with_reducible apply modArm_keeps
    | with_reducible apply writeLimit_keeps | with_reducible apply setF_keeps
    | with_reducible apply trackEval_keeps | with_reducible apply keeps_ite
    | (have x := trivial; extract_lets +onlyGivenNames x; (fail_if_success have y : True := x); first | (refine keeps_step x ?_ (fun hx => ?_); focus dsimp -zeta only [x]; rotate_left; clear_value x; rotate_right) | skip)

theorem seekBack_keeps {o x0 x1 x2} (h0 : Keeps o x0) : Keeps o (seekBack x0 x1 x2) := by
  unfold seekBack
  repeat' first
    | simp -zeta only [↓keeps_mk, id_eq] | with_reducible assumption | (intro)
    | with_reducible apply setZoneOf_keeps | with_reducible apply setHeadS_keeps
    | with_reducible apply setRef_keeps | with_reducible apply goMode_keeps | with_reducible apply modCtl_keeps
    | with_reducible apply bump_keeps | with_reducible apply keeps_ite | with_reducible apply keeps_foldl
    | (have x := trivial; extract_lets +onlyGivenNames x; (fail_if_success have y : True := x); first | (refine keeps_step x ?_ (fun hx => ?_); focus dsimp -zeta only [x]; rotate_left; clear_value x; rotate_right) | clear_value x | skip)

theorem headRecord_keeps {o x0 x1 x2 x3} (h0 : Keeps o x0) : Keeps o (headRecord x0 x1 x2 x3) := by
  unfold headRecord
  repeat' first
    | simp -zeta only [↓keeps_mk, id_eq] | with_reducible assumption | (intro)
    | with_reducible apply modHeadS_keeps | with_reducible apply routineEvent_keeps
    | with_reducible apply takeRecord_keeps | with_reducible apply startSeek_keeps | with_reducible apply seekBack_keeps
    | with_reducible apply modCtl_keeps | with_reducible apply runMicro_keeps | with_reducible apply predict_keeps
    | with_reducible apply keeps_ite
    | (have x := trivial; extract_lets +onlyGivenNames x; (fail_if_success have y : True := x); first | (refine keeps_step x ?_ (fun hx => ?_); focus dsimp -zeta only [x]; rotate_left; clear_value x; rotate_right) | skip)
    | split

theorem execHeadRecord_goes {o x0 x1 x2 x3} (h0 : Keeps o x3) : Goes o (execHeadRecord x0 x1 x2 x3) := by
  unfold execHeadRecord
  repeat' first
    | with_reducible assumption | with_reducible apply onHeadMo_goes | with_reducible apply headRecord_keeps
    | with_reducible apply goes_next

theorem seekCommand_keeps {o x0 x1 x2 x3 x4 x5} (h0 : Keeps o x0) : Keeps o (seekCommand x0 x1 x2 x3 x4 x5).1 := by
  unfold seekCommand
  repeat' first
    | simp -zeta only [↓keeps_mk, id_eq] | with_reducible assumption | (intro) | with_reducible apply modCtl_keeps
    | (have x := trivial; extract_lets +onlyGivenNames x; (fail_if_success have y : True := x); first | (refine keeps_step x ?_ (fun hx => ?_); focus dsimp -zeta only [x]; rotate_left; clear_value x; rotate_right) | skip)

theorem pilotRecord_keeps {o x0 x1 x2} (h0 : Keeps o x0) : Keeps o (pilotRecord x0 x1 x2) := by
  unfold pilotRecord
  repeat' first
    | simp -zeta only [↓keeps_mk, id_eq] | with_reducible assumption | (intro) | with_reducible apply setF_keeps
    | with_reducible apply modCtl_keeps | with_reducible apply unsafeEval_keeps | with_reducible apply setReg_keeps
    | with_reducible apply seekCommand_keeps | with_reducible apply goMode_keeps
    | with_reducible apply setLoop_keeps | with_reducible apply runLoop_keeps
    | with_reducible apply wolfWatch_keeps | with_reducible apply wolfTrip_keeps | with_reducible apply keeps_ite
    | with_reducible apply keeps_ite_fst
    | (have x := trivial; extract_lets +onlyGivenNames x; (fail_if_success have y : True := x); first | (refine keeps_step x ?_ (fun hx => ?_); focus dsimp -zeta only [x]; rotate_left; clear_value x; rotate_right) | (have _ : State → State := x; dsimp -zeta only [x]) | (have _ : Nat → State → State := x; dsimp -zeta only [x]) | (have _ : State → Nat → State := x; dsimp -zeta only [x]) | skip)
    | split

theorem pilotRoutine_keeps {o x0 x1 x2} (h0 : Keeps o x0) : Keeps o (pilotRoutine x0 x1 x2) := by
  unfold pilotRoutine
  repeat' first
    | simp -zeta only [↓keeps_mk, id_eq] | with_reducible assumption | (intro) | with_reducible apply modCtl_keeps
    | with_reducible apply unsafeEval_keeps | with_reducible apply routineEvent_keeps
    | (have x := trivial; extract_lets +onlyGivenNames x; (fail_if_success have y : True := x); first | (refine keeps_step x ?_ (fun hx => ?_); focus dsimp -zeta only [x]; rotate_left; clear_value x; rotate_right) | skip)

theorem execPilotRecord_goes {o x0 x1 x2} (h0 : Keeps o x2) : Goes o (execPilotRecord x0 x1 x2) := by
  unfold execPilotRecord
  repeat' first
    | with_reducible assumption | with_reducible apply onClusterMo_goes | with_reducible apply pilotRoutine_keeps
    | with_reducible apply pilotRecord_keeps | with_reducible apply keeps_ite | with_reducible apply goes_ite
    | with_reducible apply goes_next

theorem tryLoad_keeps {o x0 x1 x2} (h0 : Keeps o x0) : Keeps o (tryLoad x0 x1 x2) := by
  unfold tryLoad
  repeat' first
    | simp -zeta only [↓keeps_mk, id_eq] | with_reducible assumption | (intro) | with_reducible apply modCtl_keeps
    | with_reducible apply sendReadHeat_keeps | with_reducible apply goMode_keeps | with_reducible apply keeps_ite
    | (have x := trivial; extract_lets +onlyGivenNames x; (fail_if_success have y : True := x); first | (refine keeps_step x ?_ (fun hx => ?_); focus dsimp -zeta only [x]; rotate_left; clear_value x; rotate_right) | skip)
    | split

theorem loadRequest_keeps {o x0 x1 x2 x3} (h0 : Keeps o x0) : Keeps o (loadRequest x0 x1 x2 x3) := by
  unfold loadRequest
  repeat' first
    | simp -zeta only [↓keeps_mk, id_eq] | with_reducible assumption | (intro) | with_reducible apply tryLoad_keeps
    | with_reducible apply modCtl_keeps
    | (have x := trivial; extract_lets +onlyGivenNames x; (fail_if_success have y : True := x); first | (refine keeps_step x ?_ (fun hx => ?_); focus dsimp -zeta only [x]; rotate_left; clear_value x; rotate_right) | skip)

theorem execLoadRequest_goes {o x0 x1 x2 x3} (h0 : Keeps o x3) : Goes o (execLoadRequest x0 x1 x2 x3) := by
  unfold execLoadRequest
  repeat' first
    | with_reducible assumption | with_reducible apply onReference_goes | with_reducible apply loadRequest_keeps
    | with_reducible apply goes_next

theorem loadTimeout_keeps {o x0 x1 x2} (h0 : Keeps o x0) : Keeps o (loadTimeout x0 x1 x2) := by
  unfold loadTimeout
  repeat' first
    | simp -zeta only [↓keeps_mk, id_eq] | with_reducible assumption | (intro) | with_reducible apply vcFault_keeps
    | with_reducible apply modCtl_keeps | with_reducible apply startPark_keeps | with_reducible apply keeps_ite
    | (have x := trivial; extract_lets +onlyGivenNames x; (fail_if_success have y : True := x); first | (refine keeps_step x ?_ (fun hx => ?_); focus dsimp -zeta only [x]; rotate_left; clear_value x; rotate_right) | skip)

theorem execLoadTimeout_goes {o x0 x1 x2} (h0 : Keeps o x2) : Goes o (execLoadTimeout x0 x1 x2) := by
  unfold execLoadTimeout
  repeat' first
    | with_reducible assumption | with_reducible apply onClusterMo_goes | with_reducible apply loadTimeout_keeps
    | with_reducible apply goes_next

theorem execParkRequest_goes {o x0 x1 x2} (h0 : Keeps o x2) : Goes o (execParkRequest x0 x1 x2) := by
  unfold execParkRequest
  repeat' first
    | simp -zeta only [↓keeps_mk, id_eq] | with_reducible assumption | (intro)
    | with_reducible apply onReference_goes | with_reducible apply unsafeEval_keeps
    | with_reducible apply parkRecorded_keeps | with_reducible apply modCtl_keeps | with_reducible apply goes_next
    | (have x := trivial; extract_lets +onlyGivenNames x; (fail_if_success have y : True := x); first | (refine goes_step x ?_ (fun hx => ?_); focus dsimp -zeta only [x]; rotate_left; clear_value x; rotate_right) | (refine keeps_step x ?_ (fun hx => ?_); focus dsimp -zeta only [x]; rotate_left; clear_value x; rotate_right) | skip)

theorem execParkStopReached_goes {o x0 x1 x2} (h0 : Keeps o x2) : Goes o (execParkStopReached x0 x1 x2) := by
  unfold execParkStopReached
  repeat' first
    | simp -zeta only [↓keeps_mk, id_eq] | with_reducible assumption | (intro)
    | with_reducible apply onClusterMo_goes | with_reducible apply modCtl_keeps | with_reducible apply keeps_ite
    | with_reducible apply goes_ite | with_reducible apply goes_next
    | (have x := trivial; extract_lets +onlyGivenNames x; (fail_if_success have y : True := x); first | (refine goes_step x ?_ (fun hx => ?_); focus dsimp -zeta only [x]; rotate_left; clear_value x; rotate_right) | (refine keeps_step x ?_ (fun hx => ?_); focus dsimp -zeta only [x]; rotate_left; clear_value x; rotate_right) | skip)

theorem parked_keeps {o x0 x1 x2} (h0 : Keeps o x0) : Keeps o (parked x0 x1 x2) := by
  unfold parked
  repeat' first
    | simp -zeta only [↓keeps_mk, id_eq] | with_reducible assumption | (intro) | with_reducible apply modCtl_keeps
    | with_reducible apply driveCoil_keeps | with_reducible apply modHeadS_keeps
    | with_reducible apply goMode_keeps | with_reducible apply loadRequest_keeps | with_reducible apply keeps_ite
    | with_reducible apply keeps_foldl
    | (have x := trivial; extract_lets +onlyGivenNames x; (fail_if_success have y : True := x); first | (refine keeps_step x ?_ (fun hx => ?_); focus dsimp -zeta only [x]; rotate_left; clear_value x; rotate_right) | skip)

theorem execParkHoldEnd_goes {o x0 x1 x2} (h0 : Keeps o x2) : Goes o (execParkHoldEnd x0 x1 x2) := by
  unfold execParkHoldEnd
  repeat' first
    | with_reducible assumption | with_reducible apply onClusterMo_goes | with_reducible apply parked_keeps
    | with_reducible apply keeps_ite | with_reducible apply goes_ite | with_reducible apply goes_next

theorem execParkTimeout_goes {o x0 x1 x2} (h0 : Keeps o x2) : Goes o (execParkTimeout x0 x1 x2) := by
  unfold execParkTimeout
  repeat' first
    | simp -zeta only [↓keeps_mk, id_eq] | with_reducible assumption | (intro)
    | with_reducible apply onClusterMo_goes | with_reducible apply vcFault_keeps
    | with_reducible apply driveCoil_keeps | with_reducible apply modCtl_keeps | with_reducible apply keeps_ite
    | with_reducible apply goes_ite | with_reducible apply goes_next
    | (have x := trivial; extract_lets +onlyGivenNames x; (fail_if_success have y : True := x); first | (refine goes_step x ?_ (fun hx => ?_); focus dsimp -zeta only [x]; rotate_left; clear_value x; rotate_right) | (refine keeps_step x ?_ (fun hx => ?_); focus dsimp -zeta only [x]; rotate_left; clear_value x; rotate_right) | skip)

theorem execLostContribution_goes {o x0 x1 x2} (h0 : Keeps o x2) : Goes o (execLostContribution x0 x1 x2) := by
  unfold execLostContribution
  repeat' first
    | simp -zeta only [↓keeps_mk, id_eq] | with_reducible assumption | (intro)
    | with_reducible apply onClusterMo_goes | with_reducible apply unsafeEval_keeps
    | with_reducible apply setF_keeps | with_reducible apply modCtl_keeps | with_reducible apply keeps_ite
    | with_reducible apply goes_ite | with_reducible apply goes_next
    | (have x := trivial; extract_lets +onlyGivenNames x; (fail_if_success have y : True := x); first | (refine goes_step x ?_ (fun hx => ?_); focus dsimp -zeta only [x]; rotate_left; clear_value x; rotate_right) | (refine keeps_step x ?_ (fun hx => ?_); focus dsimp -zeta only [x]; rotate_left; clear_value x; rotate_right) | skip)

theorem lostWaitEnd_keeps {o x0 x1 x2} (h0 : Keeps o x0) : Keeps o (lostWaitEnd x0 x1 x2) := by
  unfold lostWaitEnd
  repeat' first
    | simp -zeta only [↓keeps_mk, id_eq] | with_reducible assumption | (intro) | with_reducible apply modCtl_keeps
    | with_reducible apply seekBack_keeps | with_reducible apply startPark_keeps | with_reducible apply keeps_ite
    | (have x := trivial; extract_lets +onlyGivenNames x; (fail_if_success have y : True := x); first | (refine keeps_step x ?_ (fun hx => ?_); focus dsimp -zeta only [x]; rotate_left; clear_value x; rotate_right) | skip)

theorem execLostWaitEnd_goes {o x0 x1 x2} (h0 : Keeps o x2) : Goes o (execLostWaitEnd x0 x1 x2) := by
  unfold execLostWaitEnd
  repeat' first
    | with_reducible assumption | with_reducible apply onClusterMo_goes | with_reducible apply lostWaitEnd_keeps
    | with_reducible apply goes_next

theorem execCoefficientWrite_goes {o x0 x1 x2 x3 x4 x5 x6} (h0 : Keeps o x6) :
    Goes o (execCoefficientWrite x0 x1 x2 x3 x4 x5 x6) := by
  unfold execCoefficientWrite
  repeat' first
    | with_reducible assumption | with_reducible apply onClusterMo_goes | with_reducible apply setReg_keeps
    | with_reducible apply keeps_ite | with_reducible apply goes_ite | with_reducible apply goes_next
    | exact goes_fault

theorem writeSctl_keeps {o x0 x1 x2 x3 x4 x5} (h0 : Keeps o x0) : Keeps o (writeSctl x0 x1 x2 x3 x4 x5) := by
  unfold writeSctl
  repeat' first
    | simp -zeta only [↓keeps_mk, id_eq] | with_reducible assumption | with_reducible apply setReg_keeps
    | with_reducible apply setLoop_keeps | with_reducible apply keeps_ite
    | (have x := trivial; extract_lets +onlyGivenNames x; (fail_if_success have y : True := x); first | (refine keeps_step x ?_ (fun hx => ?_); focus dsimp -zeta only [x]; rotate_left; clear_value x; rotate_right) | skip)

theorem execSectionControlWrite_goes {o x0 x1 x2 x3 x4 x5} (h0 : Keeps o x5) :
    Goes o (execSectionControlWrite x0 x1 x2 x3 x4 x5) := by
  unfold execSectionControlWrite
  repeat' first
    | with_reducible assumption | with_reducible apply onClusterMo_goes | with_reducible apply writeSctl_keeps
    | with_reducible apply keeps_ite | with_reducible apply goes_ite | with_reducible apply goes_next
    | exact goes_fault

theorem execUsefbWrite_goes {o x0 x1 x2 x3 x4} (h0 : Keeps o x4) : Goes o (execUsefbWrite x0 x1 x2 x3 x4) := by
  unfold execUsefbWrite
  repeat' first
    | with_reducible assumption | with_reducible apply onClusterMo_goes | with_reducible apply setB_keeps
    | with_reducible apply keeps_ite | with_reducible apply goes_ite | with_reducible apply goes_next
    | exact goes_fault

theorem emfCommand_keeps {o x0 x1} (h0 : Keeps o x0) : Keeps o (emfCommand x0 x1).1 := by
  unfold emfCommand
  repeat' first
    | with_reducible assumption | with_reducible apply took_keeps

theorem pwmPeriod_keeps {o x0 x1 x2 x3 x4} (h0 : Keeps o x0) : Keeps o (pwmPeriod x0 x1 x2 x3 x4) := by
  unfold pwmPeriod
  repeat' first
    | simp -zeta only [↓keeps_mk, id_eq] | with_reducible assumption | (intro) | with_reducible apply tryLoad_keeps
    | with_reducible apply setF_keeps | with_reducible apply setReg_keeps | with_reducible apply emfCommand_keeps
    | with_reducible apply modCtl_keeps | with_reducible apply driveCoil_keeps | with_reducible apply vcFault_keeps
    | with_reducible apply keeps_ite | with_reducible apply keeps_ite_fst
    | (have x := trivial; extract_lets +onlyGivenNames x; (fail_if_success have y : True := x); first | (refine keeps_step x ?_ (fun hx => ?_); focus dsimp -zeta only [x]; rotate_left; clear_value x; rotate_right) | skip)

theorem execPwmPeriod_goes {o x0 x1 x2 x3 x4} (h0 : Keeps o x4) : Goes o (execPwmPeriod x0 x1 x2 x3 x4) := by
  unfold execPwmPeriod
  repeat' first
    | with_reducible assumption | with_reducible apply onClusterMo_goes | with_reducible apply pwmPeriod_keeps
    | with_reducible apply goes_next

theorem vcfltFall_keeps {o x0 x1 x2} (h0 : Keeps o x0) : Keeps o (vcfltFall x0 x1 x2) := by
  unfold vcfltFall
  repeat' first
    | simp -zeta only [↓keeps_mk, id_eq] | with_reducible assumption | (intro) | with_reducible apply setB_keeps
    | with_reducible apply modCtl_keeps | with_reducible apply driveCoil_keeps | with_reducible apply vcFault_keeps
    | with_reducible apply keeps_ite
    | (have x := trivial; extract_lets +onlyGivenNames x; (fail_if_success have y : True := x); first | (refine keeps_step x ?_ (fun hx => ?_); focus dsimp -zeta only [x]; rotate_left; clear_value x; rotate_right) | skip)
    | split

theorem execVcfltFall_goes {o x0 x1 x2} (h0 : Keeps o x2) : Goes o (execVcfltFall x0 x1 x2) := by
  unfold execVcfltFall
  repeat' first
    | with_reducible assumption | with_reducible apply onClusterMo_goes | with_reducible apply vcfltFall_keeps
    | with_reducible apply goes_next

theorem execVcfltReenable_goes {o x0 x1 x2} (h0 : Keeps o x2) : Goes o (execVcfltReenable x0 x1 x2) := by
  unfold execVcfltReenable
  repeat' first
    | simp -zeta only [↓keeps_mk, id_eq] | with_reducible assumption | (intro)
    | with_reducible apply onClusterMo_goes | with_reducible apply modCtl_keeps | with_reducible apply keeps_ite
    | with_reducible apply goes_ite | with_reducible apply goes_next
    | (have x := trivial; extract_lets +onlyGivenNames x; (fail_if_success have y : True := x); first | (refine goes_step x ?_ (fun hx => ?_); focus dsimp -zeta only [x]; rotate_left; clear_value x; rotate_right) | (refine keeps_step x ?_ (fun hx => ?_); focus dsimp -zeta only [x]; rotate_left; clear_value x; rotate_right) | skip)

theorem execRetractDriveEnd_goes {o x0 x1 x2} (h0 : Keeps o x2) : Goes o (execRetractDriveEnd x0 x1 x2) := by
  unfold execRetractDriveEnd
  repeat' first
    | simp -zeta only [↓keeps_mk, id_eq] | with_reducible assumption | (intro)
    | with_reducible apply onClusterMo_goes | with_reducible apply driveCoil_keeps
    | with_reducible apply modCtl_keeps | with_reducible apply keeps_ite | with_reducible apply goes_ite
    | with_reducible apply goes_next
    | (have x := trivial; extract_lets +onlyGivenNames x; (fail_if_success have y : True := x); first | (refine goes_step x ?_ (fun hx => ?_); focus dsimp -zeta only [x]; rotate_left; clear_value x; rotate_right) | (refine keeps_step x ?_ (fun hx => ?_); focus dsimp -zeta only [x]; rotate_left; clear_value x; rotate_right) | skip)

theorem execRetractBrakeEnd_goes {o x0 x1 x2} (h0 : Keeps o x2) : Goes o (execRetractBrakeEnd x0 x1 x2) := by
  unfold execRetractBrakeEnd
  repeat' first
    | with_reducible assumption | with_reducible apply onClusterMo_goes | with_reducible apply parked_keeps
    | with_reducible apply keeps_ite | with_reducible apply goes_ite | with_reducible apply goes_next

theorem setSpnState_keeps {o x0 x1 x2} (h0 : Keeps o x0) : Keeps o (setSpnState x0 x1 x2) := by
  unfold setSpnState
  repeat' first
    | with_reducible assumption | with_reducible apply tileEdge_keeps | with_reducible apply setF_keeps
    | with_reducible apply keeps_ite

theorem setSpnFlt_keeps {o x0 x1 x2} (h0 : Keeps o x0) : Keeps o (setSpnFlt x0 x1 x2) := by
  unfold setSpnFlt
  repeat' first
    | with_reducible assumption | with_reducible apply irqLevel_keeps | with_reducible apply setB_keeps

theorem setSpeedOk_keeps {o x0 x1 x2} (h0 : Keeps o x0) : Keeps o (setSpeedOk x0 x1 x2) := by
  unfold setSpeedOk
  repeat' first
    | with_reducible assumption | (intro) | with_reducible apply setB_keeps | with_reducible apply tileEdge_keeps
    | with_reducible apply keeps_ite | with_reducible apply keeps_foldl
    | (have x := trivial; extract_lets +onlyGivenNames x; (fail_if_success have y : True := x); first | (refine keeps_step x ?_ (fun hx => ?_); focus dsimp -zeta only [x]; rotate_left; clear_value x; rotate_right) | skip)

theorem spnGatesLow_keeps {o x0 x1} (h0 : Keeps o x0) : Keeps o (spnGatesLow x0 x1) := by
  unfold spnGatesLow
  repeat' first
    | with_reducible assumption | with_reducible apply emit_keeps | with_reducible apply setF_keeps

theorem setDuties_keeps {o x0 x1 x2 x3 x4} (h0 : Keeps o x0) : Keeps o (setDuties x0 x1 x2 x3 x4) := by
  unfold setDuties
  repeat' first
    | simp -zeta only [↓keeps_mk, id_eq] | with_reducible assumption | (intro) | with_reducible apply emit_keeps
    | with_reducible apply modSpn_keeps
    | (have x := trivial; extract_lets +onlyGivenNames x; (fail_if_success have y : True := x); first | (refine keeps_step x ?_ (fun hx => ?_); focus dsimp -zeta only [x]; rotate_left; clear_value x; rotate_right) | skip)

theorem freeDuty_keeps {o x0} (h0 : Keeps o x0) : Keeps o (freeDuty x0).1 := by
  unfold freeDuty
  repeat' first
    | with_reducible assumption | with_reducible apply took_keeps

theorem vectorDuties_keeps {o x0 x1 x2 x3} (h0 : Keeps o x0) : Keeps o (vectorDuties x0 x1 x2 x3) := by
  unfold vectorDuties
  repeat' first
    | with_reducible assumption | with_reducible apply freeDuty_keeps | with_reducible apply setDuties_keeps
    | with_reducible apply keeps_ite | with_reducible apply keeps_ite_fst
    | (have x := trivial; extract_lets +onlyGivenNames x; (fail_if_success have y : True := x); first | (refine keeps_step x ?_ (fun hx => ?_); focus dsimp -zeta only [x]; rotate_left; clear_value x; rotate_right) | skip)

theorem letGo_keeps {o x0 x1} (h0 : Keeps o x0) : Keeps o (letGo x0 x1) := by
  unfold letGo
  repeat' first
    | simp -zeta only [↓keeps_mk, id_eq] | with_reducible assumption | (intro)
    | with_reducible apply spnGatesLow_keeps | with_reducible apply modSpn_keeps
    | (have x := trivial; extract_lets +onlyGivenNames x; (fail_if_success have y : True := x); first | (refine keeps_step x ?_ (fun hx => ?_); focus dsimp -zeta only [x]; rotate_left; clear_value x; rotate_right) | skip)

theorem engage_keeps {o x0 x1 x2} (h0 : Keeps o x0) : Keeps o (engage x0 x1 x2) := by
  unfold engage
  repeat' first
    | simp -zeta only [↓keeps_mk, id_eq] | with_reducible assumption | (intro)
    | with_reducible apply setSpnState_keeps | with_reducible apply setF_keeps | with_reducible apply modSpn_keeps
    | (have x := trivial; extract_lets +onlyGivenNames x; (fail_if_success have y : True := x); first | (refine keeps_step x ?_ (fun hx => ?_); focus dsimp -zeta only [x]; rotate_left; clear_value x; rotate_right) | skip)

theorem spinUp_keeps {o x0 x1} (h0 : Keeps o x0) : Keeps o (spinUp x0 x1) := by
  unfold spinUp
  repeat' first
    | simp -zeta only [↓keeps_mk, id_eq] | with_reducible assumption | (intro) | with_reducible apply setReg_keeps
    | with_reducible apply keeps_ite
    | (have x := trivial; extract_lets +onlyGivenNames x; (fail_if_success have y : True := x); first | (refine keeps_step x ?_ (fun hx => ?_); focus dsimp -zeta only [x]; rotate_left; clear_value x; rotate_right) | skip)
    | split

theorem spnStart_keeps {o x0 x1} (h0 : Keeps o x0) : Keeps o (spnStart x0 x1) := by
  unfold spnStart
  repeat' first
    | simp -zeta only [↓keeps_mk, id_eq] | with_reducible assumption | (intro) | with_reducible apply spinUp_keeps
    | with_reducible apply setSpnState_keeps | with_reducible apply bump_keeps | with_reducible apply letGo_keeps
    | with_reducible apply modSpn_keeps
    | (have x := trivial; extract_lets +onlyGivenNames x; (fail_if_success have y : True := x); first | (refine keeps_step x ?_ (fun hx => ?_); focus dsimp -zeta only [x]; rotate_left; clear_value x; rotate_right) | skip)

theorem spindleFault_keeps {o x0 x1 x2} (h0 : Keeps o x0) : Keeps o (spindleFault x0 x1 x2) := by
  unfold spindleFault
  repeat' first
    | with_reducible assumption | (intro) | with_reducible apply setSpnFlt_keeps
    | with_reducible apply owlTile_keeps | with_reducible apply setSpeedOk_keeps
    | with_reducible apply setSpnState_keeps | with_reducible apply letGo_keeps
    | with_reducible apply startRetract_keeps | with_reducible apply tileNotice_keeps
    | with_reducible apply keeps_foldl
    | (have x := trivial; extract_lets +onlyGivenNames x; (fail_if_success have y : True := x); first | (refine keeps_step x ?_ (fun hx => ?_); focus dsimp -zeta only [x]; rotate_left; clear_value x; rotate_right) | skip)
    | split

theorem startFails_keeps {o x0 x1} (h0 : Keeps o x0) : Keeps o (startFails x0 x1) := by
  unfold startFails
  repeat' first
    | simp -zeta only [↓keeps_mk, id_eq] | with_reducible assumption | (intro) | with_reducible apply letGo_keeps
    | with_reducible apply modSpn_keeps | with_reducible apply spindleFault_keeps | with_reducible apply keeps_ite
    | (have x := trivial; extract_lets +onlyGivenNames x; (fail_if_success have y : True := x); first | (refine keeps_step x ?_ (fun hx => ?_); focus dsimp -zeta only [x]; rotate_left; clear_value x; rotate_right) | skip)

theorem spnRun_keeps {o x0 x1} (h0 : Keeps o x0) : Keeps o (spnRun x0 x1) := by
  unfold spnRun
  repeat' first
    | simp -zeta only [↓keeps_mk, id_eq] | with_reducible assumption | (intro) | with_reducible apply engage_keeps
    | with_reducible apply modSpn_keeps
    | (have x := trivial; extract_lets +onlyGivenNames x; (fail_if_success have y : True := x); first | (refine keeps_step x ?_ (fun hx => ?_); focus dsimp -zeta only [x]; rotate_left; clear_value x; rotate_right) | skip)

theorem recatchFails_keeps {o x0 x1} (h0 : Keeps o x0) : Keeps o (recatchFails x0 x1) := by
  unfold recatchFails
  repeat' first
    | simp -zeta only [↓keeps_mk, id_eq] | with_reducible assumption | (intro) | with_reducible apply setF_keeps
    | with_reducible apply spindleFault_keeps | with_reducible apply modSpn_keeps | with_reducible apply keeps_ite
    | (have x := trivial; extract_lets +onlyGivenNames x; (fail_if_success have y : True := x); first | (refine keeps_step x ?_ (fun hx => ?_); focus dsimp -zeta only [x]; rotate_left; clear_value x; rotate_right) | skip)

theorem observerLost_keeps {o x0 x1} (h0 : Keeps o x0) : Keeps o (observerLost x0 x1) := by
  unfold observerLost
  repeat' first
    | simp -zeta only [↓keeps_mk, id_eq] | with_reducible assumption | (intro)
    | with_reducible apply setSpnFlt_keeps | with_reducible apply modSpn_keeps | with_reducible apply owlTile_keeps
    | with_reducible apply setSpnState_keeps | with_reducible apply letGo_keeps
    | with_reducible apply recatchFails_keeps | with_reducible apply keeps_ite
    | (have x := trivial; extract_lets +onlyGivenNames x; (fail_if_success have y : True := x); first | (refine keeps_step x ?_ (fun hx => ?_); focus dsimp -zeta only [x]; rotate_left; clear_value x; rotate_right) | skip)
    | split

theorem lowSides_keeps {o x0 x1} (h0 : Keeps o x0) : Keeps o (lowSides x0 x1) := by
  unfold lowSides
  repeat' first
    | with_reducible assumption | with_reducible apply setDuties_keeps | with_reducible apply setF_keeps

theorem spnStopped_keeps {o x0 x1} (h0 : Keeps o x0) : Keeps o (spnStopped x0 x1) := by
  unfold spnStopped
  repeat' first
    | simp -zeta only [↓keeps_mk, id_eq] | with_reducible assumption | (intro)
    | with_reducible apply setSpeedOk_keeps | with_reducible apply setSpnState_keeps
    | with_reducible apply letGo_keeps | with_reducible apply modSpn_keeps
    | (have x := trivial; extract_lets +onlyGivenNames x; (fail_if_success have y : True := x); first | (refine keeps_step x ?_ (fun hx => ?_); focus dsimp -zeta only [x]; rotate_left; clear_value x; rotate_right) | skip)

theorem currentTick_keeps {o x0 x1 x2 x3 x4 x5 x6 x7 x8} (h0 : Keeps o x0) :
    Keeps o (currentTick x0 x1 x2 x3 x4 x5 x6 x7 x8) := by
  unfold currentTick
  repeat' first
    | simp -zeta only [↓keeps_mk, id_eq] | with_reducible assumption | (intro) | with_reducible apply modSpn_keeps
    | with_reducible apply setReg_keeps | with_reducible apply setF_keeps | with_reducible apply vectorDuties_keeps
    | with_reducible apply keeps_ite
    | (have x := trivial; extract_lets +onlyGivenNames x; (fail_if_success have y : True := x); first | (refine keeps_step x ?_ (fun hx => ?_); focus dsimp -zeta only [x]; rotate_left; clear_value x; rotate_right) | skip)

theorem vertexAngle_keeps {o x0 x1 x2} (h0 : Keeps o x0) : Keeps o (vertexAngle x0 x1 x2).1 := by
  unfold vertexAngle
  repeat' first
    | with_reducible assumption | with_reducible apply took_keeps | with_reducible apply keeps_ite
    | with_reducible apply keeps_ite_fst
    | (have x := trivial; extract_lets +onlyGivenNames x; (fail_if_success have y : True := x); first | (refine keeps_step x ?_ (fun hx => ?_); focus dsimp -zeta only [x]; rotate_left; clear_value x; rotate_right) | skip)

theorem voltageTick_keeps {o x0 x1 x2 x3} (h0 : Keeps o x0) : Keeps o (voltageTick x0 x1 x2 x3) := by
  unfold voltageTick
  repeat' first
    | simp -zeta only [↓keeps_mk, id_eq] | with_reducible assumption | (intro)
    | with_reducible apply vertexAngle_keeps | with_reducible apply modSpn_keeps
    | with_reducible apply setReg_keeps | with_reducible apply setF_keeps | with_reducible apply vectorDuties_keeps
    | with_reducible apply keeps_ite | with_reducible apply keeps_ite_fst
    | (have x := trivial; extract_lets +onlyGivenNames x; (fail_if_success have y : True := x); first | (refine keeps_step x ?_ (fun hx => ?_); focus dsimp -zeta only [x]; rotate_left; clear_value x; rotate_right) | skip)

theorem rampTick_keeps {o x0 x1 x2} (h0 : Keeps o x0) : Keeps o (rampTick x0 x1 x2) := by
  unfold rampTick
  repeat' first
    | simp -zeta only [↓keeps_mk, id_eq] | with_reducible assumption | (intro) | with_reducible apply modSpn_keeps
    | with_reducible apply spnRun_keeps | with_reducible apply keeps_ite
    | (have x := trivial; extract_lets +onlyGivenNames x; (fail_if_success have y : True := x); first | (refine keeps_step x ?_ (fun hx => ?_); focus dsimp -zeta only [x]; rotate_left; clear_value x; rotate_right) | skip)

theorem spindleTick_keeps {o x0 x1 x2} (h0 : Keeps o x0) : Keeps o (spindleTick x0 x1 x2) := by
  unfold spindleTick
  repeat' first
    | simp -zeta only [↓keeps_mk, id_eq] | with_reducible assumption | (intro) | with_reducible apply bump_keeps
    | with_reducible apply setSpn_keeps | with_reducible apply setReg_keeps
    | with_reducible apply observerLost_keeps | with_reducible apply setSpnFlt_keeps
    | with_reducible apply setSpnState_keeps | with_reducible apply voltageTick_keeps
    | with_reducible apply currentTick_keeps | with_reducible apply startFails_keeps
    | with_reducible apply rampTick_keeps | with_reducible apply modSpn_keeps | with_reducible apply lowSides_keeps
    | with_reducible apply emit_keeps | with_reducible apply spnStopped_keeps | with_reducible apply keeps_ite
    | (have x := trivial; extract_lets +onlyGivenNames x; (fail_if_success have y : True := x); first | (refine keeps_step x ?_ (fun hx => ?_); focus dsimp -zeta only [x]; rotate_left; clear_value x; rotate_right) | skip)
    | split

theorem execSpindleTick_goes {o x0 x1 x2} (h0 : Keeps o x2) : Goes o (execSpindleTick x0 x1 x2) := by
  unfold execSpindleTick
  repeat' first
    | with_reducible assumption | with_reducible apply onTileMo_goes | with_reducible apply spindleTick_keeps
    | with_reducible apply goes_next

theorem speedPi_keeps {o x0 x1 x2} (h0 : Keeps o x0) : Keeps o (speedPi x0 x1 x2).1 := by
  unfold speedPi
  repeat' first
    | simp -zeta only [↓keeps_mk, id_eq] | with_reducible assumption | (intro) | with_reducible apply modSpn_keeps
    | (have x := trivial; extract_lets +onlyGivenNames x; (fail_if_success have y : True := x); first | (refine keeps_step x ?_ (fun hx => ?_); focus dsimp -zeta only [x]; rotate_left; clear_value x; rotate_right) | skip)

theorem regionStep_keeps {o x0 x1 x2} (h0 : Keeps o x0) : Keeps o (regionStep x0 x1 x2) := by
  unfold regionStep
  repeat' first
    | simp -zeta only [↓keeps_mk, id_eq] | with_reducible assumption | (intro) | with_reducible apply setF_keeps
    | with_reducible apply modSpn_keeps | with_reducible apply keeps_ite
    | (have x := trivial; extract_lets +onlyGivenNames x; (fail_if_success have y : True := x); first | (refine keeps_step x ?_ (fun hx => ?_); focus dsimp -zeta only [x]; rotate_left; clear_value x; rotate_right) | skip)

theorem speedLoopStep_keeps {o x0 x1} (h0 : Keeps o x0) : Keeps o (speedLoopStep x0 x1) := by
  unfold speedLoopStep
  repeat' first
    | simp -zeta only [↓keeps_mk, id_eq] | with_reducible assumption | (intro) | with_reducible apply setReg_keeps
    | with_reducible apply modSpn_keeps | with_reducible apply setB_keeps | with_reducible apply setSpeedOk_keeps
    | with_reducible apply routineEvent_keeps | with_reducible apply speedPi_keeps
    | with_reducible apply regionStep_keeps | with_reducible apply keeps_ite | with_reducible apply keeps_ite_fst
    | (have x := trivial; extract_lets +onlyGivenNames x; (fail_if_success have y : True := x); first | (refine keeps_step x ?_ (fun hx => ?_); focus dsimp -zeta only [x]; rotate_left; clear_value x; rotate_right) | skip)

theorem execSpeedLoopStep_goes {o x0 x1} (h0 : Keeps o x1) : Goes o (execSpeedLoopStep x0 x1) := by
  unfold execSpeedLoopStep
  repeat' first
    | with_reducible assumption | with_reducible apply onTileMo_goes | with_reducible apply speedLoopStep_keeps
    | with_reducible apply goes_next

theorem spfltFall_keeps {o x0 x1} (h0 : Keeps o x0) : Keeps o (spfltFall x0 x1) := by
  unfold spfltFall
  repeat' first
    | simp -zeta only [↓keeps_mk, id_eq] | with_reducible assumption | (intro)
    | with_reducible apply setSpnFlt_keeps | with_reducible apply modSpn_keeps
    | with_reducible apply observerLost_keeps | with_reducible apply recatchFails_keeps
    | with_reducible apply letGo_keeps | with_reducible apply startFails_keeps | with_reducible apply keeps_ite
    | (have x := trivial; extract_lets +onlyGivenNames x; (fail_if_success have y : True := x); first | (refine keeps_step x ?_ (fun hx => ?_); focus dsimp -zeta only [x]; rotate_left; clear_value x; rotate_right) | skip)
    | split

theorem execSpfltFall_goes {o x0 x1} (h0 : Keeps o x1) : Goes o (execSpfltFall x0 x1) := by
  unfold execSpfltFall
  repeat' first
    | with_reducible assumption | with_reducible apply onTileMo_goes | with_reducible apply spfltFall_keeps
    | with_reducible apply goes_next

theorem runSet_keeps {o x0 x1} (h0 : Keeps o x0) : Keeps o (runSet x0 x1) := by
  unfold runSet
  repeat' first
    | simp -zeta only [↓keeps_mk, id_eq] | with_reducible assumption | (intro) | with_reducible apply setB_keeps
    | with_reducible apply spnStart_keeps | with_reducible apply modSpn_keeps | with_reducible apply keeps_ite
    | (have x := trivial; extract_lets +onlyGivenNames x; (fail_if_success have y : True := x); first | (refine keeps_step x ?_ (fun hx => ?_); focus dsimp -zeta only [x]; rotate_left; clear_value x; rotate_right) | skip)

theorem execRunSet_goes {o x0 x1} (h0 : Keeps o x1) : Goes o (execRunSet x0 x1) := by
  unfold execRunSet
  repeat' first
    | with_reducible assumption | with_reducible apply onTileMo_goes | with_reducible apply runSet_keeps
    | with_reducible apply goes_next

theorem runClear_keeps {o x0 x1} (h0 : Keeps o x0) : Keeps o (runClear x0 x1) := by
  unfold runClear
  repeat' first
    | simp -zeta only [↓keeps_mk, id_eq] | with_reducible assumption | (intro) | with_reducible apply setB_keeps
    | with_reducible apply spnStopped_keeps | with_reducible apply modSpn_keeps
    | with_reducible apply unsafeEval_keeps | with_reducible apply parkRecorded_keeps
    | with_reducible apply setSpnState_keeps | with_reducible apply keeps_ite | with_reducible apply keeps_foldl
    | (have x := trivial; extract_lets +onlyGivenNames x; (fail_if_success have y : True := x); first | (refine keeps_step x ?_ (fun hx => ?_); focus dsimp -zeta only [x]; rotate_left; clear_value x; rotate_right) | skip)

theorem execRunClear_goes {o x0 x1} (h0 : Keeps o x1) : Goes o (execRunClear x0 x1) := by
  unfold execRunClear
  repeat' first
    | with_reducible assumption | with_reducible apply onTileMo_goes | with_reducible apply runClear_keeps
    | with_reducible apply goes_next

theorem noteCatch_keeps {o x0 x1 x2} (h0 : Keeps o x0) : Keeps o (noteCatch x0 x1 x2) := by
  unfold noteCatch
  repeat' first
    | simp -zeta only [↓keeps_mk, id_eq] | with_reducible assumption | with_reducible apply setReg_keeps
    | with_reducible apply setB_keeps | with_reducible apply keeps_ite
    | (have x := trivial; extract_lets +onlyGivenNames x; (fail_if_success have y : True := x); first | (refine keeps_step x ?_ (fun hx => ?_); focus dsimp -zeta only [x]; rotate_left; clear_value x; rotate_right) | skip)

theorem presetLynx_keeps {o x0 x1 x2} (h0 : Keeps o x0) : Keeps o (presetLynx x0 x1 x2) := by
  unfold presetLynx
  repeat' first
    | simp -zeta only [↓keeps_mk, id_eq] | with_reducible assumption | (intro) | with_reducible apply modSpn_keeps
    | (have x := trivial; extract_lets +onlyGivenNames x; (fail_if_success have y : True := x); first | (refine keeps_step x ?_ (fun hx => ?_); focus dsimp -zeta only [x]; rotate_left; clear_value x; rotate_right) | skip)

theorem measureEnd_keeps {o x0 x1} (h0 : Keeps o x0) : Keeps o (measureEnd x0 x1) := by
  unfold measureEnd
  repeat' first
    | simp -zeta only [↓keeps_mk, id_eq] | with_reducible assumption | (intro)
    | with_reducible apply noteCatch_keeps | with_reducible apply modSpn_keeps | with_reducible apply spnRun_keeps
    | with_reducible apply presetLynx_keeps | with_reducible apply lowSides_keeps
    | with_reducible apply setSpnState_keeps | with_reducible apply engage_keeps | with_reducible apply keeps_ite
    | (have x := trivial; extract_lets +onlyGivenNames x; (fail_if_success have y : True := x); first | (refine keeps_step x ?_ (fun hx => ?_); focus dsimp -zeta only [x]; rotate_left; clear_value x; rotate_right) | skip)

theorem execMeasureEnd_goes {o x0 x1} (h0 : Keeps o x1) : Goes o (execMeasureEnd x0 x1) := by
  unfold execMeasureEnd
  repeat' first
    | with_reducible assumption | with_reducible apply onTileMo_goes | with_reducible apply measureEnd_keeps
    | with_reducible apply goes_next

theorem brakeMeasure_keeps {o x0 x1} (h0 : Keeps o x0) : Keeps o (brakeMeasure x0 x1) := by
  unfold brakeMeasure
  repeat' first
    | simp -zeta only [↓keeps_mk, id_eq] | with_reducible assumption | (intro)
    | with_reducible apply lowSides_keeps | with_reducible apply emit_keeps
    | with_reducible apply setSpnState_keeps | with_reducible apply letGo_keeps | with_reducible apply modSpn_keeps
    | with_reducible apply keeps_ite
    | (have x := trivial; extract_lets +onlyGivenNames x; (fail_if_success have y : True := x); first | (refine keeps_step x ?_ (fun hx => ?_); focus dsimp -zeta only [x]; rotate_left; clear_value x; rotate_right) | skip)

theorem execBrakeMeasure_goes {o x0 x1} (h0 : Keeps o x1) : Goes o (execBrakeMeasure x0 x1) := by
  unfold execBrakeMeasure
  repeat' first
    | with_reducible assumption | with_reducible apply onTileMo_goes | with_reducible apply brakeMeasure_keeps
    | with_reducible apply goes_next

theorem execAlignEnd_goes {o x0 x1} (h0 : Keeps o x1) : Goes o (execAlignEnd x0 x1) := by
  unfold execAlignEnd
  repeat' first
    | simp -zeta only [↓keeps_mk, id_eq] | with_reducible assumption | (intro) | with_reducible apply onTileMo_goes
    | with_reducible apply setSpnState_keeps | with_reducible apply modSpn_keeps | with_reducible apply keeps_ite
    | with_reducible apply goes_ite | with_reducible apply goes_next
    | (have x := trivial; extract_lets +onlyGivenNames x; (fail_if_success have y : True := x); first | (refine goes_step x ?_ (fun hx => ?_); focus dsimp -zeta only [x]; rotate_left; clear_value x; rotate_right) | (refine keeps_step x ?_ (fun hx => ?_); focus dsimp -zeta only [x]; rotate_left; clear_value x; rotate_right) | skip)

theorem execRampTimeout_goes {o x0 x1} (h0 : Keeps o x1) : Goes o (execRampTimeout x0 x1) := by
  unfold execRampTimeout
  repeat' first
    | with_reducible assumption | with_reducible apply onTileMo_goes | with_reducible apply startFails_keeps
    | with_reducible apply keeps_ite | with_reducible apply goes_ite | with_reducible apply goes_next

theorem execStartRetry_goes {o x0 x1} (h0 : Keeps o x1) : Goes o (execStartRetry x0 x1) := by
  unfold execStartRetry
  repeat' first
    | with_reducible assumption | with_reducible apply onTileMo_goes | with_reducible apply spnStart_keeps
    | with_reducible apply keeps_ite | with_reducible apply goes_ite | with_reducible apply goes_next

theorem recatchMeasureEnd_keeps {o x0 x1} (h0 : Keeps o x0) : Keeps o (recatchMeasureEnd x0 x1) := by
  unfold recatchMeasureEnd
  repeat' first
    | simp -zeta only [↓keeps_mk, id_eq] | with_reducible assumption | (intro) | with_reducible apply bump_keeps
    | with_reducible apply noteCatch_keeps | with_reducible apply presetLynx_keeps
    | with_reducible apply engage_keeps | with_reducible apply modSpn_keeps | with_reducible apply unsafeEval_keeps
    | with_reducible apply parkRecorded_keeps | with_reducible apply recatchFails_keeps
    | with_reducible apply keeps_ite | with_reducible apply keeps_foldl
    | (have x := trivial; extract_lets +onlyGivenNames x; (fail_if_success have y : True := x); first | (refine keeps_step x ?_ (fun hx => ?_); focus dsimp -zeta only [x]; rotate_left; clear_value x; rotate_right) | skip)

theorem execRecatchMeasureEnd_goes {o x0 x1} (h0 : Keeps o x1) : Goes o (execRecatchMeasureEnd x0 x1) := by
  unfold execRecatchMeasureEnd
  repeat' first
    | with_reducible assumption | with_reducible apply onTileMo_goes | with_reducible apply recatchMeasureEnd_keeps
    | with_reducible apply goes_next

theorem execRecatchHoldEnd_goes {o x0 x1} (h0 : Keeps o x1) : Goes o (execRecatchHoldEnd x0 x1) := by
  unfold execRecatchHoldEnd
  repeat' first
    | simp -zeta only [↓keeps_mk, id_eq] | with_reducible assumption | (intro) | with_reducible apply onTileMo_goes
    | with_reducible apply setF_keeps | with_reducible apply modSpn_keeps | with_reducible apply keeps_ite
    | with_reducible apply goes_ite | with_reducible apply goes_next
    | (have x := trivial; extract_lets +onlyGivenNames x; (fail_if_success have y : True := x); first | (refine goes_step x ?_ (fun hx => ?_); focus dsimp -zeta only [x]; rotate_left; clear_value x; rotate_right) | (refine keeps_step x ?_ (fun hx => ?_); focus dsimp -zeta only [x]; rotate_left; clear_value x; rotate_right) | skip)

theorem execStopBrakeEnd_goes {o x0 x1} (h0 : Keeps o x1) : Goes o (execStopBrakeEnd x0 x1) := by
  unfold execStopBrakeEnd
  repeat' first
    | with_reducible assumption | with_reducible apply onTileMo_goes | with_reducible apply spnStopped_keeps
    | with_reducible apply keeps_ite | with_reducible apply goes_ite | with_reducible apply goes_next

theorem pfailTile_keeps {o x0 x1} (h0 : Keeps o x0) : Keeps o (pfailTile x0 x1) := by
  unfold pfailTile
  repeat' first
    | simp -zeta only [↓keeps_mk, id_eq] | with_reducible assumption | (intro)
    | with_reducible apply setSpnFlt_keeps | with_reducible apply letGo_keeps
    | with_reducible apply spnStopped_keeps | with_reducible apply startRetract_keeps
    | with_reducible apply modCtl_keeps | with_reducible apply keeps_ite | with_reducible apply keeps_foldl
    | (have x := trivial; extract_lets +onlyGivenNames x; (fail_if_success have y : True := x); first | (refine keeps_step x ?_ (fun hx => ?_); focus dsimp -zeta only [x]; rotate_left; clear_value x; rotate_right) | skip)

theorem pfailFall_keeps {o x0} (h0 : Keeps o x0) : Keeps o (pfailFall x0) := by
  unfold pfailFall
  repeat' first
    | simp -zeta only [↓keeps_mk, id_eq] | with_reducible assumption | (intro)
    | with_reducible apply pfailTile_keeps | with_reducible apply owlHub_keeps | with_reducible apply keeps_foldl
    | (have x := trivial; extract_lets +onlyGivenNames x; (fail_if_success have y : True := x); first | (refine keeps_step x ?_ (fun hx => ?_); focus dsimp -zeta only [x]; rotate_left; clear_value x; rotate_right) | skip)

theorem execPfailFall_goes {o x0} (h0 : Keeps o x0) : Goes o (execPfailFall x0) := by
  unfold execPfailFall
  repeat' first
    | with_reducible assumption | with_reducible apply pfailFall_keeps | with_reducible apply goes_next

theorem execPfailRise_goes {o x0} (h0 : Keeps o x0) : Goes o (execPfailRise x0) := by
  unfold execPfailRise
  repeat' first
    | simp -zeta only [↓keeps_mk, id_eq] | with_reducible assumption | (intro)
    | with_reducible apply spnStart_keeps | with_reducible apply modSpn_keeps | with_reducible apply keeps_ite
    | with_reducible apply goes_ite | with_reducible apply goes_next | with_reducible apply keeps_foldl
    | (have x := trivial; extract_lets +onlyGivenNames x; (fail_if_success have y : True := x); first | (refine goes_step x ?_ (fun hx => ?_); focus dsimp -zeta only [x]; rotate_left; clear_value x; rotate_right) | (refine keeps_step x ?_ (fun hx => ?_); focus dsimp -zeta only [x]; rotate_left; clear_value x; rotate_right) | skip)

theorem execSpindleRunCommand_goes {o x0 x1} (h0 : Keeps o x1) : Goes o (execSpindleRunCommand x0 x1) := by
  unfold execSpindleRunCommand
  repeat' first
    | with_reducible assumption | with_reducible apply onTileMo_goes | with_reducible apply routineEvent_keeps
    | with_reducible apply runSet_keeps | with_reducible apply keeps_ite | with_reducible apply goes_ite
    | with_reducible apply goes_next

theorem execSpindleStopCommand_goes {o x0 x1} (h0 : Keeps o x1) : Goes o (execSpindleStopCommand x0 x1) := by
  unfold execSpindleStopCommand
  repeat' first
    | with_reducible assumption | with_reducible apply onTileMo_goes | with_reducible apply routineEvent_keeps
    | with_reducible apply runClear_keeps | with_reducible apply keeps_ite | with_reducible apply goes_ite
    | with_reducible apply goes_next

theorem execResetFails_goes {o x0 x1} (h0 : Keeps o x1) : Goes o (execResetFails x0 x1) := by
  unfold execResetFails
  repeat' first
    | with_reducible assumption | with_reducible apply onTileMo_goes | with_reducible apply setF_keeps
    | with_reducible apply goes_next

theorem dispatchPacket_keeps {o x0 x1 x2 x3} (h0 : Keeps o x0) : Keeps o (dispatchPacket x0 x1 x2 x3) := by
  unfold dispatchPacket
  repeat' first
    | simp -zeta only [↓keeps_mk, id_eq] | with_reducible assumption | with_reducible apply startThread_keeps
    | with_reducible apply keeps_ite
    | (have x := trivial; extract_lets +onlyGivenNames x; (fail_if_success have y : True := x); first | (refine keeps_step x ?_ (fun hx => ?_); focus dsimp -zeta only [x]; rotate_left; clear_value x; rotate_right) | skip)
    | split

theorem nextPacket_keeps {o x0} (h0 : Keeps o x0) : Keeps o (nextPacket x0) := by
  unfold nextPacket
  repeat' first
    | simp -zeta only [↓keeps_mk, id_eq] | with_reducible assumption | with_reducible apply dispatchPacket_keeps
    | with_reducible apply keeps_ite
    | (have x := trivial; extract_lets +onlyGivenNames x; (fail_if_success have y : True := x); first | (refine keeps_step x ?_ (fun hx => ?_); focus dsimp -zeta only [x]; rotate_left; clear_value x; rotate_right) | skip)
    | split

theorem endThread_keeps {o x0 x1 x2} (h0 : Keeps o x0) : Keeps o (endThread x0 x1 x2) := by
  unfold endThread
  repeat' first
    | with_reducible assumption | with_reducible apply setThread_keeps | with_reducible apply nextPacket_keeps
    | with_reducible apply nextRoutine_keeps | with_reducible apply keeps_ite
    | (have x := trivial; extract_lets +onlyGivenNames x; (fail_if_success have y : True := x); first | (refine keeps_step x ?_ (fun hx => ?_); focus dsimp -zeta only [x]; rotate_left; clear_value x; rotate_right) | skip)

theorem resumeWith_keeps {o x0 x1 x2 x3 x4 x5} (h0 : Keeps o x0) : Keeps o (resumeWith x0 x1 x2 x3 x4 x5) := by
  unfold resumeWith
  repeat' first
    | simp -zeta only [↓keeps_mk, id_eq] | with_reducible assumption | with_reducible apply setThread_keeps
    | with_reducible apply keeps_ite
    | (have x := trivial; extract_lets +onlyGivenNames x; (fail_if_success have y : True := x); first | (refine keeps_step x ?_ (fun hx => ?_); focus dsimp -zeta only [x]; rotate_left; clear_value x; rotate_right) | skip)
    | split

theorem execTileResponse_goes {o x0 x1 x2 x3} (h0 : Keeps o x3) : Goes o (execTileResponse x0 x1 x2 x3) := by
  unfold execTileResponse
  repeat' first
    | with_reducible assumption | with_reducible apply onOk_goes | with_reducible apply resumeWith_keeps
    | with_reducible apply goes_next

theorem execBufferResponse_goes {o x0 x1 x2 x3} (h0 : Keeps o x3) : Goes o (execBufferResponse x0 x1 x2 x3) := by
  unfold execBufferResponse
  repeat' first
    | with_reducible assumption | with_reducible apply onOk_goes | with_reducible apply resumeWith_keeps
    | with_reducible apply goes_next

theorem execRdmaResponse_goes {o x0 x1 x2 x3} (h0 : Keeps o x3) : Goes o (execRdmaResponse x0 x1 x2 x3) := by
  unfold execRdmaResponse
  repeat' first
    | with_reducible assumption | with_reducible apply onOk_goes | with_reducible apply resumeWith_keeps
    | with_reducible apply goes_next

theorem execTileEvent_goes {o x0 x1} (h0 : Keeps o x1) : Goes o (execTileEvent x0 x1) := by
  unfold execTileEvent
  repeat' first
    | simp -zeta only [↓keeps_mk, id_eq] | with_reducible assumption | (intro) | with_reducible apply onTile_goes
    | with_reducible apply modDet_keeps | with_reducible apply dispatchPacket_keeps
    | with_reducible apply crossAtOnce_keeps | with_reducible apply retireTile_keeps
    | with_reducible apply keeps_ite | with_reducible apply goes_ite | with_reducible apply goes_next
    | (have x := trivial; extract_lets +onlyGivenNames x; (fail_if_success have y : True := x); first | (refine goes_step x ?_ (fun hx => ?_); focus dsimp -zeta only [x]; rotate_left; clear_value x; rotate_right) | (refine keeps_step x ?_ (fun hx => ?_); focus dsimp -zeta only [x]; rotate_left; clear_value x; rotate_right) | skip)
    | split

theorem execDispatchTimerTick_goes {o x0} (h0 : Keeps o x0) : Goes o (execDispatchTimerTick x0) := by
  unfold execDispatchTimerTick
  repeat' first
    | with_reducible assumption | with_reducible apply dispatchPacket_keeps | with_reducible apply nextPacket_keeps
    | with_reducible apply goes_next

theorem owlStore_keeps {o x0 x1 x2 x3 x4 x5} (h0 : Keeps o x0) : Keeps o (owlStore x0 x1 x2 x3 x4 x5) := by
  unfold owlStore
  repeat' first
    | with_reducible assumption | with_reducible apply owlHub_keeps | with_reducible apply owlTile_keeps
    | with_reducible apply keeps_ite

theorem swapBanks_keeps {o x0 x1 x2} (h0 : Keeps o x0) : Keeps o (swapBanks x0 x1 x2) := by
  unfold swapBanks
  repeat' first
    | with_reducible assumption | with_reducible apply setF_keeps | with_reducible apply setB_keeps
    | with_reducible apply owlStore_keeps | with_reducible apply bump_keeps
    | with_reducible apply startThread_keeps | with_reducible apply modEng_keeps | with_reducible apply keeps_ite
    | (have x := trivial; extract_lets +onlyGivenNames x; (fail_if_success have y : True := x); first | (refine keeps_step x ?_ (fun hx => ?_); focus dsimp -zeta only [x]; rotate_left; clear_value x; rotate_right) | clear_value x | skip)
    | split

theorem execSwapEffect_goes {o x0 x1} (h0 : Keeps o x1) : Goes o (execSwapEffect x0 x1) := by
  unfold execSwapEffect
  repeat' first
    | with_reducible assumption | with_reducible apply onEng_goes | with_reducible apply swapBanks_keeps
    | with_reducible apply keeps_ite | with_reducible apply goes_ite | with_reducible apply goes_next

theorem makePending_keeps {o x0 x1} (h0 : Keeps o x0) : Keeps o (makePending x0 x1) := by
  unfold makePending
  repeat' first
    | with_reducible assumption | with_reducible apply setB_keeps | with_reducible apply swapBanks_keeps
    | with_reducible apply keeps_ite
    | (have x := trivial; extract_lets +onlyGivenNames x; (fail_if_success have y : True := x); first | (refine keeps_step x ?_ (fun hx => ?_); focus dsimp -zeta only [x]; rotate_left; clear_value x; rotate_right) | skip)

theorem stopWork_keeps {o x0 x1 x2 x3} (h0 : Keeps o x0) : Keeps o (stopWork x0 x1 x2 x3) := by
  unfold stopWork
  repeat' first
    | simp -zeta only [↓keeps_mk, id_eq] | with_reducible assumption | (intro)
    | with_reducible apply completeCmd_keeps | with_reducible apply dropCtx_keeps
    | with_reducible apply modArm_keeps | with_reducible apply keeps_ite
    | (have x := trivial; extract_lets +onlyGivenNames x; (fail_if_success have y : True := x); first | (refine keeps_step x ?_ (fun hx => ?_); focus dsimp -zeta only [x]; rotate_left; clear_value x; rotate_right) | skip)

theorem restRoutine_keeps {o x0 x1} (h0 : Keeps o x0) : Keeps o (restRoutine x0 x1) := by
  unfold restRoutine
  repeat' first
    | with_reducible assumption | with_reducible apply nextRoutine_keeps | with_reducible apply keeps_ite

theorem faultLimit_keeps {o x0 x1} (h0 : Keeps o x0) : Keeps o (faultLimit x0 x1) := by
  unfold faultLimit
  repeat' first
    | with_reducible assumption | with_reducible apply vcFaultNow_keeps | with_reducible apply spindleFault_keeps
    | with_reducible apply keeps_ite

theorem microFault_keeps {o x0 x1 x2 x3} (h0 : Keeps o x0) : Keeps o (microFault x0 x1 x2 x3) := by
  unfold microFault
  repeat' first
    | simp -zeta only [↓keeps_mk, id_eq] | with_reducible assumption | (intro) | with_reducible apply bump_keeps
    | with_reducible apply setReg_keeps | with_reducible apply owlStore_keeps | with_reducible apply irqEdge_keeps
    | with_reducible apply tileEdge_keeps | with_reducible apply modEng_keeps | with_reducible apply stopWork_keeps
    | with_reducible apply setThread_keeps | with_reducible apply restRoutine_keeps
    | with_reducible apply swapBanks_keeps | with_reducible apply makePending_keeps
    | with_reducible apply faultLimit_keeps | with_reducible apply keeps_ite
    | (have x := trivial; extract_lets +onlyGivenNames x; (fail_if_success have y : True := x); first | (refine keeps_step x ?_ (fun hx => ?_); focus dsimp -zeta only [x]; rotate_left; clear_value x; rotate_right) | skip)
    | split

theorem ucsReply_keeps {o x0 x1 x2 x3} (h0 : Keeps o x0.1) : Keeps o (ucsReply x0 x1 x2 x3) := by
  unfold ucsReply
  repeat' first
    | with_reducible assumption | with_reducible apply emit_keeps

theorem ucsLoad_keeps {o x0 x1} (h0 : Keeps o x0) : Keeps o (ucsLoad x0 x1).1 := by
  unfold ucsLoad
  repeat' first
    | with_reducible assumption | (intro) | with_reducible apply modEng_keeps | with_reducible apply setF_keeps
    | with_reducible apply setReg_keeps | with_reducible apply keeps_ite | with_reducible apply keeps_ite_fst
    | (have x := trivial; extract_lets +onlyGivenNames x; (fail_if_success have y : True := x); first | (refine keeps_step x ?_ (fun hx => ?_); focus dsimp -zeta only [x]; rotate_left; clear_value x; rotate_right) | skip)

theorem ucsSeal_keeps {o x0 x1} (h0 : Keeps o x0) : Keeps o (ucsSeal x0 x1).1 := by
  unfold ucsSeal
  repeat' first
    | with_reducible assumption | (intro) | with_reducible apply setF_keeps | with_reducible apply keeps_ite
    | with_reducible apply keeps_ite_fst
    | (have x := trivial; extract_lets +onlyGivenNames x; (fail_if_success have y : True := x); first | (refine keeps_step x ?_ (fun hx => ?_); focus dsimp -zeta only [x]; rotate_left; clear_value x; rotate_right) | skip)

theorem ucsSwap_keeps {o x0 x1} (h0 : Keeps o x0) : Keeps o (ucsSwap x0 x1).1 := by
  unfold ucsSwap
  repeat' first
    | with_reducible assumption | with_reducible apply makePending_keeps | with_reducible apply keeps_ite
    | with_reducible apply keeps_ite_fst

theorem ucsRevert_keeps {o x0 x1} (h0 : Keeps o x0) : Keeps o (ucsRevert x0 x1).1 := by
  unfold ucsRevert
  repeat' first
    | with_reducible assumption | with_reducible apply makePending_keeps | with_reducible apply keeps_ite
    | with_reducible apply keeps_ite_fst

theorem ucsCancel_keeps {o x0 x1} (h0 : Keeps o x0) : Keeps o (ucsCancel x0 x1).1 := by
  unfold ucsCancel
  repeat' first
    | with_reducible assumption | with_reducible apply setB_keeps

theorem ucsCmd_keeps {o x0 x1 x2} (h0 : Keeps o x0) : Keeps o (ucsCmd x0 x1 x2).1 := by
  unfold ucsCmd
  repeat' first
    | with_reducible assumption | with_reducible apply ucsLoad_keeps | with_reducible apply ucsSeal_keeps
    | with_reducible apply ucsSwap_keeps | with_reducible apply ucsRevert_keeps
    | with_reducible apply ucsCancel_keeps | with_reducible apply keeps_ite | with_reducible apply keeps_ite_fst

theorem ucsNext_keeps {o x0 x1} (h0 : Keeps o x0) : Keeps o (ucsNext x0 x1) := by
  unfold ucsNext
  repeat' first
    | with_reducible assumption | with_reducible apply setF_keeps

theorem ucsPut_keeps {o x0 x1 x2} (h0 : Keeps o x0) : Keeps o (ucsPut x0 x1 x2).1 := by
  unfold ucsPut
  repeat' first
    | simp -zeta only [↓keeps_mk, id_eq] | with_reducible assumption | (intro) | with_reducible apply modEng_keeps
    | with_reducible apply ucsNext_keeps | with_reducible apply keeps_ite | with_reducible apply keeps_ite_fst
    | (have x := trivial; extract_lets +onlyGivenNames x; (fail_if_success have y : True := x); first | (refine keeps_step x ?_ (fun hx => ?_); focus dsimp -zeta only [x]; rotate_left; clear_value x; rotate_right) | skip)

theorem ucsGet_keeps {o x0 x1} (h0 : Keeps o x0) : Keeps o (ucsGet x0 x1).1 := by
  unfold ucsGet
  repeat' first
    | with_reducible assumption | with_reducible apply ucsNext_keeps

theorem execUcsLoad_goes {o x0 x1} (h0 : Keeps o x1) : Goes o (execUcsLoad x0 x1) := by
  unfold execUcsLoad
  repeat' first
    | with_reducible assumption | with_reducible apply onEng_goes | with_reducible apply ucsReply_keeps
    | with_reducible apply ucsLoad_keeps | with_reducible apply goes_next

theorem execSeal_goes {o x0 x1} (h0 : Keeps o x1) : Goes o (execSeal x0 x1) := by
  unfold execSeal
  repeat' first
    | with_reducible assumption | with_reducible apply onEng_goes | with_reducible apply ucsReply_keeps
    | with_reducible apply ucsSeal_keeps | with_reducible apply goes_next

theorem execSwap_goes {o x0 x1} (h0 : Keeps o x1) : Goes o (execSwap x0 x1) := by
  unfold execSwap
  repeat' first
    | with_reducible assumption | with_reducible apply onEng_goes | with_reducible apply ucsReply_keeps
    | with_reducible apply ucsSwap_keeps | with_reducible apply goes_next

theorem execUcsRevert_goes {o x0 x1} (h0 : Keeps o x1) : Goes o (execUcsRevert x0 x1) := by
  unfold execUcsRevert
  repeat' first
    | with_reducible assumption | with_reducible apply onEng_goes | with_reducible apply ucsReply_keeps
    | with_reducible apply ucsRevert_keeps | with_reducible apply goes_next

theorem execCancel_goes {o x0 x1} (h0 : Keeps o x1) : Goes o (execCancel x0 x1) := by
  unfold execCancel
  repeat' first
    | with_reducible assumption | with_reducible apply onEng_goes | with_reducible apply ucsReply_keeps
    | with_reducible apply ucsCancel_keeps | with_reducible apply goes_next

theorem execUcsDataWrite_goes {o x0 x1 x2} (h0 : Keeps o x2) : Goes o (execUcsDataWrite x0 x1 x2) := by
  unfold execUcsDataWrite
  repeat' first
    | with_reducible assumption | with_reducible apply onEng_goes | with_reducible apply ucsReply_keeps
    | with_reducible apply ucsPut_keeps | with_reducible apply goes_next

theorem execUcsDataRead_goes {o x0 x1} (h0 : Keeps o x1) : Goes o (execUcsDataRead x0 x1) := by
  unfold execUcsDataRead
  repeat' first
    | with_reducible assumption | with_reducible apply onEng_goes | with_reducible apply ucsGet_keeps
    | with_reducible apply emit_keeps | with_reducible apply goes_next
    | (have x := trivial; extract_lets +onlyGivenNames x; (fail_if_success have y : True := x); first | (refine goes_step x ?_ (fun hx => ?_); focus dsimp -zeta only [x]; rotate_left; clear_value x; rotate_right) | (refine keeps_step x ?_ (fun hx => ?_); focus dsimp -zeta only [x]; rotate_left; clear_value x; rotate_right) | skip)

theorem loadStore_keeps {o x0 x1 x2} (h0 : Keeps o x0) : Keeps o (loadStore x0 x1 x2) := by
  unfold loadStore
  repeat' first
    | simp -zeta only [↓keeps_mk, id_eq] | with_reducible assumption | with_reducible apply setEng_keeps
    | with_reducible apply setReg_keeps | with_reducible apply startThread_keeps | with_reducible apply keeps_ite
    | (have x := trivial; extract_lets +onlyGivenNames x; (fail_if_success have y : True := x); first | (refine keeps_step x ?_ (fun hx => ?_); focus dsimp -zeta only [x]; rotate_left; clear_value x; rotate_right) | skip)
    | split

theorem swapInStore_keeps {o x0 x1 x2} (h0 : Keeps o x0) : Keeps o (swapInStore x0 x1 x2) := by
  unfold swapInStore
  repeat' first
    | with_reducible assumption | (intro) | with_reducible apply modEng_keeps
    | with_reducible apply makePending_keeps | with_reducible apply setF_keeps
    | (have x := trivial; extract_lets +onlyGivenNames x; (fail_if_success have y : True := x); first | (refine keeps_step x ?_ (fun hx => ?_); focus dsimp -zeta only [x]; rotate_left; clear_value x; rotate_right) | skip)
    | split

theorem asperityBegin_keeps {o x0 x1 x2 x3 x4} (h0 : Keeps o x0) : Keeps o (asperityBegin x0 x1 x2 x3 x4) := by
  unfold asperityBegin
  repeat' first
    | simp -zeta only [↓keeps_mk, id_eq] | with_reducible assumption | (intro)
    | with_reducible apply leaveWedge_keeps | with_reducible apply setLaneSt_keeps
    | with_reducible apply wcnt_keeps | with_reducible apply setB_keeps | with_reducible apply modLane_keeps
    | with_reducible apply flagCaps_keeps | with_reducible apply emit_keeps | with_reducible apply keeps_ite
    | (have x := trivial; extract_lets +onlyGivenNames x; (fail_if_success have y : True := x); first | (refine keeps_step x ?_ (fun hx => ?_); focus dsimp -zeta only [x]; rotate_left; clear_value x; rotate_right) | skip)

theorem execAsperityBegin_goes {o x0 x1 x2 x3 x4} (h0 : Keeps o x4) :
    Goes o (execAsperityBegin x0 x1 x2 x3 x4) := by
  unfold execAsperityBegin
  repeat' first
    | with_reducible assumption | with_reducible apply onLaneCh_goes | with_reducible apply asperityBegin_keeps
    | with_reducible apply goes_next

theorem asperityEnd_keeps {o x0 x1 x2 x3 x4} (h0 : Keeps o x0) : Keeps o (asperityEnd x0 x1 x2 x3 x4) := by
  unfold asperityEnd
  repeat' first
    | simp -zeta only [↓keeps_mk, id_eq] | with_reducible assumption | (intro)
    | with_reducible apply leaveWedge_keeps | with_reducible apply setB_keeps
    | with_reducible apply setLaneSt_keeps | with_reducible apply modLane_keeps
    | with_reducible apply flagCaps_keeps | with_reducible apply emit_keeps | with_reducible apply keeps_ite
    | (have x := trivial; extract_lets +onlyGivenNames x; (fail_if_success have y : True := x); first | (refine keeps_step x ?_ (fun hx => ?_); focus dsimp -zeta only [x]; rotate_left; clear_value x; rotate_right) | skip)
    | split

theorem execAsperityEnd_goes {o x0 x1 x2 x3 x4} (h0 : Keeps o x4) : Goes o (execAsperityEnd x0 x1 x2 x3 x4) := by
  unfold execAsperityEnd
  repeat' first
    | with_reducible assumption | with_reducible apply onLaneCh_goes | with_reducible apply asperityEnd_keeps
    | with_reducible apply goes_next

theorem trainLane_keeps {o x0 x1 x2 x3 x4} (h0 : Keeps o x0) : Keeps o (trainLane x0 x1 x2 x3 x4) := by
  unfold trainLane
  repeat' first
    | simp -zeta only [↓keeps_mk, id_eq] | with_reducible assumption | (intro) | with_reducible apply took_keeps
    | with_reducible apply setReg_keeps | with_reducible apply putTaps_keeps | with_reducible apply modLane_keeps
    | with_reducible apply setB_keeps | with_reducible apply owlTile_keeps | with_reducible apply keeps_ite
    | with_reducible apply keeps_foldl
    | (have x := trivial; extract_lets +onlyGivenNames x; (fail_if_success have y : True := x); first | (refine keeps_step x ?_ (fun hx => ?_); focus dsimp -zeta only [x]; rotate_left; clear_value x; rotate_right) | (have _ : State → State := x; dsimp -zeta only [x]) | (have _ : Nat → State → State := x; dsimp -zeta only [x]) | (have _ : State → Nat → State := x; dsimp -zeta only [x]) | skip)

theorem trainHead_keeps {o x0 x1 x2 x3 x4 x5 x6} (h0 : Keeps o x0) : Keeps o (trainHead x0 x1 x2 x3 x4 x5 x6) := by
  unfold trainHead
  repeat' first
    | simp -zeta only [↓keeps_mk, id_eq] | with_reducible assumption | (intro) | with_reducible apply modHead_keeps
    | with_reducible apply keeps_ite
    | (have x := trivial; extract_lets +onlyGivenNames x; (fail_if_success have y : True := x); first | (refine keeps_step x ?_ (fun hx => ?_); focus dsimp -zeta only [x]; rotate_left; clear_value x; rotate_right) | skip)

theorem trainMove_keeps {o x0 x1 x2} (h0 : Keeps o x0) : Keeps o (trainMove x0 x1 x2) := by
  unfold trainMove
  repeat' first
    | with_reducible assumption | with_reducible apply startSeek_keeps | with_reducible apply keeps_ite
    | (have x := trivial; extract_lets +onlyGivenNames x; (fail_if_success have y : True := x); first | (refine keeps_step x ?_ (fun hx => ?_); focus dsimp -zeta only [x]; rotate_left; clear_value x; rotate_right) | skip)
    | split

theorem trainingPassEnd_keeps {o x0 x1 x2 x3 x4} (h0 : Keeps o x0) : Keeps o (trainingPassEnd x0 x1 x2 x3 x4) := by
  unfold trainingPassEnd
  repeat' first
    | simp -zeta only [↓keeps_mk, id_eq] | with_reducible assumption | (intro)
    | with_reducible apply trainLane_keeps | with_reducible apply trainHead_keeps
    | with_reducible apply trainMove_keeps | with_reducible apply keeps_ite | with_reducible apply keeps_foldl
    | (have x := trivial; extract_lets +onlyGivenNames x; (fail_if_success have y : True := x); first | (refine keeps_step x ?_ (fun hx => ?_); focus dsimp -zeta only [x]; rotate_left; clear_value x; rotate_right) | skip)
    | split

theorem execTrainingPassEnd_goes {o x0 x1 x2 x3 x4} (h0 : Keeps o x4) :
    Goes o (execTrainingPassEnd x0 x1 x2 x3 x4) := by
  unfold execTrainingPassEnd
  repeat' first
    | with_reducible assumption | with_reducible apply onClusterCh_goes
    | with_reducible apply trainingPassEnd_keeps | with_reducible apply keeps_ite | with_reducible apply goes_ite
    | with_reducible apply goes_next | exact goes_fault

theorem extendDeadline_keeps {o x0 x1 x2} (h0 : Keeps o x0) : Keeps o (extendDeadline x0 x1 x2) := by
  unfold extendDeadline
  repeat' first
    | simp -zeta only [↓keeps_mk, id_eq] | with_reducible assumption | with_reducible apply setCmd_keeps
    | with_reducible apply keeps_ite
    | (have x := trivial; extract_lets +onlyGivenNames x; (fail_if_success have y : True := x); first | (refine keeps_step x ?_ (fun hx => ?_); focus dsimp -zeta only [x]; rotate_left; clear_value x; rotate_right) | skip)
    | split

theorem deferWants_keeps {o x0 x1 x2 x3 x4} (h0 : Keeps o x0) : Keeps o (deferWants x0 x1 x2 x3 x4) := by
  unfold deferWants
  repeat' first
    | simp -zeta only [↓keeps_mk, id_eq] | with_reducible assumption | (intro) | with_reducible apply deferN_keeps
    | with_reducible apply extendDeadline_keeps | with_reducible apply modHead_keeps
    | with_reducible apply keeps_foldl
    | (have x := trivial; extract_lets +onlyGivenNames x; (fail_if_success have y : True := x); first | (refine keeps_step x ?_ (fun hx => ?_); focus dsimp -zeta only [x]; rotate_left; clear_value x; rotate_right) | skip)

theorem takeEntry_may {o x0 x1 x2 x3} (h0 : Keeps o x0) : May o (takeEntry x0 x1 x2 x3) := by
  unfold takeEntry
  repeat' first
    | simp -zeta only [↓keeps_mk, id_eq] | with_reducible assumption | (intro) | with_reducible apply setHead_keeps
    | with_reducible apply keeps_ite | with_reducible apply may_some | exact may_none
    | (have x := trivial; extract_lets +onlyGivenNames x; (fail_if_success have y : True := x); first | (refine may_step x ?_ (fun hx => ?_); focus dsimp -zeta only [x]; rotate_left; clear_value x; rotate_right) | (refine keeps_step x ?_ (fun hx => ?_); focus dsimp -zeta only [x]; rotate_left; clear_value x; rotate_right) | skip)
    | split

theorem fillQueue_keeps {o x0 x1 x2 x3 x4} (h0 : Keeps o x1) : Keeps o (fillQueue x0 x1 x2 x3 x4) := by
  induction x0 generalizing x1 with
  | zero => unfold fillQueue; exact h0
  | succ n ih =>
    unfold fillQueue
    repeat' first
      | with_reducible apply ih | exact May.of ‹_› (takeEntry_may h0) | with_reducible assumption
      | with_reducible apply keeps_ite | split

theorem fillCap_keeps {o x0 x1 x2 x3} (h0 : Keeps o x0) : Keeps o (fillCap x0 x1 x2 x3) := by
  unfold fillCap
  repeat' first
    | with_reducible assumption | with_reducible apply fillQueue_keeps | with_reducible apply keeps_ite

theorem headGo_keeps {o x0 x1 x2 x3} (h0 : Keeps o x0) : Keeps o (headGo x0 x1 x2 x3) := by
  unfold headGo
  repeat' first
    | simp -zeta only [↓keeps_mk, id_eq] | with_reducible assumption | (intro) | with_reducible apply setRef_keeps
    | with_reducible apply modHeadS_keeps | with_reducible apply startSeek_keeps | with_reducible apply keeps_ite
    | (have x := trivial; extract_lets +onlyGivenNames x; (fail_if_success have y : True := x); first | (refine keeps_step x ?_ (fun hx => ?_); focus dsimp -zeta only [x]; rotate_left; clear_value x; rotate_right) | skip)
    | split

theorem wantSectors_keeps {o x0 x1 x2 x3 x4} (h0 : Keeps o x0) : Keeps o (wantSectors x0 x1 x2 x3 x4) := by
  unfold wantSectors
  repeat' first
    | simp -zeta only [↓keeps_mk, id_eq] | with_reducible assumption | (intro) | with_reducible apply modHead_keeps
    | with_reducible apply wakeHead_keeps | with_reducible apply fillCap_keeps | with_reducible apply headGo_keeps
    | (have x := trivial; extract_lets +onlyGivenNames x; (fail_if_success have y : True := x); first | (refine keeps_step x ?_ (fun hx => ?_); focus dsimp -zeta only [x]; rotate_left; clear_value x; rotate_right) | skip)

theorem mediaRequest_keeps {o x0 x1 x2} (h0 : Keeps o x0) : Keeps o (mediaRequest x0 x1 x2) := by
  unfold mediaRequest
  repeat' first
    | simp -zeta only [↓keeps_mk, id_eq] | with_reducible assumption | with_reducible apply sendDrop_keeps
    | with_reducible apply wantSectors_keeps | with_reducible apply keeps_ite
    | (have x := trivial; extract_lets +onlyGivenNames x; (fail_if_success have y : True := x); first | (refine keeps_step x ?_ (fun hx => ?_); focus dsimp -zeta only [x]; rotate_left; clear_value x; rotate_right) | skip)

theorem mediaSend_keeps {o x0 x1} (h0 : Keeps o x0) : Keeps o (mediaSend x0 x1) := by
  unfold mediaSend
  repeat' first
    | simp -zeta only [↓keeps_mk, id_eq] | with_reducible assumption | with_reducible apply mediaRequest_keeps
    | with_reducible apply crossAtOnce_keeps | with_reducible apply keeps_ite
    | (have x := trivial; extract_lets +onlyGivenNames x; (fail_if_success have y : True := x); first | (refine keeps_step x ?_ (fun hx => ?_); focus dsimp -zeta only [x]; rotate_left; clear_value x; rotate_right) | skip)
    | split

theorem execMediaRequest_goes {o x0 x1} (h0 : Keeps o x1) : Goes o (execMediaRequest x0 x1) := by
  unfold execMediaRequest
  repeat' first
    | with_reducible assumption | with_reducible apply onTileCh_goes | with_reducible apply mediaSend_keeps
    | with_reducible apply goes_next

theorem beginLane_keeps {o x0 x1 x2 x3 x4} (h0 : Keeps o x0) : Keeps o (beginLane x0 x1 x2 x3 x4) := by
  unfold beginLane
  repeat' first
    | simp -zeta only [↓keeps_mk, id_eq] | with_reducible assumption | (intro) | with_reducible apply acquire_keeps
    | with_reducible apply setLaneSt_keeps | with_reducible apply modLane_keeps | with_reducible apply setF_keeps
    | with_reducible apply keeps_ite
    | (have x := trivial; extract_lets +onlyGivenNames x; (fail_if_success have y : True := x); first | (refine keeps_step x ?_ (fun hx => ?_); focus dsimp -zeta only [x]; rotate_left; clear_value x; rotate_right) | skip)

theorem beginCapture_keeps {o x0 x1 x2 x3 x4 x5} (h0 : Keeps o x0) : Keeps o (beginCapture x0 x1 x2 x3 x4 x5) := by
  unfold beginCapture
  repeat' first
    | simp -zeta only [↓keeps_mk, id_eq] | with_reducible assumption | (intro)
    | with_reducible apply applyKappa_keeps | with_reducible apply setHead_keeps
    | with_reducible apply beginLane_keeps | with_reducible apply modDet_keeps | with_reducible apply keeps_ite
    | (have x := trivial; extract_lets +onlyGivenNames x; (fail_if_success have y : True := x); first | (refine keeps_step x ?_ (fun hx => ?_); focus dsimp -zeta only [x]; rotate_left; clear_value x; rotate_right) | skip)
    | split

theorem captureStart_keeps {o x0 x1 x2 x3 x4} (h0 : Keeps o x0) : Keeps o (captureStart x0 x1 x2 x3 x4) := by
  unfold captureStart
  repeat' first
    | simp -zeta only [↓keeps_mk, id_eq] | with_reducible assumption | (intro) | with_reducible apply fillCap_keeps
    | with_reducible apply headGo_keeps | with_reducible apply modHead_keeps
    | with_reducible apply deferWants_keeps | with_reducible apply bump_keeps
    | with_reducible apply beginCapture_keeps | with_reducible apply keeps_ite
    | (have x := trivial; extract_lets +onlyGivenNames x; (fail_if_success have y : True := x); first | (refine keeps_step x ?_ (fun hx => ?_); focus dsimp -zeta only [x]; rotate_left; clear_value x; rotate_right) | (have _ : State → State := x; dsimp -zeta only [x]) | (have _ : Nat → State → State := x; dsimp -zeta only [x]) | (have _ : State → Nat → State := x; dsimp -zeta only [x]) | skip)
    | split

theorem execCaptureStart_goes {o x0 x1 x2 x3 x4} (h0 : Keeps o x4) : Goes o (execCaptureStart x0 x1 x2 x3 x4) := by
  unfold execCaptureStart
  repeat' first
    | with_reducible assumption | with_reducible apply onHeadCh_goes | with_reducible apply captureStart_keeps
    | with_reducible apply goes_next

theorem closeWindow_keeps {o x0 x1 x2} (h0 : Keeps o x0) : Keeps o (closeWindow x0 x1 x2) := by
  unfold closeWindow
  repeat' first
    | with_reducible assumption | (intro) | with_reducible apply setReg_keeps | with_reducible apply setF_keeps
    | with_reducible apply bumpF_keeps | with_reducible apply owlTile_keeps | with_reducible apply tileEdge_keeps
    | with_reducible apply retire_keeps | with_reducible apply keeps_ite | with_reducible apply keeps_foldl
    | (have x := trivial; extract_lets +onlyGivenNames x; (fail_if_success have y : True := x); first | (refine keeps_step x ?_ (fun hx => ?_); focus dsimp -zeta only [x]; rotate_left; clear_value x; rotate_right) | (have _ : State → State := x; dsimp -zeta only [x]) | (have _ : Nat → State → State := x; dsimp -zeta only [x]) | (have _ : State → Nat → State := x; dsimp -zeta only [x]) | skip)

theorem countCapture_keeps {o x0 x1 x2} (h0 : Keeps o x0) : Keeps o (countCapture x0 x1 x2) := by
  unfold countCapture
  repeat' first
    | with_reducible assumption | with_reducible apply closeWindow_keeps | with_reducible apply wcnt_keeps
    | with_reducible apply keeps_ite

theorem moveGain_keeps {o x0 x1 x2 x3} (h0 : Keeps o x0) : Keeps o (moveGain x0 x1 x2 x3) := by
  unfold moveGain
  repeat' first
    | simp -zeta only [↓keeps_mk, id_eq] | with_reducible assumption | (intro) | with_reducible apply setF_keeps
    | with_reducible apply modLane_keeps
    | (have x := trivial; extract_lets +onlyGivenNames x; (fail_if_success have y : True := x); first | (refine keeps_step x ?_ (fun hx => ?_); focus dsimp -zeta only [x]; rotate_left; clear_value x; rotate_right) | skip)

theorem adaptLane_keeps {o x0 x1 x2 x3 x4 x5 x6 x7 x8} (h0 : Keeps o x0) :
    Keeps o (adaptLane x0 x1 x2 x3 x4 x5 x6 x7 x8) := by
  unfold adaptLane
  repeat' first
    | simp -zeta only [↓keeps_mk, id_eq] | with_reducible assumption | (intro)
    | with_reducible apply moveGain_keeps | with_reducible apply modLane_keeps | with_reducible apply keeps_ite
    | (have x := trivial; extract_lets +onlyGivenNames x; (fail_if_success have y : True := x); first | (refine keeps_step x ?_ (fun hx => ?_); focus dsimp -zeta only [x]; rotate_left; clear_value x; rotate_right) | skip)

theorem noteTrack_keeps {o x0 x1 x2 x3 x4 x5 x6} (h0 : Keeps o x0) : Keeps o (noteTrack x0 x1 x2 x3 x4 x5 x6) := by
  unfold noteTrack
  repeat' first
    | simp -zeta only [↓keeps_mk, id_eq] | with_reducible assumption | (intro) | with_reducible apply modHead_keeps
    | with_reducible apply keeps_ite
    | (have x := trivial; extract_lets +onlyGivenNames x; (fail_if_success have y : True := x); first | (refine keeps_step x ?_ (fun hx => ?_); focus dsimp -zeta only [x]; rotate_left; clear_value x; rotate_right) | skip)

theorem liveEnd_keeps {o x0 x1 x2 x3 x4} (h0 : Keeps o x0) : Keeps o (liveEnd x0 x1 x2 x3 x4) := by
  unfold liveEnd
  repeat' first
    | simp -zeta only [↓keeps_mk, id_eq] | with_reducible assumption | (intro) | with_reducible apply pushRes_keeps
    | with_reducible apply modDet_keeps
    | (have x := trivial; extract_lets +onlyGivenNames x; (fail_if_success have y : True := x); first | (refine keeps_step x ?_ (fun hx => ?_); focus dsimp -zeta only [x]; rotate_left; clear_value x; rotate_right) | skip)

theorem endTrack_keeps {o x0 x1 x2 x3 x4 x5 x6 x7} (h0 : Keeps o x0) :
    Keeps o (endTrack x0 x1 x2 x3 x4 x5 x6 x7) := by
  unfold endTrack
  repeat' first
    | simp -zeta only [↓keeps_mk, id_eq] | with_reducible assumption | (intro) | with_reducible apply liveEnd_keeps
    | with_reducible apply noteTrack_keeps | with_reducible apply pinCapture_keeps
    | with_reducible apply modDet_keeps | with_reducible apply setF_keeps | with_reducible apply keeps_ite
    | with_reducible apply keeps_ite_fst | with_reducible apply keeps_getD
    | (have x := trivial; extract_lets +onlyGivenNames x; (fail_if_success have y : True := x); first | (refine keeps_step x ?_ (fun hx => ?_); focus dsimp -zeta only [x]; rotate_left; clear_value x; rotate_right) | skip)

theorem countEnd_keeps {o x0 x1 x2 x3 x4} (h0 : Keeps o x0) : Keeps o (countEnd x0 x1 x2 x3 x4) := by
  unfold countEnd
  repeat' first
    | with_reducible assumption | (intro) | with_reducible apply countCapture_keeps
    | with_reducible apply wcnt_keeps | with_reducible apply bump_keeps | with_reducible apply keeps_ite
    | (have x := trivial; extract_lets +onlyGivenNames x; (fail_if_success have y : True := x); first | (refine keeps_step x ?_ (fun hx => ?_); focus dsimp -zeta only [x]; rotate_left; clear_value x; rotate_right) | (have _ : State → State := x; dsimp -zeta only [x]) | (have _ : Nat → State → State := x; dsimp -zeta only [x]) | (have _ : State → Nat → State := x; dsimp -zeta only [x]) | skip)

theorem endLane_keeps {o x0 x1 x2 x3} (h0 : Keeps o x0) : Keeps o (endLane x0 x1 x2 x3) := by
  unfold endLane
  repeat' first
    | simp -zeta only [↓keeps_mk, id_eq] | with_reducible assumption | (intro)
    | with_reducible apply setLaneSt_keeps | with_reducible apply idleLane_keeps
    | with_reducible apply modLane_keeps | with_reducible apply keeps_ite
    | (have x := trivial; extract_lets +onlyGivenNames x; (fail_if_success have y : True := x); first | (refine keeps_step x ?_ (fun hx => ?_); focus dsimp -zeta only [x]; rotate_left; clear_value x; rotate_right) | skip)

theorem storeLane_keeps {o x0 x1 x2 x3 x4 x5} (h0 : Keeps o x0) : Keeps o (storeLane x0 x1 x2 x3 x4 x5) := by
  unfold storeLane
  repeat' first
    | simp -zeta only [↓keeps_mk, id_eq] | with_reducible assumption | (intro) | with_reducible apply modLane_keeps
    | with_reducible apply bump_keeps | with_reducible apply keeps_ite
    | (have x := trivial; extract_lets +onlyGivenNames x; (fail_if_success have y : True := x); first | (refine keeps_step x ?_ (fun hx => ?_); focus dsimp -zeta only [x]; rotate_left; clear_value x; rotate_right) | skip)

theorem adaptKappa_keeps {o x0 x1 x2 x3 x4 x5 x6 x7 x8} (h0 : Keeps o x0) :
    Keeps o (adaptKappa x0 x1 x2 x3 x4 x5 x6 x7 x8) := by
  unfold adaptKappa
  repeat' first
    | simp -zeta only [↓keeps_mk, id_eq] | with_reducible assumption | (intro) | with_reducible apply modHead_keeps
    | with_reducible apply keeps_ite
    | (have x := trivial; extract_lets +onlyGivenNames x; (fail_if_success have y : True := x); first | (refine keeps_step x ?_ (fun hx => ?_); focus dsimp -zeta only [x]; rotate_left; clear_value x; rotate_right) | (have _ : State → State := x; dsimp -zeta only [x]) | (have _ : Nat → State → State := x; dsimp -zeta only [x]) | (have _ : State → Nat → State := x; dsimp -zeta only [x]) | skip)

theorem measureLag_keeps {o x0 x1 x2 x3 x4} (h0 : Keeps o x0) : Keeps o (measureLag x0 x1 x2 x3 x4) := by
  unfold measureLag
  repeat' first
    | with_reducible assumption | (intro) | with_reducible apply setReg_keeps | with_reducible apply retire_keeps
    | with_reducible apply setB_keeps | with_reducible apply keeps_ite
    | (have x := trivial; extract_lets +onlyGivenNames x; (fail_if_success have y : True := x); first | (refine keeps_step x ?_ (fun hx => ?_); focus dsimp -zeta only [x]; rotate_left; clear_value x; rotate_right) | skip)
    | split

theorem captureEnd_keeps {o x0 x1 x2 x3 x4 x5} (h0 : Keeps o x0) : Keeps o (captureEnd x0 x1 x2 x3 x4 x5) := by
  unfold captureEnd
  repeat' first
    | simp -zeta only [↓keeps_mk, id_eq] | with_reducible assumption | (intro) | with_reducible apply setHead_keeps
    | with_reducible apply took_keeps | with_reducible apply storeLane_keeps | with_reducible apply adaptLane_keeps
    | with_reducible apply adaptKappa_keeps | with_reducible apply measureLag_keeps
    | with_reducible apply countEnd_keeps | with_reducible apply endTrack_keeps
    | with_reducible apply fillCap_keeps | with_reducible apply headGo_keeps | with_reducible apply endLane_keeps
    | with_reducible apply keeps_ite
    | (have x := trivial; extract_lets +onlyGivenNames x; (fail_if_success have y : True := x); first | (refine keeps_step x ?_ (fun hx => ?_); focus dsimp -zeta only [x]; rotate_left; clear_value x; rotate_right) | skip)
    | split

theorem execCaptureEnd_goes {o x0 x1 x2 x3 x4 x5} (h0 : Keeps o x5) :
    Goes o (execCaptureEnd x0 x1 x2 x3 x4 x5) := by
  unfold execCaptureEnd
  repeat' first
    | with_reducible assumption | with_reducible apply onHeadCh_goes | with_reducible apply captureEnd_keeps
    | with_reducible apply goes_next

theorem verdict_keeps {o x0 x1 x2 x3 x4 x5 x6} (h0 : Keeps o x0) : Keeps o (verdict x0 x1 x2 x3 x4 x5 x6) := by
  unfold verdict
  repeat' first
    | simp -zeta only [↓keeps_mk, id_eq] | with_reducible assumption | (intro) | with_reducible apply modHead_keeps
    | with_reducible apply modLane_keeps

theorem detPump_keeps {o x0 x1} (h0 : Keeps o x0) : Keeps o (detPump x0 x1) := by
  unfold detPump
  repeat' first
    | with_reducible assumption | with_reducible apply modDet_keeps

theorem liveDecoded_keeps {o x0 x1 x2 x3} (h0 : Keeps o x0) : Keeps o (liveDecoded x0 x1 x2 x3) := by
  unfold liveDecoded
  repeat' first
    | with_reducible assumption | with_reducible apply noteTrack_keeps | with_reducible apply bump_keeps
    | with_reducible apply wcnt_keeps | with_reducible apply verdict_keeps | with_reducible apply pinCapture_keeps
    | with_reducible apply keeps_ite | with_reducible apply keeps_ite_fst
    | (have x := trivial; extract_lets +onlyGivenNames x; (fail_if_success have y : True := x); first | (refine keeps_step x ?_ (fun hx => ?_); focus dsimp -zeta only [x]; rotate_left; clear_value x; rotate_right) | skip)

theorem storedDecoded_keeps {o x0 x1 x2 x3} (h0 : Keeps o x0) : Keeps o (storedDecoded x0 x1 x2 x3) := by
  unfold storedDecoded
  repeat' first
    | with_reducible assumption | with_reducible apply noteTrack_keeps | with_reducible apply bump_keeps
    | with_reducible apply keeps_ite
    | (have x := trivial; extract_lets +onlyGivenNames x; (fail_if_success have y : True := x); first | (refine keeps_step x ?_ (fun hx => ?_); focus dsimp -zeta only [x]; rotate_left; clear_value x; rotate_right) | skip)

theorem decodeResult_keeps {o x0 x1 x2} (h0 : Keeps o x0) : Keeps o (decodeResult x0 x1 x2) := by
  unfold decodeResult
  repeat' first
    | with_reducible assumption | with_reducible apply detPump_keeps | with_reducible apply setDet_keeps
    | with_reducible apply pushRes_keeps | with_reducible apply storedDecoded_keeps
    | with_reducible apply liveDecoded_keeps | with_reducible apply keeps_ite
    | (have x := trivial; extract_lets +onlyGivenNames x; (fail_if_success have y : True := x); first | (refine keeps_step x ?_ (fun hx => ?_); focus dsimp -zeta only [x]; rotate_left; clear_value x; rotate_right) | skip)
    | split

theorem execDecodeResult_goes {o x0 x1 x2} (h0 : Keeps o x2) : Goes o (execDecodeResult x0 x1 x2) := by
  unfold execDecodeResult
  repeat' first
    | with_reducible assumption | with_reducible apply onTileCh_goes | with_reducible apply decodeResult_keeps
    | with_reducible apply goes_next

theorem sendWord_keeps {o x0 x1 x2 x3 x4} (h0 : Keeps o x0) : Keeps o (sendWord x0 x1 x2 x3 x4) := by
  unfold sendWord
  repeat' first
    | with_reducible assumption | with_reducible apply setPartner_keeps | with_reducible apply pushOut_keeps
    | with_reducible apply keeps_ite
    | (have x := trivial; extract_lets +onlyGivenNames x; (fail_if_success have y : True := x); first | (refine keeps_step x ?_ (fun hx => ?_); focus dsimp -zeta only [x]; rotate_left; clear_value x; rotate_right) | skip)

theorem pinFailed_keeps {o x0 x1 x2} (h0 : Keeps o x0) : Keeps o (pinFailed x0 x1 x2).1 := by
  unfold pinFailed
  repeat' first
    | with_reducible assumption | with_reducible apply pinCapture_keeps | with_reducible apply keeps_ite
    | with_reducible apply keeps_ite_fst
    | (have x := trivial; extract_lets +onlyGivenNames x; (fail_if_success have y : True := x); first | (refine keeps_step x ?_ (fun hx => ?_); focus dsimp -zeta only [x]; rotate_left; clear_value x; rotate_right) | skip)

theorem liveFails_keeps {o x0 x1 x2 x3} (h0 : Keeps o x0) : Keeps o (liveFails x0 x1 x2 x3) := by
  unfold liveFails
  repeat' first
    | simp -zeta only [↓keeps_mk, id_eq] | with_reducible assumption | (intro)
    | with_reducible apply pinFailed_keeps | with_reducible apply modDet_keeps | with_reducible apply keeps_ite
    | with_reducible apply keeps_ite_fst
    | (have x := trivial; extract_lets +onlyGivenNames x; (fail_if_success have y : True := x); first | (refine keeps_step x ?_ (fun hx => ?_); focus dsimp -zeta only [x]; rotate_left; clear_value x; rotate_right) | skip)

theorem rereadResult_keeps {o x0 x1 x2 x3 x4} (h0 : Keeps o x0) : Keeps o (rereadResult x0 x1 x2 x3 x4) := by
  unfold rereadResult
  repeat' first
    | simp -zeta only [↓keeps_mk, id_eq] | with_reducible assumption | (intro) | with_reducible apply modCtx_keeps
    | with_reducible apply pinFailed_keeps | with_reducible apply keeps_ite | with_reducible apply keeps_ite_fst
    | (have x := trivial; extract_lets +onlyGivenNames x; (fail_if_success have y : True := x); first | (refine keeps_step x ?_ (fun hx => ?_); focus dsimp -zeta only [x]; rotate_left; clear_value x; rotate_right) | skip)

theorem verified_keeps {o x0 x1 x2 x3} (h0 : Keeps o x0) : Keeps o (verified x0 x1 x2 x3) := by
  unfold verified
  repeat' first
    | simp -zeta only [↓keeps_mk, id_eq] | with_reducible assumption | (intro)
    | with_reducible apply modHeadW_keeps | with_reducible apply finishWrite_keeps
    | with_reducible apply bump_keeps | with_reducible apply modWr_keeps | with_reducible apply keeps_ite
    | (have x := trivial; extract_lets +onlyGivenNames x; (fail_if_success have y : True := x); first | (refine keeps_step x ?_ (fun hx => ?_); focus dsimp -zeta only [x]; rotate_left; clear_value x; rotate_right) | skip)
    | split

theorem liveResult_keeps {o x0 x1 x2 x3} (h0 : Keeps o x0) : Keeps o (liveResult x0 x1 x2 x3) := by
  unfold liveResult
  repeat' first
    | simp -zeta only [↓keeps_mk, id_eq] | with_reducible assumption | (intro) | with_reducible apply modDet_keeps
    | with_reducible apply wcnt_keeps | with_reducible apply verdict_keeps
    | with_reducible apply rereadResult_keeps | with_reducible apply verified_keeps
    | with_reducible apply sendWord_keeps | with_reducible apply liveFails_keeps | with_reducible apply keeps_ite
    | (have x := trivial; extract_lets +onlyGivenNames x; (fail_if_success have y : True := x); first | (refine keeps_step x ?_ (fun hx => ?_); focus dsimp -zeta only [x]; rotate_left; clear_value x; rotate_right) | skip)
    | split

theorem tellCtx_keeps {o x0 x1 x2 x3} (h0 : Keeps o x0) : Keeps o (tellCtx x0 x1 x2 x3) := by
  unfold tellCtx
  repeat' first
    | simp -zeta only [↓keeps_mk, id_eq] | with_reducible assumption | (intro) | with_reducible apply modCtx_keeps
    | with_reducible apply keeps_ite
    | (have x := trivial; extract_lets +onlyGivenNames x; (fail_if_success have y : True := x); first | (refine keeps_step x ?_ (fun hx => ?_); focus dsimp -zeta only [x]; rotate_left; clear_value x; rotate_right) | skip)

theorem storedResult_keeps {o x0 x1 x2 x3 x4} (h0 : Keeps o x0) : Keeps o (storedResult x0 x1 x2 x3 x4) := by
  unfold storedResult
  repeat' first
    | simp -zeta only [↓keeps_mk, id_eq] | with_reducible assumption | (intro) | with_reducible apply modDet_keeps
    | with_reducible apply opDone_keeps | with_reducible apply modCtx_keeps | with_reducible apply tellCtx_keeps
    | with_reducible apply keeps_ite
    | (have x := trivial; extract_lets +onlyGivenNames x; (fail_if_success have y : True := x); first | (refine keeps_step x ?_ (fun hx => ?_); focus dsimp -zeta only [x]; rotate_left; clear_value x; rotate_right) | (have _ : State → State := x; dsimp -zeta only [x]) | (have _ : Nat → State → State := x; dsimp -zeta only [x]) | (have _ : State → Nat → State := x; dsimp -zeta only [x]) | skip)
    | split

theorem formatterResult_keeps {o x0 x1} (h0 : Keeps o x0) : Keeps o (formatterResult x0 x1) := by
  unfold formatterResult
  repeat' first
    | simp -zeta only [↓keeps_mk, id_eq] | with_reducible assumption | with_reducible apply detPump_keeps
    | with_reducible apply setDet_keeps | with_reducible apply liveResult_keeps
    | with_reducible apply storedResult_keeps | with_reducible apply tellCtx_keeps
    | with_reducible apply fillOut_keeps
    | (have x := trivial; extract_lets +onlyGivenNames x; (fail_if_success have y : True := x); first | (refine keeps_step x ?_ (fun hx => ?_); focus dsimp -zeta only [x]; rotate_left; clear_value x; rotate_right) | skip)
    | split

theorem execFormatterResult_goes {o x0 x1} (h0 : Keeps o x1) : Goes o (execFormatterResult x0 x1) := by
  unfold execFormatterResult
  repeat' first
    | with_reducible assumption | with_reducible apply onTileCh_goes | with_reducible apply formatterResult_keeps
    | with_reducible apply goes_next

theorem sectorSend_keeps {o x0 x1} (h0 : Keeps o x0) : Keeps o (sectorSend x0 x1) := by
  unfold sectorSend
  repeat' first
    | simp -zeta only [↓keeps_mk, id_eq] | with_reducible assumption | with_reducible apply sendFlits_keeps
    | with_reducible apply setDet_keeps | with_reducible apply fillOut_keeps
    | with_reducible apply crossAtOnce_keeps | with_reducible apply keeps_ite
    | (have x := trivial; extract_lets +onlyGivenNames x; (fail_if_success have y : True := x); first | (refine keeps_step x ?_ (fun hx => ?_); focus dsimp -zeta only [x]; rotate_left; clear_value x; rotate_right) | skip)
    | split

theorem execSectorSend_goes {o x0 x1} (h0 : Keeps o x1) : Goes o (execSectorSend x0 x1) := by
  unfold execSectorSend
  repeat' first
    | with_reducible assumption | with_reducible apply onTileCh_goes | with_reducible apply sectorSend_keeps
    | with_reducible apply goes_next

theorem forgetCap_keeps {o x0 x1 x2 x3 x4} (h0 : Keeps o x0) : Keeps o (forgetCap x0 x1 x2 x3 x4) := by
  unfold forgetCap
  repeat' first
    | simp -zeta only [↓keeps_mk, id_eq] | with_reducible assumption | (intro) | with_reducible apply modCtx_keeps
    | with_reducible apply keeps_ite | with_reducible apply keeps_foldl
    | (have x := trivial; extract_lets +onlyGivenNames x; (fail_if_success have y : True := x); first | (refine keeps_step x ?_ (fun hx => ?_); focus dsimp -zeta only [x]; rotate_left; clear_value x; rotate_right) | skip)

theorem pinExpire_keeps {o x0 x1 x2 x3} (h0 : Keeps o x0) : Keeps o (pinExpire x0 x1 x2 x3) := by
  unfold pinExpire
  repeat' first
    | simp -zeta only [↓keeps_mk, id_eq] | with_reducible assumption | with_reducible apply tileEdge_keeps
    | with_reducible apply bump_keeps | with_reducible apply forgetCap_keeps | with_reducible apply endPin_keeps
    | with_reducible apply keeps_ite | split

theorem execPinExpire_goes {o x0 x1 x2 x3} (h0 : Keeps o x3) : Goes o (execPinExpire x0 x1 x2 x3) := by
  unfold execPinExpire
  repeat' first
    | with_reducible assumption | with_reducible apply onHeadCh_goes | with_reducible apply pinExpire_keeps
    | with_reducible apply goes_next

theorem noteSoft_keeps {o x0 x1 x2 x3 x4} (h0 : Keeps o x0) : Keeps o (noteSoft x0 x1 x2 x3 x4) := by
  unfold noteSoft
  repeat' first
    | simp -zeta only [↓keeps_mk, id_eq] | with_reducible assumption | (intro) | with_reducible apply modHead_keeps
    | with_reducible apply keeps_ite
    | (have x := trivial; extract_lets +onlyGivenNames x; (fail_if_success have y : True := x); first | (refine keeps_step x ?_ (fun hx => ?_); focus dsimp -zeta only [x]; rotate_left; clear_value x; rotate_right) | skip)

theorem storedOp_keeps {o x0 x1 x2 x3 x4} (h0 : Keeps o x0) (h1 : ∀ y0 y1 y2, Keeps o y0 → Keeps o (x4 y0 y1 y2)) :
    Keeps o (storedOp x0 x1 x2 x3 x4) := by
  unfold storedOp
  repeat' first
    | with_reducible assumption | (intro) | with_reducible apply detPump_keeps | with_reducible apply endOp_keeps
    | with_reducible apply h1 | with_reducible apply keeps_ite
    | (have x := trivial; extract_lets +onlyGivenNames x; (fail_if_success have y : True := x); first | (refine keeps_step x ?_ (fun hx => ?_); focus dsimp -zeta only [x]; rotate_left; clear_value x; rotate_right) | skip)
    | split

theorem countReads_keeps {o x0 x1 x2} (h0 : Keeps o x0) : Keeps o (countReads x0 x1 x2) := by
  unfold countReads
  repeat' first
    | with_reducible assumption | (intro) | with_reducible apply eccCount_keeps | with_reducible apply bump_keeps
    | with_reducible apply keeps_ite | with_reducible apply keeps_foldl
    | (have x := trivial; extract_lets +onlyGivenNames x; (fail_if_success have y : True := x); first | (refine keeps_step x ?_ (fun hx => ?_); focus dsimp -zeta only [x]; rotate_left; clear_value x; rotate_right) | skip)

theorem sendStored_keeps {o x0 x1 x2 x3 x4} (h0 : Keeps o x0) (h1 : Keeps o x1) :
    Keeps o (sendStored x0 x1 x2 x3 x4) := by
  unfold sendStored
  repeat' first
    | simp -zeta only [↓keeps_mk, id_eq] | with_reducible assumption | (intro) | with_reducible apply endOp_keeps
    | with_reducible apply modDet_keeps | with_reducible apply keeps_ite
    | (have x := trivial; extract_lets +onlyGivenNames x; (fail_if_success have y : True := x); first | (refine keeps_step x ?_ (fun hx => ?_); focus dsimp -zeta only [x]; rotate_left; clear_value x; rotate_right) | skip)

theorem redetect_keeps {o x0 x1 x2 x3 x4 x5 x6} (h0 : Keeps o x0) : Keeps o (redetect x0 x1 x2 x3 x4 x5 x6) := by
  unfold redetect
  repeat' first
    | with_reducible assumption | (intro) | with_reducible apply endOp_keeps
    | with_reducible apply countReads_keeps | with_reducible apply took_keeps | with_reducible apply noteSoft_keeps
    | with_reducible apply pushRes_keeps | with_reducible apply sendStored_keeps | with_reducible apply keeps_ite
    | with_reducible apply keeps_foldl
    | (have x := trivial; extract_lets +onlyGivenNames x; (fail_if_success have y : True := x); first | (refine keeps_step x ?_ (fun hx => ?_); focus dsimp -zeta only [x]; rotate_left; clear_value x; rotate_right) | (have _ : State → State := x; dsimp -zeta only [x]) | (have _ : Nat → State → State := x; dsimp -zeta only [x]) | (have _ : State → Nat → State := x; dsimp -zeta only [x]) | skip)
    | split

theorem execRedetect_goes {o x0 x1 x2} (h0 : Keeps o x2) : Goes o (execRedetect x0 x1 x2) := by
  unfold execRedetect
  repeat' first
    | with_reducible assumption | (intro) | with_reducible apply onTileCh_goes
    | with_reducible apply storedOp_keeps | with_reducible apply redetect_keeps | with_reducible apply goes_next
    | (have x := trivial; extract_lets +onlyGivenNames x; (fail_if_success have y : True := x); first | (refine goes_step x ?_ (fun hx => ?_); focus dsimp -zeta only [x]; rotate_left; clear_value x; rotate_right) | (refine keeps_step x ?_ (fun hx => ?_); focus dsimp -zeta only [x]; rotate_left; clear_value x; rotate_right) | skip)

theorem framebOp_keeps {o x0 x1 x2 x3 x4} (h0 : Keeps o x0) : Keeps o (framebOp x0 x1 x2 x3 x4) := by
  unfold framebOp
  repeat' first
    | simp -zeta only [↓keeps_mk, id_eq] | with_reducible assumption | (intro) | with_reducible apply endOp_keeps
    | with_reducible apply redetect_keeps | with_reducible apply keeps_ite
    | (have x := trivial; extract_lets +onlyGivenNames x; (fail_if_success have y : True := x); first | (refine keeps_step x ?_ (fun hx => ?_); focus dsimp -zeta only [x]; rotate_left; clear_value x; rotate_right) | (have _ : State → State := x; dsimp -zeta only [x]) | (have _ : Nat → State → State := x; dsimp -zeta only [x]) | (have _ : State → Nat → State := x; dsimp -zeta only [x]) | skip)
    | split

theorem execFrameb_goes {o x0 x1 x2} (h0 : Keeps o x2) : Goes o (execFrameb x0 x1 x2) := by
  unfold execFrameb
  repeat' first
    | with_reducible assumption | (intro) | with_reducible apply onTileCh_goes
    | with_reducible apply storedOp_keeps | with_reducible apply framebOp_keeps | with_reducible apply goes_next

theorem realignOp_keeps {o x0 x1 x2 x3 x4} (h0 : Keeps o x0) : Keeps o (realignOp x0 x1 x2 x3 x4) := by
  unfold realignOp
  repeat' first
    | simp -zeta only [↓keeps_mk, id_eq] | with_reducible assumption | (intro) | with_reducible apply endOp_keeps
    | with_reducible apply modDet_keeps | with_reducible apply redetect_keeps | with_reducible apply keeps_ite
    | with_reducible apply keeps_getD
    | (have x := trivial; extract_lets +onlyGivenNames x; (fail_if_success have y : True := x); first | (refine keeps_step x ?_ (fun hx => ?_); focus dsimp -zeta only [x]; rotate_left; clear_value x; rotate_right) | skip)
    | split

theorem execRealign_goes {o x0 x1 x2} (h0 : Keeps o x2) : Goes o (execRealign x0 x1 x2) := by
  unfold execRealign
  repeat' first
    | with_reducible assumption | (intro) | with_reducible apply onTileCh_goes
    | with_reducible apply storedOp_keeps | with_reducible apply realignOp_keeps | with_reducible apply goes_next

theorem partnerOp_keeps {o x0 x1 x2 x3 x4} (h0 : Keeps o x0) : Keeps o (partnerOp x0 x1 x2 x3 x4) := by
  unfold partnerOp
  repeat' first
    | simp -zeta only [↓keeps_mk, id_eq] | with_reducible assumption | with_reducible apply endOp_keeps
    | with_reducible apply redetect_keeps | with_reducible apply keeps_ite
    | (have x := trivial; extract_lets +onlyGivenNames x; (fail_if_success have y : True := x); first | (refine keeps_step x ?_ (fun hx => ?_); focus dsimp -zeta only [x]; rotate_left; clear_value x; rotate_right) | skip)
    | split

theorem execPartner_goes {o x0 x1 x2} (h0 : Keeps o x2) : Goes o (execPartner x0 x1 x2) := by
  unfold execPartner
  repeat' first
    | with_reducible assumption | (intro) | with_reducible apply onTileCh_goes
    | with_reducible apply storedOp_keeps | with_reducible apply partnerOp_keeps | with_reducible apply goes_next

theorem setSoft_keeps {o x0 x1 x2 x3} (h0 : Keeps o x0) : Keeps o (setSoft x0 x1 x2 x3) := by
  unfold setSoft
  repeat' first
    | simp -zeta only [↓keeps_mk, id_eq] | with_reducible assumption | (intro) | with_reducible apply setB_keeps
    | with_reducible apply modDet_keeps
    | (have x := trivial; extract_lets +onlyGivenNames x; (fail_if_success have y : True := x); first | (refine keeps_step x ?_ (fun hx => ?_); focus dsimp -zeta only [x]; rotate_left; clear_value x; rotate_right) | skip)

theorem execSave_goes {o x0 x1} (h0 : Keeps o x1) : Goes o (execSave x0 x1) := by
  unfold execSave
  repeat' first
    | with_reducible assumption | (intro) | with_reducible apply onTileCh_goes
    | with_reducible apply storedOp_keeps | with_reducible apply endOp_keeps | with_reducible apply setSoft_keeps
    | with_reducible apply keeps_ite | with_reducible apply goes_ite | with_reducible apply goes_next
    | (have x := trivial; extract_lets +onlyGivenNames x; (fail_if_success have y : True := x); first | (refine goes_step x ?_ (fun hx => ?_); focus dsimp -zeta only [x]; rotate_left; clear_value x; rotate_right) | (refine keeps_step x ?_ (fun hx => ?_); focus dsimp -zeta only [x]; rotate_left; clear_value x; rotate_right) | skip)

theorem combineOp_keeps {o x0 x1 x2 x3} (h0 : Keeps o x0) : Keeps o (combineOp x0 x1 x2 x3) := by
  unfold combineOp
  repeat' first
    | with_reducible assumption | (intro) | with_reducible apply endOp_keeps
    | with_reducible apply sendStored_keeps | with_reducible apply noteSoft_keeps | with_reducible apply keeps_ite
    | (have x := trivial; extract_lets +onlyGivenNames x; (fail_if_success have y : True := x); first | (refine keeps_step x ?_ (fun hx => ?_); focus dsimp -zeta only [x]; rotate_left; clear_value x; rotate_right) | skip)
    | split

theorem execCombine_goes {o x0 x1} (h0 : Keeps o x1) : Goes o (execCombine x0 x1) := by
  unfold execCombine
  repeat' first
    | with_reducible assumption | (intro) | with_reducible apply onTileCh_goes
    | with_reducible apply storedOp_keeps | with_reducible apply combineOp_keeps | with_reducible apply goes_next

theorem execFree_goes {o x0 x1} (h0 : Keeps o x1) : Goes o (execFree x0 x1) := by
  unfold execFree
  repeat' first
    | simp -zeta only [↓keeps_mk, id_eq] | with_reducible assumption | (intro) | with_reducible apply onTileCh_goes
    | with_reducible apply storedOp_keeps | with_reducible apply setSoft_keeps | with_reducible apply modCtx_keeps
    | with_reducible apply endOp_keeps | with_reducible apply keeps_ite | with_reducible apply goes_ite
    | with_reducible apply goes_next
    | (have x := trivial; extract_lets +onlyGivenNames x; (fail_if_success have y : True := x); first | (refine goes_step x ?_ (fun hx => ?_); focus dsimp -zeta only [x]; rotate_left; clear_value x; rotate_right) | (refine keeps_step x ?_ (fun hx => ?_); focus dsimp -zeta only [x]; rotate_left; clear_value x; rotate_right) | skip)

theorem execRelease_goes {o x0 x1} (h0 : Keeps o x1) : Goes o (execRelease x0 x1) := by
  unfold execRelease
  repeat' first
    | simp -zeta only [↓keeps_mk, id_eq] | with_reducible assumption | (intro) | with_reducible apply onTileCh_goes
    | with_reducible apply storedOp_keeps | with_reducible apply releaseCap_keeps
    | with_reducible apply endOp_keeps | with_reducible apply modCtx_keeps | with_reducible apply keeps_ite
    | with_reducible apply goes_ite | with_reducible apply goes_next
    | (have x := trivial; extract_lets +onlyGivenNames x; (fail_if_success have y : True := x); first | (refine goes_step x ?_ (fun hx => ?_); focus dsimp -zeta only [x]; rotate_left; clear_value x; rotate_right) | (refine keeps_step x ?_ (fun hx => ?_); focus dsimp -zeta only [x]; rotate_left; clear_value x; rotate_right) | skip)

theorem planned_keeps {o x0 x1 x2 x3 x4} (h0 : Keeps o x0) : Keeps o (planned x0 x1 x2 x3 x4) := by
  unfold planned
  repeat' first
    | simp -zeta only [↓keeps_mk, id_eq] | with_reducible assumption | (intro) | with_reducible apply modCtx_keeps
    | (have x := trivial; extract_lets +onlyGivenNames x; (fail_if_success have y : True := x); first | (refine keeps_step x ?_ (fun hx => ?_); focus dsimp -zeta only [x]; rotate_left; clear_value x; rotate_right) | skip)

theorem nextReread_keeps {o x0 x1 x2 x3 x4 x5} (h0 : Keeps o x0) : Keeps o (nextReread x0 x1 x2 x3 x4 x5) := by
  unfold nextReread
  repeat' first
    | simp -zeta only [↓keeps_mk, id_eq] | with_reducible assumption | (intro) | with_reducible apply planned_keeps
    | with_reducible apply modCtx_keeps | with_reducible apply keeps_ite
    | (have x := trivial; extract_lets +onlyGivenNames x; (fail_if_success have y : True := x); first | (refine keeps_step x ?_ (fun hx => ?_); focus dsimp -zeta only [x]; rotate_left; clear_value x; rotate_right) | skip)
    | split

theorem afterCapture_keeps {o x0 x1 x2} (h0 : Keeps o x0) : Keeps o (afterCapture x0 x1 x2) := by
  unfold afterCapture
  repeat' first
    | simp -zeta only [↓keeps_mk, id_eq] | with_reducible assumption | (intro)
    | with_reducible apply nextReread_keeps | with_reducible apply modCtx_keeps | with_reducible apply keeps_ite
    | (have x := trivial; extract_lets +onlyGivenNames x; (fail_if_success have y : True := x); first | (refine keeps_step x ?_ (fun hx => ?_); focus dsimp -zeta only [x]; rotate_left; clear_value x; rotate_right) | skip)

theorem captureLost_keeps {o x0 x1 x2} (h0 : Keeps o x0) : Keeps o (captureLost x0 x1 x2) := by
  unfold captureLost
  repeat' first
    | with_reducible assumption | with_reducible apply planned_keeps | with_reducible apply afterCapture_keeps
    | with_reducible apply keeps_ite
    | (have x := trivial; extract_lets +onlyGivenNames x; (fail_if_success have y : True := x); first | (refine keeps_step x ?_ (fun hx => ?_); focus dsimp -zeta only [x]; rotate_left; clear_value x; rotate_right) | skip)
    | split

theorem tryCombine_keeps {o x0 x1 x2} (h0 : Keeps o x0) : Keeps o (tryCombine x0 x1 x2) := by
  unfold tryCombine
  repeat' first
    | with_reducible assumption | with_reducible apply planned_keeps | with_reducible apply captureLost_keeps
    | with_reducible apply keeps_ite
    | (have x := trivial; extract_lets +onlyGivenNames x; (fail_if_success have y : True := x); first | (refine keeps_step x ?_ (fun hx => ?_); focus dsimp -zeta only [x]; rotate_left; clear_value x; rotate_right) | skip)
    | split

theorem nextTarget_keeps {o x0 x1 x2 x3} (h0 : Keeps o x0) : Keeps o (nextTarget x0 x1 x2 x3) := by
  unfold nextTarget
  repeat' first
    | with_reducible assumption | with_reducible apply planned_keeps | with_reducible apply captureLost_keeps
    | with_reducible apply keeps_ite | split

theorem afterL2_keeps {o x0 x1 x2} (h0 : Keeps o x0) : Keeps o (afterL2 x0 x1 x2) := by
  unfold afterL2
  repeat' first
    | with_reducible assumption | (intro) | with_reducible apply nextTarget_keeps
    | with_reducible apply tryCombine_keeps | with_reducible apply keeps_ite
    | (have x := trivial; extract_lets +onlyGivenNames x; (fail_if_success have y : True := x); first | (refine keeps_step x ?_ (fun hx => ?_); focus dsimp -zeta only [x]; rotate_left; clear_value x; rotate_right) | skip)
    | split

theorem runL2_keeps {o x0 x1 x2} (h0 : Keeps o x0) : Keeps o (runL2 x0 x1 x2) := by
  unfold runL2
  repeat' first
    | simp -zeta only [↓keeps_mk, id_eq] | with_reducible assumption | (intro)
    | with_reducible apply afterCapture_keeps | with_reducible apply afterL2_keeps
    | with_reducible apply planned_keeps | with_reducible apply keeps_ite
    | (have x := trivial; extract_lets +onlyGivenNames x; (fail_if_success have y : True := x); first | (refine keeps_step x ?_ (fun hx => ?_); focus dsimp -zeta only [x]; rotate_left; clear_value x; rotate_right) | skip)
    | split

theorem runL1_keeps {o x0 x1 x2 x3} (h0 : Keeps o x0) : Keeps o (runL1 x0 x1 x2 x3) := by
  unfold runL1
  repeat' first
    | with_reducible assumption | with_reducible apply afterCapture_keeps | with_reducible apply runL2_keeps
    | with_reducible apply planned_keeps | with_reducible apply keeps_ite
    | (have x := trivial; extract_lets +onlyGivenNames x; (fail_if_success have y : True := x); first | (refine keeps_step x ?_ (fun hx => ?_); focus dsimp -zeta only [x]; rotate_left; clear_value x; rotate_right) | skip)

theorem enterImage_keeps {o x0 x1 x2 x3} (h0 : Keeps o x0) : Keeps o (enterImage x0 x1 x2 x3) := by
  unfold enterImage
  repeat' first
    | with_reducible assumption | with_reducible apply runL1_keeps | with_reducible apply runL2_keeps
    | with_reducible apply nextReread_keeps | with_reducible apply keeps_ite
    | (have x := trivial; extract_lets +onlyGivenNames x; (fail_if_success have y : True := x); first | (refine keeps_step x ?_ (fun hx => ?_); focus dsimp -zeta only [x]; rotate_left; clear_value x; rotate_right) | skip)

theorem acceptRel_keeps {o x0 x1 x2} (h0 : Keeps o x0) : Keeps o (acceptRel x0 x1 x2) := by
  unfold acceptRel
  repeat' first
    | simp -zeta only [↓keeps_mk, id_eq] | with_reducible assumption | (intro) | with_reducible apply planned_keeps
    | with_reducible apply modCtx_keeps
    | (have x := trivial; extract_lets +onlyGivenNames x; (fail_if_success have y : True := x); first | (refine keeps_step x ?_ (fun hx => ?_); focus dsimp -zeta only [x]; rotate_left; clear_value x; rotate_right) | skip)

theorem resumeImage_keeps {o x0 x1 x2 x3 x4} (h0 : Keeps o x0) : Keeps o (resumeImage x0 x1 x2 x3 x4) := by
  unfold resumeImage
  repeat' first
    | simp -zeta only [↓keeps_mk, id_eq] | with_reducible assumption | (intro) | with_reducible apply planned_keeps
    | with_reducible apply modCtx_keeps | with_reducible apply nextReread_keeps
    | with_reducible apply acceptRel_keeps | with_reducible apply runL2_keeps | with_reducible apply afterL2_keeps
    | with_reducible apply nextTarget_keeps | with_reducible apply captureLost_keeps
    | with_reducible apply afterCapture_keeps | with_reducible apply runL1_keeps | with_reducible apply keeps_ite
    | (have x := trivial; extract_lets +onlyGivenNames x; (fail_if_success have y : True := x); first | (refine keeps_step x ?_ (fun hx => ?_); focus dsimp -zeta only [x]; rotate_left; clear_value x; rotate_right) | skip)
    | split

theorem deliverResult_keeps {o x0 x1 x2 x3} (h0 : Keeps o x0) : Keeps o (deliverResult x0 x1 x2 x3) := by
  unfold deliverResult
  repeat' first
    | simp -zeta only [↓keeps_mk, id_eq] | with_reducible assumption | (intro)
    | with_reducible apply resumeWith_keeps | with_reducible apply setCtx_keeps
    | with_reducible apply resumeImage_keeps | with_reducible apply keeps_ite
    | (have x := trivial; extract_lets +onlyGivenNames x; (fail_if_success have y : True := x); first | (refine keeps_step x ?_ (fun hx => ?_); focus dsimp -zeta only [x]; rotate_left; clear_value x; rotate_right) | skip)
    | split

theorem execHres_goes {o x0 x1 x2} (h0 : Keeps o x2) : Goes o (execHres x0 x1 x2) := by
  unfold execHres
  repeat' first
    | with_reducible assumption | with_reducible apply onTile_goes | with_reducible apply deliverResult_keeps
    | with_reducible apply keeps_ite | with_reducible apply goes_ite | with_reducible apply goes_next
    | exact goes_fault

theorem execRres_goes {o x0 x1 x2} (h0 : Keeps o x2) : Goes o (execRres x0 x1 x2) := by
  unfold execRres
  repeat' first
    | with_reducible assumption | with_reducible apply onTile_goes | with_reducible apply deliverResult_keeps
    | with_reducible apply keeps_ite | with_reducible apply goes_ite | with_reducible apply goes_next
    | exact goes_fault

theorem dropLast_keeps {o x0 x1 x2} (h0 : Keeps o x0) : Keeps o (dropLast x0 x1 x2) := by
  unfold dropLast
  repeat' first
    | with_reducible assumption | with_reducible apply dropCtx_keeps | with_reducible apply keeps_ite

theorem returnSector_keeps {o x0 x1 x2 x3} (h0 : Keeps o x0) : Keeps o (returnSector x0 x1 x2 x3) := by
  unfold returnSector
  repeat' first
    | simp -zeta only [↓keeps_mk, id_eq] | with_reducible assumption | (intro)
    | with_reducible apply releaseCap_keeps | with_reducible apply extendDeadline_keeps
    | with_reducible apply tileEdge_keeps | with_reducible apply bump_keeps | with_reducible apply modHead_keeps
    | with_reducible apply keeps_ite
    | (have x := trivial; extract_lets +onlyGivenNames x; (fail_if_success have y : True := x); first | (refine keeps_step x ?_ (fun hx => ?_); focus dsimp -zeta only [x]; rotate_left; clear_value x; rotate_right) | skip)
    | split

theorem openCtx_keeps {o x0 x1 x2 x3 x4 x5 x6} (h0 : Keeps o x0) : Keeps o (openCtx x0 x1 x2 x3 x4 x5 x6) := by
  unfold openCtx
  repeat' first
    | simp -zeta only [↓keeps_mk, id_eq] | with_reducible assumption | with_reducible apply returnSector_keeps
    | with_reducible apply setCtx_keeps | with_reducible apply countCtxs_keeps | with_reducible apply bump_keeps
    | with_reducible apply startThread_keeps | with_reducible apply enterImage_keeps
    | with_reducible apply dropCtx_keeps | with_reducible apply dropLast_keeps | with_reducible apply keeps_ite
    | (have x := trivial; extract_lets +onlyGivenNames x; (fail_if_success have y : True := x); first | (refine keeps_step x ?_ (fun hx => ?_); focus dsimp -zeta only [x]; rotate_left; clear_value x; rotate_right) | skip)
    | split

theorem ladderEntry_keeps {o x0 x1} (h0 : Keeps o x0) : Keeps o (ladderEntry x0 x1) := by
  unfold ladderEntry
  repeat' first
    | simp -zeta only [↓keeps_mk, id_eq] | with_reducible assumption | with_reducible apply openCtx_keeps
    | with_reducible apply setDet_keeps
    | (have x := trivial; extract_lets +onlyGivenNames x; (fail_if_success have y : True := x); first | (refine keeps_step x ?_ (fun hx => ?_); focus dsimp -zeta only [x]; rotate_left; clear_value x; rotate_right) | skip)
    | split

theorem execLadderEntry_goes {o x0 x1} (h0 : Keeps o x1) : Goes o (execLadderEntry x0 x1) := by
  unfold execLadderEntry
  repeat' first
    | with_reducible assumption | with_reducible apply onTileCh_goes | with_reducible apply ladderEntry_keeps
    | with_reducible apply goes_next

theorem tagReturn_keeps {o x0 x1 x2} (h0 : Keeps o x0) : Keeps o (tagReturn x0 x1 x2) := by
  unfold tagReturn
  repeat' first
    | simp -zeta only [↓keeps_mk, id_eq] | with_reducible assumption | with_reducible apply openCtx_keeps
    | with_reducible apply setCtx_keeps | with_reducible apply deliverResult_keeps | with_reducible apply keeps_ite
    | (have x := trivial; extract_lets +onlyGivenNames x; (fail_if_success have y : True := x); first | (refine keeps_step x ?_ (fun hx => ?_); focus dsimp -zeta only [x]; rotate_left; clear_value x; rotate_right) | skip)
    | split

theorem execTagFailureReturn_goes {o x0 x1} (h0 : Keeps o x1) : Goes o (execTagFailureReturn x0 x1) := by
  unfold execTagFailureReturn
  repeat' first
    | simp -zeta only [↓keeps_mk, id_eq] | with_reducible assumption | with_reducible apply onTileCh_goes
    | with_reducible apply tagReturn_keeps | with_reducible apply crossAtOnce_keeps
    | with_reducible apply setDet_keeps | with_reducible apply keeps_ite | with_reducible apply goes_ite
    | with_reducible apply goes_next
    | (have x := trivial; extract_lets +onlyGivenNames x; (fail_if_success have y : True := x); first | (refine goes_step x ?_ (fun hx => ?_); focus dsimp -zeta only [x]; rotate_left; clear_value x; rotate_right) | (refine keeps_step x ?_ (fun hx => ?_); focus dsimp -zeta only [x]; rotate_left; clear_value x; rotate_right) | skip)
    | split

theorem bookReread_keeps {o x0 x1 x2 x3 x4} (h0 : Keeps o x0) : Keeps o (bookReread x0 x1 x2 x3 x4) := by
  unfold bookReread
  repeat' first
    | simp -zeta only [↓keeps_mk, id_eq] | with_reducible assumption | (intro) | with_reducible apply dropCtx_keeps
    | with_reducible apply bump_keeps | with_reducible apply setCtx_keeps | with_reducible apply wakeHead_keeps
    | with_reducible apply modHead_keeps | with_reducible apply keeps_ite
    | (have x := trivial; extract_lets +onlyGivenNames x; (fail_if_success have y : True := x); first | (refine keeps_step x ?_ (fun hx => ?_); focus dsimp -zeta only [x]; rotate_left; clear_value x; rotate_right) | skip)

theorem deferWindow_keeps {o x0 x1 x2 x3 x4} (h0 : Keeps o x0) : Keeps o (deferWindow x0 x1 x2 x3 x4) := by
  unfold deferWindow
  repeat' first
    | simp -zeta only [↓keeps_mk, id_eq] | with_reducible assumption | (intro) | with_reducible apply setHead_keeps
    | with_reducible apply deferWants_keeps
    | (have x := trivial; extract_lets +onlyGivenNames x; (fail_if_success have y : True := x); first | (refine keeps_step x ?_ (fun hx => ?_); focus dsimp -zeta only [x]; rotate_left; clear_value x; rotate_right) | (have _ : State → State := x; dsimp -zeta only [x]) | (have _ : Nat → State → State := x; dsimp -zeta only [x]) | (have _ : State → Nat → State := x; dsimp -zeta only [x]) | skip)
    | split

theorem putAway_keeps {o x0 x1 x2 x3 x4} (h0 : Keeps o x0) : Keeps o (putAway x0 x1 x2 x3 x4) := by
  unfold putAway
  repeat' first
    | with_reducible assumption | (intro) | with_reducible apply modHeadS_keeps | with_reducible apply setB_keeps
    | with_reducible apply keeps_ite | with_reducible apply keeps_foldl

theorem combBack_keeps {o x0 x1 x2} (h0 : Keeps o x0) : Keeps o (combBack x0 x1 x2) := by
  unfold combBack
  repeat' first
    | with_reducible assumption | (intro) | with_reducible apply modHeadS_keeps | with_reducible apply modCtl_keeps
    | with_reducible apply keeps_foldl

theorem bookingStart_keeps {o x0 x1 x2 x3} (h0 : Keeps o x0) : Keeps o (bookingStart x0 x1 x2 x3) := by
  unfold bookingStart
  repeat' first
    | simp -zeta only [↓keeps_mk, id_eq] | with_reducible assumption | (intro)
    | with_reducible apply deferWindow_keeps | with_reducible apply setHead_keeps | with_reducible apply setB_keeps
    | with_reducible apply setRef_keeps | with_reducible apply modCtl_keeps | with_reducible apply bump_keeps
    | with_reducible apply putAway_keeps | with_reducible apply keeps_ite | with_reducible apply keeps_foldl
    | (have x := trivial; extract_lets +onlyGivenNames x; (fail_if_success have y : True := x); first | (refine keeps_step x ?_ (fun hx => ?_); focus dsimp -zeta only [x]; rotate_left; clear_value x; rotate_right) | clear_value x | skip)
    | split

theorem execBookingStart_goes {o x0 x1 x2 x3} (h0 : Keeps o x3) : Goes o (execBookingStart x0 x1 x2 x3) := by
  unfold execBookingStart
  repeat' first
    | with_reducible assumption | with_reducible apply onHeadCh_goes | with_reducible apply bookingStart_keeps
    | with_reducible apply goes_next

theorem bookingEnd_keeps {o x0 x1 x2 x3} (h0 : Keeps o x0) : Keeps o (bookingEnd x0 x1 x2 x3) := by
  unfold bookingEnd
  repeat' first
    | simp -zeta only [↓keeps_mk, id_eq] | with_reducible assumption | (intro)
    | with_reducible apply deferWindow_keeps | with_reducible apply setHead_keeps
    | with_reducible apply extendDeadline_keeps | with_reducible apply deferN_keeps
    | with_reducible apply modCtx_keeps | with_reducible apply setB_keeps | with_reducible apply setRef_keeps
    | with_reducible apply headGo_keeps | with_reducible apply modCtl_keeps | with_reducible apply combBack_keeps
    | with_reducible apply keeps_ite | with_reducible apply keeps_foldl
    | (have x := trivial; extract_lets +onlyGivenNames x; (fail_if_success have y : True := x); first | (refine keeps_step x ?_ (fun hx => ?_); focus dsimp -zeta only [x]; rotate_left; clear_value x; rotate_right) | (have _ : State → State := x; dsimp -zeta only [x]) | (have _ : Nat → State → State := x; dsimp -zeta only [x]) | (have _ : State → Nat → State := x; dsimp -zeta only [x]) | skip)
    | split

theorem execBookingEnd_goes {o x0 x1 x2 x3} (h0 : Keeps o x3) : Goes o (execBookingEnd x0 x1 x2 x3) := by
  unfold execBookingEnd
  repeat' first
    | with_reducible assumption | with_reducible apply onHeadCh_goes | with_reducible apply bookingEnd_keeps
    | with_reducible apply goes_next

theorem histPost_keeps {o x0 x1 x2 x3} (h0 : Keeps o x0) : Keeps o (histPost x0 x1 x2 x3) := by
  unfold histPost
  repeat' first
    | simp -zeta only [↓keeps_mk, id_eq] | with_reducible assumption | (intro) | with_reducible apply pushRes_keeps
    | with_reducible apply detPump_keeps | with_reducible apply modDet_keeps | with_reducible apply keeps_ite
    | (have x := trivial; extract_lets +onlyGivenNames x; (fail_if_success have y : True := x); first | (refine keeps_step x ?_ (fun hx => ?_); focus dsimp -zeta only [x]; rotate_left; clear_value x; rotate_right) | skip)

theorem acceptCtx_may {o x0 x1 x2} (h0 : Keeps o x0) : May o (acceptCtx x0 x1 x2) := by
  unfold acceptCtx
  repeat' first
    | simp -zeta only [↓keeps_mk, id_eq] | with_reducible assumption | with_reducible apply setCtx_keeps
    | with_reducible apply sendWord_keeps | with_reducible apply countCtxs_keeps
    | with_reducible apply endThreadOf_keeps | with_reducible apply endCtx_keeps | with_reducible apply bump_keeps
    | with_reducible apply keeps_ite | with_reducible apply may_some | exact may_none
    | with_reducible apply keeps_getD
    | (have x := trivial; extract_lets +onlyGivenNames x; (fail_if_success have y : True := x); first | (refine may_step x ?_ (fun hx => ?_); focus dsimp -zeta only [x]; rotate_left; clear_value x; rotate_right) | (refine keeps_step x ?_ (fun hx => ?_); focus dsimp -zeta only [x]; rotate_left; clear_value x; rotate_right) | skip)
    | split

theorem recoverCtx_keeps {o x0 x1 x2} (h0 : Keeps o x0) : Keeps o (recoverCtx x0 x1 x2) := by
  unfold recoverCtx
  repeat' first
    | with_reducible assumption | with_reducible apply tileNotice_keeps | with_reducible apply endCtx_keeps
    | with_reducible apply bump_keeps | with_reducible apply keeps_ite
    | (have x := trivial; extract_lets +onlyGivenNames x; (fail_if_success have y : True := x); first | (refine keeps_step x ?_ (fun hx => ?_); focus dsimp -zeta only [x]; rotate_left; clear_value x; rotate_right) | skip)

theorem dropPost_keeps {o x0 x1 x2} (h0 : Keeps o x0) : Keeps o (dropPost x0 x1 x2) := by
  unfold dropPost
  repeat' first
    | with_reducible assumption | with_reducible apply dropLast_keeps | with_reducible apply keeps_ite

theorem stepPost_keeps {o x0 x1 x2 x3} (h0 : Keeps o x0) : Keeps o (stepPost x0 x1 x2 x3) := by
  unfold stepPost
  repeat' first
    | simp -zeta only [↓keeps_mk, id_eq] | with_reducible assumption | with_reducible apply dropLast_keeps
    | with_reducible apply setCtx_keeps | with_reducible apply keeps_ite
    | (have x := trivial; extract_lets +onlyGivenNames x; (fail_if_success have y : True := x); first | (refine keeps_step x ?_ (fun hx => ?_); focus dsimp -zeta only [x]; rotate_left; clear_value x; rotate_right) | skip)

theorem slotPost_keeps {o x0 x1 x2} (h0 : Keeps o x0) : Keeps o (slotPost x0 x1 x2) := by
  unfold slotPost
  repeat' first
    | simp -zeta only [↓keeps_mk, id_eq] | with_reducible assumption | (intro) | with_reducible apply modDet_keeps
    | with_reducible apply setCtx_keeps | with_reducible apply keeps_ite
    | (have x := trivial; extract_lets +onlyGivenNames x; (fail_if_success have y : True := x); first | (refine keeps_step x ?_ (fun hx => ?_); focus dsimp -zeta only [x]; rotate_left; clear_value x; rotate_right) | skip)
    | split

theorem sectorEncode_keeps {o x0 x1} (h0 : Keeps o x0) : Keeps o (sectorEncode x0 x1) := by
  unfold sectorEncode
  repeat' first
    | simp -zeta only [↓keeps_mk, id_eq] | with_reducible assumption | (intro) | with_reducible apply setWr_keeps
    | with_reducible apply freeCredits_keeps | with_reducible apply modWrQ_keeps
    | with_reducible apply headGo_keeps | with_reducible apply wakeHead_keeps | with_reducible apply keeps_ite
    | (have x := trivial; extract_lets +onlyGivenNames x; (fail_if_success have y : True := x); first | (refine keeps_step x ?_ (fun hx => ?_); focus dsimp -zeta only [x]; rotate_left; clear_value x; rotate_right) | skip)
    | split

theorem execSectorEncode_goes {o x0 x1} (h0 : Keeps o x1) : Goes o (execSectorEncode x0 x1) := by
  unfold execSectorEncode
  repeat' first
    | with_reducible assumption | with_reducible apply onTileCh_goes | with_reducible apply sectorEncode_keeps
    | with_reducible apply goes_next

theorem partnerRead_keeps {o x0 x1 x2 x3} (h0 : Keeps o x0) : Keeps o (partnerRead x0 x1 x2 x3) := by
  unfold partnerRead
  repeat' first
    | simp -zeta only [↓keeps_mk, id_eq] | with_reducible assumption | (intro)
    | with_reducible apply modHeadW_keeps | with_reducible apply setPartner_keeps
    | with_reducible apply wantSectors_keeps | with_reducible apply keeps_ite | with_reducible apply keeps_foldl
    | (have x := trivial; extract_lets +onlyGivenNames x; (fail_if_success have y : True := x); first | (refine keeps_step x ?_ (fun hx => ?_); focus dsimp -zeta only [x]; rotate_left; clear_value x; rotate_right) | skip)
    | split

theorem execPartnerRead_goes {o x0 x1 x2 x3} (h0 : Keeps o x3) : Goes o (execPartnerRead x0 x1 x2 x3) := by
  unfold execPartnerRead
  repeat' first
    | with_reducible assumption | with_reducible apply onHeadCh_goes | with_reducible apply partnerRead_keeps
    | with_reducible apply goes_next

theorem partnerRewrite_keeps {o x0 x1 x2 x3} (h0 : Keeps o x0) : Keeps o (partnerRewrite x0 x1 x2 x3) := by
  unfold partnerRewrite
  repeat' first
    | simp -zeta only [↓keeps_mk, id_eq] | with_reducible assumption | (intro)
    | with_reducible apply setHeadW_keeps | with_reducible apply modWr_keeps
    | (have x := trivial; extract_lets +onlyGivenNames x; (fail_if_success have y : True := x); first | (refine keeps_step x ?_ (fun hx => ?_); focus dsimp -zeta only [x]; rotate_left; clear_value x; rotate_right) | (have _ : State → State := x; dsimp -zeta only [x]) | (have _ : Nat → State → State := x; dsimp -zeta only [x]) | (have _ : State → Nat → State := x; dsimp -zeta only [x]) | skip)
    | split

theorem execPartnerRewrite_goes {o x0 x1 x2 x3} (h0 : Keeps o x3) : Goes o (execPartnerRewrite x0 x1 x2 x3) := by
  unfold execPartnerRewrite
  repeat' first
    | with_reducible assumption | with_reducible apply onHeadCh_goes | with_reducible apply partnerRewrite_keeps
    | with_reducible apply goes_next

theorem refuseEntry_may {o x0 x1 x2 x3 x4} (h0 : Keeps o x0) : May o (refuseEntry x0 x1 x2 x3 x4) := by
  unfold refuseEntry
  repeat' first
    | simp -zeta only [↓keeps_mk, id_eq] | with_reducible assumption | (intro)
    | with_reducible apply finishWrite_keeps | with_reducible apply owlHead_keeps
    | with_reducible apply modHeadW_keeps | with_reducible apply keeps_ite | with_reducible apply may_some
    | exact may_none | with_reducible apply keeps_foldl | with_reducible apply keeps_getD
    | (have x := trivial; extract_lets +onlyGivenNames x; (fail_if_success have y : True := x); first | (refine may_step x ?_ (fun hx => ?_); focus dsimp -zeta only [x]; rotate_left; clear_value x; rotate_right) | (refine keeps_step x ?_ (fun hx => ?_); focus dsimp -zeta only [x]; rotate_left; clear_value x; rotate_right) | (have _ : State → State := x; dsimp -zeta only [x]) | (have _ : Nat → State → State := x; dsimp -zeta only [x]) | (have _ : State → Nat → State := x; dsimp -zeta only [x]) | skip)
    | with_reducible apply keeps_mk_free | with_reducible apply keeps_mk_filter | split

theorem serialiserTake_keeps {o x0 x1 x2 x3 x4} (h0 : Keeps o x0) : Keeps o (serialiserTake x0 x1 x2 x3 x4) := by
  unfold serialiserTake
  repeat' first
    | simp -zeta only [↓keeps_mk, id_eq] | with_reducible assumption | (intro) | with_reducible apply modWrQ_keeps
    | with_reducible apply refuseEntry_may | exact May.of ‹_› (refuseEntry_may (by with_reducible assumption))
    | with_reducible apply setHeadW_keeps | with_reducible apply headGo_keeps | with_reducible apply bump_keeps
    | with_reducible apply keeps_ite
    | (have x := trivial; extract_lets +onlyGivenNames x; (fail_if_success have y : True := x); first | (refine keeps_step x ?_ (fun hx => ?_); focus dsimp -zeta only [x]; rotate_left; clear_value x; rotate_right) | skip)
    | split

theorem execSerialiserTake_goes {o x0 x1 x2 x3 x4} (h0 : Keeps o x4) :
    Goes o (execSerialiserTake x0 x1 x2 x3 x4) := by
  unfold execSerialiserTake
  repeat' first
    | with_reducible assumption | with_reducible apply onHeadCh_goes | with_reducible apply serialiserTake_keeps
    | with_reducible apply goes_next

theorem writeHeat_keeps {o x0 x1 x2 x3} (h0 : Keeps o x0) : Keeps o (writeHeat x0 x1 x2 x3) := by
  unfold writeHeat
  repeat' first
    | simp -zeta only [↓keeps_mk, id_eq] | with_reducible assumption | (intro)
    | with_reducible apply sendHeat_keeps | with_reducible apply sendMode_keeps | with_reducible apply setB_keeps
    | with_reducible apply modHeadW_keeps | with_reducible apply keeps_ite
    | (have x := trivial; extract_lets +onlyGivenNames x; (fail_if_success have y : True := x); first | (refine keeps_step x ?_ (fun hx => ?_); focus dsimp -zeta only [x]; rotate_left; clear_value x; rotate_right) | skip)

theorem execWriteHeat_goes {o x0 x1 x2 x3} (h0 : Keeps o x3) : Goes o (execWriteHeat x0 x1 x2 x3) := by
  unfold execWriteHeat
  repeat' first
    | with_reducible assumption | with_reducible apply onHeadCh_goes | with_reducible apply writeHeat_keeps
    | with_reducible apply goes_next

theorem writeRunEnd_keeps {o x0 x1 x2 x3} (h0 : Keeps o x0) : Keeps o (writeRunEnd x0 x1 x2 x3) := by
  unfold writeRunEnd
  repeat' first
    | simp -zeta only [↓keeps_mk, id_eq] | with_reducible assumption | with_reducible apply setHeadW_keeps
    | with_reducible apply setB_keeps | with_reducible apply sendHeat_keeps | with_reducible apply sendMode_keeps
    | with_reducible apply keeps_ite
    | (have x := trivial; extract_lets +onlyGivenNames x; (fail_if_success have y : True := x); first | (refine keeps_step x ?_ (fun hx => ?_); focus dsimp -zeta only [x]; rotate_left; clear_value x; rotate_right) | skip)

theorem execWriteRunEnd_goes {o x0 x1 x2 x3} (h0 : Keeps o x3) : Goes o (execWriteRunEnd x0 x1 x2 x3) := by
  unfold execWriteRunEnd
  repeat' first
    | with_reducible assumption | with_reducible apply onHeadCh_goes | with_reducible apply writeRunEnd_keeps
    | with_reducible apply goes_next

theorem burstOut_keeps {o x0 x1 x2 x3 x4 x5 x6 x7 x8} (h0 : Keeps o x0) :
    Keeps o (burstOut x0 x1 x2 x3 x4 x5 x6 x7 x8) := by
  unfold burstOut
  repeat' first
    | with_reducible assumption | with_reducible apply emit_keeps | with_reducible apply keeps_ite
    | (have x := trivial; extract_lets +onlyGivenNames x; (fail_if_success have y : True := x); first | (refine keeps_step x ?_ (fun hx => ?_); focus dsimp -zeta only [x]; rotate_left; clear_value x; rotate_right) | skip)

theorem sendBurst_keeps {o x0 x1 x2 x3 x4 x5} (h0 : Keeps o x0) : Keeps o (sendBurst x0 x1 x2 x3 x4 x5) := by
  unfold sendBurst
  repeat' first
    | with_reducible assumption | with_reducible apply burstOut_keeps | with_reducible apply keeps_ite
    | (have x := trivial; extract_lets +onlyGivenNames x; (fail_if_success have y : True := x); first | (refine keeps_step x ?_ (fun hx => ?_); focus dsimp -zeta only [x]; rotate_left; clear_value x; rotate_right) | skip)

theorem burstStart_keeps {o x0 x1 x2 x3} (h0 : Keeps o x0) : Keeps o (burstStart x0 x1 x2 x3) := by
  unfold burstStart
  repeat' first
    | exact May.of ‹_› (refuseEntry_may (setHeadW_keeps h0)) | simp -zeta only [↓keeps_mk, id_eq]
    | with_reducible assumption | with_reducible apply headGo_keeps | with_reducible apply setHeadW_keeps
    | with_reducible apply refuseEntry_may | exact May.of ‹_› (refuseEntry_may (by with_reducible assumption))
    | with_reducible apply bump_keeps | with_reducible apply sendBurst_keeps | with_reducible apply setGate_keeps
    | with_reducible apply keeps_ite
    | (have x := trivial; extract_lets +onlyGivenNames x; (fail_if_success have y : True := x); first | (refine keeps_step x ?_ (fun hx => ?_); focus dsimp -zeta only [x]; rotate_left; clear_value x; rotate_right) | skip)
    | split

theorem execWriteBurstStart_goes {o x0 x1 x2 x3} (h0 : Keeps o x3) : Goes o (execWriteBurstStart x0 x1 x2 x3) := by
  unfold execWriteBurstStart
  repeat' first
    | with_reducible assumption | with_reducible apply onHeadCh_goes | with_reducible apply burstStart_keeps
    | with_reducible apply goes_next

theorem sectorWritten_keeps {o x0 x1 x2 x3 x4} (h0 : Keeps o x0) : Keeps o (sectorWritten x0 x1 x2 x3 x4) := by
  unfold sectorWritten
  repeat' first
    | simp -zeta only [↓keeps_mk, id_eq] | with_reducible assumption | (intro)
    | with_reducible apply modHeadW_keeps | with_reducible apply finishWrite_keeps | with_reducible apply keeps_ite
    | (have x := trivial; extract_lets +onlyGivenNames x; (fail_if_success have y : True := x); first | (refine keeps_step x ?_ (fun hx => ?_); focus dsimp -zeta only [x]; rotate_left; clear_value x; rotate_right) | skip)
    | split

theorem burstEnd_keeps {o x0 x1 x2 x3} (h0 : Keeps o x0) : Keeps o (burstEnd x0 x1 x2 x3) := by
  unfold burstEnd
  repeat' first
    | simp -zeta only [↓keeps_mk, id_eq] | with_reducible assumption | (intro)
    | with_reducible apply cutBurst_keeps | with_reducible apply setGate_keeps
    | with_reducible apply setHeadW_keeps | with_reducible apply modHeadW_keeps
    | with_reducible apply sendBurst_keeps | with_reducible apply sectorWritten_keeps
    | with_reducible apply burstOut_keeps | with_reducible apply headGo_keeps | with_reducible apply keeps_ite
    | (have x := trivial; extract_lets +onlyGivenNames x; (fail_if_success have y : True := x); first | (refine keeps_step x ?_ (fun hx => ?_); focus dsimp -zeta only [x]; rotate_left; clear_value x; rotate_right) | clear_value x | skip)
    | split

theorem execWriteBurstEnd_goes {o x0 x1 x2 x3} (h0 : Keeps o x3) : Goes o (execWriteBurstEnd x0 x1 x2 x3) := by
  unfold execWriteBurstEnd
  repeat' first
    | with_reducible assumption | with_reducible apply onHeadCh_goes | with_reducible apply burstEnd_keeps
    | with_reducible apply goes_next

theorem verifyRead_keeps {o x0 x1 x2 x3} (h0 : Keeps o x0) : Keeps o (verifyRead x0 x1 x2 x3) := by
  unfold verifyRead
  repeat' first
    | simp -zeta only [↓keeps_mk, id_eq] | with_reducible assumption | (intro)
    | with_reducible apply setHeadW_keeps | with_reducible apply wantSectors_keeps | with_reducible apply keeps_ite
    | (have x := trivial; extract_lets +onlyGivenNames x; (fail_if_success have y : True := x); first | (refine keeps_step x ?_ (fun hx => ?_); focus dsimp -zeta only [x]; rotate_left; clear_value x; rotate_right) | skip)

theorem execVerifyRead_goes {o x0 x1 x2 x3} (h0 : Keeps o x3) : Goes o (execVerifyRead x0 x1 x2 x3) := by
  unfold execVerifyRead
  repeat' first
    | with_reducible assumption | with_reducible apply onHeadCh_goes | with_reducible apply verifyRead_keeps
    | with_reducible apply goes_next

theorem discardSlot_keeps {o x0 x1} (h0 : Keeps o x0) : Keeps o (discardSlot x0 x1) := by
  unfold discardSlot
  repeat' first
    | simp -zeta only [↓keeps_mk, id_eq] | with_reducible assumption | (intro) | with_reducible apply modWr_keeps
    | with_reducible apply modWrQ_keeps | with_reducible apply modHeadW_keeps | with_reducible apply cutBurst_keeps
    | with_reducible apply keeps_ite | with_reducible apply keeps_foldl
    | (have x := trivial; extract_lets +onlyGivenNames x; (fail_if_success have y : True := x); first | (refine keeps_step x ?_ (fun hx => ?_); focus dsimp -zeta only [x]; rotate_left; clear_value x; rotate_right) | (have _ : State → State := x; dsimp -zeta only [x]) | (have _ : Nat → State → State := x; dsimp -zeta only [x]) | (have _ : State → Nat → State := x; dsimp -zeta only [x]) | skip)
    | split

end Sys2Proof.Machine
end

