-- ==== Sys2Proof/Laws/KeepsBuffer.lean ====
section
/-! SUPPORT. What the buffer, images, the tile links and the cipher keep (`Keeps`): one lemma per operation. -/

namespace Sys2Proof.Machine

theorem setLine_keeps {o x0 x1 x2} (h0 : Keeps o x0) : Keeps o (setLine x0 x1 x2) := by
  unfold setLine
  repeat' first
    | simp -zeta only [↓keeps_mk, id_eq] | with_reducible assumption
    | (have x := trivial; extract_lets +onlyGivenNames x; (fail_if_success have y : True := x); first | (refine keeps_step x ?_ (fun hx => ?_); focus dsimp -zeta only [x]; rotate_left; clear_value x; rotate_right) | skip)

theorem setLineIn_keeps {o x0 x1 x2} (h0 : Keeps o x0) : Keeps o (setLineIn x0 x1 x2) := by
  unfold setLineIn
  repeat' first
    | simp -zeta only [↓keeps_mk, id_eq] | with_reducible assumption | with_reducible apply setLine_keeps
    | (have x := trivial; extract_lets +onlyGivenNames x; (fail_if_success have y : True := x); first | (refine keeps_step x ?_ (fun hx => ?_); focus dsimp -zeta only [x]; rotate_left; clear_value x; rotate_right) | skip)
    | split

theorem setUnitIn_keeps {o x0 x1 x2 x3} (h0 : Keeps o x0) : Keeps o (setUnitIn x0 x1 x2 x3) := by
  unfold setUnitIn
  repeat' first
    | with_reducible assumption | with_reducible apply setLineIn_keeps

theorem dropLine_keeps {o x0 x1} (h0 : Keeps o x0) : Keeps o (dropLine x0 x1) := by
  unfold dropLine
  repeat' first
    | with_reducible assumption | with_reducible apply bump_keeps | with_reducible apply setLine_keeps
    | with_reducible apply keeps_ite
    | (have x := trivial; extract_lets +onlyGivenNames x; (fail_if_success have y : True := x); first | (refine keeps_step x ?_ (fun hx => ?_); focus dsimp -zeta only [x]; rotate_left; clear_value x; rotate_right) | skip)

theorem touchWay_keeps {o x0 x1} (h0 : Keeps o x0) : Keeps o (touchWay x0 x1) := by
  unfold touchWay
  repeat' first
    | simp -zeta only [↓keeps_mk, id_eq] | with_reducible assumption | (intro)
    | (have x := trivial; extract_lets +onlyGivenNames x; (fail_if_success have y : True := x); first | (refine keeps_step x ?_ (fun hx => ?_); focus dsimp -zeta only [x]; rotate_left; clear_value x; rotate_right) | skip)

theorem takeFrame_keeps {o s l r} (h : Keeps o s) (e : takeFrame s l = some r) : Keeps o r.1 := by
  unfold takeFrame at e
  split at e
  · simp only [Option.map_eq_some_iff] at e
    obtain ⟨f, -, rfl⟩ := e
    exact h
  · split at e
    · cases e
    · simp only [Option.map_eq_some_iff] at e
      obtain ⟨k, -, rfl⟩ := e
      exact keeps_mk.2 (setLine_keeps h)

theorem takeSlot_keeps {o s n r} (h : Keeps o s) (e : takeSlot s n = some r) : Keeps o r.1 := by
  simp only [takeSlot] at e
  split at e
  · cases e; exact h
  · split at e
    · cases e; exact h
    · simp only [Option.map_eq_some_iff] at e
      obtain ⟨f, e, rfl⟩ := e
      exact takeFrame_keeps h e

theorem guardWritten_keeps {o x0 x1} (h0 : Keeps o x0) : Keeps o (guardWritten x0 x1) := by
  unfold guardWritten
  repeat' first
    | with_reducible assumption | with_reducible apply pagePart_keeps | split

theorem takePage_may {o x0 x1 x2} (h0 : Keeps o x0) : May o (takePage x0 x1 x2) := by
  constructor
  intro r e
  unfold takePage at e
  split at e
  · cases e; exact keeps_mk.2 h0
  · simp only [Option.map_eq_some_iff] at e
    obtain ⟨f, e, rfl⟩ := e
    exact keeps_mk.2 (takeFrame_keeps h0 e)

theorem evictCopy_keeps {o x0 x1} (h0 : Keeps o x0) : Keeps o (evictCopy x0 x1) := by
  unfold evictCopy
  repeat' first
    | simp -zeta only [↓keeps_mk, id_eq] | with_reducible assumption | (intro) | with_reducible apply bump_keeps
    | with_reducible apply keeps_ite
    | (have x := trivial; extract_lets +onlyGivenNames x; (fail_if_success have y : True := x); first | (refine keeps_step x ?_ (fun hx => ?_); focus dsimp -zeta only [x]; rotate_left; clear_value x; rotate_right) | skip)

theorem allocWay_keeps {o s n l g t k} (h : Keeps o s) (e : allocWay s n l g = .got t k) : Keeps o t := by
  simp only [allocWay] at e
  split at e
  · split at e
    · cases e
    · next r f => cases e; exact setLine_keeps (takeFrame_keeps h f)
  · split at e
    · cases e
    · split at e
      · split at e
        · cases e
        · next r f => cases e; exact setLine_keeps (evictCopy_keeps (takeFrame_keeps h f))
      · cases e; exact setLine_keeps h

theorem allocLine_keeps {o s n l t k} (h : Keeps o s) (e : allocLine s n l = .got t k) : Keeps o t := by
  unfold allocLine at e
  split at e
  · cases e
  · next r f => exact allocWay_keeps (takeSlot_keeps h f) e

theorem bufWait_keeps {o x0 x1 x2} (h0 : Keeps o x0) : Keeps o (bufWait x0 x1 x2) := by
  unfold bufWait
  repeat' first
    | simp -zeta only [↓keeps_mk, id_eq] | with_reducible assumption | with_reducible apply bump_keeps | with_reducible apply setCmd_keeps
    | with_reducible apply keeps_ite
    | (have x := trivial; extract_lets +onlyGivenNames x; (fail_if_success have y : True := x); first | (refine keeps_step x ?_ (fun hx => ?_); focus dsimp -zeta only [x]; rotate_left; clear_value x; rotate_right) | skip)

theorem bufGo_keeps {o x0 x1} (h0 : Keeps o x0) : Keeps o (bufGo x0 x1) := by
  unfold bufGo
  repeat' first
    | simp -zeta only [↓keeps_mk, id_eq] | with_reducible assumption | (intro)
    | (have x := trivial; extract_lets +onlyGivenNames x; (fail_if_success have y : True := x); first | (refine keeps_step x ?_ (fun hx => ?_); focus dsimp -zeta only [x]; rotate_left; clear_value x; rotate_right) | skip)
    | split

theorem setPwrTile_keeps {o x0 x1 x2} (h0 : Keeps o x0) : Keeps o (setPwrTile x0 x1 x2) := by
  unfold setPwrTile
  repeat' first
    | with_reducible assumption | with_reducible apply setF_keeps

theorem autoWake_keeps {o x0 x1} (h0 : Keeps o x0) : Keeps o (autoWake x0 x1) := by
  unfold autoWake
  repeat' first
    | simp -zeta only [↓keeps_mk, id_eq] | with_reducible assumption | (intro) | with_reducible apply keeps_ite
    | (have x := trivial; extract_lets +onlyGivenNames x; (fail_if_success have y : True := x); first | (refine keeps_step x ?_ (fun hx => ?_); focus dsimp -zeta only [x]; rotate_left; clear_value x; rotate_right) | skip)
    | split

theorem holdRequest_keeps {o x0 x1} (h0 : Keeps o x0) : Keeps o (holdRequest x0 x1) := by
  unfold holdRequest
  repeat' first
    | simp -zeta only [↓keeps_mk, id_eq] | with_reducible assumption | with_reducible apply autoWake_keeps
    | (have x := trivial; extract_lets +onlyGivenNames x; (fail_if_success have y : True := x); first | (refine keeps_step x ?_ (fun hx => ?_); focus dsimp -zeta only [x]; rotate_left; clear_value x; rotate_right) | skip)

theorem blkReady_keeps {o x0 x1 x2 x3} (h0 : Keeps o x0) : Keeps o (blkReady x0 x1 x2 x3) := by
  unfold blkReady
  repeat' first
    | simp -zeta only [↓keeps_mk, id_eq] | with_reducible assumption | with_reducible apply setCmd_keeps
    | with_reducible apply freePage_keeps | with_reducible apply completeCmd_keeps | with_reducible apply keeps_ite
    | (have x := trivial; extract_lets +onlyGivenNames x; (fail_if_success have y : True := x); first | (refine keeps_step x ?_ (fun hx => ?_); focus dsimp -zeta only [x]; rotate_left; clear_value x; rotate_right) | skip)

theorem hubDrop_keeps {o x0 x1 x2 x3} (h0 : Keeps o x0) : Keeps o (hubDrop x0 x1 x2 x3) := by
  unfold hubDrop
  repeat' first
    | with_reducible assumption | with_reducible apply bump_keeps | with_reducible apply dropBlk_keeps
    | with_reducible apply blkReady_keeps | with_reducible apply keeps_ite
    | (have x := trivial; extract_lets +onlyGivenNames x; (fail_if_success have y : True := x); first | (refine keeps_step x ?_ (fun hx => ?_); focus dsimp -zeta only [x]; rotate_left; clear_value x; rotate_right) | skip)

theorem askMedia_keeps {o x0 x1 x2} (h0 : Keeps o x0) : Keeps o (askMedia x0 x1 x2) := by
  unfold askMedia
  repeat' first
    | simp -zeta only [↓keeps_mk, id_eq] | with_reducible assumption | with_reducible apply hubDrop_keeps
    | with_reducible apply setCmd_keeps | with_reducible apply holdRequest_keeps | with_reducible apply bump_keeps
    | with_reducible apply keeps_ite
    | (have x := trivial; extract_lets +onlyGivenNames x; (fail_if_success have y : True := x); first | (refine keeps_step x ?_ (fun hx => ?_); focus dsimp -zeta only [x]; rotate_left; clear_value x; rotate_right) | skip)

theorem serveUnit_keeps {o x0 x1 x2 x3} (h0 : Keeps o x0) : Keeps o (serveUnit x0 x1 x2 x3) := by
  unfold serveUnit
  repeat' first
    | simp -zeta only [↓keeps_mk, id_eq] | with_reducible assumption | with_reducible apply hubDrop_keeps
    | with_reducible apply blkReady_keeps | with_reducible apply bump_keeps | with_reducible apply touchWay_keeps
    | with_reducible apply setUnitIn_keeps | with_reducible apply keeps_ite
    | (have x := trivial; extract_lets +onlyGivenNames x; (fail_if_success have y : True := x); first | (refine keeps_step x ?_ (fun hx => ?_); focus dsimp -zeta only [x]; rotate_left; clear_value x; rotate_right) | skip)
    | split

theorem missStaged_keeps {o x0 x1 x2 x3} (h0 : Keeps o x0) : Keeps o (missStaged x0 x1 x2 x3).1 := by
  unfold missStaged
  repeat' first
    | with_reducible assumption | with_reducible apply askMedia_keeps | with_reducible apply takePage_may
    | exact May.of ‹_› (takePage_may (by with_reducible assumption)) | with_reducible apply bufWait_keeps
    | with_reducible apply bump_keeps | with_reducible apply keeps_ite | with_reducible apply keeps_ite_fst | split

theorem missLine_keeps {o x0 x1 x2 x3} (h0 : Keeps o x0) : Keeps o (missLine x0 x1 x2 x3) := by
  unfold missLine
  repeat' first
    | with_reducible exact allocLine_keeps (by with_reducible assumption) ‹_› | simp -zeta only [↓keeps_mk, id_eq]
    | with_reducible assumption | with_reducible apply askMedia_keeps | with_reducible apply setUnitIn_keeps
    | with_reducible apply keeps_ite
    | (have x := trivial; extract_lets +onlyGivenNames x; (fail_if_success have y : True := x); first | (refine keeps_step x ?_ (fun hx => ?_); focus dsimp -zeta only [x]; rotate_left; clear_value x; rotate_right) | skip)

theorem readBlk_keeps {o x0 x1 x2} (h0 : Keeps o x0) : Keeps o (readBlk x0 x1 x2).1 := by
  unfold readBlk
  repeat' first
    | with_reducible exact allocLine_keeps (by with_reducible assumption) ‹_› | simp -zeta only [↓keeps_mk, id_eq]
    | with_reducible assumption | with_reducible apply blkReady_keeps | with_reducible apply missStaged_keeps
    | with_reducible apply setCmd_keeps | with_reducible apply serveUnit_keeps
    | with_reducible apply missLine_keeps | with_reducible apply askMedia_keeps
    | with_reducible apply bufWait_keeps | with_reducible apply keeps_ite | with_reducible apply keeps_ite_fst
    | (have x := trivial; extract_lets +onlyGivenNames x; (fail_if_success have y : True := x); first | (refine keeps_step x ?_ (fun hx => ?_); focus dsimp -zeta only [x]; rotate_left; clear_value x; rotate_right) | clear_value x | skip)
    | split

theorem readBlks_keeps {o x0 x1 x2} (h0 : Keeps o x2) : Keeps o (readBlks x0 x1 x2) := by
  induction x1 generalizing x2 with
  | nil => unfold readBlks
           repeat' first
      | with_reducible apply ih | with_reducible apply readBlk_keeps | with_reducible apply bufGo_keeps
      | with_reducible assumption | with_reducible apply keeps_ite
  | cons b l ih =>
    unfold readBlks
    repeat' first
      | with_reducible apply ih | with_reducible apply readBlk_keeps | with_reducible apply bufGo_keeps
      | with_reducible assumption | with_reducible apply keeps_ite

theorem readProgress_keeps {o x0 x1} (h0 : Keeps o x0) : Keeps o (readProgress x0 x1) := by
  unfold readProgress
  repeat' first
    | with_reducible assumption | with_reducible apply readBlks_keeps

theorem trackStream_keeps {o x0 x1 x2 x3 x4} (h0 : Keeps o x0) : Keeps o (trackStream x0 x1 x2 x3 x4).1 := by
  unfold trackStream
  repeat' first
    | simp -zeta only [↓keeps_mk, id_eq] | with_reducible assumption | (intro) | with_reducible apply keeps_ite
    | with_reducible apply keeps_ite_fst
    | (have x := trivial; extract_lets +onlyGivenNames x; (fail_if_success have y : True := x); first | (refine keeps_step x ?_ (fun hx => ?_); focus dsimp -zeta only [x]; rotate_left; clear_value x; rotate_right) | skip)
    | split

theorem ownRead_keeps {o x0 x1 x2 x3} (h0 : Keeps o x0) : Keeps o (ownRead x0 x1 x2 x3) := by
  unfold ownRead
  repeat' first
    | simp -zeta only [↓keeps_mk, id_eq] | with_reducible assumption
    | (have x := trivial; extract_lets +onlyGivenNames x; (fail_if_success have y : True := x); first | (refine keeps_step x ?_ (fun hx => ?_); focus dsimp -zeta only [x]; rotate_left; clear_value x; rotate_right) | skip)

theorem prefetch_keeps {o x0 x1 x2} (h0 : Keeps o x0) : Keeps o (prefetch x0 x1 x2) := by
  unfold prefetch
  repeat' first
    | with_reducible assumption | (intro) | with_reducible apply bump_keeps | with_reducible apply ownRead_keeps
    | with_reducible apply keeps_ite | with_reducible apply keeps_foldl
    | (have x := trivial; extract_lets +onlyGivenNames x; (fail_if_success have y : True := x); first | (refine keeps_step x ?_ (fun hx => ?_); focus dsimp -zeta only [x]; rotate_left; clear_value x; rotate_right) | skip)

theorem tryEnd_keeps {o x0 x1} (h0 : Keeps o x0) : Keeps o (tryEnd x0 x1) := by
  unfold tryEnd
  repeat' first
    | simp -zeta only [↓keeps_mk, id_eq] | with_reducible assumption | with_reducible apply completeCmd_keeps
    | with_reducible apply setCmd_keeps | with_reducible apply keeps_ite
    | (have x := trivial; extract_lets +onlyGivenNames x; (fail_if_success have y : True := x); first | (refine keeps_step x ?_ (fun hx => ?_); focus dsimp -zeta only [x]; rotate_left; clear_value x; rotate_right) | skip)
    | split

theorem unitDone_keeps {o x0 x1 x2 x3 x4} (h0 : Keeps o x0) : Keeps o (unitDone x0 x1 x2 x3 x4) := by
  unfold unitDone
  repeat' first
    | simp -zeta only [↓keeps_mk, id_eq] | with_reducible assumption | (intro) | with_reducible apply tryEnd_keeps
    | with_reducible apply setCmd_keeps | with_reducible apply keeps_ite | with_reducible apply keeps_foldl
    | (have x := trivial; extract_lets +onlyGivenNames x; (fail_if_success have y : True := x); first | (refine keeps_step x ?_ (fun hx => ?_); focus dsimp -zeta only [x]; rotate_left; clear_value x; rotate_right) | skip)
    | split

theorem mapUnits_keeps {o x0 x1} (h0 : Keeps o x0) : Keeps o (mapUnits x0 x1) := by
  unfold mapUnits
  repeat' first
    | simp -zeta only [↓keeps_mk, id_eq] | with_reducible assumption | (intro)
    | with_reducible apply setLineIn_keeps | with_reducible apply keeps_foldl
    | (have x := trivial; extract_lets +onlyGivenNames x; (fail_if_success have y : True := x); first | (refine keeps_step x ?_ (fun hx => ?_); focus dsimp -zeta only [x]; rotate_left; clear_value x; rotate_right) | skip)

theorem makeEligible_keeps {o x0 x1 x2} (h0 : Keeps o x0) : Keeps o (makeEligible x0 x1 x2) := by
  unfold makeEligible
  repeat' first
    | simp -zeta only [↓keeps_mk, id_eq] | with_reducible assumption | (intro)
    | with_reducible apply mapUnits_keeps | with_reducible apply keeps_ite
    | (have x := trivial; extract_lets +onlyGivenNames x; (fail_if_success have y : True := x); first | (refine keeps_step x ?_ (fun hx => ?_); focus dsimp -zeta only [x]; rotate_left; clear_value x; rotate_right) | skip)

theorem discardUnit_keeps {o x0 x1 x2 x3} (h0 : Keeps o x0) : Keeps o (discardUnit x0 x1 x2 x3) := by
  unfold discardUnit
  repeat' first
    | simp -zeta only [↓keeps_mk, id_eq] | with_reducible assumption | with_reducible apply setUnitIn_keeps
    | with_reducible apply unitDone_keeps | with_reducible apply bump_keeps | with_reducible apply keeps_ite
    | (have x := trivial; extract_lets +onlyGivenNames x; (fail_if_success have y : True := x); first | (refine keeps_step x ?_ (fun hx => ?_); focus dsimp -zeta only [x]; rotate_left; clear_value x; rotate_right) | skip)

theorem leaveIfEmpty_keeps {o x0 x1} (h0 : Keeps o x0) : Keeps o (leaveIfEmpty x0 x1) := by
  unfold leaveIfEmpty
  repeat' first
    | with_reducible assumption | (intro) | with_reducible apply dropLine_keeps | with_reducible apply keeps_ite
    | (have x := trivial; extract_lets +onlyGivenNames x; (fail_if_success have y : True := x); first | (refine keeps_step x ?_ (fun hx => ?_); focus dsimp -zeta only [x]; rotate_left; clear_value x; rotate_right) | skip)

theorem invalidate_keeps {o x0 x1 x2 x3 x4} (h0 : Keeps o x0) : Keeps o (invalidate x0 x1 x2 x3 x4) := by
  unfold invalidate
  repeat' first
    | with_reducible assumption | (intro) | with_reducible apply discardUnit_keeps
    | with_reducible apply leaveIfEmpty_keeps | with_reducible apply keeps_ite | with_reducible apply keeps_foldl
    | (have x := trivial; extract_lets +onlyGivenNames x; (fail_if_success have y : True := x); first | (refine keeps_step x ?_ (fun hx => ?_); focus dsimp -zeta only [x]; rotate_left; clear_value x; rotate_right) | skip)
    | split

theorem invCheck_keeps {o x0} (h0 : Keeps o x0) : Keeps o (invCheck x0) := by
  unfold invCheck
  repeat' first
    | with_reducible assumption | (intro) | with_reducible apply dropLine_keeps
    | with_reducible apply irqEdge_keeps | with_reducible apply setB_keeps | with_reducible apply keeps_ite
    | with_reducible apply keeps_foldl
    | (have x := trivial; extract_lets +onlyGivenNames x; (fail_if_success have y : True := x); first | (refine keeps_step x ?_ (fun hx => ?_); focus dsimp -zeta only [x]; rotate_left; clear_value x; rotate_right) | skip)

theorem dropRead_keeps {o x0 x1 x2 x3} (h0 : Keeps o x0) : Keeps o (dropRead x0 x1 x2 x3) := by
  unfold dropRead
  repeat' first
    | with_reducible assumption | with_reducible apply dropBlk_keeps | with_reducible apply blkReady_keeps
    | with_reducible apply keeps_ite

theorem fillEnds_keeps {o x0 x1 x2 x3 x4} (h0 : Keeps o x0) : Keeps o (fillEnds x0 x1 x2 x3 x4) := by
  unfold fillEnds
  repeat' first
    | simp -zeta only [↓keeps_mk, id_eq] | with_reducible assumption | (intro)
    | with_reducible apply setUnitIn_keeps | with_reducible apply pageWritten_keeps
    | with_reducible apply guardWritten_keeps | with_reducible apply touchWay_keeps | with_reducible apply blkReady_keeps
    | with_reducible apply missLine_keeps | with_reducible apply dropRead_keeps
    | with_reducible apply invCheck_keeps | with_reducible apply leaveIfEmpty_keeps
    | with_reducible apply keeps_ite | with_reducible apply keeps_foldl
    | (have x := trivial; extract_lets +onlyGivenNames x; (fail_if_success have y : True := x); first | (refine keeps_step x ?_ (fun hx => ?_); focus dsimp -zeta only [x]; rotate_left; clear_value x; rotate_right) | skip)
    | split

theorem landStaged_keeps {o x0 x1 x2 x3} (h0 : Keeps o x0) : Keeps o (landStaged x0 x1 x2 x3) := by
  unfold landStaged
  repeat' first
    | with_reducible assumption | with_reducible apply pageWritten_keeps | with_reducible apply blkReady_keeps
    | with_reducible apply dropRead_keeps | with_reducible apply keeps_ite
    | (have x := trivial; extract_lets +onlyGivenNames x; (fail_if_success have y : True := x); first | (refine keeps_step x ?_ (fun hx => ?_); focus dsimp -zeta only [x]; rotate_left; clear_value x; rotate_right) | skip)
    | split

theorem landOutcome_keeps {o x0 x1 x2 x3} (h0 : Keeps o x0) : Keeps o (landOutcome x0 x1 x2 x3) := by
  unfold landOutcome
  repeat' first
    | with_reducible assumption | with_reducible apply fillEnds_keeps | with_reducible apply landStaged_keeps
    | split

theorem lockCheck_keeps {o x0} (h0 : Keeps o x0) : Keeps o (lockCheck x0) := by
  unfold lockCheck
  repeat' first
    | with_reducible assumption | (intro) | with_reducible apply irqEdge_keeps | with_reducible apply setB_keeps
    | with_reducible apply keeps_ite

theorem loseBlock_keeps {o x0 x1 x2 x3} (h0 : Keeps o x0) : Keeps o (loseBlock x0 x1 x2 x3) := by
  unfold loseBlock
  repeat' first
    | simp -zeta only [↓keeps_mk, id_eq] | with_reducible assumption | with_reducible apply owlPost_keeps
    | with_reducible apply bump_keeps | with_reducible apply setUnitIn_keeps | with_reducible apply keeps_ite
    | (have x := trivial; extract_lets +onlyGivenNames x; (fail_if_success have y : True := x); first | (refine keeps_step x ?_ (fun hx => ?_); focus dsimp -zeta only [x]; rotate_left; clear_value x; rotate_right) | skip)

theorem spoilUnit_keeps {o x0 x1 x2} (h0 : Keeps o x0) : Keeps o (spoilUnit x0 x1 x2) := by
  unfold spoilUnit
  repeat' first
    | with_reducible assumption | with_reducible apply loseBlock_keeps | with_reducible apply setUnitIn_keeps
    | with_reducible apply keeps_ite
    | (have x := trivial; extract_lets +onlyGivenNames x; (fail_if_success have y : True := x); first | (refine keeps_step x ?_ (fun hx => ?_); focus dsimp -zeta only [x]; rotate_left; clear_value x; rotate_right) | clear_value x | skip)

theorem guardBad_keeps {o x0 x1} (h0 : Keeps o x0) : Keeps o (guardBad x0 x1) := by
  unfold guardBad
  repeat' first
    | with_reducible assumption | with_reducible apply spoilUnit_keeps
    | (have x := trivial; extract_lets +onlyGivenNames x; (fail_if_success have y : True := x); first | (refine keeps_step x ?_ (fun hx => ?_); focus dsimp -zeta only [x]; rotate_left; clear_value x; rotate_right) | clear_value x | skip)
    | split

theorem sectorLanding_keeps {o x0 x1} (h0 : Keeps o x0) : Keeps o (sectorLanding x0 x1) := by
  unfold sectorLanding
  repeat' first
    | simp -zeta only [↓keeps_mk, id_eq] | with_reducible assumption | with_reducible apply noteScrub_keeps
    | with_reducible apply eccCount_keeps | with_reducible apply guardBad_keeps
    | with_reducible apply lockCheck_keeps
    | with_reducible apply landOutcome_keeps | with_reducible apply keeps_ite
    | (have x := trivial; extract_lets +onlyGivenNames x; (fail_if_success have y : True := x); first | (refine keeps_step x ?_ (fun hx => ?_); focus dsimp -zeta only [x]; rotate_left; clear_value x; rotate_right) | clear_value x | skip)
    | split

theorem sendBlk_keeps {o x0 x1 x2} (h0 : Keeps o x0) : Keeps o (sendBlk x0 x1 x2) := by
  unfold sendBlk
  repeat' first
    | simp -zeta only [↓keeps_mk, id_eq] | with_reducible assumption | with_reducible apply emit_keeps
    | with_reducible apply sendPkt_keeps | with_reducible apply freePage_keeps | with_reducible apply setCmd_keeps
    | (have x := trivial; extract_lets +onlyGivenNames x; (fail_if_success have y : True := x); first | (refine keeps_step x ?_ (fun hx => ?_); focus dsimp -zeta only [x]; rotate_left; clear_value x; rotate_right) | skip)

theorem rdmaDataSend_keeps {o x0 x1 x2} (h0 : Keeps o x0) : Keeps o (rdmaDataSend x0 x1 x2) := by
  unfold rdmaDataSend
  repeat' first
    | simp -zeta only [↓keeps_mk, id_eq] | with_reducible assumption | (intro) | with_reducible apply sendBlk_keeps
    | with_reducible apply keeps_ite
    | (have x := trivial; extract_lets +onlyGivenNames x; (fail_if_success have y : True := x); first | (refine keeps_step x ?_ (fun hx => ?_); focus dsimp -zeta only [x]; rotate_left; clear_value x; rotate_right) | skip)
    | split

theorem drainTx_keeps {o x0 x1} (h0 : Keeps o x0) : Keeps o (drainTx x0 x1) := by
  unfold drainTx
  repeat' first
    | with_reducible assumption | (intro) | with_reducible apply rdmaDataSend_keeps
    | with_reducible apply keeps_ite | with_reducible apply keeps_foldl

theorem execReadCompletion_goes {o x0 x1} (h0 : Keeps o x1) : Goes o (execReadCompletion x0 x1) := by
  unfold execReadCompletion
  repeat' first
    | with_reducible assumption | with_reducible apply completeRead_keeps | with_reducible apply keeps_ite
    | with_reducible apply goes_ite | with_reducible apply goes_next
    | (have x := trivial; extract_lets +onlyGivenNames x; (fail_if_success have y : True := x); first | (refine goes_step x ?_ (fun hx => ?_); focus dsimp -zeta only [x]; rotate_left; clear_value x; rotate_right) | (refine keeps_step x ?_ (fun hx => ?_); focus dsimp -zeta only [x]; rotate_left; clear_value x; rotate_right) | skip)

theorem endMedia_keeps {o x0 x1} (h0 : Keeps o x0) : Keeps o (endMedia x0 x1) := by
  unfold endMedia
  repeat' first
    | simp -zeta only [↓keeps_mk, id_eq] | with_reducible assumption | (intro) | with_reducible apply endCtx_keeps
    | with_reducible apply fillEnds_keeps | with_reducible apply keeps_ite | with_reducible apply keeps_foldl
    | (have x := trivial; extract_lets +onlyGivenNames x; (fail_if_success have y : True := x); first | (refine keeps_step x ?_ (fun hx => ?_); focus dsimp -zeta only [x]; rotate_left; clear_value x; rotate_right) | skip)
    | split

theorem dropCounted_keeps {o x0 x1 x2 x3} (h0 : Keeps o x0) : Keeps o (dropCounted x0 x1 x2 x3) := by
  unfold dropCounted
  repeat' first
    | with_reducible assumption | (intro) | with_reducible apply dropBlk_keeps | with_reducible apply bump_keeps
    | with_reducible apply keeps_ite
    | (have x := trivial; extract_lets +onlyGivenNames x; (fail_if_success have y : True := x); first | (refine keeps_step x ?_ (fun hx => ?_); focus dsimp -zeta only [x]; rotate_left; clear_value x; rotate_right) | skip)

theorem deadlineInstant_keeps {o x0 x1} (h0 : Keeps o x0) : Keeps o (deadlineInstant x0 x1) := by
  unfold deadlineInstant
  repeat' first
    | simp -zeta only [↓keeps_mk, id_eq] | with_reducible assumption | (intro)
    | with_reducible apply dropCounted_keeps | with_reducible apply bufGo_keeps
    | with_reducible apply endMedia_keeps | with_reducible apply dispatchPacket_keeps
    | with_reducible apply setCmd_keeps | with_reducible apply keeps_ite | with_reducible apply keeps_foldl
    | (have x := trivial; extract_lets +onlyGivenNames x; (fail_if_success have y : True := x); first | (refine keeps_step x ?_ (fun hx => ?_); focus dsimp -zeta only [x]; rotate_left; clear_value x; rotate_right) | skip)
    | split

theorem execDeadlineInstant_goes {o x0 x1} (h0 : Keeps o x1) : Goes o (execDeadlineInstant x0 x1) := by
  unfold execDeadlineInstant
  repeat' first
    | with_reducible assumption | with_reducible apply deadlineInstant_keeps | with_reducible apply goes_next

theorem dropTileReads_keeps {o x0 x1} (h0 : Keeps o x0) : Keeps o (dropTileReads x0 x1) := by
  unfold dropTileReads
  repeat' first
    | simp -zeta only [↓keeps_mk, id_eq] | with_reducible assumption | (intro) | with_reducible apply bump_keeps
    | with_reducible apply landOutcome_keeps | with_reducible apply keeps_ite | with_reducible apply keeps_foldl
    | (have x := trivial; extract_lets +onlyGivenNames x; (fail_if_success have y : True := x); first | (refine keeps_step x ?_ (fun hx => ?_); focus dsimp -zeta only [x]; rotate_left; clear_value x; rotate_right) | (have _ : State → State := x; dsimp -zeta only [x]) | (have _ : Nat → State → State := x; dsimp -zeta only [x]) | (have _ : State → Nat → State := x; dsimp -zeta only [x]) | skip)

theorem fetchBlks_keeps {o x0 x1 x2} (h0 : Keeps o x2) : Keeps o (fetchBlks x0 x1 x2) := by
  induction x1 generalizing x2 with
  | nil => unfold fetchBlks
           repeat' first
      | with_reducible apply ih | with_reducible apply emit_keeps | with_reducible apply sendPkt_keeps
      | with_reducible apply setCmd_keeps | with_reducible apply bufWait_keeps | exact May.of ‹_› (takePage_may h0)
      | simp -zeta only [↓keeps_mk, id_eq] | with_reducible assumption | with_reducible apply keeps_ite
      | (have x := trivial; extract_lets +onlyGivenNames x; (fail_if_success have y : True := x); first | (refine keeps_step x ?_ (fun hx => ?_); focus dsimp -zeta only [x]; rotate_left; clear_value x; rotate_right) | (have _ : State → State := x; dsimp -zeta only [x]) | (have _ : Nat → State → State := x; dsimp -zeta only [x]) | (have _ : State → Nat → State := x; dsimp -zeta only [x]) | skip)
      | split
  | cons b l ih =>
    unfold fetchBlks
    repeat' first
      | with_reducible apply ih | with_reducible apply emit_keeps | with_reducible apply sendPkt_keeps
      | with_reducible apply setCmd_keeps | with_reducible apply bufWait_keeps | exact May.of ‹_› (takePage_may h0)
      | simp -zeta only [↓keeps_mk, id_eq] | with_reducible assumption | with_reducible apply keeps_ite
      | (have x := trivial; extract_lets +onlyGivenNames x; (fail_if_success have y : True := x); first | (refine keeps_step x ?_ (fun hx => ?_); focus dsimp -zeta only [x]; rotate_left; clear_value x; rotate_right) | (have _ : State → State := x; dsimp -zeta only [x]) | (have _ : Nat → State → State := x; dsimp -zeta only [x]) | (have _ : State → Nat → State := x; dsimp -zeta only [x]) | skip)
      | split

theorem putBlk_keeps {o x0 x1 x2} (h0 : Keeps o x0) : Keeps o (putBlk x0 x1 x2).1 := by
  unfold putBlk
  repeat' first
    | with_reducible exact allocLine_keeps (by with_reducible assumption) ‹_› | simp -zeta only [↓keeps_mk, id_eq]
    | with_reducible assumption | with_reducible apply setUnitIn_keeps | with_reducible apply pageCleared_keeps
    | with_reducible apply pageWritten_keeps | with_reducible apply guardWritten_keeps
    | with_reducible apply freePage_keeps | with_reducible apply setCmd_keeps | with_reducible apply bufWait_keeps | with_reducible apply keeps_ite
    | with_reducible apply keeps_ite_fst | with_reducible apply keeps_getD
    | (have x := trivial; extract_lets +onlyGivenNames x; (fail_if_success have y : True := x); first | (refine keeps_step x ?_ (fun hx => ?_); focus dsimp -zeta only [x]; rotate_left; clear_value x; rotate_right) | (have _ : State → State := x; dsimp -zeta only [x]) | (have _ : Nat → State → State := x; dsimp -zeta only [x]) | (have _ : State → Nat → State := x; dsimp -zeta only [x]) | clear_value x | skip)
    | split

theorem putBlks_keeps {o x0 x1 x2} (h0 : Keeps o x2) : Keeps o (putBlks x0 x1 x2) := by
  induction x1 generalizing x2 with
  | nil => unfold putBlks
           repeat' first
      | with_reducible apply ih | with_reducible apply putBlk_keeps | with_reducible apply bufGo_keeps
      | with_reducible assumption | with_reducible apply keeps_ite
  | cons b l ih =>
    unfold putBlks
    repeat' first
      | with_reducible apply ih | with_reducible apply putBlk_keeps | with_reducible apply bufGo_keeps
      | with_reducible assumption | with_reducible apply keeps_ite

theorem becomeVisible_keeps {o x0 x1} (h0 : Keeps o x0) : Keeps o (becomeVisible x0 x1) := by
  unfold becomeVisible
  repeat' first
    | simp -zeta only [↓keeps_mk, id_eq] | with_reducible assumption | (intro) | with_reducible apply setCmd_keeps
    | with_reducible apply setZone_keeps | with_reducible apply touchWay_keeps
    | with_reducible apply completeCmd_keeps | with_reducible apply tryEnd_keeps | with_reducible apply keeps_ite
    | with_reducible apply keeps_foldl | with_reducible apply keeps_getD
    | (have x := trivial; extract_lets +onlyGivenNames x; (fail_if_success have y : True := x); first | (refine keeps_step x ?_ (fun hx => ?_); focus dsimp -zeta only [x]; rotate_left; clear_value x; rotate_right) | skip)
    | split

theorem writeProgress_keeps {o x0 x1} (h0 : Keeps o x0) : Keeps o (writeProgress x0 x1) := by
  unfold writeProgress
  repeat' first
    | with_reducible assumption | (intro) | with_reducible apply tryEnd_keeps
    | with_reducible apply fetchBlks_keeps | with_reducible apply putBlks_keeps
    | with_reducible apply becomeVisible_keeps | with_reducible apply keeps_ite
    | (have x := trivial; extract_lets +onlyGivenNames x; (fail_if_success have y : True := x); first | (refine keeps_step x ?_ (fun hx => ?_); focus dsimp -zeta only [x]; rotate_left; clear_value x; rotate_right) | skip)

theorem readArrived_keeps {o x0 x1 x2} (h0 : Keeps o x0) : Keeps o (readArrived x0 x1 x2) := by
  unfold readArrived
  repeat' first
    | simp -zeta only [↓keeps_mk, id_eq] | with_reducible assumption | (intro) | with_reducible apply setQp_keeps
    | (have x := trivial; extract_lets +onlyGivenNames x; (fail_if_success have y : True := x); first | (refine keeps_step x ?_ (fun hx => ?_); focus dsimp -zeta only [x]; rotate_left; clear_value x; rotate_right) | (have _ : State → State := x; dsimp -zeta only [x]) | (have _ : Nat → State → State := x; dsimp -zeta only [x]) | (have _ : State → Nat → State := x; dsimp -zeta only [x]) | skip)
    | split

theorem readResponse_keeps {o x0 x1 x2 x3} (h0 : Keeps o x0) : Keeps o (readResponse x0 x1 x2 x3) := by
  unfold readResponse
  repeat' first
    | simp -zeta only [↓keeps_mk, id_eq] | with_reducible assumption | with_reducible apply readArrived_keeps
    | with_reducible apply pageWritten_keeps | with_reducible apply writeProgress_keeps
    | with_reducible apply setCmd_keeps | with_reducible apply keeps_ite
    | (have x := trivial; extract_lets +onlyGivenNames x; (fail_if_success have y : True := x); first | (refine keeps_step x ?_ (fun hx => ?_); focus dsimp -zeta only [x]; rotate_left; clear_value x; rotate_right) | skip)
    | split

theorem execRdmaReadResponse_goes {o x0 x1 x2 x3} (h0 : Keeps o x3) :
    Goes o (execRdmaReadResponse x0 x1 x2 x3) := by
  unfold execRdmaReadResponse
  repeat' first
    | with_reducible assumption | with_reducible apply readResponse_keeps | with_reducible apply goes_next

theorem issueUnit_keeps {o x0 x1} (h0 : Keeps o x0) : Keeps o (issueUnit x0 x1) := by
  unfold issueUnit
  repeat' first
    | with_reducible exact allocLine_keeps (by with_reducible assumption) ‹_› | simp -zeta only [↓keeps_mk, id_eq]
    | with_reducible assumption | with_reducible apply setUnitIn_keeps | with_reducible apply keeps_ite
    | (have x := trivial; extract_lets +onlyGivenNames x; (fail_if_success have y : True := x); first | (refine keeps_step x ?_ (fun hx => ?_); focus dsimp -zeta only [x]; rotate_left; clear_value x; rotate_right) | skip)

theorem cleanerIssue_keeps {o x0} (h0 : Keeps o x0) : Keeps o (cleanerIssue x0) := by
  unfold cleanerIssue
  repeat' first
    | with_reducible assumption | (intro) | with_reducible apply issueUnit_keeps | with_reducible apply keeps_foldl
    | (have x := trivial; extract_lets +onlyGivenNames x; (fail_if_success have y : True := x); first | (refine keeps_step x ?_ (fun hx => ?_); focus dsimp -zeta only [x]; rotate_left; clear_value x; rotate_right) | skip)
    | split

theorem execCleanDelayExpire_goes {o x0 x1 x2} (h0 : Keeps o x2) : Goes o (execCleanDelayExpire x0 x1 x2) := by
  unfold execCleanDelayExpire
  repeat' first
    | with_reducible assumption | (intro) | with_reducible apply makeEligible_keeps
    | with_reducible apply goes_next

theorem setStale_keeps {o x0 x1} (h0 : Keeps o x0) : Keeps o (setStale x0 x1) := by
  unfold setStale
  repeat' first
    | with_reducible assumption | with_reducible apply retireChanged_keeps | with_reducible apply setB_keeps
    | (have x := trivial; extract_lets +onlyGivenNames x; (fail_if_success have y : True := x); first | (refine keeps_step x ?_ (fun hx => ?_); focus dsimp -zeta only [x]; rotate_left; clear_value x; rotate_right) | skip)

theorem advanceReached_keeps {o x0 x1 x2} (h0 : Keeps o x0) : Keeps o (advanceReached x0 x1 x2) := by
  unfold advanceReached
  repeat' first
    | simp -zeta only [↓keeps_mk, id_eq] | with_reducible assumption | with_reducible apply keeps_ite
    | (have x := trivial; extract_lets +onlyGivenNames x; (fail_if_success have y : True := x); first | (refine keeps_step x ?_ (fun hx => ?_); focus dsimp -zeta only [x]; rotate_left; clear_value x; rotate_right) | skip)

theorem applyResult_keeps {o x0 x1 x2 x3 x4} (h0 : Keeps o x0) : Keeps o (applyResult x0 x1 x2 x3 x4) := by
  unfold applyResult
  repeat' first
    | simp -zeta only [↓keeps_mk, id_eq] | with_reducible assumption | (intro)
    | with_reducible apply advanceReached_keeps | with_reducible apply setUnitIn_keeps
    | with_reducible apply unitDone_keeps | with_reducible apply bump_keeps
    | with_reducible apply discardUnit_keeps | with_reducible apply setStale_keeps
    | with_reducible apply leaveIfEmpty_keeps | with_reducible apply invCheck_keeps
    | with_reducible apply shadowCheck_keeps | with_reducible apply keeps_ite
    | (have x := trivial; extract_lets +onlyGivenNames x; (fail_if_success have y : True := x); first | (refine keeps_step x ?_ (fun hx => ?_); focus dsimp -zeta only [x]; rotate_left; clear_value x; rotate_right) | skip)
    | split

theorem writeResult_keeps {o x0 x1} (h0 : Keeps o x0) : Keeps o (writeResult x0 x1) := by
  unfold writeResult
  repeat' first
    | simp -zeta only [↓keeps_mk, id_eq] | with_reducible assumption | with_reducible apply crossAtOnce_keeps
    | with_reducible apply setWr_keeps | with_reducible apply dispatchPacket_keeps
    | with_reducible apply applyResult_keeps | with_reducible apply keeps_ite
    | (have x := trivial; extract_lets +onlyGivenNames x; (fail_if_success have y : True := x); first | (refine keeps_step x ?_ (fun hx => ?_); focus dsimp -zeta only [x]; rotate_left; clear_value x; rotate_right) | skip)
    | split

theorem execWriteResult_goes {o x0 x1} (h0 : Keeps o x1) : Goes o (execWriteResult x0 x1) := by
  unfold execWriteResult
  repeat' first
    | with_reducible assumption | with_reducible apply onTile_goes | with_reducible apply writeResult_keeps
    | with_reducible apply goes_next

theorem endTileWrites_keeps {o x0 x1} (h0 : Keeps o x0) : Keeps o (endTileWrites x0 x1) := by
  unfold endTileWrites
  repeat' first
    | with_reducible assumption | (intro) | with_reducible apply setWr_keeps
    | with_reducible apply applyResult_keeps | with_reducible apply keeps_ite | with_reducible apply keeps_foldl
    | (have x := trivial; extract_lets +onlyGivenNames x; (fail_if_success have y : True := x); first | (refine keeps_step x ?_ (fun hx => ?_); focus dsimp -zeta only [x]; rotate_left; clear_value x; rotate_right) | skip)
    | split

theorem execEvictionEnd_goes {o x0 x1} (h0 : Keeps o x1) : Goes o (execEvictionEnd x0 x1) := by
  unfold execEvictionEnd
  repeat' first
    | simp -zeta only [↓keeps_mk, id_eq] | with_reducible assumption | with_reducible apply keeps_ite
    | with_reducible apply goes_ite | with_reducible apply goes_next | with_reducible apply keeps_getD
    | (have x := trivial; extract_lets +onlyGivenNames x; (fail_if_success have y : True := x); first | (refine goes_step x ?_ (fun hx => ?_); focus dsimp -zeta only [x]; rotate_left; clear_value x; rotate_right) | (refine keeps_step x ?_ (fun hx => ?_); focus dsimp -zeta only [x]; rotate_left; clear_value x; rotate_right) | skip)

theorem lockOne_keeps {o x0 x1} (h0 : Keeps o x0) : Keeps o (lockOne x0 x1).1 := by
  unfold lockOne
  repeat' first
    | with_reducible exact allocLine_keeps (by with_reducible assumption) ‹_› | simp -zeta only [↓keeps_mk, id_eq]
    | with_reducible assumption | with_reducible apply setLine_keeps | with_reducible apply ownRead_keeps
    | with_reducible apply setF_keeps | with_reducible apply bump_keeps
    | with_reducible apply keeps_ite | with_reducible apply keeps_ite_fst
    | (have x := trivial; extract_lets +onlyGivenNames x; (fail_if_success have y : True := x); first | (refine keeps_step x ?_ (fun hx => ?_); focus dsimp -zeta only [x]; rotate_left; clear_value x; rotate_right) | skip)
    | split

theorem lockRetry_keeps {o x0} (h0 : Keeps o x0) : Keeps o (lockRetry x0) := by
  unfold lockRetry
  repeat' first
    | with_reducible apply keeps_foldl_fst | simp -zeta only [↓keeps_mk, id_eq] | with_reducible assumption
    | (intro) | with_reducible apply lockOne_keeps | with_reducible apply lockCheck_keeps
    | with_reducible apply keeps_ite | with_reducible apply keeps_ite_fst | with_reducible apply keeps_foldl
    | (have x := trivial; extract_lets +onlyGivenNames x; (fail_if_success have y : True := x); first | (refine keeps_step x ?_ (fun hx => ?_); focus dsimp -zeta only [x]; rotate_left; clear_value x; rotate_right) | skip)
    | exact lockOne_keeps (by with_reducible assumption)

theorem frameAvailable_keeps {o x0} (h0 : Keeps o x0) : Keeps o (frameAvailable x0) := by
  unfold frameAvailable
  repeat' first
    | with_reducible assumption | (intro) | with_reducible apply lockRetry_keeps | with_reducible apply bufGo_keeps
    | with_reducible apply readProgress_keeps | with_reducible apply writeProgress_keeps
    | with_reducible apply keeps_ite | with_reducible apply keeps_foldl
    | (have x := trivial; extract_lets +onlyGivenNames x; (fail_if_success have y : True := x); first | (refine keeps_step x ?_ (fun hx => ?_); focus dsimp -zeta only [x]; rotate_left; clear_value x; rotate_right) | skip)
    | split

theorem execFrameAvailable_goes {o x0} (h0 : Keeps o x0) : Goes o (execFrameAvailable x0) := by
  unfold execFrameAvailable
  repeat' first
    | with_reducible assumption | with_reducible apply frameAvailable_keeps | with_reducible apply goes_next

theorem lockRun_keeps {o x0 x1 x2 x3} (h0 : Keeps o x0) : Keeps o (lockRun x0 x1 x2 x3) := by
  unfold lockRun
  repeat' first
    | simp -zeta only [↓keeps_mk, id_eq] | with_reducible assumption | (intro) | with_reducible apply setB_keeps
    | with_reducible apply lockCheck_keeps | with_reducible apply setF_keeps | with_reducible apply bump_keeps
    | with_reducible apply lockOne_keeps | with_reducible apply keeps_ite | with_reducible apply keeps_ite_fst
    | with_reducible apply keeps_foldl
    | (have x := trivial; extract_lets +onlyGivenNames x; (fail_if_success have y : True := x); first | (refine keeps_step x ?_ (fun hx => ?_); focus dsimp -zeta only [x]; rotate_left; clear_value x; rotate_right) | skip)
    | exact lockOne_keeps (by with_reducible assumption)
    | split

theorem unlockRun_keeps {o x0 x1 x2 x3} (h0 : Keeps o x0) : Keeps o (unlockRun x0 x1 x2 x3) := by
  unfold unlockRun
  repeat' first
    | simp -zeta only [↓keeps_mk, id_eq] | with_reducible assumption | (intro) | with_reducible apply irqEdge_keeps
    | with_reducible apply setLine_keeps | with_reducible apply keeps_foldl
    | (have x := trivial; extract_lets +onlyGivenNames x; (fail_if_success have y : True := x); first | (refine keeps_step x ?_ (fun hx => ?_); focus dsimp -zeta only [x]; rotate_left; clear_value x; rotate_right) | skip)
    | split

theorem lkctlWrite_keeps {o x0 x1} (h0 : Keeps o x0) : Keeps o (lkctlWrite x0 x1).1 := by
  unfold lkctlWrite
  repeat' first
    | with_reducible assumption | with_reducible apply setReg_keeps | with_reducible apply irqEdge_keeps
    | with_reducible apply setF_keeps | with_reducible apply lockRun_keeps | with_reducible apply unlockRun_keeps
    | with_reducible apply keeps_ite | with_reducible apply keeps_ite_fst
    | (have x := trivial; extract_lets +onlyGivenNames x; (fail_if_success have y : True := x); first | (refine keeps_step x ?_ (fun hx => ?_); focus dsimp -zeta only [x]; rotate_left; clear_value x; rotate_right) | skip)

theorem execLockLines_goes {o x0 x1} (h0 : Keeps o x1) : Goes o (execLockLines x0 x1) := by
  unfold execLockLines
  repeat' first
    | with_reducible assumption | with_reducible apply lkctlWrite_keeps | with_reducible apply emit_keeps
    | with_reducible apply goes_next
    | (have x := trivial; extract_lets +onlyGivenNames x; (fail_if_success have y : True := x); first | (refine goes_step x ?_ (fun hx => ?_); focus dsimp -zeta only [x]; rotate_left; clear_value x; rotate_right) | (refine keeps_step x ?_ (fun hx => ?_); focus dsimp -zeta only [x]; rotate_left; clear_value x; rotate_right) | skip)

theorem execUnlockLines_goes {o x0 x1} (h0 : Keeps o x1) : Goes o (execUnlockLines x0 x1) := by
  unfold execUnlockLines
  repeat' first
    | with_reducible assumption | with_reducible apply lkctlWrite_keeps | with_reducible apply emit_keeps
    | with_reducible apply goes_next
    | (have x := trivial; extract_lets +onlyGivenNames x; (fail_if_success have y : True := x); first | (refine goes_step x ?_ (fun hx => ?_); focus dsimp -zeta only [x]; rotate_left; clear_value x; rotate_right) | (refine keeps_step x ?_ (fun hx => ?_); focus dsimp -zeta only [x]; rotate_left; clear_value x; rotate_right) | skip)

theorem invall_keeps {o x0} (h0 : Keeps o x0) : Keeps o (invall x0).1 := by
  unfold invall
  repeat' first
    | simp -zeta only [↓keeps_mk, id_eq] | with_reducible assumption | (intro)
    | with_reducible apply invCheck_keeps | with_reducible apply makeEligible_keeps
    | with_reducible apply setB_keeps | with_reducible apply keeps_ite | with_reducible apply keeps_ite_fst
    | (have x := trivial; extract_lets +onlyGivenNames x; (fail_if_success have y : True := x); first | (refine keeps_step x ?_ (fun hx => ?_); focus dsimp -zeta only [x]; rotate_left; clear_value x; rotate_right) | skip)

theorem execInvall_goes {o x0} (h0 : Keeps o x0) : Goes o (execInvall x0) := by
  unfold execInvall
  repeat' first
    | with_reducible assumption | with_reducible apply invall_keeps | with_reducible apply emit_keeps
    | with_reducible apply goes_next
    | (have x := trivial; extract_lets +onlyGivenNames x; (fail_if_success have y : True := x); first | (refine goes_step x ?_ (fun hx => ?_); focus dsimp -zeta only [x]; rotate_left; clear_value x; rotate_right) | (refine keeps_step x ?_ (fun hx => ?_); focus dsimp -zeta only [x]; rotate_left; clear_value x; rotate_right) | skip)

theorem staleClear_keeps {o x0 x1 x2} (h0 : Keeps o x0) : Keeps o (staleClear x0 x1 x2) := by
  unfold staleClear
  repeat' first
    | with_reducible assumption | with_reducible apply retireChanged_keeps | with_reducible apply clrReg_keeps
    | with_reducible apply keeps_ite

theorem execStaleClear_goes {o x0 x1 x2} (h0 : Keeps o x2) : Goes o (execStaleClear x0 x1 x2) := by
  unfold execStaleClear
  repeat' first
    | with_reducible assumption | with_reducible apply onOk_goes | with_reducible apply staleClear_keeps
    | with_reducible apply goes_next

theorem hbmBad_keeps {o x0 x1} (h0 : Keeps o x0) : Keeps o (hbmBad x0 x1) := by
  unfold hbmBad
  repeat' first
    | simp -zeta only [↓keeps_mk, id_eq] | with_reducible assumption | (intro)
    | with_reducible apply spoilUnit_keeps | with_reducible apply guardBad_keeps
    | with_reducible apply dropRead_keeps | with_reducible apply completeCmd_keeps
    | with_reducible apply writeProgress_keeps | with_reducible apply setCmd_keeps | with_reducible apply keeps_ite
    | (have x := trivial; extract_lets +onlyGivenNames x; (fail_if_success have y : True := x); first | (refine keeps_step x ?_ (fun hx => ?_); focus dsimp -zeta only [x]; rotate_left; clear_value x; rotate_right) | skip)
    | split

theorem lapEnd_keeps {o x0} (h0 : Keeps o x0) : Keeps o (lapEnd x0) := by
  unfold lapEnd
  repeat' first
    | simp -zeta only [↓keeps_mk, id_eq] | with_reducible assumption | (intro) | with_reducible apply bump_keeps
    | with_reducible apply setReg_keeps | with_reducible apply owlHub_keeps | with_reducible apply setF_keeps
    | with_reducible apply keeps_foldl
    | (have x := trivial; extract_lets +onlyGivenNames x; (fail_if_success have y : True := x); first | (refine keeps_step x ?_ (fun hx => ?_); focus dsimp -zeta only [x]; rotate_left; clear_value x; rotate_right) | skip)
    | split

theorem tagUnits_keeps {o x0 x1 x2} (h0 : Keeps o x0) : Keeps o (tagUnits x0 x1 x2) := by
  unfold tagUnits
  repeat' first
    | with_reducible assumption | (intro) | with_reducible apply eccCount_keeps
    | with_reducible apply mempLevels_keeps | with_reducible apply owlHub_keeps | with_reducible apply setB_keeps
    | with_reducible apply keeps_ite | with_reducible apply keeps_foldl
    | (have x := trivial; extract_lets +onlyGivenNames x; (fail_if_success have y : True := x); first | (refine keeps_step x ?_ (fun hx => ?_); focus dsimp -zeta only [x]; rotate_left; clear_value x; rotate_right) | skip)
    | split

theorem mapUnit_keeps {o x0 x1} (h0 : Keeps o x0) : Keeps o (mapUnit x0 x1) := by
  unfold mapUnit
  repeat' first
    | with_reducible assumption | (intro) | with_reducible apply eccCount_keeps
    | with_reducible apply pageWritten_keeps | with_reducible apply keeps_ite | with_reducible apply keeps_foldl
    | (have x := trivial; extract_lets +onlyGivenNames x; (fail_if_success have y : True := x); first | (refine keeps_step x ?_ (fun hx => ?_); focus dsimp -zeta only [x]; rotate_left; clear_value x; rotate_right) | skip)
    | split

theorem woodpecker_keeps {o x0 x1 x2 x3 x4 x5} (h0 : Keeps o x0) : Keeps o (woodpecker x0 x1 x2 x3 x4 x5) := by
  unfold woodpecker
  repeat' first
    | simp -zeta only [↓keeps_mk, id_eq] | with_reducible assumption | (intro) | with_reducible apply setB_keeps
    | with_reducible apply eccCount_keeps | with_reducible apply bump_keeps | with_reducible apply hbmBad_keeps
    | with_reducible apply mapUnit_keeps | with_reducible apply tagUnits_keeps | with_reducible apply setF_keeps
    | with_reducible apply lapEnd_keeps | with_reducible apply keeps_ite | with_reducible apply keeps_foldl
    | (have x := trivial; extract_lets +onlyGivenNames x; (fail_if_success have y : True := x); first | (refine keeps_step x ?_ (fun hx => ?_); focus dsimp -zeta only [x]; rotate_left; clear_value x; rotate_right) | clear_value x | skip)
    | split

theorem execWoodpeckerSlow_goes {o x0} (h0 : Keeps o x0) : Goes o (execWoodpeckerSlow x0) := by
  unfold execWoodpeckerSlow
  repeat' first
    | with_reducible assumption | with_reducible apply mempLevels_keeps | with_reducible apply owlHub_keeps
    | with_reducible apply setB_keeps | with_reducible apply keeps_ite | with_reducible apply goes_ite
    | with_reducible apply goes_next
    | (have x := trivial; extract_lets +onlyGivenNames x; (fail_if_success have y : True := x); first | (refine goes_step x ?_ (fun hx => ?_); focus dsimp -zeta only [x]; rotate_left; clear_value x; rotate_right) | (refine keeps_step x ?_ (fun hx => ?_); focus dsimp -zeta only [x]; rotate_left; clear_value x; rotate_right) | skip)

theorem loadReg_keeps {o x0 x1 x2 x3} (h0 : Keeps o x0) : Keeps o (loadReg x0 x1 x2 x3) := by
  unfold loadReg
  repeat' first
    | with_reducible assumption | with_reducible apply setReg_keeps | with_reducible apply keeps_ite
    | (have x := trivial; extract_lets +onlyGivenNames x; (fail_if_success have y : True := x); first | (refine keeps_step x ?_ (fun hx => ?_); focus dsimp -zeta only [x]; rotate_left; clear_value x; rotate_right) | skip)
    | split

theorem loadHubRegs_keeps {o x0 x1 x2} (h0 : Keeps o x0) : Keeps o (loadHubRegs x0 x1 x2) := by
  unfold loadHubRegs
  repeat' first
    | with_reducible assumption | (intro) | with_reducible apply cfgReset_keeps | with_reducible apply setReg_keeps
    | with_reducible apply loadReg_keeps | with_reducible apply irqEvalAll_keeps | with_reducible apply keeps_foldl
    | (have x := trivial; extract_lets +onlyGivenNames x; (fail_if_success have y : True := x); first | (refine keeps_step x ?_ (fun hx => ?_); focus dsimp -zeta only [x]; rotate_left; clear_value x; rotate_right) | skip)
    | split

theorem loadHubImages_keeps {o x0 x1} (h0 : Keeps o x0) : Keeps o (loadHubImages x0 x1) := by
  unfold loadHubImages
  repeat' first
    | simp -zeta only [↓keeps_mk, id_eq] | with_reducible assumption | (intro) | with_reducible apply keeps_foldl
    | (have x := trivial; extract_lets +onlyGivenNames x; (fail_if_success have y : True := x); first | (refine keeps_step x ?_ (fun hx => ?_); focus dsimp -zeta only [x]; rotate_left; clear_value x; rotate_right) | (have _ : State → State := x; dsimp -zeta only [x]) | (have _ : Nat → State → State := x; dsimp -zeta only [x]) | (have _ : State → Nat → State := x; dsimp -zeta only [x]) | skip)
    | split

theorem loadDispatch_keeps {o x0 x1} (h0 : Keeps o x0) : Keeps o (loadDispatch x0 x1) := by
  unfold loadDispatch
  repeat' first
    | with_reducible assumption | (intro) | with_reducible apply loadStore_keeps

theorem loadTileRegs_keeps {o x0 x1 x2 x3 x4} (h0 : Keeps o x0) : Keeps o (loadTileRegs x0 x1 x2 x3 x4) := by
  unfold loadTileRegs
  repeat' first
    | simp -zeta only [↓keeps_mk, id_eq] | with_reducible assumption | (intro)
    | with_reducible apply cfgReset_keeps | with_reducible apply loadReg_keeps
    | with_reducible apply irqEvalAll_keeps | with_reducible apply setReg_keeps | with_reducible apply keeps_ite
    | with_reducible apply keeps_foldl
    | (have x := trivial; extract_lets +onlyGivenNames x; (fail_if_success have y : True := x); first | (refine keeps_step x ?_ (fun hx => ?_); focus dsimp -zeta only [x]; rotate_left; clear_value x; rotate_right) | skip)
    | split

theorem loadTileStores_keeps {o x0 x1 x2 x3 x4} (h0 : Keeps o x0) : Keeps o (loadTileStores x0 x1 x2 x3 x4) := by
  unfold loadTileStores
  repeat' first
    | with_reducible assumption | (intro) | with_reducible apply loadStore_keeps | with_reducible apply keeps_foldl

theorem sendOptime_keeps {o x0 x1} (h0 : Keeps o x0) : Keeps o (sendOptime x0 x1) := by
  unfold sendOptime
  repeat' first
    | with_reducible assumption | with_reducible apply setReg_keeps

theorem holdSets_keeps {o x0 x1 x2 x3} (h0 : Keeps o x1) : Keeps o (holdSets x0 x1 x2 x3) := by
  unfold holdSets
  repeat' first
    | simp -zeta only [↓keeps_mk, id_eq] | with_reducible assumption | (intro)
    | with_reducible apply modCtl_keeps
    | with_reducible apply setB_keeps
    | with_reducible apply setReg_keeps
    | with_reducible apply keeps_foldl
    | with_reducible apply keeps_ite
    | (have x := trivial; extract_lets +onlyGivenNames x; (fail_if_success have y : True := x); first | (refine keeps_step x ?_ (fun hx => ?_); focus dsimp -zeta only [x]; rotate_left; clear_value x; rotate_right) | skip)

theorem sendPreamp_keeps {o x0 x1 x2 x3} (h0 : Keeps o x1) : Keeps o (sendPreamp x0 x1 x2 x3) := by
  unfold sendPreamp
  repeat' first
    | simp -zeta only [↓keeps_mk, id_eq] | with_reducible assumption | (intro)
    | with_reducible apply sendRegw_keeps
    | with_reducible apply keeps_foldl
    | with_reducible apply keeps_ite
    | (have x := trivial; extract_lets +onlyGivenNames x; (fail_if_success have y : True := x); first | (refine keeps_step x ?_ (fun hx => ?_); focus dsimp -zeta only [x]; rotate_left; clear_value x; rotate_right) | skip)

theorem sendSections_keeps {o x0 x1} (h0 : Keeps o x0) : Keeps o (sendSections x0 x1) := by
  unfold sendSections
  repeat' first
    | with_reducible apply holdSets_keeps | with_reducible apply sendPreamp_keeps
    | with_reducible assumption | (intro) | with_reducible apply loadTileRegs_keeps
    | with_reducible apply swapInStore_keeps | with_reducible apply keeps_ite | with_reducible apply keeps_foldl
    | (have x := trivial; extract_lets +onlyGivenNames x; (fail_if_success have y : True := x); first | (refine keeps_step x ?_ (fun hx => ?_); focus dsimp -zeta only [x]; rotate_left; clear_value x; rotate_right) | skip)

theorem checkAgreement_keeps {o x0 x1} (h0 : Keeps o x0) : Keeps o (checkAgreement x0 x1).1 := by
  unfold checkAgreement
  repeat' first
    | simp -zeta only [↓keeps_mk, id_eq] | with_reducible assumption | with_reducible apply sendOptime_keeps
    | with_reducible apply setF_keeps | with_reducible apply owlPost_keeps
    | with_reducible apply sendSections_keeps | with_reducible apply bumpF_keeps | with_reducible apply keeps_ite
    | with_reducible apply keeps_ite_fst
    | (have x := trivial; extract_lets +onlyGivenNames x; (fail_if_success have y : True := x); first | (refine keeps_step x ?_ (fun hx => ?_); focus dsimp -zeta only [x]; rotate_left; clear_value x; rotate_right) | (have _ : State → State := x; dsimp -zeta only [x]) | (have _ : Nat → State → State := x; dsimp -zeta only [x]) | (have _ : State → Nat → State := x; dsimp -zeta only [x]) | skip)

theorem setLinkState_keeps {o x0 x1 x2} (h0 : Keeps o x0) : Keeps o (setLinkState x0 x1 x2) := by
  unfold setLinkState
  repeat' first
    | with_reducible assumption | with_reducible apply irqEdge_keeps | with_reducible apply setF_keeps
    | with_reducible apply keeps_ite

theorem retrain_keeps {o x0 x1} (h0 : Keeps o x0) : Keeps o (retrain x0 x1) := by
  unfold retrain
  repeat' first
    | with_reducible assumption | with_reducible apply setLinkState_keeps | with_reducible apply bumpF_keeps

theorem linkReplay_keeps {o x0 x1 x2 x3} (h0 : Keeps o x0) : Keeps o (linkReplay x0 x1 x2 x3) := by
  unfold linkReplay
  repeat' first
    | simp -zeta only [↓keeps_mk, id_eq] | with_reducible assumption | (intro) | with_reducible apply setLink_keeps
    | with_reducible apply emit_keeps | with_reducible apply bump_keeps | with_reducible apply retrain_keeps
    | with_reducible apply keeps_ite | with_reducible apply keeps_foldl
    | (have x := trivial; extract_lets +onlyGivenNames x; (fail_if_success have y : True := x); first | (refine keeps_step x ?_ (fun hx => ?_); focus dsimp -zeta only [x]; rotate_left; clear_value x; rotate_right) | skip)

theorem creditReturn_keeps {o x0 x1 x2 x3 x4} (h0 : Keeps o x0) : Keeps o (creditReturn x0 x1 x2 x3 x4) := by
  unfold creditReturn
  repeat' first
    | with_reducible assumption | (intro) | with_reducible apply modLink_keeps
    | (have x := trivial; extract_lets +onlyGivenNames x; (fail_if_success have y : True := x); first | (refine keeps_step x ?_ (fun hx => ?_); focus dsimp -zeta only [x]; rotate_left; clear_value x; rotate_right) | skip)

theorem flitReceive_keeps {o x0 x1 x2 x3 x4} (h0 : Keeps o x0) : Keeps o (flitReceive x0 x1 x2 x3 x4) := by
  unfold flitReceive
  repeat' first
    | simp -zeta only [↓keeps_mk, id_eq] | with_reducible assumption | with_reducible apply emit_keeps
    | with_reducible apply setLink_keeps | with_reducible apply creditReturn_keeps
    | with_reducible apply linkReplay_keeps | with_reducible apply keeps_ite
    | (have x := trivial; extract_lets +onlyGivenNames x; (fail_if_success have y : True := x); first | (refine keeps_step x ?_ (fun hx => ?_); focus dsimp -zeta only [x]; rotate_left; clear_value x; rotate_right) | skip)

theorem execFlitReceive_goes {o x0 x1 x2 x3 x4} (h0 : Keeps o x4) : Goes o (execFlitReceive x0 x1 x2 x3 x4) := by
  unfold execFlitReceive
  repeat' first
    | with_reducible assumption | with_reducible apply onTile_goes | with_reducible apply flitReceive_keeps
    | with_reducible apply keeps_ite | with_reducible apply goes_ite | with_reducible apply goes_next
    | exact goes_fault

theorem execLinkAckTimeout_goes {o x0 x1} (h0 : Keeps o x1) : Goes o (execLinkAckTimeout x0 x1) := by
  unfold execLinkAckTimeout
  repeat' first
    | with_reducible assumption | with_reducible apply onTile_goes | with_reducible apply retrain_keeps
    | with_reducible apply keeps_ite | with_reducible apply goes_ite | with_reducible apply goes_next

theorem linkOpen_keeps {o x0 x1} (h0 : Keeps o x0) : Keeps o (linkOpen x0 x1) := by
  unfold linkOpen
  repeat' first
    | with_reducible assumption | (intro) | with_reducible apply checkAgreement_keeps
    | with_reducible apply setLinkState_keeps | with_reducible apply settleZones_keeps
    | with_reducible apply mergeSets_keeps | with_reducible apply retireChanged_keeps
    | with_reducible apply recordMirror_keeps | with_reducible apply owlFlush_keeps
    | with_reducible apply keeps_ite | with_reducible apply keeps_ite_fst
    | (have x := trivial; extract_lets +onlyGivenNames x; (fail_if_success have y : True := x); first | (refine keeps_step x ?_ (fun hx => ?_); focus dsimp -zeta only [x]; rotate_left; clear_value x; rotate_right) | skip)

theorem linkDown_keeps {o x0 x1} (h0 : Keeps o x0) : Keeps o (linkDown x0 x1) := by
  unfold linkDown
  repeat' first
    | simp -zeta only [↓keeps_mk, id_eq] | with_reducible assumption | with_reducible apply setLinkState_keeps
    | with_reducible apply setF_keeps | with_reducible apply endTileWrites_keeps
    | with_reducible apply dropTileReads_keeps | with_reducible apply retireTile_keeps
    | (have x := trivial; extract_lets +onlyGivenNames x; (fail_if_success have y : True := x); first | (refine keeps_step x ?_ (fun hx => ?_); focus dsimp -zeta only [x]; rotate_left; clear_value x; rotate_right) | skip)

theorem linkTrained_keeps {o x0 x1 x2} (h0 : Keeps o x0) : Keeps o (linkTrained x0 x1 x2) := by
  unfold linkTrained
  repeat' first
    | simp -zeta only [↓keeps_mk, id_eq] | with_reducible assumption | with_reducible apply modLink_keeps
    | with_reducible apply setLinkState_keeps | with_reducible apply linkOpen_keeps
    | with_reducible apply linkDown_keeps | with_reducible apply retrain_keeps | with_reducible apply keeps_ite
    | (have x := trivial; extract_lets +onlyGivenNames x; (fail_if_success have y : True := x); first | (refine keeps_step x ?_ (fun hx => ?_); focus dsimp -zeta only [x]; rotate_left; clear_value x; rotate_right) | (have _ : State → State := x; dsimp -zeta only [x]) | (have _ : Nat → State → State := x; dsimp -zeta only [x]) | (have _ : State → Nat → State := x; dsimp -zeta only [x]) | skip)

theorem execLinkTrained_goes {o x0 x1 x2} (h0 : Keeps o x2) : Goes o (execLinkTrained x0 x1 x2) := by
  unfold execLinkTrained
  repeat' first
    | with_reducible assumption | with_reducible apply onTile_goes | with_reducible apply linkTrained_keeps
    | with_reducible apply goes_next

theorem execPaceMeasure_goes {o x0 x1} (h0 : Keeps o x1) : Goes o (execPaceMeasure x0 x1) := by
  unfold execPaceMeasure
  repeat' first
    | with_reducible assumption | with_reducible apply setReg_keeps | with_reducible apply keeps_ite
    | with_reducible apply goes_ite | with_reducible apply goes_next

theorem partnerReady_keeps {o x0 x1} (h0 : Keeps o x0) : Keeps o (partnerReady x0 x1) := by
  unfold partnerReady
  repeat' first
    | with_reducible assumption | with_reducible apply setPartner_keeps
    | (have x := trivial; extract_lets +onlyGivenNames x; (fail_if_success have y : True := x); first | (refine keeps_step x ?_ (fun hx => ?_); focus dsimp -zeta only [x]; rotate_left; clear_value x; rotate_right) | skip)
    | split

theorem toBuffer_keeps {o x0 x1} (h0 : Keeps o x0) : Keeps o (toBuffer x0 x1) := by
  unfold toBuffer
  repeat' first
    | simp -zeta only [↓keeps_mk, id_eq] | with_reducible assumption
    | (have x := trivial; extract_lets +onlyGivenNames x; (fail_if_success have y : True := x); first | (refine keeps_step x ?_ (fun hx => ?_); focus dsimp -zeta only [x]; rotate_left; clear_value x; rotate_right) | skip)

theorem cipherDecrypt_keeps {o x0 x1} (h0 : Keeps o x0) : Keeps o (cipherDecrypt x0 x1) := by
  unfold cipherDecrypt
  repeat' first
    | simp -zeta only [↓keeps_mk, id_eq] | with_reducible assumption | (intro)
    | with_reducible apply freeCredits_keeps | with_reducible apply recoverCtx_keeps
    | with_reducible apply toBuffer_keeps | with_reducible apply setPartner_keeps
    | with_reducible apply partnerReady_keeps | with_reducible apply endCtx_keeps | with_reducible apply bump_keeps
    | with_reducible apply modDet_keeps | with_reducible apply keeps_ite
    | (have x := trivial; extract_lets +onlyGivenNames x; (fail_if_success have y : True := x); first | (refine keeps_step x ?_ (fun hx => ?_); focus dsimp -zeta only [x]; rotate_left; clear_value x; rotate_right) | (have _ : State → State := x; dsimp -zeta only [x]) | (have _ : Nat → State → State := x; dsimp -zeta only [x]) | (have _ : State → Nat → State := x; dsimp -zeta only [x]) | skip)
    | split

theorem execCipherDecrypt_goes {o x0 x1} (h0 : Keeps o x1) : Goes o (execCipherDecrypt x0 x1) := by
  unfold execCipherDecrypt
  repeat' first
    | with_reducible assumption | with_reducible apply onTile_goes | with_reducible apply cipherDecrypt_keeps
    | with_reducible apply goes_next

theorem journalState_keeps {o x0} (h0 : Keeps o x0) : Keeps o (journalState x0) := by
  unfold journalState
  repeat' first
    | with_reducible assumption | (intro) | with_reducible apply persistLevel_keeps
    | with_reducible apply setF_keeps | with_reducible apply keeps_ite
    | (have x := trivial; extract_lets +onlyGivenNames x; (fail_if_success have y : True := x); first | (refine keeps_step x ?_ (fun hx => ?_); focus dsimp -zeta only [x]; rotate_left; clear_value x; rotate_right) | (have _ : State → State := x; dsimp -zeta only [x]) | (have _ : Nat → State → State := x; dsimp -zeta only [x]) | (have _ : State → Nat → State := x; dsimp -zeta only [x]) | skip)

theorem wantRecord_keeps {o x0 x1} (h0 : Keeps o x0) : Keeps o (wantRecord x0 x1) := by
  unfold wantRecord
  repeat' first
    | simp -zeta only [↓keeps_mk, id_eq] | with_reducible assumption | with_reducible apply journalState_keeps
    | with_reducible apply setSlot_keeps | with_reducible apply keeps_ite
    | (have x := trivial; extract_lets +onlyGivenNames x; (fail_if_success have y : True := x); first | (refine keeps_step x ?_ (fun hx => ?_); focus dsimp -zeta only [x]; rotate_left; clear_value x; rotate_right) | skip)

theorem journalDone_keeps {o x0 x1 x2} (h0 : Keeps o x0) : Keeps o (journalDone x0 x1 x2) := by
  unfold journalDone
  repeat' first
    | simp -zeta only [↓keeps_mk, id_eq] | with_reducible assumption | with_reducible apply journalState_keeps
    | with_reducible apply bumpF_keeps | with_reducible apply setSlot_keeps | with_reducible apply owlHub_keeps
    | with_reducible apply keeps_ite
    | (have x := trivial; extract_lets +onlyGivenNames x; (fail_if_success have y : True := x); first | (refine keeps_step x ?_ (fun hx => ?_); focus dsimp -zeta only [x]; rotate_left; clear_value x; rotate_right) | skip)
    | split

theorem execJournalWriteDone_goes {o x0 x1 x2 x3} (h0 : Keeps o x3) :
    Goes o (execJournalWriteDone x0 x1 x2 x3) := by
  unfold execJournalWriteDone
  repeat' first
    | with_reducible assumption | with_reducible apply onOk_goes | with_reducible apply journalDone_keeps
    | with_reducible apply goes_next

theorem execJournalRetry_goes {o x0 x1 x2} (h0 : Keeps o x2) : Goes o (execJournalRetry x0 x1 x2) := by
  unfold execJournalRetry
  repeat' first
    | simp -zeta only [↓keeps_mk, id_eq] | with_reducible assumption | with_reducible apply onOk_goes
    | with_reducible apply journalState_keeps | with_reducible apply setSlot_keeps | with_reducible apply keeps_ite
    | with_reducible apply goes_ite | with_reducible apply goes_next
    | (have x := trivial; extract_lets +onlyGivenNames x; (fail_if_success have y : True := x); first | (refine goes_step x ?_ (fun hx => ?_); focus dsimp -zeta only [x]; rotate_left; clear_value x; rotate_right) | (refine keeps_step x ?_ (fun hx => ?_); focus dsimp -zeta only [x]; rotate_left; clear_value x; rotate_right) | skip)

theorem toTile_keeps {o x0 x1} (h0 : Keeps o x0) : Keeps o (toTile x0 x1) := by
  unfold toTile
  repeat' first
    | simp -zeta only [↓keeps_mk, id_eq] | with_reducible assumption | (intro) | with_reducible apply modWr_keeps
    | with_reducible apply sendFlits_keeps
    | (have x := trivial; extract_lets +onlyGivenNames x; (fail_if_success have y : True := x); first | (refine keeps_step x ?_ (fun hx => ?_); focus dsimp -zeta only [x]; rotate_left; clear_value x; rotate_right) | skip)

theorem skipIssue_keeps {o x0 x1} (h0 : Keeps o x0) : Keeps o (skipIssue x0 x1) := by
  unfold skipIssue
  repeat' first
    | with_reducible assumption | with_reducible apply applyResult_keeps | with_reducible apply bump_keeps

theorem noteWaits_keeps {o x0} (h0 : Keeps o x0) : Keeps o (noteWaits x0) := by
  unfold noteWaits
  repeat' first
    | simp -zeta only [↓keeps_mk, id_eq] | with_reducible assumption | (intro)
    | with_reducible apply wantRecord_keeps | with_reducible apply bump_keeps | with_reducible apply setSlot_keeps
    | with_reducible apply keeps_ite | with_reducible apply keeps_foldl
    | (have x := trivial; extract_lets +onlyGivenNames x; (fail_if_success have y : True := x); first | (refine keeps_step x ?_ (fun hx => ?_); focus dsimp -zeta only [x]; rotate_left; clear_value x; rotate_right) | skip)

theorem cipherEncrypt_keeps {o x0} (h0 : Keeps o x0) : Keeps o (cipherEncrypt x0) := by
  unfold cipherEncrypt
  repeat' first
    | simp -zeta only [↓keeps_mk, id_eq] | with_reducible assumption | with_reducible apply noteWaits_keeps
    | with_reducible apply applyResult_keeps | with_reducible apply toTile_keeps
    | with_reducible apply skipIssue_keeps | with_reducible apply bump_keeps | with_reducible apply setSlot_keeps
    | with_reducible apply shadowCheck_keeps | with_reducible apply keeps_ite
    | (have x := trivial; extract_lets +onlyGivenNames x; (fail_if_success have y : True := x); first | (refine keeps_step x ?_ (fun hx => ?_); focus dsimp -zeta only [x]; rotate_left; clear_value x; rotate_right) | skip)
    | split

theorem execCipherEncrypt_goes {o x0} (h0 : Keeps o x0) : Goes o (execCipherEncrypt x0) := by
  unfold execCipherEncrypt
  repeat' first
    | with_reducible assumption | with_reducible apply cipherEncrypt_keeps | with_reducible apply goes_next

theorem clearSkey_keeps {o x0 x1 x2} (h0 : Keeps o x0) : Keeps o (clearSkey x0 x1 x2) := by
  unfold clearSkey
  repeat' first
    | with_reducible assumption | (intro) | with_reducible apply setReg_keeps | with_reducible apply keeps_foldl

theorem setSkcv_keeps {o x0 x1 x2} (h0 : Keeps o x0) : Keeps o (setSkcv x0 x1 x2) := by
  unfold setSkcv
  repeat' first
    | with_reducible assumption | with_reducible apply setReg_keeps | split

theorem keyLoad_keeps {o x0 x1 x2} (h0 : Keeps o x0) : Keeps o (keyLoad x0 x1 x2).1 := by
  unfold keyLoad
  repeat' first
    | simp -zeta only [↓keeps_mk, id_eq] | with_reducible assumption | (intro) | with_reducible apply setSkcv_keeps
    | with_reducible apply clearSkey_keeps | with_reducible apply setSlot_keeps
    | with_reducible apply shadowCheck_keeps | with_reducible apply makeEligible_keeps
    | with_reducible apply keeps_ite | with_reducible apply keeps_ite_fst
    | (have x := trivial; extract_lets +onlyGivenNames x; (fail_if_success have y : True := x); first | (refine keeps_step x ?_ (fun hx => ?_); focus dsimp -zeta only [x]; rotate_left; clear_value x; rotate_right) | skip)

theorem eraseEffects_keeps {o x0 x1} (h0 : Keeps o x0) : Keeps o (eraseEffects x0 x1) := by
  unfold eraseEffects
  repeat' first
    | simp -zeta only [↓keeps_mk, id_eq] | with_reducible assumption | (intro) | with_reducible apply dropCtx_keeps
    | with_reducible apply invalidate_keeps | with_reducible apply discardSlot_keeps
    | with_reducible apply completeCmd_keeps | with_reducible apply setCmd_keeps
    | with_reducible apply freePages_keeps | with_reducible apply keeps_ite | with_reducible apply keeps_foldl
    | (have x := trivial; extract_lets +onlyGivenNames x; (fail_if_success have y : True := x); first | (refine keeps_step x ?_ (fun hx => ?_); focus dsimp -zeta only [x]; rotate_left; clear_value x; rotate_right) | (have _ : State → State := x; dsimp -zeta only [x]) | (have _ : Nat → State → State := x; dsimp -zeta only [x]) | (have _ : State → Nat → State := x; dsimp -zeta only [x]) | skip)
    | split

theorem slotErase_keeps {o x0 x1 x2} (h0 : Keeps o x0) : Keeps o (slotErase x0 x1 x2) := by
  unfold slotErase
  repeat' first
    | simp -zeta only [↓keeps_mk, id_eq] | with_reducible assumption | (intro)
    | with_reducible apply clearSkey_keeps | with_reducible apply eraseEffects_keeps
    | with_reducible apply setSkcv_keeps | with_reducible apply setSlot_keeps | with_reducible apply keeps_ite
    | (have x := trivial; extract_lets +onlyGivenNames x; (fail_if_success have y : True := x); first | (refine keeps_step x ?_ (fun hx => ?_); focus dsimp -zeta only [x]; rotate_left; clear_value x; rotate_right) | skip)

theorem scmdWrite_keeps {o x0 x1 x2 x3 x4} (h0 : Keeps o x0) : Keeps o (scmdWrite x0 x1 x2 x3 x4).1 := by
  unfold scmdWrite
  repeat' first
    | with_reducible assumption | with_reducible apply keyLoad_keeps | with_reducible apply slotErase_keeps
    | with_reducible apply keeps_ite | with_reducible apply keeps_ite_fst

theorem settReply_keeps {o x0 x1 x2 x3 x4} (h0 : Keeps o x0.1) : Keeps o (settReply x0 x1 x2 x3 x4) := by
  unfold settReply
  repeat' first
    | with_reducible assumption | with_reducible apply emit_keeps

theorem execKeyLoad_goes {o x0 x1 x2 x3} (h0 : Keeps o x3) : Goes o (execKeyLoad x0 x1 x2 x3) := by
  unfold execKeyLoad
  repeat' first
    | with_reducible assumption | with_reducible apply onOk_goes | with_reducible apply settReply_keeps
    | with_reducible apply scmdWrite_keeps | with_reducible apply goes_next

theorem execSlotErase_goes {o x0 x1 x2 x3} (h0 : Keeps o x3) : Goes o (execSlotErase x0 x1 x2 x3) := by
  unfold execSlotErase
  repeat' first
    | with_reducible assumption | with_reducible apply onOk_goes | with_reducible apply settReply_keeps
    | with_reducible apply scmdWrite_keeps | with_reducible apply goes_next

theorem zeroKeys_keeps {o x0} (h0 : Keeps o x0) : Keeps o (zeroKeys x0) := by
  unfold zeroKeys
  repeat' first
    | simp -zeta only [↓keeps_mk, id_eq] | with_reducible assumption | (intro) | with_reducible apply setSkcv_keeps
    | with_reducible apply keeps_foldl
    | (have x := trivial; extract_lets +onlyGivenNames x; (fail_if_success have y : True := x); first | (refine keeps_step x ?_ (fun hx => ?_); focus dsimp -zeta only [x]; rotate_left; clear_value x; rotate_right) | skip)

theorem eraseSlots_keeps {o x0} (h0 : Keeps o x0) : Keeps o (eraseSlots x0) := by
  unfold eraseSlots
  repeat' first
    | simp -zeta only [↓keeps_mk, id_eq] | with_reducible assumption | (intro) | with_reducible apply setSlot_keeps
    | with_reducible apply keeps_foldl
    | (have x := trivial; extract_lets +onlyGivenNames x; (fail_if_success have y : True := x); first | (refine keeps_step x ?_ (fun hx => ?_); focus dsimp -zeta only [x]; rotate_left; clear_value x; rotate_right) | skip)

theorem alarmLevel_keeps {o x0} (h0 : Keeps o x0) : Keeps o (alarmLevel x0) := by
  unfold alarmLevel
  repeat' first
    | with_reducible assumption | with_reducible apply setB_keeps | with_reducible apply irqLevel_keeps
    | (have x := trivial; extract_lets +onlyGivenNames x; (fail_if_success have y : True := x); first | (refine keeps_step x ?_ (fun hx => ?_); focus dsimp -zeta only [x]; rotate_left; clear_value x; rotate_right) | skip)

theorem raiseAlarm_keeps {o x0 x1} (h0 : Keeps o x0) : Keeps o (raiseAlarm x0 x1) := by
  unfold raiseAlarm
  repeat' first
    | with_reducible assumption | (intro) | with_reducible apply alarmLevel_keeps | with_reducible apply setB_keeps
    | with_reducible apply owlHub_keeps | with_reducible apply eraseEffects_keeps
    | with_reducible apply eraseSlots_keeps | with_reducible apply zeroKeys_keeps
    | (have x := trivial; extract_lets +onlyGivenNames x; (fail_if_success have y : True := x); first | (refine keeps_step x ?_ (fun hx => ?_); focus dsimp -zeta only [x]; rotate_left; clear_value x; rotate_right) | skip)

theorem keyAlarm_keeps {o x0 x1} (h0 : Keeps o x0) : Keeps o (keyAlarm x0 x1) := by
  unfold keyAlarm
  repeat' first
    | simp -zeta only [↓keeps_mk, id_eq] | with_reducible assumption | with_reducible apply zeroKeys_keeps
    | with_reducible apply irqEvent_keeps | with_reducible apply raiseAlarm_keeps | with_reducible apply keeps_ite
    | (have x := trivial; extract_lets +onlyGivenNames x; (fail_if_success have y : True := x); first | (refine keeps_step x ?_ (fun hx => ?_); focus dsimp -zeta only [x]; rotate_left; clear_value x; rotate_right) | skip)

theorem execEraseall_goes {o x0} (h0 : Keeps o x0) : Goes o (execEraseall x0) := by
  unfold execEraseall
  repeat' first
    | with_reducible assumption | with_reducible apply emit_keeps | with_reducible apply keyAlarm_keeps
    | with_reducible apply goes_next

theorem execKeyEraseNLow_goes {o x0 x1} (h0 : Keeps o x1) : Goes o (execKeyEraseNLow x0 x1) := by
  unfold execKeyEraseNLow
  repeat' first
    | simp -zeta only [↓keeps_mk, id_eq] | with_reducible assumption | with_reducible apply keyAlarm_keeps
    | with_reducible apply keeps_ite | with_reducible apply goes_ite | with_reducible apply goes_next
    | (have x := trivial; extract_lets +onlyGivenNames x; (fail_if_success have y : True := x); first | (refine goes_step x ?_ (fun hx => ?_); focus dsimp -zeta only [x]; rotate_left; clear_value x; rotate_right) | (refine keeps_step x ?_ (fun hx => ?_); focus dsimp -zeta only [x]; rotate_left; clear_value x; rotate_right) | skip)

theorem execKeyEraseNRelease_goes {o x0} (h0 : Keeps o x0) : Goes o (execKeyEraseNRelease x0) := by
  unfold execKeyEraseNRelease
  repeat' first
    | simp -zeta only [↓keeps_mk, id_eq] | with_reducible assumption | with_reducible apply alarmLevel_keeps
    | with_reducible apply goes_next
    | (have x := trivial; extract_lets +onlyGivenNames x; (fail_if_success have y : True := x); first | (refine goes_step x ?_ (fun hx => ?_); focus dsimp -zeta only [x]; rotate_left; clear_value x; rotate_right) | (refine keeps_step x ?_ (fun hx => ?_); focus dsimp -zeta only [x]; rotate_left; clear_value x; rotate_right) | skip)

theorem execTemperatureAlarm_goes {o x0 x1} (h0 : Keeps o x1) : Goes o (execTemperatureAlarm x0 x1) := by
  unfold execTemperatureAlarm
  repeat' first
    | simp -zeta only [↓keeps_mk, id_eq] | with_reducible assumption | with_reducible apply keyAlarm_keeps
    | with_reducible apply keeps_ite | with_reducible apply goes_ite | with_reducible apply goes_next
    | (have x := trivial; extract_lets +onlyGivenNames x; (fail_if_success have y : True := x); first | (refine goes_step x ?_ (fun hx => ?_); focus dsimp -zeta only [x]; rotate_left; clear_value x; rotate_right) | (refine keeps_step x ?_ (fun hx => ?_); focus dsimp -zeta only [x]; rotate_left; clear_value x; rotate_right) | skip)

theorem execTemperatureAlarmClear_goes {o x0 x1} (h0 : Keeps o x1) : Goes o (execTemperatureAlarmClear x0 x1) := by
  unfold execTemperatureAlarmClear
  repeat' first
    | simp -zeta only [↓keeps_mk, id_eq] | with_reducible assumption | with_reducible apply alarmLevel_keeps
    | with_reducible apply keeps_ite | with_reducible apply goes_ite | with_reducible apply goes_next
    | (have x := trivial; extract_lets +onlyGivenNames x; (fail_if_success have y : True := x); first | (refine goes_step x ?_ (fun hx => ?_); focus dsimp -zeta only [x]; rotate_left; clear_value x; rotate_right) | (refine keeps_step x ?_ (fun hx => ?_); focus dsimp -zeta only [x]; rotate_left; clear_value x; rotate_right) | skip)

theorem execGlitchTrip_goes {o x0 x1 x2 x3} (h0 : Keeps o x3) : Goes o (execGlitchTrip x0 x1 x2 x3) := by
  unfold execGlitchTrip
  repeat' first
    | with_reducible assumption | with_reducible apply onOk_goes | with_reducible apply keyAlarm_keeps
    | with_reducible apply keeps_ite | with_reducible apply goes_ite | with_reducible apply goes_next
    | (have x := trivial; extract_lets +onlyGivenNames x; (fail_if_success have y : True := x); first | (refine goes_step x ?_ (fun hx => ?_); focus dsimp -zeta only [x]; rotate_left; clear_value x; rotate_right) | (refine keeps_step x ?_ (fun hx => ?_); focus dsimp -zeta only [x]; rotate_left; clear_value x; rotate_right) | skip)

theorem putSettBytes_keeps {o x0 x1 x2 x3} (h0 : Keeps o x0) : Keeps o (putSettBytes x0 x1 x2 x3) := by
  unfold putSettBytes
  repeat' first
    | with_reducible assumption | (intro) | with_reducible apply setReg_keeps | with_reducible apply keeps_foldl

theorem testRun_keeps {o x0 x1} (h0 : Keeps o x0) : Keeps o (testRun x0 x1).1 := by
  unfold testRun
  repeat' first
    | with_reducible assumption | with_reducible apply setReg_keeps | with_reducible apply putSettBytes_keeps
    | with_reducible apply keeps_ite | with_reducible apply keeps_ite_fst
    | (have x := trivial; extract_lets +onlyGivenNames x; (fail_if_success have y : True := x); first | (refine keeps_step x ?_ (fun hx => ?_); focus dsimp -zeta only [x]; rotate_left; clear_value x; rotate_right) | (have _ : State → State := x; dsimp -zeta only [x]) | (have _ : Nat → State → State := x; dsimp -zeta only [x]) | (have _ : State → Nat → State := x; dsimp -zeta only [x]) | skip)
    | split

theorem testGo_keeps {o x0 x1 x2} (h0 : Keeps o x0) : Keeps o (testGo x0 x1 x2).1 := by
  unfold testGo
  repeat' first
    | with_reducible assumption | with_reducible apply testRun_keeps | with_reducible apply keeps_ite
    | with_reducible apply keeps_ite_fst

theorem execTestOperation_goes {o x0 x1 x2} (h0 : Keeps o x2) : Goes o (execTestOperation x0 x1 x2) := by
  unfold execTestOperation
  repeat' first
    | with_reducible assumption | with_reducible apply onOk_goes | with_reducible apply settReply_keeps
    | with_reducible apply testGo_keeps | with_reducible apply goes_next

theorem dirtyReported_keeps {o x0 x1} (h0 : Keeps o x0) : Keeps o (dirtyReported x0 x1) := by
  unfold dirtyReported
  repeat' first
    | simp -zeta only [↓keeps_mk, id_eq] | with_reducible assumption | (intro)
    | with_reducible apply mapUnits_keeps | with_reducible apply keeps_ite
    | (have x := trivial; extract_lets +onlyGivenNames x; (fail_if_success have y : True := x); first | (refine keeps_step x ?_ (fun hx => ?_); focus dsimp -zeta only [x]; rotate_left; clear_value x; rotate_right) | skip)

theorem encroachReadback_keeps {o x0 x1} (h0 : Keeps o x0) : Keeps o (encroachReadback x0 x1) := by
  unfold encroachReadback
  repeat' first
    | simp -zeta only [↓keeps_mk, id_eq] | with_reducible assumption | (intro)
    | with_reducible apply modHeadW_keeps | with_reducible apply dirtyReported_keeps
    | with_reducible apply wantSectors_keeps | with_reducible apply keeps_ite
    | (have x := trivial; extract_lets +onlyGivenNames x; (fail_if_success have y : True := x); first | (refine keeps_step x ?_ (fun hx => ?_); focus dsimp -zeta only [x]; rotate_left; clear_value x; rotate_right) | skip)
    | split

theorem execEncroachReadback_goes {o x0 x1} (h0 : Keeps o x1) : Goes o (execEncroachReadback x0 x1) := by
  unfold execEncroachReadback
  repeat' first
    | with_reducible assumption | with_reducible apply onTileCh_goes | with_reducible apply encroachReadback_keeps
    | with_reducible apply goes_next

end Sys2Proof.Machine
end

