-- ==== Sys2Proof/Laws/KeepsHost.lean ====
section
/-! SUPPORT. What the queues, zones, resets of queues, the admin and fabrics commands and the host ports keep (`Keeps`): one lemma per operation. -/

namespace Sys2Proof.Machine

theorem stageAll_keeps {o x0 x1} (h0 : Keeps o x0) : Keeps o (stageAll x0 x1) := by
  unfold stageAll
  repeat' first
    | with_reducible assumption | (intro) | with_reducible apply takePage_may
    | exact May.of ‹_› (takePage_may (by with_reducible assumption)) | with_reducible apply pageWritten_keeps
    | with_reducible apply keeps_ite | with_reducible apply keeps_foldl | split

theorem enter_keeps {o x0 x1 x2 x3} (h0 : Keeps o x0) : Keeps o (enter x0 x1 x2 x3) := by
  unfold enter
  repeat' first
    | simp -zeta only [↓keeps_mk, id_eq] | with_reducible assumption | (intro)
    | with_reducible apply dispatchPacket_keeps | with_reducible apply trackStream_keeps
    | with_reducible apply setCmd_keeps | with_reducible apply makeEligible_keeps | with_reducible apply bump_keeps
    | with_reducible apply writeProgress_keeps | with_reducible apply stageAll_keeps
    | with_reducible apply keeps_ite | with_reducible apply keeps_ite_fst
    | (have x := trivial; extract_lets +onlyGivenNames x; (fail_if_success have y : True := x); first | (refine keeps_step x ?_ (fun hx => ?_); focus dsimp -zeta only [x]; rotate_left; clear_value x; rotate_right) | skip)

theorem popCapsule_keeps {o x0 x1} (h0 : Keeps o x0) : Keeps o (popCapsule x0 x1) := by
  unfold popCapsule
  repeat' first
    | simp -zeta only [↓keeps_mk, id_eq] | with_reducible assumption | with_reducible apply setQp_keeps
    | (have x := trivial; extract_lets +onlyGivenNames x; (fail_if_success have y : True := x); first | (refine keeps_step x ?_ (fun hx => ?_); focus dsimp -zeta only [x]; rotate_left; clear_value x; rotate_right) | skip)

theorem fullOut_keeps {o x0 x1 x2} (h0 : Keeps o x0) : Keeps o (fullOut x0 x1 x2) := by
  unfold fullOut
  repeat' first
    | with_reducible assumption | with_reducible apply postCqe_keeps | with_reducible apply bump_keeps
    | with_reducible apply popCapsule_keeps

theorem assocFeature_may {o x0 x1 x2 x3} (h0 : Keeps o x0) : May o (assocFeature x0 x1 x2 x3) := by
  unfold assocFeature
  repeat' first
    | simp -zeta only [↓keeps_mk, id_eq] | with_reducible assumption | (intro)
    | with_reducible apply setAssoc_keeps | with_reducible apply keeps_ite | with_reducible apply may_some
    | exact may_none | with_reducible apply keeps_foldl | with_reducible apply keeps_getD
    | (have x := trivial; extract_lets +onlyGivenNames x; (fail_if_success have y : True := x); first | (refine may_step x ?_ (fun hx => ?_); focus dsimp -zeta only [x]; rotate_left; clear_value x; rotate_right) | (refine keeps_step x ?_ (fun hx => ?_); focus dsimp -zeta only [x]; rotate_left; clear_value x; rotate_right) | (have _ : State → State := x; dsimp -zeta only [x]) | (have _ : Nat → State → State := x; dsimp -zeta only [x]) | (have _ : State → Nat → State := x; dsimp -zeta only [x]) | skip)
    | with_reducible apply keeps_mk_free | with_reducible apply keeps_mk_filter | split

theorem capsuleAdmit_keeps {o x0 x1} (h0 : Keeps o x0) : Keeps o (capsuleAdmit x0 x1) := by
  unfold capsuleAdmit
  repeat' first
    | simp -zeta only [↓keeps_mk, id_eq] | with_reducible assumption | with_reducible apply popCapsule_keeps
    | with_reducible apply postCqe_keeps | with_reducible apply assocFeature_may
    | exact May.of ‹_› (assocFeature_may (by with_reducible assumption)) | with_reducible apply enter_keeps
    | with_reducible apply bump_keeps | with_reducible apply setQp_keeps | with_reducible apply fullOut_keeps
    | with_reducible apply keeps_ite
    | (have x := trivial; extract_lets +onlyGivenNames x; (fail_if_success have y : True := x); first | (refine keeps_step x ?_ (fun hx => ?_); focus dsimp -zeta only [x]; rotate_left; clear_value x; rotate_right) | skip)
    | split

theorem execCapsuleAdmit_goes {o x0 x1} (h0 : Keeps o x1) : Goes o (execCapsuleAdmit x0 x1) := by
  unfold execCapsuleAdmit
  repeat' first
    | with_reducible assumption | with_reducible apply onOk_goes | with_reducible apply capsuleAdmit_keeps
    | with_reducible apply goes_next

theorem execQfullTimeout_goes {o x0 x1} (h0 : Keeps o x1) : Goes o (execQfullTimeout x0 x1) := by
  unfold execQfullTimeout
  repeat' first
    | with_reducible assumption | with_reducible apply onOk_goes | with_reducible apply fullOut_keeps
    | with_reducible apply keeps_ite | with_reducible apply goes_ite | with_reducible apply goes_next
    | (have x := trivial; extract_lets +onlyGivenNames x; (fail_if_success have y : True := x); first | (refine goes_step x ?_ (fun hx => ?_); focus dsimp -zeta only [x]; rotate_left; clear_value x; rotate_right) | (refine keeps_step x ?_ (fun hx => ?_); focus dsimp -zeta only [x]; rotate_left; clear_value x; rotate_right) | skip)
    | split

theorem ackSend_keeps {o x0 x1} (h0 : Keeps o x0) : Keeps o (ackSend x0 x1) := by
  unfold ackSend
  exact emit_keeps h0

theorem refuseSend_keeps {o x0 x1} (h0 : Keeps o x0) : Keeps o (refuseSend x0 x1) := by
  unfold refuseSend
  exact emit_keeps (bump_keeps (setQp_keeps h0))

theorem capsuleReceive_keeps {o x0 x1 x2} (h0 : Keeps o x0) : Keeps o (capsuleReceive x0 x1 x2) := by
  unfold capsuleReceive
  repeat' first
    | simp -zeta only [↓keeps_mk, id_eq] | with_reducible assumption | with_reducible apply postCqe_keeps
    | with_reducible apply ackSend_keeps | with_reducible apply refuseSend_keeps | with_reducible apply setQp_keeps
    | with_reducible apply keeps_ite
    | (have x := trivial; extract_lets +onlyGivenNames x; (fail_if_success have y : True := x); first | (refine keeps_step x ?_ (fun hx => ?_); focus dsimp -zeta only [x]; rotate_left; clear_value x; rotate_right) | skip)

theorem execCapsuleReceive_goes {o x0 x1 x2} (h0 : Keeps o x2) : Goes o (execCapsuleReceive x0 x1 x2) := by
  unfold execCapsuleReceive
  repeat' first
    | with_reducible assumption | with_reducible apply onOk_goes | with_reducible apply capsuleReceive_keeps
    | with_reducible apply goes_next

theorem invalidateCmd_keeps {o x0 x1} (h0 : Keeps o x0) : Keeps o (invalidateCmd x0 x1) := by
  unfold invalidateCmd
  repeat' first
    | with_reducible assumption | (intro) | with_reducible apply invalidate_keeps
    | with_reducible apply keeps_foldl
    | (have x := trivial; extract_lets +onlyGivenNames x; (fail_if_success have y : True := x); first | (refine keeps_step x ?_ (fun hx => ?_); focus dsimp -zeta only [x]; rotate_left; clear_value x; rotate_right) | skip)

theorem takeTurn_keeps {o x0 x1} (h0 : Keeps o x0) : Keeps o (takeTurn x0 x1) := by
  unfold takeTurn
  repeat' first
    | simp -zeta only [↓keeps_mk, id_eq] | with_reducible assumption | with_reducible apply dispatchPacket_keeps
    | with_reducible apply setCmd_keeps
    | (have x := trivial; extract_lets +onlyGivenNames x; (fail_if_success have y : True := x); first | (refine keeps_step x ?_ (fun hx => ?_); focus dsimp -zeta only [x]; rotate_left; clear_value x; rotate_right) | skip)

theorem orderingTurn_keeps {o x0 x1} (h0 : Keeps o x0) : Keeps o (orderingTurn x0 x1) := by
  unfold orderingTurn
  repeat' first
    | simp -zeta only [↓keeps_mk, id_eq] | with_reducible assumption | with_reducible apply completeCmd_keeps
    | with_reducible apply takeTurn_keeps | with_reducible apply setCmd_keeps
    | with_reducible apply invalidateCmd_keeps | with_reducible apply keeps_ite
    | (have x := trivial; extract_lets +onlyGivenNames x; (fail_if_success have y : True := x); first | (refine keeps_step x ?_ (fun hx => ?_); focus dsimp -zeta only [x]; rotate_left; clear_value x; rotate_right) | skip)
    | split

theorem execOrderingTurn_goes {o x0 x1} (h0 : Keeps o x1) : Goes o (execOrderingTurn x0 x1) := by
  unfold execOrderingTurn
  repeat' first
    | with_reducible assumption | with_reducible apply orderingTurn_keeps | with_reducible apply goes_next

theorem invalidateDeleted_keeps {o x0} (h0 : Keeps o x0) : Keeps o (invalidateDeleted x0) := by
  unfold invalidateDeleted
  repeat' first
    | with_reducible assumption | (intro) | with_reducible apply invalidate_keeps | with_reducible apply keeps_ite
    | with_reducible apply keeps_foldl
    | (have x := trivial; extract_lets +onlyGivenNames x; (fail_if_success have y : True := x); first | (refine keeps_step x ?_ (fun hx => ?_); focus dsimp -zeta only [x]; rotate_left; clear_value x; rotate_right) | skip)

theorem deleteEnds_keeps {o x0 x1} (h0 : Keeps o x0) : Keeps o (deleteEnds x0 x1) := by
  unfold deleteEnds
  repeat' first
    | with_reducible assumption | with_reducible apply completeCmd_keeps

theorem scanDone_keeps {o x0 x1} (h0 : Keeps o x0) : Keeps o (scanDone x0 x1) := by
  unfold scanDone
  repeat' first
    | simp -zeta only [↓keeps_mk, id_eq] | with_reducible assumption | (intro)
    | with_reducible apply deleteEnds_keeps | with_reducible apply invalidateDeleted_keeps
    | with_reducible apply invalidateCmd_keeps | with_reducible apply setCmd_keeps | with_reducible apply keeps_ite
    | (have x := trivial; extract_lets +onlyGivenNames x; (fail_if_success have y : True := x); first | (refine keeps_step x ?_ (fun hx => ?_); focus dsimp -zeta only [x]; rotate_left; clear_value x; rotate_right) | skip)
    | split

theorem execInvalidationScanDone_goes {o x0 x1} (h0 : Keeps o x1) : Goes o (execInvalidationScanDone x0 x1) := by
  unfold execInvalidationScanDone
  repeat' first
    | with_reducible assumption | with_reducible apply scanDone_keeps | with_reducible apply goes_next

theorem onCmd_goes {o x0 x1 x2 x3} (h0 : Keeps o x0) (h1 : Keeps o x3) : Goes o (onCmd x0 x1 x2 x3) := by
  unfold onCmd
  repeat' first
    | with_reducible assumption | with_reducible apply keeps_ite | with_reducible apply goes_ite
    | with_reducible apply goes_next
    | (have x := trivial; extract_lets +onlyGivenNames x; (fail_if_success have y : True := x); first | (refine goes_step x ?_ (fun hx => ?_); focus dsimp -zeta only [x]; rotate_left; clear_value x; rotate_right) | (refine keeps_step x ?_ (fun hx => ?_); focus dsimp -zeta only [x]; rotate_left; clear_value x; rotate_right) | skip)

theorem readTurn_keeps {o x0 x1} (h0 : Keeps o x0) : Keeps o (readTurn x0 x1) := by
  unfold readTurn
  repeat' first
    | with_reducible assumption | (intro) | with_reducible apply readProgress_keeps
    | with_reducible apply prefetch_keeps | with_reducible apply keeps_ite
    | (have x := trivial; extract_lets +onlyGivenNames x; (fail_if_success have y : True := x); first | (refine keeps_step x ?_ (fun hx => ?_); focus dsimp -zeta only [x]; rotate_left; clear_value x; rotate_right) | skip)
    | split

theorem execWrite_goes {o x0 x1} (h0 : Keeps o x1) : Goes o (execWrite x0 x1) := by
  unfold execWrite
  repeat' first
    | with_reducible assumption | with_reducible apply onCmd_goes | with_reducible apply writeProgress_keeps
    | with_reducible apply goes_next

theorem execWriteZeroes_goes {o x0 x1} (h0 : Keeps o x1) : Goes o (execWriteZeroes x0 x1) := by
  unfold execWriteZeroes
  repeat' first
    | with_reducible assumption | with_reducible apply onCmd_goes | with_reducible apply writeProgress_keeps
    | with_reducible apply goes_next

theorem execZoneAppend_goes {o x0 x1} (h0 : Keeps o x1) : Goes o (execZoneAppend x0 x1) := by
  unfold execZoneAppend
  repeat' first
    | with_reducible assumption | with_reducible apply onCmd_goes | with_reducible apply writeProgress_keeps
    | with_reducible apply goes_next

theorem execFlush_goes {o x0 x1} (h0 : Keeps o x1) : Goes o (execFlush x0 x1) := by
  unfold execFlush
  repeat' first
    | simp -zeta only [↓keeps_mk, id_eq] | with_reducible assumption | with_reducible apply onCmd_goes
    | with_reducible apply tryEnd_keeps | with_reducible apply setCmd_keeps | with_reducible apply goes_next
    | (have x := trivial; extract_lets +onlyGivenNames x; (fail_if_success have y : True := x); first | (refine goes_step x ?_ (fun hx => ?_); focus dsimp -zeta only [x]; rotate_left; clear_value x; rotate_right) | (refine keeps_step x ?_ (fun hx => ?_); focus dsimp -zeta only [x]; rotate_left; clear_value x; rotate_right) | skip)

theorem execDatasetManagement_goes {o x0 x1} (h0 : Keeps o x1) : Goes o (execDatasetManagement x0 x1) := by
  unfold execDatasetManagement
  repeat' first
    | with_reducible assumption | with_reducible apply onCmd_goes | with_reducible apply completeCmd_keeps
    | with_reducible apply keeps_ite | with_reducible apply goes_ite | with_reducible apply goes_next

theorem setReached_keeps {o x0 x1 x2 x3} (h0 : Keeps o x0) : Keeps o (setReached x0 x1 x2 x3) := by
  unfold setReached
  repeat' first
    | simp -zeta only [↓keeps_mk, id_eq] | with_reducible assumption | (intro) | with_reducible apply keeps_ite
    | with_reducible apply keeps_foldl
    | (have x := trivial; extract_lets +onlyGivenNames x; (fail_if_success have y : True := x); first | (refine keeps_step x ?_ (fun hx => ?_); focus dsimp -zeta only [x]; rotate_left; clear_value x; rotate_right) | skip)

theorem clearZoneStale_keeps {o x0 x1 x2} (h0 : Keeps o x0) : Keeps o (clearZoneStale x0 x1 x2) := by
  unfold clearZoneStale
  repeat' first
    | with_reducible assumption | (intro) | with_reducible apply setB_keeps
    | with_reducible apply retireChanged_keeps | with_reducible apply keeps_ite | with_reducible apply keeps_foldl
    | (have x := trivial; extract_lets +onlyGivenNames x; (fail_if_success have y : True := x); first | (refine keeps_step x ?_ (fun hx => ?_); focus dsimp -zeta only [x]; rotate_left; clear_value x; rotate_right) | skip)

theorem zoneAct_may {o x0 x1 x2 x3} (h0 : Keeps o x0) : May o (zoneAct x0 x1 x2 x3) := by
  unfold zoneAct
  repeat' first
    | simp -zeta only [↓keeps_mk, id_eq] | with_reducible assumption | (intro) | with_reducible apply setZone_keeps
    | with_reducible apply setReached_keeps | with_reducible apply clearZoneStale_keeps
    | with_reducible apply keeps_ite | with_reducible apply may_some | exact may_none
    | with_reducible apply keeps_foldl | with_reducible apply keeps_getD
    | (have x := trivial; extract_lets +onlyGivenNames x; (fail_if_success have y : True := x); first | (refine may_step x ?_ (fun hx => ?_); focus dsimp -zeta only [x]; rotate_left; clear_value x; rotate_right) | (refine keeps_step x ?_ (fun hx => ?_); focus dsimp -zeta only [x]; rotate_left; clear_value x; rotate_right) | (have _ : State → State := x; dsimp -zeta only [x]) | (have _ : Nat → State → State := x; dsimp -zeta only [x]) | (have _ : State → Nat → State := x; dsimp -zeta only [x]) | skip)
    | with_reducible apply keeps_mk_free | with_reducible apply keeps_mk_filter | split

theorem zoneSend_keeps {o x0 x1 x2} (h0 : Keeps o x0) : Keeps o (zoneSend x0 x1 x2) := by
  unfold zoneSend
  repeat' first
    | with_reducible assumption | (intro) | with_reducible apply completeCmd_keeps
    | with_reducible apply zoneAct_may | exact May.of ‹_› (zoneAct_may (by with_reducible assumption))
    | with_reducible apply keeps_ite | with_reducible apply keeps_foldl | with_reducible apply keeps_getD
    | (have x := trivial; extract_lets +onlyGivenNames x; (fail_if_success have y : True := x); first | (refine keeps_step x ?_ (fun hx => ?_); focus dsimp -zeta only [x]; rotate_left; clear_value x; rotate_right) | skip)
    | split

theorem execZoneOpen_goes {o x0 x1} (h0 : Keeps o x1) : Goes o (execZoneOpen x0 x1) := by
  unfold execZoneOpen
  repeat' first
    | with_reducible assumption | with_reducible apply zoneSend_keeps | with_reducible apply goes_next

theorem execZoneClose_goes {o x0 x1} (h0 : Keeps o x1) : Goes o (execZoneClose x0 x1) := by
  unfold execZoneClose
  repeat' first
    | with_reducible assumption | with_reducible apply zoneSend_keeps | with_reducible apply goes_next

theorem execZoneFinish_goes {o x0 x1} (h0 : Keeps o x1) : Goes o (execZoneFinish x0 x1) := by
  unfold execZoneFinish
  repeat' first
    | with_reducible assumption | with_reducible apply zoneSend_keeps | with_reducible apply goes_next

theorem execZoneReset_goes {o x0 x1} (h0 : Keeps o x1) : Goes o (execZoneReset x0 x1) := by
  unfold execZoneReset
  repeat' first
    | with_reducible assumption | with_reducible apply zoneSend_keeps | with_reducible apply goes_next

theorem execZoneOffline_goes {o x0 x1} (h0 : Keeps o x1) : Goes o (execZoneOffline x0 x1) := by
  unfold execZoneOffline
  repeat' first
    | with_reducible assumption | with_reducible apply zoneSend_keeps | with_reducible apply goes_next

theorem zoneReceive_keeps {o x0 x1 x2} (h0 : Keeps o x0) : Keeps o (zoneReceive x0 x1 x2) := by
  unfold zoneReceive
  repeat' first
    | with_reducible assumption | with_reducible apply completeData_keeps | with_reducible apply keeps_ite
    | (have x := trivial; extract_lets +onlyGivenNames x; (fail_if_success have y : True := x); first | (refine keeps_step x ?_ (fun hx => ?_); focus dsimp -zeta only [x]; rotate_left; clear_value x; rotate_right) | skip)

theorem execReportZones_goes {o x0 x1} (h0 : Keeps o x1) : Goes o (execReportZones x0 x1) := by
  unfold execReportZones
  repeat' first
    | with_reducible assumption | with_reducible apply zoneReceive_keeps | with_reducible apply goes_next

theorem execExtendedReportZones_goes {o x0 x1} (h0 : Keeps o x1) : Goes o (execExtendedReportZones x0 x1) := by
  unfold execExtendedReportZones
  repeat' first
    | with_reducible assumption | with_reducible apply zoneReceive_keeps | with_reducible apply goes_next

theorem pointerRecord_keeps {o x0 x1 x2 x3} (h0 : Keeps o x0) : Keeps o (pointerRecord x0 x1 x2 x3) := by
  unfold pointerRecord
  repeat' first
    | with_reducible assumption | (intro) | with_reducible apply recordOne_keeps
    | with_reducible apply tryEnd_keeps | with_reducible apply keeps_ite | with_reducible apply keeps_foldl
    | (have x := trivial; extract_lets +onlyGivenNames x; (fail_if_success have y : True := x); first | (refine keeps_step x ?_ (fun hx => ?_); focus dsimp -zeta only [x]; rotate_left; clear_value x; rotate_right) | skip)

theorem execZonePointerRecord_goes {o x0 x1 x2 x3} (h0 : Keeps o x3) :
    Goes o (execZonePointerRecord x0 x1 x2 x3) := by
  unfold execZonePointerRecord
  repeat' first
    | with_reducible assumption | with_reducible apply pointerRecord_keeps | with_reducible apply goes_next

theorem rebuildZones_keeps {o x0} (h0 : Keeps o x0) : Keeps o (rebuildZones x0) := by
  unfold rebuildZones
  repeat' first
    | simp -zeta only [↓keeps_mk, id_eq] | with_reducible assumption | (intro) | with_reducible apply setZone_keeps
    | with_reducible apply owlHub_keeps | with_reducible apply keeps_ite | with_reducible apply keeps_foldl
    | (have x := trivial; extract_lets +onlyGivenNames x; (fail_if_success have y : True := x); first | (refine keeps_step x ?_ (fun hx => ?_); focus dsimp -zeta only [x]; rotate_left; clear_value x; rotate_right) | skip)

theorem restoreUnits_keeps {o x0 x1} (h0 : Keeps o x0) : Keeps o (restoreUnits x0 x1) := by
  unfold restoreUnits
  repeat' first
    | simp -zeta only [↓keeps_mk, id_eq] | with_reducible assumption | (intro)
    | with_reducible apply setUnitIn_keeps | with_reducible apply leaveIfEmpty_keeps
    | with_reducible apply keeps_foldl
    | (have x := trivial; extract_lets +onlyGivenNames x; (fail_if_success have y : True := x); first | (refine keeps_step x ?_ (fun hx => ?_); focus dsimp -zeta only [x]; rotate_left; clear_value x; rotate_right) | skip)
    | split

theorem boundaryCmd_keeps {o x0 x1} (h0 : Keeps o x0) : Keeps o (boundaryCmd x0 x1) := by
  unfold boundaryCmd
  repeat' first
    | simp -zeta only [↓keeps_mk, id_eq] | with_reducible assumption | (intro)
    | with_reducible apply removeCmd_keeps | with_reducible apply bump_keeps | with_reducible apply endMedia_keeps
    | with_reducible apply restoreUnits_keeps | with_reducible apply setCmd_keeps | with_reducible apply keeps_ite
    | (have x := trivial; extract_lets +onlyGivenNames x; (fail_if_success have y : True := x); first | (refine keeps_step x ?_ (fun hx => ?_); focus dsimp -zeta only [x]; rotate_left; clear_value x; rotate_right) | (have _ : State → State := x; dsimp -zeta only [x]) | (have _ : Nat → State → State := x; dsimp -zeta only [x]) | (have _ : State → Nat → State := x; dsimp -zeta only [x]) | skip)
    | split

theorem boundary_keeps {o x0 x1} (h0 : Keeps o x0) : Keeps o (boundary x0 x1) := by
  unfold boundary
  repeat' first
    | with_reducible assumption | (intro) | with_reducible apply setQp_keeps
    | with_reducible apply boundaryCmd_keeps | with_reducible apply bump_keeps | with_reducible apply keeps_foldl
    | (have x := trivial; extract_lets +onlyGivenNames x; (fail_if_success have y : True := x); first | (refine keeps_step x ?_ (fun hx => ?_); focus dsimp -zeta only [x]; rotate_left; clear_value x; rotate_right) | skip)

theorem startReset_keeps {o x0 x1 x2 x3} (h0 : Keeps o x0) : Keeps o (startReset x0 x1 x2 x3) := by
  unfold startReset
  repeat' first
    | simp -zeta only [↓keeps_mk, id_eq] | with_reducible assumption | with_reducible apply bump_keeps
    | with_reducible apply setQp_keeps | with_reducible apply boundary_keeps | with_reducible apply keeps_ite
    | (have x := trivial; extract_lets +onlyGivenNames x; (fail_if_success have y : True := x); first | (refine keeps_step x ?_ (fun hx => ?_); focus dsimp -zeta only [x]; rotate_left; clear_value x; rotate_right) | skip)

theorem assocDone_keeps {o x0 x1} (h0 : Keeps o x0) : Keeps o (assocDone x0 x1) := by
  unfold assocDone
  repeat' first
    | with_reducible assumption | with_reducible apply setAssoc_keeps | with_reducible apply keeps_ite

theorem dropSq_keeps {o x0 x1} (h0 : Keeps o x0) : Keeps o (dropSq x0 x1) := by
  unfold dropSq
  repeat' first
    | simp -zeta only [↓keeps_mk, id_eq] | with_reducible assumption | (intro)
    | with_reducible apply setAssoc_keeps
    | (have x := trivial; extract_lets +onlyGivenNames x; (fail_if_success have y : True := x); first | (refine keeps_step x ?_ (fun hx => ?_); focus dsimp -zeta only [x]; rotate_left; clear_value x; rotate_right) | skip)
    | split

theorem tellJoined_keeps {o x0 x1 x2} (h0 : Keeps o x0) : Keeps o (tellJoined x0 x1 x2) := by
  unfold tellJoined
  repeat' first
    | simp -zeta only [↓keeps_mk, id_eq] | with_reducible assumption | (intro)
    | with_reducible apply completeCmd_keeps | with_reducible apply setCmd_keeps | with_reducible apply keeps_ite
    | with_reducible apply keeps_foldl | with_reducible apply keeps_getD
    | (have x := trivial; extract_lets +onlyGivenNames x; (fail_if_success have y : True := x); first | (refine keeps_step x ?_ (fun hx => ?_); focus dsimp -zeta only [x]; rotate_left; clear_value x; rotate_right) | (have _ : State → State := x; dsimp -zeta only [x]) | (have _ : Nat → State → State := x; dsimp -zeta only [x]) | (have _ : State → Nat → State := x; dsimp -zeta only [x]) | skip)
    | with_reducible apply keeps_mk_free | with_reducible apply keeps_mk_filter | split

theorem resetComplete_keeps {o x0 x1} (h0 : Keeps o x0) : Keeps o (resetComplete x0 x1) := by
  unfold resetComplete
  repeat' first
    | simp -zeta only [↓keeps_mk, id_eq] | with_reducible assumption | (intro) | with_reducible apply setQp_keeps
    | with_reducible apply dropSq_keeps | with_reducible apply emit_keeps | with_reducible apply assocDone_keeps
    | with_reducible apply tellJoined_keeps | with_reducible apply keeps_ite | with_reducible apply keeps_foldl
    | (have x := trivial; extract_lets +onlyGivenNames x; (fail_if_success have y : True := x); first | (refine keeps_step x ?_ (fun hx => ?_); focus dsimp -zeta only [x]; rotate_left; clear_value x; rotate_right) | skip)
    | split

theorem execQueueResetComplete_goes {o x0 x1} (h0 : Keeps o x1) : Goes o (execQueueResetComplete x0 x1) := by
  unfold execQueueResetComplete
  repeat' first
    | with_reducible assumption | with_reducible apply onOk_goes | with_reducible apply resetComplete_keeps
    | with_reducible apply goes_next

theorem endPair_keeps {o x0 x1 x2} (h0 : Keeps o x0) : Keeps o (endPair x0 x1 x2) := by
  unfold endPair
  repeat' first
    | simp -zeta only [↓keeps_mk, id_eq] | with_reducible assumption | with_reducible apply emit_keeps
    | with_reducible apply startReset_keeps | with_reducible apply setQp_keeps | with_reducible apply keeps_ite
    | (have x := trivial; extract_lets +onlyGivenNames x; (fail_if_success have y : True := x); first | (refine keeps_step x ?_ (fun hx => ?_); focus dsimp -zeta only [x]; rotate_left; clear_value x; rotate_right) | skip)

theorem endAssoc_keeps {o x0 x1 x2 x3} (h0 : Keeps o x0) : Keeps o (endAssoc x0 x1 x2 x3) := by
  unfold endAssoc
  repeat' first
    | simp -zeta only [↓keeps_mk, id_eq] | with_reducible assumption | (intro)
    | with_reducible apply setAssoc_keeps | with_reducible apply owlHub_keeps | with_reducible apply endPair_keeps
    | with_reducible apply assocDone_keeps | with_reducible apply keeps_ite | with_reducible apply keeps_foldl
    | (have x := trivial; extract_lets +onlyGivenNames x; (fail_if_success have y : True := x); first | (refine keeps_step x ?_ (fun hx => ?_); focus dsimp -zeta only [x]; rotate_left; clear_value x; rotate_right) | skip)
    | split

theorem pairGone_keeps {o x0 x1 x2 x3} (h0 : Keeps o x0) : Keeps o (pairGone x0 x1 x2 x3) := by
  unfold pairGone
  repeat' first
    | with_reducible assumption | with_reducible apply endPair_keeps | with_reducible apply setQp_keeps
    | with_reducible apply endAssoc_keeps | with_reducible apply keeps_ite
    | (have x := trivial; extract_lets +onlyGivenNames x; (fail_if_success have y : True := x); first | (refine keeps_step x ?_ (fun hx => ?_); focus dsimp -zeta only [x]; rotate_left; clear_value x; rotate_right) | skip)

theorem qpError_keeps {o x0 x1} (h0 : Keeps o x0) : Keeps o (qpError x0 x1) := by
  unfold qpError
  repeat' first
    | with_reducible assumption | with_reducible apply pairGone_keeps

theorem subportDown_keeps {o x0 x1 x2} (h0 : Keeps o x0) : Keeps o (subportDown x0 x1 x2) := by
  unfold subportDown
  repeat' first
    | with_reducible assumption | (intro) | with_reducible apply pairGone_keeps | with_reducible apply keeps_foldl
    | split

theorem controllerReset_keeps {o x0 x1} (h0 : Keeps o x0) : Keeps o (controllerReset x0 x1) := by
  unfold controllerReset
  repeat' first
    | simp -zeta only [↓keeps_mk, id_eq] | with_reducible assumption | (intro) | with_reducible apply endPair_keeps
    | with_reducible apply setAssoc_keeps | with_reducible apply keeps_foldl
    | (have x := trivial; extract_lets +onlyGivenNames x; (fail_if_success have y : True := x); first | (refine keeps_step x ?_ (fun hx => ?_); focus dsimp -zeta only [x]; rotate_left; clear_value x; rotate_right) | skip)

theorem execKeepAliveTimeout_goes {o x0 x1} (h0 : Keeps o x1) : Goes o (execKeepAliveTimeout x0 x1) := by
  unfold execKeepAliveTimeout
  repeat' first
    | with_reducible assumption | with_reducible apply onOk_goes | with_reducible apply endAssoc_keeps
    | with_reducible apply keeps_ite | with_reducible apply goes_ite | with_reducible apply goes_next
    | (have x := trivial; extract_lets +onlyGivenNames x; (fail_if_success have y : True := x); first | (refine goes_step x ?_ (fun hx => ?_); focus dsimp -zeta only [x]; rotate_left; clear_value x; rotate_right) | (refine keeps_step x ?_ (fun hx => ?_); focus dsimp -zeta only [x]; rotate_left; clear_value x; rotate_right) | skip)

theorem deliverEvents_keeps {o x0 x1 x2} (h0 : Keeps o x2) : Keeps o (deliverEvents x0 x1 x2) := by
  induction x1 generalizing x2 with
  | nil => unfold deliverEvents
           repeat' first
      | with_reducible apply ih | with_reducible apply setAssoc_keeps | with_reducible apply completeCmd_keeps
      | with_reducible apply setCmd_keeps | simp -zeta only [↓keeps_mk, id_eq] | with_reducible assumption
      | (have x := trivial; extract_lets +onlyGivenNames x; (fail_if_success have y : True := x); first | (refine keeps_step x ?_ (fun hx => ?_); focus dsimp -zeta only [x]; rotate_left; clear_value x; rotate_right) | skip)
      | split
  | cons b l ih =>
    unfold deliverEvents
    repeat' first
      | with_reducible apply ih | with_reducible apply setAssoc_keeps | with_reducible apply completeCmd_keeps
      | with_reducible apply setCmd_keeps | simp -zeta only [↓keeps_mk, id_eq] | with_reducible assumption
      | (have x := trivial; extract_lets +onlyGivenNames x; (fail_if_success have y : True := x); first | (refine keeps_step x ?_ (fun hx => ?_); focus dsimp -zeta only [x]; rotate_left; clear_value x; rotate_right) | skip)
      | split

theorem postEvent_keeps {o x0 x1 x2 x3} (h0 : Keeps o x0) : Keeps o (postEvent x0 x1 x2 x3) := by
  unfold postEvent
  repeat' first
    | simp -zeta only [↓keeps_mk, id_eq] | with_reducible assumption | with_reducible apply deliverEvents_keeps
    | with_reducible apply setAssoc_keeps | with_reducible apply keeps_ite
    | (have x := trivial; extract_lets +onlyGivenNames x; (fail_if_success have y : True := x); first | (refine keeps_step x ?_ (fun hx => ?_); focus dsimp -zeta only [x]; rotate_left; clear_value x; rotate_right) | skip)

theorem nsEvent_keeps {o x0} (h0 : Keeps o x0) : Keeps o (nsEvent x0) := by
  unfold nsEvent
  repeat' first
    | with_reducible assumption | (intro) | with_reducible apply postEvent_keeps | with_reducible apply keeps_ite
    | with_reducible apply keeps_foldl

theorem discoveryEvent_keeps {o x0} (h0 : Keeps o x0) : Keeps o (discoveryEvent x0) := by
  unfold discoveryEvent
  repeat' first
    | with_reducible assumption | (intro) | with_reducible apply postEvent_keeps | with_reducible apply keeps_ite
    | with_reducible apply keeps_foldl

theorem onAdmin_goes {o x0 x1 x2 x3} (h0 : Keeps o x0) (h1 : ∀ y0 y1, Keeps o (x3 y0 y1)) :
    Goes o (onAdmin x0 x1 x2 x3) := by
  unfold onAdmin
  repeat' first
    | with_reducible assumption | (intro) | with_reducible apply h1 | with_reducible apply keeps_ite
    | with_reducible apply goes_ite | with_reducible apply goes_next
    | (have x := trivial; extract_lets +onlyGivenNames x; (fail_if_success have y : True := x); first | (refine goes_step x ?_ (fun hx => ?_); focus dsimp -zeta only [x]; rotate_left; clear_value x; rotate_right) | (refine keeps_step x ?_ (fun hx => ?_); focus dsimp -zeta only [x]; rotate_left; clear_value x; rotate_right) | skip)

theorem completeDw0_keeps {o x0 x1 x2} (h0 : Keeps o x0) : Keeps o (completeDw0 x0 x1 x2) := by
  unfold completeDw0
  repeat' first
    | simp -zeta only [↓keeps_mk, id_eq] | with_reducible assumption | with_reducible apply completeCmd_keeps
    | with_reducible apply setCmd_keeps
    | (have x := trivial; extract_lets +onlyGivenNames x; (fail_if_success have y : True := x); first | (refine keeps_step x ?_ (fun hx => ?_); focus dsimp -zeta only [x]; rotate_left; clear_value x; rotate_right) | skip)

theorem numberOfQueues_keeps {o x0 x1 x2 x3} (h0 : Keeps o x0) : Keeps o (numberOfQueues x0 x1 x2 x3) := by
  unfold numberOfQueues
  repeat' first
    | simp -zeta only [↓keeps_mk, id_eq] | with_reducible assumption | with_reducible apply completeCmd_keeps
    | with_reducible apply completeDw0_keeps | with_reducible apply setAssoc_keeps | with_reducible apply keeps_ite
    | (have x := trivial; extract_lets +onlyGivenNames x; (fail_if_success have y : True := x); first | (refine keeps_step x ?_ (fun hx => ?_); focus dsimp -zeta only [x]; rotate_left; clear_value x; rotate_right) | skip)

theorem execNumberOfQueues_goes {o x0 x1} (h0 : Keeps o x1) : Goes o (execNumberOfQueues x0 x1) := by
  unfold execNumberOfQueues
  repeat' first
    | with_reducible assumption | (intro) | with_reducible apply onAdmin_goes
    | with_reducible apply numberOfQueues_keeps | with_reducible apply goes_next

theorem volatileWriteCache_keeps {o x0 x1 x2} (h0 : Keeps o x0) : Keeps o (volatileWriteCache x0 x1 x2) := by
  unfold volatileWriteCache
  repeat' first
    | simp -zeta only [↓keeps_mk, id_eq] | with_reducible assumption | with_reducible apply setB_keeps
    | with_reducible apply completeCmd_keeps | with_reducible apply tryEnd_keeps
    | with_reducible apply setCmd_keeps | with_reducible apply keeps_ite
    | (have x := trivial; extract_lets +onlyGivenNames x; (fail_if_success have y : True := x); first | (refine keeps_step x ?_ (fun hx => ?_); focus dsimp -zeta only [x]; rotate_left; clear_value x; rotate_right) | skip)

theorem execVolatileWriteCache_goes {o x0 x1} (h0 : Keeps o x1) : Goes o (execVolatileWriteCache x0 x1) := by
  unfold execVolatileWriteCache
  repeat' first
    | with_reducible assumption | (intro) | with_reducible apply onAdmin_goes
    | with_reducible apply volatileWriteCache_keeps | with_reducible apply goes_next

theorem askChange_keeps {o x0 x1 x2} (h0 : Keeps o x0) : Keeps o (askChange x0 x1 x2) := by
  unfold askChange
  repeat' first
    | simp -zeta only [↓keeps_mk, id_eq] | with_reducible assumption | with_reducible apply setF_keeps
    | (have x := trivial; extract_lets +onlyGivenNames x; (fail_if_success have y : True := x); first | (refine keeps_step x ?_ (fun hx => ?_); focus dsimp -zeta only [x]; rotate_left; clear_value x; rotate_right) | skip)

theorem execReadDeadline_goes {o x0 x1} (h0 : Keeps o x1) : Goes o (execReadDeadline x0 x1) := by
  unfold execReadDeadline
  repeat' first
    | with_reducible assumption | (intro) | with_reducible apply onAdmin_goes
    | with_reducible apply askChange_keeps | with_reducible apply keeps_ite | with_reducible apply goes_ite
    | with_reducible apply goes_next

theorem execGetFeatures_goes {o x0 x1} (h0 : Keeps o x1) : Goes o (execGetFeatures x0 x1) := by
  unfold execGetFeatures
  repeat' first
    | with_reducible assumption | (intro) | with_reducible apply onAdmin_goes
    | with_reducible apply completeDw0_keeps | with_reducible apply took_keeps | with_reducible apply keeps_ite
    | with_reducible apply goes_ite | with_reducible apply goes_next
    | (have x := trivial; extract_lets +onlyGivenNames x; (fail_if_success have y : True := x); first | (refine goes_step x ?_ (fun hx => ?_); focus dsimp -zeta only [x]; rotate_left; clear_value x; rotate_right) | (refine keeps_step x ?_ (fun hx => ?_); focus dsimp -zeta only [x]; rotate_left; clear_value x; rotate_right) | skip)

theorem execCreateIoCompletionQueue_goes {o x0 x1} (h0 : Keeps o x1) :
    Goes o (execCreateIoCompletionQueue x0 x1) := by
  unfold execCreateIoCompletionQueue
  repeat' first
    | simp -zeta only [↓keeps_mk, id_eq] | with_reducible assumption | (intro) | with_reducible apply onAdmin_goes
    | with_reducible apply completeCmd_keeps | with_reducible apply setAssoc_keeps | with_reducible apply keeps_ite
    | with_reducible apply goes_ite | with_reducible apply goes_next
    | (have x := trivial; extract_lets +onlyGivenNames x; (fail_if_success have y : True := x); first | (refine goes_step x ?_ (fun hx => ?_); focus dsimp -zeta only [x]; rotate_left; clear_value x; rotate_right) | (refine keeps_step x ?_ (fun hx => ?_); focus dsimp -zeta only [x]; rotate_left; clear_value x; rotate_right) | skip)

theorem execCreateIoSubmissionQueue_goes {o x0 x1} (h0 : Keeps o x1) :
    Goes o (execCreateIoSubmissionQueue x0 x1) := by
  unfold execCreateIoSubmissionQueue
  repeat' first
    | simp -zeta only [↓keeps_mk, id_eq] | with_reducible assumption | (intro) | with_reducible apply onAdmin_goes
    | with_reducible apply completeCmd_keeps | with_reducible apply resetComplete_keeps
    | with_reducible apply setQp_keeps | with_reducible apply setAssoc_keeps | with_reducible apply keeps_ite
    | with_reducible apply goes_ite | with_reducible apply goes_next
    | (have x := trivial; extract_lets +onlyGivenNames x; (fail_if_success have y : True := x); first | (refine goes_step x ?_ (fun hx => ?_); focus dsimp -zeta only [x]; rotate_left; clear_value x; rotate_right) | (refine keeps_step x ?_ (fun hx => ?_); focus dsimp -zeta only [x]; rotate_left; clear_value x; rotate_right) | skip)
    | split

theorem execDeleteIoSubmissionQueue_goes {o x0 x1} (h0 : Keeps o x1) :
    Goes o (execDeleteIoSubmissionQueue x0 x1) := by
  unfold execDeleteIoSubmissionQueue
  repeat' first
    | with_reducible assumption | (intro) | with_reducible apply onAdmin_goes
    | with_reducible apply completeCmd_keeps | with_reducible apply setQp_keeps | with_reducible apply dropSq_keeps
    | with_reducible apply startReset_keeps | with_reducible apply keeps_ite | with_reducible apply goes_ite
    | with_reducible apply goes_next | split

theorem execDeleteIoCompletionQueue_goes {o x0 x1} (h0 : Keeps o x1) :
    Goes o (execDeleteIoCompletionQueue x0 x1) := by
  unfold execDeleteIoCompletionQueue
  repeat' first
    | simp -zeta only [↓keeps_mk, id_eq] | with_reducible assumption | (intro) | with_reducible apply onAdmin_goes
    | with_reducible apply completeCmd_keeps | with_reducible apply setAssoc_keeps | with_reducible apply keeps_ite
    | with_reducible apply goes_ite | with_reducible apply goes_next
    | (have x := trivial; extract_lets +onlyGivenNames x; (fail_if_success have y : True := x); first | (refine goes_step x ?_ (fun hx => ?_); focus dsimp -zeta only [x]; rotate_left; clear_value x; rotate_right) | (refine keeps_step x ?_ (fun hx => ?_); focus dsimp -zeta only [x]; rotate_left; clear_value x; rotate_right) | skip)
    | split

theorem execAbort_goes {o x0 x1} (h0 : Keeps o x1) : Goes o (execAbort x0 x1) := by
  unfold execAbort
  repeat' first
    | with_reducible assumption | (intro) | with_reducible apply onAdmin_goes
    | with_reducible apply completeDw0_keeps | with_reducible apply goes_next

theorem execQueueReset_goes {o x0 x1} (h0 : Keeps o x1) : Goes o (execQueueReset x0 x1) := by
  unfold execQueueReset
  repeat' first
    | with_reducible assumption | (intro) | with_reducible apply onAdmin_goes
    | with_reducible apply completeCmd_keeps | with_reducible apply bump_keeps
    | with_reducible apply startReset_keeps | with_reducible apply keeps_ite | with_reducible apply goes_ite
    | with_reducible apply goes_next
    | (have x := trivial; extract_lets +onlyGivenNames x; (fail_if_success have y : True := x); first | (refine goes_step x ?_ (fun hx => ?_); focus dsimp -zeta only [x]; rotate_left; clear_value x; rotate_right) | (refine keeps_step x ?_ (fun hx => ?_); focus dsimp -zeta only [x]; rotate_left; clear_value x; rotate_right) | skip)
    | split

theorem execIdentify_goes {o x0 x1} (h0 : Keeps o x1) : Goes o (execIdentify x0 x1) := by
  unfold execIdentify
  repeat' first
    | simp -zeta only [↓keeps_mk, id_eq] | with_reducible assumption | (intro) | with_reducible apply onAdmin_goes
    | with_reducible apply completeData_keeps | with_reducible apply took_keeps
    | with_reducible apply completeCmd_keeps | with_reducible apply goes_next | split

theorem execGetLogPage_goes {o x0 x1} (h0 : Keeps o x1) : Goes o (execGetLogPage x0 x1) := by
  unfold execGetLogPage
  repeat' first
    | with_reducible assumption | (intro) | with_reducible apply onAdmin_goes
    | with_reducible apply completeData_keeps | with_reducible apply took_keeps
    | with_reducible apply completeCmd_keeps | with_reducible apply keeps_ite | with_reducible apply goes_ite
    | with_reducible apply goes_next | with_reducible apply keeps_getD
    | (have x := trivial; extract_lets +onlyGivenNames x; (fail_if_success have y : True := x); first | (refine goes_step x ?_ (fun hx => ?_); focus dsimp -zeta only [x]; rotate_left; clear_value x; rotate_right) | (refine keeps_step x ?_ (fun hx => ?_); focus dsimp -zeta only [x]; rotate_left; clear_value x; rotate_right) | skip)

theorem writeCandidate_keeps {o x0 x1 x2} (h0 : Keeps o x0) : Keeps o (writeCandidate x0 x1 x2) := by
  unfold writeCandidate
  repeat' first
    | with_reducible assumption | with_reducible apply setReg_keeps | with_reducible apply keeps_ite
    | (have x := trivial; extract_lets +onlyGivenNames x; (fail_if_success have y : True := x); first | (refine keeps_step x ?_ (fun hx => ?_); focus dsimp -zeta only [x]; rotate_left; clear_value x; rotate_right) | (have _ : State → State := x; dsimp -zeta only [x]) | (have _ : Nat → State → State := x; dsimp -zeta only [x]) | (have _ : State → Nat → State := x; dsimp -zeta only [x]) | skip)

theorem namespaceCreate_keeps {o x0 x1 x2} (h0 : Keeps o x0) : Keeps o (namespaceCreate x0 x1 x2) := by
  unfold namespaceCreate
  repeat' first
    | simp -zeta only [↓keeps_mk, id_eq] | with_reducible assumption | with_reducible apply completeCmd_keeps
    | with_reducible apply writeCandidate_keeps | with_reducible apply askChange_keeps
    | with_reducible apply setB_keeps | with_reducible apply keeps_ite
    | (have x := trivial; extract_lets +onlyGivenNames x; (fail_if_success have y : True := x); first | (refine keeps_step x ?_ (fun hx => ?_); focus dsimp -zeta only [x]; rotate_left; clear_value x; rotate_right) | skip)
    | split

theorem execNamespaceCreate_goes {o x0 x1} (h0 : Keeps o x1) : Goes o (execNamespaceCreate x0 x1) := by
  unfold execNamespaceCreate
  repeat' first
    | with_reducible assumption | (intro) | with_reducible apply onAdmin_goes
    | with_reducible apply namespaceCreate_keeps | with_reducible apply goes_next

theorem execBlankingDone_goes {o x0 x1} (h0 : Keeps o x1) : Goes o (execBlankingDone x0 x1) := by
  unfold execBlankingDone
  repeat' first
    | simp -zeta only [↓keeps_mk, id_eq] | with_reducible assumption | (intro) | with_reducible apply onOk_goes
    | with_reducible apply askChange_keeps | with_reducible apply setB_keeps | with_reducible apply keeps_ite
    | with_reducible apply goes_ite | with_reducible apply goes_next
    | (have x := trivial; extract_lets +onlyGivenNames x; (fail_if_success have y : True := x); first | (refine goes_step x ?_ (fun hx => ?_); focus dsimp -zeta only [x]; rotate_left; clear_value x; rotate_right) | (refine keeps_step x ?_ (fun hx => ?_); focus dsimp -zeta only [x]; rotate_left; clear_value x; rotate_right) | skip)
    | split

theorem execNamespaceDelete_goes {o x0 x1} (h0 : Keeps o x1) : Goes o (execNamespaceDelete x0 x1) := by
  unfold execNamespaceDelete
  repeat' first
    | with_reducible assumption | (intro) | with_reducible apply onAdmin_goes
    | with_reducible apply askChange_keeps | with_reducible apply keeps_ite | with_reducible apply goes_ite
    | with_reducible apply goes_next

theorem attachment_keeps {o x0 x1 x2 x3} (h0 : Keeps o x0) : Keeps o (attachment x0 x1 x2 x3) := by
  unfold attachment
  repeat' first
    | with_reducible assumption | with_reducible apply completeCmd_keeps | with_reducible apply askChange_keeps
    | with_reducible apply keeps_ite

theorem execNamespaceAttach_goes {o x0 x1} (h0 : Keeps o x1) : Goes o (execNamespaceAttach x0 x1) := by
  unfold execNamespaceAttach
  repeat' first
    | with_reducible assumption | (intro) | with_reducible apply onAdmin_goes
    | with_reducible apply attachment_keeps | with_reducible apply goes_next

theorem execNamespaceDetach_goes {o x0 x1} (h0 : Keeps o x1) : Goes o (execNamespaceDetach x0 x1) := by
  unfold execNamespaceDetach
  repeat' first
    | with_reducible assumption | (intro) | with_reducible apply onAdmin_goes
    | with_reducible apply attachment_keeps | with_reducible apply goes_next

theorem countNs_keeps {o x0} (h0 : Keeps o x0) : Keeps o (countNs x0) := by
  unfold countNs
  repeat' first
    | with_reducible assumption | with_reducible apply setReg_keeps

theorem clearZones_keeps {o x0 x1} (h0 : Keeps o x0) : Keeps o (clearZones x0 x1) := by
  unfold clearZones
  repeat' first
    | simp -zeta only [↓keeps_mk, id_eq] | with_reducible assumption | (intro)
    | (have x := trivial; extract_lets +onlyGivenNames x; (fail_if_success have y : True := x); first | (refine keeps_step x ?_ (fun hx => ?_); focus dsimp -zeta only [x]; rotate_left; clear_value x; rotate_right) | skip)
    | split

theorem clearStale_keeps {o x0 x1} (h0 : Keeps o x0) : Keeps o (clearStale x0 x1) := by
  unfold clearStale
  repeat' first
    | with_reducible assumption | (intro) | with_reducible apply setB_keeps
    | with_reducible apply retireChanged_keeps | with_reducible apply keeps_ite | with_reducible apply keeps_foldl
    | (have x := trivial; extract_lets +onlyGivenNames x; (fail_if_success have y : True := x); first | (refine keeps_step x ?_ (fun hx => ?_); focus dsimp -zeta only [x]; rotate_left; clear_value x; rotate_right) | skip)

theorem removeNs_keeps {o x0 x1} (h0 : Keeps o x0) : Keeps o (removeNs x0 x1) := by
  unfold removeNs
  repeat' first
    | with_reducible assumption | with_reducible apply clearNs_keeps | with_reducible apply clearZones_keeps
    | with_reducible apply clearStale_keeps

theorem applyChange_keeps {o x0 x1 x2} (h0 : Keeps o x0) : Keeps o (applyChange x0 x1 x2) := by
  unfold applyChange
  repeat' first
    | simp -zeta only [↓keeps_mk, id_eq] | with_reducible assumption | (intro)
    | with_reducible apply completeDw0_keeps | with_reducible apply countNs_keeps
    | with_reducible apply clearZones_keeps | with_reducible apply setF_keeps
    | with_reducible apply completeCmd_keeps | with_reducible apply nsEvent_keeps | with_reducible apply setB_keeps
    | with_reducible apply removeNs_keeps | with_reducible apply deleteEnds_keeps
    | with_reducible apply invalidateDeleted_keeps | with_reducible apply keeps_ite
    | with_reducible apply keeps_foldl
    | (have x := trivial; extract_lets +onlyGivenNames x; (fail_if_success have y : True := x); first | (refine keeps_step x ?_ (fun hx => ?_); focus dsimp -zeta only [x]; rotate_left; clear_value x; rotate_right) | skip)
    | split

theorem tableWrite_keeps {o x0 x1} (h0 : Keeps o x0) : Keeps o (tableWrite x0 x1) := by
  unfold tableWrite
  repeat' first
    | simp -zeta only [↓keeps_mk, id_eq] | with_reducible assumption | (intro)
    | with_reducible apply applyChange_keeps | with_reducible apply persistLevel_keeps
    | with_reducible apply setF_keeps | with_reducible apply bumpF_keeps | with_reducible apply clearNs_keeps
    | with_reducible apply owlHub_keeps | with_reducible apply completeCmd_keeps | with_reducible apply keeps_ite
    | (have x := trivial; extract_lets +onlyGivenNames x; (fail_if_success have y : True := x); first | (refine keeps_step x ?_ (fun hx => ?_); focus dsimp -zeta only [x]; rotate_left; clear_value x; rotate_right) | skip)
    | split

theorem execNsTableFlashWrite_goes {o x0 x1} (h0 : Keeps o x1) : Goes o (execNsTableFlashWrite x0 x1) := by
  unfold execNsTableFlashWrite
  repeat' first
    | with_reducible assumption | with_reducible apply tableWrite_keeps | with_reducible apply goes_next

theorem execPlacementMap_goes {o x0 x1} (h0 : Keeps o x1) : Goes o (execPlacementMap x0 x1) := by
  unfold execPlacementMap
  repeat' first
    | with_reducible assumption | (intro) | with_reducible apply onAdmin_goes
    | with_reducible apply completeData_keeps | with_reducible apply goes_next

theorem execRetirementMap_goes {o x0 x1} (h0 : Keeps o x1) : Goes o (execRetirementMap x0 x1) := by
  unfold execRetirementMap
  repeat' first
    | with_reducible assumption | (intro) | with_reducible apply onAdmin_goes
    | with_reducible apply completeData_keeps | with_reducible apply goes_next

theorem retireOp_keeps {o x0 x1} (h0 : Keeps o x0) : Keeps o (retireOp x0 x1).1 := by
  unfold retireOp
  repeat' first
    | with_reducible assumption | with_reducible apply retireTile_keeps | with_reducible apply retire_keeps
    | with_reducible apply keeps_ite | with_reducible apply keeps_ite_fst
    | (have x := trivial; extract_lets +onlyGivenNames x; (fail_if_success have y : True := x); first | (refine keeps_step x ?_ (fun hx => ?_); focus dsimp -zeta only [x]; rotate_left; clear_value x; rotate_right) | skip)
    | split

theorem reinstateOp_keeps {o x0 x1} (h0 : Keeps o x0) : Keeps o (reinstateOp x0 x1).1 := by
  unfold reinstateOp
  repeat' first
    | with_reducible assumption | with_reducible apply reinstate_keeps | with_reducible apply keeps_ite
    | with_reducible apply keeps_ite_fst
    | (have x := trivial; extract_lets +onlyGivenNames x; (fail_if_success have y : True := x); first | (refine keeps_step x ?_ (fun hx => ?_); focus dsimp -zeta only [x]; rotate_left; clear_value x; rotate_right) | skip)
    | split

theorem execRetireCommand_goes {o x0 x1} (h0 : Keeps o x1) : Goes o (execRetireCommand x0 x1) := by
  unfold execRetireCommand
  repeat' first
    | with_reducible assumption | (intro) | with_reducible apply onAdmin_goes | with_reducible apply retireOp_keeps
    | with_reducible apply completeCmd_keeps | with_reducible apply goes_next
    | (have x := trivial; extract_lets +onlyGivenNames x; (fail_if_success have y : True := x); first | (refine goes_step x ?_ (fun hx => ?_); focus dsimp -zeta only [x]; rotate_left; clear_value x; rotate_right) | (refine keeps_step x ?_ (fun hx => ?_); focus dsimp -zeta only [x]; rotate_left; clear_value x; rotate_right) | skip)

theorem execReinstateCommand_goes {o x0 x1} (h0 : Keeps o x1) : Goes o (execReinstateCommand x0 x1) := by
  unfold execReinstateCommand
  repeat' first
    | with_reducible assumption | (intro) | with_reducible apply onAdmin_goes
    | with_reducible apply reinstateOp_keeps | with_reducible apply completeCmd_keeps
    | with_reducible apply goes_next
    | (have x := trivial; extract_lets +onlyGivenNames x; (fail_if_success have y : True := x); first | (refine goes_step x ?_ (fun hx => ?_); focus dsimp -zeta only [x]; rotate_left; clear_value x; rotate_right) | (refine keeps_step x ?_ (fun hx => ?_); focus dsimp -zeta only [x]; rotate_left; clear_value x; rotate_right) | skip)

theorem cmReq_keeps {o x0 x1} (h0 : Keeps o x0) : Keeps o (cmReq x0 x1) := by
  unfold cmReq
  repeat' first
    | simp -zeta only [↓keeps_mk, id_eq] | with_reducible assumption | with_reducible apply emit_keeps
    | with_reducible apply setQp_keeps | with_reducible apply keeps_ite
    | (have x := trivial; extract_lets +onlyGivenNames x; (fail_if_success have y : True := x); first | (refine keeps_step x ?_ (fun hx => ?_); focus dsimp -zeta only [x]; rotate_left; clear_value x; rotate_right) | skip)
    | split

theorem execCmReq_goes {o x0 x1} (h0 : Keeps o x1) : Goes o (execCmReq x0 x1) := by
  unfold execCmReq
  repeat' first
    | with_reducible assumption | with_reducible apply onSub_goes | with_reducible apply cmReq_keeps
    | with_reducible apply goes_next

theorem execCmRtu_goes {o x0 x1} (h0 : Keeps o x1) : Goes o (execCmRtu x0 x1) := by
  unfold execCmRtu
  repeat' first
    | simp -zeta only [↓keeps_mk, id_eq] | with_reducible assumption | with_reducible apply onOk_goes
    | with_reducible apply setQp_keeps | with_reducible apply keeps_ite | with_reducible apply goes_ite
    | with_reducible apply goes_next
    | (have x := trivial; extract_lets +onlyGivenNames x; (fail_if_success have y : True := x); first | (refine goes_step x ?_ (fun hx => ?_); focus dsimp -zeta only [x]; rotate_left; clear_value x; rotate_right) | (refine keeps_step x ?_ (fun hx => ?_); focus dsimp -zeta only [x]; rotate_left; clear_value x; rotate_right) | skip)

theorem execCmDreq_goes {o x0 x1} (h0 : Keeps o x1) : Goes o (execCmDreq x0 x1) := by
  unfold execCmDreq
  repeat' first
    | with_reducible assumption | with_reducible apply onOk_goes | with_reducible apply pairGone_keeps
    | with_reducible apply emit_keeps | with_reducible apply keeps_ite | with_reducible apply goes_ite
    | with_reducible apply goes_next

theorem execCmDrep_goes {o x0 x1} (h0 : Keeps o x1) : Goes o (execCmDrep x0 x1) := by
  unfold execCmDrep
  repeat' first
    | simp -zeta only [↓keeps_mk, id_eq] | with_reducible assumption | with_reducible apply onOk_goes
    | with_reducible apply setQp_keeps | with_reducible apply goes_next
    | (have x := trivial; extract_lets +onlyGivenNames x; (fail_if_success have y : True := x); first | (refine goes_step x ?_ (fun hx => ?_); focus dsimp -zeta only [x]; rotate_left; clear_value x; rotate_right) | (refine keeps_step x ?_ (fun hx => ?_); focus dsimp -zeta only [x]; rotate_left; clear_value x; rotate_right) | skip)

theorem execCmRej_goes {o x0 x1} (h0 : Keeps o x1) : Goes o (execCmRej x0 x1) := by
  unfold execCmRej
  repeat' first
    | simp -zeta only [↓keeps_mk, id_eq] | with_reducible assumption | with_reducible apply onOk_goes
    | with_reducible apply setQp_keeps | with_reducible apply keeps_ite | with_reducible apply goes_ite
    | with_reducible apply goes_next
    | (have x := trivial; extract_lets +onlyGivenNames x; (fail_if_success have y : True := x); first | (refine goes_step x ?_ (fun hx => ?_); focus dsimp -zeta only [x]; rotate_left; clear_value x; rotate_right) | (refine keeps_step x ?_ (fun hx => ?_); focus dsimp -zeta only [x]; rotate_left; clear_value x; rotate_right) | skip)

theorem execCmMra_goes {o x0 x1} (h0 : Keeps o x1) : Goes o (execCmMra x0 x1) := by
  unfold execCmMra
  repeat' first
    | with_reducible assumption | with_reducible apply onOk_goes | with_reducible apply goes_next

theorem onFabric_goes {o x0 x1 x2 x3} (h0 : Keeps o x0) (h1 : ∀ y0, Keeps o (x3 y0)) :
    Goes o (onFabric x0 x1 x2 x3) := by
  unfold onFabric
  repeat' first
    | with_reducible assumption | (intro) | with_reducible apply h1 | with_reducible apply keeps_ite
    | with_reducible apply goes_ite | with_reducible apply goes_next
    | (have x := trivial; extract_lets +onlyGivenNames x; (fail_if_success have y : True := x); first | (refine goes_step x ?_ (fun hx => ?_); focus dsimp -zeta only [x]; rotate_left; clear_value x; rotate_right) | (refine keeps_step x ?_ (fun hx => ?_); focus dsimp -zeta only [x]; rotate_left; clear_value x; rotate_right) | skip)

theorem badConnect_keeps {o x0 x1 x2} (h0 : Keeps o x0) : Keeps o (badConnect x0 x1 x2) := by
  unfold badConnect
  repeat' first
    | with_reducible assumption | with_reducible apply completeFabrics_keeps | with_reducible apply took_keeps
    | split

theorem connectAdmin_keeps {o x0 x1 x2} (h0 : Keeps o x0) : Keeps o (connectAdmin x0 x1 x2) := by
  unfold connectAdmin
  repeat' first
    | simp -zeta only [↓keeps_mk, id_eq] | with_reducible assumption | with_reducible apply badConnect_keeps
    | with_reducible apply completeFabrics_keeps | with_reducible apply setAssoc_keeps
    | with_reducible apply completeDw0_keeps | with_reducible apply setQp_keeps | with_reducible apply keeps_ite
    | (have x := trivial; extract_lets +onlyGivenNames x; (fail_if_success have y : True := x); first | (refine keeps_step x ?_ (fun hx => ?_); focus dsimp -zeta only [x]; rotate_left; clear_value x; rotate_right) | skip)
    | split

theorem connectIo_keeps {o x0 x1 x2 x3} (h0 : Keeps o x0) : Keeps o (connectIo x0 x1 x2 x3) := by
  unfold connectIo
  repeat' first
    | simp -zeta only [↓keeps_mk, id_eq] | with_reducible assumption | with_reducible apply badConnect_keeps
    | with_reducible apply completeDw0_keeps | with_reducible apply setQp_keeps | with_reducible apply keeps_ite
    | (have x := trivial; extract_lets +onlyGivenNames x; (fail_if_success have y : True := x); first | (refine keeps_step x ?_ (fun hx => ?_); focus dsimp -zeta only [x]; rotate_left; clear_value x; rotate_right) | skip)
    | split

theorem execConnect_goes {o x0 x1} (h0 : Keeps o x1) : Goes o (execConnect x0 x1) := by
  unfold execConnect
  repeat' first
    | with_reducible assumption | (intro) | with_reducible apply onFabric_goes
    | with_reducible apply completeCmd_keeps | with_reducible apply completeFabrics_keeps
    | with_reducible apply connectAdmin_keeps | with_reducible apply connectIo_keeps
    | with_reducible apply keeps_ite | with_reducible apply goes_ite | with_reducible apply goes_next
    | (have x := trivial; extract_lets +onlyGivenNames x; (fail_if_success have y : True := x); first | (refine goes_step x ?_ (fun hx => ?_); focus dsimp -zeta only [x]; rotate_left; clear_value x; rotate_right) | (refine keeps_step x ?_ (fun hx => ?_); focus dsimp -zeta only [x]; rotate_left; clear_value x; rotate_right) | skip)

theorem execPropertyGet_goes {o x0 x1} (h0 : Keeps o x1) : Goes o (execPropertyGet x0 x1) := by
  unfold execPropertyGet
  repeat' first
    | simp -zeta only [↓keeps_mk, id_eq] | with_reducible assumption | (intro) | with_reducible apply onFabric_goes
    | with_reducible apply completeDw0_keeps | with_reducible apply took_keeps | with_reducible apply setCmd_keeps
    | with_reducible apply completeCmd_keeps | with_reducible apply keeps_ite | with_reducible apply goes_ite
    | with_reducible apply goes_next
    | (have x := trivial; extract_lets +onlyGivenNames x; (fail_if_success have y : True := x); first | (refine goes_step x ?_ (fun hx => ?_); focus dsimp -zeta only [x]; rotate_left; clear_value x; rotate_right) | (refine keeps_step x ?_ (fun hx => ?_); focus dsimp -zeta only [x]; rotate_left; clear_value x; rotate_right) | skip)

theorem writeCc_keeps {o x0 x1 x2} (h0 : Keeps o x0) : Keeps o (writeCc x0 x1 x2) := by
  unfold writeCc
  repeat' first
    | simp -zeta only [↓keeps_mk, id_eq] | with_reducible assumption | with_reducible apply setAssoc_keeps
    | with_reducible apply controllerReset_keeps | with_reducible apply keeps_ite
    | (have x := trivial; extract_lets +onlyGivenNames x; (fail_if_success have y : True := x); first | (refine keeps_step x ?_ (fun hx => ?_); focus dsimp -zeta only [x]; rotate_left; clear_value x; rotate_right) | skip)

theorem execPropertySet_goes {o x0 x1} (h0 : Keeps o x1) : Goes o (execPropertySet x0 x1) := by
  unfold execPropertySet
  repeat' first
    | with_reducible assumption | (intro) | with_reducible apply onFabric_goes
    | with_reducible apply completeCmd_keeps | with_reducible apply writeCc_keeps | with_reducible apply keeps_ite
    | with_reducible apply goes_ite | with_reducible apply goes_next

theorem execDisconnect_goes {o x0 x1} (h0 : Keeps o x1) : Goes o (execDisconnect x0 x1) := by
  unfold execDisconnect
  repeat' first
    | with_reducible assumption | (intro) | with_reducible apply onFabric_goes
    | with_reducible apply pairGone_keeps | with_reducible apply completeCmd_keeps | with_reducible apply keeps_ite
    | with_reducible apply goes_ite | with_reducible apply goes_next
    | (have x := trivial; extract_lets +onlyGivenNames x; (fail_if_success have y : True := x); first | (refine goes_step x ?_ (fun hx => ?_); focus dsimp -zeta only [x]; rotate_left; clear_value x; rotate_right) | (refine keeps_step x ?_ (fun hx => ?_); focus dsimp -zeta only [x]; rotate_left; clear_value x; rotate_right) | skip)

theorem execAuthenticationSend_goes {o x0 x1} (h0 : Keeps o x1) : Goes o (execAuthenticationSend x0 x1) := by
  unfold execAuthenticationSend
  repeat' first
    | with_reducible assumption | (intro) | with_reducible apply onFabric_goes
    | with_reducible apply completeCmd_keeps | with_reducible apply goes_next

theorem execAuthenticationReceive_goes {o x0 x1} (h0 : Keeps o x1) : Goes o (execAuthenticationReceive x0 x1) := by
  unfold execAuthenticationReceive
  repeat' first
    | with_reducible assumption | (intro) | with_reducible apply onFabric_goes
    | with_reducible apply completeCmd_keeps | with_reducible apply goes_next

theorem execKeepAlive_goes {o x0 x1} (h0 : Keeps o x1) : Goes o (execKeepAlive x0 x1) := by
  unfold execKeepAlive
  repeat' first
    | simp -zeta only [↓keeps_mk, id_eq] | with_reducible assumption | (intro) | with_reducible apply onAdmin_goes
    | with_reducible apply completeCmd_keeps | with_reducible apply setAssoc_keeps | with_reducible apply goes_next
    | (have x := trivial; extract_lets +onlyGivenNames x; (fail_if_success have y : True := x); first | (refine goes_step x ?_ (fun hx => ?_); focus dsimp -zeta only [x]; rotate_left; clear_value x; rotate_right) | (refine keeps_step x ?_ (fun hx => ?_); focus dsimp -zeta only [x]; rotate_left; clear_value x; rotate_right) | skip)

theorem execAsynchronousEventRequest_goes {o x0 x1} (h0 : Keeps o x1) :
    Goes o (execAsynchronousEventRequest x0 x1) := by
  unfold execAsynchronousEventRequest
  repeat' first
    | simp -zeta only [↓keeps_mk, id_eq] | with_reducible assumption | (intro) | with_reducible apply onAdmin_goes
    | with_reducible apply deliverEvents_keeps | with_reducible apply setAssoc_keeps
    | with_reducible apply keeps_ite | with_reducible apply goes_ite | with_reducible apply goes_next
    | (have x := trivial; extract_lets +onlyGivenNames x; (fail_if_success have y : True := x); first | (refine goes_step x ?_ (fun hx => ?_); focus dsimp -zeta only [x]; rotate_left; clear_value x; rotate_right) | (refine keeps_step x ?_ (fun hx => ?_); focus dsimp -zeta only [x]; rotate_left; clear_value x; rotate_right) | skip)

theorem setSubLink_keeps {o x0 x1 x2 x3} (h0 : Keeps o x0) : Keeps o (setSubLink x0 x1 x2 x3) := by
  unfold setSubLink
  repeat' first
    | with_reducible assumption | with_reducible apply setF_keeps

theorem portLevel_keeps {o x0 x1} (h0 : Keeps o x0) : Keeps o (portLevel x0 x1) := by
  unfold portLevel
  repeat' first
    | with_reducible assumption | (intro) | with_reducible apply irqLevel_keeps

theorem resendAll_keeps {o x0 x1} (h0 : Keeps o x0) : Keeps o (resendAll x0 x1) := by
  unfold resendAll
  repeat' first
    | with_reducible assumption | (intro) | with_reducible apply emit_keeps | with_reducible apply bump_keeps
    | with_reducible apply keeps_foldl
    | (have x := trivial; extract_lets +onlyGivenNames x; (fail_if_success have y : True := x); first | (refine keeps_step x ?_ (fun hx => ?_); focus dsimp -zeta only [x]; rotate_left; clear_value x; rotate_right) | skip)

theorem subGo_keeps {o x0 x1 x2} (h0 : Keeps o x0) : Keeps o (subGo x0 x1 x2) := by
  unfold subGo
  repeat' first
    | with_reducible assumption | (intro) | with_reducible apply drainTx_keeps
    | with_reducible apply writeProgress_keeps | with_reducible apply keeps_ite | with_reducible apply keeps_foldl
    | (have x := trivial; extract_lets +onlyGivenNames x; (fail_if_success have y : True := x); first | (refine keeps_step x ?_ (fun hx => ?_); focus dsimp -zeta only [x]; rotate_left; clear_value x; rotate_right) | skip)

theorem subLost_keeps {o x0 x1 x2 x3} (h0 : Keeps o x0) : Keeps o (subLost x0 x1 x2 x3) := by
  unfold subLost
  repeat' first
    | simp -zeta only [↓keeps_mk, id_eq] | with_reducible assumption | with_reducible apply setSubLink_keeps
    | with_reducible apply portLevel_keeps | with_reducible apply setSub_keeps
    | with_reducible apply discoveryEvent_keeps | with_reducible apply subportDown_keeps
    | with_reducible apply keeps_ite
    | (have x := trivial; extract_lets +onlyGivenNames x; (fail_if_success have y : True := x); first | (refine keeps_step x ?_ (fun hx => ?_); focus dsimp -zeta only [x]; rotate_left; clear_value x; rotate_right) | skip)

theorem execPcsAlignmentLoss_goes {o x0 x1 x2} (h0 : Keeps o x2) : Goes o (execPcsAlignmentLoss x0 x1 x2) := by
  unfold execPcsAlignmentLoss
  repeat' first
    | with_reducible assumption | with_reducible apply onSub_goes | with_reducible apply subLost_keeps
    | with_reducible apply keeps_ite | with_reducible apply goes_ite | with_reducible apply goes_next

theorem execPcsRealigned_goes {o x0 x1 x2} (h0 : Keeps o x2) : Goes o (execPcsRealigned x0 x1 x2) := by
  unfold execPcsRealigned
  repeat' first
    | simp -zeta only [↓keeps_mk, id_eq] | with_reducible assumption | (intro) | with_reducible apply onSub_goes
    | with_reducible apply setSubLink_keeps | with_reducible apply portLevel_keeps
    | with_reducible apply setSub_keeps | with_reducible apply discoveryEvent_keeps
    | with_reducible apply subGo_keeps | with_reducible apply resendAll_keeps | with_reducible apply keeps_ite
    | with_reducible apply goes_ite | with_reducible apply goes_next | with_reducible apply keeps_foldl
    | (have x := trivial; extract_lets +onlyGivenNames x; (fail_if_success have y : True := x); first | (refine goes_step x ?_ (fun hx => ?_); focus dsimp -zeta only [x]; rotate_left; clear_value x; rotate_right) | (refine keeps_step x ?_ (fun hx => ?_); focus dsimp -zeta only [x]; rotate_left; clear_value x; rotate_right) | skip)

theorem execPdownTimeout_goes {o x0 x1 x2} (h0 : Keeps o x2) : Goes o (execPdownTimeout x0 x1 x2) := by
  unfold execPdownTimeout
  repeat' first
    | with_reducible assumption | with_reducible apply onSub_goes | with_reducible apply subportDown_keeps
    | with_reducible apply keeps_ite | with_reducible apply goes_ite | with_reducible apply goes_next | split

theorem portsFollow_keeps {o x0} (h0 : Keeps o x0) : Keeps o (portsFollow x0) := by
  unfold portsFollow
  repeat' first
    | with_reducible assumption | (intro) | with_reducible apply setSubLink_keeps
    | with_reducible apply subLost_keeps | with_reducible apply keeps_ite | with_reducible apply keeps_foldl
    | (have x := trivial; extract_lets +onlyGivenNames x; (fail_if_success have y : True := x); first | (refine keeps_step x ?_ (fun hx => ?_); focus dsimp -zeta only [x]; rotate_left; clear_value x; rotate_right) | skip)

theorem rxDiscard_keeps {o x0 x1 x2} (h0 : Keeps o x0) : Keeps o (rxDiscard x0 x1 x2) := by
  unfold rxDiscard
  repeat' first
    | with_reducible assumption | with_reducible apply bump_keeps

theorem sendPfc_keeps {o x0 x1 x2 x3 x4} (h0 : Keeps o x0) : Keeps o (sendPfc x0 x1 x2 x3 x4) := by
  unfold sendPfc
  repeat' first
    | with_reducible assumption | with_reducible apply emit_keeps | with_reducible apply bump_keeps

theorem rxHold_keeps {o x0 x1 x2 x3} (h0 : Keeps o x0) : Keeps o (rxHold x0 x1 x2 x3) := by
  unfold rxHold
  repeat' first
    | simp -zeta only [↓keeps_mk, id_eq] | with_reducible assumption | (intro) | with_reducible apply setSub_keeps
    | with_reducible apply sendPfc_keeps | with_reducible apply keeps_ite
    | (have x := trivial; extract_lets +onlyGivenNames x; (fail_if_success have y : True := x); first | (refine keeps_step x ?_ (fun hx => ?_); focus dsimp -zeta only [x]; rotate_left; clear_value x; rotate_right) | skip)

theorem answerMark_keeps {o x0 x1 x2 x3} (h0 : Keeps o x0) : Keeps o (answerMark x0 x1 x2 x3) := by
  unfold answerMark
  repeat' first
    | simp -zeta only [↓keeps_mk, id_eq] | with_reducible assumption | with_reducible apply emit_keeps
    | with_reducible apply bump_keeps | with_reducible apply setQp_keeps | with_reducible apply keeps_ite
    | (have x := trivial; extract_lets +onlyGivenNames x; (fail_if_success have y : True := x); first | (refine keeps_step x ?_ (fun hx => ?_); focus dsimp -zeta only [x]; rotate_left; clear_value x; rotate_right) | skip)
    | split

theorem rxSend_keeps {o x0 x1 x2 x3} (h0 : Keeps o x0) : Keeps o (rxSend x0 x1 x2 x3) := by
  unfold rxSend
  repeat' first
    | with_reducible assumption | with_reducible apply setQp_keeps | with_reducible apply emit_keeps
    | with_reducible apply bump_keeps | with_reducible apply keeps_ite
    | (have x := trivial; extract_lets +onlyGivenNames x; (fail_if_success have y : True := x); first | (refine keeps_step x ?_ (fun hx => ?_); focus dsimp -zeta only [x]; rotate_left; clear_value x; rotate_right) | clear_value x | skip)

theorem rxPacket_keeps {o x0 x1 x2 x3} (h0 : Keeps o x0) : Keeps o (rxPacket x0 x1 x2 x3) := by
  unfold rxPacket
  repeat' first
    | with_reducible assumption | with_reducible apply rxSend_keeps | with_reducible apply qpError_keeps
    | with_reducible apply emit_keeps | with_reducible apply keeps_ite
    | (have x := trivial; extract_lets +onlyGivenNames x; (fail_if_success have y : True := x); first | (refine keeps_step x ?_ (fun hx => ?_); focus dsimp -zeta only [x]; rotate_left; clear_value x; rotate_right) | clear_value x | skip)

theorem frameReceive_keeps {o x0 x1 x2 x3} (h0 : Keeps o x0) : Keeps o (frameReceive x0 x1 x2 x3) := by
  unfold frameReceive
  repeat' first
    | with_reducible assumption | with_reducible apply bump_keeps | with_reducible apply portLevel_keeps
    | with_reducible apply rxDiscard_keeps | with_reducible apply rxHold_keeps
    | with_reducible apply answerMark_keeps | with_reducible apply rxPacket_keeps | with_reducible apply keeps_ite
    | (have x := trivial; extract_lets +onlyGivenNames x; (fail_if_success have y : True := x); first | (refine keeps_step x ?_ (fun hx => ?_); focus dsimp -zeta only [x]; rotate_left; clear_value x; rotate_right) | skip)

theorem execFrameReceive_goes {o x0 x1 x2 x3} (h0 : Keeps o x3) : Goes o (execFrameReceive x0 x1 x2 x3) := by
  unfold execFrameReceive
  repeat' first
    | with_reducible assumption | with_reducible apply onSub_goes | with_reducible apply frameReceive_keeps
    | with_reducible apply keeps_ite | with_reducible apply goes_ite | with_reducible apply goes_next
    | exact goes_fault

theorem neighbour_keeps {o x0 x1 x2 x3 x4} (h0 : Keeps o x0) : Keeps o (neighbour x0 x1 x2 x3 x4) := by
  unfold neighbour
  repeat' first
    | with_reducible assumption | with_reducible apply emit_keeps | with_reducible apply rxDiscard_keeps
    | with_reducible apply keeps_ite

theorem execArpRequest_goes {o x0 x1 x2 x3} (h0 : Keeps o x3) : Goes o (execArpRequest x0 x1 x2 x3) := by
  unfold execArpRequest
  repeat' first
    | with_reducible assumption | with_reducible apply onSub_goes | with_reducible apply neighbour_keeps
    | with_reducible apply goes_next

theorem execNeighborSolicitation_goes {o x0 x1 x2 x3} (h0 : Keeps o x3) :
    Goes o (execNeighborSolicitation x0 x1 x2 x3) := by
  unfold execNeighborSolicitation
  repeat' first
    | with_reducible assumption | with_reducible apply onSub_goes | with_reducible apply neighbour_keeps
    | with_reducible apply goes_next

theorem execIcmpEcho_goes {o x0 x1 x2 x3} (h0 : Keeps o x3) : Goes o (execIcmpEcho x0 x1 x2 x3) := by
  unfold execIcmpEcho
  repeat' first
    | with_reducible assumption | with_reducible apply onSub_goes | with_reducible apply neighbour_keeps
    | with_reducible apply goes_next

theorem pfcResume_keeps {o x0 x1 x2 x3} (h0 : Keeps o x0) : Keeps o (pfcResume x0 x1 x2 x3) := by
  unfold pfcResume
  repeat' first
    | simp -zeta only [↓keeps_mk, id_eq] | with_reducible assumption | (intro) | with_reducible apply subGo_keeps
    | with_reducible apply setSub_keeps
    | (have x := trivial; extract_lets +onlyGivenNames x; (fail_if_success have y : True := x); first | (refine keeps_step x ?_ (fun hx => ?_); focus dsimp -zeta only [x]; rotate_left; clear_value x; rotate_right) | skip)
    | split

theorem pfcFrame_keeps {o x0 x1 x2 x3 x4} (h0 : Keeps o x0) : Keeps o (pfcFrame x0 x1 x2 x3 x4) := by
  unfold pfcFrame
  repeat' first
    | simp -zeta only [↓keeps_mk, id_eq] | with_reducible assumption | (intro)
    | with_reducible apply rxDiscard_keeps | with_reducible apply bump_keeps | with_reducible apply pfcResume_keeps
    | with_reducible apply setSub_keeps | with_reducible apply keeps_ite
    | (have x := trivial; extract_lets +onlyGivenNames x; (fail_if_success have y : True := x); first | (refine keeps_step x ?_ (fun hx => ?_); focus dsimp -zeta only [x]; rotate_left; clear_value x; rotate_right) | skip)
    | split

theorem execPfcFrame_goes {o x0 x1 x2 x3 x4} (h0 : Keeps o x4) : Goes o (execPfcFrame x0 x1 x2 x3 x4) := by
  unfold execPfcFrame
  repeat' first
    | with_reducible assumption | with_reducible apply onSub_goes | with_reducible apply pfcFrame_keeps
    | with_reducible apply keeps_ite | with_reducible apply goes_ite | with_reducible apply goes_next
    | exact goes_fault

theorem execPfcPauseExpire_goes {o x0 x1 x2 x3} (h0 : Keeps o x3) : Goes o (execPfcPauseExpire x0 x1 x2 x3) := by
  unfold execPfcPauseExpire
  repeat' first
    | with_reducible assumption | (intro) | with_reducible apply onSub_goes | with_reducible apply pfcResume_keeps
    | with_reducible apply keeps_ite | with_reducible apply goes_ite | with_reducible apply goes_next
    | exact goes_fault

theorem execPfcRefresh_goes {o x0 x1 x2 x3} (h0 : Keeps o x3) : Goes o (execPfcRefresh x0 x1 x2 x3) := by
  unfold execPfcRefresh
  repeat' first
    | simp -zeta only [↓keeps_mk, id_eq] | with_reducible assumption | (intro) | with_reducible apply onSub_goes
    | with_reducible apply sendPfc_keeps | with_reducible apply setSub_keeps | with_reducible apply keeps_ite
    | with_reducible apply goes_ite | with_reducible apply goes_next | exact goes_fault
    | (have x := trivial; extract_lets +onlyGivenNames x; (fail_if_success have y : True := x); first | (refine goes_step x ?_ (fun hx => ?_); focus dsimp -zeta only [x]; rotate_left; clear_value x; rotate_right) | (refine keeps_step x ?_ (fun hx => ?_); focus dsimp -zeta only [x]; rotate_left; clear_value x; rotate_right) | skip)
    | split

theorem rxDrain_keeps {o x0 x1} (h0 : Keeps o x0) : Keeps o (rxDrain x0 x1) := by
  unfold rxDrain
  repeat' first
    | simp -zeta only [↓keeps_mk, id_eq] | with_reducible assumption | (intro) | with_reducible apply setSub_keeps
    | with_reducible apply sendPfc_keeps | with_reducible apply keeps_ite | with_reducible apply keeps_foldl
    | (have x := trivial; extract_lets +onlyGivenNames x; (fail_if_success have y : True := x); first | (refine keeps_step x ?_ (fun hx => ?_); focus dsimp -zeta only [x]; rotate_left; clear_value x; rotate_right) | skip)

theorem cnpReceive_keeps {o x0 x1 x2 x3} (h0 : Keeps o x0) : Keeps o (cnpReceive x0 x1 x2 x3) := by
  unfold cnpReceive
  repeat' first
    | with_reducible assumption | with_reducible apply bump_keeps | with_reducible apply setQp_keeps
    | with_reducible apply keeps_ite
    | (have x := trivial; extract_lets +onlyGivenNames x; (fail_if_success have y : True := x); first | (refine keeps_step x ?_ (fun hx => ?_); focus dsimp -zeta only [x]; rotate_left; clear_value x; rotate_right) | skip)
    | split

theorem execCnpReceive_goes {o x0 x1 x2 x3} (h0 : Keeps o x3) : Goes o (execCnpReceive x0 x1 x2 x3) := by
  unfold execCnpReceive
  repeat' first
    | with_reducible assumption | with_reducible apply onSub_goes | with_reducible apply cnpReceive_keeps
    | with_reducible apply keeps_ite | with_reducible apply goes_ite | with_reducible apply goes_next
    | exact goes_fault

theorem execRateRecovery_goes {o x0 x1} (h0 : Keeps o x1) : Goes o (execRateRecovery x0 x1) := by
  unfold execRateRecovery
  repeat' first
    | simp -zeta only [↓keeps_mk, id_eq] | with_reducible assumption | with_reducible apply onOk_goes
    | with_reducible apply setQp_keeps | with_reducible apply keeps_ite | with_reducible apply goes_ite
    | with_reducible apply goes_next
    | (have x := trivial; extract_lets +onlyGivenNames x; (fail_if_success have y : True := x); first | (refine goes_step x ?_ (fun hx => ?_); focus dsimp -zeta only [x]; rotate_left; clear_value x; rotate_right) | (refine keeps_step x ?_ (fun hx => ?_); focus dsimp -zeta only [x]; rotate_left; clear_value x; rotate_right) | skip)
    | split

theorem ackUpTo_keeps {o x0 x1 x2} (h0 : Keeps o x0) : Keeps o (ackUpTo x0 x1 x2) := by
  unfold ackUpTo
  repeat' first
    | simp -zeta only [↓keeps_mk, id_eq] | with_reducible assumption | (intro) | with_reducible apply setQp_keeps
    | (have x := trivial; extract_lets +onlyGivenNames x; (fail_if_success have y : True := x); first | (refine keeps_step x ?_ (fun hx => ?_); focus dsimp -zeta only [x]; rotate_left; clear_value x; rotate_right) | skip)
    | split

theorem execAckReceive_goes {o x0 x1 x2} (h0 : Keeps o x2) : Goes o (execAckReceive x0 x1 x2) := by
  unfold execAckReceive
  repeat' first
    | with_reducible assumption | with_reducible apply onOk_goes | with_reducible apply ackUpTo_keeps
    | with_reducible apply keeps_ite | with_reducible apply goes_ite | with_reducible apply goes_next

theorem retry_keeps {o x0 x1} (h0 : Keeps o x0) : Keeps o (retry x0 x1) := by
  unfold retry
  repeat' first
    | simp -zeta only [↓keeps_mk, id_eq] | with_reducible assumption | with_reducible apply setQp_keeps
    | with_reducible apply resendAll_keeps | with_reducible apply qpError_keeps | with_reducible apply keeps_ite
    | (have x := trivial; extract_lets +onlyGivenNames x; (fail_if_success have y : True := x); first | (refine keeps_step x ?_ (fun hx => ?_); focus dsimp -zeta only [x]; rotate_left; clear_value x; rotate_right) | skip)

theorem nakReceive_keeps {o x0 x1 x2 x3} (h0 : Keeps o x0) : Keeps o (nakReceive x0 x1 x2 x3) := by
  unfold nakReceive
  repeat' first
    | simp -zeta only [↓keeps_mk, id_eq] | with_reducible assumption | with_reducible apply ackUpTo_keeps
    | with_reducible apply setQp_keeps | with_reducible apply retry_keeps | with_reducible apply qpError_keeps
    | with_reducible apply keeps_ite
    | (have x := trivial; extract_lets +onlyGivenNames x; (fail_if_success have y : True := x); first | (refine keeps_step x ?_ (fun hx => ?_); focus dsimp -zeta only [x]; rotate_left; clear_value x; rotate_right) | skip)

theorem execNakReceive_goes {o x0 x1 x2 x3} (h0 : Keeps o x3) : Goes o (execNakReceive x0 x1 x2 x3) := by
  unfold execNakReceive
  repeat' first
    | with_reducible assumption | with_reducible apply onOk_goes | with_reducible apply nakReceive_keeps
    | with_reducible apply goes_next

theorem execAckTimeout_goes {o x0 x1} (h0 : Keeps o x1) : Goes o (execAckTimeout x0 x1) := by
  unfold execAckTimeout
  repeat' first
    | with_reducible assumption | with_reducible apply onOk_goes | with_reducible apply retry_keeps
    | with_reducible apply keeps_ite | with_reducible apply goes_ite | with_reducible apply goes_next

theorem execRnrTimerExpire_goes {o x0 x1} (h0 : Keeps o x1) : Goes o (execRnrTimerExpire x0 x1) := by
  unfold execRnrTimerExpire
  repeat' first
    | with_reducible assumption | with_reducible apply onOk_goes | with_reducible apply resendAll_keeps
    | with_reducible apply keeps_ite | with_reducible apply goes_ite | with_reducible apply goes_next

end Sys2Proof.Machine
end

