-- ==== Sys2Proof/Laws/KeepsManage.lean ====
section
/-! SUPPORT. What register accesses, the executor, power, boot, configuration and management keep (`Keeps`): one lemma per operation. -/

namespace Sys2Proof.Machine

theorem afterRead_keeps {o x0 x1 x2 x3} (h0 : Keeps o x0) : Keeps o (afterRead x0 x1 x2 x3) := by
  unfold afterRead
  repeat' first
    | simp -zeta only [↓keeps_mk, id_eq] | with_reducible assumption | (intro) | with_reducible apply setReg_keeps
    | with_reducible apply mempTileLevel_keeps | with_reducible apply mempLevels_keeps
    | with_reducible apply portLevel_keeps | with_reducible apply setSub_keeps
    | with_reducible apply owlAdvance_keeps | with_reducible apply ucsNext_keeps
    | with_reducible apply claimRead_keeps | with_reducible apply keeps_ite | with_reducible apply keeps_ite_fst
    | with_reducible apply keeps_foldl
    | (have x := trivial; extract_lets +onlyGivenNames x; (fail_if_success have y : True := x); first | (refine keeps_step x ?_ (fun hx => ?_); focus dsimp -zeta only [x]; rotate_left; clear_value x; rotate_right) | skip)
    | split

theorem readReg_keeps {o x0 x1 x2} (h0 : Keeps o x0) : Keeps o (readReg x0 x1 x2).1 := by
  unfold readReg
  repeat' first
    | with_reducible assumption | with_reducible apply afterRead_keeps | with_reducible apply keeps_ite
    | with_reducible apply keeps_ite_fst | split

theorem plainWrite_keeps {o x0 x1 x2 x3} (h0 : Keeps o x0) : Keeps o (plainWrite x0 x1 x2 x3).1 := by
  unfold plainWrite
  repeat' first
    | with_reducible assumption | with_reducible apply clrReg_keeps | with_reducible apply setReg_keeps
    | with_reducible apply keeps_ite | with_reducible apply keeps_ite_fst | split

theorem writeIrq_keeps {o x0 x1 x2 x3 x4 x5} (h0 : Keeps o x0) : Keeps o (writeIrq x0 x1 x2 x3 x4 x5).1 := by
  unfold writeIrq
  dsimp only
  repeat' split
  all_goals first
    | exact writeSource_keeps h0
    | exact completeBy_keeps h0
    | exact clearStack_keeps h0
    | exact h0
    | exact writeDoorbell_keeps h0
    | exact irqEval_keeps (plainWrite_keeps h0)

theorem writeUcs_keeps {o x0 x1 x2 x3 x4} (h0 : Keeps o x0) : Keeps o (writeUcs x0 x1 x2 x3 x4).1 := by
  unfold writeUcs
  repeat' first
    | with_reducible assumption | with_reducible apply ucsCmd_keeps | with_reducible apply ucsPut_keeps
    | with_reducible apply plainWrite_keeps | with_reducible apply keeps_ite | with_reducible apply keeps_ite_fst

theorem writeCtl_keeps {o x0 x1 x2 x3 x4 x5} (h0 : Keeps o x0) : Keeps o (writeCtl x0 x1 x2 x3 x4 x5).1 := by
  unfold writeCtl
  repeat' first
    | with_reducible assumption | with_reducible apply clearWolfst_keeps | with_reducible apply writeSctl_keeps
    | with_reducible apply plainWrite_keeps | with_reducible apply keeps_ite | with_reducible apply keeps_ite_fst

theorem writeSpn_keeps {o x0 x1 x2 x3 x4} (h0 : Keeps o x0) : Keeps o (writeSpn x0 x1 x2 x3 x4).1 := by
  unfold writeSpn
  repeat' first
    | with_reducible assumption | with_reducible apply runSet_keeps | with_reducible apply runClear_keeps
    | with_reducible apply clrReg_keeps | with_reducible apply irqLevel_keeps
    | with_reducible apply plainWrite_keeps | with_reducible apply keeps_ite | with_reducible apply keeps_ite_fst
    | (have x := trivial; extract_lets +onlyGivenNames x; (fail_if_success have y : True := x); first | (refine keeps_step x ?_ (fun hx => ?_); focus dsimp -zeta only [x]; rotate_left; clear_value x; rotate_right) | skip)

theorem writeBlk_keeps {o x0 x1 x2 x3 x4 x5 x6} (h0 : Keeps o x0) : Keeps o (writeBlk x0 x1 x2 x3 x4 x5 x6).1 := by
  unfold writeBlk
  repeat' first
    | with_reducible assumption | with_reducible apply owlClearStart_keeps | with_reducible apply owlCursor_keeps
    | with_reducible apply owlFirmware_keeps | with_reducible apply plainWrite_keeps
    | with_reducible apply writeIrq_keeps | with_reducible apply invall_keeps
    | with_reducible apply lkctlWrite_keeps | with_reducible apply staleClear_keeps
    | with_reducible apply keyAlarm_keeps | with_reducible apply alarmLevel_keeps
    | with_reducible apply clrReg_keeps | with_reducible apply scmdWrite_keeps | with_reducible apply testGo_keeps
    | with_reducible apply writeUcs_keeps | with_reducible apply laneSleep_keeps
    | with_reducible apply wakeLane_keeps | with_reducible apply setB_keeps | with_reducible apply tapWrite_keeps
    | with_reducible apply paccWrite_keeps | with_reducible apply clearFaults_keeps
    | with_reducible apply writeCtl_keeps | with_reducible apply writeSpn_keeps | with_reducible apply keeps_ite
    | with_reducible apply keeps_ite_fst | split

theorem writeReg_keeps {o x0 x1 x2 x3} (h0 : Keeps o x0) : Keeps o (writeReg x0 x1 x2 x3).1 := by
  unfold writeReg
  repeat' first
    | with_reducible assumption | with_reducible apply writeBlk_keeps | with_reducible apply keeps_ite
    | with_reducible apply keeps_ite_fst | split

theorem writeAccess_keeps {o x0 x1 x2 x3} (h0 : Keeps o x0) : Keeps o (writeAccess x0 x1 x2 x3) := by
  unfold writeAccess
  repeat' first
    | with_reducible assumption | with_reducible apply writeReg_keeps | with_reducible apply emit_keeps
    | (have x := trivial; extract_lets +onlyGivenNames x; (fail_if_success have y : True := x); first | (refine keeps_step x ?_ (fun hx => ?_); focus dsimp -zeta only [x]; rotate_left; clear_value x; rotate_right) | skip)

theorem readAccess_keeps {o x0 x1 x2 x3} (h0 : Keeps o x0) : Keeps o (readAccess x0 x1 x2 x3) := by
  unfold readAccess
  repeat' first
    | with_reducible assumption | (intro) | with_reducible apply readReg_keeps | with_reducible apply emit_keeps
    | with_reducible apply bumpF_keeps | with_reducible apply keeps_ite | with_reducible apply keeps_ite_fst
    | with_reducible apply keeps_foldl
    | (have x := trivial; extract_lets +onlyGivenNames x; (fail_if_success have y : True := x); first | (refine keeps_step x ?_ (fun hx => ?_); focus dsimp -zeta only [x]; rotate_left; clear_value x; rotate_right) | skip)
    | split

theorem doAccess_keeps {o x0 x1} (h0 : Keeps o x0) : Keeps o (doAccess x0 x1) := by
  unfold doAccess
  repeat' first
    | with_reducible assumption | with_reducible apply writeAccess_keeps | with_reducible apply readAccess_keeps
    | split

theorem offerAccess_keeps {o x0 x1} (h0 : Keeps o x0) : Keeps o (offerAccess x0 x1) := by
  unfold offerAccess
  repeat' first
    | simp -zeta only [↓keeps_mk, id_eq] | with_reducible assumption | with_reducible apply doAccess_keeps
    | with_reducible apply keeps_ite
    | (have x := trivial; extract_lets +onlyGivenNames x; (fail_if_success have y : True := x); first | (refine keeps_step x ?_ (fun hx => ?_); focus dsimp -zeta only [x]; rotate_left; clear_value x; rotate_right) | skip)

theorem serveAccs_keeps {o x0 x1} (h0 : Keeps o x0) : Keeps o (serveAccs x0 x1) := by
  unfold serveAccs
  repeat' first
    | simp -zeta only [↓keeps_mk, id_eq] | with_reducible assumption | (intro)
    | with_reducible apply doAccess_keeps | with_reducible apply keeps_foldl
    | (have x := trivial; extract_lets +onlyGivenNames x; (fail_if_success have y : True := x); first | (refine keeps_step x ?_ (fun hx => ?_); focus dsimp -zeta only [x]; rotate_left; clear_value x; rotate_right) | skip)
    | split

theorem execRegisterWrite_goes {o x0 x1 x2 x3} (h0 : Keeps o x3) : Goes o (execRegisterWrite x0 x1 x2 x3) := by
  unfold execRegisterWrite
  repeat' first
    | with_reducible assumption | with_reducible apply onOk_goes | with_reducible apply emit_keeps
    | with_reducible apply offerAccess_keeps | with_reducible apply keeps_ite | with_reducible apply goes_ite
    | with_reducible apply goes_next

theorem execRcCounterRead_goes {o x0 x1 x2} (h0 : Keeps o x2) : Goes o (execRcCounterRead x0 x1 x2) := by
  unfold execRcCounterRead
  repeat' first
    | with_reducible assumption | with_reducible apply onOk_goes | with_reducible apply offerAccess_keeps
    | with_reducible apply goes_next

theorem sendReply_keeps {o x0 x1 x2 x3 x4 x5} (h0 : Keeps o x0) : Keeps o (sendReply x0 x1 x2 x3 x4 x5) := by
  unfold sendReply
  repeat' first
    | simp -zeta only [↓keeps_mk, id_eq] | with_reducible assumption | with_reducible apply completeCmd_keeps
    | with_reducible apply setCmd_keeps | with_reducible apply keeps_ite
    | (have x := trivial; extract_lets +onlyGivenNames x; (fail_if_success have y : True := x); first | (refine keeps_step x ?_ (fun hx => ?_); focus dsimp -zeta only [x]; rotate_left; clear_value x; rotate_right) | skip)
    | split

theorem finishOp_keeps {o x0 x1 x2 x3} (h0 : Keeps o x0) : Keeps o (finishOp x0 x1 x2 x3) := by
  unfold finishOp
  repeat' first
    | with_reducible assumption | with_reducible apply setReg_keeps | with_reducible apply sendReply_keeps
    | with_reducible apply keeps_ite
    | (have x := trivial; extract_lets +onlyGivenNames x; (fail_if_success have y : True := x); first | (refine keeps_step x ?_ (fun hx => ?_); focus dsimp -zeta only [x]; rotate_left; clear_value x; rotate_right) | skip)

theorem finishLong_keeps {o x0 x1 x2} (h0 : Keeps o x0) : Keeps o (finishLong x0 x1 x2) := by
  unfold finishLong
  repeat' first
    | simp -zeta only [↓keeps_mk, id_eq] | with_reducible assumption | with_reducible apply finishOp_keeps
    | (have x := trivial; extract_lets +onlyGivenNames x; (fail_if_success have y : True := x); first | (refine keeps_step x ?_ (fun hx => ?_); focus dsimp -zeta only [x]; rotate_left; clear_value x; rotate_right) | skip)
    | split

theorem beginLong_keeps {o x0 x1 x2} (h0 : Keeps o x0) : Keeps o (beginLong x0 x1 x2) := by
  unfold beginLong
  repeat' first
    | simp -zeta only [↓keeps_mk, id_eq] | with_reducible assumption
    | (have x := trivial; extract_lets +onlyGivenNames x; (fail_if_success have y : True := x); first | (refine keeps_step x ?_ (fun hx => ?_); focus dsimp -zeta only [x]; rotate_left; clear_value x; rotate_right) | skip)

theorem portWaits_keeps {o x0 x1} (h0 : Keeps o x0) : Keeps o (portWaits x0 x1) := by
  unfold portWaits
  repeat' first
    | simp -zeta only [↓keeps_mk, id_eq] | with_reducible assumption | (intro)
    | with_reducible apply irqEvent_keeps
    | (have x := trivial; extract_lets +onlyGivenNames x; (fail_if_success have y : True := x); first | (refine keeps_step x ?_ (fun hx => ?_); focus dsimp -zeta only [x]; rotate_left; clear_value x; rotate_right) | skip)
    | split

theorem popOp_keeps {o x0} (h0 : Keeps o x0) : Keeps o (popOp x0) := by
  unfold popOp
  repeat' first
    | simp -zeta only [↓keeps_mk, id_eq] | with_reducible assumption | (intro)
    | with_reducible apply irqFall_keeps
    | (have x := trivial; extract_lets +onlyGivenNames x; (fail_if_success have y : True := x); first | (refine keeps_step x ?_ (fun hx => ?_); focus dsimp -zeta only [x]; rotate_left; clear_value x; rotate_right) | skip)
    | split

theorem offerPacket_keeps {o x0 x1 x2} (h0 : Keeps o x0) : Keeps o (offerPacket x0 x1 x2).1 := by
  unfold offerPacket
  repeat' first
    | with_reducible apply portWaits_keeps
    | simp -zeta only [↓keeps_mk, id_eq] | with_reducible assumption | with_reducible apply sendReply_keeps
    | with_reducible apply bump_keeps | with_reducible apply keeps_ite | with_reducible apply keeps_ite_fst
    | (have x := trivial; extract_lets +onlyGivenNames x; (fail_if_success have y : True := x); first | (refine keeps_step x ?_ (fun hx => ?_); focus dsimp -zeta only [x]; rotate_left; clear_value x; rotate_right) | skip)
    | split

theorem portPacket_keeps {o x0 x1} (h0 : Keeps o x0) : Keeps o (portPacket x0 x1) := by
  unfold portPacket
  repeat' first
    | simp -zeta only [↓keeps_mk, id_eq] | with_reducible assumption | with_reducible apply bump_keeps
    | with_reducible apply irqFall_keeps | with_reducible apply irqEvent_keeps
    | with_reducible apply offerPacket_keeps | with_reducible apply keeps_ite | with_reducible apply keeps_ite_fst
    | (have x := trivial; extract_lets +onlyGivenNames x; (fail_if_success have y : True := x); first | (refine keeps_step x ?_ (fun hx => ?_); focus dsimp -zeta only [x]; rotate_left; clear_value x; rotate_right) | skip)

theorem offerOp_keeps {o x0 x1 x2 x3} (h0 : Keeps o x0) : Keeps o (offerOp x0 x1 x2 x3) := by
  unfold offerOp
  repeat' first
    | with_reducible assumption | with_reducible apply portPacket_keeps | with_reducible apply keeps_ite
    | (have x := trivial; extract_lets +onlyGivenNames x; (fail_if_success have y : True := x); first | (refine keeps_step x ?_ (fun hx => ?_); focus dsimp -zeta only [x]; rotate_left; clear_value x; rotate_right) | skip)
    | split

theorem onOp_goes {o x0 x1 x2 x3 x4} (h0 : Keeps o x0) (h1 : ∀ y0 y1, Keeps o y0 → Keeps o (x4 y0 y1)) :
    Goes o (onOp x0 x1 x2 x3 x4) := by
  unfold onOp
  repeat' first
    | with_reducible apply popOp_keeps
    | simp -zeta only [↓keeps_mk, id_eq] | with_reducible assumption | (intro) | with_reducible apply onOk_goes
    | with_reducible apply offerOp_keeps | with_reducible apply irqFall_keeps | with_reducible apply h1
    | with_reducible apply keeps_ite | with_reducible apply goes_ite | with_reducible apply goes_next
    | (have x := trivial; extract_lets +onlyGivenNames x; (fail_if_success have y : True := x); first | (refine goes_step x ?_ (fun hx => ?_); focus dsimp -zeta only [x]; rotate_left; clear_value x; rotate_right) | (refine keeps_step x ?_ (fun hx => ?_); focus dsimp -zeta only [x]; rotate_left; clear_value x; rotate_right) | skip)
    | split

theorem refuseOp_keeps {o x0 x1 x2} (h0 : Keeps o x0) : Keeps o (refuseOp x0 x1 x2) := by
  unfold refuseOp
  repeat' first
    | with_reducible assumption | with_reducible apply sendReply_keeps | with_reducible apply finishOp_keeps
    | with_reducible apply keeps_ite

theorem checkedOp_keeps {o x0 x1 x2 x3 x4 x5} (h0 : Keeps o x0) (h1 : Keeps o x5) :
    Keeps o (checkedOp x0 x1 x2 x3 x4 x5) := by
  unfold checkedOp
  repeat' first
    | with_reducible assumption | with_reducible apply refuseOp_keeps | split

theorem setDom_keeps {o x0 x1 x2} (h0 : Keeps o x0) : Keeps o (setDom x0 x1 x2) := by
  unfold setDom
  repeat' first
    | with_reducible assumption | with_reducible apply setB_keeps

theorem forgetCh_keeps {o x0 x1} (h0 : Keeps o x0) : Keeps o (forgetCh x0 x1) := by
  unfold forgetCh
  repeat' first
    | simp -zeta only [↓keeps_mk, id_eq] | with_reducible assumption | (intro)
    | (have x := trivial; extract_lets +onlyGivenNames x; (fail_if_success have y : True := x); first | (refine keeps_step x ?_ (fun hx => ?_); focus dsimp -zeta only [x]; rotate_left; clear_value x; rotate_right) | skip)
    | split

theorem forgetMo_keeps {o x0 x1} (h0 : Keeps o x0) : Keeps o (forgetMo x0 x1) := by
  unfold forgetMo
  repeat' first
    | simp -zeta only [↓keeps_mk, id_eq] | with_reducible assumption | (intro)
    | (have x := trivial; extract_lets +onlyGivenNames x; (fail_if_success have y : True := x); first | (refine keeps_step x ?_ (fun hx => ?_); focus dsimp -zeta only [x]; rotate_left; clear_value x; rotate_right) | skip)
    | split

theorem stopChannels_keeps {o x0 x1} (h0 : Keeps o x0) : Keeps o (stopChannels x0 x1) := by
  unfold stopChannels
  repeat' first
    | with_reducible assumption | (intro) | with_reducible apply abortAll_keeps
    | with_reducible apply setGate_keeps | with_reducible apply keeps_ite | with_reducible apply keeps_foldl

theorem chOff_keeps {o x0 x1} (h0 : Keeps o x0) : Keeps o (chOff x0 x1) := by
  unfold chOff
  repeat' first
    | with_reducible assumption | (intro) | with_reducible apply setDom_keeps | with_reducible apply forgetCh_keeps
    | with_reducible apply volReset_keeps | with_reducible apply stopChannels_keeps

theorem linkOff_keeps {o x0 x1} (h0 : Keeps o x0) : Keeps o (linkOff x0 x1) := by
  unfold linkOff
  repeat' first
    | with_reducible assumption | with_reducible apply setF_keeps | with_reducible apply setLinkState_keeps

theorem moOff_keeps {o x0 x1} (h0 : Keeps o x0) : Keeps o (moOff x0 x1) := by
  unfold moOff
  repeat' first
    | with_reducible assumption | (intro) | with_reducible apply setDom_keeps | with_reducible apply forgetMo_keeps
    | with_reducible apply volReset_keeps | with_reducible apply linkOff_keeps

theorem chOn_keeps {o x0 x1} (h0 : Keeps o x0) : Keeps o (chOn x0 x1) := by
  unfold chOn
  repeat' first
    | with_reducible assumption | (intro) | with_reducible apply setDom_keeps
    | with_reducible apply loadTileStores_keeps | with_reducible apply loadTileRegs_keeps
    | with_reducible apply setLaneSt_keeps | with_reducible apply keeps_ite | with_reducible apply keeps_foldl
    | (have x := trivial; extract_lets +onlyGivenNames x; (fail_if_success have y : True := x); first | (refine keeps_step x ?_ (fun hx => ?_); focus dsimp -zeta only [x]; rotate_left; clear_value x; rotate_right) | skip)

theorem moOn_keeps {o x0 x1} (h0 : Keeps o x0) : Keeps o (moOn x0 x1) := by
  unfold moOn
  repeat' first
    | simp -zeta only [↓keeps_mk, id_eq] | with_reducible assumption | (intro) | with_reducible apply setDom_keeps
    | with_reducible apply loadTileStores_keeps | with_reducible apply loadTileRegs_keeps
    | with_reducible apply cfgReset_keeps | with_reducible apply setSpnState_keeps
    | with_reducible apply setMode_keeps | with_reducible apply modCtl_keeps
    | with_reducible apply setLinkState_keeps | with_reducible apply keeps_ite | with_reducible apply keeps_foldl
    | (have x := trivial; extract_lets +onlyGivenNames x; (fail_if_success have y : True := x); first | (refine keeps_step x ?_ (fun hx => ?_); focus dsimp -zeta only [x]; rotate_left; clear_value x; rotate_right) | skip)

theorem moReset_keeps {o x0 x1} (h0 : Keeps o x0) : Keeps o (moReset x0 x1) := by
  unfold moReset
  repeat' first
    | with_reducible assumption | with_reducible apply moOn_keeps | with_reducible apply moOff_keeps

theorem setBring_keeps {o x0 x1 x2} (h0 : Keeps o x0) : Keeps o (setBring x0 x1 x2) := by
  unfold setBring
  repeat' first
    | simp -zeta only [↓keeps_mk, id_eq] | with_reducible assumption
    | (have x := trivial; extract_lets +onlyGivenNames x; (fail_if_success have y : True := x); first | (refine keeps_step x ?_ (fun hx => ?_); focus dsimp -zeta only [x]; rotate_left; clear_value x; rotate_right) | skip)

theorem setGoal_keeps {o x0 x1 x2} (h0 : Keeps o x0) : Keeps o (setGoal x0 x1 x2) := by
  unfold setGoal
  repeat' first
    | simp -zeta only [↓keeps_mk, id_eq] | with_reducible assumption
    | (have x := trivial; extract_lets +onlyGivenNames x; (fail_if_success have y : True := x); first | (refine keeps_step x ?_ (fun hx => ?_); focus dsimp -zeta only [x]; rotate_left; clear_value x; rotate_right) | skip)

theorem powerEnded_keeps {o x0 x1} (h0 : Keeps o x0) : Keeps o (powerEnded x0 x1) := by
  unfold powerEnded
  repeat' first
    | with_reducible assumption | with_reducible apply owlHub_keeps | with_reducible apply irqEdge_keeps
    | with_reducible apply setF_keeps

theorem powerPump_keeps {o x0 x1} (h0 : Keeps o x0) : Keeps o (powerPump x0 x1) := by
  unfold powerPump
  repeat' first
    | simp -zeta only [↓keeps_mk, id_eq] | with_reducible assumption | (intro) | with_reducible apply setGoal_keeps
    | with_reducible apply finishLong_keeps | with_reducible apply powerEnded_keeps
    | with_reducible apply keeps_ite | with_reducible apply keeps_foldl
    | (have x := trivial; extract_lets +onlyGivenNames x; (fail_if_success have y : True := x); first | (refine keeps_step x ?_ (fun hx => ?_); focus dsimp -zeta only [x]; rotate_left; clear_value x; rotate_right) | skip)
    | split

theorem maintPump_keeps {o x0 x1} (h0 : Keeps o x0) : Keeps o (maintPump x0 x1) := by
  unfold maintPump
  repeat' first
    | with_reducible assumption | with_reducible apply finishLong_keeps | with_reducible apply keeps_ite
    | (have x := trivial; extract_lets +onlyGivenNames x; (fail_if_success have y : True := x); first | (refine keeps_step x ?_ (fun hx => ?_); focus dsimp -zeta only [x]; rotate_left; clear_value x; rotate_right) | skip)

theorem dropRetired_keeps {o x0 x1} (h0 : Keeps o x0) : Keeps o (dropRetired x0 x1) := by
  unfold dropRetired
  repeat' first
    | with_reducible assumption | with_reducible apply setGoal_keeps | with_reducible apply setBring_keeps
    | with_reducible apply keeps_ite

theorem bootEnd_keeps {o x0} (h0 : Keeps o x0) : Keeps o (bootEnd x0) := by
  unfold bootEnd
  repeat' first
    | simp -zeta only [↓keeps_mk, id_eq] | with_reducible assumption | (intro) | with_reducible apply setF_keeps
    | with_reducible apply keeps_ite
    | (have x := trivial; extract_lets +onlyGivenNames x; (fail_if_success have y : True := x); first | (refine keeps_step x ?_ (fun hx => ?_); focus dsimp -zeta only [x]; rotate_left; clear_value x; rotate_right) | skip)

theorem settle_keeps {o x0} (h0 : Keeps o x0) : Keeps o (settle x0) := by
  unfold settle
  repeat' first
    | with_reducible assumption | (intro) | with_reducible apply serveAccs_keeps
    | with_reducible apply bootEnd_keeps | with_reducible apply dropRetired_keeps
    | with_reducible apply powerPump_keeps | with_reducible apply maintPump_keeps | with_reducible apply keeps_ite
    | with_reducible apply keeps_foldl
    | (have x := trivial; extract_lets +onlyGivenNames x; (fail_if_success have y : True := x); first | (refine keeps_step x ?_ (fun hx => ?_); focus dsimp -zeta only [x]; rotate_left; clear_value x; rotate_right) | skip)
    | split

theorem arrived_keeps {o x0 x1 x2} (h0 : Keeps o x0) : Keeps o (arrived x0 x1 x2) := by
  unfold arrived
  repeat' first
    | with_reducible assumption | with_reducible apply setGoal_keeps | with_reducible apply setBring_keeps
    | with_reducible apply setPwrTile_keeps

theorem beginLoad_keeps {o x0 x1 x2} (h0 : Keeps o x0) : Keeps o (beginLoad x0 x1 x2) := by
  unfold beginLoad
  repeat' first
    | with_reducible assumption | (intro) | with_reducible apply chOn_keeps | with_reducible apply modCtl_keeps
    | with_reducible apply loadRequest_keeps | with_reducible apply setBring_keeps | with_reducible apply keeps_ite
    | with_reducible apply keeps_foldl
    | (have x := trivial; extract_lets +onlyGivenNames x; (fail_if_success have y : True := x); first | (refine keeps_step x ?_ (fun hx => ?_); focus dsimp -zeta only [x]; rotate_left; clear_value x; rotate_right) | skip)

theorem bringAgree_keeps {o x0 x1} (h0 : Keeps o x0) : Keeps o (bringAgree x0 x1) := by
  unfold bringAgree
  repeat' first
    | with_reducible assumption | with_reducible apply linkOpen_keeps | with_reducible apply sendSections_keeps
    | with_reducible apply setGoal_keeps | with_reducible apply setBring_keeps | with_reducible apply arrived_keeps
    | with_reducible apply moOff_keeps | with_reducible apply runSet_keeps | with_reducible apply keeps_ite
    | (have x := trivial; extract_lets +onlyGivenNames x; (fail_if_success have y : True := x); first | (refine keeps_step x ?_ (fun hx => ?_); focus dsimp -zeta only [x]; rotate_left; clear_value x; rotate_right) | skip)

theorem bringSpun_keeps {o x0 x1} (h0 : Keeps o x0) : Keeps o (bringSpun x0 x1) := by
  unfold bringSpun
  repeat' first
    | with_reducible assumption | with_reducible apply arrived_keeps | with_reducible apply beginLoad_keeps
    | with_reducible apply keeps_ite

theorem formatCheck_keeps {o x0 x1 x2} (h0 : Keeps o x0) : Keeps o (formatCheck x0 x1 x2).1 := by
  unfold formatCheck
  repeat' first
    | with_reducible assumption | with_reducible apply tileEdge_keeps | with_reducible apply setReg_keeps
    | with_reducible apply owlTile_keeps | with_reducible apply keeps_ite | with_reducible apply keeps_ite_fst
    | (have x := trivial; extract_lets +onlyGivenNames x; (fail_if_success have y : True := x); first | (refine keeps_step x ?_ (fun hx => ?_); focus dsimp -zeta only [x]; rotate_left; clear_value x; rotate_right) | skip)
    | split

theorem bringFormat_keeps {o x0 x1 x2} (h0 : Keeps o x0) : Keeps o (bringFormat x0 x1 x2) := by
  unfold bringFormat
  repeat' first
    | with_reducible assumption | (intro) | with_reducible apply formatCheck_keeps
    | with_reducible apply trainMove_keeps | with_reducible apply setBring_keeps
    | with_reducible apply setGoal_keeps | with_reducible apply keeps_ite | with_reducible apply keeps_ite_fst
    | with_reducible apply keeps_foldl
    | (have x := trivial; extract_lets +onlyGivenNames x; (fail_if_success have y : True := x); first | (refine keeps_step x ?_ (fun hx => ?_); focus dsimp -zeta only [x]; rotate_left; clear_value x; rotate_right) | skip)

theorem bringServe_keeps {o x0 x1} (h0 : Keeps o x0) : Keeps o (bringServe x0 x1) := by
  unfold bringServe
  repeat' first
    | simp -zeta only [↓keeps_mk, id_eq] | with_reducible assumption | (intro)
    | with_reducible apply idleLane_keeps | with_reducible apply arrived_keeps
    | with_reducible apply laneSleep_keeps | with_reducible apply keeps_ite | with_reducible apply keeps_foldl
    | (have x := trivial; extract_lets +onlyGivenNames x; (fail_if_success have y : True := x); first | (refine keeps_step x ?_ (fun hx => ?_); focus dsimp -zeta only [x]; rotate_left; clear_value x; rotate_right) | skip)

theorem bringStep_keeps {o x0 x1 x2 x3} (h0 : Keeps o x0) : Keeps o (bringStep x0 x1 x2 x3) := by
  unfold bringStep
  repeat' first
    | with_reducible assumption | (intro) | with_reducible apply bringFormat_keeps
    | with_reducible apply setBring_keeps | with_reducible apply moOff_keeps | with_reducible apply irqEdge_keeps
    | with_reducible apply moReset_keeps | with_reducible apply bringAgree_keeps
    | with_reducible apply bringSpun_keeps | with_reducible apply bringServe_keeps | with_reducible apply keeps_ite
    | (have x := trivial; extract_lets +onlyGivenNames x; (fail_if_success have y : True := x); first | (refine keeps_step x ?_ (fun hx => ?_); focus dsimp -zeta only [x]; rotate_left; clear_value x; rotate_right) | skip)

theorem execTileBringInStep_goes {o x0 x1 x2 x3} (h0 : Keeps o x3) : Goes o (execTileBringInStep x0 x1 x2 x3) := by
  unfold execTileBringInStep
  repeat' first
    | with_reducible assumption | with_reducible apply onTile_goes | with_reducible apply settle_keeps
    | with_reducible apply bringStep_keeps | with_reducible apply goes_next

theorem leaveMaint_keeps {o x0 x1} (h0 : Keeps o x0) : Keeps o (leaveMaint x0 x1) := by
  unfold leaveMaint
  repeat' first
    | with_reducible assumption | (intro) | with_reducible apply setB_keeps | with_reducible apply setBring_keeps
    | with_reducible apply bringAgree_keeps | with_reducible apply bringSpun_keeps | with_reducible apply keeps_ite
    | (have x := trivial; extract_lets +onlyGivenNames x; (fail_if_success have y : True := x); first | (refine keeps_step x ?_ (fun hx => ?_); focus dsimp -zeta only [x]; rotate_left; clear_value x; rotate_right) | skip)

theorem stepDown_keeps {o x0 x1} (h0 : Keeps o x0) : Keeps o (stepDown x0 x1) := by
  unfold stepDown
  repeat' first
    | simp -zeta only [↓keeps_mk, id_eq] | with_reducible assumption | (intro)
    | with_reducible apply laneSleep_keeps | with_reducible apply setPwrTile_keeps
    | with_reducible apply unsafeEval_keeps | with_reducible apply startPark_keeps
    | with_reducible apply chOff_keeps | with_reducible apply modCtl_keeps | with_reducible apply setB_keeps
    | with_reducible apply runClear_keeps | with_reducible apply moOff_keeps | with_reducible apply keeps_ite
    | with_reducible apply keeps_foldl
    | (have x := trivial; extract_lets +onlyGivenNames x; (fail_if_success have y : True := x); first | (refine keeps_step x ?_ (fun hx => ?_); focus dsimp -zeta only [x]; rotate_left; clear_value x; rotate_right) | skip)
    | with_reducible apply keeps_mk_filter | split

theorem stepUp_keeps {o x0 x1} (h0 : Keeps o x0) : Keeps o (stepUp x0 x1) := by
  unfold stepUp
  repeat' first
    | with_reducible assumption | (intro) | with_reducible apply setBring_keeps | with_reducible apply moOn_keeps
    | with_reducible apply beginLoad_keeps | with_reducible apply wakeLane_keeps
    | with_reducible apply setPwrTile_keeps | with_reducible apply keeps_ite | with_reducible apply keeps_foldl
    | (have x := trivial; extract_lets +onlyGivenNames x; (fail_if_success have y : True := x); first | (refine keeps_step x ?_ (fun hx => ?_); focus dsimp -zeta only [x]; rotate_left; clear_value x; rotate_right) | skip)

theorem wakeForRequests_keeps {o x0 x1} (h0 : Keeps o x0) : Keeps o (wakeForRequests x0 x1) := by
  unfold wakeForRequests
  repeat' first
    | with_reducible assumption | with_reducible apply autoWake_keeps | with_reducible apply keeps_ite

theorem tileStep_keeps {o x0 x1} (h0 : Keeps o x0) : Keeps o (tileStep x0 x1) := by
  unfold tileStep
  repeat' first
    | with_reducible assumption | with_reducible apply stepDown_keeps | with_reducible apply stepUp_keeps
    | with_reducible apply wakeForRequests_keeps | with_reducible apply setGoal_keeps
    | with_reducible apply keeps_ite
    | (have x := trivial; extract_lets +onlyGivenNames x; (fail_if_success have y : True := x); first | (refine keeps_step x ?_ (fun hx => ?_); focus dsimp -zeta only [x]; rotate_left; clear_value x; rotate_right) | skip)
    | split

theorem wake_keeps {o x0 x1} (h0 : Keeps o x0) : Keeps o (wake x0 x1) := by
  unfold wake
  repeat' first
    | simp -zeta only [↓keeps_mk, id_eq] | with_reducible assumption | with_reducible apply setF_keeps
    | (have x := trivial; extract_lets +onlyGivenNames x; (fail_if_success have y : True := x); first | (refine keeps_step x ?_ (fun hx => ?_); focus dsimp -zeta only [x]; rotate_left; clear_value x; rotate_right) | skip)
    | split

theorem saveOptime_keeps {o x0} (h0 : Keeps o x0) : Keeps o (saveOptime x0) := by
  unfold saveOptime
  repeat' first
    | simp -zeta only [↓keeps_mk, id_eq] | with_reducible assumption | with_reducible apply keeps_ite
    | (have x := trivial; extract_lets +onlyGivenNames x; (fail_if_success have y : True := x); first | (refine keeps_step x ?_ (fun hx => ?_); focus dsimp -zeta only [x]; rotate_left; clear_value x; rotate_right) | skip)

theorem enterPs4_keeps {o x0 x1} (h0 : Keeps o x0) : Keeps o (enterPs4 x0 x1) := by
  unfold enterPs4
  repeat' first
    | simp -zeta only [↓keeps_mk, id_eq] | with_reducible assumption | (intro)
    | with_reducible apply saveOptime_keeps | with_reducible apply irqLevel_keeps
    | with_reducible apply volReset_keeps | with_reducible apply finishLong_keeps
    | with_reducible apply powerEnded_keeps | with_reducible apply setB_keeps | with_reducible apply setReg_keeps
    | with_reducible apply wake_keeps | with_reducible apply keeps_foldl
    | (have x := trivial; extract_lets +onlyGivenNames x; (fail_if_success have y : True := x); first | (refine keeps_step x ?_ (fun hx => ?_); focus dsimp -zeta only [x]; rotate_left; clear_value x; rotate_right) | skip)
    | split

theorem leavePs4_keeps {o x0} (h0 : Keeps o x0) : Keeps o (leavePs4 x0) := by
  unfold leavePs4
  repeat' first
    | simp -zeta only [↓keeps_mk, id_eq] | with_reducible assumption | (intro) | with_reducible apply setReg_keeps
    | with_reducible apply raiseAlarm_keeps | with_reducible apply irqEvent_keeps
    | with_reducible apply portsFollow_keeps | with_reducible apply loadHubRegs_keeps
    | with_reducible apply setF_keeps | with_reducible apply powerEnded_keeps | with_reducible apply keeps_ite
    | with_reducible apply keeps_foldl
    | (have x := trivial; extract_lets +onlyGivenNames x; (fail_if_success have y : True := x); first | (refine keeps_step x ?_ (fun hx => ?_); focus dsimp -zeta only [x]; rotate_left; clear_value x; rotate_right) | skip)

theorem deepStep_keeps {o x0} (h0 : Keeps o x0) : Keeps o (deepStep x0) := by
  unfold deepStep
  repeat' first
    | with_reducible assumption | (intro) | with_reducible apply endAssoc_keeps
    | with_reducible apply enterPs4_keeps | with_reducible apply leavePs4_keeps | with_reducible apply keeps_ite
    | with_reducible apply keeps_foldl | split

theorem execPowerTransitionStep_goes {o x0 x1} (h0 : Keeps o x1) : Goes o (execPowerTransitionStep x0 x1) := by
  unfold execPowerTransitionStep
  repeat' first
    | with_reducible assumption | with_reducible apply settle_keeps | with_reducible apply deepStep_keeps
    | with_reducible apply onTile_goes | with_reducible apply tileStep_keeps | with_reducible apply keeps_ite
    | with_reducible apply goes_ite | with_reducible apply goes_next

theorem execIdleReturn_goes {o x0 x1} (h0 : Keeps o x1) : Goes o (execIdleReturn x0 x1) := by
  unfold execIdleReturn
  repeat' first
    | simp -zeta only [↓keeps_mk, id_eq] | with_reducible assumption | (intro) | with_reducible apply onTile_goes
    | with_reducible apply setGoal_keeps | with_reducible apply keeps_ite | with_reducible apply goes_ite
    | with_reducible apply goes_next
    | (have x := trivial; extract_lets +onlyGivenNames x; (fail_if_success have y : True := x); first | (refine goes_step x ?_ (fun hx => ?_); focus dsimp -zeta only [x]; rotate_left; clear_value x; rotate_right) | (refine keeps_step x ?_ (fun hx => ?_); focus dsimp -zeta only [x]; rotate_left; clear_value x; rotate_right) | skip)
    | split

theorem execLaneIdleSleep_goes {o x0 x1 x2} (h0 : Keeps o x2) : Goes o (execLaneIdleSleep x0 x1 x2) := by
  unfold execLaneIdleSleep
  repeat' first
    | with_reducible assumption | with_reducible apply onLane_goes | with_reducible apply laneSleep_keeps
    | with_reducible apply keeps_ite | with_reducible apply goes_ite | with_reducible apply goes_next
    | (have x := trivial; extract_lets +onlyGivenNames x; (fail_if_success have y : True := x); first | (refine goes_step x ?_ (fun hx => ?_); focus dsimp -zeta only [x]; rotate_left; clear_value x; rotate_right) | (refine keeps_step x ?_ (fun hx => ?_); focus dsimp -zeta only [x]; rotate_left; clear_value x; rotate_right) | skip)

theorem execWakeN_goes {o x0 x1} (h0 : Keeps o x1) : Goes o (execWakeN x0 x1) := by
  unfold execWakeN
  repeat' first
    | with_reducible assumption | with_reducible apply wake_keeps | with_reducible apply keeps_ite
    | with_reducible apply goes_ite | with_reducible apply goes_next

theorem execWakeTimer_goes {o x0} (h0 : Keeps o x0) : Goes o (execWakeTimer x0) := by
  unfold execWakeTimer
  repeat' first
    | with_reducible assumption | with_reducible apply wake_keeps | with_reducible apply keeps_ite
    | with_reducible apply goes_ite | with_reducible apply goes_next
    | (have x := trivial; extract_lets +onlyGivenNames x; (fail_if_success have y : True := x); first | (refine goes_step x ?_ (fun hx => ?_); focus dsimp -zeta only [x]; rotate_left; clear_value x; rotate_right) | (refine keeps_step x ?_ (fun hx => ?_); focus dsimp -zeta only [x]; rotate_left; clear_value x; rotate_right) | skip)

theorem loadConfig_keeps {o x0 x1} (h0 : Keeps o x0) : Keeps o (loadConfig x0 x1) := by
  unfold loadConfig
  repeat' first
    | with_reducible assumption | with_reducible apply setB_keeps | with_reducible apply setReg_keeps
    | with_reducible apply loadDispatch_keeps | with_reducible apply loadHubImages_keeps
    | with_reducible apply loadHubRegs_keeps | with_reducible apply owlHub_keeps | with_reducible apply keeps_ite
    | with_reducible apply keeps_getD
    | (have x := trivial; extract_lets +onlyGivenNames x; (fail_if_success have y : True := x); first | (refine keeps_step x ?_ (fun hx => ?_); focus dsimp -zeta only [x]; rotate_left; clear_value x; rotate_right) | skip)
    | split

theorem loadNs_keeps {o x0} (h0 : Keeps o x0) : Keeps o (loadNs x0) := by
  unfold loadNs
  repeat' first
    | simp -zeta only [↓keeps_mk, id_eq] | with_reducible assumption | (intro) | with_reducible apply countNs_keeps
    | with_reducible apply setReg_keeps | with_reducible apply keeps_ite | with_reducible apply keeps_foldl
    | (have x := trivial; extract_lets +onlyGivenNames x; (fail_if_success have y : True := x); first | (refine keeps_step x ?_ (fun hx => ?_); focus dsimp -zeta only [x]; rotate_left; clear_value x; rotate_right) | skip)
    | with_reducible apply keeps_mk_filter | split

theorem hubLevels_keeps {o x0} (h0 : Keeps o x0) : Keeps o (hubLevels x0) := by
  unfold hubLevels
  repeat' first
    | with_reducible assumption | (intro) | with_reducible apply portLevel_keeps
    | with_reducible apply mempLevels_keeps | with_reducible apply persistLevel_keeps
    | with_reducible apply alarmLevel_keeps | with_reducible apply keeps_foldl

theorem bootProbe_keeps {o x0 x1} (h0 : Keeps o x0) : Keeps o (bootProbe x0 x1) := by
  unfold bootProbe
  repeat' first
    | simp -zeta only [↓keeps_mk, id_eq] | with_reducible assumption | with_reducible apply took_keeps
    | with_reducible apply setReg_keeps | with_reducible apply keeps_ite
    | (have x := trivial; extract_lets +onlyGivenNames x; (fail_if_success have y : True := x); first | (refine keeps_step x ?_ (fun hx => ?_); focus dsimp -zeta only [x]; rotate_left; clear_value x; rotate_right) | skip)

theorem bootTables_keeps {o x0} (h0 : Keeps o x0) : Keeps o (bootTables x0) := by
  unfold bootTables
  repeat' first
    | simp -zeta only [↓keeps_mk, id_eq] | with_reducible assumption | (intro) | with_reducible apply owlHub_keeps
    | with_reducible apply setReg_keeps | with_reducible apply loadNs_keeps | with_reducible apply setSlot_keeps
    | with_reducible apply setF_keeps | with_reducible apply keeps_ite | with_reducible apply keeps_foldl
    | (have x := trivial; extract_lets +onlyGivenNames x; (fail_if_success have y : True := x); first | (refine keeps_step x ?_ (fun hx => ?_); focus dsimp -zeta only [x]; rotate_left; clear_value x; rotate_right) | (have _ : State → State := x; dsimp -zeta only [x]) | (have _ : Nat → State → State := x; dsimp -zeta only [x]) | (have _ : State → Nat → State := x; dsimp -zeta only [x]) | skip)

theorem bootTiles_keeps {o x0} (h0 : Keeps o x0) : Keeps o (bootTiles x0) := by
  unfold bootTiles
  repeat' first
    | simp -zeta only [↓keeps_mk, id_eq] | with_reducible assumption | (intro) | with_reducible apply setF_keeps
    | with_reducible apply rebuildZones_keeps | with_reducible apply setBring_keeps
    | with_reducible apply moOn_keeps | with_reducible apply keeps_ite | with_reducible apply keeps_foldl
    | (have x := trivial; extract_lets +onlyGivenNames x; (fail_if_success have y : True := x); first | (refine keeps_step x ?_ (fun hx => ?_); focus dsimp -zeta only [x]; rotate_left; clear_value x; rotate_right) | skip)

theorem bootStep_keeps {o x0 x1} (h0 : Keeps o x0) : Keeps o (bootStep x0 x1) := by
  unfold bootStep
  repeat' first
    | simp -zeta only [↓keeps_mk, id_eq] | with_reducible assumption | (intro)
    | with_reducible apply bootProbe_keeps | with_reducible apply owlHub_keeps | with_reducible apply setDom_keeps
    | with_reducible apply bootTables_keeps | with_reducible apply hubLevels_keeps
    | with_reducible apply loadConfig_keeps | with_reducible apply portsFollow_keeps
    | with_reducible apply bootTiles_keeps | with_reducible apply keeps_ite
    | (have x := trivial; extract_lets +onlyGivenNames x; (fail_if_success have y : True := x); first | (refine keeps_step x ?_ (fun hx => ?_); focus dsimp -zeta only [x]; rotate_left; clear_value x; rotate_right) | (have _ : State → State := x; dsimp -zeta only [x]) | (have _ : Nat → State → State := x; dsimp -zeta only [x]) | (have _ : State → Nat → State := x; dsimp -zeta only [x]) | skip)

theorem execBootStep_goes {o x0 x1} (h0 : Keeps o x1) : Goes o (execBootStep x0 x1) := by
  unfold execBootStep
  repeat' first
    | with_reducible assumption | with_reducible apply settle_keeps | with_reducible apply bootStep_keeps
    | with_reducible apply keeps_ite | with_reducible apply goes_ite | with_reducible apply goes_next

theorem coldState_keeps {o x0 x1} (h0 : Keeps o x0) : Keeps o (coldState x0 x1) := by
  exact ⟨rfl.trans h0.part, h0.pending, h0.now, h0.free, h0.out, fun _ => rfl⟩

theorem execPowerOn_goes {o x0} (h0 : Keeps o x0) : Goes o (execPowerOn x0) := by
  unfold execPowerOn
  repeat' first
    | with_reducible assumption | with_reducible apply coldState_keeps | with_reducible apply keeps_ite
    | with_reducible apply goes_ite | with_reducible apply goes_next

theorem execSupplyLoss_goes {o x0 x1} (h0 : Keeps o x1) : Goes o (execSupplyLoss x0 x1) := by
  unfold execSupplyLoss
  repeat' first
    | with_reducible assumption | (intro) | with_reducible apply coldState_keeps
    | with_reducible apply saveOptime_keeps | with_reducible apply keeps_ite | with_reducible apply goes_ite
    | with_reducible apply goes_next
    | (have x := trivial; extract_lets +onlyGivenNames x; (fail_if_success have y : True := x); first | (refine goes_step x ?_ (fun hx => ?_); focus dsimp -zeta only [x]; rotate_left; clear_value x; rotate_right) | (refine keeps_step x ?_ (fun hx => ?_); focus dsimp -zeta only [x]; rotate_left; clear_value x; rotate_right) | skip)

theorem execTestEnable_goes {o x0 x1} (h0 : Keeps o x1) : Goes o (execTestEnable x0 x1) := by
  unfold execTestEnable
  repeat' first
    | simp -zeta only [↓keeps_mk, id_eq] | with_reducible assumption | with_reducible apply coldState_keeps
    | with_reducible apply keeps_ite | with_reducible apply goes_ite | with_reducible apply goes_next
    | (have x := trivial; extract_lets +onlyGivenNames x; (fail_if_success have y : True := x); first | (refine goes_step x ?_ (fun hx => ?_); focus dsimp -zeta only [x]; rotate_left; clear_value x; rotate_right) | (refine keeps_step x ?_ (fun hx => ?_); focus dsimp -zeta only [x]; rotate_left; clear_value x; rotate_right) | skip)

theorem noteReset_keeps {o x0 x1 x2} (h0 : Keeps o x0) : Keeps o (noteReset x0 x1 x2) := by
  unfold noteReset
  repeat' first
    | with_reducible assumption | with_reducible apply bump_keeps | with_reducible apply setReg_keeps

theorem retractTile_keeps {o x0 x1} (h0 : Keeps o x0) : Keeps o (retractTile x0 x1) := by
  unfold retractTile
  repeat' first
    | with_reducible assumption | (intro) | with_reducible apply startRetract_keeps
    | with_reducible apply keeps_foldl

theorem owlWindowsEnd_keeps {o x0} (h0 : Keeps o x0) : Keeps o (owlWindowsEnd x0) := by
  unfold owlWindowsEnd
  repeat' first
    | simp -zeta only [↓keeps_mk, id_eq] | with_reducible assumption | (intro)
    | with_reducible apply owlSummary_keeps | with_reducible apply keeps_foldl
    | (have x := trivial; extract_lets +onlyGivenNames x; (fail_if_success have y : True := x); first | (refine keeps_step x ?_ (fun hx => ?_); focus dsimp -zeta only [x]; rotate_left; clear_value x; rotate_right) | skip)

theorem emptySlots_keeps {o x0} (h0 : Keeps o x0) : Keeps o (emptySlots x0) := by
  unfold emptySlots
  repeat' first
    | simp -zeta only [↓keeps_mk, id_eq] | with_reducible assumption | (intro)
    | (have x := trivial; extract_lets +onlyGivenNames x; (fail_if_success have y : True := x); first | (refine keeps_step x ?_ (fun hx => ?_); focus dsimp -zeta only [x]; rotate_left; clear_value x; rotate_right) | skip)
    | split

theorem pinReset_keeps {o x0 x1} (h0 : Keeps o x0) : Keeps o (pinReset x0 x1) := by
  unfold pinReset
  repeat' first
    | simp -zeta only [↓keeps_mk, id_eq] | with_reducible assumption | (intro)
    | with_reducible apply retractTile_keeps | with_reducible apply owlWindowsEnd_keeps
    | with_reducible apply stopChannels_keeps | with_reducible apply cfgReset_keeps
    | with_reducible apply volReset_keeps | with_reducible apply setDom_keeps
    | with_reducible apply noteReset_keeps | with_reducible apply orReg_keeps
    | with_reducible apply emptySlots_keeps | with_reducible apply keeps_foldl
    | (have x := trivial; extract_lets +onlyGivenNames x; (fail_if_success have y : True := x); first | (refine keeps_step x ?_ (fun hx => ?_); focus dsimp -zeta only [x]; rotate_left; clear_value x; rotate_right) | (have _ : State → State := x; dsimp -zeta only [x]) | (have _ : Nat → State → State := x; dsimp -zeta only [x]) | (have _ : State → Nat → State := x; dsimp -zeta only [x]) | skip)
    | split

theorem execPorstN_goes {o x0 x1} (h0 : Keeps o x1) : Goes o (execPorstN x0 x1) := by
  unfold execPorstN
  repeat' first
    | with_reducible assumption | with_reducible apply pinReset_keeps | with_reducible apply keeps_ite
    | with_reducible apply goes_ite | with_reducible apply goes_next

theorem execWarmN_goes {o x0 x1} (h0 : Keeps o x1) : Goes o (execWarmN x0 x1) := by
  unfold execWarmN
  repeat' first
    | simp -zeta only [↓keeps_mk, id_eq] | with_reducible assumption | with_reducible apply pinReset_keeps
    | with_reducible apply keeps_ite | with_reducible apply goes_ite | with_reducible apply goes_next
    | (have x := trivial; extract_lets +onlyGivenNames x; (fail_if_success have y : True := x); first | (refine goes_step x ?_ (fun hx => ?_); focus dsimp -zeta only [x]; rotate_left; clear_value x; rotate_right) | (refine keeps_step x ?_ (fun hx => ?_); focus dsimp -zeta only [x]; rotate_left; clear_value x; rotate_right) | skip)

theorem endAll_keeps {o x0} (h0 : Keeps o x0) : Keeps o (endAll x0) := by
  unfold endAll
  repeat' first
    | with_reducible assumption | (intro) | with_reducible apply endAssoc_keeps
    | with_reducible apply removeCmd_keeps | with_reducible apply endMedia_keeps | with_reducible apply keeps_ite
    | with_reducible apply keeps_foldl
    | (have x := trivial; extract_lets +onlyGivenNames x; (fail_if_success have y : True := x); first | (refine keeps_step x ?_ (fun hx => ?_); focus dsimp -zeta only [x]; rotate_left; clear_value x; rotate_right) | skip)

theorem hubSoftReset_keeps {o x0} (h0 : Keeps o x0) : Keeps o (hubSoftReset x0) := by
  unfold hubSoftReset
  repeat' first
    | simp -zeta only [↓keeps_mk, id_eq] | with_reducible assumption | (intro) | with_reducible apply endAll_keeps
    | with_reducible apply endCtx_keeps | with_reducible apply volReset_keeps | with_reducible apply setReg_keeps
    | with_reducible apply hubLevels_keeps | with_reducible apply loadNs_keeps
    | with_reducible apply loadConfig_keeps | with_reducible apply modLink_keeps
    | with_reducible apply setLinkState_keeps | with_reducible apply noteReset_keeps
    | with_reducible apply owlHub_keeps | with_reducible apply keeps_foldl
    | (have x := trivial; extract_lets +onlyGivenNames x; (fail_if_success have y : True := x); first | (refine keeps_step x ?_ (fun hx => ?_); focus dsimp -zeta only [x]; rotate_left; clear_value x; rotate_right) | skip)
    | split

theorem execHubSoftReset_goes {o x0} (h0 : Keeps o x0) : Goes o (execHubSoftReset x0) := by
  unfold execHubSoftReset
  repeat' first
    | with_reducible assumption | with_reducible apply hubSoftReset_keeps | with_reducible apply keeps_ite
    | with_reducible apply goes_ite | with_reducible apply goes_next

theorem failWrites_keeps {o x0 x1} (h0 : Keeps o x0) : Keeps o (failWrites x0 x1) := by
  unfold failWrites
  repeat' first
    | with_reducible assumption | (intro) | with_reducible apply applyResult_keeps
    | with_reducible apply keeps_foldl
    | (have x := trivial; extract_lets +onlyGivenNames x; (fail_if_success have y : True := x); first | (refine keeps_step x ?_ (fun hx => ?_); focus dsimp -zeta only [x]; rotate_left; clear_value x; rotate_right) | skip)
    | split

theorem tileReset_keeps {o x0 x1} (h0 : Keeps o x0) : Keeps o (tileReset x0 x1) := by
  unfold tileReset
  repeat' first
    | simp -zeta only [↓keeps_mk, id_eq] | with_reducible assumption | (intro)
    | with_reducible apply noteReset_keeps | with_reducible apply owlPost_keeps
    | with_reducible apply failWrites_keeps | with_reducible apply dropTileReads_keeps
    | with_reducible apply owlDropHeld_keeps | with_reducible apply setGoal_keeps
    | with_reducible apply retractTile_keeps | with_reducible apply chOff_keeps
    | with_reducible apply setBring_keeps | with_reducible apply setLinkState_keeps
    | with_reducible apply irqEdge_keeps | with_reducible apply moReset_keeps | with_reducible apply moOn_keeps
    | with_reducible apply finishLong_keeps | with_reducible apply keeps_ite
    | (have x := trivial; extract_lets +onlyGivenNames x; (fail_if_success have y : True := x); first | (refine keeps_step x ?_ (fun hx => ?_); focus dsimp -zeta only [x]; rotate_left; clear_value x; rotate_right) | skip)
    | split

theorem execTileReset_goes {o x0 x1} (h0 : Keeps o x1) : Goes o (execTileReset x0 x1) := by
  unfold execTileReset
  repeat' first
    | with_reducible assumption | with_reducible apply onTile_goes | with_reducible apply settle_keeps
    | with_reducible apply tileReset_keeps | with_reducible apply keeps_ite | with_reducible apply goes_ite
    | with_reducible apply goes_next

theorem beginReset_keeps {o x0} (h0 : Keeps o x0) : Keeps o (beginReset x0) := by
  unfold beginReset
  repeat' first
    | simp -zeta only [↓keeps_mk, id_eq] | with_reducible assumption | with_reducible apply hubSoftReset_keeps
    | with_reducible apply settle_keeps | with_reducible apply tileReset_keeps | with_reducible apply keeps_ite
    | (have x := trivial; extract_lets +onlyGivenNames x; (fail_if_success have y : True := x); first | (refine keeps_step x ?_ (fun hx => ?_); focus dsimp -zeta only [x]; rotate_left; clear_value x; rotate_right) | skip)
    | split

theorem execResetStart_goes {o x0} (h0 : Keeps o x0) : Goes o (execResetStart x0) := by
  unfold execResetStart
  repeat' first
    | with_reducible assumption | with_reducible apply beginReset_keeps | with_reducible apply goes_next

theorem tearFlash_keeps {o x0 x1 x2} (h0 : Keeps o x0) : Keeps o (tearFlash x0 x1 x2) := by
  unfold tearFlash
  repeat' first
    | simp -zeta only [↓keeps_mk, id_eq] | with_reducible assumption | (intro) | with_reducible apply took_keeps
    | (have x := trivial; extract_lets +onlyGivenNames x; (fail_if_success have y : True := x); first | (refine keeps_step x ?_ (fun hx => ?_); focus dsimp -zeta only [x]; rotate_left; clear_value x; rotate_right) | skip)
    | split

theorem writeFlash_keeps {o x0 x1 x2} (h0 : Keeps o x0) : Keeps o (writeFlash x0 x1 x2) := by
  unfold writeFlash
  repeat' first
    | simp -zeta only [↓keeps_mk, id_eq] | with_reducible assumption | (intro) | with_reducible apply keeps_foldl
    | (have x := trivial; extract_lets +onlyGivenNames x; (fail_if_success have y : True := x); first | (refine keeps_step x ?_ (fun hx => ?_); focus dsimp -zeta only [x]; rotate_left; clear_value x; rotate_right) | skip)

theorem eraseStart_keeps {o x0} (h0 : Keeps o x0) : Keeps o (eraseStart x0) := by
  unfold eraseStart
  repeat' first
    | with_reducible assumption | with_reducible apply setReg_keeps | with_reducible apply tearFlash_keeps

theorem eraseEnd_keeps {o x0 x1} (h0 : Keeps o x0) : Keeps o (eraseEnd x0 x1) := by
  unfold eraseEnd
  repeat' first
    | simp -zeta only [↓keeps_mk, id_eq] | with_reducible assumption | with_reducible apply setReg_keeps
    | with_reducible apply keeps_ite
    | (have x := trivial; extract_lets +onlyGivenNames x; (fail_if_success have y : True := x); first | (refine keeps_step x ?_ (fun hx => ?_); focus dsimp -zeta only [x]; rotate_left; clear_value x; rotate_right) | skip)

theorem programStart_keeps {o x0 x1 x2 x3} (h0 : Keeps o x0) : Keeps o (programStart x0 x1 x2 x3) := by
  unfold programStart
  repeat' first
    | with_reducible assumption | (intro) | with_reducible apply beginLong_keeps
    | with_reducible apply tearFlash_keeps | with_reducible apply keeps_getD
    | (have x := trivial; extract_lets +onlyGivenNames x; (fail_if_success have y : True := x); first | (refine keeps_step x ?_ (fun hx => ?_); focus dsimp -zeta only [x]; rotate_left; clear_value x; rotate_right) | skip)

theorem programEnd_keeps {o x0 x1 x2} (h0 : Keeps o x0) : Keeps o (programEnd x0 x1 x2) := by
  unfold programEnd
  repeat' first
    | with_reducible assumption | with_reducible apply setReg_keeps | with_reducible apply writeFlash_keeps
    | (have x := trivial; extract_lets +onlyGivenNames x; (fail_if_success have y : True := x); first | (refine keeps_step x ?_ (fun hx => ?_); focus dsimp -zeta only [x]; rotate_left; clear_value x; rotate_right) | skip)

theorem candidate_keeps {o x0 x1} (h0 : Keeps o x0) : Keeps o (candidate x0 x1) := by
  unfold candidate
  repeat' first
    | with_reducible assumption | (intro) | with_reducible apply loadTileRegs_keeps
    | with_reducible apply loadHubImages_keeps | with_reducible apply loadHubRegs_keeps
    | with_reducible apply keeps_foldl

theorem putRec_keeps {o x0 x1} (h0 : Keeps o x0) : Keeps o (putRec x0 x1) := by
  unfold putRec
  repeat' first
    | simp -zeta only [↓keeps_mk, id_eq] | with_reducible assumption | with_reducible apply keeps_ite
    | (have x := trivial; extract_lets +onlyGivenNames x; (fail_if_success have y : True := x); first | (refine keeps_step x ?_ (fun hx => ?_); focus dsimp -zeta only [x]; rotate_left; clear_value x; rotate_right) | skip)
    | split

theorem setVersions_keeps {o x0 x1} (h0 : Keeps o x0) : Keeps o (setVersions x0 x1) := by
  unfold setVersions
  repeat' first
    | with_reducible assumption | with_reducible apply setF_keeps | with_reducible apply setReg_keeps

theorem takeConfig_keeps {o x0 x1} (h0 : Keeps o x0) : Keeps o (takeConfig x0 x1) := by
  unfold takeConfig
  repeat' first
    | with_reducible assumption | with_reducible apply checkAgreement_keeps
    | with_reducible apply sendSections_keeps | with_reducible apply setLinkState_keeps
    | with_reducible apply keeps_ite | with_reducible apply keeps_ite_fst
    | (have x := trivial; extract_lets +onlyGivenNames x; (fail_if_success have y : True := x); first | (refine keeps_step x ?_ (fun hx => ?_); focus dsimp -zeta only [x]; rotate_left; clear_value x; rotate_right) | skip)

theorem retryHeld_keeps {o x0 x1} (h0 : Keeps o x0) : Keeps o (retryHeld x0 x1) := by
  unfold retryHeld
  repeat' first
    | with_reducible assumption | with_reducible apply bringAgree_keeps | with_reducible apply setBring_keeps
    | with_reducible apply keeps_ite

theorem configTakes_keeps {o x0 x1 x2} (h0 : Keeps o x0) : Keeps o (configTakes x0 x1 x2) := by
  unfold configTakes
  repeat' first
    | with_reducible assumption | (intro) | with_reducible apply loadHubImages_keeps
    | with_reducible apply loadHubRegs_keeps | with_reducible apply portsFollow_keeps
    | with_reducible apply hubLevels_keeps | with_reducible apply swapInStore_keeps
    | with_reducible apply takeConfig_keeps | with_reducible apply retryHeld_keeps
    | with_reducible apply rebuildZones_keeps | with_reducible apply setBring_keeps
    | with_reducible apply moOn_keeps | with_reducible apply setF_keeps | with_reducible apply keeps_ite
    | with_reducible apply keeps_foldl
    | (have x := trivial; extract_lets +onlyGivenNames x; (fail_if_success have y : True := x); first | (refine keeps_step x ?_ (fun hx => ?_); focus dsimp -zeta only [x]; rotate_left; clear_value x; rotate_right) | skip)
    | split

theorem commitDone_keeps {o x0 x1} (h0 : Keeps o x0) : Keeps o (commitDone x0 x1) := by
  unfold commitDone
  repeat' first
    | with_reducible assumption | with_reducible apply setVersions_keeps | with_reducible apply putRec_keeps
    | with_reducible apply configTakes_keeps | with_reducible apply eraseStart_keeps
    | with_reducible apply owlHub_keeps | with_reducible apply irqEdge_keeps
    | with_reducible apply finishLong_keeps | with_reducible apply keeps_ite
    | (have x := trivial; extract_lets +onlyGivenNames x; (fail_if_success have y : True := x); first | (refine keeps_step x ?_ (fun hx => ?_); focus dsimp -zeta only [x]; rotate_left; clear_value x; rotate_right) | skip)

theorem flashDone_keeps {o x0 x1} (h0 : Keeps o x0) : Keeps o (flashDone x0 x1) := by
  unfold flashDone
  repeat' first
    | with_reducible assumption | (intro) | with_reducible apply finishLong_keeps
    | with_reducible apply eraseEnd_keeps | with_reducible apply programEnd_keeps
    | with_reducible apply commitDone_keeps | with_reducible apply putRec_keeps | with_reducible apply keeps_ite
    | (have x := trivial; extract_lets +onlyGivenNames x; (fail_if_success have y : True := x); first | (refine keeps_step x ?_ (fun hx => ?_); focus dsimp -zeta only [x]; rotate_left; clear_value x; rotate_right) | skip)
    | split

theorem identOp_keeps {o x0 x1} (h0 : Keeps o x0) : Keeps o (identOp x0 x1) := by
  unfold identOp
  repeat' first
    | with_reducible assumption | (intro) | with_reducible apply checkedOp_keeps
    | with_reducible apply finishOp_keeps

theorem versionOp_keeps {o x0 x1} (h0 : Keeps o x0) : Keeps o (versionOp x0 x1) := by
  unfold versionOp
  repeat' first
    | with_reducible assumption | (intro) | with_reducible apply checkedOp_keeps
    | with_reducible apply finishOp_keeps

theorem readWord_keeps {o x0 x1 x2} (h0 : Keeps o x0) : Keeps o (readWord x0 x1 x2).1 := by
  unfold readWord
  repeat' first
    | with_reducible assumption | with_reducible apply readReg_keeps | with_reducible apply keeps_ite
    | with_reducible apply keeps_ite_fst

theorem writeWord_keeps {o x0 x1 x2 x3} (h0 : Keeps o x0) : Keeps o (writeWord x0 x1 x2 x3).1 := by
  unfold writeWord
  repeat' first
    | with_reducible assumption | with_reducible apply writeReg_keeps | with_reducible apply keeps_ite
    | with_reducible apply keeps_ite_fst

theorem regReadOp_keeps {o x0 x1} (h0 : Keeps o x0) : Keeps o (regReadOp x0 x1) := by
  unfold regReadOp
  repeat' first
    | with_reducible apply keeps_foldl_fst | with_reducible apply readWord_keeps | with_reducible assumption
    | (intro) | with_reducible apply checkedOp_keeps | with_reducible apply readWord_keeps
    | with_reducible apply finishOp_keeps | with_reducible apply keeps_foldl
    | (have x := trivial; extract_lets +onlyGivenNames x; (fail_if_success have y : True := x); first | (refine keeps_step x ?_ (fun hx => ?_); focus dsimp -zeta only [x]; rotate_left; clear_value x; rotate_right) | skip)

theorem regWriteOp_keeps {o x0 x1} (h0 : Keeps o x0) : Keeps o (regWriteOp x0 x1) := by
  unfold regWriteOp
  repeat' first
    | with_reducible apply keeps_foldl_fst | with_reducible assumption | (intro)
    | with_reducible apply checkedOp_keeps | with_reducible apply writeWord_keeps
    | with_reducible apply finishOp_keeps | with_reducible apply keeps_foldl
    | (have x := trivial; extract_lets +onlyGivenNames x; (fail_if_success have y : True := x); first | (refine keeps_step x ?_ (fun hx => ?_); focus dsimp -zeta only [x]; rotate_left; clear_value x; rotate_right) | skip)

theorem stageClearOp_keeps {o x0 x1} (h0 : Keeps o x0) : Keeps o (stageClearOp x0 x1) := by
  unfold stageClearOp
  repeat' first
    | with_reducible assumption | with_reducible apply checkedOp_keeps | with_reducible apply finishOp_keeps
    | with_reducible apply beginLong_keeps | with_reducible apply eraseStart_keeps | with_reducible apply keeps_ite

theorem stageWriteOp_keeps {o x0 x1} (h0 : Keeps o x0) : Keeps o (stageWriteOp x0 x1) := by
  unfold stageWriteOp
  repeat' first
    | with_reducible assumption | with_reducible apply checkedOp_keeps | with_reducible apply finishOp_keeps
    | with_reducible apply programStart_keeps | with_reducible apply keeps_ite
    | (have x := trivial; extract_lets +onlyGivenNames x; (fail_if_success have y : True := x); first | (refine keeps_step x ?_ (fun hx => ?_); focus dsimp -zeta only [x]; rotate_left; clear_value x; rotate_right) | skip)

theorem stageReadOp_keeps {o x0 x1} (h0 : Keeps o x0) : Keeps o (stageReadOp x0 x1) := by
  unfold stageReadOp
  repeat' first
    | with_reducible assumption | (intro) | with_reducible apply checkedOp_keeps
    | with_reducible apply finishOp_keeps | with_reducible apply keeps_ite
    | (have x := trivial; extract_lets +onlyGivenNames x; (fail_if_success have y : True := x); first | (refine keeps_step x ?_ (fun hx => ?_); focus dsimp -zeta only [x]; rotate_left; clear_value x; rotate_right) | skip)

theorem commitOp_keeps {o x0 x1} (h0 : Keeps o x0) : Keeps o (commitOp x0 x1) := by
  unfold commitOp
  repeat' first
    | with_reducible assumption | with_reducible apply checkedOp_keeps | with_reducible apply finishOp_keeps
    | with_reducible apply beginLong_keeps | with_reducible apply keeps_ite
    | (have x := trivial; extract_lets +onlyGivenNames x; (fail_if_success have y : True := x); first | (refine keeps_step x ?_ (fun hx => ?_); focus dsimp -zeta only [x]; rotate_left; clear_value x; rotate_right) | skip)
    | split

theorem revertOp_keeps {o x0 x1} (h0 : Keeps o x0) : Keeps o (revertOp x0 x1) := by
  unfold revertOp
  repeat' first
    | with_reducible assumption | with_reducible apply checkedOp_keeps | with_reducible apply finishOp_keeps
    | with_reducible apply beginLong_keeps | with_reducible apply keeps_ite | split

theorem unitOp_keeps {o x0 x1 x2} (h0 : Keeps o x0) (h1 : ∀ y0 y1, Keeps o y0 → Keeps o (x2 y0 y1).1) :
    Keeps o (unitOp x0 x1 x2) := by
  unfold unitOp
  repeat' first
    | with_reducible assumption | (intro) | with_reducible apply checkedOp_keeps
    | with_reducible apply finishOp_keeps | with_reducible apply h1
    | (have x := trivial; extract_lets +onlyGivenNames x; (fail_if_success have y : True := x); first | (refine keeps_step x ?_ (fun hx => ?_); focus dsimp -zeta only [x]; rotate_left; clear_value x; rotate_right) | skip)

theorem maintOp_keeps {o x0 x1} (h0 : Keeps o x0) : Keeps o (maintOp x0 x1) := by
  unfold maintOp
  repeat' first
    | with_reducible assumption | with_reducible apply checkedOp_keeps | with_reducible apply finishOp_keeps
    | with_reducible apply beginLong_keeps | with_reducible apply settle_keeps | with_reducible apply setB_keeps
    | with_reducible apply setLinkState_keeps | with_reducible apply leaveMaint_keeps
    | with_reducible apply keeps_ite
    | (have x := trivial; extract_lets +onlyGivenNames x; (fail_if_success have y : True := x); first | (refine keeps_step x ?_ (fun hx => ?_); focus dsimp -zeta only [x]; rotate_left; clear_value x; rotate_right) | skip)

theorem setCalJob_keeps {o x0 x1 x2 x3} (h0 : Keeps o x0) : Keeps o (setCalJob x0 x1 x2 x3) := by
  unfold setCalJob
  repeat' first
    | simp -zeta only [↓keeps_mk, id_eq] | with_reducible assumption
    | (have x := trivial; extract_lets +onlyGivenNames x; (fail_if_success have y : True := x); first | (refine keeps_step x ?_ (fun hx => ?_); focus dsimp -zeta only [x]; rotate_left; clear_value x; rotate_right) | skip)

theorem calWrite_keeps {o x0 x1 x2 x3 x4 x5} (h0 : Keeps o x0) : Keeps o (calWrite x0 x1 x2 x3 x4 x5) := by
  unfold calWrite
  repeat' first
    | simp -zeta only [↓keeps_mk, id_eq] | with_reducible assumption | (intro) | with_reducible apply modWr_keeps
    | (have x := trivial; extract_lets +onlyGivenNames x; (fail_if_success have y : True := x); first | (refine keeps_step x ?_ (fun hx => ?_); focus dsimp -zeta only [x]; rotate_left; clear_value x; rotate_right) | skip)
    | split

theorem calRead_keeps {o x0 x1 x2 x3} (h0 : Keeps o x0) : Keeps o (calRead x0 x1 x2 x3) := by
  unfold calRead
  repeat' first
    | with_reducible assumption | (intro) | with_reducible apply wantSectors_keeps
    | with_reducible apply keeps_foldl | split

theorem calStep_keeps {o x0 x1 x2} (h0 : Keeps o x0) : Keeps o (calStep x0 x1 x2) := by
  unfold calStep
  repeat' first
    | simp -zeta only [↓keeps_mk, id_eq] | with_reducible assumption | (intro)
    | with_reducible apply setCalJob_keeps | with_reducible apply calWrite_keeps
    | with_reducible apply calRead_keeps | with_reducible apply startSeek_keeps | with_reducible apply keeps_ite
    | (have x := trivial; extract_lets +onlyGivenNames x; (fail_if_success have y : True := x); first | (refine keeps_step x ?_ (fun hx => ?_); focus dsimp -zeta only [x]; rotate_left; clear_value x; rotate_right) | (have _ : State → State := x; dsimp -zeta only [x]) | (have _ : Nat → State → State := x; dsimp -zeta only [x]) | (have _ : State → Nat → State := x; dsimp -zeta only [x]) | skip)
    | split

theorem calibPump_keeps {o x0 x1} (h0 : Keeps o x0) : Keeps o (calibPump x0 x1) := by
  unfold calibPump
  repeat' first
    | with_reducible assumption | (intro) | with_reducible apply calStep_keeps
    | with_reducible apply finishLong_keeps | with_reducible apply keeps_ite | with_reducible apply keeps_foldl
    | (have x := trivial; extract_lets +onlyGivenNames x; (fail_if_success have y : True := x); first | (refine keeps_step x ?_ (fun hx => ?_); focus dsimp -zeta only [x]; rotate_left; clear_value x; rotate_right) | skip)

theorem calibOp_keeps {o x0 x1} (h0 : Keeps o x0) : Keeps o (calibOp x0 x1) := by
  unfold calibOp
  repeat' first
    | with_reducible assumption | (intro) | with_reducible apply checkedOp_keeps
    | with_reducible apply beginLong_keeps | with_reducible apply calibPump_keeps
    | with_reducible apply setCalJob_keeps | with_reducible apply keeps_ite | with_reducible apply keeps_foldl
    | (have x := trivial; extract_lets +onlyGivenNames x; (fail_if_success have y : True := x); first | (refine keeps_step x ?_ (fun hx => ?_); focus dsimp -zeta only [x]; rotate_left; clear_value x; rotate_right) | skip)
    | split

theorem keyEraseOp_keeps {o x0 x1} (h0 : Keeps o x0) : Keeps o (keyEraseOp x0 x1) := by
  unfold keyEraseOp
  repeat' first
    | with_reducible assumption | with_reducible apply checkedOp_keeps | with_reducible apply finishOp_keeps
    | with_reducible apply keyAlarm_keeps

theorem powerOp_keeps {o x0 x1} (h0 : Keeps o x0) : Keeps o (powerOp x0 x1) := by
  unfold powerOp
  repeat' first
    | with_reducible assumption | (intro) | with_reducible apply checkedOp_keeps
    | with_reducible apply finishOp_keeps | with_reducible apply setF_keeps | with_reducible apply settle_keeps
    | with_reducible apply beginLong_keeps | with_reducible apply keeps_ite | with_reducible apply keeps_foldl
    | (have x := trivial; extract_lets +onlyGivenNames x; (fail_if_success have y : True := x); first | (refine keeps_step x ?_ (fun hx => ?_); focus dsimp -zeta only [x]; rotate_left; clear_value x; rotate_right) | skip)

theorem resetOp_keeps {o x0 x1} (h0 : Keeps o x0) : Keeps o (resetOp x0 x1) := by
  unfold resetOp
  repeat' first
    | simp -zeta only [↓keeps_mk, id_eq] | with_reducible assumption | with_reducible apply checkedOp_keeps
    | with_reducible apply completeCmd_keeps | with_reducible apply finishOp_keeps | with_reducible apply keeps_ite
    | (have x := trivial; extract_lets +onlyGivenNames x; (fail_if_success have y : True := x); first | (refine keeps_step x ?_ (fun hx => ?_); focus dsimp -zeta only [x]; rotate_left; clear_value x; rotate_right) | skip)
    | split

theorem resetHead_keeps {o x0} (h0 : Keeps o x0) : Keeps o (resetHead x0) := by
  unfold resetHead
  repeat' first
    | with_reducible assumption | with_reducible apply resetOp_keeps | with_reducible apply popOp_keeps
    | with_reducible apply keeps_ite | split

theorem resetHeads_keeps {o x0} (h0 : Keeps o x0) : Keeps o (resetHeads x0) := by
  unfold resetHeads
  repeat' first
    | with_reducible assumption | (intro) | with_reducible apply resetHead_keeps | with_reducible apply keeps_foldl

theorem opRow_goes {o x0 x1 x2 x3 x4} (h0 : ∀ y0 y1, Keeps o y0 → Keeps o (x3 y0 y1)) (h1 : Keeps o x4) :
    Goes o (opRow x0 x1 x2 x3 x4) := by
  unfold opRow
  repeat' first
    | with_reducible assumption | (intro) | with_reducible apply onOp_goes | with_reducible apply resetHeads_keeps
    | with_reducible apply h0 | with_reducible apply goes_next

theorem heldRow_goes {o x0 x1 x2 x3 x4} (h0 : ∀ y0 y1, Keeps o y0 → Keeps o (x3 y0 y1)) (h1 : Keeps o x4) :
    Goes o (heldRow x0 x1 x2 x3 x4) := by
  unfold heldRow
  repeat' first
    | simp -zeta only [↓keeps_mk, id_eq] | with_reducible assumption | (intro) | with_reducible apply opRow_goes
    | with_reducible apply h0 | with_reducible apply keeps_ite | with_reducible apply goes_ite
    | with_reducible apply goes_next
    | (have x := trivial; extract_lets +onlyGivenNames x; (fail_if_success have y : True := x); first | (refine goes_step x ?_ (fun hx => ?_); focus dsimp -zeta only [x]; rotate_left; clear_value x; rotate_right) | (refine keeps_step x ?_ (fun hx => ?_); focus dsimp -zeta only [x]; rotate_left; clear_value x; rotate_right) | skip)

theorem execIdent_goes {o x0 x1 x2} (h0 : Keeps o x2) : Goes o (execIdent x0 x1 x2) := by
  unfold execIdent
  repeat' first
    | simp -zeta only [↓keeps_mk, id_eq] | with_reducible assumption | (intro) | with_reducible apply opRow_goes
    | with_reducible apply identOp_keeps | with_reducible apply goes_next

theorem execRegRead_goes {o x0 x1 x2} (h0 : Keeps o x2) : Goes o (execRegRead x0 x1 x2) := by
  unfold execRegRead
  repeat' first
    | with_reducible assumption | (intro) | with_reducible apply heldRow_goes
    | with_reducible apply regReadOp_keeps | with_reducible apply goes_next

theorem execRegWrite_goes {o x0 x1 x2} (h0 : Keeps o x2) : Goes o (execRegWrite x0 x1 x2) := by
  unfold execRegWrite
  repeat' first
    | with_reducible assumption | (intro) | with_reducible apply heldRow_goes
    | with_reducible apply regWriteOp_keeps | with_reducible apply goes_next

theorem execStageClear_goes {o x0 x1 x2} (h0 : Keeps o x2) : Goes o (execStageClear x0 x1 x2) := by
  unfold execStageClear
  repeat' first
    | with_reducible assumption | (intro) | with_reducible apply opRow_goes
    | with_reducible apply stageClearOp_keeps | with_reducible apply goes_next

theorem execStageWrite_goes {o x0 x1 x2} (h0 : Keeps o x2) : Goes o (execStageWrite x0 x1 x2) := by
  unfold execStageWrite
  repeat' first
    | with_reducible assumption | (intro) | with_reducible apply opRow_goes
    | with_reducible apply stageWriteOp_keeps | with_reducible apply goes_next

theorem execStageRead_goes {o x0 x1 x2} (h0 : Keeps o x2) : Goes o (execStageRead x0 x1 x2) := by
  unfold execStageRead
  repeat' first
    | with_reducible assumption | (intro) | with_reducible apply opRow_goes
    | with_reducible apply stageReadOp_keeps | with_reducible apply goes_next

theorem execCommit_goes {o x0 x1 x2} (h0 : Keeps o x2) : Goes o (execCommit x0 x1 x2) := by
  unfold execCommit
  repeat' first
    | with_reducible assumption | (intro) | with_reducible apply opRow_goes | with_reducible apply commitOp_keeps
    | with_reducible apply goes_next

theorem execRevert_goes {o x0 x1 x2} (h0 : Keeps o x2) : Goes o (execRevert x0 x1 x2) := by
  unfold execRevert
  repeat' first
    | with_reducible assumption | (intro) | with_reducible apply opRow_goes | with_reducible apply revertOp_keeps
    | with_reducible apply goes_next

theorem execVersion_goes {o x0 x1 x2} (h0 : Keeps o x2) : Goes o (execVersion x0 x1 x2) := by
  unfold execVersion
  repeat' first
    | with_reducible assumption | (intro) | with_reducible apply opRow_goes | with_reducible apply versionOp_keeps
    | with_reducible apply goes_next

theorem execRetire_goes {o x0 x1 x2} (h0 : Keeps o x2) : Goes o (execRetire x0 x1 x2) := by
  unfold execRetire
  repeat' first
    | with_reducible assumption | (intro) | with_reducible apply opRow_goes | with_reducible apply unitOp_keeps
    | with_reducible apply retireOp_keeps | with_reducible apply goes_next

theorem execReinstate_goes {o x0 x1 x2} (h0 : Keeps o x2) : Goes o (execReinstate x0 x1 x2) := by
  unfold execReinstate
  repeat' first
    | with_reducible assumption | (intro) | with_reducible apply opRow_goes | with_reducible apply unitOp_keeps
    | with_reducible apply reinstateOp_keeps | with_reducible apply goes_next

theorem execMaintEnter_goes {o x0 x1 x2} (h0 : Keeps o x2) : Goes o (execMaintEnter x0 x1 x2) := by
  unfold execMaintEnter
  repeat' first
    | with_reducible assumption | (intro) | with_reducible apply onOk_goes | with_reducible apply opRow_goes
    | with_reducible apply maintOp_keeps | with_reducible apply keeps_ite | with_reducible apply goes_ite
    | with_reducible apply goes_next

theorem execMaintLeave_goes {o x0 x1 x2} (h0 : Keeps o x2) : Goes o (execMaintLeave x0 x1 x2) := by
  unfold execMaintLeave
  repeat' first
    | with_reducible assumption | (intro) | with_reducible apply opRow_goes | with_reducible apply maintOp_keeps
    | with_reducible apply onOk_goes | with_reducible apply keeps_ite | with_reducible apply goes_ite
    | with_reducible apply goes_next

theorem execCalib_goes {o x0 x1 x2} (h0 : Keeps o x2) : Goes o (execCalib x0 x1 x2) := by
  unfold execCalib
  repeat' first
    | with_reducible assumption | (intro) | with_reducible apply onOk_goes | with_reducible apply resetHeads_keeps
    | with_reducible apply calibPump_keeps | with_reducible apply opRow_goes | with_reducible apply calibOp_keeps
    | with_reducible apply keeps_ite | with_reducible apply goes_ite | with_reducible apply goes_next | split

theorem execKeyErase_goes {o x0 x1 x2} (h0 : Keeps o x2) : Goes o (execKeyErase x0 x1 x2) := by
  unfold execKeyErase
  repeat' first
    | with_reducible assumption | (intro) | with_reducible apply opRow_goes | with_reducible apply keyEraseOp_keeps
    | with_reducible apply goes_next

theorem execPower_goes {o x0 x1 x2} (h0 : Keeps o x2) : Goes o (execPower x0 x1 x2) := by
  unfold execPower
  repeat' first
    | with_reducible assumption | (intro) | with_reducible apply opRow_goes | with_reducible apply powerOp_keeps
    | with_reducible apply goes_next

theorem accessTimeout_keeps {o x0 x1} (h0 : Keeps o x0) : Keeps o (accessTimeout x0 x1) := by
  unfold accessTimeout
  repeat' first
    | with_reducible assumption | (intro) | with_reducible apply serveAccs_keeps
    | with_reducible apply resetHeads_keeps | with_reducible apply regReadOp_keeps
    | with_reducible apply popOp_keeps | with_reducible apply regWriteOp_keeps | with_reducible apply keeps_ite
    | (have x := trivial; extract_lets +onlyGivenNames x; (fail_if_success have y : True := x); first | (refine keeps_step x ?_ (fun hx => ?_); focus dsimp -zeta only [x]; rotate_left; clear_value x; rotate_right) | skip)
    | split

theorem execMgmtAccessTimeout_goes {o x0 x1} (h0 : Keeps o x1) : Goes o (execMgmtAccessTimeout x0 x1) := by
  unfold execMgmtAccessTimeout
  repeat' first
    | with_reducible assumption | with_reducible apply onTile_goes | with_reducible apply accessTimeout_keeps
    | with_reducible apply goes_next

theorem sendPacket_keeps {o x0 x1} (h0 : Keeps o x0) : Keeps o (sendPacket x0 x1) := by
  unfold sendPacket
  repeat' first
    | with_reducible assumption | with_reducible apply portPacket_keeps | with_reducible apply wake_keeps
    | with_reducible apply resetHeads_keeps | with_reducible apply keeps_ite
    | (have x := trivial; extract_lets +onlyGivenNames x; (fail_if_success have y : True := x); first | (refine keeps_step x ?_ (fun hx => ?_); focus dsimp -zeta only [x]; rotate_left; clear_value x; rotate_right) | skip)
    | split

theorem execSend_goes {o x0 x1} (h0 : Keeps o x1) : Goes o (execSend x0 x1) := by
  unfold execSend
  repeat' first
    | with_reducible assumption | with_reducible apply sendPacket_keeps | with_reducible apply goes_next

theorem fetchReply_keeps {o x0 x1} (h0 : Keeps o x0) : Keeps o (fetchReply x0 x1) := by
  unfold fetchReply
  repeat' first
    | simp -zeta only [↓keeps_mk, id_eq] | with_reducible assumption | with_reducible apply emit_keeps
    | with_reducible apply beginReset_keeps | with_reducible apply irqEvent_keeps | with_reducible apply keeps_ite
    | (have x := trivial; extract_lets +onlyGivenNames x; (fail_if_success have y : True := x); first | (refine keeps_step x ?_ (fun hx => ?_); focus dsimp -zeta only [x]; rotate_left; clear_value x; rotate_right) | skip)
    | split

theorem execFetch_goes {o x0 x1} (h0 : Keeps o x1) : Goes o (execFetch x0 x1) := by
  unfold execFetch
  repeat' first
    | with_reducible assumption | with_reducible apply fetchReply_keeps | with_reducible apply goes_next

theorem execPoll_goes {o x0} (h0 : Keeps o x0) : Goes o (execPoll x0) := by
  unfold execPoll
  repeat' first
    | simp -zeta only [↓keeps_mk, id_eq] | with_reducible assumption | with_reducible apply emit_keeps
    | with_reducible apply keeps_ite | with_reducible apply goes_ite | with_reducible apply goes_next
    | (have x := trivial; extract_lets +onlyGivenNames x; (fail_if_success have y : True := x); first | (refine goes_step x ?_ (fun hx => ?_); focus dsimp -zeta only [x]; rotate_left; clear_value x; rotate_right) | (refine keeps_step x ?_ (fun hx => ?_); focus dsimp -zeta only [x]; rotate_left; clear_value x; rotate_right) | skip)

theorem execIgnoredTransaction_goes {o x0 x1} (h0 : Keeps o x1) : Goes o (execIgnoredTransaction x0 x1) := by
  unfold execIgnoredTransaction
  repeat' first
    | simp -zeta only [↓keeps_mk, id_eq] | with_reducible assumption | with_reducible apply onOk_goes
    | with_reducible apply bump_keeps | with_reducible apply keeps_ite | with_reducible apply goes_ite
    | with_reducible apply goes_next
    | (have x := trivial; extract_lets +onlyGivenNames x; (fail_if_success have y : True := x); first | (refine goes_step x ?_ (fun hx => ?_); focus dsimp -zeta only [x]; rotate_left; clear_value x; rotate_right) | (refine keeps_step x ?_ (fun hx => ?_); focus dsimp -zeta only [x]; rotate_left; clear_value x; rotate_right) | skip)

theorem managementSend_keeps {o x0 x1 x2 x3} (h0 : Keeps o x0) : Keeps o (managementSend x0 x1 x2 x3) := by
  unfold managementSend
  repeat' first
    | simp -zeta only [↓keeps_mk, id_eq] | with_reducible assumption | with_reducible apply completeCmd_keeps
    | with_reducible apply sendReply_keeps | with_reducible apply resetHeads_keeps
    | with_reducible apply offerPacket_keeps | with_reducible apply keeps_ite | with_reducible apply keeps_ite_fst
    | (have x := trivial; extract_lets +onlyGivenNames x; (fail_if_success have y : True := x); first | (refine keeps_step x ?_ (fun hx => ?_); focus dsimp -zeta only [x]; rotate_left; clear_value x; rotate_right) | skip)

theorem execManagementSend_goes {o x0 x1} (h0 : Keeps o x1) : Goes o (execManagementSend x0 x1) := by
  unfold execManagementSend
  repeat' first
    | with_reducible assumption | (intro) | with_reducible apply onAdmin_goes
    | with_reducible apply managementSend_keeps | with_reducible apply goes_next

theorem execManagementReceive_goes {o x0 x1} (h0 : Keeps o x1) : Goes o (execManagementReceive x0 x1) := by
  unfold execManagementReceive
  repeat' first
    | with_reducible assumption | (intro) | with_reducible apply onAdmin_goes
    | with_reducible apply completeData_keeps | with_reducible apply completeCmd_keeps
    | with_reducible apply keeps_ite | with_reducible apply goes_ite | with_reducible apply goes_next
    | (have x := trivial; extract_lets +onlyGivenNames x; (fail_if_success have y : True := x); first | (refine goes_step x ?_ (fun hx => ?_); focus dsimp -zeta only [x]; rotate_left; clear_value x; rotate_right) | (refine keeps_step x ?_ (fun hx => ?_); focus dsimp -zeta only [x]; rotate_left; clear_value x; rotate_right) | skip)

theorem agreementTile_keeps {o x0 x1} (h0 : Keeps o x0) : Keeps o (agreementTile x0 x1) := by
  unfold agreementTile
  repeat' first
    | with_reducible assumption | with_reducible apply checkAgreement_keeps
    | with_reducible apply setLinkState_keeps | with_reducible apply linkOpen_keeps
    | with_reducible apply keeps_ite | with_reducible apply keeps_ite_fst
    | (have x := trivial; extract_lets +onlyGivenNames x; (fail_if_success have y : True := x); first | (refine keeps_step x ?_ (fun hx => ?_); focus dsimp -zeta only [x]; rotate_left; clear_value x; rotate_right) | skip)

theorem execAgreementCheck_goes {o x0} (h0 : Keeps o x0) : Goes o (execAgreementCheck x0) := by
  unfold execAgreementCheck
  repeat' first
    | with_reducible assumption | (intro) | with_reducible apply agreementTile_keeps
    | with_reducible apply keeps_ite | with_reducible apply goes_ite | with_reducible apply goes_next
    | with_reducible apply keeps_foldl | split

theorem execOptimeWrite_goes {o x0 x1} (h0 : Keeps o x1) : Goes o (execOptimeWrite x0 x1) := by
  unfold execOptimeWrite
  repeat' first
    | with_reducible assumption | with_reducible apply saveOptime_keeps | with_reducible apply keeps_ite
    | with_reducible apply goes_ite | with_reducible apply goes_next

theorem execFlashOperationDone_goes {o x0 x1} (h0 : Keeps o x1) : Goes o (execFlashOperationDone x0 x1) := by
  unfold execFlashOperationDone
  repeat' first
    | with_reducible assumption | with_reducible apply resetHeads_keeps | with_reducible apply flashDone_keeps
    | with_reducible apply goes_next

end Sys2Proof.Machine
end

