-- ==== Sys2Proof/Laws/KeepsMicro.lean ====
section
/-! SUPPORT. What the microwords, memory protection, the test access port and the time keep (`Keeps`): one lemma per operation. -/

namespace Sys2Proof.Machine

theorem countWord_keeps {o x0 x1 x2} (h0 : Keeps o x0) : Keeps o (countWord x0 x1 x2) := by
  unfold countWord
  repeat' first
    | simp -zeta only [↓keeps_mk, id_eq] | with_reducible assumption | with_reducible apply setThread_keeps
    | (have x := trivial; extract_lets +onlyGivenNames x; (fail_if_success have y : True := x); first | (refine keeps_step x ?_ (fun hx => ?_); focus dsimp -zeta only [x]; rotate_left; clear_value x; rotate_right) | skip)

theorem runWord_keeps {o x0 x1 x2 x3 x4} (h0 : Keeps o x0) (h1 : ∀ y0 y1, Keeps o y0 → Keeps o (x4 y0 y1)) :
    Keeps o (runWord x0 x1 x2 x3 x4) := by
  unfold runWord
  repeat' first
    | with_reducible assumption | (intro) | with_reducible apply microFault_keeps
    | with_reducible apply countWord_keeps | with_reducible apply h1 | with_reducible apply keeps_ite
    | (have x := trivial; extract_lets +onlyGivenNames x; (fail_if_success have y : True := x); first | (refine keeps_step x ?_ (fun hx => ?_); focus dsimp -zeta only [x]; rotate_left; clear_value x; rotate_right) | skip)

theorem onWord_goes {o x0 x1 x2 x3 x4} (h0 : Keeps o x0) (h1 : ∀ y0 y1, Keeps o y0 → Keeps o (x4 y0 y1)) :
    Goes o (onWord x0 x1 x2 x3 x4) := by
  unfold onWord
  repeat' first
    | with_reducible assumption | (intro) | with_reducible apply onEng_goes | with_reducible apply runWord_keeps
    | with_reducible apply h1 | with_reducible apply keeps_ite | with_reducible apply goes_ite
    | with_reducible apply goes_next | exact goes_fault

theorem goto__keeps {o x0 x1 x2 x3} (h0 : Keeps o x0) : Keeps o (goto_ x0 x1 x2 x3) := by
  unfold goto_
  repeat' first
    | simp -zeta only [↓keeps_mk, id_eq] | with_reducible assumption | with_reducible apply setThread_keeps
    | with_reducible apply microFault_keeps | with_reducible apply keeps_ite
    | (have x := trivial; extract_lets +onlyGivenNames x; (fail_if_success have y : True := x); first | (refine keeps_step x ?_ (fun hx => ?_); focus dsimp -zeta only [x]; rotate_left; clear_value x; rotate_right) | skip)

theorem nextWord_keeps {o x0 x1 x2} (h0 : Keeps o x0) : Keeps o (nextWord x0 x1 x2) := by
  unfold nextWord
  repeat' first
    | with_reducible assumption | with_reducible apply goto__keeps

theorem putReg_keeps {o x0 x1 x2 x3 x4} (h0 : Keeps o x0) : Keeps o (putReg x0 x1 x2 x3 x4) := by
  unfold putReg
  repeat' first
    | simp -zeta only [↓keeps_mk, id_eq] | with_reducible assumption | (intro) | with_reducible apply modEng_keeps
    | with_reducible apply setThread_keeps | with_reducible apply keeps_ite
    | (have x := trivial; extract_lets +onlyGivenNames x; (fail_if_success have y : True := x); first | (refine keeps_step x ?_ (fun hx => ?_); focus dsimp -zeta only [x]; rotate_left; clear_value x; rotate_right) | skip)

theorem compute_keeps {o x0 x1 x2 x3 x4} (h0 : Keeps o x0) : Keeps o (compute x0 x1 x2 x3 x4) := by
  unfold compute
  repeat' first
    | with_reducible assumption | with_reducible apply nextWord_keeps | with_reducible apply putReg_keeps

theorem wordRR_goes {o x0 x1 x2 x3 x4} (h0 : Keeps o x0) : Goes o (wordRR x0 x1 x2 x3 x4) := by
  unfold wordRR
  repeat' first
    | with_reducible assumption | (intro) | with_reducible apply onWord_goes | with_reducible apply compute_keeps
    | with_reducible apply goes_next

theorem wordRI_goes {o x0 x1 x2 x3 x4} (h0 : Keeps o x0) : Goes o (wordRI x0 x1 x2 x3 x4) := by
  unfold wordRI
  repeat' first
    | with_reducible assumption | (intro) | with_reducible apply onWord_goes | with_reducible apply compute_keeps
    | with_reducible apply goes_next

theorem execNop_goes {o x0 x1 x2} (h0 : Keeps o x2) : Goes o (execNop x0 x1 x2) := by
  unfold execNop
  repeat' first
    | with_reducible assumption | (intro) | with_reducible apply onWord_goes | with_reducible apply nextWord_keeps
    | with_reducible apply goes_next

theorem execAdd_goes {o x0 x1 x2} (h0 : Keeps o x2) : Goes o (execAdd x0 x1 x2) := by
  unfold execAdd
  repeat' first
    | with_reducible assumption | with_reducible apply wordRR_goes | with_reducible apply goes_next

theorem execSub_goes {o x0 x1 x2} (h0 : Keeps o x2) : Goes o (execSub x0 x1 x2) := by
  unfold execSub
  repeat' first
    | with_reducible assumption | with_reducible apply wordRR_goes | with_reducible apply goes_next

theorem execAnd_goes {o x0 x1 x2} (h0 : Keeps o x2) : Goes o (execAnd x0 x1 x2) := by
  unfold execAnd
  repeat' first
    | with_reducible assumption | with_reducible apply wordRR_goes | with_reducible apply goes_next

theorem execOr_goes {o x0 x1 x2} (h0 : Keeps o x2) : Goes o (execOr x0 x1 x2) := by
  unfold execOr
  repeat' first
    | with_reducible assumption | with_reducible apply wordRR_goes | with_reducible apply goes_next

theorem execXor_goes {o x0 x1 x2} (h0 : Keeps o x2) : Goes o (execXor x0 x1 x2) := by
  unfold execXor
  repeat' first
    | with_reducible assumption | with_reducible apply wordRR_goes | with_reducible apply goes_next

theorem execShl_goes {o x0 x1 x2} (h0 : Keeps o x2) : Goes o (execShl x0 x1 x2) := by
  unfold execShl
  repeat' first
    | with_reducible assumption | (intro) | with_reducible apply wordRR_goes | with_reducible apply goes_next

theorem execShr_goes {o x0 x1 x2} (h0 : Keeps o x2) : Goes o (execShr x0 x1 x2) := by
  unfold execShr
  repeat' first
    | with_reducible assumption | (intro) | with_reducible apply wordRR_goes | with_reducible apply goes_next

theorem execSar_goes {o x0 x1 x2} (h0 : Keeps o x2) : Goes o (execSar x0 x1 x2) := by
  unfold execSar
  repeat' first
    | with_reducible assumption | (intro) | with_reducible apply wordRR_goes | with_reducible apply goes_next

theorem execMul_goes {o x0 x1 x2} (h0 : Keeps o x2) : Goes o (execMul x0 x1 x2) := by
  unfold execMul
  repeat' first
    | with_reducible assumption | with_reducible apply wordRR_goes | with_reducible apply goes_next

theorem execSlt_goes {o x0 x1 x2} (h0 : Keeps o x2) : Goes o (execSlt x0 x1 x2) := by
  unfold execSlt
  repeat' first
    | with_reducible assumption | (intro) | with_reducible apply wordRR_goes | with_reducible apply goes_next

theorem execSltu_goes {o x0 x1 x2} (h0 : Keeps o x2) : Goes o (execSltu x0 x1 x2) := by
  unfold execSltu
  repeat' first
    | with_reducible assumption | (intro) | with_reducible apply wordRR_goes | with_reducible apply goes_next

theorem execMin_goes {o x0 x1 x2} (h0 : Keeps o x2) : Goes o (execMin x0 x1 x2) := by
  unfold execMin
  repeat' first
    | with_reducible assumption | (intro) | with_reducible apply wordRR_goes | with_reducible apply keeps_ite
    | with_reducible apply goes_ite | with_reducible apply goes_next

theorem execMax_goes {o x0 x1 x2} (h0 : Keeps o x2) : Goes o (execMax x0 x1 x2) := by
  unfold execMax
  repeat' first
    | with_reducible assumption | (intro) | with_reducible apply wordRR_goes | with_reducible apply keeps_ite
    | with_reducible apply goes_ite | with_reducible apply goes_next

theorem execAddi_goes {o x0 x1 x2} (h0 : Keeps o x2) : Goes o (execAddi x0 x1 x2) := by
  unfold execAddi
  repeat' first
    | with_reducible assumption | (intro) | with_reducible apply wordRI_goes | with_reducible apply goes_next

theorem execAndi_goes {o x0 x1 x2} (h0 : Keeps o x2) : Goes o (execAndi x0 x1 x2) := by
  unfold execAndi
  repeat' first
    | with_reducible assumption | (intro) | with_reducible apply wordRI_goes | with_reducible apply goes_next

theorem execOri_goes {o x0 x1 x2} (h0 : Keeps o x2) : Goes o (execOri x0 x1 x2) := by
  unfold execOri
  repeat' first
    | with_reducible assumption | (intro) | with_reducible apply wordRI_goes | with_reducible apply goes_next

theorem execLui_goes {o x0 x1 x2} (h0 : Keeps o x2) : Goes o (execLui x0 x1 x2) := by
  unfold execLui
  repeat' first
    | with_reducible assumption | (intro) | with_reducible apply wordRI_goes | with_reducible apply goes_next

theorem execShli_goes {o x0 x1 x2} (h0 : Keeps o x2) : Goes o (execShli x0 x1 x2) := by
  unfold execShli
  repeat' first
    | with_reducible assumption | (intro) | with_reducible apply wordRI_goes | with_reducible apply goes_next

theorem execShri_goes {o x0 x1 x2} (h0 : Keeps o x2) : Goes o (execShri x0 x1 x2) := by
  unfold execShri
  repeat' first
    | with_reducible assumption | (intro) | with_reducible apply wordRI_goes | with_reducible apply goes_next

theorem execSari_goes {o x0 x1 x2} (h0 : Keeps o x2) : Goes o (execSari x0 x1 x2) := by
  unfold execSari
  repeat' first
    | with_reducible assumption | (intro) | with_reducible apply wordRI_goes | with_reducible apply goes_next

theorem wordAcc_goes {o x0 x1 x2 x3 x4} (h0 : Keeps o x0) (h1 : ∀ y0 y1, Keeps o y0 → Keeps o (x4 y0 y1)) :
    Goes o (wordAcc x0 x1 x2 x3 x4) := by
  unfold wordAcc
  repeat' first
    | with_reducible assumption | (intro) | with_reducible apply onWord_goes
    | with_reducible apply microFault_keeps | with_reducible apply h1 | with_reducible apply keeps_ite
    | with_reducible apply goes_ite | with_reducible apply goes_next

theorem accumulate_keeps {o x0 x1 x2 x3 x4 x5} (h0 : Keeps o x0) : Keeps o (accumulate x0 x1 x2 x3 x4 x5) := by
  unfold accumulate
  repeat' first
    | simp -zeta only [↓keeps_mk, id_eq] | with_reducible assumption | (intro)
    | with_reducible apply nextWord_keeps | with_reducible apply modEng_keeps
    | (have x := trivial; extract_lets +onlyGivenNames x; (fail_if_success have y : True := x); first | (refine keeps_step x ?_ (fun hx => ?_); focus dsimp -zeta only [x]; rotate_left; clear_value x; rotate_right) | skip)

theorem execMac_goes {o x0 x1 x2} (h0 : Keeps o x2) : Goes o (execMac x0 x1 x2) := by
  unfold execMac
  repeat' first
    | with_reducible assumption | (intro) | with_reducible apply wordAcc_goes
    | with_reducible apply accumulate_keeps | with_reducible apply goes_next

theorem execMsu_goes {o x0 x1 x2} (h0 : Keeps o x2) : Goes o (execMsu x0 x1 x2) := by
  unfold execMsu
  repeat' first
    | with_reducible assumption | (intro) | with_reducible apply wordAcc_goes
    | with_reducible apply accumulate_keeps | with_reducible apply goes_next

theorem execAclr_goes {o x0 x1 x2} (h0 : Keeps o x2) : Goes o (execAclr x0 x1 x2) := by
  unfold execAclr
  repeat' first
    | simp -zeta only [↓keeps_mk, id_eq] | with_reducible assumption | (intro) | with_reducible apply wordAcc_goes
    | with_reducible apply nextWord_keeps | with_reducible apply modEng_keeps | with_reducible apply goes_next
    | (have x := trivial; extract_lets +onlyGivenNames x; (fail_if_success have y : True := x); first | (refine goes_step x ?_ (fun hx => ?_); focus dsimp -zeta only [x]; rotate_left; clear_value x; rotate_right) | (refine keeps_step x ?_ (fun hx => ?_); focus dsimp -zeta only [x]; rotate_left; clear_value x; rotate_right) | skip)

theorem execAout_goes {o x0 x1 x2} (h0 : Keeps o x2) : Goes o (execAout x0 x1 x2) := by
  unfold execAout
  repeat' first
    | with_reducible assumption | (intro) | with_reducible apply wordAcc_goes | with_reducible apply compute_keeps
    | with_reducible apply took_keeps | with_reducible apply bump_keeps | with_reducible apply keeps_ite
    | with_reducible apply goes_ite | with_reducible apply goes_next
    | (have x := trivial; extract_lets +onlyGivenNames x; (fail_if_success have y : True := x); first | (refine goes_step x ?_ (fun hx => ?_); focus dsimp -zeta only [x]; rotate_left; clear_value x; rotate_right) | (refine keeps_step x ?_ (fun hx => ?_); focus dsimp -zeta only [x]; rotate_left; clear_value x; rotate_right) | skip)

theorem branch_goes {o x0 x1 x2 x3 x4} (h0 : Keeps o x0) : Goes o (branch x0 x1 x2 x3 x4) := by
  unfold branch
  repeat' first
    | with_reducible assumption | (intro) | with_reducible apply onWord_goes | with_reducible apply goto__keeps
    | with_reducible apply nextWord_keeps | with_reducible apply keeps_ite | with_reducible apply goes_ite
    | with_reducible apply goes_next

theorem execBeq_goes {o x0 x1 x2} (h0 : Keeps o x2) : Goes o (execBeq x0 x1 x2) := by
  unfold execBeq
  repeat' first
    | with_reducible assumption | (intro) | with_reducible apply branch_goes | with_reducible apply goes_next

theorem execBne_goes {o x0 x1 x2} (h0 : Keeps o x2) : Goes o (execBne x0 x1 x2) := by
  unfold execBne
  repeat' first
    | with_reducible assumption | (intro) | with_reducible apply branch_goes | with_reducible apply goes_next

theorem execBlt_goes {o x0 x1 x2} (h0 : Keeps o x2) : Goes o (execBlt x0 x1 x2) := by
  unfold execBlt
  repeat' first
    | with_reducible assumption | (intro) | with_reducible apply branch_goes | with_reducible apply goes_next

theorem execBge_goes {o x0 x1 x2} (h0 : Keeps o x2) : Goes o (execBge x0 x1 x2) := by
  unfold execBge
  repeat' first
    | with_reducible assumption | (intro) | with_reducible apply branch_goes | with_reducible apply goes_next

theorem execJmp_goes {o x0 x1 x2} (h0 : Keeps o x2) : Goes o (execJmp x0 x1 x2) := by
  unfold execJmp
  repeat' first
    | with_reducible assumption | (intro) | with_reducible apply onWord_goes | with_reducible apply goto__keeps
    | with_reducible apply goes_next

theorem execCall_goes {o x0 x1 x2} (h0 : Keeps o x2) : Goes o (execCall x0 x1 x2) := by
  unfold execCall
  repeat' first
    | with_reducible assumption | (intro) | with_reducible apply onWord_goes | with_reducible apply goto__keeps
    | with_reducible apply putReg_keeps | with_reducible apply goes_next

theorem execRet_goes {o x0 x1 x2} (h0 : Keeps o x2) : Goes o (execRet x0 x1 x2) := by
  unfold execRet
  repeat' first
    | with_reducible assumption | (intro) | with_reducible apply onWord_goes | with_reducible apply goto__keeps
    | with_reducible apply goes_next

theorem execEndThread_goes {o x0 x1 x2} (h0 : Keeps o x2) : Goes o (execEndThread x0 x1 x2) := by
  unfold execEndThread
  repeat' first
    | with_reducible assumption | (intro) | with_reducible apply onWord_goes | with_reducible apply endThread_keeps
    | with_reducible apply goes_next

theorem execFault_goes {o x0 x1 x2} (h0 : Keeps o x2) : Goes o (execFault x0 x1 x2) := by
  unfold execFault
  repeat' first
    | with_reducible assumption | (intro) | with_reducible apply onWord_goes
    | with_reducible apply microFault_keeps | with_reducible apply goes_next

theorem execLdr_goes {o x0 x1 x2} (h0 : Keeps o x2) : Goes o (execLdr x0 x1 x2) := by
  unfold execLdr
  repeat' first
    | with_reducible assumption | (intro) | with_reducible apply onWord_goes
    | with_reducible apply microFault_keeps | with_reducible apply compute_keeps
    | with_reducible apply afterRead_keeps | with_reducible apply keeps_ite | with_reducible apply goes_ite
    | with_reducible apply goes_next
    | (have x := trivial; extract_lets +onlyGivenNames x; (fail_if_success have y : True := x); first | (refine goes_step x ?_ (fun hx => ?_); focus dsimp -zeta only [x]; rotate_left; clear_value x; rotate_right) | (refine keeps_step x ?_ (fun hx => ?_); focus dsimp -zeta only [x]; rotate_left; clear_value x; rotate_right) | skip)
    | split

theorem execStr_goes {o x0 x1 x2} (h0 : Keeps o x2) : Goes o (execStr x0 x1 x2) := by
  unfold execStr
  repeat' first
    | with_reducible assumption | (intro) | with_reducible apply onWord_goes
    | with_reducible apply microFault_keeps | with_reducible apply nextWord_keeps
    | with_reducible apply writeBlk_keeps | with_reducible apply keeps_ite | with_reducible apply keeps_ite_fst
    | with_reducible apply goes_ite | with_reducible apply goes_next
    | (have x := trivial; extract_lets +onlyGivenNames x; (fail_if_success have y : True := x); first | (refine goes_step x ?_ (fun hx => ?_); focus dsimp -zeta only [x]; rotate_left; clear_value x; rotate_right) | (refine keeps_step x ?_ (fun hx => ?_); focus dsimp -zeta only [x]; rotate_left; clear_value x; rotate_right) | skip)
    | split

theorem execLds_goes {o x0 x1 x2} (h0 : Keeps o x2) : Goes o (execLds x0 x1 x2) := by
  unfold execLds
  repeat' first
    | with_reducible assumption | (intro) | with_reducible apply onWord_goes
    | with_reducible apply microFault_keeps | with_reducible apply compute_keeps | with_reducible apply keeps_ite
    | with_reducible apply goes_ite | with_reducible apply goes_next
    | (have x := trivial; extract_lets +onlyGivenNames x; (fail_if_success have y : True := x); first | (refine goes_step x ?_ (fun hx => ?_); focus dsimp -zeta only [x]; rotate_left; clear_value x; rotate_right) | (refine keeps_step x ?_ (fun hx => ?_); focus dsimp -zeta only [x]; rotate_left; clear_value x; rotate_right) | skip)

theorem execSts_goes {o x0 x1 x2} (h0 : Keeps o x2) : Goes o (execSts x0 x1 x2) := by
  unfold execSts
  repeat' first
    | simp -zeta only [↓keeps_mk, id_eq] | with_reducible assumption | (intro) | with_reducible apply onWord_goes
    | with_reducible apply microFault_keeps | with_reducible apply nextWord_keeps
    | with_reducible apply modEng_keeps | with_reducible apply keeps_ite | with_reducible apply goes_ite
    | with_reducible apply goes_next
    | (have x := trivial; extract_lets +onlyGivenNames x; (fail_if_success have y : True := x); first | (refine goes_step x ?_ (fun hx => ?_); focus dsimp -zeta only [x]; rotate_left; clear_value x; rotate_right) | (refine keeps_step x ?_ (fun hx => ?_); focus dsimp -zeta only [x]; rotate_left; clear_value x; rotate_right) | skip)

theorem suspend_keeps {o x0 x1 x2 x3 x4} (h0 : Keeps o x0) : Keeps o (suspend x0 x1 x2 x3 x4) := by
  unfold suspend
  repeat' first
    | simp -zeta only [↓keeps_mk, id_eq] | with_reducible assumption | with_reducible apply setThread_keeps
    | with_reducible apply deliverResult_keeps | with_reducible apply keeps_ite
    | (have x := trivial; extract_lets +onlyGivenNames x; (fail_if_success have y : True := x); first | (refine keeps_step x ?_ (fun hx => ?_); focus dsimp -zeta only [x]; rotate_left; clear_value x; rotate_right) | skip)

theorem programWait_keeps {o x0 x1 x2} (h0 : Keeps o x0) : Keeps o (programWait x0 x1 x2) := by
  unfold programWait
  repeat' first
    | simp -zeta only [↓keeps_mk, id_eq] | with_reducible assumption | (intro)
    | with_reducible apply endThread_keeps | with_reducible apply suspend_keeps
    | with_reducible apply countWord_keeps | with_reducible apply modCtx_keeps | with_reducible apply keeps_ite
    | (have x := trivial; extract_lets +onlyGivenNames x; (fail_if_success have y : True := x); first | (refine keeps_step x ?_ (fun hx => ?_); focus dsimp -zeta only [x]; rotate_left; clear_value x; rotate_right) | skip)
    | split

theorem execWait_goes {o x0 x1 x2} (h0 : Keeps o x2) : Goes o (execWait x0 x1 x2) := by
  unfold execWait
  repeat' first
    | with_reducible assumption | (intro) | with_reducible apply onEng_goes
    | with_reducible apply programWait_keeps | with_reducible apply onWord_goes
    | with_reducible apply microFault_keeps | with_reducible apply endThread_keeps
    | with_reducible apply nextWord_keeps | with_reducible apply suspend_keeps | with_reducible apply keeps_ite
    | with_reducible apply goes_ite | with_reducible apply goes_next
    | (have x := trivial; extract_lets +onlyGivenNames x; (fail_if_success have y : True := x); first | (refine goes_step x ?_ (fun hx => ?_); focus dsimp -zeta only [x]; rotate_left; clear_value x; rotate_right) | (refine keeps_step x ?_ (fun hx => ?_); focus dsimp -zeta only [x]; rotate_left; clear_value x; rotate_right) | skip)

theorem postWord_keeps {o x0 x1 x2 x3 x4} (h0 : Keeps o x0) (h1 : ∀ y0 y1 y2, Keeps o y0 → Keeps o (x4 y0 y1 y2)) :
    Keeps o (postWord x0 x1 x2 x3 x4) := by
  unfold postWord
  repeat' first
    | with_reducible assumption | (intro) | with_reducible apply runWord_keeps
    | with_reducible apply microFault_keeps | with_reducible apply h1 | with_reducible apply keeps_ite
    | (have x := trivial; extract_lets +onlyGivenNames x; (fail_if_success have y : True := x); first | (refine keeps_step x ?_ (fun hx => ?_); focus dsimp -zeta only [x]; rotate_left; clear_value x; rotate_right) | skip)

theorem wordPost_keeps {o x0 x1 x2 x3 x4} (h0 : Keeps o x0) (h1 : ∀ y0 y1 y2, Keeps o y0 → Keeps o (x4 y0 y1 y2)) :
    Keeps o (wordPost x0 x1 x2 x3 x4) := by
  unfold wordPost
  repeat' first
    | with_reducible assumption | (intro) | with_reducible apply postWord_keeps
    | with_reducible apply nextWord_keeps | with_reducible apply emit_keeps | with_reducible apply h1

theorem dispatchPost_goes {o x0 x1 x2} (h0 : Keeps o x0) : Goes o (dispatchPost x0 x1 x2) := by
  unfold dispatchPost
  repeat' first
    | with_reducible assumption | (intro) | with_reducible apply onOk_goes | with_reducible apply wordPost_keeps
    | with_reducible apply goes_next

theorem execTreq_goes {o x0 x1} (h0 : Keeps o x1) : Goes o (execTreq x0 x1) := by
  unfold execTreq
  repeat' first
    | with_reducible assumption | with_reducible apply dispatchPost_goes | with_reducible apply goes_next

theorem execBreq_goes {o x0 x1} (h0 : Keeps o x1) : Goes o (execBreq x0 x1) := by
  unfold execBreq
  repeat' first
    | with_reducible assumption | with_reducible apply dispatchPost_goes | with_reducible apply goes_next

theorem execCpl_goes {o x0 x1} (h0 : Keeps o x1) : Goes o (execCpl x0 x1) := by
  unfold execCpl
  repeat' first
    | with_reducible assumption | with_reducible apply dispatchPost_goes | with_reducible apply goes_next

theorem execRdma_goes {o x0 x1} (h0 : Keeps o x1) : Goes o (execRdma x0 x1) := by
  unfold execRdma
  repeat' first
    | with_reducible assumption | with_reducible apply dispatchPost_goes | with_reducible apply goes_next

theorem execOwlPost_goes {o x0 x1} (h0 : Keeps o x1) : Goes o (execOwlPost x0 x1) := by
  unfold execOwlPost
  repeat' first
    | with_reducible assumption | with_reducible apply dispatchPost_goes | with_reducible apply goes_next

theorem controlPost_goes {o x0 x1 x2 x3 x4} (h0 : Keeps o x0) (h1 : ∀ y0 y1 y2, Keeps o y0 → Keeps o (x4 y0 y1 y2)) :
    Goes o (controlPost x0 x1 x2 x3 x4) := by
  unfold controlPost
  repeat' first
    | with_reducible assumption | (intro) | with_reducible apply onCluster_goes
    | with_reducible apply wordPost_keeps | with_reducible apply h1 | with_reducible apply goes_next

theorem execSetp_goes {o x0 x1 x2} (h0 : Keeps o x2) : Goes o (execSetp x0 x1 x2) := by
  unfold execSetp
  repeat' first
    | with_reducible assumption | (intro) | with_reducible apply controlPost_goes
    | with_reducible apply setPoint_keeps | with_reducible apply keeps_ite | with_reducible apply goes_ite
    | with_reducible apply goes_next

theorem execPred_goes {o x0 x1 x2} (h0 : Keeps o x2) : Goes o (execPred x0 x1 x2) := by
  unfold execPred
  repeat' first
    | simp -zeta only [↓keeps_mk, id_eq] | with_reducible assumption | (intro)
    | with_reducible apply controlPost_goes | with_reducible apply modHeadS_keeps | with_reducible apply keeps_ite
    | with_reducible apply goes_ite | with_reducible apply goes_next
    | (have x := trivial; extract_lets +onlyGivenNames x; (fail_if_success have y : True := x); first | (refine goes_step x ?_ (fun hx => ?_); focus dsimp -zeta only [x]; rotate_left; clear_value x; rotate_right) | (refine keeps_step x ?_ (fun hx => ?_); focus dsimp -zeta only [x]; rotate_left; clear_value x; rotate_right) | skip)

theorem execVcmd_goes {o x0 x1 x2} (h0 : Keeps o x2) : Goes o (execVcmd x0 x1 x2) := by
  unfold execVcmd
  repeat' first
    | simp -zeta only [↓keeps_mk, id_eq] | with_reducible assumption | (intro)
    | with_reducible apply controlPost_goes | with_reducible apply setF_keeps | with_reducible apply modCtl_keeps
    | with_reducible apply goes_next
    | (have x := trivial; extract_lets +onlyGivenNames x; (fail_if_success have y : True := x); first | (refine goes_step x ?_ (fun hx => ?_); focus dsimp -zeta only [x]; rotate_left; clear_value x; rotate_right) | (refine keeps_step x ?_ (fun hx => ?_); focus dsimp -zeta only [x]; rotate_left; clear_value x; rotate_right) | skip)

theorem execCtlMode_goes {o x0 x1 x2} (h0 : Keeps o x2) : Goes o (execCtlMode x0 x1 x2) := by
  unfold execCtlMode
  repeat' first
    | with_reducible assumption | (intro) | with_reducible apply controlPost_goes
    | with_reducible apply goMode_keeps | with_reducible apply keeps_ite | with_reducible apply goes_ite
    | with_reducible apply goes_next

theorem execFrep_goes {o x0 x1 x2} (h0 : Keeps o x2) : Goes o (execFrep x0 x1 x2) := by
  unfold execFrep
  repeat' first
    | simp -zeta only [↓keeps_mk, id_eq] | with_reducible assumption | (intro)
    | with_reducible apply controlPost_goes | with_reducible apply ladderFault_keeps
    | with_reducible apply retire_keeps | with_reducible apply startRetract_keeps
    | with_reducible apply zeroSetpoints_keeps | with_reducible apply tileEdge_keeps
    | with_reducible apply keeps_ite | with_reducible apply goes_ite | with_reducible apply goes_next

theorem spindlePost_goes {o x0 x1 x2 x3} (h0 : Keeps o x0) (h1 : ∀ y0 y1 y2, Keeps o y0 → Keeps o (x3 y0 y1 y2)) :
    Goes o (spindlePost x0 x1 x2 x3) := by
  unfold spindlePost
  repeat' first
    | with_reducible assumption | (intro) | with_reducible apply onTile_goes | with_reducible apply wordPost_keeps
    | with_reducible apply h1 | with_reducible apply goes_next

theorem execIref_goes {o x0 x1} (h0 : Keeps o x1) : Goes o (execIref x0 x1) := by
  unfold execIref
  repeat' first
    | simp -zeta only [↓keeps_mk, id_eq] | with_reducible assumption | (intro)
    | with_reducible apply spindlePost_goes | with_reducible apply setB_keeps | with_reducible apply modSpn_keeps
    | with_reducible apply goes_next
    | (have x := trivial; extract_lets +onlyGivenNames x; (fail_if_success have y : True := x); first | (refine goes_step x ?_ (fun hx => ?_); focus dsimp -zeta only [x]; rotate_left; clear_value x; rotate_right) | (refine keeps_step x ?_ (fun hx => ?_); focus dsimp -zeta only [x]; rotate_left; clear_value x; rotate_right) | skip)

theorem execVvec_goes {o x0 x1} (h0 : Keeps o x1) : Goes o (execVvec x0 x1) := by
  unfold execVvec
  repeat' first
    | simp -zeta only [↓keeps_mk, id_eq] | with_reducible assumption | (intro)
    | with_reducible apply spindlePost_goes | with_reducible apply modSpn_keeps | with_reducible apply setReg_keeps
    | with_reducible apply setF_keeps | with_reducible apply keeps_ite | with_reducible apply goes_ite
    | with_reducible apply goes_next
    | (have x := trivial; extract_lets +onlyGivenNames x; (fail_if_success have y : True := x); first | (refine goes_step x ?_ (fun hx => ?_); focus dsimp -zeta only [x]; rotate_left; clear_value x; rotate_right) | (refine keeps_step x ?_ (fun hx => ?_); focus dsimp -zeta only [x]; rotate_left; clear_value x; rotate_right) | skip)

theorem execSpnState_goes {o x0 x1} (h0 : Keeps o x1) : Goes o (execSpnState x0 x1) := by
  unfold execSpnState
  repeat' first
    | with_reducible assumption | (intro) | with_reducible apply spindlePost_goes
    | with_reducible apply setSpnState_keeps | with_reducible apply keeps_ite | with_reducible apply goes_ite
    | with_reducible apply goes_next

theorem execRetract_goes {o x0 x1} (h0 : Keeps o x1) : Goes o (execRetract x0 x1) := by
  unfold execRetract
  repeat' first
    | with_reducible assumption | (intro) | with_reducible apply spindlePost_goes
    | with_reducible apply startRetract_keeps | with_reducible apply goes_next | with_reducible apply keeps_foldl

theorem execSpflt_goes {o x0 x1} (h0 : Keeps o x1) : Goes o (execSpflt x0 x1) := by
  unfold execSpflt
  repeat' first
    | with_reducible assumption | (intro) | with_reducible apply spindlePost_goes
    | with_reducible apply setSpnFlt_keeps | with_reducible apply spindleFault_keeps
    | with_reducible apply keeps_ite | with_reducible apply goes_ite | with_reducible apply goes_next
    | with_reducible apply keeps_foldl
    | (have x := trivial; extract_lets +onlyGivenNames x; (fail_if_success have y : True := x); first | (refine goes_step x ?_ (fun hx => ?_); focus dsimp -zeta only [x]; rotate_left; clear_value x; rotate_right) | (refine keeps_step x ?_ (fun hx => ?_); focus dsimp -zeta only [x]; rotate_left; clear_value x; rotate_right) | skip)

theorem programPost_keeps {o x0 x1 x2 x3 x4 x5} (h0 : Keeps o x0) (h1 : ∀ y0 y1 y2, Keeps o y0 → Keeps o (x5 y0 y1 y2)) :
    Keeps o (programPost x0 x1 x2 x3 x4 x5) := by
  unfold programPost
  repeat' first
    | simp -zeta only [↓keeps_mk, id_eq] | with_reducible assumption | (intro)
    | with_reducible apply countWord_keeps | with_reducible apply modCtx_keeps | with_reducible apply emit_keeps
    | with_reducible apply h1 | with_reducible apply keeps_ite
    | (have x := trivial; extract_lets +onlyGivenNames x; (fail_if_success have y : True := x); first | (refine keeps_step x ?_ (fun hx => ?_); focus dsimp -zeta only [x]; rotate_left; clear_value x; rotate_right) | skip)
    | split

theorem ladderPost_goes {o x0 x1 x2 x3 x4 x5} (h0 : Keeps o x0) (h1 : ∀ y0 y1 y2, Keeps o y0 → Keeps o (x5 y0 y1 y2)) :
    Goes o (ladderPost x0 x1 x2 x3 x4 x5) := by
  unfold ladderPost
  repeat' first
    | with_reducible assumption | (intro) | with_reducible apply onTile_goes
    | with_reducible apply programPost_keeps | with_reducible apply wordPost_keeps | with_reducible apply h1
    | with_reducible apply keeps_ite | with_reducible apply goes_ite | with_reducible apply goes_next
    | exact goes_fault
    | (have x := trivial; extract_lets +onlyGivenNames x; (fail_if_success have y : True := x); first | (refine goes_step x ?_ (fun hx => ?_); focus dsimp -zeta only [x]; rotate_left; clear_value x; rotate_right) | (refine keeps_step x ?_ (fun hx => ?_); focus dsimp -zeta only [x]; rotate_left; clear_value x; rotate_right) | (have _ : State → State := x; dsimp -zeta only [x]) | (have _ : Nat → State → State := x; dsimp -zeta only [x]) | (have _ : State → Nat → State := x; dsimp -zeta only [x]) | skip)

theorem execHist_goes {o x0 x1 x2} (h0 : Keeps o x2) : Goes o (execHist x0 x1 x2) := by
  unfold execHist
  repeat' first
    | with_reducible assumption | (intro) | with_reducible apply ladderPost_goes
    | with_reducible apply histPost_keeps | with_reducible apply goes_next

theorem execBook_goes {o x0 x1 x2} (h0 : Keeps o x2) : Goes o (execBook x0 x1 x2) := by
  unfold execBook
  repeat' first
    | with_reducible assumption | (intro) | with_reducible apply ladderPost_goes
    | with_reducible apply bookReread_keeps | with_reducible apply goes_next

theorem execAccept_goes {o x0 x1 x2} (h0 : Keeps o x2) : Goes o (execAccept x0 x1 x2) := by
  unfold execAccept
  repeat' first
    | with_reducible assumption | (intro) | with_reducible apply onTile_goes
    | with_reducible apply programPost_keeps | with_reducible apply acceptCtx_may
    | exact May.of ‹_› (acceptCtx_may (by with_reducible assumption)) | with_reducible apply postWord_keeps
    | with_reducible apply microFault_keeps | with_reducible apply nextWord_keeps | with_reducible apply emit_keeps
    | with_reducible apply keeps_ite | with_reducible apply goes_ite | with_reducible apply goes_next
    | exact goes_fault | with_reducible apply keeps_getD
    | (have x := trivial; extract_lets +onlyGivenNames x; (fail_if_success have y : True := x); first | (refine goes_step x ?_ (fun hx => ?_); focus dsimp -zeta only [x]; rotate_left; clear_value x; rotate_right) | (refine keeps_step x ?_ (fun hx => ?_); focus dsimp -zeta only [x]; rotate_left; clear_value x; rotate_right) | skip)
    | split

theorem execDrop_goes {o x0 x1 x2} (h0 : Keeps o x2) : Goes o (execDrop x0 x1 x2) := by
  unfold execDrop
  repeat' first
    | with_reducible assumption | (intro) | with_reducible apply ladderPost_goes
    | with_reducible apply dropPost_keeps | with_reducible apply goes_next

theorem execStep_goes {o x0 x1 x2} (h0 : Keeps o x2) : Goes o (execStep x0 x1 x2) := by
  unfold execStep
  repeat' first
    | with_reducible assumption | (intro) | with_reducible apply ladderPost_goes
    | with_reducible apply stepPost_keeps | with_reducible apply goes_next

theorem execSlot_goes {o x0 x1 x2} (h0 : Keeps o x2) : Goes o (execSlot x0 x1 x2) := by
  unfold execSlot
  repeat' first
    | with_reducible assumption | (intro) | with_reducible apply ladderPost_goes
    | with_reducible apply slotPost_keeps | with_reducible apply goes_next

theorem spoilWords_keeps {o x0 x1 x2 x3} (h0 : Keeps o x0) : Keeps o (spoilWords x0 x1 x2 x3) := by
  unfold spoilWords
  repeat' first
    | simp -zeta only [↓keeps_mk, id_eq] | with_reducible assumption | (intro) | with_reducible apply modEng_keeps
    | with_reducible apply keeps_foldl
    | (have x := trivial; extract_lets +onlyGivenNames x; (fail_if_success have y : True := x); first | (refine keeps_step x ?_ (fun hx => ?_); focus dsimp -zeta only [x]; rotate_left; clear_value x; rotate_right) | skip)

theorem dispatchBad_keeps {o x0 x1} (h0 : Keeps o x0) : Keeps o (dispatchBad x0 x1) := by
  unfold dispatchBad
  repeat' first
    | with_reducible assumption | with_reducible apply spoilWords_keeps | with_reducible apply keeps_ite
    | (have x := trivial; extract_lets +onlyGivenNames x; (fail_if_success have y : True := x); first | (refine keeps_step x ?_ (fun hx => ?_); focus dsimp -zeta only [x]; rotate_left; clear_value x; rotate_right) | skip)

theorem tileStoreBad_keeps {o x0 x1 x2} (h0 : Keeps o x0) : Keeps o (tileStoreBad x0 x1 x2) := by
  unfold tileStoreBad
  refine keeps_foldl_snd (fun r k hr => ?_) h0
  dsimp only
  split
  · exact hr
  · split
    · exact spoilWords_keeps hr
    · exact hr

theorem hubSramBad_keeps {o x0 x1} (h0 : Keeps o x0) : Keeps o (hubSramBad x0 x1) := by
  unfold hubSramBad
  repeat' first
    | with_reducible assumption | with_reducible apply startReset_keeps | with_reducible apply completeCmd_keeps
    | with_reducible apply keeps_ite

theorem historyBad_keeps {o x0 x1 x2} (h0 : Keeps o x0) : Keeps o (historyBad x0 x1 x2) := by
  unfold historyBad
  repeat' first
    | simp -zeta only [↓keeps_mk, id_eq] | with_reducible assumption | (intro) | with_reducible apply bump_keeps
    | with_reducible apply modLane_keeps | with_reducible apply keeps_ite
    | (have x := trivial; extract_lets +onlyGivenNames x; (fail_if_success have y : True := x); first | (refine keeps_step x ?_ (fun hx => ?_); focus dsimp -zeta only [x]; rotate_left; clear_value x; rotate_right) | (have _ : State → State := x; dsimp -zeta only [x]) | (have _ : Nat → State → State := x; dsimp -zeta only [x]) | (have _ : State → Nat → State := x; dsimp -zeta only [x]) | skip)

theorem poolBad_keeps {o x0 x1 x2} (h0 : Keeps o x0) : Keeps o (poolBad x0 x1 x2) := by
  unfold poolBad
  repeat' first
    | simp -zeta only [↓keeps_mk, id_eq] | with_reducible assumption | (intro) | with_reducible apply modDet_keeps
    | with_reducible apply keeps_ite
    | (have x := trivial; extract_lets +onlyGivenNames x; (fail_if_success have y : True := x); first | (refine keeps_step x ?_ (fun hx => ?_); focus dsimp -zeta only [x]; rotate_left; clear_value x; rotate_right) | skip)

theorem queueBad_keeps {o x0 x1 x2} (h0 : Keeps o x0) : Keeps o (queueBad x0 x1 x2) := by
  unfold queueBad
  repeat' first
    | simp -zeta only [↓keeps_mk, id_eq] | with_reducible assumption | (intro) | with_reducible apply modDet_keeps
    | with_reducible apply finishWrite_keeps | with_reducible apply modWrQ_keeps | with_reducible apply keeps_ite
    | with_reducible apply keeps_getD
    | (have x := trivial; extract_lets +onlyGivenNames x; (fail_if_success have y : True := x); first | (refine keeps_step x ?_ (fun hx => ?_); focus dsimp -zeta only [x]; rotate_left; clear_value x; rotate_right) | skip)
    | split

theorem recordBad_keeps {o x0 x1} (h0 : Keeps o x0) : Keeps o (recordBad x0 x1) := by
  unfold recordBad
  repeat' first
    | simp -zeta only [↓keeps_mk, id_eq] | with_reducible assumption | (intro) | with_reducible apply setB_keeps
    | with_reducible apply keeps_ite
    | (have x := trivial; extract_lets +onlyGivenNames x; (fail_if_success have y : True := x); first | (refine keeps_step x ?_ (fun hx => ?_); focus dsimp -zeta only [x]; rotate_left; clear_value x; rotate_right) | skip)
    | split

theorem storeBad_keeps {o x0 x1} (h0 : Keeps o x0) : Keeps o (storeBad x0 x1) := by
  unfold storeBad
  repeat' first
    | with_reducible assumption | (intro) | with_reducible apply hbmBad_keeps
    | with_reducible apply pageWritten_keeps | with_reducible apply slotErase_keeps
    | with_reducible apply dispatchBad_keeps | with_reducible apply hubSramBad_keeps
    | with_reducible apply recordBad_keeps | with_reducible apply historyBad_keeps
    | with_reducible apply poolBad_keeps | with_reducible apply dropCtx_keeps
    | with_reducible apply tileStoreBad_keeps | with_reducible apply queueBad_keeps
    | with_reducible apply keeps_ite | with_reducible apply keeps_foldl
    | (have x := trivial; extract_lets +onlyGivenNames x; (fail_if_success have y : True := x); first | (refine keeps_step x ?_ (fun hx => ?_); focus dsimp -zeta only [x]; rotate_left; clear_value x; rotate_right) | skip)

theorem storeRead_keeps {o x0 x1} (h0 : Keeps o x0) : Keeps o (storeRead x0 x1) := by
  unfold storeRead
  repeat' first
    | with_reducible assumption | with_reducible apply noteScrub_keeps | with_reducible apply eccCount_keeps
    | with_reducible apply storeBad_keeps | with_reducible apply keeps_ite
    | (have x := trivial; extract_lets +onlyGivenNames x; (fail_if_success have y : True := x); first | (refine keeps_step x ?_ (fun hx => ?_); focus dsimp -zeta only [x]; rotate_left; clear_value x; rotate_right) | skip)

theorem storeReads_keeps {o x0 x1} (h0 : Keeps o x0) : Keeps o (storeReads x0 x1) := by
  unfold storeReads
  repeat' first
    | with_reducible assumption | (intro) | with_reducible apply storeRead_keeps | with_reducible apply keeps_foldl

theorem execRead_goes {o x0 x1 x2 x3} (h0 : Keeps o x3) : Goes o (execRead x0 x1 x2 x3) := by
  unfold execRead
  repeat' first
    | with_reducible assumption | with_reducible apply onCmd_goes | with_reducible apply readTurn_keeps
    | with_reducible apply tagUnits_keeps | with_reducible apply goes_next

theorem execSectorLanding_goes {o x0 x1 x2} (h0 : Keeps o x2) : Goes o (execSectorLanding x0 x1 x2) := by
  unfold execSectorLanding
  repeat' first
    | with_reducible assumption | with_reducible apply sectorLanding_keeps | with_reducible apply storeReads_keeps
    | with_reducible apply goes_next

theorem sendRead_keeps {o x0 x1 x2 x3} (h0 : Keeps o x0) : Keeps o (sendRead x0 x1 x2 x3) := by
  unfold sendRead
  repeat' first
    | simp -zeta only [↓keeps_mk, id_eq] | with_reducible assumption | (intro)
    | with_reducible apply rdmaDataSend_keeps | with_reducible apply storeReads_keeps
    | with_reducible apply dropRead_keeps | with_reducible apply readProgress_keeps
    | with_reducible apply setCmd_keeps | with_reducible apply keeps_ite
    | (have x := trivial; extract_lets +onlyGivenNames x; (fail_if_success have y : True := x); first | (refine keeps_step x ?_ (fun hx => ?_); focus dsimp -zeta only [x]; rotate_left; clear_value x; rotate_right) | skip)
    | split

theorem execRdmaDataSend_goes {o x0 x1 x2 x3} (h0 : Keeps o x3) : Goes o (execRdmaDataSend x0 x1 x2 x3) := by
  unfold execRdmaDataSend
  repeat' first
    | with_reducible assumption | with_reducible apply sendRead_keeps | with_reducible apply goes_next

theorem execCleanerIssue_goes {o x0 x1} (h0 : Keeps o x1) : Goes o (execCleanerIssue x0 x1) := by
  unfold execCleanerIssue
  repeat' first
    | with_reducible assumption | with_reducible apply cleanerIssue_keeps | with_reducible apply storeReads_keeps
    | with_reducible apply goes_next

theorem execWoodpeckerBurst_goes {o x0 x1 x2 x3 x4 x5} (h0 : Keeps o x5) :
    Goes o (execWoodpeckerBurst x0 x1 x2 x3 x4 x5) := by
  unfold execWoodpeckerBurst
  repeat' first
    | with_reducible assumption | with_reducible apply woodpecker_keeps | with_reducible apply goes_next

theorem setTap_keeps {o x0 x1 x2 x3} (h0 : Keeps o x0) : Keeps o (setTap x0 x1 x2 x3) := by
  unfold setTap
  repeat' first
    | simp -zeta only [↓keeps_mk, id_eq] | with_reducible assumption
    | (have x := trivial; extract_lets +onlyGivenNames x; (fail_if_success have y : True := x); first | (refine keeps_step x ?_ (fun hx => ?_); focus dsimp -zeta only [x]; rotate_left; clear_value x; rotate_right) | skip)

theorem tapScan_keeps {o x0 x1 x2 x3} (h0 : Keeps o x0) : Keeps o (tapScan x0 x1 x2 x3) := by
  unfold tapScan
  repeat' first
    | simp -zeta only [↓keeps_mk, id_eq] | with_reducible assumption | (intro)
    | with_reducible apply emit_keeps
    | with_reducible apply setTap_keeps
    | (have x := trivial; extract_lets +onlyGivenNames x; (fail_if_success have y : True := x); first | (refine keeps_step x ?_ (fun hx => ?_); focus dsimp -zeta only [x]; rotate_left; clear_value x; rotate_right) | skip)

theorem tapBypass_keeps {o x0} (h0 : Keeps o x0) : Keeps o (tapBypass x0) := by
  unfold tapBypass
  repeat' first
    | with_reducible assumption | with_reducible apply emit_keeps | with_reducible apply tapScan_keeps

theorem tapInReset_keeps {o x0 x1} (h0 : Keeps o x0) (h1 : Keeps o x1) : Keeps o (tapInReset x0 x1) := by
  unfold tapInReset
  repeat' first
    | with_reducible assumption | with_reducible apply tapBypass_keeps | with_reducible apply keeps_ite

theorem execTapReset_goes {o x0} (h0 : Keeps o x0) : Goes o (execTapReset x0) := by
  unfold execTapReset
  repeat' first
    | with_reducible assumption | with_reducible apply setTap_keeps | with_reducible apply goes_next

theorem execExtest_goes {o x0} (h0 : Keeps o x0) : Goes o (execExtest x0) := by
  unfold execExtest
  repeat' first
    | with_reducible assumption | with_reducible apply tapInReset_keeps | with_reducible apply tapScan_keeps
    | with_reducible apply goes_next

theorem execSamplePreload_goes {o x0 x1 x2} (h0 : Keeps o x2) : Goes o (execSamplePreload x0 x1 x2) := by
  unfold execSamplePreload
  repeat' first
    | simp -zeta only [↓keeps_mk, id_eq] | with_reducible assumption | with_reducible apply emit_keeps
    | with_reducible apply tapScan_keeps | with_reducible apply goes_next
    | (have x := trivial; extract_lets +onlyGivenNames x; (fail_if_success have y : True := x); first | (refine goes_step x ?_ (fun hx => ?_); focus dsimp -zeta only [x]; rotate_left; clear_value x; rotate_right) | (refine keeps_step x ?_ (fun hx => ?_); focus dsimp -zeta only [x]; rotate_left; clear_value x; rotate_right) | skip)

theorem execIdcode_goes {o x0} (h0 : Keeps o x0) : Goes o (execIdcode x0) := by
  unfold execIdcode
  repeat' first
    | with_reducible assumption | (intro) | with_reducible apply emit_keeps | with_reducible apply tapScan_keeps
    | with_reducible apply goes_next

theorem execHighz_goes {o x0} (h0 : Keeps o x0) : Goes o (execHighz x0) := by
  unfold execHighz
  repeat' first
    | with_reducible assumption | with_reducible apply tapInReset_keeps | with_reducible apply emit_keeps
    | with_reducible apply tapScan_keeps | with_reducible apply goes_next

theorem execClamp_goes {o x0} (h0 : Keeps o x0) : Goes o (execClamp x0) := by
  unfold execClamp
  repeat' first
    | with_reducible assumption | with_reducible apply tapInReset_keeps | with_reducible apply emit_keeps
    | with_reducible apply tapScan_keeps | with_reducible apply goes_next

theorem execBypass_goes {o x0 x1} (h0 : Keeps o x1) : Goes o (execBypass x0 x1) := by
  unfold execBypass
  repeat' first
    | with_reducible assumption | with_reducible apply onOk_goes | with_reducible apply tapBypass_keeps
    | with_reducible apply keeps_ite | with_reducible apply goes_ite | with_reducible apply goes_next

theorem coefStep_keeps {o x0 x1 x2} (h0 : Keeps o x0) : Keeps o (coefStep x0 x1 x2) := by
  unfold coefStep
  repeat' first
    | simp -zeta only [↓keeps_mk, id_eq] | with_reducible assumption | (intro)
    | with_reducible apply modCtl_keeps
    | with_reducible apply setB_keeps
    | with_reducible apply setReg_keeps
    | with_reducible apply keeps_foldl
    | with_reducible apply keeps_ite
    | (have x := trivial; extract_lets +onlyGivenNames x; (fail_if_success have y : True := x); first | (refine keeps_step x ?_ (fun hx => ?_); focus dsimp -zeta only [x]; rotate_left; clear_value x; rotate_right) | skip)
    | split

theorem coefSteps_keeps {o x0} (h0 : Keeps o x0) : Keeps o (coefSteps x0) :=
  keeps_foldl (fun _ _ h => coefStep_keeps h) h0

theorem tickTimer_keeps {o x0 x1} (h0 : Keeps o x0) : Keeps o (tickTimer x0 x1) := by
  unfold tickTimer
  repeat' first
    | with_reducible assumption | with_reducible apply setReg_keeps | with_reducible apply irqEvent_keeps
    | with_reducible apply keeps_ite
    | (have x := trivial; extract_lets +onlyGivenNames x; (fail_if_success have y : True := x); first | (refine keeps_step x ?_ (fun hx => ?_); focus dsimp -zeta only [x]; rotate_left; clear_value x; rotate_right) | clear_value x | skip)
    | split

/-- An idle step lets a microsecond pass and keeps the rest. -/
theorem idle_keeps (s : State) : Keeps { s with now := s.now + us 1 } (idle s) := by
  unfold idle
  refine resetHeads_keeps (settle_keeps (coefSteps_keeps ?_))
  refine keeps_foldl (fun _ _ h => tickTimer_keeps h) ?_
  refine keeps_foldl (fun _ _ h => rxDrain_keeps h) ?_
  split
  · exact ⟨rfl, rfl, rfl, Nat.le_refl _, List.suffix_refl _, fun w => Tab.wf_set _ w⟩
  · exact ⟨rfl, rfl, rfl, Nat.le_refl _, List.suffix_refl _, id⟩

end Sys2Proof.Machine
end

