-- ==== Sys2Proof/Laws/Notices.lean ====
section
/-! SUPPORT. What raising an interrupt source and posting a record can change: the controllers' registers and
targets, the recorder's queue and what has been emitted, nothing else. -/

namespace Sys2Proof.Machine

variable {s t u : State}

theorem onlyNotices_refl (s : State) : onlyNotices s s := ⟨rfl, List.suffix_refl _, fun _ _ _ => rfl⟩

theorem onlyNotices_trans (h : onlyNotices s t) (k : onlyNotices t u) : onlyNotices s u := by
  refine ⟨?_, h.2.1.trans k.2.1, fun a x y => (k.2.2 a x y).trans (h.2.2 a x y)⟩
  rw [k.1, h.1]

/-- A change of the controllers' targets. -/
theorem onlyNotices_irq (s : State) (x : Irq) : onlyNotices s { s with irq := x } :=
  ⟨rfl, List.suffix_refl _, fun _ _ _ => rfl⟩

theorem onlyNotices_setTarget (ic n x) : onlyNotices s (s.setTarget ic n x) := onlyNotices_irq s _

theorem onlyNotices_emit (o) : onlyNotices s (s.emit o) := ⟨rfl, List.suffix_cons _ _, fun _ _ _ => rfl⟩

theorem onlyNotices_setReg {a : Nat} {w : Word} (h : noticeReg a = true) : onlyNotices s (s.setReg a w) := by
  refine ⟨rfl, List.suffix_refl _, fun b _ y => State.setReg_reg_ne _ _ ?_⟩
  intro e
  subst e
  simp [h] at y

theorem onlyNotices_ite {c : Prop} [Decidable c] (h : c → onlyNotices s t) (k : ¬c → onlyNotices s u) :
    onlyNotices s (if c then t else u) := by
  split
  · exact h ‹_›
  · exact k ‹_›

theorem noticeReg_aIrq {ic o : Nat} (h : o < 0x10000) : noticeReg (aIrq ic o) = true := by
  unfold noticeReg irqSpace aIrq tileBase
  simp
  split <;> omega

/-! ### Interrupt controllers -/

theorem irqEval_notices (ic n) : onlyNotices s (irqEval s ic n) := by
  unfold irqEval
  extract_lets
  split
  · exact onlyNotices_setTarget _ _ _
  · exact onlyNotices_trans (onlyNotices_setTarget _ _ _) (onlyNotices_emit _)

theorem countEvent_notices (ic n id) : onlyNotices s (countEvent s ic n id) := by
  unfold countEvent
  split
  · exact onlyNotices_setTarget _ _ _
  · exact onlyNotices_refl s

theorem setIrqBit_notices {base id : Nat} {b : Bool} (ic) (h : id ≤ 0x2FF) (k : base ≤ 0x180) :
    onlyNotices s (setIrqBit s ic base id b) := by
  unfold setIrqBit
  exact onlyNotices_setReg (noticeReg_aIrq (by omega))

theorem irqEvent_notices (ic n id) : onlyNotices s (irqEvent s ic n id) := by
  unfold irqEvent
  by_cases r : srcReal s ic n id = true
  case neg => simp [r]; exact onlyNotices_refl s
  have b : id ≤ 0x2FF := by
    simp [srcReal] at r
    omega
  simp only [r, Bool.not_true, Bool.false_eq_true, if_false]
  refine onlyNotices_ite (fun _ => onlyNotices_ite (fun _ => onlyNotices_irq s _) fun _ => onlyNotices_refl s) fun _ => ?_
  refine onlyNotices_ite (fun _ => onlyNotices_refl s) fun _ => ?_
  refine onlyNotices_ite (fun _ => ?_) fun _ => ?_
  · refine onlyNotices_ite (fun _ => onlyNotices_ite (fun _ => onlyNotices_refl s) fun _ => ?_) fun _ => ?_
    · refine onlyNotices_trans (onlyNotices_trans (t := setIrqBit s ic 384 id true) (setIrqBit_notices ic b (by omega)) ?_)
        (onlyNotices_trans (countEvent_notices _ _ _) (irqEval_notices _ _))
      exact onlyNotices_ite (fun _ => onlyNotices_refl _) fun _ => setIrqBit_notices ic b (by omega)
    · exact onlyNotices_trans (setIrqBit_notices ic b (by omega))
        (onlyNotices_trans (countEvent_notices _ _ _) (irqEval_notices _ _))
  · refine onlyNotices_ite (fun _ => onlyNotices_ite (fun _ => onlyNotices_refl s) fun _ => ?_) fun _ => ?_ <;>
    exact onlyNotices_trans (onlyNotices_setTarget _ _ _)
        (onlyNotices_trans (countEvent_notices _ _ _) (irqEval_notices _ _))

theorem fallen_notices {id : Nat} (ic n) (b : id ≤ 0x2FF) :
    onlyNotices s (if isShared id then
        irqEval (setIrqBit (setIrqBit s ic 0x180 id false) ic 0x100 id false) ic (srcTarget s ic n id)
      else irqEval (s.setTarget ic n { s.target ic n with level := (s.target ic n).level.filter fun i => i ≠ id }) ic n) := by
  split
  · exact onlyNotices_trans (onlyNotices_trans (setIrqBit_notices ic b (Nat.le_refl 0x180))
      (setIrqBit_notices ic b (by omega))) (irqEval_notices _ _)
  · exact onlyNotices_trans (onlyNotices_setTarget _ _ _) (irqEval_notices _ _)

theorem irqFall_notices (ic n id w) : onlyNotices s (irqFall s ic n id w) := by
  unfold irqFall
  refine onlyNotices_ite (fun _ => onlyNotices_refl s) fun r => ?_
  have b : id ≤ 0x2FF := by
    simp [srcReal] at r
    omega
  exact onlyNotices_trans (onlyNotices_irq s _) (fallen_notices ic n b)

theorem irqEdge_notices (ic i) : onlyNotices s (irqEdge s ic i) := irqEvent_notices _ _ _
theorem tileEdge_notices (t' i) : onlyNotices s (tileEdge s t' i) := irqEvent_notices _ _ _

theorem irqLevel_notices (ic i on w) : onlyNotices s (irqLevel s ic i on w) := by
  unfold irqLevel
  exact onlyNotices_ite (fun _ => onlyNotices_refl s) fun _ =>
    onlyNotices_ite (fun _ => irqEvent_notices _ _ _) fun _ => irqFall_notices _ _ _ _

/-! ### The recorder's input -/

theorem onlyNotices_owl (s : State) (x : Owl) : onlyNotices s { s with owl := x } :=
  ⟨rfl, List.suffix_refl _, fun _ _ _ => rfl⟩

theorem owlLoseN_notices (d k) : onlyNotices s (owlLoseN s d k) := by
  refine onlyNotices_trans (onlyNotices_owl s _) (onlyNotices_setReg ?_)
  simp [noticeReg]

theorem owlLose_notices (d) : onlyNotices s (owlLose s d) := owlLoseN_notices d 1

theorem owlArrive_notices (e) : onlyNotices s (owlArrive s e) :=
  onlyNotices_ite (fun _ => onlyNotices_owl s _) fun _ => owlLose_notices _

theorem owlPost_notices (code die unit st cause d0 d1) : onlyNotices s (owlPost s code die unit st cause d0 d1) :=
  onlyNotices_ite (fun _ => owlArrive_notices _) fun _ =>
    onlyNotices_ite (fun _ => onlyNotices_owl s _) fun _ => onlyNotices_owl s _

theorem owlHub_notices (code index st cause d0 d1) : onlyNotices s (owlHub s code index st cause d0 d1) :=
  owlPost_notices _ _ _ _ _ _ _
theorem owlTile_notices (t' code unit st cause d0 d1) : onlyNotices s (owlTile s t' code unit st cause d0 d1) :=
  owlPost_notices _ _ _ _ _ _ _
theorem owlCluster_notices (t' c code cause d0 d1) : onlyNotices s (owlCluster s t' c code cause d0 d1) :=
  owlPost_notices _ _ _ _ _ _ _
theorem owlHead_notices (t' c h code cause d0 d1) : onlyNotices s (owlHead s t' c h code cause d0 d1) :=
  owlPost_notices _ _ _ _ _ _ _

/-! ### Field by field -/

@[simp] theorem irqEvent_part (ic n id) : (irqEvent s ic n id).part = s.part := by rw [(irqEvent_notices _ _ _).1]
@[simp] theorem irqEvent_now (ic n id) : (irqEvent s ic n id).now = s.now := by rw [(irqEvent_notices _ _ _).1]
@[simp] theorem irqEvent_free (ic n id) : (irqEvent s ic n id).free = s.free := by rw [(irqEvent_notices _ _ _).1]
@[simp] theorem irqEvent_pending (ic n id) : (irqEvent s ic n id).pending = s.pending := by rw [(irqEvent_notices _ _ _).1]
@[simp] theorem irqEvent_mgmt (ic n id) : (irqEvent s ic n id).mgmt = s.mgmt := by rw [(irqEvent_notices _ _ _).1]
@[simp] theorem irqEvent_flash (ic n id) : (irqEvent s ic n id).flash = s.flash := by rw [(irqEvent_notices _ _ _).1]
@[simp] theorem irqEvent_power (ic n id) : (irqEvent s ic n id).power = s.power := by rw [(irqEvent_notices _ _ _).1]
@[simp] theorem irqEvent_tap (ic n id) : (irqEvent s ic n id).tap = s.tap := by rw [(irqEvent_notices _ _ _).1]
@[simp] theorem irqEvent_ports (ic n id) : (irqEvent s ic n id).ports = s.ports := by rw [(irqEvent_notices _ _ _).1]
@[simp] theorem irqEvent_nq (ic n id) : (irqEvent s ic n id).nq = s.nq := by rw [(irqEvent_notices _ _ _).1]
@[simp] theorem irqEvent_buf (ic n id) : (irqEvent s ic n id).buf = s.buf := by rw [(irqEvent_notices _ _ _).1]
@[simp] theorem irqEvent_memp (ic n id) : (irqEvent s ic n id).memp = s.memp := by rw [(irqEvent_notices _ _ _).1]
@[simp] theorem irqEvent_slots (ic n id) : (irqEvent s ic n id).slots = s.slots := by rw [(irqEvent_notices _ _ _).1]
@[simp] theorem irqEvent_tl (ic n id) : (irqEvent s ic n id).tl = s.tl := by rw [(irqEvent_notices _ _ _).1]
theorem irqEvent_reg (ic n id) {a : Nat} (k : noticeReg a = false) : (irqEvent s ic n id).reg a = s.reg a :=
  (irqEvent_notices _ _ _).2.2 a (by simp) k

@[simp] theorem irqFall_part (ic n id w) : (irqFall s ic n id w).part = s.part := by rw [(irqFall_notices _ _ _ _).1]
@[simp] theorem irqFall_now (ic n id w) : (irqFall s ic n id w).now = s.now := by rw [(irqFall_notices _ _ _ _).1]
@[simp] theorem irqFall_free (ic n id w) : (irqFall s ic n id w).free = s.free := by rw [(irqFall_notices _ _ _ _).1]
@[simp] theorem irqFall_pending (ic n id w) : (irqFall s ic n id w).pending = s.pending := by rw [(irqFall_notices _ _ _ _).1]
@[simp] theorem irqFall_mgmt (ic n id w) : (irqFall s ic n id w).mgmt = s.mgmt := by rw [(irqFall_notices _ _ _ _).1]
@[simp] theorem irqFall_flash (ic n id w) : (irqFall s ic n id w).flash = s.flash := by rw [(irqFall_notices _ _ _ _).1]
@[simp] theorem irqFall_power (ic n id w) : (irqFall s ic n id w).power = s.power := by rw [(irqFall_notices _ _ _ _).1]
@[simp] theorem irqFall_tap (ic n id w) : (irqFall s ic n id w).tap = s.tap := by rw [(irqFall_notices _ _ _ _).1]
@[simp] theorem irqFall_ports (ic n id w) : (irqFall s ic n id w).ports = s.ports := by rw [(irqFall_notices _ _ _ _).1]
@[simp] theorem irqFall_nq (ic n id w) : (irqFall s ic n id w).nq = s.nq := by rw [(irqFall_notices _ _ _ _).1]
@[simp] theorem irqFall_buf (ic n id w) : (irqFall s ic n id w).buf = s.buf := by rw [(irqFall_notices _ _ _ _).1]
@[simp] theorem irqFall_memp (ic n id w) : (irqFall s ic n id w).memp = s.memp := by rw [(irqFall_notices _ _ _ _).1]
@[simp] theorem irqFall_slots (ic n id w) : (irqFall s ic n id w).slots = s.slots := by rw [(irqFall_notices _ _ _ _).1]
@[simp] theorem irqFall_tl (ic n id w) : (irqFall s ic n id w).tl = s.tl := by rw [(irqFall_notices _ _ _ _).1]
theorem irqFall_reg (ic n id w) {a : Nat} (k : noticeReg a = false) : (irqFall s ic n id w).reg a = s.reg a :=
  (irqFall_notices _ _ _ _).2.2 a (by simp) k

@[simp] theorem irqEdge_part (ic i) : (irqEdge s ic i).part = s.part := by rw [(irqEdge_notices _ _).1]
@[simp] theorem irqEdge_now (ic i) : (irqEdge s ic i).now = s.now := by rw [(irqEdge_notices _ _).1]
@[simp] theorem irqEdge_free (ic i) : (irqEdge s ic i).free = s.free := by rw [(irqEdge_notices _ _).1]
@[simp] theorem irqEdge_pending (ic i) : (irqEdge s ic i).pending = s.pending := by rw [(irqEdge_notices _ _).1]
@[simp] theorem irqEdge_mgmt (ic i) : (irqEdge s ic i).mgmt = s.mgmt := by rw [(irqEdge_notices _ _).1]
@[simp] theorem irqEdge_flash (ic i) : (irqEdge s ic i).flash = s.flash := by rw [(irqEdge_notices _ _).1]
@[simp] theorem irqEdge_power (ic i) : (irqEdge s ic i).power = s.power := by rw [(irqEdge_notices _ _).1]
@[simp] theorem irqEdge_tap (ic i) : (irqEdge s ic i).tap = s.tap := by rw [(irqEdge_notices _ _).1]
@[simp] theorem irqEdge_ports (ic i) : (irqEdge s ic i).ports = s.ports := by rw [(irqEdge_notices _ _).1]
@[simp] theorem irqEdge_nq (ic i) : (irqEdge s ic i).nq = s.nq := by rw [(irqEdge_notices _ _).1]
@[simp] theorem irqEdge_buf (ic i) : (irqEdge s ic i).buf = s.buf := by rw [(irqEdge_notices _ _).1]
@[simp] theorem irqEdge_memp (ic i) : (irqEdge s ic i).memp = s.memp := by rw [(irqEdge_notices _ _).1]
@[simp] theorem irqEdge_slots (ic i) : (irqEdge s ic i).slots = s.slots := by rw [(irqEdge_notices _ _).1]
@[simp] theorem irqEdge_tl (ic i) : (irqEdge s ic i).tl = s.tl := by rw [(irqEdge_notices _ _).1]
theorem irqEdge_reg (ic i) {a : Nat} (k : noticeReg a = false) : (irqEdge s ic i).reg a = s.reg a :=
  (irqEdge_notices _ _).2.2 a (by simp) k

@[simp] theorem tileEdge_part (t' i) : (tileEdge s t' i).part = s.part := by rw [(tileEdge_notices _ _).1]
@[simp] theorem tileEdge_now (t' i) : (tileEdge s t' i).now = s.now := by rw [(tileEdge_notices _ _).1]
@[simp] theorem tileEdge_free (t' i) : (tileEdge s t' i).free = s.free := by rw [(tileEdge_notices _ _).1]
@[simp] theorem tileEdge_pending (t' i) : (tileEdge s t' i).pending = s.pending := by rw [(tileEdge_notices _ _).1]
@[simp] theorem tileEdge_mgmt (t' i) : (tileEdge s t' i).mgmt = s.mgmt := by rw [(tileEdge_notices _ _).1]
@[simp] theorem tileEdge_flash (t' i) : (tileEdge s t' i).flash = s.flash := by rw [(tileEdge_notices _ _).1]
@[simp] theorem tileEdge_power (t' i) : (tileEdge s t' i).power = s.power := by rw [(tileEdge_notices _ _).1]
@[simp] theorem tileEdge_tap (t' i) : (tileEdge s t' i).tap = s.tap := by rw [(tileEdge_notices _ _).1]
@[simp] theorem tileEdge_ports (t' i) : (tileEdge s t' i).ports = s.ports := by rw [(tileEdge_notices _ _).1]
@[simp] theorem tileEdge_nq (t' i) : (tileEdge s t' i).nq = s.nq := by rw [(tileEdge_notices _ _).1]
@[simp] theorem tileEdge_buf (t' i) : (tileEdge s t' i).buf = s.buf := by rw [(tileEdge_notices _ _).1]
@[simp] theorem tileEdge_memp (t' i) : (tileEdge s t' i).memp = s.memp := by rw [(tileEdge_notices _ _).1]
@[simp] theorem tileEdge_slots (t' i) : (tileEdge s t' i).slots = s.slots := by rw [(tileEdge_notices _ _).1]
@[simp] theorem tileEdge_tl (t' i) : (tileEdge s t' i).tl = s.tl := by rw [(tileEdge_notices _ _).1]
theorem tileEdge_reg (t' i) {a : Nat} (k : noticeReg a = false) : (tileEdge s t' i).reg a = s.reg a :=
  (tileEdge_notices _ _).2.2 a (by simp) k

@[simp] theorem irqLevel_part (ic i on w) : (irqLevel s ic i on w).part = s.part := by rw [(irqLevel_notices _ _ _ _).1]
@[simp] theorem irqLevel_now (ic i on w) : (irqLevel s ic i on w).now = s.now := by rw [(irqLevel_notices _ _ _ _).1]
@[simp] theorem irqLevel_free (ic i on w) : (irqLevel s ic i on w).free = s.free := by rw [(irqLevel_notices _ _ _ _).1]
@[simp] theorem irqLevel_pending (ic i on w) : (irqLevel s ic i on w).pending = s.pending := by rw [(irqLevel_notices _ _ _ _).1]
@[simp] theorem irqLevel_mgmt (ic i on w) : (irqLevel s ic i on w).mgmt = s.mgmt := by rw [(irqLevel_notices _ _ _ _).1]
@[simp] theorem irqLevel_flash (ic i on w) : (irqLevel s ic i on w).flash = s.flash := by rw [(irqLevel_notices _ _ _ _).1]
@[simp] theorem irqLevel_power (ic i on w) : (irqLevel s ic i on w).power = s.power := by rw [(irqLevel_notices _ _ _ _).1]
@[simp] theorem irqLevel_tap (ic i on w) : (irqLevel s ic i on w).tap = s.tap := by rw [(irqLevel_notices _ _ _ _).1]
@[simp] theorem irqLevel_ports (ic i on w) : (irqLevel s ic i on w).ports = s.ports := by rw [(irqLevel_notices _ _ _ _).1]
@[simp] theorem irqLevel_nq (ic i on w) : (irqLevel s ic i on w).nq = s.nq := by rw [(irqLevel_notices _ _ _ _).1]
@[simp] theorem irqLevel_buf (ic i on w) : (irqLevel s ic i on w).buf = s.buf := by rw [(irqLevel_notices _ _ _ _).1]
@[simp] theorem irqLevel_memp (ic i on w) : (irqLevel s ic i on w).memp = s.memp := by rw [(irqLevel_notices _ _ _ _).1]
@[simp] theorem irqLevel_slots (ic i on w) : (irqLevel s ic i on w).slots = s.slots := by rw [(irqLevel_notices _ _ _ _).1]
@[simp] theorem irqLevel_tl (ic i on w) : (irqLevel s ic i on w).tl = s.tl := by rw [(irqLevel_notices _ _ _ _).1]
theorem irqLevel_reg (ic i on w) {a : Nat} (k : noticeReg a = false) : (irqLevel s ic i on w).reg a = s.reg a :=
  (irqLevel_notices _ _ _ _).2.2 a (by simp) k

@[simp] theorem owlPost_part (code die unit st cause d0 d1) : (owlPost s code die unit st cause d0 d1).part = s.part := by rw [(owlPost_notices _ _ _ _ _ _ _).1]
@[simp] theorem owlPost_now (code die unit st cause d0 d1) : (owlPost s code die unit st cause d0 d1).now = s.now := by rw [(owlPost_notices _ _ _ _ _ _ _).1]
@[simp] theorem owlPost_free (code die unit st cause d0 d1) : (owlPost s code die unit st cause d0 d1).free = s.free := by rw [(owlPost_notices _ _ _ _ _ _ _).1]
@[simp] theorem owlPost_pending (code die unit st cause d0 d1) : (owlPost s code die unit st cause d0 d1).pending = s.pending := by rw [(owlPost_notices _ _ _ _ _ _ _).1]
@[simp] theorem owlPost_mgmt (code die unit st cause d0 d1) : (owlPost s code die unit st cause d0 d1).mgmt = s.mgmt := by rw [(owlPost_notices _ _ _ _ _ _ _).1]
@[simp] theorem owlPost_flash (code die unit st cause d0 d1) : (owlPost s code die unit st cause d0 d1).flash = s.flash := by rw [(owlPost_notices _ _ _ _ _ _ _).1]
@[simp] theorem owlPost_power (code die unit st cause d0 d1) : (owlPost s code die unit st cause d0 d1).power = s.power := by rw [(owlPost_notices _ _ _ _ _ _ _).1]
@[simp] theorem owlPost_tap (code die unit st cause d0 d1) : (owlPost s code die unit st cause d0 d1).tap = s.tap := by rw [(owlPost_notices _ _ _ _ _ _ _).1]
@[simp] theorem owlPost_ports (code die unit st cause d0 d1) : (owlPost s code die unit st cause d0 d1).ports = s.ports := by rw [(owlPost_notices _ _ _ _ _ _ _).1]
@[simp] theorem owlPost_nq (code die unit st cause d0 d1) : (owlPost s code die unit st cause d0 d1).nq = s.nq := by rw [(owlPost_notices _ _ _ _ _ _ _).1]
@[simp] theorem owlPost_buf (code die unit st cause d0 d1) : (owlPost s code die unit st cause d0 d1).buf = s.buf := by rw [(owlPost_notices _ _ _ _ _ _ _).1]
@[simp] theorem owlPost_memp (code die unit st cause d0 d1) : (owlPost s code die unit st cause d0 d1).memp = s.memp := by rw [(owlPost_notices _ _ _ _ _ _ _).1]
@[simp] theorem owlPost_slots (code die unit st cause d0 d1) : (owlPost s code die unit st cause d0 d1).slots = s.slots := by rw [(owlPost_notices _ _ _ _ _ _ _).1]
@[simp] theorem owlPost_tl (code die unit st cause d0 d1) : (owlPost s code die unit st cause d0 d1).tl = s.tl := by rw [(owlPost_notices _ _ _ _ _ _ _).1]
theorem owlPost_reg (code die unit st cause d0 d1) {a : Nat} (k : noticeReg a = false) : (owlPost s code die unit st cause d0 d1).reg a = s.reg a :=
  (owlPost_notices _ _ _ _ _ _ _).2.2 a (by simp) k

@[simp] theorem owlHub_part (code index st cause d0 d1) : (owlHub s code index st cause d0 d1).part = s.part := by rw [(owlHub_notices _ _ _ _ _ _).1]
@[simp] theorem owlHub_now (code index st cause d0 d1) : (owlHub s code index st cause d0 d1).now = s.now := by rw [(owlHub_notices _ _ _ _ _ _).1]
@[simp] theorem owlHub_free (code index st cause d0 d1) : (owlHub s code index st cause d0 d1).free = s.free := by rw [(owlHub_notices _ _ _ _ _ _).1]
@[simp] theorem owlHub_pending (code index st cause d0 d1) : (owlHub s code index st cause d0 d1).pending = s.pending := by rw [(owlHub_notices _ _ _ _ _ _).1]
@[simp] theorem owlHub_mgmt (code index st cause d0 d1) : (owlHub s code index st cause d0 d1).mgmt = s.mgmt := by rw [(owlHub_notices _ _ _ _ _ _).1]
@[simp] theorem owlHub_flash (code index st cause d0 d1) : (owlHub s code index st cause d0 d1).flash = s.flash := by rw [(owlHub_notices _ _ _ _ _ _).1]
@[simp] theorem owlHub_power (code index st cause d0 d1) : (owlHub s code index st cause d0 d1).power = s.power := by rw [(owlHub_notices _ _ _ _ _ _).1]
@[simp] theorem owlHub_tap (code index st cause d0 d1) : (owlHub s code index st cause d0 d1).tap = s.tap := by rw [(owlHub_notices _ _ _ _ _ _).1]
@[simp] theorem owlHub_ports (code index st cause d0 d1) : (owlHub s code index st cause d0 d1).ports = s.ports := by rw [(owlHub_notices _ _ _ _ _ _).1]
@[simp] theorem owlHub_nq (code index st cause d0 d1) : (owlHub s code index st cause d0 d1).nq = s.nq := by rw [(owlHub_notices _ _ _ _ _ _).1]
@[simp] theorem owlHub_buf (code index st cause d0 d1) : (owlHub s code index st cause d0 d1).buf = s.buf := by rw [(owlHub_notices _ _ _ _ _ _).1]
@[simp] theorem owlHub_memp (code index st cause d0 d1) : (owlHub s code index st cause d0 d1).memp = s.memp := by rw [(owlHub_notices _ _ _ _ _ _).1]
@[simp] theorem owlHub_slots (code index st cause d0 d1) : (owlHub s code index st cause d0 d1).slots = s.slots := by rw [(owlHub_notices _ _ _ _ _ _).1]
@[simp] theorem owlHub_tl (code index st cause d0 d1) : (owlHub s code index st cause d0 d1).tl = s.tl := by rw [(owlHub_notices _ _ _ _ _ _).1]
theorem owlHub_reg (code index st cause d0 d1) {a : Nat} (k : noticeReg a = false) : (owlHub s code index st cause d0 d1).reg a = s.reg a :=
  (owlHub_notices _ _ _ _ _ _).2.2 a (by simp) k

@[simp] theorem owlTile_part (t' code unit st cause d0 d1) : (owlTile s t' code unit st cause d0 d1).part = s.part := by rw [(owlTile_notices _ _ _ _ _ _ _).1]
@[simp] theorem owlTile_now (t' code unit st cause d0 d1) : (owlTile s t' code unit st cause d0 d1).now = s.now := by rw [(owlTile_notices _ _ _ _ _ _ _).1]
@[simp] theorem owlTile_free (t' code unit st cause d0 d1) : (owlTile s t' code unit st cause d0 d1).free = s.free := by rw [(owlTile_notices _ _ _ _ _ _ _).1]
@[simp] theorem owlTile_pending (t' code unit st cause d0 d1) : (owlTile s t' code unit st cause d0 d1).pending = s.pending := by rw [(owlTile_notices _ _ _ _ _ _ _).1]
@[simp] theorem owlTile_mgmt (t' code unit st cause d0 d1) : (owlTile s t' code unit st cause d0 d1).mgmt = s.mgmt := by rw [(owlTile_notices _ _ _ _ _ _ _).1]
@[simp] theorem owlTile_flash (t' code unit st cause d0 d1) : (owlTile s t' code unit st cause d0 d1).flash = s.flash := by rw [(owlTile_notices _ _ _ _ _ _ _).1]
@[simp] theorem owlTile_power (t' code unit st cause d0 d1) : (owlTile s t' code unit st cause d0 d1).power = s.power := by rw [(owlTile_notices _ _ _ _ _ _ _).1]
@[simp] theorem owlTile_tap (t' code unit st cause d0 d1) : (owlTile s t' code unit st cause d0 d1).tap = s.tap := by rw [(owlTile_notices _ _ _ _ _ _ _).1]
@[simp] theorem owlTile_ports (t' code unit st cause d0 d1) : (owlTile s t' code unit st cause d0 d1).ports = s.ports := by rw [(owlTile_notices _ _ _ _ _ _ _).1]
@[simp] theorem owlTile_nq (t' code unit st cause d0 d1) : (owlTile s t' code unit st cause d0 d1).nq = s.nq := by rw [(owlTile_notices _ _ _ _ _ _ _).1]
@[simp] theorem owlTile_buf (t' code unit st cause d0 d1) : (owlTile s t' code unit st cause d0 d1).buf = s.buf := by rw [(owlTile_notices _ _ _ _ _ _ _).1]
@[simp] theorem owlTile_memp (t' code unit st cause d0 d1) : (owlTile s t' code unit st cause d0 d1).memp = s.memp := by rw [(owlTile_notices _ _ _ _ _ _ _).1]
@[simp] theorem owlTile_slots (t' code unit st cause d0 d1) : (owlTile s t' code unit st cause d0 d1).slots = s.slots := by rw [(owlTile_notices _ _ _ _ _ _ _).1]
@[simp] theorem owlTile_tl (t' code unit st cause d0 d1) : (owlTile s t' code unit st cause d0 d1).tl = s.tl := by rw [(owlTile_notices _ _ _ _ _ _ _).1]
theorem owlTile_reg (t' code unit st cause d0 d1) {a : Nat} (k : noticeReg a = false) : (owlTile s t' code unit st cause d0 d1).reg a = s.reg a :=
  (owlTile_notices _ _ _ _ _ _ _).2.2 a (by simp) k

@[simp] theorem owlCluster_part (t' c code cause d0 d1) : (owlCluster s t' c code cause d0 d1).part = s.part := by rw [(owlCluster_notices _ _ _ _ _ _).1]
@[simp] theorem owlCluster_now (t' c code cause d0 d1) : (owlCluster s t' c code cause d0 d1).now = s.now := by rw [(owlCluster_notices _ _ _ _ _ _).1]
@[simp] theorem owlCluster_free (t' c code cause d0 d1) : (owlCluster s t' c code cause d0 d1).free = s.free := by rw [(owlCluster_notices _ _ _ _ _ _).1]
@[simp] theorem owlCluster_pending (t' c code cause d0 d1) : (owlCluster s t' c code cause d0 d1).pending = s.pending := by rw [(owlCluster_notices _ _ _ _ _ _).1]
@[simp] theorem owlCluster_mgmt (t' c code cause d0 d1) : (owlCluster s t' c code cause d0 d1).mgmt = s.mgmt := by rw [(owlCluster_notices _ _ _ _ _ _).1]
@[simp] theorem owlCluster_flash (t' c code cause d0 d1) : (owlCluster s t' c code cause d0 d1).flash = s.flash := by rw [(owlCluster_notices _ _ _ _ _ _).1]
@[simp] theorem owlCluster_power (t' c code cause d0 d1) : (owlCluster s t' c code cause d0 d1).power = s.power := by rw [(owlCluster_notices _ _ _ _ _ _).1]
@[simp] theorem owlCluster_tap (t' c code cause d0 d1) : (owlCluster s t' c code cause d0 d1).tap = s.tap := by rw [(owlCluster_notices _ _ _ _ _ _).1]
@[simp] theorem owlCluster_ports (t' c code cause d0 d1) : (owlCluster s t' c code cause d0 d1).ports = s.ports := by rw [(owlCluster_notices _ _ _ _ _ _).1]
@[simp] theorem owlCluster_nq (t' c code cause d0 d1) : (owlCluster s t' c code cause d0 d1).nq = s.nq := by rw [(owlCluster_notices _ _ _ _ _ _).1]
@[simp] theorem owlCluster_buf (t' c code cause d0 d1) : (owlCluster s t' c code cause d0 d1).buf = s.buf := by rw [(owlCluster_notices _ _ _ _ _ _).1]
@[simp] theorem owlCluster_memp (t' c code cause d0 d1) : (owlCluster s t' c code cause d0 d1).memp = s.memp := by rw [(owlCluster_notices _ _ _ _ _ _).1]
@[simp] theorem owlCluster_slots (t' c code cause d0 d1) : (owlCluster s t' c code cause d0 d1).slots = s.slots := by rw [(owlCluster_notices _ _ _ _ _ _).1]
@[simp] theorem owlCluster_tl (t' c code cause d0 d1) : (owlCluster s t' c code cause d0 d1).tl = s.tl := by rw [(owlCluster_notices _ _ _ _ _ _).1]
theorem owlCluster_reg (t' c code cause d0 d1) {a : Nat} (k : noticeReg a = false) : (owlCluster s t' c code cause d0 d1).reg a = s.reg a :=
  (owlCluster_notices _ _ _ _ _ _).2.2 a (by simp) k

@[simp] theorem owlHead_part (t' c h code cause d0 d1) : (owlHead s t' c h code cause d0 d1).part = s.part := by rw [(owlHead_notices _ _ _ _ _ _ _).1]
@[simp] theorem owlHead_now (t' c h code cause d0 d1) : (owlHead s t' c h code cause d0 d1).now = s.now := by rw [(owlHead_notices _ _ _ _ _ _ _).1]
@[simp] theorem owlHead_free (t' c h code cause d0 d1) : (owlHead s t' c h code cause d0 d1).free = s.free := by rw [(owlHead_notices _ _ _ _ _ _ _).1]
@[simp] theorem owlHead_pending (t' c h code cause d0 d1) : (owlHead s t' c h code cause d0 d1).pending = s.pending := by rw [(owlHead_notices _ _ _ _ _ _ _).1]
@[simp] theorem owlHead_mgmt (t' c h code cause d0 d1) : (owlHead s t' c h code cause d0 d1).mgmt = s.mgmt := by rw [(owlHead_notices _ _ _ _ _ _ _).1]
@[simp] theorem owlHead_flash (t' c h code cause d0 d1) : (owlHead s t' c h code cause d0 d1).flash = s.flash := by rw [(owlHead_notices _ _ _ _ _ _ _).1]
@[simp] theorem owlHead_power (t' c h code cause d0 d1) : (owlHead s t' c h code cause d0 d1).power = s.power := by rw [(owlHead_notices _ _ _ _ _ _ _).1]
@[simp] theorem owlHead_tap (t' c h code cause d0 d1) : (owlHead s t' c h code cause d0 d1).tap = s.tap := by rw [(owlHead_notices _ _ _ _ _ _ _).1]
@[simp] theorem owlHead_ports (t' c h code cause d0 d1) : (owlHead s t' c h code cause d0 d1).ports = s.ports := by rw [(owlHead_notices _ _ _ _ _ _ _).1]
@[simp] theorem owlHead_nq (t' c h code cause d0 d1) : (owlHead s t' c h code cause d0 d1).nq = s.nq := by rw [(owlHead_notices _ _ _ _ _ _ _).1]
@[simp] theorem owlHead_buf (t' c h code cause d0 d1) : (owlHead s t' c h code cause d0 d1).buf = s.buf := by rw [(owlHead_notices _ _ _ _ _ _ _).1]
@[simp] theorem owlHead_memp (t' c h code cause d0 d1) : (owlHead s t' c h code cause d0 d1).memp = s.memp := by rw [(owlHead_notices _ _ _ _ _ _ _).1]
@[simp] theorem owlHead_slots (t' c h code cause d0 d1) : (owlHead s t' c h code cause d0 d1).slots = s.slots := by rw [(owlHead_notices _ _ _ _ _ _ _).1]
@[simp] theorem owlHead_tl (t' c h code cause d0 d1) : (owlHead s t' c h code cause d0 d1).tl = s.tl := by rw [(owlHead_notices _ _ _ _ _ _ _).1]
theorem owlHead_reg (t' c h code cause d0 d1) {a : Nat} (k : noticeReg a = false) : (owlHead s t' c h code cause d0 d1).reg a = s.reg a :=
  (owlHead_notices _ _ _ _ _ _ _).2.2 a (by simp) k

end Sys2Proof.Machine
end

