-- ==== Sys2Proof/Laws/Rows.lean ====
section
/-! SUPPORT. The forms every command's meaning begins with: on a present unit whose domain is on, a command has
its effect. -/

namespace Sys2Proof.Machine

variable {s f : State} {t c h l p k e : Nat}

theorem hasTile_lt (x : s.hasTile t = true) : t < 8 := by
  unfold State.hasTile at x
  cases hp : s.part <;> simp [hp, Part.tiles] at x <;> omega

theorem hasPort_lt (x : s.hasPort p = true) : p < 10 := by
  unfold State.hasPort at x
  cases hp : s.part <;> simp [hp, Part.ports] at x <;> omega

theorem onTile_next (x : s.hasTile t = true) : onTile s t f = .next f := by
  simp [onTile, hasTile_lt x, x]

theorem whenOn_on {d : Nat} (x : s.domOn d = true) : whenOn s d f = f := by simp [whenOn, x]

theorem onTileMo_next (x : motionOn s t) : onTileMo s t f = .next f := by
  rw [onTileMo, whenOn_on x.2, onTile_next x.1]

theorem onTileCh_next (x : channelOn s t) : onTileCh s t f = .next f := by
  rw [onTileCh, whenOn_on x.2, onTile_next x.1]

theorem onCluster_next (x : s.hasTile t = true) (hc : c < 4) : onCluster s t c f = .next f := by
  rw [onCluster, if_pos hc, onTile_next x]

theorem onClusterMo_next (x : motionOn s t) (hc : c < 4) : onClusterMo s t c f = .next f := by
  rw [onClusterMo, whenOn_on x.2, onCluster_next x.1 hc]

theorem onClusterCh_next (x : channelOn s t) (hc : c < 4) : onClusterCh s t c f = .next f := by
  rw [onClusterCh, whenOn_on x.2, onCluster_next x.1 hc]

theorem onHeadMo_next (x : motionOn s t) (hc : c < 4) (hh : h < 24) : onHeadMo s t c h f = .next f := by
  rw [onHeadMo, whenOn_on x.2, onHead, if_pos hh, onCluster_next x.1 hc]

theorem onHeadCh_next (x : channelOn s t) (hc : c < 4) (hh : h < 24) : onHeadCh s t c h f = .next f := by
  rw [onHeadCh, whenOn_on x.2, onHead, if_pos hh, onCluster_next x.1 hc]

theorem onLane_next (x : s.hasTile t = true) (hl : l < 192) : onLane s t l f = .next f := by
  rw [onLane, if_pos hl, onTile_next x]

theorem onLaneCh_next (x : channelOn s t) (hl : l < 192) : onLaneCh s t l f = .next f := by
  rw [onLaneCh, whenOn_on x.2, onLane_next x.1 hl]

theorem onSub_next (x : s.hasPort p = true) (hk : k < 4) : onSub s p k f = .next f := by
  simp [onSub, hasPort_lt x, hk, x]

theorem onOk_next {b : Bool} (x : b = true) : onOk b f = .next f := by simp [onOk, x]

theorem onEng_next (x : engineOn s e) : onEng s e f = .next f := by
  obtain ⟨h1, h2, h3⟩ := x
  rw [onEng, onOk_next (by simpa using h1), whenOn_on h3]
  rcases h2 with h2 | h2 <;> simp [h2]

end Sys2Proof.Machine
end

