-- ==== Sys2Proof/Laws/Signal.lean ====
section
/-! SUPPORT. What the detectors say of part of a run: hard decisions that are out of the delay do not depend on
later samples (R119), soft values of erased samples are 0 (R116), and a word of no soft values decodes at once. -/

namespace Sys2Proof.Machine

/-- The decisions made while a run of samples passes, and the survivors after it. -/
def viterbiOut (g : List Int) : List Surv → Nat → List Smp → List Bool × List Surv × Nat
  | ss, n, [] => ([], ss, n)
  | ss, n, y :: ys =>
    let ss := viterbiStep g ss y
    if n < 16 then viterbiOut g ss (n + 1) ys
    else
      let r := viterbiOut g ss (n + 1) ys
      (nth false (bestSurv ss).2 16 :: r.1, r.2)

theorem viterbiRun_append (g : List Int) (xs ys : List Smp) (ss : List Surv) (n : Nat) :
    viterbiRun g ss n (xs ++ ys) =
      (viterbiOut g ss n xs).1 ++ viterbiRun g (viterbiOut g ss n xs).2.1 (viterbiOut g ss n xs).2.2 ys := by
  induction xs generalizing ss n with
  | nil => rfl
  | cons x xs ih =>
    simp only [List.cons_append, viterbiRun, viterbiOut]
    split
    · exact ih _ _
    · simp [ih]

/-- The hard decisions of a run begin with those that its first samples have made. -/
theorem hardBits_append (g : List Int) (xs ys : List Smp) : ∃ r, hardBits g (xs ++ ys) =
    (viterbiOut g (List.replicate 8 (0, [])) 0 xs).1 ++ r := ⟨_, viterbiRun_append g xs ys _ 0⟩

theorem syncDist_append (mark : Nat) (a r : List Bool) (p : Int) (h0 : 0 ≤ p) (h1 : p.toNat + 48 ≤ a.length) :
    syncDist mark (a ++ r) p = syncDist mark a p := by
  unfold syncDist
  rw [if_neg (by simp; omega), if_neg (by omega), List.drop_append_of_le_length (by omega),
    List.take_append_of_le_length (by simp; omega)]

/-- A search for sync A looks no further than its window. -/
theorem findA_append (a r : List Bool) (win thr : Nat) (h0 : win ≤ 192) (h : 240 + win ≤ a.length) :
    findA (a ++ r) win thr = findA a win thr := by
  unfold findA
  have e : ∀ p ∈ (List.range (2 * win + 1)).map (fun k : Nat => 128 - (win : Int) + (k : Int)),
      (decide (syncDist syncA (a ++ r) (p + 64) ≤ thr)) = decide (syncDist syncA a (p + 64) ≤ thr) := by
    intro p hp
    obtain ⟨k, hk, rfl⟩ := List.mem_map.mp hp
    rw [syncDist_append _ _ _ _ (by have := List.mem_range.mp hk; omega) (by have := List.mem_range.mp hk; omega)]
  generalize (List.range (2 * win + 1)).map (fun k : Nat => 128 - (win : Int) + (k : Int)) = l at e
  induction l with
  | nil => rfl
  | cons x l ih =>
    simp only [List.find?_cons, e x (List.mem_cons_self ..)]
    rw [ih fun p hp => e p (List.mem_cons_of_mem _ hp)]

/-! ### Erased samples -/

/-- Every entry is 0. -/
def AllZero (l : List Int) : Prop := ∀ x ∈ l, x = 0

theorem touched_erased (ys : List Smp) (h : ∀ y ∈ ys, y = none) : ∀ b ∈ touched ys, b = true := by
  induction ys with
  | nil => simp [touched]
  | cons y ys ih =>
    intro b hb
    rcases List.mem_cons.mp hb with rfl | hb
    · simp [h y (List.mem_cons_self ..)]
    · exact ih (fun z hz => h z (List.mem_cons_of_mem _ hz)) b hb

theorem zipWith_erased (f : Int → Int) (ms : List Int) (er : List Bool) (h : ∀ b ∈ er, b = true) :
    AllZero (List.zipWith (fun m e => if e then 0 else f m) ms er) := by
  intro x hx
  obtain ⟨i, hi, rfl⟩ := List.mem_iff_getElem.mp hx
  simp [h _ (List.getElem_mem _)]

theorem softSolo_erased (g : List Int) (v : Nat) (ys : List Smp) (h : ∀ y ∈ ys, y = none) : AllZero (softSolo g v ys) :=
  zipWith_erased _ _ _ (touched_erased ys h)

theorem softJoint_erased (ch : Chan) (k : Nat) (os : List Obs) (h : ∀ o ∈ os, o.ya = none) :
    AllZero (softJoint ch k os) := by
  refine zipWith_erased _ _ _ fun b hb => ?_
  obtain ⟨i, hi, rfl⟩ := List.mem_iff_getElem.mp hb
  simp only [List.getElem_zipWith]
  rw [touched_erased (os.map (·.ya)) (by simpa using h) _ (List.getElem_mem _)]
  rfl

/-! ### Decoding -/

theorem layer_nil (off : Nat) (x : LdpcSt) (r : Nat) (h : x.vals = []) : (layer off x r).vals = [] := by
  unfold layer
  simp only [h]
  have e : ∀ (l : List Nat) (f : List Int → Nat → List Int), (∀ k, f [] k = []) → l.foldl f [] = [] := by
    intro l f hf
    induction l with
    | nil => rfl
    | cons a l ih => simpa [hf] using ih
  refine e _ _ fun k => ?_
  simp only [setBlock, List.take_nil, List.drop_nil, List.nil_append, List.append_nil]
  have z : nth [] ((List.range (rowCirculants r).length).map fun k =>
      List.zipWith (fun v m => msg7 (v - m)) (turn (nth (0, 0) (rowCirculants r) k).2 (blockOf ([] : List Int) (nth (0, 0) (rowCirculants r) k).1))
        (nth (List.replicate 128 0) (nth [] x.msgs r) k)) k = [] := by
    unfold nth
    rw [List.getD_eq_getElem?_getD, List.getElem?_map]
    cases (List.range (rowCirculants r).length)[k]? <;> simp [turn, blockOf]
  rw [z]
  simp [turn]

theorem rowChecks_nil (p : Nat → Bool) (r : Nat) : ∀ b ∈ rowChecks p [] r, b = false := by
  unfold rowChecks
  have e : ∀ (l : List (Nat × Nat)) (a : List Bool), (∀ b ∈ a, b = false) →
      ∀ b ∈ l.foldl (fun a e => xorBits a (turn e.2 (blockOf ([] : List Bool) e.1))) a, b = false := by
    intro l
    induction l with
    | nil => exact fun a h => h
    | cons x l ih => exact fun a _ => ih _ (by simp [xorBits, turn, blockOf])
  exact e _ _ fun b hb => (List.mem_replicate.mp hb).2

theorem syndrome_nil : weightOf (syndrome []) = 0 := by
  unfold weightOf syndrome
  rw [List.length_eq_zero_iff, List.filter_eq_nil_iff]
  intro b hb
  obtain ⟨r, -, hr⟩ := List.mem_flatMap.mp hb
  simp [rowChecks_nil _ _ b hr]

/-- A word of no soft values converges in its first iteration, whatever the code. -/
theorem decodeSoft_nil (n : Nat) : decodeSoft (n + 1) [] = ⟨[], true, 1, 0⟩ := by
  have e : ∀ (l : List Nat) (x : LdpcSt), x.vals = [] → (l.foldl (layer Config.minSumOffset) x).vals = [] := by
    intro l
    induction l with
    | nil => exact fun x h => h
    | cons a l ih => exact fun x h => ih _ (layer_nil _ _ _ h)
  have q := e (List.range 29) ⟨[], (List.range 29).map fun r => (rowCirculants r).map fun _ => List.replicate 128 0⟩ rfl
  unfold decodeSoft decodeRun
  simp only [q, hardOf, List.map_nil, syndrome_nil, if_true]

/-- A decode that may make no iteration does not converge. -/
theorem decodeSoft_zero (soft : List Int) : (decodeSoft 0 soft).conv = false := rfl

end Sys2Proof.Machine
end

