-- ==== Sys2Proof/Tests/Slice0.lean ====
section
/-! SUPPORT. Tests: the operand checks of WellFormed, and for every statement about a state concrete states
and operands that meet its hypotheses, clause by clause, with what the command then does. -/

namespace Sys2Proof.Machine
set_option Elab.async false

/-- Whether a command completes and the state after it satisfies `p`. -/
def sees (i : Instr) (s : State) (p : State → Bool) : Bool :=
  match exec i s with
  | .next u => p u
  | _ => false

/-- Whether a command leaves the state as it is. -/
def idles (i : Instr) (s : State) : Bool := sees i s fun u => decide (u = s)

/-- Whether a command faults. -/
def faults (i : Instr) (s : State) : Bool :=
  match exec i s with
  | .fault .badOperand => true
  | _ => false

/-- Registers set to words. -/
def State.with (s : State) (l : List (Nat × Nat)) : State := l.foldl (fun s e => s.setReg e.1 (w32 e.2)) s

/-- A booted device whose domains are all on, with links 0 and 1 in service. -/
def live : State :=
  ({ State.reset with power := { Power.reset with boot := 10, porstLow := false }, now := 10 ^ 9 } : State).with
    [(aPwr 0xC, 0xFFFFF), (aLink 0, 3), (aLink 1, 3)]

/-- A host read of PSA `p` and what is wanted of a head for it. -/
def reqOf (p : Nat) : MediaReq := ⟨p, 1, 0, .host, 7⟩
def wantOf (p : Nat) : Want := ⟨reqOf p, none, false⟩

/-- A capture of sector 0 of tracks 0 and 1. -/
def capt (id : Nat) : Capture :=
  ⟨id, ⟨0, 0, 0, some (wantOf 0), some (wantOf (2 ^ 14)), 0⟩, true, true, 0, 0, 0, false,
    ⟨false, false, false, false, true, []⟩, ⟨false, false, false, false, true, []⟩, Framing.none, Framing.none,
    .pending, .pending, [], [], false⟩

/-- A head that captures. -/
def busyHead (i : Nat) (s : State) : State := s.modHead i fun x => { x with curs := [capt 5] }

/-- A header that the formatter takes for PSA 0 (R63 to R65). -/
def hd0 : Payload :=
  let h : Payload := [0, 0, 0, 0, 0, 0, 0x20, 0, 0, 0, 0, 0, 0, 0]
  h ++ beBytes 2 (crc16 h).toNat

/-- A read of block 0 of namespace 1 whose sector lies at PSA 0, its key in slot 0. -/
def readCmd : Cmd := { Cmd.none with live := true, cls := .rd, origin := .host, nsid := 1, hi := 1, turned := true, blks := [⟨.fill, none, [], none⟩] }

/-- The device with that read as command 1, on queue pair 0. -/
def reading : State :=
  ((live.setCmd 1 readCmd).setQp 0 { Qp.free with state := 2, held := true, qid := 1 }).setSlot 0 { Slot.empty with state := 1, key := zeros 32 }

/-- A line of namespace 1 in way 0 of set 0 with a fill of its unit 0 pending for a prefetch. -/
def filling : State := { live with buf := { live.buf with
  lines := [(0, ⟨1, 0, 0, false, false, [(0, { Unit4.none with fill := some 9 })], none⟩)] } }

/-- Engine `e` with the thread `x` as its thread `th`, both banks zeros. -/
def withThread (e th : Nat) (x : Thread) (s : State := live) : State :=
  s.modEng e fun g => { g with b0 := ⟨false, []⟩, b1 := ⟨false, []⟩, threads := Tab.to Thread.none g.threads th x }

/-- Port 0 with its sub-port 0 up at address 5, flow control on priority 3 with threshold 0, rate control on. -/
def port : State := live.with [(aHpt 0 4, 2), (aHpt 0 0, 0x10), (aHpt 0 0xC, 0x8), (aHpt 0 0x10, 0x81020304), (aHpt 0 8, 0x05006000), (aHpt 0 0x10C, 5)]

/-- A RoCEv2 frame of 1,000 bytes to that address. -/
def frame : RxFrame := ⟨false, 2, 0, false, 5, 0, 4791, 3, 1000, false, 0, 0, 9⟩

/-- Queue pair `n` connected on port 0, with two packets in flight. -/
def pair (n : Nat) (x : Qp := Qp.free) : State := port.setQp n { x with state := 2, held := true, est := true, qid := 1, inflight := [⟨5, 0, 1, 0⟩, ⟨6, 1, 1, 0⟩] }

/-- A Read of block 0 of namespace 1, which exists, is attached and lies on head 0. -/
def capRead : Capsule := { Capsule.zero with opcode := 2, nsid := 1, sglLen := 4096, cid := 3 }
/-- Namespace 1: a conventional one of kind HEAD on tile 0, one band group of 64 blocks. -/
def nsRegs : List (Nat × Nat) :=
  [(aNs 1 0, 0xC0010000), (aNs 1 4, 0x10000), (aTile 0 0x100, 0x40100), (aTile 0 0x104, 12), (aTile 0 0x204, 2), (aTile 0 0x110, 15)]

theorem test_full {α : Type} (d v : α) (l : List Nat) (n : Nat) (h : n ∈ l) : Tab.at d (l.map fun i => (i, v)) n = v := by
  induction l with
  | nil => cases h
  | cons a l ih =>
    show (if n = a then v else Tab.at d (l.map fun i => (i, v)) n) = v
    split
    · rfl
    · exact ih ((List.mem_cons.mp h).resolve_left ‹_›)

/-- Namespace 1 as a zoned one. -/
def zoned : State := port.with [(aNs 1 0, 0xE0010000), (aNs 1 4, 0x10000), (aTile 0 0x100, 0x40100), (aTile 0 0x104, 12), (aTile 0 0x204, 2)]

/-- No register of a namespace other than those at their reset values has bit 31 set: no namespace exists. -/
theorem test_no_ns (s : State) (h : s.part = .zh7680 ∧ ∀ e ∈ s.regs, e.1 < 0x240000 ∨ e.2.getLsbD 31 = false) : nsList s = [] := by
  have z : ∀ a, 0x240000 ≤ a → a < 0x260000 → resetVal .zh7680 a = 0 := by
    intro a h1 h2
    have e : blkOf a = some (.nq, a - 0x200000) := by
      unfold blkOf
      iterate 8 rw [if_neg (by omega)]
      rw [if_pos (by omega)]
    have m : ∀ r ∈ rowsNq, r.reset = 0 ∨ ∀ o, 0x40000 ≤ o → r.hit o = false := by
      have q : ∀ r ∈ rowsNq, r.reset = 0 ∨ (r.s1 = 0 ∧ r.s2 = 0 ∧ r.base < 0x40000) := by decide
      intro r hr
      refine (q r hr).imp id fun ⟨a1, a2, a3⟩ o ho => ?_
      unfold RegRow.hit
      simp only [a1, a2]
      simp; omega
    unfold resetVal regRow
    rw [e]
    split
    · rename_i r hr
      rcases m r (List.mem_of_find?_eq_some hr) with m | m
      · exact m
      · have := List.find?_some hr
        rw [m _ (by omega)] at this
        cases this
    · rfl
  have t : ∀ (l : Tab Word) (k : Nat), 0x240000 ≤ k → k < 0x260000 → (∀ e ∈ l, e.1 < 0x240000 ∨ e.2.getLsbD 31 = false) →
      (Tab.get (resetVal .zh7680) l k).getLsbD 31 = false := by
    intro l k h1 h2 h3
    induction l with
    | nil => show (resetVal .zh7680 k).getLsbD 31 = false; rw [z k h1 h2]; rfl
    | cons e l ih =>
      obtain ⟨a, v⟩ := e
      show (if k = a then v else Tab.get (resetVal .zh7680) l k).getLsbD 31 = false
      split
      · rename_i q; have := h3 (a, v) (List.mem_cons_self ..); simp only at this; rcases this with x | x
        · omega
        · exact x
      · exact ih fun e he => h3 e (List.mem_cons_of_mem _ he)
  unfold nsList
  rw [List.filterMap_eq_nil_iff]
  intro i hi
  rw [if_neg]
  have : nsExists s (i + 1) = false := by
    unfold nsExists State.bit State.reg
    have hi' := List.mem_range.mp hi
    rw [h.1, t _ _ (by unfold aNs aNq; omega) (by unfold aNs aNq; omega) h.2, Bool.and_false]
  rw [this]; decide

/-- A device with command 1 a command at its turn, carried by `c`, on this queue pair of association 1. -/
def having (c : Capsule) (x : Cmd) (qp : Nat := 8192) (a : Assoc := { Assoc.none with live := true, granted := 2 }) (s : State := live) : State :=
  (((s.setCmd 1 { x with live := true, cap := c, qp := qp, turned := true }).setQp qp { Qp.free with state := 2, held := true, cntlid := 1, size := 31 })).setAssoc 1 a

/-- The status of the completion that a command sends, and its DW0. -/
def endsWith (i : Instr) (s : State) (dw0 : Nat) (st : Status) : Bool :=
  sees i s fun u => decide (.cqe (s.cmd 1).qp (s.cmd 1).cap.cid dw0 0 0 st.sct st.code st.dnr ∈ u.out ∧ (u.cmd 1).live = false)

/-- A command of the admin queue with this opcode and these dwords. -/
def adm (op : Nat) (d10 : Nat := 0) (d11 : Nat := 0) (a : Assoc := { Assoc.none with live := true, granted := 2 }) (data : Payload := []) : State :=
  having { Capsule.zero with opcode := op, cdw10 := d10, cdw11 := d11, data := data, nsid := 1 } { Cmd.none with origin := .host } 8192 a

/-- A management packet of operation `op`. -/
def packet (op : Nat) (m : Byte := 0x4B) : Payload :=
  let h : Payload := [m, BitVec.ofNat 8 op, 0, 9, 0, 0, 0, 0]
  h ++ beBytes 4 (crc32c h).toNat

/-- A host sector for PSA `p` on its way to the media. -/
def wrEnt (p : Nat) : WrEnt := ⟨p, .host, false, 1, 0, 0, 0, [], [], 0, false, 0, false⟩

/-- The port's operation waits at the executor. -/
def asked (op : Nat) (param : Payload) (s : State := live) : State :=
  { s with mgmt := { s.mgmt with busy := true, waiting := [⟨.port, op, 9, 0, param⟩] } }
/-- The command ends the operation with this status. -/
def ends (i : Instr) (s : State) (op : Nat) (st : Status) : Bool :=
  sees i s fun u => decide (u.mgmt.reply = some (replyPacket op 9 st.code []) ∧ u.mgmt.busy = false)
/-- The boot flash usable, no staging under way. -/
def flashed : State := live.with [(aMgt 0x28, 0x10000000)]

/-! ### Operands out of range (WellFormed) -/

/-- An operand out of range: the command is ill-formed, and faults. -/
def refused (i : Instr) : Bool := !i.wf && faults i live

theorem test_units_refused : refused (.linkAckTimeout 8) ∧ refused (.parkRequest 0 4) ∧ refused (.parkRequest 8 0) ∧ refused (.pinExpire 0 0 24) ∧
    refused (.pinExpire 0 4 0) ∧ refused (.laneSleep 0 192) ∧ refused (.laneSleep 8 0) ∧ refused (.arpRequest 10 0 0) ∧ refused (.arpRequest 0 4 0) ∧
    refused (.keyLoad .port 256 0) ∧ refused (.keyLoad .port 0 8) ∧ refused (.testOperation .port 256) ∧ refused (.ident 65536 []) ∧ refused (.powerTransitionStep 9) ∧
    refused (.staleClear 768 0) ∧ refused (.glitchTrip 7 0 0) ∧ refused (.bypass 256) ∧ refused (.ignoredTransaction 256) ∧
    refused (.keepAliveTimeout 0) ∧ refused (.keepAliveTimeout 1025) ∧ refused (.blankingDone 0) ∧ refused (.blankingDone 4097) ∧
    refused (.mediaRequest 8) ∧ refused (.decodeResult 8 0) ∧ refused (.captureEnd 0 0 24 [] []) := by decide +kernel

theorem test_params_refused (p : Payload) (h : p.length = 4097) : (Instr.ident 0 p).wf = false ∧ (Instr.ident 0 []).wf = true := by
  refine ⟨?_, by decide⟩
  show opOk 0 p = false
  unfold opOk; rw [h]; decide

theorem test_engines_refused : refused (.ucsLoad 49) ∧ refused (.nop 49 0) ∧ refused (.nop 0 64) ∧ refused (.nop 5 1) ∧
    refused (.treq 64) ∧ refused (.hres 0 256) ∧ refused (.book 0 256) := by decide +kernel

theorem test_fields_refused : refused (.laneTapWrite 0 0 16 0) ∧ refused (.faultLatchClear 0 0 6 0) ∧ refused (.coefficientWrite 0 0 25 0 0 0) ∧
    refused (.coefficientWrite 0 0 0 63 0 0) ∧ refused (.coefficientWrite 0 0 0 0 5 0) ∧ refused (.sectionControlWrite 0 0 25 0 0) ∧ refused (.usefbWrite 0 0 25 false) ∧
    refused (.pfcRefresh 0 0 8) ∧ refused (.pfcFrame 0 0 0 65536) ∧ refused (.ackReceive 12288 0) ∧ refused (.ackReceive 0 16777216) ∧ refused (.nakReceive 0 0 0) ∧
    refused (.nakReceive 0 5 0) ∧ refused (.claim .port 9 0) ∧ refused (.claim .port 0 18) ∧ refused (.claim .port 1 5) ∧ refused (.irqSourceEvent 0 0 0x300) ∧
    refused (.owlEvent 1 9 0 0 0 0 0 true) ∧ refused (.owlEvent 1 1 0 0 0 0 0 false) ∧ refused (.registerWrite .port (2 ^ 32) 0) ∧
    refused (.flitReceive 0 2 [] false) ∧ refused (.trainingPassEnd 0 0 32 []) ∧
    refused (.frameReceive 0 0 { frame with prio := 8 }) := by decide +kernel

theorem test_highest_allowed : ((.headRecord 7 3 23 : Instr).wf && (.laneSleep 7 191 : Instr).wf && (.testOperation .port 255 : Instr).wf && (.powerTransitionStep 8 : Instr).wf &&
    (.add 48 0 : Instr).wf && (.ackReceive 12287 16777215 : Instr).wf && (.irqSourceEvent 8 4 0x2FF : Instr).wf && (.staleClear 767 0 : Instr).wf) = true := by decide +kernel

/-! ### Registers, links, lanes -/

theorem test_step_runs_front : (match step { live with pending := [.cipherEncrypt] } with
    | .next u => decide (u = live) | _ => false) = true := by decide +kernel

theorem test_idle_passes_time : (match step live with
    | .next u => decide (u.now = live.now + 1000) | _ => false) = true := by decide +kernel

theorem test_out_of_range : live.regsWf = true ∧ (Instr.linkAckTimeout 8).wf = false ∧ faults (.linkAckTimeout 8) live = true := by
  decide +kernel

theorem witness_register_write_misaligned : idles (.registerWrite .port 1 0) live = false ∧
    sees (.registerWrite .port 1 0) live (fun u => decide (u.out = [.reply .port 1 0 .badField])) = true := by decide +kernel

/-- NQ.CTL: RW with a range on its field 31:16 (R361). -/
theorem witness_register_write : ∃ r, regRow live.part (aNq 0) = some r ∧ gateOf live (aNq 0) = .open_ ∧
    blkOf (aNq 0) = some (.nq, 0) ∧ r.acc = .rw ∧ fieldsOk live .nq 0 0x20000100 = true ∧ r.inRange 0x20000100 = true ∧
    r.inRange 0x20010100 = false ∧
    sees (.registerWrite .port (aNq 0) 0x200001FF) live (fun u => decide (u.reg (aNq 0) = 0x20000100)) = true ∧
    sees (.registerWrite .port (aNq 0) 0x20010100) live (fun u => decide (u.reg (aNq 0) = live.reg (aNq 0))) = true := by
  exact ⟨_, rfl, by decide +kernel⟩

theorem witness_register_write_ro : ∃ r, regRow live.part (aNq 4) = some r ∧ r.acc = .ro ∧ gateOf live (aNq 4) = .open_ ∧
    sees (.registerWrite (.core 0 0) (aNq 4) 5) live (fun u => decide (u.regs = live.regs)) = true := by
  exact ⟨_, rfl, by decide +kernel⟩

theorem witness_rc_counter : ∃ r, regRow live.part (aNq 0x20) = some r ∧ r.acc = .rc ∧ gateOf live (aNq 0x20) = .open_ ∧
    blkOf (aNq 0x20) = some (.nq, 0x20) ∧ rcFields (aNq 0x20) = [(31, 0)] ∧
    sees (.rcCounterRead (aNq 0x20) [2]) (live.with [(aNq 0x20, 7)])
      (fun u => decide (u.out = [.reply .port (aNq 0x20) 7 .ok] ∧ u.reg (aNq 0x20) = 2)) = true := by
  exact ⟨_, rfl, by decide +kernel⟩

/-- WRT.LERR holds two counters, each of which saturates (R172). -/
theorem witness_rc_two : ∃ r, regRow live.part (aWrtC 0 0 8) = some r ∧ r.acc = .rc ∧ gateOf live (aWrtC 0 0 8) = .open_ ∧
    blkOf (aWrtC 0 0 8) = some (.wrtc 0 0, 8) ∧ rcFields (aWrtC 0 0 8) = [(15, 0), (31, 16)] ∧
    sees (.rcCounterRead (aWrtC 0 0 8) [70000, 2]) (live.with [(aWrtC 0 0 8, 7)])
      (fun u => decide (u.out = [.reply .port (aWrtC 0 0 8) 7 .ok] ∧ u.reg (aWrtC 0 0 8) = 0x2FFFF)) = true := by
  exact ⟨_, rfl, by decide +kernel⟩

theorem witness_rc_waits : let s := live.setF (aLink 0) 3 0 1
    gateOf s (aWrtC 0 0 8) = .wait ∧ sees (.rcCounterRead (aWrtC 0 0 8) [1]) s
      (fun u => decide (u.mgmt.accs = [⟨.port, aWrtC 0 0 8, none, [1]⟩] ∧ u.out = [])) = true := by decide +kernel

/-- A flit of zeros with a sequence number, an acknowledged one and a credit return. -/
def flitFor (seq ack ret total : Nat) : Payload := flitOf seq 0 ack ret total (zeros 240)

theorem test_flit_for (seq ack ret total : Nat) :
    flitOk (flitFor seq ack ret total) = true ∧ flitSeq (flitFor seq ack ret total) = seq % 4096 :=
  ⟨flitOf_ok _ _ _ _ _ _ List.length_replicate, flitOf_seq _ _ _ _ _ _⟩

/-- What a flit that passes its check does. -/
def flitTaken (s : State) (t e : Nat) (f : Payload) (k : Bool) : State :=
  let x := s.link t e
  if flitSeq f ≠ x.rx then (if x.bad then s else (s.setLink t e { x with bad := true }).emit (.linkNak t e x.rx))
  else
    let s := s.setLink t e { x with rx := (x.rx + 1) % 4096, bad := false }
    let s := creditReturn s t e (beAt f 4 4 / 2 ^ 30 % 4) (beAt f 4 4 / 2 ^ 14 % 2 ^ 16)
    if k then linkReplay s t e (beAt f 0 4 / 2 ^ 6 % 4096) else s

theorem test_flit_sees (s : State) (f : Payload) (e : Nat) (k : Bool) (p : State → Bool) (h : flitOk f = true)
    (r : (e < 2 ∧ s.hasTile 0 = true ∧ linkLive s 0 = true) ∧ p (flitTaken s 0 e f k) = true) :
    sees (.flitReceive 0 e f k) s p = true := by
  obtain ⟨⟨h1, h2, h3⟩, h4⟩ := r
  have q : flitReceive s 0 e f k = flitTaken s 0 e f k := by
    unfold flitReceive flitTaken
    simp [h, h3]
  show (match execFlitReceive 0 e f k s with | .next u => p u | _ => false) = true
  unfold execFlitReceive onTile
  rw [if_pos h1, q]
  simp [h2, h4]

/-- The first flit returns credits of the response channel, and fills it. -/
theorem witness_flit_in_order : let s := live.setLink 0 0 { LinkEnd.fresh with credits := [16, 64, 512, 60] }
    let f := flitFor 0 0 3 65535
    s.hasTile 0 = true ∧ s.linkState 0 = 3 ∧ flitOk f = true ∧ flitSeq f = (s.link 0 0).rx ∧
    sees (.flitReceive 0 0 f false) s (fun u => decide ((u.link 0 0).rx = 1 ∧ (u.link 0 0).credits = [16, 64, 512, 64] ∧
      (u.link 0 0).totals = [0, 0, 0, 65535])) = true := by
  refine ⟨by decide +kernel, by decide +kernel, (test_flit_for _ _ _ _).1, by decide +kernel, ?_⟩
  exact test_flit_sees _ _ _ _ _ (test_flit_for _ _ _ _).1 (by decide +kernel)

/-- One with a wrong check, and one out of its turn. -/
theorem witness_flit_refused : flitOk [] = false ∧ flitSeq (flitFor 5 0 0 0) ≠ (live.link 0 1).rx ∧ (live.link 0 1).bad = false ∧
    sees (.flitReceive 0 1 [] false) live (fun u => decide (u.out = [.linkNak 0 1 0] ∧ (u.link 0 1).bad = true)) = true ∧
    idles (.flitReceive 0 1 [] true) (live.setLink 0 1 { LinkEnd.fresh with bad := true }) = true ∧
    sees (.flitReceive 0 1 (flitFor 5 0 0 0) false) live (fun u => decide ((u.link 0 1).bad = true)) = true := by
  refine ⟨by decide +kernel, by decide +kernel, by decide +kernel, by decide +kernel, by decide +kernel, ?_⟩
  exact test_flit_sees _ _ _ _ _ (test_flit_for _ _ _ _).1 (by decide +kernel)

/-- A negative acknowledge of flit 5: it and flit 6 are sent again. -/
theorem witness_flit_nak : let s := live.setLink 0 0 { LinkEnd.fresh with sent := [beBytes 4 (6 * 2 ^ 20), beBytes 4 (5 * 2 ^ 20)] }
    let f := flitFor 0 5 0 0
    flitOk f = true ∧ flitSeq f = (s.link 0 0).rx ∧
    (s.link 0 0).sent.find? (fun x => decide (flitSeq x = beAt f 0 4 / 2 ^ 6 % 4096)) = some (beBytes 4 (5 * 2 ^ 20)) ∧
    sees (.flitReceive 0 0 f true) s
      (fun u => decide (u.out = [.flit 0 0 (beBytes 4 (6 * 2 ^ 20)), .flit 0 0 (beBytes 4 (5 * 2 ^ 20))] ∧
        u.fld (aHub 0x120) 31 0 = 1)) = true := by
  refine ⟨(test_flit_for _ _ _ _).1, by decide +kernel, by decide +kernel, ?_⟩
  exact test_flit_sees _ _ _ _ _ (test_flit_for _ _ _ _).1 (by decide +kernel)

theorem witness_link_trained : let s := live.setF (aLink 0) 3 0 1
    (s.linkState 0 = 1 ∧ idles (.linkAckTimeout 0) s = true ∧ idles (.linkTrained 0 true) live = true ∧
      sees (.linkAckTimeout 0) live (fun u => decide (u.linkState 0 = 4)) = true ∧
      sees (.linkTrained 0 false) s (fun u => decide (u.linkState 0 = 4)) = true ∧
      sees (.linkTrained 0 false) (live.setF (aLink 0) 3 0 4) (fun u => decide (u.fld (aLink 0) 23 16 = 1)) = true) ∧
    (let b := { s with power := { s.power with bring := [(0, 1)] } }
     sees (.linkTrained 0 true) b (fun u => decide (u.linkState 0 = 2 ∧ Tab.at 0 u.power.bring 0 = 2)) = true) := by decide +kernel

theorem witness_pace : live.domOn 1 = true ∧ sees (.paceMeasure 0x10004) live (fun u => decide (u.reg (aHub 0x10) = 4)) = true ∧
    idles (.paceMeasure 3) State.reset = true := by decide +kernel

/-- Lane 191 of tile 0 tracks a capture: phase errors with a mean of 1/4 bit keep its lock, greater ones lose it. -/
theorem witness_lane_holds : let s := busyHead (headIdx 0 3 23) ((live.setF (aLane 0 191 4) 3 0 5).setReg (aLane 0 191 0x20) 0xFFFFFFFF)
    channelOn s 0 ∧ laneSt s 0 191 = 5 ∧ laneBusy s 0 191 = true ∧ (s.lane 0 191).wedge = false ∧
    idles (.wedgeSpanHold 0 0) s = true ∧
    sees (.wedgeSpanHold 0 191) s (fun u => decide (laneSt u 0 191 = 6 ∧ (u.lane 0 191).wedge = true)) = true ∧
    sees (.phaseErrorWindow 0 191 (List.replicate 256 16)) s (fun u => u.bit (aLane 0 191 4) 19) = true ∧
    sees (.phaseErrorWindow 0 191 (List.replicate 256 (-17))) s
      (fun u => !(u.bit (aLane 0 191 4) 19) && (u.lane 0 191).lost &&
        (u.head (headIdx 0 3 23)).curs.all fun k => k.flB.lockloss) = true ∧
    idles (.phaseErrorWindow 0 0 []) s = true := by
  refine ⟨by unfold channelOn; decide +kernel, ?_⟩; decide +kernel

/-- The loop turns by its errors: half a bit in steps of 1/64, with an offset that rises with them. -/
theorem test_timing_loop : let w := place 31 28 2 ||| place 23 19 31 ||| place 15 12 0 ||| place 7 3 20
    pllRun w 1 ⟨0, 0, false⟩ [4, 1] = ⟨2 ^ 10, 2 ^ 30 + 2 ^ 10 + 2 ^ 30, false⟩ ∧
    (pllStep 0 0 ⟨0, 0, false⟩ 1).beyond = true := by decide +kernel

/-- A lane in acquisition on whose latest 39 raw samples the baseline is 13, over THR 12; then 5, below half of it. -/
theorem witness_asperity : let s := busyHead 0 (live.setF (aLane 0 0 4) 3 0 4)
    fld (laneCfg s 0 0 3) 31 27 = 12 ∧ asperityOn 12 (max 1 (fld (laneCfg s 0 0 3) 23 16)) (List.replicate 39 13) = true ∧
    asperityOff 12 (List.replicate 95 5) = true ∧
    sees (.asperityBegin 0 0 77 (List.replicate 39 13)) s (fun u => decide (laneSt u 0 0 = 6) && u.bit (aLane 0 0 4) 18 &&
      decide ((u.lane 0 0).taFrom = some 77) && (u.head 0).curs.all (fun k => k.flA.ta) &&
      sees (.asperityEnd 0 0 (77 + 4097) (List.replicate 95 5)) u (fun v => decide (laneSt v 0 0 = 5) &&
        (v.head 0).curs.all fun k => k.flA.longta) && idles (.asperityBegin 0 0 80 []) u) = true ∧
    idles (.asperityBegin 0 0 12 (List.replicate 39 12)) s = true ∧ idles (.asperityEnd 0 0 5 []) s = true := by decide +kernel

theorem witness_lane_sleep : let s := live.setF (aLane 0 0 4) 3 0 3
    sees (.laneSleep 0 0) s (fun u => decide (laneSt u 0 0 = 1)) = true ∧
    sees (.laneSleep 0 0) live (fun u => decide (laneSt u 0 0 = laneSt live 0 0) && u.bit (aLane 0 0 0) 0) = true ∧
    idles (.laneWakeDone 0 0) live = true ∧
    sees (.laneWakeDone 0 0) (live.setF (aLane 0 0 4) 3 0 2) (fun u => decide (laneSt u 0 0 = 3 ∧ (u.lane 0 0).used = live.now)) = true ∧
    idles (.laneIdleSleep 0 0) live = true ∧
    (let p := (setPwrTile s 0 1).with [(aPwr 4, 1)]
     pwrTile p 0 = 1 ∧ moving p 0 = false ∧ sees (.laneIdleSleep 0 0) p (fun u => decide (laneSt u 0 0 = 1)) = true) := by decide +kernel

/-- A lane that wakes with SLEEP set goes back to sleep (R97). -/
theorem test_lane_wakes_asked : let s := (live.setF (aLane 0 1 4) 3 0 2).setB (aLane 0 1 0) 0 true
    sees (.laneWakeDone 0 1) s (fun u => decide (laneSt u 0 1 = 1)) = true := by decide +kernel

/-! ### Captures, detection and the pool -/

theorem witness_taps : let s := (live.setF (aLane 0 191 4) 3 0 3).with [(aTile 0 0x400, 1)]
    targetPresent s 0 0 0 = true ∧ s.fld (aLane 0 191 0xFC) 12 8 = 0 ∧
    sees (.laneTapWrite 0 191 15 0x3FF) s (fun u => decide (tapOf u 0 191 0 0 15 = -1) && u.bit (aLane 0 191 0x34) 0) = true ∧
    sees (.laneTapWrite 0 191 15 0x1FF) (live.setF (aLane 0 191 4) 3 0 3) (fun u => decide (u.tl = live.tl)) = true ∧
    sees (.laneTapWrite 0 0 0 7) live (fun u => decide (u.out = [.reply .port (aLane 0 0 0x100) 7 .storeBusy])) = true := by
  decide +kernel

theorem test_train_nothing (lim d : Nat) (upper : Bool) (g taps : List Int) : mseOk lim d upper g taps [] = true := by
  simp [mseOk, passRegs, mseSums]

theorem test_zeros_equalise (taps : List Int) : eqOut taps (List.replicate 16 0) = 0 := by
  have z : ∀ (n : Nat) (ts : List Int), dot ts (List.replicate n 0) = 0 := by
    intro n
    induction n with
    | zero => intro ts; cases ts <;> rfl
    | succ n ih => intro ts; cases ts with
      | nil => rfl
      | cons a ts => simp [List.replicate_succ, dot, ih]
  unfold eqOut
  rw [z]; decide

/-- A lane that reads 0 throughout is far from every target. -/
theorem test_train_silence (taps : List Int) : mseOk 64 8 false [64, 0, 0, 0] taps [[0]] = false := by
  have h : passRegs 8 false [64, 0, 0, 0] [[0]] = [(List.replicate 16 0, 64)] := by decide +kernel
  show (decide (64 = 0) || decide (1024 * (mseSums taps (passRegs 8 false [64, 0, 0, 0] [[0]])).1 ≤
    64 * (mseSums taps (passRegs 8 false [64, 0, 0, 0] [[0]])).2)) = false
  rw [h]
  have z := test_zeros_equalise taps
  simp only [List.reduceReplicate] at z
  simp [mseSums, z]

theorem witness_training : let s := live.with [(aTile 0 0x400, 0x40000000)]
    channelOn s 0 ∧ tLane s 0 0 = false ∧ tLane s 0 1 = false ∧ laneSt s 0 0 ≠ 7 ∧ s.fld (aLane 0 0 0x30) 15 8 = 64 ∧ targetPresent s 0 0 0 = true ∧
    Tab.at 0 s.power.bring 0 ≠ 6 ∧ Tab.at 0 (s.lane 0 0).tries 0 = 0 := by
  unfold channelOn; decide +kernel

/-- A request for PSA 0 held at the hub for tile 0. -/
def heldReq (l : List (Nat × Nat)) : State := let s := live.with l
  { s with buf := { s.buf with held := [(0, [reqOf 0])] } }

theorem witness_media_request : let s := heldReq [(aTile 0 0x108, 1)]
    channelOn s 0 ∧ (Tab.at [] s.buf.held 0).find? (placedAll s) = some (reqOf 0) ∧ takesMedia s 0 = true ∧ headDead s 0 0 0 = false ∧
    takesMedia (heldReq []) 0 = false ∧ idles (.mediaRequest 0) (heldReq []) = true ∧ idles (.mediaRequest 0) live = true ∧
    (let d := s.with [(aTile 0 0x1140, 1)]
     headDead d 0 0 0 = true ∧ (d.det 0).outWait = [] ∧ outUsed d 0 < 48 ∧ forHub (reqOf 0).kind = true) := by
  unfold channelOn; decide +kernel

/-- A head on track at the pair of its first capture queue entry. -/
def aimed : State := (((live.setF (aLane 0 0 4) 3 0 3).setF (aLane 0 1 4) 3 0 3).with [(aCtl 0 0 0x100C, 2 ^ 31)]).modHead 0 fun x =>
  { x with capQ := [(capt 0).ent], count := 2 ^ 30 - 1 }

theorem witness_capture_start : let e := (capt 0).ent
    channelOn aimed 0 ∧ fillCap (headGo aimed 0 0 0) 0 0 0 = aimed ∧ (aimed.lane 0 0).bank = 1 ∧ (∀ w ∈ entWants e, w.ctx = none) ∧
    headBooked (aimed.head 0) = false ∧ e.low = (aimed.headS 0).home.1 ∧ (aimed.head 0).curs.length < 2 ∧ onTrack aimed 0 0 0 = true ∧
    (aimed.headW 0).writing = false ∧ (∀ r, r < 2 → tLane aimed 0 (laneOf 0 0 r) = false ∧ laneReady aimed 0 (laneOf 0 0 r) = true ∧
      aimed.bit (aLane 0 (laneOf 0 0 r) 4) 16 = false) ∧
    outUsed aimed 0 + outNeed (entWants e) ≤ 48 ∧ (aimed.det 0).decRes + (aimed.det 0).decQ.length + 2 ≤ 64 ∧
    sees (.captureStart 0 0 0 true) aimed (fun u => decide ((u.head 0).curs = [] ∧ (u.head 0).want.length = 2)) = true := by
  unfold channelOn; decide +kernel

/-- Samples of a lane that reads sync A at its place, each bit as +20 or −20. -/
def syncSamples : List Int := List.replicate 192 (-20) ++ (msbBits 48 syncA).map (fun b => if b then 20 else -20) ++ List.replicate 60 (-20)

/-- A capture that asks for sync A in its place without an error. -/
def syncCapt : Capture := { capt 5 with sync := 0 }

/-- A head on which that capture ends; its target answers one bit with 63. -/
def ending : State := (live.with [(aTile 0 0x400, 0x7E000000)]).modHead 0 fun x => { x with curs := [syncCapt] }

/-- The first `n` equalised samples of a run. -/
def firstSamples (taps : List Int) (raw : List Int) (er : List Bool) (n : Nat) : List Smp :=
  List.zipWith (fun e w => if e then none else some (eqOut taps w)) (er.take n)
    (((tailsOf (List.replicate 8 0 ++ raw ++ List.replicate 7 0)).take n).map fun w => (w.take 16).reverse)

theorem test_first_decisions (w : Word) (g taps : List Int) (raw : List Int) (er : List Bool) (n : Nat) (h : n ≤ raw.length)
    (h2 : fld w 31 24 ≤ 192)
    (h3 : 240 + fld w 31 24 ≤ (viterbiOut g (List.replicate 8 (0, [])) 0 (firstSamples taps raw er n)).1.length) :
    ownSync w (hardBits g (equalise taps raw er)) =
      ownSync w (viterbiOut g (List.replicate 8 (0, [])) 0 (firstSamples taps raw er n)).1 := by
  have q : (equalise taps raw er).take n = firstSamples taps raw er n := by
    unfold equalise regressors firstSamples
    rw [List.take_zipWith, ← List.map_take, List.take_take, Nat.min_eq_left h]
  obtain ⟨r, hr⟩ := hardBits_append g ((equalise taps raw er).take n) ((equalise taps raw er).drop n)
  rw [List.take_append_drop, q] at hr
  rw [hr]
  exact findA_append _ _ _ _ h2 h3

theorem test_framed (w : Word) (bits : List Bool) (o : Option Int) (h : (ownSync w bits).isSome = true) : (frameLane w bits o).posA ≠ none := by
  unfold frameLane
  obtain ⟨p, hp⟩ := Option.isSome_iff_exists.mp h
  rw [hp]
  show (framedAt w bits p false).posA ≠ none
  unfold framedAt
  split <;> simp

theorem test_frames (s : State) (t c h : Nat) (k : Capture) (ya yb : List Smp) :
    (k.laneA = true → (ownSync k.sync (hardBits (targetOf s t k.zone k.ent.target) ya)).isSome = true → (frameCapture s t c h k ya yb).frA.posA ≠ none) ∧
    (k.laneB = true → (ownSync k.sync (hardBits (targetOf s t k.zone k.ent.target) yb)).isSome = true → (frameCapture s t c h k ya yb).frB.posA ≠ none) := by
  unfold frameCapture
  refine ⟨fun a b => ?_, fun a b => ?_⟩ <;> (simp only [a, if_true]; exact test_framed _ _ _ b)

theorem test_sync_found (k : Nat) (hk : k < 2) : let b := fillBank ending 0 k syncCapt syncCapt.flA syncSamples
    (ownSync 0 (hardBits (targetOf ending 0 0 0) (equalised ending 0 k syncCapt 0 b))).isSome = true := by
  have hy : dataSamples ending 0 syncCapt syncSamples = syncSamples := by decide +kernel
  have hz : syncSamples.length = 300 := by decide +kernel
  have hb : fillBank ending 0 k syncCapt syncCapt.flA syncSamples = ⟨some 5, syncSamples ++ List.replicate 37220 0,
      erasureMarks (laneCfg ending 0 k 3) [] 300 ++ List.replicate 37220 true⟩ := by
    unfold fillBank
    simp only [hy, hz]; rfl
  have hg : (viterbiOut (targetOf ending 0 0 0) (List.replicate 8 (0, [])) 0
      (firstSamples (tapsFor ending 0 k 0 0) (syncSamples ++ List.replicate 37220 0)
        (erasureMarks (laneCfg ending 0 k 3) [] 300 ++ List.replicate 37220 true) 300)).1.length = 284 := by
    rcases (by omega : k = 0 ∨ k = 1) with rfl | rfl <;> decide +kernel
  have hn : 300 ≤ (syncSamples ++ List.replicate 37220 (0 : Int)).length := by
    rw [List.length_append, hz]; omega
  simp only [hb]
  show (ownSync 0 (hardBits _ (equalise (tapsFor ending 0 k 0 0) (syncSamples ++ List.replicate 37220 0)
    (erasureMarks (laneCfg ending 0 k 3) [] 300 ++ List.replicate 37220 true)))).isSome = true
  rw [test_first_decisions _ _ _ _ _ 300 hn (by decide) (by rw [hg]; decide)]
  rcases (by omega : k = 0 ∨ k = 1) with rfl | rfl <;> decide +kernel

theorem witness_capture_end : channelOn ending 0 ∧ (ending.head 0).curs = [syncCapt] ∧ syncCapt.laneA = true ∧ syncCapt.laneB = true ∧
    (∀ r, r < 2 → tLane ending 0 (laneOf 0 0 r) = false ∧ ending.fld (aLane 0 (laneOf 0 0 r) 0x40) 23 0 < 2 ^ 24 - 1 ∧
      ending.bit (aLane 0 (laneOf 0 0 r) 0) 0 = false) ∧ (calJob ending 0 0).step ≠ 4 ∧ (ending.head 0).want = [] ∧
    headTracks ending 0 0 0 = [] ∧
    (let kf := frameCapture ending 0 0 0 syncCapt (equalised ending 0 0 syncCapt 0 (fillBank ending 0 0 syncCapt syncCapt.flA syncSamples))
        (equalised ending 0 1 syncCapt 0 (fillBank ending 0 1 syncCapt syncCapt.flB syncSamples))
     kf.frA.posA ≠ none ∧ kf.frB.posA ≠ none) := by
  refine ⟨by unfold channelOn; decide +kernel, by decide +kernel, rfl, rfl, by decide +kernel, by decide +kernel, by decide +kernel,
    by decide +kernel, ?_, ?_⟩
  · exact (test_frames _ _ _ _ _ _ _).1 rfl (test_sync_found 0 (by decide))
  · exact (test_frames _ _ _ _ _ _ _).2 rfl (test_sync_found 1 (by decide))

/-- A codeword of the capture 5 of head 0, without soft values. -/
def decEnt (itmax : Nat) : DecEnt := ⟨0, 0, 0, 0, 0, 0, itmax, 0, 5, []⟩

/-- Engine 0 at work on it, for the live request or for an operation. -/
def engaged (dst : ResFor) (itmax : Nat) (k : Nat := 0) : State :=
  (live.modDet 0 fun d => d.setEng k ⟨some ⟨decEnt itmax, dst⟩, none⟩).modHead 0 fun x => { x with held := [capt 5] }

/-- An operation of context 3 on track 1 of capture 5. -/
def opReq (op : Nat) (slot : Nat := 7) (offset : Nat := 0) : HistReq := ⟨3, op, 1, 0, 40, offset, slot, some 5, 0⟩

/-- A decode of a word of no soft values converges at once where it may make an iteration, and fails where it may not. -/
theorem witness_decode_result : (decodeSoft 40 []).conv = true ∧ (decodeSoft 40 []).iters = 1 ∧ (decodeSoft 0 []).conv = false := by
  have h := decodeSoft_nil 39
  exact ⟨by rw [h], by rw [h], decodeSoft_zero _⟩

theorem witness_engine : (∀ x ∈ [(engaged (.live (wantOf 0)) 40, 0), (engaged (.live (wantOf 0)) 0, 0), (engaged (.stored (opReq 1) true) 40 31, 31),
      (engaged (.stored (opReq 1) false) 0 31, 31)],
      channelOn x.1 0 ∧ detPump x.1 0 = x.1 ∧ ((x.1.det 0).eng x.2).cur.isSome = true ∧ (x.1.det 0).late = [] ∧ (x.1.det 0).poolOut.length < 32 ∧
      (x.1.head 0).pin = none ∧ ((x.1.head 0).held.any fun k => decide (k.id = 5)) = true) ∧
    ((live.det 0).eng 0).cur = none ∧ idles (.decodeResult 0 0) live = true := by
  unfold channelOn; decide +kernel

theorem witness_pin_expire : let s := live.modHead 0 fun x => { x with pin := some (5, live.now - 50000), held := [capt 5] }
    s.fld (aDet 0 0xC) 15 0 = 50 ∧ sees (.pinExpire 0 0 0) s (fun u => decide ((u.head 0).pin = none)) = true ∧
    idles (.pinExpire 0 0 0) (live.modHead 0 fun x => { x with pin := some (5, live.now - 49999) }) = true := by decide +kernel

/-- One live result on the pool output queue of tile 0. -/
def pooled (st : DecSt) (info : Payload) (res : Nat) : State :=
  live.modDet 0 fun d => { d with poolOut := [⟨.live (wantOf 0), [], 0, 5, st, info, 40, 0, 9⟩], outRes := res }

theorem witness_formatter : let s := pooled .conv (hd0 ++ [9]) 1
    channelOn s 0 ∧ wordOk s (wantOf 0) (hd0 ++ [9]) = true ∧ idles (.formatterResult 0) live = true ∧
    sees (.formatterResult 0) s (fun u => decide ((u.det 0).poolOut = [] ∧ (u.det 0).outRes = 0 ∧
      (u.det 0).outQ = [⟨0, reqOf 0, [9], false, crc32c (hd0 ++ [9]), none, 5, none⟩])) = true ∧
    (let f := (pooled .fail [] 1).modHead 0 fun x => { x with held := [capt 5], pin := some (5, 7) }
     isPinned f 0 0 5 = true ∧ isPinned (pooled .syncmiss [] 1) 0 0 5 = false ∧
     sees (.formatterResult 0) f (fun u => decide ((u.det 0).ladQ = [⟨0, wantOf 0, some 5, 0x15000009⟩])) = true) ∧
    sees (.formatterResult 0) (pooled .syncmiss [] 1) (fun u => decide ((u.det 0).ladQ = [⟨3, wantOf 0, none, 0x40000000⟩])) = true := by
  unfold channelOn; decide +kernel

theorem witness_sector_send : let s := live.modDet 0 fun d => { d with outQ := [⟨0, reqOf 0, [1], false, 0, none, 5, none⟩] }
    channelOn s 0 ∧ (s.det 0).outWait = [] ∧ hubHears s 0 = true ∧ (Tab.at [] s.buf.cipherIn 0).length < 32 ∧
    18 ≤ nth 0 (s.link 0 1).credits 2 ∧ 1 ≤ nth 0 (s.link 0 1).credits 3 ∧ idles (.sectorSend 0) (s.setF (aLink 0) 3 0 4) = true := by
  unfold channelOn; decide +kernel

/-- A context of PSA 0 whose capture, with both lanes, is pinned, and an operation of it in a detector. -/
def stored (op : Nat) (slot : Nat := 7) (offset : Nat := 0) (resB : TrackRes := .conv [] true) (fr : Framing := Framing.none) : State :=
  ((((live.modHead 0 fun x => { x with held := [{ capt 5 with softA := [2], resB := resB, frA := fr }], pin := some (5, 0) }).modDet 0 fun d =>
    { d with ops := [⟨opReq op slot offset, 0, none⟩], soft := [(7, ⟨some 3, some [1]⟩)] })).setCtx 0 3
    { Ctx.none with live := true, want := { wantOf 0 with ctx := some 3 }, capid := some 5 })

/-- The commands of the eight operations. -/
def opCmds : List (Instr × Nat) := [(.redetect 0 [], 1), (.frameb 0 [], 2), (.realign 0 [], 3), (.partner 0 [], 4), (.save 0, 5), (.combine 0, 6),
  (.free 0, 7), (.release 0, 8)]

theorem witness_stored_gone : ∀ x ∈ opCmds, let s := (stored x.2).modHead 0 fun x => { x with pin := none }
    channelOn s 0 ∧ detPump s 0 = s ∧ (opFirst s 0 x.2).map (·.req) = some (opReq x.2) ∧ opCapture s (opReq x.2) = none ∧
    sees x.1 s (fun u => decide ((u.det 0).poolOut = [opResult (opReq x.2) .gone])) = true ∧ idles x.1 live = true := by
  unfold channelOn; decide +kernel

theorem witness_stored_badreq : ∀ x ∈ [(Instr.save 0, 5), (.combine 0, 6), (.free 0, 7)], let s := stored x.2 8
    (opCapture s (opReq x.2 8)).isSome = true ∧ 7 < (opReq x.2 8).slot ∧
    sees x.1 s (fun u => decide ((u.det 0).poolOut = [opResult (opReq x.2 8) .badreq])) = true := by decide +kernel

/-- REDETECT at offset 64, FRAMEB at a lone sync B, and PARTNER with its partner's bits. -/
theorem witness_stored : let fr : Framing := { Framing.none with lone := some 18736 }
    ∀ s ∈ [stored 1 7 64, stored 2 7 0 (.conv [] true) fr, stored 4, stored 3 7 16], ∃ o q k, o ∈ (s.det 0).ops ∧ opFirst s 0 q.op = some o ∧ q = o.req ∧
      opCapture s q = some k ∧ k.laneA = true ∧ k.laneB = true ∧ q.track = 1 ∧ opRange s 0 q k = true ∧ 1 ≤ q.limit ∧ (s.det 0).stQ.length < 4 ∧
      absI (reqOffset q) ≤ 64 ∧ channelOn s 0 ∧ detPump s 0 = s := by
  intro fr s hs
  simp only [List.mem_cons, List.mem_nil_iff, or_false] at hs
  rcases hs with rfl | rfl | rfl | rfl <;>
    exact ⟨_, _, _, List.mem_singleton_self _, rfl, rfl, rfl, rfl, rfl, rfl, by decide +kernel, by decide +kernel, by decide +kernel, by decide +kernel,
      by unfold channelOn; decide +kernel, by decide +kernel⟩

theorem test_zero_word (psa : Nat) (m : List Int) (h : AllZero m) : AllZero (softWord psa m) := by
  have c : AllZero (codewordOf m) := by
    intro x hx
    rcases List.mem_append.mp hx with hx | hx <;> exact h x (List.mem_of_mem_drop (List.mem_of_mem_take hx))
  intro x hx
  obtain ⟨i, hi, rfl⟩ := List.mem_iff_getElem.mp hx
  simp only [softWord, descramble, List.getElem_zipWith]
  have hi' : i < (codewordOf m).length := by
    simp only [softWord, descramble, List.length_zipWith] at hi; omega
  have := c _ (List.getElem_mem hi')
  simp [this]

theorem test_zero_dist (s : State) (psa : Nat) (sys : Bool) (m : List Int) (h : AllZero m) :
    probeDist s psa sys m ≤ weightOf ((headerOf s psa true sys).flatMap byteBits) := by
  have w : ∀ (l : List Int) (b : List Bool), AllZero l → weightOf (xorBits (hardOf l) b) ≤ weightOf b := by
    intro l
    induction l with
    | nil => intro b _; simp [hardOf, xorBits, weightOf]
    | cons x l ih =>
      intro b hl
      cases b with
      | nil => simp [hardOf, xorBits, weightOf]
      | cons y b =>
        have hx : x = 0 := hl x (List.mem_cons_self ..)
        have := ih b fun z hz => hl z (List.mem_cons_of_mem _ hz)
        simp only [weightOf, xorBits, hardOf, List.map_cons, List.zipWith_cons_cons, hx] at this ⊢
        cases y <;> simp <;> omega
  unfold probeDist
  exact (Nat.min_le_left _ _).trans (w _ _ fun x hx => h x (List.mem_of_mem_take hx))

theorem test_probe_finds (dist : Int → Nat) (h : dist 1 ≤ 40) : probeOrder none dist ≠ [] := by
  have : (1 : Int) ∈ probeOrder none dist := by
    refine List.mem_flatMap.mpr ⟨dist 1, List.mem_range.mpr (by omega), List.mem_filter.mpr ⟨by simp, by simp⟩⟩
  intro e; rw [e] at this; cases this

theorem test_take_nothing (n : Nat) (i : Int) : ∀ y ∈ takeAt ([] : List Smp) i n, y = none := by
  intro y hy
  unfold takeAt at hy
  split at hy <;> simp at hy <;> exact hy.2

theorem test_erased_track (ch : Chan) (single : Bool) (xa xb : List Smp) (fa fb : List (Option Bool)) (h : ∀ y ∈ xa, y = none) :
    AllZero (softTrack ch 0 single xa xb fa fb) := by
  unfold softTrack
  cases single
  · refine softJoint_erased _ _ _ fun o ho => ?_
    obtain ⟨i, hi, rfl⟩ := List.mem_iff_getElem.mp ho
    simp only [obsRun, List.getElem_zipWith, List.getElem_zip]
    exact h _ (List.getElem_mem _)
  · exact softSolo_erased _ _ _ h

theorem test_erased_stored (s : State) (t c h : Nat) (k : Capture) (tgt : Nat) (x : Redo)
    (e : equalised s t (laneOf c h 0) k tgt (readBank (bankOf s t (laneOf c h 0) k.id) []) = []) :
    AllZero (storedSoft s t c h k tgt 0 x []) := by
  unfold storedSoft
  refine test_erased_track _ _ _ _ _ _ ?_
  intro y hy
  simp only [badUnits, List.filter_nil, List.map_nil, e] at hy
  rcases List.mem_append.mp hy with hy | hy <;> exact test_take_nothing _ _ _ hy

/-- The probe of a capture whose banks have been erased: every offset is near. -/
theorem witness_realign : let k : Capture := { capt 5 with softA := [2], resB := .conv [] true }
    ∃ d rest, probeOffs (stored 3 7 16) 0 (opReq 3 7 16) k 0 [] = d :: rest := by
  intro k
  suffices h : probeOffs (stored 3 7 16) 0 (opReq 3 7 16) k 0 [] ≠ [] by
    cases e : probeOffs (stored 3 7 16) 0 (opReq 3 7 16) k 0 [] with
    | nil => exact absurd e h
    | cons d rest => exact ⟨d, rest, rfl⟩
  unfold probeOffs
  intro e
  rw [List.take_eq_nil_iff] at e
  refine e.elim (by decide) (test_probe_finds _ ?_)
  have z : equalised (stored 3 7 16) 0 (laneOf 0 0 0) k 0 (readBank (bankOf (stored 3 7 16) 0 (laneOf 0 0 0) k.id) []) = [] := by
    unfold equalised equalise
    have : (readBank (bankOf (stored 3 7 16) 0 (laneOf 0 0 0) k.id) []).erased = [] := by decide +kernel
    rw [this, List.zipWith_nil_left]
  exact (test_zero_dist _ _ _ _ (test_zero_word _ _ (test_erased_stored (stored 3 7 16) 0 0 0 k 0 _ z))).trans (by decide +kernel)

/-- The operations on soft values: SAVE and FREE of slot 7, RELEASE, and COMBINE, whose sum a decoder engine takes. -/
theorem witness_soft_values : (∀ op ∈ [5, 6, 7, 8], opFirst (stored op) 0 op = some ⟨opReq op, 0, none⟩ ∧ detPump (stored op) 0 = stored op) ∧
    sees (.save 0) (stored 5) (fun u => decide (Tab.at SoftSlot.free (u.det 0).soft 7 = ⟨some 3, some [2]⟩) && u.bit (aDet 0 0x10) 7) = true ∧
    sees (.free 0) (stored 7) (fun u => decide (Tab.at SoftSlot.free (u.det 0).soft 7 = SoftSlot.free) && !(u.bit (aDet 0 0x10) 7)) = true ∧
    sees (.release 0) (stored 8) (fun u => decide ((u.head 0).pin = none ∧ (u.ctx 0 3).capid = none)) = true ∧
    sees (.combine 0) (stored 6) (fun u => decide (((u.det 0).eng 0).cur.map (fun j => (j.ent.soft, j.ent.capid)) = some ([3], 5))) = true := by
  decide +kernel

/-- A stored decode that converged to a word which R64 passes. -/
theorem witness_stored_converges : let s := (stored 6).modDet 0 fun d => { d with
      ops := [⟨opReq 6, 1, none⟩], poolOut := [⟨.stored (opReq 6) true, [], 0, 5, .conv, hd0, 40, 0, 0⟩] }
    (s.ctx 0 3).live = true ∧ wordOk s (s.ctx 0 3).want hd0 = true ∧ wasRejected (s.ctx 0 3) hd0 = false ∧
    sees (.formatterResult 0) s (fun u => decide ((u.ctx 0 3).good = some hd0 ∧ (u.ctx 0 3).results = [(0, 0x0D000000)])) = true := by
  decide +kernel

/-! ### The cipher, landing, sending -/

/-- A sector for it. -/
def sect (info : Payload) : Sector := ⟨psaOf reading 1 0, { reqOf (psaOf reading 1 0) with cmd := 1 }, info, false, none, 0, none⟩

/-- That sector at the head of tile 0's cipher queue. -/
def ciphering (x : Sector) : State := { reading with buf := { reading.buf with cipherIn := [(0, [x])] } }

theorem test_convGroup_buf (s : State) (b : Buf) (n k g l : Nat) : convGroup { s with buf := b } n k g l = convGroup s n k g l := by
  induction k generalizing g l with
  | zero => rfl
  | succ k ih => simp only [convGroup, ih]; rfl

theorem test_groupOf_buf (s : State) (b : Buf) (n l : Nat) : groupOf { s with buf := b } n l = groupOf s n l := by
  unfold groupOf; rw [test_convGroup_buf]; rfl

theorem test_psaOf_buf (s : State) (b : Buf) (n lba : Nat) : psaOf { s with buf := b } n lba = psaOf s n lba := by
  unfold psaOf; simp only [test_groupOf_buf]; rfl

theorem test_slices (a t b c : Payload) (ha : a.length = 4096) (ht : t.length = 16) (hb : b.length = 16) (hc : c.length = 8) :
    (a ++ (t ++ (b ++ c))).take 4096 = a ∧ slice (a ++ (t ++ (b ++ c))) 4096 16 = t ∧
      slice (a ++ (t ++ (b ++ c))) 4112 16 = b ∧ slice (a ++ (t ++ (b ++ c))) 4128 8 = c := by
  have d1 : (a ++ (t ++ (b ++ c))).drop 4096 = t ++ (b ++ c) := List.drop_left' ha
  have d2 : (a ++ (t ++ (b ++ c))).drop 4112 = b ++ c := by
    rw [show 4112 = 4096 + 16 from rfl, ← List.drop_drop, d1, List.drop_left' ht]
  have d3 : (a ++ (t ++ (b ++ c))).drop 4128 = c := by
    rw [show 4128 = 4112 + 16 from rfl, ← List.drop_drop, d2, List.drop_left' hb]
  unfold slice
  rw [d1, d2, d3]
  exact ⟨List.take_left' ha, List.take_left' ht, List.take_left' hb, List.take_of_length_le (by omega)⟩

theorem test_sectorOf_cmd (s : State) (e : Sector) (c : Cmd) (hc : s.cmd e.req.cmd = c) (h : c.live = true ∧ c.cls = .rd ∧
    e.req.blk < c.len ∧ psaOf s c.nsid (c.lba e.req.blk) = e.psa) : sectorOf s e = some (c.nsid, c.lba e.req.blk, c.gen) := by
  subst hc
  exact if_pos h

theorem test_sectorOf (body : Payload) : sectorOf (ciphering (sect body)) (sect body) = some (1, 0, 0) :=
  test_sectorOf_cmd (ciphering (sect body)) (sect body) readCmd
    (show Tab.at Cmd.none reading.nq.cmds 1 = readCmd by decide)
    ⟨by decide, by decide, (by decide : 0 < readCmd.len), test_psaOf_buf reading _ 1 0⟩

theorem witness_decrypt_good : ∃ body plain, sectorOf (ciphering (sect body)) (sect body) = some (1, 0, 0) ∧
    keyOf (ciphering (sect body)) 0 0 = some (zeros 32) ∧
    decryptSector (zeros 32) (slotField 0 0) 1 0 body = some plain := by
  let tag := gcmTag (aesSchedule (zeros 32)) (ivOf (slotField 0 0) 0) (aadOf 1 0 0) (zeros 4096 ++ zeros 16)
  have h := test_slices (zeros 4096) tag (zeros 16) (zeros 8) List.length_replicate (beBytes_length _ _) rfl rfl
  refine ⟨zeros 4096 ++ (tag ++ (zeros 16 ++ zeros 8)),
    gcmCrypt (aesSchedule (zeros 32)) (ivOf (slotField 0 0) 0) (zeros 4096 ++ zeros 16), test_sectorOf _, rfl, ?_⟩
  unfold decryptSector gcmOpen beAt
  rw [h.1, h.2.1, h.2.2.1, h.2.2.2, show beNat (zeros 8) = 0 from by decide]
  exact if_pos rfl

theorem test_open_needs_a_tag (key iv aad ct : Payload) : gcmOpen key iv aad ct [] = none := by
  unfold gcmOpen
  exact if_neg fun h => by simpa [gcmTag, beBytes_length] using congrArg List.length h

theorem witness_decrypt_bad : sectorOf (ciphering (sect [])) (sect []) = some (1, 0, 0) ∧
    keyOf (ciphering (sect [])) 0 0 = some (zeros 32) ∧ decryptSector (zeros 32) (slotField 0 0) 1 0 [] = none :=
  ⟨test_sectorOf _, rfl, by unfold decryptSector; exact test_open_needs_a_tag _ _ _ _⟩

theorem witness_decrypt : idles (.cipherDecrypt 0) live = true ∧
    sees (.cipherDecrypt 0) ((ciphering (sect [])).setSlot 0 Slot.empty) (fun u =>
      decide (u.buf.bufWrite.map (·.drop) = [some .key] ∧ u.reg (aCiph 0x1C) = 1)) = true ∧
    sees (.cipherDecrypt 0) (ciphering { sect [] with drop := some .media }) (fun u => decide (u.buf.bufWrite.length = 1 ∧
      u.buf.cipherIn = [])) = true ∧
    (let f := ciphering (sect [])
     idles (.cipherDecrypt 0) { f with buf := { f.buf with bufWrite := List.replicate 256 (sect []) } } = true) := by decide +kernel

theorem witness_encrypt : let s : State := { reading with buf := { reading.buf with encrypt := [⟨1, 0, 0, [1], false⟩] } }
    let k : State := { (reading.setSlot 0 { Slot.empty with state := 1, key := zeros 32, res := 2 ^ 19 }) with buf := s.buf }
    headUnwritable k (psaTile (psaOf k 1 0), psaCluster (psaOf k 1 0), psaHead (psaOf k 1 0)) = false ∧
    tileTakes k (psaTile (psaOf k 1 0)) = true ∧ keyOf k (nsSlot k 1) 0 = some (zeros 32) ∧
    (k.slot 0).sctr + 2 ^ 18 < (k.slot 0).res ∧ idles .cipherEncrypt live = true ∧
    (let m : State := { k with buf := { k.buf with encrypt := [⟨1, 0, 0, [], true⟩] } }
     sees .cipherEncrypt m (fun u => decide ((u.wr 0).inQ.length = 1 ∧ (u.slot 0).sctr = 0)) = true) := by decide +kernel

/-- A sector for a line with guard slot 261 lands: its block's guard is in unit 2088, whose page, 16, has been written or
not. -/
theorem witness_landing_guard : let s (w : Bool) : State := { filling with
      memp := { filling.memp with written := if w then [(16, true)] else [] }, buf := { filling.buf with
        bufWrite := [{ sect [] with info := [5], req := { (sect []).req with cmd := 9 } }],
        lines := [(0, { lineOf filling 0 with slot := some 261 })] } }
    let bad : EccRead := ⟨0, [1, 2, 3]⟩
    guardUnit 261 0 = 2088 ∧ unitRead (s false) { bad with addr := 2088 } = false ∧ unitRead (s true) { bad with addr := 2088 } = true ∧
    (eccCls { bad with addr := 2088 }).bad = true ∧
    sees (.sectorLanding bad []) (s false) (fun u => (unitIn u (.way 0) 0).valid && decide (u.reg (aMemp 0x24) = 1)) = true ∧
    sees (.sectorLanding bad []) (s true) (fun u => !(unitIn u (.way 0) 0).valid) = true := by decide +kernel

theorem witness_landing : let e := { sect [] with info := [5] }
    let s : State := { reading with buf := { reading.buf with bufWrite := [e] } }
    let f : State := { filling with buf := { filling.buf with bufWrite := [{ e with req := { e.req with cmd := 9 } }] } }
    fillOf s 1 e.psa = none ∧ nsGuard s 1 = false ∧ s.bit (aBuf 0x40) 31 = false ∧
    idles (.sectorLanding ⟨0, []⟩ []) live = true ∧
    sees (.sectorLanding ⟨0, []⟩ []) s (fun u => decide (((u.cmd 1).blk 0).st = .ready ∧ ((u.cmd 1).blk 0).data = [5])) = true ∧
    fillOf f 9 e.psa = some (0, 0) ∧ (unitIn f (.way 0) 0).gone = false ∧ (lineOf f 0).slot = none ∧
    sees (.sectorLanding ⟨0, []⟩ []) f (fun u => decide ((unitIn u (.way 0) 0).valid = true ∧ (unitIn u (.way 0) 0).data = [5])) = true := by
  decide +kernel

/-- A read whose block 0 is ready, in a dirty unit of way 0 of its set, 8192. -/
def dirtyRead : State := let s := (reading.setCmd 1 { readCmd with blks := [⟨.ready, none, [], none⟩] }).with [(aHpt 0 4, 2)]
  { s with memp := { s.memp with written := [(0, true)] }, buf := { s.buf with
    lines := [(131072, ⟨1, 0, 0, false, false, [(0, { Unit4.none with valid := true, dirty := true })], some 256⟩)] } }

/-- A unit of page 0 of the buffer with three wrong symbols. -/
def wrongUnit : EccRead := ⟨0, [1, 2, 3]⟩

theorem witness_read_send : let s := (reading.setCmd 1 { readCmd with blks := [⟨.ready, none, [], none⟩] })
    let u := s.with [(aHpt 0 4, 2)]
    canSend u 0 = true ∧ canSend s 0 = false ∧ idles (.rdmaDataSend 1 0 []) reading = true ∧
    sees (.rdmaDataSend 1 0 []) u (fun v => decide (v.out.length = 2 ∧ ((v.cmd 1).blk 0).st = .sent)) = true ∧
    sees (.rdmaDataSend 1 0 []) s (fun v => decide (Tab.at [] v.nq.tx 0 = [(1, 0)])) = true := by decide +kernel

theorem witness_read_send_lost : let s := storeReads dirtyRead [wrongUnit]
    (eccCls wrongUnit).bad = true ∧ eccStore wrongUnit.addr = 0 ∧ eccIndex wrongUnit.addr / 128 = 0 ∧
    blkPage dirtyRead 1 0 = some (0, some (.way 131072)) ∧ (unitIn dirtyRead (.way 131072) (readCmd.lba 0)).dirty = true ∧
    canSend dirtyRead 0 = true ∧ canSend s 0 = true ∧ s.cmd 1 = dirtyRead.cmd 1 ∧ unitRead dirtyRead wrongUnit = true ∧
    inBlock dirtyRead (.way 131072) (readCmd.lba 0) 2048 = true ∧ inBlock dirtyRead (.way 131072) (readCmd.lba 0) 0 = false ∧
    sees (.rdmaDataSend 1 0 [wrongUnit]) dirtyRead (fun u => decide (((u.cmd 1).blk 0).drop = some .media)) = true := by decide +kernel

theorem witness_read_complete : let s := reading.setCmd 1 { readCmd with blks := [⟨.sent, none, [], none⟩, ⟨.sent, none, [], none⟩], hi := 2 }
    let d := (reading.setCmd 1 { readCmd with blks := [⟨.sent, some .media, [], none⟩, ⟨.sent, none, [], none⟩], hi := 2 }).setQp 0
      { Qp.free with state := 2, held := true, qid := 1, rent := 4, raddr := 4096, ringSeq := 5 }
    (s.cmd 1).allSent = true ∧ (s.cmd 1).len = 2 ∧ (s.cmd 1).drops = [] ∧ (d.cmd 1).drops = [(0, .media)] ∧
    sees (.readCompletion 1) s (fun u => decide (u.out = [.cqe 0 0 0 0 0 0 0 false] ∧ (u.cmd 1).live = false)) = true ∧
    sees (.readCompletion 1) d (fun u => decide (u.out.head? = some (.cqe 0 0 0x80000001 0 0 Status.partialDrop.sct
      Status.partialDrop.code Status.partialDrop.dnr) ∧ (u.qp 0).ringSeq = 6)) = true := by decide +kernel

theorem witness_write_data : let s := reading.setCmd 1 { readCmd with cls := .wr, turned := false, blks := [⟨.fetching, none, [], none⟩] }
    sees (.rdmaReadResponse 1 0 [8]) s (fun u => decide ((u.cmd 1).blk 0 = ⟨.staged, none, [8], none⟩)) = true ∧
    sees (.rdmaReadResponse 1 0 [8]) reading (fun u => decide (u.nq.cmds = reading.nq.cmds)) = true := by decide +kernel

/-! ### Engines: responses, packets, stores -/

theorem witness_responses : let s := withThread 0 63 { Thread.none with live := true, wait := some (7, 3) }
    let l := (withThread 6 255 { Thread.none with live := true, wait := some (3, 4) }).setCtx 0 255 { Ctx.none with live := true, results := [(0, 9), (1, 8)] }
    (∀ x ∈ [(Instr.tileResponse 63 5 6, (0 : Word)), (.bufferResponse 63 5 6, 1), (.rdmaResponse 63 5 6, 2)],
      sees x.1 s (fun u => decide ((thread u 0 63).wait = none ∧ (thread u 0 63).g = Tab.to 0 (Tab.to 0 [(1, 5), (2, 6)] 3 x.2) 3 x.2)) = true ∧
      idles x.1 live = true) ∧
    sees (.hres 0 255) l (fun u => decide ((thread u 6 255).g = [(1, 9)] ∧ (u.ctx 0 255).results = [(1, 8)])) = true ∧
    sees (.rres 0 255) l (fun u => decide ((thread u 6 255).g = [(1, 8), (4, 1)])) = true ∧
    idles (.hres 0 0) live = true ∧ idles (.rres 0 0) live = true := by decide +kernel

theorem witness_packets : let s := (withThread 0 0 { Thread.none with live := true }).modDet 0 fun d => { d with events := [3] }
    let f := s.modEng 0 fun g => { g with b0 := ⟨false, []⟩, threads := (List.range 64).map fun i => (i, { Thread.none with live := true }) }
    freeThread s 0 = some 1 ∧ 1 ≤ nth 0 (s.link 0 1).credits 1 ∧ s.linkUp 0 = true ∧ idles (.tileEvent 0) live = true ∧ freeThread f 0 = none ∧
    sees (.tileEvent 0) s (fun u => decide ((thread u 0 1).g = [(1, 3)] ∧ (thread u 0 1).packet = 0xF0 ∧ (u.det 0).events = [])) = true ∧
    sees .dispatchTimerTick s (fun u => (thread u 0 1).live) = true ∧
    sees .dispatchTimerTick f (fun u => decide (u.tl.packets = [(0xF3, 0)])) = true ∧
    sees (.tileEvent 0) f (fun u => decide (u.tl.packets = [(0xF0, 3)])) = true := by decide +kernel

theorem witness_store_load : let s := live.with [(aUcs 5 0xC, 7)]
    swapPending s 5 = false ∧ drain s 5 = 0 ∧
    sees (.ucsLoad 5) s (fun u => decide (staged u 5 = 1 ∧ u.reg (aUcs 5 0xC) = 0 ∧ bankWord 5 (stagedBank u 5) 0 = 0) &&
      sees (.ucsDataWrite 5 9) u (fun v => decide (bankWord 5 (stagedBank v 5) 0 = 9 ∧ v.reg (aUcs 5 0xC) = 1))) = true ∧
    sees (.ucsLoad 5) (live.with [(aUcs 5 4, 0x100)]) (fun u => decide (u.out = [.reply .port (aUcs 5 0) 1 .storeBusy])) = true := by
  decide +kernel

theorem witness_store_commands : let p := live.with [(aUcs 5 4, 0x100)]
    let r := (live.with [(aUcs 1 4, 0x20), (aCtl 0 0 4, 4)])
    let v := (live.with [(aUcs 1 4, 0x30), (aCtl 0 0 4, 4)])
    swapPending p 5 = true ∧ staged live 5 = 0 ∧ staged r 1 = 2 ∧ staged v 1 = 3 ∧ atOnce (r.setB (aUcs 1 4) 8 true) 1 = false ∧
    idles (.swapEffect 5) live = true ∧
    sees (.seal 5) live (fun u => decide (u.out = [.reply .port (aUcs 5 0) 2 .badField])) = true ∧
    sees (.swap 5) p (fun u => decide (u.out = [.reply .port (aUcs 5 0) 3 .storeBusy])) = true ∧
    sees (.ucsRevert 5) p (fun u => decide (u.out = [.reply .port (aUcs 5 0) 4 .storeBusy])) = true ∧
    sees (.swap 5) live (fun u => decide (u.out = [.reply .port (aUcs 5 0) 3 .badField])) = true ∧
    sees (.ucsRevert 5) live (fun u => decide (u.out = [.reply .port (aUcs 5 0) 4 .noPrevious])) = true ∧
    sees (.cancel 5) p (fun u => !(swapPending u 5)) = true ∧
    sees (.swap 1) r (fun u => swapPending u 1) = true ∧ sees (.ucsRevert 1) v (fun u => swapPending u 1) = true := by decide +kernel

/-- A staged bank sealed with its own CRC and with another. -/
theorem witness_store_seal : ∃ w w' : Word, w ≠ w' ∧ w = bankCrc 5 (stagedBank live 5) ∧
    ((live.with [(aUcs 5 4, 0x10)]).setReg (aUcs 5 0x14) w).reg (aUcs 5 0x14) = w ∧
    ((live.with [(aUcs 5 4, 0x10)]).setReg (aUcs 5 0x14) w').reg (aUcs 5 0x14) = w' ∧
    ∀ x, staged ((live.with [(aUcs 5 4, 0x10)]).setReg (aUcs 5 0x14) x) 5 = 1 ∧
      stagedBank ((live.with [(aUcs 5 4, 0x10)]).setReg (aUcs 5 0x14) x) 5 = stagedBank live 5 := by
  refine ⟨_, ~~~(bankCrc 5 (stagedBank live 5)), ?_, rfl, State.setReg_reg .., State.setReg_reg .., fun x => ⟨?_, ?_⟩⟩
  · intro h; have := congrArg (fun w : Word => w.getLsbD 0) h; simp at this
  · simp only [staged, State.fld]
    rw [State.setReg_reg_ne _ _ (by decide)]; decide
  · simp only [stagedBank, liveBank, State.fld]
    rw [State.setReg_reg_ne _ _ (by decide)]; rfl

theorem witness_swap : let r := (live.with [(aUcs 5 4, 0x120)])
    engineOn r 5 ∧ swapPending r 5 = true ∧
    sees (.swapEffect 5) r (fun u => decide (liveBank u 5 = 1 ∧ staged u 5 = 3 ∧ u.reg (aUcs 5 0x24) = 1)) = true ∧
    sees (.swapEffect 5) (r.modEng 5 fun g => { g with b1 := ⟨false, []⟩ }) (fun u => (thread u 5 0).fresh) = true ∧
    (let m := (live.with [(aUcs 1 4, 0x120)]).modEng 1 fun g => { g with b1 := ⟨false, []⟩, threads := [(0, { Thread.none with live := true })] }
     isRoutine 1 = true ∧ sees (.swapEffect 1) m (fun u => decide ((u.eng 1).queue = [(1, 0)] ∧ (thread u 1 0).fresh = false)) = true) ∧
    (let q := live.with [(aUcs 1 4, 0x20)]
     atOnce (q.setB (aUcs 1 4) 8 true) 1 = true ∧ sees (.swap 1) q (fun u => decide (liveBank u 1 = 1)) = true) ∧
    (let q := live.with [(aUcs 0 4, 0x30)]
     atOnce (q.setB (aUcs 0 4) 8 true) 0 = true ∧ sees (.ucsRevert 0) q (fun u => decide (liveBank u 0 = 1)) = true) := by
  refine ⟨⟨by decide, Or.inr (by decide), by decide⟩, ?_⟩; decide

/-! ### Writing and the arm link -/

/-- Tile 0 with these sectors in cluster 0's queue and this write side of head 0. -/
def writing (q : List WrEnt) (w : HeadW) : State := (live.setWrQ 0 0 q).setHeadW 0 w

/-- As `writing`, its head able to write: WCUR set, heated, on track, armed (R143, R145). -/
def writable (w : HeadW) : State :=
  (writing [] { w with heatAt := some 0 }).with
    [(aWrtC 0 0 0x104, 0x20000), (aWrtC 0 0 0x10C, 8), (aCtl 0 0 0x100C, 2 ^ 31), (aWrtC 0 0 0, 2), (aCtl 0 0 4, 4)]

theorem witness_sector_encode : let e : WrEnt := { wrEnt 0 with discard := true }
    let s := live.modWr 0 fun w => { w with inQ := [e] }
    channelOn s 0 ∧ encodeNext s 0 = some e ∧ sees (.sectorEncode 0) s (fun u => decide ((u.wr 0).inQ = [] ∧ u.wrQ 0 0 = [e])) = true := by
  unfold channelOn; decide +kernel

theorem witness_serialiser_take : let d := writing [{ wrEnt 0 with discard := true }] HeadW.none
    let s := (writable HeadW.none).setWrQ 0 0 [wrEnt 0]
    takeable d 0 0 0 { wrEnt 0 with discard := true } = true ∧ takeable s 0 0 0 (wrEnt 0) = true ∧
    tWriter s 0 (headIx 0 0) = false ∧ headDead s 0 0 0 = false ∧ s.fld (aWrtC 0 0 0x104) 23 17 = 1 ∧
    sees (.serialiserTake 0 0 0 false) d (fun u => decide ((u.wr 0).results = [⟨0, .host, 1, 0, 0, .skipped⟩])) = true ∧
    sees (.serialiserTake 0 0 0 true) s (fun u => decide ((u.headW 0).ser = [{ wrEnt 0 with late := true }] ∧
      u.reg (aWrt 0 0x1C) = 1)) = true := by decide +kernel

theorem witness_write_heat : let s := writable { HeadW.none with ser := [wrEnt 0] }
    armState s 0 0 = 2 ∧ isLoaded s 0 0 = true ∧
    sees (.writeHeat 0 0 0) s (fun u => decide ((u.headW 0).heatAt = some u.now ∧ (u.arm 0 0).mask = 1 ∧ (u.arm 0 0).ctl.length = 2)) = true := by
  decide +kernel

/-- The newest outputs are a burst of sector `p` that begins at `at_` with this polarity and these transitions, and `l`. -/
def bursts (u : State) (p : Nat) (at_ : Int) (first : Bool) (moves : List Int) (l : List Out) : Bool :=
  match u.out with
  | .mediaWrite 0 0 0 q _ _ _ a f m :: rest => decide (q = p ∧ a = at_ ∧ f = first ∧ m = moves ∧ rest = l)
  | _ => false

/-- A zone 0 with data spans of 10 bits: 6,383 bits a track, no wedge span. -/
def zoneRegs : List (Nat × Nat) := [(aTile 0 0x104, 12), (aTile 0 0x200, 6383)]

/-- A sector begins its first data span with 96 bits of 0b1100 before it, one transition in two; PC1 and PC2 are 0. -/
theorem witness_burst_start : let e := wrEnt 0
    let s := (writable { HeadW.none with ser := [e] }).with zoneRegs
    channelOn s 0 ∧ dataSpan s 0 0 = 10 ∧ burstSpan s 0 e = (0, 10) ∧ burstReady s 0 0 0 e = true ∧ heated s 0 0 = true ∧
    (s.headW 0).gate = false ∧ tWriter s 0 (headIx 0 0) = false ∧ headDead s 0 0 0 = false ∧ s.fld (aWrtC 0 0 0x104) 23 17 ≠ 0 ∧
    s.bit (aWrtC 0 0 0x10C) 0 = false ∧ (s.bit (aCtl 0 0 0x100C) 29 || (decide ((s.ctl 0 0).shift ≠ 0) && !(onTrack s 0 0 0))) = false ∧
    sees (.writeBurstStart 0 0 0) s (fun u => bursts u 0 (-64 * 96) true ((List.range 52).map fun k => 128 * (k + 1)) [.gate 0 0 0 true]) = true ∧
    (let c := s.setHeadW 0 { HeadW.none with ser := [e] }
     heated c 0 0 = false ∧ sees (.writeBurstStart 0 0 0) c (fun u => decide (u.reg (aWrt 0 0x1C) = 1)) = true) ∧
    (let o := s.with [(aCtl 0 0 0x100C, 0)]
     burstReady o 0 0 0 e = false ∧ idles (.writeBurstStart 0 0 0) o = true) ∧
    sees (.writeBurstStart 0 0 0) (writable { HeadW.none with ser := [{ e with late := true }] }) (fun u => decide ((u.headW 0).ser = [e])) = true := by
  unfold channelOn; decide +kernel

/-- The end of a burst: of a head no longer armed, at a wedge span, of a sector's last bits alone, with VERIFY, and with the next sector
in the same data span. -/
theorem witness_burst_end : let e : WrEnt := { wrEnt 0 with done := 37373 }
    let s (q : List WrEnt) (r : List (Nat × Nat)) := (writable { HeadW.none with ser := q, gate := true }).with (zoneRegs ++ r)
    channelOn (s [e] []) 0 ∧ burstSpan (s [e] []) 0 (wrEnt 0) = (0, 10) ∧ burstSpan (s [e] []) 0 e = (3, 3) ∧ entLen (s [e] []) 0 e = 37376 ∧
    sees (.writeBurstEnd 0 0 0) (s [e] [(aWrtC 0 0 0x10C, 0)]) (fun u => decide (u.out = [.gate 0 0 0 false] ∧
      (u.headW 0).ser = [{ wrEnt 0 with tries := 1 }] ∧ u.reg (aWrt 0 0x14) = 1)) = true ∧
    sees (.writeBurstEnd 0 0 0) (s [wrEnt 0] []) (fun u => decide (u.out = [.gate 0 0 0 false] ∧ (u.headW 0).ser = [{ wrEnt 0 with done := 10 }])) = true ∧
    sees (.writeBurstEnd 0 0 0) (s [e] [(aWrt 0 0, 0)]) (fun u => decide ((u.wr 0).results = [⟨0, .host, 1, 0, 0, .written⟩] ∧
      u.out.head? = some (.gate 0 0 0 false))) = true ∧
    sees (.writeBurstEnd 0 0 0) (s [e] [(aWrt 0 0, 0x10000)]) (fun u => decide ((u.wr 0).results = [] ∧ (u.headW 0).verify = [e])) = true ∧
    sees (.writeBurstEnd 0 0 0) (s [e, wrEnt 1] [(aWrt 0 0, 0)]) (fun u => decide ((u.headW 0).gate = true ∧
      (u.headW 0).ser = [{ wrEnt 1 with begun := true }] ∧ (u.wr 0).results = [⟨0, .host, 1, 0, 0, .written⟩])) = true := by
  unfold channelOn; decide +kernel

theorem witness_run_end : let s := (writable { HeadW.none with run := true }).setArm 0 0 { Arm.none with mask := 1 }
    sees (.writeRunEnd 0 0 0) s (fun u => decide ((u.headW 0).run = false ∧ (u.arm 0 0).mask = 0 ∧ (u.arm 0 0).ctl.length = 2)) = true := by
  decide +kernel

/-- A conventional band of three tracks, where a write to track 0 spills onto track 1 (R150). -/
def spilling : State := (writing [wrEnt 0] HeadW.none).with [(aTile 0 0x104, 3), (aTile 0 0x110, 1)]

theorem witness_partners : ((spilling.wrQ 0 0).filter fun e => decide (psaHead e.psa = 0)).filterMap (needsPartner spilling 0 0 0) = [2 ^ 14] ∧
    headDead spilling 0 0 0 = false ∧ (partnerState (spilling.headW 0) (2 ^ 14)).isNone = true ∧
    sees (.partnerRead 0 0 0) spilling (fun u => decide ((u.headW 0).partners = [(2 ^ 14, .asked)])) = true ∧
    idles (.partnerRead 0 0 0) live = true ∧
    (∀ x ∈ [(PartSt.lost, WrKind.marker), (.ready [5], .partner)],
      sees (.partnerRewrite 0 0 0) (writing [] { HeadW.none with partners := [(2 ^ 14, x.1)] }) (fun u =>
        decide ((u.headW 0).partners = [] ∧ (u.wr 0).inQ.map (·.kind) = [x.2])) = true) := by decide +kernel

theorem witness_readback_verify : let s := writing [] { HeadW.none with encroach := [3], verify := [wrEnt 0] }
    idles (.encroachReadback 0) live = true ∧ idles (.verifyRead 0 0 0) live = true ∧ headDead s 0 0 0 = false ∧
    sees (.encroachReadback 0) s (fun u => decide ((u.headW 0).encroach = [] ∧ (u.head 0).want.length = 1)) = true ∧
    sees (.verifyRead 0 0 0) s (fun u => decide ((u.headW 0).verify = [] ∧ (u.headW 0).verifying = [wrEnt 0] ∧ (u.head 0).want.length = 1)) = true := by
  decide +kernel

/-- A sector of PSA 0 read back with this result. -/
def readBack (st : DecSt) (e : WrEnt) : State := (writing [] { HeadW.none with verifying := [e] }).modDet 0 fun d =>
  { d with poolOut := [⟨.live ⟨⟨0, 0, 0, .verify, 7⟩, none, false⟩, [], 0, 5, st, hd0, 1, 0, 0⟩] }

theorem witness_verified : (readBack .fail (wrEnt 0)).fld (aWrt 0 0) 23 20 = 3 ∧ 1 < (readBack .fail (wrEnt 0)).fld (aTile 0 0x100C) 23 16 ∧
    sees (.formatterResult 0) (readBack .conv (wrEnt 0)) (fun u => decide ((u.wr 0).results.map (·.st) = [.written])) = true ∧
    sees (.formatterResult 0) (readBack .absent { wrEnt 0 with discard := true }) (fun u => decide ((u.wr 0).results.map (·.st) = [.skipped])) = true ∧
    sees (.formatterResult 0) (readBack .fail (wrEnt 0)) (fun u => decide ((u.wr 0).inQ.map (·.tries) = [1] ∧ u.reg (aWrt 0 0x14) = 1)) = true ∧
    sees (.formatterResult 0) (readBack .fail { wrEnt 0 with tries := 3 })
      (fun u => decide ((u.wr 0).results.map (·.st) = [.wfail] ∧ (u.headW 0).fails = 1)) = true := by decide +kernel

theorem witness_write_result : let k := 16 * setOf live 1 0
    let s (st : WrSt) := (filling.setWr 0 ⟨[], [⟨0, .host, 1, 0, 0, st⟩]⟩)
    let f (st : WrSt) : State := { s st with buf := { (s st).buf with
      lines := [(16 * setOf live 1 0, ⟨1, 0, 0, false, false, [(0, { Unit4.none with valid := true, dirty := true, inflight := true })], none⟩)] } }
    (f .wfail).linkUp 0 = true ∧ idles (.writeResult 0) ((f .wfail).setF (aLink 0) 3 0 4) = true ∧
    ((placesOf (f .wfail) 1 0).find? fun p => (unitIn (f .wfail) p 0).inflight) = some (.way k) ∧
    sees (.writeResult 0) (f .wfail) (fun u => decide ((unitIn u (.way k) 0).elig = true ∧ u.reg (aBuf 0x13C) = 1)) = true ∧
    sees (.writeResult 0) (f .written) (fun u => decide ((unitIn u (.way k) 0).dirty = false)) = true ∧
    (let o : State := { f .written with buf := { (f .written).buf with orphans := [(1, 0)] } }
     sees (.writeResult 0) o (fun u => decide (u.buf.orphans = [] ∧ u.buf.lines = o.buf.lines)) = true) := by decide +kernel

/-- Tile 0's arm link 0 in service with this side. -/
def armUp (a : Arm) : State := (live.setF (aWrtC 0 0 0) 3 0 2).setArm 0 0 a

theorem witness_arm_slot : let c := armUp { Arm.none with ctl := [armFrame 2 0] }
    let g := armUp { Arm.none with pend := [(0, some 5)] }
    nextGroup (c.arm 0 0) = none ∧ nextGroup (g.arm 0 0) = some 0 ∧
    sees (.armFrameSlot 0 0) c (fun u => decide (u.out = [.armFrame 0 0 (armFrame 2 0)] ∧ (u.arm 0 0).wait.isSome)) = true ∧
    sees (.armFrameSlot 0 0) g (fun u => decide ((u.arm 0 0).pend = [] ∧ (u.arm 0 0).group = 1)) = true ∧
    sees (.armFrameSlot 0 0) (armUp Arm.none) (fun u => decide (u.out = [.armFrame 0 0 (armFrame 0 0)])) = true := by decide +kernel

theorem witness_status_frame : let a (n : Nat) := armUp { Arm.none with wait := some (armFrame 4 (2 ^ 32), n, 0), ackc := some 1 }
    let f := armFrame 0 (2 * 2 ^ 8)
    armCrcOk f = true ∧ frameBits f 63 60 = 0 ∧ frameBits f 9 8 = 2 ∧ f.getLsbD 10 = false ∧ (∀ j, j < 48 → f.getLsbD (12 + j) = false) ∧
    sees (.statusFrame 0 0 f) (a 0) (fun u => decide ((u.arm 0 0).wait = none ∧ u.reg (aWrtC 0 0 0x10) = 1) && u.bit (aWrtC 0 0 0x10C) 3) = true ∧
    sees (.statusFrame 0 0 (armFrame 0 (2 ^ 8))) (a 0) (fun u => decide ((u.arm 0 0).wait.map (·.2) = some (1, 0))) = true ∧
    sees (.statusFrame 0 0 (armFrame 0 (2 ^ 8))) (a 1) (fun u => decide ((u.arm 0 0).wait.map (·.2) = some (0, 1) ∧ u.reg (aWrtC 0 0 0xC) = 1)) = true ∧
    sees (.statusFrame 0 0 1) (a 0) (fun u => decide ((u.arm 0 0).bad = 1 ∧ u.fld (aWrtC 0 0 8) 31 16 = 1)) = true := by decide +kernel

theorem witness_reply_frame : let f := armFrame 2 (2 * 2 ^ 52 + 77 * 2 ^ 36)
    armCrcOk f = true ∧ frameBits f 63 60 = 2 ∧ frameBits f 59 52 = 2 ∧
    sees (.replyFrame 0 0 f) (armUp { Arm.none with temp := true }) (fun u => decide (u.reg (aWrtC 0 0 0x14) = 77 ∧ (u.arm 0 0).temp = false)) = true ∧
    sees (.replyFrame 0 0 f) ((armUp { Arm.none with pacc := some 0 }).with [(aWrtC 0 0 0x18, 0x80020000)])
      (fun u => decide (u.reg (aWrtC 0 0 0x18) = 0x2004D)) = true := by decide +kernel

theorem witness_fault_frame : let f := armFrame 1 (4 * 2 ^ 56 + 2 ^ 55)
    armCrcOk f = true ∧ frameBits f 63 60 = 1 ∧ frameBits f 59 56 = 4 ∧ frameBits f 55 32 = 2 ^ 23 ∧
    sees (.faultFrame 0 0 f) (armUp Arm.none) (fun u => u.bit (aWrtC 0 0 0x30) 23 &&
      decide ((u.arm 0 0).watch = [⟨4, 23, u.now⟩] ∧ (u.arm 0 0).ctl = [armFrame 7 (4 * 2 ^ 56 + 2 ^ 55)])) = true := by decide +kernel

theorem witness_latch_clear : let s := (armUp { Arm.none with watch := [⟨4, 23, 0⟩] }).with [(aWrtC 0 0 0x34, 3)]
    idles (.faultLatchClear 0 0 0 5) s = true ∧
    sees (.faultLatchClear 0 0 5 2) s (fun u => decide (u.reg (aWrtC 0 0 0x34) = 1 ∧ (u.arm 0 0).ctl = [armFrame 7 (15 * 2 ^ 56 + 2 * 2 ^ 32)])) = true ∧
    idles (.refaultWindowEnd 0 0 3 23) s = true ∧
    sees (.refaultWindowEnd 0 0 4 23) s (fun u => decide ((u.arm 0 0).watch = [])) = true := by decide +kernel

/-- The link in state `n` at the entry step of `a`. -/
def armAt (n : Nat) (a : Arm) : State := (live.setF (aWrtC 0 0 0) 3 0 n).setArm 0 0 a

theorem witness_arm_train : let pass := List.replicate 3 false ++ List.replicate 8 true
    longestRun (pass.take 32) = (3, 8) ∧ idles (.armLinkTrainStep 0 0 []) (armAt 2 Arm.none) = true ∧
    sees (.armLinkTrainStep 0 0 []) (armAt 0 Arm.none) (fun u => decide (armState u 0 0 = 1 ∧ (u.arm 0 0).step = 1)) = true ∧
    idles (.armLinkTrainStep 0 0 []) (armAt 1 { Arm.none with step := 1, count := 31 }) = true ∧
    sees (.armLinkTrainStep 0 0 []) (armAt 1 { Arm.none with step := 1, count := 32 }) (fun u => decide ((u.arm 0 0).step = 2)) = true ∧
    idles (.armLinkTrainStep 0 0 (pass.take 10)) (armAt 1 { Arm.none with step := 2 }) = true ∧
    sees (.armLinkTrainStep 0 0 pass) (armAt 1 { Arm.none with step := 2 }) (fun u =>
      decide ((u.arm 0 0).step = 3 ∧ u.fld (aWrtC 0 0 0) 12 8 = 6 ∧ (u.arm 0 0).ctl.length = 2)) = true ∧
    sees (.armLinkTrainStep 0 0 []) (armAt 3 { Arm.none with step := 3, ident := some 1, rev := some 2 }) (fun u => decide ((u.arm 0 0).step = 4)) = true ∧
    sees (.armLinkTrainStep 0 0 []) (armAt 3 { Arm.none with step := 5 }) (fun u => decide (armState u 0 0 = 2 ∧ (u.arm 0 0).step = 0)) = true := by
  decide +kernel

theorem witness_arm_restart : idles (.armLinkRestart 0 0) (armAt 3 Arm.none) = true ∧
    sees (.armLinkRestart 0 0) (armAt 3 { Arm.none with stopped := some 0 }) (fun u =>
      decide ((u.arm 0 0).step = 1 ∧ (u.arm 0 0).attempts = 1 ∧ u.fld (aWrtC 0 0 0) 31 24 = 1)) = true ∧
    sees (.preampTempPoll 0 0) (armUp Arm.none) (fun u => decide ((u.arm 0 0).ctl = [armFrame 6 (2 * 2 ^ 52)])) = true ∧
    idles (.preampTempPoll 0 0) (armUp { Arm.none with temp := true }) = true := by decide +kernel

theorem witness_pacc : sees (.paccGo 0 0 0xC0120034) (armUp Arm.none) (fun u =>
      decide ((u.arm 0 0).pacc = some 0 ∧ (u.arm 0 0).ctl = [armFrame 5 (0x12 * 2 ^ 52 + 0x34 * 2 ^ 36)])) = true ∧
    sees (.paccGo 0 0 0x80120000) live (fun u => u.bit (aWrtC 0 0 0x18) 29 && !(u.bit (aWrtC 0 0 0x18) 31)) = true ∧
    sees (.paccGo 0 0 0) (live.with [(aWrtC 0 0 0x18, 2 ^ 31)]) (fun u => decide (u.out = [.reply .engine (aWrtC 0 0 0x18) 0 .storeBusy])) = true := by
  decide +kernel

/-! ### Microcode words, ladder threads, bookings, posted records -/

/-- A microword (R284). -/
def mw (op a b imm : Nat) : Word := place 31 26 op ||| place 25 21 a ||| place 20 16 b ||| place 15 0 imm

/-- A POST of registers g1 and g2 (R285). -/
def post (kind : Nat) : Word := mw 0x30 1 2 (256 * kind)

/-- A running thread with registers g1 = `x`, g2 = `y`, g3 = 33, at address 5 of a bank of zeros with this word there. -/
def runner (w : Word) (e th : Nat) (x : Word := 7) (y : Word := 0xFFFFFFFE) : State :=
  (withThread e th { Thread.none with live := true, pc := 5, g := [(1, x), (2, y), (3, 33)] }).modEng e
    fun g => { g with g := [(1, x), (2, y), (3, 33)], b0 := ⟨false, [(5, w)]⟩, b1 := ⟨false, [(5, w)]⟩ }

theorem test_runs : ∀ p ∈ [(0, 63), (1, 0), (5, 0), (6, 255)], let w := mw 0x01 31 1 0x1000
    runsWord (runner w p.1 p.2) p.1 p.2 w ∧ (thread (runner w p.1 p.2) p.1 p.2).pc + 1 < storeWords p.1 := by
  unfold runsWord running engineOn; decide +kernel

/-- What a word leaves in g31 of thread 63 of the dispatch engine, and the address it goes on to. -/
def leaves (i : Instr) (m w : Word) : Bool :=
  sees i (runner m 0 63) fun u => decide (getReg u 0 63 31 = w ∧ (thread u 0 63).pc = 6 ∧ (thread u 0 63).steps = 1)

theorem test_words_rr : leaves (.add 0 63) (mw 0x01 31 1 0x1000) 5 ∧ leaves (.sub 0 63) (mw 0x02 31 1 0x1000) 9 ∧ leaves (.and 0 63) (mw 0x03 31 1 0x1000) 6 ∧
    leaves (.or 0 63) (mw 0x04 31 1 0x1000) 0xFFFFFFFF ∧ leaves (.xor 0 63) (mw 0x05 31 1 0x1000) 0xFFFFFFF9 ∧ leaves (.shl 0 63) (mw 0x06 31 1 0x1800) 14 ∧
    leaves (.shr 0 63) (mw 0x07 31 2 0x1800) 0x7FFFFFFF ∧ leaves (.sar 0 63) (mw 0x08 31 2 0x1800) 0xFFFFFFFF ∧ leaves (.mul 0 63) (mw 0x09 31 1 0x1000) 0xFFFFFFF2 ∧
    leaves (.slt 0 63) (mw 0x0A 31 2 0x800) 1 ∧ leaves (.sltu 0 63) (mw 0x0B 31 2 0x800) 0 ∧ leaves (.min 0 63) (mw 0x0C 31 1 0x1000) 0xFFFFFFFE ∧
    leaves (.max 0 63) (mw 0x0D 31 1 0x1000) 7 := by decide +kernel

theorem test_words_ri : leaves (.addi 0 63) (mw 0x10 31 1 0xFFF8) 0xFFFFFFFF ∧ leaves (.andi 0 63) (mw 0x11 31 2 0xFFFF) 0xFFFE ∧
    leaves (.ori 0 63) (mw 0x12 31 1 0x8000) 0x8007 ∧ leaves (.lui 0 63) (mw 0x13 31 0 0xFFFF) 0xFFFF0000 ∧ leaves (.shli 0 63) (mw 0x14 31 1 0x21) 14 ∧
    leaves (.shri 0 63) (mw 0x15 31 2 0x1) 0x7FFFFFFF ∧ leaves (.sari 0 63) (mw 0x16 31 2 0x1F) 0xFFFFFFFF ∧
    sees (.add 0 63) (runner (mw 0x01 0 1 0x800) 0 63) (fun u => decide (getReg u 0 63 0 = 0)) ∧ sees (.nop 0 63) (runner 0 0 63)
      (fun u => decide ((thread u 0 63).pc = 6)) := by decide +kernel

theorem test_words_accumulate : let s (w : Word) (a : Int) := (runner w 5 0).modEng 5 fun g => { g with acc := a }
    sees (.mac 5 0) (s (mw 0x18 0 1 0x1000) 0) (fun u => decide ((u.eng 5).acc = -14)) ∧
    sees (.msu 5 0) (s (mw 0x19 0 1 0x1000) (2 ^ 39 - 3)) (fun u => decide ((u.eng 5).acc = 2 ^ 39 - 1)) ∧
    sees (.aclr 5 0) (s (mw 0x1A 0 0 0) 9) (fun u => decide ((u.eng 5).acc = 0)) ∧
    sees (.aout 5 0) (s (mw 0x1B 31 0 1) (-3)) (fun u => decide (getReg u 5 0 31 = 0xFFFFFFFF)) ∧
    sees (.aout 5 0) (s (mw 0x1B 31 0 1) 65535) (fun u => decide (getReg u 5 0 31 = 32767 ∧ u.reg (aSpn 0 0x70) = 1)) ∧
    sees (.mac 0 63) (runner (mw 0x18 0 1 0x1000) 0 63) (fun u => decide (u.fld (aUcs 0 0x2C) 31 28 = 1)) := by decide +kernel

/-- Where a word of thread 63 of the dispatch engine goes. -/
def goes (i : Instr) (w : Word) (n : Nat) : Bool := sees i (runner w 0 63) fun u => decide ((thread u 0 63).pc = n)
/-- The cause of the fault that a word takes. -/
def faultsWith (i : Instr) (e n : Nat) (s : State) : Bool := sees i s fun u => decide (u.fld (aUcs e 0x2C) 31 28 = n ∧ u.reg (aUcs e 0x28) = 1)

theorem test_words_branch : goes (.beq 0 63) (mw 0x20 1 1 0xFFFE) 3 ∧ goes (.beq 0 63) (mw 0x20 1 2 0xFFFE) 6 ∧ goes (.bne 0 63) (mw 0x21 1 2 0x4) 9 ∧
    goes (.blt 0 63) (mw 0x22 2 1 0x4) 9 ∧ goes (.bge 0 63) (mw 0x23 2 1 0x4) 6 ∧ goes (.jmp 0 63) (mw 0x24 0 0 0x3FFF) 0x3FFF ∧
    goes (.call 0 63) (mw 0x25 0 0 100) 100 ∧ goes (.ret 0 63) (mw 0x26 0 0 0) 0 ∧ faultsWith (.jmp 0 63) 0 6 (runner (mw 0x24 0 0 0x4000) 0 63) ∧
    faultsWith (.jmp 0 63) 0 6 (runner (mw 0x24 0 0 15) 0 63) ∧ faultsWith (.bne 0 63) 0 6 (runner (mw 0x21 1 2 0xFFF0) 0 63) ∧
    faultsWith (.fault 0 63) 0 7 (runner (mw 0x3F 0 0 0) 0 63) ∧ sees (.endThread 0 63) (runner (mw 0x27 0 0 0) 0 63) (fun u => !(thread u 0 63).live) := by
  decide +kernel

/-- A word of another row, and one of no row (R285, R395). -/
theorem test_words_of_other_rows : idles (.add 0 63) (runner (mw 0x02 31 1 0x1000) 0 63) ∧ faultsWith (.add 0 63) 0 1 (runner 0xF8000000 0 63) ∧
    idles (.treq 63) (runner (post 2) 0 63) ∧ faultsWith (.treq 63) 0 5 (runner (post 6) 0 63) := by decide +kernel

theorem test_words_memory : sees (.sts 0 63) (runner (mw 0x2B 1 3 8158) 0 63) (fun u => decide (Tab.at 0 (u.eng 0).scratch 8191 = 7)) ∧
    faultsWith (.lds 0 63) 0 4 (runner (mw 0x2A 31 3 8159) 0 63) ∧ faultsWith (.sts 6 255) 6 4 (runner (mw 0x2B 1 0 7) 6 255) ∧
    sees (.lds 6 255) ((runner (mw 0x2A 31 0 5) 6 255).setCtx 0 255 { Ctx.none with live := true, cap := 4 }) (fun u => decide (getReg u 6 255 31 = 4)) ∧
    sees (.sts 6 255) (runner (mw 0x2B 1 0 31) 6 255) (fun u => decide (Tab.at 0 (u.eng 6).scratch (32 * 255 + 31) = 7)) := by decide +kernel

/-- LDR and STR of BUF.FILL (0x300010) and BUF.SQRL by the dispatch engine, and of CIPH, which it may not read. -/
theorem test_words_registers : let s (w : Word) := runner w 0 63 7 0x300000
    mayRead 0 .buf = true ∧ mayRead 0 .ciph = false ∧ mayWrite 0 .buf 0x38 = true ∧ mayWrite 0 .hub 0 = false ∧
    sees (.ldr 0 63) (s (mw 0x28 31 2 0x14)) (fun u => decide (getReg u 0 63 31 = w32 Part.zh7680.frames)) ∧
    sees (.str 0 63) (s (mw 0x29 1 2 0x38)) (fun u => decide (u.reg (aBuf 0x38) = 7 ∧ (thread u 0 63).pc = 6)) ∧
    faultsWith (.ldr 0 63) 0 3 (runner (mw 0x28 31 2 0) 0 63 7 0x400000) ∧ faultsWith (.str 0 63) 0 3 (s (mw 0x29 1 0 0)) := by decide +kernel

theorem test_words_wait : sees (.wait 0 63) (runner (mw 0x31 4 0 3) 0 63) (fun u => decide ((thread u 0 63).wait = some (3, 4))) ∧
    faultsWith (.wait 1 0) 1 1 (runner (mw 0x31 4 0 3) 1 0) ∧
    sees (.wait 6 255) (runner (mw 0x31 4 0 3) 6 255) (fun u => decide ((thread u 6 255).wait = some (3, 4))) ∧
    sees (.wait 6 255) ((runner (mw 0x31 4 0 3) 6 255).modEng 6 fun g => { g with threads := Tab.upd Thread.none g.threads 255 fun x => { x with ended := true } })
      (fun u => !(thread u 6 255).live) := by
  decide +kernel

/-- A ladder thread with an open context whose next word posts `kind` with these operands. -/
def climber (kind : Nat) (x : Ctx) (a : Word := 0) (b : Word := 0) : State :=
  (runner (post kind) 6 3 a b).setCtx 0 3 { x with live := true, want := { wantOf 0 with ctx := some 3 } }

theorem test_posts : ∀ k ∈ [1, 2, 3, 4, 5, 6], runsWord (climber k Ctx.none) 6 3 (post k) ∧ fld (post k) 31 26 = 0x30 ∧ fld (post k) 15 8 = k ∧
    (thread (climber k Ctx.none) 6 3).pc + 1 < storeWords 6 := by
  unfold runsWord running engineOn; decide +kernel

theorem witness_ladder_hist : sees (.hist 0 3) (climber 1 { Ctx.none with capid := some 5 } 0x80000007) (fun u =>
      decide ((u.det 0).ops = [⟨⟨3, 8, 0, 0, 0, 0, 7, some 5, 0⟩, 0, none⟩] ∧ u.out.length = 1)) ∧
    sees (.hist 0 3) (climber 1 Ctx.none 0x90000000) (fun u => decide ((u.det 0).poolOut.map (·.st) = [.badreq])) ∧
    sees (.hist 0 3) (climber 1 Ctx.none 0) (fun u => decide ((u.det 0).poolOut.map (·.st) = [.badreq])) ∧
    idles (.hist 0 3) ((climber 1 Ctx.none 0x80000000).modDet 0 fun d => { d with ops := List.replicate 16 ⟨⟨3, 8, 0, 0, 0, 0, 7, some 5, 0⟩, 1, none⟩ }) := by
  decide +kernel

theorem witness_ladder_book : let s := climber 2 Ctx.none 0xFFFFFFFF 1
    tooLate s 0 3 = false ∧ bookingsOf s 0 0 = 0 ∧
    sees (.book 0 3) s (fun u => decide ((u.ctx 0 3).booked = true ∧ (u.ctx 0 3).offset = -1 ∧
      (u.head 0).bookings = [⟨3, 0, -1, true, false, false⟩])) ∧
    (let d := (climber 2 Ctx.none).setCmd 1 { readCmd with deadline := some 0 }
     tooLate d 0 3 = true ∧ sees (.book 0 3) d (fun u => decide ((u.det 0).outQ.map (·.drop) = [some .deadline]))) ∧
    idles (.book 0 3) (s.modHead 0 fun x => { x with bookings := List.replicate 16 ⟨4, 0, 0, false, false, false⟩ }) := by decide +kernel

theorem witness_ladder_ends : sees (.drop 0 3) (climber 4 Ctx.none) (fun u => decide ((u.det 0).outQ.map (·.drop) = [some .media] ∧ (u.ctx 0 3).live = false)) ∧
    sees (.step 0 3) (climber 5 { Ctx.none with tagSeen := true } 7) (fun u => decide ((u.det 0).outQ.map (·.drop) = [some .auth])) ∧
    sees (.step 0 3) (climber 5 { Ctx.none with cap := 2 } 3) (fun u => decide ((u.ctx 0 3).live = false)) ∧
    sees (.step 0 3) (climber 5 { Ctx.none with cap := 6 } 6) (fun u => decide ((u.ctx 0 3).step = 6)) := by decide +kernel

theorem witness_ladder_accept : faultsWith (.accept 0 3) 6 5 (climber 3 Ctx.none) ∧
    sees (.accept 0 3) (climber 3 { Ctx.none with good := some hd0, capid := some 9 }) (fun u => decide ((u.ctx 0 3).sent = true ∧
      (u.ctx 0 3).good = none ∧ (u.det 0).outQ.length = 1)) ∧
    sees (.slot 0 3) (climber 6 Ctx.none) (fun u => decide ((u.ctx 0 3).slot = some 0 ∧
      Tab.at SoftSlot.free (u.det 0).soft 0 = ⟨some 3, none⟩)) := by decide +kernel

/-- The default ladder image: a thread of it makes the move that is next, and no word runs. -/
theorem witness_program : let s := ((live.modEng 6 fun g => { g with threads := [(3, { Thread.none with live := true, pc := 2 })] }).setCtx 0 3
      { Ctx.none with live := true, want := { wantOf 0 with ctx := some 3 }, prog := { Prog.none with todo := [.drop] } })
    byProgram s 6 3 = true ∧ idles (.nop 6 3) s ∧ idles (.accept 0 3) s ∧
    sees (.drop 0 3) s (fun u => decide ((u.det 0).outQ.map (·.drop) = [some .media] ∧ u.out = [.post 6 4 1 0])) := by decide +kernel

theorem witness_ladder_entry : let s := (withThread 6 9 Thread.none).modDet 0 fun d => { d with ladQ := [⟨5, wantOf 0, none, 3⟩] }
    let f := (withThread 6 9 Thread.none).modDet 0 fun d => { d with tagQ := [⟨0, reqOf 0, 8, none⟩] }
    let g := s.modEng 6 fun g => { g with threads := [(0, { Thread.none with live := true })] }
    freeCtx s 0 = some 0 ∧ freeCtx g 0 = some 1 ∧ entryStep s 0 5 ≤ capOf s 0 (wantOf 0) ∧ entryStep s 0 5 < 7 ∧
    sees (.ladderEntry 0) s (fun u => decide ((u.ctx 0 0).live = true ∧ (thread u 6 0).g = [(1, 5), (2, 3)] ∧ u.reg (aTile 0 0x1054) = 1)) ∧
    sees (.tagFailureReturn 0) f (fun u => decide ((u.ctx 0 0).rejected = [8] ∧ (u.ctx 0 0).live = true)) := by decide +kernel

theorem witness_tag_return : let s (x : Nat) := (climber 1 { Ctx.none with rejected := [1, 2, 3, 4], sent := true }).modDet 0 fun d =>
      { d with tagQ := [⟨x, reqOf 0, 8, some 3⟩] }
    sees (.tagFailureReturn 0) (s 0) (fun u => decide ((u.ctx 0 3).tagSeen = true ∧ (u.ctx 0 3).rejected = [1, 2, 3, 4] ∧ (u.ctx 0 3).results = [(2, 8)])) ∧
    sees (.tagFailureReturn 0) (s 1) (fun u => decide ((u.det 0).tagQ = [] ∧ (u.ctx 0 3).tagSeen = false)) := by decide +kernel

theorem witness_bookings : let s := (live.setF (aCtl 0 0 4) 3 0 4).modHead 0 fun x => { x with bookings := [⟨3, 0, 5, true, false, false⟩] }
    dueBooking s 0 0 0 = some ⟨3, 0, 5, true, false, false⟩ ∧ headBooked (s.head 0) = false ∧ idles (.bookingStart 0 0 0) live ∧ idles (.bookingEnd 0 0 0) s ∧
    sees (.bookingStart 0 0 0) s (fun u => u.bit (aCtl 0 0 0x100C) 29 && decide (u.fld (aCtl 0 0 0x1008) 15 0 = 65536 - 1019) &&
      headBooked (u.head 0) && sees (.bookingEnd 0 0 0) u (fun v => decide ((v.head 0).bookings = []) && !(v.bit (aCtl 0 0 0x100C) 29))) := by
  decide +kernel

/-- Of two bookings of a head the one due first begins, but of two that overlap the older context's (R177). -/
theorem witness_due : let b (c j : Nat) : Booking := ⟨c, j, 0, false, false, false⟩
    let s (j : Nat) : State := ((((live.with [(aTile 0 0x104, 12), (aTile 0 0x200, 12000000)]).setF (aCtl 0 0 4) 3 0 4).modHead 0 fun x => { x with bookings := [b 3 j, b 4 20] }).setCtx 0 3
      { Ctx.none with live := true, born := 7 }).setCtx 0 4 { Ctx.none with live := true, born := 5 }
    dueBooking (s 19) 0 0 0 = some (b 4 20) ∧ dueBooking (s 16) 0 0 0 = some (b 3 16) ∧
    dueBooking (s 60) 0 0 0 = some (b 4 20) := by decide +kernel

theorem witness_deadline : let s := live.setCmd 1 { readCmd with deadline := some live.now }
    idles (.deadlineInstant 1) (live.setCmd 1 { readCmd with deadline := some (live.now + 1) }) ∧
    (∀ t ∈ s.tiles, Tab.at [] s.buf.held t = [] ∧ openCtxs s t = []) ∧
    sees (.deadlineInstant 1) s (fun u => decide (((u.cmd 1).blk 0).drop = some .deadline ∧ (u.cmd 1).deadline = none)) := by decide +kernel

theorem witness_retirement : let s := live.with [(setWordAddr 0 12, 1), (aMir 0 12, 0x100), (aHub 0x1200, 1)]
    sees (.retirementMirrored 0) s (fun u => decide (u.reg (setWordAddr 0 12) = 0x101 ∧ u.reg (aMir 0 12) = 0x101)) ∧
    idles (.retirementFlashCopy true) live ∧
    sees (.retirementFlashCopy true) s (fun u => decide (u.fld (aHub 0x1200) 1 0 = 0 ∧ u.fld (aHub 0x1200) 31 16 = 1 ∧ u.flash.retire ≠ [])) ∧
    sees (.retirementFlashCopy false) s (fun u => decide (u.fld (aHub 0x1200) 1 0 = 2)) := by decide +kernel

theorem test_posts_dispatch : ∀ x ∈ [(Instr.treq 63, 1), (.breq 63, 2), (.cpl 63, 3), (.rdma 63, 4), (.owlPost 63, 5)],
    sees x.1 (runner (post x.2) 0 63) (fun u => decide (u.out = [.post 0 x.2 7 0xFFFFFFFE] ∧ (thread u 0 63).pc = 6)) = true := by decide +kernel

theorem test_posts_control : let s (k : Nat) (a b : Word) := runner (post k) 1 0 a b
    sees (.setp 0 0) (s 1 23 4294965248) (fun u => decide ((u.arm 0 0).pend = [(23, some (-2047))] ∧ u.fld (aCtl 0 0 (0x1010 + 32 * 23)) 11 0 = 2049)) ∧
    sees (.pred 0 0) (s 2 0 4294967295) (fun u => decide ((u.headS 0).pred = none)) ∧
    sees (.pred 0 0) (s 2 0 5) (fun u => decide ((u.headS 0).pred = some 5)) ∧
    sees (.vcmd 0 0) (s 3 4294960000 0) (fun u => decide ((u.ctl 0 0).cmd = -1800)) ∧
    sees (.ctlMode 0 0) (s 4 4 0) (fun u => decide (ctlMode u 0 0 = 4)) ∧
    sees (.frep 0 0) (s 5 8 23) (fun u => decide ((u.arm 0 0).watch = [⟨4, 23, u.now⟩])) ∧
    sees (.frep 0 0) (s 5 9 0) (fun u => tCluster u 0 0) := by decide +kernel

theorem test_posts_spindle : let s (k : Nat) (a b : Word) := (runner (post k) 5 0 a b).with [(aSpn 0 4, 6)]
    sees (.iref 0) (s 1 4294967295 3) (fun u => decide ((u.spn 0).idRef = -1 ∧ (u.spn 0).iqRef = 3) && u.bit (aSpn 0 4) 15) ∧
    sees (.vvec 0) (s 2 4517 65535) (fun u => decide ((u.spn 0).depth = 4517 ∧ (u.spn 0).phi = -1 ∧ spnMode u 0 = 4)) ∧
    sees (.spnState 0) (s 3 9 0) (fun u => decide (spnState u 0 = 9)) ∧
    sees (.retract 0) ((s 4 0 0).with [(aCtl 0 0 4, 4)]) (fun u => decide (ctlMode u 0 0 = 6 ∧ (u.ctl 0 0).retract = 2)) ∧
    sees (.spflt 0) (s 5 2 0) (fun u => decide (u.reg (aSpn 0 0x60) = 2 ∧ spnState u 0 = 6)) ∧
    sees (.spflt 0) (s 5 4 0) (fun u => u.bit (aSpn 0 0x60) 6) := by decide +kernel

/-! ### Servo, control, spindle -/

/-- The cells of a field: a dibit of each bit's polarity, four samples a cell, most significant bit first (R205). -/
def field (k n : Nat) : List Int := (List.range k).flatMap fun i => [if n.testBit (k - 1 - i) then 30 else -30, 0, 0, 0]
/-- Four stripes 10 units apart. -/
def bars : List Int := (List.range 4).flatMap fun _ => [30, 0, 0, 0, 0, 0, 0, 0]

/-- A wedge in a zone of 8,000,000 bits, where a unit is 0.8 samples: SAM at sample 8, wedge number `n`, the identity of track 4 (its Gray
code is 6), and set 1 read a quarter of a pitch short of its centre: 44 samples from forward to backward stripes (R205 to R208). -/
def wedge (n : Nat) : List Int :=
  List.replicate 7 0 ++ field 8 0xE9 ++ field 10 n ++ field 24 6 ++ List.replicate 8 0 ++ bars ++ List.replicate 12 0 ++ bars

/-- Reader A of head 0 in this state, its lane awake, the comb on track. -/
def servo (x : Reader) : State :=
  (((live.setF (aLane 0 0 4) 3 0 3).setReader 0 0 x).with [(aCtl 0 0 4, 4), (aSrv 0 0 4, 0x100), (aTile 0 0x200, 8000000)])

theorem test_demodulate : let w := demodulate (servo { Reader.off with st := 1 }) 0 0 0 0 1000 (wedge 599)
    w.sam = some (0, 64 * 1008 - 21094) ∧ w.wnum = 599 ∧ w.gray = 6 ∧ w.tf1 = [102, 614, 1126, 1638] ∧ w.tb1 = [2918, 3430, 3942, 4454] ∧
    w.peaks1 = List.replicate 8 30 ∧ w.tf2 = [] := by decide +kernel

theorem witness_wedges : samplesWedges (servo Reader.off) 0 0 0 0 = true ∧ isLoaded (servo Reader.off) 0 0 = true ∧
    idles (.servoWedge 0 0 0 0 0 (wedge 599)) ((servo Reader.off).with [(aSrv 0 0 4, 0)]) ∧
    sees (.servoWedge 0 0 0 0 0 (wedge 599)) (servo Reader.off) (fun u => decide ((u.reader 0 0).st = 1)) ∧
    (demodulate (servo { Reader.off with st := 1 }) 0 0 0 0 0 [0, 5, -5]).sam = none ∧
    sees (.servoWedge 0 0 0 0 0 [0, 5, -5]) (servo { Reader.off with st := 1 }) (fun u => decide (u.reader 0 0 = { Reader.off with st := 1 })) ∧
    sees (.servoWedge 0 0 0 0 330 (wedge 599)) (servo { Reader.off with st := 1 }) (fun u => decide ((u.reader 0 0).st = 2 ∧
      (u.reader 0 0).num = 599 ∧ (u.reader 0 0).tw = 538)) := by decide +kernel

theorem witness_wedge_hold : let s := ((servo Reader.off).setF (aLane 0 0 4) 3 0 6).modLane 0 0 fun x => { x with wedge := true, lost := true }
    laneSt s 0 0 = 6 ∧ (s.lane 0 0).wedge = true ∧ s.bit (aLane 0 0 4) 18 = false ∧
    sees (.servoWedge 0 0 0 0 0 []) ((servo Reader.off).with [(aCtl 0 0 4, 1)]) (fun u => decide ((u.reader 0 0).st = 0)) := by
  decide +kernel

/-- In VERIFY after wedge 599, whose wedge time lay one interval before that of a wedge from sample 330 on. -/
def verifying : Reader := { Reader.off with st := 2, num := 599, int := 853333, tw := 538 - 853333 }

theorem witness_wedge_verify : let s := servo verifying
    let w := demodulate s 0 0 0 0 330 (wedge 0)
    samInWindow s 0 0 8000000 verifying w.sam = some 538 ∧ wedgePos s 0 0 0 8000000 (some 538) w = .pos 3840 ∧
    samInWindow s 0 0 8000000 verifying (demodulate s 0 0 0 0 600 (wedge 0)).sam = none ∧
    sees (.servoWedge 0 0 0 0 330 (wedge 0)) s (fun u => decide ((u.reader 0 0).num = 0 ∧ (u.reader 0 0).conf = 1 ∧ (u.reader 0 0).tw = 538)) ∧
    sees (.servoWedge 0 0 0 0 330 (wedge 5)) s (fun u => decide ((u.reader 0 0).st = 1)) ∧
    sees (.servoWedge 0 0 0 0 600 (wedge 0)) s (fun u => decide ((u.reader 0 0).st = 1)) ∧
    sees (.servoWedge 0 0 0 0 330 (wedge 0)) (servo { verifying with conf := 5 }) (fun u => decide ((u.reader 0 0).st = 3)) := by decide +kernel

theorem witness_wedge_lock : let x : Reader := { verifying with st := 3 }
    let s := (servo x).with [(aSrv 0 0 0x100, 3)]
    srcOf (servo x) 0 0 0 = 2 ∧ srcOf s 0 0 0 = 0 ∧ s.domOn (domCh 0) = true ∧ x.gone = 0 ∧
    samInWindow s 0 0 8000000 x (demodulate s 0 0 0 0 330 (wedge 0)).sam = some 538 ∧
    sees (.servoWedge 0 0 0 0 330 (wedge 0)) s (fun u =>
      decide ((u.reader 0 0).y = some 3840 ∧ (u.headS 0).rec_ = some (true, 3840) ∧ u.reg (aSrv 0 0 0x104) = 0x300 ∧
        (u.lane 0 0).wtime = some 853871 ∧ (u.headW 0).wtime = some 538)) ∧
    sees (.servoWedge 0 0 0 0 330 []) s (fun u => decide ((u.reader 0 0).miss = 1 ∧ (u.reader 0 0).y = none ∧ (u.reader 0 0).st = 3)) := by
  decide +kernel

theorem witness_head_record : let s (r : Option (Bool × Int)) := ((servo Reader.off).setHeadS 0 { HeadS.none with rec_ := r, valid := true, ys := [1, 2] })
    idles (.headRecord 0 0 0) (s none) ∧
    sees (.headRecord 0 0 0) (s (some (true, 300))) (fun u => decide ((u.headS 0).ys = [300, 1] ∧
      u.fld (aCtl 0 0 0x100C) 15 0 = 65536 - 1200)) ∧
    sees (.headRecord 0 0 0) (s (some (false, 0))) (fun u => decide ((u.headS 0).ys = [] ∧ (u.headS 0).valid = false)) := by decide +kernel

theorem witness_seek : let s := (servo Reader.off).setHeadS 23 { HeadS.none with stream := true, home := (6, 0) }
    idles (.seekCommand 0 0 9) live ∧ idles (.pairAdvance 0 0) live ∧
    sees (.seekCommand 0 0 0xFFFFFF) s (fun u => decide ((u.headS 23).home = (-1, 0) ∧ u.reg (aCtl 0 0 (0x1004 + 32 * 23)) = 0xFFFFFF00)) ∧
    sees (.pairAdvance 0 0) s (fun u => decide ((u.headS 23).home = (8, 0) ∧ u.reg (aCtl 0 0 (0x1004 + 32 * 23)) = 0x800)) := by decide +kernel

theorem witness_pilot : let s := ((servo Reader.off).setHeadS 0 { HeadS.none with valid := true, ys := [1024] }).with [(aCtl 0 0 4, 3)]
    contributing s 0 0 = [0] ∧ ctlMode s 0 0 = 3 ∧ (∀ h, h < 24 → (s.headW (headIdx 0 0 h)).gate = false) ∧
    absI (meanOver [0] (fun j => 4 * refOf s 0 0 j) - 4096) ≤ max 1 (s.fld (aCtl 0 0 0x10) 9 4) * 4096 ∧
    sees (.pilotRecord 0 0) s (fun u => decide (ctlMode u 0 0 = 4 ∧ (u.ctl 0 0).mean = some 4096 ∧ u.fld (aCtl 0 0 4) 15 11 = 1)) := by
  decide +kernel

/-- Cluster 0 of tile 0 in a mode with this engine, its arm link in service, the spindle at speed. -/
def comb (m : Nat) (x : Ctl) : State := (live.with [(aCtl 0 0 4, m), (aSrv 0 0 4, 0x100), (aWrtC 0 0 0, 2)]).setCtl 0 0 x

theorem witness_load : sees (.loadRequest 0 0 5) (comb 1 Ctl.none) (fun u => decide (ctlMode u 0 0 = 2 ∧ (u.ctl 0 0).goal = 5)) ∧
    sees (.loadRequest 0 0 5) (comb 4 Ctl.none) (fun u => decide ((u.ctl 0 0).cmds = [.load 5])) ∧
    idles (.loadTimeout 0 0) (comb 1 Ctl.none) ∧
    sees (.loadTimeout 0 0) (comb 2 Ctl.none) (fun u => decide (ctlMode u 0 0 = 6 ∧ (u.ctl 0 0).loads = 1)) ∧
    sees (.loadTimeout 0 0) (comb 2 { Ctl.none with losts := 1 }) (fun u => decide ((u.ctl 0 0).losts = 2)) ∧
    sees (.loadTimeout 0 0) (comb 2 { Ctl.none with loads := 1 }) (fun u => u.bit (aCtl 0 0 0x34) 4 && tCluster u 0 0) ∧
    sees (.loadTimeout 0 0) (comb 2 { Ctl.none with losts := 2 }) (fun u => u.bit (aCtl 0 0 0x34) 5) := by decide +kernel

/-- A head that comes into a loading comb's record: after a loss each head's own reference stands (R241). -/
theorem witness_reload : let s (n : Nat) : State := (((comb 2 { Ctl.none with losts := n, goal := 8 }).with [(aSrv 0 0 0x100, 0)]).setHeadS 0
      { HeadS.none with rec_ := some (true, 0), home := (6, 1) })
    srcOf (s 0) 0 0 0 = 0 ∧ ctlMode (s 0) 0 0 = 2 ∧
    sees (.headRecord 0 0 0) (s 0) (fun u => decide ((u.headS 0).home = (8, 0) ∧ ctlMode u 0 0 = 3)) ∧
    sees (.headRecord 0 0 0) (s 2) (fun u => decide ((u.headS 0).home = (6, 1) ∧ (u.ctl 0 0).losts = 0 ∧ ctlMode u 0 0 = 3)) := by
  decide +kernel

theorem witness_park : sees (.parkRequest 0 0) (comb 4 Ctl.none) (fun u => decide (ctlMode u 0 0 = 6)) ∧
    sees (.parkStopReached 0 0) (comb 6 Ctl.none) (fun u => (u.ctl 0 0).stopped) ∧
    idles (.parkHoldEnd 0 0) (comb 6 Ctl.none) ∧
    sees (.parkHoldEnd 0 0) (comb 6 { Ctl.none with stopped := true, gates := true }) (fun u => decide (ctlMode u 0 0 = 1 ∧ (u.ctl 0 0).gates = false)) ∧
    idles (.parkTimeout 0 0) (comb 6 { Ctl.none with stopped := true }) ∧
    sees (.parkTimeout 0 0) (comb 6 Ctl.none) (fun u => u.bit (aCtl 0 0 0x34) 3 && tCluster u 0 0) := by decide +kernel

theorem witness_lost : idles (.lostContribution 0 0) (comb 3 Ctl.none) ∧ contributing (comb 5 Ctl.none) 0 0 = [] ∧
    sees (.lostContribution 0 0) (comb 5 { Ctl.none with cmd := 9 }) (fun u => decide ((u.ctl 0 0).lostWait = true ∧ (u.ctl 0 0).cmd = 0)) ∧
    idles (.lostWaitEnd 0 0) (comb 5 Ctl.none) ∧ (∀ h, h < 24 → srcOf (comb 5 Ctl.none) 0 0 h = 2) ∧
    sees (.lostWaitEnd 0 0) (comb 5 { Ctl.none with lostWait := true }) (fun u => decide (ctlMode u 0 0 = 6 ∧ (u.ctl 0 0).losts = 1)) ∧
    sees (.lostWaitEnd 0 0) ((comb 5 { Ctl.none with lostWait := true }).with [(aSrv 0 0 0x100, 0)]) (fun u => decide (ctlMode u 0 0 = 3)) ∧
    sees (.lostWaitEnd 0 0) (((comb 5 { Ctl.none with lostWait := true }).with [(aSrv 0 0 0x100, 0)]).setHeadS 23 { HeadS.none with home := (6, 1) })
      (fun u => decide (u.fld (aCtl 0 0 (0x1004 + 32 * 23)) 31 8 = 6 ∧ u.fld (aCtl 0 0 (0x1008 + 32 * 23)) 15 0 = 1)) := by
  decide +kernel

theorem witness_retract : idles (.retractDriveEnd 0 0) (comb 6 Ctl.none) ∧ idles (.retractBrakeEnd 0 0) (comb 6 Ctl.none) ∧
    sees (.retractDriveEnd 0 0) (comb 6 { Ctl.none with retract := 2, duty := -5 }) (fun u => decide ((u.ctl 0 0).retract = 3 ∧ u.out = [.coil 0 0 0])) ∧
    sees (.retractBrakeEnd 0 0) (comb 6 { Ctl.none with retract := 3, dead := true }) (fun u => decide (ctlMode u 0 0 = 7)) := by decide +kernel

/-- Procedure B (R246): with the fallback set in use the live set is written and released; WHOLD falls at its end. -/
theorem test_procedure_b : let a := secAddr 0 0 24 0 false
    let s := (comb 5 { Ctl.none with upd := some ⟨[24], [(a, 7)], 0⟩ }).with [(loopCtl 0 0 24, 0x102), (aCtl 0 0 0, 1)]
    let u := coefStep s 0 0
    let v := coefSteps (coefSteps (u.with [(loopCtl 0 0 24, 0)]))
    u.reg a = 7 ∧ u.reg (loopCtl 0 0 24) = 0x100 ∧ (coefStep u 0 0).ctl 0 0 = u.ctl 0 0 ∧
      (v.ctl 0 0).upd = none ∧ v.reg (aCtl 0 0 0) = 0 := by decide +kernel

theorem witness_coefficients : sees (.coefficientWrite 0 0 24 7 4 0x12345) live (fun u => decide (u.reg (secAddr 0 0 24 7 false + 16) = 0x2345)) ∧
    sees (.sectionControlWrite 0 0 0 3 0xC0000005) live (fun u => decide (u.reg (secAddr 0 0 0 3 false + 20) = 0x80000005 ∧
      (getLoop u 0 0 0).clear = [3])) ∧
    sees (.usefbWrite 0 0 24 true) live (fun u => decide (u.reg (loopCtl 0 0 24) = 2)) ∧ loopSecs 24 = 8 ∧ loopSecs 23 = 4 := by decide +kernel

theorem witness_wolf : let s := live.with [(aCtl 0 0 0x30, 2 ^ 23), (aCtl 0 0 0x2C, 0x1800001)]
    s.fld (aCtl 0 0 0x28) 7 0 = 10 ∧ idles (.wolfRearm 0 0 22) s ∧
    sees (.wolfRearm 0 0 23) s (fun u => decide (u.reg (aCtl 0 0 0x30) = 0) && (getLoop u 0 0 23).clearAll) ∧
    sees (.wolfstClear 0 0 0x800000) s (fun u => decide (u.reg (aCtl 0 0 0x2C) = 0x1000001 ∧ u.reg (aCtl 0 0 0x30) = 0x800000)) ∧
    sees (.wolfstClear 0 0 0x800000) (s.with [(aCtl 0 0 0x28, 0)]) (fun u => decide (u.reg (aCtl 0 0 0x30) = 0)) := by decide +kernel

theorem witness_pwm : let x : Ctl := { Ctl.none with cmd := 100, gates := true }
    sees (.pwmPeriod 0 0 3000 0) (comb 4 Ctl.none) (fun u => decide (u.fld (aCtl 0 0 0x44) 15 0 = 2047)) ∧
    sees (.pwmPeriod 0 0 20 0) (comb 4 x) (fun u => decide ((u.ctl 0 0).integ = 4 * 80 ∧ (u.ctl 0 0).duty = (32 * 80 + 320) / 256 ∧
      u.out = [.coil 0 0 11])) ∧
    ctlMode (comb 2 x) 0 0 = 2 ∧ ((comb 2 x).ctl 0 0).gates = true ∧ ((comb 2 x).ctl 0 0).retract = 0 := by decide +kernel

theorem witness_vcflt : sees (.vcfltFall 0 0) (comb 4 { Ctl.none with gates := true }) (fun u => decide ((u.ctl 0 0).pstageAt = some u.now ∧
      (u.ctl 0 0).gates = false) && u.bit (aCtl 0 0 0x34) 0) ∧
    sees (.vcfltFall 0 0) (comb 4 { Ctl.none with pstageAt := some (live.now - ms 100) }) (fun u => tCluster u 0 0) ∧
    sees (.vcfltReenable 0 0) (comb 4 { Ctl.none with pstageWait := true }) (fun u => (u.ctl 0 0).gates) := by decide +kernel

/-- Tile 0's spindle in a state with this drive, RUN and a speed target. -/
def spin (n : Nat) (x : Spn) (run : Nat := 1) : State := (live.with [(aSpn 0 4, n), (aSpn 0 0, run), (aSpn 0 0xC, 7200)]).setSpn 0 x

theorem witness_run : sees (.runSet 0) (spin 1 Spn.none 0) (fun u => decide (spnState u 0 = 2) && u.bit (aSpn 0 0) 0) ∧
    sees (.spindleRunCommand 0) (spin 5 Spn.none) (fun u => decide (spnState u 0 = 5)) ∧
    sees (.runClear 0) (spin 5 { Spn.none with gates := true }) (fun u => decide (spnState u 0 = 1 ∧ (u.spn 0).gates = false)) ∧
    sees (.runClear 0) (spin 7 Spn.none) (fun u => decide (spnState u 0 = 7 ∧ (u.spn 0).stop = true)) ∧
    (∀ c, c < 4 → isLoaded (spin 6 Spn.none) 0 c = false) ∧
    sees (.spindleStopCommand 0) (spin 6 Spn.none) (fun u => decide (spnState u 0 = 8)) ∧
    sees (.spindleStopCommand 0) (spin 6 Spn.none 0) (fun u => decide (spnState u 0 = 6)) := by decide +kernel

/-- A drive whose back-EMF has turned by `turn` over five ticks of the measurement, at angle `ang`. -/
def turned (turn ang : Int) (emf : Nat := 0) : Spn := { Spn.none with turn := turn, span := 5, ang := ang, emf := emf }

theorem witness_measure : startPlace (spin 2 Spn.none) 0 = true ∧ idles (.measureEnd 0) (spin 3 Spn.none) ∧
    measured (spin 2 (turned (2 ^ 33) 5)) 0 true = ⟨true, true, 5 - 2 ^ 30, 2 ^ 31⟩ ∧ (measured (spin 2 (turned (2 ^ 33 - 1) 5)) 0 true).obs = false ∧
    sees (.measureEnd 0) (spin 2 (turned (2 ^ 33) 5)) (fun u => decide (spnState u 0 = 6 ∧ u.fld (aSpn 0 0x58) 31 30 = 2 ∧
      (u.spn 0).omega = 2 ^ 31)) ∧
    sees (.measureEnd 0) (spin 2 (turned (-(2 ^ 33)) 5)) (fun u => decide (spnState u 0 = 3) && u.bit (aSpn 0 4) 30) ∧
    sees (.measureEnd 0) (spin 2 (turned 3 5)) (fun u => decide (spnState u 0 = 4)) ∧
    (let s := (spin 2 (turned 3 5)).with [(aSpn 1 4, 4), (aPwr 4, 2 ^ 20)]
     startPlace s 0 = false ∧ sees (.measureEnd 0) s (fun u => decide (spnState u 0 = 2 ∧ (u.spn 0).queued = true))) := by decide +kernel

theorem witness_start : observable (spin 3 Spn.none) 0 1 ((spin 3 Spn.none).spn 0) = false ∧
    sees (.brakeMeasure 0) (spin 3 Spn.none) (fun u => decide (spnState u 0 = 2)) ∧
    sees (.brakeMeasure 0) (spin 3 (turned 0 0 2000)) (fun u => decide (spnState u 0 = 3 ∧ u.out = [.phases 0 0 0 0, .gatesLow 0])) ∧
    idles (.brakeMeasure 0) (spin 4 Spn.none) ∧
    sees (.alignEnd 0) (spin 4 Spn.none) (fun u => decide (spnState u 0 = 5)) ∧ idles (.alignEnd 0) (spin 4 { Spn.none with retry := true }) ∧
    sees (.rampTimeout 0) (spin 5 Spn.none) (fun u => decide (spnState u 0 = 5 ∧ (u.spn 0).retry = true)) ∧ idles (.rampTimeout 0) (spin 4 Spn.none) ∧
    sees (.startRetry 0) (spin 5 { Spn.none with retry := true }) (fun u => decide (spnState u 0 = 2)) ∧ idles (.startRetry 0) (spin 5 Spn.none) ∧
    sees (.stopBrakeEnd 0) (spin 8 { Spn.none with stopLow := true }) (fun u => decide (spnState u 0 = 1)) ∧ idles (.stopBrakeEnd 0) (spin 8 Spn.none) := by
  decide +kernel

theorem witness_recatch : idles (.recatchMeasureEnd 0) (spin 6 Spn.none) ∧
    sees (.recatchMeasureEnd 0) (spin 7 (turned 7000 0)) (fun u => decide (spnState u 0 = 6 ∧ u.reg (aSpn 0 0x64) = 1 ∧ (u.spn 0).caughtAt = some u.now)) ∧
    sees (.recatchMeasureEnd 0) (spin (7 + 2 ^ 20) (turned (-9) 0)) (fun u => decide (spnState u 0 = 7 ∧ u.fld (aSpn 0 4) 21 20 = 2)) ∧
    sees (.recatchMeasureEnd 0) (spin (7 + 2 ^ 21) Spn.none) (fun u => decide (spnState u 0 = 9) && u.bit (aSpn 0 0x60) 6) ∧
    sees (.recatchHoldEnd 0) (spin (6 + 2 ^ 20) { Spn.none with caughtAt := some 3 }) (fun u => decide (u.fld (aSpn 0 4) 21 20 = 0)) ∧
    idles (.recatchHoldEnd 0) (spin 6 Spn.none) ∧
    sees (.resetFails 0) (spin (6 + 3 * 2 ^ 20) Spn.none) (fun u => decide (u.fld (aSpn 0 4) 21 20 = 0 ∧ spnState u 0 = 6)) ∧
    sees (.spfltFall 0) (spin 6 Spn.none) (fun u => decide (spnState u 0 = 7) && u.bit (aSpn 0 0x60) 0) := by decide +kernel

/-- Another image's routine takes the event (R288). -/
theorem witness_images : let s := ((comb 4 Ctl.none).with [(aSpn 0 4, 1)]).modEng 1 (fun g => { g with b0 := ⟨false, []⟩, b1 := ⟨false, []⟩ })
    let p := live.modEng 5 (fun g => { g with b0 := ⟨false, []⟩, b1 := ⟨false, []⟩ })
    imaged s (ctlEng 0 0) = true ∧ imaged live (ctlEng 0 0) = false ∧ imaged p (spnEng 0) = true ∧ imaged live (spnEng 0) = false ∧
    sees (.seekCommand 0 0 9) s (fun u => decide (u.eng 1 ≠ s.eng 1 ∧ u.regs = s.regs)) ∧
    sees (.parkRequest 0 0) s (fun u => decide (ctlMode u 0 0 = 4)) ∧ sees (.spindleRunCommand 0) p (fun u => decide (spnState u 0 = spnState p 0)) := by
  decide +kernel

theorem witness_ticks : idles (.spindleTick 0 ⟨0, 0, 0, 0, 0, 0, 0⟩) (spin 0 Spn.none) ∧
    spnState (spin 1 Spn.none) 0 = 1 ∧
    idles (.speedLoopStep 0) (spin 6 { Spn.none with ticks := 1 }) ∧
    sees (.speedLoopStep 0) (spin 5 { Spn.none with ticks := 50 }) (fun u => decide ((u.spn 0).ticks = 0)) ∧
    sees .pfailFall (spin 6 { Spn.none with gates := true }) (fun u => u.power.pfailLow && u.bit (aSpn 0 0x60) 5 && !(u.spn 0).gates) ∧
    sees .pfailRise { spin 1 Spn.none with power := { live.power with pfailLow := true } } (fun u => decide (spnState u 0 = 2)) := by decide +kernel

/-! ### Ports, pairs, capsules -/

theorem witness_port_down : subUp live 0 0 = false ∧ subUp port 0 0 = true ∧ live.hasPort 0 = true ∧
    idles (.frameReceive 0 0 frame) live ∧ idles (.arpRequest 0 0 5) live ∧ idles (.neighborSolicitation 0 0 5) live ∧ idles (.icmpEcho 0 0 5) live ∧
    idles (.pfcFrame 0 0 7 65535) live ∧ idles (.pfcRefresh 0 0 7) live ∧ idles (.cnpReceive 0 0 12287) live ∧ idles (.pcsAlignmentLoss 0 0) live := by
  decide +kernel

theorem witness_frames : rxHeld port 0 + frame.bytes ≤ rxSize ∧ pfcOn port 0 3 = true ∧
    sees (.frameReceive 0 0 { frame with pause := true }) port (fun u => decide (u.reg (aHpt 0 0x40) = 2 ∧ u.reg (aHpt 0 0x60) = 1)) ∧
    sees (.frameReceive 0 0 frame) port (fun u => decide (Tab.at 0 (u.sub 0).rx 3 = 1000 ∧ (u.sub 0).xoff = [(3, u.now)] ∧ u.out = [.pfc 0 0 3 65535])) ∧
    sees (.frameReceive 0 0 { frame with prio := 2 }) port (fun u => decide (u.out = [] ∧ Tab.at 0 (u.sub 0).rx 2 = 1000)) ∧
    sees (.frameReceive 0 0 { frame with dst := 6 }) port (fun u => decide (u.reg (aHpt 0 0x60) = 1)) ∧
    sees (.frameReceive 0 0 { frame with op := 6 }) port (fun u => decide (Tab.at 0 (u.sub 0).rx 3 = 1000)) ∧
    (let s := port.setQp 7 { Qp.free with held := true, state := 2 }
     sees (.frameReceive 0 0 { frame with ce := true, qp := 7 }) s (fun u => decide ((u.qp 7).cnpAt = some u.now ∧ .cnp 7 0 none ∈ u.out)) ∧
     sees (.frameReceive 0 0 { frame with op := 6, qp := 7 }) s (fun u => decide (.nak 7 3 9 0 ∈ u.out ∧ (u.qp 7).held = false))) := by decide +kernel

/-- Sends to a queue pair that expects packet 0: in its turn; again; and ahead of its turn, answered once. -/
theorem witness_sends : let s (q : Qp) := port.setQp 7 { q with held := true, state := 2 }
    let f (n : Nat) : Instr := .frameReceive 0 0 { frame with qp := 7, psn := n }
    sees (f (2 ^ 24)) (s Qp.free) (fun u => decide ((u.qp 7).epsn = 1 ∧ (u.qp 7).mpsn = 0)) ∧
    sees (f (2 ^ 24 - 1)) (s Qp.free) (fun u => decide ((u.qp 7).epsn = 0 ∧ .nak 7 0 (2 ^ 24 - 1) 0 ∈ u.out)) ∧
    sees (f 1) (s { Qp.free with epsn := 0 }) (fun u => decide ((u.qp 7).gap = true ∧ .nak 7 1 0 0 ∈ u.out ∧ u.reg (aHpt 0 0xC0) = 1)) ∧
    sees (f 1) (s { Qp.free with gap := true }) (fun u => decide ((u.qp 7).gap = true ∧ .nak 7 1 0 0 ∉ u.out)) := by decide +kernel

theorem witness_neighbours : let s := port
    ownAddr s 0 0 5 = true ∧ ownAddr s 0 0 6 = false ∧
    sees (.arpRequest 0 0 5) s (fun u => decide (u.out = [.neighbour 0 0 0 5])) ∧
    sees (.icmpEcho 0 0 5) s (fun u => decide (u.out = [.neighbour 0 0 2 5])) ∧
    sees (.neighborSolicitation 0 0 6) s (fun u => decide (u.reg (aHpt 0 0x60) = 1)) := by decide +kernel

theorem witness_pcs : sees (.pcsAlignmentLoss 0 0) port (fun u => decide (u.sub 0 = ⟨some u.now, [], [], [], true⟩ ∧ u.fld (aHpt 0 4) 3 0 = 1)) ∧
    idles (.pcsRealigned 0 0) port ∧ subEnabled (port.with [(aHpt 0 4, 1)]) 0 0 = true ∧
    sees (.pcsRealigned 0 0) (port.with [(aHpt 0 4, 1)]) (fun u => subUp u 0 0 && (u.sub 0).changed) ∧
    idles (.pdownTimeout 0 0) port ∧
    sees (.pdownTimeout 0 0) (((port.with [(aHpt 0 4, 1)]).setSub 0 ⟨some (live.now - ms 500), [], [], [], true⟩).setQp 7
      { Qp.free with held := true, state := 2 }) (fun u => decide ((u.qp 7).held = false)) := by decide +kernel

theorem witness_pfc : sees (.pfcRefresh 0 0 3) (port.setSub 0 { SubPort.idle with xoff := [(3, 0)] }) (fun u => decide (u.out = [.pfc 0 0 3 65535])) ∧
    idles (.pfcRefresh 0 0 2) port ∧
    sees (.pfcFrame 0 0 2 9) port (fun u => decide (u.reg (aHpt 0 0x60) = 1)) ∧
    sees (.pfcFrame 0 0 3 9) port (fun u => decide ((u.sub 0).paused = [(3, u.now + quantaNs u 0 9)])) ∧
    sees (.pfcFrame 0 0 3 0) (port.setSub 0 { SubPort.idle with paused := [(3, port.now + 5)] }) (fun u => decide ((u.sub 0).paused = [])) ∧
    sees (.pfcPauseExpire 0 0 3) (port.setSub 0 { SubPort.idle with paused := [(3, port.now), (1, 0)] }) (fun u => decide ((u.sub 0).paused = [(1, 0)])) := by decide +kernel

theorem witness_rates : let s := port.setQp 7 { Qp.free with held := true, state := 2, recAt := some 0, rate := 300 }
    s.bit (aHpt 0 0x10) 31 = true ∧ idles (.rateRecovery 8) s ∧
    sees (.cnpReceive 0 0 7) s (fun u => decide ((u.qp 7).rate = 256 ∧ (u.qp 7).cutAt = some u.now ∧ u.reg (aHpt 0 0xA0) = 1)) ∧
    sees (.rateRecovery 7) s (fun u => decide ((u.qp 7).rate = 300 + 256 * 4)) := by decide +kernel

theorem witness_acks : pairUp live 7 = false ∧ idles (.ackReceive 7 5) live ∧ idles (.nakReceive 7 4 5) live ∧ idles (.ackTimeout 7) live ∧ idles (.rnrTimerExpire 7) live ∧
    pairUp (pair 7) 7 = true ∧ port.fld (aHpt 0 8) 15 13 = 3 ∧ idles (.nakReceive 7 2 6) (pair 7) ∧
    sees (.ackReceive 7 5) (pair 7) (fun u => decide ((u.qp 7).inflight = [⟨6, 1, 1, 0⟩])) ∧
    sees (.nakReceive 7 1 6) (pair 7) (fun u => decide ((u.qp 7).inflight = [⟨6, 1, 1, 0⟩] ∧ u.out = [.resend 7 6] ∧ (u.qp 7).retries = 1)) ∧
    sees (.nakReceive 7 4 6) (pair 7) (fun u => decide ((u.qp 7).held = false ∧ .cm 2 7 0 ∈ u.out)) ∧
    sees (.ackTimeout 7) (pair 7) (fun u => decide (u.out = [.resend 7 6, .resend 7 5])) ∧
    sees (.ackTimeout 7) (pair 7 { Qp.free with retries := 3 }) (fun u => decide ((u.qp 7).held = false)) ∧
    sees (.rnrTimerExpire 7) (pair 7) (fun u => decide (u.out.length = 2)) := by decide +kernel

theorem witness_connections : idles (.cmDreq 7) live ∧ idles (.cmMra 7) (pair 7) ∧
    sees (.cmRtu 7) (port.setQp 7 { Qp.free with held := true, state := 1 }) (fun u => (u.qp 7).est) ∧
    sees (.cmDrep 7) (pair 7) (fun u => !(u.qp 7).est) ∧ sees (.cmRej 7) (port.setQp 7 { Qp.free with held := true, state := 1 }) (fun u => !(u.qp 7).held) ∧
    sees (.cmDreq 7) (pair 7) (fun u => decide (.cm 3 7 0 ∈ u.out) && !(u.qp 7).held) ∧
    idles (.cmReq ⟨5, 4096, 0, 0, 31, 32, 0, 0, 0⟩) live ∧ reqPair port ⟨5, 4096, 0, 0, 4095, 4096, 0, 0, 0⟩ = some 8192 ∧
    reqPair port ⟨5, 4096, 5, 9, 31, 32, 0, 0, 0⟩ = none ∧
    sees (.cmReq ⟨5, 4096, 0, 0, 31, 31, 0, 0, 0⟩) port (fun u => decide (u.out = [.cm 1 0 0])) ∧
    sees (.cmReq ⟨5, 4096, 0, 0, 4095, 4096, 0, 0, 2 ^ 24 + 8⟩) port (fun u => decide (u.out = [.cm 0 8192 4096] ∧ (u.qp 8192).held = true ∧ (u.qp 8192).epsn = 8)) := by decide +kernel

theorem witness_keep_alive : let a : Assoc := { Assoc.none with live := true, kato := 100, kaAt := live.now - ms 100, sqs := [(1, 7)] }
    idles (.keepAliveTimeout 1024) ((pair 7).setAssoc 1024 { a with kaAt := live.now - ms 100 + 1 }) ∧
    sees (.keepAliveTimeout 1024) ((pair 7).setAssoc 1024 a) (fun u => decide (u.assoc 1024 = Assoc.none) && !(u.qp 7).held) := by decide +kernel

theorem witness_capsule_receive : let s := port.setQp 7 { Qp.free with state := 2, held := true, hsq := 1, size := 1, qid := 1 }
    idles (.capsuleReceive 7 capRead) port ∧ idles (.capsuleReceive 7 capRead) (port.setQp 7 { Qp.free with state := 4, held := true }) ∧
    sees (.capsuleReceive 7 capRead) (port.setQp 7 { Qp.free with state := 3, held := true }) (fun u => decide (u.out.length = 3 ∧ u.out.head? = some (.packets 7 0 1 0 0 none true) ∧ .nak 7 0 (2 ^ 24 - 1) 0 ∈ u.out)) ∧
    sees (.capsuleReceive 7 capRead) s (fun u => decide ((u.qp 7).intake = [capRead] ∧ u.out = [.nak 7 0 (2 ^ 24 - 1) 0])) ∧
    sees (.capsuleReceive 7 capRead) (s.setQp 7 { s.qp 7 with intake := [capRead, capRead], epsn := 9, mpsn := 5 })
      (fun u => decide (u.out = [.nak 7 2 5 0] ∧ (u.qp 7).epsn = 5)) := by decide +kernel

theorem witness_capsule_admit : let q : Qp := { Qp.free with state := 2, held := true, hsq := 3, size := 3, sqhd := 3, qid := 1, intake := [capRead] }
    let s := ((port.with nsRegs).setQp 7 q).setSlot 0 { Slot.empty with state := 1 }
    let b := s.setQp 7 { q with intake := [{ capRead with opcode := 5 }] }
    placeFree s 7 = true ∧ nextWaiting s true = none ∧ intakeCheck s 7 capRead = .ok ∧ packetOp true capRead = some 2 ∧ intakeCheck b 7 { capRead with opcode := 5 } = .badOpcode ∧
    assocFeature s 7 2 capRead = none ∧ idles (.capsuleAdmit 8) s ∧
    sees (.capsuleAdmit 7) s (fun u => decide ((u.cmd 1).live = true ∧ (u.cmd 1).cls = .rd ∧ (u.cmd 1).place = some 1 ∧ (u.qp 7).sqhd = 0)) ∧
    sees (.capsuleAdmit 7) b (fun u => decide (.cqe 7 3 0 0 0 Status.badOpcode.sct Status.badOpcode.code Status.badOpcode.dnr ∈ u.out)) := by decide +kernel

theorem witness_queue_full : let q : Qp := { Qp.free with state := 2, held := true, hsq := 3, size := 3, qid := 1, intake := [capRead] }
    let s := port.setQp 7 { q with waitAt := some (port.now - ms 10) }
    port.fld (aNq 0) 15 8 = 10 ∧ idles (.qfullTimeout 7) (port.setQp 7 q) ∧ idles (.qfullTimeout 7) (port.setQp 7 { q with waitAt := some port.now }) ∧
    sees (.qfullTimeout 7) s (fun u => decide (.cqe 7 3 0 0 1 Status.queueFull.sct Status.queueFull.code Status.queueFull.dnr ∈ u.out ∧ u.reg (aNq 0x20) = 1)) := by
  decide +kernel

/-- 131,072 commands outstanding leave no place. -/
theorem witness_no_place : let c : Cmd := { Cmd.none with live := true, qp := 7 }
    ∀ s : State, s.nq.cmds = (List.range 131072).map (fun i => (i, c)) → placeFree s 7 = false := by
  intro c s h
  have e : ioOutstanding s = 131072 := by
    unfold ioOutstanding liveCmds
    rw [h, List.filter_map, List.filter_map, List.length_map, List.filter_eq_self.mpr, List.filter_eq_self.mpr, List.length_range]
    · intro a _; rfl
    · intro a _; rfl
  unfold placeFree
  rw [if_pos (by decide), e]
  decide

theorem witness_turn : let s := (port.with nsRegs).setCmd 1 { readCmd with turned := false, place := some 1, blks := [Blk.idle] }
    let d := port.setCmd 1 { readCmd with turned := false, place := some 1, blks := [Blk.idle] }
    behindDelete s 1 = false ∧ turnReady s 1 = true ∧ behindDelete d 1 = true ∧ idles (.orderingTurn 1) reading ∧
    sees (.orderingTurn 1) s (fun u => (u.cmd 1).turned) ∧
    sees (.orderingTurn 1) d (fun u => decide (u.out.length = 2 ∧ (u.cmd 1).live = false)) ∧
    (let w := s.setCmd 0 { readCmd with cls := .wr, turned := false, place := some 0, blks := [Blk.idle] }
     turnReady w 1 = false ∧ idles (.orderingTurn 1) w) := by decide +kernel

theorem witness_zone_turn : let c : Cmd := { readCmd with cls := .wr, cap := { capRead with opcode := 1 }, turned := false, place := some 1, blks := [Blk.idle] }
    let s := zoned.setCmd 1 c
    nsZoned s 1 = true ∧ zoneCap s 1 0 ≠ 0 ∧ (zoneTurn s c).toOption = some 0 ∧ (zoneTurn s { c with lo := 1 }).toOption = none ∧
    sees (.orderingTurn 1) s (fun u => (u.cmd 1).turned) ∧
    sees (.orderingTurn 1) (zoned.setCmd 1 { c with lo := 1 }) (fun u => decide (u.out.length = 2 ∧ (u.cmd 1).live = false)) := by decide +kernel

theorem witness_scan : let s : State := { (port.with nsRegs) with buf := { live.buf with scans := [1] } }
    idles (.invalidationScanDone 2) s ∧
    sees (.invalidationScanDone 1) (s.setCmd 1 { readCmd with cls := .iv, cap := { capRead with opcode := 9 } })
      (fun u => decide (u.buf.scans = [] ∧ ((u.cmd 1).done = true ∨ (u.cmd 1).live = false))) := by decide +kernel

/-! ### I/O, admin, namespace, management and Fabrics commands -/

theorem witness_io_idle : let s := having capRead readCmd 7
    (∀ x ∈ [(Instr.write 1), .writeZeroes 1, .zoneAppend 1, .flush 1, .datasetManagement 1], idles x s = true) ∧ idles (.read 0 none none) s := by decide +kernel

theorem witness_read : let s := having capRead { readCmd with blks := [Blk.idle] } 7 { Assoc.none with live := true } zoned
    hostCmd s 1 2 ∧ unwritten s 1 0 = true ∧ (∀ x ∈ s.buf.trackers, x.nsid ≠ 1) ∧
    sees (.read 1 none none) s (fun u => decide (((u.cmd 1).blk 0).st = .ready ∧ ((u.cmd 1).blk 0).data = [])) := by
  unfold hostCmd; decide +kernel

theorem witness_writes : let s (op : Nat) := having { capRead with opcode := op } { readCmd with cls := .wr, blks := [⟨.ready, none, [], none⟩] } 7
    hostCmd (s 1) 1 1 ∧ nsZoned (s 1) 1 = false ∧ (s 1).bit (aBuf 8) 0 = true ∧
    endsWith (.write 1) (s 1) 0 .ok ∧ endsWith (.writeZeroes 1) (s 8) 0 .ok ∧ endsWith (.zoneAppend 1) (s 0x7D) 0 .ok := by
  unfold hostCmd; decide +kernel

theorem witness_flush_dsm : let f := having { capRead with opcode := 0 } { readCmd with cls := .fl, blks := [], done := true } 7
    let d (b : Bool) := having { capRead with opcode := 9, cdw11 := 4 } { readCmd with cls := .iv, blks := [], done := b } 7
    recordsOk f { f.cmd 1 with done := true } = true ∧ endsWith (.flush 1) f 0 .ok ∧ idles (.datasetManagement 1) (d false) ∧
    endsWith (.datasetManagement 1) (d true) 0 .ok := by decide +kernel

theorem witness_zones : let s (act : Nat) (w : Zone) := (having { capRead with opcode := 0x79, cdw13 := act } { readCmd with cls := .iv, blks := [] } 7 { Assoc.none with live := true } zoned)
      |> fun u => { u with nq := { u.nq with zones := Tab.to Zone.fresh [] 1024 w } }
    hostCmd (s 1 ⟨.implOpen, 3, 3⟩) 1 0x79 ∧ idles (.zoneClose 1) (s 2 Zone.fresh) ∧
    zoneState (s 1 ⟨.implOpen, 3, 3⟩) 1 0 = .implOpen ∧
    sees (.zoneClose 1) (s 1 ⟨.implOpen, 3, 3⟩) (fun u => decide (zoneAt u 1 0 = ⟨.closed, 3, 3⟩)) ∧
    sees (.zoneClose 1) (s 1 ⟨.explOpen, 0, 0⟩) (fun u => decide (zoneAt u 1 0 = Zone.fresh)) ∧
    sees (.zoneFinish 1) (s 2 ⟨.explOpen, 3, 3⟩) (fun u => decide (zoneAt u 1 0 = ⟨.full, zoneCap u 1 0, 3⟩)) ∧
    sees (.zoneOpen 1) (s 3 ⟨.closed, 3, 3⟩) (fun u => decide (zoneAt u 1 0 = ⟨.explOpen, 3, 3⟩)) ∧
    sees (.zoneReset 1) (s 4 ⟨.full, 3, 3⟩) (fun u => decide (zoneAt u 1 0 = Zone.fresh)) ∧
    endsWith (.zoneOffline 1) (s 5 Zone.fresh) 0 .badField := by unfold hostCmd; decide +kernel

theorem witness_zone_report : let s := having { capRead with opcode := 0x7A, cdw12 := 15 } { readCmd with cls := .none, blks := [] } 7 { Assoc.none with live := true } zoned
    idles (.extendedReportZones 1) s ∧ sees (.reportZones 1) s (fun u => decide (u.out.length = 4 ∧ (u.cmd 1).live = false)) ∧
    sees (.zonePointerRecord 1 0 0) { zoned with nq := { zoned.nq with reached := [(reachKey 1 0 0, 9)] } }
      (fun u => decide (Tab.at 0 u.nq.recorded (reachKey 1 0 0) = 9)) ∧ nsExists zoned 1 = true ∧ nsGcount zoned 1 = 1 ∧ nsHeads zoned 1 = 1 := by
  decide +kernel

theorem witness_admin_idle : let s := adm 0x3F
    adminIdle s 1 0x86 ∧ (∀ x ∈ [(Instr.identify 1), .getLogPage 1, .numberOfQueues 1, .volatileWriteCache 1, .readDeadline 1, .getFeatures 1,
      .createIoCompletionQueue 1, .createIoSubmissionQueue 1, .deleteIoSubmissionQueue 1, .deleteIoCompletionQueue 1, .abort 1, .queueReset 1,
      .keepAlive 1, .asynchronousEventRequest 1, .namespaceCreate 1, .namespaceDelete 1, .namespaceAttach 1, .namespaceDetach 1, .placementMap 1,
      .retirementMap 1, .retireCommand 1, .reinstateCommand 1, .managementSend 1, .managementReceive 1, .connect 1, .propertyGet 1, .propertySet 1,
      .disconnect 1, .authenticationSend 1, .authenticationReceive 1], idles x s = true) := by
  unfold adminIdle; decide +kernel

theorem witness_identify : adminCmd (adm 6 0x30) 1 0x86 ∧ identifyData (adm 6 0x30) ((adm 6 0x30).cmd 1).cap 1 = none ∧
    endsWith (.identify 1) (adm 6 0x30) 0 .badField ∧ (identifyData (adm 6 1) ((adm 6 1).cmd 1).cap 1).isSome ∧
    sees (.identify 1) (adm 6 1) (fun u => decide (u.out.length = 2)) := by unfold adminCmd hostCmd; decide +kernel

theorem witness_log : adminCmd (adm 2 0x70) 1 0x82 ∧
    sees (.getLogPage 1) (adm 2 0x70 0 { Assoc.none with live := true, discovery := true }) (fun u => decide (u.out.length = 2)) ∧
    sees (.getLogPage 1) (adm 2 4) (fun u => decide (u.out.length = 2)) ∧
    endsWith (.getLogPage 1) (adm 2 4 0 { Assoc.none with live := true, discovery := true }) 0 .badField ∧
    endsWith (.getLogPage 1) (adm 2 5) 0 .badField := by unfold adminCmd hostCmd; decide +kernel

theorem witness_set_features : idles (.numberOfQueues 1) (adm 9 6) ∧ idles (.volatileWriteCache 1) (adm 9 7) ∧ idles (.readDeadline 1) (adm 9 7) ∧
    endsWith (.numberOfQueues 1) (adm 9 7 0xFFFF0000) 0 .badField ∧
    endsWith (.numberOfQueues 1) (adm 9 7 0x30004) (3 * 65537) .ok ∧
    sees (.volatileWriteCache 1) (adm 9 6 1) (fun u => u.bit (aBuf 8) 0 && !(u.cmd 1).live) ∧
    sees (.volatileWriteCache 1) (adm 9 6 0) (fun u => !(u.bit (aBuf 8) 0) && !(u.cmd 1).live) ∧
    sees (.readDeadline 1) (adm 9 0xC0 100) (fun u => decide (u.nq.changes = [(.deadline 1 100, 1)] ∧ u.fld (aNq 0x14) 1 0 = 1)) := by decide +kernel

/-- Turning the write cache off waits for the dirty units. -/
theorem witness_cache_off : let s : State := { adm 9 6 0 with buf := { live.buf with
      lines := [(0, ⟨1, 0, 0, false, false, [(0, { Unit4.none with valid := true, dirty := true })], none⟩)] } }
    dirtyOf s { Cmd.none with all := true } ≠ [] ∧ sees (.volatileWriteCache 1) s (fun u => decide ((u.cmd 1).done = true ∧ (u.cmd 1).units ≠ [] ∧ u.out = [])) := by
  decide +kernel

theorem witness_get_features : endsWith (.getFeatures 1) (adm 0xA 6) 1 .ok ∧ endsWith (.getFeatures 1) (adm 0xA 7) 65537 .ok ∧
    ((adm 0xA 7 0 Assoc.none).assoc 1).granted = 0 ∧ endsWith (.getFeatures 1) (adm 0xA 0xB 0 { Assoc.none with aec := 9 }) 9 .ok ∧
    endsWith (.getFeatures 1) (adm 0xA 0xF 0 { Assoc.none with kato := 100 }) 100 .ok ∧ endsWith (.getFeatures 1) (adm 0xA 0xC0) 0 .ok := by decide +kernel

theorem witness_completion_queues : let a : Assoc := { Assoc.none with live := true, granted := 2, cqs := [(1, 31)] }
    endsWith (.createIoCompletionQueue 1) (adm 5 1 0) 0 .badLength ∧ endsWith (.createIoCompletionQueue 1) (adm 5 0x1F0003 0) 0 .badField ∧
    endsWith (.createIoCompletionQueue 1) (adm 5 0x1F0001 1 a) 0 .badField ∧ endsWith (.createIoCompletionQueue 1) (adm 5 0x1F0002 1 a) 0 .ok ∧
    endsWith (.deleteIoCompletionQueue 1) (adm 4 2 0 a) 0 .badField ∧ endsWith (.deleteIoCompletionQueue 1) (adm 4 1 0 a) 0 .ok ∧
    endsWith (.deleteIoCompletionQueue 1) (adm 4 1 0 { a with sqs := [(1, 7)] }) 0 .badField := by decide +kernel

theorem witness_submission_queues : let a : Assoc := { Assoc.none with live := true, granted := 2, cqs := [(1, 31)] }
    poolPair (adm 1 0x1F0001 0x10001 a) = some 0 ∧
    endsWith (.createIoSubmissionQueue 1) (adm 1 1 0x10001 a) 0 .badLength ∧ endsWith (.createIoSubmissionQueue 1) (adm 1 0x1E0001 0x10001 a) 0 .badField ∧
    sees (.createIoSubmissionQueue 1) (adm 1 0x1F0001 0x10001 a) (fun u => decide ((u.assoc 1).sqs = [(1, 0)] ∧
      u.qp 0 = { Qp.free with state := 1, cntlid := 1, qid := 1, size := 31 })) := by decide +kernel

/-- Every pair of the pool taken, none ending. -/
theorem witness_pool_full (s : State) (h : s.nq.qps = (List.range 8192).map fun i => (i, { Qp.free with state := 2 })) : poolPair s = none := by
  have e : ∀ n, n < 8192 → (s.qp n).state = 2 := fun n hn => by
    unfold State.qp; rw [h, test_full _ _ _ _ (List.mem_range.mpr hn)]
  unfold poolPair
  rw [List.find?_eq_none.mpr, List.find?_eq_none.mpr]
  · intro n hn; simp [e n (List.mem_range.mp hn)]
  · intro n hn; simp [e n (List.mem_range.mp hn)]

theorem witness_queue_resets : let a : Assoc := { Assoc.none with live := true, sqs := [(1, 7)] }
    let s (op n : Nat) := (adm op 1 0 a).setQp 7 { Qp.free with state := n, qid := 1, cntlid := 1, size := 3, sqhd := 3, intake := [capRead] }
    sqPair (s 0xC0 2) 1 1 = some 7 ∧ joinedBy (s 0xC0 2) 1 = false ∧ oldCmds (s 0xC0 2) 7 = [] ∧
    endsWith (.queueReset 1) (adm 0xC0 2 0 a) 0 .badField ∧ endsWith (.queueReset 1) (adm 0xC0 1 9 a) 0 .badField ∧
    endsWith (.queueReset 1) (s 0xC0 1) 0 .ok ∧ sees (.deleteIoSubmissionQueue 1) (s 0 1) (fun u => decide (u.qp 7 = Qp.free)) ∧
    sees (.queueReset 1) (s 0xC0 2) (fun u => decide ((u.qp 7).state = 3 ∧ (u.qp 7).joined = [.reset 1] ∧ (u.qp 7).oldLeft = 1 ∧ (u.qp 7).sqhd = 0)) ∧
    sees (.deleteIoSubmissionQueue 1) (s 0 3) (fun u => decide ((u.qp 7).joined = [.delete 1])) ∧
    idles (.deleteIoSubmissionQueue 1) ((s 0 3).setQp 7 { (s 0 3).qp 7 with joined := [.delete 1] }) := by decide +kernel

theorem witness_abort_aer : let a : Assoc := { Assoc.none with live := true }
    endsWith (.abort 1) (adm 8) 1 .ok ∧ sees (.keepAlive 1) (adm 0x18) (fun u => decide ((u.assoc 1).kaAt = u.now ∧ (u.cmd 1).live = false)) ∧
    idles (.asynchronousEventRequest 1) (adm 0xC 0 0 { a with aers := [1] }) ∧
    sees (.asynchronousEventRequest 1) (adm 0xC 0 0 a) (fun u => decide ((u.assoc 1).aers = [1])) ∧
    endsWith (.asynchronousEventRequest 1) (adm 0xC 0 0 { a with events := [5, 6] }) 5 .ok := by decide +kernel

theorem witness_reset_complete : let s (n : Nat) (j : List Joiner) := (adm 0xC0 1).setQp 7 { Qp.free with state := n, qid := 1, cntlid := 1, joined := j, oldLeft := 2 }
    idles (.queueResetComplete 7) (s 2 []) ∧
    sees (.queueResetComplete 7) (s 3 []) (fun u => decide ((u.qp 7).state = 2 ∧ (u.qp 7).oldLeft = 0)) ∧
    endsWith (.queueResetComplete 7) (s 3 [.reset 1]) 2 .ok ∧
    sees (.queueResetComplete 7) (s 3 [.delete 1]) (fun u => decide (u.qp 7 = Qp.free ∧ .cm 2 7 0 ∈ u.out)) ∧
    sees (.queueResetComplete 7) (s 4 [.ending]) (fun u => decide (u.qp 7 = Qp.free)) ∧
    (let e := ((s 4 [.ending]).setAssoc 1 { Assoc.none with live := true, ending := true }).setQp 8192 Qp.free
     pairsHeld (e.setQp 7 Qp.free) 1 = [] ∧ sees (.queueResetComplete 7) e (fun u => decide (u.assoc 1 = Assoc.none))) := by decide +kernel

/-- A create's data: kind HEAD on head 0 of tile 0, band groups 0 up to `n` (R348). -/
def descr (n : Nat) : Payload := zeros 3840 ++ [1, 0, 0, 0, 0, 0, BitVec.ofNat 8 n, 0] ++ zeros 24

theorem witness_ns_checks : endsWith (.namespaceCreate 1) (adm 0xD 0 0 Assoc.none (descr 0)) 0 .badLength ∧
    endsWith (.namespaceCreate 1) (adm 0xD 0 0x1000000 Assoc.none (descr 1)) 0 .badField ∧
    descriptorOk { Capsule.zero with data := descr 1 } = true ∧ descriptorOk { Capsule.zero with data := descr 1, cdw11 := 0x1000000 } = false := by decide +kernel

/-- A create's command. -/
def creating (csi : Nat) : State := having { Capsule.zero with opcode := 0xD, cdw11 := csi * 2 ^ 24, data := descr 1 } { Cmd.none with origin := .host } 8192
  { Assoc.none with live := true, granted := 2 } (live.with [(aTile 0 0x100, 0x01040100), (aTile 0 0x104, 12), (aTile 0 0x204, 2), (aTile 0 0x110, if csi = 0 then 15 else 0)])

theorem witness_create (n : Nat) (h : n = 0 ∨ n = 2) : let s := creating n
    adminCmd s 1 0x8D ∧ freeNsid s = some 1 ∧ placementOk (writeCandidate s 1 (s.cmd 1).cap) 1 (s.cmd 1).cap = true := by
  have a : nsList (creating n) = [] := test_no_ns _ (by rcases h with rfl | rfl <;> decide +kernel)
  have b : nsList (writeCandidate (creating n) 1 ((creating n).cmd 1).cap) = [] := test_no_ns _ (by rcases h with rfl | rfl <;> decide +kernel)
  refine ⟨by unfold adminCmd hostCmd; rcases h with rfl | rfl <;> decide +kernel, ?_, ?_⟩
  · unfold freeNsid holders; rw [a]; rcases h with rfl | rfl <;> decide +kernel
  · unfold placementOk holders; rw [b]; rcases h with rfl | rfl <;> decide +kernel

/-- A create while every NSID is being blanked. -/
theorem witness_no_nsid (s : State) (h : s.nq.blanking = (List.range 4096).map fun i => (i + 1, 0)) : freeNsid s = none := by
  unfold freeNsid
  rw [List.find?_eq_none]
  intro n hn
  have : n ∈ holders s := by
    unfold holders; rw [h]
    refine List.mem_append_left _ (List.mem_append_right _ ?_)
    simpa using hn
  simp [this]

theorem witness_ns_idle : let s := adm 0x3F
    adminIdle s 1 0x8D ∧ (∀ x ∈ [(Instr.namespaceCreate 1), .namespaceDelete 1, .namespaceAttach 1, .namespaceDetach 1], idles x s = true) ∧
    idles (.namespaceCreate 1) (adm 0xD 1) ∧ idles (.namespaceDelete 1) (adm 0xD 0) ∧ idles (.namespaceAttach 1) (adm 0x15 1) ∧ idles (.namespaceDetach 1) (adm 0x15 0) := by
  unfold adminIdle; decide +kernel

theorem witness_delete_attach : let ex : State → State := fun s => s.with [(aNs 1 0, 0x80010000), (aNs 1 4, 0x10000)]
    idles (.namespaceDelete 1) ({ adm 0xD 1 with buf := { live.buf with scans := [1] } }) ∧
    sees (.namespaceDelete 1) (adm 0xD 1) (fun u => decide (u.nq.changes = [(.delete 1, 1)])) ∧
    endsWith (.namespaceAttach 1) (adm 0x15 0) 0 .badField ∧ endsWith (.namespaceDetach 1) (ex (adm 0x15 1)) 0 .badField ∧
    sees (.namespaceAttach 1) (ex (adm 0x15 0)) (fun u => decide (u.nq.changes = [(.attach 1, 1)])) ∧
    sees (.namespaceDetach 1) ((adm 0x15 1).with nsRegs) (fun u => decide (u.nq.changes = [(.detach 1, 1)])) := by decide +kernel

theorem witness_blanking : let s : State := { (live.with nsRegs) with nq := { live.nq with blanking := [(1, 5)] } }
    idles (.blankingDone 2) s ∧ sees (.blankingDone 1) s (fun u => decide (u.nq.changes = [(.create 1, 5)] ∧ u.nq.blanking = [] ∧ u.bit (aNs 1 0) 28 = false)) ∧
    idles (.blankingDone 1) (s.with [(aLink 0, 0)]) := by decide +kernel

theorem witness_table_write : let s (x : NsChange) : State := { ((adm 0xD).with nsRegs) with nq := { (adm 0xD).nq with changes := [(x, 1)] } }
    idles (.nsTableFlashWrite true) live ∧
    sees (.nsTableFlashWrite false) (s (.attach 1)) (fun u => decide (u.nq.changes = [] ∧ u.fld (aNq 0x14) 1 0 = 2 ∧ (u.cmd 1).live = false)) := by decide +kernel

theorem witness_deleted_size : (nsSize (live.with nsRegs) 1 + 15) / 16 ≤ 65536 ∧ (live.with nsRegs).buf.lines = [] ∧ (live.with nsRegs).buf.copies = [] := by decide +kernel

theorem witness_management_idle : let s := adm 0x3F
    (∀ x ∈ [(0xC1, Instr.placementMap 1), (0xC4, .retirementMap 1), (0xC2, .retireCommand 1), (0xC3, .reinstateCommand 1), (0xC9, .managementSend 1), (0xCA, .managementReceive 1)],
      idles x.2 s = true) ∧ adminIdle s 1 0xC1 := by unfold adminIdle; decide +kernel

theorem witness_units : unitCheck live 0x05000001 = .badField ∧ unitCheck live 0x05000000 = .ok ∧ unitCheck live 0x02000000 = .ok ∧
    adminCmd (adm 0xC2 0x02000000) 1 0xC2 ∧ adminCmd (adm 0xC3 0x02000000) 1 0xC3 ∧
    endsWith (.retireCommand 1) (adm 0xC2 0x05000001) 0 .badField ∧ endsWith (.reinstateCommand 1) (adm 0xC3 0x02000000) 0 .badField ∧
    endsWith (.retireCommand 1) ((adm 0xC2 0x02000000).with [((retireBit 0 2 0 0 0).1, 0xFFFFFFFF)]) 0 .ok ∧
    unitRetired ((adm 0xC2 0x02000000).with [((retireBit 0 2 0 0 0).1, 0xFFFFFFFF)]) 0 2 0 0 0 = true ∧
    unitRetired (adm 0xC2 0x02000000) 0 2 0 0 0 = false ∧ inMaint ((adm 0xC3 0x02000000).with [(aMgt 0x20, 1)]) 0 = true := by
  unfold adminCmd hostCmd; decide +kernel

theorem witness_management_receive : let s : State := { adm 0xCA 9 with mgmt := { live.mgmt with kept := [(1, replyPacket 2 9 0 [])] } }
    adminCmd s 1 0xCA ∧ beAt (Tab.at [] s.mgmt.kept 1) 2 2 = 9 ∧ endsWith (.managementReceive 1) (adm 0xCA 9) 0 .badField ∧
    sees (.managementReceive 1) s (fun u => decide (u.out.length = 2)) := by unfold adminCmd hostCmd; decide +kernel

theorem witness_management_send : let s (bs : Payload) (mgr : Bool) := adm 0xC9 12 0 { Assoc.none with live := true, manager := mgr } bs
    adminCmd (s (packet 2) false) 1 0xC9 ∧ noPacket (packet 2) = false ∧ packetStatus (packet 2) = .ok ∧ noPacket (packet 2 0) = true ∧
    packetStatus ((packet 2).take 11 ++ [0, 0]) ≠ .ok ∧
    endsWith (.managementSend 1) (s (packet 2 0) false) 0 .badField ∧ endsWith (.managementSend 1) (s ((packet 2).take 11 ++ [0]) false) 0 .badCrc ∧
    endsWith (.managementSend 1) (s (packet 0x10) false) 0 .badOpcode ∧ endsWith (.managementSend 1) (s (packet 0x7E) true) 0 .badOpcode ∧
    sees (.managementSend 1) (s (packet 0x10) true) (fun u => decide (u.mgmt.waiting.length = 1)) ∧
    sees (.managementSend 1) (s (packet 2) false) (fun u => decide (u.mgmt.waiting.length = 1)) := by unfold adminCmd hostCmd; decide +kernel

/-! ### Fabrics -/

/-- A Fabrics command of type `ft` on queue pair `qp`, which is in `q`. -/
def fabric (ft : Nat) (d10 : Nat := 0) (d11 : Nat := 0) (data : Payload := []) (qp : Nat := 8192) (q : Qp := { Qp.free with state := 1, held := true }) (a : Assoc := Assoc.none) : State :=
  (having { Capsule.zero with opcode := 0x7F, fctype := ft, cdw10 := d10, cdw11 := d11, data := data } { Cmd.none with origin := .host } qp a).setQp qp q

/-- Connect data for controller `c`, subsystem and host. -/
def connectData (c : Nat) (sub host : Payload) (ring : Nat := 0) : Payload :=
  zeros 16 ++ leBytes 2 c ++ zeros 238 ++ padTo 256 sub ++ padTo 256 host ++ zeros 192 ++ leBytes 8 0 ++ leBytes 4 0 ++ leBytes 4 ring ++ zeros 48

theorem witness_fabrics_idle : let s := fabric 9
    cmdOp (s.cmd 1) ≠ 0xE1 ∧ (∀ x ∈ [(Instr.connect 1), .propertyGet 1, .propertySet 1, .disconnect 1, .authenticationSend 1, .authenticationReceive 1], idles x s = true) ∧
    endsWith (.authenticationSend 1) (fabric 5) 0 .badOpcode ∧ endsWith (.authenticationReceive 1) (fabric 6) 0 .badOpcode := by decide +kernel

theorem witness_admin_connect : let s := fabric 1 0 31 (connectData 0xFFFF discoveryNqn [65])
    hostCmd s 1 0xE1 ∧ freeCntlid s = some 1 ∧ endsWith (.connect 1) (fabric 1 0 31 [] 8192 { Qp.free with state := 2 }) 0 .badField ∧
    sees (.connect 1) (fabric 1 1) (fun u => decide (u.out.length = 1)) ∧
    sees (.connect 1) (fabric 1 0 31 (connectData 0 discoveryNqn [65])) (fun u => decide (u.free = 1)) ∧
    sees (.connect 1) (fabric 1 0 31 (connectData 0xFFFF [66] [65])) (fun u => decide (u.free = 1)) ∧
    sees (.connect 1) s (fun u => decide ((u.assoc 1).live = true ∧ (u.assoc 1).hostNqn = [65] ∧ (u.qp 8192).state = 2)) := by
  unfold hostCmd; decide +kernel

/-- All associations live. -/
theorem witness_all_live (s : State) (h : s.nq.assocs = (List.range 1025).map fun i => (i, { Assoc.none with live := true })) :
    ∀ k, 1 ≤ k → k ≤ 1024 → (s.assoc k).live = true := by
  intro k h1 h2
  unfold State.assoc; rw [h, test_full _ _ _ _ (List.mem_range.mpr (by omega))]

theorem witness_io_connect : let a : Assoc := { Assoc.none with live := true, hostNqn := [65], hostId := zeros 16, sqs := [(1, 7)] }
    let q : Qp := { Qp.free with state := 1, held := true, qid := 1, cntlid := 1, size := 31, hsq := 31 }
    let s (c ring size : Nat) := fabric 1 0x10000 size (connectData c discoveryNqn [65] ring) 7 q a
    hostCmd (s 1 0 31) 1 0xE1 ∧ sqPair (s 1 0 31) 1 1 = some 7 ∧ ringFault (connectData 1 discoveryNqn [65] 33) 31 = some 972 ∧
    ringFault (connectData 1 discoveryNqn [65]) 31 = none ∧ slice (connectData 1 discoveryNqn [65]) 0 16 = zeros 16 ∧
    sees (.connect 1) (s 2 0 31) (fun u => decide (u.free = 1)) ∧ sees (.connect 1) (s 1 0 30) (fun u => decide (u.free = 1)) ∧
    sees (.connect 1) (s 1 33 31) (fun u => decide (u.out.length = 1 ∧ (u.qp 7).state = 1)) ∧
    sees (.connect 1) (s 1 32 31) (fun u => decide ((u.qp 7).state = 2 ∧ (u.qp 7).rent = 32)) := by unfold hostCmd; decide +kernel

theorem witness_properties : let a : Assoc := { Assoc.none with live := true, cc := 9, csts := 1, granted := 4, cqs := [(1, 3)] }
    let q : Qp := { Qp.free with state := 2, cntlid := 1 }
    let g (z o : Nat) := fabric 4 z o [] 8192 q a
    let p (z o : Nat) := fabric 0 z o [] 8192 q a
    hostCmd (g 0 0x14) 1 0xE4 ∧ hostCmd (p 0 0x14) 1 0xE0 ∧
    endsWith (.propertyGet 1) (g 0 0x14) 9 .ok ∧ endsWith (.propertyGet 1) (g 0 0x1C) 1 .ok ∧ sees (.propertyGet 1) (g 0 8) (fun u => decide (u.free = 1)) ∧
    sees (.propertyGet 1) (g 1 0) (fun u => decide (u.free = 2)) ∧ endsWith (.propertyGet 1) (g 1 0x14) 0 .badField ∧
    endsWith (.propertyGet 1) (g 0 0) 0 .badField ∧ endsWith (.propertyGet 1) (g 0 4) 0 .badField ∧
    endsWith (.propertySet 1) (p 0 0x1C) 0 .badField ∧ endsWith (.propertySet 1) (p 1 0x14) 0 .badField ∧
    sees (.propertySet 1) (p 0 0x14) (fun u => decide ((u.assoc 1).cc = 0 ∧ (u.assoc 1).granted = 0 ∧ (u.assoc 1).cqs = [])) := by
  unfold hostCmd; decide +kernel

theorem witness_disconnect : let s := fabric 8 0 0 [] 7 { Qp.free with state := 2, held := true, est := true }
    hostCmd s 1 0xE8 ∧ oldCmds s 7 = [1] ∧ endsWith (.disconnect 1) (fabric 8) 0 .badField ∧
    sees (.disconnect 1) s (fun u => decide (u.out.length = 2 ∧ (u.qp 7).state = 4 ∧ (u.qp 7).joined = [.ending])) := by unfold hostCmd; decide +kernel

/-! ### Lines, locks and memory protection -/

/-- Line 0 of the namespace in its set's first way. -/
def lined (x : Line) (s : State := live.with nsRegs) : State := { s with buf := { s.buf with lines := [(16 * setOf s x.nsid x.line, x)] } }
/-- A line with a unit. -/
def lineWith (u : Unit4) : Line := ⟨1, 0, 0, false, false, [(0, u)], none⟩
/-- A dirty unit, eligible or not. -/
def dirtyU (e : Bool) : Unit4 := { Unit4.none with valid := true, dirty := true, elig := e }

theorem witness_frame_available : let r := having capRead { readCmd with blks := [Blk.idle] } 7 { Assoc.none with live := true } zoned
    idles .frameAvailable live ∧
    sees .frameAvailable { live with buf := { live.buf with waits := [1] } } (fun u => decide (u.buf.waits = [])) ∧
    unwritten r 1 0 = true ∧ sees .frameAvailable { r with buf := { r.buf with waits := [1] } } (fun u => decide (u.buf.waits = [] ∧ ((u.cmd 1).blk 0).st = .ready)) ∧
    (let s := lined (lineWith (dirtyU false))
     lineAt s 1 0 = some (16 * setOf s 1 0) ∧ nsExists s 1 = true ∧ setLocks s (setOf s 1 0) < s.fld (aBuf 0) 23 20 ∧
     (lineOf s (16 * setOf s 1 0)).dirty = true ∧ (lineOf s (16 * setOf s 1 0)).locked = false ∧
     sees .frameAvailable { s with buf := { s.buf with lockFill := [(1, 0, false)] } }
       (fun u => decide ((lineOf u (16 * setOf s 1 0)).locked = true ∧ u.buf.lockFill = []))) := by decide +kernel

theorem witness_cleaning : let s (e : Bool) : State := { live with buf := { live.buf with copies := [lineWith (dirtyU e)] } }
    idles (.evictionEnd 0) (s true) ∧ idles (.evictionEnd 1) (s true) ∧
    sees (.evictionEnd 0) { live with buf := { live.buf with copies := [lineWith Unit4.none] } } (fun u => decide (u.buf.copies = [])) ∧
    sees (.cleanDelayExpire 1 0) (s false) (fun u => decide (u.buf.copies = [lineWith (dirtyU true)])) ∧
    idles (.cleanerIssue []) (s false) ∧ (dirtyUnits (s true)).length = 1 ∧ (dirtyUnits (s true)).all (isElig (s true)) = true ∧ nsZoned (s true) 1 = false ∧
    storeReads (s true) [] = s true ∧ sees (.cleanerIssue []) (s true) (fun u => decide (u.buf.encrypt.length = 1)) := by decide +kernel

theorem witness_locks : let s := (lined (lineWith (dirtyU false))).with [(aBuf 0x30, 1), (aBuf 0x3C, 1)]
    let k := 16 * setOf s 1 0
    sees (.lockLines 0) (live.with [(aBuf 0x40, 0x80000000)]) (fun u => decide (u.out = [.reply .port (aBuf 0x40) 0xC0000000 .storeBusy])) ∧
    sees (.lockLines 0) (live.with [(aBuf 0x30, 9)]) (fun u => decide (u.fld (aBuf 0x40) 29 28 = 2)) ∧
    sees (.unlockLines 0) ((live.with nsRegs).with [(aBuf 0x30, 1), (aBuf 0x3C, 65536)]) (fun u => decide (u.fld (aBuf 0x40) 29 28 = 3)) ∧
    nsSize s 1 < 16 * 65536 ∧ 16 ≤ nsSize s 1 ∧ nsExists s 1 = true ∧ setLocks s (setOf s 1 0) < s.fld (aBuf 0) 23 20 ∧
    (lineOf s k).dirty = true ∧ sees (.lockLines 0) s (fun u => (lineOf u k).locked) ∧
    sees (.unlockLines 0) { s with buf := { s.buf with lines := s.buf.lines.map fun e => (e.1, { e.2 with locked := true }) } } (fun u => !(lineOf u k).locked) := by
  decide +kernel

theorem witness_invall : let s (u : Unit4) : State := { live with buf := { live.buf with lines := [(0, lineWith u)] } }
    sees .invall (live.with [(aBuf 0x10, 0x80000000)]) (fun u => decide (u.out = [.reply .port (aBuf 0xC) 1 .storeBusy])) ∧
    sees .invall (s { Unit4.none with valid := true }) (fun u => decide (u.buf.lines = [] ∧ u.bit (aBuf 0x10) 31 = false)) ∧
    sees .invall (s (dirtyU false)) (fun u => decide (u.bit (aBuf 0x10) 31 = true ∧ (lineOf u 0).inval = true)) := by decide +kernel

theorem witness_stale : let s := live.with [(aBuf 0x1BFC, 3)]
    idles (.staleClear 767 4) s ∧ sees (.staleClear 767 1) s (fun u => decide (u.reg (aBuf 0x1BFC) = 2 ∧ u.fld (aHub 0x1200) 1 0 = 1)) := by decide +kernel

theorem test_inverse_of_one : gfInv 1 = 1 := by
  have m : gfMul 1 1 = 1 := by decide +kernel
  have e : ∀ n, gfExp 1 n = 1 := fun n => by
    induction n with
    | zero => rfl
    | succ n ih => rw [gfExp, ih, m]
  exact e 254

/-- A unit whose first symbol is wrong. -/
theorem witness_corrected : eccCls ⟨0, 1 :: List.replicate 35 0⟩ = .corrected 0 1 := by
  have h : folded 0 (eccCells ⟨0, 1 :: List.replicate 35 0⟩) = [1, 1, 1, 1] := by decide +kernel
  have x : gfMul 1 1 = 1 := by decide +kernel
  have l : gfLog36 1 = some 0 := by decide +kernel
  unfold eccCls readUnit
  refine (congrArg classify h).trans ?_
  simp only [classify, ne_eq, test_inverse_of_one, x, l]
  decide

theorem witness_patrol : let z : EccRead := ⟨0, List.replicate 36 0⟩
    let e := live.with [(aMemp 4, 0x80000000)]
    let o : State := { e with memp := { e.memp with written := [(0, true)] } }
    unitRead e z = false ∧ unitRead o z = true ∧ wpPage o = some (eccPage z.addr) ∧
    wpPage { o with memp := { o.memp with written := [(0, true), (9, true)], scrub := [7] } } = some 7 ∧
    sees (.woodpeckerBurst [z] none none none false) e (fun u => decide (u.memp = e.memp)) ∧
    eccCls z = .clean ∧ eccIndex z.addr / 128 ∉ o.memp.scrub ∧
    sees (.woodpeckerBurst [z] none none none false) live (fun u => decide (u.memp = live.memp)) ∧
    sees (.woodpeckerBurst [z] none none none false) o (fun u => decide (u.out = [])) ∧
    nextPage { o with memp := { o.memp with written := [(0, true), (9, true)] } } 0 = some 9 := by decide +kernel

theorem witness_slow_patrol : let s := live.with [(aMemp 4, 1)]
    idles .woodpeckerSlow (live.with [(aMemp 4, 0)]) ∧ idles .woodpeckerSlow s ∧
    sees .woodpeckerSlow { s with now := 60 * 10 ^ 9 } (fun u => u.bit (aMemp 0) 30) := by decide +kernel

/-! ### Keys -/

/-- SKEY[0] of slot 0 of sett 0 set. -/
def keyed (i : Nat) (x : Slot := Slot.empty) (s : State := live) : State := (s.setSlot i x).with [(aSett (i / 8) (0x80 * (i % 8)), 1)]

theorem witness_key_load : let a := aSett 255 0x3A0
    settAllowed live (.assoc 9) 255 = false ∧ settAllowed live .port 255 = true ∧ held425 live = false ∧
    sees (.keyLoad (.assoc 9) 255 7) live (fun u => decide (u.out = [.reply (.assoc 9) a 1 .badField])) ∧
    sees (.slotErase (.assoc 9) 255 7) live (fun u => decide (u.out = [.reply (.assoc 9) a 2 .badField])) ∧
    sees (.testOperation (.assoc 9) 255) live (fun u => decide (u.out.length = 1)) ∧
    sees (.keyLoad .port 255 7) live (fun u => decide (u.out = [.reply .port a 1 .badField])) ∧
    sees (.keyLoad .port 255 7) (keyed 2047 { Slot.empty with state := 1, shadow := some (1, []) }) (fun u => decide (u.out = [.reply .port a 1 .storeBusy])) ∧
    sees (.keyLoad .port 255 7) (keyed 2047 { Slot.empty with state := 1, key := [7] }) (fun u => decide ((u.slot 2047).state = 1 ∧ (u.slot 2047).gen = 1 ∧
      (u.slot 2047).key = [0, 0, 0, 1] ++ zeros 28 ∧ u.reg (aSett 255 0x380) = 0)) := by decide +kernel

theorem witness_slot_erase : nsList (live.setSlot 3 { Slot.empty with state := 1 }) = [] ∧ live.nq.cmds = [] ∧
    sees (.slotErase .port 0 3) live (fun u => decide ((u.slot 3).gen = 1 ∧ u.out = [.reply .port (aSett 0 0x1A0) 2 .ok])) :=
  ⟨test_no_ns _ (by decide +kernel), by decide +kernel⟩

theorem witness_erase_pins : let s (p : Power → Power) : State := { live with power := p live.power }
    live.power.boot ≠ 0 ∧ live.power.deep ≠ .ps4 ∧ live.power.keyLow = false ∧ live.power.hot = false ∧ live.power.porstLow = false ∧
    live.power.roseAt + ms 10 ≤ live.now ∧ (railRange 6).2 + 40 < 1841 ∧
    idles (.keyEraseNLow 99) live ∧ idles (.keyEraseNLow 100) (s fun p => { p with keyLow := true }) ∧ idles (.temperatureAlarm 1050) live ∧
    idles (.temperatureAlarm 1051) (s fun p => { p with hot := true }) ∧ idles (.glitchTrip 6 1841 9) live ∧ idles (.glitchTrip 6 1840 10) live ∧
    idles (.glitchTrip 6 1670 10) live ∧ idles (.temperatureAlarmClear 1051) live ∧
    sees (.keyEraseNLow 100) (s fun p => { p with boot := 0 }) (fun u => decide (u.slots = [])) ∧
    sees .keyEraseNRelease ((s fun p => { p with keyLow := true }).with [(aCiph 8, 0x80000000)]) (fun u => !(u.bit (aCiph 8) 31)) ∧
    sees (.temperatureAlarmClear 1050) ((s fun p => { p with hot := true, keyLow := true }).with [(aCiph 8, 0x80000000)]) (fun u => u.bit (aCiph 8) 31) := by
  decide +kernel

theorem witness_test_operation : let s (len st : Nat) := (live.with [(aSett 0 0x400, 7), (aSett 0 0x40C, len)]).setSlot 7 { Slot.empty with state := st, key := zeros 32 }
    let ends (u : State) (st : Status) : Bool := sees (.testOperation .port 0) u fun v => decide (v.out = [.reply .port (aSett 0 0x404) 0x80000000 st] ∧ v.reg (aSett 0 0x408) = w32 st.code)
    ends (s 0 1) .badLength ∧ ends (s 65 1) .badLength ∧ ends (s 64 0) .slotEmpty ∧ ends (s 1 2) .keyErased := by decide +kernel

/-- Of two tags, one does not open a text. -/
theorem witness_test_fails (key iv aad ct t1 t2 : Payload) (h : t1 ≠ t2) : gcmOpen key iv aad ct t1 = none ∨ gcmOpen key iv aad ct t2 = none := by
  unfold gcmOpen
  dsimp only
  by_cases x : t1 = t2
  · exact absurd x h
  · split
    · split
      · simp_all
      · exact .inr rfl
    · exact .inl rfl

theorem witness_journal : let s (x : Slot) := live.setSlot 2047 x
    idles (.journalWriteDone 255 7 true) live ∧ idles (.journalRetry 255 7) live ∧
    sees (.journalWriteDone 255 7 true) (s { Slot.empty with record := some 64, waiting := true }) (fun u => decide (Tab.at 0 u.flash.journal 2047 = 64 ∧ (u.slot 2047).res = 64 ∧ (u.slot 2047).waiting = false)) ∧
    sees (.journalWriteDone 255 7 false) (s { Slot.empty with record := some 64 }) (fun u => decide ((u.slot 2047).failed = true ∧ u.fld (aCiph 0xC) 1 0 = 2)) ∧
    sees (.journalRetry 255 7) (s { Slot.empty with record := some 64, failed := true }) (fun u => decide ((u.slot 2047).failed = false)) := by decide +kernel

/-! ### Interrupts -/

theorem witness_sources_absent : irqOn live 0 ∧ irqOn live 8 ∧ srcReal live 0 17 0 = false ∧ srcReal live 8 4 0x41 = false ∧
    idles (.irqSourceEvent 0 17 0) live ∧ idles (.irqLevelFall 8 4 0x41 true) live := by unfold irqOn motionOn; decide +kernel

/-- Source `id` of target `n` of controller `ic` enabled at PRIO 3 for that target, level or edge, with the target's state. -/
def sourced (id : Nat) (level : Bool := false) (x : Target := Target.idle) (ic n : Nat := 0) : State :=
  (live.setReg (srcAddr ic n id) (w32 ((if level then 0xA3000000 else 0x83000000) + n))).setTarget ic n x

theorem witness_edges : srcReal (sourced 0x110) 0 0 0x110 = true ∧ eligible (sourced 0x110) 0 0 0x110 = true ∧ srcReal (sourced 2 (n := 17)) 0 17 2 = true ∧
    sees (.irqSourceEvent 0 0 0x110) (sourced 0x110) (fun u => decide (irqBit u 0 0x100 0x110 = true ∧ u.out = [.irq 0 0 true])) ∧
    sees (.irqSourceEvent 0 17 2) (sourced 2 (n := 17)) (fun u => decide ((u.target 0 17).pend = [2] ∧ (u.target 0 17).req = true)) ∧
    sees (.irqSourceEvent 0 0 0x110) (sourced 0x110 false { Target.idle with req := true }) (fun u => decide (u.out = [])) := by decide +kernel

theorem witness_levels : let s := sourced 0x100 true
    let p := sourced 2 true
    srcLevel s 0 0 0x100 = true ∧ srcLevel p 0 0 2 = true ∧
    sees (.irqSourceEvent 0 0 0x100) s (fun u => decide (irqBit u 0 0x180 0x100 = true ∧ irqBit u 0 0x100 0x100 = true) && idles (.irqSourceEvent 0 0 0x100) u) ∧
    sees (.irqSourceEvent 0 0 2) p (fun u => decide ((u.target 0 0).level = [2]) && idles (.irqSourceEvent 0 0 2) u) ∧
    idles (.irqLevelFall 0 0 0x100 true) s ∧ idles (.irqLevelFall 0 0 2 true) p ∧
    sees (.irqLevelFall 0 0 0x100 true) (s.with [(aIrq 0 0x140, 1), (aIrq 0 0x180, 1)]) (fun u => decide (irqBit u 0 0x180 0x100 = false ∧ u.irq.vanished = [((0, 0, 0x100), true)])) ∧
    sees (.irqLevelFall 0 0 2 true) (sourced 2 true { Target.idle with level := [2], stack := [(2, 3)] }) (fun u => decide ((u.target 0 0).level = [] ∧ u.irq.vanished = [((0, 0, 2), true)])) := by decide +kernel

theorem witness_claims : let p := sourced 2 false { Target.idle with pend := [2] }
    bestSource live 0 0 = 0 ∧ bestSource p 0 0 = 2 ∧
    sees (.claim .port 0 0) p (fun u => decide (u.out = [.reply .port (aTgt 0 0 0) 2 .ok])) ∧
    sees (.claim (.core 0 0) 0 0) live (fun u => decide (u.out = [.reply (.core 0 0) (aTgt 0 0 0) 0 .ok] ∧ u.reg (aTgt 0 0 0x1C) = 1)) ∧
    sees (.claim (.core 0 0) 0 0) p (fun u => decide ((u.target 0 0).stack = [(2, 3)] ∧ (u.target 0 0).pend = [])) := by decide +kernel

theorem witness_completes : let s := sourced 0x100 true { Target.idle with stack := [(0x100, 3), (2, 1)] }
    sees (.complete .port 0 0 0x100) s (fun u => decide (u.out.length = 1 ∧ (u.target 0 0).stack.length = 2)) ∧
    sees (.complete (.core 0 0) 0 0 0x100) s (fun u => decide ((u.target 0 0).stack = [(2, 1)])) ∧ topId s 0 0 ≠ 2 ∧
    sees (.complete (.core 0 0) 0 0 2) s (fun u => decide (.nmi 0 0 ∈ u.out ∧ u.fld (aTgt 0 0 0x14) 29 20 = 2 ∧ u.fld (aTgt 0 0 0x14) 19 10 = 0x100)) ∧
    sees (.complete (.core 0 0) 0 0 2) (s.with [(aTgt 0 0 0x14, 0x80000000)]) (fun u => decide (u.reg (aTgt 0 0 0x14) = 0x80000000)) ∧
    sees (.stackClear 0 0) s (fun u => decide ((u.target 0 0).stack = [] ∧ u.fld (aTgt 0 0 0x14) 7 0 = 2)) := by decide +kernel

theorem witness_target_rest : (regRow .zh7680 (srcAddr 0 0 0x41)).isNone ∧ (regRow .zh7680 (srcAddr 0 0 0x110)).all (fun r => decide (r.mask ≠ 0) && r.inRange 0x83000000) ∧
    sees (.sourceConfigWrite 0 0 0x41 5) live (fun u => decide (u.out = [.reply .engine (srcAddr 0 0 0x41) 5 .badField])) ∧
    sees (.sourceConfigWrite 0 0 0x110 0x83000000) live (fun u => decide (u.fld (srcAddr 0 0 0x110) 27 24 = 3)) ∧
    sees (.doorbell 0 17 3) live (fun u => decide ((u.target 0 17).pend = [5] ∧ u.reg (aTgt 0 17 0x20) = 3)) ∧
    idles (.irqTimerExpire 0 0) live ∧ sees (.irqTimerExpire 0 0) (live.with [(aTgt 0 0 0x28, 9)]) (fun u => decide ((u.target 0 0).pend = [1])) ∧ idles (.moderationTimeout 0 0) live ∧
    sees (.moderationTimeout 0 0) (sourced 2 false { Target.idle with pend := [2], since := some 0 }) (fun u => (u.target 0 0).req) ∧
    sees (.targetIdle 0 0) live (fun u => decide (u.reg (aTgt 0 0 0x24) = 1)) := by decide +kernel

/-! ### Management operations -/

theorem witness_port_dead : let s : State := { live with power := { live.power with boot := 0 } }
    portLive s = false ∧ idles .poll s ∧ idles (.fetch true) s ∧ idles (.send (packet 1)) s ∧ idles (.ignoredTransaction 255) s := by decide +kernel

theorem witness_port : let r : State := { live with mgmt := { live.mgmt with reply := some [1], err := true } }
    portLive live = true ∧ sees .poll r (fun u => decide (u.mgmt.err = false ∧ u.out.length = 1)) ∧ idles (.ignoredTransaction 0x5E) live ∧
    sees (.ignoredTransaction 255) live (fun u => decide (u.mgmt.err = true ∧ u.reg (aMgt 0x60) = 1)) ∧
    sees (.fetch true) live (fun u => decide (u.out = [.mdo [0]])) ∧ idles (.fetch false) r ∧
    sees (.fetch true) r (fun u => decide (u.mgmt.reply = none ∧ .mdo [1] ∈ u.out)) := by decide +kernel

theorem witness_send : portBusy (asked 1 []) = true ∧ portBusy live = false ∧
    sees (.send (packet 1)) { asked 1 [] with mgmt := { (asked 1 []).mgmt with waiting := [] } } (fun u => decide (u.mgmt.err = true ∧ u.reg (aMgt 0x60) = 1)) ∧
    sees (.send (packet 1 0)) live (fun u => decide (u.mgmt.err = true ∧ u.mgmt.busy = false)) ∧
    sees (.send ((packet 1).take 11 ++ [0])) live (fun u => decide (u.mgmt.reply = some (replyPacket 1 9 Status.badCrc.code []))) ∧
    sees (.send (packet 0x7E)) live (fun u => decide (u.mgmt.reply = some (replyPacket 0x7E 9 Status.badOpcode.code []))) ∧
    sees (.send (packet 1)) live (fun u => decide (u.mgmt.waiting = [⟨.port, 1, 9, 0, []⟩] ∧ u.mgmt.busy = true)) := by decide +kernel

theorem witness_lengths : opReady (asked 1 [0]) 1 9 [0] ∧
    (∀ x ∈ [(1, Instr.ident 9 [0]), (0x15, .version 9 [0]), (2, .regRead 9 [0]), (3, .regWrite 9 [0]), (0x10, .stageClear 9 [0]), (0x11, .stageWrite 9 [0]),
      (0x12, .stageRead 9 [0]), (0x13, .commit 9 [0]), (0x14, .revert 9 [0]), (0x20, .retire 9 [0]), (0x21, .reinstate 9 [0]), (0x22, .maintEnter 9 [0, 1]),
      (0x23, .calib 9 [0]), (0x24, .keyErase 9 [0]), (0x26, .power 9 [0])], ends x.2 (asked x.1 (if x.1 = 0x22 then [0, 1] else [0])) x.1 .badLength = true) ∧
    idles (.ident 9 []) { asked 1 [] with power := { live.power with boot := 5 } } ∧ flashUsable live = false ∧
    ends (.maintLeave 9 [0, 0]) (asked 0x22 [0, 0]) 0x22 .badLength ∧ ends (.stageClear 9 []) (asked 0x10 []) 0x10 .storeBusy ∧
    ends (.commit 9 (zeros 8)) (asked 0x13 (zeros 8)) 0x13 .storeBusy ∧ ends (.revert 9 (zeros 4)) (asked 0x14 (zeros 4)) 0x14 .storeBusy := by
  unfold opReady; decide +kernel

theorem witness_reads : let a := aNq 0
    gateOf live a = .open_ ∧ (blkOf a).isSome ∧ (regRow .zh7680 a).all (fun r => r.acc == .rw && !(r.inRange 0) && r.inRange 0x00200500) ∧
    fieldsOk live .nq 0 0x00200500 = true ∧
    sees (.ident 9 []) (asked 1 []) (fun u => u.mgmt.reply.isSome) ∧ sees (.version 9 []) (asked 0x15 []) (fun u => u.mgmt.reply.isSome) ∧
    sees (.regRead 9 (beBytes 4 a ++ [0, 1, 0, 0])) (asked 2 (beBytes 4 a ++ [0, 1, 0, 0])) (fun u => decide (u.mgmt.reply = some (replyPacket 2 9 0 [0, 0x40, 0x0A, 0]))) ∧
    ends (.regWrite 9 (beBytes 4 a ++ [0, 0, 0, 0])) (asked 3 (beBytes 4 a ++ [0, 0, 0, 0])) 3 .badField ∧
    sees (.regWrite 9 (beBytes 4 a ++ [0, 0x20, 5, 0xFF])) (asked 3 (beBytes 4 a ++ [0, 0x20, 5, 0xFF])) (fun u => decide (u.reg a = 0x00200500)) := by decide +kernel

theorem witness_staging : let p := beBytes 4 16777215 ++ [5]
    flashUsable flashed = true ∧ stagedState flashed ≠ 2 ∧
    sees (.stageClear 9 []) (asked 0x10 [] flashed) (fun u => decide (stagedState u = 2 ∧ u.mgmt.long.isSome = true)) ∧
    ends (.stageWrite 9 (p ++ [6])) (asked 0x11 (p ++ [6]) flashed) 0x11 .badField ∧ ends (.stageWrite 9 p) (asked 0x11 p) 0x11 .storeBusy ∧
    sees (.stageWrite 9 p) (asked 0x11 p flashed) (fun u => decide (u.mgmt.long = some ⟨⟨.port, 0x11, 9, 0, p⟩, some (.program 16777215 [5])⟩)) ∧
    (let r := beBytes 4 16777215 ++ [0, 1, 0, 0]
     ends (.stageRead 9 r) (asked 0x12 r) 0x12 .storeBusy ∧
     sees (.stageRead 9 r) (asked 0x12 r flashed) (fun u => decide (u.mgmt.reply = some (replyPacket 0x12 9 0 [0xFF])))) := by decide +kernel

theorem witness_commit : sees (.commit 9 (zeros 8)) (asked 0x13 (zeros 8) flashed) (fun u => u.mgmt.long.isNone && u.mgmt.reply.isSome) ∧
    commitCheck flashed 0 0 ≠ .ok ∧ revertCheck flashed 0 ≠ .ok := by decide +kernel

theorem witness_units_asked : let p : Payload := [2, 0, 0, 0]
    unitWord (beAt p 0 4) = (2, 0, 0, 0, 0) ∧ unitCheck live (beAt p 0 4) = .ok ∧
    ends (.retire 9 [2, 0, 0, 1]) (asked 0x20 [2, 0, 0, 1]) 0x20 .badField ∧ ends (.reinstate 9 [2, 0, 0, 1]) (asked 0x21 [2, 0, 0, 1]) 0x21 .badField ∧
    ends (.retire 9 p) (asked 0x20 p (live.with [((retireBit 0 2 0 0 0).1, 0xFFFFFFFF)])) 0x20 .ok ∧ unitRetired live 0 2 0 0 0 = false ∧
    ends (.reinstate 9 p) (asked 0x21 p) 0x21 .badField ∧ ends (.reinstate 9 p) (asked 0x21 p (live.with [(aMgt 0x20, 1)])) 0x21 .ok := by decide +kernel

theorem witness_maintenance : let e : Payload := [7, 1, 0, 0]
    let l : Payload := [7, 0, 0, 0]
    tileQuiet live 7 = true ∧ tileQuiet (live.setWrQ 7 0 [wrEnt 0]) 7 = false ∧ ends (.maintEnter 9 e) (asked 0x22 e { live with part := .zh7640 }) 0x22 .domainOff ∧
    sees (.maintEnter 9 e) (asked 0x22 e) (fun u => decide (u.bit (aMgt 0x20) 7 = true ∧ u.mgmt.busy = false)) ∧
    sees (.maintEnter 9 e) (asked 0x22 e (live.setWrQ 7 0 [wrEnt 0])) (fun u => decide (u.bit (aMgt 0x20) 7 = true) && u.mgmt.long.isSome) ∧
    ends (.maintLeave 9 l) (asked 0x22 l) 0x22 .ok := by decide +kernel

/-- Tile 0 in maintenance, its spindle at speed, cluster 0 on its tracks, its head 23 with a write current. -/
def calibrating : State := live.with [(aMgt 0x20, 1), (aSpn 0 4, 6), (aCtl 0 0 4, 4), (aTile 0 0x100, 0x01040100), (aTile 0 0x104, 12), (aTile 0 0x200, 1000000), (aTile 0 0x204, 2), (aWrtC 0 0 (0x104 + 16 * 23), 5 * 2 ^ 17)]

theorem witness_calib : let p : Payload := [0, 0, 0, 0]
    let s := calibrating
    let m : MgOp := ⟨.port, 0x23, 9, 0, p⟩
    let e := setCalJob { s with mgmt := { s.mgmt with long := some ⟨m, none⟩ }, tl := { s.tl with trained := [(0, [zoneOfBand s 0 0])] } } 0 0 ⟨[0], 5⟩
    0 < fmtBands s 0 ∧ inMaint s 0 = true ∧ tileRetired s 0 = false ∧ spnState s 0 = 6 ∧ clusterIdle s 0 0 = true ∧
    (List.range 24).filter (calHead s 0 0) = [23] ∧
    sees (.calib 9 p) (asked 0x23 p s) (fun u => decide (u.mgmt.long = some ⟨m, none⟩ ∧ calJob u 0 0 = ⟨[0], 1⟩ ∧ (u.wr 0).inQ.length = 1)) ∧
    sees (.calib 9 p) (asked 0x23 p (s.with [(aCtl 0 0 4, 1)])) (fun u => u.mgmt.long.isNone && u.mgmt.reply.isSome) ∧
    (∀ k, k < 4 → k ≠ 0 → calJob e 0 k = CalJob.none) ∧ zoneOfBand e 0 0 ∈ trainedZones e 0 0 ∧
    sees (.calib 9 p) e (fun u => decide (calJob u 0 0 = CalJob.none) && u.mgmt.long.isNone && u.mgmt.reply.isSome) := by decide +kernel

theorem witness_erase_power : nsList (asked 0x24 [0x45, 0x52, 0x41, 0x53]) = [] ∧ ends (.keyErase 9 [0, 0, 0, 0]) (asked 0x24 [0, 0, 0, 0]) 0x24 .badField ∧
    ends (.power 9 [3, 7, 0, 0]) (asked 0x26 [3, 7, 0, 0] { live with part := .zh7640 }) 0x26 .domainOff ∧
    sees (.power 9 [3, 7, 0, 0]) (asked 0x26 [3, 7, 0, 0]) (fun u => decide (tileTarget u 7 = 3)) ∧
    tileTarget (live.with [(aPwr 8, 0)]) 7 = 0 ∧ pwrTile (live.with [(aPwr 8, 0)]) 7 = 0 ∧ moving live 7 = false ∧
    ends (.power 9 [0, 7, 0, 0]) (asked 0x26 [0, 7, 0, 0] (live.with [(aPwr 8, 0)])) 0x26 .ok :=
  ⟨test_no_ns _ (by decide +kernel), by decide +kernel⟩

theorem witness_access_timeout : let p := beBytes 4 (aTile 0 0x100) ++ [0, 1, 0, 0]
    let s := live.with [(aLink 0, 0x2)]
    idles (.mgmtAccessTimeout 0) live ∧ tileBase 0 ≤ aTile 0 0x100 ∧ aTile 0 0x100 < tileBase 1 ∧ gateOf s (aTile 0 0x100) = .wait ∧
    sees (.mgmtAccessTimeout 0) (asked 2 p s) (fun u => decide (u.mgmt.reply = some (replyPacket 2 9 Status.storeBusy.code [0, 0, 0, 0]))) := by decide +kernel

/-- An access that waits is turned away with ST_STORE_BUSY (R37). -/
theorem witness_waiting_access : let l := live.with [(aLink 0, 0x2)]
    let s : State := { l with mgmt := { l.mgmt with accs := [⟨.port, aTile 0 0x100, some 5, []⟩] } }
    s.mgmt.waiting = [] ∧ gateOf s (aTile 0 0x100) = .wait ∧
    sees (.mgmtAccessTimeout 0) s (fun u => decide (u.mgmt.accs = [] ∧ u.out = [.reply .port (aTile 0 0x100) 5 .storeBusy])) := by decide +kernel

/-- An image of 64 bytes with no section in slot 2, the previous one. -/
def flashSlot : State :=
  let h : Payload := zeros 12 ++ beBytes 4 64 ++ zeros 44
  let b := h ++ beBytes 4 (crc32c h).toNat
  { (flashed.with [(aMgt 0xC, 1), (aLink 0, 0), (aLink 1, 0)]) with part := .zh7610, flash := { live.flash with cells := (List.range 64).map fun i => (0x3000000 + i, b.getD i 0) } }

theorem witness_revert : revertCheck flashSlot 0 = .ok ∧ flashUsable flashSlot = true ∧
    sees (.revert 9 [0, 0, 0, 0]) (asked 0x14 [0, 0, 0, 0] flashSlot) (fun u => decide (u.mgmt.long = some ⟨⟨.port, 0x14, 9, 0, [0, 0, 0, 0]⟩, some (.pointer true)⟩)) := by decide +kernel

/-! ### Resets and boot -/

/-- The device at boot step `b`. -/
def booting (b : Nat) (s : State := live) : State := { s with power := { s.power with boot := b } }

theorem witness_agreement : let s := booting 10 ({ live with part := .zh7610 })
    executorFree s = true ∧ s.tiles.filter (agreementDue s) = [0] ∧ tileAgrees s 0 = true ∧
    sees .agreementCheck s (fun u => decide (u.fld (aVer 0) 31 30 = 1)) ∧ idles .agreementCheck (booting 5) ∧
    idles .agreementCheck (live.with [(aLink 0, 0), (aLink 1, 0)]) := by decide +kernel

theorem witness_flash_done : let l (f : FlashOp) (op : Nat) : State := { flashed with mgmt := { live.mgmt with long := some ⟨⟨.port, op, 9, 0, []⟩, some f⟩ } }
    idles (.flashOperationDone true) live ∧ stagedState (live.with [(aMgt 0x14, 0x80000000)]) = 2 ∧
    sees (.flashOperationDone false) (live.with [(aMgt 0x14, 0x80000000)]) (fun u => decide (stagedState u = 3)) ∧
    ends (.flashOperationDone true) (l .eraseStaged 0x10) 0x10 .ok ∧ ends (.flashOperationDone false) (l .eraseStaged 0x10) 0x10 .storeBusy ∧
    sees (.flashOperationDone true) (l (.program 5 [7]) 0x11) (fun u => decide (stagedState u = 1 ∧ flashByte u (stagedBase live + 5) = 7)) ∧
    ends (.flashOperationDone false) (l (.pointer true) 0x14) 0x14 .storeBusy ∧
    sees (.optimeWrite true) (flashed.with [(aMgt 0x30, 77)]) (fun u => decide (u.flash.optime = 77)) ∧ idles (.optimeWrite true) live := by decide +kernel

theorem witness_soft_resets : idles .resetStart live ∧ idles .hubSoftReset (booting 5) ∧
    idles (.tileReset 7) (booting 8) ∧ 9 ≤ live.power.boot ∧ live.power.deep = .awake := by decide +kernel

theorem witness_power_on : sees .powerOn live (fun u => decide (u.regs = [] ∧ u.power.boot = 1)) ∧
    sees (.testEnable true) live (fun u => decide (u.power.boot = 0 ∧ u.regs = [])) ∧ idles (.testEnable false) live ∧
    idles (.porstN 999) live ∧ idles (.warmN 1000) { live with power := { live.power with testEn := true } } ∧ idles (.porstN 1000) (booting 0) ∧
    sees (.supplyLoss false) live (fun u => decide (u.power.boot = 0)) := by decide +kernel

theorem witness_reset_pins : loadedTiles live = [] ∧ live.owl.wins = [] ∧
    sees (.porstN 1000) live (fun u => decide (u.power.boot = 1 ∧ u.power.kind = 1 ∧ u.power.porstLow = true)) ∧
    sees (.warmN 1000) live (fun u => decide (u.power.boot = 1 ∧ u.power.kind = 2 ∧ u.fld (aPwr 0x1C) 3 0 = 2)) ∧
    sees (.warmN 1000) { live with power := { live.power with porstLow := true } } (fun u => decide (u.power.warmLow = true)) := by decide +kernel

theorem witness_boot_steps : (∀ b ∈ [1, 2, 4, 5, 6, 7, 8], idles (.bootStep false) (booting b) = true) ∧
    idles (.bootStep true) { live with power := { live.power with testEn := true } } ∧
    sees (.bootStep true) { booting 1 with power := { (booting 1).power with porstLow := true } } (fun u => decide (u.power.boot = 2 ∧ u.power.porstLow = false ∧ u.power.roseAt = live.now)) ∧
    (∀ b ∈ [2, 6, 7], sees (.bootStep true) (booting b) (fun u => decide (u.power.boot = b + 1)) = true) := by decide +kernel

/-- The tiles' way begins once a configuration is loaded. -/
theorem witness_boot_tiles : (live.with [(aMgt 0, 0x4000)]).bit (aMgt 0) 14 = true ∧ (booting 8).mgmt.long = none ∧ (booting 8).power.bring = [] ∧ (booting 8).power.goal = [] := by decide +kernel

/-- Tile 0 at bring-in step `b`. -/
def bringing (b : Nat) (s : State := live) : State := { s with power := { s.power with bring := [(0, b)], goal := [(0, some 2)] } }

/-- A tile that has a format and has trained its zones in every cluster. -/
def formatted (zs : List Nat) : State :=
  let s := live.with [(aTile 0 0x100, 0x01040100), (aTile 0 0x104, 12), (aTile 0 0x200, 1000000), (aTile 0 0x204, 2)]
  { s with tl := { s.tl with trained := (List.range 4).map fun c => (c, zs) } }

/-- A copy of a format record with its CRC-32C, that head 0 of cluster 0 reads in sector 0 of the pair (R62, R68). -/
def copyOf (s : State) (b : Payload) : Payload :=
  headerOf s (mkPsa 0 0 0 (fmtRecTrack s 0 0) 0) false true ++ (b ++ beBytes 4 (crc32c b).toNat)

theorem test_good_copy (b : Payload) (n : b.length = 4092) : let s := bringing 5 (formatted [0])
    formatHead s 0 [(0, copyOf s b)] = some (0, 0, copyOf s b) ∧ slice (copyOf s b) 16 280 = b.take 280 := by
  intro s
  have hh : (headerOf s (mkPsa 0 0 0 (fmtRecTrack s 0 0) 0) false true).length = 16 := by decide +kernel
  have t : (copyOf s b).take 16 = headerOf s (mkPsa 0 0 0 (fmtRecTrack s 0 0) 0) false true := by
    unfold copyOf; rw [List.take_append_of_le_length (by omega), List.take_of_length_le (by omega)]
  have d : (copyOf s b).drop 16 = b ++ beBytes 4 (crc32c b).toNat := by
    unfold copyOf; rw [List.drop_append_of_le_length (by omega), List.drop_of_length_le (by omega), List.nil_append]
  have l : (b ++ beBytes 4 (crc32c b).toNat).length = 4096 := by rw [List.length_append, n, beBytes_length]
  have g : goodRecord s 0 0 0 0 (copyOf s b) = true := by
    unfold goodRecord beAt slice
    dsimp only
    rw [t, d, List.take_of_length_le (by omega), List.take_append_of_le_length (l₁ := b) (by omega), List.take_of_length_le (l := b) (by omega),
      List.drop_append_of_le_length (by omega), List.drop_of_length_le (l := b) (by omega), List.nil_append,
      List.take_of_length_le (by rw [beBytes_length]), beNat_beBytes, Nat.mod_eq_of_lt (show (crc32c b).toNat < 256 ^ 4 from (crc32c b).isLt), l]
    simp only [decide_true, Bool.and_true]
    decide +kernel
  refine ⟨?_, ?_⟩
  · unfold formatHead
    have e : List.range 96 = 0 :: (List.range 95).map (· + 1) := by decide
    rw [if_neg (by decide +kernel), e, List.findSome?_cons]
    dsimp only
    rw [show headDead s 0 (0 / 24) (0 % 24) = false by decide +kernel]
    simp only [List.find?_cons, decide_true, Nat.zero_div, Nat.zero_mod, Bool.false_eq_true, if_false, g, if_true]
  · unfold slice
    rw [d, List.take_append_of_le_length (by omega)]

/-- A word that is not one is no copy. -/
theorem witness_no_copy : hasFormat (bringing 5 (formatted [0])) 0 = true ∧ formatHead (bringing 5 (formatted [0])) 0 [(0, zeros 4176)] = none ∧
    sees (.tileBringInStep 0 true [(0, zeros 4176)]) (bringing 5 (formatted [0])) (fun u => decide (bringOf u 0 = 0 ∧ u.fld (aTile 0 0x108) 1 0 = 3)) := by decide +kernel

/-- A copy that agrees with the tile's registers, and one that does not (R69). -/
theorem witness_copies : let s := bringing 5 (formatted [0])
    (recordWords s 0 ++ zeros 3812).length = 4092 ∧ (recordWords s 0 ++ zeros 3812).take 280 = recordWords s 0 ∧ (zeros 4092).length = 4092 ∧
    (zeros 4092).take 280 ≠ recordWords s 0 := by
  intro s
  have n : (recordWords s 0).length = 280 := by decide +kernel
  exact ⟨by rw [List.length_append, n]; unfold zeros; rw [List.length_replicate], by rw [List.take_append_of_le_length (by omega), List.take_of_length_le (by omega)],
    by unfold zeros; rw [List.length_replicate], by unfold zeros; rw [List.take_replicate]; decide +kernel⟩

theorem witness_bring_in : (live.tiles.all fun t => !(tileRetired live t)) = true ∧ idles (.tileBringInStep 0 true []) live ∧ idles (.tileBringInStep 0 true []) (bringing 1) ∧
    (∀ b ∈ [2, 3, 4, 5, 6, 8], idles (.tileBringInStep 0 false []) (bringing b) = true) ∧ idles (.tileBringInStep 0 true []) (bringing 3) ∧
    (let s := bringing 3 (live.with [(aSrv 0 0 4, 0x100), (aSpn 0 4, 6)])
     speedOk s 0 0 = true ∧ spnState s 0 = 6 ∧ aimOf s 0 = 2 ∧ sees (.tileBringInStep 0 true []) s (fun u => decide (bringOf u 0 = 0 ∧ pwrTile u 0 = 2))) ∧
    sees (.tileBringInStep 0 true []) (bringing 4) (fun u => decide (bringOf u 0 = 5)) ∧
    sees (.tileBringInStep 0 true []) (bringing 8) (fun u => decide (bringOf u 0 = 5)) := by decide +kernel

theorem witness_bring_trained : let s (b : Nat) (zs : List Nat) := bringing b (formatted zs)
    trainedTo (s 5 []) 0 1 = false ∧ idles (.tileBringInStep 0 true []) (s 5 []) ∧ trainedTo (s 5 [0]) 0 1 = true ∧
    fmtZones (s 6 [0]) 0 = 1 ∧ trainedTo (s 6 []) 0 1 = false ∧ idles (.tileBringInStep 0 true []) (s 6 []) ∧
    sees (.tileBringInStep 0 true []) (s 6 [0]) (fun u => decide (bringOf u 0 = 0 ∧ pwrTile u 0 = 2)) := by decide +kernel

/-! ### Power states, the recorder and the test port -/

/-- Tile 0 in state `p`, on its way to `g`. -/
def goingTo (p g : Nat) (s : State := live) : State := ({ s with power := { s.power with goal := [(0, some g)] } } : State).with [(aPwr 8, p)]

theorem witness_ways : idles (.powerTransitionStep 0) live ∧ idles (.powerTransitionStep 0) (bringing 1) ∧
    (let s := goingTo 1 2 (live.setWrQ 0 0 [wrEnt 0])
     tileQuiet s 0 = false ∧ idles (.powerTransitionStep 0) s) ∧
    ((List.range 192).all fun l => decide (laneSt (goingTo 0 1) 0 l = 0)) = true ∧
    pwrTile (goingTo 0 1) 0 = 0 ∧ goalOf (goingTo 0 1) 0 = some 1 ∧ Tab.at [] (goingTo 0 1).buf.held 0 = [] ∧
    idles (.powerTransitionStep 0) (goingTo 2 1) ∧ pwrTile (goingTo 3 0) 0 = 3 ∧ goalOf (goingTo 3 0) 0 = some 0 := by decide +kernel

theorem witness_deep : let s : State := { live with power := { live.power with deep := .entering none } }
    idles (.powerTransitionStep 8) live ∧ assocIds s = [] ∧ idles (.powerTransitionStep 8) { s with buf := { s.buf with encrypt := [⟨1, 0, 0, [], false⟩] } } ∧
    sees (.powerTransitionStep 8) s (fun u => decide (u.power.deep = .ps4 ∧ u.reg (aPwr 0xC) = 1)) := by decide +kernel

theorem witness_idle_return : let s : State := ({ live with power := { live.power with auto := [0] } } : State).with [(aPwr 4, 0x100)]
    idles (.idleReturn 0) live ∧ moving s 0 = false ∧ sees (.idleReturn 0) s (fun u => decide (u.power.auto = [])) ∧ idles (.idleReturn 0) { s with now := 10 ^ 9 - 1 } := by decide +kernel

theorem witness_wakes : let s (d : Deep) (n : Nat) := ({ live with power := { live.power with deep := d } } : State).with [(aPwr 0x14, 0x80000000 + n)]
    idles (.wakeN 999) (s .ps4 0) ∧ idles (.wakeN 1000) (s .awake 0) ∧ idles .wakeTimer (s .ps4 0) ∧ idles .wakeTimer (s .ps4 2) ∧
    sees (.wakeN 1000) (s .ps4 0) (fun u => decide (u.power.deep = .leaving ∧ u.fld (aPwr 0x18) 3 0 = 2)) ∧
    sees .wakeTimer (s .ps4 1) (fun u => decide (u.power.deep = .leaving ∧ u.fld (aPwr 0x18) 3 0 = 3)) ∧
    sees (.wakeN 1000) (s (.entering none) 0) (fun u => decide (u.power.deep = .entering (some 2))) := by decide +kernel

/-- A recorder with this queue of events. -/
def recording (q : List OwlEv) (w : List MergeWin := []) (s : State := live) : State := { s with owl := { s.owl with queue := q, wins := w } }
/-- An event of the hub. -/
def event (code : Nat) : OwlEv := owlStamp live code 0 1 2 3 4 5

theorem witness_events : sees (.owlEvent 0x4002 0 1 2 3 4 5 false) live (fun u => decide (u.owl.queue = [event 0x4002])) ∧
    idles (.owlEvent 0x4002 8 1 2 3 4 5 true) { live with part := .zh7640 } ∧ live.linkUp 0 = true ∧ live.linkUp 7 = false ∧
    sees (.owlEvent 0x4002 8 1 2 3 4 5 true) live (fun u => decide (u.owl.queue = [] ∧ (Tab.at [] u.owl.held 7).length = 1)) ∧
    sees (.owlEvent 0x4002 0 1 2 3 4 5 false) (recording (List.replicate 64 (event 1))) (fun u => decide (u.owl.queue.length = 64 ∧ u.owl.carry = [(0, 1)] ∧ u.reg (aOwl 0x1C) = 1)) := by decide +kernel

theorem witness_records : let w : MergeWin := ⟨event 0x4002, 0, 0⟩
    idles .owlRecordComplete live ∧ owlBlocked live = false ∧ owlSame w.ev (event 0x4002) = true ∧ owlClass 0x4002 ≠ 0 ∧
    sees .owlRecordComplete (recording [event 1]) (fun u => decide (u.owl.queue = [] ∧ u.owl.next = 2 ∧ u.owl.count = 1)) ∧
    sees .owlRecordComplete (recording [event 0x4002] [w] (live.with [(aOwl 0, 9)])) (fun u => decide (u.owl.wins.map (·.count) = [1] ∧ u.owl.next = 1)) ∧
    sees .owlRecordComplete { live with owl := { live.owl with carry := [(3, 9)] } } (fun u => decide (u.owl.carry = [] ∧ u.owl.next = 2)) ∧
    sees .owlRecordComplete { live with owl := { live.owl with clearing := some 5 } } (fun u => decide (u.owl.clearing = none ∧ u.owl.next = 2)) ∧
    idles (.mergeWindowEnd 0) live ∧ sees (.mergeWindowEnd 0) (recording [] [w]) (fun u => decide (u.owl.wins = [])) ∧
    sees (.mergeWindowEnd 0) (recording [] [{ w with count := 2 }]) (fun u => decide (u.owl.next = 2 ∧ u.owl.wins.length = 1)) := by decide +kernel

theorem witness_recorder_registers : sees .owlClear { live with owl := { live.owl with clearing := some 5 } } (fun u => decide (u.out = [.reply .port (aOwl 4) 1 .storeBusy])) ∧
    sees .owlClear live (fun u => decide (u.owl.clearing = some 0)) ∧
    sees (.firmwareRecord 0xFFF) live (fun u => decide (u.owl.queue.map (·.code) = [0xFFFF])) ∧
    sees (.cursorWrite 9) live (fun u => decide (u.reg (aOwl 0x14) = 9)) ∧
    sees .windowReadAdvance (live.with [(aOwl 0x18, 1), (aOwl 0x14, 9)]) (fun u => decide (u.reg (aOwl 0x14) = 10)) := by decide +kernel

theorem witness_test_port : let s : State := { live with power := { live.power with porstLow := true } }
    sees .extest s (fun u => decide (u.tap = { s.tap with instr := 0, drive := true })) ∧ sees .extest live (fun u => decide (u.tap.instr = 0xFF)) ∧
    sees .idcode live (fun u => decide (u.out = [.tdo ((List.range 32).map fun i => Nat.testBit 0x17680A5F i),
      .tdo [true, false, false, false, false, false, false, false]])) ∧
    sees (.bypass 255) live (fun u => decide (u.tap.instr = 0xFF)) ∧ idles (.bypass 4) live := by decide +kernel

theorem witness_sector_address : mkPsa 7 3 23 (2 ^ 24 - 1) (2 ^ 14 - 1) < 2 ^ 48 ∧ mkPsa 7 3 23 5 6 >>> 45 = 7 ∧ ([1, 2] : Payload).length = ([3, 4] : Payload).length := by decide +kernel

end Sys2Proof.Machine
end

section
/-! SUPPORT. O5 and O2: what every command keeps, and which commands complete. -/

namespace Sys2Proof.Machine

/-! ### What every command keeps (R1, R8; entries 2, 3 and 4) -/

/-- Each command's meaning keeps what its own lemma says it keeps. -/
theorem exec_goes (s : State) : (i : Instr) → Goes s (exec i s)
  | .registerWrite .. => execRegisterWrite_goes (keeps_refl s)
  | .rcCounterRead .. => execRcCounterRead_goes (keeps_refl s)
  | .flitReceive .. => execFlitReceive_goes (keeps_refl s)
  | .linkAckTimeout .. => execLinkAckTimeout_goes (keeps_refl s)
  | .linkTrained .. => execLinkTrained_goes (keeps_refl s)
  | .mgmtAccessTimeout .. => execMgmtAccessTimeout_goes (keeps_refl s)
  | .paceMeasure .. => execPaceMeasure_goes (keeps_refl s)
  | .tileEvent .. => execTileEvent_goes (keeps_refl s)
  | .mediaRequest .. => execMediaRequest_goes (keeps_refl s)
  | .captureStart .. => execCaptureStart_goes (keeps_refl s)
  | .captureEnd .. => execCaptureEnd_goes (keeps_refl s)
  | .wedgeSpanHold .. => execWedgeSpanHold_goes (keeps_refl s)
  | .phaseErrorWindow .. => execPhaseErrorWindow_goes (keeps_refl s)
  | .asperityBegin .. => execAsperityBegin_goes (keeps_refl s)
  | .asperityEnd .. => execAsperityEnd_goes (keeps_refl s)
  | .laneSleep .. => execLaneSleep_goes (keeps_refl s)
  | .laneWakeDone .. => execLaneWakeDone_goes (keeps_refl s)
  | .trainingPassEnd .. => execTrainingPassEnd_goes (keeps_refl s)
  | .laneTapWrite .. => execLaneTapWrite_goes (keeps_refl s)
  | .decodeResult .. => execDecodeResult_goes (keeps_refl s)
  | .pinExpire .. => execPinExpire_goes (keeps_refl s)
  | .formatterResult .. => execFormatterResult_goes (keeps_refl s)
  | .sectorSend .. => execSectorSend_goes (keeps_refl s)
  | .redetect .. => execRedetect_goes (keeps_refl s)
  | .frameb .. => execFrameb_goes (keeps_refl s)
  | .realign .. => execRealign_goes (keeps_refl s)
  | .partner .. => execPartner_goes (keeps_refl s)
  | .save .. => execSave_goes (keeps_refl s)
  | .combine .. => execCombine_goes (keeps_refl s)
  | .free .. => execFree_goes (keeps_refl s)
  | .release .. => execRelease_goes (keeps_refl s)
  | .hres .. => execHres_goes (keeps_refl s)
  | .rres .. => execRres_goes (keeps_refl s)
  | .cipherDecrypt .. => execCipherDecrypt_goes (keeps_refl s)
  | .cipherEncrypt => execCipherEncrypt_goes (keeps_refl s)
  | .sectorLanding .. => execSectorLanding_goes (keeps_refl s)
  | .rdmaDataSend .. => execRdmaDataSend_goes (keeps_refl s)
  | .readCompletion .. => execReadCompletion_goes (keeps_refl s)
  | .sectorEncode .. => execSectorEncode_goes (keeps_refl s)
  | .serialiserTake .. => execSerialiserTake_goes (keeps_refl s)
  | .writeBurstStart .. => execWriteBurstStart_goes (keeps_refl s)
  | .writeBurstEnd .. => execWriteBurstEnd_goes (keeps_refl s)
  | .encroachReadback .. => execEncroachReadback_goes (keeps_refl s)
  | .verifyRead .. => execVerifyRead_goes (keeps_refl s)
  | .partnerRead .. => execPartnerRead_goes (keeps_refl s)
  | .partnerRewrite .. => execPartnerRewrite_goes (keeps_refl s)
  | .writeHeat .. => execWriteHeat_goes (keeps_refl s)
  | .writeRunEnd .. => execWriteRunEnd_goes (keeps_refl s)
  | .writeResult .. => execWriteResult_goes (keeps_refl s)
  | .armFrameSlot .. => execArmFrameSlot_goes (keeps_refl s)
  | .statusFrame .. => execStatusFrame_goes (keeps_refl s)
  | .faultFrame .. => execFaultFrame_goes (keeps_refl s)
  | .replyFrame .. => execReplyFrame_goes (keeps_refl s)
  | .armLinkRestart .. => execArmLinkRestart_goes (keeps_refl s)
  | .armLinkTrainStep .. => execArmLinkTrainStep_goes (keeps_refl s)
  | .preampTempPoll .. => execPreampTempPoll_goes (keeps_refl s)
  | .paccGo .. => execPaccGo_goes (keeps_refl s)
  | .faultLatchClear .. => execFaultLatchClear_goes (keeps_refl s)
  | .ladderEntry .. => execLadderEntry_goes (keeps_refl s)
  | .bookingStart .. => execBookingStart_goes (keeps_refl s)
  | .bookingEnd .. => execBookingEnd_goes (keeps_refl s)
  | .tagFailureReturn .. => execTagFailureReturn_goes (keeps_refl s)
  | .deadlineInstant .. => execDeadlineInstant_goes (keeps_refl s)
  | .refaultWindowEnd .. => execRefaultWindowEnd_goes (keeps_refl s)
  | .retirementMirrored .. => execRetirementMirrored_goes (keeps_refl s)
  | .retirementFlashCopy .. => execRetirementFlashCopy_goes (keeps_refl s)
  | .servoWedge .. => execServoWedge_goes (keeps_refl s)
  | .headRecord .. => execHeadRecord_goes (keeps_refl s)
  | .pilotRecord .. => execPilotRecord_goes (keeps_refl s)
  | .seekCommand .. => execSeekCommand_goes (keeps_refl s)
  | .pairAdvance .. => execPairAdvance_goes (keeps_refl s)
  | .loadRequest .. => execLoadRequest_goes (keeps_refl s)
  | .loadTimeout .. => execLoadTimeout_goes (keeps_refl s)
  | .parkRequest .. => execParkRequest_goes (keeps_refl s)
  | .parkStopReached .. => execParkStopReached_goes (keeps_refl s)
  | .parkHoldEnd .. => execParkHoldEnd_goes (keeps_refl s)
  | .parkTimeout .. => execParkTimeout_goes (keeps_refl s)
  | .lostContribution .. => execLostContribution_goes (keeps_refl s)
  | .lostWaitEnd .. => execLostWaitEnd_goes (keeps_refl s)
  | .coefficientWrite .. => execCoefficientWrite_goes (keeps_refl s)
  | .sectionControlWrite .. => execSectionControlWrite_goes (keeps_refl s)
  | .usefbWrite .. => execUsefbWrite_goes (keeps_refl s)
  | .wolfRearm .. => execWolfRearm_goes (keeps_refl s)
  | .wolfstClear .. => execWolfstClear_goes (keeps_refl s)
  | .pwmPeriod .. => execPwmPeriod_goes (keeps_refl s)
  | .vcfltFall .. => execVcfltFall_goes (keeps_refl s)
  | .vcfltReenable .. => execVcfltReenable_goes (keeps_refl s)
  | .retractDriveEnd .. => execRetractDriveEnd_goes (keeps_refl s)
  | .retractBrakeEnd .. => execRetractBrakeEnd_goes (keeps_refl s)
  | .spindleTick .. => execSpindleTick_goes (keeps_refl s)
  | .speedLoopStep .. => execSpeedLoopStep_goes (keeps_refl s)
  | .spfltFall .. => execSpfltFall_goes (keeps_refl s)
  | .runSet .. => execRunSet_goes (keeps_refl s)
  | .runClear .. => execRunClear_goes (keeps_refl s)
  | .measureEnd .. => execMeasureEnd_goes (keeps_refl s)
  | .brakeMeasure .. => execBrakeMeasure_goes (keeps_refl s)
  | .alignEnd .. => execAlignEnd_goes (keeps_refl s)
  | .rampTimeout .. => execRampTimeout_goes (keeps_refl s)
  | .startRetry .. => execStartRetry_goes (keeps_refl s)
  | .recatchMeasureEnd .. => execRecatchMeasureEnd_goes (keeps_refl s)
  | .recatchHoldEnd .. => execRecatchHoldEnd_goes (keeps_refl s)
  | .stopBrakeEnd .. => execStopBrakeEnd_goes (keeps_refl s)
  | .pfailFall => execPfailFall_goes (keeps_refl s)
  | .pfailRise => execPfailRise_goes (keeps_refl s)
  | .spindleRunCommand .. => execSpindleRunCommand_goes (keeps_refl s)
  | .spindleStopCommand .. => execSpindleStopCommand_goes (keeps_refl s)
  | .resetFails .. => execResetFails_goes (keeps_refl s)
  | .ucsLoad .. => execUcsLoad_goes (keeps_refl s)
  | .seal .. => execSeal_goes (keeps_refl s)
  | .swap .. => execSwap_goes (keeps_refl s)
  | .ucsRevert .. => execUcsRevert_goes (keeps_refl s)
  | .cancel .. => execCancel_goes (keeps_refl s)
  | .ucsDataWrite .. => execUcsDataWrite_goes (keeps_refl s)
  | .ucsDataRead .. => execUcsDataRead_goes (keeps_refl s)
  | .swapEffect .. => execSwapEffect_goes (keeps_refl s)
  | .nop .. => execNop_goes (keeps_refl s)
  | .add .. => execAdd_goes (keeps_refl s)
  | .sub .. => execSub_goes (keeps_refl s)
  | .and .. => execAnd_goes (keeps_refl s)
  | .or .. => execOr_goes (keeps_refl s)
  | .xor .. => execXor_goes (keeps_refl s)
  | .shl .. => execShl_goes (keeps_refl s)
  | .shr .. => execShr_goes (keeps_refl s)
  | .sar .. => execSar_goes (keeps_refl s)
  | .mul .. => execMul_goes (keeps_refl s)
  | .slt .. => execSlt_goes (keeps_refl s)
  | .sltu .. => execSltu_goes (keeps_refl s)
  | .min .. => execMin_goes (keeps_refl s)
  | .max .. => execMax_goes (keeps_refl s)
  | .addi .. => execAddi_goes (keeps_refl s)
  | .andi .. => execAndi_goes (keeps_refl s)
  | .ori .. => execOri_goes (keeps_refl s)
  | .lui .. => execLui_goes (keeps_refl s)
  | .shli .. => execShli_goes (keeps_refl s)
  | .shri .. => execShri_goes (keeps_refl s)
  | .sari .. => execSari_goes (keeps_refl s)
  | .mac .. => execMac_goes (keeps_refl s)
  | .msu .. => execMsu_goes (keeps_refl s)
  | .aclr .. => execAclr_goes (keeps_refl s)
  | .aout .. => execAout_goes (keeps_refl s)
  | .beq .. => execBeq_goes (keeps_refl s)
  | .bne .. => execBne_goes (keeps_refl s)
  | .blt .. => execBlt_goes (keeps_refl s)
  | .bge .. => execBge_goes (keeps_refl s)
  | .jmp .. => execJmp_goes (keeps_refl s)
  | .call .. => execCall_goes (keeps_refl s)
  | .ret .. => execRet_goes (keeps_refl s)
  | .endThread .. => execEndThread_goes (keeps_refl s)
  | .ldr .. => execLdr_goes (keeps_refl s)
  | .str .. => execStr_goes (keeps_refl s)
  | .lds .. => execLds_goes (keeps_refl s)
  | .sts .. => execSts_goes (keeps_refl s)
  | .wait .. => execWait_goes (keeps_refl s)
  | .fault .. => execFault_goes (keeps_refl s)
  | .treq .. => execTreq_goes (keeps_refl s)
  | .breq .. => execBreq_goes (keeps_refl s)
  | .cpl .. => execCpl_goes (keeps_refl s)
  | .rdma .. => execRdma_goes (keeps_refl s)
  | .owlPost .. => execOwlPost_goes (keeps_refl s)
  | .tileResponse .. => execTileResponse_goes (keeps_refl s)
  | .bufferResponse .. => execBufferResponse_goes (keeps_refl s)
  | .rdmaResponse .. => execRdmaResponse_goes (keeps_refl s)
  | .dispatchTimerTick => execDispatchTimerTick_goes (keeps_refl s)
  | .setp .. => execSetp_goes (keeps_refl s)
  | .pred .. => execPred_goes (keeps_refl s)
  | .vcmd .. => execVcmd_goes (keeps_refl s)
  | .ctlMode .. => execCtlMode_goes (keeps_refl s)
  | .frep .. => execFrep_goes (keeps_refl s)
  | .iref .. => execIref_goes (keeps_refl s)
  | .vvec .. => execVvec_goes (keeps_refl s)
  | .spnState .. => execSpnState_goes (keeps_refl s)
  | .retract .. => execRetract_goes (keeps_refl s)
  | .spflt .. => execSpflt_goes (keeps_refl s)
  | .book .. => execBook_goes (keeps_refl s)
  | .accept .. => execAccept_goes (keeps_refl s)
  | .drop .. => execDrop_goes (keeps_refl s)
  | .step .. => execStep_goes (keeps_refl s)
  | .slot .. => execSlot_goes (keeps_refl s)
  | .frameReceive .. => execFrameReceive_goes (keeps_refl s)
  | .arpRequest .. => execArpRequest_goes (keeps_refl s)
  | .neighborSolicitation .. => execNeighborSolicitation_goes (keeps_refl s)
  | .icmpEcho .. => execIcmpEcho_goes (keeps_refl s)
  | .pcsAlignmentLoss .. => execPcsAlignmentLoss_goes (keeps_refl s)
  | .pcsRealigned .. => execPcsRealigned_goes (keeps_refl s)
  | .pfcRefresh .. => execPfcRefresh_goes (keeps_refl s)
  | .pfcFrame .. => execPfcFrame_goes (keeps_refl s)
  | .cnpReceive .. => execCnpReceive_goes (keeps_refl s)
  | .rateRecovery .. => execRateRecovery_goes (keeps_refl s)
  | .ackReceive .. => execAckReceive_goes (keeps_refl s)
  | .nakReceive .. => execNakReceive_goes (keeps_refl s)
  | .ackTimeout .. => execAckTimeout_goes (keeps_refl s)
  | .rdmaReadResponse .. => execRdmaReadResponse_goes (keeps_refl s)
  | .capsuleReceive .. => execCapsuleReceive_goes (keeps_refl s)
  | .cmReq .. => execCmReq_goes (keeps_refl s)
  | .cmRtu .. => execCmRtu_goes (keeps_refl s)
  | .cmDreq .. => execCmDreq_goes (keeps_refl s)
  | .cmDrep .. => execCmDrep_goes (keeps_refl s)
  | .cmRej .. => execCmRej_goes (keeps_refl s)
  | .cmMra .. => execCmMra_goes (keeps_refl s)
  | .keepAliveTimeout .. => execKeepAliveTimeout_goes (keeps_refl s)
  | .pdownTimeout .. => execPdownTimeout_goes (keeps_refl s)
  | .capsuleAdmit .. => execCapsuleAdmit_goes (keeps_refl s)
  | .qfullTimeout .. => execQfullTimeout_goes (keeps_refl s)
  | .orderingTurn .. => execOrderingTurn_goes (keeps_refl s)
  | .invalidationScanDone .. => execInvalidationScanDone_goes (keeps_refl s)
  | .read .. => execRead_goes (keeps_refl s)
  | .write .. => execWrite_goes (keeps_refl s)
  | .writeZeroes .. => execWriteZeroes_goes (keeps_refl s)
  | .zoneAppend .. => execZoneAppend_goes (keeps_refl s)
  | .flush .. => execFlush_goes (keeps_refl s)
  | .datasetManagement .. => execDatasetManagement_goes (keeps_refl s)
  | .zoneOpen .. => execZoneOpen_goes (keeps_refl s)
  | .zoneClose .. => execZoneClose_goes (keeps_refl s)
  | .zoneFinish .. => execZoneFinish_goes (keeps_refl s)
  | .zoneReset .. => execZoneReset_goes (keeps_refl s)
  | .zoneOffline .. => execZoneOffline_goes (keeps_refl s)
  | .reportZones .. => execReportZones_goes (keeps_refl s)
  | .extendedReportZones .. => execExtendedReportZones_goes (keeps_refl s)
  | .identify .. => execIdentify_goes (keeps_refl s)
  | .getLogPage .. => execGetLogPage_goes (keeps_refl s)
  | .numberOfQueues .. => execNumberOfQueues_goes (keeps_refl s)
  | .volatileWriteCache .. => execVolatileWriteCache_goes (keeps_refl s)
  | .readDeadline .. => execReadDeadline_goes (keeps_refl s)
  | .getFeatures .. => execGetFeatures_goes (keeps_refl s)
  | .createIoCompletionQueue .. => execCreateIoCompletionQueue_goes (keeps_refl s)
  | .createIoSubmissionQueue .. => execCreateIoSubmissionQueue_goes (keeps_refl s)
  | .deleteIoSubmissionQueue .. => execDeleteIoSubmissionQueue_goes (keeps_refl s)
  | .deleteIoCompletionQueue .. => execDeleteIoCompletionQueue_goes (keeps_refl s)
  | .abort .. => execAbort_goes (keeps_refl s)
  | .namespaceCreate .. => execNamespaceCreate_goes (keeps_refl s)
  | .namespaceDelete .. => execNamespaceDelete_goes (keeps_refl s)
  | .namespaceAttach .. => execNamespaceAttach_goes (keeps_refl s)
  | .namespaceDetach .. => execNamespaceDetach_goes (keeps_refl s)
  | .blankingDone .. => execBlankingDone_goes (keeps_refl s)
  | .nsTableFlashWrite .. => execNsTableFlashWrite_goes (keeps_refl s)
  | .zonePointerRecord .. => execZonePointerRecord_goes (keeps_refl s)
  | .connect .. => execConnect_goes (keeps_refl s)
  | .propertyGet .. => execPropertyGet_goes (keeps_refl s)
  | .propertySet .. => execPropertySet_goes (keeps_refl s)
  | .disconnect .. => execDisconnect_goes (keeps_refl s)
  | .authenticationSend .. => execAuthenticationSend_goes (keeps_refl s)
  | .authenticationReceive .. => execAuthenticationReceive_goes (keeps_refl s)
  | .queueReset .. => execQueueReset_goes (keeps_refl s)
  | .queueResetComplete .. => execQueueResetComplete_goes (keeps_refl s)
  | .placementMap .. => execPlacementMap_goes (keeps_refl s)
  | .retireCommand .. => execRetireCommand_goes (keeps_refl s)
  | .reinstateCommand .. => execReinstateCommand_goes (keeps_refl s)
  | .retirementMap .. => execRetirementMap_goes (keeps_refl s)
  | .managementSend .. => execManagementSend_goes (keeps_refl s)
  | .managementReceive .. => execManagementReceive_goes (keeps_refl s)
  | .frameAvailable => execFrameAvailable_goes (keeps_refl s)
  | .evictionEnd .. => execEvictionEnd_goes (keeps_refl s)
  | .cleanDelayExpire .. => execCleanDelayExpire_goes (keeps_refl s)
  | .cleanerIssue .. => execCleanerIssue_goes (keeps_refl s)
  | .lockLines .. => execLockLines_goes (keeps_refl s)
  | .unlockLines .. => execUnlockLines_goes (keeps_refl s)
  | .invall => execInvall_goes (keeps_refl s)
  | .staleClear .. => execStaleClear_goes (keeps_refl s)
  | .woodpeckerBurst .. => execWoodpeckerBurst_goes (keeps_refl s)
  | .woodpeckerSlow => execWoodpeckerSlow_goes (keeps_refl s)
  | .keyLoad .. => execKeyLoad_goes (keeps_refl s)
  | .slotErase .. => execSlotErase_goes (keeps_refl s)
  | .eraseall => execEraseall_goes (keeps_refl s)
  | .keyEraseNLow .. => execKeyEraseNLow_goes (keeps_refl s)
  | .temperatureAlarm .. => execTemperatureAlarm_goes (keeps_refl s)
  | .glitchTrip .. => execGlitchTrip_goes (keeps_refl s)
  | .testOperation .. => execTestOperation_goes (keeps_refl s)
  | .journalWriteDone .. => execJournalWriteDone_goes (keeps_refl s)
  | .journalRetry .. => execJournalRetry_goes (keeps_refl s)
  | .irqSourceEvent .. => execIrqSourceEvent_goes (keeps_refl s)
  | .irqLevelFall .. => execIrqLevelFall_goes (keeps_refl s)
  | .claim .. => execClaim_goes (keeps_refl s)
  | .complete .. => execComplete_goes (keeps_refl s)
  | .stackClear .. => execStackClear_goes (keeps_refl s)
  | .sourceConfigWrite .. => execSourceConfigWrite_goes (keeps_refl s)
  | .doorbell .. => execDoorbell_goes (keeps_refl s)
  | .irqTimerExpire .. => execIrqTimerExpire_goes (keeps_refl s)
  | .moderationTimeout .. => execModerationTimeout_goes (keeps_refl s)
  | .targetIdle .. => execTargetIdle_goes (keeps_refl s)
  | .send .. => execSend_goes (keeps_refl s)
  | .fetch .. => execFetch_goes (keeps_refl s)
  | .poll => execPoll_goes (keeps_refl s)
  | .ident .. => execIdent_goes (keeps_refl s)
  | .regRead .. => execRegRead_goes (keeps_refl s)
  | .regWrite .. => execRegWrite_goes (keeps_refl s)
  | .stageClear .. => execStageClear_goes (keeps_refl s)
  | .stageWrite .. => execStageWrite_goes (keeps_refl s)
  | .stageRead .. => execStageRead_goes (keeps_refl s)
  | .commit .. => execCommit_goes (keeps_refl s)
  | .revert .. => execRevert_goes (keeps_refl s)
  | .version .. => execVersion_goes (keeps_refl s)
  | .retire .. => execRetire_goes (keeps_refl s)
  | .reinstate .. => execReinstate_goes (keeps_refl s)
  | .maintEnter .. => execMaintEnter_goes (keeps_refl s)
  | .maintLeave .. => execMaintLeave_goes (keeps_refl s)
  | .calib .. => execCalib_goes (keeps_refl s)
  | .keyErase .. => execKeyErase_goes (keeps_refl s)
  | .power .. => execPower_goes (keeps_refl s)
  | .resetStart => execResetStart_goes (keeps_refl s)
  | .hubSoftReset => execHubSoftReset_goes (keeps_refl s)
  | .tileReset .. => execTileReset_goes (keeps_refl s)
  | .agreementCheck => execAgreementCheck_goes (keeps_refl s)
  | .optimeWrite .. => execOptimeWrite_goes (keeps_refl s)
  | .flashOperationDone .. => execFlashOperationDone_goes (keeps_refl s)
  | .owlEvent .. => execOwlEvent_goes (keeps_refl s)
  | .mergeWindowEnd .. => execMergeWindowEnd_goes (keeps_refl s)
  | .owlClear => execOwlClear_goes (keeps_refl s)
  | .firmwareRecord .. => execFirmwareRecord_goes (keeps_refl s)
  | .cursorWrite .. => execCursorWrite_goes (keeps_refl s)
  | .windowReadAdvance => execWindowReadAdvance_goes (keeps_refl s)
  | .powerOn => execPowerOn_goes (keeps_refl s)
  | .porstN .. => execPorstN_goes (keeps_refl s)
  | .warmN .. => execWarmN_goes (keeps_refl s)
  | .bootStep .. => execBootStep_goes (keeps_refl s)
  | .tileBringInStep .. => execTileBringInStep_goes (keeps_refl s)
  | .powerTransitionStep .. => execPowerTransitionStep_goes (keeps_refl s)
  | .idleReturn .. => execIdleReturn_goes (keeps_refl s)
  | .laneIdleSleep .. => execLaneIdleSleep_goes (keeps_refl s)
  | .wakeN .. => execWakeN_goes (keeps_refl s)
  | .wakeTimer => execWakeTimer_goes (keeps_refl s)
  | .testEnable .. => execTestEnable_goes (keeps_refl s)
  | .tapReset => execTapReset_goes (keeps_refl s)
  | .extest => execExtest_goes (keeps_refl s)
  | .samplePreload .. => execSamplePreload_goes (keeps_refl s)
  | .idcode => execIdcode_goes (keeps_refl s)
  | .highz => execHighz_goes (keeps_refl s)
  | .clamp => execClamp_goes (keeps_refl s)
  | .bypass .. => execBypass_goes (keeps_refl s)
  | .hist .. => execHist_goes (keeps_refl s)
  | .ignoredTransaction .. => execIgnoredTransaction_goes (keeps_refl s)
  | .pfcPauseExpire .. => execPfcPauseExpire_goes (keeps_refl s)
  | .rnrTimerExpire .. => execRnrTimerExpire_goes (keeps_refl s)
  | .keyEraseNRelease => execKeyEraseNRelease_goes (keeps_refl s)
  | .temperatureAlarmClear .. => execTemperatureAlarmClear_goes (keeps_refl s)
  | .supplyLoss .. => execSupplyLoss_goes (keeps_refl s)
  | .owlRecordComplete => execOwlRecordComplete_goes (keeps_refl s)
  | .keepAlive .. => execKeepAlive_goes (keeps_refl s)
  | .asynchronousEventRequest .. => execAsynchronousEventRequest_goes (keeps_refl s)

/-- Settles O5: `Keeps` is what no operation breaks, and every command's meaning is built of operations. -/
theorem commandsKeepTheRest : Obligations.CommandsKeepTheRest := by
  intro i s t h
  obtain ⟨part, pending, now, free, out, regs⟩ := (exec_goes s i).next t h
  exact ⟨part, pending, now, free, out, regs⟩


/-! ### Which commands complete (R8; entry 15) -/

/-- A meaning that answers a next state when `b` holds, and else the fault `badOperand`. -/
def Answers (b : Bool) (r : Res) : Prop :=
  (b = true → ∃ t, r = .next t) ∧ (b = false → r = .fault .badOperand)

section
variable {s f : State} {r r' : Res} {b b' : Bool} {t c h l p k e th op : Nat}

theorem Answers.congr (a : Answers b r) (q : b' = b) : Answers b' r := q ▸ a

theorem next_answers : Answers true (.next f) := ⟨fun _ => ⟨f, rfl⟩, nofun⟩

theorem fault_answers : Answers false (.fault .badOperand) := ⟨nofun, fun _ => rfl⟩

/-- One more check before a meaning. -/
theorem check_answers {q : Prop} [Decidable q] (a : Answers b r) :
    Answers (b && decide q) (if q then r else .fault .badOperand) := by
  by_cases h : q
  · simpa [h] using a
  · simpa [h] using fault_answers

/-- Two meanings with the same checks. -/
theorem either_answers {q : Prop} [Decidable q] (a : Answers b r) (a' : Answers b r') :
    Answers b (if q then r else r') := by
  split
  · exact a
  · exact a'

theorem onOk_answers : Answers b (onOk b f) := by
  cases b
  · exact fault_answers
  · exact next_answers

theorem onTile_answers : Answers (tileOk t) (onTile s t f) :=
  check_answers (b := true) next_answers

theorem onCluster_answers : Answers (clusterOk t c) (onCluster s t c f) := check_answers onTile_answers

theorem onHead_answers : Answers (headOk t c h) (onHead s t c h f) := check_answers onCluster_answers

theorem onLane_answers : Answers (laneOk t l) (onLane s t l f) := check_answers onTile_answers

theorem onSub_answers : Answers (subOk p k) (onSub s p k f) :=
  (check_answers (b := true) next_answers).congr (by simp [subOk])

theorem onWord_answers {g : State → MWord → State} : Answers (Sys2Proof.wordOk e th) (onWord s e th op g) :=
  (check_answers onOk_answers).congr (by simp only [Sys2Proof.wordOk]; by_cases h : e < 49 <;> simp [h])

/-- A thread that runs by its messages is a ladder context's, of which there are 256. -/
theorem engThreads_of_byProgram (h : byProgram s e th = true) : engThreads e = 256 := by
  simp only [byProgram, Bool.and_eq_true, beq_iff_eq] at h
  simp [engThreads, h.1]

theorem execWait_answers : Answers (Sys2Proof.wordOk e th) (execWait e th s) := by
  unfold execWait
  split
  · next h =>
    obtain ⟨ladder, he, hth⟩ := h
    have inRange : Sys2Proof.wordOk e th = decide (e < 49) := by
      simp [Sys2Proof.wordOk, engThreads_of_byProgram ladder, hth]
    exact onOk_answers.congr inRange
  · exact onWord_answers

theorem ladderPost_answers {held : State → Bool} {g : State → Nat → Nat → State} {ctx kind : Nat} :
    Answers (tileOk t && decide (ctx < 256)) (ladderPost s t ctx kind held g) := check_answers onTile_answers

/-- The hub's transition is number 8, a tile's its own number. -/
theorem execPowerTransitionStep_answers : Answers (decide (t ≤ 8)) (execPowerTransitionStep t s) := by
  unfold execPowerTransitionStep
  split
  · next h => exact next_answers.congr (by simp [h])
  · next h => exact onTile_answers.congr (decide_eq_decide.2 (by omega))

end

/-- In every state the operands alone decide whether a command completes. -/
theorem exec_answers (s : State) : (i : Instr) → Answers i.wf (exec i s)
  | .registerWrite .. | .rcCounterRead .. | .tileResponse .. | .bufferResponse .. | .rdmaResponse ..
    | .staleClear .. | .glitchTrip .. | .testOperation .. | .bypass .. | .ignoredTransaction .. | .ucsLoad ..
    | .seal .. | .swap .. | .ucsRevert .. | .cancel .. | .ucsDataWrite .. | .ucsDataRead .. | .swapEffect ..
    | .treq .. | .breq .. | .cpl .. | .rdma .. | .owlPost .. | .rateRecovery .. | .ackTimeout ..
    | .capsuleReceive .. | .cmRtu .. | .cmDreq .. | .cmDrep .. | .cmRej .. | .cmMra .. | .capsuleAdmit ..
    | .qfullTimeout .. | .queueResetComplete .. | .rnrTimerExpire .. | .ackReceive .. | .nakReceive ..
    | .keepAliveTimeout .. | .blankingDone .. | .keyLoad .. | .slotErase .. | .journalWriteDone ..
    | .journalRetry .. | .irqSourceEvent .. | .irqLevelFall .. | .complete .. | .sourceConfigWrite ..
    | .claim .. | .stackClear .. | .doorbell .. | .irqTimerExpire .. | .moderationTimeout .. | .targetIdle ..
    | .ident .. | .stageClear .. | .stageWrite .. | .stageRead .. | .commit .. | .revert .. | .version ..
    | .retire .. | .reinstate .. | .keyErase .. | .power .. | .regRead .. | .regWrite .. | .owlEvent ..
    => onOk_answers
  | .linkAckTimeout .. | .linkTrained .. | .mgmtAccessTimeout .. | .tileEvent .. | .cipherDecrypt ..
    | .writeResult .. | .retirementMirrored .. | .tileReset .. | .tileBringInStep .. | .idleReturn ..
    | .mediaRequest .. | .decodeResult .. | .formatterResult .. | .sectorSend .. | .redetect .. | .frameb ..
    | .realign .. | .partner .. | .save .. | .combine .. | .free .. | .release .. | .sectorEncode ..
    | .encroachReadback .. | .ladderEntry .. | .tagFailureReturn .. | .spindleTick .. | .speedLoopStep ..
    | .spfltFall .. | .runSet .. | .runClear .. | .measureEnd .. | .brakeMeasure .. | .alignEnd ..
    | .rampTimeout .. | .startRetry .. | .recatchMeasureEnd .. | .recatchHoldEnd .. | .stopBrakeEnd ..
    | .spindleRunCommand .. | .spindleStopCommand .. | .resetFails .. | .iref .. | .vvec .. | .spnState ..
    | .retract .. | .spflt .. => onTile_answers
  | .paceMeasure .. | .cipherEncrypt | .sectorLanding .. | .rdmaDataSend .. | .readCompletion ..
    | .deadlineInstant .. | .retirementFlashCopy .. | .pfailFall | .pfailRise | .dispatchTimerTick
    | .rdmaReadResponse .. | .orderingTurn .. | .invalidationScanDone .. | .zoneOpen .. | .zoneClose ..
    | .zoneFinish .. | .zoneReset .. | .zoneOffline .. | .reportZones .. | .extendedReportZones ..
    | .nsTableFlashWrite .. | .zonePointerRecord .. | .frameAvailable | .evictionEnd .. | .cleanDelayExpire ..
    | .cleanerIssue .. | .lockLines .. | .unlockLines .. | .invall | .woodpeckerBurst .. | .woodpeckerSlow
    | .eraseall | .keyEraseNLow .. | .temperatureAlarm .. | .send .. | .fetch .. | .poll | .resetStart
    | .hubSoftReset | .agreementCheck | .optimeWrite .. | .flashOperationDone .. | .mergeWindowEnd ..
    | .owlClear | .firmwareRecord .. | .cursorWrite .. | .windowReadAdvance | .powerOn | .porstN .. | .warmN ..
    | .bootStep .. | .wakeN .. | .wakeTimer | .testEnable .. | .tapReset | .extest | .samplePreload ..
    | .idcode | .highz | .clamp | .keyEraseNRelease | .temperatureAlarmClear .. | .supplyLoss ..
    | .owlRecordComplete | .read .. | .write .. | .writeZeroes .. | .zoneAppend .. | .flush ..
    | .datasetManagement .. | .identify .. | .getLogPage .. | .numberOfQueues .. | .volatileWriteCache ..
    | .readDeadline .. | .getFeatures .. | .createIoCompletionQueue .. | .createIoSubmissionQueue ..
    | .deleteIoSubmissionQueue .. | .deleteIoCompletionQueue .. | .abort .. | .namespaceCreate ..
    | .namespaceDelete .. | .namespaceAttach .. | .namespaceDetach .. | .queueReset .. | .placementMap ..
    | .retireCommand .. | .reinstateCommand .. | .retirementMap .. | .managementSend .. | .managementReceive ..
    | .keepAlive .. | .asynchronousEventRequest .. | .connect .. | .propertyGet .. | .propertySet ..
    | .disconnect .. | .authenticationSend .. | .authenticationReceive .. => next_answers
  | .captureStart .. | .captureEnd .. | .pinExpire .. | .serialiserTake .. | .writeBurstStart ..
    | .writeBurstEnd .. | .verifyRead .. | .partnerRead .. | .partnerRewrite .. | .writeHeat ..
    | .writeRunEnd .. | .bookingStart .. | .bookingEnd .. | .headRecord .. | .wolfRearm .. => onHead_answers
  | .wedgeSpanHold .. | .phaseErrorWindow .. | .asperityBegin .. | .asperityEnd .. | .laneSleep ..
    | .laneWakeDone .. | .laneIdleSleep .. => onLane_answers
  | .armFrameSlot .. | .statusFrame .. | .faultFrame .. | .replyFrame .. | .armLinkRestart ..
    | .armLinkTrainStep .. | .preampTempPoll .. | .paccGo .. | .refaultWindowEnd .. | .pilotRecord ..
    | .loadTimeout .. | .parkStopReached .. | .parkHoldEnd .. | .parkTimeout .. | .lostContribution ..
    | .lostWaitEnd .. | .wolfstClear .. | .pwmPeriod .. | .vcfltFall .. | .vcfltReenable ..
    | .retractDriveEnd .. | .retractBrakeEnd .. | .seekCommand .. | .pairAdvance .. | .loadRequest ..
    | .parkRequest .. | .setp .. | .pred .. | .vcmd .. | .ctlMode .. | .frep .. => onCluster_answers
  | .nop .. | .jmp .. | .call .. | .ret .. | .endThread .. | .ldr .. | .str .. | .lds .. | .sts .. | .fault ..
    | .add .. | .sub .. | .and .. | .or .. | .xor .. | .shl .. | .shr .. | .sar .. | .mul .. | .slt ..
    | .sltu .. | .min .. | .max .. | .addi .. | .andi .. | .ori .. | .lui .. | .shli .. | .shri .. | .sari ..
    | .mac .. | .msu .. | .aclr .. | .aout .. | .beq .. | .bne .. | .blt .. | .bge .. => onWord_answers
  | .arpRequest .. | .neighborSolicitation .. | .icmpEcho .. | .pcsAlignmentLoss .. | .pcsRealigned ..
    | .pdownTimeout .. | .cmReq .. => onSub_answers
  | .book .. | .drop .. | .step .. | .slot .. | .hist .. => ladderPost_answers
  | .flitReceive .. | .hres .. | .rres .. | .accept .. => check_answers onTile_answers
  | .trainingPassEnd .. | .faultLatchClear .. | .usefbWrite .. => check_answers onCluster_answers
  | .servoWedge .. => check_answers onHead_answers
  | .laneTapWrite .. => check_answers onLane_answers
  | .pfcRefresh .. | .pfcPauseExpire .. => check_answers onSub_answers
  | .sectionControlWrite .. | .coefficientWrite .. =>
    (check_answers onCluster_answers).congr (by simp only [Instr.wf, Bool.decide_and, Bool.and_assoc])
  | .pfcFrame .. => (check_answers onSub_answers).congr (by simp only [Instr.wf, Bool.decide_and, Bool.and_assoc])
  | .cnpReceive .. | .frameReceive .. =>
    (check_answers onSub_answers).congr (by
      simp only [Instr.wf, Bool.decide_and, Bool.decide_eq_true, Bool.and_assoc])
  | .maintEnter .. | .maintLeave .. | .calib .. => either_answers onOk_answers onOk_answers
  | .wait .. => execWait_answers
  | .powerTransitionStep .. => execPowerTransitionStep_answers

/-- Settles O2: an operand's range is checked before a command's meaning is asked. -/
theorem inRangeCommandsComplete : Obligations.InRangeCommandsComplete :=
  fun i s => exec_answers s i

end Sys2Proof.Machine
end

section
/-! SUPPORT. O59: the layout of a physical sector address. -/

namespace Sys2Proof.Machine

section
variable {t c h track sector p : Nat}

/-- An address lies in its 48 bits. -/
theorem mkPsa_lt (ht : t < 8) (hc : c < 4) (hh : h < 24) (htr : track < 2 ^ 24) (hs : sector < 2 ^ 14) :
    mkPsa t c h track sector < 2 ^ 48 := by
  unfold mkPsa
  omega

/-- The model's fields read back what an address was made of. -/
theorem psaFields_mkPsa (ht : t < 8) (hc : c < 4) (hh : h < 24) (htr : track < 2 ^ 24) (hs : sector < 2 ^ 14) :
    let p := mkPsa t c h track sector
    psaTile p = t ∧ psaCluster p = c ∧ psaHead p = h ∧ psaTrack p = track ∧ psaSector p = sector := by
  simp only [psaTile, psaCluster, psaHead, psaTrack, psaSector, mkPsa]
  omega

/-- Below 2^48 nothing stands above the tile. -/
theorem shiftRight_eq_psaTile (h : p < 2 ^ 48) : p >>> 45 = psaTile p := by
  rw [Nat.shiftRight_eq_div_pow, psaTile]
  omega

theorem mkPsa_psaFields (h : p < 2 ^ 48) :
    mkPsa (psaTile p) (psaCluster p) (psaHead p) (psaTrack p) (psaSector p) = p := by
  simp only [psaTile, psaCluster, psaHead, psaTrack, psaSector, mkPsa]
  omega

end

/-- Settles O59: the fields' shifts are the divisions with which the model reads them. -/
theorem sectorAddressLayout : Obligations.SectorAddressLayout := by
  refine ⟨?_, fun p => mkPsa_psaFields⟩
  rintro t c h track sector p ht hc hh htr hs rfl
  have below := mkPsa_lt ht hc hh htr hs
  obtain ⟨tile, cluster, head, trackEq, sectorEq⟩ := psaFields_mkPsa ht hc hh htr hs
  refine ⟨below, (shiftRight_eq_psaTile below).trans tile, ?_, ?_, ?_, sectorEq, tile, cluster, head, trackEq, sectorEq⟩
  · exact (congrArg (· % _) (Nat.shiftRight_eq_div_pow _ _)).trans cluster
  · exact (congrArg (· % _) (Nat.shiftRight_eq_div_pow _ _)).trans head
  · exact (congrArg (· % _) (Nat.shiftRight_eq_div_pow _ _)).trans trackEq

end Sys2Proof.Machine
end

section
/-! SUPPORT. O7 and O8: what an access of a register does, and what a counter holds after it has been read. -/

namespace Sys2Proof.Machine

/-! ### States that differ in registers alone -/

section
variable {as : List Nat} {s t u : State} {a : Nat}

theorem onlyRegs_refl : onlyRegs as s s := ⟨fun _ _ => rfl, rfl⟩

theorem onlyRegs.trans (h : onlyRegs as s t) (k : onlyRegs as t u) : onlyRegs as s u := by
  obtain ⟨hr, ht⟩ := h
  obtain ⟨kr, ku⟩ := k
  exact ⟨fun b m => (kr b m).trans (hr b m), by rw [ku, ht]⟩

theorem onlyRegs_setReg (w : Word) (m : a ∈ as) : onlyRegs as s (s.setReg a w) :=
  ⟨fun _ n => s.setReg_reg_ne w fun e => n (e ▸ m), rfl⟩

end

/-! ### Saturating counters (R12) -/

section
variable {s : State} {a hi lo : Nat}

theorem State.setReg_fld_self (w : Word) : (s.setReg a w).fld a hi lo = Sys2Proof.fld w hi lo := by
  simp [State.fld]

theorem fld_zero : Sys2Proof.fld 0#32 hi lo = 0 := by simp [Sys2Proof.fld]

/-- The whole word as a field. -/
theorem fld_31_0 (w : Word) : Sys2Proof.fld w 31 0 = w.toNat := by
  simp [Sys2Proof.fld, Nat.mod_eq_of_lt w.isLt]

/-- A counter that has been added to holds the sum, or all ones where it does not fit. -/
theorem State.bumpF_fld_self (n : Nat) (h : hi < 32) :
    (s.bumpF a hi lo n).fld a hi lo = min (s.fld a hi lo + n) (2 ^ (hi + 1 - lo) - 1) := by
  rw [State.bumpF, State.setF_eq, State.setReg_fld_self, fld_setFld_self _ _ h]
  have := Nat.two_pow_pos (hi + 1 - lo)
  exact Nat.mod_eq_of_lt (by omega)

theorem State.bumpF_fld_ne {hi' lo' : Nat} (n : Nat) (h : hi' < 32) (d : hi' < lo ∨ hi < lo') :
    (s.bumpF a hi lo n).fld a hi' lo' = s.fld a hi' lo' := by
  rw [State.bumpF, State.setF_eq, State.setReg_fld_self, fld_setFld_ne _ _ h d, State.fld]

theorem State.bump_fld_self (n : Nat) : (s.bump a n).fld a 31 0 = min (s.fld a 31 0 + n) (2 ^ 32 - 1) :=
  State.bumpF_fld_self n (by decide)

theorem onlyRegs_bumpF {as : List Nat} (n : Nat) (m : a ∈ as) : onlyRegs as s (s.bumpF a hi lo n) :=
  onlyRegs_setReg _ m

/-- The counts of a register's fields, added to it. -/
def addCounts (s : State) (a : Nat) (fs : List (Nat × Nat)) (ns : List Nat) : State :=
  (List.zip fs ns).foldl (fun s e => s.bumpF a e.1.1 e.1.2 e.2) s

theorem onlyRegs_addCounts (fs : List (Nat × Nat)) (ns : List Nat) : onlyRegs [a] s (addCounts s a fs ns) := by
  unfold addCounts
  generalize List.zip fs ns = l
  induction l generalizing s with
  | nil => exact onlyRegs_refl
  | cons e l ih => exact (onlyRegs_bumpF e.2 (by simp)).trans ih

/-- One count of 32 bits. -/
theorem addCounts_one (h : s.fld a 31 0 = 0) (ns : List Nat) :
    (addCounts s a [(31, 0)] ns).fld a 31 0 = min (nth 0 ns 0) (2 ^ 32 - 1) := by
  cases ns with
  | nil => simp [addCounts, h, nth]
  | cons n ns => simpa [addCounts, h, nth, State.bump] using State.bump_fld_self (s := s) (a := a) n

/-- Two counts of 16 bits. -/
theorem addCounts_two (h0 : s.fld a 15 0 = 0) (h1 : s.fld a 31 16 = 0) (ns : List Nat) :
    (addCounts s a [(15, 0), (31, 16)] ns).fld a 15 0 = min (nth 0 ns 0) 65535 ∧
      (addCounts s a [(15, 0), (31, 16)] ns).fld a 31 16 = min (nth 0 ns 1) 65535 := by
  match ns with
  | [] => simp [addCounts, h0, h1, nth]
  | [n] =>
    have low := State.bumpF_fld_self (s := s) (a := a) (lo := 0) n (show 15 < 32 by decide)
    have high := State.bumpF_fld_ne (s := s) (a := a) (hi := 15) (lo := 0) (lo' := 16) n (show 31 < 32 by decide)
      (.inr (by decide))
    simp_all [addCounts, nth]
  | n :: m :: _ =>
    have low := State.bumpF_fld_self (s := s) (a := a) (lo := 0) n (show 15 < 32 by decide)
    have low' := State.bumpF_fld_ne (s := s.bumpF a 15 0 n) (a := a) (hi := 31) (lo := 16) (lo' := 0) m
      (show 15 < 32 by decide) (.inl (by decide))
    have high := State.bumpF_fld_ne (s := s) (a := a) (hi := 15) (lo := 0) (lo' := 16) n (show 31 < 32 by decide)
      (.inr (by decide))
    have high' := State.bumpF_fld_self (s := s.bumpF a 15 0 n) (a := a) (lo := 16) m (show 31 < 32 by decide)
    simp_all [addCounts, nth]

end

/-! ### Accesses of an open register (R11, R37, R43) -/

section
variable {s : State} {a o : Nat} {b : RegBlk} {r : RegRow} {w : Word} {who : Who}

theorem pageOk_of_plainBlk (hb : blkOf a = some (b, o)) (hp : plainBlk b = true) : pageOk s who a = true := by
  unfold pageOk
  cases b <;> simp_all [plainBlk]

/-- A register of a plain block is written as its access type gives it. -/
theorem writeBlk_plain (hp : plainBlk b = true) : writeBlk s who a b o r w = plainWrite s r a w := by
  cases b <;> simp_all [plainBlk, writeBlk]

/-- A write reaches an open register's block, unless the register cannot be written. -/
theorem writeReg_open (hg : gateOf s a = .open_) (hb : blkOf a = some (b, o)) (hp : plainBlk b = true)
    (hr : regRow s.part a = some r) : writeReg s who a w =
      if r.acc = .ro ∨ r.acc = .rc then (s, .ok)
      else if r.acc ≠ .w1c ∧ !(fieldsOk s b o w) then (s, .badField)
      else plainWrite s r a w := by
  simp [writeReg, hg, pageOk_of_plainBlk hb hp, hb, hr, writeBlk_plain hp]

theorem accessOk_of_not_assoc (h : ∀ c, who ≠ .assoc c) : accessOk s who a = true := by
  cases who <;> simp_all [accessOk]

theorem execRegisterWrite_unaligned (h : a < 2 ^ 32) (ha : a % 4 ≠ 0) :
    exec (.registerWrite who a w) s = .next (s.emit (.reply who a w .badField)) := by
  simp only [exec, execRegisterWrite, onOk_next (decide_eq_true h)]
  simp [ha]

/-- REGISTER_WRITE of an open register: the write and its answer. -/
theorem execRegisterWrite_open (h : a < 2 ^ 32) (ha : a % 4 = 0) (hw : ∀ c, who ≠ .assoc c) (hg : gateOf s a = .open_) :
    exec (.registerWrite who a w) s =
      .next ((writeReg s who a w).1.emit (.reply who a w (writeReg s who a w).2)) := by
  simp only [exec, execRegisterWrite, onOk_next (decide_eq_true h)]
  simp [ha, accessOk_of_not_assoc hw, offerAccess, hg, doAccess, writeAccess]

theorem plainWrite_inRange (hacc : r.acc = .rw) (hin : r.inRange w = true) :
    plainWrite s r a w = (s.setReg a ((s.reg a &&& ~~~r.mask) ||| (w &&& r.mask)), .ok) := by
  simp [plainWrite, hacc, hin]

theorem plainWrite_outOfRange (hacc : r.acc = .rw) (hin : r.inRange w = false) :
    plainWrite s r a w = (s, .badField) := by
  simp [plainWrite, hacc, hin]

/-- Of a word that is written under a mask, the mask's bits are the word's and all others stay. -/
theorem masked_getLsbD (v m w : Word) {i : Nat} (h : i < 32) :
    ((v &&& ~~~m) ||| (w &&& m)).getLsbD i = if m.getLsbD i then w.getLsbD i else v.getLsbD i := by
  rw [BitVec.getLsbD_or, BitVec.getLsbD_and, BitVec.getLsbD_and, BitVec.getLsbD_not]
  cases m.getLsbD i <;> simp [h]

/-- A read of an open counter clears it. -/
theorem readReg_rc (hg : gateOf s a = .open_) (hpage : pageOk s who a = true) (hr : regRow s.part a = some r)
    (hrest : afterRead s who a r = s.setReg a 0) : readReg s who a = (s.setReg a 0, viewReg s a, .ok) := by
  simp [readReg, hg, hpage, hr, hrest]

/-- The blocks whose counters do nothing but clear when they are read. -/
def silentCounters (b : RegBlk) : Prop :=
  plainBlk b = true ∧ b ≠ .memp ∧ (∀ p, b ≠ .hpt p) ∨ ∃ t c, b = .wrtc t c

theorem afterRead_rc (hacc : r.acc = .rc) (hb : blkOf a = some (b, o)) (hs : silentCounters b) :
    afterRead s who a r = s.setReg a 0 := by
  unfold afterRead
  rcases hs with ⟨hp, hm, hh⟩ | ⟨t, c, rfl⟩
  · cases b <;> simp_all [plainBlk]
  · simp [hacc, hb]

theorem pageOk_of_silentCounters (hb : blkOf a = some (b, o)) (hs : silentCounters b) : pageOk s who a = true := by
  rcases hs with ⟨hp, -, -⟩ | ⟨t, c, rfl⟩
  · exact pageOk_of_plainBlk hb hp
  · simp [pageOk, hb]

/-- RC_COUNTER_READ of an open counter: cleared, answered, and then counting what came meanwhile. -/
theorem execRcCounterRead_open {ns : List Nat} (h : a < 2 ^ 32) (hg : gateOf s a = .open_) (hb : blkOf a = some (b, o))
    (hs : silentCounters b) (hr : regRow s.part a = some r) (hacc : r.acc = .rc) :
    exec (.rcCounterRead a ns) s =
      .next (addCounts ((s.setReg a 0).emit (.reply .port a (viewReg s a) .ok)) a (rcFields a) ns) := by
  have read := readReg_rc (who := .port) hg (pageOk_of_silentCounters hb hs) hr (afterRead_rc hacc hb hs)
  simp only [exec, execRcCounterRead, onOk_next (decide_eq_true h)]
  simp [offerAccess, hg, doAccess, readAccess, read, hr, hacc, addCounts]

theorem execRcCounterRead_wait {ns : List Nat} (h : a < 2 ^ 32) (hg : gateOf s a = .wait) :
    exec (.rcCounterRead a ns) s = .next { s with mgmt := { s.mgmt with accs := s.mgmt.accs ++ [⟨.port, a, none, ns⟩] } } := by
  simp only [exec, execRcCounterRead, onOk_next (decide_eq_true h)]
  simp [offerAccess, hg]

end

/-- Settles O7: a plain block's register is written as its access type gives it. -/
theorem registerWriteSetsItsFields : Obligations.RegisterWriteSetsItsFields := by
  intro s who a w b o r h hw
  refine ⟨execRegisterWrite_unaligned h, fun ha hg hb hp hr => ?_⟩
  rw [execRegisterWrite_open h ha hw hg, writeReg_open hg hb hp hr]
  refine ⟨fun hacc hf hin => ?_, fun hacc hf hin => ?_, fun hacc => ?_⟩
  · refine ⟨_, rfl, fun i hi => ?_, ?_⟩
    · simpa [hacc, hf, plainWrite_inRange hacc hin] using masked_getLsbD _ _ _ hi
    · obtain ⟨kept, only⟩ := onlyRegs_setReg (s := s) (a := a) (as := [a])
        ((s.reg a &&& ~~~r.mask) ||| (w &&& r.mask)) (by simp)
      simp only [hacc, hf, plainWrite_inRange hacc hin]
      exact ⟨kept, rfl⟩
  · simp [hacc, hf, plainWrite_outOfRange hacc hin, State.emit]
  · rw [if_pos hacc]
    rfl

/-- Settles O8: the counter is cleared first, and the events that coincide with the read are counted after it. -/
theorem rcCounterReadClears : Obligations.RcCounterReadClears := by
  intro s a ns h
  refine ⟨fun b o r hg hb hs hr hacc => ?_, execRcCounterRead_wait h⟩
  refine ⟨_, execRcCounterRead_open h hg hb hs hr hacc, ?_⟩
  generalize hz : (s.setReg a 0).emit (.reply .port a (viewReg s a) .ok) = z
  have clear (hi lo) : z.fld a hi lo = 0 := by
    simp [← hz, State.setReg_fld_self, fld_zero]
  have cleared : z = { s with regs := z.regs, out := .reply .port a (viewReg s a) .ok :: s.out } := by
    rw [← hz]; rfl
  have others : regsKept [a] s z := hz ▸ (onlyRegs_setReg (s := s) 0 (by simp)).1
  obtain ⟨kept, only⟩ := onlyRegs_addCounts (s := z) (a := a) (rcFields a) ns
  refine ⟨?_, fun x m => (kept x m).trans (others x m), fun one => ?_, fun two => ?_⟩
  · rw [only, cleared]
  · rw [one]
    have count := addCounts_one (clear 31 0) ns
    rw [State.fld, fld_31_0] at count
    rw [← count, w32, BitVec.ofNat_toNat, BitVec.setWidth_eq]
  · rw [two]
    exact addCounts_two (clear 15 0) (clear 31 16) ns

end Sys2Proof.Machine
end

section
/-! SUPPORT. O24 fails: a line's NSID is a bare number, and the registers of an NSID beyond 4,096 lie on those of
other blocks. -/

namespace Sys2Proof.Machine

/-! ### A unit with one wrong symbol (R393) -/

theorem gfExp_one (n : Nat) : gfExp 1 n = 1 := by
  have one : gfMul 1 1 = 1 := by decide +kernel
  induction n with
  | zero => rfl
  | succ n ih => rw [gfExp, ih, one]

/-- A unit whose first symbol is 1 where it should be 0. -/
def correctedUnit : EccRead := ⟨0, 1 :: List.replicate 35 0⟩

theorem eccCls_correctedUnit : eccCls correctedUnit = .corrected 0 1 := by
  have syndromes : folded 0 (eccCells correctedUnit) = [1, 1, 1, 1] := by decide +kernel
  have inverse : gfInv 1 = 1 := gfExp_one 254
  have one : gfMul 1 1 = 1 := by decide +kernel
  have first : gfLog36 1 = some 0 := by decide +kernel
  have known : classify [1, 1, 1, 1] = .corrected 0 1 := by
    simp only [classify, ne_eq, inverse, one, first]
    decide
  exact (congrArg classify syndromes).trans known

/-- A corrected read whose page is known of is only counted. -/
theorem noteScrub_eccCount_known {s : State} {r : EccRead} {j : Nat} {v : BitVec 8} (h : eccCls r = .corrected j v)
    (fixed : eccPage r.addr ∈ s.memp.fixed) (listed : eccIndex r.addr / 128 ∈ s.memp.scrub) :
    noteScrub (eccCount s r) r = s.bump (aMemp (0x100 + 4 * eccClassOf r.addr)) := by
  have counted : eccCount s r = s.bump (aMemp (0x100 + 4 * eccClassOf r.addr)) := by
    simp only [eccCount, h]
    exact if_pos fixed
  rw [counted]
  simp only [noteScrub, h]
  exact if_pos (.inr (.inl listed))

/-- A sector whose guard's unit is read and corrected lands with its data. -/
theorem sectorLanding_corrected {s t : State} {rd : EccRead} {e : Sector} {rest : List Sector} {j : Nat} {v : BitVec 8}
    (queue : s.buf.bufWrite = e :: rest) (whole : e.drop = none)
    (popped : { s with buf := { s.buf with bufWrite := rest } } = t) (guard : sectorGuard t e = some rd.addr)
    (read : unitRead t rd = true) (h : eccCls rd = .corrected j v) :
    sectorLanding s rd = lockCheck (landOutcome (noteScrub (eccCount t rd) rd) e.psa e.req (.data e.info)) := by
  simp [sectorLanding, queue, whole, popped, guard, read, h, EccClass.bad]

/-! ### A namespace whose registers are counters -/

/-- The NSID whose first register is MEMP's count of corrected reads of the buffer: 0x240000 + 32 · 40,968 is
0x380100. -/
def memoryNsid : Nat := 40969

/-- The sector that lands, for command 9. -/
def landing : Sector := ⟨0, ⟨0, 9, 0, .host, 0⟩, [], false, none, 0, none⟩

/-- A state that awaits a sector, for command 9, in the first unit of a line of that NSID; the line has guard slot 0,
whose page has been written, and read corrected before. The count of corrected reads, 0x1003F, says KIND 1 and head 0
of that namespace. `q` is the buffer write queue. -/
def countedPlacement (q : List Sector) : State :=
  { State.reset with
    regs := [(aMemp 0x100, 0x1003F)]
    memp := { State.reset.memp with written := [(0, true)], fixed := [0], scrub := [0] }
    buf := { State.reset.buf with
      bufWrite := q
      lines := [(0, ⟨memoryNsid, 0, 0, false, false, [(0, { Unit4.none with fill := some 9 })], some 0⟩)] } }

/-- The sector is awaited, and its guard's unit is unit 0. -/
theorem countedPlacement_awaits : fillOf (countedPlacement [landing]) 9 0 = some (0, 0) ∧
    (unitIn (countedPlacement [landing]) (.way 0) 0).gone = false ∧
    (countedPlacement [landing]).bit (aBuf 0x10) 31 = false ∧
    (lineOf (countedPlacement [landing]) 0).slot = some 0 ∧ guardUnit 0 0 = correctedUnit.addr := by decide +kernel

/-- Once the read of the guard's unit has been counted, head 0 is head 1, and the sector's address is no block's. -/
theorem countedPlacement_counted_misses :
    (unitIn (lockCheck (landOutcome ((countedPlacement []).bump (aMemp 0x100)) 0 landing.req (.data []))) (.way 0) 0).valid =
      false := by decide +kernel

theorem sectorLanding_countedPlacement : sectorLanding (countedPlacement [landing]) correctedUnit =
    lockCheck (landOutcome ((countedPlacement []).bump (aMemp 0x100)) 0 landing.req (.data [])) := by
  have popped : { countedPlacement [landing] with buf := { (countedPlacement [landing]).buf with bufWrite := [] } } =
      countedPlacement [] := rfl
  have guard : sectorGuard (countedPlacement []) landing = some correctedUnit.addr := by decide +kernel
  have read : unitRead (countedPlacement []) correctedUnit = true := by decide +kernel
  have counted := noteScrub_eccCount_known (s := countedPlacement []) eccCls_correctedUnit (by decide +kernel)
    (by decide +kernel)
  rw [sectorLanding_corrected (e := landing) rfl rfl popped guard read eccCls_correctedUnit, counted]
  rfl

/-- Refutes O24: in `countedPlacement` the correctable read of the guard's unit changes the register from which the
sector's address is worked out, so the unit that had the fill pending does not become valid. -/
theorem not_sectorsLandWhereTheyAreAwaited : ¬ Obligations.SectorsLandWhereTheyAreAwaited := by
  unfold Obligations.SectorsLandWhereTheyAreAwaited
  intro h
  obtain ⟨-, -, lands⟩ := h (countedPlacement [landing]) _ correctedUnit [] rfl
  obtain ⟨awaited, stays, noInvall, slot, unit⟩ := countedPlacement_awaits
  have correctable (k : Nat) (r : EccRead) (hk : (lineOf (countedPlacement [landing]) 0).slot = some k)
      (hr : r = { correctedUnit with addr := guardUnit k 0 }) : (eccCls r).bad = false := by
    obtain rfl : 0 = k := Option.some.inj (slot.symm.trans hk)
    rw [hr, unit]
    exact congrArg EccClass.bad eccCls_correctedUnit
  obtain ⟨u, runs, -, valid, -⟩ := lands landing [] 0 0 rfl awaited rfl (fun k r hk hr _ => correctable k r hk hr)
    stays noInvall
  obtain rfl : sectorLanding (countedPlacement [landing]) correctedUnit = u := Host.Outcome.next.inj runs
  rw [sectorLanding_countedPlacement, countedPlacement_counted_misses] at valid
  exact Bool.false_ne_true valid

end Sys2Proof.Machine
end

section
/-! SUPPORT. What sending on a queue pair, completing a command and starting its dispatch thread do (R289, R308,
R316, R322). -/

namespace Sys2Proof.Machine

/-! ### Packets and completion entries -/

section
variable (s : State) (n kind cmd blk len : Nat)

/-- A queue pair after a transfer of `len` bytes has been sent on it (R308). -/
def sentQp : Qp :=
  let q := s.qp n
  { q with
    inflight := q.inflight ++ [⟨(q.psn + packetsOf s n len - 1) % 2 ^ 24, kind, cmd, blk⟩]
    psn := (q.psn + packetsOf s n len) % 2 ^ 24 }

/-- A transfer changes its queue pair and what has been emitted. -/
theorem sendPkt_eq : sendPkt s n kind cmd blk len =
    { s.setQp n (sentQp s n kind cmd blk len) with out := onWire s n (s.qp n).psn kind len ++ s.out } := by
  unfold sendPkt onWire
  by_cases h : subUp s (s.qp n).port (s.qp n).sub = true
  · simp only [h, if_true]
    rfl
  · simp only [h]
    rfl

variable (cid dw0 dw1 sct sc : Nat) (dnr : Bool)

/-- So does a completion entry. -/
theorem postRaw_eq : postRaw s n cid dw0 dw1 sct sc dnr =
    { s.setQp n (sentQp s n 0 0 0 16) with
      out := cqeSent s n (s.qp n).psn cid dw0 dw1 sct sc dnr ++ s.out } := by
  rw [postRaw, sendPkt_eq, cqeSent, List.append_assoc]
  rfl

theorem postCqe_eq (st : Status) : postCqe s n cid dw0 dw1 st =
    { s.setQp n (sentQp s n 0 0 0 16) with
      out := cqeSent s n (s.qp n).psn cid dw0 dw1 st.sct st.code st.dnr ++ s.out } :=
  postRaw_eq s n cid dw0 dw1 st.sct st.code st.dnr

end

/-! ### Commands that leave the device -/

/-- What the completing and leaving of commands changes: the queue pairs, the commands and the associations that they
belong to, their pages and waits, their slots' shadows, their dispatch threads, and the count of old commands
(NQ.SUPPRESS). -/
structure Ending (s u : State) : Prop where
  frame : u = { s with
    regs := u.regs, out := u.out, slots := u.slots
    nq := { s.nq with qps := u.nq.qps, cmds := u.nq.cmds, assocs := u.nq.assocs }
    buf := { s.buf with stage := u.buf.stage, waits := u.buf.waits }
    tl := { s.tl with engines := u.tl.engines } }
  regs : regsKept [aNq 0x2C] s u
  out : s.out <:+ u.out

section
variable {s t u : State} {i : Nat}

theorem Ending.refl : Ending s s := ⟨rfl, fun _ _ => rfl, List.suffix_refl _⟩

theorem Ending.trans (h : Ending s t) (k : Ending t u) : Ending s u := by
  refine ⟨?_, fun a m => (k.regs a m).trans (h.regs a m), h.out.trans k.out⟩
  rw [k.frame, h.frame]

theorem Ending.side (h : Ending s u) : hostSideOnly s u := by
  rw [h.frame]
  exact ⟨rfl, rfl, rfl, rfl, rfl⟩

theorem Ending.changes (h : Ending s u) : u.nq.changes = s.nq.changes := by rw [h.frame]

theorem Ending.scans (h : Ending s u) : u.buf.scans = s.buf.scans := by rw [h.frame]

theorem Ending.nextCmd (h : Ending s u) : u.nq.nextCmd = s.nq.nextCmd := by rw [h.frame]

theorem Ending.setCmd (x : Cmd) : Ending s (s.setCmd i x) := ⟨rfl, fun _ _ => rfl, List.suffix_refl _⟩

theorem Ending.setAssoc (x : Assoc) : Ending s (s.setAssoc i x) := ⟨rfl, fun _ _ => rfl, List.suffix_refl _⟩

theorem Ending.postCqe (n cid dw0 dw1 : Nat) (st : Status) : Ending s (postCqe s n cid dw0 dw1 st) := by
  rw [postCqe_eq]
  exact ⟨rfl, fun _ _ => rfl, List.suffix_append _ _⟩

theorem shadowCheck_eq (k : Nat) : ∃ x, shadowCheck s k = { s with slots := x } := by
  unfold shadowCheck
  dsimp only
  split
  · split
    · exact ⟨_, rfl⟩
    · exact ⟨_, rfl⟩
  · exact ⟨_, rfl⟩

/-- A command that leaves takes its entry, its pages, its wait, its thread and perhaps its shadow with it. -/
theorem removeCmd_eq (s : State) (i : Nat) : ∃ st w sl es, removeCmd s i = { s with
    nq := { s.nq with cmds := Tab.to Cmd.none s.nq.cmds i Cmd.none }
    buf := { s.buf with stage := st, waits := w }
    slots := sl
    tl := { s.tl with engines := es } } := by
  unfold removeCmd
  dsimp only
  split
  · exact (shadowCheck_eq _).elim fun x hx => ⟨_, _, x, _, hx⟩
  · exact ⟨_, _, _, _, rfl⟩

theorem Ending.removeCmd : Ending s (removeCmd s i) := by
  obtain ⟨st, w, sl, es, h⟩ := removeCmd_eq s i
  rw [h]
  exact ⟨rfl, fun _ _ => rfl, List.suffix_refl _⟩

@[simp] theorem removeCmd_out (s : State) (i : Nat) : (removeCmd s i).out = s.out := by
  obtain ⟨st, w, sl, es, h⟩ := removeCmd_eq s i
  rw [h]

@[simp] theorem removeCmd_cmd_live (s : State) (i : Nat) : ((removeCmd s i).cmd i).live = false := by
  obtain ⟨st, w, sl, es, h⟩ := removeCmd_eq s i
  rw [h]
  exact congrArg Cmd.live (Tab.at_to_self Cmd.none s.nq.cmds i Cmd.none)

/-- A live command of a host that is not old completes with its entry. -/
theorem completeCmd_host (st : Status) (live : (s.cmd i).live = true) (host : (s.cmd i).origin = .host)
    (fresh : (s.cmd i).old = false) : completeCmd s i st =
      removeCmd (postCqe s (s.cmd i).qp (s.cmd i).cap.cid (s.cmd i).dw0 (s.cmd i).dw1 st) i := by
  simp [completeCmd, live, host, fresh]

theorem Ending.bump : Ending s (s.bump (aNq 0x2C)) :=
  ⟨rfl, fun _ m => s.setReg_reg_ne _ fun e => m (by simp [e]), List.suffix_refl _⟩

theorem Ending.completeCmd (st : Status) : Ending s (completeCmd s i st) := by
  unfold Machine.completeCmd
  dsimp only
  split
  · exact .refl
  · split
    · exact Ending.bump.trans .removeCmd
    · split
      · exact .removeCmd
      · exact (Ending.postCqe _ _ _ _ _).trans .removeCmd

/-- However a command ends, it is no longer live. -/
theorem completeCmd_cmd_live (st : Status) : ((completeCmd s i st).cmd i).live = false := by
  unfold completeCmd
  dsimp only
  split
  · next h => simpa using h
  · split
    · exact removeCmd_cmd_live _ _
    · split
      · exact removeCmd_cmd_live _ _
      · exact removeCmd_cmd_live _ _

/-- A completed command: its entry is the newest output, and it has left. -/
theorem completes_completeCmd (st : Status) (live : (s.cmd i).live = true) (host : (s.cmd i).origin = .host)
    (fresh : (s.cmd i).old = false) : completes s (completeCmd s i st) i (s.cmd i).dw0 (s.cmd i).dw1 st := by
  refine ⟨?_, completeCmd_cmd_live st⟩
  rw [completeCmd_host st live host fresh, removeCmd_out, postCqe_eq]

/-- The entry of a completed command has been emitted. -/
theorem cqe_mem_completeCmd (st : Status) (live : (s.cmd i).live = true) (host : (s.cmd i).origin = .host)
    (fresh : (s.cmd i).old = false) : .cqe (s.cmd i).qp (s.cmd i).cap.cid (s.cmd i).dw0 (s.cmd i).dw1
      (s.qp (s.cmd i).qp).sqhd st.sct st.code st.dnr ∈ (completeCmd s i st).out := by
  rw [(completes_completeCmd st live host fresh).1, cqeSent]
  simp

end

/-! ### Dispatch threads (R289, R292) -/

section
variable (s : State) (op : Nat) (w : Word) (i : Nat)

/-- A packet changes the dispatch engine or the queue of packets. -/
theorem dispatchPacket_frame : dispatchPacket s op w i = { s with tl := (dispatchPacket s op w i).tl } := by
  unfold dispatchPacket
  split
  · rfl
  · split
    · rfl
    · rfl

/-- A packet starts the lowest free thread, with its word in g1. -/
theorem dispatchPacket_thread {th : Nat} (h : freeThread s 0 = some th) :
    (thread (dispatchPacket s op w i) 0 th).live = true ∧ (thread (dispatchPacket s op w i) 0 th).cmd = i ∧
      Tab.at 0 (thread (dispatchPacket s op w i) 0 th).g 1 = w := by
  have started : thread (dispatchPacket s op w i) 0 th = ⟨true, liveBank s 0, fld (dispatchEntry s op) 13 0, 0, none,
      Tab.to 0 (Tab.to 0 [] 1 w) 2 0, op, i, false, false⟩ := by
    simp [dispatchPacket, h, startThread, setThread, thread]
  rw [started]
  exact ⟨rfl, rfl, by rw [Tab.at_to_ne _ _ _ (by decide), Tab.at_to_self]⟩

end

end Sys2Proof.Machine
end

section
/-! SUPPORT. ORDERING_TURN (R333, R334, R354, R416). -/

namespace Sys2Proof.Machine

/-! ### Taking the turn -/

section
variable (s : State) (i : Nat)

/-- A command at its turn: its slot's generation is latched (R416). -/
def turnedCmd : Cmd := { s.cmd i with turned := true, gen := (s.slot (nsSlot s (s.cmd i).nsid)).gen }

theorem takeTurn_eq : takeTurn s i = dispatchPacket (s.setCmd i (turnedCmd s i)) (cmdOp (turnedCmd s i)) (w32 i) i := rfl

theorem takeTurn_frame : takeTurn s i =
    { s with nq := { s.nq with cmds := (takeTurn s i).nq.cmds }, tl := (takeTurn s i).tl } := by
  rw [takeTurn_eq, dispatchPacket_frame]
  rfl

theorem takeTurn_cmds : (takeTurn s i).nq = (s.setCmd i (turnedCmd s i)).nq := by
  rw [takeTurn_eq, dispatchPacket_frame]

theorem takeTurn_cmd_self : (takeTurn s i).cmd i = turnedCmd s i := by
  rw [State.cmd, takeTurn_cmds]
  exact s.setCmd_cmd i _

theorem takeTurn_cmd_ne {j : Nat} (h : j ≠ i) : (takeTurn s i).cmd j = s.cmd j := by
  rw [State.cmd, takeTurn_cmds]
  exact s.setCmd_cmd_ne _ h

theorem takeTurn_thread {th : Nat} (h : freeThread s 0 = some th) :
    (thread (takeTurn s i) 0 th).live = true ∧ (thread (takeTurn s i) 0 th).cmd = i ∧
      Tab.at 0 (thread (takeTurn s i) 0 th).g 1 = w32 i :=
  dispatchPacket_thread _ _ _ _ h

theorem takeTurn_side : hostSideOnly s (takeTurn s i) := by
  rw [takeTurn_frame]
  exact ⟨rfl, rfl, rfl, rfl, rfl⟩

end

/-! ### The turn -/

/-- A zoned write at the place that its zone gives it; an append answers with that place (R354). -/
def placedWrite (c : Cmd) (lo : Nat) : Cmd :=
  let append := decide (c.cap.opcode = 0x7D)
  { c with lo := lo, dw0 := if append then lo % 2 ^ 32 else 0, dw1 := if append then lo / 2 ^ 32 else 0 }

/-- A write at its turn. -/
def writeTurn (s : State) (i : Nat) : State :=
  let c := s.cmd i
  if c.status ≠ .ok then completeCmd s i c.status
  else if nsZoned s c.nsid then
    match zoneTurn s c with
    | .error st => completeCmd s i st
    | .ok lo =>
      if psaStatus s (placedWrite c lo) = .ok then takeTurn (s.setCmd i (placedWrite c lo)) i
      else completeCmd s i (psaStatus s (placedWrite c lo))
  else if psaStatus s c = .ok then takeTurn s i
  else completeCmd s i (psaStatus s c)

section
variable {s : State} {i : Nat}

theorem writeTurn_failed (bad : (s.cmd i).status ≠ .ok) : writeTurn s i = completeCmd s i (s.cmd i).status := if_pos bad

variable (good : (s.cmd i).status = .ok)
include good

theorem writeTurn_zone_error {st : Status} (zoned : nsZoned s (s.cmd i).nsid = true)
    (zone : zoneTurn s (s.cmd i) = .error st) : writeTurn s i = completeCmd s i st := by
  simp [writeTurn, good, zoned, zone]

variable {lo : Nat} (place : nsZoned s (s.cmd i).nsid = true ∧ zoneTurn s (s.cmd i) = .ok lo ∨
  nsZoned s (s.cmd i).nsid = false ∧ lo = (s.cmd i).lo)
include place

/-- A write goes to the place that its zone gives it, or stays at its own; `r` is the state once it has been placed. -/
theorem writeTurn_placed (sectors : psaStatus s { s.cmd i with lo := lo } = .ok) :
    ∃ r, writeTurn s i = takeTurn r i ∧ ((r.cmd i).lo = lo ∧ (r.cmd i).nsid = (s.cmd i).nsid) ∧
      r = { s with nq := { s.nq with cmds := r.nq.cmds } } := by
  rcases place with ⟨zoned, zone⟩ | ⟨zoned, rfl⟩
  · refine ⟨s.setCmd i (placedWrite (s.cmd i) lo), ?_, ?_, rfl⟩
    · simp only [writeTurn, good, zoned, zone]
      exact if_pos sectors
    · rw [State.setCmd_cmd]
      exact ⟨rfl, rfl⟩
  · refine ⟨s, ?_, ⟨rfl, rfl⟩, rfl⟩
    simp only [writeTurn, good, zoned]
    exact if_pos sectors

/-- A write that names a sector which it may not ends with that sector's reason. -/
theorem writeTurn_barred (sectors : psaStatus s { s.cmd i with lo := lo } ≠ .ok) :
    writeTurn s i = completeCmd s i (psaStatus s { s.cmd i with lo := lo }) := by
  rcases place with ⟨zoned, zone⟩ | ⟨zoned, rfl⟩
  · simp only [writeTurn, good, zoned, zone]
    exact if_neg sectors
  · simp only [writeTurn, good, zoned]
    exact if_neg sectors

end

section
variable {s : State} {i : Nat}

theorem orderingTurn_idle (h : (s.cmd i).live = false ∨ (s.cmd i).turned = true ∨ (s.cmd i).place = none) :
    orderingTurn s i = s := by
  rw [orderingTurn]
  exact if_pos (by simpa using h)

variable (live : (s.cmd i).live = true) (waits : (s.cmd i).turned = false) (placed : (s.cmd i).place ≠ none)
include live waits placed

theorem orderingTurn_behind (h : behindDelete s i = true) : orderingTurn s i = completeCmd s i .badField := by
  simp [orderingTurn, live, waits, placed, h]

variable (ahead : behindDelete s i = false)
include ahead

theorem orderingTurn_early (h : turnReady s i = false) : orderingTurn s i = s := by
  simp [orderingTurn, live, waits, placed, ahead, h]

variable (ready : turnReady s i = true)
include ready

theorem orderingTurn_plain (h : (s.cmd i).cls = .fl ∨ (s.cmd i).cls = .nd) : orderingTurn s i = takeTurn s i := by
  rcases h with h | h
  · simp [orderingTurn, live, waits, placed, ahead, ready, h]
  · simp [orderingTurn, live, waits, placed, ahead, ready, h]

theorem orderingTurn_read (h : (s.cmd i).cls = .rd) : orderingTurn s i =
    if (s.cmd i).status.orElse (psaStatus s (s.cmd i)) = .ok then takeTurn s i
    else completeCmd s i ((s.cmd i).status.orElse (psaStatus s (s.cmd i))) := by
  simp [orderingTurn, live, waits, placed, ahead, ready, h]

theorem orderingTurn_wr (h : (s.cmd i).cls = .wr) : orderingTurn s i = writeTurn s i := by
  unfold orderingTurn
  rw [if_neg (by simp [live, waits, placed]), if_neg (by simp [ahead]), if_neg (by simp [ready])]
  split
  case h_2 => rfl
  case h_1 h' => exact nomatch h.symm.trans h'
  case h_3 h' => exact nomatch h.symm.trans h'
  case h_4 h' _ => exact absurd h h'

end

end Sys2Proof.Machine
end

section
/-! SUPPORT. The arrival of capsules, their answers at intake and their waiting for a place (R308, R327, R339). -/

namespace Sys2Proof.Machine

/-! ### What is sent depends on the pair's port and MTU -/

/-- What a transfer puts on the wire depends on the pair's place and MTU, and on its port's registers. -/
theorem onWire_congr {s t : State} {n : Nat} (port : (t.qp n).port = (s.qp n).port) (sub : (t.qp n).sub = (s.qp n).sub)
    (mtu : (t.qp n).mtu = (s.qp n).mtu) (regs : ∀ p x, x < 0x20 → t.reg (aHpt p x) = s.reg (aHpt p x))
    (psn kind len : Nat) : onWire t n psn kind len = onWire s n psn kind len := by
  have fields (p x hi lo) (h : x < 0x20) : t.fld (aHpt p x) hi lo = s.fld (aHpt p x) hi lo :=
    congrArg (Sys2Proof.fld · hi lo) (regs p x h)
  have bits (p x i) (h : x < 0x20) : t.bit (aHpt p x) i = s.bit (aHpt p x) i := congrArg (·.getLsbD i) (regs p x h)
  unfold onWire packetsOf qpMtu subUp tagOf
  simp only
  rw [port, sub, mtu, fields _ 4 _ _ (by decide), fields _ 8 _ _ (by decide), bits _ 0x10 _ (by decide)]
  simp only [fields _ 0x14 _ _ (show 0x14 < 0x20 by decide)]

/-- The registers of a port's page and those of the NQ block's counters are apart. -/
theorem aHpt_ne_aNq {p x o : Nat} (hx : x < 0x20) (ho : 0x20 ≤ o) (ho' : o < 0x10000) : aHpt p x ≠ aNq o := by
  unfold aHpt aNq
  omega

section
variable (s : State) (n : Nat)

/-- A pair after a completion entry has been sent on it. -/
@[simp] theorem postCqe_qp (cid dw0 dw1 : Nat) (st : Status) :
    (postCqe s n cid dw0 dw1 st).qp n = sentQp s n 0 0 0 16 := by
  rw [postCqe_eq]
  exact State.setQp_qp _ _ _

theorem postCqe_out (cid dw0 dw1 : Nat) (st : Status) : (postCqe s n cid dw0 dw1 st).out =
    cqeSent s n (s.qp n).psn cid dw0 dw1 st.sct st.code st.dnr ++ s.out := by rw [postCqe_eq]

theorem postCqe_frame (cid dw0 dw1 : Nat) (st : Status) : postCqe s n cid dw0 dw1 st =
    { s with nq := (postCqe s n cid dw0 dw1 st).nq, out := (postCqe s n cid dw0 dw1 st).out } := by
  rw [postCqe_eq]
  rfl

/-- A change of the queues, and then one of them and of what has been emitted. -/
theorem queuesAndOut_trans {s t u : State} (h : t = { s with nq := t.nq }) (k : u = { t with nq := u.nq, out := u.out }) :
    u = { s with nq := u.nq, out := u.out } := by
  rw [k, h]

/-! ### CAPSULE_RECEIVE -/

variable (c : Capsule)

theorem capsuleReceive_idle (h : (s.qp n).held = false ∨ (s.qp n).state = 4) : capsuleReceive s n c = s := by
  rcases h with h | h
  · simp [capsuleReceive, h]
  · simp [capsuleReceive, h]

theorem capsuleReceive_resetting (held : (s.qp n).held = true) (h : (s.qp n).state = 3) :
    capsuleReceive s n c = postCqe (ackSend s n) n c.cid 0 0 .queueReset := by
  simp [capsuleReceive, held, h]

theorem capsuleReceive_held (held : (s.qp n).held = true) (h3 : (s.qp n).state ≠ 3) (h4 : (s.qp n).state ≠ 4) :
    capsuleReceive s n c = if (s.qp n).hsq < (s.qp n).intake.length then refuseSend s n
      else ackSend (s.setQp n { s.qp n with intake := (s.qp n).intake ++ [c] }) n := by
  simp [capsuleReceive, held, h3, h4]

/-- An acknowledged capsule waits last at intake. -/
theorem ackSend_arrived : ackSend (s.setQp n { s.qp n with intake := (s.qp n).intake ++ [c] }) n =
    (s.setQp n { s.qp n with intake := (s.qp n).intake ++ [c] }).emit
      (.nak n 0 (((s.qp n).epsn + 2 ^ 24 - 1) % 2 ^ 24) 0) := by
  rw [ackSend, State.setQp_qp]

/-- After a reset's boundary a capsule is acknowledged and answered; the capsules at intake stay. -/
theorem reset_answer {u : State} (h : u = postCqe (ackSend s n) n c.cid 0 0 .queueReset) :
    u.out = cqeSent s n (s.qp n).psn c.cid 0 0 Status.queueReset.sct Status.queueReset.code Status.queueReset.dnr ++
      .nak n 0 (((s.qp n).epsn + 2 ^ 24 - 1) % 2 ^ 24) 0 :: s.out ∧
    (u.qp n).intake = (s.qp n).intake ∧ u = { s with nq := { s.nq with qps := u.nq.qps }, out := u.out } := by
  subst h
  refine ⟨?_, ?_, ?_⟩
  · rw [postCqe_out]
    rfl
  · rw [postCqe_qp]
    rfl
  · rw [postCqe_eq]
    rfl

/-! ### Leaving intake -/

/-- The first capsule has left intake, and the turn among the queues has come to this one. -/
def takenIn : State := { popCapsule s n with nq := { (popCapsule s n).nq with turnPtr := n } }

@[simp] theorem popCapsule_qp : (popCapsule s n).qp n = { s.qp n with
    intake := (s.qp n).intake.drop 1, waitAt := none, sqhd := ((s.qp n).sqhd + 1) % ((s.qp n).size + 1) } :=
  State.setQp_qp _ _ _

theorem popCapsule_fld (a hi lo : Nat) : (popCapsule s n).fld a hi lo = s.fld a hi lo := rfl

theorem takenIn_out : (takenIn s n).out = s.out := rfl

theorem takenIn_frame : takenIn s n = { s with nq := (takenIn s n).nq } := rfl

/-- The completion entry of a capsule that left intake: from the pair's next sequence number, with the SQHD after
it. -/
theorem cqeSent_popped {t : State} (qp : t.qp n = (popCapsule s n).qp n)
    (regs : ∀ p x, x < 0x20 → t.reg (aHpt p x) = s.reg (aHpt p x)) (st : Status) :
    cqeSent t n (t.qp n).psn c.cid 0 0 st.sct st.code st.dnr = onWire s n (s.qp n).psn 0 16 ++
      [.cqe n c.cid 0 0 (((s.qp n).sqhd + 1) % ((s.qp n).size + 1)) st.sct st.code st.dnr] := by
  rw [popCapsule_qp] at qp
  have wire := onWire_congr (s := s) (by rw [qp]) (by rw [qp]) (by rw [qp]) regs (t.qp n).psn 0 16
  rw [cqeSent, wire, qp]

/-! ### CAPSULE_ADMIT and QFULL_TIMEOUT -/

/-- Set Features acts at intake only for these two features (R309, R322). -/
theorem assocFeature_none_iff (op : Nat) : assocFeature s n op c = none ↔
    ¬(op = 0x89 ∧ c.cdw10 % 256 = 0x0B) ∧ ¬(op = 0x89 ∧ c.cdw10 % 256 = 0x0F) := by
  unfold assocFeature
  by_cases h : op = 0x89 ∧ c.cdw10 % 256 = 0x0B
  · simp [h]
  · by_cases k : op = 0x89 ∧ c.cdw10 % 256 = 0x0F
    · simp [k]
    · simp [h, k]

theorem capsuleAdmit_idle (h : (s.qp n).intake = [] ∨ (s.qp n).state = 3 ∨ (s.qp n).state = 4) : capsuleAdmit s n = s := by
  unfold capsuleAdmit
  dsimp only
  split
  · rfl
  · next hc => exact if_pos (h.resolve_left (by simp [hc]))

variable {c} {rest : List Capsule} (first : (s.qp n).intake = c :: rest)
include first

theorem popCapsule_rest : ((popCapsule s n).qp n).intake = rest := by
  rw [popCapsule_qp, first]
  rfl

section
variable (h3 : (s.qp n).state ≠ 3) (h4 : (s.qp n).state ≠ 4)
include h3 h4

section
variable (place : placeFree s n = true)
  (turn : nextWaiting s (isIoQp n) = none ∨ nextWaiting s (isIoQp n) = some n)
include place turn

theorem capsuleAdmit_refused (bad : intakeCheck s n c ≠ .ok) :
    capsuleAdmit s n = postCqe (takenIn s n) n c.cid 0 0 (intakeCheck s n c) := by
  unfold capsuleAdmit
  simp only [first]
  rw [if_neg (by simp [h3, h4]), if_pos ⟨place, turn⟩]
  split
  · next hc _ => exact absurd hc bad
  · rfl

theorem capsuleAdmit_enters {op : Nat} (good : intakeCheck s n c = .ok) (packet : packetOp (isIoQp n) c = some op)
    (effect : ¬(op = 9 ∧ capDealloc c = false)) (io : assocFeature s n op c = none) :
    capsuleAdmit s n = enter (takenIn s n) n op c := by
  have io' : assocFeature (takenIn s n) n op c = none :=
    (assocFeature_none_iff ..).mpr ((assocFeature_none_iff ..).mp io)
  unfold capsuleAdmit
  simp only [first, good, packet]
  rw [if_neg (by simp [h3, h4]), if_pos ⟨place, turn⟩, if_neg (by simpa using effect)]
  change (match assocFeature (takenIn s n) n op c with
    | some s => _
    | none => _) = _
  rw [io']
  rfl

end

theorem capsuleAdmit_waits (place : placeFree s n = false) (fresh : (s.qp n).waitAt = none)
    (limit : s.fld (aNq 0) 15 8 ≠ 0) :
    capsuleAdmit s n = (s.setQp n { s.qp n with waitAt := some s.now }).bump (aNq 0x24) := by
  have limit' : ((s.setQp n { s.qp n with waitAt := some s.now }).bump (aNq 0x24)).fld (aNq 0) 15 8 ≠ 0 := by
    rwa [State.fld, State.bump, State.bumpF, State.setF_eq, State.setReg_reg_ne _ _ (by decide), ← State.fld,
      State.setQp_fld]
  unfold capsuleAdmit
  simp only [first]
  rw [if_neg (by simp [h3, h4]), if_neg (by simp [place]), if_neg (by simp [fresh]), if_neg fun h => limit' h.1]

end

section
variable {a : Nat} (since : (s.qp n).waitAt = some a) (range : n < 12288)
include since range

theorem exec_qfullTimeout_waiting : exec (.qfullTimeout n) s =
    .next (if a + ms (s.fld (aNq 0) 15 8) ≤ s.now then fullOut s n c else s) := by
  simp only [exec, execQfullTimeout, first, since]
  exact onOk_next (decide_eq_true range)

end

end

theorem exec_qfullTimeout_idle {s : State} {n : Nat} (range : n < 12288)
    (h : (s.qp n).intake = [] ∨ (s.qp n).waitAt = none) : exec (.qfullTimeout n) s = .next s := by
  simp only [exec, execQfullTimeout]
  split
  · next h1 h2 => simp [h1, h2] at h
  · exact onOk_next (decide_eq_true range)

/-- The full condition is answered with ST_QUEUE_FULL and counted. -/
theorem fullOut_out (s : State) (n : Nat) (c : Capsule) : (fullOut s n c).out =
    onWire s n (s.qp n).psn 0 16 ++ .cqe n c.cid 0 0 (((s.qp n).sqhd + 1) % ((s.qp n).size + 1))
      Status.queueFull.sct Status.queueFull.code Status.queueFull.dnr :: s.out := by
  have regs : ∀ p x, x < 0x20 → ((popCapsule s n).bump (aNq 0x20)).reg (aHpt p x) = s.reg (aHpt p x) := fun p x hx =>
    State.setReg_reg_ne _ _ (aHpt_ne_aNq hx (by decide) (by decide))
  have out : ((popCapsule s n).bump (aNq 0x20)).out = s.out := rfl
  rw [fullOut, postCqe_out, cqeSent_popped s n c (t := (popCapsule s n).bump (aNq 0x20)) rfl regs, List.append_assoc,
    List.singleton_append, out]

theorem fullOut_qp (s : State) (n : Nat) (c : Capsule) : ((fullOut s n c).qp n).intake = ((popCapsule s n).qp n).intake ∧
    ((fullOut s n c).qp n).waitAt = none := by
  rw [fullOut, postCqe_qp]
  exact ⟨rfl, congrArg Qp.waitAt (popCapsule_qp s n)⟩

theorem fullOut_counted (s : State) (n : Nat) (c : Capsule) :
    (fullOut s n c).fld (aNq 0x20) 31 0 = min (s.fld (aNq 0x20) 31 0 + 1) (2 ^ 32 - 1) := by
  rw [fullOut, postCqe_eq]
  change ((popCapsule s n).bump (aNq 0x20)).fld (aNq 0x20) 31 0 = _
  rw [State.bump_fld_self, popCapsule_fld]

end Sys2Proof.Machine
end

section
/-! SUPPORT. A capsule becomes a command, and invalidations end (R333, R338, R372, R387). -/

namespace Sys2Proof.Machine

/-! ### Work in the buffer -/

section
variable {s t u : State}

theorem hostSideOnly.refl : hostSideOnly s s := ⟨rfl, rfl, rfl, rfl, rfl⟩

theorem hostSideOnly.trans (h : hostSideOnly s t) (k : hostSideOnly t u) : hostSideOnly s u := by
  obtain ⟨h1, h2, h3, h4, h5⟩ := h
  obtain ⟨k1, k2, k3, k4, k5⟩ := k
  exact ⟨k1.trans h1, k2.trans h2, k3.trans h3, k4.trans h4, k5.trans h5⟩

/-- A relation between states that holds of every step of a fold holds of the fold. -/
theorem foldl_related {α : Type} {R : State → State → Prop} (refl : ∀ s, R s s) (trans : ∀ {s t u}, R s t → R t u → R s u)
    {f : State → α → State} (step : ∀ s a, R s (f s a)) (l : List α) (s : State) : R s (l.foldl f s) := by
  induction l generalizing s with
  | nil => exact refl s
  | cons a l ih => exact trans (step s a) (ih _)

/-- Nothing has changed but counters, the buffer and the pages written; the scans are the same. -/
structure BufWork (s u : State) : Prop where
  frame : u = { s with regs := u.regs, buf := u.buf, memp := u.memp }
  scans : u.buf.scans = s.buf.scans

namespace BufWork

theorem refl (s : State) : BufWork s s := ⟨rfl, rfl⟩

theorem trans (h : BufWork s t) (k : BufWork t u) : BufWork s u :=
  ⟨by rw [k.frame, h.frame], k.scans.trans h.scans⟩

theorem side (h : BufWork s u) : hostSideOnly s u := by
  rw [h.frame]
  exact .refl

theorem nq (h : BufWork s u) : u.nq = s.nq := by rw [h.frame]

theorem bump (s : State) (a n : Nat) : BufWork s (s.bump a n) := ⟨rfl, rfl⟩

theorem setLine (s : State) (k : Nat) (x : Line) : BufWork s (setLine s k x) := ⟨rfl, rfl⟩

theorem setLineIn (s : State) (p : Place) (x : Line) : BufWork s (setLineIn s p x) := by
  cases p with
  | way k => exact setLine s k x
  | copy i => exact ⟨rfl, rfl⟩

theorem makeEligible (s : State) (p : Nat → Nat → Unit4 → Bool) (urgent : Bool) :
    BufWork s (makeEligible s p urgent) :=
  foldl_related refl trans (fun _ _ => setLineIn _ _ _) _ _

theorem dropLine (s : State) (k : Nat) : BufWork s (dropLine s k) := by
  unfold Machine.dropLine
  dsimp only
  split
  · exact (bump _ _ _).trans (setLine _ _ _)
  · exact setLine _ _ _

theorem leaveIfEmpty (s : State) (k : Nat) : BufWork s (leaveIfEmpty s k) := by
  unfold Machine.leaveIfEmpty
  dsimp only
  split
  · exact dropLine s k
  · exact refl s

theorem trackStream (s : State) (n slba len : Nat) (write : Bool) : BufWork s (trackStream s n slba len write).1 :=
  ⟨rfl, rfl⟩

theorem pageWritten (s : State) (p : Nat) : BufWork s (pageWritten s p) := ⟨rfl, rfl⟩

/-- A frame is free, or a way's clean line makes room. -/
theorem takeFrame {more : List Nat} {r : State × Nat} (h : takeFrame s more = some r) : BufWork s r.1 := by
  unfold Machine.takeFrame at h
  dsimp only at h
  split at h
  · obtain ⟨f, -, rfl⟩ := Option.map_eq_some_iff.mp h
    exact refl s
  · split at h
    · cases h
    · obtain ⟨k, -, rfl⟩ := Option.map_eq_some_iff.mp h
      exact ⟨rfl, rfl⟩

/-- A staging page is in a frame that has room, or in a frame taken for it. -/
theorem takePage {i b : Nat} (h : takePage s i b = some u) : BufWork s u := by
  unfold Machine.takePage at h
  split at h
  · cases h
    exact ⟨rfl, rfl⟩
  · obtain ⟨r, hr, rfl⟩ := Option.map_eq_some_iff.mp h
    exact (takeFrame hr).trans ⟨rfl, rfl⟩

theorem stageAll (s : State) (i : Nat) : BufWork s (stageAll s i) := by
  refine foldl_related refl trans (fun s b => ?_) _ _
  split
  · exact refl s
  · split
    · next t ht =>
      split
      · exact (takePage ht).trans (pageWritten _ _)
      · exact takePage ht
    · exact refl s

end BufWork

end

/-! ### A capsule becomes a command -/

/-- What intake gives a command: its blocks, its waits, its streaming and the units it waits for are worked on from
then on. -/
def Cmd.given (c : Cmd) : Cmd := { c with blks := [], waited := [], stream := false, units := [] }

/-- The start of a new command's work: the executor, the flash, power and the ports are as before, and so are the
queues, and what intake gave each command. -/
structure Entering (s u : State) : Prop where
  side : hostSideOnly s u
  next : u.nq.nextCmd = s.nq.nextCmd
  intake : ∀ n, (u.qp n).intake = (s.qp n).intake
  sqhd : ∀ n, (u.qp n).sqhd = (s.qp n).sqhd
  given : ∀ i, (u.cmd i).given = (s.cmd i).given

section
variable {s t u : State} {i : Nat}

namespace Entering

theorem refl : Entering s s := ⟨.refl, rfl, fun _ => rfl, fun _ => rfl, fun _ => rfl⟩

theorem trans (h : Entering s t) (k : Entering t u) : Entering s u :=
  ⟨h.side.trans k.side, k.next.trans h.next, fun n => (k.intake n).trans (h.intake n), fun n => (k.sqhd n).trans (h.sqhd n),
    fun j => (k.given j).trans (h.given j)⟩

theorem of_nq (side : hostSideOnly s u) (nq : u.nq = s.nq) : Entering s u := by
  refine ⟨side, by rw [nq], fun n => ?_, fun n => ?_, fun j => ?_⟩
  · rw [State.qp, nq, State.qp]
  · rw [State.qp, nq, State.qp]
  · rw [State.cmd, nq, State.cmd]

theorem of_bufWork (h : BufWork s u) : Entering s u := of_nq h.side h.nq

theorem setCmd {x : Cmd} (h : x.given = (s.cmd i).given) : Entering s (s.setCmd i x) := by
  refine ⟨⟨rfl, rfl, rfl, rfl, rfl⟩, rfl, fun _ => rfl, fun _ => rfl, fun j => ?_⟩
  by_cases e : j = i
  · rw [e, State.setCmd_cmd, h]
  · rw [State.setCmd_cmd_ne _ _ e]

theorem sendPkt (n kind cmd blk len : Nat) : Entering s (sendPkt s n kind cmd blk len) := by
  have pair (m : Nat) : ((Machine.sendPkt s n kind cmd blk len).qp m).intake = (s.qp m).intake ∧
      ((Machine.sendPkt s n kind cmd blk len).qp m).sqhd = (s.qp m).sqhd := by
    rw [sendPkt_eq]
    change ((s.setQp n _).qp m).intake = _ ∧ ((s.setQp n _).qp m).sqhd = _
    by_cases e : m = n
    · rw [e, State.setQp_qp]
      exact ⟨rfl, rfl⟩
    · rw [State.setQp_qp_ne _ _ e]
      exact ⟨rfl, rfl⟩
  rw [sendPkt_eq] at *
  exact ⟨⟨rfl, rfl, rfl, rfl, rfl⟩, rfl, fun m => (pair m).1, fun m => (pair m).2, fun _ => rfl⟩

theorem emit (o : Out) : Entering s (s.emit o) := of_nq ⟨rfl, rfl, rfl, rfl, rfl⟩ rfl

theorem bufWait (counter : Nat) : Entering s (bufWait s i counter) := by
  have waits : Entering s (if i ∈ s.buf.waits then s else { s with buf := { s.buf with waits := s.buf.waits ++ [i] } }) := by
    split
    · exact refl
    · exact of_nq .refl rfl
  have count (t : State) : Entering t (if counter = 0 ∨ counter ∈ (t.cmd i).waited then t
      else (t.setCmd i { t.cmd i with waited := counter :: (t.cmd i).waited }).bump (aBuf counter)) := by
    split
    · exact refl
    · exact (setCmd (by rfl)).trans (of_bufWork (.bump _ _ _))
  exact waits.trans (count _)

end Entering

/-- Blocks of a write are fetched: an RDMA Read for each, into a page of staging. -/
theorem entering_fetchBlks (i : Nat) (l : List Nat) (s : State) : Entering s (fetchBlks i l s) := by
  induction l generalizing s with
  | nil => exact .refl
  | cons b l ih =>
    have go (t : State) (c : Cmd) (o : Out) (len : Nat) (x : Blk) : Entering t (fetchBlks i l
        ((sendPkt (t.emit o) c.qp 2 i b len).setCmd i
          (((sendPkt (t.emit o) c.qp 2 i b len).cmd i).setBlk b x))) :=
      (((Entering.emit o).trans (.sendPkt c.qp 2 i b len)).trans (.setCmd (by rfl))).trans (ih _)
    rw [fetchBlks]
    dsimp only
    split
    · exact ih s
    · split
      · exact .refl
      · split
        · exact go _ _ _ _ _
        · split
          · exact .bufWait _
          · next t ht => exact (Entering.of_bufWork (.takePage ht)).trans (go _ _ _ _ _)

/-- A write that is not at its turn only fetches its blocks. -/
theorem entering_writeProgress (turned : (s.cmd i).turned = false) (visible : (s.cmd i).visible = false) :
    Entering s (writeProgress s i) := by
  have fetched := entering_fetchBlks i (List.range (s.cmd i).len) s
  have turned' : ((fetchBlks i (List.range (s.cmd i).len) s).cmd i).turned = false :=
    (congrArg Cmd.turned (fetched.given i)).trans turned
  unfold writeProgress
  dsimp only
  split
  · exact .refl
  · simpa [visible, turned'] using fetched

end

/-! What a command of a class does before its turn, in `enter`'s order. -/

/-- A command with data follows its stream (R385). -/
def followStream (s : State) (i op : Nat) (c : Cmd) : State :=
  if op ∈ dataOps then
    let r := trackStream s c.nsid (capSlba c.cap) c.len (decide (op ≠ 2))
    r.1.setCmd i { r.1.cmd i with stream := streaming r.1 r.2 }
  else s

/-- A Flush waits for what is dirty, and urges it (R375). -/
def urgeUnits (s : State) (i : Nat) (c : Cmd) : State :=
  if c.cls = .fl then
    let us := dirtyOf s c
    makeEligible (s.setCmd i { s.cmd i with units := us }) (fun n b _ => us.contains (n, b)) true
  else s

/-- One that must wait for its turn is counted. -/
def countOrder (s : State) (i : Nat) : State := if turnReady s i then s else s.bump (aNq 0x34)

/-- A write stages what it has and fetches the rest. -/
def fetchWrite (s : State) (i : Nat) (c : Cmd) : State := if c.cls = .wr then writeProgress (stageAll s i) i else s

/-- All of it. -/
def startWork (s : State) (i op : Nat) (c : Cmd) : State :=
  fetchWrite (countOrder (urgeUnits (followStream s i op c) i c) i) i c

section
variable {s : State} {i : Nat} (c : Cmd)

theorem entering_followStream (op : Nat) : Entering s (followStream s i op c) := by
  unfold followStream
  split
  · exact (Entering.of_bufWork (.trackStream _ _ _ _ _)).trans (.setCmd (by rfl))
  · exact .refl

theorem entering_urgeUnits : Entering s (urgeUnits s i c) := by
  unfold urgeUnits
  split
  · exact (Entering.setCmd (by rfl)).trans (.of_bufWork (.makeEligible _ _ _))
  · exact .refl

theorem entering_countOrder : Entering s (countOrder s i) := by
  unfold countOrder
  split
  · exact .refl
  · exact .of_bufWork (.bump _ _ _)

variable (turned : (s.cmd i).turned = false) (visible : (s.cmd i).visible = false)
include turned visible

theorem entering_fetchWrite : Entering s (fetchWrite s i c) := by
  have staged := Entering.of_bufWork (.stageAll s i)
  have kept := staged.given i
  unfold fetchWrite
  split
  · exact staged.trans (entering_writeProgress ((congrArg Cmd.turned kept).trans turned)
      ((congrArg Cmd.visible kept).trans visible))
  · exact .refl

theorem entering_startWork (op : Nat) : Entering s (startWork s i op c) := by
  have before : Entering s (countOrder (urgeUnits (followStream s i op c) i c) i) :=
    ((entering_followStream c op).trans (entering_urgeUnits c)).trans entering_countOrder
  have kept := before.given i
  exact before.trans (entering_fetchWrite c ((congrArg Cmd.turned kept).trans turned)
    ((congrArg Cmd.visible kept).trans visible))

end

/-- A new command with its place in the arrival order, if its class has one (R330). -/
def enteredCmd (s : State) (qp op : Nat) (cap : Capsule) : Cmd :=
  { newCmd s qp op cap with place := if classOf op cap = .none then none else some s.nq.nextPlace }

/-- The new command stands among the commands. -/
def entered (s : State) (qp op : Nat) (cap : Capsule) : State :=
  { s with nq := { s.nq with
    cmds := Tab.to Cmd.none s.nq.cmds s.nq.nextCmd (enteredCmd s qp op cap), nextCmd := s.nq.nextCmd + 1
    nextPlace := if classOf op cap = .none then s.nq.nextPlace else s.nq.nextPlace + 1 } }

section
variable (s : State) (qp op : Nat) (cap : Capsule)

@[simp] theorem entered_cmd : (entered s qp op cap).cmd s.nq.nextCmd = enteredCmd s qp op cap :=
  Tab.at_to_self Cmd.none s.nq.cmds s.nq.nextCmd (enteredCmd s qp op cap)

/-- A command of no class starts its thread at once. -/
theorem enter_unordered (h : classOf op cap = .none) :
    enter s qp op cap = dispatchPacket (entered s qp op cap) op (w32 s.nq.nextCmd) s.nq.nextCmd := by
  have cls : decide ((newCmd s qp op cap).cls ≠ .none) = false := by simpa [newCmd] using h
  simp only [enter, cls, entered, enteredCmd, h, if_true]
  rfl

/-- Any other takes its place, and begins what it may do before its turn. -/
theorem enter_ordered (h : classOf op cap ≠ .none) :
    enter s qp op cap = startWork (entered s qp op cap) s.nq.nextCmd op (enteredCmd s qp op cap) := by
  have cls : decide ((newCmd s qp op cap).cls ≠ .none) = true := by simpa [newCmd] using h
  simp only [enter, cls, entered, enteredCmd, if_neg h, if_true]
  rfl

theorem entering_enter : Entering (entered s qp op cap) (enter s qp op cap) := by
  by_cases h : classOf op cap = .none
  · rw [enter_unordered s qp op cap h, dispatchPacket_frame]
    exact .of_nq ⟨rfl, rfl, rfl, rfl, rfl⟩ rfl
  · have turned : ((entered s qp op cap).cmd s.nq.nextCmd).turned = false := by
      rw [entered_cmd]
      exact decide_eq_false h
    have visible : ((entered s qp op cap).cmd s.nq.nextCmd).visible = false := by
      rw [entered_cmd]
      rfl
    rw [enter_ordered s qp op cap h]
    exact entering_startWork _ turned visible op

/-- What is known of a command that has come in. -/
theorem enter_cmd : ((enter s qp op cap).cmd s.nq.nextCmd).given = (enteredCmd s qp op cap).given := by
  rw [(entering_enter s qp op cap).given, entered_cmd]

end

/-! ### INVALIDATION_SCAN_DONE -/

/-- Discarding units: the executor, the flash, power and the ports are as before, and so are the scans. -/
structure Discarding (s u : State) : Prop where
  side : hostSideOnly s u
  scans : u.buf.scans = s.buf.scans

section
variable {s t u : State} {i : Nat}

namespace Discarding

theorem refl (s : State) : Discarding s s := ⟨.refl, rfl⟩

theorem trans (h : Discarding s t) (k : Discarding t u) : Discarding s u := ⟨h.side.trans k.side, k.scans.trans h.scans⟩

theorem of_bufWork (h : BufWork s u) : Discarding s u := ⟨h.side, h.scans⟩

theorem of_ending (h : Ending s u) : Discarding s u := ⟨h.side, h.scans⟩

theorem setCmd (x : Cmd) : Discarding s (s.setCmd i x) := of_ending (.setCmd x)

theorem tryEnd (s : State) (i : Nat) : Discarding s (tryEnd s i) := by
  unfold Machine.tryEnd
  dsimp only
  split
  · exact refl s
  · split
    · split
      · exact (setCmd _).trans (of_ending (.completeCmd _))
      · exact refl s
    · split
      · exact of_ending (.completeCmd _)
      · exact refl s
    · split
      · exact of_ending (.completeCmd _)
      · exact refl s
    · exact refl s

theorem unitDone (s : State) (n lba : Nat) (who : List Nat) (st : Status) : Discarding s (unitDone s n lba who st) := by
  refine foldl_related refl trans (fun s i => ?_) _ _
  dsimp only
  split
  · exact (setCmd _).trans (tryEnd _ _)
  · exact refl s

theorem discardUnit (s : State) (p : Place) (lba : Nat) (st : Status) : Discarding s (discardUnit s p lba st) := by
  have taken (l : Line) (x : Nat × Nat) (b : Bool) : Discarding s (if b then
      { setLineIn s p l with buf := { (setLineIn s p l).buf with orphans := (setLineIn s p l).buf.orphans ++ [x] } }
      else setLineIn s p l) := by
    cases b with
    | true => exact (of_bufWork (.setLineIn s p l)).trans ⟨.refl, rfl⟩
    | false => exact of_bufWork (.setLineIn s p l)
  unfold Machine.discardUnit
  dsimp only
  split
  · exact ((taken _ _ _).trans (of_bufWork (.bump _ _ _))).trans (unitDone _ _ _ _ _)
  · exact taken _ _ _

theorem invalidate (s : State) (n lo hi : Nat) (st : Status) : Discarding s (invalidate s n lo hi st) := by
  have units (s : State) (p : Place) : Discarding s (((lineIn s p).units.map (·.1)).foldl (fun t u =>
      if lo ≤ 16 * (lineIn s p).line + u ∧ 16 * (lineIn s p).line + u < hi then
        Machine.discardUnit t p (16 * (lineIn s p).line + u) st else t) s) := by
    refine foldl_related refl trans (fun t u => ?_) _ _
    split
    · exact discardUnit _ _ _ _
    · exact refl t
  refine (foldl_related refl trans units _ _).trans (foldl_related refl trans (fun t p => ?_) _ _)
  cases p with
  | way k => exact of_bufWork (.leaveIfEmpty _ _)
  | copy i => exact refl t

theorem invalidateCmd (s : State) (i : Nat) : Discarding s (invalidateCmd s i) :=
  foldl_related refl trans (fun _ _ => invalidate _ _ _ _ _) _ _

end Discarding

theorem scanDone_idle (h : i ∉ s.buf.scans) : scanDone s i = s := if_pos h

/-- The scan is over. -/
def scanEnded (s : State) (i : Nat) : State := { s with buf := { s.buf with scans := s.buf.scans.filter fun j => j ≠ i } }

theorem not_mem_scanEnded : i ∉ (scanEnded s i).buf.scans := by simp [scanEnded]

/-- A deallocate is done when its scan is over. -/
theorem scanDone_deallocate (h : i ∈ s.buf.scans) (live : (s.cmd i).live = true) (cls : (s.cmd i).cls = .iv)
    (op : (s.cmd i).cap.opcode = 9) : scanDone s i =
      (invalidateCmd (scanEnded s i) i).setCmd i { (invalidateCmd (scanEnded s i) i).cmd i with done := true } := by
  rw [scanDone, if_neg (not_not_intro h)]
  change (if !(s.cmd i).live then scanEnded s i
    else if (s.cmd i).cls = .nd then deleteEnds (invalidateDeleted (scanEnded s i)) i
    else if (s.cmd i).cap.opcode = 9 then (invalidateCmd (scanEnded s i) i).setCmd i
      { (invalidateCmd (scanEnded s i) i).cmd i with done := true }
    else invalidateCmd (scanEnded s i) i) = _
  rw [if_neg (by simp [live]), if_neg (by simp [cls]), if_pos op]

end

end Sys2Proof.Machine
end

section
/-! SUPPORT. O46: what the rows of intake and of the turn do, by the lemmas about their functions. -/

namespace Sys2Proof.Machine

/-! ### Intake -/

section
variable {s : State} {n : Nat} {c : Capsule} {rest : List Capsule} (first : (s.qp n).intake = c :: rest)
  (h3 : (s.qp n).state ≠ 3) (h4 : (s.qp n).state ≠ 4)
include first h3 h4

section
variable (place : placeFree s n = true)
  (turn : nextWaiting s (isIoQp n) = none ∨ nextWaiting s (isIoQp n) = some n)
include place turn

/-- A capsule that the checks refuse is answered with their status. -/
theorem capsuleAdmit_refused_effect (bad : intakeCheck s n c ≠ .ok) :
    ((capsuleAdmit s n).qp n).intake = rest ∧
    ((capsuleAdmit s n).qp n).sqhd = ((s.qp n).sqhd + 1) % ((s.qp n).size + 1) ∧
    (capsuleAdmit s n).out = onWire s n (s.qp n).psn 0 16 ++
      .cqe n c.cid 0 0 (((s.qp n).sqhd + 1) % ((s.qp n).size + 1)) (intakeCheck s n c).sct (intakeCheck s n c).code
        (intakeCheck s n c).dnr :: s.out ∧
    capsuleAdmit s n = { s with nq := (capsuleAdmit s n).nq, out := (capsuleAdmit s n).out } := by
  rw [capsuleAdmit_refused s n first h3 h4 place turn bad]
  refine ⟨?_, ?_, ?_, ?_⟩
  · rw [postCqe_qp]
    exact popCapsule_rest s n first
  · rw [postCqe_qp]
    exact congrArg Qp.sqhd (popCapsule_qp s n)
  · rw [postCqe_out, cqeSent_popped s n c (t := takenIn s n) rfl (fun _ _ _ => rfl), List.append_assoc,
      List.singleton_append, takenIn_out]
  · exact queuesAndOut_trans (takenIn_frame s n) (postCqe_frame _ _ _ _ _ _)

/-- One that passes them becomes the next command. -/
theorem capsuleAdmit_enters_effect {op : Nat} (good : intakeCheck s n c = .ok) (packet : packetOp (isIoQp n) c = some op)
    (effect : ¬(op = 9 ∧ capDealloc c = false)) (io : assocFeature s n op c = none) :
    ((capsuleAdmit s n).qp n).intake = rest ∧
    ((capsuleAdmit s n).qp n).sqhd = ((s.qp n).sqhd + 1) % ((s.qp n).size + 1) ∧
    (capsuleAdmit s n).nq.nextCmd = s.nq.nextCmd + 1 ∧
    ((capsuleAdmit s n).cmd s.nq.nextCmd).given = (enteredCmd (takenIn s n) n op c).given ∧
    hostSideOnly s (capsuleAdmit s n) := by
  rw [capsuleAdmit_enters s n first h3 h4 place turn good packet effect io]
  have work := entering_enter (takenIn s n) n op c
  refine ⟨?_, ?_, work.next, enter_cmd (takenIn s n) n op c, work.side⟩
  · rw [work.intake]
    exact popCapsule_rest s n first
  · rw [work.sqhd]
    exact congrArg Qp.sqhd (popCapsule_qp s n)

end

/-- One without a place begins to wait. -/
theorem capsuleAdmit_waits_effect (place : placeFree s n = false) (fresh : (s.qp n).waitAt = none)
    (limit : s.fld (aNq 0) 15 8 ≠ 0) :
    (capsuleAdmit s n).qp n = { s.qp n with waitAt := some s.now } ∧ (∀ m, m ≠ n → (capsuleAdmit s n).qp m = s.qp m) ∧
    (capsuleAdmit s n).fld (aNq 0x24) 31 0 = min (s.fld (aNq 0x24) 31 0 + 1) (2 ^ 32 - 1) ∧
    onlyRegs [aNq 0x24] s { capsuleAdmit s n with nq := s.nq } := by
  rw [capsuleAdmit_waits s n first h3 h4 place fresh limit]
  refine ⟨State.setQp_qp _ _ _, fun m h => State.setQp_qp_ne _ _ h, State.bump_fld_self 1, ?_⟩
  exact onlyRegs_bumpF (s := s) 1 (by simp)

end

/-! ### The turn -/

section
variable {s : State} {i : Nat}

/-- A completion of a host's live command. -/
theorem completes_side {st : Status} (live : (s.cmd i).live = true) (host : (s.cmd i).origin = .host)
    (fresh : (s.cmd i).old = false) :
    completes s (completeCmd s i st) i (s.cmd i).dw0 (s.cmd i).dw1 st ∧ hostSideOnly s (completeCmd s i st) :=
  ⟨completes_completeCmd st live host fresh, (Ending.completeCmd st).side⟩

theorem Status.ok_orElse (st : Status) : Status.ok.orElse st = st := rfl

/-- A command that takes its turn is turned, and its thread starts. -/
theorem takeTurn_effect : (takeTurn s i).cmd i =
      { s.cmd i with turned := true, gen := (s.slot (nsSlot s (s.cmd i).nsid)).gen } ∧
    (∀ j, j ≠ i → (takeTurn s i).cmd j = s.cmd j) ∧
    (∀ th, freeThread s 0 = some th → (thread (takeTurn s i) 0 th).live = true ∧ (thread (takeTurn s i) 0 th).cmd = i ∧
      Tab.at 0 (thread (takeTurn s i) 0 th).g 1 = w32 i) ∧
    takeTurn s i = { s with nq := { s.nq with cmds := (takeTurn s i).nq.cmds }, tl := (takeTurn s i).tl } :=
  ⟨takeTurn_cmd_self s i, fun _ h => takeTurn_cmd_ne s i h, fun _ h => takeTurn_thread s i h, takeTurn_frame s i⟩

/-- A write at its place is turned, and latches the generation of its namespace's slot. -/
theorem writeTurn_placed_effect {lo : Nat} (good : (s.cmd i).status = .ok)
    (place : nsZoned s (s.cmd i).nsid = true ∧ zoneTurn s (s.cmd i) = .ok lo ∨
      nsZoned s (s.cmd i).nsid = false ∧ lo = (s.cmd i).lo)
    (sectors : psaStatus s { s.cmd i with lo := lo } = .ok) :
    ((writeTurn s i).cmd i).turned = true ∧ ((writeTurn s i).cmd i).lo = lo ∧
    ((writeTurn s i).cmd i).gen = (s.slot (nsSlot s (s.cmd i).nsid)).gen ∧ hostSideOnly s (writeTurn s i) := by
  obtain ⟨r, turn, ⟨atLo, ns⟩, frame⟩ := writeTurn_placed good place sectors
  have gen : (r.slot (nsSlot r (r.cmd i).nsid)).gen = (s.slot (nsSlot s (s.cmd i).nsid)).gen := by
    rw [ns, frame]
    rfl
  have side : hostSideOnly s r := by
    rw [frame]
    exact .refl
  rw [turn, takeTurn_cmd_self]
  exact ⟨rfl, atLo, gen, side.trans (takeTurn_side r i)⟩

/-- A deallocate's scan is over. -/
theorem scanDone_deallocate_effect (h : i ∈ s.buf.scans) (live : (s.cmd i).live = true) (cls : (s.cmd i).cls = .iv)
    (op : (s.cmd i).cap.opcode = 9) :
    i ∉ (scanDone s i).buf.scans ∧ ((scanDone s i).cmd i).done = true ∧ hostSideOnly s (scanDone s i) := by
  have work := Discarding.invalidateCmd (scanEnded s i) i
  have cleared : hostSideOnly s (scanEnded s i) := .refl
  rw [scanDone_deallocate h live cls op]
  refine ⟨?_, ?_, cleared.trans work.side⟩
  · change i ∉ (invalidateCmd (scanEnded s i) i).buf.scans
    rw [work.scans]
    exact not_mem_scanEnded
  · rw [State.setCmd_cmd]

end

/-- Settles O46, pair by pair at intake, and command by command at the turn. -/
theorem capsulesAreAdmittedInOrder : Obligations.CapsulesAreAdmittedInOrder := by
  unfold Obligations.CapsulesAreAdmittedInOrder
  intro s
  refine ⟨?_, ?_⟩
  · rintro n q range rfl
    have ok : qpOk n = true := decide_eq_true range
    have receive (c) : exec (.capsuleReceive n c) s = .next (capsuleReceive s n c) := onOk_next ok
    have atIntake : exec (.capsuleAdmit n) s = .next (capsuleAdmit s n) := onOk_next ok
    refine ⟨fun c => ⟨?_, ?_, ?_⟩, ?_, ?_, exec_qfullTimeout_idle range⟩
    · intro h
      rw [receive, capsuleReceive_idle s n c h]
    · intro held h
      rw [receive, capsuleReceive_resetting s n c held h]
      exact ⟨_, rfl, reset_answer s n c rfl⟩
    · intro held h3 h4
      rw [receive, capsuleReceive_held s n c held h3 h4, ackSend_arrived]
      rfl
    · intro h
      rw [atIntake, capsuleAdmit_idle s n h]
    · intro c rest first h3 h4
      rw [atIntake]
      refine ⟨?_, ?_, ?_⟩
      · intro place turn
        refine ⟨fun bad => ⟨_, rfl, capsuleAdmit_refused_effect first h3 h4 place turn bad⟩, ?_⟩
        intro op good packet effect io
        obtain ⟨hi, hs, hn, given, side⟩ := capsuleAdmit_enters_effect first h3 h4 place turn good packet effect io
        exact ⟨_, rfl, hi, hs, hn, congrArg Cmd.live given, congrArg Cmd.cap given, congrArg Cmd.qp given,
          congrArg Cmd.cls given, congrArg Cmd.turned given, congrArg Cmd.place given, side⟩
      · exact fun place fresh limit => ⟨_, rfl, capsuleAdmit_waits_effect first h3 h4 place fresh limit⟩
      · intro a since
        rw [exec_qfullTimeout_waiting s n first since range]
        refine ⟨fun early => by rw [if_neg (by omega)], fun late => ⟨fullOut s n c, by rw [if_pos late], ?_⟩⟩
        obtain ⟨left, gone⟩ := fullOut_qp s n c
        exact ⟨left.trans (popCapsule_rest s n first), gone, fullOut_out s n c, fullOut_counted s n c⟩
  · rintro i c rfl
    have turn : exec (.orderingTurn i) s = .next (orderingTurn s i) := rfl
    have scan : exec (.invalidationScanDone i) s = .next (scanDone s i) := rfl
    rw [turn, scan]
    refine ⟨?_, ?_, ?_, ?_⟩
    · intro h
      rw [orderingTurn_idle h]
    · intro live waits placed host fresh
      have ends {st} := completes_side (st := st) live host fresh
      refine ⟨?_, ?_, ?_⟩
      · intro h
        rw [orderingTurn_behind live waits placed h]
        exact ⟨_, rfl, ends⟩
      · intro ahead h
        rw [orderingTurn_early live waits placed ahead h]
      · intro ahead ready
        refine ⟨?_, ?_, ?_, ?_⟩
        · rintro (⟨cls, good, sectors⟩ | h)
          · have both : (s.cmd i).status.orElse (psaStatus s (s.cmd i)) = .ok := by rw [good, Status.ok_orElse, sectors]
            rw [orderingTurn_read live waits placed ahead ready cls, if_pos both]
            exact ⟨_, rfl, takeTurn_effect⟩
          · rw [orderingTurn_plain live waits placed ahead ready h]
            exact ⟨_, rfl, takeTurn_effect⟩
        · intro st cls good zoned zone
          rw [orderingTurn_wr live waits placed ahead ready cls, writeTurn_zone_error good zoned zone]
          exact ⟨_, rfl, ends⟩
        · intro lo cls good place
          rw [orderingTurn_wr live waits placed ahead ready cls]
          refine ⟨fun sectors => ⟨_, rfl, writeTurn_placed_effect good place sectors⟩, fun sectors => ?_⟩
          rw [writeTurn_barred good place sectors]
          exact ⟨_, rfl, ends⟩
        · rintro st (⟨cls, rfl⟩ | ⟨cls, rfl⟩) bad
          · rw [orderingTurn_read live waits placed ahead ready cls, if_neg bad]
            exact ⟨_, rfl, ends⟩
          · rw [orderingTurn_wr live waits placed ahead ready cls, writeTurn_failed bad]
            exact ⟨_, rfl, ends⟩
    · intro h
      rw [scanDone_idle h]
    · intro h live cls op
      obtain ⟨cleared, done, side⟩ := scanDone_deallocate_effect h live cls op
      exact ⟨_, rfl, cleared, .inl done, side⟩

end Sys2Proof.Machine
end

section
/-! SUPPORT. The namespaces' registers and the commands that ask for a change of their table (R344, R348 to R351). -/

namespace Sys2Proof

/-! ### Fields of a word that is put together -/

theorem fld_or (v w : Word) (hi lo : Nat) : fld (v ||| w) hi lo = fld v hi lo ||| fld w hi lo := by
  apply Nat.eq_of_testBit_eq
  intro i
  rw [Nat.testBit_or, fld_testBit, fld_testBit, fld_testBit, BitVec.getLsbD_or, Bool.and_or_distrib_left]

theorem fld_place_self {hi lo : Nat} (n : Nat) (h : hi < 32) : fld (place hi lo n) hi lo = n % 2 ^ (hi + 1 - lo) := by
  apply Nat.eq_of_testBit_eq
  intro i
  rw [fld_testBit, place_getLsbD, Nat.testBit_mod_two_pow]
  by_cases hi' : i < hi + 1 - lo
  · have : lo + i < 32 ∧ lo + i < hi + 1 := by omega
    simp [hi', this]
  · simp [hi']

theorem fld_place_ne {hi lo hi' lo' : Nat} (n : Nat) (d : hi' < lo ∨ hi < lo') : fld (place hi lo n) hi' lo' = 0 := by
  apply Nat.eq_of_testBit_eq
  intro i
  rw [fld_testBit, place_getLsbD, Nat.zero_testBit]
  by_cases h : i < hi' + 1 - lo' ∧ lo ≤ lo' + i ∧ lo' + i < hi + 1
  · omega
  · simp
    omega

/-! ### Numbers spelled by bytes -/

/-- Each further byte multiplies the bound by 256. -/
theorem foldl_bytes_lt (bs : Payload) (m k : Nat) (h : m < 256 ^ k) :
    bs.foldl (fun a b => a * 256 + b.toNat) m < 256 ^ (k + bs.length) := by
  induction bs generalizing m k with
  | nil => exact h
  | cons b bs ih =>
    have next : m * 256 + b.toNat < 256 ^ (k + 1) := by
      have := b.isLt
      rw [Nat.pow_succ]
      omega
    have e : k + (b :: bs).length = k + 1 + bs.length := by
      rw [List.length_cons]
      omega
    rw [List.foldl_cons, e]
    exact ih _ _ next

theorem beNat_lt (bs : Payload) : beNat bs < 256 ^ bs.length := by
  simpa [beNat] using foldl_bytes_lt bs 0 0 (by decide)

theorem leAt_lt (bs : Payload) (i n : Nat) : leAt bs i n < 256 ^ n := by
  have short : (slice bs i n).reverse.length ≤ n := by simp [slice]
  exact (beNat_lt _).trans_le (Nat.pow_le_pow_right (by decide) short)

namespace Machine

/-! ### Addresses -/

theorem aNs_ne_aNq {n x o : Nat} (h : o < 0x40000) : aNs n x ≠ aNq o := by
  unfold aNs aNq
  omega

theorem aNs_ne {n x y : Nat} (h : x ≠ y) : aNs n x ≠ aNs n y := by
  unfold aNs aNq
  omega

/-! ### Asking for a change -/

section
variable (s : State) (x : NsChange) (i : Nat)

/-- A change that is asked for waits, and NSPERSIST says so. -/
theorem askChange_effect : (askChange s x i).fld (aNq 0x14) 1 0 = 1 ∧
    (askChange s x i).nq = { s.nq with changes := s.nq.changes ++ [(x, i)] } ∧
    onlyRegs [aNq 0x14] s { askChange s x i with nq := s.nq } := by
  refine ⟨?_, rfl, ?_⟩
  · rw [askChange, State.setF_eq, State.setReg_fld_self, fld_setFld_self _ _ (by decide)]
    rfl
  · exact onlyRegs_setReg (s := s) _ (by simp)

/-- Every other register reads as before. -/
theorem askChange_reg {a : Nat} (h : a ≠ aNq 0x14) : (askChange s x i).reg a = s.reg a :=
  State.setReg_reg_ne _ _ h

@[simp] theorem askChange_out : (askChange s x i).out = s.out := rfl

theorem askChange_side : hostSideOnly s (askChange s x i) := .refl

end

/-! ### Admin commands that act -/

section
variable {s : State} {i op : Nat} (f : Capsule → Nat → State)

theorem onAdmin_idle (h : adminIdle s i op) : onAdmin s i op f = .next s := by
  unfold onAdmin
  rw [if_neg]
  rintro ⟨live, turned, cmd, runs⟩
  rcases h with h | h | h | h
  · simp [live] at h
  · simp [turned] at h
  · exact h cmd
  · simp [h] at runs

theorem onAdmin_acts (h : adminCmd s i op) : onAdmin s i op f = .next (f (s.cmd i).cap (s.qp (s.cmd i).qp).cntlid) := by
  obtain ⟨⟨live, -, -, cmd⟩, turned, runs⟩ := h
  unfold onAdmin
  simp [live, turned, cmd, runs]

/-- A live admin command completes with its entry. -/
theorem adminCmd.completes {st : Status} (h : adminCmd s i op) :
    completes s (completeCmd s i st) i (s.cmd i).dw0 (s.cmd i).dw1 st :=
  completes_completeCmd st h.1.1 h.1.2.1 h.1.2.2.1

end

theorem onlyRegs.side {as : List Nat} {s u : State} (h : onlyRegs as s u) : hostSideOnly s u := by
  rw [h.2]
  exact .refl

/-! ### The descriptor of a create (R348) -/

section
variable (s : State) (n : Nat) (c : Capsule)

/-- The first register of a namespace that is not there yet. -/
def candidateWord (c : Capsule) : Word :=
  let at_ (o k : Nat) : Nat := leAt c.data (3840 + o) k
  let guard := if at_ 0 1 = 0 then 0 else leAt c.data 26 1 % 16
  place 29 29 (if c.cdw11 / 2 ^ 24 % 256 = 2 then 1 else 0) ||| place 27 27 guard |||
    place 19 16 (at_ 0 1) ||| place 15 13 (at_ 1 1) ||| place 12 11 (at_ 2 1) ||| place 10 6 (at_ 3 1)

theorem candidateWord_kind : fld (candidateWord c) 19 16 = leAt c.data 3840 1 % 16 := by
  simp [candidateWord, fld_or, fld_place_self, fld_place_ne]

/-- It does not exist, and it is zoned as its CSI says. -/
theorem candidateWord_bits : (candidateWord c).getLsbD 31 = false ∧
    (candidateWord c).getLsbD 29 = decide (c.cdw11 / 2 ^ 24 % 256 = 2) := by
  simp only [candidateWord, BitVec.getLsbD_or, place_getLsbD]
  simp
  split
  · next h => simp [h]
  · next h => simp [h]

/-- The registers of a namespace. -/
def nsRegs6 (n : Nat) : List Nat := [aNs n 0, aNs n 4, aNs n 8, aNs n 0xC, aNs n 0x10, aNs n 0x14]

theorem writeCandidate_only : onlyRegs (nsRegs6 n) s (writeCandidate s n c) :=
  ((((onlyRegs_setReg _ (by simp [nsRegs6])).trans (onlyRegs_setReg _ (by simp [nsRegs6]))).trans
    (onlyRegs_setReg _ (by simp [nsRegs6]))).trans (onlyRegs_setReg _ (by simp [nsRegs6]))).trans
      ((onlyRegs_setReg _ (by simp [nsRegs6])).trans (onlyRegs_setReg _ (by simp [nsRegs6])))

theorem writeCandidate_reg : (writeCandidate s n c).reg (aNs n 0) = candidateWord c ∧
    (writeCandidate s n c).reg (aNs n 4) = (place 31 16 (leAt c.data 3846 2) ||| place 15 0 (leAt c.data 3844 2)) := by
  constructor
  · simp [writeCandidate, State.setReg_reg_ne, aNs_ne, candidateWord]
  · simp [writeCandidate, State.setReg_reg_ne, aNs_ne]

variable {s n c}

/-- The fields that a descriptor within its ranges gives (R348). -/
theorem descriptorOk_ranges (h : descriptorOk c = true) :
    leAt c.data 3840 1 ≤ 4 ∧ (c.cdw11 / 2 ^ 24 % 256 = 0 ∨ c.cdw11 / 2 ^ 24 % 256 = 2) := by
  simp only [descriptorOk, Bool.and_eq_true, decide_eq_true_eq, Nat.add_zero] at h
  tauto

/-- Namespace `n` is not there yet, with the groups and the kind of the descriptor. -/
def described (u : State) (n : Nat) (c : Capsule) : Prop :=
  nsExists u n = false ∧ nsGfirst u n = leAt c.data 3844 2 ∧ nsGcount u n = leAt c.data 3846 2 ∧
    nsKind u n = leAt c.data 3840 1

/-- Bits 28 and 29 of the first register are free. -/
theorem described_of_regs {u : State} (ok : descriptorOk c = true)
    (absent : u.bit (aNs n 0) 31 = false) (kind : u.fld (aNs n 0) 19 16 = fld (candidateWord c) 19 16)
    (groups : u.reg (aNs n 4) = (place 31 16 (leAt c.data 3846 2) ||| place 15 0 (leAt c.data 3844 2))) :
    described u n c := by
  have first := leAt_lt c.data 3844 2
  have count := leAt_lt c.data 3846 2
  have range := (descriptorOk_ranges ok).1
  refine ⟨by simp [nsExists, absent], ?_, ?_, ?_⟩
  · rw [nsGfirst, State.fld, groups, fld_or, fld_place_ne _ (by decide), fld_place_self _ (by decide), Nat.zero_or]
    exact Nat.mod_eq_of_lt first
  · rw [nsGcount, State.fld, groups, fld_or, fld_place_ne (hi := 15) _ (by decide), fld_place_self _ (by decide), Nat.or_zero]
    exact Nat.mod_eq_of_lt count
  · rw [nsKind, kind, candidateWord_kind]
    omega

end

/-! ### NAMESPACE_CREATE -/

/-- A conventional namespace is blanked first (R350). -/
def askBlanking (s : State) (n i : Nat) : State :=
  ({ s with nq := { s.nq with blanking := s.nq.blanking ++ [(n, i)] } } : State).setB (aNs n 0) 28 true

section
variable {s : State} {i n : Nat} {c : Capsule}

theorem askBlanking_side : hostSideOnly s (askBlanking s n i) := .refl

@[simp] theorem askBlanking_out : (askBlanking s n i).out = s.out := rfl

@[simp] theorem askBlanking_nq : (askBlanking s n i).nq = { s.nq with blanking := s.nq.blanking ++ [(n, i)] } := rfl

theorem askBlanking_reg_self : (askBlanking s n i).reg (aNs n 0) = setFld (s.reg (aNs n 0)) 28 28 1 :=
  State.setReg_reg _ _ _

theorem askBlanking_reg_ne {a : Nat} (h : a ≠ aNs n 0) : (askBlanking s n i).reg a = s.reg a :=
  State.setReg_reg_ne _ _ h

theorem namespaceCreate_other (h : c.cdw10 % 16 ≠ 0) : namespaceCreate s i c = s := if_pos h

variable (sel : c.cdw10 % 16 = 0)
include sel

theorem namespaceCreate_noGroups (h : leAt c.data 3846 2 = 0) : namespaceCreate s i c = completeCmd s i .badLength := by
  simp [namespaceCreate, sel, h]

variable (groups : leAt c.data 3846 2 ≠ 0)
include groups

theorem namespaceCreate_badDescriptor (h : descriptorOk c = false) : namespaceCreate s i c = completeCmd s i .badField := by
  simp [namespaceCreate, sel, groups, h]

variable (ok : descriptorOk c = true)
include ok

theorem namespaceCreate_full (h : freeNsid s = none) : namespaceCreate s i c =
    completeCmd s i (if placementOk (writeCandidate s 4097 c) 4097 c then .queueFull else .badField) := by
  simp [namespaceCreate, sel, groups, ok, h]

variable (free : freeNsid s = some n)
include free

theorem namespaceCreate_misplaced (h : placementOk (writeCandidate s n c) n c = false) :
    namespaceCreate s i c = completeCmd s i .badField := by
  simp [namespaceCreate, sel, groups, ok, free, h]

theorem namespaceCreate_placed (h : placementOk (writeCandidate s n c) n c = true) : namespaceCreate s i c =
    if c.cdw11 / 2 ^ 24 % 256 = 2 then askChange (writeCandidate s n c) (.create n) i
    else askBlanking (writeCandidate s n c) n i := by
  have zoned : nsZoned (writeCandidate s n c) n = decide (c.cdw11 / 2 ^ 24 % 256 = 2) := by
    rw [nsZoned, State.bit, (writeCandidate_reg s n c).1, (candidateWord_bits c).2]
  simp [namespaceCreate, sel, groups, ok, free, h, zoned, askBlanking]

end

section
variable {s : State} {i n : Nat} {c : Capsule}

/-- The lowest NSID that no namespace, create or blanking holds. -/
theorem freeNsid_lowest (h : freeNsid s = some n) : (∀ m, 1 ≤ m → m < n → m ∈ holders s) ∧ n ∉ holders s := by
  rw [freeNsid, List.find?_map] at h
  obtain ⟨k, found, rfl⟩ := Option.map_eq_some_iff.mp h
  obtain ⟨unheld, -, lower⟩ := List.find?_range_eq_some.mp found
  refine ⟨fun m h1 hm => ?_, by simpa using unheld⟩
  have taken := lower (m - 1) (by omega)
  rw [Function.comp, Nat.sub_add_cancel h1] at taken
  simpa using taken

/-- The new namespace's registers, before its flash write or its blanking. -/
theorem described_askChange (ok : descriptorOk c = true) : described (askChange (writeCandidate s n c) (.create n) i) n c := by
  have word : (askChange (writeCandidate s n c) (.create n) i).reg (aNs n 0) = candidateWord c :=
    (askChange_reg _ _ _ (aNs_ne_aNq (by decide))).trans (writeCandidate_reg s n c).1
  refine described_of_regs ok ?_ ?_ ((askChange_reg _ _ _ (aNs_ne_aNq (by decide))).trans (writeCandidate_reg s n c).2)
  · rw [State.bit, word, (candidateWord_bits c).1]
  · rw [State.fld, word]

theorem described_askBlanking (ok : descriptorOk c = true) : described (askBlanking (writeCandidate s n c) n i) n c ∧
    (askBlanking (writeCandidate s n c) n i).bit (aNs n 0) 28 = true := by
  have word : (askBlanking (writeCandidate s n c) n i).reg (aNs n 0) = setFld (candidateWord c) 28 28 1 := by
    rw [askBlanking_reg_self, (writeCandidate_reg s n c).1]
  have marked : (askBlanking (writeCandidate s n c) n i).bit (aNs n 0) 28 = true := by
    rw [State.bit, word, setFld_getLsbD _ _ _ _ (by decide), if_pos (by decide)]
    decide
  refine ⟨described_of_regs ok ?_ ?_ ?_, marked⟩
  · rw [State.bit, word, setFld_getLsbD_ne _ _ (by decide) (by decide), (candidateWord_bits c).1]
  · rw [State.fld, word, fld_setFld_ne _ _ (by decide) (by decide)]
  · exact (askBlanking_reg_ne (aNs_ne (by decide))).trans (writeCandidate_reg s n c).2

theorem namespaceCreate_side (s : State) (i : Nat) (c : Capsule) : hostSideOnly s (namespaceCreate s i c) := by
  have ended (st : Status) : hostSideOnly s (completeCmd s i st) := (Ending.completeCmd st).side
  unfold namespaceCreate
  split
  · exact .refl
  · split
    · exact ended _
    · split
      · exact ended _
      · split
        · exact ended _
        · dsimp only
          split
          · exact ended _
          · have written (n : Nat) := (writeCandidate_only s n c).side
            split
            · exact (written _).trans (askChange_side _ _ _)
            · exact (written _).trans askBlanking_side

end

/-! ### NAMESPACE_ATTACH, NAMESPACE_DETACH and BLANKING_DONE -/

section
variable {s : State} {i n : Nat} {c : Capsule} {on : Bool}

theorem attachment_other (h : c.cdw10 % 16 ≠ if on then 0 else 1) : attachment s i c on = s := if_pos h

variable (sel : c.cdw10 % 16 = if on then 0 else 1)
include sel

theorem attachment_refused (h : nsExists s c.nsid = false ∨ nsAttached s c.nsid = on) :
    attachment s i c on = completeCmd s i .badField := by
  rw [attachment, if_neg (not_not_intro sel), if_pos (by simpa using h)]

theorem attachment_asked (there : nsExists s c.nsid = true) (h : nsAttached s c.nsid ≠ on) :
    attachment s i c on = askChange s (if on then .attach c.nsid else .detach c.nsid) i := by
  rw [attachment, if_neg (not_not_intro sel), if_neg (by simp [there, h])]

end

end Machine
end Sys2Proof
end

section
/-! SUPPORT. NS_TABLE_FLASH_WRITE (R350 to R352, R357). -/

namespace Sys2Proof.Machine

/-! ### States that differ in registers -/

/-- Nothing has changed but registers. -/
def regsOnly (s u : State) : Prop := u = { s with regs := u.regs }

section
variable {s t u : State}

theorem regsOnly.trans (h : regsOnly s t) (k : regsOnly t u) : regsOnly s u := by
  unfold regsOnly at *
  rw [k, h]

theorem regsOnly_setReg (a : Nat) (w : Word) : regsOnly s (s.setReg a w) := rfl

theorem regsOnly_retireChanged (s : State) : regsOnly s (retireChanged s) := rfl

theorem regsOnly_clearNs (n : Nat) : regsOnly s (clearNs s n) :=
  foldl_related (R := regsOnly) (fun _ => rfl) .trans (fun _ _ => regsOnly_setReg _ _) _ s

theorem clearNs_reg_first (n : Nat) : (clearNs s n).reg (aNs n 0) = 0 := by
  simp [clearNs, List.range_succ, State.setReg_reg_ne, aNs_ne]

theorem regsOnly_clearStale (n : Nat) : regsOnly s (clearStale s n) := by
  have counted (t : State) (h : regsOnly s t) : regsOnly s (if t.regs = s.regs then s else retireChanged t) := by
    split
    · rfl
    · exact h.trans (regsOnly_retireChanged t)
  exact counted _ (foldl_related (R := regsOnly) (fun _ => rfl) .trans
    (fun _ _ => foldl_related (R := regsOnly) (fun _ => rfl) .trans (fun _ _ => regsOnly_setReg _ _) _ _) _ s)

end

/-! ### The flash copy -/

/-- A table with the entries of some keys alone reads the same at these keys. -/
theorem Tab.get_filter_key {α : Type} (d : Nat → α) (p : Nat × α → Bool) (q : Nat → Bool) (key : ∀ e, p e = q e.1)
    {k : Nat} (h : q k = true) (t : Tab α) : Tab.get d (t.filter p) k = Tab.get d t k := by
  induction t with
  | nil => rfl
  | cons e t ih =>
    obtain ⟨j, v⟩ := e
    by_cases hj : k = j
    · subst hj
      rw [List.filter_cons_of_pos (by rw [key]; exact h)]
      simp [Tab.get]
    · by_cases hp : p (j, v) = true
      · rw [List.filter_cons_of_pos hp]
        simpa [Tab.get, hj] using ih
      · rw [List.filter_cons_of_neg hp]
        simpa [Tab.get, hj] using ih

/-- What an unlisted key reads as matters at that key alone. -/
theorem Tab.get_default {α : Type} (d e : Nat → α) {k : Nat} (h : d k = e k) (t : Tab α) :
    Tab.get d t k = Tab.get e t k := by
  induction t with
  | nil => exact h
  | cons x t ih =>
    unfold Tab.get
    rw [ih]

/-- Of the NQ block's registers only single ones below the namespaces have a reset value. -/
theorem rowsNq_reset (r : RegRow) (h : r ∈ rowsNq) : r.reset = 0 ∨ r.s1 = 0 ∧ r.s2 = 0 ∧ r.base < 0x40000 := by
  have single (o : Nat) (a : Acc) (k : Keep) (v m : Nat) (l : List Range) (low : o < 0x40000) :
      (reg1 o a k v m l).reset = 0 ∨ (reg1 o a k v m l).s1 = 0 ∧ (reg1 o a k v m l).s2 = 0 ∧
        (reg1 o a k v m l).base < 0x40000 := .inr ⟨rfl, rfl, low⟩
  simp only [rowsNq, List.mem_cons, List.not_mem_nil, or_false] at h
  rcases h with rfl | rfl | rfl | rfl | rfl | rfl | rfl | rfl | rfl
  case inr.inr.inr.inr.inr.inr.inl => exact .inl rfl
  case inr.inr.inr.inr.inr.inr.inr.inl => exact .inl rfl
  case inr.inr.inr.inr.inr.inr.inr.inr => exact .inl rfl
  all_goals exact single _ _ _ _ _ _ (by decide)

theorem resetVal_aNs (p : Part) {m o : Nat} (h1 : 1 ≤ m) (h2 : m ≤ 4096) (ho : o < 32) : resetVal p (aNs m o) = 0 := by
  have place : blkOf (aNs m o) = some (.nq, 0x40000 + 32 * (m - 1) + o) := by
    have low : aNs m o = 0x200000 + (0x40000 + 32 * (m - 1) + o) := by
      unfold aNs aNq
      omega
    rw [low]
    unfold blkOf
    iterate 8 rw [if_neg (by omega)]
    rw [if_pos (by omega), Nat.add_sub_cancel_left]
  have row : regRow p (aNs m o) = rowsNq.find? fun r => r.hit (0x40000 + 32 * (m - 1) + o) := by
    rw [regRow, place]
    rfl
  unfold resetVal
  rw [row]
  split
  · next r found =>
    have hit := List.find?_some found
    rcases rowsNq_reset r (List.mem_of_find?_eq_some found) with zero | ⟨s1, s2, low⟩
    · exact zero
    · simp [RegRow.hit, s1, s2] at hit
      omega
  · rfl

/-- The flash copy of a namespace that exists holds its registers. -/
theorem nsTable_reg {s : State} {m j : Nat} (h1 : 1 ≤ m) (h2 : m ≤ 4096) (hj : j < 8) (there : nsExists s m = true) :
    Tab.at 0 (nsTable s) (aNs m (4 * j)) = s.reg (aNs m (4 * j)) := by
  have bit : s.bit (aNs m 0) 31 = true := by
    simp only [nsExists, Bool.and_eq_true] at there
    exact there.2
  have first : aNs m (4 * j) - (aNs m (4 * j) - aNq 0x40000) % 32 = aNs m 0 := by
    unfold aNs aNq
    omega
  have low : aNq 0x40000 ≤ aNs m (4 * j) ∧ aNs m (4 * j) < aNq 0x60000 := by
    unfold aNs aNq
    omega
  rw [Tab.at, nsTable, Tab.get_filter_key _ _ (fun k => decide (aNq 0x40000 ≤ k) && decide (k < aNq 0x60000) &&
    s.bit (k - (k - aNq 0x40000) % 32) 31) (fun _ => rfl) (by simp [low, first, bit])]
  exact Tab.get_default _ _ (resetVal_aNs _ h1 h2 (by omega)).symm _

/-! ### Notices after the write -/

section
variable {s : State} {n x : Nat}

theorem noticeReg_aNs (h1 : 1 ≤ n) (h2 : n ≤ 4096) (hx : x < 32) : noticeReg (aNs n x) = false := by
  simp only [noticeReg, irqSpace, Bool.or_eq_false_iff, decide_eq_false_iff_not]
  unfold aNs aNq aOwl
  omega

theorem persistLevel_notices (s : State) : onlyNotices s (persistLevel s) := irqLevel_notices _ _ _ _

theorem persistLevel_nq (s : State) : (persistLevel s).nq = s.nq := by rw [(persistLevel_notices s).1]

theorem persistLevel_flash (s : State) : (persistLevel s).flash = s.flash := by rw [(persistLevel_notices s).1]

theorem persistLevel_out (s : State) : s.out <:+ (persistLevel s).out := (persistLevel_notices s).2.1

theorem persistLevel_reg {a : Nat} (h : noticeReg a = false) : (persistLevel s).reg a = s.reg a :=
  (persistLevel_notices s).2.2 a (by simp) h

end

/-! ### The events of a change -/

section
variable {s : State} {i : Nat}

theorem ending_deliverEvents (c : Nat) (evs : List Nat) (s : State) : Ending s (deliverEvents c evs s) := by
  induction evs generalizing s with
  | nil => exact .refl
  | cons ev evs ih =>
    rw [deliverEvents]
    dsimp only
    split
    · exact .refl
    · exact (((Ending.setAssoc _).trans (.setCmd _)).trans (.completeCmd _)).trans (ih _)

theorem ending_postEvent (c ev enable : Nat) : Ending s (postEvent s c ev enable) := by
  unfold postEvent
  dsimp only
  split
  · exact .refl
  · exact (Ending.setAssoc _).trans (ending_deliverEvents _ _ _)

theorem ending_nsEvent (s : State) : Ending s (nsEvent s) := by
  refine foldl_related (fun _ => .refl) .trans (fun s c => ?_) _ _
  split
  · exact .refl
  · exact ending_postEvent _ _ _

theorem Ending.completeDw0 (dw0 : Nat) : Ending s (completeDw0 s i dw0) := (Ending.setCmd _).trans (.completeCmd _)

/-- A command that ends leaves the namespaces' registers as they are. -/
theorem Ending.reg_aNs {u : State} (h : Ending s u) (n x : Nat) : u.reg (aNs n x) = s.reg (aNs n x) :=
  h.regs _ (by simp [aNs_ne_aNq])

end

/-! ### The write -/

/-- The change at the front has been taken. -/
def taken (s : State) (rest : List (NsChange × Nat)) : State := { s with nq := { s.nq with changes := rest } }

/-- The flash copy is the table, and NSPERSIST says what is still to be written. -/
def tableStored (t : State) (still : Nat) : State :=
  (({ t with flash := { t.flash with ns := nsTable t, bad := t.flash.bad.filter fun b => b ≠ 2 } } : State).bumpF
    (aNq 0x14) 31 16 1).setF (aNq 0x14) 1 0 still

/-- The table has been written. -/
def tableWritten (t : State) (still : Nat) : State := persistLevel (tableStored t still)

/-- The table could not be written. -/
def tableFailed (t : State) (i : Nat) : State :=
  persistLevel ((completeCmd (owlHub t 0x7002 0 0 2 0 0) i .storeBusy).setF (aNq 0x14) 1 0 2)

section
variable {s t : State} {i still : Nat} {x : NsChange} {rest : List (NsChange × Nat)}

theorem tableWrite_idle (ok : Bool) (h : s.nq.changes = []) : tableWrite s ok = s := by
  unfold tableWrite
  rw [h]

section
variable (h : s.nq.changes = (x, i) :: rest)
include h

theorem tableWrite_true :
    tableWrite s true = tableWritten (applyChange (taken s rest) x i) (if rest = [] then 0 else 1) := by
  simp only [tableWrite, h, if_true, tableWritten, tableStored, taken]

theorem tableWrite_false_create {n : Nat} (hx : x = .create n) :
    tableWrite s false = tableFailed (clearNs (taken s rest) n) i := by
  subst hx
  simp only [tableWrite, h, Bool.false_eq_true, if_false, tableFailed, taken]

theorem tableWrite_false (hx : ∀ n, x ≠ .create n) : tableWrite s false = tableFailed (taken s rest) i := by
  cases x with
  | create n => exact absurd rfl (hx n)
  | _ => simp only [tableWrite, h, Bool.false_eq_true, if_false, tableFailed, taken]

end

theorem tableWritten_nq : (tableWritten t still).nq = t.nq := persistLevel_nq _

theorem tableWritten_flash : (tableWritten t still).flash.ns = nsTable t := by
  rw [tableWritten, persistLevel_flash]
  rfl

theorem tableStored_out : (tableStored t still).out = t.out := rfl

theorem tableWritten_out : t.out <:+ (tableWritten t still).out := by
  have h := persistLevel_out (tableStored t still)
  rwa [tableStored_out] at h

theorem tableWritten_cmd (j : Nat) : (tableWritten t still).cmd j = t.cmd j := by
  rw [State.cmd, tableWritten_nq, State.cmd]

theorem tableWritten_persist (h : still < 4) : (tableWritten t still).fld (aNq 0x14) 1 0 = still := by
  rw [tableWritten, State.fld, persistLevel_reg (by decide), tableStored, State.setF_eq, State.setReg_reg,
    fld_setFld_self _ _ (by decide)]
  exact Nat.mod_eq_of_lt h

theorem tableWritten_reg {a : Nat} (h : noticeReg a = false) (ha : a ≠ aNq 0x14) :
    (tableWritten t still).reg a = t.reg a := by
  rw [tableWritten, persistLevel_reg h, tableStored, State.setF_eq, State.setReg_reg_ne _ _ ha]
  exact State.setReg_reg_ne _ _ ha

theorem tableWritten_reg_aNs {m x : Nat} (h1 : 1 ≤ m) (h2 : m ≤ 4096) (hx : x < 32) :
    (tableWritten t still).reg (aNs m x) = t.reg (aNs m x) :=
  tableWritten_reg (noticeReg_aNs h1 h2 hx) (aNs_ne_aNq (by decide))

/-! ### A write that fails -/

/-- The change's command has ended. -/
def failedEnd (t : State) (i : Nat) : State := completeCmd (owlHub t 0x7002 0 0 2 0 0) i .storeBusy

theorem tableFailed_nq : (tableFailed t i).nq = (failedEnd t i).nq := persistLevel_nq _

theorem tableFailed_out : (failedEnd t i).out <:+ (tableFailed t i).out := by
  have h := persistLevel_out ((failedEnd t i).setF (aNq 0x14) 1 0 2)
  rwa [State.setF_eq, State.setReg_out] at h

theorem tableFailed_flash : (tableFailed t i).flash = t.flash := by
  have kept := (Ending.completeCmd (s := owlHub t 0x7002 0 0 2 0 0) (i := i) .storeBusy).side.2.1
  rw [tableFailed, persistLevel_flash, State.setF_eq, State.setReg_flash, kept, owlHub_flash]

theorem tableFailed_persist : (tableFailed t i).fld (aNq 0x14) 1 0 = 2 := by
  rw [tableFailed, State.fld, persistLevel_reg (by decide), State.setF_eq, State.setReg_reg, fld_setFld_self _ _ (by decide)]
  rfl

theorem tableFailed_reg_aNs {m x : Nat} (h1 : 1 ≤ m) (h2 : m ≤ 4096) (hx : x < 32) :
    (tableFailed t i).reg (aNs m x) = t.reg (aNs m x) := by
  have plain := noticeReg_aNs h1 h2 hx
  rw [tableFailed, persistLevel_reg plain, State.setF_eq, State.setReg_reg_ne _ _ (aNs_ne_aNq (by decide)),
    (Ending.completeCmd _).reg_aNs, owlHub_reg _ _ _ _ _ _ plain]

theorem tableFailed_changes : (tableFailed t i).nq.changes = t.nq.changes := by
  rw [tableFailed_nq, failedEnd, (Ending.completeCmd _).changes, owlHub_nq]

theorem tableFailed_cmd_live : ((tableFailed t i).cmd i).live = false := by
  rw [State.cmd, tableFailed_nq]
  exact completeCmd_cmd_live _

theorem tableFailed_cqe (live : (t.cmd i).live = true) (host : (t.cmd i).origin = .host) (fresh : (t.cmd i).old = false) :
    .cqe (t.cmd i).qp (t.cmd i).cap.cid (t.cmd i).dw0 (t.cmd i).dw1 (t.qp (t.cmd i).qp).sqhd
      Status.storeBusy.sct Status.storeBusy.code Status.storeBusy.dnr ∈ (tableFailed t i).out := by
  have cmd : (owlHub t 0x7002 0 0 2 0 0).cmd i = t.cmd i := by rw [State.cmd, owlHub_nq, State.cmd]
  have qp (n : Nat) : (owlHub t 0x7002 0 0 2 0 0).qp n = t.qp n := by rw [State.qp, owlHub_nq, State.qp]
  have sent := cqe_mem_completeCmd (s := owlHub t 0x7002 0 0 2 0 0) (i := i) .storeBusy (by rw [cmd, live])
    (by rw [cmd, host]) (by rw [cmd, fresh])
  rw [cmd, qp] at sent
  exact tableFailed_out.subset sent

end

/-! ### A change that takes effect -/

section
variable {s : State} {i n : Nat}

/-- A namespace exists and is detached; the count follows. -/
def created (s : State) (n : Nat) : State :=
  countNs (clearZones (s.setF (aNs n 0) 31 28 (8 + s.fld (aNs n 0) 29 29 * 2)) n)

theorem applyChange_create : applyChange s (.create n) i = completeDw0 (created s n) i n := rfl

theorem clearZones_reg (a : Nat) : (clearZones s n).reg a = s.reg a := rfl

@[simp] theorem taken_cmd (rest : List (NsChange × Nat)) (j : Nat) : (taken s rest).cmd j = s.cmd j := rfl

@[simp] theorem taken_qp (rest : List (NsChange × Nat)) (m : Nat) : (taken s rest).qp m = s.qp m := rfl

@[simp] theorem State.setReg_cmd (a : Nat) (w : Word) (j : Nat) : (s.setReg a w).cmd j = s.cmd j := rfl

@[simp] theorem State.setReg_qp (a : Nat) (w : Word) (m : Nat) : (s.setReg a w).qp m = s.qp m := rfl

@[simp] theorem clearZones_cmd (j : Nat) : (clearZones s n).cmd j = s.cmd j := rfl

@[simp] theorem clearZones_qp (m : Nat) : (clearZones s n).qp m = s.qp m := rfl

@[simp] theorem created_cmd (j : Nat) : (created s n).cmd j = s.cmd j := by simp [created, countNs]

@[simp] theorem created_qp (m : Nat) : (created s n).qp m = s.qp m := by simp [created, countNs]

theorem created_reg_first : (created s n).reg (aNs n 0) =
    setFld (s.reg (aNs n 0)) 31 28 (8 + s.fld (aNs n 0) 29 29 * 2) := by
  rw [created, countNs, State.setReg_reg_ne _ _ (aNs_ne_aNq (by decide)), clearZones_reg, State.setF_eq, State.setReg_reg]

/-- Bit 31 is set and bit 30 clear, as bit 29 stays. -/
theorem created_bits : (created s n).bit (aNs n 0) 31 = true ∧ (created s n).bit (aNs n 0) 30 = false := by
  have range : s.fld (aNs n 0) 29 29 < 2 := Nat.mod_lt _ (by decide)
  rw [State.bit, State.bit, created_reg_first, setFld_getLsbD _ _ _ _ (by decide), setFld_getLsbD _ _ _ _ (by decide),
    if_pos (by decide), if_pos (by decide)]
  interval_cases s.fld (aNs n 0) 29 29
  · decide
  · decide

/-- The namespaces that exist are read off their first registers. -/
theorem nsExists_congr {u : State} (m : Nat) (h : u.reg (aNs m 0) = s.reg (aNs m 0)) : nsExists u m = nsExists s m := by
  rw [nsExists, State.bit, h, nsExists, State.bit]

theorem nsList_congr {u : State} (h : ∀ m, 1 ≤ m → m ≤ 4096 → u.reg (aNs m 0) = s.reg (aNs m 0)) : nsList u = nsList s := by
  refine List.filterMap_congr fun m hm => ?_
  rw [nsExists_congr (m + 1) (h _ (by omega) (by simpa using hm))]

theorem created_count : (created s n).reg (aNq 0x10) = w32 (nsList (created s n)).length := by
  have same : nsList (created s n) = nsList (clearZones (s.setF (aNs n 0) 31 28 (8 + s.fld (aNs n 0) 29 29 * 2)) n) :=
    nsList_congr fun m _ _ => State.setReg_reg_ne _ _ (aNs_ne_aNq (by decide))
  rw [same]
  exact State.setReg_reg _ _ _

theorem completeDw0_cmd_live (dw0 : Nat) : ((completeDw0 s i dw0).cmd i).live = false := completeCmd_cmd_live _

theorem cqe_mem_completeDw0 (dw0 : Nat) (live : (s.cmd i).live = true) (host : (s.cmd i).origin = .host)
    (fresh : (s.cmd i).old = false) : .cqe (s.cmd i).qp (s.cmd i).cap.cid dw0 (s.cmd i).dw1 (s.qp (s.cmd i).qp).sqhd
      Status.ok.sct Status.ok.code Status.ok.dnr ∈ (completeDw0 s i dw0).out := by
  have cmd := s.setCmd_cmd i { s.cmd i with dw0 := dw0 }
  have sent := cqe_mem_completeCmd (s := s.setCmd i { s.cmd i with dw0 := dw0 }) (i := i) .ok (by rw [cmd, live])
    (by rw [cmd, host]) (by rw [cmd, fresh])
  rwa [cmd] at sent

/-! ### A delete -/

theorem invalidateDeleted_empty (lines : s.buf.lines = []) (copies : s.buf.copies = []) : invalidateDeleted s = s := by
  unfold invalidateDeleted
  rw [lines, copies]
  rfl

/-- A namespace has left the table; the count follows. -/
def deleted (s : State) (n : Nat) : State := countNs (removeNs s n)

theorem removeNs_frame : removeNs s n = { s with
    regs := (removeNs s n).regs
    nq := { s.nq with
      zones := (removeNs s n).nq.zones, reached := (removeNs s n).nq.reached, recorded := (removeNs s n).nq.recorded } } := by
  have stale := regsOnly_clearStale (s := s) n
  have cleared := regsOnly_clearNs (s := clearZones (clearStale s n) n) n
  unfold regsOnly at stale cleared
  rw [removeNs, cleared, clearZones, stale]

theorem removeNs_buf : (removeNs s n).buf = s.buf := by rw [removeNs_frame]

theorem removeNs_changes : (removeNs s n).nq.changes = s.nq.changes := by rw [removeNs_frame]

theorem deleted_buf : (deleted s n).buf = s.buf := by rw [deleted, countNs, State.setReg_buf, removeNs_buf]

theorem deleted_changes : (deleted s n).nq.changes = s.nq.changes := by
  rw [deleted, countNs, State.setReg_nq, removeNs_changes]

theorem deleted_absent : nsExists (deleted s n) n = false := by
  have first : (deleted s n).reg (aNs n 0) = 0 := by
    rw [deleted, countNs, State.setReg_reg_ne _ _ (aNs_ne_aNq (by decide)), removeNs, clearNs_reg_first]
  simp [nsExists, State.bit, first]

/-- The delete of one namespace that fits one walk of an empty buffer completes at once. -/
theorem applyChange_delete (h2 : n ≤ 4096) (small : (nsSize s n + 15) / 16 ≤ 65536) (lines : s.buf.lines = [])
    (copies : s.buf.copies = []) : applyChange s (.delete n) i = completeCmd (deleted s n) i .ok := by
  have one : n ≠ allNs := by
    unfold allNs
    omega
  have emptied : invalidateDeleted (deleted s n) = deleted s n :=
    invalidateDeleted_empty (by rw [deleted_buf, lines]) (by rw [deleted_buf, copies])
  have big : ¬ 65536 < (nsSize s n + 15) / 16 := by omega
  simp only [applyChange, if_neg one, List.any_cons, List.any_nil, decide_eq_false big, Bool.or_false, List.foldl_cons,
    List.foldl_nil, Bool.false_eq_true, if_false, deleteEnds]
  rw [← deleted, emptied]

end

end Sys2Proof.Machine
end

section
/-! SUPPORT. O49: what the rows of the namespaces do, and the obligation. -/

namespace Sys2Proof.Machine

section
variable {s : State} {i op n : Nat}

/-- An admin row whose effect is nothing changes nothing. -/
theorem onAdmin_same (f : Capsule → Nat → State) (h : ∀ id, f (s.cmd i).cap id = s) : onAdmin s i op f = .next s := by
  unfold onAdmin
  dsimp only
  split
  · rw [h]
  · rfl

/-! ### NAMESPACE_CREATE and NAMESPACE_DELETE -/

/-- A create that can be placed waits for the flash write when it is zoned, and is blanked first otherwise. -/
theorem namespaceCreate_placed_effect {c : Capsule} (sel : c.cdw10 % 16 = 0) (groups : leAt c.data 3846 2 ≠ 0)
    (ok : descriptorOk c = true) (free : freeNsid s = some n) (h : placementOk (writeCandidate s n c) n c = true) :
    (namespaceCreate s i c).out = s.out ∧ described (namespaceCreate s i c) n c ∧
    (c.cdw11 / 2 ^ 24 % 256 = 2 → (namespaceCreate s i c).nq.changes = s.nq.changes ++ [(.create n, i)] ∧
      (namespaceCreate s i c).nq.blanking = s.nq.blanking ∧ (namespaceCreate s i c).fld (aNq 0x14) 1 0 = 1) ∧
    (c.cdw11 / 2 ^ 24 % 256 = 0 → (namespaceCreate s i c).nq.changes = s.nq.changes ∧
      (namespaceCreate s i c).nq.blanking = s.nq.blanking ++ [(n, i)] ∧
      (namespaceCreate s i c).bit (aNs n 0) 28 = true) := by
  rw [namespaceCreate_placed sel groups ok free h]
  have written := (writeCandidate_only s n c).2
  have out : (writeCandidate s n c).out = s.out := by rw [written]
  have nq : (writeCandidate s n c).nq = s.nq := by rw [written]
  split
  · next zoned =>
    obtain ⟨persist, asked, -⟩ := askChange_effect (writeCandidate s n c) (.create n) i
    rw [askChange_out, out, asked, nq]
    exact ⟨rfl, described_askChange ok, fun _ => ⟨rfl, rfl, persist⟩, fun h => absurd (zoned.symm.trans h) (by decide)⟩
  · next conventional =>
    obtain ⟨there, marked⟩ := described_askBlanking (s := s) (n := n) (i := i) ok
    rw [askBlanking_out, out, askBlanking_nq, nq]
    exact ⟨rfl, there, fun h => absurd h conventional, fun _ => ⟨rfl, rfl, marked⟩⟩

/-! The rows as admin rows. -/

theorem exec_namespaceCreate_row : exec (.namespaceCreate i) s = onAdmin s i 0x8D fun c _ => namespaceCreate s i c := rfl

theorem exec_namespaceDelete_row : exec (.namespaceDelete i) s = onAdmin s i 0x8D fun c _ =>
    if c.cdw10 % 16 = 1 ∧ !(s.buf.scans.contains i) then askChange s (.delete c.nsid) i else s := rfl

theorem exec_namespaceAttach_row : exec (.namespaceAttach i) s = onAdmin s i 0x95 fun c _ => attachment s i c true := rfl

theorem exec_namespaceDetach_row : exec (.namespaceDetach i) s = onAdmin s i 0x95 fun c _ => attachment s i c false := rfl

theorem exec_namespaceDelete (h : adminCmd s i 0x8D) (sel : (s.cmd i).cap.cdw10 % 16 = 1) :
    exec (.namespaceDelete i) s = .next
      (if i ∈ s.buf.scans then s else askChange s (.delete (s.cmd i).cap.nsid) i) := by
  rw [exec_namespaceDelete_row, onAdmin_acts _ h]
  by_cases m : i ∈ s.buf.scans
  · simp [m]
  · simp [sel, m]

/-! ### NAMESPACE_ATTACH and NAMESPACE_DETACH -/

/-- An attachment that the namespace's state does not allow ends at once; any other waits for the flash write. -/
theorem attachment_effect {on : Bool} (h : adminCmd s i 0x95) (sel : (s.cmd i).cap.cdw10 % 16 = if on then 0 else 1) :
    ((nsExists s (s.cmd i).cap.nsid = false ∨ nsAttached s (s.cmd i).cap.nsid = on) →
      ∃ u, Host.Outcome.next (attachment s i (s.cmd i).cap on) = (.next u : Res) ∧
        completes s u i (s.cmd i).dw0 (s.cmd i).dw1 .badField ∧ hostSideOnly s u) ∧
    (nsExists s (s.cmd i).cap.nsid = true → nsAttached s (s.cmd i).cap.nsid = !on →
      ∃ u, Host.Outcome.next (attachment s i (s.cmd i).cap on) = (.next u : Res) ∧ u.fld (aNq 0x14) 1 0 = 1 ∧
        u.nq = { s.nq with changes := s.nq.changes ++
          [(if on then .attach (s.cmd i).cap.nsid else .detach (s.cmd i).cap.nsid, i)] } ∧
        onlyRegs [aNq 0x14] s { u with nq := s.nq }) := by
  constructor
  · intro refused
    rw [attachment_refused sel refused]
    exact ⟨_, rfl, h.completes, (Ending.completeCmd _).side⟩
  · intro there other
    rw [attachment_asked sel there (by rw [other]; exact Bool.not_ne_self on)]
    exact ⟨_, rfl, askChange_effect _ _ _⟩

/-! ### BLANKING_DONE -/

section
variable (h1 : 1 ≤ n) (h2 : n ≤ 4096)
include h1 h2

theorem exec_blankingDone_none (h : ∀ e ∈ s.nq.blanking, e.1 ≠ n) : exec (.blankingDone n) s = .next s := by
  have none : (s.nq.blanking.find? fun e => decide (e.1 = n)) = none := by simpa using h
  simp only [exec, execBlankingDone, none]
  exact onOk_next (by simp [h1, h2])

theorem exec_blankingDone_out (h : ∃ t ∈ nsTiles s n, s.linkUp t = false ∨ Tab.at 0 s.power.bring t ≠ 0) :
    exec (.blankingDone n) s = .next s := by
  have absent : ((nsTiles s n).all fun t => s.linkUp t && decide (Tab.at 0 s.power.bring t = 0)) = false := by
    obtain ⟨t, ht, down⟩ := h
    refine List.all_eq_false.mpr ⟨t, ht, ?_⟩
    rcases down with down | down
    · simp [down]
    · simp [down]
  simp only [exec, execBlankingDone, absent]
  split
  · exact onOk_next (by simp [h1, h2])
  · exact onOk_next (by simp [h1, h2])

/-- A namespace that has been blanked waits for the flash write. -/
def blanked (s : State) (n j : Nat) : State :=
  askChange (({ s with nq := { s.nq with blanking := [] } } : State).setB (aNs n 0) 28 false) (.create n) j

theorem exec_blankingDone_last {j : Nat} (h : s.nq.blanking = [(n, j)])
    (up : ∀ t ∈ nsTiles s n, s.linkUp t = true ∧ Tab.at 0 s.power.bring t = 0) :
    exec (.blankingDone n) s = .next (blanked s n j) := by
  have all : ((nsTiles s n).all fun t => s.linkUp t && decide (Tab.at 0 s.power.bring t = 0)) = true :=
    List.all_eq_true.mpr fun t ht => by simp [up t ht]
  have first : (s.nq.blanking.find? fun e => decide (e.1 = n)) = some (n, j) := by simp [h]
  have rest : (s.nq.blanking.filter fun x => x ≠ (n, j)) = [] := by simp [h]
  simp only [exec, execBlankingDone, first, all, if_true, rest]
  exact onOk_next (by simp [h1, h2])

end

theorem blanked_effect (s : State) (n j : Nat) : (blanked s n j).bit (aNs n 0) 28 = false ∧
    (blanked s n j).fld (aNq 0x14) 1 0 = 1 ∧
    (blanked s n j).nq = { s.nq with blanking := [], changes := s.nq.changes ++ [(.create n, j)] } ∧
    onlyRegs [aNs n 0, aNq 0x14] s { blanked s n j with nq := s.nq } := by
  refine ⟨?_, (askChange_effect _ _ _).1, rfl, ?_⟩
  · rw [State.bit, blanked, askChange_reg _ _ _ (aNs_ne_aNq (by decide)), State.setB, State.setF_eq, State.setReg_reg,
      setFld_getLsbD _ _ _ _ (by decide), if_pos (by decide)]
    rfl
  · exact (onlyRegs_setReg (s := s) _ (by simp)).trans (onlyRegs_setReg _ (by simp))

/-! ### NS_TABLE_FLASH_WRITE -/

section
variable {x : NsChange} {rest : List (NsChange × Nat)} (h : s.nq.changes = (x, i) :: rest)
include h

/-- The failing write works on the state with the change taken, and with a created namespace's registers cleared. -/
theorem tableWrite_false_eq : ∃ t, tableWrite s false = tableFailed t i ∧ regsOnly (taken s rest) t ∧
    ((∀ n, x ≠ .create n) → t = taken s rest) := by
  by_cases create : ∃ n, x = .create n
  · obtain ⟨n, hn⟩ := create
    exact ⟨_, tableWrite_false_create h hn, regsOnly_clearNs n, fun none => absurd hn (none n)⟩
  · exact ⟨_, tableWrite_false h fun n hn => create ⟨n, hn⟩, rfl, fun _ => rfl⟩

theorem tableWrite_false_effect : (tableWrite s false).nq.changes = rest ∧ (tableWrite s false).fld (aNq 0x14) 1 0 = 2 ∧
    ((tableWrite s false).cmd i).live = false ∧ (tableWrite s false).flash = s.flash ∧
    ((s.cmd i).live = true → (s.cmd i).origin = .host → (s.cmd i).old = false →
      .cqe (s.cmd i).qp (s.cmd i).cap.cid (s.cmd i).dw0 (s.cmd i).dw1 (s.qp (s.cmd i).qp).sqhd
        Status.storeBusy.sct Status.storeBusy.code Status.storeBusy.dnr ∈ (tableWrite s false).out) ∧
    ((∀ n, x ≠ .create n) → ∀ m j, 1 ≤ m → m ≤ 4096 → j < 8 →
      (tableWrite s false).reg (aNs m (4 * j)) = s.reg (aNs m (4 * j))) := by
  obtain ⟨t, eq, regs, same⟩ := tableWrite_false_eq h
  have nq : t.nq = (taken s rest).nq := by rw [regs]
  have flash : t.flash = s.flash := by
    rw [regs]
    rfl
  have cmd : t.cmd i = s.cmd i := by
    rw [State.cmd, nq]
    rfl
  have qp (m : Nat) : t.qp m = s.qp m := by
    rw [State.qp, nq]
    rfl
  rw [eq]
  refine ⟨?_, tableFailed_persist, tableFailed_cmd_live, tableFailed_flash.trans flash, ?_, ?_⟩
  · rw [tableFailed_changes, nq]
    rfl
  · intro live host fresh
    rw [← cmd] at live host fresh ⊢
    rw [← qp]
    exact tableFailed_cqe live host fresh
  · intro other m j h1 h2 hj
    rw [tableFailed_reg_aNs h1 h2 (by omega), same other]
    rfl

theorem tableWrite_create (hx : x = .create n) (h1 : 1 ≤ n) (h2 : n ≤ 4096) :
    (tableWrite s true).nq.changes = rest ∧ nsExists (tableWrite s true) n = true ∧
    nsAttached (tableWrite s true) n = false ∧ ((tableWrite s true).cmd i).live = false ∧
    ((s.cmd i).live = true → (s.cmd i).origin = .host → (s.cmd i).old = false →
      .cqe (s.cmd i).qp (s.cmd i).cap.cid n (s.cmd i).dw1 (s.qp (s.cmd i).qp).sqhd
        Status.ok.sct Status.ok.code Status.ok.dnr ∈ (tableWrite s true).out) ∧
    (tableWrite s true).fld (aNq 0x14) 1 0 = (if rest = [] then 0 else 1) ∧
    (tableWrite s true).reg (aNq 0x10) = w32 (nsList (tableWrite s true)).length ∧
    (∀ m j, 1 ≤ m → m ≤ 4096 → j < 8 → nsExists (tableWrite s true) m = true →
      Tab.at 0 (tableWrite s true).flash.ns (aNs m (4 * j)) = (tableWrite s true).reg (aNs m (4 * j))) := by
  subst hx
  rw [tableWrite_true h, applyChange_create]
  have ended : Ending (created (taken s rest) n) (completeDw0 (created (taken s rest) n) i n) := .completeDw0 n
  obtain ⟨there, detached⟩ := created_bits (s := taken s rest) (n := n)
  have first (m : Nat) (h1 : 1 ≤ m) (h2 : m ≤ 4096) : (tableWritten (completeDw0 (created (taken s rest) n) i n)
      (if rest = [] then 0 else 1)).reg (aNs m 0) = (created (taken s rest) n).reg (aNs m 0) :=
    (tableWritten_reg_aNs h1 h2 (by decide)).trans (ended.reg_aNs m 0)
  refine ⟨?_, ?_, ?_, ?_, ?_, ?_, ?_, ?_⟩
  · rw [tableWritten_nq, ended.changes]
    rfl
  · rw [nsExists_congr n (first n h1 h2), nsExists, there]
    simp [h1, h2]
  · rw [nsAttached, State.bit, first n h1 h2, ← State.bit, detached, Bool.and_false]
  · rw [tableWritten_cmd]
    exact completeDw0_cmd_live n
  · intro live host fresh
    have sent := cqe_mem_completeDw0 (s := created (taken s rest) n) (i := i) n
    simp only [created_cmd, created_qp, taken_cmd, taken_qp] at sent
    exact tableWritten_out.subset (sent live host fresh)
  · exact tableWritten_persist (by split <;> decide)
  · rw [tableWritten_reg (a := aNq 0x10) (by decide) (by decide), ended.regs _ (by decide), created_count, nsList_congr first]
  · intro m j m1 m2 hj exist
    rw [nsExists_congr (s := completeDw0 (created (taken s rest) n) i n) m (tableWritten_reg_aNs m1 m2 (by decide))] at exist
    rw [tableWritten_flash, nsTable_reg m1 m2 hj exist, tableWritten_reg_aNs m1 m2 (by omega)]

theorem tableWrite_deadline {d : Nat} (hx : x = .deadline n d) (h1 : 1 ≤ n) (h2 : n ≤ 4096) (hd : d < 65536) :
    (tableWrite s true).nq.changes = rest ∧ (tableWrite s true).fld (aNs n 0xC) 15 0 = d ∧
    ((tableWrite s true).cmd i).live = false ∧
    (tableWrite s true).fld (aNq 0x14) 1 0 = (if rest = [] then 0 else 1) ∧
    ((s.cmd i).live = true → (s.cmd i).origin = .host → (s.cmd i).old = false →
      .cqe (s.cmd i).qp (s.cmd i).cap.cid (s.cmd i).dw0 (s.cmd i).dw1 (s.qp (s.cmd i).qp).sqhd
        Status.ok.sct Status.ok.code Status.ok.dnr ∈ (tableWrite s true).out) := by
  subst hx
  rw [tableWrite_true h]
  have ended : Ending ((taken s rest).setF (aNs n 0xC) 15 0 d) (applyChange (taken s rest) (.deadline n d) i) :=
    .completeCmd .ok
  refine ⟨?_, ?_, ?_, tableWritten_persist (by split <;> decide), ?_⟩
  · rw [tableWritten_nq, ended.changes]
    rfl
  · rw [State.fld, tableWritten_reg_aNs h1 h2 (by decide), ended.reg_aNs, State.setF_eq, State.setReg_reg,
      fld_setFld_self _ _ (by decide)]
    exact Nat.mod_eq_of_lt hd
  · rw [tableWritten_cmd]
    exact completeCmd_cmd_live _
  · intro live host fresh
    exact tableWritten_out.subset
      (cqe_mem_completeCmd (s := (taken s rest).setF (aNs n 0xC) 15 0 d) .ok live host fresh)

theorem tableWrite_attachment {b : Bool} (hx : x = .attach n ∧ b = true ∨ x = .detach n ∧ b = false) (h1 : 1 ≤ n)
    (h2 : n ≤ 4096) : (tableWrite s true).nq.changes = rest ∧ (tableWrite s true).bit (aNs n 0) 30 = b ∧
    ((tableWrite s true).cmd i).live = false := by
  have applied : applyChange (taken s rest) x i = completeCmd (nsEvent ((taken s rest).setB (aNs n 0) 30 b)) i .ok := by
    rcases hx with ⟨rfl, rfl⟩ | ⟨rfl, rfl⟩
    · rfl
    · rfl
  have ended := (ending_nsEvent ((taken s rest).setB (aNs n 0) 30 b)).trans (.completeCmd (i := i) .ok)
  rw [tableWrite_true h, applied]
  refine ⟨?_, ?_, ?_⟩
  · rw [tableWritten_nq, ended.changes]
    rfl
  · rw [State.bit, tableWritten_reg_aNs h1 h2 (by decide), ended.reg_aNs, State.setB, State.setF_eq, State.setReg_reg,
      setFld_getLsbD _ _ _ _ (by decide), if_pos (by decide)]
    cases b with
    | true => rfl
    | false => rfl
  · rw [tableWritten_cmd]
    exact completeCmd_cmd_live _

theorem tableWrite_delete (hx : x = .delete n) (h1 : 1 ≤ n) (h2 : n ≤ 4096) (small : (nsSize s n + 15) / 16 ≤ 65536)
    (lines : s.buf.lines = []) (copies : s.buf.copies = []) :
    (tableWrite s true).nq.changes = rest ∧ nsExists (tableWrite s true) n = false ∧
    ((tableWrite s true).cmd i).live = false := by
  subst hx
  have ended : Ending (deleted (taken s rest) n) (completeCmd (deleted (taken s rest) n) i .ok) := .completeCmd .ok
  rw [tableWrite_true h, applyChange_delete (s := taken s rest) h2 small lines copies]
  refine ⟨?_, ?_, ?_⟩
  · rw [tableWritten_nq, ended.changes, deleted_changes]
    rfl
  · rw [nsExists_congr (s := deleted (taken s rest) n) n
      ((tableWritten_reg_aNs h1 h2 (by decide)).trans (ended.reg_aNs n 0)), deleted_absent]
  · rw [tableWritten_cmd]
    exact completeCmd_cmd_live _

end

end

/-- Settles O49, row by row. -/
theorem namespacesFollowTheirFlashWrites : Obligations.NamespacesFollowTheirFlashWrites := by
  unfold Obligations.NamespacesFollowTheirFlashWrites
  rintro s i c rfl
  refine ⟨?_, ?_, ?_, ?_, ?_, ?_, ?_⟩
  · rintro x op sel (⟨rfl, rfl, rfl⟩ | ⟨rfl, rfl, rfl⟩ | ⟨rfl, rfl, rfl⟩ | ⟨rfl, rfl, rfl⟩) (idle | other)
    · rw [exec_namespaceCreate_row, onAdmin_idle _ idle]
    · rw [exec_namespaceCreate_row, onAdmin_same _ fun _ => namespaceCreate_other other]
    · rw [exec_namespaceDelete_row, onAdmin_idle _ idle]
    · rw [exec_namespaceDelete_row, onAdmin_same _ fun _ => if_neg fun acts => other acts.1]
    · rw [exec_namespaceAttach_row, onAdmin_idle _ idle]
    · rw [exec_namespaceAttach_row, onAdmin_same _ fun _ => attachment_other (on := true) other]
    · rw [exec_namespaceDetach_row, onAdmin_idle _ idle]
    · rw [exec_namespaceDetach_row, onAdmin_same _ fun _ => attachment_other (on := false) other]
  · intro h sel
    rw [exec_namespaceCreate_row, onAdmin_acts _ h]
    refine ⟨namespaceCreate s i (s.cmd i).cap, rfl, namespaceCreate_side _ _ _, ?_, ?_, ?_⟩
    · intro none
      rw [namespaceCreate_noGroups sel none]
      exact h.completes
    · intro groups bad
      rw [namespaceCreate_badDescriptor sel groups bad]
      exact h.completes
    · intro groups ok
      refine ⟨fun full => ?_, fun n free => ⟨fun bad => ?_, fun placed => ?_⟩⟩
      · rw [namespaceCreate_full sel groups ok full]
        exact h.completes
      · rw [namespaceCreate_misplaced sel groups ok free bad]
        exact h.completes
      · obtain ⟨below, unheld⟩ := freeNsid_lowest free
        obtain ⟨out, ⟨absent, first, count, kind⟩, zoned, conventional⟩ :=
          namespaceCreate_placed_effect (i := i) sel groups ok free placed
        exact ⟨below, unheld, out, absent, first, count, kind, zoned, conventional⟩
  · intro h sel
    rw [exec_namespaceDelete h sel]
    exact ⟨fun m => by rw [if_pos m], fun m => ⟨_, by rw [if_neg m], askChange_effect _ _ _⟩⟩
  · rintro x sel y (⟨rfl, rfl, rfl⟩ | ⟨rfl, rfl, rfl⟩) h sel
    · rw [exec_namespaceAttach_row, onAdmin_acts _ h]
      exact attachment_effect (on := true) h sel
    · rw [exec_namespaceDetach_row, onAdmin_acts _ h]
      exact attachment_effect (on := false) h sel
  · exact fun n h1 h2 => ⟨exec_blankingDone_none h1 h2, exec_blankingDone_out h1 h2, fun j last up =>
      ⟨_, exec_blankingDone_last h1 h2 last up, blanked_effect s n j⟩⟩
  · intro ok none
    exact congrArg Host.Outcome.next (tableWrite_idle ok none)
  · intro x rest h
    exact ⟨⟨_, rfl, tableWrite_false_effect h⟩, _, rfl, fun n => tableWrite_create h, fun n d => tableWrite_deadline h,
      fun n b => tableWrite_attachment h, fun n => tableWrite_delete h⟩

end Sys2Proof.Machine
end

section
/-! SUPPORT. O3 and O4: the register space stays in its canonical form, which it has at reset. -/

namespace Sys2Proof.Machine

/-- Settles O3: a command in the queue's front keeps the form by O5, an empty queue by the laws of idling. -/
theorem stepKeepsRegistersCanonical : Obligations.StepKeepsRegistersCanonical := by
  intro s t wf stepped
  unfold step at stepped
  split at stepped
  · exact Host.Outcome.next.inj stepped ▸ (idle_keeps s).regs wf
  · next i rest _ => exact (exec_goes { s with pending := rest } i |>.next t stepped).regs wf

/-- No register differs from its reset value at reset. -/
theorem reset_reg (a : Nat) : State.reset.reg a = resetVal State.reset.part a := rfl

/-- Settles O4: the register space is empty, so every link reads the STATE of the register map. -/
theorem resetIsCanonical : Obligations.ResetIsCanonical := by
  refine ⟨rfl, reset_reg, rfl, rfl, rfl, ?_⟩
  decide +kernel

end Sys2Proof.Machine
end

section
/-! SUPPORT. O9: the flits of a link end, taken in order, refused, and replayed (R29 to R33). -/

namespace Sys2Proof.Machine

section
variable {s : State} {t e n : Nat} {f g : Payload} {isNak : Bool}

/-! ### Registers and outputs are no part of the links -/

@[simp] theorem State.setReg_link (a : Nat) (w : Word) (t e : Nat) : (s.setReg a w).link t e = s.link t e := rfl

@[simp] theorem State.emit_link (x : Out) (t e : Nat) : (s.emit x).link t e = s.link t e := rfl

theorem State.setLink_link_ne {t' e' : Nat} (x : LinkEnd) (h : 2 * t' + e' ≠ 2 * t + e) :
    (s.setLink t e x).link t' e' = s.link t' e' := Tab.at_to_ne _ _ _ h

theorem linkLive_iff : linkLive s t = true ↔ s.linkState t = 2 ∨ s.linkState t = 3 := by simp [linkLive]

theorem exec_flitReceive (tile : s.hasTile t = true) (range : e < 2) :
    exec (.flitReceive t e f isNak) s = .next (flitReceive s t e f isNak) :=
  (if_pos range).trans (onTile_next tile)

/-! ### A flit in order -/

/-- A link end that has taken a flit: the next one is expected, and the credits it returns are held. -/
def LinkEnd.taking (x : LinkEnd) (chan total : Nat) : LinkEnd :=
  { x with
    rx := (x.rx + 1) % 4096, bad := false
    credits := setNth x.credits chan (min (nth 0 chanCredits chan)
      (nth 0 x.credits chan + (total + 2 ^ 16 - nth 0 x.totals chan) % 2 ^ 16))
    totals := setNth x.totals chan (total % 2 ^ 16) }

/-- The state once end `e` of the tile's link has taken a flit. -/
def tookFlit (s : State) (t e : Nat) (f : Payload) : State :=
  creditReturn (s.setLink t e { s.link t e with rx := ((s.link t e).rx + 1) % 4096, bad := false }) t e
    (beAt f 4 4 / 2 ^ 30 % 4) (beAt f 4 4 / 2 ^ 14 % 2 ^ 16)

theorem tookFlit_link_self :
    (tookFlit s t e f).link t e = (s.link t e).taking (beAt f 4 4 / 2 ^ 30 % 4) (beAt f 4 4 / 2 ^ 14 % 2 ^ 16) := by
  simp [tookFlit, creditReturn, LinkEnd.taking]

theorem tookFlit_link_ne {t' e' : Nat} (h : 2 * t' + e' ≠ 2 * t + e) : (tookFlit s t e f).link t' e' = s.link t' e' := by
  rw [tookFlit, creditReturn, State.modLink_eq, State.setLink_link_ne _ h, State.setLink_link_ne _ h]

theorem tookFlit_frame : tookFlit s t e f = { s with tl := { s.tl with links := (tookFlit s t e f).tl.links } } := rfl

/-! ### The three ways of a flit on a trained link -/

theorem flitReceive_taken (live : linkLive s t = true) (ok : flitOk f = true) (seq : flitSeq f = (s.link t e).rx) :
    flitReceive s t e f isNak =
      if isNak then linkReplay (tookFlit s t e f) t e (beAt f 0 4 / 2 ^ 6 % 4096) else tookFlit s t e f := by
  simp only [flitReceive, live, ok, seq, Bool.not_true, Bool.false_eq_true, ne_eq, not_true_eq_false, or_self, if_false]
  rfl

theorem flitReceive_refused (live : linkLive s t = true) (wrong : flitOk f = false ∨ flitSeq f ≠ (s.link t e).rx) :
    flitReceive s t e f isNak = if (s.link t e).bad then s else
      (s.setLink t e { s.link t e with bad := true }).emit (.linkNak t e (s.link t e).rx) := by
  have wrong' : (!(flitOk f)) = true ∨ flitSeq f ≠ (s.link t e).rx := by simpa using wrong
  simp only [flitReceive, live, Bool.not_true, Bool.false_eq_true, if_false, if_pos wrong']

/-! ### Replays (R33) -/

/-- Flits sent once more, oldest first. -/
def resent (s : State) (t e : Nat) (fs : List Payload) : State := fs.foldl (fun s f => s.emit (.flit t e f)) s

theorem resent_out (fs : List Payload) : (resent s t e fs).out = (fs.map (Out.flit t e)).reverse ++ s.out := by
  induction fs generalizing s with
  | nil => rfl
  | cons f fs ih => exact ih.trans (by simp [State.emit])

theorem resent_frame (fs : List Payload) : resent s t e fs = { s with out := (resent s t e fs).out } := by
  induction fs generalizing s with
  | nil => rfl
  | cons f fs ih => exact ih

theorem resent_link (fs : List Payload) (t' e' : Nat) : (resent s t e fs).link t' e' = s.link t' e' := by
  rw [resent_frame]; rfl

theorem resent_reg (fs : List Payload) (a : Nat) : (resent s t e fs).reg a = s.reg a := by
  rw [resent_frame]; rfl

/-- The flit asked for is replayed before all later ones, which are the newest kept. -/
theorem fromFlit_found {x : LinkEnd} (found : x.sent.find? (fun y => decide (flitSeq y = n)) = some g) :
    (fromFlit x n).reverse = x.sent.takeWhile (fun y => decide (flitSeq y ≠ n)) ++ [g] := by
  simp [fromFlit, found]

/-- The state once a link end has noted a replay, sent it and counted it in LINKREP. -/
def replayed (s : State) (t e n : Nat) : State :=
  (resent (s.setLink t e { s.link t e with replays := s.now :: recentReplays s (s.link t e) }) t e
    (fromFlit (s.link t e) n)).bump (aHub (0x120 + 4 * t))

theorem linkReplay_few (found : (s.link t e).sent.find? (fun y => decide (flitSeq y = n)) = some g)
    (few : (recentReplays s (s.link t e)).length + (recentReplays s (s.link t (1 - e))).length < 16) :
    linkReplay s t e n = replayed s t e n := by
  have kept : ((s.link t e).sent.any fun y => decide (flitSeq y = n)) = true := by
    rw [List.any_eq_true]
    exact ⟨g, List.mem_of_find?_eq_some found, by simpa using List.find?_some found⟩
  have stays : ¬ 16 < (s.now :: recentReplays s (s.link t e)).length + (recentReplays s (s.link t (1 - e))).length := by
    rw [List.length_cons]; omega
  simp only [linkReplay, kept, stays, Bool.not_true, Bool.false_eq_true, if_false]
  rfl

theorem replayed_out (found : (s.link t e).sent.find? (fun y => decide (flitSeq y = n)) = some g) :
    (replayed s t e n).out =
      ((s.link t e).sent.takeWhile fun y => decide (flitSeq y ≠ n)).map (Out.flit t e) ++ .flit t e g :: s.out := by
  have sent : (replayed s t e n).out = _ := resent_out (fromFlit (s.link t e) n)
  rw [sent, ← List.map_reverse, fromFlit_found found, List.map_append, List.append_assoc]
  rfl

theorem replayed_count : (replayed s t e n).fld (aHub (0x120 + 4 * t)) 31 0 =
    min (s.fld (aHub (0x120 + 4 * t)) 31 0 + 1) (2 ^ 32 - 1) := by
  rw [replayed, State.bump_fld_self, State.fld, resent_reg]
  rfl

theorem replayed_rx : ((replayed s t e n).link t e).rx = (s.link t e).rx := by
  rw [replayed, State.bump, State.bumpF, State.setF_eq, State.setReg_link, resent_link, State.setLink_link]

/-- A replay after a change of the tiles' units alone. -/
theorem replayed_frame {v : State} (tiles : v = { s with tl := v.tl }) :
    onlyRegs [aHub (0x120 + 4 * t)] s { replayed v t e n with tl := s.tl, out := s.out } := by
  refine ⟨fun a other => ?_, ?_⟩
  · have kept : (replayed v t e n).reg a = v.reg a :=
      (State.setReg_reg_ne _ _ (by simpa using other)).trans (resent_reg _ a)
    exact kept.trans (by rw [tiles]; rfl)
  · rw [replayed, resent_frame, tiles]
    rfl

end

/-- Settles O9, by the three ways of a flit. -/
theorem flitsArriveInOrder : Obligations.FlitsArriveInOrder := by
  rintro s t e chan total n f tile live range rfl rfl rfl
  have live := linkLive_iff.2 live
  refine ⟨fun ok seq => ?_, fun nak wrong => ?_, fun g ok seq found few => ?_⟩
  · refine ⟨tookFlit s t e f, ?_, tookFlit_link_self, fun _ _ => tookFlit_link_ne, tookFlit_frame⟩
    rw [exec_flitReceive tile range, flitReceive_taken live ok seq]
    rfl
  · rw [exec_flitReceive tile range, flitReceive_refused live wrong]
    exact ⟨fun good => by rw [good]; rfl, fun bad => by rw [bad]; rfl⟩
  · have other : (tookFlit s t e f).link t (1 - e) = s.link t (1 - e) := tookFlit_link_ne (by omega)
    have found' : ((tookFlit s t e f).link t e).sent.find? (fun y => decide (flitSeq y = beAt f 0 4 / 2 ^ 6 % 4096)) =
        some g := by rw [tookFlit_link_self]; exact found
    refine ⟨replayed (tookFlit s t e f) t e (beAt f 0 4 / 2 ^ 6 % 4096), ?_, ?_, replayed_count, ?_, ?_⟩
    · rw [exec_flitReceive tile range, flitReceive_taken live ok seq, if_pos rfl, linkReplay_few found']
      rw [other, tookFlit_link_self]
      exact few
    · rw [replayed_out found', tookFlit_link_self]
      rfl
    · rw [replayed_rx, tookFlit_link_self]
      rfl
    · exact replayed_frame tookFlit_frame

end Sys2Proof.Machine
end

section
/-! SUPPORT. O10: a link's states, its retraining and the end of a training (R34, R35, R40). -/

namespace Sys2Proof.Machine

/-! ### Frames of registers and notices -/

section
variable {as : List Nat} {s u v : State} {a : Nat}

theorem regsAndNotices.refl : regsAndNotices as s s := ⟨rfl, List.suffix_refl _, fun _ _ _ => rfl⟩

theorem regsAndNotices.trans (h : regsAndNotices as s u) (k : regsAndNotices as u v) : regsAndNotices as s v := by
  obtain ⟨hf, ho, hr⟩ := h
  obtain ⟨kf, ko, kr⟩ := k
  exact ⟨by rw [kf, hf], ho.trans ko, fun a m n => (kr a m n).trans (hr a m n)⟩

theorem regsAndNotices.of_onlyRegs (h : onlyRegs as s u) : regsAndNotices as s u := by
  obtain ⟨regs, frame⟩ := h
  exact ⟨by rw [frame], by rw [frame], fun a m _ => regs a m⟩

theorem regsAndNotices.of_notices (h : onlyNotices s u) : regsAndNotices as s u :=
  ⟨h.1, h.2.1, fun a _ n => h.2.2 a List.not_mem_nil n⟩

theorem regsAndNotices.setF (hi lo n : Nat) (m : a ∈ as) : regsAndNotices as s (s.setF a hi lo n) :=
  .of_onlyRegs (onlyRegs_setReg _ m)

theorem regsAndNotices.fields (h : regsAndNotices as s u) : u.nq = s.nq ∧ u.buf = s.buf ∧ u.slots = s.slots ∧
    u.flash = s.flash ∧ u.mgmt = s.mgmt ∧ u.power = s.power ∧ u.tl = s.tl := by
  rw [h.1]
  exact ⟨rfl, rfl, rfl, rfl, rfl, rfl, rfl⟩

end

section
variable {s : State} {t n : Nat} {ok : Bool}

/-- HUB.LINK's STATE and TILE.LINK's STATE are registers of two dies. -/
theorem aLink_ne_aTile (tile : t < 8) (o : Nat) : aLink t ≠ aTile t o := by
  unfold aLink aHub aTile tileBase
  omega

theorem noticeReg_aLink (tile : t < 8) : noticeReg (aLink t) = false := by
  simp only [noticeReg, irqSpace, Bool.or_eq_false_iff, decide_eq_false_iff_not]
  unfold aLink aHub aOwl
  omega

theorem setLinkState_moves (moves : s.linkState t ≠ n) :
    setLinkState s t n = irqEdge ((s.setF (aLink t) 3 0 n).setF (aTile t 0x10) 3 0 n) 0 (16 + t) := if_neg moves

theorem setLinkState_same (same : s.linkState t = n) : setLinkState s t n = s := if_pos same

theorem setLinkState_linkState (tile : t < 8) (moves : s.linkState t ≠ n) (four : n < 16) :
    (setLinkState s t n).linkState t = n := by
  rw [setLinkState_moves moves]
  show Sys2Proof.fld ((irqEdge _ 0 (16 + t)).reg (aLink t)) 3 0 = n
  rw [irqEdge_reg 0 (16 + t) (noticeReg_aLink tile), State.setF_eq, State.setReg_reg_ne _ _ (aLink_ne_aTile tile _),
    State.setF_eq, State.setReg_reg, fld_setFld_self _ _ (by decide)]
  exact Nat.mod_eq_of_lt four

/-- A change of the link's state changes two registers and raises an interrupt. -/
theorem setLinkState_frame : regsAndNotices [aLink t, aTile t 0x10] s (setLinkState s t n) := by
  unfold setLinkState
  split
  · exact .refl
  · exact ((regsAndNotices.setF 3 0 n (by simp)).trans (.setF 3 0 n (by simp))).trans (.of_notices (irqEdge_notices _ _))

/-- Counting a retrain leaves STATE, which stands in the same register. -/
theorem bumpF_linkState : (s.bumpF (aLink t) 23 16 1).linkState t = s.linkState t :=
  State.bumpF_fld_ne (a := aLink t) 1 (by decide) (.inl (by decide))

theorem retrain_moves (moves : s.linkState t ≠ 4) : retrain s t =
    irqEdge (((s.bumpF (aLink t) 23 16 1).setF (aLink t) 3 0 4).setF (aTile t 0x10) 3 0 4) 0 (16 + t) :=
  setLinkState_moves (by rwa [bumpF_linkState])

theorem retrain_again (same : s.linkState t = 4) : retrain s t = s.bumpF (aLink t) 23 16 1 :=
  setLinkState_same (by rwa [bumpF_linkState])

theorem exec_linkAckTimeout (tile : s.hasTile t = true) :
    exec (.linkAckTimeout t) s = .next (if linkLive s t then retrain s t else s) := onTile_next tile

theorem exec_linkTrained (tile : s.hasTile t = true) : exec (.linkTrained t ok) s = .next (linkTrained s t ok) :=
  onTile_next tile

/-- The state with `n` trainings of the tile's link failed in succession. -/
def failedTrainings (s : State) (t n : Nat) : State :=
  { s with tl := { s.tl with linkFails := Tab.to 0 s.tl.linkFails t n } }

theorem linkTrained_idle (h1 : s.linkState t ≠ 1) (h4 : s.linkState t ≠ 4) : linkTrained s t ok = s := if_pos ⟨h1, h4⟩

theorem linkTrained_failed (trains : s.linkState t = 1 ∨ s.linkState t = 4) (few : Tab.at 0 s.tl.linkFails t < 2) :
    linkTrained s t false = retrain (failedTrainings s t (Tab.at 0 s.tl.linkFails t + 1)) t := by
  have goes : ¬(s.linkState t ≠ 1 ∧ s.linkState t ≠ 4) := by omega
  have again : ¬ 3 ≤ Tab.at 0 s.tl.linkFails t + 1 := by omega
  simp only [linkTrained, if_neg goes, Bool.false_eq_true, if_false, if_neg again]
  rfl

/-- The first training of a bring-in has ended well, before STATE moves: the bring-in's step 2 is next. -/
def firstTrained (s : State) (t : Nat) : State :=
  let u := ((failedTrainings s t 0).modLink t 0 freshFlits).modLink t 1 freshFlits
  { u with power := { u.power with bring := Tab.to 0 u.power.bring t 2 } }

theorem linkTrained_first (trains : s.linkState t = 1) (bring : Tab.at 0 s.power.bring t = 1) :
    linkTrained s t true = setLinkState (firstTrained s t) t 2 := by
  have goes : ¬(s.linkState t ≠ 1 ∧ s.linkState t ≠ 4) := by omega
  simp only [linkTrained, if_neg goes, if_true]
  exact if_pos bring

theorem firstTrained_frame : firstTrained s t = { s with
    power := { s.power with bring := Tab.to 0 s.power.bring t 2 }
    tl := { s.tl with linkFails := Tab.to 0 s.tl.linkFails t 0, links := (firstTrained s t).tl.links } } := rfl

theorem firstTrained_fields : (firstTrained s t).nq = s.nq ∧ (firstTrained s t).buf = s.buf ∧
    (firstTrained s t).slots = s.slots ∧ (firstTrained s t).flash = s.flash ∧ (firstTrained s t).mgmt = s.mgmt ∧
    Tab.at 0 (firstTrained s t).power.bring t = 2 ∧ Tab.at 0 (firstTrained s t).tl.linkFails t = 0 := by
  rw [firstTrained_frame]
  exact ⟨rfl, rfl, rfl, rfl, rfl, Tab.at_to_self 0 _ t 2, Tab.at_to_self 0 _ t 0⟩

theorem firstTrained_link {e : Nat} (range : e < 2) : (firstTrained s t).link t e = freshFlits (s.link t e) := by
  have pair : ((failedTrainings s t 0).modLink t 0 freshFlits).link t 1 = s.link t 1 :=
    State.setLink_link_ne _ (by omega)
  have last (x : LinkEnd) : (((failedTrainings s t 0).modLink t 0 freshFlits).setLink t 1 x).link t 0 =
      freshFlits (s.link t 0) :=
    (State.setLink_link_ne _ (by omega)).trans (State.setLink_link _ t 0 _)
  match e with
  | 0 => exact last _
  | 1 => exact (State.setLink_link _ t 1 _).trans (congrArg freshFlits pair)

end

/-- Settles O10, row by row. -/
theorem linksTrainAndRetrain : Obligations.LinksTrainAndRetrain := by
  intro s t tile
  have t8 := hasTile_lt tile
  refine ⟨fun live => ?_, fun n2 n3 => ?_, fun ok n1 n4 => ?_, fun trains few => ?_, fun trains few => ?_,
    fun trains bring => ?_, fun ratio on awake => ?_, fun ratio off => ?_⟩
  · rw [exec_linkAckTimeout tile, if_pos (linkLive_iff.2 live), retrain_moves (by omega)]
  · rw [exec_linkAckTimeout tile, if_neg (by rw [linkLive_iff]; omega)]
  · rw [exec_linkTrained tile, linkTrained_idle n1 n4]
  · rw [exec_linkTrained tile, linkTrained_failed (.inl trains) few,
      retrain_moves (s := failedTrainings s t _) (fun same => by have := trains.symm.trans same; omega)]
    rfl
  · rw [exec_linkTrained tile, linkTrained_failed (.inr trains) few, retrain_again (s := failedTrainings s t _) trains]
    rfl
  · obtain ⟨nq, buf, slots, flash, mgmt, power, tl⟩ := (setLinkState_frame (s := firstTrained s t) (t := t) (n := 2)).fields
    obtain ⟨fNq, fBuf, fSlots, fFlash, fMgmt, fBring, fFails⟩ := firstTrained_fields (s := s) (t := t)
    have from1 : (firstTrained s t).linkState t = 1 := trains
    refine ⟨setLinkState (firstTrained s t) t 2, ?_, setLinkState_linkState t8 (by omega) (by omega), ?_, ?_,
      fun e range => ?_, nq.trans fNq, buf.trans fBuf, slots.trans fSlots, flash.trans fFlash, mgmt.trans fMgmt⟩
    · rw [exec_linkTrained tile, linkTrained_first trains bring]
    · rw [power, fBring]
    · rw [tl, fFails]
    · rw [State.link, tl]
      exact firstTrained_link range
  · exact congrArg Host.Outcome.next (if_pos ⟨on, awake⟩)
  · refine congrArg Host.Outcome.next (if_neg ?_)
    rintro ⟨on, awake⟩
    exact off.elim (fun no => by simp [on] at no) awake

end Sys2Proof.Machine
end

section
/-! SUPPORT. What crosses a Benbor link: credits taken and freed, and nothing else changed (R30 to R33). -/

namespace Sys2Proof.Machine

/-! ### Lists of counts, one for each channel -/

section
variable {l : List Nat} {i j v n : Nat}

theorem nth_setNth_ne (h : j ≠ i) : nth 0 (setNth l i v) j = nth 0 l j := by
  induction l generalizing i j with
  | nil => rfl
  | cons x l ih =>
    match i, j, h with
    | 0, 0, h => exact absurd rfl h
    | 0, j + 1, _ => rfl
    | i + 1, 0, _ => rfl
    | i + 1, j + 1, h => exact ih fun e => h (congrArg (· + 1) e)

theorem nth_setNth_self (h : i < l.length) : nth 0 (setNth l i v) i = v := by
  induction l generalizing i with
  | nil => exact absurd h (Nat.not_lt_zero _)
  | cons x l ih =>
    match i, h with
    | 0, _ => rfl
    | i + 1, h => exact ih (Nat.lt_of_succ_lt_succ h)

/-- A count that a channel lacks reads 0 and stays 0. -/
theorem nth_setNth_sub : nth 0 (setNth l i (nth 0 l i - n)) i = nth 0 l i - n := by
  by_cases h : i < l.length
  · exact nth_setNth_self h
  · have absent : ∀ m : List Nat, m.length ≤ i → nth 0 m i = 0 := fun m hm => by
      simp [nth, List.getElem?_eq_none hm]
    have same : (setNth l i (nth 0 l i - n)).length = l.length := by
      generalize nth 0 l i - n = v
      clear h absent
      induction l generalizing i with
      | nil => rfl
      | cons x l ih => cases i <;> simp [setNth, ih]
    rw [absent _ (by omega), absent l (by omega), Nat.zero_sub]

end

/-! ### Changes of the link ends alone -/

/-- Nothing has changed but the link ends and what has been emitted. -/
structure LinksOnly (s u : State) : Prop where
  frame : u = { s with out := u.out, tl := { s.tl with links := u.tl.links } }
  out : s.out <:+ u.out

namespace LinksOnly
variable {s t u : State}

theorem refl (s : State) : LinksOnly s s := ⟨rfl, List.suffix_refl _⟩

theorem trans (h : LinksOnly s t) (k : LinksOnly t u) : LinksOnly s u := by
  refine ⟨?_, h.out.trans k.out⟩
  rw [k.frame, h.frame]

theorem setLink (s : State) (t e : Nat) (x : LinkEnd) : LinksOnly s (s.setLink t e x) := ⟨rfl, List.suffix_refl _⟩

theorem emit (s : State) (o : Out) : LinksOnly s (s.emit o) := ⟨rfl, List.suffix_cons _ _⟩

theorem sendFlit (s : State) (t e ch : Nat) (p : Payload) : LinksOnly s (sendFlit s t e ch p) :=
  (setLink s t e _).trans (emit _ _)

theorem sendFlits (s : State) (t e ch n : Nat) (what : Payload) : LinksOnly s (sendFlits s t e ch n what) :=
  foldl_related refl trans (fun s _ => sendFlit s t e ch _) _ _

theorem crossAtOnce (s : State) (t e ch : Nat) (what : Payload) : LinksOnly s (crossAtOnce s t e ch what) :=
  (sendFlits s t e ch 1 what).trans (setLink _ t (1 - e) _)

theorem reg (h : LinksOnly s u) (a : Nat) : u.reg a = s.reg a := by rw [h.frame]; rfl

theorem det (h : LinksOnly s u) (t : Nat) : u.det t = s.det t := by rw [h.frame]; rfl

theorem eng (h : LinksOnly s u) (e : Nat) : u.eng e = s.eng e := by rw [h.frame]; rfl

end LinksOnly

/-! ### Credits -/

section
variable {s : State} {t e ch n : Nat} {what : Payload}

theorem sendFlit_link_self (p : Payload) : ((sendFlit s t e ch p).link t e).credits =
    setNth (s.link t e).credits ch (nth 0 (s.link t e).credits ch - 1) :=
  congrArg LinkEnd.credits (State.setLink_link s t e _)

theorem sendFlit_link_ne {t' e' : Nat} (p : Payload) (h : 2 * t' + e' ≠ 2 * t + e) :
    (sendFlit s t e ch p).link t' e' = s.link t' e' := State.setLink_link_ne _ h

/-- `n` flits take `n` credits of their channel. -/
theorem sendFlits_credits : nth 0 ((sendFlits s t e ch n what).link t e).credits ch =
    nth 0 (s.link t e).credits ch - n := by
  unfold sendFlits
  generalize Config.packet ch what = bs
  induction n with
  | zero => rfl
  | succ n ih =>
    rw [List.range_succ, List.foldl_append, List.foldl_cons, List.foldl_nil, sendFlit_link_self, nth_setNth_sub, ih]
    omega

theorem sendFlits_credits_ne {ch' : Nat} (h : ch' ≠ ch) : nth 0 ((sendFlits s t e ch n what).link t e).credits ch' =
    nth 0 (s.link t e).credits ch' := by
  unfold sendFlits
  generalize Config.packet ch what = bs
  induction n with
  | zero => rfl
  | succ n ih =>
    rw [List.range_succ, List.foldl_append, List.foldl_cons, List.foldl_nil, sendFlit_link_self, nth_setNth_ne h, ih]

theorem crossAtOnce_credits (range : e < 2) : nth 0 ((crossAtOnce s t e ch what).link t e).credits ch =
    nth 0 (s.link t e).credits ch - 1 := by
  rw [crossAtOnce, freeCredits, State.modLink_eq, State.setLink_link_ne _ (by omega), sendFlits_credits]

theorem hasCredits_iff : hasCredits s t e ch n = true ↔ n ≤ nth 0 (s.link t e).credits ch := decide_eq_true_iff

end

end Sys2Proof.Machine
end

section
/-! SUPPORT. Packets and threads of the dispatch engine (R289, R291). -/

namespace Sys2Proof.Machine

section
variable {s u : State} {t op th i e : Nat} {w : Word}

/-! ### Threads -/

/-- What a dispatch thread starts with. -/
def packetThread (s : State) (op : Nat) (w : Word) : Thread :=
  ⟨true, liveBank s 0, fld (dispatchEntry s op) 13 0, 0, none, Tab.to 0 [] 1 w, op, 0, false, false⟩

/-- The second data word of a packet is 0, as an unwritten register reads. -/
theorem startRegs (w : Word) : Tab.to 0 (Tab.to 0 [] 1 w) 2 0 = Tab.to 0 [] 1 w := by
  by_cases zero : w = 0#32 <;> simp [Tab.to, Tab.set, Tab.drop, Tab.put, zero]

theorem dispatchPacket_free (free : freeThread s 0 = some th) :
    dispatchPacket s op w 0 = setThread s 0 th (packetThread s op w) := by
  simp only [dispatchPacket, free, startThread, startRegs]
  rfl

theorem dispatchPacket_waits (none : freeThread s 0 = none) :
    dispatchPacket s op w 0 = { s with tl := { s.tl with packets := s.tl.packets ++ [(op, w)] } } := by
  simp only [dispatchPacket, none, if_true]

theorem thread_setThread_self (x : Thread) : thread (setThread s e th x) e th = x := by
  simp [thread, setThread]

theorem thread_setThread_ne {j : Nat} (x : Thread) (h : j ≠ th) : thread (setThread s e th x) e j = thread s e j := by
  rw [thread, setThread, State.modEng_eq, State.setEng_eng]
  exact Tab.at_to_ne _ _ _ h

/-- A thread's start changes its engine alone. -/
theorem setThread_frame (x : Thread) :
    setThread s e th x = { s with tl := { s.tl with engines := (setThread s e th x).tl.engines } } := rfl

theorem setThread_det (x : Thread) (t : Nat) : (setThread s e th x).det t = s.det t := rfl

theorem setThread_link (x : Thread) (t e' : Nat) : (setThread s e th x).link t e' = s.link t e' := rfl

/-- What a packet meets at the dispatch engine is told by its engine and its store's registers alone. -/
theorem dispatch_congr (eng : u.eng 0 = s.eng 0) (regs : ∀ a, u.reg a = s.reg a) :
    freeThread u 0 = freeThread s 0 ∧ packetThread u op w = packetThread s op w ∧ ∀ j, thread u 0 j = thread s 0 j := by
  have live : liveBank u 0 = liveBank s 0 := by simp only [liveBank, State.fld, regs]
  have bank : bankLive u 0 = bankLive s 0 := by rw [bankLive, bankLive, eng, live]
  refine ⟨by rw [freeThread, freeThread, eng], ?_, fun j => by rw [thread, thread, eng]⟩
  rw [packetThread, packetThread, dispatchEntry, dispatchEntry, live, bank]

end

end Sys2Proof.Machine
end

section
/-! SUPPORT. What work of a tile leaves as it was: its link ends, and the registers that only a request, a retirement or
a sleep command writes. -/

namespace Sys2Proof.Machine

/-- A word of tile `t`'s retirement set or of a mirror (R197, R202), or CTRL of one of its lanes (R97). -/
def steadyReg (t a : Nat) : Prop :=
  (tileBase t + 0x1100 ≤ a ∧ a ≤ tileBase t + 0x1140) ∨ (0x1000 ≤ a ∧ a < 0x1200) ∨
    (tileBase t + 0x100000 ≤ a ∧ a < tileBase t + 0x1C0000 ∧ (a - tileBase t) % 0x1000 = 0)

/-- Nothing has changed but registers, what notices change and the units of the tiles; the links and the steady
registers of tile `t` have not. -/
structure TileWork (t : Nat) (s u : State) : Prop where
  frame : u = { s with regs := u.regs, irq := u.irq, owl := u.owl, out := u.out, tl := u.tl }
  out : s.out <:+ u.out
  links : u.tl.links = s.tl.links
  regs : ∀ a, steadyReg t a → u.reg a = s.reg a

section
variable {t a o : Nat}

/-! ### Registers that work of a tile writes -/

theorem not_steadyReg_aTile (h : o < 0x1100) : ¬ steadyReg t (aTile t o) := by
  unfold steadyReg aTile tileBase
  omega

theorem not_steadyReg_aLane (l : Nat) (h : 0 < o) (h' : o < 0x1000) : ¬ steadyReg t (aLane t l o) := by
  unfold steadyReg aLane tileBase
  omega

/-- The detector's page and all that lie above it. -/
theorem not_steadyReg_page (h : tileBase t + 0x200000 ≤ a) : ¬ steadyReg t a := by
  unfold steadyReg
  unfold tileBase at *
  omega

theorem not_steadyReg_aDet : ¬ steadyReg t (aDet t o) := not_steadyReg_page (by unfold aDet; omega)

theorem not_steadyReg_aWrt : ¬ steadyReg t (aWrt t o) := not_steadyReg_page (by unfold aWrt; omega)

theorem not_steadyReg_aWrtC (c : Nat) : ¬ steadyReg t (aWrtC t c o) := not_steadyReg_page (by unfold aWrtC; omega)

theorem not_steadyReg_aCtl (c : Nat) : ¬ steadyReg t (aCtl t c o) := not_steadyReg_page (by unfold aCtl; omega)

theorem steadyReg_not_notice (_ : t < 8) (h : steadyReg t a) : noticeReg a = false := by
  simp only [noticeReg, irqSpace, Bool.or_eq_false_iff, decide_eq_false_iff_not]
  unfold steadyReg at h
  unfold tileBase aOwl at *
  omega

theorem steadyReg_set (h : setWordAddr t o = a) (range : o < 13) : steadyReg t a := by
  subst h
  unfold setWordAddr steadyReg aTile
  split_ifs <;> omega

theorem steadyReg_mirror (_ : t < 8) (h : aMir t o = a) (range : o < 13) : steadyReg t a := by
  subst h
  unfold aMir aHub steadyReg
  omega

theorem steadyReg_ctrl {l : Nat} (lane : l < 192) : steadyReg t (aLane t l 0) := by
  unfold steadyReg aLane tileBase
  omega

end

namespace TileWork

section
variable {t a : Nat} {s u v : State}

theorem refl (s : State) : TileWork t s s := ⟨rfl, List.suffix_refl _, rfl, fun _ _ => rfl⟩

theorem trans (h : TileWork t s u) (k : TileWork t u v) : TileWork t s v := by
  refine ⟨?_, h.out.trans k.out, k.links.trans h.links, fun a p => (k.regs a p).trans (h.regs a p)⟩
  rw [k.frame, h.frame]

theorem ite {c : Prop} [Decidable c] (h : c → TileWork t s u) (k : ¬c → TileWork t s v) :
    TileWork t s (if c then u else v) := by
  split
  · exact h ‹_›
  · exact k ‹_›

theorem foldl {α : Type} {f : State → α → State} (step : ∀ s a, TileWork t s (f s a)) (l : List α) (s : State) :
    TileWork t s (l.foldl f s) := foldl_related refl trans step l s

theorem tiles (x : TileSide) (links : x.links = s.tl.links) : TileWork t s { s with tl := x } :=
  ⟨rfl, List.suffix_refl _, links, fun _ _ => rfl⟩

theorem setReg (w : Word) (h : ¬ steadyReg t a) : TileWork t s (s.setReg a w) :=
  ⟨rfl, List.suffix_refl _, rfl, fun _ p => s.setReg_reg_ne w fun e => h (e ▸ p)⟩

theorem setF (hi lo n : Nat) (h : ¬ steadyReg t a) : TileWork t s (s.setF a hi lo n) := setReg _ h

theorem setB (i : Nat) (b : Bool) (h : ¬ steadyReg t a) : TileWork t s (s.setB a i b) := setReg _ h

theorem bump (n : Nat) (h : ¬ steadyReg t a) : TileWork t s (s.bump a n) := setReg _ h

theorem emit (o : Out) : TileWork t s (s.emit o) := ⟨rfl, List.suffix_cons _ _, rfl, fun _ _ => rfl⟩

theorem notices (tile : t < 8) (h : onlyNotices s u) : TileWork t s u := by
  obtain ⟨frame, out, regs⟩ := h
  exact ⟨by rw [frame], out, by rw [frame], fun a p => regs a List.not_mem_nil (steadyReg_not_notice tile p)⟩

theorem fields (h : TileWork t s u) : u.nq = s.nq ∧ u.buf = s.buf ∧ u.slots = s.slots ∧ u.flash = s.flash ∧
    u.mgmt = s.mgmt ∧ u.power = s.power ∧ u.ports = s.ports := by
  rw [h.frame]
  exact ⟨rfl, rfl, rfl, rfl, rfl, rfl, rfl⟩

theorem link (h : TileWork t s u) (t' e : Nat) : u.link t' e = s.link t' e := by
  rw [State.link, h.links]
  rfl

end

/-! ### What the tile's blocks share -/

section
variable {t : Nat} {s : State}

theorem modDet (t' : Nat) (f : DetX → DetX) : TileWork t s (s.modDet t' f) := tiles _ rfl
theorem modHead (i : Nat) (f : HeadX → HeadX) : TileWork t s (s.modHead i f) := tiles _ rfl
theorem modHeadW (i : Nat) (f : HeadW → HeadW) : TileWork t s (s.modHeadW i f) := tiles _ rfl
theorem modHeadS (i : Nat) (f : HeadS → HeadS) : TileWork t s (s.modHeadS i f) := tiles _ rfl
theorem modLane (t' l : Nat) (f : LaneX → LaneX) : TileWork t s (s.modLane t' l f) := tiles _ rfl
theorem modWr (t' : Nat) (f : WriteX → WriteX) : TileWork t s (s.modWr t' f) := tiles _ rfl
theorem modArm (t' c : Nat) (f : Arm → Arm) : TileWork t s (s.modArm t' c f) := tiles _ rfl
theorem modCtl (t' c : Nat) (f : Ctl → Ctl) : TileWork t s (s.modCtl t' c f) := tiles _ rfl
theorem modEng (e : Nat) (f : Engine → Engine) : TileWork t s (s.modEng e f) := tiles _ rfl
theorem setCtx (t' i : Nat) (x : Ctx) : TileWork t s (s.setCtx t' i x) := tiles _ rfl
theorem setHeadW (i : Nat) (x : HeadW) : TileWork t s (s.setHeadW i x) := tiles _ rfl
theorem setHead (i : Nat) (x : HeadX) : TileWork t s (s.setHead i x) := tiles _ rfl

/-! ### Pins, contexts and drops (R122, R173, R186) -/

theorem setPin (l b : Nat) (on : Bool) : TileWork t s (setPin s t l b on) :=
  ite (fun _ => setF _ _ _ (not_steadyReg_aLane l (by decide) (by decide)))
    fun _ => setF _ _ _ (not_steadyReg_aLane l (by decide) (by decide))

theorem endOp (q : HistReq) (st : DecSt) : TileWork t s (endOp s t q st) := by
  unfold Machine.endOp pushRes opDone
  exact (modDet t _).trans (modDet t _)

theorem abortOps (i id : Nat) : TileWork t s (abortOps s t i id) := by
  unfold Machine.abortOps
  exact (foldl (fun _ _ => endOp _ _) _ _).trans (modDet t _)

theorem sleepIfAsked (l : Nat) : TileWork t s (sleepIfAsked s t l) := by
  unfold Machine.sleepIfAsked
  refine ite (fun _ => ?_) fun _ => refl s
  have slept : TileWork t s (((setLaneSt s t l 1).modLane t l fun x => { x with b0 := Bank.none, b1 := Bank.none }).modHead
      (headIdx t (laneParts l).1 (laneParts l).2.1) fun x => { x with held := [] }) :=
    ((setF _ _ _ (not_steadyReg_aLane l (by decide) (by decide))).trans (modLane t l _)).trans (modHead _ _)
  exact ite (fun _ => slept.trans (setReg _ (not_steadyReg_aLane l (by decide) (by decide)))) fun _ => slept

theorem endPin (c h : Nat) : TileWork t s (endPin s t c h) := by
  unfold Machine.endPin
  refine trans ?_ (((modHead _ _).trans ((setPin _ _ _).trans (setPin _ _ _))).trans
    ((sleepIfAsked _).trans (sleepIfAsked _)))
  split
  · exact abortOps _ _
  · exact refl s

theorem releaseCap (c h id : Nat) : TileWork t s (releaseCap s t c h id) := by
  unfold Machine.releaseCap
  split
  · exact ite (fun _ => endPin c h) fun _ => refl s
  · exact refl s

theorem endThreadOf (i : Nat) : TileWork t s (endThreadOf s t i) := by
  unfold Machine.endThreadOf
  exact modEng _ _

theorem countCtxs : TileWork t s (countCtxs s t) :=
  (setF _ _ _ (not_steadyReg_aTile (by decide))).trans (setF _ _ _ (not_steadyReg_aTile (by decide)))

theorem endCtx (i : Nat) : TileWork t s (endCtx s t i) := by
  unfold Machine.endCtx
  refine ite (fun _ => refl s) fun _ => ?_
  refine trans ?_ (((modHead _ _).trans (modDet t _)).trans (((setCtx _ _ _).trans (endThreadOf i)).trans countCtxs))
  have unpinned : ∀ cap : Option Nat, TileWork t s (cap.elim s (Machine.releaseCap s t (psaCluster (s.ctx t i).want.req.psa)
      (psaHead (s.ctx t i).want.req.psa))) := fun cap => by
    cases cap with
    | none => exact refl s
    | some id => exact releaseCap _ _ id
  have freed (v : State) (j : Nat) : TileWork t v ((v.modDet t fun d =>
      { d with soft := Tab.to SoftSlot.free d.soft j SoftSlot.free }).setB (aDet t 0x10) j false) :=
    (modDet t _).trans (setB _ _ not_steadyReg_aDet)
  generalize (s.ctx t i).capid = cap at *
  generalize (s.ctx t i).slot = slot
  cases cap <;> cases slot
  · exact refl s
  · exact freed s _
  · exact unpinned (some _)
  · exact (unpinned (some _)).trans (freed _ _)

theorem fillOut : TileWork t s (fillOut s t) := (modDet t _).trans (setF _ _ _ (not_steadyReg_aTile (by decide)))

theorem pushOut (o : OutSec) : TileWork t s (pushOut s t o) := (modDet t _).trans fillOut

theorem sendDrop (w : Want) (x : Cause) : TileWork t s (sendDrop s t w x) := by
  refine (bump 1 (not_steadyReg_aTile (t := t) (o := 0x1080 + 4 * x.code) ?_)).trans ?_
  · cases x <;> decide
  · exact ite (fun _ => pushOut _) fun _ => ite (fun _ => modHeadW _ _) fun _ => refl _

section
variable (tile : t < 8)
include tile

theorem tileEdge (t' i : Nat) : TileWork t s (tileEdge s t' i) := notices tile (tileEdge_notices t' i)

theorem tileNotice (t' : Nat) (w : Word) : TileWork t s (tileNotice s t' w) :=
  (modDet t' _).trans (notices tile (irqEdge_notices _ _))

theorem dropCtx (i : Nat) (x : Cause) : TileWork t s (dropCtx s t i x) :=
  ite (fun _ => ((sendDrop _ x).trans (endCtx i)).trans (tileNotice tile t _)) fun _ => refl s

/-! ### Writes (R145, R157) -/

theorem endWrite (e : WrEnt) (st : WrSt) : TileWork t s (endWrite s t e st) := by
  unfold Machine.endWrite
  refine trans ?_ (modWr t _)
  cases st with
  | written =>
    refine (bump (a := aWrt t 0x10) 1 not_steadyReg_aWrt).trans ?_
    cases e.kind with
    | partner => exact bump 1 not_steadyReg_aWrt
    | marker => exact (bump 1 not_steadyReg_aWrt).trans (notices tile (owlHead_notices _ _ _ _ _ _ _))
    | host => exact refl _
    | calib => exact refl _
    | system => exact refl _
  | wfail => exact (bump 1 not_steadyReg_aWrt).trans (tileEdge tile t _)
  | skipped => exact bump 1 not_steadyReg_aWrt
  | retired => exact refl s

omit tile in
theorem setGate (c h : Nat) (on : Bool) : TileWork t s (setGate s t c h on) :=
  ite (fun _ => refl s) fun _ => ((setHeadW _ _).trans (setB _ _ (not_steadyReg_aWrtC c))).trans (emit _)

omit tile in
theorem takeWrites (c h : Nat) (p : WrEnt → Bool) : TileWork t s (takeWrites s t c h p).1 := tiles _ rfl

theorem endHeadWrites (c h : Nat) (st : WrSt) : TileWork t s (endHeadWrites s t c h st) :=
  ((setGate c h false).trans (takeWrites c h _)).trans (foldl (fun _ e => endWrite tile e st) _ _)

/-! ### Modes and parking (R234, R240) -/

omit tile in
theorem setPoint (c h : Nat) (code : Int) : TileWork t s (setPoint s t c h code) :=
  (modArm t c _).trans (setF _ _ _ (not_steadyReg_aCtl c))

theorem setMode (c m : Nat) : TileWork t s (setMode s t c m) := by
  refine ite (fun _ => refl s) fun _ => ?_
  refine trans ((setF (a := aCtl t c 4) 3 0 m (not_steadyReg_aCtl c)).trans ?_) (tileEdge tile t _)
  exact ite (fun _ => refl _) fun _ => foldl (fun _ _ => setB _ _ (not_steadyReg_aCtl c)) _ _

omit tile in
theorem sendMode (c : Nat) (active : Bool) (mask : Nat) : TileWork t s (sendMode s t c active mask) := by
  unfold Machine.sendMode sendCtl
  exact (modArm t c _).trans (modArm t c _)

theorem startPark (c : Nat) : TileWork t s (startPark s t c) := by
  refine ite (fun _ => refl s) fun _ => ?_
  have ready : TileWork t s (if armState s t c = 2 then Machine.sendMode (sendHeat s t c 31 0) t c true 0 else s) :=
    ite (fun _ => (modArm t c _).trans (sendMode c _ _)) fun _ => refl s
  exact (ready.trans ((foldl (fun _ h => setPoint c h 0) _ _).trans (setMode tile c 6))).trans (modCtl t c _)

/-! ### Units that stop (R195) -/

theorem dropHead (c h : Nat) : TileWork t s (dropHead s t c h) :=
  ((setHead _ _).trans (foldl (fun _ w => sendDrop w .retired) _ _)).trans
    (foldl (fun s _ => ite (fun _ => dropCtx tile _ .retired) fun _ => refl s) _ _)

theorem stopWriter (c h : Nat) : TileWork t s (stopWriter s t c h) :=
  (endHeadWrites tile c h .retired).trans (ite (fun _ => sendMode c _ _) fun _ => refl _)

theorem stopHead (c h : Nat) : TileWork t s (stopHead s t c h) := (dropHead tile c h).trans (stopWriter tile c h)

theorem stopCluster (c : Nat) : TileWork t s (stopCluster s t c) :=
  ((foldl (fun _ h => stopHead tile c h) _ _).trans (modCtl t c _)).trans
    (ite (fun _ => setMode tile c 7) fun _ => ite (fun _ => refl _) fun _ => startPark tile c)

theorem stopTile : TileWork t s (stopTile s t) := foldl (fun _ c => stopCluster tile c) _ _

end

end

end TileWork

end Sys2Proof.Machine
end

section
/-! SUPPORT. Retirement sets and their mirrors (R195, R197, R198). -/

namespace Sys2Proof.Machine

section
variable {s u : State} {t j a : Nat}

/-! ### Both copies of a set become their union (R197) -/

theorem setWordAddr_inj {i : Nat} (hi : i < 13) (hj : j < 13) (h : setWordAddr t i = setWordAddr t j) : i = j := by
  unfold setWordAddr aTile at h
  split_ifs at h <;> omega

theorem aMir_inj {i : Nat} (h : aMir t i = aMir t j) : i = j := by
  unfold aMir aHub at h
  omega

theorem setWordAddr_ne_aMir {i : Nat} (tile : t < 8) (hj : j < 13) : setWordAddr t i ≠ aMir t j := by
  have high : tileBase t ≤ setWordAddr t i := by unfold setWordAddr aTile; split_ifs <;> omega
  unfold aMir aHub
  unfold tileBase at high
  omega

/-- One word of both copies. -/
def mergeWord (s : State) (t i : Nat) : State :=
  (s.setReg (setWordAddr t i) (s.reg (setWordAddr t i) ||| s.reg (aMir t i))).setReg (aMir t i)
    (s.reg (setWordAddr t i) ||| s.reg (aMir t i))

theorem mergeWord_reg_self (tile : t < 8) (hj : j < 13) :
    (mergeWord s t j).reg (setWordAddr t j) = s.reg (setWordAddr t j) ||| s.reg (aMir t j) ∧
      (mergeWord s t j).reg (aMir t j) = s.reg (setWordAddr t j) ||| s.reg (aMir t j) := by
  refine ⟨?_, State.setReg_reg _ _ _⟩
  rw [mergeWord, State.setReg_reg_ne _ _ (setWordAddr_ne_aMir tile hj), State.setReg_reg]

theorem mergeWord_reg_ne {i : Nat} (h1 : a ≠ setWordAddr t i) (h2 : a ≠ aMir t i) : (mergeWord s t i).reg a = s.reg a := by
  rw [mergeWord, State.setReg_reg_ne _ _ h2, State.setReg_reg_ne _ _ h1]

/-- The words below `n` are merged, the others are as before. -/
theorem mergeWords_reg (tile : t < 8) (n : Nat) (range : n ≤ 13) (hj : j < 13) :
    let u := (List.range n).foldl (fun s i => mergeWord s t i) s
    let w := s.reg (setWordAddr t j) ||| s.reg (aMir t j)
    u.reg (setWordAddr t j) = (if j < n then w else s.reg (setWordAddr t j)) ∧
      u.reg (aMir t j) = if j < n then w else s.reg (aMir t j) := by
  induction n with
  | zero => exact ⟨rfl, rfl⟩
  | succ n ih =>
    obtain ⟨set, mir⟩ := ih (by omega)
    simp only [List.range_succ, List.foldl_append, List.foldl_cons, List.foldl_nil]
    by_cases h : j = n
    · subst h
      rw [if_neg (Nat.lt_irrefl j)] at set mir
      rw [(mergeWord_reg_self tile hj).1, (mergeWord_reg_self tile hj).2, set, mir, if_pos (Nat.lt_succ_self j),
        if_pos (Nat.lt_succ_self j)]
      exact ⟨rfl, rfl⟩
    · have step : (j < n + 1) = (j < n) := propext (by omega)
      rw [mergeWord_reg_ne (fun e => h (setWordAddr_inj hj (by omega) e)) (setWordAddr_ne_aMir tile (by omega)),
        mergeWord_reg_ne (fun e => setWordAddr_ne_aMir tile hj e.symm) (fun e => h (aMir_inj e)), set, mir]
      simp only [step, and_self]

theorem mergeSets_reg (tile : t < 8) (hj : j < 13) :
    (mergeSets s t).reg (setWordAddr t j) = s.reg (setWordAddr t j) ||| s.reg (aMir t j) ∧
      (mergeSets s t).reg (aMir t j) = s.reg (setWordAddr t j) ||| s.reg (aMir t j) := by
  have merged := mergeWords_reg (s := s) tile 13 (Nat.le_refl _) hj
  simp only [if_pos hj] at merged
  exact merged

theorem mergeSets_frame : mergeSets s t = { s with regs := (mergeSets s t).regs } :=
  foldl_related (R := fun s u => u = { s with regs := u.regs }) (fun _ => rfl) (fun h k => by rw [k, h])
    (fun _ _ => rfl) _ s

/-! ### What is recorded when the mirror is acknowledged (R195, R198) -/

theorem recordMirror_notices (s : State) (t : Nat) :
    onlyNotices { s with tl := { s.tl with mirror := s.tl.mirror.filter fun e => e.1 ≠ t } } (recordMirror s t) :=
  foldl_related onlyNotices_refl onlyNotices_trans (fun _ _ => owlPost_notices _ _ _ _ _ _ _) _ _

theorem recordMirror_reg (notice : noticeReg a = false) : (recordMirror s t).reg a = s.reg a :=
  (recordMirror_notices s t).2.2 a List.not_mem_nil notice

theorem recordMirror_mirror : (recordMirror s t).tl.mirror = s.tl.mirror.filter fun e => e.1 ≠ t := by
  rw [(recordMirror_notices s t).1]

theorem retireChanged_reg (h : a ≠ aHub 0x1200) : (retireChanged s).reg a = s.reg a := State.setReg_reg_ne _ _ h

/-- A create that ends with its blanking clears the namespace's words, which lie above the hub's own pages. -/
theorem endBlanking_reg (low : a < 0x200000) : (endBlanking s).reg a = s.reg a := by
  refine foldl_related (R := fun s u => u.reg a = s.reg a) (fun _ => rfl) (fun h k => k.trans h) (fun v e => ?_) _ s
  dsimp only
  split
  · refine ((Ending.completeCmd _).regs a ?_).trans ?_
    · simp only [List.mem_singleton, aNq]
      omega
    · refine foldl_related (R := fun s u => u.reg a = s.reg a) (fun _ => rfl) (fun h k => k.trans h) (fun v j => ?_) _ _
      refine State.setReg_reg_ne _ _ ?_
      unfold aNs aNq
      omega
  · rfl

/-- Zones that a retirement makes read only change no register, and nothing of the tiles. -/
theorem settleZones_zones : ∃ z, settleZones s = { endBlanking s with nq := { (endBlanking s).nq with zones := z } } := by
  refine foldl_related (R := fun s u => ∃ z, u = { s with nq := { s.nq with zones := z } }) (fun _ => ⟨_, rfl⟩) ?_
    (fun v k => ?_) _ _
  · rintro s t u ⟨z, h⟩ ⟨y, k⟩
    exact ⟨y, by rw [k, h]⟩
  · dsimp only
    split
    · exact ⟨_, rfl⟩
    · exact ⟨_, rfl⟩

theorem settleZones_reg : (settleZones s).reg a = (endBlanking s).reg a := by
  obtain ⟨z, h⟩ := settleZones_zones (s := s)
  rw [h]
  rfl

theorem endBlanking_none (h : s.nq.blanking = []) : endBlanking s = s := by
  rw [endBlanking, h, List.foldl_nil]

theorem mirrorDiffers_false (h : mirrorDiffers s t = false) (hj : j < 13) : s.reg (setWordAddr t j) = s.reg (aMir t j) := by
  have all := List.any_eq_false.1 h j (List.mem_range.2 hj)
  simpa using all

theorem aMir_low (tile : t < 8) (hj : j < 13) : aMir t j < 0x1200 := by
  unfold aMir aHub
  omega

/-- An acknowledged mirror holds what either copy held. -/
theorem mirrorDone_mirror (tile : t < 8) (hj : j < 13) :
    (mirrorDone s t).reg (aMir t j) = s.reg (setWordAddr t j) ||| s.reg (aMir t j) := by
  have low := aMir_low tile hj
  have notice := steadyReg_not_notice (t := t) tile (steadyReg_mirror tile rfl hj)
  unfold mirrorDone
  split
  · refine settleZones_reg.trans ((endBlanking_reg (by omega)).trans ?_)
    rw [retireChanged_reg (by unfold aHub; omega), recordMirror_reg notice]
    exact (mergeSets_reg tile hj).2
  · next same =>
    rw [recordMirror_reg notice, mirrorDiffers_false (Bool.eq_false_iff.2 same) hj, BitVec.or_self]

/-- While no namespace is being blanked, the tile's own set holds it too. -/
theorem mirrorDone_set (tile : t < 8) (hj : j < 13) (idle : s.nq.blanking = []) :
    (mirrorDone s t).reg (setWordAddr t j) = s.reg (setWordAddr t j) ||| s.reg (aMir t j) := by
  have notice := steadyReg_not_notice (t := t) tile (steadyReg_set rfl hj)
  unfold mirrorDone
  split
  · have still : (retireChanged (recordMirror (mergeSets s t) t)).nq.blanking = [] := by
      show (recordMirror (mergeSets s t) t).nq.blanking = []
      rw [(recordMirror_notices _ t).1, mergeSets_frame]
      exact idle
    rw [settleZones_reg, endBlanking_none still, retireChanged_reg, recordMirror_reg notice]
    · exact (mergeSets_reg tile hj).1
    · intro e
      have := setWordAddr_ne_aMir (t := t) (i := j) tile (show 12 < 13 by decide)
      unfold setWordAddr aTile tileBase aHub at e
      split_ifs at e <;> omega
  · next same =>
    rw [recordMirror_reg notice, mirrorDiffers_false (Bool.eq_false_iff.2 same) hj, BitVec.or_self]

/-! ### A tile that is retired (R194, R195) -/

theorem setWordAddr_last : setWordAddr t 12 = aTile t 0x1140 := rfl

/-- The state with a unit's bit set, its cause noted, and its retirement to be mirrored. -/
def marked (s : State) (b : Nat × Nat) (t w cause : Nat) : State :=
  let u := noteCause (s.setB b.1 b.2 true) w cause
  { u with tl := { u.tl with mirror := u.tl.mirror ++ [(t, w, cause)] } }

theorem marked_bit {b : Nat × Nat} (w cause : Nat) (h : b.2 < 32) : (marked s b t w cause).bit b.1 b.2 = true := by
  have set : (marked s b t w cause).reg b.1 = setBit (s.reg b.1) b.2 true := State.setReg_reg s b.1 _
  rw [State.bit, set]
  exact setBit_getLsbD_self _ true h

theorem retireOne_serving {kind c h r cause : Nat} (serves : unitRetired s t kind c h r = false) :
    retireOne s t kind c h r cause = tileNotice (tileEdge (stopUnit (marked s (retireBit t kind c h r) t
      (kindWord kind t c h r) cause) t kind c h r) t 233) t (place 31 28 2 ||| w32 (kindWord kind t c h r % 2 ^ 28)) :=
  if_neg (by rw [serves]; decide)

theorem retireBit_tile : retireBit t 5 0 0 0 = (aTile t 0x1140, 8) := rfl

theorem stopUnit_tile : stopUnit s t 5 0 0 0 = stopTile s t := by simp [stopUnit]

theorem retire_tile (cause : Nat) : retire s t 5 0 0 0 cause = retireOne s t 5 0 0 0 cause := by simp [retire]

/-- A tile's own bit stands once the tile is retired. -/
theorem retire_tile_own (tile : t < 8) (cause : Nat) : unitRetired (retire s t 5 0 0 0 cause) t 5 0 0 0 = true := by
  have steady : steadyReg t (aTile t 0x1140) := steadyReg_set setWordAddr_last (by decide)
  have stops (v : State) (w : Word) :
      (tileNotice (tileEdge (stopTile v t) t 233) t w).reg (aTile t 0x1140) = v.reg (aTile t 0x1140) :=
    ((TileWork.stopTile tile).trans ((TileWork.tileEdge tile t 233).trans (TileWork.tileNotice tile t w))).regs _ steady
  rw [retire_tile]
  cases serves : unitRetired s t 5 0 0 0 with
  | true =>
    rw [retireOne, if_pos serves]
    exact serves
  | false =>
    rw [retireOne_serving serves, unitRetired, retireBit_tile, stopUnit_tile, State.bit, stops]
    exact marked_bit (b := (aTile t 0x1140, 8)) _ _ (Nat.lt_of_sub_eq_succ rfl)

theorem mirrorDone_tileRetired (tile : t < 8) (own : unitRetired s t 5 0 0 0 = true) :
    tileRetired (mirrorDone s t) t = true := by
  unfold tileRetired State.bit
  rw [mirrorDone_mirror tile (by decide), setWordAddr_last, BitVec.getLsbD_or]
  rw [unitRetired, retireBit_tile, State.bit] at own
  rw [own, Bool.true_or]

theorem retireTile_tileRetired (tile : t < 8) (cause : Nat) : tileRetired (retireTile s t cause) t = true := by
  unfold retireTile
  split
  · assumption
  · exact mirrorDone_tileRetired tile (retire_tile_own tile cause)

end

end Sys2Proof.Machine
end

section
/-! SUPPORT. O28: TILE_EVENT and DISPATCH_TIMER_TICK (R30, R34, R35, R289, R291). -/

namespace Sys2Proof.Machine

section
variable {s : State} {t th op : Nat} {ev w : Word} {rest : List Word}

/-- The tile's first event has crossed to the hub. -/
def eventCrossed (s : State) (t : Nat) (ev : Word) (rest : List Word) : State :=
  crossAtOnce (s.setDet t { s.det t with events := rest }) t 1 1 (beBytes 4 ev.toNat)

theorem eventCrossed_links : LinksOnly (s.setDet t { s.det t with events := rest }) (eventCrossed s t ev rest) :=
  .crossAtOnce _ _ _ _ _

theorem eventCrossed_frame : eventCrossed s t ev rest = { s with
    out := (eventCrossed s t ev rest).out
    tl := { s.tl with dets := (eventCrossed s t ev rest).tl.dets, links := (eventCrossed s t ev rest).tl.links } } := by
  rw [eventCrossed_links.frame]
  rfl

theorem eventCrossed_events : ((eventCrossed s t ev rest).det t).events = rest := by
  rw [eventCrossed_links.det, State.setDet_det]

theorem eventCrossed_credits : nth 0 ((eventCrossed s t ev rest).link t 1).credits 1 =
    nth 0 (s.link t 1).credits 1 - 1 := crossAtOnce_credits (by decide)

/-- The dispatch engine is as it was, and so is what a packet meets there. -/
theorem eventCrossed_dispatch : freeThread (eventCrossed s t ev rest) 0 = freeThread s 0 ∧
    packetThread (eventCrossed s t ev rest) op w = packetThread s op w ∧
    ∀ j, thread (eventCrossed s t ev rest) 0 j = thread s 0 j :=
  dispatch_congr (eventCrossed_links.eng 0) eventCrossed_links.reg

theorem exec_tileEvent_idle (tile : s.hasTile t = true)
    (h : (s.det t).events = [] ∨ s.linkUp t = false ∨ nth 0 (s.link t 1).credits 1 = 0) :
    exec (.tileEvent t) s = .next s := by
  refine (onTile_next tile).trans (congrArg _ ?_)
  split
  · rfl
  · next ev rest events =>
    refine if_neg ?_
    rintro ⟨up, credits⟩
    rw [hasCredits_iff] at credits
    rcases h with h | h | h
    · simp [events] at h
    · simp [up] at h
    · omega

/-- The event has left the tile with its credit, and goes to the dispatch engine as that was. -/
theorem exec_tileEvent (tile : s.hasTile t = true) (events : (s.det t).events = ev :: rest) (up : s.linkUp t = true)
    (credits : 1 ≤ nth 0 (s.link t 1).credits 1) : ∃ v, exec (.tileEvent t) s = .next
        (if fld ev 31 28 = 3 then retireTile (dispatchPacket v 0xF0 ev 0) t 0x0C else dispatchPacket v 0xF0 ev 0) ∧
      (v.det t).events = rest ∧ nth 0 (v.link t 1).credits 1 = nth 0 (s.link t 1).credits 1 - 1 ∧
      (freeThread v 0 = freeThread s 0 ∧ packetThread v 0xF0 ev = packetThread s 0xF0 ev ∧
        ∀ j, thread v 0 j = thread s 0 j) ∧
      v = { s with out := v.out, tl := { s.tl with dets := v.tl.dets, links := v.tl.links } } := by
  refine ⟨eventCrossed s t ev rest, (onTile_next tile).trans (congrArg _ ?_), eventCrossed_events, eventCrossed_credits,
    eventCrossed_dispatch, eventCrossed_frame⟩
  rw [events]
  exact if_pos ⟨up, hasCredits_iff.2 credits⟩

/-- The tick's own packet, when none waits. -/
theorem exec_dispatchTimerTick (none : s.tl.packets = [] ∨ freeThread s 0 = none) :
    exec .dispatchTimerTick s = .next (dispatchPacket s 0xF3 0 0) := by
  have still : nextPacket s = s := by
    unfold nextPacket
    split
    · rfl
    · next waits =>
      rcases none with none | none
      · simp [waits] at none
      · rw [none]
        rfl
  exact congrArg (fun u => Host.Outcome.next (dispatchPacket u 0xF3 0 0)) still

end

/-- A packet without a word leaves every register of its thread at 0. -/
theorem noWord_regs : Tab.to (0 : Word) [] 1 0 = [] := by decide

/-- Settles O28, by the lowest free thread or its absence. -/
theorem packetsStartDispatchThreads : Obligations.PacketsStartDispatchThreads := by
  intro s
  refine ⟨fun t tile => ⟨exec_tileEvent_idle tile, fun ev rest events up credits => ?_⟩, fun th none free => ?_,
    fun full => ?_⟩
  · obtain ⟨v, run, gone, spent, ⟨frees, starts, threads⟩, frame⟩ := exec_tileEvent tile events up credits
    refine ⟨fun th class3 free => ?_, fun class3 full => ?_, fun class3 => ?_⟩
    · rw [if_neg class3, dispatchPacket_free (frees.trans free), starts] at run
      refine ⟨_, run, by rwa [setThread_det], by rwa [setThread_link], thread_setThread_self _, fun j other => ?_, ?_⟩
      · rw [thread_setThread_ne _ other, threads]
      · rw [setThread_frame, frame]
    · rw [if_neg class3, dispatchPacket_waits (frees.trans full)] at run
      refine ⟨_, run, gone, ?_, ?_⟩
      · rw [frame]
      · rw [frame]
    · rw [if_pos class3] at run
      exact ⟨_, run, retireTile_tileRetired (hasTile_lt tile) _⟩
  · have run := exec_dispatchTimerTick (.inl none)
    rw [dispatchPacket_free free] at run
    refine ⟨_, run, ?_, fun j other => thread_setThread_ne _ other, setThread_frame _⟩
    rw [thread_setThread_self, packetThread, noWord_regs]
  · rw [exec_dispatchTimerTick (.inr full), dispatchPacket_waits full]

end Sys2Proof.Machine
end

section
/-! SUPPORT. What a head that goes to its work leaves as it was (R46, R58, R227, R236, R237). -/

namespace Sys2Proof.Machine

/-- Work of tile `t` that leaves what its heads read and write for as it was. -/
structure Motion (t : Nat) (s u : State) : Prop where
  work : TileWork t s u
  heads : u.tl.heads = s.tl.heads
  headW : u.tl.headW = s.tl.headW

namespace Motion

section
variable {t a : Nat} {s u v : State}

theorem refl (s : State) : Motion t s s := ⟨.refl s, rfl, rfl⟩

theorem trans (h : Motion t s u) (k : Motion t u v) : Motion t s v :=
  ⟨h.work.trans k.work, k.heads.trans h.heads, k.headW.trans h.headW⟩

theorem ite {c : Prop} [Decidable c] (h : c → Motion t s u) (k : ¬c → Motion t s v) :
    Motion t s (if c then u else v) := by
  split
  · exact h ‹_›
  · exact k ‹_›

theorem foldl {α : Type} {f : State → α → State} (step : ∀ s a, Motion t s (f s a)) (l : List α) (s : State) :
    Motion t s (l.foldl f s) := foldl_related refl trans step l s

theorem setReg (w : Word) (h : ¬ steadyReg t a) : Motion t s (s.setReg a w) := ⟨.setReg w h, rfl, rfl⟩

theorem setF (hi lo n : Nat) (h : ¬ steadyReg t a) : Motion t s (s.setF a hi lo n) := setReg _ h

theorem setB (i : Nat) (b : Bool) (h : ¬ steadyReg t a) : Motion t s (s.setB a i b) := setReg _ h

theorem modHeadS (i : Nat) (f : HeadS → HeadS) : Motion t s (s.modHeadS i f) := ⟨.modHeadS i f, rfl, rfl⟩

theorem modCtl (c : Nat) (f : Ctl → Ctl) : Motion t s (s.modCtl t c f) := ⟨.modCtl t c f, rfl, rfl⟩

theorem notices (tile : t < 8) (h : onlyNotices s u) : Motion t s u := by
  have work := TileWork.notices tile h
  refine ⟨work, ?_, ?_⟩ <;> rw [h.1]

theorem head (h : Motion t s u) (i : Nat) : u.head i = s.head i := by
  rw [State.head, h.heads]
  rfl

theorem writing (h : Motion t s u) (i : Nat) : (u.headW i).writing = (s.headW i).writing := by
  rw [State.headW, h.headW]
  rfl

end

/-! ### References and zones (R74, R227, R237) -/

section
variable {t : Nat} {s : State}

theorem setRef (c h : Nat) (track off : Int) : Motion t s (setRef s t c h track off) := by
  unfold Machine.setRef
  exact ((setReg _ (not_steadyReg_aCtl c)).trans (setReg _ (not_steadyReg_aCtl c))).trans (modHeadS _ _)

theorem setZoneOf (c z : Nat) : Motion t s (setZoneOf s t c z) :=
  foldl (fun _ k => (setF _ _ _ (not_steadyReg_aLane (48 * c + k) (by decide) (by decide))).trans
    (ite (fun _ => setReg _ (not_steadyReg_aLane (48 * c + k) (by decide) (by decide))) fun _ => refl _)) _ _

theorem aimAll (c : Nat) (track : Int) : Motion t s (aimAll s t c track) :=
  foldl (fun _ h => (modHeadS _ _).trans (ite (fun _ => refl _) fun _ => setRef c h track 0)) _ _

/-! ### Modes, where no head of the cluster writes (R234, R236) -/

theorem setMode (tile : t < 8) (c m : Nat) : Motion t s (setMode s t c m) := by
  refine ite (fun _ => refl s) fun _ => ?_
  refine trans ((setF (a := aCtl t c 4) 3 0 m (not_steadyReg_aCtl c)).trans ?_) (notices tile (tileEdge_notices _ _))
  exact ite (fun _ => refl _) fun _ => foldl (fun _ _ => setB _ _ (not_steadyReg_aCtl c)) _ _

/-- A head that writes nothing has nothing to cut. -/
theorem cutBurst_still {c h : Nat} (still : (s.headW (headIdx t c h)).writing = false) : cutBurst s t c h = s := by
  unfold cutBurst
  dsimp only
  split
  · rw [if_pos (by simp [still])]
  · exact if_pos (Bool.or_eq_false_iff.1 still).1

theorem cutBursts_still {c : Nat} (still : noneWriting s t c) :
    (List.range 24).foldl (fun s h => cutBurst s t c h) s = s := by
  have each : ∀ h ∈ List.range 24, cutBurst s t c h = s := fun h mem => cutBurst_still (still h (List.mem_range.1 mem))
  generalize List.range 24 = l at each
  induction l with
  | nil => rfl
  | cons h l ih =>
    rw [List.foldl_cons, each h List.mem_cons_self]
    exact ih fun j mem => each j (List.mem_cons_of_mem _ mem)

theorem unsafeEval {c : Nat} (still : noneWriting s t c) : Motion t s (unsafeEval s t c false) := by
  have marked : Motion t s (s.setF (aCtl t c 4) 23 16 (unsafeCauses s t c)) := setF _ _ _ (not_steadyReg_aCtl c)
  refine marked.trans (ite (fun _ => ?_) fun _ => refl _)
  have raised (v : State) : Motion t v ((v.setB (aCtl t c 4) 31 true).modCtl t c fun x => { x with clean := 0 }) :=
    (setB _ _ (not_steadyReg_aCtl c)).trans (modCtl c _)
  have shut := cutBursts_still (t := t) (c := c) fun h range => ((marked.trans (raised _)).writing _).trans (still h range)
  exact shut.symm ▸ raised _

theorem goMode (tile : t < 8) {c : Nat} (m : Nat) (still : noneWriting s t c) : Motion t s (goMode s t c m) :=
  (setMode tile c m).trans (unsafeEval fun h range => ((setMode tile c m).writing _).trans (still h range))

theorem startSeek (tile : t < 8) {c : Nat} (track : Int) (still : noneWriting s t c) : Motion t s (startSeek s t c track) := by
  have aimed : Motion t s (Machine.aimAll (Machine.setZoneOf s t c (if track < 0 then 0 else zoneOf s t track.toNat)) t c track) :=
    (setZoneOf c _).trans (aimAll c track)
  refine aimed.trans (ite (fun _ => ?_) fun _ => refl _)
  have counted (v : State) : Motion t v ((v.bump (aCtl t c 0x5C)).modCtl t c fun x => { x with mean := none, lost := 0 }) :=
    (setReg _ (not_steadyReg_aCtl c)).trans (modCtl c _)
  exact (counted _).trans (goMode tile 3 fun h range => ((aimed.trans (counted _)).writing _).trans (still h range))

/-- A comb that seeks for a request has no head that writes. -/
theorem headGo (tile : t < 8) (c h : Nat) : Motion t s (headGo s t c h) := by
  unfold Machine.headGo
  dsimp only
  split
  · exact refl s
  · refine ite (fun _ => refl s) fun _ => ite (fun _ => ?_) fun _ => ite (fun _ => refl s) fun idle => ?_
    · exact (modHeadS _ _).trans (setRef c h _ 0)
    · refine startSeek tile _ fun j range => Bool.eq_false_iff.2 fun writes => idle ?_
      exact List.any_eq_true.2 ⟨j, List.mem_range.2 range, by simp [headWorks, writes]⟩

end

end Motion

/-! ### Filling a head's capture queue (R58, R101) -/

section
variable {s u : State} {t c h : Nat}

/-- Filling the queue of a head changes the heads' reading alone. -/
theorem takeEntry_frame (taken : takeEntry s t c h = some u) : u = { s with tl := { s.tl with heads := u.tl.heads } } := by
  unfold takeEntry at taken
  dsimp only at taken
  split at taken
  · cases taken
  · exact (Option.some.inj taken) ▸ rfl

theorem fillQueue_frame (n : Nat) : fillQueue n s t c h =
    { s with tl := { s.tl with heads := (fillQueue n s t c h).tl.heads } } := by
  induction n generalizing s with
  | zero => rfl
  | succ n ih =>
    unfold fillQueue
    split
    · rfl
    · split
      · next v taken => rw [ih, takeEntry_frame taken]
      · rfl

theorem fillCap_frame : fillCap s t c h = { s with tl := { s.tl with heads := (fillCap s t c h).tl.heads } } := by
  unfold fillCap
  split
  · exact fillQueue_frame 4
  · rfl

/-- The two readers' places of an entry hold the sector taken and the one beside it. -/
theorem mem_entryPlaces {w v : Want} {mate : Option Want} (onB : Bool) (mem : v = w ∨ mate = some v) :
    v ∈ (if onB then mate else some w).toList ++ (if onB then some w else mate).toList := by
  cases onB <;> rcases mem with rfl | rfl <;> simp

theorem takeEntry_wanted {req : MediaReq} (wants : wanted s (headIdx t c h) req) (taken : takeEntry s t c h = some u) :
    wanted u (headIdx t c h) req := by
  unfold takeEntry at taken
  dsimp only at taken
  split at taken
  · cases taken
  · next w _ =>
    rw [← Option.some.inj taken, wanted, State.setHead_head]
    rcases wants with ⟨v, mem, vreq⟩ | ⟨e, mem, v, rest⟩
    · generalize (s.head (headIdx t c h)).want.find? _ = mate
      by_cases placed : v = w ∨ mate = some v
      · exact .inr ⟨_, List.mem_append_right _ (List.mem_singleton.2 rfl), v, mem_entryPlaces _ placed, vreq⟩
      · rw [not_or] at placed
        refine .inl ⟨v, ?_, vreq⟩
        have left := (List.mem_erase_of_ne placed.1).2 mem
        cases mate with
        | none => exact left
        | some y => exact (List.mem_erase_of_ne fun e => placed.2 (congrArg some e.symm)).2 left
    · exact .inr ⟨e, List.mem_append_left _ mem, v, rest⟩

theorem fillQueue_wanted {req : MediaReq} (n : Nat) (wants : wanted s (headIdx t c h) req) :
    wanted (fillQueue n s t c h) (headIdx t c h) req := by
  induction n generalizing s with
  | zero => exact wants
  | succ n ih =>
    unfold fillQueue
    split
    · exact wants
    · split
      · next taken => exact ih (takeEntry_wanted wants taken)
      · exact wants

/-- What a head has to read stays wanted of it as its queue is filled. -/
theorem fillCap_wanted {req : MediaReq} (wants : wanted s (headIdx t c h) req) :
    wanted (fillCap s t c h) (headIdx t c h) req := by
  unfold fillCap
  split
  · exact fillQueue_wanted 4 wants
  · exact wants

theorem wanted_congr {i : Nat} {req : MediaReq} (same : u.head i = s.head i) (wants : wanted s i req) : wanted u i req := by
  rwa [wanted, same]

end

end Sys2Proof.Machine
end

section
/-! SUPPORT. O14: MEDIA_REQUEST (R20, R30, R36, R99, R186). -/

namespace Sys2Proof.Machine

section
variable {s u v : State} {t c h l : Nat} {req : MediaReq}

/-! ### The outbound data queue (R20, R23) -/

theorem setReg_det (a : Nat) (w : Word) (t : Nat) : (s.setReg a w).det t = s.det t := rfl

/-- With nothing waiting and an entry free, what is pushed is the queue's last. -/
theorem pushOut_det {o : OutSec} (idle : (s.det t).outWait = []) (room : outUsed s t < 48) :
    (pushOut s t o).det t = { s.det t with outQ := (s.det t).outQ ++ [o] } := by
  have first : ((s.modDet t fun d => { d with outWait := d.outWait ++ [o] }).det t) = { s.det t with outWait := [o] } := by
    rw [State.modDet_eq, State.setDet_det, idle, List.nil_append]
  have used : outUsed (s.modDet t fun d => { d with outWait := d.outWait ++ [o] }) t = outUsed s t := by
    rw [outUsed, first, outUsed]
  obtain ⟨n, one⟩ : ∃ n, 48 - outUsed s t = n + 1 := ⟨47 - outUsed s t, by omega⟩
  have moved : (s.det t).outQ ++ [o].take (n + 1) = (s.det t).outQ ++ [o] := by
    rw [List.take_succ_cons, List.take_nil]
  unfold pushOut fillOut
  dsimp only
  rw [used, one]
  generalize (s.modDet t fun d => { d with outWait := d.outWait ++ [o] }) = v at first
  generalize aTile t 0x1168 = a
  rw [State.setF_eq, setReg_det, State.modDet_eq, State.setDet_det, first, moved, List.drop_succ_cons, List.drop_nil, idle]

/-- A dropped sector of the hub's counts in LDROP and goes out with its cause (R26). -/
theorem sendDrop_forHub {w : Want} {x : Cause} (hub : forHub w.req.kind = true) : sendDrop s t w x =
    pushOut (s.bump (aTile t (0x1080 + 4 * x.code))) t ⟨w.req.psa, w.req, [], false, 0, some x, 0, none⟩ := by
  simp only [sendDrop, hub, if_true]

/-! ### Waking (R99) -/

theorem aLane_inj {o o' l' : Nat} (h : o < 0x1000) (h' : o' < 0x1000) (same : aLane t l o = aLane t l' o') :
    l = l' ∧ o = o' := by
  unfold aLane at same
  omega

/-- Waking writes the lane's CTRL and STATE alone. -/
theorem wakeLane_onlyRegs {as : List Nat} (ctrl : aLane t l 0 ∈ as) (state : aLane t l 4 ∈ as) :
    onlyRegs as s (wakeLane s t l) := by
  have cleared : onlyRegs as s (s.setB (aLane t l 0) 0 false) := onlyRegs_setReg _ ctrl
  unfold wakeLane setLaneSt
  dsimp only
  split
  · exact cleared.trans (onlyRegs_setReg _ state)
  · exact cleared

theorem wakeLane_ctrl : (wakeLane s t l).bit (aLane t l 0) 0 = false := by
  have cleared : (s.setB (aLane t l 0) 0 false).bit (aLane t l 0) 0 = false := by
    rw [State.bit, State.setB_eq, State.setReg_reg]
    exact setBit_getLsbD_self _ false (by decide)
  have apart : aLane t l 0 ≠ aLane t l 4 := fun e => absurd (aLane_inj (by decide) (by decide) e).2 (by decide)
  unfold wakeLane setLaneSt
  dsimp only
  generalize s.setB (aLane t l 0) 0 false = v at cleared
  split
  · rw [State.bit, State.setF_eq, State.setReg_reg_ne _ _ apart, ← State.bit, cleared]
  · exact cleared

/-- Waking a head writes the CTRL and STATE of its two lanes alone. -/
theorem wakeHead_onlyRegs : onlyRegs [aLane t (laneOf c h 0) 0, aLane t (laneOf c h 0) 4, aLane t (laneOf c h 1) 0,
    aLane t (laneOf c h 1) 4] s (wakeHead s t c h) := by
  unfold wakeHead
  exact (wakeLane_onlyRegs (by simp) (by simp)).trans (wakeLane_onlyRegs (by simp) (by simp))

theorem wakeLane_ctrl_ne {l' : Nat} (other : l' ≠ l) : (wakeLane s t l).bit (aLane t l' 0) 0 = s.bit (aLane t l' 0) 0 := by
  have apart (o : Nat) (small : o < 0x1000) : aLane t l' 0 ≠ aLane t l o := fun e => other (aLane_inj (by decide) small e).1
  have kept : onlyRegs [aLane t l 0, aLane t l 4] s (wakeLane s t l) := wakeLane_onlyRegs (by simp) (by simp)
  have outside : aLane t l' 0 ∉ [aLane t l 0, aLane t l 4] := by
    rw [List.mem_cons, List.mem_singleton, not_or]
    exact ⟨apart 0 (by decide), apart 4 (by decide)⟩
  rw [State.bit, kept.1 _ outside, State.bit]

theorem wakeHead_ctrl : (wakeHead s t c h).bit (aLane t (laneOf c h 0) 0) 0 = false ∧
    (wakeHead s t c h).bit (aLane t (laneOf c h 1) 0) 0 = false := by
  have two : laneOf c h 0 ≠ laneOf c h 1 := by unfold laneOf; omega
  unfold wakeHead
  generalize laneOf c h 0 = l at *
  generalize laneOf c h 1 = l' at *
  constructor
  · rw [wakeLane_ctrl_ne two, wakeLane_ctrl]
  · rw [wakeLane_ctrl]

/-! ### Sectors wanted of a head (R20 step 5, R99) -/

theorem fillCap_work : TileWork t s (fillCap s t c h) := by
  rw [fillCap_frame]
  exact .tiles _ rfl

/-- What a head that is asked for a sector leaves as it was, and what it does about it. -/
theorem wantSectors_effect (tile : t < 8) (hc : c < 4) (hh : h < 24) :
    wanted (wantSectors s t c h [⟨req, none, false⟩]) (headIdx t c h) req ∧
      (∀ r, r < 2 → (wantSectors s t c h [⟨req, none, false⟩]).bit (aLane t (laneOf c h r) 0) 0 = false) ∧
      (∃ w, TileWork t { s with regs := w } (wantSectors s t c h [⟨req, none, false⟩])) := by
  unfold wantSectors
  dsimp only
  obtain ⟨ctrlA, ctrlB⟩ := wakeHead_ctrl (s := s) (t := t) (c := c) (h := h)
  have frame := (wakeHead_onlyRegs (s := s) (t := t) (c := c) (h := h)).2
  generalize wakeHead s t c h = v at *
  have asked : TileWork t v (v.modHead (headIdx t c h) fun x => { x with want := x.want ++ [⟨req, none, false⟩] }) :=
    .modHead _ _
  have wants : wanted (v.modHead (headIdx t c h) fun x => { x with want := x.want ++ [⟨req, none, false⟩] })
      (headIdx t c h) req :=
    .inl ⟨⟨req, none, false⟩, by rw [State.modHead_eq, State.setHead_head]; exact List.mem_append_right _ (List.mem_singleton.2 rfl),
      rfl⟩
  generalize (v.modHead (headIdx t c h) fun x => { x with want := x.want ++ [⟨req, none, false⟩] }) = w at asked wants
  have went : Motion t w (headGo w t c h) := .headGo tile c h
  have work := asked.trans (went.work.trans (fillCap_work (c := c) (h := h)))
  refine ⟨fillCap_wanted (wanted_congr (went.head _) wants), fun r range => ?_, v.regs, ?_⟩
  · have kept := work.regs (aLane t (laneOf c h r) 0) (steadyReg_ctrl (by unfold laneOf; omega))
    rw [State.bit, kept, ← State.bit]
    obtain rfl | rfl : r = 0 ∨ r = 1 := by omega
    · rw [ctrlA]
    · rw [ctrlB]
  · rw [← frame]
    exact work

/-! ### MEDIA_REQUEST -/

theorem exec_mediaRequest (on : channelOn s t) : exec (.mediaRequest t) s = .next (mediaSend s t) := onTileCh_next on

theorem mediaSend_idle (none : (Tab.at [] s.buf.held t).find? (placedAll s) = none) : mediaSend s t = s := by
  simp only [mediaSend, none]

theorem mediaSend_closed (first : (Tab.at [] s.buf.held t).find? (placedAll s) = some req) (closed : takesMedia s t = false) :
    mediaSend s t = s := by
  simp only [mediaSend, first, closed, Bool.false_eq_true, if_false]

/-- The request is no longer held at the hub. -/
def unheld (s : State) (t : Nat) (req : MediaReq) : State :=
  { s with buf := { s.buf with held := Tab.to [] s.buf.held t ((Tab.at [] s.buf.held t).erase req) } }

theorem unheld_link {e : Nat} : (unheld s t req).link t e = s.link t e := rfl

/-- The tile's last request was now. -/
def stamped (s : State) (t : Nat) : State := { s with power := { s.power with lastReq := Tab.to 0 s.power.lastReq t s.now } }

theorem stamped_link {e : Nat} : (stamped s t).link t e = s.link t e := rfl

/-- The request has crossed to the tile, at the time now. -/
def requested (s : State) (t : Nat) (req : MediaReq) : State :=
  stamped (crossAtOnce (unheld s t req) t 0 1 (beBytes 6 req.psa)) t

theorem mediaSend_sends (first : (Tab.at [] s.buf.held t).find? (placedAll s) = some req) (takes : takesMedia s t = true) :
    mediaSend s t = if headDead (requested s t req) t (psaCluster req.psa) (psaHead req.psa) then
        sendDrop (requested s t req) t ⟨req, none, false⟩ .retired
      else wantSectors (requested s t req) t (psaCluster req.psa) (psaHead req.psa) [⟨req, none, false⟩] := by
  simp only [mediaSend, first, takes, if_true]
  rfl

theorem requested_frame : requested s t req = { s with
    out := (requested s t req).out
    power := { s.power with lastReq := Tab.to 0 s.power.lastReq t s.now }
    buf := { s.buf with held := Tab.to [] s.buf.held t ((Tab.at [] s.buf.held t).erase req) }
    tl := { s.tl with links := (requested s t req).tl.links } } := by
  have crossed := (LinksOnly.crossAtOnce (unheld s t req) t 0 1 (beBytes 6 req.psa)).frame
  unfold requested
  generalize crossAtOnce (unheld s t req) t 0 1 (beBytes 6 req.psa) = v at *
  rw [crossed]
  rfl

theorem requested_credits : nth 0 ((requested s t req).link t 0).credits 1 = nth 0 (s.link t 0).credits 1 - 1 := by
  unfold requested
  rw [stamped_link, crossAtOnce_credits (by decide), unheld_link]

/-- What both ends of a request leave: the time of the last request, the requests held, the credit spent. -/
theorem requested_work {w : Tab Word} (work : TileWork t { requested s t req with regs := w } u) :
    Tab.at 0 u.power.lastReq t = s.now ∧ Tab.at [] u.buf.held t = (Tab.at [] s.buf.held t).erase req ∧
      nth 0 (u.link t 0).credits 1 = nth 0 (s.link t 0).credits 1 - 1 ∧
      u.nq = s.nq ∧ u.slots = s.slots ∧ u.flash = s.flash ∧ u.mgmt = s.mgmt ∧ u.ports = s.ports := by
  obtain ⟨nq, buf, slots, flash, mgmt, power, ports⟩ := work.fields
  have credits := requested_credits (s := s) (t := t) (req := req)
  have frame := requested_frame (s := s) (t := t) (req := req)
  have link : u.link t 0 = (requested s t req).link t 0 := work.link t 0
  generalize requested s t req = v at *
  rw [power, buf, nq, slots, flash, mgmt, ports, link, credits, frame]
  exact ⟨Tab.at_to_self 0 _ t _, Tab.at_to_self [] _ t _, rfl, rfl, rfl, rfl, rfl, rfl⟩

end

/-- Settles O14, by whether a request is held, the tile takes it, and its head serves. -/
theorem mediaRequestsAreWanted : Obligations.MediaRequestsAreWanted := by
  intro s t on
  refine ⟨fun none => ?_, ?_⟩
  · rw [exec_mediaRequest on, mediaSend_idle none]
  rintro req c h first rfl rfl
  refine ⟨fun closed => ?_, fun takes hc hh => ?_⟩
  · rw [exec_mediaRequest on, mediaSend_closed first closed]
  have run := exec_mediaRequest on
  rw [mediaSend_sends first takes] at run
  have frame := requested_frame (s := s) (t := t) (req := req)
  have rest (u : State) (w : Tab Word) := requested_work (s := s) (t := t) (req := req) (u := u) (w := w)
  generalize requested s t req = v at *
  have dead : headDead v t (psaCluster req.psa) (psaHead req.psa) = headDead s t (psaCluster req.psa) (psaHead req.psa) := by
    rw [frame]
    rfl
  cases serves : headDead s t (psaCluster req.psa) (psaHead req.psa) with
  | true =>
    rw [if_pos (dead.trans serves)] at run
    obtain ⟨last, held, credits, others⟩ := rest _ v.regs (TileWork.sendDrop (s := v) ⟨req, none, false⟩ .retired)
    refine ⟨_, run, last, held, credits, fun _ idle room hub => ?_, nofun, others⟩
    have det : v.det t = s.det t := by rw [frame]; rfl
    have bumped : (v.bump (aTile t (0x1080 + 4 * Cause.code .retired))).det t = s.det t := (setReg_det _ _ t).trans det
    rw [sendDrop_forHub hub, pushOut_det (by rwa [bumped]) (by rwa [outUsed, bumped]), bumped]
  | false =>
    rw [if_neg (by rw [dead, serves]; decide)] at run
    obtain ⟨wants, awake, w, work⟩ := wantSectors_effect (s := v) (req := req) (hasTile_lt on.1) hc hh
    obtain ⟨last, held, credits, others⟩ := rest _ w work
    exact ⟨_, run, last, held, credits, nofun, fun _ => ⟨wants, awake 0 (by decide), awake 1 (by decide)⟩, others⟩

end Sys2Proof.Machine
end

section
/-! SUPPORT. Where blocks lie, whose a sector is and which key opens it: read off registers, commands, lines and slots. -/

namespace Sys2Proof.Machine

section
variable {s u : State}

/-! ### The map of blocks (R346, R347) -/

section
variable (part : u.part = s.part) (regs : u.regs = s.regs)
include part regs

theorem reg_congr : u.reg = s.reg := by
  funext a
  rw [State.reg, part, regs, State.reg]

theorem fld_congr : u.fld = s.fld := by
  funext a hi lo
  rw [State.fld, reg_congr part regs, State.fld]

theorem bit_congr : u.bit = s.bit := by
  funext a i
  rw [State.bit, reg_congr part regs, State.bit]

theorem nsHead_congr : nsHead u = nsHead s := by
  funext n j
  unfold nsHead nsTile nsKind
  rw [fld_congr part regs, part]

theorem nsHeads_congr : nsHeads u = nsHeads s := by
  funext n
  unfold nsHeads nsKind
  rw [fld_congr part regs, part]

theorem zoneSect_congr : zoneSect u = zoneSect s := by
  funext t z
  rw [zoneSect, fld_congr part regs, zoneSect]

theorem zoneOfBand_congr : zoneOfBand u = zoneOfBand s := by
  funext t b
  unfold zoneOfBand fmtZones zoneFirst
  rw [fld_congr part regs]

theorem groupCap_congr : groupCap u = groupCap s := by
  funext n g
  unfold groupCap groupBlocks pairsOf dataTracks fmtTrk fmtRsv nsZoned
  rw [zoneSect_congr part regs, zoneOfBand_congr part regs, nsHead_congr part regs, nsHeads_congr part regs,
    fld_congr part regs, bit_congr part regs]

theorem convGroup_congr : convGroup u = convGroup s := by
  funext n k g o
  induction k generalizing g o with
  | zero => rfl
  | succ k ih => rw [convGroup, ih, groupCap_congr part regs, convGroup]

theorem zoneSize_congr : zoneSize u = zoneSize s := by
  funext n
  unfold zoneSize nsGcount nsGfirst
  rw [groupCap_congr part regs, fld_congr part regs]

theorem groupOf_congr : groupOf u = groupOf s := by
  funext n lba
  unfold groupOf zoneIx nsZoned nsGcount nsGfirst
  rw [convGroup_congr part regs, zoneSize_congr part regs, fld_congr part regs, bit_congr part regs]

theorem psaOf_congr : psaOf u = psaOf s := by
  funext n lba
  unfold psaOf nsSu nsKind nsZoned fmtTrk
  dsimp only
  rw [groupOf_congr part regs, nsHead_congr part regs, nsHeads_congr part regs, zoneSect_congr part regs,
    zoneOfBand_congr part regs, fld_congr part regs, bit_congr part regs]

theorem nsSlot_congr : nsSlot u = nsSlot s := by
  funext n
  rw [nsSlot, fld_congr part regs, nsSlot]

theorem lbaOf_congr : lbaOf u = lbaOf s := by
  funext n psa
  unfold lbaOf bandOf fmtTrk nsSu nsKind nsZoned nsGfirst nsGcount
  dsimp only
  rw [psaOf_congr part regs, groupCap_congr part regs, zoneSize_congr part regs, zoneSect_congr part regs,
    zoneOfBand_congr part regs, nsHead_congr part regs, nsHeads_congr part regs, fld_congr part regs, bit_congr part regs]

theorem blockAt_congr : blockAt u = blockAt s := by
  funext psa
  rw [blockAt, lbaOf_congr part regs, nsList_congr fun m _ _ => congrFun (reg_congr part regs) (aNs m 0), blockAt]

end

/-! ### Owners and keys (R410, R416) -/

theorem cmd_congr (nq : u.nq = s.nq) : u.cmd = s.cmd := by
  funext i
  rw [State.cmd, nq, State.cmd]

theorem slot_congr (slots : u.slots = s.slots) : u.slot = s.slot := by
  funext i
  rw [State.slot, slots, State.slot]

theorem keyOf_congr (slots : u.slots = s.slots) : keyOf u = keyOf s := by
  funext i gen
  unfold keyOf
  dsimp only
  rw [slot_congr slots]

theorem lineOf_congr (lines : u.buf.lines = s.buf.lines) : lineOf u = lineOf s := by
  funext k
  rw [lineOf, lines, lineOf]

theorem fillOf_congr (part : u.part = s.part) (regs : u.regs = s.regs) (lines : u.buf.lines = s.buf.lines) :
    fillOf u = fillOf s := by
  funext i psa
  unfold fillOf
  dsimp only
  rw [psaOf_congr part regs, lines]

/-- A sector's owner is found in what no sector queue and no credit is part of. -/
theorem ownerOf_congr (part : u.part = s.part) (regs : u.regs = s.regs) (lines : u.buf.lines = s.buf.lines)
    (nq : u.nq = s.nq) (slots : u.slots = s.slots) : ownerOf u = ownerOf s := by
  funext e
  unfold ownerOf sectorOf
  dsimp only
  rw [blockAt_congr part regs, fillOf_congr part regs lines, psaOf_congr part regs, nsSlot_congr part regs, cmd_congr nq,
    slot_congr slots, lineOf_congr lines]

end

end Sys2Proof.Machine
end

section
/-! SUPPORT. O22: CIPHER_DECRYPT (R23, R32, R150, R408 to R411, R416, R418, R428). -/

namespace Sys2Proof.Machine

/-! ### Contexts that close (R173, R190) -/

section
variable {s u : State} {t i : Nat}

theorem onlyNotices.ctx (h : onlyNotices s u) (t i : Nat) : u.ctx t i = s.ctx t i := by
  rw [h.1]
  rfl

theorem setReg_ctx (a : Nat) (w : Word) (t i : Nat) : (s.setReg a w).ctx t i = s.ctx t i := rfl

theorem bump_ctx (a m t i : Nat) : (s.bump a m).ctx t i = s.ctx t i := rfl

theorem bump_buf (a m : Nat) : (s.bump a m).buf = s.buf := rfl

theorem onlyNotices.buf (h : onlyNotices s u) : u.buf = s.buf := by
  rw [h.1]

theorem tileNotice_buf (w : Word) : (tileNotice s t w).buf = s.buf := by
  rw [tileNotice, (irqEdge_notices _ _).buf]
  rfl

theorem tileNotice_ctx (w : Word) (t' : Nat) : (tileNotice s t w).ctx t' i = s.ctx t' i := by
  rw [tileNotice, (irqEdge_notices _ _).ctx, State.modDet_eq, State.setDet_ctx]

theorem endCtx_ctx (open_ : (s.ctx t i).live = true) : (endCtx s t i).ctx t i = Ctx.none := by
  unfold endCtx endThreadOf countCtxs
  dsimp only
  rw [if_neg (by rw [open_]; decide), State.setF_eq, setReg_ctx, State.setF_eq, setReg_ctx, State.modEng_eq, State.setEng_ctx,
    State.setCtx_ctx]

/-- A sector that lands ends the context that recovered it (R190). -/
theorem recoverCtx_open (open_ : (s.ctx t i).live = true) : recoverCtx s t i =
    tileNotice (endCtx (s.bump (aTile t (0x1060 + 4 * (s.ctx t i).step))) t i) t
      (place 31 28 0 ||| place 7 0 (s.ctx t i).step) := by
  rw [recoverCtx, if_pos open_]

theorem recoverCtx_ctx (open_ : (s.ctx t i).live = true) : ((recoverCtx s t i).ctx t i).live = false := by
  rw [recoverCtx_open open_, tileNotice_ctx, endCtx_ctx (by rwa [bump_ctx])]
  rfl

theorem recoverCtx_buf : (recoverCtx s t i).buf = s.buf := by
  unfold recoverCtx
  dsimp only
  split
  · obtain ⟨-, buf, -⟩ := (TileWork.endCtx (s := s.bump (aTile t (0x1060 + 4 * (s.ctx t i).step))) (t := t) i).fields
    rw [tileNotice_buf, buf, bump_buf]
  · rfl

end

/-! ### The first sector of a queue -/

section
variable {s v : State} {t n lba gen : Nat} {e : Sector} {rest : List Sector} {key plain : Payload}

theorem exec_cipherDecrypt (tile : s.hasTile t = true) : exec (.cipherDecrypt t) s = .next (cipherDecrypt s t) := onTile_next tile

theorem cipherDecrypt_empty (empty : Tab.at [] s.buf.cipherIn t = []) : cipherDecrypt s t = s := by
  simp only [cipherDecrypt, empty]

section
variable (first : Tab.at [] s.buf.cipherIn t = e :: rest)
include first

theorem cipherDecrypt_full (full : 256 ≤ s.buf.bufWrite.length) : cipherDecrypt s t = s := by
  simp only [cipherDecrypt, first, full, if_true]

variable (room : s.buf.bufWrite.length < 256)
  (taken : freeCredits { s with buf := { s.buf with cipherIn := Tab.to [] s.buf.cipherIn t rest } } t 0 2 sectorFlits = v)
include room taken

theorem cipherDecrypt_drop (drop : e.drop.isSome = true) : cipherDecrypt s t = toBuffer v e := by
  simp only [cipherDecrypt, first, Nat.not_le.2 room, if_false, taken, drop, if_true]

variable (whole : e.drop = none) (owner : ownerOf v e = some (n, lba, gen))
include whole owner

section
variable (other : e.req.kind ≠ .partner)
include other

theorem cipherDecrypt_blank (blank : e.blank = true) (free : e.ctx = none) :
    cipherDecrypt s t = toBuffer v { e with info := [] } := by
  simp only [cipherDecrypt, first, Nat.not_le.2 room, if_false, taken, whole, Option.isSome_none, Bool.false_eq_true, owner,
    blank, if_true, other, decide_false, free]

variable (cipher : e.blank = false)
include cipher

theorem cipherDecrypt_noKey (none : keyOf v (nsSlot v n) gen = none) (free : e.ctx = .none) :
    cipherDecrypt s t = toBuffer (v.bump (aCiph 0x1C)) { e with info := [], drop := some .key } := by
  simp only [cipherDecrypt, first, Nat.not_le.2 room, if_false, taken, whole, Option.isSome_none, Bool.false_eq_true, owner,
    cipher, none, other, decide_false, free]

variable (held : keyOf v (nsSlot v n) gen = some key)
include held

theorem cipherDecrypt_right (right : decryptSector key (slotField (nsSlot v n) (salt v)) n lba e.info = some plain)
    (free : e.ctx = none) : cipherDecrypt s t = toBuffer (v.bump (aCiph 0x14)) { e with info := plain } := by
  simp only [cipherDecrypt, first, Nat.not_le.2 room, if_false, taken, whole, Option.isSome_none, Bool.false_eq_true, owner,
    cipher, held, right, other, decide_false, free]

theorem cipherDecrypt_recovers {i : Nat} (context : e.ctx = some i)
    (right : decryptSector key (slotField (nsSlot v n) (salt v)) n lba e.info = some plain) :
    cipherDecrypt s t = toBuffer (recoverCtx (v.bump (aCiph 0x14)) t i) { e with info := plain } := by
  simp only [cipherDecrypt, first, Nat.not_le.2 room, if_false, taken, whole, Option.isSome_none, Bool.false_eq_true, owner,
    cipher, held, right, other, decide_false, context]

end

section
variable (cipher : e.blank = false)
include cipher

theorem cipherDecrypt_wrong (held : keyOf v (nsSlot v n) gen = some key)
    (wrong : decryptSector key (slotField (nsSlot v n) (salt v)) n lba e.info = none) : cipherDecrypt s t =
      (v.bump (aCiph 0x18)).modDet t fun d => { d with tagQ := d.tagQ ++ [⟨e.psa, e.req, e.crc, e.ctx⟩] } := by
  simp only [cipherDecrypt, first, Nat.not_le.2 room, if_false, taken, whole, Option.isSome_none, Bool.false_eq_true, owner,
    cipher, held, wrong]

variable (own : e.req.kind = .partner) (free : e.ctx = none)
include own free

theorem cipherDecrypt_partner (held : keyOf v (nsSlot v n) gen = some key)
    (right : decryptSector key (slotField (nsSlot v n) (salt v)) n lba e.info = some plain) :
    cipherDecrypt s t = partnerReady (v.bump (aCiph 0x14)) e.psa := by
  simp only [cipherDecrypt, first, Nat.not_le.2 room, if_false, taken, whole, Option.isSome_none, Bool.false_eq_true, owner,
    cipher, held, right, own, decide_true, if_true, free]

theorem cipherDecrypt_partnerLost (none : keyOf v (nsSlot v n) gen = none) :
    cipherDecrypt s t = setPartner (v.bump (aCiph 0x1C)) e.psa .lost := by
  simp only [cipherDecrypt, first, Nat.not_le.2 room, if_false, taken, whole, Option.isSome_none, Bool.false_eq_true, owner,
    cipher, none, own, decide_true, if_true, free]

end

end

end

section
variable {s v : State} {t : Nat} {rest : List Sector}

theorem salt_congr {u : State} (part : u.part = s.part) (regs : u.regs = s.regs) : salt u = s.fld (aCiph 0) 20 0 := by
  rw [salt, fld_congr part regs]

/-- Taking a sector off its queue leaves the map of blocks, owners and keys as they were. -/
theorem taken_reads
    (taken : freeCredits { s with buf := { s.buf with cipherIn := Tab.to [] s.buf.cipherIn t rest } } t 0 2 sectorFlits = v) :
    (ownerOf v = ownerOf s ∧ keyOf v = keyOf s ∧ nsSlot v = nsSlot s ∧ salt v = s.fld (aCiph 0) 20 0) ∧
      v.buf.bufWrite = s.buf.bufWrite ∧ (∀ t i, v.ctx t i = s.ctx t i) ∧ ∀ i, v.headW i = s.headW i := by
  subst taken
  exact ⟨⟨ownerOf_congr rfl rfl rfl rfl rfl, keyOf_congr rfl, nsSlot_congr rfl rfl, salt_congr rfl rfl⟩, rfl, fun _ _ => rfl, fun _ => rfl⟩

theorem bump_headW (a m i : Nat) : (s.bump a m).headW i = s.headW i := rfl

theorem toBuffer_eq {e : Sector} : toBuffer v e = { v with buf := { v.buf with bufWrite := v.buf.bufWrite ++ [e] } } := rfl

theorem toBuffer_buf {e : Sector} : (toBuffer v e).buf = { v.buf with bufWrite := v.buf.bufWrite ++ [e] } := rfl

theorem toBuffer_ctx {e : Sector} (t i : Nat) : (toBuffer v e).ctx t i = v.ctx t i := rfl

theorem toBuffer_bump {e : Sector} (a : Nat) : toBuffer (v.bump a) e =
    ({ v with buf := { v.buf with bufWrite := v.buf.bufWrite ++ [e] } } : State).bump a := rfl

theorem ownerOf_read {e : Sector} (other : e.req.kind ≠ .partner) : ownerOf s e = sectorOf s e := if_neg other

theorem ownerOf_partner {e : Sector} {n lba : Nat} (own : e.req.kind = .partner) (place : blockAt s e.psa = some (n, lba)) :
    ownerOf s e = some (n, lba, (s.slot (nsSlot s n)).gen) := by
  rw [ownerOf, if_pos own, place, Option.map_some]

end

/-- Settles O22, by what the first sector of the queue is and whether its key opens it. -/
theorem sectorsAreDecryptedInOrder : Obligations.SectorsAreDecryptedInOrder := by
  intro s t tile
  rw [exec_cipherDecrypt tile]
  refine ⟨fun empty => by rw [cipherDecrypt_empty empty], fun e rest v first taken => ?_⟩
  have taken : freeCredits { s with buf := { s.buf with cipherIn := Tab.to [] s.buf.cipherIn t rest } } t 0 2 sectorFlits = v :=
    taken.symm
  obtain ⟨⟨owners, keys, slots, salts⟩, queue, contexts, heads⟩ := taken_reads taken
  refine ⟨fun full => by rw [cipherDecrypt_full first full], fun room drop => ?_, ?_, ?_, ?_, ?_⟩
  · rw [cipherDecrypt_drop first room taken drop, toBuffer_eq, queue]
  · rintro n lba gen slot room whole free other owner rfl
    have owner : ownerOf v e = some (n, lba, gen) := by rw [owners, ownerOf_read other, owner]
    refine ⟨fun blank => ?_, fun key plain cipher held right => ?_, fun key cipher held wrong => ?_, fun cipher none => ?_⟩
    · rw [cipherDecrypt_blank first room taken whole owner other blank free, toBuffer_eq, queue]
    · rw [cipherDecrypt_right first room taken whole owner other cipher (by rw [keys, slots, held])
        (by rw [slots, salts, right]) free, toBuffer_bump, queue]
    · rw [cipherDecrypt_wrong first room taken whole owner cipher (by rw [keys, slots, held]) (by rw [slots, salts, wrong]), free]
    · rw [cipherDecrypt_noKey first room taken whole owner other cipher (by rw [keys, slots, none]) free, toBuffer_bump, queue]
  · intro n lba gen i key plain room whole cipher context open_ other owner held right
    have owner : ownerOf v e = some (n, lba, gen) := by rw [owners, ownerOf_read other, owner]
    have run := cipherDecrypt_recovers first room taken whole owner other cipher (by rw [keys, slots, held]) context
      (by rw [slots, salts, right])
    refine ⟨cipherDecrypt s t, rfl, ?_, ?_⟩
    · rw [run, toBuffer_ctx, recoverCtx_ctx (by rw [bump_ctx, contexts, open_])]
    · rw [run, toBuffer_buf, recoverCtx_buf, bump_buf, queue]
  · intro n lba key x room whole cipher free own place held effect
    have owner := (congrFun owners e).trans (ownerOf_partner own place)
    rw [effect]
    cases opened : decryptSector key (slotField (nsSlot s n) (s.fld (aCiph 0) 20 0)) n lba e.info with
    | none =>
      rw [cipherDecrypt_wrong first room taken whole owner cipher (by rw [keys, slots, held]) (by rw [slots, salts, opened]), free]
      rfl
    | some plain =>
      rw [cipherDecrypt_partner first room taken whole owner cipher own free (by rw [keys, slots, held])
        (by rw [slots, salts, opened])]
      unfold partnerReady
      dsimp only
      rw [bump_headW, heads]
      rfl
  · intro n lba room whole cipher free own place none
    have owner := (congrFun owners e).trans (ownerOf_partner own place)
    rw [cipherDecrypt_partnerLost first room taken whole owner cipher own free (by rw [keys, slots, none])]
    rfl

end Sys2Proof.Machine
end

section
/-! SUPPORT. O23: CIPHER_ENCRYPT (R22, R408 to R410, R416, R417, R419, R420, R428). -/

namespace Sys2Proof.Machine

/-! ### What an encryption reads and changes -/

section
variable {s u v : State} {t slot : Nat}

theorem headUnwritable_congr (part : u.part = s.part) (regs : u.regs = s.regs) : headUnwritable u = headUnwritable s := by
  funext p
  unfold headUnwritable headRetired clusterRetired tileRetired writerRetired
  rw [bit_congr part regs]

theorem LinksOnly.wr (h : LinksOnly s u) (t : Nat) : u.wr t = s.wr t := by
  rw [h.frame]
  rfl

theorem LinksOnly.modWr_frame (h : LinksOnly s u) (t : Nat) (f : WriteX → WriteX) :
    u.modWr t f = { s with tl := (u.modWr t f).tl, out := (u.modWr t f).out } := by
  rw [h.frame]
  rfl

/-- A sector that crosses to its tile takes its credits and joins the write path. -/
theorem toTile_effect {e : WrEnt} (at_ : psaTile e.psa = t) :
    ((toTile v e).wr t).inQ = (v.wr t).inQ ++ [e] ∧
      nth 0 ((toTile v e).link t 0).credits 2 = nth 0 (v.link t 0).credits 2 - 18 ∧
      toTile v e = { v with tl := (toTile v e).tl, out := (toTile v e).out } := by
  subst at_
  have sent := LinksOnly.sendFlits v (psaTile e.psa) 0 2 sectorFlits (e.body ++ beBytes 6 e.psa)
  have credits := sendFlits_credits (s := v) (t := psaTile e.psa) (e := 0) (ch := 2) (n := sectorFlits)
    (what := e.body ++ beBytes 6 e.psa)
  unfold toTile
  dsimp only
  generalize sendFlits v (psaTile e.psa) 0 2 sectorFlits (e.body ++ beBytes 6 e.psa) = w at sent credits
  refine ⟨?_, ?_, sent.modWr_frame _ _⟩
  · rw [State.modWr_eq, State.setWr_wr, sent.wr]
  · rw [State.modWr_eq, State.setWr_link, credits, sectorFlits]

/-- A shadow that goes leaves every slot's counter, and every other slot. -/
theorem shadowCheck_effect : ((shadowCheck v slot).slot slot).sctr = (v.slot slot).sctr ∧
    (∀ j, j ≠ slot → (shadowCheck v slot).slot j = v.slot j) ∧ shadowCheck v slot = { v with slots := (shadowCheck v slot).slots } := by
  have gone : shadowCheck v slot = v ∨ shadowCheck v slot = v.setSlot slot { v.slot slot with shadow := none } := by
    unfold shadowCheck
    dsimp only
    split
    · exact (ite_eq_or_eq _ _ _).symm
    · exact .inl rfl
  obtain same | gone := gone
  · rw [same]
    exact ⟨rfl, fun _ _ => rfl, rfl⟩
  · rw [gone]
    exact ⟨by rw [State.setSlot_slot], fun j other => State.setSlot_slot_ne _ _ other, rfl⟩

end

/-! ### CIPHER_ENCRYPT -/

section
variable {s v : State} {i : Issue} {rest : List Issue} {slot : Nat} {key : Payload}

theorem exec_cipherEncrypt : exec .cipherEncrypt s = .next (cipherEncrypt s) := rfl

theorem cipherEncrypt_empty (empty : s.buf.encrypt = []) : cipherEncrypt s = s := by
  have calm : noteWaits s = s := by rw [noteWaits, empty, List.foldl_nil]
  unfold cipherEncrypt
  dsimp only
  rw [calm, empty, List.find?_nil]

/-- With every reservation far off, nothing waits and no record is wanted (R420). -/
theorem noteWaits_calm (far : ∀ j ∈ s.buf.encrypt, j.marker = true ∨ keyOf s (nsSlot s j.nsid) j.gen = none ∨
    (s.slot (nsSlot s j.nsid)).sctr + 2 ^ 18 < (s.slot (nsSlot s j.nsid)).res) : noteWaits s = s := by
  unfold noteWaits
  refine List.foldlRecOn (motive := fun x => x = s) _ _ rfl fun x same j mem => ?_
  subst same
  dsimp only
  split
  · rfl
  next counted =>
    obtain ⟨block, held⟩ := not_or.1 counted
    have room : (x.slot (nsSlot x j.nsid)).sctr + 2 ^ 18 < (x.slot (nsSlot x j.nsid)).res :=
      ((far j mem).resolve_left block).resolve_left fun none => held (by rw [none]; rfl)
    have calm : wantRecord x (nsSlot x j.nsid) = x := if_neg fun near => absurd near.2 (by omega)
    rw [calm, if_neg fun waits => absurd waits.1 (by omega)]

section
variable (calm : noteWaits s = s) (first : s.buf.encrypt.find? (issueReady s) = some i)
  (taken : { s with buf := { s.buf with encrypt := s.buf.encrypt.erase i } } = v)
  (writable : headUnwritable v (psaTile (psaOf v i.nsid i.lba), psaCluster (psaOf v i.nsid i.lba), psaHead (psaOf v i.nsid i.lba)) =
    false)
include calm first taken writable

theorem cipherEncrypt_marker (marker : i.marker = true) : cipherEncrypt s =
    toTile v ⟨psaOf v i.nsid i.lba, .marker, false, i.nsid, i.lba, 0, 0, [], [], 0, false, 0, false⟩ := by
  simp only [cipherEncrypt, calm, first, taken, writable, marker, if_true, Bool.false_eq_true, if_false]

/-- The slot's counter value is taken: its counter is one more. -/
def counted (s : State) (slot : Nat) : State :=
  (s.setSlot slot { s.slot slot with
    sctr := (s.slot slot).sctr + 1
    exhausted := (s.slot slot).exhausted || decide (2 ^ 64 - 2 ^ 32 ≤ (s.slot slot).sctr + 1) }).bump (aCiph 0x10)

theorem cipherEncrypt_held (block : i.marker = false) (held : keyOf v (nsSlot v i.nsid) i.gen = some key) : cipherEncrypt s =
    shadowCheck (toTile (counted v (nsSlot v i.nsid)) ⟨psaOf v i.nsid i.lba, .host, false, i.nsid, i.lba, nsSlot v i.nsid, i.gen,
      encryptSector key (slotField (nsSlot v i.nsid) (salt v)) i.nsid i.lba (v.slot (nsSlot v i.nsid)).sctr i.data, [], 0, false,
      0, false⟩) (nsSlot v i.nsid) := by
  simp only [cipherEncrypt, calm, first, taken, writable, block, Bool.false_eq_true, if_false, held]
  rfl

end

theorem counted_effect : ((counted s slot).slot slot).sctr = (s.slot slot).sctr + 1 ∧
    (∀ j, j ≠ slot → (counted s slot).slot j = s.slot j) ∧ regsKept [aCiph 0x10] s (counted s slot) ∧
    (counted s slot).fld (aCiph 0x10) 31 0 = min (s.fld (aCiph 0x10) 31 0 + 1) (2 ^ 32 - 1) ∧
    counted s slot = { s with regs := (counted s slot).regs, slots := (counted s slot).slots } := by
  unfold counted
  generalize aCiph 0x10 = a
  have taken : ((s.setSlot slot { s.slot slot with
      sctr := (s.slot slot).sctr + 1
      exhausted := (s.slot slot).exhausted || decide (2 ^ 64 - 2 ^ 32 ≤ (s.slot slot).sctr + 1) }).slot slot).sctr =
      (s.slot slot).sctr + 1 := by rw [State.setSlot_slot]
  exact ⟨taken, fun j other => State.setSlot_slot_ne _ _ other, fun b other => State.setReg_reg_ne _ _ (by simpa using other),
    State.bump_fld_self 1, rfl⟩

theorem slotsOnly_reads {u : State} (frame : u = { s with slots := u.slots }) : u.reg = s.reg ∧ u.wr = s.wr ∧ u.link = s.link := by
  rw [frame]
  exact ⟨rfl, rfl, rfl⟩

/-- What a block's encryption leaves, its counter value taken, its sector sent and an old shadow gone. -/
theorem sealed_effect {e : WrEnt} {t : Nat} {u : State} (at_ : psaTile e.psa = t)
    (run : shadowCheck (toTile (counted v slot) e) slot = u) :
    (u.wr t).inQ = (v.wr t).inQ ++ [e] ∧ (u.slot slot).sctr = (v.slot slot).sctr + 1 ∧ (∀ j, j ≠ slot → u.slot j = v.slot j) ∧
      nth 0 (u.link t 0).credits 2 = nth 0 (v.link t 0).credits 2 - 18 ∧
      u.fld (aCiph 0x10) 31 0 = min (v.fld (aCiph 0x10) 31 0 + 1) (2 ^ 32 - 1) ∧ regsKept [aCiph 0x10] v u ∧
      u = { v with regs := u.regs, slots := u.slots, tl := u.tl, out := u.out } := by
  obtain ⟨value, others, regs, count, first⟩ := counted_effect (s := v) (slot := slot)
  generalize aCiph 0x10 = a at regs count ⊢
  generalize counted v slot = w at *
  have path : w.wr t = v.wr t := by rw [first]; rfl
  have link : w.link t 0 = v.link t 0 := by rw [first]; rfl
  obtain ⟨queued, spent, second⟩ := toTile_effect (v := w) at_
  generalize toTile w e = x at *
  have sent : x.slot = w.slot := by rw [second]; rfl
  have reg : x.reg = w.reg := by rw [second]; rfl
  obtain ⟨kept, beside, third⟩ := shadowCheck_effect (v := x) (slot := slot)
  rw [run] at kept beside third
  obtain ⟨same, wr, credits⟩ := slotsOnly_reads third
  refine ⟨by rw [wr, queued, path], by rw [kept, sent, value], fun j other => by rw [beside j other, sent, others j other],
    by rw [credits, spent, link], ?_, fun b outside => ?_, by rw [third, second, first]⟩
  · rw [State.fld, same, reg, ← State.fld, count]
  · rw [same, reg, regs b outside]

end

/-- The first unit of the queue goes on when its tile takes it and it is a marker or has a value to take. -/
theorem issueReady_of {s : State} {i : Issue}
    (takes : tileTakes s (psaTile (psaOf s i.nsid i.lba)) = true)
    (value : i.marker = true ∨ (s.slot (nsSlot s i.nsid)).sctr < (s.slot (nsSlot s i.nsid)).res) : issueReady s i = true := by
  unfold issueReady
  dsimp only
  rw [takes]
  cases marker : i.marker with
  | true => simp
  | false => simp [value.resolve_left (by rw [marker]; decide)]

/-- Settles O23, by whether the first unit is a block with its key or a marker. -/
theorem encryptionTakesACounterValue : Obligations.EncryptionTakesACounterValue := by
  refine ⟨fun s empty => by rw [exec_cipherEncrypt, cipherEncrypt_empty empty], ?_⟩
  rintro s i rest p slot queue rfl rfl writable up credits far
  have calm := noteWaits_calm far
  have takes : tileTakes s (psaTile (psaOf s i.nsid i.lba)) = true := by
    rw [tileTakes, up, sectorFlits, hasCredits_iff.2 credits]
    rfl
  have firstOf (value : i.marker = true ∨ (s.slot (nsSlot s i.nsid)).sctr < (s.slot (nsSlot s i.nsid)).res) :
      s.buf.encrypt.find? (issueReady s) = some i := by
    rw [queue, List.find?_cons_of_pos (issueReady_of takes value)]
  have left : s.buf.encrypt.erase i = rest := by rw [queue, List.erase_cons_head]
  obtain ⟨v, taken⟩ : ∃ v : State, { s with buf := { s.buf with encrypt := s.buf.encrypt.erase i } } = v := ⟨_, rfl⟩
  have map : psaOf v = psaOf s := psaOf_congr (by rw [← taken]) (by rw [← taken])
  have slots : nsSlot v = nsSlot s := nsSlot_congr (by rw [← taken]) (by rw [← taken])
  have able : headUnwritable v (psaTile (psaOf v i.nsid i.lba), psaCluster (psaOf v i.nsid i.lba), psaHead (psaOf v i.nsid i.lba)) =
      false := by
    rw [map, headUnwritable_congr (u := v) (s := s) (by rw [← taken]) (by rw [← taken]), writable]
  refine ⟨fun key block held => ?_, fun marker => ?_⟩
  · have near := (far i (by rw [queue]; exact List.mem_cons_self)).resolve_left (by rw [block]; decide)
    have value : (s.slot (nsSlot s i.nsid)).sctr < (s.slot (nsSlot s i.nsid)).res :=
      Nat.lt_of_le_of_lt (Nat.le_add_right _ _) (near.resolve_left (by rw [held]; nofun))
    have run := cipherEncrypt_held calm (firstOf (.inr value)) taken able block
      (by rw [keyOf_congr (u := v) (s := s) (by rw [← taken]), slots, held])
    have counter : v.slot = s.slot := slot_congr (by rw [← taken])
    rw [map, slots, salt_congr (u := v) (s := s) (by rw [← taken]) (by rw [← taken]), counter] at run
    obtain ⟨queued, taken_, others, spent, count, regs, frame⟩ := sealed_effect rfl run.symm
    have wr : v.wr = s.wr := by rw [← taken]; rfl
    have link : v.link = s.link := by rw [← taken]; rfl
    have reg : v.reg = s.reg := by rw [← taken]; rfl
    refine ⟨cipherEncrypt s, exec_cipherEncrypt, ?_, ?_, ?_, ?_, ?_, ?_, ?_, ?_⟩
    · rw [frame, ← taken, left]
    · rw [queued, wr]
    · rw [taken_, counter]
    · rw [← counter]
      exact others
    · rw [spent, link]
    · rw [count, State.fld, reg, State.fld]
    · rw [regsKept, ← reg]
      exact regs
    · rw [frame, ← taken]
  · have run := cipherEncrypt_marker calm (firstOf (.inl marker)) taken able marker
    rw [map] at run
    obtain ⟨queued, spent, frame⟩ := toTile_effect (v := v) (e := ⟨psaOf s i.nsid i.lba, .marker, false, i.nsid, i.lba, 0, 0, [], [],
      0, false, 0, false⟩) rfl
    rw [← run] at queued spent frame
    refine ⟨cipherEncrypt s, exec_cipherEncrypt, ?_, ?_, ?_, ?_⟩
    · rw [frame, ← taken, left]
    · rw [queued, ← taken]
      rfl
    · rw [spent, ← taken]
      rfl
    · rw [frame, ← taken]

end Sys2Proof.Machine
end

section
/-! SUPPORT. O18: FORMATTER_RESULT and SECTOR_SEND (R20, R30, R64, R65, R122, R131, R174, R188). -/

namespace Sys2Proof.Machine

/-! ### The queues that the detector's order of work leaves alone (R129) -/

/-- A detector's results, its outbound queue with what waits for it, and what goes to the ladder. -/
def queuesOf (d : DetX) : List PoolRes × List PoolRes × Nat × List OutSec × List OutSec × List LadIn :=
  (d.poolOut, d.late, d.outRes, d.outQ, d.outWait, d.ladQ)

section
variable {pool : Word} {d : DetX}

theorem giveOp_queues : queuesOf (giveOp d) = queuesOf d := by
  unfold giveOp
  split_ifs
  · rfl
  · split <;> rfl

theorem giveLive_queues : queuesOf (giveLive pool d) = queuesOf d := by
  unfold giveLive
  dsimp only
  split
  · rfl
  · split
    · rfl
    · split <;> rfl

theorem giveStored_queues : queuesOf (giveStored pool d) = queuesOf d := by
  unfold giveStored
  dsimp only
  split_ifs
  · rfl
  · split <;> rfl

theorem repeatDet_queues {f : DetX → DetX} (n : Nat) (step : ∀ d, queuesOf (f d) = queuesOf d) :
    queuesOf (repeatDet n f d) = queuesOf d :=
  List.foldlRecOn (motive := fun x => queuesOf x = queuesOf d) _ _ rfl fun x same _ _ => (step x).trans same

/-- With no result that waits for a place, the pool's output queue stays. -/
theorem pumpDet_queues (late : d.late = []) : queuesOf (pumpDet pool d) = queuesOf d := by
  unfold pumpDet
  dsimp only
  rw [repeatDet_queues 32 fun _ => giveStored_queues, repeatDet_queues 64 fun _ => giveLive_queues,
    repeatDet_queues 2 fun _ => giveOp_queues, late, List.take_nil, List.append_nil, List.drop_nil]
  unfold queuesOf
  rw [late]

end

/-! ### Nothing but registers and units of the tiles -/

section
variable {as : List Nat} {s u v : State} {t a : Nat}

theorem onlyTile_refl : onlyTile as s s := ⟨fun _ _ => rfl, rfl⟩

theorem onlyTile.trans (h : onlyTile as s u) (k : onlyTile as u v) : onlyTile as s v := by
  obtain ⟨regs, frame⟩ := h
  obtain ⟨regs', frame'⟩ := k
  exact ⟨fun _ out => (regs' _ out).trans (regs _ out), by rw [frame', frame]⟩

theorem onlyTile_tiles (x : TileSide) : onlyTile as s { s with tl := x } := ⟨fun _ _ => rfl, rfl⟩

theorem onlyTile_modDet (f : DetX → DetX) : onlyTile as s (s.modDet t f) := onlyTile_tiles _

theorem onlyTile_setReg (w : Word) (named : a ∈ as) : onlyTile as s (s.setReg a w) :=
  ⟨fun _ out => s.setReg_reg_ne w fun e => out (e ▸ named), rfl⟩

/-! ### The outbound queue -/

theorem fillOut_onlyTile : onlyTile [aTile t 0x30] s (fillOut s t) :=
  (onlyTile_modDet _).trans (onlyTile_setReg _ (List.mem_singleton.2 rfl))

theorem pushOut_onlyTile {o : OutSec} : onlyTile [aTile t 0x30] s (pushOut s t o) := (onlyTile_modDet _).trans fillOut_onlyTile

/-- With nothing waiting the outbound queue stays. -/
theorem fillOut_det (idle : (s.det t).outWait = []) : (fillOut s t).det t = s.det t := by
  unfold fillOut
  dsimp only
  generalize aTile t 0x30 = a
  rw [State.setF_eq, setReg_det, State.modDet_eq, State.setDet_det, idle, List.take_nil, List.append_nil, List.drop_nil]
  generalize s.det t = d at *
  obtain ⟨⟩ := d
  cases idle
  rfl

theorem detPump_onlyTile : onlyTile as s (detPump s t) := onlyTile_modDet _

theorem detPump_queues (late : (s.det t).late = []) : queuesOf ((detPump s t).det t) = queuesOf (s.det t) := by
  rw [detPump, State.modDet_eq, State.setDet_det, pumpDet_queues late]

/-- What the formatter does last: the order of work goes on, and the outbound queue is filled. -/
theorem pumped_queues (late : (s.det t).late = []) (idle : (s.det t).outWait = []) :
    queuesOf ((fillOut (detPump s t) t).det t) = queuesOf (s.det t) := by
  have pumped := detPump_queues late
  have still : ((detPump s t).det t).outWait = [] := by
    rw [← idle]
    exact congrArg (fun q => q.2.2.2.2.1) pumped
  rw [fillOut_det still, pumped]

theorem pumped_onlyTile : onlyTile [aTile t 0x30] s (fillOut (detPump s t) t) := detPump_onlyTile.trans fillOut_onlyTile

end

/-! ### A live result (R64, R122, R131, R174) -/

section
variable {s u v : State} {t : Nat} {r : PoolRes} {rest : List PoolRes} {w : Want}

theorem exec_formatterResult (on : channelOn s t) : exec (.formatterResult t) s = .next (formatterResult s t) := onTileCh_next on

theorem formatterResult_empty (empty : (s.det t).poolOut = []) : formatterResult s t = detPump s t := by
  simp only [formatterResult, empty]

theorem formatterResult_live (first : (s.det t).poolOut = r :: rest) (live : r.dst = .live w) : formatterResult s t =
    fillOut (detPump (liveResult (s.setDet t { s.det t with poolOut := rest }) t w r) t) t := by
  simp only [formatterResult, first, live]

theorem wordOk_congr (part : u.part = s.part) (regs : u.regs = s.regs) : Machine.wordOk u = Machine.wordOk s := by
  funext w info
  unfold Machine.wordOk headerOk zoneOf bandOf isConv fmtTrk
  dsimp only
  rw [zoneOfBand_congr part regs, fld_congr part regs, bit_congr part regs]

theorem wordOk_setDet (d : DetX) : Machine.wordOk (s.setDet t d) w r.info = Machine.wordOk s w r.info :=
  congrFun (congrFun (wordOk_congr rfl rfl) w) r.info

/-- The outbound entry that was reserved for a result is free. -/
def unreserved (s : State) (t : Nat) : State := s.modDet t fun d => { d with outRes := d.outRes - 1 }

theorem needOut_hub (free : w.ctx = none) (hub : forHub w.req.kind = true) : needOut w = true := by
  rw [needOut, free, hub]
  rfl

theorem verdict_det {c h x id : Nat} {good : Bool} : (verdict s t c h x id good).det t = s.det t := rfl

theorem verdict_onlyTile {as : List Nat} {c h x id : Nat} {good : Bool} : onlyTile as s (verdict s t c h x id good) :=
  onlyTile_tiles _

/-- An accepted word of a request for the hub becomes an outbound entry (R20 step 10, R188). -/
theorem liveResult_accepted (free : w.ctx = none) (hub : forHub w.req.kind = true) (conv : r.st = .conv)
    (accepted : Machine.wordOk s w r.info = true) : liveResult s t w r =
      pushOut (verdict (unreserved s t) t (laneParts r.lane).1 (laneParts r.lane).2.1 (laneParts r.lane).2.2 r.capid true) t
        (outEntry w r.info r.capid) := by
  have same : Machine.wordOk (s.modDet t fun d => { d with outRes := d.outRes - 1 }) w r.info = true := by
    exact (wordOk_setDet _).trans accepted
  have notVerify : w.req.kind ≠ .verify := fun e => by rw [e] at hub; exact absurd hub (by decide)
  have notPartner : w.req.kind ≠ .partner := fun e => by rw [e] at hub; exact absurd hub (by decide)
  simp only [liveResult, needOut_hub free hub, conv, same, sendWord, free, notVerify, notPartner, hub, unreserved, if_true, if_false,
    decide_true, Bool.and_self, Bool.not_true, Bool.and_false, Bool.false_eq_true, true_or]

/-- A reading that is no codeword of a request for the hub goes to the ladder (R174). -/
theorem liveResult_failed (free : w.ctx = none) (hub : forHub w.req.kind = true) (failed : r.st ≠ .conv) :
    liveResult s t w r = liveFails (unreserved s t) t w r := by
  have notVerify : w.req.kind ≠ .verify := fun e => by rw [e] at hub; exact absurd hub (by decide)
  simp only [liveResult, needOut_hub free hub, failed, free, notVerify, unreserved, if_true, if_false, decide_false, Bool.false_and,
    Bool.false_eq_true]

theorem resWord_false (st : DecSt) (iters weight : Nat) :
    resWord st false iters weight = place 31 28 st.code ||| place 26 21 iters ||| place 15 0 weight := by
  have none : place 27 27 (if false = true then 1 else 0) = 0#32 := rfl
  rw [resWord, none, BitVec.or_zero]

theorem failWord_fail (st : r.st = .fail) : failWord r .fail false =
    place 31 28 r.st.code ||| place 26 21 r.iters ||| place 15 0 r.weight := by
  rw [failWord, if_pos (.inl rfl), if_neg (by decide), resWord_false, st]

/-- A result that is no codeword is told by its status alone. -/
theorem failWord_status {st : DecSt} (other : ¬ (st = .fail ∨ st = .conv)) : failWord r st false = place 31 28 st.code := by
  have none (hi lo : Nat) : place hi lo 0 = 0#32 := by simp [place, w32]
  rw [failWord, if_neg other, resWord_false, none, none, BitVec.or_zero, BitVec.or_zero]

/-- How a reading that is no codeword enters the ladder: with its capture where that is pinned, and as GONE where it is
not (R122, R174). -/
def failedEntry (s : State) (t : Nat) (w : Want) (r : PoolRes) : LadIn :=
  if isPinned s t r.lane r.capid then ⟨entryIndex r.st, w, some r.capid, failWord r r.st false⟩
  else ⟨3, w, none, place 31 28 DecSt.gone.code⟩

theorem failedEntry_gone (gone : isPinned s t r.lane r.capid = false) :
    failedEntry s t w r = ⟨3, w, none, place 31 28 DecSt.gone.code⟩ := by
  rw [failedEntry, if_neg (by rw [gone]; decide)]

theorem failedEntry_pinned (failed : r.st = .fail ∨ r.st = .syncmiss) (pinned : isPinned s t r.lane r.capid = true) :
    failedEntry s t w r = ⟨if r.st = .fail then 0 else 2, w, some r.capid,
      place 31 28 r.st.code ||| place 26 21 (if r.st = .fail then r.iters else 0) |||
        place 15 0 (if r.st = .fail then r.weight else 0)⟩ := by
  rw [failedEntry, if_pos pinned]
  obtain st | st := failed
  · rw [if_pos st, if_pos st, if_pos st, st, failWord_fail st, st]
    rfl
  · have none (hi lo : Nat) : place hi lo 0 = 0#32 := by simp [place, w32]
    have other : ¬ r.st = .fail := by rw [st]; decide
    rw [if_neg other, if_neg other, if_neg other, failWord_status (by rw [st]; decide), none, none, BitVec.or_zero, BitVec.or_zero, st]
    rfl

theorem liveFails_eq (failed : r.st = .fail ∨ r.st = .syncmiss) :
    liveFails s t w r = s.modDet t fun d => { d with ladQ := d.ladQ ++ [failedEntry s t w r] } := by
  have told : pinFailed s t r = (s, if isPinned s t r.lane r.capid then r.st else .gone) := by
    unfold pinFailed
    dsimp only
    obtain st | st := failed
    · rw [st]
      simp
    · rw [st]
      simp
  unfold liveFails failedEntry
  rw [told]
  dsimp only
  cases isPinned s t r.lane r.capid with
  | true => obtain st | st := failed <;> rw [st] <;> rfl
  | false => rw [if_neg (by decide), failWord_status (by decide)]; rfl

end

section
variable {s : State} {t : Nat} {r : PoolRes} {rest : List PoolRes} {w : Want} {x : LadIn}

/-- The detector once the first result is off and its outbound entry is free. -/
def takenOff (s : State) (t : Nat) (rest : List PoolRes) : State := unreserved (s.setDet t { s.det t with poolOut := rest }) t

theorem takenOff_det : (takenOff s t rest).det t = { s.det t with poolOut := rest, outRes := (s.det t).outRes - 1 } := by
  rw [takenOff, unreserved, State.modDet_eq, State.setDet_det, State.setDet_det]

theorem takenOff_onlyTile {as : List Nat} : onlyTile as s (takenOff s t rest) := (onlyTile_tiles _).trans (onlyTile_modDet _)

/-- What is left when an accepted word has become the last outbound entry. -/
theorem accepted_effect {v : State} {o : OutSec} (late : (s.det t).late = []) (idle : (s.det t).outWait = [])
    (det : v.det t = { s.det t with poolOut := rest, outRes := (s.det t).outRes - 1 }) (held : 1 ≤ (s.det t).outRes)
    (room : outUsed s t ≤ 48) : queuesOf ((fillOut (detPump (pushOut v t o) t) t).det t) =
      (rest, [], (s.det t).outRes - 1, (s.det t).outQ ++ [o], [], (s.det t).ladQ) := by
  have free : outUsed v t < 48 := by
    rw [outUsed, det]
    unfold outUsed at room
    dsimp only
    omega
  have pushed := pushOut_det (o := o) (by rw [det, idle]) free
  rw [det] at pushed
  rw [pumped_queues (by rw [pushed, late]) (by rw [pushed, idle]), pushed, queuesOf, late, idle]

/-- What is left when a reading that is no codeword has gone to the ladder. -/
theorem failed_effect {v : State} (late : (s.det t).late = []) (idle : (s.det t).outWait = [])
    (det : v.det t = { s.det t with poolOut := rest, outRes := (s.det t).outRes - 1 }) :
    queuesOf ((fillOut (detPump (v.modDet t fun d => { d with ladQ := d.ladQ ++ [x] }) t) t).det t) =
      (rest, [], (s.det t).outRes - 1, (s.det t).outQ, [], (s.det t).ladQ ++ [x]) := by
  have told : (v.modDet t fun d => { d with ladQ := d.ladQ ++ [x] }).det t =
      { s.det t with poolOut := rest, outRes := (s.det t).outRes - 1, ladQ := (s.det t).ladQ ++ [x] } := by
    rw [State.modDet_eq, State.setDet_det, det]
  rw [pumped_queues (by rw [told, late]) (by rw [told, idle]), told, queuesOf, late, idle]

end

/-! ### The way to the hub (R20 step 11, R29, R30) -/

theorem crossAtOnce_credits_ne {s : State} {t e ch ch' : Nat} {what : Payload} (range : e < 2) (other : ch' ≠ ch) :
    nth 0 ((crossAtOnce s t e ch what).link t e).credits ch' = nth 0 (s.link t e).credits ch' := by
  rw [crossAtOnce, freeCredits, State.modLink_eq, State.setLink_link_ne _ (by omega), sendFlits_credits_ne other]

section
variable {s : State} {t : Nat} {o : OutSec} {rest : List OutSec}

theorem exec_sectorSend (on : channelOn s t) : exec (.sectorSend t) s = .next (sectorSend s t) := onTileCh_next on

theorem sectorSend_waits (first : (s.det t).outQ = o :: rest) (waits : hubHears s t = false ∨ nth 0 (s.link t 1).credits 2 < 18) :
    sectorSend s t = s := by
  have closed : ¬ (hubHears s t = true ∧ (Tab.at [] s.buf.cipherIn t).length < 32 ∧ hasCredits s t 1 2 sectorFlits = true ∧
      hasCredits s t 1 3 1 = true) := by
    rintro ⟨hears, -, credits, -⟩
    obtain deaf | few := waits
    · exact absurd (deaf.symm.trans hears) (by decide)
    · exact absurd few (Nat.not_lt.2 (hasCredits_iff.1 credits))
  simp only [sectorSend, first, if_neg closed]

/-- The sector has crossed, with its request's completion. -/
def crossed (s : State) (t : Nat) (o : OutSec) : State :=
  crossAtOnce (sendFlits s t 1 2 sectorFlits (o.body ++ beBytes 6 o.psa)) t 1 3 (beBytes 6 o.psa)

/-- The tile's cipher input queue at the hub holds what has arrived. -/
def delivered (s : State) (t : Nat) (q : List Sector) : State :=
  { s with buf := { s.buf with cipherIn := Tab.to [] s.buf.cipherIn t q } }

section
variable {q : List Sector}

theorem delivered_det : (delivered s t q).det t = s.det t := rfl

theorem delivered_reg (a : Nat) : (delivered s t q).reg a = s.reg a := rfl

theorem delivered_frame {d : DetX} {v x : State} (sent : LinksOnly (s.setDet t d) v) (filled : x = { v with regs := x.regs, tl := x.tl }) :
    (delivered x t q).nq = s.nq ∧ (delivered x t q).buf = { s.buf with cipherIn := (delivered x t q).buf.cipherIn } ∧
      delivered x t q = { s with
        regs := (delivered x t q).regs, buf := (delivered x t q).buf, tl := (delivered x t q).tl, out := (delivered x t q).out } := by
  have nq : x.nq = s.nq := by rw [filled, sent.frame]; rfl
  have buf : x.buf = s.buf := by rw [filled, sent.frame]; rfl
  refine ⟨nq, ?_, ?_⟩
  · rw [delivered, buf]
  · unfold delivered
    rw [filled, sent.frame]
    rfl

theorem delivered_link (e : Nat) : (delivered s t q).link t e = s.link t e := rfl

end

theorem setReg_link (a : Nat) (w : Word) (e : Nat) : (s.setReg a w).link t e = s.link t e := rfl

theorem fillOut_link (e : Nat) : (fillOut s t).link t e = s.link t e := by
  unfold fillOut
  dsimp only
  rw [State.setF_eq, setReg_link, State.modDet_eq, State.setDet_link]

theorem sectorSend_sends (first : (s.det t).outQ = o :: rest) (hears : hubHears s t = true)
    (room : (Tab.at [] s.buf.cipherIn t).length < 32) (data : 18 ≤ nth 0 (s.link t 1).credits 2)
    (response : 1 ≤ nth 0 (s.link t 1).credits 3) : sectorSend s t =
    delivered (fillOut (crossed (s.setDet t { s.det t with outQ := rest }) t o) t) t
      (Tab.at [] s.buf.cipherIn t ++ [⟨o.psa, o.req, o.body, o.blank, o.drop, o.crc, o.ctx⟩]) := by
  have sends : hubHears s t = true ∧ (Tab.at [] s.buf.cipherIn t).length < 32 ∧ hasCredits s t 1 2 sectorFlits = true ∧
      hasCredits s t 1 3 1 = true := ⟨hears, room, hasCredits_iff.2 data, hasCredits_iff.2 response⟩
  simp only [sectorSend, first, if_pos sends]
  rfl

theorem crossed_effect : LinksOnly s (crossed s t o) ∧
    nth 0 ((crossed s t o).link t 1).credits 2 = nth 0 (s.link t 1).credits 2 - 18 ∧
    nth 0 ((crossed s t o).link t 1).credits 3 = nth 0 (s.link t 1).credits 3 - 1 := by
  have data := sendFlits_credits (s := s) (t := t) (e := 1) (ch := 2) (n := sectorFlits) (what := o.body ++ beBytes 6 o.psa)
  have response := sendFlits_credits_ne (s := s) (t := t) (e := 1) (ch := 2) (n := sectorFlits)
    (what := o.body ++ beBytes 6 o.psa) (ch' := 3) (by decide)
  have sent := LinksOnly.sendFlits s t 1 2 sectorFlits (o.body ++ beBytes 6 o.psa)
  unfold crossed
  generalize sendFlits s t 1 2 sectorFlits (o.body ++ beBytes 6 o.psa) = v at *
  refine ⟨sent.trans (.crossAtOnce v t 1 3 _), ?_, ?_⟩
  · rw [crossAtOnce_credits_ne (by decide) (by decide), data, sectorFlits]
  · rw [crossAtOnce_credits (by decide), response]

end

/-- Settles O18, by the first result of the pool and the first outbound entry. -/
theorem formatterFeedsHubAndLadder : Obligations.FormatterFeedsHubAndLadder := by
  intro s t on idle
  refine ⟨?_, fun empty still => by rw [exec_formatterResult on, formatterResult_empty empty, still], ?_⟩
  · intro r rest w first late lane live free kind held room
    have hub : forHub w.req.kind = true := by
      obtain kind | kind | kind := kind <;> rw [kind] <;> rfl
    have run := (exec_formatterResult on).trans (congrArg _ (formatterResult_live first live))
    have det := takenOff_det (s := s) (t := t) (rest := rest)
    have only : onlyTile [aTile t 0x30] s (takenOff s t rest) := takenOff_onlyTile
    refine ⟨fun conv accepted => ?_, fun failed => ?_⟩
    · rw [liveResult_accepted free hub conv ((wordOk_setDet _).trans accepted)] at run
      obtain ⟨v, judged⟩ : ∃ v, verdict (unreserved (s.setDet t { s.det t with poolOut := rest }) t) t (laneParts r.lane).1
        (laneParts r.lane).2.1 (laneParts r.lane).2.2 r.capid true = v := ⟨_, rfl⟩
      have det' : v.det t = _ := judged ▸ verdict_det.trans det
      have only' : onlyTile [aTile t 0x30] s v := judged ▸ only.trans verdict_onlyTile
      rw [judged] at run
      have queues := accepted_effect (o := outEntry w r.info r.capid) late idle det' held room
      simp only [queuesOf, Prod.mk.injEq] at queues
      obtain ⟨pool, -, reserved, out, -, ladder⟩ := queues
      refine ⟨_, run, pool, reserved, ?_, ladder, (only'.trans pushOut_onlyTile).trans pumped_onlyTile⟩
      rw [out, outEntry, free, wordBody, wordHeader]
    · have failed' : r.st ≠ .conv := by obtain st | st := failed <;> rw [st] <;> decide
      rw [liveResult_failed free hub failed', ← takenOff, liveFails_eq failed] at run
      have told : failedEntry (takenOff s t rest) t w r = failedEntry s t w r := rfl
      rw [told] at run
      have queues := failed_effect (x := failedEntry s t w r) late idle det
      simp only [queuesOf, Prod.mk.injEq] at queues
      obtain ⟨pool, -, reserved, out, -, ladder⟩ := queues
      refine ⟨_, run, pool, out, reserved, fun pinned => ?_, fun gone => ?_, (only.trans (onlyTile_modDet _)).trans pumped_onlyTile⟩
      · rw [← failedEntry_pinned failed pinned]
        exact ladder
      · rw [← failedEntry_gone gone]
        exact ladder
  · intro o rest first
    refine ⟨fun hears room data response => ?_, fun waits => by rw [exec_sectorSend on, sectorSend_waits first waits]⟩
    have run := (exec_sectorSend on).trans (congrArg _ (sectorSend_sends first hears room data response))
    obtain ⟨sent, dataLeft, responseLeft⟩ := crossed_effect (s := s.setDet t { s.det t with outQ := rest }) (t := t) (o := o)
    obtain ⟨v, crossing⟩ : ∃ v, crossed (s.setDet t { s.det t with outQ := rest }) t o = v := ⟨_, rfl⟩
    rw [crossing] at run sent dataLeft responseLeft
    have det := sent.det t
    rw [State.setDet_det] at det
    have idle' : (v.det t).outWait = [] := by rw [det, idle]
    have det' := fillOut_det idle'
    obtain ⟨regs, frame⟩ := fillOut_onlyTile (s := v) (t := t)
    have link := fillOut_link (s := v) (t := t) 1
    generalize fillOut v t = x at *
    obtain ⟨nq, buf, rest'⟩ := delivered_frame (q := Tab.at [] s.buf.cipherIn t ++
      [⟨o.psa, o.req, o.body, o.blank, o.drop, o.crc, o.ctx⟩]) sent frame
    refine ⟨_, run, ?_, ?_, ?_, ?_, ?_, ?_, ?_, ?_⟩
    · rw [delivered_det, det', det]
    · exact Tab.at_to_self ..
    · rw [delivered_link, link, dataLeft, State.setDet_link]
    · rw [delivered_link, link, responseLeft, State.setDet_link]
    · rw [regsKept]
      intro a other
      rw [delivered_reg, regs a other, sent.reg, State.setDet_reg]
    · exact nq
    · exact buf
    · exact rest'

end Sys2Proof.Machine
end

section
/-! SUPPORT. O15: CAPTURE_START (R25, R75, R92, R93, R101, R102, R114, R117, R118). -/

namespace Sys2Proof.Machine

/-! ### Changes of one lane -/

/-- Nothing has changed but lane `l` of tile `t`, with its registers, and the free values taken. -/
structure LaneOnly (t l : Nat) (s u : State) : Prop where
  frame : u = { s with regs := u.regs, free := u.free, tl := { s.tl with lanes := u.tl.lanes } }
  lanes : ∀ j, j ≠ l → u.lane t j = s.lane t j
  regs : ∀ j o, j ≠ l → o < 0x1000 → u.reg (aLane t j o) = s.reg (aLane t j o)

namespace LaneOnly
variable {t l o : Nat} {s u v : State}

theorem refl (s : State) : LaneOnly t l s s := ⟨rfl, fun _ _ => rfl, fun _ _ _ _ => rfl⟩

theorem trans (h : LaneOnly t l s u) (k : LaneOnly t l u v) : LaneOnly t l s v := by
  refine ⟨?_, fun j d => (k.lanes j d).trans (h.lanes j d), fun j o d r => (k.regs j o d r).trans (h.regs j o d r)⟩
  rw [k.frame, h.frame]

theorem ite {p : Prop} [Decidable p] (yes : LaneOnly t l s u) (no : LaneOnly t l s v) : LaneOnly t l s (if p then u else v) := by
  split
  · exact yes
  · exact no

theorem of_apart {a : Nat} (w : Word) (apart : ∀ j o, j ≠ l → o < 0x1000 → aLane t j o ≠ a) : LaneOnly t l s (s.setReg a w) :=
  ⟨rfl, fun _ _ => rfl, fun j o other small => s.setReg_reg_ne w (apart j o other small)⟩

theorem setReg (w : Word) (small : o < 0x1000) : LaneOnly t l s (s.setReg (aLane t l o) w) :=
  of_apart w fun _ _ other small' e => other (aLane_inj small' small e).1

theorem modLane (f : LaneX → LaneX) : LaneOnly t l s (s.modLane t l f) :=
  ⟨rfl, fun _ other => Tab.at_to_ne _ _ _ (by omega), fun _ _ _ _ => rfl⟩

theorem took : LaneOnly t l s s.took := ⟨rfl, fun _ _ => rfl, fun _ _ _ _ => rfl⟩

theorem applyTaps : LaneOnly t l s (applyTaps s t l) := by
  unfold Machine.applyTaps putTaps
  exact (foldl_related refl trans (fun _ _ => modLane _) _ _).trans (modLane _)

theorem acquire : LaneOnly t l s (acquire s t l) := by
  unfold Machine.acquire
  exact ((applyTaps.trans (modLane _)).trans ((setReg _ (by decide)).trans ((setReg _ (by decide)).trans (setReg _ (by decide))))).trans
    took

theorem head (h : LaneOnly t l s u) (i : Nat) : u.head i = s.head i := by
  rw [h.frame]
  rfl

theorem det (h : LaneOnly t l s u) (t' : Nat) : u.det t' = s.det t' := by
  rw [h.frame]
  rfl

end LaneOnly

/-! ### A lane that begins a capture (R75, R77, R88) -/

section
variable {s : State} {t l id tgt : Nat}

theorem setReg_lane (a : Nat) (w : Word) (t l : Nat) : (s.setReg a w).lane t l = s.lane t l := rfl

theorem laneSt_setF_state (n : Nat) : laneSt (s.setF (aLane t l 4) 3 0 n) t l = n % 16 := by
  rw [laneSt, State.setF_eq, State.setReg_fld_self, fld_setFld_self _ _ (by decide)]
  rfl

theorem laneSt_setReg_state (w : Word) (same : fld w 3 0 = s.fld (aLane t l 4) 3 0) :
    laneSt (s.setReg (aLane t l 4) w) t l = laneSt s t l := by
  rw [laneSt, State.setReg_fld_self, same, laneSt]

theorem acquire_laneSt : laneSt (acquire s t l) t l = 4 := by
  unfold acquire setLaneSt
  dsimp only
  generalize State.setF _ (aLane t l 0xC) 5 0 _ = v
  have kept : laneSt ((v.setF (aLane t l 4) 3 0 4).setB (aLane t l 4) 19 false) t l = laneSt (v.setF (aLane t l 4) 3 0 4) t l := by
    rw [State.setB_eq, laneSt_setReg_state _ (fld_setBit_ne _ _ (by decide) (by decide))]
  have same (w : State) : laneSt w.took t l = laneSt w t l := rfl
  rw [same, kept, laneSt_setF_state]

/-- The lane captures into bank `b`, which holds its number and no samples. -/
def banked (s : State) (t l id : Nat) : State :=
  s.modLane t l fun x => { (if id / 2 ^ 30 = 0 then { x with b0 := ⟨some id, [], []⟩ } else { x with b1 := ⟨some id, [], []⟩ }) with
    bank := id / 2 ^ 30 }

theorem banked_lane : ((banked s t l id).lane t l).bank = id / 2 ^ 30 ∧ bankOf (banked s t l id) t l id = ⟨some id, [], []⟩ := by
  unfold bankOf banked
  rw [State.modLane_eq, State.setLane_lane]
  split <;> exact ⟨rfl, rfl⟩

/-- A lane as it begins a capture: it acquires where it must, and an asperity in progress holds it. -/
def laneEngaged (s : State) (t l : Nat) : State :=
  let v := if laneSt s t l = 3 ∨ (s.lane t l).lost then acquire s t l else s
  if v.bit (aLane t l 4) 18 then setLaneSt v t l 6 else v

theorem beginLane_eq : beginLane s t l id tgt = (banked (laneEngaged s t l) t l id).setF (aLane t l 4) 23 20 tgt := rfl

theorem laneEngaged_only : LaneOnly t l s (laneEngaged s t l) :=
  LaneOnly.trans (.ite .acquire (.refl s)) (.ite (.setReg _ (by decide)) (.refl _))

theorem laneEngaged_laneSt : laneSt (laneEngaged s t l) t l ≠ 3 := by
  have acquired : laneSt (if laneSt s t l = 3 ∨ (s.lane t l).lost = true then acquire s t l else s) t l ≠ 3 := by
    split
    · rw [acquire_laneSt]
      decide
    · next on => exact fun idle => on (.inl idle)
  unfold laneEngaged
  dsimp only
  generalize (if laneSt s t l = 3 ∨ (s.lane t l).lost = true then acquire s t l else s) = v at *
  split
  · rw [setLaneSt, laneSt_setF_state]
    decide
  · exact acquired

theorem beginLane_effect : ((beginLane s t l id tgt).lane t l).bank = id / 2 ^ 30 ∧ laneSt (beginLane s t l id tgt) t l ≠ 3 ∧
    bankOf (beginLane s t l id tgt) t l id = ⟨some id, [], []⟩ ∧ LaneOnly t l s (beginLane s t l id tgt) := by
  have stored : LaneOnly t l s (banked (laneEngaged s t l) t l id) := laneEngaged_only.trans (.modLane _)
  obtain ⟨bank, held⟩ := banked_lane (s := laneEngaged s t l) (t := t) (l := l) (id := id)
  have lanes : laneSt (banked (laneEngaged s t l) t l id) t l ≠ 3 := laneEngaged_laneSt
  rw [beginLane_eq]
  generalize banked (laneEngaged s t l) t l id = v at *
  refine ⟨?_, ?_, ?_, stored.trans (.setReg _ (by decide))⟩
  · rw [State.setF_eq, setReg_lane, bank]
  · rw [State.setF_eq, laneSt_setReg_state _ (fld_setFld_ne _ _ (by decide) (by decide))]
    exact lanes
  · rw [State.setF_eq, bankOf, setReg_lane, ← bankOf, held]

end

/-! ### The start of a capture (R25, R92, R118) -/

section
variable {s u v : State} {t c h b i : Nat} {e : CapEnt} {rest : List CapEnt} {k : Capture}

/-- The head has a capture in progress, behind the others; the bank's former one is no longer held. -/
def captureEntered (s : State) (i b : Nat) (k : Capture) : State :=
  s.setHead i { s.head i with
    curs := (s.head i).curs ++ [k]
    count := ((s.head i).count + 1) % 2 ^ 30
    held := (s.head i).held.filter fun k => decide (k.id / 2 ^ 30 ≠ b) }

/-- The outbound and decoder entries of a capture are reserved. -/
def reservedFor (s : State) (t : Nat) (e : CapEnt) : State :=
  s.modDet t fun d => { d with outRes := d.outRes + outNeed (entWants e), decRes := d.decRes + (entWants e).length }

theorem applyKappa_head : ((applyKappa s i).head i).curs = (s.head i).curs ∧ ((applyKappa s i).head i).count = (s.head i).count ∧
    ((applyKappa s i).head i).capQ = (s.head i).capQ := by
  rw [applyKappa, State.modHead_eq, State.setHead_head]
  exact ⟨rfl, rfl, rfl⟩

theorem reservedFor_effect : (∀ l, (reservedFor s t e).lane t l = s.lane t l) ∧
    (∀ l, laneSt (reservedFor s t e) t l = laneSt s t l) ∧ (reservedFor s t e).det t = { s.det t with
      outRes := (s.det t).outRes + outNeed (entWants e), decRes := (s.det t).decRes + (entWants e).length } := by
  refine ⟨fun _ => rfl, fun l => ?_, State.setDet_det ..⟩
  rw [laneSt, laneSt, State.fld, State.fld]
  rfl

theorem setHead_tLane (x : HeadX) (l : Nat) : tLane (s.setHead i x) t l = tLane s t l := rfl

/-- With both lanes in service a capture begins in both. -/
theorem beginCapture_begins (a : tLane s t (laneOf c h 0) = false) (b' : tLane s t (laneOf c h 1) = false) :
    ∃ k : Capture, k.ent = e ∧ k.id = b * 2 ^ 30 + (s.head (headIdx t c h)).count ∧ k.laneA = true ∧ k.laneB = true ∧
      beginCapture s t c h b e = reservedFor (beginLane (beginLane (captureEntered (applyKappa s (headIdx t c h)) (headIdx t c h) b k) t
        (laneOf c h 0) k.id e.target) t (laneOf c h 1) k.id e.target) t e := by
  have serveA : tLane (applyKappa s (headIdx t c h)) t (laneOf c h 0) = false := a
  have serveB : tLane (applyKappa s (headIdx t c h)) t (laneOf c h 1) = false := b'
  have number := (applyKappa_head (s := s) (i := headIdx t c h)).2.1
  unfold beginCapture
  dsimp only
  rw [serveA, serveB, ← number]
  generalize applyKappa s (headIdx t c h) = v
  exact ⟨_, rfl, rfl, rfl, rfl, rfl⟩

/-- Nothing has changed but heads, their lanes with the registers of these, a detector's reservations and the free
values. -/
theorem begun_effect (first : laneOf c h 0 ≠ laneOf c h 1) (small : k.id / 2 ^ 30 = b)
    (run : reservedFor (beginLane (beginLane (captureEntered s i b k) t (laneOf c h 0) k.id e.target) t (laneOf c h 1) k.id e.target) t e =
      u) :
    (u.head i).curs = (s.head i).curs ++ [k] ∧ (u.head i).count = ((s.head i).count + 1) % 2 ^ 30 ∧
      (u.head i).capQ = (s.head i).capQ ∧
      (∀ r, r < 2 → (u.lane t (laneOf c h r)).bank = b ∧ laneSt u t (laneOf c h r) ≠ 3 ∧
        bankOf u t (laneOf c h r) k.id = ⟨some k.id, [], []⟩) ∧
      (u.det t).outRes = (s.det t).outRes + outNeed (entWants e) ∧
      (u.det t).decRes = (s.det t).decRes + (entWants e).length ∧ u.nq = s.nq ∧ u.buf = s.buf ∧ u.out = s.out := by
  have head : (captureEntered s i b k).head i = { s.head i with
      curs := (s.head i).curs ++ [k]
      count := ((s.head i).count + 1) % 2 ^ 30
      held := (s.head i).held.filter fun k => decide (k.id / 2 ^ 30 ≠ b) } := State.setHead_head _ _ _
  have det : (captureEntered s i b k).det t = s.det t := State.setHead_det ..
  have same : (captureEntered s i b k).nq = s.nq ∧ (captureEntered s i b k).buf = s.buf ∧ (captureEntered s i b k).out = s.out := ⟨rfl, rfl, rfl⟩
  generalize captureEntered s i b k = v at *
  obtain ⟨bankA, runsA, heldA, onlyA⟩ := beginLane_effect (s := v) (t := t) (l := laneOf c h 0) (id := k.id) (tgt := e.target)
  generalize beginLane v t (laneOf c h 0) k.id e.target = w at *
  obtain ⟨bankB, runsB, heldB, onlyB⟩ := beginLane_effect (s := w) (t := t) (l := laneOf c h 1) (id := k.id) (tgt := e.target)
  generalize beginLane w t (laneOf c h 1) k.id e.target = x at *
  have laneA : x.lane t (laneOf c h 0) = w.lane t (laneOf c h 0) := onlyB.lanes _ first
  have stA : laneSt x t (laneOf c h 0) = laneSt w t (laneOf c h 0) := by
    rw [laneSt, State.fld, onlyB.regs _ _ first (by decide), laneSt, State.fld]
  subst run
  obtain ⟨nq, buf, out⟩ := same
  have side : x.nq = s.nq ∧ x.buf = s.buf ∧ x.out = s.out := by
    rw [onlyB.frame, onlyA.frame]
    exact ⟨nq, buf, out⟩
  have heads : x.head i = _ := (onlyB.head i).trans ((onlyA.head i).trans head)
  have dets : x.det t = s.det t := (onlyB.det t).trans ((onlyA.det t).trans det)
  obtain ⟨lanes, runs, reserved⟩ := reservedFor_effect (s := x) (t := t) (e := e)
  refine ⟨?_, ?_, ?_, fun r range => ?_, ?_, ?_, ?_⟩
  · rw [reservedFor, State.modDet_eq, State.setDet_head, heads]
  · rw [reservedFor, State.modDet_eq, State.setDet_head, heads]
  · rw [reservedFor, State.modDet_eq, State.setDet_head, heads]
  · rw [lanes, runs, bankOf, lanes, ← bankOf]
    obtain rfl | rfl : r = 0 ∨ r = 1 := by omega
    · rw [laneA, stA, bankOf, laneA, ← bankOf, bankA, heldA]
      exact ⟨small, runsA, rfl⟩
    · rw [bankB, heldB]
      exact ⟨small, runsB, rfl⟩
  · rw [reserved, dets]
  · rw [reserved, dets]
  · rw [reservedFor, State.modDet_eq, State.setDet_nq, State.setDet_buf, State.setDet_out]
    exact side

/-! ### CAPTURE_START -/

theorem exec_captureStart {passed : Bool} (on : channelOn s t) (hc : c < 4) (hh : h < 24) :
    exec (.captureStart t c h passed) s = .next (captureStart s t c h passed) := onHeadCh_next on hc hh

/-- The first entry has left the queue. -/
def unqueuedEntry (s : State) (i : Nat) (rest : List CapEnt) : State := s.modHead i fun y => { y with capQ := rest }

theorem captureStart_passed (still : fillCap (headGo s t c h) t c h = s) (first : (s.head (headIdx t c h)).capQ = e :: rest) :
    captureStart s t c h true = deferWants (unqueuedEntry s (headIdx t c h) rest) t c h (entWants e) := by
  simp only [captureStart, still, first, true_or, if_true]
  rfl

/-- With room for all that an entry needs, all of it is kept. -/
theorem keepWants_all {free : Nat} (room : outNeed (entWants e) ≤ free) : keepWants free e = e := by
  have kept (o : Option Want) (n : Nat) (fits : n + outNeed o.toList ≤ free) :
      (o.filter fun w => !(needOut w) || decide (n + 1 ≤ free)) = o := by
    cases o with
    | none => rfl
    | some w =>
      refine Option.filter_eq_some_iff.2 ⟨rfl, ?_⟩
      cases need : needOut w with
      | false => rfl
      | true =>
        have one : outNeed (some w).toList = 1 := by simp [outNeed, need]
        rw [one] at fits
        simp [fits]
  have both : outNeed e.a.toList + outNeed e.b.toList ≤ free := by
    rw [outNeed, entWants, List.filter_append, List.length_append] at room
    exact room
  have first := kept e.a 0 (by omega)
  unfold keepWants
  rw [Nat.zero_add] at first
  dsimp only
  rw [first, kept e.b _ both]

theorem onlyNotices.side (only : onlyNotices s u) : u.tl = s.tl ∧ u.buf = s.buf := by
  rw [only.1]
  exact ⟨rfl, rfl⟩

theorem bump_side (a n : Nat) : (s.bump a n).tl = s.tl ∧ (s.bump a n).buf = s.buf := ⟨rfl, rfl⟩

theorem deferN_side (n : Nat) : (deferN s t n).tl = s.tl ∧ (deferN s t n).buf = s.buf := by
  unfold deferN
  split
  · exact ⟨rfl, rfl⟩
  · obtain ⟨tl, buf⟩ := (tileEdge_notices (s := s.bump (aTile t 0x20) n) t 248).side
    obtain ⟨tl', buf'⟩ := bump_side (s := s) (aTile t 0x20) n
    rw [tl, buf, tl', buf']
    exact ⟨rfl, rfl⟩

theorem extendDeadline_cases (cmd : Nat) : extendDeadline s t cmd = s ∨ ∃ c, extendDeadline s t cmd = s.setCmd cmd c := by
  unfold extendDeadline
  dsimp only
  cases (s.cmd cmd).deadline with
  | none => exact .inl rfl
  | some d => exact (ite_eq_or_eq _ _ _).symm.imp id fun same => ⟨_, same⟩

theorem extendDeadline_side (cmd : Nat) : (extendDeadline s t cmd).tl = s.tl ∧ (extendDeadline s t cmd).buf = s.buf := by
  obtain same | ⟨c, same⟩ := extendDeadline_cases (s := s) (t := t) cmd <;> rw [same] <;> exact ⟨rfl, rfl⟩

/-- Sectors that are deferred are wanted of the head again, later (R25). -/
theorem deferWants_effect (ws : List Want) : (deferWants s t c h ws).head (headIdx t c h) = { s.head (headIdx t c h) with
      want := (s.head (headIdx t c h)).want ++ ws.map fun w => { w with later := true } } ∧
    (deferWants s t c h ws).buf = s.buf := by
  have extended : (ws.foldl (fun s w => extendDeadline s t w.req.cmd) (deferN s t ws.length)).tl = s.tl ∧
      (ws.foldl (fun s w => extendDeadline s t w.req.cmd) (deferN s t ws.length)).buf = s.buf := by
    refine List.foldlRecOn (motive := fun v : State => v.tl = s.tl ∧ v.buf = s.buf) _ _ (deferN_side _) fun v same w _ => ?_
    obtain ⟨tl, buf⟩ := extendDeadline_side (s := v) (t := t) w.req.cmd
    exact ⟨tl.trans same.1, buf.trans same.2⟩
  obtain ⟨tl, buf⟩ := extended
  unfold deferWants
  dsimp only
  generalize ws.foldl (fun s w => extendDeadline s t w.req.cmd) (deferN s t ws.length) = v at *
  rw [State.modHead_eq, State.setHead_head, State.setHead_buf, State.head, tl, buf]
  exact ⟨rfl, rfl⟩

theorem deferWants_none : deferWants s t c h [] = s.modHead (headIdx t c h) fun x => { x with want := x.want ++ [] } := by
  have still : deferN s t 0 = s := if_pos rfl
  simp only [deferWants, List.length_nil, still, List.foldl_nil, List.map_nil]

/-- The head with its first entry taken and nothing deferred. -/
def readied (s : State) (t c h : Nat) (rest : List CapEnt) : State :=
  deferWants (unqueuedEntry s (headIdx t c h) rest) t c h []

theorem readied_eq : readied s t c h rest = (unqueuedEntry s (headIdx t c h) rest).setHead (headIdx t c h)
    { (unqueuedEntry s (headIdx t c h) rest).head (headIdx t c h) with
      want := ((unqueuedEntry s (headIdx t c h) rest).head (headIdx t c h)).want ++ [] } := deferWants_none

theorem readied_tLane (l : Nat) : tLane (readied s t c h rest) t l = tLane s t l := by
  rw [readied_eq, setHead_tLane, unqueuedEntry, State.modHead_eq, setHead_tLane]

theorem readied_effect : ((readied s t c h rest).head (headIdx t c h)).curs = (s.head (headIdx t c h)).curs ∧
    ((readied s t c h rest).head (headIdx t c h)).count = (s.head (headIdx t c h)).count ∧
    ((readied s t c h rest).head (headIdx t c h)).capQ = rest ∧ (readied s t c h rest).det t = s.det t ∧
    (readied s t c h rest).nq = s.nq ∧ (readied s t c h rest).buf = s.buf ∧ (readied s t c h rest).out = s.out := by
  rw [readied_eq, State.setHead_head, State.setHead_det, State.setHead_nq, State.setHead_buf, State.setHead_out, unqueuedEntry,
    State.modHead_eq, State.setHead_head, State.setHead_det, State.setHead_nq, State.setHead_buf, State.setHead_out]
  exact ⟨rfl, rfl, rfl, rfl, rfl, rfl, rfl⟩

theorem applyKappa_side : (applyKappa s i).det t = s.det t ∧ (applyKappa s i).nq = s.nq ∧ (applyKappa s i).buf = s.buf ∧
    (applyKappa s i).out = s.out := by
  rw [applyKappa, State.modHead_eq, State.setHead_det, State.setHead_nq, State.setHead_buf, State.setHead_out]
  exact ⟨rfl, rfl, rfl, rfl⟩

/-- A capture begins where nothing stands in its way. -/
theorem captureStart_begins (still : fillCap (headGo s t c h) t c h = s) (first : (s.head (headIdx t c h)).capQ = e :: rest)
    (fresh : ∀ w ∈ entWants e, w.ctx = none) (unbooked : headBooked (s.head (headIdx t c h)) = false)
    (home : e.low = (s.headS (headIdx t c h)).home.1) (few : (s.head (headIdx t c h)).curs.length < 2)
    (track : onTrack s t c h = true) (reads : (s.headW (headIdx t c h)).writing = false)
    (lanes : ∀ r, r < 2 → tLane s t (laneOf c h r) = false ∧ laneReady s t (laneOf c h r) = true ∧
      s.bit (aLane t (laneOf c h r) 4) (16 + b) = false)
    (bank : b = 1 - (s.lane t (laneOf c h 0)).bank)
    (out : outUsed s t + outNeed (entWants e) ≤ 48) (some_ : entWants e ≠ [])
    (dec : (s.det t).decRes + (s.det t).decQ.length + (entWants e).length ≤ 64) : captureStart s t c h false =
      beginCapture (readied s t c h rest) t c h b e := by
  have unasked : (entWants e).any (fun w => w.ctx.isSome) = false :=
    List.any_eq_false.2 fun w mem => by rw [fresh w mem]; decide
  obtain ⟨serveA, readyA, unpinnedA⟩ := lanes 0 (by decide)
  obtain ⟨serveB, readyB, unpinnedB⟩ := lanes 1 (by decide)
  have kept : keepWants (48 - outUsed s t) e = e := keepWants_all (by omega)
  have none : (entWants e).filter (fun w => !(entWants e).contains w) = [] :=
    List.filter_eq_nil_iff.2 fun w mem => by simp [mem]
  rw [bank] at unpinnedA unpinnedB ⊢
  simp only [captureStart, still, first, unasked, unbooked, home, serveA, serveB, track, readyA, readyB, reads, unpinnedA, unpinnedB,
    kept, none, some_, Nat.not_le.2 few, Nat.not_lt.2 dec, Bool.false_eq_true, Bool.not_false, Bool.not_true, false_and, and_false,
    or_false, if_false, if_true, ne_eq, not_true_eq_false]
  rfl

end

/-- Settles O15, by whether the entry's place has passed. -/
theorem capturesStartInTheOtherBank : Obligations.CapturesStartInTheOtherBank := by
  rintro s t c h b n i e rest on hc hh rfl still first bank rfl
  refine ⟨?_, ?_⟩
  · intro fresh unbooked home few room track reads lanes out one dec
    have some_ : entWants e ≠ [] := fun empty => by rw [empty] at one; exact absurd one (by decide)
    have run := (exec_captureStart (passed := false) on hc hh).trans (congrArg _
      (captureStart_begins still first fresh unbooked home few track reads lanes bank out some_ dec))
    obtain ⟨k, ent, id, a, b', begins⟩ := beginCapture_begins (s := readied s t c h rest) (b := b) (e := e)
      ((readied_tLane _).trans (lanes 0 (by decide)).1) ((readied_tLane _).trans (lanes 1 (by decide)).1)
    obtain ⟨curs, count, queue, det, nq, buf, outs⟩ := readied_effect (s := s) (t := t) (c := c) (h := h) (rest := rest)
    rw [count] at id
    have small : k.id / 2 ^ 30 = b := by
      rw [id]
      omega
    obtain ⟨kCurs, kCount, kQueue⟩ := applyKappa_head (s := readied s t c h rest) (i := headIdx t c h)
    obtain ⟨kDet, kNq, kBuf, kOut⟩ := applyKappa_side (s := readied s t c h rest) (i := headIdx t c h)
    have two : laneOf c h 0 ≠ laneOf c h 1 := by unfold laneOf; omega
    obtain ⟨curs', count', queue', lanes', outRes, decRes, nq', buf', outs'⟩ := begun_effect two small begins.symm
    refine ⟨_, k, run, ?_, ent, id, a, b', ?_, ?_, lanes', ?_, ?_, ?_, ?_, ?_⟩
    · rw [curs', kCurs, curs]
    · rw [queue', kQueue, queue]
    · rw [count', kCount, count]
    · rw [outRes, kDet, det]
    · rw [decRes, kDet, det]
    · rw [nq', kNq, nq]
    · rw [buf', kBuf, buf]
    · rw [outs', kOut, outs]
  · have run := (exec_captureStart on hc hh).trans (congrArg _ (captureStart_passed still first))
    obtain ⟨head, buf⟩ := deferWants_effect (s := unqueuedEntry s (headIdx t c h) rest) (t := t) (c := c) (h := h) (entWants e)
    have popped : (unqueuedEntry s (headIdx t c h) rest).head (headIdx t c h) = { s.head (headIdx t c h) with capQ := rest } :=
      State.setHead_head _ _ _
    refine ⟨_, run, ?_, ?_, ?_, ?_⟩
    · rw [head, popped]
    · rw [head, popped]
    · rw [head, popped]
    · rw [buf]
      rfl

end Sys2Proof.Machine
end

section
/-! SUPPORT. O38: bookings of heads (R25, R177, R180, R183, R242). -/

namespace Sys2Proof.Machine

/-! ### Notices that record nothing -/

section
variable {s : State} {ic n : Nat}

theorem irqEval_owl : (irqEval s ic n).owl = s.owl := by
  unfold irqEval
  extract_lets
  split <;> rfl

theorem countEvent_owl (id : Nat) : (countEvent s ic n id).owl = s.owl := by
  unfold countEvent
  split <;> rfl

theorem setIrqBit_owl (base id : Nat) (b : Bool) : (setIrqBit s ic base id b).owl = s.owl := rfl

theorem irqEvent_owl (id : Nat) : (irqEvent s ic n id).owl = s.owl := by
  unfold irqEvent
  dsimp only
  simp only [apply_ite State.owl, irqEval_owl, countEvent_owl, setIrqBit_owl, State.setTarget_owl, ite_self]

end

/-! ### The booking that is due (R177) -/

/-- The first of a list with the least value. -/
def leastBooking (f : Booking → Nat) (l : List Booking) : Option Booking :=
  l.foldl (fun a b => match a with
    | none => some b
    | some k => if f b < f k then some b else some k) none

section
variable {s : State} {t c h : Nat} {l : List Booking} {f : Booking → Nat}

theorem leastBooking_spec (some_ : l ≠ []) : ∃ k ∈ l, leastBooking f l = some k ∧ ∀ j ∈ l, f k ≤ f j := by
  have from_ (l : List Booking) (k : Booking) : ∃ m ∈ k :: l, l.foldl (fun a b => match a with
      | none => some b
      | some k => if f b < f k then some b else some k) (some k) = some m ∧ ∀ j ∈ k :: l, f m ≤ f j := by
    induction l generalizing k with
    | nil => exact ⟨k, List.mem_singleton.2 rfl, rfl, fun j mem => (List.mem_singleton.1 mem) ▸ Nat.le_refl _⟩
    | cons b l ih =>
      rw [List.foldl_cons]
      dsimp only
      split
      · next less =>
        obtain ⟨m, mem, found, le⟩ := ih b
        refine ⟨m, List.mem_cons_of_mem _ mem, found, List.forall_mem_cons.2 ⟨?_, le⟩⟩
        exact (le b List.mem_cons_self).trans (Nat.le_of_lt less)
      · next more =>
        obtain ⟨m, mem, found, le⟩ := ih k
        obtain ⟨first, rest⟩ := List.forall_mem_cons.1 le
        refine ⟨m, ?_, found, List.forall_mem_cons.2 ⟨first, List.forall_mem_cons.2 ⟨first.trans (Nat.not_lt.1 more), rest⟩⟩⟩
        exact (List.mem_cons.1 mem).elim (fun e => e ▸ List.mem_cons_self) fun tail =>
          List.mem_cons_of_mem _ (List.mem_cons_of_mem _ tail)
  cases l with
  | nil => exact absurd rfl some_
  | cons k l => exact from_ l k

theorem leastBooking_nil : leastBooking f [] = none := rfl

theorem bookSpan_lt (b : Booking) : (bookSpan s t c h b).1 < (bookSpan s t c h b).2 := by
  unfold bookSpan
  dsimp only
  have pos : 0 < max 1 (dataSpan s t (zoneOf s t (psaTrack b.psa))) := by omega
  generalize max 1 (dataSpan s t (zoneOf s t (psaTrack b.psa))) = d at *
  generalize headPos s t c h + _ + _ = p
  have ends := Nat.lt_div_mul_add pos (a := p + 37456)
  rw [Nat.add_mul]
  omega

theorem dueBooking_eq : dueBooking s t c h =
    match leastBooking (fun b => (bookSpan s t c h b).1) (s.head (headIdx t c h)).bookings with
    | none => none
    | some k => leastBooking (fun b => (s.ctx t b.ctx).born)
        ((s.head (headIdx t c h)).bookings.filter fun b => decide ((bookSpan s t c h b).1 < (bookSpan s t c h k).2)) := rfl

theorem dueBooking_none (empty : (s.head (headIdx t c h)).bookings = []) : dueBooking s t c h = none := by
  rw [dueBooking_eq, empty, leastBooking_nil]

/-- What is due is of the oldest context of those whose windows begin before the first window ends. -/
theorem dueBooking_spec (some_ : (s.head (headIdx t c h)).bookings ≠ []) : ∃ b ∈ (s.head (headIdx t c h)).bookings,
    dueBooking s t c h = some b ∧ ∃ k ∈ (s.head (headIdx t c h)).bookings,
      (∀ j ∈ (s.head (headIdx t c h)).bookings, (bookSpan s t c h k).1 ≤ (bookSpan s t c h j).1) ∧
      ∀ j ∈ (s.head (headIdx t c h)).bookings, (bookSpan s t c h j).1 < (bookSpan s t c h k).2 →
        (s.ctx t b.ctx).born ≤ (s.ctx t j.ctx).born := by
  obtain ⟨k, mem, first, le⟩ := leastBooking_spec (f := fun b => (bookSpan s t c h b).1) some_
  have own : k ∈ (s.head (headIdx t c h)).bookings.filter fun b => decide ((bookSpan s t c h b).1 < (bookSpan s t c h k).2) :=
    List.mem_filter.2 ⟨mem, decide_eq_true (bookSpan_lt k)⟩
  obtain ⟨b, due, oldest, born⟩ := leastBooking_spec (f := fun b => (s.ctx t b.ctx).born) (List.ne_nil_of_mem own)
  refine ⟨b, (List.mem_filter.1 due).1, ?_, k, mem, le, fun j j_mem begins =>
    born j (List.mem_filter.2 ⟨j_mem, decide_eq_true begins⟩)⟩
  rw [dueBooking_eq, first]
  exact oldest

end

/-! ### Deferrals (R25, R177, R183) -/

/-- Nothing has changed but registers, notices without a record, deadlines of commands, and units of the tiles. -/
def deferralOnly (s u : State) : Prop :=
  u = { s with regs := u.regs, irq := u.irq, out := u.out, tl := u.tl, nq := { s.nq with cmds := u.nq.cmds } }

section
variable {s u v : State} {t c h : Nat}

theorem deferralOnly.refl (s : State) : deferralOnly s s := rfl

theorem deferralOnly.trans (first : deferralOnly s u) (second : deferralOnly u v) : deferralOnly s v := by
  unfold deferralOnly at *
  rw [second, first]

theorem deferralOnly_tiles (x : TileSide) : deferralOnly s { s with tl := x } := rfl

theorem deferralOnly_setReg (a : Nat) (w : Word) : deferralOnly s (s.setReg a w) := rfl

theorem deferralOnly_setCmd (i : Nat) (x : Cmd) : deferralOnly s (s.setCmd i x) := rfl

theorem deferralOnly_notices (only : onlyNotices s u) (owl : u.owl = s.owl) : deferralOnly s u := by
  unfold deferralOnly
  rw [only.1, owl]

theorem deferN_deferral (n : Nat) : deferralOnly s (deferN s t n) := by
  unfold deferN
  split
  · exact .refl s
  · exact (deferralOnly_setReg _ _).trans (deferralOnly_notices (tileEdge_notices _ _) (irqEvent_owl _))

theorem extendDeadline_deferral (cmd : Nat) : deferralOnly s (extendDeadline s t cmd) := by
  obtain same | ⟨c, same⟩ := extendDeadline_cases (s := s) (t := t) cmd <;> rw [same]
  · exact .refl s
  · exact deferralOnly_setCmd _ _

theorem modHead_tl (i : Nat) (f : HeadX → HeadX) :
    (s.modHead i f).tl = { s.tl with heads := Tab.to HeadX.none s.tl.heads i (f (s.head i)) } := rfl

/-- What is deferred is told and extended before it is wanted again. -/
theorem deferWants_parts (ws : List Want) : ∃ v, deferralOnly s v ∧ v.tl = s.tl ∧
    deferWants s t c h ws = v.modHead (headIdx t c h) fun x => { x with want := x.want ++ ws.map fun w => { w with later := true } } := by
  refine ⟨ws.foldl (fun s w => extendDeadline s t w.req.cmd) (deferN s t ws.length), ?_, ?_, rfl⟩
  · exact (deferN_deferral _).trans (foldl_related (R := deferralOnly) .refl .trans (fun _ _ => extendDeadline_deferral _) _ _)
  · exact List.foldlRecOn (motive := fun v : State => v.tl = s.tl) _ _ (deferN_side _).1 fun v same w _ =>
      (extendDeadline_side w.req.cmd).1.trans same

/-- What a booked window leaves of the head's streaming: the bookings, and every re-read, as they were. -/
theorem deferWindow_effect (inside : Want → Bool) :
    deferralOnly s (deferWindow s t c h inside) ∧
      (deferWindow s t c h inside).tl.headS = s.tl.headS ∧ (deferWindow s t c h inside).tl.ctxs = s.tl.ctxs ∧
      ((deferWindow s t c h inside).head (headIdx t c h)).bookings = (s.head (headIdx t c h)).bookings ∧
      (∀ w ∈ (s.head (headIdx t c h)).want, w.ctx ≠ none → w ∈ ((deferWindow s t c h inside).head (headIdx t c h)).want) ∧
      ∀ w ∈ ((deferWindow s t c h inside).head (headIdx t c h)).want ++
        ((deferWindow s t c h inside).head (headIdx t c h)).capQ.flatMap entWants,
        w.ctx = none ∨ w ∈ (s.head (headIdx t c h)).want ++ (s.head (headIdx t c h)).capQ.flatMap entWants := by
  unfold deferWindow
  dsimp only
  generalize hx : s.head (headIdx t c h) = x
  generalize hall : (x.capQ.filter fun e => (entWants e).all fun w => w.ctx.isNone).flatMap entWants ++ x.want = all
  generalize hkept : (all.filter fun w => !(w.ctx.isNone && !w.later && inside w)) = kept
  generalize hout : (all.filter fun w => w.ctx.isNone && !w.later && inside w) = out
  generalize hq : (x.capQ.filter fun e => !(entWants e).all fun w => w.ctx.isNone) = queue
  obtain ⟨v, only, tl, run⟩ := deferWants_parts (s := s.setHead (headIdx t c h) { x with capQ := queue, want := kept }) (t := t) (c := c)
    (h := h) out
  rw [run]
  have head : v.head (headIdx t c h) = { x with capQ := queue, want := kept } := by
    rw [State.head, tl]
    exact State.setHead_head ..
  have member : ∀ w ∈ all, w ∈ x.want ++ x.capQ.flatMap entWants := fun w mem => by
    rw [← hall, List.mem_append] at mem
    refine List.mem_append.2 (mem.symm.imp_right fun queued => ?_)
    obtain ⟨e, inQ, inE⟩ := List.mem_flatMap.1 queued
    exact List.mem_flatMap.2 ⟨e, (List.mem_filter.1 inQ).1, inE⟩
  refine ⟨(deferralOnly_tiles _).trans (only.trans (deferralOnly_tiles _)), ?_, ?_, ?_, fun w mem reread => ?_, fun w mem => ?_⟩
  · rw [modHead_tl, tl]
    rfl
  · rw [modHead_tl, tl]
    rfl
  · rw [State.modHead_eq, State.setHead_head, head]
  · rw [State.modHead_eq, State.setHead_head, head]
    refine List.mem_append_left _ ?_
    rw [← hkept, ← hall]
    refine List.mem_filter.2 ⟨List.mem_append_right _ mem, ?_⟩
    rw [Option.isNone_eq_false_iff.2 (Option.isSome_iff_ne_none.2 reread)]
    rfl
  · rw [State.modHead_eq, State.setHead_head, head] at mem
    dsimp only at mem
    rcases List.mem_append.1 mem with wanted | queued
    · rcases List.mem_append.1 wanted with kept' | later
      · rw [← hkept] at kept'
        exact .inr (member w (List.mem_filter.1 kept').1)
      · obtain ⟨w', deferred, rfl⟩ := List.mem_map.1 later
        rw [← hout, List.mem_filter, Bool.and_eq_true, Bool.and_eq_true, Option.isNone_iff_eq_none] at deferred
        obtain ⟨-, ⟨fresh, -⟩, -⟩ := deferred
        exact .inl fresh
    · obtain ⟨e, inQ, inE⟩ := List.mem_flatMap.1 queued
      rw [← hq] at inQ
      exact .inr (List.mem_append_right _ (List.mem_flatMap.2 ⟨e, (List.mem_filter.1 inQ).1, inE⟩))

end

end Sys2Proof.Machine
end

section
/-! SUPPORT. O38: BOOKING_START and BOOKING_END (R177, R180, R184, R242). -/

namespace Sys2Proof.Machine

/-! ### References and the mark of a booking (R227, R237) -/

section
variable {s u : State} {t c h i : Nat}

theorem aCtl_inj {o o' : Nat} (same : aCtl t c o = aCtl t c o') : o = o' := by
  unfold aCtl at same
  omega

theorem setReg_frame (a : Nat) (w : Word) : s.setReg a w = { s with regs := (s.setReg a w).regs } := rfl

theorem modHeadS_reg (f : HeadS → HeadS) (a : Nat) : (s.modHeadS i f).reg a = s.reg a := State.setHeadS_reg ..

/-- A head's reference and the mark of a booking (R242). -/
def bookingAim (s : State) (t c h : Nat) (track off : Int) (booked : Bool) : State :=
  (setRef s t c h track off).setB (aCtl t c (0x100C + 32 * h)) 29 booked

theorem pattern_lt (n : Nat) (x : Int) : pattern n x < 2 ^ n := by
  unfold pattern
  have pos : (0 : Int) < ((2 ^ n : Nat) : Int) := Int.natCast_pos.2 (Nat.two_pow_pos n)
  have below := Int.emod_lt_of_pos x pos
  have above := Int.emod_nonneg x (Int.ne_of_gt pos)
  omega

theorem bookingAim_regs (track off : Int) (booked : Bool) :
    (bookingAim s t c h track off booked).fld (aCtl t c (0x1004 + 32 * h)) 31 8 = trackCode track % 2 ^ 24 ∧
      (bookingAim s t c h track off booked).fld (aCtl t c (0x1008 + 32 * h)) 15 0 = pattern 16 off ∧
      (bookingAim s t c h track off booked).bit (aCtl t c (0x100C + 32 * h)) 29 = booked := by
  have ab : aCtl t c (0x1004 + 32 * h) ≠ aCtl t c (0x1008 + 32 * h) := fun e => absurd (aCtl_inj e) (by omega)
  have ad : aCtl t c (0x1004 + 32 * h) ≠ aCtl t c (0x100C + 32 * h) := fun e => absurd (aCtl_inj e) (by omega)
  have bd : aCtl t c (0x1008 + 32 * h) ≠ aCtl t c (0x100C + 32 * h) := fun e => absurd (aCtl_inj e) (by omega)
  unfold bookingAim setRef
  dsimp only
  generalize aCtl t c (0x1004 + 32 * h) = a at *
  generalize aCtl t c (0x1008 + 32 * h) = b at *
  generalize aCtl t c (0x100C + 32 * h) = d at *
  refine ⟨?_, ?_, ?_⟩
  · rw [State.fld, State.setB_eq, State.setReg_reg_ne _ _ ad, modHeadS_reg, State.setReg_reg_ne _ _ ab, State.setReg_reg,
      fld_place_self _ (by decide)]
  · rw [State.fld, State.setB_eq, State.setReg_reg_ne _ _ bd, modHeadS_reg, State.setReg_reg, fld_place_self _ (by decide)]
    exact Nat.mod_eq_of_lt (pattern_lt 16 off)
  · rw [State.bit, State.setB_eq, State.setReg_reg]
    exact setBit_getLsbD_self _ _ (by decide)

/-- Nothing has changed but registers and the tiles' servos and comb engines. -/
def servoOnly (s u : State) : Prop :=
  u = { s with regs := u.regs, tl := { s.tl with headS := u.tl.headS, ctls := u.tl.ctls } }

theorem servoOnly.trans {v : State} (first : servoOnly s u) (second : servoOnly u v) : servoOnly s v := by
  unfold servoOnly at *
  rw [second, first]

theorem servoOnly_refl : servoOnly s s := rfl

theorem servoOnly_setReg (a : Nat) (w : Word) : servoOnly s (s.setReg a w) := rfl

theorem servoOnly_modHeadS (f : HeadS → HeadS) : servoOnly s (s.modHeadS i f) := rfl

theorem servoOnly_modCtl (f : Ctl → Ctl) : servoOnly s (s.modCtl t c f) := rfl

theorem servoOnly_bookingAim (track off : Int) (booked : Bool) : servoOnly s (bookingAim s t c h track off booked) :=
  ((servoOnly_setReg _ _).trans ((servoOnly_setReg _ _).trans (servoOnly_modHeadS _))).trans (servoOnly_setReg _ _)

theorem servoOnly.fields (only : servoOnly s u) : deferralOnly s u ∧ (∀ i, u.head i = s.head i) ∧ ∀ t i, u.ctx t i = s.ctx t i := by
  refine ⟨?_, fun i => ?_, fun t i => ?_⟩
  · unfold servoOnly at only
    unfold deferralOnly
    rw [only]
  · rw [only]
    rfl
  · rw [only]
    rfl

/-- Putting heads away for a comb booking changes their own marks alone. -/
theorem putAway_effect {a : Nat} (move : Int) (apart : ∀ j, j ≠ h → a ≠ aCtl t c (0x100C + 32 * j)) :
    servoOnly s (putAway s t c h move) ∧ (putAway s t c h move).reg a = s.reg a := by
  refine foldl_related (R := fun s u => servoOnly s u ∧ u.reg a = s.reg a) (fun s => ⟨servoOnly_refl, rfl⟩)
    (fun first second => ⟨first.1.trans second.1, second.2.trans first.2⟩) (fun v j => ?_) _ s
  split
  · next away =>
    refine ⟨(servoOnly_setReg _ _).trans (servoOnly_modHeadS _), ?_⟩
    rw [modHeadS_reg, State.setB_eq, State.setReg_reg_ne _ _ (apart j away.1)]
  · exact ⟨servoOnly_refl, rfl⟩

theorem combBack_effect : servoOnly s (combBack s t c) ∧ ∀ a, (combBack s t c).reg a = s.reg a := by
  have marks := foldl_related (R := fun s u => servoOnly s u ∧ ∀ a, u.reg a = s.reg a) (fun s => ⟨servoOnly_refl, fun _ => rfl⟩)
    (fun first second => ⟨first.1.trans second.1, fun a => (second.2 a).trans (first.2 a)⟩)
    (f := fun s j => s.modHeadS (headIdx t c j) fun y => { y with away := false })
    (fun _ _ => ⟨servoOnly_modHeadS _, modHeadS_reg _⟩) (List.range 24) (s.modCtl t c fun k => { k with shift := 0 })
  exact ⟨(servoOnly_modCtl _).trans marks.1, fun a => (marks.2 a).trans (State.setCtl_reg ..)⟩

/-! ### BOOKING_START -/

/-- A booking that is one with `b` has started. -/
def startedWith (s : State) (t : Nat) (b : Booking) (comb : Bool) (k : Booking) : Booking :=
  if sameBooking s t k b then { k with started := true, comb := comb } else k

/-- The bookings that are one with `b` have started. -/
def bookingsStarted (s : State) (t i : Nat) (b : Booking) (comb : Bool) : State :=
  s.setHead i { s.head i with bookings := (s.head i).bookings.map (startedWith s t b comb) }

theorem exec_bookingStart (on : channelOn s t) (hc : c < 4) (hh : h < 24) :
    exec (.bookingStart t c h) s = .next (bookingStart s t c h) := onHeadCh_next on hc hh

theorem bookingStart_idle (none : (s.head (headIdx t c h)).bookings = [] ∨ ¬(ctlMode s t c = 4 ∨ ctlMode s t c = 5)) :
    bookingStart s t c h = s := by
  have due : (if headBooked (s.head (headIdx t c h)) = true ∨ ¬(ctlMode s t c = 4 ∨ ctlMode s t c = 5) then Option.none
      else dueBooking s t c h) = Option.none := by
    obtain empty | mode := none
    · rw [dueBooking_none empty, ite_self]
    · rw [if_pos (.inr mode)]
  simp only [bookingStart, due]

/-- What is due begins: the streaming of its window is deferred, its bookings start and the head takes its reference;
beyond the microactuator's reach the comb moves. -/
theorem bookingStart_due {b : Booking} (due : dueBooking s t c h = some b) (free : headBooked (s.head (headIdx t c h)) = false)
    (mode : ctlMode s t c = 4 ∨ ctlMode s t c = 5) : ∃ inside comb shift move w,
      w = bookingAim (bookingsStarted (deferWindow s t c h inside) t (headIdx t c h) b comb) t c h (bookingRef s t b).1
        (bookingRef s t b).2 true ∧
      (bookingStart s t c h = w ∨
        bookingStart s t c h = putAway ((w.bump (aCtl t c 0x58)).modCtl t c shift) t c h move) := by
  have first : (if headBooked (s.head (headIdx t c h)) = true ∨ ¬(ctlMode s t c = 4 ∨ ctlMode s t c = 5) then none
      else dueBooking s t c h) = some b := by
    rw [if_neg (not_or.2 ⟨by rw [free]; decide, not_not.2 mode⟩), due]
  obtain ⟨v, deferred⟩ : ∃ v, deferWindow s t c h (fun w => decide (bitsTo s t c h w.req.psa < bitsTo s t c h b.psa)) = v := ⟨_, rfl⟩
  unfold bookingStart
  dsimp only
  rw [first]
  dsimp only
  rw [deferred]
  generalize displacement v t c h ((bookingRef s t b).1 * 1024 + (bookingRef s t b).2) = disp
  generalize reach v t c = lim
  generalize decide (lim < absI disp) = comb
  refine ⟨fun w => decide (bitsTo s t c h w.req.psa < bitsTo s t c h b.psa), comb,
    fun k => { k with shift := k.shift + if disp < 0 then disp + lim else disp - lim }, if disp < 0 then disp + lim else disp - lim,
    _, rfl, ?_⟩
  rw [deferred]
  cases comb with
  | false => exact .inl rfl
  | true => exact .inr rfl

/-- What a booking's start leaves, from the state with its window deferred. -/
theorem bookingStart_effect {w v : State} {b : Booking} {comb : Bool} {track off move : Int} {shift : Ctl → Ctl}
    (listed : b ∈ (v.head (headIdx t c h)).bookings)
    (begins : w = bookingAim (bookingsStarted v t (headIdx t c h) b comb) t c h track off true)
    (run : u = w ∨ u = putAway ((w.bump (aCtl t c 0x58)).modCtl t c shift) t c h move) :
    (∃ k ∈ (u.head (headIdx t c h)).bookings, k.started = true ∧ k.ctx = b.ctx ∧ k.psa = b.psa ∧ k.offset = b.offset) ∧
      u.fld (aCtl t c (0x1004 + 32 * h)) 31 8 = trackCode track % 2 ^ 24 ∧
      u.fld (aCtl t c (0x1008 + 32 * h)) 15 0 = pattern 16 off ∧ u.bit (aCtl t c (0x100C + 32 * h)) 29 = true ∧
      deferralOnly v u := by
  obtain ⟨refs, offs, marked⟩ := bookingAim_regs (s := bookingsStarted v t (headIdx t c h) b comb) (t := t) (c := c) (h := h) track off true
  have only := servoOnly_bookingAim (s := bookingsStarted v t (headIdx t c h) b comb) (t := t) (c := c) (h := h) track off true
  rw [← begins] at refs offs marked only
  have kept : servoOnly w u ∧ ∀ o, o ≠ 0x58 → (∀ j, j ≠ h → o ≠ 0x100C + 32 * j) → u.reg (aCtl t c o) = w.reg (aCtl t c o) := by
    obtain rfl | rfl := run
    · exact ⟨servoOnly_refl, fun _ _ _ => rfl⟩
    · refine ⟨((servoOnly_setReg _ _).trans (servoOnly_modCtl _)).trans (putAway_effect move (a := aCtl t c 0x58) ?_).1,
        fun o other apart => ?_⟩
      · exact fun j _ e => absurd (aCtl_inj e) (by omega)
      · refine (putAway_effect move fun j away e => apart j away (aCtl_inj e)).2.trans ?_
        rw [State.modCtl_eq, State.setCtl_reg]
        exact State.setReg_reg_ne _ _ fun e => other (aCtl_inj e)
  obtain ⟨served, regs⟩ := kept
  obtain ⟨deferral, heads, -⟩ := served.fields
  obtain ⟨deferral', heads', -⟩ := only.fields
  refine ⟨?_, ?_, ?_, ?_, ?_⟩
  · refine ⟨startedWith v t b comb b, ?_, ?_⟩
    · rw [heads, heads', bookingsStarted, State.setHead_head]
      exact List.mem_map_of_mem listed
    · rw [startedWith, if_pos (by simp [sameBooking])]
      exact ⟨rfl, rfl, rfl, rfl⟩
  · rw [State.fld, regs (0x1004 + 32 * h) (by omega) (by omega), ← State.fld, refs]
  · rw [State.fld, regs (0x1008 + 32 * h) (by omega) (by omega), ← State.fld, offs]
  · rw [State.bit, regs (0x100C + 32 * h) (by omega) (by omega), ← State.bit, marked]
  · exact (deferralOnly_tiles _).trans (deferral'.trans deferral)


/-! ### BOOKING_END -/

theorem exec_bookingEnd (on : channelOn s t) (hc : c < 4) (hh : h < 24) :
    exec (.bookingEnd t c h) s = .next (bookingEnd s t c h) := onHeadCh_next on hc hh

theorem bookingEnd_idle (free : headBooked (s.head (headIdx t c h)) = false) : bookingEnd s t c h = s := by
  simp only [bookingEnd, free, Bool.not_false, if_true]

/-- The contexts of bookings are booked no more. -/
def unbooked (s : State) (t : Nat) (bs : List Booking) : State :=
  bs.foldl (fun s b => s.modCtx t b.ctx fun y => { y with booked := false }) s

/-- The bookings that have started have ended, their re-reads captured. -/
def bookingsEnded (s : State) (t i : Nat) : State :=
  unbooked (s.setHead i { s.head i with bookings := (s.head i).bookings.filter fun b => !b.started }) t
    ((s.head i).bookings.filter fun b => b.started)

/-- With every re-read of the started bookings captured, these end and the head returns to its streaming target. -/
theorem bookingEnd_captured (busy : headBooked (s.head (headIdx t c h)) = true)
    (captured : ∀ inside, ∀ b ∈ ((deferWindow s t c h inside).head (headIdx t c h)).bookings, b.started = true →
      ∀ w ∈ ((deferWindow s t c h inside).head (headIdx t c h)).want ++
        ((deferWindow s t c h inside).head (headIdx t c h)).capQ.flatMap entWants, w.ctx ≠ some b.ctx) :
    ∃ inside, ∃ comb : Bool, ∃ v, v = bookingAim (bookingsEnded (deferWindow s t c h inside) t (headIdx t c h)) t c h
        ((bookingsEnded (deferWindow s t c h inside) t (headIdx t c h)).headS (headIdx t c h)).home.1
        ((bookingsEnded (deferWindow s t c h inside) t (headIdx t c h)).headS (headIdx t c h)).home.2 false ∧
      bookingEnd s t c h = headGo (if comb then combBack v t c else v) t c h := by
  obtain ⟨b, started⟩ : ∃ b, (s.head (headIdx t c h)).bookings.find? (fun b => b.started) = some b := by
    refine Option.isSome_iff_exists.1 (List.find?_isSome.2 ?_)
    exact List.any_eq_true.1 busy
  have still := captured fun w => decide (bitsSince s t c h w.req.psa < bitsSince s t c h b.psa)
  obtain ⟨v, deferred⟩ : ∃ v, deferWindow s t c h (fun w => decide (bitsSince s t c h w.req.psa < bitsSince s t c h b.psa)) = v :=
    ⟨_, rfl⟩
  rw [deferred] at still
  generalize hx : v.head (headIdx t c h) = x at still
  have none : ∀ b ∈ x.bookings, b.started = true →
      ((x.want ++ x.capQ.flatMap entWants).any fun w => decide (w.ctx = some b.ctx)) = false :=
    fun b mem begun => List.any_eq_false.2 fun w listed => by simpa using still b mem begun w listed
  have again : (x.bookings.filter fun b => b.started && (x.want ++ x.capQ.flatMap entWants).any fun w => decide (w.ctx = some b.ctx)) =
      [] := by
    refine List.filter_eq_nil_iff.2 fun b mem waits => ?_
    rw [Bool.and_eq_true] at waits
    exact absurd ((none b mem waits.1).symm.trans waits.2) (by decide)
  have ends : (x.bookings.filter fun b => b.started && !(x.want ++ x.capQ.flatMap entWants).any fun w => decide (w.ctx = some b.ctx)) =
      x.bookings.filter fun b => b.started := by
    refine List.filter_congr fun b mem => ?_
    cases begun : b.started with
    | false => rfl
    | true => rw [none b mem begun]; rfl
  have unqueued : (x.capQ.filter fun e => !(entWants e).any fun w => ([] : List Want).contains w) = x.capQ :=
    List.filter_eq_self.2 fun e _ => by simp
  have unasked : ((x.capQ.flatMap entWants).filter fun w => ([] : List Booking).any fun b => decide (w.ctx = some b.ctx)) = [] :=
    List.filter_eq_nil_iff.2 fun w _ => by simp
  refine ⟨fun w => decide (bitsSince s t c h w.req.psa < bitsSince s t c h b.psa), x.bookings.any fun b => b.started && b.comb,
    _, rfl, ?_⟩
  simp only [bookingEnd, busy, started, deferred, hx, Bool.not_true, Bool.false_eq_true, if_false, again, ends, unasked, unqueued,
    List.map_nil, List.append_nil, List.foldl_nil, bookingsEnded, unbooked, bookingAim]

theorem unbook_ctx (i j : Nat) (free : (s.ctx t j).booked = false ∨ i = j) :
    ((s.modCtx t i fun y => { y with booked := false }).ctx t j).booked = false := by
  by_cases same : j = i
  · rw [same, State.modCtx_eq, State.setCtx_ctx]
  · have kept : (s.modCtx t i fun y => { y with booked := false }).ctx t j = s.ctx t j := Tab.at_to_ne _ _ _ (by omega)
    rw [kept, free.resolve_right fun e => same e.symm]

theorem unbooked_ctx (bs : List Booking) (j : Nat) (free : (s.ctx t j).booked = false ∨ ∃ b ∈ bs, b.ctx = j) :
    ((unbooked s t bs).ctx t j).booked = false := by
  induction bs generalizing s with
  | nil => exact free.resolve_right fun ⟨_, mem, _⟩ => absurd mem List.not_mem_nil
  | cons b bs ih =>
    refine ih ?_
    obtain free | ⟨k, mem, same⟩ := free
    · exact .inl (unbook_ctx b.ctx j (.inl free))
    · obtain rfl | tail := List.mem_cons.1 mem
      · exact .inl (unbook_ctx k.ctx j (.inr same))
      · exact .inr ⟨k, tail, same⟩

theorem unbooked_frame (bs : List Booking) : unbooked s t bs = { s with tl := { s.tl with ctxs := (unbooked s t bs).tl.ctxs } } :=
  foldl_related (R := fun s u => u = { s with tl := { s.tl with ctxs := u.tl.ctxs } }) (fun _ => rfl)
    (fun first second => by rw [second, first]) (fun _ _ => rfl) bs s

theorem bookingsEnded_effect : deferralOnly s (bookingsEnded s t i) ∧
    (bookingsEnded s t i).head i = { s.head i with bookings := (s.head i).bookings.filter fun b => !b.started } ∧
    (bookingsEnded s t i).tl.headS = s.tl.headS ∧
    ∀ b ∈ (s.head i).bookings, b.started = true → ((bookingsEnded s t i).ctx t b.ctx).booked = false := by
  have frame := unbooked_frame (s := s.setHead i { s.head i with bookings := (s.head i).bookings.filter fun b => !b.started }) (t := t)
    ((s.head i).bookings.filter fun b => b.started)
  refine ⟨?_, ?_, ?_, fun b mem begun => unbooked_ctx _ _ (.inr ⟨b, List.mem_filter.2 ⟨mem, begun⟩, rfl⟩)⟩
  · unfold bookingsEnded deferralOnly
    rw [frame]
    rfl
  · unfold bookingsEnded
    rw [frame]
    exact State.setHead_head ..
  · unfold bookingsEnded
    rw [frame]
    rfl

/-- What the end of bookings leaves, from the state with their window deferred. -/
theorem bookingEnd_effect {x v : State} {comb : Bool} (home : Int × Int)
    (ends : v = bookingAim (bookingsEnded x t i) t c h home.1 home.2 false)
    (run : u = if comb then combBack v t c else v) :
    u.head i = { x.head i with bookings := (x.head i).bookings.filter fun b => !b.started } ∧
      (∀ b ∈ (x.head i).bookings, b.started = true → (u.ctx t b.ctx).booked = false) ∧
      u.fld (aCtl t c (0x1004 + 32 * h)) 31 8 = trackCode home.1 % 2 ^ 24 ∧
      u.fld (aCtl t c (0x1008 + 32 * h)) 15 0 = pattern 16 home.2 ∧ u.bit (aCtl t c (0x100C + 32 * h)) 29 = false ∧
      deferralOnly x u := by
  obtain ⟨ended, head, -, free⟩ := bookingsEnded_effect (s := x) (t := t) (i := i)
  obtain ⟨refs, offs, marked⟩ := bookingAim_regs (s := bookingsEnded x t i) (t := t) (c := c) (h := h) home.1 home.2 false
  have only := servoOnly_bookingAim (s := bookingsEnded x t i) (t := t) (c := c) (h := h) home.1 home.2 false
  rw [← ends] at refs offs marked only
  obtain ⟨deferral, heads, ctxs⟩ := only.fields
  have back : servoOnly v u ∧ u.reg = v.reg := by
    rw [run]
    split
    · exact ⟨combBack_effect.1, funext combBack_effect.2⟩
    · exact ⟨servoOnly_refl, rfl⟩
  obtain ⟨served, regs⟩ := back
  obtain ⟨deferral', heads', ctxs'⟩ := served.fields
  refine ⟨by rw [heads', heads, head], fun b mem begun => by rw [ctxs', ctxs, free b mem begun], ?_, ?_, ?_,
    ended.trans (deferral.trans deferral')⟩
  · rw [State.fld, regs, ← State.fld, refs]
  · rw [State.fld, regs, ← State.fld, offs]
  · rw [State.bit, regs, ← State.bit, marked]

end

end Sys2Proof.Machine
end

section
/-! SUPPORT. O38: DEADLINE_INSTANT, RETIREMENT_MIRRORED and RETIREMENT_FLASH_COPY (R183, R184, R195 to R198). -/

namespace Sys2Proof.Machine

/-! ### Blocks that are dropped (R18, R21, R186) -/

section
variable {s u : State} {c : Cmd} {i b j : Nat} {x : Blk}

theorem setNth_length {α : Type} (l : List α) (i : Nat) (v : α) : (setNth l i v).length = l.length := by
  induction l generalizing i with
  | nil => rfl
  | cons a l ih => cases i <;> simp [setNth, ih]

theorem setNth_getD_self {α : Type} {l : List α} {i : Nat} {v d : α} (range : i < l.length) : (setNth l i v).getD i d = v := by
  induction l generalizing i with
  | nil => exact absurd range (Nat.not_lt_zero _)
  | cons a l ih =>
    cases i with
    | zero => rfl
    | succ i => exact ih (Nat.lt_of_succ_lt_succ range)

theorem setNth_getD_ne {α : Type} {l : List α} {i j : Nat} {v d : α} (other : j ≠ i) : (setNth l i v).getD j d = l.getD j d := by
  induction l generalizing i j with
  | nil => rfl
  | cons a l ih =>
    match i, j, other with
    | 0, 0, other => exact absurd rfl other
    | 0, j + 1, _ => rfl
    | i + 1, 0, _ => rfl
    | i + 1, j + 1, other => exact ih fun e => other (congrArg (· + 1) e)

theorem setBlk_len : (c.setBlk b x).len = c.len := setNth_length _ _ _

theorem setBlk_blk_self (range : b < c.len) : (c.setBlk b x).blk b = x := setNth_getD_self range

theorem setBlk_blk_ne (other : j ≠ b) : (c.setBlk b x).blk j = c.blk j := setNth_getD_ne other

/-- A block is dropped for its deadline and waits to be sent as zeros. -/
def lateBlk (c : Cmd) (b : Nat) : Prop := (c.blk b).drop = some .deadline ∧ (c.blk b).st = .ready

theorem dropBlk_drops {y : Cause} (live : (s.cmd i).live = true) (unsent : ((s.cmd i).blk b).st ≠ .sent) (range : b < (s.cmd i).len) :
    dropBlk s i b y = s.setCmd i ((s.cmd i).setBlk b { (s.cmd i).blk b with st := .ready, drop := some y, data := [] }) :=
  if_pos ⟨live, unsent, range⟩

theorem dropBlk_frame {y : Cause} : dropBlk s i b y = { s with nq := { s.nq with cmds := (dropBlk s i b y).nq.cmds } } := by
  unfold dropBlk
  dsimp only
  split <;> rfl

/-- What is counted with a drop leaves the commands. -/
theorem dropCounted_eq {y : Cause} : ∃ a, dropCounted s i b y = dropBlk (s.bump a) i b y := by
  unfold dropCounted
  dsimp only
  split <;> exact ⟨_, rfl⟩

theorem dropCounted_frame {y : Cause} : ∃ w q, dropCounted s i b y = { s with regs := w, nq := { s.nq with cmds := q } } := by
  obtain ⟨a, run⟩ := dropCounted_eq (s := s) (i := i) (b := b) (y := y)
  rw [run, dropBlk_frame]
  exact ⟨_, _, rfl⟩

theorem dropCounted_cmd (live : (s.cmd i).live = true) (unsent : ((s.cmd i).blk b).st ≠ .sent) (range : b < (s.cmd i).len) :
    (dropCounted s i b .deadline).cmd i =
      (s.cmd i).setBlk b { (s.cmd i).blk b with st := .ready, drop := some .deadline, data := [] } := by
  obtain ⟨a, run⟩ := dropCounted_eq (s := s) (i := i) (b := b) (y := .deadline)
  have same : (s.bump a).cmd i = s.cmd i := State.setReg_cmd ..
  rw [run, dropBlk_drops (by rwa [same]) (by rwa [same]) (by rwa [same]), State.setCmd_cmd, same]

/-- Every block of a list is dropped for the deadline. -/
def dropLate (s : State) (i : Nat) (bs : List Nat) : State := bs.foldl (fun s b => dropCounted s i b .deadline) s

theorem dropLate_frame (bs : List Nat) : ∃ w q, dropLate s i bs = { s with regs := w, nq := { s.nq with cmds := q } } := by
  refine foldl_related (R := fun s u => ∃ w q, u = { s with regs := w, nq := { s.nq with cmds := q } }) (fun s => ⟨s.regs, s.nq.cmds, rfl⟩)
    ?_ (fun _ _ => dropCounted_frame) bs s
  rintro s t u ⟨w, q, first⟩ ⟨w', q', second⟩
  exact ⟨w', q', by rw [second, first]⟩

theorem dropLate_blk (bs : List Nat) (live : (s.cmd i).live = true)
    (open_ : ∀ b ∈ bs, ((s.cmd i).blk b).st ≠ .sent ∧ b < (s.cmd i).len) :
    ((dropLate s i bs).cmd i).live = true ∧ ∀ b, b ∈ bs ∨ lateBlk (s.cmd i) b → lateBlk ((dropLate s i bs).cmd i) b := by
  induction bs generalizing s with
  | nil => exact ⟨live, fun b late => late.resolve_left List.not_mem_nil⟩
  | cons b bs ih =>
    obtain ⟨unsent, range⟩ := open_ b List.mem_cons_self
    have cmd := dropCounted_cmd live unsent range
    have self : lateBlk ((dropCounted s i b .deadline).cmd i) b := by
      rw [cmd, lateBlk, setBlk_blk_self range]
      exact ⟨rfl, rfl⟩
    have rest := ih (s := dropCounted s i b .deadline) (by rw [cmd]; exact live) fun j mem => by
      obtain ⟨unsent', range'⟩ := open_ j (List.mem_cons_of_mem _ mem)
      refine ⟨?_, by rw [cmd, setBlk_len]; exact range'⟩
      by_cases same : j = b
      · rw [same, self.2]
        decide
      · rw [cmd, setBlk_blk_ne same]
        exact unsent'
    refine ⟨rest.1, fun j late => rest.2 j ?_⟩
    by_cases same : j = b
    · exact .inr (same ▸ self)
    · refine late.imp (fun mem => (List.mem_cons.1 mem).resolve_left same) fun late => ?_
      rw [cmd, lateBlk, setBlk_blk_ne same]
      exact late

end

/-! ### DEADLINE_INSTANT (R184) -/

section
variable {s u : State} {i d : Nat}

theorem exec_deadlineInstant : exec (.deadlineInstant i) s = .next (deadlineInstant s i) := rfl

theorem deadlineInstant_before (some_ : (s.cmd i).deadline = some d) (early : s.now < d) : deadlineInstant s i = s := by
  simp only [deadlineInstant, some_, early, or_true, if_true]

/-- At its deadline what has not been delivered is dropped, its media reads end and its packet goes out. -/
theorem deadlineInstant_at (some_ : (s.cmd i).deadline = some d) (live : (s.cmd i).live = true) (read : (s.cmd i).cls = .rd)
    (late : d ≤ s.now) : ∃ v, v = bufGo (endMedia (dropLate s i (undelivered (s.cmd i))) i) i ∧
      deadlineInstant s i = dispatchPacket (v.setCmd i { v.cmd i with deadline := none, turned := true }) 0xF1 (w32 i) 0 := by
  refine ⟨_, rfl, ?_⟩
  simp only [deadlineInstant, some_, live, read, Nat.not_lt.2 late, Bool.not_true, Bool.false_eq_true, ne_eq, not_true_eq_false,
    or_self, if_false]
  rfl

theorem dispatchPacket_cmd (op : Nat) (w : Word) (n j : Nat) : (dispatchPacket s op w n).cmd j = s.cmd j := by
  rw [dispatchPacket_frame]
  rfl

theorem openCtxs_congr (tl : u.tl = s.tl) (t : Nat) : openCtxs u t = openCtxs s t := by
  rw [openCtxs, tl, openCtxs]

/-- No request of the command is held at the hub, nor in a ladder context. -/
def mediaDone (s : State) (i : Nat) : Prop :=
  ∀ t ∈ s.tiles, (∀ q ∈ Tab.at [] s.buf.held t, q.cmd ≠ i) ∧ ∀ e ∈ openCtxs s t, e.2.want.req.cmd ≠ i

theorem cutShort_done (done : mediaDone s i) (b : Nat) : cutShort s i b = false := by
  refine List.any_eq_false.2 fun t tile => ?_
  obtain ⟨held, ctxs⟩ := done t tile
  rw [Bool.or_eq_true, not_or]
  refine ⟨?_, ?_⟩
  · rw [Bool.not_eq_true]
    exact List.any_eq_false.2 fun q mem => by simp [held q mem]
  · rw [Bool.not_eq_true]
    exact List.any_eq_false.2 fun e mem => by simp [ctxs e mem]

/-- With its media reads done, ending them leaves every command. -/
theorem endMedia_done (done : mediaDone s i) : (endMedia s i).nq = s.nq := by
  have none : (List.range (s.cmd i).len).filter (fun b => cutShort s i b) = [] :=
    List.filter_eq_nil_iff.2 fun b _ => by rw [cutShort_done done b]; decide
  unfold endMedia
  dsimp only
  rw [none, List.foldl_nil]
  refine foldl_related (R := fun s u => u.nq = s.nq) (fun _ => rfl) (fun first second => second.trans first) (fun v t => ?_) _ s
  refine foldl_related (R := fun s u => u.nq = s.nq) (fun _ => rfl) (fun first second => second.trans first) (fun v e => ?_) _ _
  split
  · exact (TileWork.endCtx (t := t) e.1).fields.1
  · rfl

theorem mediaDone_dropLate (done : mediaDone s i) (bs : List Nat) : mediaDone (dropLate s i bs) i := by
  obtain ⟨w, q, frame⟩ := dropLate_frame (s := s) (i := i) bs
  rw [frame]
  exact done

theorem undelivered_open (c : Cmd) (b : Nat) (mem : b ∈ undelivered c) : (c.blk b).st ≠ .sent ∧ b < c.len := by
  obtain ⟨range, waits⟩ := List.mem_filter.1 mem
  refine ⟨fun sent => ?_, List.mem_range.1 range⟩
  rw [sent] at waits
  simp at waits

/-- With its media reads done, every block that was not delivered is dropped for the deadline. -/
theorem deadlineInstant_late {v : State} (live : (s.cmd i).live = true) (done : mediaDone s i)
    (ends : v = bufGo (endMedia (dropLate s i (undelivered (s.cmd i))) i) i) : ∀ b ∈ undelivered (s.cmd i), lateBlk (v.cmd i) b := by
  intro b mem
  have cmd : v.cmd i = (dropLate s i (undelivered (s.cmd i))).cmd i := by
    rw [ends]
    exact congrFun (cmd_congr (endMedia_done (mediaDone_dropLate done _))) i
  rw [cmd]
  exact (dropLate_blk _ live (undelivered_open _)).2 b (.inl mem)

end

/-! ### RETIREMENT_MIRRORED (R30, R195 step 5, R202) -/

section
variable {s u : State} {t : Nat}

theorem exec_retirementMirrored (tile : s.hasTile t = true) (hears : hubHears s t = true)
    (credit : 1 ≤ nth 0 (s.link t 1).credits 1) : exec (.retirementMirrored t) s = .next (mirrorDone (crossAtOnce s t 1 1
      ((List.range 13).flatMap fun i => beBytes 4 (s.reg (setWordAddr t i)).toNat)) t) := by
  refine (onTile_next tile).trans ?_
  rw [if_pos ⟨hears, hasCredits_iff.2 credit⟩]

theorem exec_retirementMirrored_waits (tile : s.hasTile t = true) (waits : hubHears s t = false ∨ nth 0 (s.link t 1).credits 1 = 0) :
    exec (.retirementMirrored t) s = .next s := by
  refine (onTile_next tile).trans ?_
  rw [if_neg]
  rintro ⟨hears, credit⟩
  obtain deaf | none := waits
  · exact absurd (deaf.symm.trans hears) (by decide)
  · exact absurd (hasCredits_iff.1 credit) (by omega)

theorem clearNs_tl (n : Nat) : (clearNs s n).tl = s.tl := by
  unfold clearNs
  exact foldl_related (R := fun s u : State => u.tl = s.tl) (f := fun s j => s.setReg (aNs n (4 * j)) 0) (fun _ => rfl)
    (fun first second => second.trans first) (fun _ _ => rfl) _ s

theorem endBlanking_tiles : (endBlanking s).tl.links = s.tl.links ∧ (endBlanking s).tl.mirror = s.tl.mirror := by
  refine foldl_related (R := fun s u => u.tl.links = s.tl.links ∧ u.tl.mirror = s.tl.mirror) (fun _ => ⟨rfl, rfl⟩)
    (fun first second => ⟨second.1.trans first.1, second.2.trans first.2⟩) (fun v e => ?_) _ s
  dsimp only
  split
  · rw [(Ending.completeCmd _).frame]
    dsimp only
    rw [clearNs_tl]
    exact ⟨rfl, rfl⟩
  · exact ⟨rfl, rfl⟩

theorem retireChanged_tl : (retireChanged s).tl = s.tl := rfl

theorem recordMirror_links : (recordMirror s t).tl.links = s.tl.links := by
  rw [(recordMirror_notices s t).1]

/-- Acknowledging a mirror leaves the links, and no retirement of the tile unmirrored. -/
theorem mirrorDone_tiles : (mirrorDone s t).tl.links = s.tl.links ∧
    (mirrorDone s t).tl.mirror = s.tl.mirror.filter fun e => e.1 ≠ t := by
  unfold mirrorDone
  split
  · obtain ⟨z, zones⟩ := settleZones_zones (s := retireChanged (recordMirror (mergeSets s t) t))
    obtain ⟨links, mirror⟩ := endBlanking_tiles (s := retireChanged (recordMirror (mergeSets s t) t))
    rw [zones]
    dsimp only
    rw [links, mirror, retireChanged_tl, recordMirror_links, recordMirror_mirror, mergeSets_frame]
    exact ⟨rfl, rfl⟩
  · exact ⟨recordMirror_links, recordMirror_mirror⟩

end

/-! ### RETIREMENT_FLASH_COPY (R198) -/

section
variable {s u : State} {t : Nat}

theorem exec_retirementFlashCopy (ok : Bool) : exec (.retirementFlashCopy ok) s = .next (retireCopy s ok) := rfl

theorem retireCopy_idle (ok : Bool) (idle : s.fld (aHub 0x1200) 1 0 = 0) : retireCopy s ok = s := if_pos idle

/-- The retirement words lie in flash, their region's block no longer bad. -/
def copied (s : State) : State := { s with flash := { s.flash with
  retire := retireWords s, bad := s.flash.bad.filter fun b => b ≠ 1 } }

theorem retireCopy_done (pending : s.fld (aHub 0x1200) 1 0 ≠ 0) :
    retireCopy s true = persistLevel (((copied s).bumpF (aHub 0x1200) 31 16 1).setF (aHub 0x1200) 1 0 0) := by
  simp only [retireCopy, pending, if_false, if_true]
  rfl

theorem retireCopy_failed (pending : s.fld (aHub 0x1200) 1 0 ≠ 0) :
    retireCopy s false = persistLevel ((owlHub s 0x7002 0 0 1 0 0).setF (aHub 0x1200) 1 0 2) := by
  simp only [retireCopy, pending, if_false, Bool.false_eq_true]

theorem noticeReg_retirePersist : noticeReg (aHub 0x1200) = false := by decide

theorem persistLevel_fld {a hi lo : Nat} (quiet : noticeReg a = false) : (persistLevel s).fld a hi lo = s.fld a hi lo := by
  rw [State.fld, persistLevel_reg quiet, State.fld]

theorem retireCopy_done_effect
    (ends : u = persistLevel (((copied s).bumpF (aHub 0x1200) 31 16 1).setF (aHub 0x1200) 1 0 0)) :
    u.flash = (copied s).flash ∧ u.fld (aHub 0x1200) 1 0 = 0 ∧
      u.fld (aHub 0x1200) 31 16 = min (s.fld (aHub 0x1200) 31 16 + 1) 65535 ∧
      regsAndNotices [aHub 0x1200] (copied s) u := by
  have quiet := noticeReg_retirePersist
  subst ends
  generalize aHub 0x1200 = a at *
  refine ⟨?_, ?_, ?_, ?_⟩
  · rw [persistLevel_flash, State.setF_eq, State.setReg_flash, State.bumpF, State.setF_eq, State.setReg_flash]
  · rw [persistLevel_fld quiet, State.setF_eq, State.setReg_fld_self, fld_setFld_self _ _ (by decide)]
    rfl
  · rw [persistLevel_fld quiet, State.setF_eq, State.setReg_fld_self, fld_setFld_ne _ _ (by decide) (by decide), ← State.fld,
      State.bumpF_fld_self _ (by decide)]
    rfl
  · exact ((regsAndNotices.of_onlyRegs (onlyRegs_bumpF 1 (List.mem_singleton.2 rfl))).trans
      (.setF 1 0 0 (List.mem_singleton.2 rfl))).trans (.of_notices (persistLevel_notices _))

theorem retireCopy_failed_effect (ends : u = persistLevel ((owlHub s 0x7002 0 0 1 0 0).setF (aHub 0x1200) 1 0 2)) :
    u.fld (aHub 0x1200) 1 0 = 2 ∧ u.fld (aHub 0x1200) 31 16 = s.fld (aHub 0x1200) 31 16 ∧ regsAndNotices [aHub 0x1200] s u := by
  have quiet := noticeReg_retirePersist
  subst ends
  generalize aHub 0x1200 = a at *
  refine ⟨?_, ?_, ?_⟩
  · rw [persistLevel_fld quiet, State.setF_eq, State.setReg_fld_self, fld_setFld_self _ _ (by decide)]
    rfl
  · rw [persistLevel_fld quiet, State.setF_eq, State.setReg_fld_self, fld_setFld_ne _ _ (by decide) (by decide),
      owlHub_reg _ _ _ _ _ _ quiet, ← State.fld]
  · exact ((regsAndNotices.of_notices (owlHub_notices _ _ _ _ _ _)).trans (.setF 1 0 2 (List.mem_singleton.2 rfl))).trans
      (.of_notices (persistLevel_notices _))

end

/-! ### The obligation -/

section
variable {s : State} {t c h d i : Nat} {b : Booking}

/-- A booking that is due starts. -/
theorem bookingStart_settled (on : channelOn s t) (hc : c < 4) (hh : h < 24) (due : dueBooking s t c h = some b)
    (free : headBooked (s.head (headIdx t c h)) = false) (mode : ctlMode s t c = 4 ∨ ctlMode s t c = 5) :
    ∃ u, exec (.bookingStart t c h) s = .next u ∧
      (∃ k ∈ (u.head (headIdx t c h)).bookings, k.started = true ∧ k.ctx = b.ctx ∧ k.psa = b.psa ∧ k.offset = b.offset) ∧
      u.fld (aCtl t c (0x1004 + 32 * h)) 31 8 = trackCode (bookingRef s t b).1 % 2 ^ 24 ∧
      u.fld (aCtl t c (0x1008 + 32 * h)) 15 0 = pattern 16 (bookingRef s t b).2 ∧
      u.bit (aCtl t c (0x100C + 32 * h)) 29 = true ∧ deferralOnly s u := by
  have some_ : (s.head (headIdx t c h)).bookings ≠ [] := fun empty => by
    rw [dueBooking_none empty] at due
    exact absurd due (Option.some_ne_none b).symm
  obtain ⟨k, mem, due', -⟩ := dueBooking_spec some_
  obtain rfl : k = b := Option.some.inj (due'.symm.trans due)
  obtain ⟨inside, comb, shift, move, w, begins, run⟩ := bookingStart_due due free mode
  obtain ⟨deferral, -, -, bookings, -, -⟩ := deferWindow_effect (s := s) (t := t) (c := c) (h := h) inside
  have listed : k ∈ ((deferWindow s t c h inside).head (headIdx t c h)).bookings := by rw [bookings]; exact mem
  obtain ⟨started, refs, offs, marked, only⟩ := bookingStart_effect listed begins run
  exact ⟨_, exec_bookingStart on hc hh, started, refs, offs, marked, deferral.trans only⟩

/-- The started bookings end once their re-reads are captured. -/
theorem bookingEnd_settled (on : channelOn s t) (hc : c < 4) (hh : h < 24) (busy : headBooked (s.head (headIdx t c h)) = true)
    (captured : ∀ b ∈ (s.head (headIdx t c h)).bookings, b.started = true →
      ∀ w ∈ (s.head (headIdx t c h)).want ++ (s.head (headIdx t c h)).capQ.flatMap entWants, w.ctx ≠ some b.ctx) :
    ∃ v, exec (.bookingEnd t c h) s = .next (headGo v t c h) ∧
      (v.head (headIdx t c h)).bookings = (s.head (headIdx t c h)).bookings.filter (fun b => !b.started) ∧
      (∀ w ∈ (s.head (headIdx t c h)).want, w.ctx ≠ none → w ∈ (v.head (headIdx t c h)).want) ∧
      (∀ b ∈ (s.head (headIdx t c h)).bookings, b.started = true → (v.ctx t b.ctx).booked = false) ∧
      v.fld (aCtl t c (0x1004 + 32 * h)) 31 8 = trackCode (s.headS (headIdx t c h)).home.1 % 2 ^ 24 ∧
      v.fld (aCtl t c (0x1008 + 32 * h)) 15 0 = pattern 16 (s.headS (headIdx t c h)).home.2 ∧
      v.bit (aCtl t c (0x100C + 32 * h)) 29 = false ∧ deferralOnly s v := by
  have still (inside : Want → Bool) : ∀ b ∈ ((deferWindow s t c h inside).head (headIdx t c h)).bookings, b.started = true →
      ∀ w ∈ ((deferWindow s t c h inside).head (headIdx t c h)).want ++
        ((deferWindow s t c h inside).head (headIdx t c h)).capQ.flatMap entWants, w.ctx ≠ some b.ctx := by
    obtain ⟨-, -, -, bookings, -, asked⟩ := deferWindow_effect (s := s) (t := t) (c := c) (h := h) inside
    intro b mem begun w listed
    rw [bookings] at mem
    obtain none | old := asked w listed
    · rw [none]
      exact (Option.some_ne_none _).symm
    · exact captured b mem begun w old
  obtain ⟨inside, comb, v, ends, run⟩ := bookingEnd_captured busy still
  obtain ⟨deferral, servos, -, bookings, wants, -⟩ := deferWindow_effect (s := s) (t := t) (c := c) (h := h) inside
  obtain ⟨-, -, servos', -⟩ := bookingsEnded_effect (s := deferWindow s t c h inside) (t := t) (i := headIdx t c h)
  have home : (bookingsEnded (deferWindow s t c h inside) t (headIdx t c h)).headS (headIdx t c h) = s.headS (headIdx t c h) := by
    rw [State.headS, servos', servos, State.headS]
  rw [home] at ends
  obtain ⟨head, unbooked, refs, offs, marked, only⟩ := bookingEnd_effect (s.headS (headIdx t c h)).home ends (comb := comb) rfl
  rw [bookings] at head unbooked
  refine ⟨_, (exec_bookingEnd on hc hh).trans (congrArg _ run), by rw [head], fun w mem reread => ?_, unbooked, refs, offs,
    marked, deferral.trans only⟩
  rw [head]
  exact wants w mem reread

theorem deadlineInstant_settled (live : (s.cmd i).live = true) (read : (s.cmd i).cls = .rd) (some_ : (s.cmd i).deadline = some d)
    (late : d ≤ s.now) : ∃ u, exec (.deadlineInstant i) s = .next u ∧ (u.cmd i).deadline = none ∧ (u.cmd i).turned = true ∧
      (mediaDone s i → ∀ b ∈ undelivered (s.cmd i), lateBlk (u.cmd i) b) := by
  obtain ⟨v, ends, run⟩ := deadlineInstant_at some_ live read late
  have cmd : (deadlineInstant s i).cmd i = { v.cmd i with deadline := none, turned := true } := by
    rw [run, dispatchPacket_cmd, State.setCmd_cmd]
  refine ⟨_, exec_deadlineInstant, by rw [cmd], by rw [cmd], fun done b mem => ?_⟩
  rw [cmd]
  exact deadlineInstant_late live done ends b mem

theorem retirementMirrored_settled (tile : s.hasTile t = true) (hears : hubHears s t = true)
    (credit : 1 ≤ nth 0 (s.link t 1).credits 1) :
    ∃ u, exec (.retirementMirrored t) s = .next u ∧ nth 0 (u.link t 1).credits 1 = nth 0 (s.link t 1).credits 1 - 1 ∧
      (s.nq.blanking = [] → ∀ j, j < 13 → u.reg (setWordAddr t j) = s.reg (setWordAddr t j) ||| s.reg (aMir t j) ∧
        u.reg (aMir t j) = s.reg (setWordAddr t j) ||| s.reg (aMir t j)) ∧
      u.tl.mirror = s.tl.mirror.filter fun e => e.1 ≠ t := by
  have range := hasTile_lt tile
  refine ⟨_, exec_retirementMirrored tile hears credit, ?_⟩
  generalize ((List.range 13).flatMap fun i => beBytes 4 (s.reg (setWordAddr t i)).toNat) = words
  have sent := LinksOnly.crossAtOnce s t 1 1 words
  have credits := crossAtOnce_credits (s := s) (t := t) (e := 1) (ch := 1) (what := words) (by decide)
  generalize crossAtOnce s t 1 1 words = v at *
  obtain ⟨links, mirror⟩ := mirrorDone_tiles (s := v) (t := t)
  refine ⟨?_, fun idle j hj => ?_, ?_⟩
  · rw [State.link, links, ← State.link, credits]
  · have idle' : v.nq.blanking = [] := by
      rw [sent.frame]
      exact idle
    rw [mirrorDone_set range hj idle', mirrorDone_mirror range hj, sent.reg, sent.reg]
    exact ⟨rfl, rfl⟩
  · rw [mirror, sent.frame]

end

/-- Settles O38: each command's effect on what it takes up, with the frames of deferrals, servos and flash copies. -/
theorem bookingsDeadlinesAndRetirements : Obligations.BookingsDeadlinesAndRetirements := by
  unfold Obligations.BookingsDeadlinesAndRetirements
  intro s
  refine ⟨fun t c h i on hc hh hi => ?_, fun i d live read some_ => ⟨fun early => ?_, fun late => ?_⟩,
    fun t tile waits => exec_retirementMirrored_waits tile waits,
    fun t tile hears credit => retirementMirrored_settled tile hears credit, fun ok idle => ?_, fun pending => ⟨?_, ?_⟩⟩
  · subst hi
    refine ⟨fun idle => ?_, fun some_ => ?_, fun b due => ?_, fun b due free mode => bookingStart_settled on hc hh due free mode,
      fun free => ?_, fun busy captured => bookingEnd_settled on hc hh busy captured⟩
    · rw [exec_bookingStart on hc hh, bookingStart_idle idle]
    · obtain ⟨b, -, due, -⟩ := dueBooking_spec some_
      rw [due]
      rfl
    · have some_ : (s.head (headIdx t c h)).bookings ≠ [] := fun empty => by
        rw [dueBooking_none empty] at due
        exact absurd due (Option.some_ne_none b).symm
      obtain ⟨k, mem, due', oldest⟩ := dueBooking_spec some_
      obtain rfl : k = b := Option.some.inj (due'.symm.trans due)
      exact ⟨mem, oldest⟩
    · rw [exec_bookingEnd on hc hh, bookingEnd_idle free]
  · rw [exec_deadlineInstant, deadlineInstant_before some_ early]
  · exact deadlineInstant_settled live read some_ late
  · rw [exec_retirementFlashCopy, retireCopy_idle ok idle]
  · obtain ⟨flash, state, gen, only⟩ := retireCopy_done_effect (s := s) rfl
    rw [← retireCopy_done pending] at flash state gen only
    refine ⟨_, exec_retirementFlashCopy true, by rw [flash]; rfl, state, gen, by rw [flash]; rfl, ?_⟩
    rw [flash]
    exact only
  · obtain ⟨state, gen, only⟩ := retireCopy_failed_effect (s := s) rfl
    rw [← retireCopy_failed pending] at state gen only
    exact ⟨_, exec_retirementFlashCopy false, state, gen, only⟩

end Sys2Proof.Machine
end

section
/-! SUPPORT. O25: RDMA_DATA_SEND and READ_COMPLETION (R21, R187, R308, R316, R317, R322, R397, R398). -/

namespace Sys2Proof.Machine

/-! ### What is sent depends on the pair's place alone -/

section
variable {s t : State} {n : Nat}

/-- A queue pair of one place, MTU, ports' registers and SQHD sends alike. -/
structure SendsAlike (s t : State) (n : Nat) : Prop where
  port : (t.qp n).port = (s.qp n).port
  sub : (t.qp n).sub = (s.qp n).sub
  mtu : (t.qp n).mtu = (s.qp n).mtu
  sqhd : (t.qp n).sqhd = (s.qp n).sqhd
  regs : ∀ a, t.reg a = s.reg a

theorem SendsAlike.of_same (qps : t.nq.qps = s.nq.qps) (part : t.part = s.part) (regs : t.regs = s.regs) : SendsAlike s t n := by
  have qp : t.qp n = s.qp n := by rw [State.qp, qps, State.qp]
  exact ⟨by rw [qp], by rw [qp], by rw [qp], by rw [qp], fun a => congrFun (reg_congr part regs) a⟩

theorem SendsAlike.onWire (alike : SendsAlike s t n) (psn kind len : Nat) : onWire t n psn kind len = onWire s n psn kind len :=
  onWire_congr alike.port alike.sub alike.mtu (fun _ _ _ => alike.regs _) psn kind len

theorem SendsAlike.writeSent (alike : SendsAlike s t n) (psn addr key : Nat) (bs : Payload) (len : Nat) :
    writeSent t n psn addr key bs len = writeSent s n psn addr key bs len := by
  rw [Machine.writeSent, alike.onWire, Machine.writeSent]

theorem SendsAlike.cqeSent (alike : SendsAlike s t n) (psn cid dw0 dw1 sct sc : Nat) (dnr : Bool) :
    cqeSent t n psn cid dw0 dw1 sct sc dnr = cqeSent s n psn cid dw0 dw1 sct sc dnr := by
  rw [Machine.cqeSent, alike.onWire, alike.sqhd, Machine.cqeSent]

theorem SendsAlike.packetsOf (alike : SendsAlike s t n) (len : Nat) : packetsOf t n len = packetsOf s n len := by
  unfold Machine.packetsOf qpMtu
  rw [alike.port, alike.mtu, State.fld, alike.regs, State.fld]

end

/-! ### A block is sent -/

section
variable {r s v : State} {i b : Nat} {c : Cmd} {us : List EccRead}

theorem exec_rdmaDataSend : exec (.rdmaDataSend i b us) s = .next (sendRead s i b us) := rfl

/-- The command's block `b` may be sent to its host. -/
structure Sendable (c : Cmd) (b : Nat) : Prop where
  live : c.live = true
  read : c.cls = .rd
  host : c.origin = .host
  fresh : c.old = false
  range : b < c.len
  ready : (c.blk b).st = .ready

/-- The block waits no more in its port's transmit queue. -/
def unqueued (s : State) (i b : Nat) : State :=
  { s with nq := { s.nq with tx := Tab.upd [] s.nq.tx (s.qp (s.cmd i).qp).port fun l => l.filter fun x => x ≠ (i, b) } }

theorem rdmaDataSend_sends (ok : Sendable (s.cmd i) b) (can : canSend s (s.cmd i).qp = true) :
    rdmaDataSend s i b = sendBlk (unqueued s i b) i b := by
  obtain ⟨live, read, host, fresh, range, ready⟩ := ok
  simp only [rdmaDataSend, live, read, host, fresh, ready, Nat.not_le.2 range, can, Bool.not_true, Bool.false_eq_true, ne_eq,
    not_true_eq_false, or_self, if_false, if_true]
  rfl

/-- The write of a block, its packets, and the block marked sent. -/
theorem sendBlk_effect (range : b < (s.cmd i).len) :
    (sendBlk s i b).out = writeSent s (s.cmd i).qp (s.qp (s.cmd i).qp).psn
        ((s.cmd i).cap.sglAddr + blkBytes s (s.cmd i).nsid * b) (s.cmd i).cap.sglKey
        (padTo (blkBytes s (s.cmd i).nsid) ((s.cmd i).blk b).data) (blkBytes s (s.cmd i).nsid) ++ s.out ∧
      ((sendBlk s i b).cmd i).blk b = { (s.cmd i).blk b with st := .sent, data := [] } ∧
      sendBlk s i b = { s with nq := (sendBlk s i b).nq, buf := (sendBlk s i b).buf, out := (sendBlk s i b).out } := by
  unfold sendBlk
  dsimp only
  generalize hn : blkBytes s (s.cmd i).nsid = n
  obtain ⟨o, ho⟩ : ∃ o, Out.rdmaWrite (s.cmd i).qp ((s.cmd i).cap.sglAddr + n * b) (s.cmd i).cap.sglKey
    (padTo n ((s.cmd i).blk b).data) = o := ⟨_, rfl⟩
  have alike : SendsAlike s (s.emit o) (s.cmd i).qp := .of_same rfl rfl rfl
  have kept : (sendPkt (s.emit o) (s.cmd i).qp 1 i b n).cmd i = s.cmd i := by
    rw [sendPkt_eq]
    rfl
  rw [ho, kept, sendPkt_eq, alike.onWire, writeSent, ho]
  refine ⟨?_, ?_, rfl⟩
  · rw [List.append_assoc]
    rfl
  · refine (congrArg (fun c : Cmd => c.blk b) (State.setCmd_cmd ..)).trans ?_
    exact setBlk_blk_self range

theorem unqueued_cmd : (unqueued s i b).cmd i = s.cmd i := rfl

/-- A block that may be sent is sent. -/
theorem rdmaDataSend_effect (ok : Sendable (s.cmd i) b) (can : canSend s (s.cmd i).qp = true) :
    (rdmaDataSend s i b).out = writeSent s (s.cmd i).qp (s.qp (s.cmd i).qp).psn
        ((s.cmd i).cap.sglAddr + blkBytes s (s.cmd i).nsid * b) (s.cmd i).cap.sglKey
        (padTo (blkBytes s (s.cmd i).nsid) ((s.cmd i).blk b).data) (blkBytes s (s.cmd i).nsid) ++ s.out ∧
      ((rdmaDataSend s i b).cmd i).blk b = { (s.cmd i).blk b with st := .sent, data := [] } ∧
      rdmaDataSend s i b = { s with
        nq := (rdmaDataSend s i b).nq, buf := (rdmaDataSend s i b).buf, out := (rdmaDataSend s i b).out } := by
  obtain ⟨out, blk, frame⟩ := sendBlk_effect (s := unqueued s i b) (i := i) (b := b) ok.range
  have alike : SendsAlike s (unqueued s i b) (s.cmd i).qp := .of_same rfl rfl rfl
  have bytes : blkBytes (unqueued s i b) (s.cmd i).nsid = blkBytes s (s.cmd i).nsid := rfl
  rw [unqueued_cmd, bytes, alike.writeSent] at out
  rw [rdmaDataSend_sends ok can]
  exact ⟨out, blk, frame⟩

theorem rdmaDataSend_waits (ok : Sendable (s.cmd i) b) (cannot : canSend s (s.cmd i).qp = false)
    (new : (i, b) ∉ Tab.at [] s.nq.tx (s.qp (s.cmd i).qp).port) (room : (Tab.at [] s.nq.tx (s.qp (s.cmd i).qp).port).length < 64) :
    rdmaDataSend s i b = { s with nq := { s.nq with
      tx := Tab.to [] s.nq.tx (s.qp (s.cmd i).qp).port (Tab.at [] s.nq.tx (s.qp (s.cmd i).qp).port ++ [(i, b)]) } } := by
  obtain ⟨live, read, host, fresh, range, ready⟩ := ok
  have absent : (Tab.at [] s.nq.tx (s.qp (s.cmd i).qp).port).contains (i, b) = false := by
    rw [Bool.eq_false_iff, ne_eq, List.contains_iff_mem]
    exact new
  simp only [rdmaDataSend, live, read, host, fresh, ready, Nat.not_le.2 range, cannot, absent, Nat.not_le.2 room, Bool.not_true,
    Bool.false_eq_true, ne_eq, not_true_eq_false, or_self, if_false]

theorem rdmaDataSend_idle (idle : ((s.cmd i).blk b).st ≠ .ready) : rdmaDataSend s i b = s := if_pos (.inr (.inr (.inl idle)))

/-! ### Units read for a block -/

/-- Whether a unit of the buffer that was read spoils the block: it cannot be corrected, and lies in the block's page or
holds its object guard. -/
def spoils (s : State) (c : Cmd) (b : Nat) (held : Option (Nat × Option Place)) (x : EccRead) : Bool :=
  decide (eccStore x.addr = 0) && unitRead s x && (eccCls x).bad &&
    (decide (held.map (·.1) = some (eccIndex x.addr / 128)) || match held with
      | some (_, some p) => inBlock s p (c.lba b) x.addr
      | _ => false)

theorem sendRead_unread (idle : ((s.cmd i).blk b).st ≠ .ready ∨ canSend s (s.cmd i).qp = false) :
    sendRead s i b us = rdmaDataSend s i b := by
  refine if_pos (.inr (.inr ?_))
  exact idle.imp_right fun no => by rw [no]; rfl

theorem sendable_goes (ok : Sendable (s.cmd i) b) (can : canSend s (s.cmd i).qp = true) :
    ¬((!(s.cmd i).live) = true ∨ (s.cmd i).len ≤ b ∨ ((s.cmd i).blk b).st ≠ .ready ∨ (!canSend s (s.cmd i).qp) = true) := by
  obtain ⟨live, -, -, -, range, ready⟩ := ok
  simp only [live, Nat.not_le.2 range, ready, can, Bool.not_true, Bool.false_eq_true, ne_eq, not_true_eq_false, or_self,
    not_false_eq_true]

/-- Nothing that was read spoils the block: it is sent. -/
theorem sendRead_good (ok : Sendable (s.cmd i) b) (can : canSend s (s.cmd i).qp = true) (good : ∀ x ∈ us, (eccCls x).bad = false) :
    sendRead s i b us = rdmaDataSend (storeReads s us) i b := by
  have none : us.any (spoils s (s.cmd i) b (blkPage s i b)) = false := by
    refine List.any_eq_false.2 fun x mem => ?_
    unfold spoils
    rw [good x mem, Bool.and_false, Bool.false_and]
    exact Bool.false_ne_true
  refine (if_neg (sendable_goes ok can)).trans (if_pos (.inl ?_))
  show (!decide (us.any (spoils s (s.cmd i) b (blkPage s i b)) = true)) = true
  rw [none]
  rfl

/-- A unit that spoils a dirty block drops it. -/
theorem sendRead_spoiled {k : Nat} {p : Place} {x : EccRead} (ok : Sendable (s.cmd i) b) (can : canSend s (s.cmd i).qp = true)
    (held : blkPage s i b = some (k, some p)) (mem : x ∈ us) (bad : spoils s (s.cmd i) b (some (k, some p)) x = true)
    (dirty : (unitIn s p ((s.cmd i).lba b)).dirty = true) (whole : ((s.cmd i).blk b).drop = none) :
    sendRead s i b us = rdmaDataSend (dropRead (storeReads s us) i b .media) i b := by
  have hit : us.any (spoils s (s.cmd i) b (blkPage s i b)) = true := List.any_eq_true.2 ⟨x, mem, by rw [held]; exact bad⟩
  refine (if_neg (sendable_goes ok can)).trans ((if_neg ?_).trans ?_)
  · show ¬((!decide (us.any (spoils s (s.cmd i) b (blkPage s i b)) = true)) = true ∨ ((s.cmd i).blk b).drop.isSome = true)
    rw [hit, whole]
    decide
  · rw [held]
    exact if_pos dirty

/-- The block of a host's read once it is dropped. -/
theorem dropRead_host (ok : Sendable (s.cmd i) b) : dropRead s i b .media =
    s.setCmd i ((s.cmd i).setBlk b { (s.cmd i).blk b with st := .ready, drop := some .media, data := [] }) := by
  rw [dropRead, if_pos ok.host]
  exact dropBlk_drops ok.live (fun sent => by rw [ok.ready] at sent; exact BlkSt.noConfusion sent) ok.range

/-- A dropped block is sent as zeros. -/
theorem dropped_effect (ok : Sendable (s.cmd i) b) (can : canSend s (s.cmd i).qp = true) (ends : v = rdmaDataSend (dropRead s i b .media) i b) :
    v.out = writeSent s (s.cmd i).qp (s.qp (s.cmd i).qp).psn
        ((s.cmd i).cap.sglAddr + blkBytes s (s.cmd i).nsid * b) (s.cmd i).cap.sglKey
        (padTo (blkBytes s (s.cmd i).nsid) []) (blkBytes s (s.cmd i).nsid) ++ s.out ∧
      ((v.cmd i).blk b).st = .sent ∧ ((v.cmd i).blk b).drop = some .media := by
  obtain ⟨live, read, host, fresh, range, ready⟩ := id ok
  rw [dropRead_host ok] at ends
  obtain ⟨x, hx⟩ : ∃ x, { (s.cmd i).blk b with st := .ready, drop := some .media, data := [] } = x := ⟨_, rfl⟩
  rw [hx] at ends
  obtain ⟨u, hu⟩ : ∃ u, s.setCmd i ((s.cmd i).setBlk b x) = u := ⟨_, rfl⟩
  rw [hu] at ends
  have cmd : u.cmd i = (s.cmd i).setBlk b x := by rw [← hu, State.setCmd_cmd]
  have blk : (u.cmd i).blk b = x := by rw [cmd, setBlk_blk_self range]
  have frame : u = { s with nq := { s.nq with cmds := u.nq.cmds } } := by rw [← hu]; rfl
  have alike : SendsAlike s u (s.cmd i).qp := .of_same (by rw [frame]) (by rw [frame]) (by rw [frame])
  have can' : canSend u (u.cmd i).qp = true := by
    rw [cmd, frame]
    exact can
  have bytes : blkBytes u (s.cmd i).nsid = blkBytes s (s.cmd i).nsid := by
    rw [frame]
    rfl
  have qp : u.qp (s.cmd i).qp = s.qp (s.cmd i).qp := by
    rw [frame]
    rfl
  have ok' : Sendable (u.cmd i) b := by
    refine ⟨?_, ?_, ?_, ?_, ?_, by rw [blk, ← hx]⟩ <;> rw [cmd]
    · exact live
    · exact read
    · exact host
    · exact fresh
    · rw [setBlk_len]
      exact range
  obtain ⟨out, after, -⟩ := rdmaDataSend_effect ok' can'
  rw [← ends] at out after
  have same : u.out = s.out := by rw [frame]
  rw [after, blk, ← hx]
  refine ⟨?_, rfl, rfl⟩
  rw [out, blk, cmd]
  show writeSent u (s.cmd i).qp (u.qp (s.cmd i).qp).psn ((s.cmd i).cap.sglAddr + blkBytes u (s.cmd i).nsid * b)
    (s.cmd i).cap.sglKey (padTo (blkBytes u (s.cmd i).nsid) x.data) (blkBytes u (s.cmd i).nsid) ++ u.out = _
  rw [bytes, qp, same, alike.writeSent, ← hx]

end

/-! ### READ_COMPLETION -/

section
variable {s u : State} {i : Nat} {c : Cmd}

theorem exec_readCompletion (live : (s.cmd i).live = true) (read : (s.cmd i).cls = .rd) (host : (s.cmd i).origin = .host)
    (sent : (s.cmd i).allSent = true) (some_ : (s.cmd i).len ≠ 0) :
    exec (.readCompletion i) s = .next (completeRead s i) := by
  have run : exec (.readCompletion i) s = execReadCompletion i s := rfl
  rw [run, execReadCompletion]
  simp only [live, read, host, sent, some_, ne_eq, not_false_eq_true, and_self, if_true]

/-- A read of a host ends with its ring entry, and then with its completion entry. -/
theorem completeRead_host (live : (s.cmd i).live = true) (host : (s.cmd i).origin = .host) (fresh : (s.cmd i).old = false) :
    completeRead s i = completeCmd ((writeRing s (s.cmd i)).1.setCmd i { s.cmd i with dw0 := (writeRing s (s.cmd i)).2 }) i
      (readStatus (s.cmd i).len ((s.cmd i).drops.map (·.2))) := by
  simp only [completeRead, live, host, fresh, Bool.not_true, Bool.false_eq_true, ne_eq, not_true_eq_false, or_self, if_false]

theorem writeRing_none (none : c.drops = [] ∨ (s.qp c.qp).rent = 0) : writeRing s c = (s, 0) := if_pos none

/-- The ring entry is on its way and the ring's sequence number has advanced. -/
def ringWritten (s : State) (c : Cmd) : State :=
  let q := s.qp c.qp
  sendPkt ((s.emit (.rdmaWrite c.qp (q.raddr + 64 * (q.ringSeq % q.rent)) q.rkey (ringBytes c q.qid q.ringSeq q.rent))).setQp c.qp
    { q with ringSeq := (q.ringSeq + 1) % 2 ^ 32 }) c.qp 1 0 0 64

theorem writeRing_some (drops : c.drops ≠ []) (ring : (s.qp c.qp).rent ≠ 0) :
    writeRing s c = (ringWritten s c, 2 ^ 31 + (s.qp c.qp).ringSeq % (s.qp c.qp).rent) :=
  if_neg (not_or.2 ⟨drops, ring⟩)

theorem ringWritten_effect {q : Qp} (pair : s.qp c.qp = q) :
    SendsAlike s (ringWritten s c) c.qp ∧ ((ringWritten s c).qp c.qp).psn = (q.psn + packetsOf s c.qp 64) % 2 ^ 24 ∧
      ((ringWritten s c).qp c.qp).ringSeq = (q.ringSeq + 1) % 2 ^ 32 ∧
      (ringWritten s c).out = writeSent s c.qp q.psn (q.raddr + 64 * (q.ringSeq % q.rent)) q.rkey
        (ringBytes c q.qid q.ringSeq q.rent) 64 ++ s.out := by
  unfold ringWritten
  dsimp only
  rw [pair]
  obtain ⟨o, ho⟩ : ∃ o, Out.rdmaWrite c.qp (q.raddr + 64 * (q.ringSeq % q.rent)) q.rkey (ringBytes c q.qid q.ringSeq q.rent) = o :=
    ⟨_, rfl⟩
  rw [writeSent, ho]
  obtain ⟨v, hv⟩ : ∃ v, (s.emit o).setQp c.qp { q with ringSeq := (q.ringSeq + 1) % 2 ^ 32 } = v := ⟨_, rfl⟩
  have qp : v.qp c.qp = { q with ringSeq := (q.ringSeq + 1) % 2 ^ 32 } := by rw [← hv, State.setQp_qp]
  have regs (a : Nat) : v.reg a = s.reg a := by rw [← hv]; rfl
  have out : v.out = o :: s.out := by rw [← hv]; rfl
  have alike : SendsAlike s v c.qp := ⟨by rw [qp, pair], by rw [qp, pair], by rw [qp, pair], by rw [qp, pair], regs⟩
  have sent : (sendPkt v c.qp 1 0 0 64).qp c.qp = sentQp v c.qp 1 0 0 64 := by
    rw [sendPkt_eq]
    exact State.setQp_qp ..
  rw [hv]
  refine ⟨⟨?_, ?_, ?_, ?_, fun a => ?_⟩, ?_, ?_, ?_⟩
  · rw [sent, ← alike.port]
    rfl
  · rw [sent, ← alike.sub]
    rfl
  · rw [sent, ← alike.mtu]
    rfl
  · rw [sent, ← alike.sqhd]
    rfl
  · rw [sendPkt_eq, ← regs a]
    rfl
  · rw [sent, sentQp, alike.packetsOf, qp]
  · rw [sent, sentQp, qp]
  · rw [sendPkt_eq, qp, alike.onWire]
    show _ ++ v.out = _
    rw [out, List.append_assoc]
    rfl

/-- A command's end leaves the other fields of its queue pair. -/
theorem removeCmd_qps (s : State) (i : Nat) : (removeCmd s i).nq.qps = s.nq.qps := by
  obtain ⟨st, w, sl, es, frame⟩ := removeCmd_eq s i
  rw [frame]

/-- The command's completion entry, from the state its ring entry left. -/
theorem completed_effect {v : State} {dw0 : Nat} {st : Status} (alike : SendsAlike s v c.qp) (live : c.live = true)
    (host : c.origin = .host) (fresh : c.old = false) (ends : u = completeCmd (v.setCmd i { c with dw0 := dw0 }) i st) :
    (u.cmd i).live = false ∧ (u.qp c.qp).ringSeq = (v.qp c.qp).ringSeq ∧
      u.out = cqeSent s c.qp (v.qp c.qp).psn c.cap.cid dw0 c.dw1 st.sct st.code st.dnr ++ v.out := by
  obtain ⟨w, hw⟩ : ∃ w, v.setCmd i { c with dw0 := dw0 } = w := ⟨_, rfl⟩
  rw [hw] at ends
  have cmd : w.cmd i = { c with dw0 := dw0 } := by rw [← hw, State.setCmd_cmd]
  have frame : w = { v with nq := { v.nq with cmds := w.nq.cmds } } := by rw [← hw]; rfl
  have same : SendsAlike v w c.qp := .of_same (by rw [frame]) (by rw [frame]) (by rw [frame])
  have qp : w.qp c.qp = v.qp c.qp := by
    rw [frame]
    rfl
  have out : w.out = v.out := by rw [frame]
  have run := completeCmd_host (s := w) (i := i) st (by rw [cmd]; exact live) (by rw [cmd]; exact host) (by rw [cmd]; exact fresh)
  rw [cmd, ← ends] at run
  dsimp only at run
  refine ⟨by rw [ends]; exact completeCmd_cmd_live st, ?_, ?_⟩
  · rw [run, State.qp, removeCmd_qps, ← State.qp, postCqe_qp, sentQp]
    dsimp only
    rw [qp]
  · rw [run, removeCmd_out, postCqe_out, qp, same.cqeSent, alike.cqeSent, out]

end

/-! ### The obligation -/

section
variable {r s : State} {us : List EccRead} {i b : Nat} {c : Cmd}

/-- A read with no drops, or no ring, ends with DW0 0. -/
theorem readCompletion_plain (cmd : s.cmd i = c) (live : c.live = true) (read : c.cls = .rd) (host : c.origin = .host)
    (fresh : c.old = false) (sent : c.allSent = true) (some_ : c.len ≠ 0) {st : Status}
    (status : st = readStatus c.len (c.drops.map (·.2))) (none : c.drops = [] ∨ (s.qp c.qp).rent = 0) :
    ∃ u, exec (.readCompletion i) s = .next u ∧ (u.cmd i).live = false ∧
      u.out = cqeSent s c.qp (s.qp c.qp).psn c.cap.cid 0 c.dw1 st.sct st.code st.dnr ++ s.out := by
  subst cmd
  have run := completeRead_host live host fresh
  rw [writeRing_none none, ← status] at run
  obtain ⟨ended, -, out⟩ := completed_effect (.of_same rfl rfl rfl) live host fresh run
  exact ⟨_, exec_readCompletion live read host sent some_, ended, out⟩

/-- A read with drops and a ring writes its entry and names it in DW0. -/
theorem readCompletion_ring (cmd : s.cmd i = c) (live : c.live = true) (read : c.cls = .rd) (host : c.origin = .host)
    (fresh : c.old = false) (sent : c.allSent = true) (some_ : c.len ≠ 0) {st : Status} {q : Qp}
    (status : st = readStatus c.len (c.drops.map (·.2))) (pair : q = s.qp c.qp) (drops : c.drops ≠ []) (ring : q.rent ≠ 0) :
    ∃ u, exec (.readCompletion i) s = .next u ∧ (u.cmd i).live = false ∧
      (u.qp c.qp).ringSeq = (q.ringSeq + 1) % 2 ^ 32 ∧
      u.out = cqeSent s c.qp ((q.psn + packetsOf s c.qp 64) % 2 ^ 24) c.cap.cid (2 ^ 31 + q.ringSeq % q.rent) c.dw1
          st.sct st.code st.dnr ++
        writeSent s c.qp q.psn (q.raddr + 64 * (q.ringSeq % q.rent)) q.rkey (ringBytes c q.qid q.ringSeq q.rent) 64 ++ s.out := by
  subst cmd pair
  have run := completeRead_host live host fresh
  rw [writeRing_some drops ring, ← status] at run
  obtain ⟨alike, psn, seq, out⟩ := ringWritten_effect (s := s) (c := s.cmd i) rfl
  obtain ⟨ended, kept, out'⟩ := completed_effect alike live host fresh run
  refine ⟨_, exec_readCompletion live read host sent some_, ended, kept.trans seq, ?_⟩
  rw [out', psn, out, List.append_assoc]

end

/-- Settles O25: a block is sent whole, or as zeros once a unit of its page or guard spoils it; a read's ring entry goes
out before its completion. -/
theorem readsSendAndComplete : Obligations.ReadsSendAndComplete := by
  unfold Obligations.ReadsSendAndComplete
  intro i c live read host fresh
  refine ⟨fun r s us b n psn hs hr hc range ready hn hpsn => ⟨fun can can' good => ?_, ?_⟩, fun s us hc => ⟨?_, ?_, ?_⟩⟩
  · have ok : Sendable c b := ⟨live, read, host, fresh, range, ready⟩
    obtain ⟨out, blk, frame⟩ := rdmaDataSend_effect (s := s) (i := i) (b := b) (hc ▸ ok) (by rw [← hc]; exact can')
    have run := sendRead_good (s := r) (i := i) (b := b) (us := us) (hr ▸ ok) (by rw [← hr]; exact can) good
    rw [← hs] at run
    rw [← hc, ← hn, ← hpsn] at out
    refine ⟨_, exec_rdmaDataSend, ?_, ?_, ?_⟩ <;> rw [run]
    · exact out
    · rw [blk]
    · exact frame
  · intro k p x can can' held mem bad store unit place dirty whole
    have ok : Sendable c b := ⟨live, read, host, fresh, range, ready⟩
    have spoil : spoils r (r.cmd i) b (some (k, some p)) x = true := by
      rw [← hr]
      simp only [spoils, store, unit, bad, decide_true, Bool.and_self, Bool.true_and, Option.map_some, Option.some.injEq,
        Bool.or_eq_true, decide_eq_true_eq]
      exact place.imp_left Eq.symm
    have run := sendRead_spoiled (s := r) (i := i) (b := b) (us := us) (hr ▸ ok) (by rw [← hr]; exact can) held mem spoil
      (by rw [← hr]; exact dirty) (by rw [← hr]; exact whole)
    rw [← hs] at run
    obtain ⟨out, sent, dropped⟩ := dropped_effect (s := s) (i := i) (b := b) (hc ▸ ok) (by rw [← hc]; exact can') run
    rw [← hc, ← hn, ← hpsn] at out
    exact ⟨_, exec_rdmaDataSend, out, sent, dropped⟩
  · intro b p range ready cannot port new room
    have ok : Sendable c b := ⟨live, read, host, fresh, range, ready⟩
    subst port hc
    rw [exec_rdmaDataSend, sendRead_unread (.inr cannot), rdmaDataSend_waits ok cannot new room]
  · intro b idle
    subst hc
    rw [exec_rdmaDataSend, sendRead_unread (.inl idle), rdmaDataSend_idle idle]
  · intro st q sent some_ status pair
    refine ⟨fun none => ?_, fun drops ring => ?_⟩
    · subst pair
      exact readCompletion_plain hc.symm live read host fresh sent some_ status none
    · exact readCompletion_ring hc.symm live read host fresh sent some_ status pair drops ring

end Sys2Proof.Machine
end

section
/-! SUPPORT. O32: sectors that were written end with a result (R152, R154, R157, R194). -/

namespace Sys2Proof.Machine

/-! ### Nothing but tiles, registers and notices -/

section
variable {s u v : State} {t kind c h r cause : Nat}

theorem tilesOnly.refl : tilesOnly s s := ⟨rfl, List.suffix_refl _⟩

theorem tilesOnly.trans (h : tilesOnly s u) (k : tilesOnly u v) : tilesOnly s v := by
  obtain ⟨frame, out⟩ := h
  obtain ⟨frame', out'⟩ := k
  exact ⟨by rw [frame', frame], out.trans out'⟩

theorem TileWork.tilesOnly (work : TileWork t s u) : tilesOnly s u := ⟨by rw [work.frame], work.out⟩

theorem TileWork.stopLane (l : Nat) : TileWork t s (stopLane s t l) :=
  .ite (fun _ => .setF _ _ _ (not_steadyReg_aLane l (by decide) (by decide))) fun _ => .refl s

theorem TileWork.stopUnit (tile : t < 8) : TileWork t s (stopUnit s t kind c h r) :=
  .ite (fun _ => .stopLane _) fun _ => .ite (fun _ => .stopWriter tile c h) fun _ => .ite (fun _ => .stopHead tile c h) fun _ =>
    .ite (fun _ => .stopCluster tile c) fun _ => .stopTile tile

theorem retireOne_tilesOnly (tile : t < 8) : tilesOnly s (retireOne s t kind c h r cause) := by
  cases retired : unitRetired s t kind c h r with
  | true =>
    rw [retireOne, if_pos retired]
    exact .refl
  | false =>
    rw [retireOne_serving retired]
    refine tilesOnly.trans (u := marked s (retireBit t kind c h r) t (kindWord kind t c h r) cause) ⟨rfl, List.suffix_refl _⟩ ?_
    exact (((TileWork.stopUnit tile).trans (.tileEdge tile t _)).trans (.tileNotice tile t _)).tilesOnly

theorem deriveTile_tilesOnly (tile : t < 8) : tilesOnly s (deriveTile s t) := by
  unfold deriveTile
  split
  · exact retireOne_tilesOnly tile
  · exact .refl

theorem deriveCluster_tilesOnly (tile : t < 8) : tilesOnly s (deriveCluster s t c) := by
  unfold deriveCluster
  dsimp only
  refine tilesOnly.trans ?_ (deriveTile_tilesOnly tile)
  split
  · exact retireOne_tilesOnly tile
  · exact .refl

theorem deriveHead_tilesOnly (tile : t < 8) : tilesOnly s (deriveHead s t c h) := by
  unfold deriveHead
  refine tilesOnly.trans ?_ (deriveCluster_tilesOnly tile)
  split
  · exact retireOne_tilesOnly tile
  · exact .refl

/-- A retirement is the tile's own business until it is mirrored. -/
theorem retire_tilesOnly (tile : t < 8) : tilesOnly s (retire s t kind c h r cause) := by
  unfold retire
  dsimp only
  refine (retireOne_tilesOnly (kind := kind) (c := c) (h := h) (r := r) (cause := cause) tile).trans ?_
  split
  · exact deriveHead_tilesOnly tile
  · split
    · exact deriveCluster_tilesOnly tile
    · split
      · exact deriveTile_tilesOnly tile
      · exact .refl

end

/-! ### A sector to be written ends (R157) -/

section
variable {s u v : State} {t a : Nat} {e : WrEnt} {st : WrSt}

/-- Counters of the write path and notices of tile `t`, the tiles' units as they were. -/
structure Counted (t : Nat) (s u : State) : Prop where
  work : TileWork t s u
  tl : u.tl = s.tl
  regs : ∀ a, noticeReg a = false → (∀ o, a ≠ aWrt t o) → u.reg a = s.reg a

theorem Counted.refl : Counted t s s := ⟨.refl s, rfl, fun _ _ _ => rfl⟩

theorem Counted.trans (h : Counted t s u) (k : Counted t u v) : Counted t s v :=
  ⟨h.work.trans k.work, k.tl.trans h.tl, fun a quiet other => (k.regs a quiet other).trans (h.regs a quiet other)⟩

theorem bump_tl (a : Nat) : (s.bump a).tl = s.tl := rfl

theorem bump_reg_ne {b : Nat} (other : b ≠ a) : (s.bump a).reg b = s.reg b := State.setReg_reg_ne _ _ other

theorem Counted.bump (o : Nat) : Counted t s (s.bump (aWrt t o)) where
  work := .bump 1 not_steadyReg_aWrt
  tl := bump_tl _
  regs _ _ other := bump_reg_ne (other o)

theorem Counted.notices (tile : t < 8) (only : onlyNotices s u) : Counted t s u :=
  ⟨.notices tile only, by rw [only.1], fun a quiet _ => only.2.2 a List.not_mem_nil quiet⟩

/-- The result of an entry. -/
def resultOf (e : WrEnt) (st : WrSt) : WrRes := ⟨e.psa, e.kind, e.nsid, e.lba, e.gen, st⟩

/-- A result waits for the hub. -/
def resulted (s : State) (t : Nat) (e : WrEnt) (st : WrSt) : State :=
  s.modWr t fun w => { w with results := w.results ++ [resultOf e st] }

/-- An entry's result is counted, and then waits for the hub. -/
theorem endWrite_counted (tile : t < 8) (e : WrEnt) (st : WrSt) : ∃ x, Counted t s x ∧ endWrite s t e st = resulted x t e st := by
  have bumps (v : State) (o : Nat) : Counted t v (v.bump (aWrt t o)) := .bump o
  unfold endWrite resulted resultOf
  cases st with
  | retired => exact ⟨s, .refl, rfl⟩
  | skipped =>
    have counted := bumps s 0x28
    dsimp only
    generalize s.bump (aWrt t 0x28) = v at *
    exact ⟨v, counted, rfl⟩
  | wfail =>
    have counted := bumps s 0x18
    dsimp only
    generalize s.bump (aWrt t 0x18) = v at *
    exact ⟨_, counted.trans (.notices tile (tileEdge_notices _ _)), rfl⟩
  | written =>
    have counted := bumps s 0x10
    dsimp only
    generalize s.bump (aWrt t 0x10) = v at *
    cases e.kind with
    | partner =>
      have again := bumps v 0x20
      dsimp only
      generalize v.bump (aWrt t 0x20) = w at *
      exact ⟨w, counted.trans again, rfl⟩
    | marker =>
      have again := bumps v 0x24
      dsimp only
      generalize v.bump (aWrt t 0x24) = w at *
      exact ⟨_, (counted.trans again).trans (.notices tile (owlHead_notices _ _ _ _ _ _ _)), rfl⟩
    | host => exact ⟨v, counted, rfl⟩
    | system => exact ⟨v, counted, rfl⟩
    | calib => exact ⟨v, counted, rfl⟩

/-- Entries of a head that failed in succession, with this result. -/
def failsNow (s : State) (i : Nat) (st : WrSt) : Nat :=
  if st = .wfail then (s.headW i).fails + 1 else if st = .written then 0 else (s.headW i).fails

/-- An entry's result waits for the hub, and its head counts what failed. -/
def finished (s : State) (t : Nat) (e : WrEnt) (st : WrSt) (x : State) : State :=
  (resulted x t e st).modHeadW (headIdx t (psaCluster e.psa) (psaHead e.psa)) fun w =>
    { w with fails := failsNow s (headIdx t (psaCluster e.psa) (psaHead e.psa)) st }

theorem finishWrite_counted (tile : t < 8) (e : WrEnt) (st : WrSt) : ∃ x, Counted t s x ∧ finishWrite s t e st =
    if st = .wfail ∧ (finished s t e st x).fld (aTile t 0x100C) 23 16 ≠ 0 ∧ (finished s t e st x).fld (aTile t 0x100C) 23 16 ≤
        failsNow s (headIdx t (psaCluster e.psa) (psaHead e.psa)) st then
      retire (finished s t e st x) t 2 (psaCluster e.psa) (psaHead e.psa) 0 0x05
    else finished s t e st x := by
  obtain ⟨x, counted, run⟩ := endWrite_counted (s := s) tile e st
  refine ⟨x, counted, ?_⟩
  have kept : failsNow (resulted x t e st) (headIdx t (psaCluster e.psa) (psaHead e.psa)) st =
      failsNow s (headIdx t (psaCluster e.psa) (psaHead e.psa)) st := by
    have same : (resulted x t e st).headW (headIdx t (psaCluster e.psa) (psaHead e.psa)) =
        s.headW (headIdx t (psaCluster e.psa) (psaHead e.psa)) := by
      rw [resulted, State.modWr_eq, State.setWr_headW, State.headW, counted.tl]
      rfl
    rw [failsNow, same, failsNow]
  unfold finishWrite
  dsimp only
  rw [run]
  unfold finished
  rw [← kept]
  rfl

theorem finished_work {x : State} (counted : Counted t s x) : TileWork t s (finished s t e st x) :=
  (counted.work.trans (.modWr t _)).trans (.modHeadW _ _)

theorem finished_effect {x : State} (counted : Counted t s x) :
    (finished s t e st x).wr t = { s.wr t with results := (s.wr t).results ++ [resultOf e st] } ∧
      (finished s t e st x).headW (headIdx t (psaCluster e.psa) (psaHead e.psa)) =
        { s.headW (headIdx t (psaCluster e.psa) (psaHead e.psa)) with
          fails := failsNow s (headIdx t (psaCluster e.psa) (psaHead e.psa)) st } ∧
      ∀ a, noticeReg a = false → (∀ o, a ≠ aWrt t o) → (finished s t e st x).reg a = s.reg a := by
  have wr : x.wr t = s.wr t := by rw [State.wr, counted.tl]; rfl
  have headW (i : Nat) : x.headW i = s.headW i := by rw [State.headW, counted.tl]; rfl
  refine ⟨?_, ?_, fun a quiet other => ?_⟩
  · rw [finished, State.modHeadW_eq, State.setHeadW_wr, resulted, State.modWr_eq, State.setWr_wr, wr]
  · rw [finished, State.modHeadW_eq, State.setHeadW_headW, resulted, State.modWr_eq, State.setWr_headW, headW]
  · rw [finished, State.modHeadW_eq, State.setHeadW_reg, resulted, State.modWr_eq, State.setWr_reg, counted.regs a quiet other]

theorem finishWrite_tilesOnly (tile : t < 8) : tilesOnly s (finishWrite s t e st) := by
  obtain ⟨x, counted, run⟩ := finishWrite_counted (s := s) tile e st
  rw [run]
  split
  · exact (finished_work counted).tilesOnly.trans (retire_tilesOnly tile)
  · exact (finished_work counted).tilesOnly

theorem noticeReg_thresholds (tile : t < 8) : noticeReg (aTile t 0x100C) = false ∧ ∀ o, aTile t 0x100C ≠ aWrt t o := by
  refine ⟨?_, fun o => ?_⟩
  · simp only [noticeReg, irqSpace, Bool.or_eq_false_iff, decide_eq_false_iff_not]
    unfold aTile tileBase aOwl
    omega
  · unfold aTile aWrt tileBase
    omega

/-- A result short of the writer's threshold. -/
theorem finishWrite_effect (tile : t < 8) (serves : st = .wfail →
      (s.headW (headIdx t (psaCluster e.psa) (psaHead e.psa))).fails + 1 < s.fld (aTile t 0x100C) 23 16) :
    (finishWrite s t e st).wr t = { s.wr t with results := (s.wr t).results ++ [resultOf e st] } ∧
      (finishWrite s t e st).headW (headIdx t (psaCluster e.psa) (psaHead e.psa)) =
        { s.headW (headIdx t (psaCluster e.psa) (psaHead e.psa)) with
          fails := failsNow s (headIdx t (psaCluster e.psa) (psaHead e.psa)) st } := by
  obtain ⟨x, counted, run⟩ := finishWrite_counted (s := s) tile e st
  obtain ⟨wr, headW, regs⟩ := finished_effect (e := e) (st := st) counted
  obtain ⟨quiet, other⟩ := noticeReg_thresholds tile
  have same : (finished s t e st x).fld (aTile t 0x100C) 23 16 = s.fld (aTile t 0x100C) 23 16 := by
    rw [State.fld, regs _ quiet other, State.fld]
  rw [run, if_neg, wr, headW]
  · exact ⟨rfl, rfl⟩
  · rintro ⟨failed, -, reached⟩
    rw [same, failsNow, if_pos failed] at reached
    exact absurd (serves failed) (Nat.not_lt.2 reached)

end

end Sys2Proof.Machine
end

section
/-! SUPPORT. O32: FORMATTER_RESULT of a written sector that was read back (R64, R152 to R154, R156). -/

namespace Sys2Proof.Machine

section
variable {s u v : State} {t i : Nat} {w : Want} {r : PoolRes} {rest : List PoolRes} {e : WrEnt}

/-- Work of tile `t` that leaves what is to be written as it was. -/
structure Judged (t : Nat) (s u : State) : Prop where
  work : TileWork t s u
  writes : u.tl.writes = s.tl.writes
  headW : u.tl.headW = s.tl.headW

theorem Judged.refl : Judged t s s := ⟨.refl s, rfl, rfl⟩

theorem Judged.trans (h : Judged t s u) (k : Judged t u v) : Judged t s v :=
  ⟨h.work.trans k.work, k.writes.trans h.writes, k.headW.trans h.headW⟩

theorem Judged.setDet (d : DetX) : Judged t s (s.setDet t d) := ⟨.tiles _ rfl, rfl, rfl⟩

theorem Judged.modDet (f : DetX → DetX) : Judged t s (s.modDet t f) := ⟨.modDet t f, rfl, rfl⟩

theorem Judged.setReg (a : Nat) (x : Word) (steady : ¬ steadyReg t a) : Judged t s (s.setReg a x) := ⟨.setReg x steady, rfl, rfl⟩

theorem Judged.wr (judged : Judged t s u) : u.wr t = s.wr t := by
  rw [State.wr, judged.writes]
  rfl

theorem Judged.head (judged : Judged t s u) (i : Nat) : u.headW i = s.headW i := by
  rw [State.headW, judged.headW]
  rfl

theorem Judged.fillOut : Judged t s (fillOut s t) := by
  unfold Machine.fillOut
  dsimp only
  exact (Judged.modDet _).trans (.setReg _ _ (not_steadyReg_aTile (by decide)))

theorem Judged.detPump : Judged t s (detPump s t) := .modDet _

theorem Judged.wcnt (l n : Nat) (range : n < 6) : Judged t s (wcnt s t l n) := by
  unfold Machine.wcnt
  split
  · exact .refl
  · exact .setReg _ _ (not_steadyReg_aLane l (by omega) (by omega))

theorem Judged.verdict {c h x id : Nat} {good : Bool} : Judged t s (verdict s t c h x id good) :=
  ⟨(TileWork.modLane _ _ _).trans (.modHead _ _), rfl, rfl⟩

/-! ### What the reading says of the sector -/

/-- The reserved outbound entry is free, if the result was to have one. -/
def freed (s : State) (t : Nat) (w : Want) : State := if needOut w then unreserved s t else s

theorem freed_judged : Judged t s (freed s t w) := by
  unfold freed
  split
  · exact .modDet _
  · exact .refl

theorem freed_regs : (freed s t w).regs = s.regs ∧ (freed s t w).part = s.part := by
  unfold freed
  split
  · exact ⟨rfl, rfl⟩
  · exact ⟨rfl, rfl⟩

theorem verdict_side {c h x id : Nat} {good : Bool} : (verdict s t c h x id good).regs = s.regs ∧
    (verdict s t c h x id good).part = s.part := ⟨rfl, rfl⟩

/-- A reading of a written sector is well if its word is one for the request. -/
theorem liveResult_verify_conv (free : w.ctx = none) (kind : w.req.kind = .verify) (conv : r.st = .conv) : ∃ x good,
    Judged t s x ∧ (Machine.wordOk s w r.info = true → good = true) ∧ liveResult s t w r = verified x t w good := by
  have same : Machine.wordOk (freed s t w) = Machine.wordOk s := wordOk_congr freed_regs.2 freed_regs.1
  have told (hdr : Bool) (y : State) (counted : Judged t s y) (like : hdr = true → y = freed s t w) : Judged t s
      (verdict y t (laneParts r.lane).1 (laneParts r.lane).2.1 (laneParts r.lane).2.2 r.capid hdr) ∧
      (Machine.wordOk s w r.info = hdr → Machine.wordOk s w r.info = true → verifyOk
        (verdict y t (laneParts r.lane).1 (laneParts r.lane).2.1 (laneParts r.lane).2.2 r.capid hdr) t w r.info = true) := by
    refine ⟨counted.trans .verdict, fun is ok => ?_⟩
    have fine : Machine.wordOk (verdict y t (laneParts r.lane).1 (laneParts r.lane).2.1 (laneParts r.lane).2.2 r.capid hdr) w r.info =
        true := by
      rw [like (is.symm.trans ok)]
      rw [wordOk_congr (verdict_side.2.trans freed_regs.2) (verdict_side.1.trans freed_regs.1)]
      exact ok
    unfold verifyOk
    rw [fine]
    rfl
  unfold liveResult
  dsimp only
  rw [← unreserved, ← freed, conv, free, kind, same]
  dsimp only
  simp only [decide_true, Bool.true_and, if_true]
  cases ok : Machine.wordOk s w r.info with
  | true =>
    obtain ⟨judged, good⟩ := told true (freed s t w) freed_judged fun _ => rfl
    simp only [Bool.not_true, Bool.false_eq_true, if_false]
    exact ⟨_, _, judged, fun _ => good ok ok, rfl⟩
  | false =>
    obtain ⟨judged, -⟩ := told false (Machine.wcnt (freed s t w) t r.lane 3) (freed_judged.trans (.wcnt _ _ (by decide)))
      fun e => absurd e (by decide)
    simp only [Bool.not_false, if_true]
    exact ⟨_, _, judged, fun no => absurd no (by decide), rfl⟩

/-- Another reading is not. -/
theorem liveResult_verify_failed (free : w.ctx = none) (kind : w.req.kind = .verify) (failed : r.st ≠ .conv) :
    liveResult s t w r = verified (freed s t w) t w false := by
  simp only [liveResult, free, kind, failed, decide_false, Bool.false_and, Bool.false_eq_true, if_false, if_true]
  rfl

/-! ### How it ends -/

/-- The sector is being read back no more. -/
def checkedOff (s : State) (i : Nat) (e : WrEnt) : State :=
  s.modHeadW i fun y => { y with verifying := y.verifying.erase e }

/-- A sector that goes back to the write path has one more try. -/
def retried (e : WrEnt) : WrEnt := { e with tries := e.tries + 1, begun := false, done := 0, late := false }

/-- The sector is to be written again, and counted. -/
def rewriting (s : State) (t : Nat) (e : WrEnt) : State :=
  (s.modWr t fun y => { y with inQ := retried e :: y.inQ }).bump (aWrt t 0x14)

theorem verified_eq {good : Bool} (head : i = headIdx t (psaCluster w.req.psa) (psaHead w.req.psa))
    (found : ((s.headW i).verifying.find? fun e => decide (e.psa = w.req.psa)) = some e) : verified s t w good =
      if good then finishWrite (checkedOff s i e) t e .written
      else if e.discard then finishWrite (checkedOff s i e) t e .skipped
      else if e.tries < s.fld (aWrt t 0) 23 20 then rewriting (checkedOff s i e) t e
      else finishWrite (checkedOff s i e) t e .wfail := by
  subst head
  unfold verified
  dsimp only
  rw [found]
  rfl

theorem checkedOff_work : TileWork t s (checkedOff s i e) := .modHeadW _ _

theorem checkedOff_wr : (checkedOff s i e).wr t = s.wr t := by rw [checkedOff, State.modHeadW_eq, State.setHeadW_wr]

theorem checkedOff_fails : ((checkedOff s i e).headW i).fails = (s.headW i).fails := by
  rw [checkedOff, State.modHeadW_eq, State.setHeadW_headW]

theorem verified_tilesOnly (tile : t < 8) {good : Bool} : tilesOnly s (verified s t w good) := by
  cases found : (s.headW (headIdx t (psaCluster w.req.psa) (psaHead w.req.psa))).verifying.find? fun e => decide (e.psa = w.req.psa) with
  | none =>
    unfold verified
    dsimp only
    rw [found]
    exact .refl
  | some e =>
    rw [verified_eq rfl found]
    refine (checkedOff_work (s := s) (e := e) (t := t) (i := headIdx t (psaCluster w.req.psa) (psaHead w.req.psa))).tilesOnly.trans ?_
    split
    · exact finishWrite_tilesOnly tile
    · split
      · exact finishWrite_tilesOnly tile
      · split
        · exact ((TileWork.modWr t _).trans (.bump 1 not_steadyReg_aWrt)).tilesOnly
        · exact finishWrite_tilesOnly tile

/-- Once the sector is told, the detector goes on. -/
theorem pumped_judged : Judged t s (fillOut (detPump s t) t) := Judged.detPump.trans .fillOut

theorem rewriting_effect : (rewriting s t e).wr t = { s.wr t with inQ := retried e :: (s.wr t).inQ } ∧
    (rewriting s t e).fld (aWrt t 0x14) 31 0 = min (s.fld (aWrt t 0x14) 31 0 + 1) (2 ^ 32 - 1) := by
  unfold rewriting
  generalize aWrt t 0x14 = a
  refine ⟨?_, ?_⟩
  · rw [State.wr, bump_tl, ← State.wr, State.modWr_eq, State.setWr_wr]
  · rw [State.bump_fld_self, State.modWr_eq, State.setWr_fld]

/-- FORMATTER_RESULT of a written sector that was read back tells the write path. -/
theorem formatterResult_verify (on : channelOn s t) (first : (s.det t).poolOut = r :: rest) (dst : r.dst = .live w)
    (free : w.ctx = none) (kind : w.req.kind = .verify) :
    ∃ x good, Judged t s x ∧ tilesOnly s (fillOut (detPump (verified x t w good) t) t) ∧
      exec (.formatterResult t) s = .next (fillOut (detPump (verified x t w good) t) t) ∧
      (r.st = .conv → Machine.wordOk s w r.info = true → good = true) ∧
      (r.st ≠ .conv → good = false ∧ x.regs = s.regs ∧ x.part = s.part) := by
  have tile := hasTile_lt on.1
  have run := (exec_formatterResult on).trans (congrArg _ (formatterResult_live first dst))
  have all {x : State} {good : Bool} (judged : Judged t s x) : tilesOnly s (fillOut (detPump (verified x t w good) t) t) :=
    (judged.work.tilesOnly.trans (verified_tilesOnly tile)).trans pumped_judged.work.tilesOnly
  have taken : Judged t s (s.setDet t { s.det t with poolOut := rest }) := .setDet _
  by_cases conv : r.st = .conv
  · obtain ⟨x, good, judged, ok, told⟩ := liveResult_verify_conv (s := s.setDet t { s.det t with poolOut := rest }) (t := t) free kind conv
    rw [told] at run
    refine ⟨x, good, taken.trans judged, all (taken.trans judged), run, fun _ accepted => ok ?_, fun other => absurd conv other⟩
    exact (wordOk_setDet _).trans accepted
  · rw [liveResult_verify_failed free kind conv] at run
    obtain ⟨regs, part⟩ := freed_regs (s := s.setDet t { s.det t with poolOut := rest }) (t := t) (w := w)
    rw [State.setDet_regs] at regs
    rw [State.setDet_part] at part
    exact ⟨_, _, taken.trans freed_judged, all (taken.trans freed_judged), run, fun is => absurd is conv,
      fun _ => ⟨rfl, regs, part⟩⟩

/-- A written sector that was read back ends, or goes back to the write path. -/
theorem formatterResult_checked (on : channelOn s t) (first : (s.det t).poolOut = r :: rest) (dst : r.dst = .live w)
    (free : w.ctx = none) (kind : w.req.kind = .verify) (head : i = headIdx t (psaCluster w.req.psa) (psaHead w.req.psa))
    (found : ((s.headW i).verifying.find? fun e => decide (e.psa = w.req.psa)) = some e) :
    ∃ u, exec (.formatterResult t) s = .next u ∧
      (r.st = .conv → Machine.wordOk s w r.info = true →
        (u.wr t).results = (s.wr t).results ++ [resultOf e .written] ∧ (u.wr t).inQ = (s.wr t).inQ) ∧
      (r.st ≠ .conv → e.discard = true → (u.wr t).results = (s.wr t).results ++ [resultOf e .skipped]) ∧
      (r.st ≠ .conv → e.discard = false → e.tries < s.fld (aWrt t 0) 23 20 → (u.wr t).results = (s.wr t).results ∧
        (u.wr t).inQ = retried e :: (s.wr t).inQ ∧
        u.fld (aWrt t 0x14) 31 0 = min (s.fld (aWrt t 0x14) 31 0 + 1) (2 ^ 32 - 1)) ∧
      (r.st ≠ .conv → e.discard = false → s.fld (aWrt t 0) 23 20 ≤ e.tries →
        (s.headW i).fails + 1 < s.fld (aTile t 0x100C) 23 16 →
        (u.wr t).results = (s.wr t).results ++ [resultOf e .wfail] ∧ (u.headW i).fails = (s.headW i).fails + 1) ∧
      tilesOnly s u := by
  have tile := hasTile_lt on.1
  obtain ⟨x, good, judged, all, run, well, badly⟩ := formatterResult_verify on first dst free kind
  have psa : e.psa = w.req.psa := by simpa using List.find?_some found
  have own : headIdx t (psaCluster e.psa) (psaHead e.psa) = i := by rw [psa, head]
  have verifying : ((x.headW i).verifying.find? fun e => decide (e.psa = w.req.psa)) = some e := by rw [judged.head, found]
  have eq := verified_eq (t := t) (good := good) head verifying
  have off : (checkedOff x i e).wr t = s.wr t := checkedOff_wr.trans judged.wr
  have after : Judged t (verified x t w good) (fillOut (detPump (verified x t w good) t) t) := pumped_judged
  have fld : ∀ a hi lo, r.st ≠ .conv → (checkedOff x i e).fld a hi lo = s.fld a hi lo := fun a hi lo failed => by
    obtain ⟨-, regs, part⟩ := badly failed
    rw [checkedOff, State.modHeadW_eq, State.setHeadW_fld, fld_congr part regs]
  refine ⟨_, run, fun conv ok => ?_, fun failed discard => ?_, fun failed keep tries => ?_, fun failed keep tries serves => ?_, all⟩
  · rw [after.wr, eq, if_pos (well conv ok), (finishWrite_effect tile fun e => absurd e (by decide)).1, off]
    exact ⟨rfl, rfl⟩
  · rw [after.wr, eq, (badly failed).1, if_neg (by decide), if_pos discard,
      (finishWrite_effect tile fun e => absurd e (by decide)).1, off]
  · have again : verified x t w good = rewriting (checkedOff x i e) t e := by
      have few : e.tries < x.fld (aWrt t 0) 23 20 := by
        rw [fld_congr (badly failed).2.2 (badly failed).2.1]
        exact tries
      rw [eq, (badly failed).1, keep, if_neg (by decide), if_neg (by decide), if_pos few]
    obtain ⟨wr, counted⟩ := rewriting_effect (s := checkedOff x i e) (t := t) (e := e)
    rw [off, ← again] at wr
    rw [fld _ _ _ failed, ← again] at counted
    have other : aWrt t 0x14 ∉ [aTile t 0x30] := by
      rw [List.mem_singleton]
      unfold aWrt aTile tileBase
      omega
    rw [after.wr, wr, State.fld, (pumped_onlyTile (s := verified x t w good) (t := t)).1 _ other, ← State.fld, counted]
    exact ⟨rfl, rfl, rfl⟩
  · have many : ¬ e.tries < x.fld (aWrt t 0) 23 20 := by
      rw [fld_congr (badly failed).2.2 (badly failed).2.1]
      exact Nat.not_lt.2 tries
    have fails := finishWrite_effect (s := checkedOff x i e) (e := e) (st := .wfail) tile fun _ => by
      rw [own, checkedOff_fails, judged.head, fld _ _ _ failed]
      exact serves
    rw [own] at fails
    have ends : verified x t w good = finishWrite (checkedOff x i e) t e .wfail := by
      rw [eq, (badly failed).1, keep, if_neg (by decide), if_neg (by decide), if_neg many]
    rw [after.wr, after.head, ends, fails.1, fails.2, off, failsNow, if_pos rfl, checkedOff_fails, judged.head]
    exact ⟨rfl, rfl⟩

end

end Sys2Proof.Machine
end

section
/-! SUPPORT. O32: PARTNER_READ, PARTNER_REWRITE and VERIFY_READ (R150, R154, R182). -/

namespace Sys2Proof.Machine

section
variable {s u v : State} {t c h i : Nat} {ws : List Want} {ps : List Nat} {x : Nat × PartSt} {e : WrEnt}

theorem headDead_congr (part : u.part = s.part) (regs : u.regs = s.regs) : headDead u = headDead s := by
  funext t c h
  unfold headDead tHead tCluster tTile
  rw [bit_congr part regs]

/-- The head is awake and wants more sectors. -/
def wanting (s : State) (t c h : Nat) (ws : List Want) : State :=
  (wakeHead s t c h).modHead (headIdx t c h) fun x => { x with want := x.want ++ ws }

theorem wantSectors_wanting : wantSectors s t c h ws = fillCap (headGo (wanting s t c h ws) t c h) t c h := rfl

theorem onlyRegs_units {a : List Nat} (only : onlyRegs a s u) : u.tl = s.tl ∧ u = { s with regs := u.regs } :=
  ⟨by rw [only.2], only.2⟩

theorem wanting_effect : ((wanting s t c h ws).head (headIdx t c h)).want = (s.head (headIdx t c h)).want ++ ws ∧
    (∀ i, (wanting s t c h ws).headW i = s.headW i) ∧
    wanting s t c h ws = { s with regs := (wanting s t c h ws).regs, tl := (wanting s t c h ws).tl } := by
  obtain ⟨tl, frame⟩ := onlyRegs_units (wakeHead_onlyRegs (s := s) (t := t) (c := c) (h := h))
  unfold wanting
  generalize wakeHead s t c h = v at *
  refine ⟨?_, fun i => ?_, ?_⟩
  · rw [State.modHead_eq, State.setHead_head, State.head, tl, State.head]
  · rw [State.modHead_eq, State.setHead_headW, State.headW, tl, State.headW]
  · generalize headIdx t c h = i
    obtain ⟨w, hw⟩ : ∃ w, v.regs = w := ⟨_, rfl⟩
    rw [hw] at frame
    subst frame
    rfl

/-! ### PARTNER_READ (R150 steps 1 and 2) -/

/-- The partners that the head's queued writes need and that are not asked for yet. -/
def unaskedPartners (s : State) (t c h : Nat) : List Nat :=
  (((s.wrQ t c).filter fun e => decide (psaHead e.psa = h)).filterMap (needsPartner s t c h)).filter
    fun p => (partnerState (s.headW (headIdx t c h)) p).isNone

/-- The partners are asked for. -/
def partnersAsked (s : State) (i : Nat) (ps : List Nat) : State :=
  s.modHeadW i fun w => { w with partners := w.partners ++ ps.map fun p => (p, .asked) }

theorem exec_partnerRead (on : channelOn s t) (hc : c < 4) (hh : h < 24) :
    exec (.partnerRead t c h) s = .next (partnerRead s t c h) := onHeadCh_next on hc hh

theorem partnerRead_none (none : unaskedPartners s t c h = []) : partnerRead s t c h = s := if_pos none

theorem partnerRead_some (some_ : unaskedPartners s t c h ≠ []) (serves : headDead s t c h = false) : partnerRead s t c h =
    wantSectors (partnersAsked s (headIdx t c h) (unaskedPartners s t c h)) t c h
      ((unaskedPartners s t c h).map fun p => ⟨⟨p, 0, 0, .partner, 7⟩, none, false⟩) := by
  refine (if_neg some_).trans (if_neg ?_)
  have same := congrFun (congrFun (congrFun (headDead_congr (s := s) (u := partnersAsked s (headIdx t c h) (unaskedPartners s t c h))
    rfl rfl) t) c) h
  unfold partnersAsked unaskedPartners at same
  rw [same, serves]
  decide

theorem partnerRead_effect (on : channelOn s t) (hc : c < 4) (hh : h < 24) (some_ : unaskedPartners s t c h ≠ [])
    (serves : headDead s t c h = false) : ∃ v, exec (.partnerRead t c h) s = .next (fillCap (headGo v t c h) t c h) ∧
      (v.headW (headIdx t c h)).partners =
        (s.headW (headIdx t c h)).partners ++ (unaskedPartners s t c h).map (fun p => (p, PartSt.asked)) ∧
      (v.head (headIdx t c h)).want = (s.head (headIdx t c h)).want ++
        (unaskedPartners s t c h).map (fun p => ⟨⟨p, 0, 0, .partner, 7⟩, none, false⟩) ∧
      v = { s with regs := v.regs, tl := v.tl } := by
  generalize hps : unaskedPartners s t c h = ps at *
  have run := partnerRead_some (hps ▸ some_) serves
  rw [wantSectors_wanting, hps] at run
  obtain ⟨wants, headW, frame⟩ := wanting_effect (s := partnersAsked s (headIdx t c h) ps) (t := t) (c := c) (h := h)
    (ws := ps.map fun p => ⟨⟨p, 0, 0, .partner, 7⟩, none, false⟩)
  refine ⟨_, (exec_partnerRead on hc hh).trans (congrArg _ run), ?_, wants, frame⟩
  rw [headW, partnersAsked, State.modHeadW_eq, State.setHeadW_headW]

/-! ### PARTNER_REWRITE (R150 step 4) -/

/-- The first partner held, or lost, whose sector is no longer queued. -/
def partnerFree (s : State) (t c h : Nat) : Option (Nat × PartSt) :=
  (s.headW (headIdx t c h)).partners.find? fun x =>
    !(((s.headW (headIdx t c h)).ser ++ s.wrQ t c ++ (s.wr t).inQ).any fun e => decide (e.psa + 2 ^ 14 = x.1)) &&
      partnerHeld (s.headW (headIdx t c h)) x.1

/-- The partner is no longer held, and an entry is first to be assembled. -/
def rewritten (s : State) (t i : Nat) (x : Nat × PartSt) (e : WrEnt) : State :=
  (s.setHeadW i { s.headW i with partners := (s.headW i).partners.erase x }).modWr t fun y => { y with inQ := e :: y.inQ }

theorem exec_partnerRewrite (on : channelOn s t) (hc : c < 4) (hh : h < 24) :
    exec (.partnerRewrite t c h) s = .next (partnerRewrite s t c h) := onHeadCh_next on hc hh

theorem partnerRewrite_free (first : partnerFree s t c h = some x)
    (ready : ∀ info, x.2 = .ready info → e = ⟨x.1, .partner, false, 0, 0, 0, 0, info, [], 0, false, 0, false⟩)
    (lost : x.2 = .lost → e = ⟨x.1, .marker, false, 0, 0, 0, 0, [], [], 0, false, 0, false⟩)
    (held : x.2 = .lost ∨ ∃ info, x.2 = .ready info) : partnerRewrite s t c h = rewritten s t (headIdx t c h) x e := by
  unfold partnerFree at first
  unfold partnerRewrite
  dsimp only
  rw [first]
  dsimp only
  obtain is | ⟨info, is⟩ := held
  · rw [lost is, is]
    rfl
  · rw [ready info is, is]
    rfl

/-! ### VERIFY_READ (R154) -/

/-- The written sectors are being read back. -/
def verifyAsked (s : State) (i : Nat) : State :=
  s.setHeadW i { s.headW i with verify := [], verifying := (s.headW i).verifying ++ (s.headW i).verify }

theorem exec_verifyRead (on : channelOn s t) (hc : c < 4) (hh : h < 24) :
    exec (.verifyRead t c h) s = .next (verifyRead s t c h) := onHeadCh_next on hc hh

theorem verifyRead_idle (idle : (s.headW (headIdx t c h)).run = true ∨ (s.headW (headIdx t c h)).verify = []) :
    verifyRead s t c h = s := if_pos idle

theorem verifyRead_effect (on : channelOn s t) (hc : c < 4) (hh : h < 24) (ended : (s.headW (headIdx t c h)).run = false)
    (some_ : (s.headW (headIdx t c h)).verify ≠ []) : ∃ v, exec (.verifyRead t c h) s = .next (fillCap (headGo v t c h) t c h) ∧
      (v.headW (headIdx t c h)).verify = [] ∧
      (v.headW (headIdx t c h)).verifying = (s.headW (headIdx t c h)).verifying ++ (s.headW (headIdx t c h)).verify ∧
      (v.head (headIdx t c h)).want = (s.head (headIdx t c h)).want ++
        (s.headW (headIdx t c h)).verify.map (fun e => ⟨⟨e.psa, 0, 0, .verify, 7⟩, none, false⟩) ∧
      v = { s with regs := v.regs, tl := v.tl } := by
  have run : verifyRead s t c h = wantSectors (verifyAsked s (headIdx t c h)) t c h
      ((s.headW (headIdx t c h)).verify.map fun e => ⟨⟨e.psa, 0, 0, .verify, 7⟩, none, false⟩) :=
    if_neg (not_or.2 ⟨by rw [ended]; decide, some_⟩)
  obtain ⟨wants, headW, frame⟩ := wanting_effect (s := verifyAsked s (headIdx t c h)) (t := t) (c := c) (h := h)
    (ws := (s.headW (headIdx t c h)).verify.map fun e => ⟨⟨e.psa, 0, 0, .verify, 7⟩, none, false⟩)
  rw [wantSectors_wanting] at run
  refine ⟨_, (exec_verifyRead on hc hh).trans (congrArg _ run), ?_, ?_, wants, frame⟩ <;>
    rw [headW, verifyAsked, State.setHeadW_headW]

end

end Sys2Proof.Machine
end

section
/-! SUPPORT. O32: ENCROACH_READBACK and WRITE_RESULT (R30, R153, R353, R377, R379). -/

namespace Sys2Proof.Machine

/-! ### Every unit of every place (R363) -/

section
variable {α : Type} {d : α} {l : Tab α} {k : Nat}

/-- What a key reads as after every listed value has changed. -/
theorem Tab.at_map_key (g : Nat → α → α) (listed : Tab.at d l k ≠ d) :
    Tab.at d (l.map fun e => (e.1, g e.1 e.2)) k = g k (Tab.at d l k) := by
  induction l with
  | nil => exact absurd rfl listed
  | cons e l ih =>
    obtain ⟨i, v⟩ := e
    by_cases same : k = i
    · subst same
      simp [Tab.at, Tab.get]
    · have skip (v : α) (l : Tab α) : Tab.at d ((i, v) :: l) k = Tab.at d l k := if_neg same
      rw [skip] at listed ⊢
      rw [List.map_cons, skip]
      exact ih listed

theorem Tab.key_mem (listed : Tab.at d l k ≠ d) : k ∈ l.map (·.1) := by
  induction l with
  | nil => exact absurd rfl listed
  | cons e l ih =>
    obtain ⟨i, v⟩ := e
    by_cases same : k = i
    · subst same
      exact List.mem_cons_self
    · have skip : Tab.at d ((i, v) :: l) k = Tab.at d l k := if_neg same
      rw [skip] at listed
      exact List.mem_cons_of_mem _ (ih listed)

end

section
variable {s u v : State} {t k j lba n : Nat} {f : Nat → Nat → Unit4 → Unit4} {p : Place} {l : Line} {x : Unit4}

/-- A line with every unit changed. -/
def mapLine (f : Nat → Nat → Unit4 → Unit4) (l : Line) : Line :=
  { l with units := l.units.map fun e => (e.1, f l.nsid (16 * l.line + e.1) e.2) }

/-- A place with every unit of its line changed. -/
def mapPlace (f : Nat → Nat → Unit4 → Unit4) (s : State) (p : Place) : State := setLineIn s p (mapLine f (lineIn s p))

theorem mapUnits_places : mapUnits s f = (allPlaces s).foldl (mapPlace f) s := rfl

theorem lineOf_setLine_self : lineOf (setLine s k l) k = l := Tab.at_to_self ..

theorem lineOf_setLine_ne (other : j ≠ k) : lineOf (setLine s k l) j = lineOf s j := Tab.at_to_ne _ _ _ other

theorem mapPlace_line : lineOf (mapPlace f s p) k = if p = .way k then mapLine f (lineOf s k) else lineOf s k := by
  cases p with
  | copy i => rw [if_neg Place.noConfusion]; rfl
  | way j =>
    by_cases same : j = k
    · subst same
      rw [if_pos rfl]
      exact lineOf_setLine_self
    · rw [if_neg fun e => same (Place.way.inj e)]
      exact lineOf_setLine_ne fun e => same e.symm

/-- What a change of every unit leads to, from what holds of a line of a way. -/
theorem mapPlaces_line {P Q : Line → Prop} (first : ∀ l, P l → Q (mapLine f l)) (again : ∀ l, Q l → P l) (ps : List Place)
    (now : P (lineOf s k)) (reached : Place.way k ∈ ps ∨ Q (lineOf s k)) : Q (lineOf (ps.foldl (mapPlace f) s) k) := by
  induction ps generalizing s with
  | nil => exact reached.resolve_left List.not_mem_nil
  | cons p ps ih =>
    refine ih ?_ ?_ <;> rw [mapPlace_line]
    · split
      · exact again _ (first _ now)
      · exact now
    · split
      · exact .inr (first _ now)
      · next other =>
        exact reached.imp_left fun mem => (List.mem_cons.1 mem).resolve_left fun e => other e.symm

theorem mapUnits_frame : mapUnits s f = { s with buf := (mapUnits s f).buf } := by
  rw [mapUnits_places]
  refine foldl_related (R := fun s u => u = { s with buf := u.buf }) (fun _ => rfl) (fun first second => by rw [second, first])
    (fun s p => ?_) _ s
  cases p with
  | way k => rfl
  | copy i => rfl

/-- The unit of a block in a line. -/
theorem unitAt_mapLine (listed : unitAt l (lba % 16) ≠ Unit4.none) (own : lba / 16 = l.line) :
    unitAt (mapLine f l) (lba % 16) = f l.nsid lba (unitAt l (lba % 16)) := by
  have at_ : 16 * l.line + lba % 16 = lba := by omega
  rw [unitAt, mapLine]
  dsimp only
  rw [Tab.at_map_key (fun i => f l.nsid (16 * l.line + i)) listed, at_]
  rfl

theorem unit_listed (valid : x.valid = true) : x ≠ Unit4.none := fun e => by
  rw [e] at valid
  exact absurd valid (by decide)

theorem line_listed (valid : (unitIn s (.way k) lba).valid = true) : Place.way k ∈ allPlaces s := by
  have listed : lineOf s k ≠ Line.none := fun e => unit_listed valid (by
    rw [unitIn, lineIn, e]
    rfl)
  obtain ⟨e, mem, is⟩ := List.mem_map.1 (Tab.key_mem listed)
  exact List.mem_append_left _ (List.mem_map.2 ⟨e, mem, by rw [is]⟩)

/-! ### ENCROACH_READBACK (R153, R379) -/

/-- A valid unit's data, in the line that a block belongs to. -/
def holdsBlock (n m lba : Nat) (data : Payload) (l : Line) : Prop :=
  l.nsid = n ∧ l.line = m ∧ (unitAt l (lba % 16)).valid = true ∧ (unitAt l (lba % 16)).data = data

/-- A valid unit whose sector was reported is dirty and eligible. -/
def holdsDirty (n m lba : Nat) (data : Payload) (l : Line) : Prop :=
  holdsBlock n m lba data l ∧ (unitAt l (lba % 16)).dirty = true ∧ (unitAt l (lba % 16)).elig = true

/-- A unit whose sector was reported, if it is valid. -/
def reportedUnit (s : State) (ps : List Nat) (n lba : Nat) (u : Unit4) : Unit4 :=
  if u.valid && ps.contains (psaOf s n lba) then
    { u with dirty := true, elig := true, again := u.again || u.inflight
             gen := if u.dirty then u.gen else (s.slot (nsSlot s n)).gen }
  else u

theorem dirtyReported_units (ps : List Nat) : dirtyReported s ps = mapUnits s (reportedUnit s ps) := rfl

theorem mapLine_reported {ps : List Nat} {data : Payload} {m : Nat} (own : lba / 16 = m) (mem : psaOf s n lba ∈ ps) (l : Line)
    (holds : holdsBlock n m lba data l) : holdsDirty n m lba data (mapLine (reportedUnit s ps) l) := by
  obtain ⟨ns, line, valid, is⟩ := holds
  have mapped := unitAt_mapLine (f := reportedUnit s ps) (l := l) (unit_listed valid) (own.trans line.symm)
  have reported : reportedUnit s ps l.nsid lba (unitAt l (lba % 16)) = { unitAt l (lba % 16) with
      dirty := true, elig := true, again := (unitAt l (lba % 16)).again || (unitAt l (lba % 16)).inflight
      gen := if (unitAt l (lba % 16)).dirty then (unitAt l (lba % 16)).gen else (s.slot (nsSlot s l.nsid)).gen } := by
    refine if_pos ?_
    rw [valid, ns, List.contains_iff_mem.2 mem]
    rfl
  rw [reported] at mapped
  refine ⟨⟨ns, line, ?_, ?_⟩, ?_, ?_⟩ <;> rw [mapped]
  · exact valid
  · exact is

theorem dirtyReported_unit {ps : List Nat} (valid : (unitIn s (.way k) lba).valid = true) (own : lba / 16 = (lineOf s k).line)
    (mem : psaOf s (lineOf s k).nsid lba ∈ ps) : (unitIn (dirtyReported s ps) (.way k) lba).dirty = true ∧
      (unitIn (dirtyReported s ps) (.way k) lba).elig = true ∧
      (unitIn (dirtyReported s ps) (.way k) lba).data = (unitIn s (.way k) lba).data := by
  have reached := mapPlaces_line (s := s) (k := k) (f := reportedUnit s ps)
    (P := holdsBlock (lineOf s k).nsid (lineOf s k).line lba (unitIn s (.way k) lba).data)
    (mapLine_reported own mem) (fun _ dirty => dirty.1) (allPlaces s) ⟨rfl, rfl, valid, rfl⟩ (.inl (line_listed valid))
  rw [← mapUnits_places, ← dirtyReported_units] at reached
  obtain ⟨⟨-, -, -, data⟩, dirty, elig⟩ := reached
  exact ⟨dirty, elig, data⟩

/-- The head's reported sectors are known. -/
def forgotten (s : State) (i : Nat) : State := s.modHeadW i fun w => { w with encroach := [] }

/-- The reported sectors that the buffer does not hold are read back on a later revolution. -/
def reportedWants (s : State) (ps : List Nat) : List Want :=
  (ps.filter fun p => !(heldInBuffer s p)).map fun p => ⟨⟨p, 0, 0, .readback, 7⟩, none, true⟩

theorem exec_encroachReadback (on : channelOn s t) : exec (.encroachReadback t) s = .next (encroachReadback s t) := onTileCh_next on

theorem encroachReadback_none (none : ∀ j, j < 96 → (s.headW (96 * t + j)).encroach = []) : encroachReadback s t = s := by
  have found : (List.range 96).find? (fun j => decide ((s.headW (96 * t + j)).encroach ≠ [])) = Option.none :=
    List.find?_eq_none.2 fun j mem => by simp [none j (List.mem_range.1 mem)]
  unfold encroachReadback
  rw [found]

theorem heldInBuffer_congr (part : u.part = s.part) (regs : u.regs = s.regs) (buf : u.buf = s.buf) : heldInBuffer u = heldInBuffer s := by
  funext psa
  have places : allPlaces u = allPlaces s := by rw [allPlaces, buf, allPlaces]
  have line (p : Place) : lineIn u p = lineIn s p := by
    cases p with
    | way k => rw [lineIn, lineOf, buf]; rfl
    | copy i => rw [lineIn, buf]; rfl
  unfold heldInBuffer
  simp only [places, line, psaOf_congr part regs]

/-- The sectors of the first head that has any are forgotten, made dirty where the buffer holds them, and else read back. -/
theorem encroachReadback_first {ps : List Nat} (range : j < 96) (is : ps = (s.headW (96 * t + j)).encroach) (some_ : ps ≠ [])
    (least : ∀ k, k < j → (s.headW (96 * t + k)).encroach = []) : encroachReadback s t =
      if headDead s t (j / 24) (j % 24) then dirtyReported (forgotten s (96 * t + j)) ps
      else wantSectors (dirtyReported (forgotten s (96 * t + j)) ps) t (j / 24) (j % 24) (reportedWants s ps) := by
  have found : (List.range 96).find? (fun j => decide ((s.headW (96 * t + j)).encroach ≠ [])) = some j :=
    List.find?_range_eq_some.2 ⟨by simp [← is, some_], List.mem_range.2 range, fun k below => by simp [least k below]⟩
  have held : heldInBuffer (forgotten s (96 * t + j)) = heldInBuffer s := heldInBuffer_congr rfl rfl rfl
  have dead : headDead (dirtyReported (forgotten s (96 * t + j)) ps) = headDead s := by
    rw [dirtyReported_units, mapUnits_frame]
    exact headDead_congr rfl rfl
  subst is
  unfold encroachReadback
  rw [found]
  dsimp only
  rw [← forgotten, held, dead]
  rfl

theorem psaOf_forgotten (i : Nat) : psaOf (forgotten s i) = psaOf s := psaOf_congr rfl rfl

theorem lineOf_forgotten (i : Nat) : lineOf (forgotten s i) = lineOf s := lineOf_congr rfl

theorem unitIn_forgotten (i : Nat) : unitIn (forgotten s i) (.way k) = unitIn s (.way k) := by
  funext lba
  rw [unitIn, lineIn, lineOf_forgotten, unitIn, lineIn]

theorem forgotten_frame (i : Nat) : forgotten s i = { s with tl := (forgotten s i).tl } ∧ ∀ j, (forgotten s i).head j = s.head j :=
  ⟨rfl, fun _ => rfl⟩

theorem reported_frame {i : Nat} {ps : List Nat} (ends : dirtyReported (forgotten s i) ps = u) :
    u = { s with tl := u.tl, buf := u.buf } ∧ (∀ j, u.headW j = (forgotten s i).headW j) ∧ ∀ j, u.head j = s.head j := by
  have frame := mapUnits_frame (s := forgotten s i) (f := reportedUnit (forgotten s i) ps)
  obtain ⟨only, heads⟩ := forgotten_frame (s := s) i
  rw [← dirtyReported_units, ends] at frame
  have tl : u.tl = (forgotten s i).tl := by rw [frame]
  refine ⟨?_, fun j => by rw [State.headW, tl, State.headW], fun j => ?_⟩
  · rw [tl, frame, only]
  · rw [State.head, tl, ← State.head, heads]

theorem twoFrames (first : u = { s with tl := u.tl, buf := u.buf }) (second : v = { u with regs := v.regs, tl := v.tl }) :
    v = { s with regs := v.regs, tl := v.tl, buf := v.buf } := by
  obtain ⟨a, ha⟩ : ∃ a, u.buf = a := ⟨_, rfl⟩
  obtain ⟨b, hb⟩ : ∃ b, u.tl = b := ⟨_, rfl⟩
  obtain ⟨c, hc⟩ : ∃ c, v.regs = c := ⟨_, rfl⟩
  obtain ⟨d, hd⟩ : ∃ d, v.tl = d := ⟨_, rfl⟩
  rw [ha, hb] at first
  subst first
  rw [hc, hd] at second
  subst second
  rfl

/-- What a head whose reported sectors are dealt with leaves. -/
theorem encroachReadback_effect (on : channelOn s t) {ps : List Nat} (range : j < 96) (is : ps = (s.headW (96 * t + j)).encroach)
    (some_ : ps ≠ []) (least : ∀ k, k < j → (s.headW (96 * t + k)).encroach = []) :
    ∃ v, (v.headW (96 * t + j)).encroach = [] ∧
      (∀ k lba, (unitIn s (.way k) lba).valid = true → lba / 16 = (lineOf s k).line → psaOf s (lineOf s k).nsid lba ∈ ps →
        (unitIn v (.way k) lba).dirty = true ∧ (unitIn v (.way k) lba).elig = true ∧
          (unitIn v (.way k) lba).data = (unitIn s (.way k) lba).data) ∧
      (headDead s t (j / 24) (j % 24) = true → exec (.encroachReadback t) s = .next v) ∧
      (headDead s t (j / 24) (j % 24) = false →
        exec (.encroachReadback t) s = .next (fillCap (headGo v t (j / 24) (j % 24)) t (j / 24) (j % 24)) ∧
        (v.head (96 * t + j)).want = (s.head (96 * t + j)).want ++ reportedWants s ps) ∧
      v = { s with regs := v.regs, tl := v.tl, buf := v.buf } := by
  have run := encroachReadback_first range is some_ least
  obtain ⟨x, hx⟩ : ∃ x, dirtyReported (forgotten s (96 * t + j)) ps = x := ⟨_, rfl⟩
  obtain ⟨only, headW, heads⟩ := reported_frame hx
  have encroach : (x.headW (96 * t + j)).encroach = [] := by
    rw [headW, forgotten, State.modHeadW_eq, State.setHeadW_headW]
  have units : ∀ k lba, (unitIn s (.way k) lba).valid = true → lba / 16 = (lineOf s k).line → psaOf s (lineOf s k).nsid lba ∈ ps →
      (unitIn x (.way k) lba).dirty = true ∧ (unitIn x (.way k) lba).elig = true ∧
        (unitIn x (.way k) lba).data = (unitIn s (.way k) lba).data := fun k lba valid own mem => by
    have reached := dirtyReported_unit (s := forgotten s (96 * t + j)) (k := k) (lba := lba) (ps := ps)
    rw [psaOf_forgotten, unitIn_forgotten, lineOf_forgotten, hx] at reached
    exact reached valid own mem
  rw [hx] at run
  cases dead : headDead s t (j / 24) (j % 24) with
  | true =>
    rw [if_pos dead] at run
    refine ⟨x, encroach, units, fun _ => (exec_encroachReadback on).trans (congrArg _ run), fun no => absurd no (by decide), ?_⟩
    rw [only]
  | false =>
    rw [if_neg (by rw [dead]; decide), wantSectors_wanting] at run
    obtain ⟨wants, headW', only'⟩ := wanting_effect (s := x) (t := t) (c := j / 24) (h := j % 24) (ws := reportedWants s ps)
    have idx : headIdx t (j / 24) (j % 24) = 96 * t + j := by unfold headIdx; omega
    rw [idx] at wants
    rw [heads] at wants
    generalize wanting x t (j / 24) (j % 24) (reportedWants s ps) = v at *
    have buf : v.buf = x.buf := by rw [only']
    refine ⟨v, by rw [headW', encroach], fun k lba valid own mem => ?_, fun yes => absurd yes (by decide),
      fun _ => ⟨(exec_encroachReadback on).trans (congrArg _ run), wants⟩, ?_⟩
    · have same : unitIn v (.way k) lba = unitIn x (.way k) lba := by rw [unitIn, lineIn, lineOf, buf, unitIn, lineIn, lineOf]
      rw [same]
      exact units k lba valid own mem
    · exact twoFrames only only'

end

end Sys2Proof.Machine
end

section
/-! SUPPORT. O32: WRITE_RESULT, and the obligation (R30, R157, R353, R377, R378). -/

namespace Sys2Proof.Machine

/-! ### What a write result leaves of the tiles -/

section
variable {s u v : State} {t i k n lba psa : Nat} {p : Place} {st : WrSt} {x : Unit4}

theorem Ending.tryEnd : Ending s (tryEnd s i) := by
  unfold Machine.tryEnd
  dsimp only
  split
  · exact .refl
  · split
    · split
      · exact (Ending.setCmd _).trans (.completeCmd _)
      · exact .refl
    · split
      · exact .completeCmd _
      · exact .refl
    · split
      · exact .completeCmd _
      · exact .refl
    · exact .refl

theorem Ending.unitDone (who : List Nat) (st : Status) : Ending s (unitDone s n lba who st) := by
  refine foldl_related (fun _ => .refl) .trans (fun s i => ?_) _ _
  dsimp only
  split
  · exact (Ending.setCmd _).trans .tryEnd
  · exact .refl

/-- What waits to be written and the links are as before. -/
def writesKept (s u : State) : Prop := u.tl.writes = s.tl.writes ∧ u.tl.links = s.tl.links

theorem writesKept.refl : writesKept s s := ⟨rfl, rfl⟩

theorem writesKept.trans (h : writesKept s u) (k : writesKept u v) : writesKept s v := ⟨k.1.trans h.1, k.2.trans h.2⟩

theorem writesKept.of_tl (same : u.tl = s.tl) : writesKept s u := by
  rw [writesKept, same]
  exact ⟨rfl, rfl⟩

theorem BufWork.writesKept (work : BufWork s u) : writesKept s u := .of_tl (by rw [work.frame])

theorem Ending.writesKept (ending : Ending s u) : writesKept s u := by
  rw [Machine.writesKept, ending.frame]
  exact ⟨rfl, rfl⟩

theorem dispatchPacket_writesKept (op : Nat) (w : Word) (c : Nat) : writesKept s (dispatchPacket s op w c) := by
  unfold dispatchPacket
  split
  · exact ⟨rfl, rfl⟩
  · split
    · exact ⟨rfl, rfl⟩
    · exact .refl

theorem setUnitIn_work : BufWork s (setUnitIn s p lba x) := .setLineIn _ _ _

theorem discardUnit_writesKept (st : Status) : writesKept s (discardUnit s p lba st) := by
  have taken : writesKept s (let n := (lineIn s p).nsid
      let u := unitIn s p lba
      let s := setUnitIn s p lba { Unit4.none with fill := u.fill, gone := u.fill.isSome }
      if u.inflight then { s with buf := { s.buf with orphans := s.buf.orphans ++ [(n, lba)] } } else s) := by
    dsimp only
    split
    · exact (BufWork.writesKept setUnitIn_work).trans (.of_tl rfl)
    · exact BufWork.writesKept setUnitIn_work
  unfold discardUnit
  dsimp only
  split
  · exact (taken.trans (.of_tl rfl)).trans (Ending.unitDone _ _).writesKept
  · exact taken

theorem invCheck_writesKept : writesKept s (invCheck s) := by
  unfold invCheck
  split
  · exact .refl
  · dsimp only
    have lines (s : State) : writesKept s ((s.buf.lines.map (·.1)).foldl
        (fun s k => let l := lineOf s k; if l.inval ∧ !l.dirty ∧ !(lineFills l) then dropLine s k else s) s) := by
      refine foldl_related (fun _ => .refl) .trans (fun s k => ?_) _ _
      dsimp only
      split
      · exact (BufWork.dropLine s k).writesKept
      · exact .refl
    split
    · exact lines s
    · refine (lines s).trans (.of_tl ?_)
      rw [(irqEdge_notices _ _).1]
      rfl

theorem shadowCheck_writesKept : writesKept s (shadowCheck s k) := by
  obtain ⟨x, frame⟩ := shadowCheck_eq (s := s) k
  rw [frame]
  exact ⟨rfl, rfl⟩

theorem advanceReached_frame : ∃ q, advanceReached s n lba = { s with nq := { s.nq with reached := q } } := by
  unfold advanceReached
  dsimp only
  split
  · exact ⟨_, rfl⟩
  · exact ⟨s.nq.reached, rfl⟩

theorem advanceReached_writesKept : writesKept s (advanceReached s n lba) := by
  obtain ⟨q, frame⟩ := advanceReached_frame (s := s) (n := n) (lba := lba)
  rw [frame]
  exact ⟨rfl, rfl⟩

/-- An unlocked line with nothing left in it leaves its way. -/
def lineSettled (s : State) : Place → State
  | .way k => if (lineOf s k).locked then s else leaveIfEmpty s k
  | .copy _ => s

theorem lineSettled_writesKept : writesKept s (lineSettled s p) := by
  cases p with
  | copy i => exact .refl
  | way k =>
    unfold lineSettled
    dsimp only
    split
    · exact .refl
    · exact (BufWork.leaveIfEmpty s k).writesKept

theorem setStale_writesKept : writesKept s (setStale s psa) := ⟨rfl, rfl⟩

/-- The unit that a result reached, with what waited for it. -/
def unitReached (s : State) (n lba psa : Nat) (st : WrSt) (p : Place) : State :=
  let u := unitIn s p lba
  let again := { u with inflight := false, again := false, cover := [] }
  match st with
  | .written =>
    let s := advanceReached s n lba
    let who := if u.again then u.cover else waitersOf s n lba
    let s := setUnitIn s p lba
      (if u.again then again else if u.lost then { Unit4.none with fill := u.fill, gone := u.gone }
       else { again with dirty := false })
    unitDone s n lba who .ok
  | .wfail => (setUnitIn s p lba { again with elig := true }).bump (aBuf 0x13C)
  | .skipped =>
    if u.again then setUnitIn s p lba again
    else discardUnit (setUnitIn s p lba again) p lba .keyErased
  | .retired =>
    let s := setStale s psa
    if u.again then setUnitIn s p lba { again with elig := true }
    else discardUnit (setUnitIn s p lba again) p lba .retired

theorem unitReached_writesKept : writesKept s (unitReached s n lba psa st p) := by
  have set (s : State) (x : Unit4) : writesKept s (setUnitIn s p lba x) := BufWork.writesKept setUnitIn_work
  unfold unitReached
  dsimp only
  cases st with
  | written => exact (advanceReached_writesKept.trans (set _ _)).trans (Ending.unitDone _ _).writesKept
  | wfail => exact (set _ _).trans (.of_tl rfl)
  | skipped =>
    dsimp only
    split
    · exact set _ _
    · exact (set _ _).trans (discardUnit_writesKept _)
  | retired =>
    dsimp only
    split
    · exact setStale_writesKept.trans (set _ _)
    · exact (setStale_writesKept.trans (set _ _)).trans (discardUnit_writesKept _)

theorem applyResult_orphan (orphan : (n, lba) ∈ s.buf.orphans) : applyResult s n lba psa st =
    { s with buf := { s.buf with orphans := s.buf.orphans.erase (n, lba) } } := if_pos (List.contains_iff_mem.2 orphan)

theorem applyResult_reached (new : (n, lba) ∉ s.buf.orphans)
    (found : ((placesOf s n lba).find? fun p => (unitIn s p lba).inflight) = some p) : applyResult s n lba psa st =
      invCheck (shadowCheck (lineSettled (unitReached s n lba psa st p) p) (nsSlot s n)) := by
  unfold applyResult
  rw [if_neg fun is => new (List.contains_iff_mem.1 is), found]
  cases st <;> cases p <;> rfl

theorem applyResult_writesKept : writesKept s (applyResult s n lba psa st) := by
  by_cases orphan : (n, lba) ∈ s.buf.orphans
  · rw [applyResult_orphan orphan]
    exact ⟨rfl, rfl⟩
  · cases found : (placesOf s n lba).find? fun p => (unitIn s p lba).inflight with
    | none =>
      unfold applyResult
      rw [if_neg fun is => orphan (List.contains_iff_mem.1 is), found]
      exact .refl
    | some p =>
      rw [applyResult_reached orphan found]
      exact (unitReached_writesKept.trans lineSettled_writesKept).trans (shadowCheck_writesKept.trans invCheck_writesKept)

/-! ### The unit that a result reaches (R377) -/

theorem unit_inflight_range {i : Nat} (inflight : (unitIn s (.copy i) lba).inflight = true) : i < s.buf.copies.length := by
  by_contra far
  have none : s.buf.copies.getD i Line.none = Line.none := List.getD_eq_default _ _ (Nat.not_lt.1 far)
  have empty : unitAt Line.none (lba % 16) = Unit4.none := rfl
  rw [unitIn, lineIn, none, empty] at inflight
  exact absurd inflight (by decide)

theorem unitIn_setUnitIn (inflight : (unitIn s p lba).inflight = true) : unitIn (setUnitIn s p lba x) p lba = x := by
  have put (l : Line) : unitAt (putUnit l (lba % 16) x) (lba % 16) = x := Tab.at_to_self ..
  have line : lineIn (setUnitIn s p lba x) p = putUnit (lineIn s p) (lba % 16) x := by
    unfold setUnitIn
    cases p with
    | way k => exact lineOf_setLine_self
    | copy i => exact setNth_getD_self (unit_inflight_range inflight)
  rw [unitIn, line, put]

theorem unitIn_congr (lines : u.buf.lines = s.buf.lines) (copies : u.buf.copies = s.buf.copies) : unitIn u = unitIn s := by
  funext p lba
  cases p with
  | way k => rw [unitIn, lineIn, lineOf_congr lines, unitIn, lineIn]
  | copy i => rw [unitIn, lineIn, copies, unitIn, lineIn]

theorem Ending.unitIn (ending : Ending s u) : unitIn u = Machine.unitIn s :=
  unitIn_congr (by rw [ending.frame]) (by rw [ending.frame])

theorem dropLine_unlocked (free : (lineOf s k).locked = false) : dropLine s k = setLine s k Line.none := by
  unfold dropLine
  rw [free]
  rfl

theorem leaveIfEmpty_unlocked (free : (lineOf s k).locked = false) :
    leaveIfEmpty s k = s ∨ leaveIfEmpty s k = setLine s k Line.none := by
  unfold leaveIfEmpty
  dsimp only
  split
  · exact .inr (dropLine_unlocked free)
  · exact .inl rfl

/-- A line that may leave takes its units with it; no register changes. -/
theorem lineSettled_effect : (lineSettled s p).regs = s.regs ∧ (lineSettled s p).part = s.part ∧
    (unitIn (lineSettled s p) p lba = unitIn s p lba ∨ unitIn (lineSettled s p) p lba = Unit4.none) := by
  cases p with
  | copy i => exact ⟨rfl, rfl, .inl rfl⟩
  | way k =>
    unfold lineSettled
    dsimp only
    cases free : (lineOf s k).locked with
    | true => exact ⟨rfl, rfl, .inl rfl⟩
    | false =>
      rw [if_neg (by decide)]
      obtain same | left := leaveIfEmpty_unlocked free
      · rw [same]
        exact ⟨rfl, rfl, .inl rfl⟩
      · rw [left]
        refine ⟨rfl, rfl, .inr ?_⟩
        rw [unitIn, lineIn, lineOf_setLine_self]
        rfl

/-- What is checked last leaves the buffer's units and the registers. -/
theorem checked_effect (idle : s.bit (aBuf 0x10) 31 = false) : unitIn (invCheck (shadowCheck s k)) = unitIn s ∧
    (invCheck (shadowCheck s k)).regs = s.regs ∧ (invCheck (shadowCheck s k)).part = s.part := by
  obtain ⟨y, frame⟩ := shadowCheck_eq (s := s) k
  have still : invCheck { s with slots := y } = { s with slots := y } := if_pos (by
    have same : ({ s with slots := y } : State).bit (aBuf 0x10) 31 = s.bit (aBuf 0x10) 31 :=
      congrFun (congrFun (bit_congr rfl rfl) _) _
    rw [same, idle]
    rfl)
  rw [frame, still]
  exact ⟨unitIn_congr rfl rfl, rfl, rfl⟩

/-- What a result's unit and the registers are once the line has settled and the packet is at the dispatch engine. -/
theorem settled_effect {y : State} {op : Nat} {w : Word} (idle : y.bit (aBuf 0x10) 31 = false)
    (ends : u = dispatchPacket (invCheck (shadowCheck (lineSettled y p) k)) op w 0) :
    (unitIn u p lba = unitIn y p lba ∨ unitIn u p lba = Unit4.none) ∧ u.regs = y.regs ∧ u.part = y.part := by
  obtain ⟨regs, part, unit⟩ := lineSettled_effect (s := y) (p := p) (lba := lba)
  have idle' : (lineSettled y p).bit (aBuf 0x10) 31 = false := by rw [bit_congr part regs, idle]
  obtain ⟨unit', regs', part'⟩ := checked_effect (k := k) idle'
  have frame := dispatchPacket_frame (invCheck (shadowCheck (lineSettled y p) k)) op w 0
  rw [← ends] at frame
  have same : unitIn u = unitIn (lineSettled y p) := by
    rw [← unit']
    exact unitIn_congr (by rw [frame]) (by rw [frame])
  exact ⟨by rw [same]; exact unit, (by rw [frame] : u.regs = _).trans (regs'.trans regs),
    (by rw [frame] : u.part = _).trans (part'.trans part)⟩

theorem setUnitIn_side : (setUnitIn s p lba x).regs = s.regs ∧ (setUnitIn s p lba x).part = s.part := by
  unfold setUnitIn
  cases p with
  | way k => exact ⟨rfl, rfl⟩
  | copy i => exact ⟨rfl, rfl⟩

/-- The unit once its write has failed: it may be written again. -/
def failedUnit (x : Unit4) : Unit4 := { x with inflight := false, again := false, cover := [], elig := true }

theorem unitReached_wfail (inflight : (unitIn s p lba).inflight = true) :
    unitIn (unitReached s n lba psa .wfail p) p lba = failedUnit (unitIn s p lba) ∧
      (unitReached s n lba psa .wfail p).fld (aBuf 0x13C) 31 0 = min (s.fld (aBuf 0x13C) 31 0 + 1) (2 ^ 32 - 1) ∧
      (unitReached s n lba psa .wfail p).reg (aBuf 0x10) = s.reg (aBuf 0x10) := by
  have apart : aBuf 0x10 ≠ aBuf 0x13C := by
    unfold aBuf
    omega
  have run : unitReached s n lba psa .wfail p = (setUnitIn s p lba (failedUnit (unitIn s p lba))).bump (aBuf 0x13C) := by
    unfold unitReached failedUnit
    rfl
  obtain ⟨regs, part⟩ := setUnitIn_side (s := s) (p := p) (lba := lba) (x := failedUnit (unitIn s p lba))
  have unit := unitIn_setUnitIn (x := failedUnit (unitIn s p lba)) inflight
  rw [run]
  generalize setUnitIn s p lba (failedUnit (unitIn s p lba)) = v at *
  generalize aBuf 0x13C = a at *
  generalize aBuf 0x10 = b at *
  refine ⟨?_, ?_, ?_⟩
  · rw [unitIn_congr (u := v.bump a) (s := v) rfl rfl, unit]
  · rw [State.bump_fld_self, fld_congr part regs]
  · rw [bump_reg_ne apart, reg_congr part regs]

/-- The unit once it has been written. -/
def cleanUnit (x : Unit4) : Unit4 := { x with inflight := false, again := false, cover := [], dirty := false }

theorem unitReached_written (inflight : (unitIn s p lba).inflight = true) (once : (unitIn s p lba).again = false)
    (whole : (unitIn s p lba).lost = false) :
    unitIn (unitReached s n lba psa .written p) p lba = cleanUnit (unitIn s p lba) ∧
      (unitReached s n lba psa .written p).reg (aBuf 0x10) = s.reg (aBuf 0x10) := by
  obtain ⟨q, reached⟩ := advanceReached_frame (s := s) (n := n) (lba := lba)
  have run : ∃ who, unitReached s n lba psa .written p =
      unitDone (setUnitIn (advanceReached s n lba) p lba (cleanUnit (unitIn s p lba))) n lba who .ok := by
    unfold unitReached cleanUnit
    dsimp only
    generalize unitIn s p lba = y at once whole
    obtain ⟨⟩ := y
    cases once
    cases whole
    exact ⟨_, rfl⟩
  obtain ⟨who, run⟩ := run
  have same : unitIn (advanceReached s n lba) = unitIn s := by
    rw [reached]
    exact unitIn_congr rfl rfl
  obtain ⟨regs, part⟩ := setUnitIn_side (s := advanceReached s n lba) (p := p) (lba := lba) (x := cleanUnit (unitIn s p lba))
  have unit := unitIn_setUnitIn (s := advanceReached s n lba) (p := p) (lba := lba) (x := cleanUnit (unitIn s p lba)) (by
    rw [same, inflight])
  have regs' : (advanceReached s n lba).regs = s.regs ∧ (advanceReached s n lba).part = s.part := by
    rw [reached]
    exact ⟨rfl, rfl⟩
  rw [run]
  generalize setUnitIn (advanceReached s n lba) p lba (cleanUnit (unitIn s p lba)) = v at *
  have ending := Ending.unitDone (s := v) (n := n) (lba := lba) who .ok
  have outside : aBuf 0x10 ∉ [aNq 0x2C] := by
    rw [List.mem_singleton]
    unfold aBuf aNq
    omega
  refine ⟨by rw [ending.unitIn, unit], ?_⟩
  rw [ending.regs _ outside, reg_congr (part.trans regs'.2) (regs.trans regs'.1)]

/-! ### WRITE_RESULT -/

/-- The oldest result has crossed to the hub. -/
def resultCrossed (s : State) (t : Nat) (r : WrRes) (rest : List WrRes) : State :=
  crossAtOnce (s.setWr t { s.wr t with results := rest }) t 1 3 (beBytes 6 r.psa)

/-- What the dispatch engine is told of a result (R289). -/
def resultWord (r : WrRes) : Word :=
  place 31 28 (match r.st with
    | .written => 0 | .wfail => 1 | .skipped => 2 | .retired => 3) ||| w32 (r.lba % 2 ^ 28)

section
variable {r : WrRes} {rest : List WrRes}

theorem exec_writeResult (tile : s.hasTile t = true) : exec (.writeResult t) s = .next (writeResult s t) := onTile_next tile

theorem writeResult_waits (waits : hubHears s t = false ∨ nth 0 (s.link t 1).credits 3 = 0) : writeResult s t = s := by
  unfold writeResult
  dsimp only
  split
  · rfl
  · refine if_pos (waits.imp (fun deaf => by rw [deaf]; rfl) fun none => ?_)
    rw [Bool.not_eq_true', Bool.eq_false_iff, ne_eq, hasCredits_iff, none]
    decide

theorem writeResult_sends (first : (s.wr t).results = r :: rest) (hears : hubHears s t = true)
    (credit : 1 ≤ nth 0 (s.link t 1).credits 3) : writeResult s t =
      dispatchPacket (applyResult (resultCrossed s t r rest) r.nsid r.lba r.psa r.st) 0xF2 (resultWord r) 0 := by
  have credit' := hasCredits_iff.2 credit
  simp only [writeResult, first, hears, credit', Bool.not_true, Bool.false_eq_true, or_self, if_false]
  rfl

theorem resultCrossed_effect : (∃ o x, resultCrossed s t r rest = { s with out := o, tl := x }) ∧
    ((resultCrossed s t r rest).wr t).results = rest ∧
    nth 0 ((resultCrossed s t r rest).link t 1).credits 3 = nth 0 (s.link t 1).credits 3 - 1 := by
  have sent := LinksOnly.crossAtOnce (s.setWr t { s.wr t with results := rest }) t 1 3 (beBytes 6 r.psa)
  have credits := crossAtOnce_credits (s := s.setWr t { s.wr t with results := rest }) (t := t) (e := 1) (ch := 3)
    (what := beBytes 6 r.psa) (by decide)
  rw [State.setWr_link] at credits
  rw [← resultCrossed] at sent credits
  refine ⟨⟨(resultCrossed s t r rest).out, (resultCrossed s t r rest).tl, ?_⟩, ?_, credits⟩
  · rw [sent.frame]
    rfl
  · rw [sent.wr, State.setWr_wr]

theorem placesOf_congr (part : u.part = s.part) (buf : u.buf = s.buf) : placesOf u = placesOf s := by
  funext n lba
  have line : lineAt u = lineAt s := by
    funext n l
    unfold lineAt
    rw [setOf, part, ← setOf, lineOf_congr (u := u) (s := s) (by rw [buf])]
  rw [placesOf, copyAt, buf, line, ← copyAt, placesOf]

/-- The oldest result leaves its tile, and reaches its unit unless that is gone. -/
theorem writeResult_effect (tile : s.hasTile t = true) (hears : hubHears s t = true) (credit : 1 ≤ nth 0 (s.link t 1).credits 3)
    (first : (s.wr t).results = r :: rest) :
    ∃ u, exec (.writeResult t) s = .next u ∧ (u.wr t).results = rest ∧
      nth 0 (u.link t 1).credits 3 = nth 0 (s.link t 1).credits 3 - 1 ∧
      ((r.nsid, r.lba) ∈ s.buf.orphans → u.buf = { s.buf with orphans := s.buf.orphans.erase (r.nsid, r.lba) } ∧ u.nq = s.nq) ∧
      (∀ p, (r.nsid, r.lba) ∉ s.buf.orphans → s.bit (aBuf 0x10) 31 = false →
        ((placesOf s r.nsid r.lba).find? fun p => (unitIn s p r.lba).inflight) = some p →
        (r.st = .wfail → (unitIn u p r.lba).inflight = false ∧
          ((unitIn u p r.lba).elig = true ∨ (unitIn u p r.lba).valid = false) ∧
          u.fld (aBuf 0x13C) 31 0 = min (s.fld (aBuf 0x13C) 31 0 + 1) (2 ^ 32 - 1)) ∧
        (r.st = .written → (unitIn s p r.lba).again = false → (unitIn s p r.lba).lost = false →
          (unitIn u p r.lba).inflight = false ∧ (unitIn u p r.lba).dirty = false)) := by
  obtain ⟨⟨o, x, frame⟩, results, credits⟩ := resultCrossed_effect (s := s) (t := t) (r := r) (rest := rest)
  have run := writeResult_sends first hears credit
  generalize resultCrossed s t r rest = v at *
  have part : v.part = s.part := by rw [frame]
  have regs : v.regs = s.regs := by rw [frame]
  have buf : v.buf = s.buf := by rw [frame]
  have kept : writesKept v (writeResult s t) := by
    rw [run]
    exact applyResult_writesKept.trans (dispatchPacket_writesKept _ _ _)
  refine ⟨_, exec_writeResult tile, by rw [State.wr, kept.1, ← State.wr, results], by rw [State.link, kept.2, ← State.link, credits],
    fun orphan => ?_, fun p new idle found => ?_⟩
  · rw [← buf] at orphan
    rw [applyResult_orphan orphan, dispatchPacket_frame] at run
    rw [run, ← buf, frame]
    exact ⟨rfl, rfl⟩
  · have units : unitIn v = unitIn s := unitIn_congr (by rw [buf]) (by rw [buf])
    have inflight : (unitIn v p r.lba).inflight = true := by
      rw [units]
      exact List.find?_some (p := fun p => (unitIn s p r.lba).inflight) found
    rw [← buf] at new
    rw [← units, ← placesOf_congr part buf] at found
    rw [applyResult_reached new found] at run
    rw [← units]
    refine ⟨fun failed => ?_, fun written once whole => ?_⟩
    · rw [failed] at run
      obtain ⟨unit, count, other⟩ := unitReached_wfail (n := r.nsid) (psa := r.psa) inflight
      obtain ⟨after, regs', part'⟩ := settled_effect (lba := r.lba) (by rw [State.bit, other, ← State.bit, bit_congr part regs, idle]) run
      rw [fld_congr part regs] at count
      rw [fld_congr part' regs', count]
      obtain after | after := after <;> rw [after]
      · rw [unit]
        exact ⟨rfl, .inl rfl, rfl⟩
      · exact ⟨rfl, .inr rfl, rfl⟩
    · rw [written] at run
      obtain ⟨unit, other⟩ := unitReached_written (n := r.nsid) (psa := r.psa) inflight once whole
      obtain ⟨after, -, -⟩ := settled_effect (lba := r.lba) (by rw [State.bit, other, ← State.bit, bit_congr part regs, idle]) run
      obtain after | after := after <;> rw [after]
      · rw [unit]
        exact ⟨rfl, rfl⟩
      · exact ⟨rfl, rfl⟩

end

end

/-- Settles O32: the frames of what is asked of a head, the end of a sector that was read back, and the unit that a
result reaches. -/
theorem writtenSectorsAreChecked : Obligations.WrittenSectorsAreChecked := by
  unfold Obligations.WrittenSectorsAreChecked
  refine ⟨fun s t c h i on hc hh hi => ?_, fun s t on => ?_⟩
  · subst hi
    refine ⟨fun ps is => ?_, fun x e first ready lost held => ?_, fun idle => ?_, fun ended some_ => ?_,
      fun r rest w e first dst free kind tile cluster head _ found => ?_⟩
    · subst is
      refine ⟨fun none => ?_, fun some_ serves => partnerRead_effect on hc hh some_ serves⟩
      rw [exec_partnerRead on hc hh, partnerRead_none none]
    · rw [exec_partnerRewrite on hc hh, partnerRewrite_free first ready lost held]
      rfl
    · rw [exec_verifyRead on hc hh, verifyRead_idle idle]
    · exact verifyRead_effect on hc hh ended some_
    · exact formatterResult_checked on first dst free kind (by rw [cluster, head]) found
  · refine ⟨fun none => ?_, fun j ps range is some_ least => encroachReadback_effect on range is some_ least, fun waits => ?_,
      fun r rest hears credit first => writeResult_effect on.1 hears credit first⟩
    · rw [exec_encroachReadback on, encroachReadback_none none]
    · rw [exec_writeResult on.1, writeResult_waits waits]

end Sys2Proof.Machine
end

section
/-! SUPPORT. O55: a row of an operation that waits alone at the port, and the end of one (R453, R455, R459). -/

namespace Sys2Proof.Machine

/-! ### What only the management side sees -/

section
variable {s u v : State} {a : Nat}

theorem mgmtOnly.refl (s : State) : mgmtOnly s s := rfl

theorem mgmtOnly.trans (first : mgmtOnly s u) (second : mgmtOnly u v) : mgmtOnly s v := by
  unfold mgmtOnly at *
  rw [second, first]

theorem mgmtOnly_mgmt (x : Mgmt) : mgmtOnly s { s with mgmt := x } := rfl

theorem mgmtOnly_setReg (a : Nat) (w : Word) : mgmtOnly s (s.setReg a w) := rfl

theorem mgmtOnly_bump (a n : Nat) : mgmtOnly s (s.bump a n) := rfl

theorem mgmtOnly_emit (x : Out) : mgmtOnly s (s.emit x) := rfl

theorem mgmtOnly_notices (only : onlyNotices s u) (owl : u.owl = s.owl) : mgmtOnly s u := by
  unfold mgmtOnly
  rw [only.1, owl]

theorem irqFall_owl (ic n id : Nat) (w : Bool) : (irqFall s ic n id w).owl = s.owl := by
  unfold irqFall
  dsimp only
  simp only [apply_ite State.owl, irqEval_owl, setIrqBit_owl, State.setTarget_owl, ite_self]

theorem irqFall_mgmtOnly (ic n id : Nat) (w : Bool) : mgmtOnly s (irqFall s ic n id w) :=
  mgmtOnly_notices (irqFall_notices ic n id w) (irqFall_owl ic n id w)

theorem irqEvent_mgmtOnly (ic n id : Nat) : mgmtOnly s (irqEvent s ic n id) :=
  mgmtOnly_notices (irqEvent_notices ic n id) (irqEvent_owl id)

end

/-! ### The registers of the management side and of power -/

section
variable {o : Nat}

theorem noticeReg_hub {a : Nat} (outside : a < 0x20000 ∨ 0x40000 ≤ a) (hub : a < 0x10000000) : noticeReg a = false := by
  simp only [noticeReg, irqSpace, Bool.or_eq_false_iff, decide_eq_false_iff_not]
  unfold aOwl
  omega

theorem noticeReg_aMgt (range : o < 0x10000) : noticeReg (aMgt o) = false :=
  noticeReg_hub (by unfold aMgt; omega) (by unfold aMgt; omega)

theorem noticeReg_aPwr (range : o < 0x10000) : noticeReg (aPwr o) = false :=
  noticeReg_hub (by unfold aPwr; omega) (by unfold aPwr; omega)

end

/-! ### The operation leaves the order -/

/-- The port's operation as it waits. -/
def portOp (op tag : Nat) (param : Payload) : MgOp := ⟨.port, op, tag, 0, param⟩

/-- The state in which the operation that waited alone is carried out. -/
def handed (s : State) : State := irqFall { s with mgmt := { s.mgmt with waiting := [] } } 0 16 0x22 false

section
variable {s v : State} {op tag : Nat} {param data : Payload} {st : Status} {m : MgOp} {f : State → MgOp → State}

theorem handed_mgmtOnly : mgmtOnly s (handed s) := (mgmtOnly_mgmt _).trans (irqFall_mgmtOnly _ _ _ _)

@[simp] theorem handed_mgmt : (handed s).mgmt = { s.mgmt with waiting := [] } := irqFall_mgmt _ _ _ _
@[simp] theorem handed_part : (handed s).part = s.part := irqFall_part _ _ _ _
@[simp] theorem handed_power : (handed s).power = s.power := irqFall_power _ _ _ _
@[simp] theorem handed_flash : (handed s).flash = s.flash := irqFall_flash _ _ _ _
@[simp] theorem handed_tl : (handed s).tl = s.tl := irqFall_tl _ _ _ _
@[simp] theorem handed_nq : (handed s).nq = s.nq := irqFall_nq _ _ _ _
@[simp] theorem handed_buf : (handed s).buf = s.buf := irqFall_buf _ _ _ _

theorem handed_reg {a : Nat} (kept : noticeReg a = false) : (handed s).reg a = s.reg a := irqFall_reg _ _ _ _ kept

theorem handed_fld {a : Nat} (hi lo : Nat) (kept : noticeReg a = false) : (handed s).fld a hi lo = s.fld a hi lo :=
  congrArg (Sys2Proof.fld · hi lo) (handed_reg kept)

theorem handed_bit {a : Nat} (i : Nat) (kept : noticeReg a = false) : (handed s).bit a i = s.bit a i :=
  congrArg (·.getLsbD i) (handed_reg kept)

theorem opIs_portOp : opIs op tag param (portOp op tag param) = true := by simp [opIs, portOp]

theorem resetHead_none (idle : s.mgmt.waiting = []) : resetHead s = s := by simp only [resetHead, idle]

theorem resetHeads_none (idle : s.mgmt.waiting = []) : resetHeads s = s := by simp only [resetHeads, idle, List.foldl_nil]

theorem resetHeads_other (waits : s.mgmt.waiting = [m]) (other : m.opcode ≠ 0x25) : resetHeads s = s := by
  simp only [resetHeads, waits, List.foldl_cons, List.foldl_nil, resetHead, other, false_and, if_false]

theorem offerOp_waiting (waits : s.mgmt.waiting = [portOp op tag param]) : offerOp s op tag param = s := by
  simp only [offerOp, waits, List.any_cons, opIs_portOp, Bool.true_or, if_true]

theorem popOp_port (waits : s.mgmt.waiting = [portOp op tag param]) : popOp s = handed s := by
  simp only [popOp, waits, portOp, handed]

theorem operands_ok (small : tag < 65536) (len : param.length ≤ 4096) :
    (decide (tag < 65536) && decide (param.length ≤ 4096)) = true := by simp [small, len]

/-- The row of an operation that waits alone. -/
theorem opRow_waiting (waits : s.mgmt.waiting = [portOp op tag param]) (small : tag < 65536) (len : param.length ≤ 4096)
    (other : op ≠ 0x25) : opRow op tag param f s =
      .next (if executorFree s = true then resetHeads (f (handed s) (portOp op tag param)) else s) := by
  unfold opRow onOp
  rw [resetHeads_other waits other, onOk_next (operands_ok small len), offerOp_waiting waits]
  simp only [waits, opIs_portOp, true_and, popOp_port waits]

theorem executorFree_asleep (asleep : s.power.boot < 6) : executorFree s = false := by
  simp [executorFree, Nat.not_le.mpr asleep]

theorem executorFree_ready (ready : opReady s op tag param) : executorFree s = true := by
  obtain ⟨-, long, boot, awake, -⟩ := ready
  simp [executorFree, long, boot, awake]

theorem opRow_asleep (waits : s.mgmt.waiting = [portOp op tag param]) (asleep : s.power.boot < 6) (small : tag < 65536)
    (len : param.length ≤ 4096) (other : op ≠ 0x25) : opRow op tag param f s = .next s := by
  rw [opRow_waiting waits small len other, executorFree_asleep asleep, if_neg Bool.false_ne_true]

theorem opRow_ready (ready : opReady s op tag param) (other : op ≠ 0x25) :
    opRow op tag param f s = .next (resetHeads (f (handed s) (portOp op tag param))) := by
  have free := executorFree_ready ready
  obtain ⟨waits, -, -, -, small, len⟩ := ready
  rw [opRow_waiting waits small len other, if_pos free]

theorem handed_idle : (handed s).mgmt.waiting = [] := by rw [handed_mgmt]

theorem handed_long (ready : opReady s op tag param) : (handed s).mgmt.long = none := by
  rw [handed_mgmt]
  exact ready.2.1

/-! ### The end of an operation -/

/-- The operation has ended with its reply, and only the management side has changed. -/
def answered (s u : State) (op tag : Nat) (st : Status) (data : Payload) : Prop :=
  opEnds u op tag st data ∧ mgmtOnly s u

/-- A long operation's number and status stand in MGT.LASTOP. -/
def lastOpNoted (s : State) (op : Nat) (st : Status) : State :=
  if op ∈ longOps then s.setReg (aMgt 0x1C) (place 15 8 op ||| place 7 0 st.code) else s

theorem finishOp_port : finishOp s (portOp op tag param) st data =
    { lastOpNoted s op st with
      mgmt := { (lastOpNoted s op st).mgmt with reply := some (replyPacket op tag st.code data), busy := false } } := rfl

theorem lastOpNoted_frame : lastOpNoted s op st = { s with regs := (lastOpNoted s op st).regs } := by
  unfold lastOpNoted
  split <;> rfl

theorem lastOpNoted_reg {a : Nat} (other : a ≠ aMgt 0x1C) : (lastOpNoted s op st).reg a = s.reg a := by
  unfold lastOpNoted
  split
  · exact State.setReg_reg_ne _ _ other
  · rfl

theorem finishOp_mgmt : (finishOp s (portOp op tag param) st data).mgmt =
    { s.mgmt with reply := some (replyPacket op tag st.code data), busy := false } := by
  rw [finishOp_port, lastOpNoted_frame]

theorem finishOp_reg {a : Nat} (other : a ≠ aMgt 0x1C) : (finishOp s (portOp op tag param) st data).reg a = s.reg a :=
  lastOpNoted_reg other

theorem finishOp_mgmtOnly : mgmtOnly s (finishOp s (portOp op tag param) st data) := by
  rw [finishOp_port, lastOpNoted_frame]
  rfl

theorem finishOp_opEnds : opEnds (finishOp s (portOp op tag param) st data) op tag st data := by
  unfold opEnds
  rw [finishOp_mgmt]
  exact ⟨rfl, rfl⟩

theorem resetHeads_finishOp (idle : s.mgmt.waiting = []) :
    resetHeads (finishOp s (portOp op tag param) st data) = finishOp s (portOp op tag param) st data :=
  resetHeads_none (by rw [finishOp_mgmt]; exact idle)

theorem finishOp_answered (idle : v.mgmt.waiting = []) (only : mgmtOnly s v) :
    answered s (resetHeads (finishOp v (portOp op tag param) st data)) op tag st data := by
  rw [resetHeads_finishOp idle]
  exact ⟨finishOp_opEnds, only.trans finishOp_mgmtOnly⟩

theorem handed_answered : answered s (resetHeads (finishOp (handed s) (portOp op tag param) st data)) op tag st data :=
  finishOp_answered handed_idle handed_mgmtOnly

/-! ### The checks of an operation -/

/-- Whether an operation names a tile that the part does not have. -/
def tileAbsent (s : State) (tile : Option Nat) : Bool :=
  match tile with
  | some t => !(s.hasTile t)
  | none => false

theorem longNow_none (free : s.mgmt.long = none) : longNow s = none := by simp only [longNow, free]

/-- The checks, while no long operation is in progress. -/
theorem checkedOp_free {badLen badFld : Bool} {tile : Option Nat} {f : State} (free : s.mgmt.long = none)
    (zero : m.rsv = 0) : checkedOp s m badLen badFld tile f =
      if badLen = true then finishOp s m .badLength []
      else if badFld = true then finishOp s m .badField []
      else if tileAbsent s tile = true then finishOp s m .domainOff []
      else f := by
  have now := longNow_none free
  have refuses (st : Status) : refuseOp s m st = finishOp s m st [] := by
    simp only [refuseOp, now, Option.isSome_none, Bool.false_eq_true, false_and, if_false]
  unfold checkedOp opStatus tileAbsent
  simp only [now, zero, refuses]
  cases badLen <;> cases badFld <;> cases tile <;> simp
  split <;> simp_all

end

end Sys2Proof.Machine
end

section
/-! SUPPORT. O55: the transactions on the management port (R451 to R456). -/

namespace Sys2Proof.Machine

/-! ### A port that is dead, and the transactions beside packets (R452) -/

section
variable {s : State} {bs p : Payload} {n : Nat} {w : Bool}

theorem exec_poll_dead (dead : portLive s = false) : exec .poll s = .next s := by
  show execPoll s = _
  simp only [execPoll, dead, Bool.false_eq_true, if_false]

theorem exec_poll_live (live : portLive s = true) : exec .poll s =
    .next { s.emit (.mdo [statusByte s]) with mgmt := { s.mgmt with err := false, event := false } } := by
  show execPoll s = _
  simp only [execPoll, live, if_true]
  rfl

theorem exec_fetch_dead (dead : portLive s = false) : exec (.fetch w) s = .next s := by
  show Host.Outcome.next (fetchReply s w) = _
  simp only [fetchReply, dead, Bool.not_false, if_true]

theorem exec_fetch_empty (live : portLive s = true) (none : s.mgmt.reply = none) :
    exec (.fetch w) s = .next (s.emit (.mdo [0])) := by
  show Host.Outcome.next (fetchReply s w) = _
  simp only [fetchReply, live, none, Bool.not_true, Bool.false_eq_true, if_false]

theorem exec_fetch_short (live : portLive s = true) (reply : s.mgmt.reply = some bs) : exec (.fetch false) s = .next s := by
  show Host.Outcome.next (fetchReply s false) = _
  simp only [fetchReply, live, reply, Bool.not_true, Bool.false_eq_true, if_false]

/-- The reply has been handed over whole. -/
def fetched (s : State) (bs : Payload) : State :=
  irqEvent { s.emit (.mdo bs) with mgmt := { s.mgmt with reply := none } } 0 16 0x23

theorem fetchReply_whole (live : portLive s = true) (reply : s.mgmt.reply = some bs) :
    fetchReply s true = beginReset (fetched s bs) := by
  unfold fetchReply
  rw [if_neg (by rw [live]; decide)]
  split
  · rename_i no
    rw [reply] at no
    exact nomatch no
  · rename_i found
    rw [reply] at found
    cases found
    exact if_pos rfl

theorem exec_fetch_whole (live : portLive s = true) (reply : s.mgmt.reply = some bs) (rst : s.mgmt.rst = none) :
    exec (.fetch true) s = .next (fetched s bs) := by
  have quiet : (fetched s bs).mgmt.rst = none := by
    rw [fetched, irqEvent_mgmt]
    exact rst
  show Host.Outcome.next (fetchReply s true) = _
  rw [fetchReply_whole live reply]
  simp only [beginReset, quiet]

theorem fetched_effect : (fetched s bs).mgmt = { s.mgmt with reply := none } ∧ .mdo bs ∈ (fetched s bs).out ∧
    mgmtOnly s (fetched s bs) := by
  refine ⟨irqEvent_mgmt _ _ _, ?_, ?_⟩
  · exact (irqEvent_notices _ _ _).2.1.subset List.mem_cons_self
  · exact ((mgmtOnly_emit _).trans (mgmtOnly_mgmt _)).trans (irqEvent_mgmtOnly _ _ _)

theorem exec_send_dead (dead : portLive s = false) : exec (.send p) s = .next s := by
  show Host.Outcome.next (sendPacket s p) = _
  simp only [sendPacket, dead, Bool.not_false, if_true]

theorem exec_ignored (range : n < 256) : exec (.ignoredTransaction n) s =
    .next (if portLive s = false ∨ n = 0x5E ∨ n = 0x5F ∨ n = 0x50 then s
      else ({ s with mgmt := { s.mgmt with err := true } } : State).bump (aMgt 0x60)) := by
  show execIgnoredTransaction n s = _
  unfold execIgnoredTransaction
  rw [onOk_next (decide_eq_true range)]
  simp only [Bool.not_eq_true']

end

/-! ### A packet (R453, R456) -/

/-- The port takes a packet: the reply it did not fetch is gone, and it is busy. -/
def portCleared (s : State) : State :=
  let u := irqFall (if s.mgmt.reply.isSome then s.bump (aMgt 0x60) else s) 0 16 0x23 true
  { u with mgmt := { u.mgmt with reply := none, busy := true } }

section
variable {s v : State} {p : Payload} {m : MgOp} {op tag : Nat} {st : Status} {data : Payload}

theorem portCleared_mgmtOnly : mgmtOnly s (portCleared s) := by
  unfold portCleared
  refine mgmtOnly.trans (mgmtOnly.trans ?_ (irqFall_mgmtOnly 0 16 0x23 true)) (mgmtOnly_mgmt _)
  split
  · exact mgmtOnly_bump _ _
  · exact .refl s

theorem bump_mgmt (a n : Nat) : (s.bump a n).mgmt = s.mgmt := rfl

theorem portCleared_mgmt : (portCleared s).mgmt = { s.mgmt with reply := none, busy := true } := by
  have same : (if s.mgmt.reply.isSome then s.bump (aMgt 0x60) else s).mgmt = s.mgmt := by split <;> rfl
  simp only [portCleared, irqFall_mgmt, same]

theorem sendReply_port_mgmt : (sendReply s .port op tag st data).mgmt =
    { s.mgmt with reply := some (replyPacket op tag st.code data), busy := false } := rfl

theorem sendReply_mgmtOnly : mgmtOnly s (sendReply s .port op tag st data) := rfl

theorem portPacket_busy (live : portLive s = true) (busy : portBusy s = true) :
    portPacket s p = ({ s with mgmt := { s.mgmt with err := true } } : State).bump (aMgt 0x60) := by
  have out : s.power.testEn = false := by
    simp only [portLive, Bool.and_eq_true, Bool.not_eq_true'] at live
    exact live.1
  simp only [portPacket, out, busy, if_true, Bool.false_eq_true, if_false]

theorem portPacket_free (live : portLive s = true) (free : portBusy s = false) : portPacket s p =
    if (offerPacket (portCleared s) .port p).2 = true then
      { (offerPacket (portCleared s) .port p).1 with
        mgmt := { (offerPacket (portCleared s) .port p).1.mgmt with busy := false, err := true } }
    else (offerPacket (portCleared s) .port p).1 := by
  have out : s.power.testEn = false := by
    simp only [portLive, Bool.and_eq_true, Bool.not_eq_true'] at live
    exact live.1
  simp only [portPacket, out, free, Bool.false_eq_true, if_false]
  rfl

theorem offerPacket_none {route : Route} (no : noPacket p = true) : offerPacket s route p = (s, true) := by
  simp only [offerPacket, no, if_true]

theorem offerPacket_bad (packet : noPacket p = false) (bad : packetStatus p ≠ .ok) : offerPacket s .port p =
    (sendReply (s.bump (aMgt 0x64)) .port (packetOpOf .port p).opcode (packetOpOf .port p).tag (packetStatus p) [], false) := by
  unfold offerPacket
  rw [if_neg (by rw [packet]; exact Bool.false_ne_true)]
  dsimp only
  split
  · rename_i ok
    exact absurd ok bad
  · rfl

theorem offerPacket_unlisted (packet : noPacket p = false) (good : packetStatus p = .ok)
    (unlisted : (packetOpOf .port p).opcode ∉ mgmtOps) : offerPacket s .port p =
      (sendReply s .port (packetOpOf .port p).opcode (packetOpOf .port p).tag .badOpcode [], false) := by
  simp only [offerPacket, packet, good, unlisted, Bool.false_eq_true, if_false]

/-- A listed operation waits at the executor. -/
def queued (s : State) (m : MgOp) : State := irqEvent { s with mgmt := { s.mgmt with waiting := s.mgmt.waiting ++ [m] } } 0 16 0x22

theorem offerPacket_listed (packet : noPacket p = false) (good : packetStatus p = .ok)
    (listed : (packetOpOf .port p).opcode ∈ mgmtOps) :
    offerPacket s .port p = (queued s (packetOpOf .port p), false) := by
  simp only [offerPacket, packet, good, listed, Bool.false_eq_true, if_false, if_true]
  rfl

theorem queued_mgmtOnly : mgmtOnly s (queued s m) := (mgmtOnly_mgmt _).trans (irqEvent_mgmtOnly _ _ _)

theorem queued_mgmt : (queued s m).mgmt = { s.mgmt with waiting := s.mgmt.waiting ++ [m] } := irqEvent_mgmt _ _ _

/-! ### A RESET that a packet brings is carried out at once (R457) -/

theorem finishOp_port_mgmtOnly (port : m.route = .port) : mgmtOnly s (finishOp s m st data) := by
  unfold finishOp
  rw [port]
  dsimp only
  split
  · exact (mgmtOnly_setReg _ _).trans sendReply_mgmtOnly
  · exact sendReply_mgmtOnly

theorem checkedOp_mgmtOnly {badLen badFld : Bool} {tile : Option Nat} {f : State} (port : m.route = .port)
    (only : mgmtOnly s f) : mgmtOnly s (checkedOp s m badLen badFld tile f) := by
  unfold checkedOp
  split
  · exact only
  · unfold refuseOp
    split
    · rw [port]
      exact sendReply_mgmtOnly
    · exact finishOp_port_mgmtOnly port

theorem resetOp_mgmtOnly (port : m.route = .port) : mgmtOnly s (resetOp s m) := by
  unfold resetOp
  refine checkedOp_mgmtOnly port ?_
  dsimp only
  split
  · rename_i route
    rw [port] at route
    exact nomatch route
  · exact (mgmtOnly_mgmt _).trans (finishOp_port_mgmtOnly port)

theorem popOp_mgmtOnly (waits : s.mgmt.waiting = [m]) (port : m.route = .port) : mgmtOnly s (popOp s) := by
  simp only [popOp, waits, port]
  exact (mgmtOnly_mgmt _).trans (irqFall_mgmtOnly _ _ _ _)

theorem resetHeads_mgmtOnly (waits : s.mgmt.waiting = [m]) (port : m.route = .port) : mgmtOnly s (resetHeads s) := by
  simp only [resetHeads, waits, List.foldl_cons, List.foldl_nil, resetHead]
  split
  · exact (popOp_mgmtOnly waits port).trans (resetOp_mgmtOnly port)
  · exact .refl s

/-! ### SEND -/

theorem portPacket_mgmtOnly (live : portLive s = true) : mgmtOnly s (portPacket s p) := by
  cases busy : portBusy s
  case true =>
    rw [portPacket_busy live busy]
    exact (mgmtOnly_mgmt _).trans (mgmtOnly_bump _ _)
  case false =>
    have offered : mgmtOnly s (offerPacket (portCleared s) .port p).1 := by
      refine portCleared_mgmtOnly.trans ?_
      cases packet : noPacket p
      case true => rw [offerPacket_none packet]; exact .refl _
      case false =>
        by_cases good : packetStatus p = .ok
        case neg =>
          rw [offerPacket_bad packet good]
          exact (mgmtOnly_bump _ _).trans sendReply_mgmtOnly
        by_cases listed : (packetOpOf .port p).opcode ∈ mgmtOps
        · rw [offerPacket_listed packet good listed]
          exact queued_mgmtOnly
        · rw [offerPacket_unlisted packet good listed]
          exact sendReply_mgmtOnly
    rw [portPacket_free live busy]
    split
    · exact offered.trans (mgmtOnly_mgmt _)
    · exact offered

theorem mgmtOnly.power {u : State} (only : mgmtOnly s u) : u.power = s.power := by
  unfold mgmtOnly at only
  rw [only]

/-- SEND to a device that is awake: the packet, and a RESET that it brings. -/
theorem exec_send_awake (live : portLive s = true) (awake : s.power.deep = .awake) :
    exec (.send p) s = .next (resetHeads (portPacket s p)) := by
  have same : (portPacket s p).power.deep = .awake := by rw [(portPacket_mgmtOnly live).power, awake]
  show Host.Outcome.next (sendPacket s p) = _
  simp only [sendPacket, live, same, Bool.not_true, Bool.false_eq_true, false_and, and_false, if_false]

/-- What the packet leaves at the port, which had nothing waiting. -/
theorem portPacket_mgmt (live : portLive s = true) (free : portBusy s = false) (idle : s.mgmt.waiting = []) :
    (noPacket p = true → (portPacket s p).mgmt = { s.mgmt with reply := none, busy := false, err := true }) ∧
    (noPacket p = false → packetStatus p ≠ .ok → (portPacket s p).mgmt = { s.mgmt with
      reply := some (replyPacket (packetOpOf .port p).opcode (packetOpOf .port p).tag (packetStatus p).code []), busy := false }) ∧
    (noPacket p = false → packetStatus p = .ok → (packetOpOf .port p).opcode ∉ mgmtOps → (portPacket s p).mgmt = { s.mgmt with
      reply := some (replyPacket (packetOpOf .port p).opcode (packetOpOf .port p).tag Status.badOpcode.code []), busy := false }) ∧
    (noPacket p = false → packetStatus p = .ok → (packetOpOf .port p).opcode ∈ mgmtOps → (portPacket s p).mgmt = { s.mgmt with
      reply := none, busy := true, waiting := [packetOpOf .port p] }) := by
  rw [portPacket_free live free]
  refine ⟨fun no => ?_, fun packet bad => ?_, fun packet good unlisted => ?_, fun packet good listed => ?_⟩
  · rw [offerPacket_none no]
    simp only [if_true, portCleared_mgmt]
  · rw [offerPacket_bad packet bad]
    simp only [Bool.false_eq_true, if_false, sendReply_port_mgmt, bump_mgmt, portCleared_mgmt]
  · rw [offerPacket_unlisted packet good unlisted]
    simp only [Bool.false_eq_true, if_false, sendReply_port_mgmt, portCleared_mgmt]
  · rw [offerPacket_listed packet good listed]
    simp only [Bool.false_eq_true, if_false, queued_mgmt, portCleared_mgmt, idle, List.nil_append]

theorem portPacket_waiting (live : portLive s = true) (idle : s.mgmt.waiting = []) :
    (portPacket s p).mgmt.waiting = [] ∨ (portPacket s p).mgmt.waiting = [packetOpOf .port p] := by
  cases busy : portBusy s
  case true =>
    rw [portPacket_busy live busy, bump_mgmt]
    exact .inl idle
  case false =>
    obtain ⟨none, bad, unlisted, listed⟩ := portPacket_mgmt (p := p) live busy idle
    cases packet : noPacket p
    case true => rw [none packet]; exact .inl idle
    case false =>
      by_cases good : packetStatus p = .ok
      case neg => rw [bad packet good]; exact .inl idle
      by_cases list : (packetOpOf .port p).opcode ∈ mgmtOps
      · rw [listed packet good list]; exact .inr rfl
      · rw [unlisted packet good list]; exact .inl idle

theorem send_mgmtOnly (live : portLive s = true) (idle : s.mgmt.waiting = []) :
    mgmtOnly s (resetHeads (portPacket s p)) := by
  refine (portPacket_mgmtOnly (p := p) live).trans ?_
  rcases portPacket_waiting live idle with none | one
  · rw [resetHeads_none none]
    exact .refl _
  · exact resetHeads_mgmtOnly one rfl

/-- A packet of another operation than RESET stays as it was taken. -/
theorem send_other (live : portLive s = true) (idle : s.mgmt.waiting = []) (other : (packetOpOf .port p).opcode ≠ 0x25) :
    resetHeads (portPacket s p) = portPacket s p := by
  rcases portPacket_waiting live idle with none | one
  · exact resetHeads_none none
  · exact resetHeads_other one other

theorem send_busy (live : portLive s = true) (idle : s.mgmt.waiting = []) (busy : portBusy s = true) :
    (resetHeads (portPacket s p)).mgmt = { s.mgmt with err := true } ∧
      (resetHeads (portPacket s p)).fld (aMgt 0x60) 31 0 = min (s.fld (aMgt 0x60) 31 0 + 1) (2 ^ 32 - 1) := by
  have none : (portPacket s p).mgmt.waiting = [] := by
    rw [portPacket_busy live busy, bump_mgmt]
    exact idle
  rw [resetHeads_none none, portPacket_busy live busy, bump_mgmt]
  exact ⟨rfl, State.bump_fld_self 1⟩

end

/-! ### The transactions together -/

section
variable {s : State} {p : Payload}

theorem portSends (live : portLive s = true) (idle : s.mgmt.waiting = []) (awake : s.power.deep = .awake) :
    ∃ u, exec (.send p) s = .next u ∧ mgmtOnly s u ∧
      (portBusy s = true → u.mgmt = { s.mgmt with err := true } ∧
        u.fld (aMgt 0x60) 31 0 = min (s.fld (aMgt 0x60) 31 0 + 1) (2 ^ 32 - 1)) ∧
      (portBusy s = false → (packetOpOf .port p).opcode ≠ 0x25 →
        (noPacket p = true → u.mgmt = { s.mgmt with reply := none, busy := false, err := true }) ∧
        (noPacket p = false → packetStatus p ≠ .ok →
          opEnds u (packetOpOf .port p).opcode (packetOpOf .port p).tag (packetStatus p) []) ∧
        (noPacket p = false → packetStatus p = .ok → (packetOpOf .port p).opcode ∉ mgmtOps →
          opEnds u (packetOpOf .port p).opcode (packetOpOf .port p).tag .badOpcode []) ∧
        (noPacket p = false → packetStatus p = .ok → (packetOpOf .port p).opcode ∈ mgmtOps →
          u.mgmt = { s.mgmt with reply := none, busy := true, waiting := [packetOpOf .port p] })) := by
  refine ⟨_, exec_send_awake live awake, send_mgmtOnly live idle, send_busy live idle, fun free other => ?_⟩
  rw [send_other live idle other]
  obtain ⟨none, bad, unlisted, listed⟩ := portPacket_mgmt (p := p) live free idle
  refine ⟨none, fun packet status => ?_, fun packet good out => ?_, listed⟩
  · rw [opEnds, bad packet status]
    exact ⟨rfl, rfl⟩
  · rw [opEnds, unlisted packet good out]
    exact ⟨rfl, rfl⟩

end

end Sys2Proof.Machine
end

section
/-! SUPPORT. O55: every operation's row, a wrong length and a flash that cannot be used (R457, R459, R474). -/

namespace Sys2Proof.Machine

/-- A register operation is carried out, or goes back to the head while an access waits for a link (R37). -/
def heldOp (f : State → MgOp → State) (s : State) (m : MgOp) : State :=
  if regWaits s m then { s with mgmt := { s.mgmt with waiting := m :: s.mgmt.waiting } } else f s m

section
variable {s v : State} {op tag : Nat} {param : Payload} {x : Instr} {bad : Prop} {f : State → MgOp → State}

theorem handed_flashUsable : flashUsable (handed s) = flashUsable s := by
  unfold flashUsable
  rw [handed_fld 31 28 (noticeReg_aMgt (by decide))]

theorem checkedOp_badLength {m : MgOp} {badLen badFld : Bool} {tile : Option Nat} {g : State} (free : v.mgmt.long = none)
    (zero : m.rsv = 0) (bad : badLen = true) : checkedOp v m badLen badFld tile g = finishOp v m .badLength [] := by
  rw [checkedOp_free free zero, if_pos bad]

theorem checkedOp_good {m : MgOp} {badLen badFld : Bool} {tile : Option Nat} {g : State} (free : v.mgmt.long = none)
    (zero : m.rsv = 0) (length : badLen = false) (field : badFld = false) (present : tileAbsent v tile = false) :
    checkedOp v m badLen badFld tile g = g := by
  rw [checkedOp_free free zero]
  simp only [length, field, present, Bool.false_eq_true, if_false]

/-! ### Rows -/

/-- The instruction is the row of an operation that `f` carries out. -/
def isRow (x : Instr) (op tag : Nat) (param : Payload) (f : State → MgOp → State) : Prop :=
  op ≠ 0x25 ∧ ∀ s : State, (op = 0x23 → s.mgmt.long = none) → exec x s = opRow op tag param f s

theorem isRow_maintEnter (on : beAt param 1 1 ≠ 0) : isRow (.maintEnter tag param) 0x22 tag param maintOp :=
  ⟨by decide, fun s _ => if_neg on⟩

theorem isRow_maintLeave (off : beAt param 1 1 = 0) : isRow (.maintLeave tag param) 0x22 tag param maintOp :=
  ⟨by decide, fun s _ => if_pos off⟩

theorem isRow_calib : isRow (.calib tag param) 0x23 tag param calibOp := by
  refine ⟨by decide, fun s free => ?_⟩
  show execCalib tag param s = _
  simp only [execCalib, free rfl, Bool.false_eq_true, if_false]

theorem exec_maintEnter_off (off : beAt param 1 1 = 0) (small : tag < 65536) (len : param.length ≤ 4096) :
    exec (.maintEnter tag param) s = .next s := by
  show execMaintEnter tag param s = _
  rw [execMaintEnter, if_pos off, onOk_next (operands_ok small len)]

theorem exec_maintLeave_on (on : beAt param 1 1 ≠ 0) (small : tag < 65536) (len : param.length ≤ 4096) :
    exec (.maintLeave tag param) s = .next s := by
  show execMaintLeave tag param s = _
  rw [execMaintLeave, if_neg on, onOk_next (operands_ok small len)]

theorem exec_isRow_asleep (row : isRow x op tag param f) (waits : s.mgmt.waiting = [portOp op tag param])
    (asleep : s.power.boot < 6) (small : tag < 65536) (len : param.length ≤ 4096) (free : op = 0x23 → s.mgmt.long = none) :
    exec x s = .next s := by
  rw [row.2 s free, opRow_asleep waits asleep small len row.1]

theorem exec_isRow_ready (row : isRow x op tag param f) (ready : opReady s op tag param) :
    exec x s = .next (resetHeads (f (handed s) (portOp op tag param))) := by
  rw [row.2 s fun _ => ready.2.1, opRow_ready ready row.1]

/-- An operation that ends at once is answered. -/
theorem exec_isRow_answered {st : Status} {data : Payload} (row : isRow x op tag param f) (ready : opReady s op tag param)
    (ends : f (handed s) (portOp op tag param) = finishOp (handed s) (portOp op tag param) st data) :
    ∃ u, exec x s = .next u ∧ answered s u op tag st data := by
  refine ⟨_, exec_isRow_ready row ready, ?_⟩
  rw [ends]
  exact handed_answered

/-! ### Wrong lengths, and a flash that cannot be used -/

/-- A row refuses a wrong length, and a flash that cannot be used. -/
def refusesLength (op tag : Nat) (param : Payload) (bad : Prop) (f : State → MgOp → State) : Prop :=
  ∀ v : State, v.mgmt.long = none → bad →
    f v (portOp op tag param) = finishOp v (portOp op tag param) .badLength []

def refusesFlash (op tag : Nat) (param : Payload) (bad : Prop) (f : State → MgOp → State) : Prop :=
  ∀ v : State, v.mgmt.long = none → ¬bad → flashUsable v = false →
    f v (portOp op tag param) = finishOp v (portOp op tag param) .storeBusy []

theorem regWaits_badLength {m : MgOp} (bad : regLenBad m = true) : regWaits v m = false := by
  simp only [regWaits, bad, Bool.not_true, Bool.false_and]

theorem heldOp_badLength {m : MgOp} (bad : regLenBad m = true) : heldOp f v m = f v m := by
  simp only [heldOp, regWaits_badLength bad, Bool.false_eq_true, if_false]

theorem regLenBad_read (bad : param.length ≠ 8) : regLenBad (portOp 2 tag param) = true := by
  simp [regLenBad, portOp, bad]

theorem regLenBad_write (bad : param.length % 4 ≠ 0) : regLenBad (portOp 3 tag param) = true := by
  simp [regLenBad, portOp, bad]

theorem regReadOp_badLength : refusesLength 2 tag param (param.length ≠ 8) (heldOp regReadOp) := fun _ free bad =>
  (heldOp_badLength (regLenBad_read bad)).trans (checkedOp_badLength free rfl (regLenBad_read bad))

theorem regWriteOp_badLength : refusesLength 3 tag param (param.length % 4 ≠ 0) (heldOp regWriteOp) := fun _ free bad =>
  (heldOp_badLength (regLenBad_write bad)).trans (checkedOp_badLength free rfl (regLenBad_write bad))

theorem identOp_badLength : refusesLength op tag param (param ≠ []) identOp := fun _ free bad =>
  checkedOp_badLength free rfl (decide_eq_true bad)

theorem versionOp_badLength : refusesLength op tag param (param ≠ []) versionOp := fun _ free bad =>
  checkedOp_badLength free rfl (decide_eq_true bad)

theorem stageClearOp_badLength : refusesLength op tag param (param ≠ []) stageClearOp := fun _ free bad =>
  checkedOp_badLength free rfl (decide_eq_true bad)

theorem stageWriteOp_badLength : refusesLength op tag param (param.length ≤ 4) stageWriteOp := fun _ free bad =>
  checkedOp_badLength free rfl (decide_eq_true bad)

theorem stageReadOp_badLength : refusesLength op tag param (param.length ≠ 8) stageReadOp := fun _ free bad =>
  checkedOp_badLength free rfl (by rw [show (portOp op tag param).param = param from rfl, decide_eq_true bad]; rfl)

theorem commitOp_badLength : refusesLength op tag param (param.length ≠ 8) commitOp := fun _ free bad =>
  checkedOp_badLength free rfl (by rw [show (portOp op tag param).param = param from rfl, decide_eq_true bad]; rfl)

theorem revertOp_badLength : refusesLength op tag param (param.length ≠ 4) revertOp := fun _ free bad =>
  checkedOp_badLength free rfl (decide_eq_true bad)

theorem unitOp_badLength (g : State → Nat → State × Status) :
    refusesLength op tag param (param.length ≠ 4) fun s m => unitOp s m g := fun _ free bad =>
  checkedOp_badLength free rfl (decide_eq_true bad)

theorem maintOp_badLength : refusesLength op tag param (param.length ≠ 4) maintOp := fun _ free bad =>
  checkedOp_badLength free rfl (decide_eq_true bad)

theorem calibOp_badLength : refusesLength op tag param (param.length ≠ 4) calibOp := fun _ free bad =>
  checkedOp_badLength free rfl (decide_eq_true bad)

theorem keyEraseOp_badLength : refusesLength op tag param (param.length ≠ 4) keyEraseOp := fun _ free bad =>
  checkedOp_badLength free rfl (decide_eq_true bad)

theorem powerOp_badLength : refusesLength op tag param (param.length ≠ 4) powerOp := fun _ free bad =>
  checkedOp_badLength free rfl (decide_eq_true bad)

theorem stageClearOp_unusable : refusesFlash op tag param (param ≠ []) stageClearOp := fun v free good unusable => by
  refine (checkedOp_good free rfl (decide_eq_false good) rfl rfl).trans ?_
  rw [unusable]
  exact if_pos rfl

theorem commitOp_unusable : refusesFlash op tag param (param.length ≠ 8) commitOp := fun v free good unusable => by
  refine (checkedOp_good free rfl ?_ rfl rfl).trans ?_
  · rw [unusable, Bool.false_and, Bool.false_and, Bool.or_false]
    exact decide_eq_false good
  · rw [unusable]
    exact if_pos rfl

theorem revertOp_unusable : refusesFlash op tag param (param.length ≠ 4) revertOp := fun v free good unusable => by
  refine (checkedOp_good free rfl (decide_eq_false good) rfl rfl).trans ?_
  rw [unusable]
  exact if_pos rfl

/-- The rows that a flash refuses are those of the operations on it. -/
def refuses (x : Instr) (op tag : Nat) (param : Payload) (bad : Prop) : Prop :=
  ∃ f, isRow x op tag param f ∧ refusesLength op tag param bad f ∧
    (op ∈ [0x10, 0x13, 0x14] → refusesFlash op tag param bad f)

/-- How a row fares before it does its work: it waits while D1 does not run, and answers a wrong length or a flash
that cannot be used. -/
def opChecks (s : State) (x : Instr) (op tag : Nat) (param : Payload) (bad : Prop) : Prop :=
  (s.mgmt.waiting = [⟨.port, op, tag, 0, param⟩] → s.power.boot < 6 → tag < 65536 → param.length ≤ 4096 →
    (op = 0x23 → s.mgmt.long = none) → exec x s = .next s) ∧
  (opReady s op tag param → bad → ∃ u, exec x s = .next u ∧ opEnds u op tag .badLength [] ∧ mgmtOnly s u) ∧
  (opReady s op tag param → ¬bad → flashUsable s = false → op ∈ [0x10, 0x13, 0x14] → ∃ u, exec x s = .next u ∧
    opEnds u op tag .storeBusy [] ∧ mgmtOnly s u)

theorem refuses.badLength (row : refuses x op tag param bad) (ready : opReady s op tag param) (wrong : bad) :
    ∃ u, exec x s = .next u ∧ opEnds u op tag .badLength [] ∧ mgmtOnly s u := by
  obtain ⟨f, row, length, -⟩ := row
  exact exec_isRow_answered row ready (length _ (handed_long ready) wrong)

theorem refuses.unusable (row : refuses x op tag param bad) (ready : opReady s op tag param) (good : ¬bad)
    (unusable : flashUsable s = false) (flash : op ∈ [0x10, 0x13, 0x14]) :
    ∃ u, exec x s = .next u ∧ opEnds u op tag .storeBusy [] ∧ mgmtOnly s u := by
  obtain ⟨f, row, -, store⟩ := row
  exact exec_isRow_answered row ready (store flash _ (handed_long ready) good (handed_flashUsable.trans unusable))

theorem refuses.asleep (row : refuses x op tag param bad) (waits : s.mgmt.waiting = [⟨.port, op, tag, 0, param⟩])
    (asleep : s.power.boot < 6) (small : tag < 65536) (len : param.length ≤ 4096) (free : op = 0x23 → s.mgmt.long = none) :
    exec x s = .next s := by
  obtain ⟨f, row, -⟩ := row
  exact exec_isRow_asleep row waits asleep small len free

theorem refuses.checks (row : refuses x op tag param bad) : opChecks s x op tag param bad :=
  ⟨row.asleep, row.badLength, row.unusable⟩

/-- A row of no flash operation. -/
theorem opChecks_of_length (row : isRow x op tag param f) (length : refusesLength op tag param bad f)
    (plain : op ∉ [0x10, 0x13, 0x14]) : opChecks s x op tag param bad :=
  refuses.checks ⟨f, row, length, fun flash => absurd flash plain⟩

theorem opChecks_flash (row : isRow x op tag param f) (length : refusesLength op tag param bad f)
    (store : refusesFlash op tag param bad f) : opChecks s x op tag param bad :=
  refuses.checks ⟨f, row, length, fun _ => store⟩

theorem opChecks_maintEnter : opChecks s (.maintEnter tag param) 0x22 tag param (param.length ≠ 4 ∧ beAt param 1 1 ≠ 0) := by
  by_cases off : beAt param 1 1 = 0
  case pos =>
    exact ⟨fun _ _ small len _ => exec_maintEnter_off off small len, fun _ bad => absurd off bad.2,
      fun _ _ _ flash => absurd flash (by decide)⟩
  case neg =>
    exact opChecks_of_length (isRow_maintEnter off) (fun v free bad => maintOp_badLength v free bad.1) (by decide)

theorem opChecks_maintLeave : opChecks s (.maintLeave tag param) 0x22 tag param (param.length ≠ 4 ∧ beAt param 1 1 = 0) := by
  by_cases off : beAt param 1 1 = 0
  case neg =>
    exact ⟨fun _ _ small len _ => exec_maintLeave_on off small len, fun _ bad => absurd bad.2 off,
      fun _ _ _ flash => absurd flash (by decide)⟩
  case pos =>
    exact opChecks_of_length (isRow_maintLeave off) (fun v free bad => maintOp_badLength v free bad.1) (by decide)

theorem isRow_ident : isRow (.ident tag param) 1 tag param identOp := ⟨by decide, fun _ _ => rfl⟩
theorem isRow_version : isRow (.version tag param) 0x15 tag param versionOp := ⟨by decide, fun _ _ => rfl⟩
theorem isRow_regRead : isRow (.regRead tag param) 2 tag param (heldOp regReadOp) := ⟨by decide, fun _ _ => rfl⟩
theorem isRow_regWrite : isRow (.regWrite tag param) 3 tag param (heldOp regWriteOp) := ⟨by decide, fun _ _ => rfl⟩
theorem isRow_stageClear : isRow (.stageClear tag param) 0x10 tag param stageClearOp := ⟨by decide, fun _ _ => rfl⟩
theorem isRow_stageWrite : isRow (.stageWrite tag param) 0x11 tag param stageWriteOp := ⟨by decide, fun _ _ => rfl⟩
theorem isRow_stageRead : isRow (.stageRead tag param) 0x12 tag param stageReadOp := ⟨by decide, fun _ _ => rfl⟩
theorem isRow_commit : isRow (.commit tag param) 0x13 tag param commitOp := ⟨by decide, fun _ _ => rfl⟩
theorem isRow_revert : isRow (.revert tag param) 0x14 tag param revertOp := ⟨by decide, fun _ _ => rfl⟩
theorem isRow_retire : isRow (.retire tag param) 0x20 tag param fun s m => unitOp s m retireOp :=
  ⟨by decide, fun _ _ => rfl⟩
theorem isRow_reinstate : isRow (.reinstate tag param) 0x21 tag param fun s m => unitOp s m reinstateOp :=
  ⟨by decide, fun _ _ => rfl⟩
theorem isRow_keyErase : isRow (.keyErase tag param) 0x24 tag param keyEraseOp := ⟨by decide, fun _ _ => rfl⟩
theorem isRow_power : isRow (.power tag param) 0x26 tag param powerOp := ⟨by decide, fun _ _ => rfl⟩

/-- Every operation's row makes its checks. -/
theorem operationsAreChecked (named : x = .ident tag param ∧ op = 1 ∧ bad = (param ≠ []) ∨
    x = .version tag param ∧ op = 0x15 ∧ bad = (param ≠ []) ∨
    x = .regRead tag param ∧ op = 2 ∧ bad = (param.length ≠ 8) ∨ x = .regWrite tag param ∧ op = 3 ∧ bad = (param.length % 4 ≠ 0) ∨
    x = .stageClear tag param ∧ op = 0x10 ∧ bad = (param ≠ []) ∨ x = .stageWrite tag param ∧ op = 0x11 ∧ bad = (param.length ≤ 4) ∨
    x = .stageRead tag param ∧ op = 0x12 ∧ bad = (param.length ≠ 8) ∨ x = .commit tag param ∧ op = 0x13 ∧ bad = (param.length ≠ 8) ∨
    x = .revert tag param ∧ op = 0x14 ∧ bad = (param.length ≠ 4) ∨ x = .retire tag param ∧ op = 0x20 ∧ bad = (param.length ≠ 4) ∨
    x = .reinstate tag param ∧ op = 0x21 ∧ bad = (param.length ≠ 4) ∨ x = .keyErase tag param ∧ op = 0x24 ∧ bad = (param.length ≠ 4) ∨
    x = .power tag param ∧ op = 0x26 ∧ bad = (param.length ≠ 4) ∨ x = .calib tag param ∧ op = 0x23 ∧ bad = (param.length ≠ 4) ∨
    x = .maintEnter tag param ∧ op = 0x22 ∧ bad = (param.length ≠ 4 ∧ beAt param 1 1 ≠ 0) ∨
    x = .maintLeave tag param ∧ op = 0x22 ∧ bad = (param.length ≠ 4 ∧ beAt param 1 1 = 0)) :
    opChecks s x op tag param bad := by
  rcases named with ⟨rfl, rfl, rfl⟩ | ⟨rfl, rfl, rfl⟩ | ⟨rfl, rfl, rfl⟩ | ⟨rfl, rfl, rfl⟩ | ⟨rfl, rfl, rfl⟩ |
    ⟨rfl, rfl, rfl⟩ | ⟨rfl, rfl, rfl⟩ | ⟨rfl, rfl, rfl⟩ | ⟨rfl, rfl, rfl⟩ | ⟨rfl, rfl, rfl⟩ | ⟨rfl, rfl, rfl⟩ |
    ⟨rfl, rfl, rfl⟩ | ⟨rfl, rfl, rfl⟩ | ⟨rfl, rfl, rfl⟩ | ⟨rfl, rfl, rfl⟩ | ⟨rfl, rfl, rfl⟩
  · exact opChecks_of_length isRow_ident identOp_badLength (by decide)
  · exact opChecks_of_length isRow_version versionOp_badLength (by decide)
  · exact opChecks_of_length isRow_regRead regReadOp_badLength (by decide)
  · exact opChecks_of_length isRow_regWrite regWriteOp_badLength (by decide)
  · exact opChecks_flash isRow_stageClear stageClearOp_badLength stageClearOp_unusable
  · exact opChecks_of_length isRow_stageWrite stageWriteOp_badLength (by decide)
  · exact opChecks_of_length isRow_stageRead stageReadOp_badLength (by decide)
  · exact opChecks_flash isRow_commit commitOp_badLength commitOp_unusable
  · exact opChecks_flash isRow_revert revertOp_badLength revertOp_unusable
  · exact opChecks_of_length isRow_retire (unitOp_badLength _) (by decide)
  · exact opChecks_of_length isRow_reinstate (unitOp_badLength _) (by decide)
  · exact opChecks_of_length isRow_keyErase keyEraseOp_badLength (by decide)
  · exact opChecks_of_length isRow_power powerOp_badLength (by decide)
  · exact opChecks_of_length isRow_calib calibOp_badLength (by decide)
  · exact opChecks_maintEnter
  · exact opChecks_maintLeave

end

end Sys2Proof.Machine
end

section
/-! SUPPORT. O55: IDENT, VERSION, the staging operations, COMMIT and REVERT (R457, R458, R467, R468, R470). -/

namespace Sys2Proof.Machine

section
variable {s v : State} {op tag : Nat} {param : Payload} {x : Instr} {f : State → MgOp → State} {m : MgOp}

/-! ### An operation that becomes the long one -/

theorem beginLong_idle {g : Option FlashOp} (idle : v.mgmt.waiting = []) : resetHeads (beginLong v m g) = beginLong v m g :=
  resetHeads_none idle

theorem beginLong_long {g : Option FlashOp} : (beginLong v m g).mgmt.long = some ⟨m, g⟩ := rfl

theorem beginLong_mgmtOnly {g : Option FlashOp} : mgmtOnly v (beginLong v m g) := rfl

/-! ### IDENT and VERSION -/

theorem ident_answers (ready : opReady s 1 tag []) : ∃ u, exec (.ident tag []) s = .next u ∧ answered s u 1 tag .ok
    ([aHub 0, aHub 4, aMgt 0x24, aMgt 4].flatMap fun a => wordBytes (viewReg (handed s) a)) :=
  exec_isRow_answered isRow_ident ready (checkedOp_good (handed_long ready) rfl rfl rfl rfl)

theorem version_answers (ready : opReady s 0x15 tag []) : ∃ u, exec (.version tag []) s = .next u ∧ answered s u 0x15 tag .ok
    (([4, 8, 0xC, 0x10, 0x18, 0x14] ++ (List.range 8).map fun t => 0x40 + 4 * t).flatMap fun o =>
      wordBytes (viewReg (handed s) (aMgt o))) :=
  exec_isRow_answered isRow_version ready (checkedOp_good (handed_long ready) rfl rfl rfl rfl)

/-! ### STAGE_CLEAR -/

theorem handed_stagedState : stagedState (handed s) = stagedState s := handed_fld 31 30 (noticeReg_aMgt (by decide))

theorem handed_stagedBase : stagedBase (handed s) = stagedBase s := by
  simp only [stagedBase, roles, ptrRec, handed_flash]

theorem handed_flashByte (o : Nat) : flashByte (handed s) o = flashByte s o := by
  simp only [flashByte, handed_flash]

/-- The staged slot is being erased, or is about to be. -/
def erasing (s : State) : State := if stagedState s = 2 then s else eraseStart s

theorem eraseStart_mgmt : (eraseStart s).mgmt = s.mgmt := rfl

theorem eraseStart_stagedState : stagedState (eraseStart s) = 2 := by
  rw [stagedState, eraseStart, State.setReg_fld_self]
  decide

theorem erasing_effect : (erasing s).mgmt = s.mgmt ∧ stagedState (erasing s) = 2 := by
  unfold erasing
  split
  · exact ⟨rfl, ‹_›⟩
  · exact ⟨eraseStart_mgmt, eraseStart_stagedState⟩

theorem stageClear_begins (ready : opReady s 0x10 tag []) (usable : flashUsable s = true) :
    ∃ u, exec (.stageClear tag []) s = .next u ∧ u.mgmt.long = some ⟨portOp 0x10 tag [], some .eraseStaged⟩ ∧
      stagedState u = 2 := by
  have works : stageClearOp (handed s) (portOp 0x10 tag []) =
      beginLong (erasing (handed s)) (portOp 0x10 tag []) (some .eraseStaged) := by
    refine (checkedOp_good (handed_long ready) rfl rfl rfl rfl).trans ?_
    rw [handed_flashUsable, usable]
    exact if_neg Bool.false_ne_true
  obtain ⟨mgmt, state⟩ := erasing_effect (s := handed s)
  have idle : (erasing (handed s)).mgmt.waiting = [] := by rw [mgmt, handed_idle]
  refine ⟨_, exec_isRow_ready isRow_stageClear ready, ?_⟩
  rw [works, beginLong_idle idle]
  exact ⟨rfl, state⟩

/-! ### STAGE_WRITE and STAGE_READ -/

theorem stageWriteOp_good (free : v.mgmt.long = none) (full : 4 < param.length) :
    stageWriteOp v (portOp op tag param) =
      if 16777216 < beAt param 0 4 + (param.drop 4).length then finishOp v (portOp op tag param) .badField []
      else if flashUsable v = false ∨ stagedState v = 2 then finishOp v (portOp op tag param) .storeBusy []
      else programStart v (portOp op tag param) (beAt param 0 4) (param.drop 4) := by
  refine (checkedOp_free free rfl).trans ?_
  have long : ¬ decide ((portOp op tag param).param.length ≤ 4) = true := fun short => by
    have := of_decide_eq_true short
    simp only [portOp] at this
    omega
  rw [if_neg long, if_neg (show ¬ tileAbsent v none = true from Bool.false_ne_true)]
  by_cases far : 16777216 < beAt param 0 4 + (param.drop 4).length
  · rw [if_pos far]
    exact if_pos (decide_eq_true far)
  · rw [if_neg far]
    refine (if_neg fun far' => far (of_decide_eq_true far')).trans ?_
    simp only [Bool.not_eq_true', portOp]

theorem programStart_long (off : Nat) (bs : Payload) : (programStart v m off bs).mgmt = { v.mgmt with
    long := some ⟨m, some (.program off ((List.range bs.length).map fun i =>
      flashByte v (stagedBase v + off + i) &&& bs.getD i 0))⟩ } := rfl

theorem stageWrite_fares (ready : opReady s 0x11 tag param) (bytes : param.drop 4 ≠ []) :
    ∃ u, exec (.stageWrite tag param) s = .next u ∧
      (16777216 < beAt param 0 4 + (param.drop 4).length → opEnds u 0x11 tag .badField [] ∧ u.flash = s.flash) ∧
      (beAt param 0 4 + (param.drop 4).length ≤ 16777216 → (flashUsable s = false ∨ stagedState s = 2) →
        opEnds u 0x11 tag .storeBusy [] ∧ u.flash = s.flash) ∧
      (beAt param 0 4 + (param.drop 4).length ≤ 16777216 → flashUsable s = true → stagedState s ≠ 2 →
        u.mgmt.long = some ⟨portOp 0x11 tag param, some (.program (beAt param 0 4) ((List.range (param.drop 4).length).map
          fun i => flashByte s (stagedBase s + beAt param 0 4 + i) &&& (param.drop 4).getD i 0))⟩) := by
  have full : 4 < param.length := by
    by_contra short
    exact bytes (List.drop_eq_nil_of_le (by omega))
  have flash {u : State} (only : mgmtOnly s u) : u.flash = s.flash := by
    unfold mgmtOnly at only
    rw [only]
  refine ⟨_, exec_isRow_ready isRow_stageWrite ready, fun far => ?_, fun near refused => ?_, fun near usable idle => ?_⟩
  · rw [stageWriteOp_good (handed_long ready) full, if_pos far]
    exact handed_answered.imp id flash
  · rw [stageWriteOp_good (handed_long ready) full, if_neg (by omega),
      if_pos (by rwa [handed_flashUsable, handed_stagedState])]
    exact handed_answered.imp id flash
  · have goes : ¬(flashUsable (handed s) = false ∨ stagedState (handed s) = 2) := by
      rw [handed_flashUsable, handed_stagedState, usable]
      simpa using idle
    rw [stageWriteOp_good (handed_long ready) full, if_neg (by omega), if_neg goes,
      resetHeads_none (by rw [programStart_long]; exact handed_idle), programStart_long, handed_stagedBase]
    simp only [handed_flashByte]

theorem stageRead_fares {n : Nat} (len : n = beAt param 4 2) (ready : opReady s 0x12 tag param) (eight : param.length = 8)
    (pos : n ≠ 0) (page : n ≤ 4096) (zero : beAt param 6 2 = 0) (near : beAt param 0 4 + n ≤ 16777216) :
    ∃ u, exec (.stageRead tag param) s = .next u ∧ mgmtOnly s u ∧
      (flashUsable s = true → opEnds u 0x12 tag .ok ((List.range n).map fun i => flashByte s (stagedBase s + beAt param 0 4 + i))) ∧
      (flashUsable s = false → opEnds u 0x12 tag .storeBusy []) := by
  subst len
  have works : stageReadOp (handed s) (portOp 0x12 tag param) = if flashUsable s = true
      then finishOp (handed s) (portOp 0x12 tag param) .ok
        ((List.range (beAt param 4 2)).map fun i => flashByte s (stagedBase s + beAt param 0 4 + i))
      else finishOp (handed s) (portOp 0x12 tag param) .storeBusy [] := by
    refine (checkedOp_good (handed_long ready) rfl ?_ ?_ rfl).trans ?_
    · rw [show (portOp 0x12 tag param).param = param from rfl, decide_eq_false (not_not.mpr eight), decide_eq_false pos,
        decide_eq_false (not_lt.mpr page)]
      rfl
    · rw [show (portOp 0x12 tag param).param = param from rfl, decide_eq_false (not_lt.mpr near), zeroAt]
      exact congrArg (!·) (decide_eq_true zero)
    · simp only [handed_flashUsable, handed_stagedBase, handed_flashByte, portOp]
  refine ⟨_, exec_isRow_ready isRow_stageRead ready, ?_⟩
  rw [works]
  cases usable : flashUsable s
  · rw [if_neg Bool.false_ne_true]
    exact ⟨handed_answered.2, nofun, fun _ => handed_answered.1⟩
  · rw [if_pos rfl]
    exact ⟨handed_answered.2, fun _ => handed_answered.1, nofun⟩

/-! ### COMMIT and REVERT -/

/-- After its checks a pointer record is written, or the operation ends with what the checks found. -/
def pointerOp (s : State) (m : MgOp) (rev : Bool) (st : Status) : State :=
  if st = .ok then beginLong s m (some (.pointer rev)) else finishOp s m st []

theorem commitCheck_badLength (bad : lengthsOk v (roles v).staged = false) (base : Nat) (crc : Word) :
    commitCheck v base crc = .badLength := by
  simp only [commitCheck, bad, Bool.not_false, if_true]

theorem commitOp_good (free : v.mgmt.long = none) (eight : param.length = 8) (usable : flashUsable v = true) :
    commitOp v (portOp op tag param) =
      pointerOp v (portOp op tag param) false (commitCheck v (beAt param 0 4) (beWord param 4)) := by
  have now : (longNow v).isNone = true := by rw [longNow_none free]; rfl
  have word : (decide ((portOp op tag param).param.length ≠ 8) ||
      flashUsable v && (longNow v).isNone && !(lengthsOk v (roles v).staged)) = !(lengthsOk v (roles v).staged) := by
    rw [usable, now, show (portOp op tag param).param = param from rfl, eight]
    rfl
  cases lengths : lengthsOk v (roles v).staged
  · rw [commitCheck_badLength lengths]
    exact checkedOp_badLength free rfl (by rw [word, lengths]; rfl)
  · refine (checkedOp_good free rfl (by rw [word, lengths]; rfl) rfl rfl).trans ?_
    rw [usable, if_neg (by decide)]
    show (match commitCheck v (beAt param 0 4) (beWord param 4) with
      | .ok => _
      | st => _) = _
    cases commitCheck v (beAt param 0 4) (beWord param 4) <;> rfl

theorem revertOp_good (free : v.mgmt.long = none) (four : param.length = 4) (usable : flashUsable v = true) :
    revertOp v (portOp op tag param) = pointerOp v (portOp op tag param) true (revertCheck v (beAt param 0 4)) := by
  refine (checkedOp_good free rfl ?_ rfl rfl).trans ?_
  · rw [show (portOp op tag param).param = param from rfl, four]
    rfl
  · rw [usable, if_neg (by decide)]
    show (match revertCheck v (beAt param 0 4) with
      | .ok => _
      | st => _) = _
    cases revertCheck v (beAt param 0 4) <;> rfl

theorem pointer_fares {rev : Bool} {st : Status} (row : isRow x op tag param f) (ready : opReady s op tag param)
    (works : f (handed s) (portOp op tag param) = pointerOp (handed s) (portOp op tag param) rev st) :
    ∃ u, exec x s = .next u ∧ mgmtOnly s u ∧ (st ≠ .ok → opEnds u op tag st []) ∧
      (st = .ok → u.mgmt.long = some ⟨portOp op tag param, some (.pointer rev)⟩) := by
  refine ⟨_, exec_isRow_ready row ready, ?_⟩
  rw [works, pointerOp]
  by_cases good : st = .ok
  · rw [if_pos good, beginLong_idle handed_idle]
    exact ⟨handed_mgmtOnly.trans beginLong_mgmtOnly, fun bad => absurd good bad, fun _ => rfl⟩
  · rw [if_neg good]
    exact ⟨handed_answered.2, fun _ => handed_answered.1, fun ok => absurd ok good⟩

theorem commitsAndReverts {rev : Bool} {st : Status} (named :
      x = .commit tag param ∧ op = 0x13 ∧ rev = false ∧ param.length = 8 ∧
        st = commitCheck (handed s) (beAt param 0 4) (beWord param 4) ∨
      x = .revert tag param ∧ op = 0x14 ∧ rev = true ∧ param.length = 4 ∧ st = revertCheck (handed s) (beAt param 0 4))
    (ready : opReady s op tag param) (usable : flashUsable s = true) :
    ∃ u, exec x s = .next u ∧ mgmtOnly s u ∧ (st ≠ .ok → opEnds u op tag st []) ∧
      (st = .ok → u.mgmt.long = some ⟨portOp op tag param, some (.pointer rev)⟩) := by
  have still := handed_flashUsable.trans usable
  rcases named with ⟨rfl, rfl, rfl, len, rfl⟩ | ⟨rfl, rfl, rfl, len, rfl⟩
  · exact pointer_fares isRow_commit ready (commitOp_good (handed_long ready) len still)
  · exact pointer_fares isRow_revert ready (revertOp_good (handed_long ready) len still)

end

end Sys2Proof.Machine
end

section
/-! SUPPORT. O55: REG_READ, REG_WRITE and accesses that wait for a link (R37, R43, R458). -/

namespace Sys2Proof.Machine

section
variable {s v : State} {tag a o : Nat} {param : Payload} {b : RegBlk} {r : RegRow} {w : Word} {who : Who}

/-! ### What a read leaves of the management side -/

theorem mempTileLevel_mgmt (k : Nat) : (mempTileLevel s k).mgmt = s.mgmt := by
  unfold mempTileLevel
  split
  · exact irqLevel_mgmt _ _ _ _
  · rfl

theorem mempLevels_mgmt : (mempLevels s).mgmt = s.mgmt := by
  unfold mempLevels
  dsimp only
  rw [irqLevel_mgmt, irqLevel_mgmt]

theorem portLevel_mgmt (p : Nat) : (portLevel s p).mgmt = s.mgmt := irqLevel_mgmt _ _ _ _

/-- A read of a plain block's register changes nothing of the management side. -/
theorem afterRead_mgmt (block : blkOf a = some (b, o)) (plain : plainBlk b = true) : (afterRead s who a r).mgmt = s.mgmt := by
  have cleared : (if r.acc = .rc then s.setReg a 0 else s).mgmt = s.mgmt := by split <;> rfl
  unfold afterRead
  rw [block]
  dsimp only
  generalize (if r.acc = .rc then s.setReg a 0 else s) = u at *
  cases b <;> simp only [plainBlk, Bool.false_eq_true] at plain
  case memp =>
    dsimp only
    split
    · rw [mempTileLevel_mgmt, mempLevels_mgmt, cleared]
    · exact cleared
  case hpt p =>
    dsimp only
    split
    · rw [portLevel_mgmt, ← cleared]
      refine foldl_related (R := fun x y => y.mgmt = x.mgmt) (fun _ => rfl) (fun first second => second.trans first) ?_ _ _
      exact fun x k => State.setSub_mgmt (s := x) (4 * p + k) { x.sub (4 * p + k) with changed := false }
    · split
      · rw [portLevel_mgmt, cleared]
      · exact cleared
  all_goals exact cleared

/-! ### A register operation of one word -/

theorem regWords_read (one : beAt param 4 2 = 1) : regWords (portOp 2 tag param) = 1 := one

theorem regWords_write (eight : param.length = 8) : regWords (portOp 3 tag param) = 1 := by
  show param.length / 4 - 1 = 1
  rw [eight]

theorem regLenBad_read_one (eight : param.length = 8) (one : beAt param 4 2 = 1) : regLenBad (portOp 2 tag param) = false := by
  unfold regLenBad
  rw [if_pos (show (portOp 2 tag param).opcode = 2 from rfl), regWords_read one, show (portOp 2 tag param).param = param from rfl, eight]
  rfl

theorem regLenBad_write_one (eight : param.length = 8) : regLenBad (portOp 3 tag param) = false := by
  unfold regLenBad
  rw [if_neg (by simp [portOp]), regWords_write eight, show (portOp 3 tag param).param = param from rfl, eight]
  rfl

theorem regFldBad_read (aligned : beAt param 0 4 % 4 = 0) (zero : beAt param 6 2 = 0) :
    regFldBad (portOp 2 tag param) = false := by
  simp [regFldBad, portOp, zeroAt, aligned, zero]

theorem regFldBad_write (aligned : beAt param 0 4 % 4 = 0) : regFldBad (portOp 3 tag param) = false := by
  simp [regFldBad, portOp, aligned]

theorem accessOk_port : accessOk s .port a = true := accessOk_of_not_assoc fun _ => nofun

theorem regWaits_one {op : Nat} (length : regLenBad (portOp op tag param) = false) (field : regFldBad (portOp op tag param) = false)
    (one : regWords (portOp op tag param) = 1) :
    regWaits v (portOp op tag param) = decide (gateOf v (beAt param 0 4) = .wait) := by
  have port : accessOk v (opWho (portOp op tag param)) (beAt (portOp op tag param).param 0 4 + 4 * 0) = true := accessOk_port
  unfold regWaits
  rw [length, field, one, show List.range 1 = [0] from rfl]
  dsimp only
  rw [List.any_cons, List.any_nil, port]
  simp [portOp]

theorem regReadOp_one (free : v.mgmt.long = none) (eight : param.length = 8) (one : beAt param 4 2 = 1)
    (zero : beAt param 6 2 = 0) (aligned : beAt param 0 4 % 4 = 0) :
    regReadOp v (portOp 2 tag param) = finishOp (readReg v .port (beAt param 0 4)).1 (portOp 2 tag param)
      (readReg v .port (beAt param 0 4)).2.2 (wordBytes (readReg v .port (beAt param 0 4)).2.1) := by
  refine (checkedOp_good free rfl (regLenBad_read_one eight one) (regFldBad_read aligned zero) rfl).trans ?_
  rw [regWords_read one, show List.range 1 = [0] from rfl]
  dsimp only [List.foldl_cons, List.foldl_nil]
  have port : readWord v (opWho (portOp 2 tag param)) (beAt (portOp 2 tag param).param 0 4 + 4 * 0) =
      readReg v .port (beAt param 0 4) := if_pos accessOk_port
  rw [port]
  rfl

theorem regWriteOp_one (free : v.mgmt.long = none) (eight : param.length = 8) (aligned : beAt param 0 4 % 4 = 0) :
    regWriteOp v (portOp 3 tag param) = finishOp (writeReg v .port (beAt param 0 4) (beWord param 4)).1 (portOp 3 tag param)
      (writeReg v .port (beAt param 0 4) (beWord param 4)).2 [] := by
  refine (checkedOp_good free rfl (regLenBad_write_one eight) (regFldBad_write aligned) rfl).trans ?_
  rw [regWords_write eight, show List.range 1 = [0] from rfl]
  dsimp only [List.foldl_cons, List.foldl_nil]
  have port : writeWord v (opWho (portOp 3 tag param)) (beAt (portOp 3 tag param).param 0 4 + 4 * 0)
      (beWord (portOp 3 tag param).param (4 + 4 * 0)) = writeReg v .port (beAt param 0 4) (beWord param 4) := if_pos accessOk_port
  rw [port]
  rfl

theorem heldOp_goes {f : State → MgOp → State} {m : MgOp} (goes : regWaits v m = false) : heldOp f v m = f v m := by
  simp only [heldOp, goes, Bool.false_eq_true, if_false]

/-! ### The register is reachable -/

theorem regRead_reads (aligned : beAt param 0 4 % 4 = 0) (open_ : gateOf (handed s) (beAt param 0 4) = .open_)
    (block : blkOf (beAt param 0 4) = some (b, o)) (plain : plainBlk b = true) (row : regRow s.part (beAt param 0 4) = some r)
    (ready : opReady s 2 tag param) (eight : param.length = 8) (one : beAt param 4 2 = 1) (zero : beAt param 6 2 = 0) :
    ∃ u, exec (.regRead tag param) s = .next u ∧ opEnds u 2 tag .ok (wordBytes (viewReg (handed s) (beAt param 0 4))) := by
  have read : readReg (handed s) .port (beAt param 0 4) =
      (afterRead (handed s) .port (beAt param 0 4) r, viewReg (handed s) (beAt param 0 4), .ok) := by
    simp [readReg, open_, pageOk_of_plainBlk block plain, row]
  have goes : regWaits (handed s) (portOp 2 tag param) = false := by
    rw [regWaits_one (regLenBad_read_one eight one) (regFldBad_read aligned zero) (regWords_read one), open_]
    rfl
  have idle : (afterRead (handed s) .port (beAt param 0 4) r).mgmt.waiting = [] := by
    rw [afterRead_mgmt block plain, handed_idle]
  refine ⟨_, exec_isRow_ready isRow_regRead ready, ?_⟩
  rw [heldOp_goes goes, regReadOp_one (handed_long ready) eight one zero aligned, read, resetHeads_finishOp idle]
  exact finishOp_opEnds

theorem regWrite_writes (aligned : beAt param 0 4 % 4 = 0) (open_ : gateOf (handed s) (beAt param 0 4) = .open_)
    (block : blkOf (beAt param 0 4) = some (b, o)) (plain : plainBlk b = true) (row : regRow s.part (beAt param 0 4) = some r)
    (ready : opReady s 3 tag param) (eight : param.length = 8) (acc : r.acc = .rw)
    (fields : fieldsOk (handed s) b o (beWord param 4) = true) :
    ∃ u, exec (.regWrite tag param) s = .next u ∧ mgmtOnly s u ∧
      (r.inRange (beWord param 4) = false → opEnds u 3 tag .badField [] ∧ u.reg (beAt param 0 4) = (handed s).reg (beAt param 0 4)) ∧
      (r.inRange (beWord param 4) = true → opEnds u 3 tag .ok [] ∧ ∀ i, i < 32 → (u.reg (beAt param 0 4)).getLsbD i =
        if r.mask.getLsbD i then (beWord param 4).getLsbD i else ((handed s).reg (beAt param 0 4)).getLsbD i) := by
  have goes : regWaits (handed s) (portOp 3 tag param) = false := by
    rw [regWaits_one (regLenBad_write_one eight) (regFldBad_write aligned) (regWords_write eight), open_]
    rfl
  have write : writeReg (handed s) .port (beAt param 0 4) (beWord param 4) =
      plainWrite (handed s) r (beAt param 0 4) (beWord param 4) := by
    rw [writeReg_open open_ block plain (handed_part.symm ▸ row)]
    simp [acc, fields]
  refine ⟨_, exec_isRow_ready isRow_regWrite ready, ?_⟩
  rw [heldOp_goes goes, regWriteOp_one (handed_long ready) eight aligned, write]
  generalize beAt param 0 4 = a at *
  cases range : r.inRange (beWord param 4)
  · rw [plainWrite_outOfRange acc range]
    refine ⟨handed_answered.2, fun _ => ⟨handed_answered.1, ?_⟩, nofun⟩
    rw [resetHeads_finishOp handed_idle]
    rfl
  · rw [plainWrite_inRange acc range]
    have idle : ((handed s).setReg a (((handed s).reg a &&& ~~~r.mask) ||| (beWord param 4 &&& r.mask))).mgmt.waiting = [] :=
      handed_idle
    have done := finishOp_answered (op := 3) (tag := tag) (param := param) (st := .ok) (data := []) idle
      (handed_mgmtOnly.trans (mgmtOnly_setReg _ _))
    refine ⟨done.2, nofun, fun _ => ⟨done.1, fun i small => ?_⟩⟩
    rw [resetHeads_finishOp idle]
    show (((handed s).setReg a _).reg a).getLsbD i = _
    rw [State.setReg_reg]
    exact masked_getLsbD _ _ _ small

end

end Sys2Proof.Machine
end

section
/-! SUPPORT. O55: accesses that wait for a link, and the end of their time (R37). -/

namespace Sys2Proof.Machine

section
variable {s u : State} {t a : Nat}

/-- An access fares as the links and the domains stand. -/
theorem gateOf_congr (part : u.part = s.part) (link : ∀ t, s.hasTile t = true → u.linkState t = s.linkState t)
    (dom : ∀ d, u.domOn d = s.domOn d) (a : Nat) : gateOf u a = gateOf s a := by
  have tile (t : Nat) : u.hasTile t = s.hasTile t := by rw [State.hasTile, part, State.hasTile]
  have port (p : Nat) : u.hasPort p = s.hasPort p := by rw [State.hasPort, part, State.hasPort]
  have up {t : Nat} (on : s.hasTile t = true) : u.linkUp t = s.linkUp t ∧ u.linkWait t = s.linkWait t := by
    simp only [State.linkUp, State.linkWait, link t on, and_self]
  unfold gateOf
  split
  · dsimp only
    rw [tile]
    cases on : s.hasTile ((a - 0x10000000) / 0x1000000)
    · simp only [Bool.not_false, if_true]
    · simp only [(up on).1, (up on).2]
  · split <;> simp only [tile, port, part, dom]
    next t b' _ =>
      cases on : s.hasTile t
      · simp only [Bool.not_false, if_true]
      · simp only [(up on).1, (up on).2]

theorem handed_hasTile : (handed s).hasTile t = s.hasTile t := by
  rw [State.hasTile, handed_part, State.hasTile]

theorem handed_linkState (tile : s.hasTile t = true) : (handed s).linkState t = s.linkState t :=
  handed_fld 3 0 (noticeReg_aLink (hasTile_lt tile))

theorem handed_domOn (d : Nat) : (handed s).domOn d = s.domOn d := handed_bit d (noticeReg_aPwr (by decide))

theorem handed_inMaint : inMaint (handed s) t = inMaint s t := handed_bit t (noticeReg_aMgt (by decide))

theorem handed_gateOf (a : Nat) : gateOf (handed s) a = gateOf s a :=
  gateOf_congr handed_part (fun _ => handed_linkState) handed_domOn a

theorem gateOf_mgmt (x : Mgmt) (a : Nat) : gateOf { s with mgmt := x } a = gateOf s a :=
  gateOf_congr rfl (fun _ _ => rfl) (fun _ => rfl) a

/-! ### MGMT_ACCESS_TIMEOUT -/

section
variable {tag : Nat} {param : Payload} {p : Access → Bool} {x : Access}

theorem serveAccs_none (none : s.mgmt.accs = []) : serveAccs s p = s := by
  simp only [serveAccs, none, List.filter_nil, List.foldl_nil]
  rw [← none]

theorem serveAccs_one (one : s.mgmt.accs = [x]) (yes : p x = true) :
    serveAccs s p = doAccess { s with mgmt := { s.mgmt with accs := [] } } x := by
  simp only [serveAccs, one, List.filter_cons, yes, List.filter_nil, Bool.not_true, Bool.false_eq_true, if_false, if_true,
    List.foldl_cons, List.foldl_nil]

theorem exec_accessTimeout (tile : s.hasTile t = true) : exec (.mgmtAccessTimeout t) s = .next (accessTimeout s t) :=
  onTile_next tile

theorem accessTimeout_idle (idle : s.mgmt.waiting = []) (none : s.mgmt.accs = []) : accessTimeout s t = s := by
  simp only [accessTimeout, serveAccs_none none, idle]

/-- A write that finds no link in service fails. -/
theorem doAccess_waits {who : Who} {w : Word} (waits : gateOf s a = .wait) :
    doAccess s ⟨who, a, some w, []⟩ = s.emit (.reply who a w .storeBusy) := by
  simp only [doAccess, writeAccess, writeReg, waits]

theorem accessTimeout_write {who : Who} {w : Word} (idle : s.mgmt.waiting = []) (one : s.mgmt.accs = [⟨who, a, some w, []⟩])
    (low : tileBase t ≤ a) (high : a < tileBase (t + 1)) (waits : gateOf s a = .wait) :
    accessTimeout s t = { s with mgmt := { s.mgmt with accs := [] } }.emit (.reply who a w .storeBusy) := by
  have served : serveAccs s (fun x => decide (tileBase t ≤ x.addr) && decide (x.addr < tileBase (t + 1))) =
      { s with mgmt := { s.mgmt with accs := [] } }.emit (.reply who a w .storeBusy) := by
    rw [serveAccs_one one (by simp [low, high]), doAccess_waits ((gateOf_mgmt _ a).trans waits)]
  have still : ({ s with mgmt := { s.mgmt with accs := [] } }.emit (.reply who a w .storeBusy)).mgmt.waiting = [] := idle
  unfold accessTimeout
  rw [served]
  simp only [still]

/-- A REG_READ of a word that waits goes back to the head. -/
theorem heldOp_waits {f : State → MgOp → State} {m : MgOp} {v : State} (waits : regWaits v m = true) :
    heldOp f v m = { v with mgmt := { v.mgmt with waiting := m :: v.mgmt.waiting } } := by
  simp only [heldOp, waits, if_true]

theorem regWaits_read {v : State} (eight : param.length = 8) (one : beAt param 4 2 = 1) (zero : beAt param 6 2 = 0)
    (aligned : beAt param 0 4 % 4 = 0) (waits : gateOf v (beAt param 0 4) = .wait) :
    regWaits v (portOp 2 tag param) = true := by
  rw [regWaits_one (regLenBad_read_one eight one) (regFldBad_read aligned zero) (regWords_read one), waits]
  rfl

theorem regRead_waits (ready : opReady s 2 tag param) (eight : param.length = 8) (one : beAt param 4 2 = 1)
    (zero : beAt param 6 2 = 0) (aligned : beAt param 0 4 % 4 = 0) (waits : gateOf s (beAt param 0 4) = .wait) :
    ∃ u, exec (.regRead tag param) s = .next u ∧ u.mgmt.waiting = s.mgmt.waiting ∧ mgmtOnly s u := by
  have held := regWaits_read (tag := tag) eight one zero aligned ((handed_gateOf _).trans waits)
  refine ⟨_, exec_isRow_ready isRow_regRead ready, ?_⟩
  rw [heldOp_waits held, resetHeads_other (m := portOp 2 tag param) (by rw [handed_idle]) (by simp [portOp])]
  refine ⟨?_, handed_mgmtOnly.trans (mgmtOnly_mgmt _)⟩
  rw [handed_idle, ready.1]
  rfl

theorem readReg_waits {v : State} {who : Who} (waits : gateOf v a = .wait) : readReg v who a = (v, 0, .storeBusy) := by
  simp only [readReg, waits]

theorem accessTimeout_read (ready : opReady s 2 tag param) (none : s.mgmt.accs = []) (eight : param.length = 8)
    (one : beAt param 4 2 = 1) (zero : beAt param 6 2 = 0) (aligned : beAt param 0 4 % 4 = 0)
    (low : tileBase t ≤ beAt param 0 4) (high : beAt param 0 4 < tileBase (t + 1)) (waits : gateOf s (beAt param 0 4) = .wait) :
    answered s (accessTimeout s t) 2 tag .storeBusy (wordBytes 0) := by
  have held := regWaits_read (tag := tag) eight one zero aligned waits
  have head : s.mgmt.waiting = [portOp 2 tag param] := ready.1
  have times : (List.range (regWords (portOp 2 tag param))).any (fun i =>
      decide (tileBase t ≤ beAt (portOp 2 tag param).param 0 4 + 4 * i) &&
        decide (beAt (portOp 2 tag param).param 0 4 + 4 * i < tileBase (t + 1)) &&
        decide (gateOf s (beAt (portOp 2 tag param).param 0 4 + 4 * i) = .wait)) = true := by
    rw [regWords_read one, show List.range 1 = [0] from rfl, List.any_cons, List.any_nil, Nat.mul_zero, Nat.add_zero,
      show (portOp 2 tag param).param = param from rfl, decide_eq_true low, decide_eq_true high, decide_eq_true waits]
    rfl
  have gate : gateOf (handed s) (beAt param 0 4) = .wait := (handed_gateOf _).trans waits
  have ends : accessTimeout s t = resetHeads (finishOp (handed s) (portOp 2 tag param) .storeBusy (wordBytes 0)) := by
    unfold accessTimeout
    rw [serveAccs_none none]
    simp only [head]
    rw [if_pos ⟨.inl rfl, by rw [held]; exact times, executorFree_ready ready⟩, if_pos (show (portOp 2 tag param).opcode = 2 from rfl),
      popOp_port head, regReadOp_one (handed_long ready) eight one zero aligned, readReg_waits gate]
  rw [ends]
  exact handed_answered

end

end

end Sys2Proof.Machine
end

section
/-! SUPPORT. O55: RETIRE and REINSTATE of a unit, and KEY_ERASE (R194, R199, R358, R424). -/

namespace Sys2Proof.Machine

/-! ### RETIRE and REINSTATE -/

section
variable {s v : State} {op tag w t k c h r : Nat} {param : Payload} {x : Instr} {g : State → Nat → State × Status}

theorem handed_unitCheck : unitCheck (handed s) w = unitCheck s w := by
  simp only [unitCheck, handed_hasTile]

theorem unitCheck_cases : unitCheck s w = .badField ∨
    unitCheck s w = .domainOff ∧ s.hasTile (unitWord w).2.1 = false ∨ unitCheck s w = .ok ∧ s.hasTile (unitWord w).2.1 = true := by
  unfold unitCheck
  dsimp only
  split
  · exact .inl rfl
  · cases s.hasTile (unitWord w).2.1
    · exact .inr (.inl ⟨rfl, rfl⟩)
    · exact .inr (.inr ⟨rfl, rfl⟩)

theorem tileAbsent_some : tileAbsent s (some t) = !(s.hasTile t) := rfl

/-- A unit's word that is refused ends the operation; another unit's is acted on. -/
theorem unitOp_checked (free : v.mgmt.long = none) (four : param.length = 4) (word : w = beAt param 0 4) :
    unitOp v (portOp op tag param) g = if unitCheck v w = .ok
      then finishOp (g v w).1 (portOp op tag param) (g v w).2 []
      else finishOp v (portOp op tag param) (unitCheck v w) [] := by
  subst word
  refine (checkedOp_free free rfl).trans ?_
  have length : ¬ decide ((portOp op tag param).param.length ≠ 4) = true := by
    rw [show (portOp op tag param).param = param from rfl, four]
    decide
  rw [if_neg length, show (portOp op tag param).param = param from rfl]
  rcases unitCheck_cases (s := v) (w := beAt param 0 4) with bad | ⟨off, absent⟩ | ⟨ok, present⟩
  · rw [bad, if_pos (decide_eq_true rfl), if_neg (by decide)]
  · rw [off, tileAbsent_some, absent]
    rfl
  · rw [ok, tileAbsent_some, present]
    rfl

/-- The row of an operation on a unit. -/
theorem exec_unitOp_refused (row : isRow x op tag param fun s m => unitOp s m g) (ready : opReady s op tag param)
    (four : param.length = 4) (word : w = beAt param 0 4) (bad : unitCheck s w ≠ .ok) :
    ∃ u, exec x s = .next u ∧ opEnds u op tag (unitCheck s w) [] ∧ mgmtOnly s u := by
  refine exec_isRow_answered row ready ?_
  rw [unitOp_checked (handed_long ready) four word, handed_unitCheck, if_neg bad]

theorem exec_unitOp_good (row : isRow x op tag param fun s m => unitOp s m g) (ready : opReady s op tag param)
    (four : param.length = 4) (word : w = beAt param 0 4) (good : unitCheck s w = .ok) :
    exec x s = .next (resetHeads (finishOp (g (handed s) w).1 (portOp op tag param) (g (handed s) w).2 [])) := by
  rw [exec_isRow_ready row ready, unitOp_checked (handed_long ready) four word, handed_unitCheck, if_pos good]

theorem noticeReg_aTile {o : Nat} (tile : t < 8) (low : o < 0x80000) : noticeReg (aTile t o) = false := by
  simp only [noticeReg, irqSpace, Bool.or_eq_false_iff, decide_eq_false_iff_not]
  unfold aTile tileBase aOwl
  omega

theorem unitWord_ranges (word : unitWord w = (k, t, c, h, r)) : t < 8 ∧ c < 4 ∧ h < 32 ∧ r < 2 := by
  have ht : w / 2 ^ 13 % 8 = t := congrArg (·.2.1) word
  have hc : w / 2 ^ 11 % 4 = c := congrArg (·.2.2.1) word
  have hh : w / 2 ^ 6 % 32 = h := congrArg (·.2.2.2.1) word
  have hr : w / 2 ^ 5 % 2 = r := congrArg (·.2.2.2.2) word
  omega

theorem retireBit_quiet (word : unitWord w = (k, t, c, h, r)) : noticeReg (retireBit t k c h r).1 = false := by
  obtain ⟨tile, cluster, head, reader⟩ := unitWord_ranges word
  have address : ∃ o, o < 0x80000 ∧ (retireBit t k c h r).1 = aTile t o := by
    unfold retireBit laneOf headIx
    split
    · exact ⟨_, by omega, rfl⟩
    split
    · exact ⟨_, by omega, rfl⟩
    split
    · exact ⟨_, by omega, rfl⟩
    split <;> exact ⟨_, by decide, rfl⟩
  obtain ⟨o, low, eq⟩ := address
  rw [eq]
  exact noticeReg_aTile tile low

theorem handed_unitRetired (word : unitWord w = (k, t, c, h, r)) : unitRetired (handed s) t k c h r = unitRetired s t k c h r :=
  handed_bit _ (retireBit_quiet word)

/-- What a retire word that is accepted does to a unit below a tile (R358). -/
theorem retireOp_unit (good : unitCheck v w = .ok) (word : unitWord w = (k, t, c, h, r)) (below : k < 5) : retireOp v w =
    if unitRetired v t k c h r = true then (v, .ok) else (retire v t k c h r 0x0F, .ok) := by
  have other : k ≠ 5 := by omega
  simp only [retireOp, good, word, other, if_false]

theorem reinstateOp_unit (good : unitCheck v w = .ok) (word : unitWord w = (k, t, c, h, r)) : reinstateOp v w =
    if inMaint v t = true then (reinstate v t k c h r, .ok) else (v, .badField) := by
  simp only [reinstateOp, good, word]

theorem retires (word : unitWord w = (k, t, c, h, r)) (four : param.length = 4) (named : w = beAt param 0 4)
    (ready : opReady s 0x20 tag param) (good : unitCheck s w = .ok) : ∃ u, exec (.retire tag param) s = .next u ∧
      (k < 5 → unitRetired s t k c h r = true → opEnds u 0x20 tag .ok [] ∧ mgmtOnly s u) ∧
      (k < 5 → unitRetired s t k c h r = false →
        u = resetHeads (finishOp (retire (handed s) t k c h r 0x0F) (portOp 0x20 tag param) .ok [])) := by
  have same := handed_unitRetired (s := s) word
  refine ⟨_, exec_unitOp_good isRow_retire ready four named good, fun below retired => ?_, fun below serves => ?_⟩
  · rw [retireOp_unit (handed_unitCheck.trans good) word below, if_pos (same.trans retired)]
    exact handed_answered
  · rw [retireOp_unit (handed_unitCheck.trans good) word below, same, serves, if_neg Bool.false_ne_true]

theorem reinstates (word : unitWord w = (k, t, c, h, r)) (four : param.length = 4) (named : w = beAt param 0 4)
    (ready : opReady s 0x21 tag param) (good : unitCheck s w = .ok) : ∃ u, exec (.reinstate tag param) s = .next u ∧
      (inMaint s t = false → opEnds u 0x21 tag .badField [] ∧ mgmtOnly s u) ∧
      (inMaint s t = true → u = resetHeads (finishOp (reinstate (handed s) t k c h r) (portOp 0x21 tag param) .ok [])) := by
  refine ⟨_, exec_unitOp_good isRow_reinstate ready four named good, fun out => ?_, fun maint => ?_⟩
  · rw [reinstateOp_unit (handed_unitCheck.trans good) word, handed_inMaint, out, if_neg Bool.false_ne_true]
    exact handed_answered
  · rw [reinstateOp_unit (handed_unitCheck.trans good) word, handed_inMaint, if_pos maint]

end

/-! ### KEY_ERASE -/

section
variable {s v : State} {tag a : Nat} {param : Payload}

/-- Every slot is erased and every key zeroed, before the effects on what was latched to a key. -/
def keysErased (s : State) (b : Nat) : State :=
  eraseSlots (zeroKeys (owlHub (alarmLevel (s.setB (aCiph 8) b true)) 0x7001 0 0 (2 ^ b) 0 0))

theorem raiseAlarm_eq (b : Nat) : raiseAlarm s b = eraseEffects (keysErased s b) fun _ => true := rfl

/-- A slot is erased, and holds no key. -/
def slotErased (s : State) (i : Nat) : Prop := (s.slot i).state = 2 ∧ (s.slot i).key = []

/-- Slot `i` is erased (R424). -/
def eraseSlot (s : State) (i : Nat) : State :=
  s.setSlot i { s.slot i with state := 2, key := [], shadow := none, gen := ((s.slot i).gen + 1) % 2 ^ 16 }

theorem eraseSlot_erased {i j : Nat} (or : i = j ∨ slotErased s i) : slotErased (eraseSlot s j) i := by
  unfold slotErased eraseSlot
  by_cases same : i = j
  · rw [same, State.setSlot_slot]
    exact ⟨rfl, rfl⟩
  · rw [State.setSlot_slot_ne _ _ same]
    exact or.resolve_left same

theorem foldl_eraseSlot {i : Nat} (l : List Nat) (s : State) (or : i ∈ l ∨ slotErased s i) :
    slotErased (l.foldl eraseSlot s) i := by
  induction l generalizing s with
  | nil => exact or.resolve_left List.not_mem_nil
  | cons j l ih =>
    rw [List.foldl_cons]
    refine ih _ ?_
    rcases or with mem | erased
    · rcases List.mem_cons.mp mem with same | later
      · exact .inr (eraseSlot_erased (.inl same))
      · exact .inl later
    · exact .inr (eraseSlot_erased (.inr erased))

theorem eraseSlots_eq : eraseSlots s = (List.range 2048).foldl eraseSlot s := rfl

theorem eraseSlots_erased {i : Nat} (range : i < 2048) : slotErased (eraseSlots s) i := by
  rw [eraseSlots_eq]
  exact foldl_eraseSlot _ s (.inl (List.mem_range.mpr range))

/-- Nothing has changed of a state but its key slots, registers of the settings' pages and what notices change. -/
def keysOnly (s u : State) : Prop :=
  u.mgmt = s.mgmt ∧ u.nq = s.nq ∧ ∀ a, a < 0x410000 → noticeReg a = false → u.reg a = s.reg a

theorem keysOnly.refl (s : State) : keysOnly s s := ⟨rfl, rfl, fun _ _ _ => rfl⟩

theorem keysOnly.trans {u : State} (first : keysOnly s u) (second : keysOnly u v) : keysOnly s v :=
  ⟨second.1.trans first.1, second.2.1.trans first.2.1, fun a low quiet => (second.2.2 a low quiet).trans (first.2.2 a low quiet)⟩

theorem keysOnly_eraseSlot (i : Nat) : keysOnly s (eraseSlot s i) := ⟨rfl, rfl, fun _ _ _ => rfl⟩

theorem keysOnly_eraseSlots : keysOnly s (eraseSlots s) := by
  rw [eraseSlots_eq]
  generalize List.range 2048 = l
  exact foldl_related (R := keysOnly) .refl .trans (fun _ i => keysOnly_eraseSlot i) l s

theorem keysOnly_setSkcv (i : Nat) (key : Option Payload) : keysOnly s (setSkcv s i key) :=
  ⟨rfl, rfl, fun a low _ => State.setReg_reg_ne _ _ (by unfold aSett; omega)⟩

theorem keysOnly_zeroKeys : keysOnly s (zeroKeys s) := by
  have erased := foldl_related (R := keysOnly) .refl .trans (fun v i => keysOnly_setSkcv (s := v) i none) (s.slots.map (·.1)) s
  exact erased.trans ⟨rfl, rfl, fun _ _ _ => rfl⟩

theorem keysOnly_notices {u : State} (only : onlyNotices s u) : keysOnly s u :=
  ⟨by rw [only.1], by rw [only.1], fun a _ quiet => only.2.2 a List.not_mem_nil quiet⟩

theorem noticeReg_aCiph : noticeReg (aCiph 8) = false := by decide

/-- HELD follows its conditions and source 56 the register; the alarm's own bit stays. -/
theorem alarmLevel_effect : (alarmLevel s).mgmt = s.mgmt ∧ (alarmLevel s).nq = s.nq ∧
    (∀ a, a ≠ aCiph 8 → noticeReg a = false → (alarmLevel s).reg a = s.reg a) ∧ (alarmLevel s).bit (aCiph 8) 3 = s.bit (aCiph 8) 3 := by
  unfold alarmLevel
  dsimp only
  refine ⟨irqLevel_mgmt _ _ _ _, irqLevel_nq _ _ _ _, fun a other quiet => ?_, ?_⟩
  · rw [irqLevel_reg _ _ _ _ quiet]
    exact State.setReg_reg_ne _ _ other
  · rw [State.bit, irqLevel_reg _ _ _ _ noticeReg_aCiph, State.setB_eq, State.setReg_reg]
    exact setBit_getLsbD_ne _ _ (by decide) (by decide)

theorem keysErased_effect : (keysErased s 3).mgmt = s.mgmt ∧ (keysErased s 3).nq = s.nq ∧
    (∀ a, a < 0x410000 → a ≠ aCiph 8 → noticeReg a = false → (keysErased s 3).reg a = s.reg a) ∧
    (keysErased s 3).bit (aCiph 8) 3 = true ∧ ∀ i, i < 2048 → slotErased (keysErased s 3) i := by
  obtain ⟨mgmt, nq, regs, bit⟩ := alarmLevel_effect (s := s.setB (aCiph 8) 3 true)
  have rest : keysOnly (alarmLevel (s.setB (aCiph 8) 3 true)) (keysErased s 3) :=
    ((keysOnly_notices (owlHub_notices _ _ _ _ _ _)).trans keysOnly_zeroKeys).trans keysOnly_eraseSlots
  obtain ⟨rmgmt, rnq, rregs⟩ := rest
  refine ⟨rmgmt.trans mgmt, rnq.trans nq, fun a low other quiet => ?_, ?_, fun i range => eraseSlots_erased range⟩
  · rw [rregs a low quiet, regs a other quiet]
    exact State.setReg_reg_ne _ _ other
  · rw [State.bit, rregs _ (by decide) noticeReg_aCiph]
    refine bit.trans ?_
    rw [State.bit, State.setB_eq, State.setReg_reg]
    exact setBit_getLsbD_self _ _ (by decide)

theorem cmd_none (none : s.nq.cmds = []) (i : Nat) : s.cmd i = Cmd.none := by
  rw [State.cmd, none]
  rfl

/-- The copies of unwritten lines of the namespaces whose slots satisfy `p` are gone. -/
def copiesForgotten (s : State) (p : Nat → Bool) : State :=
  { s with buf := { s.buf with copies := s.buf.copies.filter fun l => !(p (nsSlot s l.nsid)) } }

theorem copiesForgotten_effect (p : Nat → Bool) : (copiesForgotten s p).mgmt = s.mgmt ∧
    (∀ a i, (copiesForgotten s p).bit a i = s.bit a i) ∧ ∀ i, (copiesForgotten s p).slot i = s.slot i :=
  ⟨rfl, fun _ _ => rfl, fun _ => rfl⟩

/-- Without commands and namespaces an erase meets nothing but the copies of unwritten lines. -/
theorem eraseEffects_empty (cmds : s.nq.cmds = []) (spaces : nsList s = []) (p : Nat → Bool) :
    eraseEffects s p = copiesForgotten s p := by
  have dead (i : Nat) : (s.cmd i).live = false := by rw [cmd_none cmds]; rfl
  have contexts : s.tiles.foldl (fun v t => (openCtxs v t).foldl (fun v e =>
      if (v.cmd e.2.want.req.cmd).live ∧ p (nsSlot s (v.cmd e.2.want.req.cmd).nsid) then dropCtx v t e.1 .key else v) v) s = s := by
    refine List.foldl_fixed' (fun t => ?_) _
    refine List.foldl_fixed' (fun e => ?_) _
    rw [dead]
    exact if_neg fun open_ => Bool.false_ne_true open_.1
  have still : nsList { s with buf := { s.buf with copies := s.buf.copies.filter fun l => !(p (nsSlot s l.nsid)) } } = [] :=
    (nsList_congr fun _ _ _ => rfl).trans spaces
  unfold eraseEffects copiesForgotten
  dsimp only
  rw [contexts, spaces, List.foldl_nil, still, List.foldl_nil]
  simp only [liveCmds, cmds, List.filter_nil, List.foldl_nil]

theorem handed_nsList : nsList (handed s) = nsList s :=
  nsList_congr fun _ low high => handed_reg (noticeReg_aNs low high (by decide))

theorem keysErased_nsList : nsList (keysErased s 3) = nsList s := by
  obtain ⟨-, -, regs, -⟩ := keysErased_effect (s := s)
  refine nsList_congr fun m low high => regs _ ?_ ?_ (noticeReg_aNs low high (by decide))
  · unfold aNs aNq
    omega
  · unfold aNs aNq aCiph
    omega

theorem keyAlarm_awake (boot : 6 ≤ s.power.boot) (awake : s.power.deep = .awake) : keyAlarm s 3 = raiseAlarm s 3 := by
  unfold keyAlarm
  rw [if_neg (by omega), if_neg (by rw [awake]; decide)]

/-- What KEY_ERASE leaves on a device without commands and namespaces. -/
theorem keyAlarm_effect (boot : 6 ≤ s.power.boot) (awake : s.power.deep = .awake) (cmds : s.nq.cmds = []) (spaces : nsList s = []) :
    (keyAlarm s 3).mgmt = s.mgmt ∧ (keyAlarm s 3).bit (aCiph 8) 3 = true ∧ ∀ i, i < 2048 → slotErased (keyAlarm s 3) i := by
  obtain ⟨mgmt, nq, -, bit, slots⟩ := keysErased_effect (s := s)
  obtain ⟨fmgmt, fbit, fslot⟩ := copiesForgotten_effect (s := keysErased s 3) fun _ => true
  rw [keyAlarm_awake boot awake, raiseAlarm_eq,
    eraseEffects_empty (by rw [nq, cmds]) (keysErased_nsList.trans spaces)]
  refine ⟨fmgmt.trans mgmt, (fbit _ _).trans bit, fun i range => ?_⟩
  rw [slotErased, fslot]
  exact slots i range

theorem keyEraseOp_good {op : Nat} (free : v.mgmt.long = none) (four : param.length = 4) :
    keyEraseOp v (portOp op tag param) = if beAt param 0 4 = 0x45524153
      then finishOp (keyAlarm v 3) (portOp op tag param) .ok []
      else finishOp v (portOp op tag param) .badField [] := by
  refine (checkedOp_free free rfl).trans ?_
  have length : ¬ decide ((portOp op tag param).param.length ≠ 4) = true := by
    rw [show (portOp op tag param).param = param from rfl, four]
    decide
  rw [if_neg length, if_neg (show ¬ tileAbsent v none = true from Bool.false_ne_true)]
  by_cases word : beAt param 0 4 = 0x45524153
  · rw [if_pos word]
    exact if_neg fun bad => (of_decide_eq_true bad : beAt param 0 4 ≠ 0x45524153) word
  · rw [if_neg word]
    exact if_pos (decide_eq_true word)

theorem keyErases (ready : opReady s 0x24 tag param) (four : param.length = 4) :
    ∃ u, exec (.keyErase tag param) s = .next u ∧
      (beAt param 0 4 ≠ 0x45524153 → opEnds u 0x24 tag .badField [] ∧ mgmtOnly s u) ∧
      (beAt param 0 4 = 0x45524153 → s.nq.cmds = [] → nsList s = [] → opEnds u 0x24 tag .ok [] ∧ u.bit (aCiph 8) 3 = true ∧
        ∀ i, i < 2048 → (u.slot i).state = 2 ∧ (u.slot i).key = []) := by
  refine ⟨_, exec_isRow_ready isRow_keyErase ready, fun word => ?_, fun word cmds spaces => ?_⟩
  · rw [keyEraseOp_good (handed_long ready) four, if_neg word]
    exact handed_answered
  · have boot : 6 ≤ (handed s).power.boot := by rw [handed_power]; exact ready.2.2.1
    have awake : (handed s).power.deep = .awake := by rw [handed_power]; exact ready.2.2.2.1
    obtain ⟨mgmt, bit, slots⟩ := keyAlarm_effect boot awake (by rw [handed_nq, cmds]) (handed_nsList.trans spaces)
    rw [keyEraseOp_good (handed_long ready) four, if_pos word, resetHeads_finishOp (by rw [mgmt, handed_idle])]
    refine ⟨finishOp_opEnds, ?_, fun i range => ?_⟩
    · rw [State.bit, finishOp_reg (by decide)]
      exact bit
    · have slot : (finishOp (keyAlarm (handed s) 3) (portOp 0x24 tag param) .ok []).slot i = (keyAlarm (handed s) 3).slot i := by
        rw [finishOp_port, lastOpNoted_frame]
        rfl
      rw [slot]
      exact slots i range

end

end Sys2Proof.Machine
end

section
/-! SUPPORT. O55: MAINT and POWER (R461, R497). -/

namespace Sys2Proof.Machine

/-! ### What settling changes before the operation in progress goes on -/

/-- Nothing has changed but registers of power, the boot step, the tiles' ways and bring-ins; none has begun. -/
structure Upkept (s u : State) : Prop where
  mgmt : u.mgmt = s.mgmt
  tl : u.tl = s.tl
  buf : u.buf = s.buf
  regs : ∀ a, a ≠ aPwr 0 → u.reg a = s.reg a
  bring : ∀ t, bringOf s t = 0 → bringOf u t = 0

section
variable {s u v : State} {t : Nat}

theorem Upkept.refl (s : State) : Upkept s s := ⟨rfl, rfl, rfl, fun _ _ => rfl, fun _ => id⟩

theorem Upkept.trans (first : Upkept s u) (second : Upkept u v) : Upkept s v :=
  ⟨second.mgmt.trans first.mgmt, second.tl.trans first.tl, second.buf.trans first.buf,
    fun a other => (second.regs a other).trans (first.regs a other), fun t none => second.bring t (first.bring t none)⟩

theorem upkept_setGoal (g : Option Nat) : Upkept s (setGoal s t g) := ⟨rfl, rfl, rfl, fun _ _ => rfl, fun _ => id⟩

theorem upkept_setBring : Upkept s (setBring s t 0) := by
  refine ⟨rfl, rfl, rfl, fun _ _ => rfl, fun k none => ?_⟩
  unfold bringOf setBring at *
  show Tab.at 0 (Tab.to 0 s.power.bring t 0) k = 0
  by_cases same : k = t
  · rw [same]
    exact Tab.at_to_self _ _ _ _
  · exact (Tab.at_to_ne _ _ _ same).trans none

theorem upkept_dropRetired : Upkept s (dropRetired s t) := by
  unfold dropRetired
  split
  · exact upkept_setBring.trans (upkept_setGoal none)
  · split
    · exact upkept_setGoal none
    · exact .refl s

theorem upkept_bootEnd : Upkept s (bootEnd s) := by
  unfold bootEnd
  dsimp only
  split
  · refine ⟨rfl, rfl, rfl, fun a other => ?_, fun _ => id⟩
    exact State.setReg_reg_ne s (setFld (s.reg (aPwr 0)) 18 16 (s.fld (aPwr 4) 27 24)) other
  · exact .refl s

/-- Retired tiles are dropped and boot may end. -/
def upkeep (s : State) : State := bootEnd (s.tiles.foldl dropRetired s)

theorem upkeep_upkept : Upkept s (upkeep s) := by
  have dropped (l : List Nat) : Upkept s (l.foldl dropRetired s) :=
    foldl_related (R := Upkept) .refl .trans (fun _ _ => upkept_dropRetired) l s
  exact (dropped s.tiles).trans upkept_bootEnd

theorem settle_long {l : Long} (noAccs : s.mgmt.accs = []) (long : s.mgmt.long = some l) : settle s =
    if l.op.opcode = 0x26 then powerPump (upkeep s) l.op
    else if l.op.opcode = 0x22 then maintPump (upkeep s) l.op else upkeep s := by
  have effect := upkeep_upkept (s := s)
  have still : (upkeep s).mgmt.accs = [] := by rw [effect.mgmt, noAccs]
  unfold settle
  rw [show bootEnd (s.tiles.foldl dropRetired s) = upkeep s from rfl, serveAccs_none still]
  simp only [effect.mgmt, long]

theorem settle_maint {m : MgOp} {g : Option FlashOp} (noAccs : s.mgmt.accs = []) (long : s.mgmt.long = some ⟨m, g⟩)
    (op : m.opcode = 0x22) : settle s = maintPump (upkeep s) m := by
  rw [settle_long noAccs long, op, if_neg (by decide), if_pos rfl]

theorem settle_power {m : MgOp} {g : Option FlashOp} (noAccs : s.mgmt.accs = []) (long : s.mgmt.long = some ⟨m, g⟩)
    (op : m.opcode = 0x26) : settle s = powerPump (upkeep s) m := by
  rw [settle_long noAccs long, op, if_pos rfl]

end

/-! ### MAINT -/

section
variable {s u v : State} {t tag : Nat} {param : Payload} {m : MgOp}

theorem finishLong_eq {g : Option FlashOp} {st : Status} {data : Payload} (long : s.mgmt.long = some ⟨m, g⟩) :
    finishLong s st data = finishOp { s with mgmt := { s.mgmt with long := none } } m st data := by
  simp only [finishLong, long]

/-- The long operation in progress ends with its reply, and registers stay. -/
theorem finishLong_effect {op : Nat} {st : Status} {data : Payload} {g : Option FlashOp}
    (long : s.mgmt.long = some ⟨portOp op tag param, g⟩) (idle : s.mgmt.waiting = []) :
    opEnds (resetHeads (finishLong s st data)) op tag st data ∧ (resetHeads (finishLong s st data)).mgmt.long = none ∧
      (∀ a, a ≠ aMgt 0x1C → (resetHeads (finishLong s st data)).reg a = s.reg a) ∧
      (resetHeads (finishLong s st data)).tl = s.tl := by
  have still : ({ s with mgmt := { s.mgmt with long := none } } : State).mgmt.waiting = [] := idle
  rw [finishLong_eq long, resetHeads_finishOp still]
  refine ⟨finishOp_opEnds, by rw [finishOp_mgmt], fun a other => finishOp_reg other, ?_⟩
  rw [finishOp_port, lastOpNoted_frame]

theorem tileQuiet_congr (tl : u.tl = s.tl) (buf : u.buf = s.buf) : tileQuiet u t = tileQuiet s t := by
  have det : u.det t = s.det t := by rw [State.det, tl, State.det]
  have wr : u.wr t = s.wr t := by rw [State.wr, tl, State.wr]
  have ctxs : openCtxs u t = openCtxs s t := by rw [openCtxs, tl, openCtxs]
  unfold tileQuiet
  rw [det, wr, ctxs, tl, buf]

/-- What the checks of an operation on tile `t` leave. -/
theorem checkedOp_tile {badLen badFld : Bool} {f : State} (free : v.mgmt.long = none) (zero : m.rsv = 0)
    (length : badLen = false) (field : badFld = false) : checkedOp v m badLen badFld (some t) f =
      if v.hasTile t = false then finishOp v m .domainOff [] else f := by
  rw [checkedOp_free free zero, length, field, tileAbsent_some]
  simp only [Bool.false_eq_true, if_false, Bool.not_eq_true']

/-- MAINT with ON begins, and the tile's channels are closed (R461). -/
def maintClosed (s : State) (m : MgOp) (t : Nat) : State :=
  let u := (beginLong s m none).setB (aMgt 0x20) t true
  if u.linkUp t then setLinkState u t 2 else u

theorem maintOp_checked {op : Nat} (free : v.mgmt.long = none) (four : param.length = 4) (seven : beAt param 0 1 ≤ 7)
    (one : beAt param 1 1 ≤ 1) (zero : beAt param 2 2 = 0) : maintOp v (portOp op tag param) =
      if v.hasTile (beAt param 0 1) = false then finishOp v (portOp op tag param) .domainOff []
      else if inMaint v (beAt param 0 1) = decide (beAt param 1 1 = 1) then finishOp v (portOp op tag param) .ok []
      else settle (if decide (beAt param 1 1 = 1) = true then maintClosed v (portOp op tag param) (beAt param 0 1)
        else leaveMaint (beginLong v (portOp op tag param) none) (beAt param 0 1)) := by
  refine checkedOp_tile free rfl ?_ ?_
  · rw [show (portOp op tag param).param = param from rfl, four]
    rfl
  · rw [show (portOp op tag param).param = param from rfl, decide_eq_false (not_lt.mpr seven), decide_eq_false (not_lt.mpr one), zeroAt]
    exact congrArg (!·) (decide_eq_true zero)

theorem setLinkState_mgmt (n : Nat) : (setLinkState s t n).mgmt = s.mgmt := by
  rw [setLinkState_frame.1]

theorem setLinkState_tl (n : Nat) : (setLinkState s t n).tl = s.tl := by
  rw [setLinkState_frame.1]

theorem setLinkState_buf (n : Nat) : (setLinkState s t n).buf = s.buf := by
  rw [setLinkState_frame.1]

theorem maintBit_ne (tile : t < 8) : aMgt 0x20 ∉ [aLink t, aTile t 0x10] := by
  simp only [List.mem_cons, List.not_mem_nil, or_false, not_or]
  unfold aMgt aLink aHub aTile tileBase
  omega

theorem maintClosed_effect (tile : t < 8) : (maintClosed s m t).mgmt = { s.mgmt with long := some ⟨m, none⟩ } ∧
    (maintClosed s m t).tl = s.tl ∧ (maintClosed s m t).buf = s.buf ∧ (maintClosed s m t).bit (aMgt 0x20) t = true := by
  have closed : ((beginLong s m none).setB (aMgt 0x20) t true).bit (aMgt 0x20) t = true := by
    rw [State.bit, State.setB_eq, State.setReg_reg]
    exact setBit_getLsbD_self _ _ (by omega)
  unfold maintClosed
  dsimp only
  split
  · refine ⟨setLinkState_mgmt 2, setLinkState_tl 2, setLinkState_buf 2, ?_⟩
    rw [State.bit, setLinkState_frame.2.2 _ (maintBit_ne tile) (noticeReg_aMgt (by decide))]
    exact closed
  · exact ⟨rfl, rfl, rfl, closed⟩

/-- Entering: closed, the tile is in maintenance at once where it is quiet, and else once it is. -/
theorem maint_enters {op : Nat} (code : op = 0x22) (idle : v.mgmt.waiting = []) (noAccs : v.mgmt.accs = []) (tile : t < 8)
    (named : t = beAt param 0 1) (on : beAt param 1 1 = 1) :
    (resetHeads (settle (maintClosed v (portOp op tag param) t))).bit (aMgt 0x20) t = true ∧
      (tileQuiet v t = true → opEnds (resetHeads (settle (maintClosed v (portOp op tag param) t))) op tag .ok []) ∧
      (tileQuiet v t = false → (resetHeads (settle (maintClosed v (portOp op tag param) t))).mgmt.long =
        some ⟨portOp op tag param, none⟩) := by
  obtain ⟨mgmt, tl, buf, bit⟩ := maintClosed_effect (s := v) (m := portOp op tag param) tile
  have long : (maintClosed v (portOp op tag param) t).mgmt.long = some ⟨portOp op tag param, none⟩ := by rw [mgmt]
  have kept := upkeep_upkept (s := maintClosed v (portOp op tag param) t)
  rw [settle_maint (by rw [mgmt, noAccs]) long code]
  generalize maintClosed v (portOp op tag param) t = c at *
  generalize upkeep c = u at *
  have quiet : tileQuiet u t = tileQuiet v t := tileQuiet_congr (kept.tl.trans tl) (kept.buf.trans buf)
  have still : u.mgmt.waiting = [] := by rw [kept.mgmt, mgmt, idle]
  have now : u.mgmt.long = some ⟨portOp op tag param, none⟩ := by rw [kept.mgmt, long]
  have closed : u.bit (aMgt 0x20) t = true := by
    rw [State.bit, kept.regs _ (by decide)]
    exact bit
  have pump : maintPump u (portOp op tag param) = if tileQuiet v t = true then finishLong u .ok [] else u := by
    rw [← quiet, named]
    exact if_pos on
  obtain ⟨ends, -, regs, -⟩ := finishLong_effect (st := .ok) (data := []) now still
  rw [pump]
  cases tileQuiet v t
  · rw [if_neg Bool.false_ne_true, resetHeads_none still]
    exact ⟨closed, nofun, fun _ => now⟩
  · rw [if_pos rfl]
    refine ⟨?_, fun _ => ends, nofun⟩
    rw [State.bit, regs _ (by decide)]
    exact closed

/-- Leaving where the tile is off: the mark is gone, and nothing is to be brought in. -/
theorem leaveMaint_off (off : s.domOn (domMo t) = false) : leaveMaint s t = s.setB (aMgt 0x20) t false := by
  have still : (s.setB (aMgt 0x20) t false).domOn (domMo t) = false := by
    rw [State.domOn, State.bit, State.setB_eq, State.setReg_reg_ne _ _ (by decide)]
    exact off
  exact if_pos (.inl (by rw [still]; rfl))

theorem maint_leaves {op : Nat} (code : op = 0x22) (idle : v.mgmt.waiting = []) (noAccs : v.mgmt.accs = []) (tile : t < 8)
    (named : t = beAt param 0 1) (on : beAt param 1 1 = 0) (off : v.domOn (domMo t) = false) (bring : Tab.at 0 v.power.bring t = 0) :
    (resetHeads (settle (leaveMaint (beginLong v (portOp op tag param) none) t))).bit (aMgt 0x20) t = false ∧
      opEnds (resetHeads (settle (leaveMaint (beginLong v (portOp op tag param) none) t))) op tag .ok [] := by
  have left : leaveMaint (beginLong v (portOp op tag param) none) t =
      (beginLong v (portOp op tag param) none).setB (aMgt 0x20) t false := leaveMaint_off off
  have kept := upkeep_upkept (s := (beginLong v (portOp op tag param) none).setB (aMgt 0x20) t false)
  have open_ : ((beginLong v (portOp op tag param) none).setB (aMgt 0x20) t false).bit (aMgt 0x20) t = false := by
    rw [State.bit, State.setB_eq, State.setReg_reg]
    exact setBit_getLsbD_self _ _ (by omega)
  have mgmt : ((beginLong v (portOp op tag param) none).setB (aMgt 0x20) t false).mgmt =
    { v.mgmt with long := some ⟨portOp op tag param, none⟩ } := rfl
  have power : bringOf ((beginLong v (portOp op tag param) none).setB (aMgt 0x20) t false) t = 0 := bring
  rw [left, settle_maint (by rw [mgmt, noAccs]) (by rw [mgmt]) code]
  generalize (beginLong v (portOp op tag param) none).setB (aMgt 0x20) t false = c at *
  have still : (upkeep c).mgmt.waiting = [] := by rw [kept.mgmt, mgmt, idle]
  have now : (upkeep c).mgmt.long = some ⟨portOp op tag param, none⟩ := by rw [kept.mgmt, mgmt]
  have pump : maintPump (upkeep c) (portOp op tag param) = finishLong (upkeep c) .ok [] := by
    refine (if_neg (show ¬ beAt param 1 1 = 1 by omega)).trans (if_pos ?_)
    show bringOf (upkeep c) (beAt param 0 1) = 0
    rw [← named]
    exact kept.bring t power
  obtain ⟨ends, -, regs, -⟩ := finishLong_effect (st := .ok) (data := []) now still
  rw [pump]
  refine ⟨?_, ends⟩
  rw [State.bit, regs _ (by decide), kept.regs _ (by decide)]
  exact open_

theorem maintEnters (named : t = beAt param 0 1) (four : param.length = 4) (seven : t ≤ 7) (zero : beAt param 2 2 = 0)
    (noAccs : s.mgmt.accs = []) (ready : opReady s 0x22 tag param) (on : beAt param 1 1 = 1) :
    ∃ u, exec (.maintEnter tag param) s = .next u ∧ (s.hasTile t = false → opEnds u 0x22 tag .domainOff []) ∧
      (s.hasTile t = true → u.bit (aMgt 0x20) t = true ∧
        ((inMaint s t = true ∨ tileQuiet s t = true) → opEnds u 0x22 tag .ok []) ∧
        (inMaint s t = false → tileQuiet s t = false → u.mgmt.long = some ⟨portOp 0x22 tag param, none⟩)) := by
  have checked := maintOp_checked (op := 0x22) (tag := tag) (handed_long ready) four (named ▸ seven) (by omega) zero
  rw [← named, handed_hasTile, handed_inMaint, decide_eq_true on, if_pos rfl] at checked
  have quiet : tileQuiet (handed s) t = tileQuiet s t := tileQuiet_congr handed_tl handed_buf
  refine ⟨_, exec_isRow_ready (isRow_maintEnter (by omega)) ready, fun absent => ?_, fun tile => ?_⟩
  · rw [checked, if_pos absent]
    exact handed_answered.1
  · rw [checked, if_neg (by rw [tile]; decide)]
    cases maint : inMaint s t
    · rw [if_neg Bool.false_ne_true]
      obtain ⟨bit, ends, waits⟩ := maint_enters (v := handed s) (tag := tag) (op := 0x22) rfl handed_idle
        (by rw [handed_mgmt]; exact noAccs) (hasTile_lt tile) named on
      rw [quiet] at ends waits
      exact ⟨bit, fun or => ends (or.resolve_left nofun), fun _ => waits⟩
    · rw [if_pos rfl]
      refine ⟨?_, fun _ => handed_answered.1, nofun⟩
      rw [resetHeads_finishOp handed_idle, State.bit, finishOp_reg (by decide)]
      exact handed_inMaint.trans maint

theorem maintLeaves (named : t = beAt param 0 1) (four : param.length = 4) (seven : t ≤ 7) (zero : beAt param 2 2 = 0)
    (noAccs : s.mgmt.accs = []) (ready : opReady s 0x22 tag param) (on : beAt param 1 1 = 0) (tile : s.hasTile t = true)
    (out : inMaint s t = false ∨ s.domOn (domMo t) = false ∧ Tab.at 0 s.power.bring t = 0) :
    ∃ u, exec (.maintLeave tag param) s = .next u ∧ u.bit (aMgt 0x20) t = false ∧ opEnds u 0x22 tag .ok [] := by
  have checked := maintOp_checked (op := 0x22) (tag := tag) (handed_long ready) four (named ▸ seven) (by omega) zero
  rw [← named, handed_hasTile, handed_inMaint, tile, if_neg (by decide), decide_eq_false (by omega),
    if_neg Bool.false_ne_true] at checked
  refine ⟨_, exec_isRow_ready (isRow_maintLeave on) ready, ?_⟩
  rw [checked]
  cases maint : inMaint s t
  · rw [if_pos rfl]
    refine ⟨?_, handed_answered.1⟩
    rw [resetHeads_finishOp handed_idle, State.bit, finishOp_reg (by decide)]
    exact handed_inMaint.trans maint
  · rw [if_neg (by decide)]
    obtain ⟨off, bring⟩ := out.resolve_left (by rw [maint]; nofun)
    exact maint_leaves rfl handed_idle (by rw [handed_mgmt]; exact noAccs) (hasTile_lt tile) named on
      ((handed_domOn _).trans off) (by rw [handed_power]; exact bring)

end

/-! ### POWER -/

section
variable {s v u : State} {g b tag : Nat} {param : Payload} {m : MgOp}

/-- The targets of the tiles that a POWER operation names are set, and it begins (R497). -/
def powerBegun (s : State) (m : MgOp) (b g : Nat) : State := beginLong (s.setF (aPwr 0x40) (4 * b + 3) (4 * b) g) m none

theorem namedTiles_one (one : b ≤ 7) : namedTiles s b = [b] := if_neg (by omega)

theorem powerOp_checked {op : Nat} (free : v.mgmt.long = none) (four : param.length = 4) (goal : g = beAt param 0 1)
    (tile : b = beAt param 1 1) (three : g ≤ 3) (seven : b ≤ 7) (zero : beAt param 2 2 = 0) :
    powerOp v (portOp op tag param) =
      if v.hasTile b = false then finishOp v (portOp op tag param) .domainOff []
      else if tileTarget v b = g ∧ pwrTile v b = g ∧ moving v b = false then finishOp v (portOp op tag param) .ok []
      else settle (powerBegun v (portOp op tag param) b g) := by
  subst goal tile
  have one : ¬ beAt (portOp op tag param).param 1 1 = 0xFF := by
    show ¬ beAt param 1 1 = 0xFF
    omega
  have field : (decide (4 < beAt param 0 1) || (decide (7 < beAt param 1 1) && decide (beAt param 1 1 ≠ 0xFF)) ||
      (decide (beAt param 0 1 = 4) && decide (beAt param 1 1 ≠ 0xFF)) || !(zeroAt (portOp op tag param) 2 2)) = false := by
    rw [decide_eq_false (by omega), decide_eq_false (not_lt.mpr seven), decide_eq_false (show ¬ beAt param 0 1 = 4 by omega), zeroAt,
      show (portOp op tag param).param = param from rfl, decide_eq_true zero]
    rfl
  unfold powerOp
  dsimp only
  rw [if_neg one, show (portOp op tag param).param = param from rfl, namedTiles_one seven,
    checkedOp_tile free rfl (by rw [four]; rfl) field]
  refine if_congr Iff.rfl rfl (if_congr ?_ rfl rfl)
  simp only [List.all_cons, List.all_nil, Bool.and_true, Bool.and_eq_true, decide_eq_true_eq, Bool.not_eq_true']
  exact ⟨fun all => ⟨all.2.1.1, all.2.1.2, all.2.2⟩, fun all => ⟨by omega, ⟨all.1, all.2.1⟩, all.2.2⟩⟩

theorem noticeReg_targets : noticeReg (aPwr 0x40) = false := noticeReg_aPwr (by decide)

/-- A change of power state that has ended leaves the targets and the management side. -/
theorem powerEnded_effect : (powerEnded s g).mgmt = s.mgmt ∧ (powerEnded s g).reg (aPwr 0x40) = s.reg (aPwr 0x40) := by
  unfold powerEnded
  refine ⟨by rw [owlHub_mgmt, irqEdge_mgmt]; rfl, ?_⟩
  rw [owlHub_reg _ _ _ _ _ _ noticeReg_targets, irqEdge_reg _ _ noticeReg_targets]
  exact State.setReg_reg_ne s _ (by decide)

/-- Tiles that stand still set out. -/
theorem setOut_effect {n : Nat} (l : List Nat) :
    (l.foldl (fun s t => if reached s t n || moving s t then s else setGoal s t (some n)) s).mgmt = s.mgmt ∧
      ∀ a, (l.foldl (fun s t => if reached s t n || moving s t then s else setGoal s t (some n)) s).reg a = s.reg a := by
  refine foldl_related (R := fun s u => u.mgmt = s.mgmt ∧ ∀ a, u.reg a = s.reg a) (fun _ => ⟨rfl, fun _ => rfl⟩)
    (fun first second => ⟨second.1.trans first.1, fun a => (second.2 a).trans (first.2 a)⟩) (fun v t => ?_) l s
  split
  · exact ⟨rfl, fun _ => rfl⟩
  · exact ⟨rfl, fun _ => rfl⟩

/-- A POWER operation that goes on, or ends, leaves the targets. -/
theorem powerPump_target {op : Nat} (long : s.mgmt.long = some ⟨portOp op tag param, none⟩) (idle : s.mgmt.waiting = [])
    (three : beAt param 0 1 ≤ 3) :
    (resetHeads (powerPump s (portOp op tag param))).reg (aPwr 0x40) = s.reg (aPwr 0x40) := by
  obtain ⟨mgmt, regs⟩ := setOut_effect (s := s) (n := min (beAt param 0 1) 3) (namedTiles s (beAt param 1 1))
  unfold powerPump
  dsimp only [portOp]
  generalize (namedTiles s (beAt param 1 1)).foldl (fun s t => if reached s t (min (beAt param 0 1) 3) || moving s t then s
    else setGoal s t (some (min (beAt param 0 1) 3))) s = w at *
  split
  · rw [resetHeads_none (by rw [mgmt, idle])]
    exact regs _
  rw [if_pos (by omega)]
  obtain ⟨emgmt, ereg⟩ := powerEnded_effect (s := w) (g := beAt param 0 1)
  obtain ⟨-, -, fregs, -⟩ := finishLong_effect (s := powerEnded w (beAt param 0 1)) (st := .ok) (data := [])
    (by rw [emgmt, mgmt]; exact long) (by rw [emgmt, mgmt, idle])
  rw [fregs _ (by decide), ereg, regs]

theorem powerBegun_target (three : g ≤ 3) (seven : b ≤ 7) : tileTarget (powerBegun s m b g) b = g := by
  show Sys2Proof.fld ((s.setF (aPwr 0x40) (4 * b + 3) (4 * b) g).reg (aPwr 0x40)) (4 * b + 3) (4 * b) = g
  rw [State.setF_eq, State.setReg_reg, fld_setFld_self _ _ (by omega), show 4 * b + 3 + 1 - 4 * b = 4 by omega]
  exact Nat.mod_eq_of_lt (by omega)

theorem tileTarget_congr (reg : u.reg (aPwr 0x40) = s.reg (aPwr 0x40)) : tileTarget u b = tileTarget s b :=
  congrArg (Sys2Proof.fld · (4 * b + 3) (4 * b)) reg

theorem power_begins {op : Nat} (code : op = 0x26) (idle : v.mgmt.waiting = []) (noAccs : v.mgmt.accs = [])
    (goal : g = beAt param 0 1) (three : g ≤ 3) (seven : b ≤ 7) :
    tileTarget (resetHeads (settle (powerBegun v (portOp op tag param) b g))) b = g := by
  have mgmt : (powerBegun v (portOp op tag param) b g).mgmt = { v.mgmt with long := some ⟨portOp op tag param, none⟩ } := rfl
  have target := powerBegun_target (s := v) (m := portOp op tag param) three seven
  rw [settle_power (by rw [mgmt, noAccs]) (by rw [mgmt]) code]
  generalize powerBegun v (portOp op tag param) b g = c at *
  have kept := upkeep_upkept (s := c)
  refine Eq.trans (tileTarget_congr ?_) target
  rw [powerPump_target (by rw [kept.mgmt, mgmt]) (by rw [kept.mgmt, mgmt, idle]) (goal ▸ three)]
  exact kept.regs _ (by decide)

theorem handed_pwrTile : pwrTile (handed s) b = pwrTile s b := handed_fld _ _ (noticeReg_aPwr (by decide))

theorem handed_tileTarget : tileTarget (handed s) b = tileTarget s b := tileTarget_congr (handed_reg noticeReg_targets)

theorem handed_moving : moving (handed s) b = moving s b := by rw [moving, handed_power, moving]

theorem powerFares (goal : g = beAt param 0 1) (named : b = beAt param 1 1) (ready : opReady s 0x26 tag param)
    (four : param.length = 4) (three : g ≤ 3) (seven : b ≤ 7) (zero : beAt param 2 2 = 0) (noAccs : s.mgmt.accs = []) :
    ∃ u, exec (.power tag param) s = .next u ∧ (s.hasTile b = false → opEnds u 0x26 tag .domainOff []) ∧
      (s.hasTile b = true → tileTarget u b = g ∧ (tileTarget s b = g → pwrTile s b = g → moving s b = false →
        opEnds u 0x26 tag .ok [] ∧ mgmtOnly s u)) := by
  have checked := powerOp_checked (op := 0x26) (tag := tag) (handed_long ready) four goal named three seven zero
  rw [handed_hasTile, handed_tileTarget, handed_pwrTile, handed_moving] at checked
  refine ⟨_, exec_isRow_ready isRow_power ready, fun absent => ?_, fun tile => ?_⟩
  · rw [checked, if_pos absent]
    exact handed_answered.1
  · rw [checked, if_neg (by rw [tile]; decide)]
    by_cases there : tileTarget s b = g ∧ pwrTile s b = g ∧ moving s b = false
    · rw [if_pos there]
      refine ⟨?_, fun _ _ _ => handed_answered⟩
      rw [resetHeads_finishOp handed_idle, tileTarget_congr (finishOp_reg (by decide)), handed_tileTarget]
      exact there.1
    · rw [if_neg there]
      refine ⟨power_begins rfl handed_idle (by rw [handed_mgmt]; exact noAccs) goal three seven, fun target state still => ?_⟩
      exact absurd ⟨target, state, still⟩ there

end

end Sys2Proof.Machine
end

section
/-! SUPPORT. O55: CALIB (R158, R159, R462). -/

namespace Sys2Proof.Machine

/-! ### What calibrations in progress leave of a state -/

/-- The calibrations of the clusters may have changed; the rest of the tiles' blocks, and every register that notices
do not change, are as before. -/
structure CalibOnly (s u : State) : Prop where
  tl : u.tl = { s.tl with calib := u.tl.calib }
  reg : ∀ a, noticeReg a = false → u.reg a = s.reg a

section
variable {s u v : State} {t c h k b o : Nat}

theorem CalibOnly.refl (s : State) : CalibOnly s s := ⟨rfl, fun _ _ => rfl⟩

theorem CalibOnly.trans (first : CalibOnly s u) (second : CalibOnly u v) : CalibOnly s v :=
  ⟨by rw [second.tl, first.tl], fun a quiet => (second.reg a quiet).trans (first.reg a quiet)⟩

theorem calibOnly_setCalJob (j : CalJob) : CalibOnly s (setCalJob s t c j) := ⟨rfl, fun _ _ => rfl⟩

theorem CalibOnly.bit (only : CalibOnly s u) {a : Nat} (i : Nat) (quiet : noticeReg a = false) : u.bit a i = s.bit a i :=
  congrArg (·.getLsbD i) (only.reg a quiet)

theorem CalibOnly.fld (only : CalibOnly s u) {a : Nat} (hi lo : Nat) (quiet : noticeReg a = false) : u.fld a hi lo = s.fld a hi lo :=
  congrArg (Sys2Proof.fld · hi lo) (only.reg a quiet)

theorem noticeReg_tile (tile : t < 8) (range : o < 0x80000 ∨ 0x100000 ≤ o ∧ o < 0x1000000) : noticeReg (tileBase t + o) = false := by
  simp only [noticeReg, irqSpace, Bool.or_eq_false_iff, decide_eq_false_iff_not]
  unfold tileBase aOwl
  omega

theorem noticeReg_aWrtC (tile : t < 8) (cluster : c < 4) (range : o < 0x10000) : noticeReg (aWrtC t c o) = false := by
  rw [show aWrtC t c o = tileBase t + (0x310000 + c * 0x10000 + o) by unfold aWrtC; omega]
  exact noticeReg_tile tile (by omega)

theorem noticeReg_aCtl (tile : t < 8) (cluster : c < 4) (range : o < 0x10000) : noticeReg (aCtl t c o) = false := by
  rw [show aCtl t c o = tileBase t + (0x400000 + c * 0x40000 + 0x20000 + o) by unfold aCtl; omega]
  exact noticeReg_tile tile (by omega)

theorem noticeReg_aSpn (tile : t < 8) (range : o < 0x10000) : noticeReg (aSpn t o) = false := by
  rw [show aSpn t o = tileBase t + (0x500000 + o) by unfold aSpn; omega]
  exact noticeReg_tile tile (by omega)

theorem noticeReg_aMir (tile : t < 8) (range : k < 16) : noticeReg (aMir t k) = false :=
  noticeReg_hub (by unfold aMir aHub; omega) (by unfold aMir aHub; omega)

/-- What a calibration reads of a tile. -/
theorem CalibOnly.tCluster (only : CalibOnly s u) (tile : t < 8) : tCluster u t c = Machine.tCluster s t c :=
  only.bit c (noticeReg_aTile tile (by decide))

theorem CalibOnly.ctlMode (only : CalibOnly s u) (tile : t < 8) (cluster : c < 4) : ctlMode u t c = Machine.ctlMode s t c :=
  only.fld 3 0 (noticeReg_aCtl tile cluster (by decide))

theorem CalibOnly.calTrack (only : CalibOnly s u) (tile : t < 8) (b k : Nat) : calTrack u t b k = Machine.calTrack s t b k := by
  have trk : fmtTrk u t = fmtTrk s t := only.fld 23 0 (noticeReg_aTile tile (by decide))
  have rsv : fmtRsv u t = fmtRsv s t := only.fld 7 0 (noticeReg_aTile tile (by decide))
  unfold Machine.calTrack dataTracks
  rw [trk, rsv]

theorem CalibOnly.calHead (only : CalibOnly s u) (tile : t < 8) (cluster : c < 4) (head : h < 24) :
    calHead u t c h = Machine.calHead s t c h := by
  have index : headIx c h / 32 < 4 := by unfold headIx; omega
  have own : tHead u t (headIx c h) = tHead s t (headIx c h) := only.bit _ (noticeReg_aTile tile (by omega))
  have writer : tWriter u t (headIx c h) = tWriter s t (headIx c h) := only.bit _ (noticeReg_aTile tile (by omega))
  have whole : tTile u t = tTile s t := only.bit 8 (noticeReg_aTile tile (by decide))
  have gap : u.fld (aWrtC t c (0x104 + 16 * h)) 23 17 = s.fld (aWrtC t c (0x104 + 16 * h)) 23 17 :=
    only.fld 23 17 (noticeReg_aWrtC tile cluster (by omega))
  have fault : u.bit (aWrtC t c (0x10C + 16 * h)) 0 = s.bit (aWrtC t c (0x10C + 16 * h)) 0 :=
    only.bit 0 (noticeReg_aWrtC tile cluster (by omega))
  unfold Machine.calHead headDead
  rw [own, writer, whole, gap, fault, only.tCluster tile]

theorem CalibOnly.clusterIdle (only : CalibOnly s u) : clusterIdle u t c = Machine.clusterIdle s t c := by
  have queue : u.wrQ t c = s.wrQ t c := by rw [State.wrQ, only.tl, State.wrQ]
  have wr : u.wr t = s.wr t := by rw [State.wr, only.tl, State.wr]
  have headW (i : Nat) : u.headW i = s.headW i := by rw [State.headW, only.tl, State.headW]
  have head (i : Nat) : u.head i = s.head i := by rw [State.head, only.tl, State.head]
  unfold Machine.clusterIdle
  rw [queue, wr]
  simp only [headW, head]

/-- HGAP of every head of a tile, as CALIB replies it. -/
def hgapWords (s : State) (t : Nat) : Payload :=
  (List.range 4).flatMap fun k => (List.range 24).flatMap fun h => wordBytes (s.reg (aWrtC t k (0x100 + 16 * h)))

theorem CalibOnly.hgapWords (only : CalibOnly s u) (tile : t < 8) : hgapWords u t = Machine.hgapWords s t := by
  unfold Machine.hgapWords
  refine List.flatMap_congr fun k cluster => List.flatMap_congr fun h head => ?_
  have cluster := List.mem_range.mp cluster
  have head := List.mem_range.mp head
  rw [only.reg _ (noticeReg_aWrtC tile cluster (by omega))]

theorem handed_calibOnly : CalibOnly s (handed s) := ⟨by rw [handed_tl], fun _ => handed_reg⟩

theorem calJob_congr (same : u.tl.calib = s.tl.calib) (c : Nat) : calJob u t c = calJob s t c := by
  rw [calJob, same, calJob]

end

/-! ### One step of every cluster -/

section
variable {s u v : State} {t c k b : Nat} {j : CalJob}

theorem setCalJob_mgmt : (setCalJob s t c j).mgmt = s.mgmt := rfl

theorem calJob_setCalJob : calJob (setCalJob s t c j) t c = j := Tab.at_to_self _ _ _ _

theorem calJob_setCalJob_ne (other : k ≠ c) : calJob (setCalJob s t c j) t k = calJob s t k :=
  Tab.at_to_ne _ _ _ (by omega)

/-- A cluster without bands has no step. -/
theorem calStep_none (none : (calJob s t k).bands = []) : calStep s t k = s := by
  unfold calStep
  dsimp only
  split
  · rfl
  · rename_i some
    rw [none] at some
    exact nomatch some

/-- While the others have no bands, the steps of the clusters are the one of cluster `c`. -/
theorem calSteps_one (cluster : c < 4) (others : ∀ k, k < 4 → k ≠ c → calJob s t k = CalJob.none)
    (kept : ∀ k, k < 4 → k ≠ c → calJob (calStep s t c) t k = CalJob.none) :
    (List.range 4).foldl (fun s k => calStep s t k) s = calStep s t c := by
  have before {k : Nat} (small : k < 4) (other : k ≠ c) : calStep s t k = s := calStep_none (by rw [others k small other]; rfl)
  have after {k : Nat} (small : k < 4) (other : k ≠ c) : calStep (calStep s t c) t k = calStep s t c :=
    calStep_none (by rw [kept k small other]; rfl)
  have four : (List.range 4).foldl (fun s k => calStep s t k) s = calStep (calStep (calStep (calStep s t 0) t 1) t 2) t 3 := rfl
  rw [four]
  have cases : c = 0 ∨ c = 1 ∨ c = 2 ∨ c = 3 := by omega
  rcases cases with rfl | rfl | rfl | rfl
  · rw [after (by decide) (by decide), after (by decide) (by decide), after (by decide) (by decide)]
  · rw [before (k := 0) (by decide) (by decide), after (by decide) (by decide), after (by decide) (by decide)]
  · rw [before (k := 0) (by decide) (by decide), before (k := 1) (by decide) (by decide), after (by decide) (by decide)]
  · rw [before (k := 0) (by decide) (by decide), before (k := 1) (by decide) (by decide), before (k := 2) (by decide) (by decide)]

/-- A cluster that is retired or off its tracks ends its calibration. -/
theorem calStep_off (job : (calJob s t c).bands = [b]) (off : tCluster s t c = true ∨ ctlMode s t c ∉ [3, 4, 5]) :
    calStep s t c = setCalJob s t c CalJob.none := by
  have out : tCluster s t c ∨ !(ctlMode s t c = 3 ∨ ctlMode s t c = 4 ∨ ctlMode s t c = 5) := by
    refine off.imp id fun mode => ?_
    simpa using mode
  unfold calStep
  dsimp only
  rw [job]
  exact if_pos out

/-- A cluster whose last band has trained ends its calibration. -/
theorem calStep_trained (job : calJob s t c = ⟨[b], 5⟩) (trained : zoneOfBand s t b ∈ trainedZones s t c) :
    calStep s t c = setCalJob s t c CalJob.none := by
  unfold calStep
  dsimp only
  rw [job]
  dsimp only
  split
  · rfl
  · rw [if_pos rfl, if_pos (by simpa using trained)]
    rfl

/-- The first step of a cluster that is idle on its tracks: the band's first calibration track is written. -/
theorem calStep_first (job : calJob s t c = ⟨[b], 0⟩) (on : tCluster s t c = false) (mode : ctlMode s t c ∈ [3, 4, 5])
    (idle : clusterIdle s t c = true) :
    calStep s t c = calWrite (setCalJob s t c ⟨[b], 1⟩) t c (calTrack s t b 0) .calib [] := by
  have follows : ¬(tCluster s t c ∨ !(ctlMode s t c = 3 ∨ ctlMode s t c = 4 ∨ ctlMode s t c = 5)) := by
    simp only [List.mem_cons, List.not_mem_nil, or_false] at mode
    simp [on, mode]
  unfold calStep
  dsimp only
  rw [job]
  dsimp only
  rw [if_neg follows, if_neg (by decide), if_neg (by rw [idle]; decide), if_pos rfl]

/-- The writes of a calibration join the write path. -/
theorem calWrite_effect {kind : WrKind} {track : Nat} {body : Payload} : (calWrite s t c track kind body).mgmt = s.mgmt ∧
    (∀ k, calJob (calWrite s t c track kind body) t k = calJob s t k) ∧
    ((calWrite s t c track kind body).wr t).inQ = (s.wr t).inQ ++ ((List.range 24).filter (calHead s t c)).map fun h : Nat =>
      (⟨mkPsa t c h track 0, kind, false, 0, 0, 0, 0, body, [], 0, false, 0, false⟩ : WrEnt) := by
  refine ⟨rfl, fun _ => rfl, ?_⟩
  unfold calWrite State.modWr
  dsimp only
  rw [State.setWr_wr]

end

/-! ### CALIB begins, goes on and ends -/

section
variable {s v x : State} {t c b tag op : Nat} {param : Payload} {m : MgOp}

/-- Every cluster takes the bands that are its own, and the operation begins. -/
def calibBegun (s : State) (m : MgOp) (t : Nat) (bands : List Nat) : State :=
  (List.range 4).foldl (fun s c => setCalJob s t c ⟨bands.filter fun k => decide (k % 4 = c), 0⟩) (beginLong s m none)

theorem calibBegun_effect (bands : List Nat) : CalibOnly v (calibBegun v m t bands) ∧
    (calibBegun v m t bands).mgmt = { v.mgmt with long := some ⟨m, none⟩ } ∧
    ∀ k, k < 4 → calJob (calibBegun v m t bands) t k = ⟨bands.filter fun i => decide (i % 4 = k), 0⟩ := by
  have begun : CalibOnly v (beginLong v m none) := ⟨rfl, fun _ _ => rfl⟩
  have jobs : CalibOnly (beginLong v m none) (calibBegun v m t bands) :=
    foldl_related (R := CalibOnly) .refl (fun first second => first.trans second) (fun _ _ => calibOnly_setCalJob _) _ _
  refine ⟨begun.trans jobs, ?_, fun k small => ?_⟩
  · exact foldl_related (R := fun s u => u.mgmt = s.mgmt) (fun _ => rfl) (fun first second => second.trans first)
      (fun _ _ => rfl) (List.range 4) (beginLong v m none)
  · have cases : k = 0 ∨ k = 1 ∨ k = 2 ∨ k = 3 := by omega
    unfold calibBegun
    rw [show List.range 4 = [0, 1, 2, 3] from rfl]
    simp only [List.foldl_cons, List.foldl_nil]
    rcases cases with rfl | rfl | rfl | rfl
    · rw [calJob_setCalJob_ne (by decide), calJob_setCalJob_ne (by decide), calJob_setCalJob_ne (by decide), calJob_setCalJob]
    · rw [calJob_setCalJob_ne (by decide), calJob_setCalJob_ne (by decide), calJob_setCalJob]
    · rw [calJob_setCalJob_ne (by decide), calJob_setCalJob]
    · rw [calJob_setCalJob]

theorem calibBegun_job (bands : List Nat) {k : Nat} (small : k < 4) :
    calJob (calibBegun v m t bands) t k = ⟨bands.filter fun i => decide (i % 4 = k), 0⟩ :=
  (calibBegun_effect bands).2.2 k small

theorem calibBegun_own (cluster : c = b % 4) : calJob (calibBegun v m t [b]) t c = ⟨[b], 0⟩ := by
  rw [calibBegun_job [b] (by omega), List.filter_cons, if_pos (decide_eq_true cluster.symm), List.filter_nil]

theorem calibBegun_other (cluster : c = b % 4) {k : Nat} (small : k < 4) (other : k ≠ c) :
    calJob (calibBegun v m t [b]) t k = CalJob.none := by
  have apart : ¬ decide (b % 4 = k) = true := fun same => other ((of_decide_eq_true same).symm.trans cluster.symm)
  rw [calibBegun_job [b] small, List.filter_cons, if_neg apart, List.filter_nil]
  rfl

theorem calibBegun_nothing {k : Nat} (small : k < 4) : calJob (calibBegun v m t []) t k = CalJob.none := by
  rw [calibBegun_job [] small, List.filter_nil]
  rfl

/-- The steps of every cluster of a tile. -/
def calSteps (s : State) (t : Nat) : State := (List.range 4).foldl (fun s k => calStep s t k) s

theorem calibPump_eq (tile : t = beAt param 0 1) : calibPump v (portOp op tag param) =
    if (List.range 4).all (fun k => decide (calJob (calSteps v t) t k = CalJob.none)) = true
      then finishLong (calSteps v t) .ok (hgapWords (calSteps v t) t) else calSteps v t := by
  subst tile
  rfl

/-- Once every cluster has ended, the operation ends with HGAP of every head. -/
theorem calibPump_ends (tile : t = beAt param 0 1) (steps : calSteps v t = x)
    (ended : ∀ k, k < 4 → calJob x t k = CalJob.none) :
    calibPump v (portOp op tag param) = finishLong x .ok (hgapWords x t) := by
  rw [calibPump_eq tile, steps]
  refine if_pos (List.all_eq_true.mpr fun k mem => decide_eq_true (ended k (List.mem_range.mp mem)))

theorem calibPump_waits (tile : t = beAt param 0 1) (steps : calSteps v t = x) (cluster : c < 4)
    (busy : calJob x t c ≠ CalJob.none) : calibPump v (portOp op tag param) = x := by
  rw [calibPump_eq tile, steps]
  refine if_neg fun all => busy (of_decide_eq_true (List.all_eq_true.mp all c (List.mem_range.mpr cluster)))

/-- What CALIB checks of its PARAM and of the tile: it begins with the named band, where the channels are on. -/
theorem calibOp_begins (free : v.mgmt.long = none) (four : param.length = 4) (named : t = beAt param 0 1)
    (band : b = beAt param 1 1) (seven : t ≤ 7) (small : b ≤ 127) (bands : b < fmtBands v t) (zero : beAt param 2 2 = 0)
    (tile : v.hasTile t = true) (maint : inMaint v t = true) (serves : tileRetired v t = false) (spun : spnState v t = 6) :
    calibOp v (portOp op tag param) =
      calibPump (calibBegun v (portOp op tag param) t (if v.domOn (domCh t) then [b] else [])) (portOp op tag param) := by
  subst named band
  have notAll : ¬ beAt (portOp op tag param).param 1 1 = 0xFF := by
    show ¬ beAt param 1 1 = 0xFF
    omega
  have field : (decide (7 < beAt param 0 1) || (decide (beAt param 1 1 ≠ 0xFF) && decide (127 < beAt param 1 1)) ||
      !(zeroAt (portOp op tag param) 2 2) || (v.hasTile (beAt param 0 1) && (!(inMaint v (beAt param 0 1)) ||
        tileRetired v (beAt param 0 1) || decide (spnState v (beAt param 0 1) ≠ 6) ||
        (decide (beAt param 1 1 ≠ 0xFF) && decide (fmtBands v (beAt param 0 1) ≤ beAt param 1 1))))) = false := by
    rw [decide_eq_false (not_lt.mpr seven), decide_eq_false (not_lt.mpr small), decide_eq_false (not_le.mpr bands), maint, serves,
      decide_eq_false (not_not.mpr spun), zeroAt, show (portOp op tag param).param = param from rfl, decide_eq_true zero, tile]
    simp
  unfold calibOp
  dsimp only
  rw [if_neg notAll, show (portOp op tag param).param = param from rfl]
  exact checkedOp_good free rfl (by rw [four]; rfl) field (by rw [tileAbsent_some, tile]; rfl)

/-- The end of a calibration whose clusters have all ended. -/
theorem calib_ends (seen : CalibOnly s x) (tile : t < 8) (idle : x.mgmt.waiting = [])
    (long : x.mgmt.long = some ⟨portOp op tag param, none⟩) :
    opEnds (resetHeads (finishLong x .ok (hgapWords x t))) op tag .ok (hgapWords s t) := by
  obtain ⟨ends, -⟩ := finishLong_effect (st := .ok) (data := hgapWords x t) long idle
  rw [seen.hgapWords tile] at ends
  rwa [seen.hgapWords tile]

/-- A calibration that has nothing to do ends at once. -/
theorem calib_nothing (seen : CalibOnly s v) (tile : t < 8) (named : t = beAt param 0 1) (cluster : c = b % 4)
    (idle : v.mgmt.waiting = [])
    (off : s.domOn (domCh t) = false ∨ tCluster s t c = true ∨ ctlMode s t c ∉ [3, 4, 5]) :
    opEnds (resetHeads (calibPump (calibBegun v (portOp op tag param) t (if s.domOn (domCh t) then [b] else []))
      (portOp op tag param))) op tag .ok (hgapWords s t) := by
  cases on : s.domOn (domCh t)
  · rw [if_neg Bool.false_ne_true]
    obtain ⟨begun, mgmt, -⟩ := calibBegun_effect (v := v) (m := portOp op tag param) (t := t) []
    have steps : calSteps (calibBegun v (portOp op tag param) t []) t = calibBegun v (portOp op tag param) t [] := by
      have same := calStep_none (s := calibBegun v (portOp op tag param) t []) (t := t) (k := 0)
        (by rw [calibBegun_nothing (by decide)]; rfl)
      unfold calSteps
      rw [calSteps_one (c := 0) (by decide) (fun k small _ => calibBegun_nothing small)
        (fun k small _ => by rw [same]; exact calibBegun_nothing small), same]
    rw [calibPump_ends named steps fun k small => calibBegun_nothing small]
    exact calib_ends (seen.trans begun) tile (by rw [mgmt, idle]) (by rw [mgmt])
  · rw [if_pos rfl]
    obtain ⟨begun, mgmt, -⟩ := calibBegun_effect (v := v) (m := portOp op tag param) (t := t) [b]
    have four : c < 4 := by omega
    have away : tCluster (calibBegun v (portOp op tag param) t [b]) t c = true ∨
        ctlMode (calibBegun v (portOp op tag param) t [b]) t c ∉ [3, 4, 5] := by
      rw [(seen.trans begun).tCluster tile, (seen.trans begun).ctlMode tile four]
      exact off.resolve_left (by rw [on]; nofun)
    have step := calStep_off (b := b) (by rw [calibBegun_own cluster]) away
    have kept (k : Nat) (small : k < 4) (other : k ≠ c) :
        calJob (calStep (calibBegun v (portOp op tag param) t [b]) t c) t k = CalJob.none := by
      rw [step, calJob_setCalJob_ne other]
      exact calibBegun_other cluster small other
    have steps : calSteps (calibBegun v (portOp op tag param) t [b]) t =
        setCalJob (calibBegun v (portOp op tag param) t [b]) t c CalJob.none := by
      unfold calSteps
      rw [calSteps_one four (fun k small other => calibBegun_other cluster small other) kept, step]
    have ended (k : Nat) (small : k < 4) :
        calJob (setCalJob (calibBegun v (portOp op tag param) t [b]) t c CalJob.none) t k = CalJob.none := by
      by_cases own : k = c
      · rw [own]
        exact calJob_setCalJob
      · rw [← step]
        exact kept k small own
    rw [calibPump_ends named steps ended]
    exact calib_ends ((seen.trans begun).trans (calibOnly_setCalJob _)) tile (by rw [setCalJob_mgmt, mgmt, idle])
      (by rw [setCalJob_mgmt, mgmt])

/-- A calibration of a cluster that is idle on its tracks begins with the writes of the band's first track. -/
theorem calib_writes (seen : CalibOnly s v) (tile : t < 8) (named : t = beAt param 0 1) (cluster : c = b % 4)
    (idle : v.mgmt.waiting = []) (on : tCluster s t c = false) (mode : ctlMode s t c ∈ [3, 4, 5])
    (free : clusterIdle s t c = true) :
    ∃ x, resetHeads (calibPump (calibBegun v (portOp op tag param) t [b]) (portOp op tag param)) = x ∧
      x.mgmt.long = some ⟨portOp op tag param, none⟩ ∧ calJob x t c = ⟨[b], 1⟩ ∧ (x.wr t).inQ = (s.wr t).inQ ++
        ((List.range 24).filter (calHead s t c)).map fun h : Nat =>
          (⟨mkPsa t c h (calTrack s t b 0) 0, .calib, false, 0, 0, 0, 0, [], [], 0, false, 0, false⟩ : WrEnt) := by
  obtain ⟨begun, mgmt, -⟩ := calibBegun_effect (v := v) (m := portOp op tag param) (t := t) [b]
  have four : c < 4 := by omega
  have own := calibBegun_own (v := v) (m := portOp op tag param) (t := t) cluster
  have others (k : Nat) (small : k < 4) (other : k ≠ c) := calibBegun_other (v := v) (m := portOp op tag param) (t := t) cluster small other
  have seenAll := seen.trans begun
  generalize calibBegun v (portOp op tag param) t [b] = w at *
  have step := calStep_first own ((seenAll.tCluster tile).trans on) (by rw [seenAll.ctlMode tile four]; exact mode)
    (seenAll.clusterIdle.trans free)
  have seenJob : CalibOnly s (setCalJob w t c ⟨[b], 1⟩) := seenAll.trans (calibOnly_setCalJob _)
  obtain ⟨wmgmt, wjob, wqueue⟩ := calWrite_effect (s := setCalJob w t c ⟨[b], 1⟩) (t := t) (c := c) (kind := .calib)
    (track := calTrack w t b 0) (body := [])
  have steps : calSteps w t = calStep w t c := calSteps_one four others fun k small other => by
    rw [step, wjob, calJob_setCalJob_ne other]
    exact others k small other
  have started : calJob (calStep w t c) t c = ⟨[b], 1⟩ := by rw [step, wjob, calJob_setCalJob]
  have waits := calibPump_waits (op := op) (tag := tag) named steps four (by rw [started]; nofun)
  have still : (calStep w t c).mgmt = { v.mgmt with long := some ⟨portOp op tag param, none⟩ } := by
    rw [step, wmgmt, setCalJob_mgmt, mgmt]
  have heads : (List.range 24).filter (calHead (setCalJob w t c ⟨[b], 1⟩) t c) = (List.range 24).filter (calHead s t c) :=
    List.filter_congr fun h mem => seenJob.calHead tile four (List.mem_range.mp mem)
  have queue : ((setCalJob w t c ⟨[b], 1⟩).wr t).inQ = (s.wr t).inQ := by rw [State.wr, seenJob.tl, State.wr]
  refine ⟨_, rfl, ?_⟩
  rw [waits, resetHeads_none (by rw [still, idle])]
  refine ⟨by rw [still], started, ?_⟩
  rw [step, wqueue, heads, queue, seenAll.calTrack tile]

/-- CALIB of a tile in maintenance (R462). -/
theorem calibBegins (named : t = beAt param 0 1) (band : b = beAt param 1 1) (cluster : c = b % 4) (four : param.length = 4)
    (seven : t ≤ 7) (small : b ≤ 127) (ready : opReady s 0x23 tag param) (bands : b < fmtBands s t) (zero : beAt param 2 2 = 0)
    (tile : s.hasTile t = true) (maint : inMaint s t = true) (serves : tileRetired s t = false) (spun : spnState s t = 6) :
    ∃ u, exec (.calib tag param) s = .next u ∧
      ((s.domOn (domCh t) = false ∨ tCluster s t c = true ∨ ctlMode s t c ∉ [3, 4, 5]) → opEnds u 0x23 tag .ok (hgapWords s t)) ∧
      (s.domOn (domCh t) = true → tCluster s t c = false → ctlMode s t c ∈ [3, 4, 5] → clusterIdle s t c = true →
        u.mgmt.long = some ⟨portOp 0x23 tag param, none⟩ ∧ calJob u t c = ⟨[b], 1⟩ ∧ (u.wr t).inQ = (s.wr t).inQ ++
          ((List.range 24).filter (calHead s t c)).map fun h : Nat =>
            (⟨mkPsa t c h (calTrack s t b 0) 0, .calib, false, 0, 0, 0, 0, [], [], 0, false, 0, false⟩ : WrEnt)) := by
  have t8 := hasTile_lt tile
  have bandsKept : fmtBands (handed s) t = fmtBands s t := handed_fld 23 16 (noticeReg_aTile t8 (by decide))
  have retiredKept : tileRetired (handed s) t = tileRetired s t := handed_bit 8 (noticeReg_aMir t8 (by decide))
  have spunKept : spnState (handed s) t = spnState s t := handed_fld 3 0 (noticeReg_aSpn t8 (by decide))
  have begins := calibOp_begins (v := handed s) (op := 0x23) (tag := tag) (handed_long ready) four named band seven small
    (by rw [bandsKept]; exact bands) zero (by rw [handed_hasTile]; exact tile) (by rw [handed_inMaint]; exact maint)
    (by rw [retiredKept]; exact serves) (by rw [spunKept]; exact spun)
  rw [handed_domOn] at begins
  refine ⟨_, exec_isRow_ready isRow_calib ready, fun off => ?_, fun on serving mode free => ?_⟩
  · rw [begins]
    exact calib_nothing handed_calibOnly t8 named cluster handed_idle off
  · rw [begins, if_pos on]
    obtain ⟨x, same, effect⟩ := calib_writes (op := 0x23) (tag := tag) handed_calibOnly t8 named cluster handed_idle serving mode free
    rw [same]
    exact effect

/-- CALIB in progress whose last band has trained ends with HGAP of every head. -/
theorem calibEnds (named : t = beAt param 0 1) (cluster : c = b % 4) (four : param.length = 4) (seven : t ≤ 7)
    (long : s.mgmt.long = some ⟨portOp 0x23 tag param, none⟩) (idle : s.mgmt.waiting = []) (small : tag < 65536)
    (others : ∀ k, k < 4 → k ≠ c → calJob s t k = CalJob.none) (job : calJob s t c = ⟨[b], 5⟩)
    (trained : zoneOfBand s t b ∈ trainedZones s t c) :
    ∃ u, exec (.calib tag param) s = .next u ∧ calJob u t c = CalJob.none ∧ u.mgmt.long = none ∧
      opEnds u 0x23 tag .ok (hgapWords s t) := by
  have goes : exec (.calib tag param) s = .next (resetHeads (calibPump s (portOp 0x23 tag param))) := by
    show execCalib tag param s = _
    unfold execCalib
    simp only [long, opIs_portOp, decide_true, Bool.and_true, if_true]
    exact onOk_next (operands_ok small (by omega))
  have step := calStep_trained job trained
  have ended (k : Nat) (range : k < 4) : calJob (setCalJob s t c CalJob.none) t k = CalJob.none := by
    by_cases own : k = c
    · rw [own]
      exact calJob_setCalJob
    · rw [calJob_setCalJob_ne own]
      exact others k range own
  have steps : calSteps s t = setCalJob s t c CalJob.none := by
    unfold calSteps
    rw [calSteps_one (by omega) others (fun k range _ => by rw [step]; exact ended k range), step]
  have only : CalibOnly s (setCalJob s t c CalJob.none) := calibOnly_setCalJob _
  have ends := calib_ends (op := 0x23) (tag := tag) (param := param) (t := t) only (by omega) (by rw [setCalJob_mgmt, idle])
    (by rw [setCalJob_mgmt, long])
  obtain ⟨-, done, -, kept⟩ := finishLong_effect (s := setCalJob s t c CalJob.none) (st := .ok)
    (data := hgapWords (setCalJob s t c CalJob.none) t) (by rw [setCalJob_mgmt]; exact long) (by rw [setCalJob_mgmt, idle])
  refine ⟨_, goes, ?_⟩
  rw [calibPump_ends named steps ended]
  refine ⟨?_, done, ends⟩
  exact (calJob_congr (congrArg (·.calib) kept) c).trans (ended c (by omega))

end

end Sys2Proof.Machine
end

section
/-! SUPPORT. O55: the management port's transactions and operations. -/

namespace Sys2Proof.Machine

/-- Settles O55: each operation at the head acts on the state that its packet has left, and ends with its reply. -/
theorem operationsAreCheckedAndAct : Obligations.OperationsAreCheckedAndAct := by
  unfold Obligations.OperationsAreCheckedAndAct
  intro s tag param s1 named
  rw [show irqFall { s with mgmt := { s.mgmt with waiting := [] } } 0 16 0x22 false = handed s from rfl] at named
  subst named
  refine ⟨fun dead => ?dead, fun live => ?live, fun x op bad row => operationsAreChecked row, fun empty => ?noParam,
    fun a r b o address aligned opens block plain row => ?registers, fun off bs offset bytes ready data => ?stageWrite,
    fun off n offset len ready eight pos page zero near => ?stageRead, fun x op rev st row ready usable => commitsAndReverts row ready usable,
    fun w k t c h r word unit four => ?units, fun t tile four seven zero noAccs ready => ?maint,
    fun t b c m vs tile band cluster message gaps four seven small => ?calib, fun ready four => keyErases ready four,
    fun g b goal tile ready four three seven zero noAccs => powerFares goal tile ready four three seven zero noAccs,
    fun t tile => ?timeout⟩
  case dead =>
    refine ⟨exec_poll_dead dead, fun w => exec_fetch_dead dead, fun p => exec_send_dead dead, fun n range => ?_⟩
    rw [exec_ignored range, if_pos (.inl dead)]
  case live =>
    refine ⟨exec_poll_live live, fun n range => ?_, fun w none => exec_fetch_empty live none, fun bs reply =>
      ⟨exec_fetch_short live reply, fun rst => ⟨_, exec_fetch_whole live reply rst, fetched_effect⟩⟩,
      fun p idle awake => portSends live idle awake⟩
    rw [exec_ignored range]
    simp only [live, Bool.true_eq_false, false_or]
  case noParam =>
    subst empty
    refine ⟨fun ready => ?_, fun ready => ?_, fun ready usable => stageClear_begins ready usable⟩
    · obtain ⟨u, run, ends, only⟩ := ident_answers ready
      exact ⟨u, run, only, ends⟩
    · obtain ⟨u, run, ends, only⟩ := version_answers ready
      exact ⟨u, run, only, ends⟩
  case registers =>
    subst address
    exact ⟨fun ready eight one zero => regRead_reads aligned opens block plain row ready eight one zero,
      fun ready eight acc fields => regWrite_writes aligned opens block plain row ready eight acc fields⟩
  case stageWrite =>
    subst offset bytes
    exact stageWrite_fares ready data
  case stageRead =>
    subst offset
    exact stageRead_fares len ready eight pos page zero near
  case units =>
    refine ⟨fun x op row ready bad => ?_, fun ready good => retires unit four word ready good,
      fun ready good => reinstates unit four word ready good⟩
    rcases row with ⟨rfl, rfl⟩ | ⟨rfl, rfl⟩
    · exact exec_unitOp_refused isRow_retire ready four word bad
    · exact exec_unitOp_refused isRow_reinstate ready four word bad
  case maint =>
    exact ⟨fun on => maintEnters tile four seven zero noAccs ready on,
      fun off present out => maintLeaves tile four seven zero noAccs ready off present out⟩
  case calib =>
    subst message gaps
    exact ⟨fun ready bands zero present maint serves spun =>
        calibBegins tile band cluster four seven small ready bands zero present maint serves spun,
      fun long idle tagged others job trained => calibEnds tile cluster four seven long idle tagged others job trained⟩
  case timeout =>
    refine ⟨fun idle noAccs => ?_, fun who a w idle one low high waits => ?_,
      fun a noAccs ready eight one zero address aligned low high waits => ?_⟩
    · rw [exec_accessTimeout tile, accessTimeout_idle idle noAccs]
    · rw [exec_accessTimeout tile, accessTimeout_write idle one low high waits]
    · subst address
      obtain ⟨u, run, kept, only⟩ := regRead_waits ready eight one zero aligned waits
      exact ⟨u, run, kept, only, _, exec_accessTimeout tile, accessTimeout_read ready noAccs eight one zero aligned low high waits⟩

end Sys2Proof.Machine
end

section
/-! SUPPORT. O60: the check of a sector's header, as a shift register that takes one bit at a time (R63). -/

namespace Sys2Proof.Machine

/-- One bit into the check's register: a shift, and the generator where the top bit and the incoming bit differ. -/
def crcTake (c : BitVec 16) (b : Bool) : BitVec 16 :=
  (c <<< 1) ^^^ (if c.getLsbD 15 != b then 0x1021#16 else 0#16)

section
variable (c d : BitVec 16) (x y : Byte)

/-- A byte added in the register's upper half. -/
def crcUpper : BitVec 16 := x.setWidth 16 <<< 8

theorem crcUpper_xor : crcUpper (x ^^^ y) = crcUpper x ^^^ crcUpper y := by
  rw [crcUpper, BitVec.setWidth_xor, BitVec.shiftLeft_xor_distrib, crcUpper, crcUpper]

theorem crcUpper_shiftLeft : crcUpper x <<< 1 = crcUpper (x <<< 1) := by
  apply BitVec.eq_of_getLsbD_eq
  intro i _
  simp only [crcUpper, BitVec.getLsbD_shiftLeft, BitVec.getLsbD_setWidth]
  grind

theorem crcUpper_top : (crcUpper x).getLsbD 15 = x.getLsbD 7 := by
  simp [crcUpper]

theorem crc16Bit_eq : crc16Bit c = (c <<< 1) ^^^ (if c.getLsbD 15 then 0x1021#16 else 0#16) := by
  unfold crc16Bit
  split <;> simp

/-- The generator is added for one of two registers where their top bits differ. -/
theorem crc16Bit_xor : crc16Bit (c ^^^ d) = crc16Bit c ^^^ crc16Bit d := by
  have added : ∀ p q : Bool, (if (p ^^ q) then 0x1021#16 else 0#16) =
      (if p then 0x1021#16 else 0#16) ^^^ (if q then 0x1021#16 else 0#16) := by decide
  rw [crc16Bit_eq, crc16Bit_eq, crc16Bit_eq, BitVec.shiftLeft_xor_distrib, BitVec.getLsbD_xor, added]
  ac_rfl

/-- With a byte's rest in the upper half, one step takes the rest's first bit and leaves the others there. -/
theorem crc16Bit_upper : crc16Bit (c ^^^ crcUpper x) = crcTake c (x.getLsbD 7) ^^^ crcUpper (x <<< 1) := by
  rw [crc16Bit_eq, BitVec.shiftLeft_xor_distrib, crcUpper_shiftLeft, BitVec.getLsbD_xor, crcUpper_top, crcTake]
  have same : (c.getLsbD 15 ^^ x.getLsbD 7) = (c.getLsbD 15 != x.getLsbD 7) := rfl
  rw [same]
  ac_rfl

/-- A byte goes into the check with its bits in order, the most significant first. -/
theorem crc16Byte_eq_foldl : crc16Byte c x = (byteBits x).foldl crcTake c := by
  have gone : crcUpper (x <<< 8) = 0#16 := by
    rw [BitVec.shiftLeft_eq_zero (by decide)]
    rfl
  have step (k : Nat) (e : BitVec 16) :
      crc16Bit (e ^^^ crcUpper (x <<< k)) = crcTake e ((x <<< k).getLsbD 7) ^^^ crcUpper (x <<< (k + 1)) := by
    rw [crc16Bit_upper, BitVec.shiftLeft_add]
  have start : c ^^^ (x.setWidth 16 <<< 8) = c ^^^ crcUpper (x <<< 0) := by rw [BitVec.shiftLeft_zero]; rfl
  simp only [crc16Byte, start, step, gone, BitVec.xor_zero]
  simp [byteBits, List.range_succ]

theorem crc16Byte_xor : crc16Byte (c ^^^ d) (x ^^^ y) = crc16Byte c x ^^^ crc16Byte d y := by
  have start : (c ^^^ d) ^^^ ((x ^^^ y).setWidth 16 <<< 8) = (c ^^^ crcUpper x) ^^^ (d ^^^ crcUpper y) := by
    rw [← crcUpper, crcUpper_xor]
    ac_rfl
  unfold crc16Byte
  simp only [start, crc16Bit_xor]
  rfl

end

/-- Bytes go into the check's register with all their bits in order. -/
theorem foldl_crc16Byte_eq (bs : Payload) (c : BitVec 16) :
    bs.foldl crc16Byte c = (bs.flatMap byteBits).foldl crcTake c := by
  induction bs generalizing c with
  | nil => rfl
  | cons x bs ih => rw [List.foldl_cons, List.flatMap_cons, List.foldl_append, ih, crc16Byte_eq_foldl]

/-- The registers of two sequences of one length differ by what the sequences' difference makes of the difference of
their first values. -/
theorem foldl_crc16Byte_xor (xs ys : Payload) (len : xs.length = ys.length) (c d : BitVec 16) :
    xs.foldl crc16Byte c ^^^ ys.foldl crc16Byte d =
      (List.zipWith (fun x y => x ^^^ y) xs ys).foldl crc16Byte (c ^^^ d) := by
  induction xs generalizing ys c d with
  | nil => rw [List.length_eq_zero_iff.mp len.symm]; rfl
  | cons x xs ih =>
    cases ys with
    | nil => simp at len
    | cons y ys =>
      rw [List.foldl_cons, List.foldl_cons, ih ys (by simpa using len), List.zipWith_cons_cons, List.foldl_cons,
        crc16Byte_xor]

/-- A header ends with the check of the 14 bytes before it. -/
theorem headerOf_check (s : State) (psa : Nat) (blank sys : Bool) :
    (headerOf s psa blank sys).drop 14 = beBytes 2 (crc16 ((headerOf s psa blank sys).take 14)).toNat := by
  unfold headerOf
  rw [List.drop_left' (by simp [zeros]), List.take_left' (by simp [zeros])]

/-- Settles O60: a byte is a fold of its bits, and each bit's step is linear. -/
theorem headerCheckIsTheRemainder : Obligations.HeaderCheckIsTheRemainder := by
  rintro bit bits rfl rfl
  refine ⟨fun bs => foldl_crc16Byte_eq bs _, fun xs ys len => ?_, headerOf_check⟩
  have linear := foldl_crc16Byte_xor xs ys len 0xFFFF#16 0xFFFF#16
  rw [BitVec.xor_self] at linear
  exact linear.trans (foldl_crc16Byte_eq _ _)

end Sys2Proof.Machine
end

section
/-! SUPPORT. O16: CAPTURE_END (R56, R71, R81, R91, R96, R103, R111 to R121). -/

namespace Sys2Proof.Machine

/-! ### What the end of a capture leaves as it was -/

/-- What a head has to read, what it captures and what its banks hold. -/
def headTask (x : HeadX) : List Want × List CapEnt × List Capture × List Capture := (x.want, x.capQ, x.curs, x.held)

/-- Work of tile `t` on lanes, heads and the detector that leaves the task of head `i` and the banks of every lane but
those of `ls` as they were, and takes nothing from the decoder queue. -/
structure CaptureRest (t i : Nat) (ls : List Nat) (s u : State) : Prop where
  work : TileWork t s u
  units : u.tl = { s.tl with lanes := u.tl.lanes, heads := u.tl.heads, dets := u.tl.dets }
  task : headTask (u.head i) = headTask (s.head i)
  banks : ∀ l id, l ∉ ls → bankOf u t l id = bankOf s t l id
  queue : ∀ j ∈ (s.det t).decQ, j ∈ (u.det t).decQ

/-- A window that is not about to close counts the capture. -/
theorem countCapture_open {s : State} {t l : Nat} (open_ : s.fld (aLane t l 0x40) 23 0 < 2 ^ 24 - 1) :
    countCapture s t l = if tLane s t l then s else wcnt s t l 0 := by
  unfold countCapture
  rw [if_neg (c := s.fld (aLane t l 0x40) 23 0 = 2 ^ 24 - 1) (Nat.ne_of_lt open_)]

namespace CaptureRest

section
variable {t i l a : Nat} {ls : List Nat} {s u v : State}

theorem refl (s : State) : CaptureRest t i ls s s := ⟨.refl s, rfl, rfl, fun _ _ _ => rfl, fun _ mem => mem⟩

theorem trans (h : CaptureRest t i ls s u) (k : CaptureRest t i ls u v) : CaptureRest t i ls s v where
  work := h.work.trans k.work
  units := by rw [k.units, h.units]
  task := k.task.trans h.task
  banks l id out := (k.banks l id out).trans (h.banks l id out)
  queue j mem := k.queue j (h.queue j mem)

theorem ite {p : Prop} [Decidable p] (yes : p → CaptureRest t i ls s u) (no : ¬p → CaptureRest t i ls s v) :
    CaptureRest t i ls s (if p then u else v) := by
  split
  · exact yes ‹_›
  · exact no ‹_›

/-- A change where there is one to make. -/
theorem when {p : Prop} [Decidable p] (before : CaptureRest t i ls s u) (then_ : CaptureRest t i ls u v) :
    CaptureRest t i ls s (if p then v else u) := ite (fun _ => before.trans then_) fun _ => before

theorem setReg (w : Word) (h : ¬ steadyReg t a) : CaptureRest t i ls s (s.setReg a w) :=
  ⟨.setReg w h, rfl, rfl, fun _ _ _ => rfl, fun _ mem => mem⟩

theorem setLane_reg (o : Nat) (w : Word) (pos : 0 < o) (small : o < 0x1000) : CaptureRest t i ls s (s.setReg (aLane t l o) w) :=
  setReg w (not_steadyReg_aLane l pos small)

theorem modLane_banks (f : LaneX → LaneX) (out : l ∈ ls ∨ ∀ x, (f x).b0 = x.b0 ∧ (f x).b1 = x.b1) :
    CaptureRest t i ls s (s.modLane t l f) := by
  refine ⟨.modLane t l f, rfl, rfl, fun j id other => ?_, fun _ mem => mem⟩
  by_cases same : j = l
  · subst same
    obtain ⟨first, second⟩ := out.resolve_left other (s.lane t j)
    rw [bankOf, State.modLane_eq, State.setLane_lane, first, second, ← bankOf]
  · rw [bankOf, (LaneOnly.modLane f).lanes j same, ← bankOf]

theorem modHead (f : HeadX → HeadX) (same : headTask (f (s.head i)) = headTask (s.head i)) :
    CaptureRest t i ls s (s.modHead i f) := by
  refine ⟨.modHead i f, rfl, ?_, fun _ _ _ => rfl, fun _ mem => mem⟩
  rw [State.modHead_eq, State.setHead_head, same]

theorem modDet (f : DetX → DetX) (grows : ∀ j ∈ (s.det t).decQ, j ∈ (f (s.det t)).decQ) :
    CaptureRest t i ls s (s.modDet t f) := by
  refine ⟨.modDet t f, rfl, rfl, fun _ _ _ => rfl, ?_⟩
  rw [State.modDet_eq, State.setDet_det]
  exact grows

/-- Whether a lane is asked to sleep stands. -/
theorem ctrl (h : CaptureRest t i ls s u) (lane : l < 192) : u.bit (aLane t l 0) 0 = s.bit (aLane t l 0) 0 := by
  rw [State.bit, h.work.regs _ (steadyReg_ctrl lane), ← State.bit]

theorem side (h : CaptureRest t i ls s u) : u.headW = s.headW ∧ u.headS = s.headS ∧ u.wrQ = s.wrQ ∧ calJob u = calJob s := by
  unfold State.headW State.headS State.wrQ calJob
  rw [h.units]
  exact ⟨rfl, rfl, rfl, rfl⟩

end

/-! ### Samples, loops and updates (R78, R85, R91, R114) -/

section
variable {t i l : Nat} {ls : List Nat} {s : State} {k : Capture} {f : CapFlags} {fr : Framing} {b : Bank} {xs : List Int}

theorem storeLane (mem : l ∈ ls) : CaptureRest t i ls s (storeLane s t l k b xs) :=
  (modLane_banks _ (.inl mem)).trans (setLane_reg 0x84 _ (by decide) (by decide))

theorem adaptLane {es : List (Option Int)} {ys : List Smp} : CaptureRest t i ls s (adaptLane s t l k f fr b es ys) := by
  have moved (d : Int) : CaptureRest t i ls s (moveGain s t l d) :=
    (modLane_banks (fun x => { x with gain := clampI 0 (288 * 2 ^ 14) ((s.lane t l).gain + d) }) (.inr fun _ => ⟨rfl, rfl⟩)).trans
      (setLane_reg 0x10 _ (by decide) (by decide))
  exact (moved _).trans (ite (fun _ => refl _) fun _ => modLane_banks _ (.inr fun _ => ⟨rfl, rfl⟩))

theorem adaptKappa {g : List Int} {da db : List Bool} {ea eb : List (Option Int)} :
    CaptureRest t i ls s (adaptKappa s t i k g da db ea eb) := ite (fun _ => refl s) fun _ => modHead _ rfl

/-! ### Counters (R103, R104, R119 to R121) -/

theorem wcnt (n : Nat) (range : n < 6) : CaptureRest t i ls s (wcnt s t l n) :=
  ite (fun _ => refl s) fun _ => setLane_reg _ _ (by omega) (by omega)

theorem countCapture (open_ : s.fld (aLane t l 0x40) 23 0 < 2 ^ 24 - 1) : CaptureRest t i ls s (countCapture s t l) := by
  rw [countCapture_open open_]
  exact ite (fun _ => refl s) fun _ => wcnt 0 (by decide)

end

end CaptureRest

/-! ### Window counters stand until a capture is counted -/

section
variable {s : State} {t l j i : Nat} {k : Capture}

theorem setReg_window {a : Nat} (w : Word) (other : aLane t j 0x40 ≠ a) : (s.setReg a w).reg (aLane t j 0x40) = s.reg (aLane t j 0x40) :=
  State.setReg_reg_ne _ _ other

theorem storeLane_window {b : Bank} {xs : List Int} : (storeLane s t l k b xs).reg (aLane t j 0x40) = s.reg (aLane t j 0x40) := by
  unfold storeLane State.bump State.bumpF
  dsimp only
  rw [State.setF_eq, setReg_window _ fun e => absurd (aLane_inj (by decide) (by decide) e).2 (by decide), State.modLane_eq,
    State.setLane_reg]

theorem adaptLane_window {f : CapFlags} {fr : Framing} {b : Bank} {es : List (Option Int)} {ys : List Smp} :
    (adaptLane s t l k f fr b es ys).reg (aLane t j 0x40) = s.reg (aLane t j 0x40) := by
  have moved (d : Int) : (moveGain s t l d).reg (aLane t j 0x40) = s.reg (aLane t j 0x40) := by
    unfold moveGain
    rw [State.setF_eq, setReg_window _ fun e => absurd (aLane_inj (by decide) (by decide) e).2 (by decide), State.modLane_eq,
      State.setLane_reg]
  unfold adaptLane
  dsimp only
  split
  · exact moved _
  · rw [State.modLane_eq, State.setLane_reg, moved]

theorem adaptKappa_window {g : List Int} {da db : List Bool} {ea eb : List (Option Int)} :
    (adaptKappa s t i k g da db ea eb).reg (aLane t j 0x40) = s.reg (aLane t j 0x40) := by
  unfold adaptKappa
  dsimp only
  split
  · rfl
  · rw [State.modHead_eq, State.setHead_reg]

theorem countCapture_window (open_ : s.fld (aLane t l 0x40) 23 0 < 2 ^ 24 - 1) (other : j ≠ l) :
    (countCapture s t l).reg (aLane t j 0x40) = s.reg (aLane t j 0x40) := by
  rw [countCapture_open open_, wcnt]
  split
  · rfl
  · exact setReg_window _ fun e => other (aLane_inj (by decide) (by decide) e).1

end

/-! ### The counters of a capture and its codewords -/

section
variable {s u : State} {t c h i r : Nat} {ls : List Nat} {k : Capture} {w : Want}

/-- Where no window is about to close, the counters of a capture are all that its end counts. -/
theorem CaptureRest.countEnd (open_ : ∀ r, r < 2 → s.fld (aLane t (laneOf c h r) 0x40) 23 0 < 2 ^ 24 - 1) :
    CaptureRest t i ls s (countEnd s t c h k) := by
  have apart : laneOf c h 1 ≠ laneOf c h 0 := by unfold laneOf; omega
  have first : CaptureRest t i ls s (Machine.countCapture s t (laneOf c h 0)) := .countCapture (open_ 0 (by decide))
  have next : (Machine.countCapture s t (laneOf c h 0)).fld (aLane t (laneOf c h 1) 0x40) 23 0 < 2 ^ 24 - 1 := by
    rw [State.fld, countCapture_window (open_ 0 (by decide)) apart, ← State.fld]
    exact open_ 1 (by decide)
  have missed (v : State) (l : Nat) (fr : Framing) : CaptureRest t i ls v
      (if fr.posA.isNone then Machine.wcnt (Machine.wcnt v t l 1) t l 2 else if fr.proxy then Machine.wcnt v t l 2 else v) :=
    .ite (fun _ => (wcnt 1 (by decide)).trans (wcnt 2 (by decide)))
      fun _ => .ite (fun _ => wcnt 2 (by decide)) fun _ => .refl v
  have counted (v : State) (o : Nat) : CaptureRest t i ls v (v.bump (aDet t o)) := .setReg _ not_steadyReg_aDet
  unfold Machine.countEnd
  dsimp only
  generalize ((entWants k.ent).any fun w => forHub w.req.kind || w.req.kind == .verify) = host
  have one : CaptureRest t i ls s (if host ∧ k.laneA then Machine.countCapture s t (laneOf c h 0) else s) :=
    .ite (fun _ => first) fun _ => .refl s
  have still : (if host ∧ k.laneA then Machine.countCapture s t (laneOf c h 0) else s).fld (aLane t (laneOf c h 1) 0x40) 23 0 <
      2 ^ 24 - 1 := by
    split
    · exact next
    · exact open_ 1 (by decide)
  refine one.trans ?_
  generalize (if host ∧ k.laneA then Machine.countCapture s t (laneOf c h 0) else s) = v at still
  have two : CaptureRest t i ls v (if host ∧ k.laneB then Machine.countCapture v t (laneOf c h 1) else v) :=
    .ite (fun _ => countCapture still) fun _ => .refl v
  exact .when (.when (.when (.when (.when two (missed _ _ _)) (missed _ _ _)) (counted _ _)) (counted _ _)) (counted _ _)

/-- Outside the fourth step of a calibration no lag is measured. -/
theorem measureLag_idle (idle : (calJob s t c).step ≠ 4) : measureLag s t c h k = s := by
  unfold measureLag
  dsimp only
  split
  · rfl
  · exact if_pos (.inr (.inl idle))

/-- An entry of reader `r`'s codeword of a capture stands in the decoder queue for the sector wanted. -/
def codewordQueued (u : State) (t c h r : Nat) (k : Capture) (w : Want) (soft : List Int) : Prop :=
  ∃ j ∈ (u.det t).decQ, j.dst = .live w ∧ j.ent.psa = w.req.psa ∧ j.ent.lane = laneOf c h r ∧ j.ent.capid = k.id ∧
    j.ent.soft = soft

theorem CaptureRest.queued {v : State} {soft : List Int} (rest : CaptureRest t i ls u v) (queued : codewordQueued u t c h r k w soft) :
    codewordQueued v t c h r k w soft := by
  obtain ⟨j, mem, entry⟩ := queued
  exact ⟨j, rest.queue j mem, entry⟩

/-- A framed lane's codeword goes to the decoder queue. -/
theorem endTrack_queues {single : Bool} (lane : (if r = 0 then k.laneA else k.laneB) = true)
    (framed : (if r = 0 then k.frA else k.frB).posA ≠ none) :
    CaptureRest t i ls s (endTrack s t c h r w k single) ∧
      codewordQueued (endTrack s t c h r w k single) t c h r k w (if r = 0 then k.softA else k.softB) := by
  have there : (if r = 0 then k.frA else k.frB).posA.isNone = false := by
    rw [Option.isNone_eq_false_iff, Option.isSome_iff_ne_none]
    exact framed
  unfold endTrack
  simp only [lane, there, Bool.not_true, Bool.false_eq_true, if_false]
  refine ⟨CaptureRest.trans (.modDet _ fun j mem => List.mem_append_left _ mem) (.setReg _ (not_steadyReg_aTile (by decide))), ?_⟩
  unfold codewordQueued
  rw [State.setF_eq, setReg_det, State.modDet_eq, State.setDet_det]
  exact ⟨_, List.mem_append_right _ (List.mem_singleton.2 rfl), rfl, rfl, rfl, rfl, rfl⟩

end

/-! ### The lanes and the head after a capture (R58, R96, R97) -/

section
variable {s u : State} {t c h i l : Nat} {ls : List Nat}

theorem sleepIfAsked_unasked (unasked : s.bit (aLane t l 0) 0 = false) : sleepIfAsked s t l = s :=
  if_neg fun asked => by simp [unasked] at asked

/-- A lane that is not asked to sleep goes on or waits. -/
theorem CaptureRest.endLane {more : Bool} (lane : l < 192) (unasked : s.bit (aLane t l 0) 0 = false) :
    CaptureRest t i ls s (endLane s t l more) := by
  unfold Machine.endLane
  refine .ite (fun _ => .refl s) fun _ => .ite (fun _ => .ite (fun _ => ?_) fun _ => .refl s) fun _ => ?_
  · exact setLane_reg _ _ (by decide) (by decide)
  · have idle (v : State) : CaptureRest t i ls v ((setRate (setLaneSt v t l 3) t l).modLane t l fun x => { x with used := v.now }) :=
      ((setLane_reg _ _ (by decide) (by decide)).trans (setLane_reg _ _ (by decide) (by decide))).trans
        (modLane_banks _ (.inr fun _ => ⟨rfl, rfl⟩))
    have held : CaptureRest t i ls s (s.modLane t l fun x => { x with wedge := false }) := modLane_banks _ (.inr fun _ => ⟨rfl, rfl⟩)
    have waits := held.trans (idle _)
    rw [idleLane, sleepIfAsked_unasked ((waits.ctrl lane).trans unasked)]
    exact waits

/-- A head of which no further sector is wanted goes where its queues say. -/
theorem headTracks_queues (headW : u.headW = s.headW) (wrQ : u.wrQ = s.wrQ)
    (capQ : (u.head (headIdx t c h)).capQ = (s.head (headIdx t c h)).capQ) (none_ : (s.head (headIdx t c h)).want = [])
    (none' : (u.head (headIdx t c h)).want = []) : headTracks u t c h = headTracks s t c h := by
  unfold headTracks
  simp only [headW, wrQ, capQ, none', none_, List.filter_nil, List.map_nil]

theorem CaptureRest.headTracks (rest : CaptureRest t (headIdx t c h) ls s u) (none_ : (s.head (headIdx t c h)).want = []) :
    Machine.headTracks u t c h = Machine.headTracks s t c h := by
  obtain ⟨headW, -, wrQ, -⟩ := rest.side
  have task := rest.task
  simp only [headTask, Prod.mk.injEq] at task
  obtain ⟨want, capQ, -, -⟩ := task
  exact headTracks_queues headW wrQ capQ none_ (want.trans none_)

/-- A head of which nothing is wanted, and that is where its work is, stays, and its queue is as it was. -/
theorem CaptureRest.stays (rest : CaptureRest t (headIdx t c h) ls s u) (none_ : (s.head (headIdx t c h)).want = [])
    (home : Machine.headTracks s t c h = [] ∨
      (Machine.headTracks s t c h).contains (s.headS (headIdx t c h)).home.1 = true) :
    fillCap (headGo u t c h) t c h = u := by
  have tracks := rest.headTracks none_
  have task := rest.task
  simp only [headTask, Prod.mk.injEq] at task
  obtain ⟨want, -, -, -⟩ := task
  have here : headGo u t c h = u := by
    unfold headGo
    rcases home with nothing | home
    · simp only [tracks, nothing]
    · have works : headWorks u t c h = true := by
        rw [headWorks, tracks, rest.side.2.1, home, Bool.or_true]
      dsimp only
      split
      · rfl
      · exact if_pos (.inl works)
  have last : takeEntry u t c h = none := by
    unfold takeEntry nearest
    simp [want, none_]
  rw [here, fillCap]
  split
  · simp only [fillQueue, last, ite_self]
  · rfl

end

/-! ### CAPTURE_END -/

section
variable {s : State} {t c h i : Nat} {a b : List Int} {k kf : Capture} {rest : List Capture} {ba bb : Bank} {d : Live}

theorem exec_captureEnd (on : channelOn s t) (hc : c < 4) (hh : h < 24) :
    exec (.captureEnd t c h a b) s = .next (captureEnd s t c h a b) := onHeadCh_next on hc hh

/-- A framed capture with its soft values, as the head holds it. -/
def detected (t c h : Nat) (kf : Capture) (d : Live) : Capture :=
  { kf with softA := softWord (capPsa t c h kf 0) d.ma, softB := softWord (capPsa t c h kf 1) d.mb
            edgeB := kf.frA.posA.isNone && kf.frB.posA.isSome }

/-- The capture in progress becomes the newest held one. -/
def heldCapture (s : State) (t i : Nat) (k : Capture) (rest : List Capture) (b : List Int) : State :=
  s.took.took.setHead i
    { s.head i with curs := rest, held := k :: (s.head i).held, align := (dataSamples s t k b).drop (bankLen - 256) }

/-- The sectors wanted of a capture as its codewords go to the decoder queue. -/
def tracksEnded (s : State) (t c h : Nat) (k : Capture) : State :=
  let s' := match k.ent.a with | some w => endTrack s t c h 0 w k (alone s t k 0) | none => s
  match k.ent.b with | some w => endTrack s' t c h 1 w k (alone s' t k 1) | none => s'


/-- What the reading of two framed lanes leaves before their codewords go on. -/
theorem captureEnd_of_framed {ya yb : List Smp} (curs : (s.head i).curs = k :: rest) (hi : i = headIdx t c h)
    (laneA : k.laneA = true) (laneB : k.laneB = true)
    (lanes : ∀ r, r < 2 → tLane s t (laneOf c h r) = false)
    (hba : ba = fillBank s t (laneOf c h 0) k k.flA a) (hbb : bb = fillBank s t (laneOf c h 1) k k.flB b)
    (hya : ya = equalised s t (laneOf c h 0) k k.ent.target ba) (hyb : yb = equalised s t (laneOf c h 1) k k.ent.target bb)
    (hkf : kf = frameCapture s t c h k ya yb) (framedA : kf.frA.posA.isSome = true) (framedB : kf.frB.posA.isSome = true)
    (hd : d = detectLive s t kf (chanOf s i kf (targetOf s t kf.zone kf.ent.target)) ya yb) :
    ∃ ea eb g da db, captureEnd s t c h a b =
      fillCap (headGo (endLane (endLane (tracksEnded (measureLag (countEnd (adaptKappa (adaptLane (adaptLane
        (storeLane (storeLane (heldCapture s t i (detected t c h kf d) rest b) t (laneOf c h 0) (detected t c h kf d) ba a)
          t (laneOf c h 1) (detected t c h kf d) bb b)
        t (laneOf c h 0) (detected t c h kf d) kf.flA kf.frA ba ea d.xa)
        t (laneOf c h 1) (detected t c h kf d) kf.flB kf.frB bb eb d.xb) t i (detected t c h kf d) g da db ea eb)
        t c h (detected t c h kf d)) t c h (detected t c h kf d)) t c h (detected t c h kf d))
        t (laneOf c h 0) (decide (rest ≠ []) || decide ((s.head i).capQ ≠ [])))
        t (laneOf c h 1) (decide (rest ≠ []) || decide ((s.head i).capQ ≠ []))) t c h) t c h := by
  have laneOn : tLane s t (laneOf c h 0) = false := lanes 0 (by decide)
  have laneOn' : tLane s t (laneOf c h 1) = false := lanes 1 (by decide)
  have still : ({ k with laneA := k.laneA && !(tLane s t (laneOf c h 0)), laneB := k.laneB && !(tLane s t (laneOf c h 1)) } :
      Capture) = k := by
    rw [laneOn, laneOn', Bool.not_false, Bool.and_true, Bool.and_true]
  have lanesA : kf.laneA = true := by rw [hkf]; exact laneA
  have lanesB : kf.laneB = true := by rw [hkf]; exact laneB
  have fold : ({ kf with softA := softWord (capPsa t c h kf 0) d.ma, softB := softWord (capPsa t c h kf 1) d.mb
                         edgeB := kf.frA.posA.isNone && kf.frB.posA.isSome } : Capture) = detected t c h kf d := rfl
  subst hi
  refine ⟨errors (targetOf s t kf.zone kf.ent.target)
      (chanOf s (headIdx t c h) kf (targetOf s t kf.zone kf.ent.target)).ka (d.ma.map fun v => decide (v < 0))
      (if alone s t kf 0 then [] else d.mb.map fun v => decide (v < 0)) d.xa,
    errors (targetOf s t kf.zone kf.ent.target)
      (chanOf s (headIdx t c h) kf (targetOf s t kf.zone kf.ent.target)).kb (d.mb.map fun v => decide (v < 0))
      (if alone s t kf 1 then [] else d.ma.map fun v => decide (v < 0)) d.xb,
    targetOf s t kf.zone kf.ent.target, d.ma.map fun v => decide (v < 0), d.mb.map fun v => decide (v < 0), ?_⟩
  unfold captureEnd
  simp only [curs, still]
  simp only [laneA, laneB, laneOn, laneOn', Bool.not_false, Bool.and_true, if_true, ← hba, ← hbb, ← hya, ← hyb, ← hkf, ← hd,
    fold]
  simp only [lanesA, lanesB, framedA, framedB, if_true]
  rfl

end

/-! ### What the end of a framed capture leaves -/

section
variable {s v : State} {t c h i l : Nat} {ls : List Nat} {k : Capture} {b : Bank} {xs : List Int}

theorem storeLane_bank : bankOf (storeLane s t l k b xs) t l k.id = b := by
  unfold bankOf storeLane State.bump State.bumpF
  dsimp only
  rw [State.setF_eq, setReg_lane, State.modLane_eq, State.setLane_lane]
  split <;> rfl

/-- The codewords of two framed lanes go to the decoder queue, and nothing leaves it. -/
theorem tracksEnded_queues (laneA : k.laneA = true) (laneB : k.laneB = true) (framedA : k.frA.posA ≠ none)
    (framedB : k.frB.posA ≠ none) :
    CaptureRest t i ls s (tracksEnded s t c h k) ∧
      (∀ w, k.ent.a = some w → codewordQueued (tracksEnded s t c h k) t c h 0 k w k.softA) ∧
      (∀ w, k.ent.b = some w → codewordQueued (tracksEnded s t c h k) t c h 1 k w k.softB) := by
  have first (v : State) (w : Want) (single : Bool) := endTrack_queues (s := v) (t := t) (c := c) (h := h) (i := i) (r := 0)
    (ls := ls) (k := k) (w := w) (single := single) laneA framedA
  have second (v : State) (w : Want) (single : Bool) := endTrack_queues (s := v) (t := t) (c := c) (h := h) (i := i) (r := 1)
    (ls := ls) (k := k) (w := w) (single := single) laneB framedB
  unfold tracksEnded
  cases k.ent.a with
  | none =>
    cases k.ent.b with
    | none => exact ⟨.refl s, nofun, nofun⟩
    | some y => exact ⟨(second s y _).1, nofun, fun w e => Option.some.inj e ▸ (second s y _).2⟩
  | some x =>
    cases k.ent.b with
    | none => exact ⟨(first s x _).1, fun w e => Option.some.inj e ▸ (first s x _).2, nofun⟩
    | some y =>
      exact ⟨(first s x _).1.trans (second _ y _).1, fun w e => Option.some.inj e ▸ (second _ y _).1.queued (first s x _).2,
        fun w e => Option.some.inj e ▸ (second _ y _).2⟩

/-- Two lanes that are not asked to sleep go on or wait. -/
theorem CaptureRest.endLanes {more : Bool} (hc : c < 4) (hh : h < 24)
    (unasked : ∀ r, r < 2 → s.bit (aLane t (laneOf c h r) 0) 0 = false) :
    CaptureRest t i ls s (Machine.endLane (Machine.endLane s t (laneOf c h 0) more) t (laneOf c h 1) more) := by
  have range (r : Nat) (hr : r < 2) : laneOf c h r < 192 := by unfold laneOf; omega
  have first : CaptureRest t i ls s (Machine.endLane s t (laneOf c h 0) more) :=
    .endLane (range 0 (by decide)) (unasked 0 (by decide))
  exact first.trans (.endLane (range 1 (by decide)) ((first.ctrl (range 1 (by decide))).trans (unasked 1 (by decide))))

/-- A framed capture is counted, its codewords go to the decoder queue, and the lanes go on. -/
theorem CaptureRest.framedEnd {more : Bool} (hc : c < 4) (hh : h < 24)
    (lanes : ∀ r, r < 2 → s.fld (aLane t (laneOf c h r) 0x40) 23 0 < 2 ^ 24 - 1 ∧ s.bit (aLane t (laneOf c h r) 0) 0 = false)
    (idle : (calJob s t c).step ≠ 4) (laneA : k.laneA = true) (laneB : k.laneB = true) (framedA : k.frA.posA ≠ none)
    (framedB : k.frB.posA ≠ none)
    (ended : v = Machine.endLane (Machine.endLane (tracksEnded (measureLag (Machine.countEnd s t c h k) t c h k) t c h k)
      t (laneOf c h 0) more) t (laneOf c h 1) more) :
    CaptureRest t i ls s v ∧ (∀ w, k.ent.a = some w → codewordQueued v t c h 0 k w k.softA) ∧
      (∀ w, k.ent.b = some w → codewordQueued v t c h 1 k w k.softB) := by
  have range (r : Nat) (hr : r < 2) : laneOf c h r < 192 := by unfold laneOf; omega
  have counted : CaptureRest t i ls s (Machine.countEnd s t c h k) := .countEnd fun r hr => (lanes r hr).1
  rw [measureLag_idle (by rw [counted.side.2.2.2]; exact idle)] at ended
  obtain ⟨tracks, first, second⟩ := tracksEnded_queues (i := i) (ls := ls) (s := Machine.countEnd s t c h k) (t := t) (c := c) (h := h)
    laneA laneB framedA framedB
  have sofar := counted.trans tracks
  have after : CaptureRest t i ls (tracksEnded (Machine.countEnd s t c h k) t c h k) v := by
    rw [ended]
    exact .endLanes hc hh fun r hr => (sofar.ctrl (range r hr)).trans (lanes r hr).2
  exact ⟨sofar.trans after, fun w e => after.queued (first w e), fun w e => after.queued (second w e)⟩

/-- Beside a tile's units and registers only the recorder, the interrupts, what is emitted and what is drawn change. -/
theorem CaptureRest.drawn {tl : TileSide} {free : Nat} (rest : CaptureRest t i ls { s with tl := tl, free := free } v) :
    v = { s with regs := v.regs, irq := v.irq, owl := v.owl, out := v.out, tl := v.tl, free := v.free } := by
  have frame := rest.work.frame
  have drawn : v.free = free := congrArg State.free frame
  rw [drawn]
  exact frame

/-- What a capture adapts leaves the window counters. -/
theorem adapted_window {j : Nat} {f f' : CapFlags} {fr fr' : Framing} {b' : Bank} {es es' ea eb : List (Option Int)} {ys ys' : List Smp}
    {l' : Nat} {g : List Int} {da db : List Bool} :
    (adaptKappa (adaptLane (adaptLane s t l k f fr b es ys) t l' k f' fr' b' es' ys') t i k g da db ea eb).reg (aLane t j 0x40) =
      s.reg (aLane t j 0x40) := by
  rw [adaptKappa_window, adaptLane_window, adaptLane_window]

end

/-- Settles O16. The capture becomes the newest held one and its samples the lanes' banks; all that follows leaves both
(`CaptureRest`) and only adds to the decoder queue, which `tracksEnded_queues` gives the codewords. -/
theorem framedCapturesReachTheDecoder : Obligations.FramedCapturesReachTheDecoder := by
  rintro s t c h i a b k kf rest ba bb d on hc hh hi curs laneA laneB lanes idle wants home hba hbb hkf framedA framedB hd
  obtain ⟨ea, eb, g, da, db, ended⟩ := captureEnd_of_framed curs hi laneA laneB (fun r hr => (lanes r hr).1) hba hbb rfl rfl hkf
    (Option.isSome_iff_ne_none.2 framedA) (Option.isSome_iff_ne_none.2 framedB) hd
  have lanesA : kf.laneA = true := by rw [hkf]; exact laneA
  have lanesB : kf.laneB = true := by rw [hkf]; exact laneB
  have ent : kf.ent = k.ent := by rw [hkf]; rfl
  have id : kf.id = k.id := by rw [hkf]; rfl
  generalize heldIs : heldCapture s t i (detected t c h kf d) rest b = v0 at ended
  generalize (decide (rest ≠ []) || decide ((s.head i).capQ ≠ [])) = more at ended
  have head : v0.head i = { s.head i with
      curs := rest, held := detected t c h kf d :: (s.head i).held
      align := (dataSamples s t (detected t c h kf d) b).drop (bankLen - 256) } := by
    rw [← heldIs, heldCapture, State.setHead_head]
  have regs (a : Nat) : v0.reg a = s.reg a := by rw [← heldIs]; rfl
  have jobs : calJob v0 t c = calJob s t c := by rw [← heldIs]; rfl
  have frame : v0 = { s with tl := v0.tl, free := v0.free } := by rw [← heldIs]; rfl
  have stays : (v0.head (headIdx t c h)).want = [] ∧ (Machine.headTracks v0 t c h = [] ∨
      (Machine.headTracks v0 t c h).contains (v0.headS (headIdx t c h)).home.1 = true) := by
    subst hi
    have none_ : (v0.head (headIdx t c h)).want = [] := by rw [head]; exact wants
    rw [headTracks_queues (by rw [← heldIs]; rfl) (by rw [← heldIs]; rfl) (by rw [head]) wants none_]
    exact ⟨none_, by rw [← heldIs]; exact home⟩
  clear heldIs
  -- the samples are stored, and nothing that follows touches them
  have apart : laneOf c h 0 ∉ [laneOf c h 1] := by unfold laneOf; simp
  have range (r : Nat) (hr : r < 2) : laneOf c h r < 192 := by unfold laneOf; omega
  obtain ⟨v1, h1⟩ : ∃ v, storeLane v0 t (laneOf c h 0) (detected t c h kf d) ba a = v := ⟨_, rfl⟩
  obtain ⟨v2, h2⟩ : ∃ v, storeLane v1 t (laneOf c h 1) (detected t c h kf d) bb b = v := ⟨_, rfl⟩
  rw [h1, h2] at ended
  generalize ha : adaptKappa _ t i _ g da db ea eb = v3 at ended
  generalize he : endLane (endLane _ _ _ _) _ _ _ = v4 at ended
  have first : CaptureRest t i [laneOf c h 0, laneOf c h 1] v0 v1 := h1 ▸ .storeLane (List.mem_cons_self)
  have second {ls : List Nat} (mem : laneOf c h 1 ∈ ls) : CaptureRest t i ls v1 v2 := h2 ▸ .storeLane mem
  have adapted {ls : List Nat} : CaptureRest t i ls v2 v3 := ha ▸ (CaptureRest.adaptLane.trans .adaptLane).trans .adaptKappa
  have sofar := (first.trans (second (List.mem_cons_of_mem _ List.mem_cons_self))).trans adapted
  have lanes3 (r : Nat) (hr : r < 2) : v3.fld (aLane t (laneOf c h r) 0x40) 23 0 < 2 ^ 24 - 1 ∧
      v3.bit (aLane t (laneOf c h r) 0) 0 = false := by
    rw [sofar.ctrl (range r hr), State.fld, ← ha, adapted_window, ← h2, storeLane_window, ← h1, storeLane_window, regs, State.bit,
      regs]
    exact (lanes r hr).2
  have idle3 : (calJob v3 t c).step ≠ 4 := by rw [sofar.side.2.2.2, jobs]; exact idle
  have end_ {ls : List Nat} := CaptureRest.framedEnd (i := i) (ls := ls) (k := detected t c h kf d) hc hh lanes3 idle3 lanesA lanesB
    framedA framedB he.symm
  have last {ls : List Nat} : CaptureRest t i ls v3 v4 := end_.1
  obtain ⟨-, queuedA, queuedB⟩ := end_ (ls := [])
  have all := sofar.trans last
  have there : fillCap (headGo v4 t c h) t c h = v4 := by
    subst hi
    exact all.stays stays.1 stays.2
  rw [there] at ended
  have task := all.task
  rw [head] at task
  simp only [headTask, Prod.mk.injEq] at task
  obtain ⟨-, -, curs4, held4⟩ := task
  refine ⟨v4, (exec_captureEnd on hc hh).trans (congrArg _ ended), curs4, ⟨detected t c h kf d, by rw [held4]; rfl, id, ent⟩,
    ?_, ?_, ?_, ?_, ?_⟩
  · rw [(((second List.mem_cons_self).trans adapted).trans last).banks _ _ apart, ← h1, ← id]
    exact storeLane_bank (k := detected t c h kf d)
  · rw [(adapted.trans last).banks _ _ List.not_mem_nil, ← h2, ← id]
    exact storeLane_bank (k := detected t c h kf d)
  · rw [← ent, ← id]
    exact queuedA
  · rw [← ent, ← id]
    exact queuedB
  · rw [frame] at all
    exact all.drawn

end Sys2Proof.Machine
end

section
/-! SUPPORT. O20: REDETECT, FRAMEB, REALIGN, PARTNER and COMBINE on stored samples, and what FORMATTER_RESULT tells a
context of their decodes (R64, R95, R126 to R129, R131, R134, R173, R179, R395). -/

namespace Sys2Proof.Machine

/-! ### A job given to the detector is not lost (R129, R134) -/

/-- A job waits in the stored decoder queue or an engine works on it. -/
def placed (j : Job) (d : DetX) : Prop := j ∈ d.stQ ∨ ∃ e, (d.eng e).cur = some j

section
variable {j : Job} {d : DetX} {pool : Word}

/-- An engine that works goes on with its job when one with room takes another. -/
theorem working_kept {d' : DetX} {k e : Nat} (others : ∀ e, e ≠ k → d'.eng e = d.eng e)
    (idle : (d.eng k).cur = none ∨ (d'.eng k).cur = (d.eng k).cur) (working : (d.eng e).cur = some j) : (d'.eng e).cur = some j := by
  by_cases same : e = k
  · subst same
    rcases idle with idle | idle
    · exact absurd (idle.symm.trans working) nofun
    · exact idle.trans working
  · rw [others e same]
    exact working

theorem placed.kept {d' : DetX} {k : Nat} (here : placed j d) (stQ : d'.stQ = d.stQ) (others : ∀ e, e ≠ k → d'.eng e = d.eng e)
    (idle : (d.eng k).cur = none ∨ (d'.eng k).cur = (d.eng k).cur) : placed j d' := by
  rcases here with waits | ⟨e, working⟩
  · exact .inl (stQ ▸ waits)
  · exact .inr ⟨e, working_kept others idle working⟩

/-- An engine found idle is idle. -/
theorem idle_of_find {k : Nat} (found : (List.range 32).find? (fun k => decide ((d.eng k).cur = none)) = some k) :
    (d.eng k).cur = none := by simpa using List.find?_some found

theorem giveOp_placed (here : placed j d) : placed j (giveOp d) := by
  unfold giveOp
  split_ifs
  · exact here
  · split <;> exact here

theorem giveLive_placed (here : placed j d) : placed j (giveLive pool d) := by
  unfold giveLive
  dsimp only
  split
  · exact here
  · split
    · next k found =>
      exact here.kept rfl (fun e other => by simp only [DetX.eng, DetX.setEng, Tab.at_to_ne _ _ _ other])
        (.inl (idle_of_find found))
    · split
      · next k _ =>
        exact here.kept (k := k) rfl (fun e other => by simp only [DetX.eng, DetX.setEng, Tab.at_to_ne _ _ _ other])
          (.inr (by simp only [DetX.eng, DetX.setEng, Tab.at_to_self]))
      · exact here

theorem giveStored_placed (here : placed j d) : placed j (giveStored pool d) := by
  unfold giveStored
  dsimp only
  split_ifs
  · exact here
  · split
    · next x k _ found =>
      rcases here with waits | ⟨e, working⟩
      · by_cases same : j = x
        · exact .inr ⟨k, by simp only [DetX.eng, DetX.setEng, Tab.at_to_self, same]⟩
        · exact .inl ((List.mem_erase_of_ne same).2 waits)
      · exact .inr ⟨e, working_kept (fun e other => by simp only [DetX.eng, DetX.setEng, Tab.at_to_ne _ _ _ other])
          (.inl (idle_of_find found)) working⟩
    · exact here

theorem repeatDet_placed {f : DetX → DetX} (n : Nat) (step : ∀ d, placed j d → placed j (f d)) (here : placed j d) :
    placed j (repeatDet n f d) :=
  List.foldlRecOn (motive := placed j) _ _ here fun x there _ _ => step x there

theorem pumpDet_placed (here : placed j d) : placed j (pumpDet pool d) :=
  repeatDet_placed 32 (fun _ => giveStored_placed) (repeatDet_placed 64 (fun _ => giveLive_placed)
    (repeatDet_placed 2 (fun _ => giveOp_placed) here))

theorem detPump_placed {s : State} {t : Nat} (here : placed j (s.det t)) : placed j ((detPump s t).det t) := by
  rw [detPump, State.modDet_eq, State.setDet_det]
  exact pumpDet_placed here

end

/-! ### Reads of the sample histories are counted (R395) -/

/-- Nothing has changed but registers, notices and what the store's counters keep. -/
def readsCounted (s u : State) : Prop :=
  u = { s with regs := u.regs, irq := u.irq, owl := u.owl, out := u.out, memp := u.memp }

section
variable {s u v : State} {t : Nat}

theorem readsCounted.refl (s : State) : readsCounted s s := rfl

theorem readsCounted.trans (h : readsCounted s u) (k : readsCounted u v) : readsCounted s v := by
  unfold readsCounted at *
  rw [k, h]

theorem readsCounted.ite {p : Prop} [Decidable p] (yes : readsCounted s u) (no : readsCounted s v) :
    readsCounted s (if p then u else v) := by
  split
  · exact yes
  · exact no

theorem readsCounted.setReg (a : Nat) (w : Word) : readsCounted s (s.setReg a w) := rfl

theorem readsCounted.notices (h : onlyNotices s u) : readsCounted s u := by
  unfold readsCounted
  rw [h.1]

theorem mempTileLevel_counted {k : Nat} : readsCounted s (mempTileLevel s k) :=
  .ite (.notices (irqLevel_notices _ _ _ _)) (.refl s)

theorem eccCount_counted (r : EccRead) : readsCounted s (eccCount s r) := by
  have owl {v : State} {code index st cause d0 d1 : Nat} : readsCounted v (owlHub v code index st cause d0 d1) :=
    .notices (owlPost_notices _ _ _ _ _ _ _)
  have bump (v : State) (a : Nat) : readsCounted v (v.bump a) := .setReg a _
  unfold eccCount
  dsimp only
  split
  · exact .refl s
  · exact .ite (bump s _) ((bump s _).trans (readsCounted.trans (u := { s.bump _ with memp := _ }) rfl owl))
  · have levels (v : State) : readsCounted v (mempLevels v) :=
      .notices (onlyNotices_trans (irqLevel_notices _ _ _ _) (irqLevel_notices _ _ _ _))
    have marked (v : State) (p : Prop) [Decidable p] (a : Nat) : readsCounted v (if p then v.bump a else v) :=
      .ite (bump v a) (.refl v)
    have noted (v : State) (a : Nat) (w : Word) : readsCounted v (v.setReg a w) := .setReg a w
    exact (bump s _).trans ((marked _ _ _).trans ((marked _ _ _).trans ((noted _ _ _).trans ((noted _ _ _).trans
      ((noted _ _ _).trans (owl.trans ((levels _).trans mempTileLevel_counted)))))))

theorem countReads_counted (us : HistReads) : readsCounted s (countReads s t us) := by
  have read (v : State) (x : EccRead) : readsCounted v (if isHist t x then
      (if (eccCls x).bad then (eccCount v x).bump (aLane t (eccIndex x.addr / 1876) 0x88) else eccCount v x) else v) :=
    .ite ((eccCount_counted x).trans (.ite (.setReg _ _) (.refl _))) (.refl v)
  exact List.foldlRecOn (motive := readsCounted s) _ _ (.refl s) fun v so_far x _ => so_far.trans (read v x)

end

/-! ### An operation of which nothing stands in the way (R126, R131) -/

section
variable {s v : State} {t op r : Nat} {o : HistOp} {q : HistReq} {k : Capture} {x : Redo} {us : HistReads} {js : List Job}

theorem storedOp_worked {bad : HistReq → Bool} {f : State → HistReq → Capture → State} (still : detPump s t = s)
    (first : opFirst s t op = some o) (capture : opCapture s o.req = some k) (fine : bad o.req = false)
    (range : opRange s t o.req k = true) : storedOp s t op bad f = detPump (f s o.req k) t := by
  unfold storedOp
  simp only [still, first, capture, fine, range, Bool.false_eq_true, Bool.not_true, or_self, if_false]

/-- A track named by number is that reader's. -/
theorem opOnB_named (track : q.track = r + 1) (hr : r < 2) : (if opOnB s t q k then 1 else 0) = r := by
  unfold opOnB
  obtain rfl | rfl : r = 0 ∨ r = 1 := by omega
  · simp [track]
  · simp [track]

theorem opReaders_named (track : q.track = r + 1) (hr : r < 2) : opReaders s t q k = [r] := by
  unfold opReaders
  rw [if_neg (by omega), opOnB_named track hr]

/-- A lane that gave its samples still has its track. -/
theorem laneGone_captured (laneA : k.laneA = true) (laneB : k.laneB = true) : laneGone k r = false := by
  unfold laneGone
  split
  · rw [laneA]; rfl
  · rw [laneB]; rfl

/-! ### Codewords of a stored detection go to the stored decoder queue (R117, R134) -/

/-- A job is in the stored decoder queue. -/
theorem sendStored_sends {s0 : State} {j : Job} (limit : 1 ≤ q.limit) (room : (s.det t).stQ.length < 4) :
    sendStored s0 s t q [j] = s.modDet t fun d => { d with
      stQ := d.stQ ++ [j], ops := d.ops.map fun o => if o.req = q then { o with left := 1 } else o } := by
  unfold sendStored
  rw [if_neg (by omega), if_neg (by simp only [List.length_singleton]; omega)]
  rfl

/-- The job of a stored detection of reader `r`'s track. -/
def redetected (s : State) (t : Nat) (q : HistReq) (k : Capture) (r : Nat) (x : Redo) (us : HistReads) : Job :=
  let p := opHead q
  ⟨storedEnt s t p.1 p.2 q k r x (softWord (capPsa t p.1 p.2 k r) (storedSoft s t p.1 p.2 k q.target r x us)),
    .stored q (decide (r = if ctxOnB s t q.ctx k then 1 else 0))⟩

/-- Nothing has changed but registers, notices, the store's counters, what is drawn and the units of the tiles. -/
def storedWork (s u : State) : Prop :=
  u = { s with regs := u.regs, irq := u.irq, owl := u.owl, out := u.out, memp := u.memp, free := u.free, tl := u.tl }

/-- One captured track is detected again and sent to be decoded. -/
theorem redetect_sends (laneA : k.laneA = true) (laneB : k.laneB = true) (limit : 1 ≤ q.limit)
    (room : (s.det t).stQ.length < 4) :
    redetected s t q k r x us ∈ ((redetect s t q k [r] x us).det t).stQ ∧ storedWork s (redetect s t q k [r] x us) := by
  have counted : readsCounted s.took.took (countReads s.took.took t us) := countReads_counted us
  unfold readsCounted at counted
  have there : (countReads s.took.took t us).det t = s.det t := by rw [counted]; rfl
  unfold redetect
  simp only [laneGone_captured laneA laneB, Bool.not_false, List.filter_cons, if_true, List.filter_nil, List.cons_ne_nil, if_false,
    List.foldl_cons, List.foldl_nil, List.length_singleton, Nat.lt_irrefl, List.map_cons, List.map_nil]
  rw [sendStored_sends limit (by rw [noteSoft, State.modHead_eq, State.setHead_det, there]; exact room)]
  constructor
  · rw [State.modDet_eq, State.setDet_det]
    exact List.mem_append_right _ (List.mem_singleton.2 rfl)
  · unfold storedWork
    rw [State.modDet_eq, noteSoft, State.modHead_eq, counted]
    rfl

/-! ### The four operations that detect one track again -/

/-- What one of the operations leaves before the detector goes on: the track's job waits to be decoded. -/
def sentAgain (s : State) (t : Nat) (q : HistReq) (k : Capture) (r : Nat) (x : Redo) (us : HistReads) (v : State) : Prop :=
  redetected s t q k r x us ∈ (v.det t).stQ ∧ storedWork s v

theorem framebOp_one {p : Int} (track : q.track = r + 1) (hr : r < 2) (laneA : k.laneA = true) (laneB : k.laneB = true)
    (lone : (if r = 0 then k.frA.lone else k.frB.lone) = some p) :
    framebOp s t q k us = redetect s t q k [r] (if r = 0 then { Redo.plain k with fa := Framing.fromSyncB p }
      else { Redo.plain k with fb := Framing.fromSyncB p }) us := by
  have found : storedSyncB s t (opHead q).1 (opHead q).2 k r us = some p := by unfold storedSyncB; rw [lone]
  unfold framebOp
  rw [opReaders_named track hr]
  obtain rfl | rfl : r = 0 ∨ r = 1 := by omega
  · simp [found, laneGone_captured laneA laneB, Redo.plain]
  · simp [found, laneGone_captured laneA laneB, Redo.plain]

/-- The first try of a realignment takes the first offset of the probe's order. -/
theorem realignOp_first {d : Int} {rest : List Int} (track : q.track = r + 1) (hr : r < 2) (laneA : k.laneA = true)
    (laneB : k.laneB = true) (here : ((s.det t).ops.find? fun y => decide (y.req = q)) = some o) (fresh : o.offs = none)
    (probed : probeOffs s t q k r us = d :: rest) :
    realignOp s t q k us = redetect (s.modDet t fun x => { x with
      ops := x.ops.map fun o => if o.req = q then { o with offs := some rest } else o })
      t q k [r] ((Redo.plain k).shift [r] d) us := by
  unfold realignOp
  simp only [opOnB_named track hr, laneGone_captured laneA laneB, here, Option.bind_some, fresh, Option.getD_none, probed,
    Bool.false_eq_true, if_false]

theorem partnerOp_known {bits : List Bool} {b : Bool} (track : q.track = r + 1) (hr : r < 2) (laneA : k.laneA = true)
    (laneB : k.laneB = true) (known : (if r = 0 then k.resB else k.resA) = .conv bits b) :
    partnerOp s t q k us = redetect s t q k [r]
      (if r = 0 then { Redo.plain k with fixB := knownBits (capPsa t (opHead q).1 (opHead q).2 k 1) bits }
        else { Redo.plain k with fixA := knownBits (capPsa t (opHead q).1 (opHead q).2 k 0) bits }) us := by
  unfold partnerOp
  simp only [opOnB_named track hr, laneGone_captured laneA laneB, known, Bool.false_eq_true, if_false]
  obtain rfl | rfl : r = 0 ∨ r = 1 := by omega
  · rfl
  · rfl

theorem storedWork.trans {u : State} (h : storedWork s u) (w : storedWork u v) : storedWork s v := by
  unfold storedWork at *
  rw [w, h]

theorem storedWork.modDet (f : DetX → DetX) : storedWork s (s.modDet t f) := rfl

/-- Where nothing stands in its way, an operation that detects one track again sends the track's job. -/
theorem detectedAgain {i : Instr} (on : channelOn s t) (still : detPump s t = s) (first : opFirst s t op = some o) (hq : q = o.req)
    (capture : opCapture s q = some k) (laneA : k.laneA = true) (laneB : k.laneB = true) (track : q.track = r + 1) (hr : r < 2)
    (limit : 1 ≤ q.limit) (range : opRange s t q k = true) (room : (s.det t).stQ.length < 4)
    (asked : op = 1 ∧ i = .redetect t us ∧ absI (reqOffset q) ≤ 64 ∧ x = (Redo.plain k).shift [r] (reqOffset q) ∨
      op = 2 ∧ i = .frameb t us ∧ (∃ p, (if r = 0 then k.frA.lone else k.frB.lone) = some p ∧
        x = if r = 0 then { Redo.plain k with fa := Framing.fromSyncB p } else { Redo.plain k with fb := Framing.fromSyncB p }) ∨
      op = 3 ∧ i = .realign t us ∧ 1 ≤ q.offset ∧ q.offset ≤ 16 ∧ o.offs = none ∧
        ((s.det t).ops.find? fun y => decide (y.req = q)) = some o ∧
        (∃ d rest, probeOffs s t q k r us = d :: rest ∧ x = (Redo.plain k).shift [r] d) ∨
      op = 4 ∧ i = .partner t us ∧ (∃ bits b, (if r = 0 then k.resB else k.resA) = .conv bits b ∧
        x = if r = 0 then { Redo.plain k with fixB := knownBits (capPsa t (opHead q).1 (opHead q).2 k 1) bits }
          else { Redo.plain k with fixA := knownBits (capPsa t (opHead q).1 (opHead q).2 k 0) bits })) :
    ∃ v, exec i s = .next (detPump v t) ∧ sentAgain s t q k r x us v := by
  subst hq
  have sent := redetect_sends (s := s) (t := t) (q := o.req) (r := r) (x := x) (us := us) laneA laneB limit room
  rcases asked with ⟨rfl, rfl, near, hx⟩ | ⟨rfl, rfl, p, lone, hx⟩ |
    ⟨rfl, rfl, least, most, fresh, here, d, rest, probed, hx⟩ | ⟨rfl, rfl, bits, b, known, hx⟩
  · refine ⟨_, (onTileCh_next on).trans (congrArg _ ((storedOp_worked still first capture ?_ range).trans ?_)), sent⟩
    · exact decide_eq_false (by omega)
    · simp only [opReaders_named track hr, hx]
  · refine ⟨_, (onTileCh_next on).trans (congrArg _ ((storedOp_worked still first capture rfl range).trans ?_)), sent⟩
    simp only [framebOp_one track hr laneA laneB lone, hx]
  · have room' : ((s.modDet t fun x => { x with
        ops := x.ops.map fun y => if y.req = o.req then { y with offs := some rest } else y }).det t).stQ.length < 4 := by
      rw [State.modDet_eq, State.setDet_det]
      exact room
    obtain ⟨mem, work⟩ := redetect_sends (t := t) (q := o.req) (r := r) (x := x) (us := us) laneA laneB limit room'
    refine ⟨_, (onTileCh_next on).trans (congrArg _ ((storedOp_worked still first capture ?_ range).trans ?_)), mem,
      (storedWork.modDet _).trans work⟩
    · rw [decide_eq_false (by omega), decide_eq_false (by omega), Bool.or_false]
    · simp only [realignOp_first track hr laneA laneB here fresh probed, hx]
  · refine ⟨_, (onTileCh_next on).trans (congrArg _ ((storedOp_worked still first capture rfl range).trans ?_)), sent⟩
    simp only [partnerOp_known track hr laneA laneB known, hx]

/-! ### COMBINE -/

theorem combineOp_full {val : List Int} (full : (Tab.at SoftSlot.free (s.det t).soft q.slot).soft = some val) (limit : 1 ≤ q.limit)
    (room : (s.det t).stQ.length < 4) :
    ∃ j, j ∈ ((combineOp s t q k).det t).stQ ∧ j.ent.itmax = q.limit ∧ j.ent.capid = k.id ∧
      j.ent.soft = List.zipWith (fun a b => clampI (-31) 31 (a + b)) (opSoft s t q k) val ∧
      combineOp s t q k = { s with
        tl := { s.tl with dets := (combineOp s t q k).tl.dets, heads := (combineOp s t q k).tl.heads } } := by
  unfold combineOp
  simp only [full]
  rw [sendStored_sends limit (by rw [noteSoft, State.modHead_eq, State.setHead_det]; exact room), State.modDet_eq, State.setDet_det]
  exact ⟨_, List.mem_append_right _ (List.mem_singleton.2 rfl), rfl, rfl, rfl, rfl⟩

end

/-! ### What a stored decode tells its context (R131, R173, R179) -/

section
variable {s : State} {t : Nat} {q : HistReq} {r : PoolRes} {rest : List PoolRes} {o : HistOp} {own : Bool} {as : List Nat}

theorem formatterResult_stored (first : (s.det t).poolOut = r :: rest) (dst : r.dst = .stored q own) : formatterResult s t =
    fillOut (detPump (storedResult (s.setDet t { s.det t with poolOut := rest }) t q own r) t) t := by
  simp only [formatterResult, first, dst]

/-- An operation whose own track gave an accepted word does not go on. -/
theorem opGoesOn_good {conv : Bool} : opGoesOn o true true conv = false := by
  unfold opGoesOn
  split
  · rfl
  · split <;> rfl

/-- A context that has taken a good word and is told of it. -/
def learned (x : Ctx) (r : PoolRes) : Ctx :=
  { x with good := some r.info, results := x.results ++ [(0, resWord .conv true r.iters r.weight)] }

/-- The last decode of an operation, with a word that the context accepts. -/
theorem storedResult_accepted (found : ((s.det t).ops.find? fun o => decide (o.req = q)) = some o) (last : o.left = 1)
    (ctx : q.ctx < 256) (live : (s.ctx t q.ctx).live = true) (conv : r.st = .conv)
    (accepted : Machine.wordOk s (s.ctx t q.ctx).want r.info = true) (fresh : wasRejected (s.ctx t q.ctx) r.info = false) :
    (storedResult s t q true r).ctx t q.ctx = learned (s.ctx t q.ctx) r ∧ onlyTile as s (storedResult s t q true r) := by
  unfold storedResult
  simp only [found, conv, accepted, fresh, opGoesOn_good, last, live, ctx, decide_true, Bool.and_self, Bool.and_false,
    Bool.not_false, Bool.false_eq_true, Nat.lt_irrefl, or_self, and_self, if_true, if_false]
  rw [opDone, State.modDet_eq, State.modDet_eq, State.modCtx_eq]
  have told : ctxLearns (s.ctx t q.ctx) true r.info r.weight = { s.ctx t q.ctx with good := some r.info } := rfl
  rw [tellCtx, State.setCtx_ctx, State.setDet_ctx, State.setDet_ctx, told, if_pos ⟨ctx, live⟩, State.modCtx_eq, State.setCtx_ctx,
    State.setCtx_ctx]
  have det (v : State) (d : DetX) : onlyTile as v (v.setDet t d) := onlyTile_tiles _
  have known (v : State) (x : Ctx) : onlyTile as v (v.setCtx t q.ctx x) := onlyTile_tiles _
  exact ⟨rfl, (((det _ _).trans (det _ _)).trans (known _ _)).trans (known _ _)⟩

theorem pumped_ctx {i : Nat} : (fillOut (detPump s t) t).ctx t i = s.ctx t i := by
  unfold fillOut
  dsimp only
  rw [State.setF_eq, setReg_ctx, State.modDet_eq, State.setDet_ctx, detPump, State.modDet_eq, State.setDet_ctx]

end

/-- Settles O20. An operation on one captured track sends `redetected`, which the detector's order of work keeps
(`detPump_placed`); COMBINE likewise; the last decode of an operation is told to its context
(`storedResult_accepted`). -/
theorem storedDecodesConverge : Obligations.StoredDecodesConverge := by
  refine ⟨?_, ?_, ?_⟩
  · intro s t op r o q k x us i on still first hq capture laneA laneB track hr limit range room asked
    obtain ⟨v, run, sent, work⟩ := detectedAgain on still first hq capture laneA laneB track hr limit range room asked
    have all : storedWork s (detPump v t) := work.trans (.modDet _)
    unfold storedWork at all
    refine ⟨_, _, run, detPump_placed (.inl sent), rfl, rfl, rfl, rfl, ?_⟩
    rw [all]
    exact ⟨rfl, rfl, rfl, rfl, rfl⟩
  · intro s t o q k val on still first hq capture range slot limit room full
    obtain ⟨j, mem, itmax, capid, soft, frame⟩ := combineOp_full (k := k) full limit room
    subst hq
    have run := (onTileCh_next on).trans (congrArg _ (storedOp_worked (bad := fun q => decide (7 < q.slot))
      (f := fun s q k => combineOp s t q k) still first capture (decide_eq_false (by omega)) range))
    refine ⟨_, j, run, detPump_placed (.inl mem), itmax, capid, soft, ?_⟩
    rw [detPump, State.modDet_eq, frame]
    rfl
  · intro s t q r rest o on first dst found last ctx live conv accepted fresh
    have run := (exec_formatterResult on).trans (congrArg _ (formatterResult_stored first dst))
    have ops : (((s.setDet t { s.det t with poolOut := rest }).det t).ops.find? fun o => decide (o.req = q)) = some o := by
      rw [State.setDet_det]
      exact found
    obtain ⟨told, only⟩ := storedResult_accepted (as := [aTile t 0x30]) ops last ctx live conv
      ((wordOk_setDet _).trans accepted) fresh
    refine ⟨_, run, ?_, ?_, (onlyTile_tiles _).trans (only.trans pumped_onlyTile)⟩
    · rw [pumped_ctx, told]
      rfl
    · rw [pumped_ctx, told]
      rfl

end Sys2Proof.Machine
end

section
/-! SUPPORT. O31: what a head that goes to its work changes, on any tile (R46, R58, R227, R236, R237). -/

namespace Sys2Proof.Machine

/-- Work of the tiles that changes nothing of their units but references and the control of the clusters. -/
structure Travel (s u : State) : Prop where
  only : tilesOnly s u
  units : u.tl = { s.tl with headS := u.tl.headS, ctls := u.tl.ctls }

namespace Travel

section
variable {t c h a : Nat} {s u v : State}

theorem refl (s : State) : Travel s s := ⟨.refl, rfl⟩

theorem trans (first : Travel s u) (second : Travel u v) : Travel s v :=
  ⟨first.only.trans second.only, by rw [second.units, first.units]⟩

theorem ite {p : Prop} [Decidable p] (yes : p → Travel s u) (no : ¬p → Travel s v) : Travel s (if p then u else v) := by
  split
  · exact yes ‹_›
  · exact no ‹_›

theorem foldl {α : Type} {f : State → α → State} (step : ∀ s a, Travel s (f s a)) (l : List α) (s : State) :
    Travel s (l.foldl f s) := foldl_related refl trans step l s

theorem setReg (a : Nat) (w : Word) : Travel s (s.setReg a w) := ⟨⟨rfl, List.suffix_refl _⟩, rfl⟩

theorem modHeadS (i : Nat) (f : HeadS → HeadS) : Travel s (s.modHeadS i f) := ⟨⟨rfl, List.suffix_refl _⟩, rfl⟩

theorem modCtl (f : Ctl → Ctl) : Travel s (s.modCtl t c f) := ⟨⟨rfl, List.suffix_refl _⟩, rfl⟩

theorem notices (only : onlyNotices s u) : Travel s u := by
  obtain ⟨frame, out, -⟩ := only
  exact ⟨⟨by rw [frame], out⟩, by rw [frame]⟩

theorem headW (travel : Travel s u) (i : Nat) : u.headW i = s.headW i := by
  rw [State.headW, travel.units, State.headW]

theorem wr (travel : Travel s u) (t : Nat) : u.wr t = s.wr t := by
  rw [State.wr, travel.units, State.wr]

theorem wrQ (travel : Travel s u) (t c : Nat) : u.wrQ t c = s.wrQ t c := by
  rw [State.wrQ, travel.units, State.wrQ]

theorem link (travel : Travel s u) (t e : Nat) : u.link t e = s.link t e := by
  rw [State.link, travel.units, State.link]

theorem setRef (track off : Int) : Travel s (setRef s t c h track off) := by
  unfold Machine.setRef
  exact ((setReg _ _).trans (setReg _ _)).trans (modHeadS _ _)

theorem setZoneOf (z : Nat) : Travel s (setZoneOf s t c z) :=
  foldl (fun _ _ => (setReg _ _).trans (ite (fun _ => setReg _ _) fun _ => refl _)) _ _

theorem aimAll (track : Int) : Travel s (aimAll s t c track) :=
  foldl (fun _ _ => (modHeadS _ _).trans (ite (fun _ => refl _) fun _ => setRef track 0)) _ _

theorem setMode (m : Nat) : Travel s (setMode s t c m) := by
  refine ite (fun _ => refl s) fun _ => ?_
  have marked : Travel s (s.setF (aCtl t c 4) 3 0 m) := setReg _ _
  refine trans (marked.trans ?_) (notices (tileEdge_notices _ _))
  exact ite (fun _ => refl _) fun _ => foldl (fun _ _ => setReg _ _) _ _

theorem unsafeEval (still : noneWriting s t c) : Travel s (unsafeEval s t c false) := by
  have marked : Travel s (s.setF (aCtl t c 4) 23 16 (unsafeCauses s t c)) := setReg _ _
  refine marked.trans (ite (fun _ => ?_) fun _ => refl _)
  have raised (v : State) : Travel v ((v.setB (aCtl t c 4) 31 true).modCtl t c fun x => { x with clean := 0 }) :=
    (setReg _ _).trans (modCtl _)
  have shut := Motion.cutBursts_still (t := t) (c := c) fun h range =>
    (congrArg HeadW.writing ((marked.trans (raised _)).headW _)).trans (still h range)
  exact shut.symm ▸ raised _

theorem goMode (m : Nat) (still : noneWriting s t c) : Travel s (goMode s t c m) :=
  (setMode m).trans (unsafeEval fun h range => (congrArg HeadW.writing ((setMode m).headW _)).trans (still h range))

theorem startSeek (track : Int) (still : noneWriting s t c) : Travel s (startSeek s t c track) := by
  have aimed : Travel s (Machine.aimAll (Machine.setZoneOf s t c (if track < 0 then 0 else zoneOf s t track.toNat)) t c track) :=
    (setZoneOf _).trans (aimAll track)
  refine aimed.trans (ite (fun _ => ?_) fun _ => refl _)
  have counted (v : State) : Travel v ((v.bump (aCtl t c 0x5C)).modCtl t c fun x => { x with mean := none, lost := 0 }) :=
    (setReg _ _).trans (modCtl _)
  exact (counted _).trans (goMode 3 fun h range =>
    (congrArg HeadW.writing ((aimed.trans (counted _)).headW _)).trans (still h range))

/-- A comb that seeks has no head that writes. -/
theorem headGo : Travel s (headGo s t c h) := by
  unfold Machine.headGo
  dsimp only
  split
  · exact refl s
  · refine ite (fun _ => refl s) fun _ => ite (fun _ => ?_) fun _ => ite (fun _ => refl s) fun idle => ?_
    · exact (modHeadS _ _).trans (setRef _ 0)
    · refine startSeek _ fun j range => Bool.eq_false_iff.2 fun writes => idle ?_
      exact List.any_eq_true.2 ⟨j, List.mem_range.2 range, by simp [headWorks, writes]⟩

end

end Travel

/-- A head with no work, or with work where it is, stays. -/
theorem headGo_stays {s : State} {t c h : Nat} (home : headTracks s t c h = [] ∨ headWorks s t c h = true) :
    headGo s t c h = s := by
  unfold headGo
  dsimp only
  rcases home with nothing | works
  · rw [nothing]
  · split
    · rfl
    · exact if_pos (.inl works)

end Sys2Proof.Machine
end

section
/-! SUPPORT. O31: SECTOR_ENCODE (R23, R58, R139 to R141, R149). -/

namespace Sys2Proof.Machine

theorem wordOf'_congr {s u : State} (part : u.part = s.part) (regs : u.regs = s.regs) (e : WrEnt) : wordOf' u e = wordOf' s e := by
  unfold wordOf' headerOf zoneOf bandOf isConv fmtTrk
  rw [zoneOfBand_congr part regs, fld_congr part regs, bit_congr part regs]

theorem onlyRegs.tilesOnly {as : List Nat} {s u : State} (only : onlyRegs as s u) : tilesOnly s u := by
  obtain ⟨-, frame⟩ := only
  exact ⟨by rw [frame], by rw [frame]⟩

theorem onlyRegs.units {as : List Nat} {s u : State} (only : onlyRegs as s u) : u.wr = s.wr ∧ u.wrQ = s.wrQ ∧ u.link = s.link := by
  obtain ⟨-, frame⟩ := only
  rw [frame]
  exact ⟨rfl, rfl, rfl⟩

section
variable {s : State} {t : Nat} {e : WrEnt}

/-- A sector as it is encoded. -/
def encodedEnt (s : State) (e : WrEnt) : WrEnt :=
  { e with bits := if e.discard ∨ e.kind = .calib then [] else scrambled e.psa (wordOf' s e) }

/-- A sector that the hub sent frees its data credits as it is encoded (R23). -/
def encodeFreed (s : State) (t : Nat) (e : WrEnt) : State :=
  if e.kind = .host ∨ (e.kind = .marker ∧ e.nsid ≠ 0) then freeCredits s t 1 2 sectorFlits else s

theorem encodeFreed_units : ∃ ls, encodeFreed s t e = { s with tl := { s.tl with links := ls } } := by
  unfold encodeFreed
  split
  · exact ⟨_, rfl⟩
  · exact ⟨_, rfl⟩

theorem encodeFreed_wr (t' : Nat) : (encodeFreed s t e).wr t' = s.wr t' := by
  obtain ⟨ls, freed⟩ := encodeFreed_units (s := s) (t := t) (e := e)
  rw [freed, State.wr, State.wr]

theorem encodeFreed_wrQ (t' c : Nat) : (encodeFreed s t e).wrQ t' c = s.wrQ t' c := by
  obtain ⟨ls, freed⟩ := encodeFreed_units (s := s) (t := t) (e := e)
  rw [freed, State.wrQ, State.wrQ]

theorem encodeFreed_only : tilesOnly s (encodeFreed s t e) := by
  obtain ⟨ls, freed⟩ := encodeFreed_units (s := s) (t := t) (e := e)
  rw [freed]
  exact ⟨rfl, List.suffix_refl _⟩

theorem encodeFreed_host (host : e.kind = .host) (channel : 2 < (s.link t 1).freed.length) :
    nth 0 ((encodeFreed s t e).link t 1).freed 2 = (nth 0 (s.link t 1).freed 2 + 18) % 65536 := by
  rw [encodeFreed, if_pos (.inl host), freeCredits, State.modLink_eq, State.setLink_link]
  exact nth_setNth_self channel

/-- The sector leaves the assembly queue, encoded, for its cluster's. -/
def encoded (s : State) (t : Nat) (e : WrEnt) : State :=
  (encodeFreed (s.setWr t { s.wr t with inQ := (s.wr t).inQ.erase e }) t e).modWrQ t (psaCluster e.psa) fun q => q ++ [encodedEnt s e]

theorem sectorEncode_next (next : encodeNext s t = some e) : sectorEncode s t =
    headGo (wakeHead (encoded s t e) t (psaCluster e.psa) (psaHead e.psa)) t (psaCluster e.psa) (psaHead e.psa) := by
  have word : wordOf' (encodeFreed (s.setWr t { s.wr t with inQ := (s.wr t).inQ.erase e }) t e) e = wordOf' s e := by
    obtain ⟨ls, freed⟩ := encodeFreed_units (s := s.setWr t { s.wr t with inQ := (s.wr t).inQ.erase e }) (t := t) (e := e)
    rw [freed]
    exact wordOf'_congr rfl rfl e
  unfold sectorEncode
  simp only [next]
  rw [encoded, encodedEnt, ← word]
  rfl

theorem encoded_effect : ((encoded s t e).wr t).inQ = (s.wr t).inQ.erase e ∧
    (encoded s t e).wrQ t (psaCluster e.psa) = s.wrQ t (psaCluster e.psa) ++ [encodedEnt s e] ∧
    (e.kind = .host → 2 < (s.link t 1).freed.length →
      nth 0 ((encoded s t e).link t 1).freed 2 = (nth 0 (s.link t 1).freed 2 + 18) % 65536) ∧
    tilesOnly s (encoded s t e) := by
  unfold encoded
  refine ⟨?_, ?_, fun kind channel => ?_, ?_⟩
  · rw [State.modWrQ_eq, State.setWrQ_wr, encodeFreed_wr, State.setWr_wr]
  · rw [State.modWrQ_eq, State.setWrQ_wrQ, encodeFreed_wrQ, State.setWr_wrQ]
  · rw [State.modWrQ_eq, State.setWrQ_link]
    exact encodeFreed_host (s := s.setWr t { s.wr t with inQ := (s.wr t).inQ.erase e }) kind channel
  · have taken : tilesOnly s (s.setWr t { s.wr t with inQ := (s.wr t).inQ.erase e }) := ⟨rfl, List.suffix_refl _⟩
    have queued (v : State) (f : WrQ → WrQ) : tilesOnly v (v.modWrQ t (psaCluster e.psa) f) := ⟨rfl, List.suffix_refl _⟩
    exact (taken.trans encodeFreed_only).trans (queued _ _)

/-- SECTOR_ENCODE moves the sector to its cluster's queue, and its head goes to its work. -/
theorem sectorEncode_effect (next : encodeNext s t = some e) :
    ((sectorEncode s t).wr t).inQ = (s.wr t).inQ.erase e ∧
      (sectorEncode s t).wrQ t (psaCluster e.psa) = s.wrQ t (psaCluster e.psa) ++ [encodedEnt s e] ∧
      (e.kind = .host → 2 < (s.link t 1).freed.length →
        nth 0 ((sectorEncode s t).link t 1).freed 2 = (nth 0 (s.link t 1).freed 2 + 18) % 65536) ∧
      tilesOnly s (sectorEncode s t) := by
  obtain ⟨inQ, wrQ, link, only⟩ := encoded_effect (s := s) (t := t) (e := e)
  rw [sectorEncode_next next]
  generalize encoded s t e = v at inQ wrQ link only
  have woke := wakeHead_onlyRegs (s := v) (t := t) (c := psaCluster e.psa) (h := psaHead e.psa)
  have go := Travel.headGo (s := wakeHead v t (psaCluster e.psa) (psaHead e.psa)) (t := t) (c := psaCluster e.psa) (h := psaHead e.psa)
  obtain ⟨wr', wrQ', link'⟩ := woke.units
  rw [go.wr, go.wrQ, go.link, wr', wrQ', link']
  exact ⟨inQ, wrQ, link, (only.trans woke.tilesOnly).trans go.only⟩

end

end Sys2Proof.Machine
end

section
/-! SUPPORT. O31: SERIALISER_TAKE (R142, R146, R149, R156, R157). -/

namespace Sys2Proof.Machine

/-! ### Entries that end at once -/

section
variable {s : State} {t : Nat} {e : WrEnt}

/-- An entry that did not fail on the media leaves its head in service. -/
theorem finishWrite_ended {st : WrSt} {x : State} (ended : endWrite s t e st = resulted x t e st) (units : x.tl = s.tl)
    (fine : st ≠ .wfail) : finishWrite s t e st = finished s t e st x := by
  have kept (i : Nat) : (resulted x t e st).headW i = s.headW i := by
    rw [resulted, State.modWr_eq, State.setWr_headW, State.headW, units, State.headW]
  unfold finishWrite
  dsimp only
  rw [ended, if_neg fun failed => fine failed.1, finished, kept, failsNow]

theorem finishWrite_skipped : finishWrite s t e .skipped = finished s t e .skipped (s.bump (aWrt t 0x28)) := by
  refine finishWrite_ended ?_ (bump_tl _) nofun
  unfold endWrite
  dsimp only
  generalize s.bump (aWrt t 0x28) = v
  rfl

theorem finishWrite_retired : finishWrite s t e .retired = finished s t e .retired s := finishWrite_ended rfl rfl nofun

theorem finishWrite_written (host : e.kind = .host) :
    finishWrite s t e .written = finished s t e .written (s.bump (aWrt t 0x10)) := by
  refine finishWrite_ended ?_ (bump_tl _) nofun
  unfold endWrite resulted resultOf
  dsimp only
  rw [host]

theorem onlyTile.mono {as : List Nat} {u : State} (only : onlyTile [] s u) : onlyTile as s u :=
  ⟨fun a _ => only.1 a List.not_mem_nil, only.2⟩

theorem finished_wrQ {st : WrSt} {x : State} (c : Nat) : (finished s t e st x).wrQ t c = x.wrQ t c := rfl

theorem finished_only {as : List Nat} {st : WrSt} {x : State} (only : onlyTile as s x) : onlyTile as s (finished s t e st x) :=
  only.trans ((onlyTile_tiles (s := x) _).trans (onlyTile_tiles (s := resulted x t e st) _))

end

/-! ### What becomes of the entry that the serialiser comes to (R142) -/

section
variable {s : State} {t c h i : Nat} {e : WrEnt} {late : Bool}

theorem refuseEntry_discarded (gone : e.discard = true) : refuseEntry s t c h e = some (finishWrite s t e .skipped) := by
  unfold refuseEntry
  simp only [gone, if_true]

theorem refuseEntry_retired (kept : e.discard = false) (retired : tWriter s t (headIx c h) = true ∨ headDead s t c h = true) :
    refuseEntry s t c h e = some (finishWrite s t e .retired) := by
  unfold refuseEntry
  simp only [kept, retired, Bool.false_eq_true, if_true, if_false]

theorem refuseEntry_none (kept : e.discard = false) (writer : tWriter s t (headIx c h) = false) (alive : headDead s t c h = false)
    (rated : s.fld (aWrtC t c (0x104 + 16 * h)) 23 17 ≠ 0) (usable : s.bit (aWrtC t c (0x10C + 16 * h)) 0 = false) :
    refuseEntry s t c h e = none := by
  unfold refuseEntry
  simp only [kept, writer, alive, rated, usable, Bool.false_eq_true, or_self, if_true, if_false]

/-- The sector to take next leaves its cluster's queue. -/
def dequeued (s : State) (t c : Nat) (e : WrEnt) : State := s.modWrQ t c fun q => q.erase e

/-- Nothing but the cluster's queue changes as an entry leaves it. -/
theorem dequeued_frame : (dequeued s t c e).wrQ t c = (s.wrQ t c).erase e ∧ (dequeued s t c e).headW = s.headW ∧
    (dequeued s t c e).wr = s.wr ∧ (dequeued s t c e).reg = s.reg ∧ onlyTile [] s (dequeued s t c e) := by
  refine ⟨?_, rfl, rfl, rfl, onlyTile_tiles _⟩
  rw [dequeued, State.modWrQ_eq, State.setWrQ_wrQ]

theorem refuseEntry_dequeued {x : WrEnt} (kept : x.discard = false) (writer : tWriter s t (headIx c h) = false)
    (alive : headDead s t c h = false) (rated : s.fld (aWrtC t c (0x104 + 16 * h)) 23 17 ≠ 0)
    (usable : s.bit (aWrtC t c (0x10C + 16 * h)) 0 = false) : refuseEntry (dequeued s t c e) t c h x = none :=
  refuseEntry_none kept writer alive rated usable

theorem refuseEntry_dequeued_retired {x : WrEnt} (kept : x.discard = false)
    (retired : tWriter s t (headIx c h) = true ∨ headDead s t c h = true) :
    refuseEntry (dequeued s t c e) t c h x = some (finishWrite (dequeued s t c e) t x .retired) := refuseEntry_retired kept retired

/-- An entry that the head can write joins the serialiser. -/
def serialised (s : State) (t c i : Nat) (e : WrEnt) (late : Bool) : State :=
  (dequeued s t c e).setHeadW i { s.headW i with ser := (s.headW i).ser ++ [{ e with late := late }], run := true }

section
variable (found : ((s.wrQ t c).find? fun e => decide (psaHead e.psa = h) && takeable s t c h e) = some e) (hi : i = headIdx t c h)
  (room : (s.headW i).ser.length < 2)
include found hi room

theorem serialiserTake_refused {u : State} (refused : refuseEntry (dequeued s t c e) t c h e = some u) :
    serialiserTake s t c h late = u := by
  subst hi
  unfold serialiserTake
  simp only [found, if_neg (Nat.not_le.2 room)]
  rw [← dequeued, refused]

theorem serialiserTake_taken (taken : refuseEntry (dequeued s t c e) t c h e = none) : serialiserTake s t c h late =
    headGo (if late then (serialised s t c i e late).bump (aWrt t 0x1C) else serialised s t c i e late) t c h := by
  subst hi
  unfold serialiserTake
  simp only [found, if_neg (Nat.not_le.2 room)]
  rw [← dequeued, taken]
  rfl

omit hi room in
theorem found_head : psaHead e.psa = h := by
  have := List.find?_some found
  simp only [Bool.and_eq_true, decide_eq_true_eq] at this
  exact this.1

/-- An entry that ends as the serialiser comes to it leaves the serialiser as it was, and its result. -/
theorem taken_ends {x : State} {st : WrSt} {as : List Nat} (mine : psaCluster e.psa = c)
    (run : refuseEntry (dequeued s t c e) t c h e = some (finished (dequeued s t c e) t e st x))
    (counted : Counted t (dequeued s t c e) x) (only : onlyTile as (dequeued s t c e) x) :
    ∃ u, serialiserTake s t c h late = u ∧ u.wrQ t c = (s.wrQ t c).erase e ∧ (u.headW i).ser = (s.headW i).ser ∧
      (u.wr t).results = (s.wr t).results ++ [resultOf e st] ∧ onlyTile as s u := by
  obtain ⟨wrQ, headW, wr, -, same⟩ := dequeued_frame (s := s) (t := t) (c := c) (e := e)
  obtain ⟨results, fails, -⟩ := finished_effect (e := e) (st := st) counted
  have here : headIdx t (psaCluster e.psa) (psaHead e.psa) = i := by rw [hi, mine, found_head found]
  rw [here] at fails
  refine ⟨_, serialiserTake_refused found hi room run, ?_, ?_, ?_, ?_⟩
  · rw [finished_wrQ, State.wrQ, counted.tl, ← State.wrQ, wrQ]
  · rw [fails, headW]
  · rw [results, wr]
  · exact (onlyTile.mono same).trans (finished_only only)

end

/-- An entry that joins the serialiser late counts. -/
theorem serialised_counts :
    let v := if late then (serialised s t c i e late).bump (aWrt t 0x1C) else serialised s t c i e late
    v.wrQ t c = (s.wrQ t c).erase e ∧ (v.headW i).ser = (s.headW i).ser ++ [{ e with late := late }] ∧ (v.headW i).run = true ∧
      v.fld (aWrt t 0x1C) 31 0 = min (s.fld (aWrt t 0x1C) 31 0 + (if late then 1 else 0)) (2 ^ 32 - 1) ∧
      onlyTile [aWrt t 0x1C] s v := by
  obtain ⟨wrQ, -, -, -, only⟩ := dequeued_frame (s := s) (t := t) (c := c) (e := e)
  have joined : onlyTile [aWrt t 0x1C] s (serialised s t c i e late) := (onlyTile.mono only).trans (onlyTile_tiles _)
  have queue : (serialised s t c i e late).wrQ t c = (s.wrQ t c).erase e := wrQ
  have head : (serialised s t c i e late).headW i =
      { s.headW i with ser := (s.headW i).ser ++ [{ e with late := late }], run := true } := State.setHeadW_headW ..
  have count : (serialised s t c i e late).fld (aWrt t 0x1C) 31 0 = s.fld (aWrt t 0x1C) 31 0 := rfl
  have range : s.fld (aWrt t 0x1C) 31 0 < 2 ^ 32 := Nat.mod_lt _ (by decide)
  generalize serialised s t c i e late = v at joined queue head count
  cases late with
  | false =>
    simp only [Bool.false_eq_true, if_false, Nat.add_zero]
    exact ⟨queue, by rw [head], by rw [head], by rw [count]; omega, joined⟩
  | true =>
    simp only [if_true]
    refine ⟨?_, ?_, ?_, ?_, joined.trans (onlyTile_setReg _ (List.mem_singleton.2 rfl))⟩
    · rw [State.wrQ, bump_tl, ← State.wrQ, queue]
    · rw [State.headW, bump_tl, ← State.headW, head]
    · rw [State.headW, bump_tl, ← State.headW, head]
    · rw [State.bump_fld_self, count]

end

end Sys2Proof.Machine
end

section
/-! SUPPORT. O31: WRITE_HEAT and WRITE_RUN_END (R145, R151, R162). -/

namespace Sys2Proof.Machine

section
variable {s : State} {t c h i a j p m : Nat} {b : Bool}

theorem setB_bit_self (small : j < 32) : (s.setB a j b).bit a j = b := by
  rw [State.bit, State.setB_eq, State.setReg_reg, setBit_getLsbD_self _ _ small]

theorem setB_headW : (s.setB a j b).headW = s.headW := rfl

theorem setB_arm : (s.setB a j b).arm = s.arm := rfl

theorem sendHeat_arm : (sendHeat s t c h p).arm t c =
    { s.arm t c with ctl := (s.arm t c).ctl ++ [armFrame 2 (h * 2 ^ 55 + p % 1024 * 2 ^ 45)] } := by
  rw [sendHeat, sendCtl, State.modArm_eq, State.setArm_arm]

theorem sendMode_arm : (sendMode s t c true m).arm t c =
    { s.arm t c with mask := m, ctl := (s.arm t c).ctl ++ [armFrame 4 (2 ^ 59 + m % 2 ^ 24 * 2 ^ 32)] } := by
  rw [sendMode, sendCtl, State.modArm_eq, State.setArm_arm, State.modArm_eq, State.setArm_arm, if_pos rfl]

theorem sendHeat_only : onlyTile [] s (sendHeat s t c h p) := onlyTile_tiles _

theorem sendMode_only : onlyTile [] s (sendMode s t c b m) := (onlyTile_tiles (s := s) _).trans (onlyTile_tiles _)

theorem sendHeat_headW : (sendHeat s t c h p).headW = s.headW := rfl

theorem sendMode_headW : (sendMode s t c b m).headW = s.headW := rfl

theorem sendHeat_now : (sendHeat s t c h p).now = s.now := rfl

theorem sendMode_now : (sendMode s t c b m).now = s.now := rfl

/-- A due write turns the heater on and arms the head. -/
theorem writeHeat_due (due : (s.headW (headIdx t c h)).ser ≠ [] ∨ ∃ e ∈ s.wrQ t c, psaHead e.psa = h)
    (link : armState s t c = 2) (loaded : isLoaded s t c = true) : writeHeat s t c h =
      ((sendMode (sendHeat s t c h (s.fld (aWrtC t c (0x108 + 16 * h)) 9 0)) t c true (Nat.lor (s.arm t c).mask (2 ^ h))).modHeadW
        (headIdx t c h) fun w => { w with run := true, heatAt := some s.now }).setB (aWrtC t c (0x10C + 16 * h)) 1 true := by
  have asked : (s.headW (headIdx t c h)).ser ≠ [] ∨ ((s.wrQ t c).any fun e => decide (psaHead e.psa = h)) = true := by
    simpa only [List.any_eq_true, decide_eq_true_eq] using due
  unfold writeHeat
  dsimp only
  rw [if_pos ⟨asked, link, loaded⟩, sendHeat_arm]
  simp only [sendMode_now, sendHeat_now]

/-- The run of a head is over. -/
def runEnded (s : State) (t c h : Nat) : State :=
  (s.setHeadW (headIdx t c h) { s.headW (headIdx t c h) with run := false, heatAt := none }).setB (aWrtC t c (0x10C + 16 * h)) 1 false

theorem runEnded_only : onlyTile [aWrtC t c (0x10C + 16 * h)] s (runEnded s t c h) :=
  (onlyTile_tiles _).trans (onlyTile_setReg _ (List.mem_singleton.2 rfl))

theorem runEnded_headW : (runEnded s t c h).headW (headIdx t c h) =
    { s.headW (headIdx t c h) with run := false, heatAt := none } := by
  rw [runEnded, setB_headW, State.setHeadW_headW]

theorem runEnded_arm : (runEnded s t c h).arm t c = s.arm t c := by
  rw [runEnded, setB_arm, State.setHeadW_arm]

/-- The heater goes back to the read power, and the head is disarmed. -/
def disarmed (s : State) (t c h : Nat) : State :=
  let v := sendHeat s t c h (s.fld (aWrtC t c (0x108 + 16 * h)) 25 16)
  if (s.arm t c).mask.testBit h then sendMode v t c true ((s.arm t c).mask - 2 ^ h) else v

theorem disarmed_only : onlyTile [] s (disarmed s t c h) := by
  unfold disarmed
  dsimp only
  split
  · exact sendHeat_only.trans sendMode_only
  · exact sendHeat_only

theorem disarmed_headW : (disarmed s t c h).headW = s.headW := by
  unfold disarmed
  dsimp only
  split
  · rw [sendMode_headW, sendHeat_headW]
  · rw [sendHeat_headW]

theorem disarmed_arm (armed : (s.arm t c).mask.testBit h = true) : ((disarmed s t c h).arm t c).mask = (s.arm t c).mask - 2 ^ h ∧
    ((disarmed s t c h).arm t c).ctl = (s.arm t c).ctl ++
      [armFrame 2 (h * 2 ^ 55 + s.fld (aWrtC t c (0x108 + 16 * h)) 25 16 % 1024 * 2 ^ 45),
        armFrame 4 (2 ^ 59 + ((s.arm t c).mask - 2 ^ h) % 2 ^ 24 * 2 ^ 32)] := by
  unfold disarmed
  dsimp only
  rw [if_pos armed, sendMode_arm, sendHeat_arm]
  exact ⟨rfl, List.append_assoc ..⟩

/-- A run without work that is due ends, and its head is disarmed if its arm link can be told. -/
theorem writeRunEnd_ends (run : (s.headW (headIdx t c h)).run = true) (empty : (s.headW (headIdx t c h)).ser = [])
    (nothing : ∀ e ∈ s.wrQ t c, dueSoon s t c h e = false) : writeRunEnd s t c h =
      if armState (runEnded s t c h) t c = 2 then disarmed (runEnded s t c h) t c h else runEnded s t c h := by
  have idle : ((s.wrQ t c).any (dueSoon s t c h)) = false := by
    rw [List.any_eq_false]
    exact fun e mem => by rw [nothing e mem]; exact Bool.false_ne_true
  unfold writeRunEnd disarmed
  dsimp only
  rw [if_pos ⟨run, empty, idle⟩, sendHeat_arm, ← runEnded]

/-- WRITE_HEAT of a head with a sector due. -/
theorem writeHeat_effect (hi : i = headIdx t c h) (due : (s.headW i).ser ≠ [] ∨ ∃ e ∈ s.wrQ t c, psaHead e.psa = h)
    (link : armState s t c = 2) (loaded : isLoaded s t c = true) :
    ((writeHeat s t c h).headW i).run = true ∧ ((writeHeat s t c h).headW i).heatAt = some s.now ∧
      ((writeHeat s t c h).headW i).ser = (s.headW i).ser ∧ (writeHeat s t c h).bit (aWrtC t c (0x10C + 16 * h)) 1 = true ∧
      ((writeHeat s t c h).arm t c).mask = Nat.lor (s.arm t c).mask (2 ^ h) ∧
      ((writeHeat s t c h).arm t c).ctl = (s.arm t c).ctl ++
        [armFrame 2 (h * 2 ^ 55 + s.fld (aWrtC t c (0x108 + 16 * h)) 9 0 % 1024 * 2 ^ 45),
          armFrame 4 (2 ^ 59 + Nat.lor (s.arm t c).mask (2 ^ h) % 2 ^ 24 * 2 ^ 32)] ∧
      onlyTile [aWrtC t c (0x10C + 16 * h)] s (writeHeat s t c h) := by
  subst hi
  have head : (writeHeat s t c h).headW (headIdx t c h) =
      { s.headW (headIdx t c h) with run := true, heatAt := some s.now } := by
    rw [writeHeat_due due link loaded, setB_headW, State.modHeadW_eq, State.setHeadW_headW, sendMode_headW, sendHeat_headW]
  have arm : (writeHeat s t c h).arm t c = { s.arm t c with
      mask := Nat.lor (s.arm t c).mask (2 ^ h)
      ctl := (s.arm t c).ctl ++ [armFrame 2 (h * 2 ^ 55 + s.fld (aWrtC t c (0x108 + 16 * h)) 9 0 % 1024 * 2 ^ 45)] ++
        [armFrame 4 (2 ^ 59 + Nat.lor (s.arm t c).mask (2 ^ h) % 2 ^ 24 * 2 ^ 32)] } := by
    rw [writeHeat_due due link loaded, setB_arm, State.modHeadW_eq, State.setHeadW_arm, sendMode_arm, sendHeat_arm]
  have only : onlyTile [aWrtC t c (0x10C + 16 * h)] s (writeHeat s t c h) := by
    rw [writeHeat_due due link loaded]
    exact ((onlyTile.mono (sendHeat_only.trans sendMode_only)).trans (onlyTile_tiles _)).trans
      (onlyTile_setReg _ (List.mem_singleton.2 rfl))
  have on : (writeHeat s t c h).bit (aWrtC t c (0x10C + 16 * h)) 1 = true := by
    rw [writeHeat_due due link loaded, setB_bit_self (by decide)]
  rw [head, arm]
  exact ⟨rfl, rfl, rfl, on, rfl, List.append_assoc .., only⟩

/-- WRITE_RUN_END of a head with nothing left and nothing due. -/
theorem writeRunEnd_effect (hi : i = headIdx t c h) (run : (s.headW i).run = true) (empty : (s.headW i).ser = [])
    (nothing : ∀ e ∈ s.wrQ t c, dueSoon s t c h e = false) :
    ((writeRunEnd s t c h).headW i).run = false ∧ ((writeRunEnd s t c h).headW i).heatAt = none ∧
      (writeRunEnd s t c h).bit (aWrtC t c (0x10C + 16 * h)) 1 = false ∧
      (armState s t c ≠ 2 → ((writeRunEnd s t c h).arm t c).ctl = (s.arm t c).ctl) ∧
      (armState s t c = 2 → (s.arm t c).mask.testBit h = true →
        ((writeRunEnd s t c h).arm t c).mask = (s.arm t c).mask - 2 ^ h ∧
        ((writeRunEnd s t c h).arm t c).ctl = (s.arm t c).ctl ++
          [armFrame 2 (h * 2 ^ 55 + s.fld (aWrtC t c (0x108 + 16 * h)) 25 16 % 1024 * 2 ^ 45),
            armFrame 4 (2 ^ 59 + ((s.arm t c).mask - 2 ^ h) % 2 ^ 24 * 2 ^ 32)]) ∧
      onlyTile [aWrtC t c (0x10C + 16 * h)] s (writeRunEnd s t c h) := by
  subst hi
  have only := runEnded_only (s := s) (t := t) (c := c) (h := h)
  have off : (runEnded s t c h).bit (aWrtC t c (0x10C + 16 * h)) 1 = false := setB_bit_self (by decide)
  have link : armState (runEnded s t c h) t c = armState s t c := by
    rw [armState, State.fld, only.1 _ (by rw [List.mem_singleton]; unfold aWrtC; omega), ← State.fld, ← armState]
  have power : (runEnded s t c h).fld (aWrtC t c (0x108 + 16 * h)) 25 16 = s.fld (aWrtC t c (0x108 + 16 * h)) 25 16 := by
    rw [State.fld, only.1 _ (by rw [List.mem_singleton]; unfold aWrtC; omega), ← State.fld]
  have head := runEnded_headW (s := s) (t := t) (c := c) (h := h)
  have arm := runEnded_arm (s := s) (t := t) (c := c) (h := h)
  have ends := writeRunEnd_ends run empty nothing
  generalize runEnded s t c h = v at only off link power head arm ends
  rw [link] at ends
  by_cases active : armState s t c = 2
  · rw [if_pos active] at ends
    have still : (disarmed v t c h).bit (aWrtC t c (0x10C + 16 * h)) 1 = false := by
      rw [State.bit, disarmed_only.1 _ List.not_mem_nil, ← State.bit, off]
    rw [ends, disarmed_headW, head]
    refine ⟨rfl, rfl, still, fun other => absurd active other, fun _ armed => ?_, only.trans (onlyTile.mono disarmed_only)⟩
    obtain ⟨mask, ctl⟩ := disarmed_arm (s := v) (t := t) (c := c) (h := h) (by rw [arm]; exact armed)
    rw [mask, ctl, arm, power]
    exact ⟨rfl, rfl⟩
  · rw [if_neg active] at ends
    rw [ends, head, arm]
    exact ⟨rfl, rfl, off, fun _ => rfl, fun is => absurd is active, only⟩

end

end Sys2Proof.Machine
end

section
/-! SUPPORT. O31: what of a burst depends on the format alone (R46, R49, R50, R55, R143, R144, R147, R148). -/

namespace Sys2Proof.Machine

/-- The registers of a tile below its write path's read as before, the format's among them. -/
def sameFormat (t : Nat) (s u : State) : Prop := ∀ o, o < 0x300000 → u.reg (aTile t o) = s.reg (aTile t o)

section
variable {t z b a o c hi lo i k psa : Nat} {s u v : State} {e : WrEnt}

theorem sameFormat.refl : sameFormat t s s := fun _ _ => rfl

theorem aWrt_not_format (small : o < 0x300000) : aTile t o ≠ aWrt t k := by
  unfold aTile aWrt
  omega

theorem aWrtC_not_format (small : o < 0x300000) : aTile t o ≠ aWrtC t c k := by
  unfold aTile aWrtC
  omega

section
variable (same : sameFormat t s u)
include same

theorem sameFormat.fld (small : o < 0x300000) : u.fld (aTile t o) hi lo = s.fld (aTile t o) hi lo := by
  rw [State.fld, same o small, ← State.fld]

theorem sameFormat.bit (small : o < 0x300000) : u.bit (aTile t o) i = s.bit (aTile t o) i := by
  rw [State.bit, same o small, ← State.bit]

omit same in
theorem fmtZones_lt : fmtZones s t < 256 := Nat.mod_lt _ (by decide)

omit same in
theorem zoneOfBand_lt : zoneOfBand s t b < 256 := by
  refine List.foldlRecOn (motive := fun z => z < 256) _ _ (by decide) fun z range i mem => ?_
  have small := (List.mem_range.1 mem).trans fmtZones_lt
  split
  · exact small
  · exact range

theorem sameFormat.zoneOfBand : Machine.zoneOfBand u t b = Machine.zoneOfBand s t b := by
  have zones : fmtZones u t = fmtZones s t := same.fld (o := 0x100) (by decide)
  unfold Machine.zoneOfBand
  rw [zones]
  refine List.foldl_ext _ _ _ fun z i mem => ?_
  have small := (List.mem_range.1 mem).trans fmtZones_lt
  rw [zoneFirst, same.fld (by omega), ← zoneFirst]

theorem sameFormat.bandOf : Machine.bandOf u t k = Machine.bandOf s t k := by
  unfold Machine.bandOf fmtTrk
  rw [same.fld (by decide)]

theorem sameFormat.zoneOf : Machine.zoneOf u t k = Machine.zoneOf s t k := by
  rw [Machine.zoneOf, same.bandOf, same.zoneOfBand, ← Machine.zoneOf]

theorem sameFormat.zoneBits (range : z < 256) : Machine.zoneBits u t z = Machine.zoneBits s t z := by
  rw [Machine.zoneBits, same _ (by omega), ← Machine.zoneBits]

theorem sameFormat.zoneSect (range : z < 256) : Machine.zoneSect u t z = Machine.zoneSect s t z := by
  rw [Machine.zoneSect, same.fld (by omega), ← Machine.zoneSect]

theorem sameFormat.dataSpan (range : z < 256) : Machine.dataSpan u t z = Machine.dataSpan s t z := by
  rw [Machine.dataSpan, same.zoneBits range, ← Machine.dataSpan]

theorem sameFormat.wedgeSpan (range : z < 256) : Machine.wedgeSpan u t z = Machine.wedgeSpan s t z := by
  rw [Machine.wedgeSpan, same.zoneBits range, ← Machine.wedgeSpan]

theorem sameFormat.trackGap (range : z < 256) : Machine.trackGap u t z = Machine.trackGap s t z := by
  rw [Machine.trackGap, same.dataSpan range, same.zoneSect range, ← Machine.trackGap]

/-- A track number has 24 bits, so that its band's bit lies among the format's registers. -/
theorem sameFormat.pairLow : Machine.pairLow u t (psaTrack psa) = Machine.pairLow s t (psaTrack psa) := by
  have track : psaTrack psa < 2 ^ 24 := Nat.mod_lt _ (by decide)
  have band : Machine.bandOf s t (psaTrack psa) ≤ psaTrack psa := by
    unfold Machine.bandOf
    split
    · exact Nat.zero_le _
    · exact Nat.div_le_self ..
  have conv : isConv u t (Machine.bandOf s t (psaTrack psa)) = isConv s t (Machine.bandOf s t (psaTrack psa)) := by
    unfold isConv
    exact same.bit (by omega)
  have tracks : fmtTrk u t = fmtTrk s t := same.fld (o := 0x104) (by decide)
  have data : dataTracks u t = dataTracks s t := by
    unfold dataTracks
    rw [tracks, fmtRsv, same.fld (by decide), ← fmtRsv]
  unfold Machine.pairLow
  dsimp only
  rw [same.bandOf, conv, tracks, data]

omit same in
theorem zoneOf_lt : Machine.zoneOf s t k < 256 := zoneOfBand_lt

theorem sameFormat.entLen : Machine.entLen u t e = Machine.entLen s t e := by
  unfold Machine.entLen
  dsimp only
  rw [same.zoneOf, same.dataSpan zoneOf_lt, same.zoneSect zoneOf_lt, same.trackGap zoneOf_lt]

theorem sameFormat.burstSpan : Machine.burstSpan u t e = Machine.burstSpan s t e := by
  unfold Machine.burstSpan
  dsimp only
  rw [same.zoneOf, same.dataSpan zoneOf_lt, same.entLen]

theorem sameFormat.entBits : Machine.entBits u t e = Machine.entBits s t e := by
  unfold Machine.entBits
  dsimp only
  rw [same.zoneOf, same.dataSpan zoneOf_lt, same.zoneSect zoneOf_lt, same.trackGap zoneOf_lt, same.pairLow]

end

/-! ### What goes out on the write-data pair (R143, R147) -/

/-- A burst as it goes out. -/
def burstMedia (s : State) (t c h psa k : Nat) (off : Int) (joined : Bool) (bits : List Bool) : Out :=
  .mediaWrite t c h psa k (s.headW (headIdx t c h)).wtime (s.lane t (laneOf c h 0)).fofs
    (64 * (wedgeSpan s t (zoneOf s t (psaTrack psa)) + off) +
      divRound (64 * s.fld (aWrtC t c (0x100 + 16 * h)) 17 0 * zoneBits s t (zoneOf s t (psaTrack psa))) 4294967296)
    (nth false bits 0)
    (transitions (s.fld (aWrtC t c (0x104 + 16 * h)) 31 28) (s.fld (aWrtC t c (0x104 + 16 * h)) 27 24) false joined
      (if joined then false else nth false bits 0) 0 bits)

variable {h : Nat} {off : Int} {joined : Bool} {bits : List Bool}

theorem burstOut_eq : burstOut s t c h psa k off joined bits =
    if bits = [] then s else s.emit (burstMedia s t c h psa k off joined bits) := rfl

/-- The head's wedge time, the rate of its reader's clock and the writer's gap and precompensation are as before. -/
structure sameWriter (t c h : Nat) (s u : State) : Prop where
  format : sameFormat t s u
  wtime : (u.headW (headIdx t c h)).wtime = (s.headW (headIdx t c h)).wtime
  fofs : (u.lane t (laneOf c h 0)).fofs = (s.lane t (laneOf c h 0)).fofs
  gap : u.reg (aWrtC t c (0x100 + 16 * h)) = s.reg (aWrtC t c (0x100 + 16 * h))
  precomp : u.reg (aWrtC t c (0x104 + 16 * h)) = s.reg (aWrtC t c (0x104 + 16 * h))

theorem sameWriter.burstMedia (same : sameWriter t c h s u) :
    Machine.burstMedia u t c h psa k off joined bits = Machine.burstMedia s t c h psa k off joined bits := by
  have gap : u.fld (aWrtC t c (0x100 + 16 * h)) = s.fld (aWrtC t c (0x100 + 16 * h)) := by
    funext hi lo
    rw [State.fld, same.gap, ← State.fld]
  have precomp : u.fld (aWrtC t c (0x104 + 16 * h)) = s.fld (aWrtC t c (0x104 + 16 * h)) := by
    funext hi lo
    rw [State.fld, same.precomp, ← State.fld]
  unfold Machine.burstMedia
  rw [same.wtime, same.fofs, gap, precomp, same.format.zoneOf, same.format.wedgeSpan zoneOf_lt, same.format.zoneBits zoneOf_lt]

/-- What a burst puts out, and nothing else, is added to what was emitted. -/
theorem sameWriter.burstOut_out (same : sameWriter t c h s u) : (burstOut u t c h psa k off joined bits).out =
    if bits = [] then u.out else Machine.burstMedia s t c h psa k off joined bits :: u.out := by
  rw [burstOut_eq]
  split
  · rfl
  · rw [State.emit_out, same.burstMedia]

end

end Sys2Proof.Machine
end

section
/-! SUPPORT. O31: WRITE_BURST_START (R142 to R146, R151, R152). -/

namespace Sys2Proof.Machine

/-- The serialiser of head `i` replaced. -/
def withSer (s : State) (i : Nat) (es : List WrEnt) : State := s.setHeadW i { s.headW i with ser := es }

/-- The gate of a head as it opens or closes. -/
def gated (s : State) (t c h : Nat) (on : Bool) : State :=
  ((s.setHeadW (headIdx t c h) { s.headW (headIdx t c h) with gate := on }).setB (aWrtC t c (0x10C + 16 * h)) 2 on).emit
    (.gate t c h on)

section
variable {s u : State} {t c h i : Nat} {on : Bool} {es : List WrEnt} {as : List Nat}

theorem setGate_moves (moves : (s.headW (headIdx t c h)).gate ≠ on) : setGate s t c h on = gated s t c h on := if_neg moves

theorem withSer_headW : (withSer s i es).headW i = { s.headW i with ser := es } := State.setHeadW_headW ..

theorem withSer_only : onlyTile [] s (withSer s i es) := onlyTile_tiles _

theorem setB_out {a j : Nat} : (s.setB a j on).out = s.out := rfl

theorem gated_headW : (gated s t c h on).headW (headIdx t c h) = { s.headW (headIdx t c h) with gate := on } := by
  have emitted (v : State) (x : Out) : (v.emit x).headW = v.headW := rfl
  rw [gated, emitted, setB_headW, State.setHeadW_headW]

theorem gated_out : (gated s t c h on).out = .gate t c h on :: s.out := by
  rw [gated, State.emit_out, setB_out, State.setHeadW_out]

theorem gated_regs {a : Nat} (other : a ≠ aWrtC t c (0x10C + 16 * h)) : (gated s t c h on).reg a = s.reg a := by
  rw [gated, State.emit_reg, State.setB_eq, State.setReg_reg_ne _ _ other, State.setHeadW_reg]

theorem gated_bit : (gated s t c h on).bit (aWrtC t c (0x10C + 16 * h)) 2 = on := by
  rw [gated, State.emit_bit, setB_bit_self (by decide)]

theorem gated_units : (gated s t c h on).wr = s.wr ∧ (gated s t c h on).lane = s.lane := by
  have marked (v : State) (a : Nat) (x : Out) : ((v.setB a 2 on).emit x).wr = v.wr ∧ ((v.setB a 2 on).emit x).lane = v.lane :=
    ⟨rfl, rfl⟩
  rw [gated, (marked ..).1, (marked ..).2]
  exact ⟨rfl, rfl⟩

/-- Beside what is emitted. -/
def quietTile (as : List Nat) (s u : State) : Prop := onlyTile as s { u with out := s.out }

theorem onlyTile.quiet (only : onlyTile as s u) : quietTile as s u := by
  obtain ⟨regs, frame⟩ := only
  refine ⟨regs, ?_⟩
  rw [frame]

theorem quietTile.trans {v : State} (first : quietTile as s u) (second : quietTile as u v) : quietTile as s v := by
  obtain ⟨regs, frame⟩ := first
  obtain ⟨regs', frame'⟩ := second
  refine ⟨fun a out => (regs' a out).trans (regs a out), ?_⟩
  have fields := congrArg (fun w : State => { w with out := s.out }) frame'
  refine fields.trans ?_
  exact congrArg (fun w : State => { w with regs := v.regs, tl := v.tl }) frame

theorem quietTile.emit (x : Out) : quietTile as s (s.emit x) := ⟨fun _ _ => rfl, rfl⟩

theorem quietTile.mono (only : quietTile [] s u) : quietTile as s u := ⟨fun a _ => only.1 a List.not_mem_nil, only.2⟩

theorem gated_quiet : quietTile [aWrtC t c (0x10C + 16 * h)] s (gated s t c h on) :=
  (onlyTile.quiet ((onlyTile_tiles _).trans (onlyTile_setReg _ (List.mem_singleton.2 rfl)))).trans (.emit _)

end

/-! ### Whether a burst can begin (R142, R145, R151) -/

section
variable {s : State} {t c h i : Nat} {e : WrEnt} {rest : List WrEnt} {away : Bool}

/-- Whether a head is away from the writing of its cluster, at the start of a burst. -/
def awayNow (s : State) (t c h : Nat) : Bool :=
  s.bit (aCtl t c (0x100C + 32 * h)) 29 || (decide ((s.ctl t c).shift ≠ 0) && !(onTrack s t c h))

section
variable (ser : (s.headW (headIdx t c h)).ser = e :: rest) (shut : (s.headW (headIdx t c h)).gate = false)
include ser shut

theorem burstStart_late (late : e.late = true) :
    burstStart s t c h = headGo (withSer s (headIdx t c h) ({ e with late := false } :: rest)) t c h := by
  have shut' : ¬ (s.headW (headIdx t c h)).gate = true := by rw [shut]; exact Bool.false_ne_true
  unfold burstStart
  simp only [ser, if_neg shut', if_pos late]
  rfl

/-- An entry in time that its head can write begins, waits for its head, or comes too early for its heater. -/
theorem burstStart_writable (prompt : e.late = false) (kept : e.discard = false) (writer : tWriter s t (headIx c h) = false)
    (alive : headDead s t c h = false) (rated : s.fld (aWrtC t c (0x104 + 16 * h)) 23 17 ≠ 0)
    (usable : s.bit (aWrtC t c (0x10C + 16 * h)) 0 = false) : burstStart s t c h =
      if !e.begun ∧ (!(heated s t (headIdx t c h)) ∨ awayNow s t c h) then s.bump (aWrt t 0x1C)
      else if !(burstReady s t c h e) then headGo s t c h
      else sendBurst (setGate (withSer s (headIdx t c h) ({ e with begun := true } :: rest)) t c h true) t c h e false := by
  have none_ : refuseEntry (s.setHeadW (headIdx t c h) { s.headW (headIdx t c h) with ser := rest }) t c h e = none :=
    refuseEntry_none kept writer alive rated usable
  have shut' : ¬ (s.headW (headIdx t c h)).gate = true := by rw [shut]; exact Bool.false_ne_true
  have prompt' : ¬ e.late = true := by rw [prompt]; exact Bool.false_ne_true
  unfold burstStart
  simp only [ser, if_neg shut', if_neg prompt', none_]
  rfl

end

/-- A head on its track and within the write limit, armed, with nothing that forbids it to write, is ready. -/
theorem burstReady_of (track : onTrack s t c h = true) (home : (s.headS (headIdx t c h)).home.1 = (psaTrack e.psa : Nat))
    (near : absI (sfld (s.reg (aCtl t c (0x100C + 32 * h))) 15 0) ≤ 16 * s.fld (aWrt t 0) 31 24)
    (safe : s.bit (aCtl t c 4) 31 = false) (armed : s.bit (aWrtC t c (0x10C + 16 * h)) 3 = true) (sound : s.reg (aWrtC t c 0x34) = 0)
    (idle : (s.head (headIdx t c h)).curs = []) : burstReady s t c h e = true := by
  unfold burstReady
  simp only [track, home, near, safe, armed, sound, idle, decide_true, Bool.not_false, Bool.and_self]

end

/-! ### The burst itself (R143, R144, R147) -/

section
variable {s u : State} {t c h i psa k : Nat} {e : WrEnt} {rest es : List WrEnt} {off : Int} {joined on : Bool} {bits : List Bool}

theorem burstOut_frame : burstOut s t c h psa k off joined bits = { s with out := (burstOut s t c h psa k off joined bits).out } := by
  rw [burstOut_eq]
  split <;> rfl

theorem burstOut_quiet : quietTile [] s (burstOut s t c h psa k off joined bits) := by
  rw [burstOut_frame]
  exact ⟨fun _ _ => rfl, rfl⟩

theorem burstOut_headW : (burstOut s t c h psa k off joined bits).headW = s.headW := by
  rw [burstOut_frame]
  rfl

theorem burstOut_reg : (burstOut s t c h psa k off joined bits).reg = s.reg := by
  rw [burstOut_frame]
  rfl

theorem burstOut_wr : (burstOut s t c h psa k off joined bits).wr = s.wr := by
  rw [burstOut_frame]
  rfl

theorem sameWriter_withSer : sameWriter t c h s (withSer s (headIdx t c h) es) where
  format := .refl
  wtime := by rw [withSer_headW]
  fofs := rfl
  gap := rfl
  precomp := rfl

theorem sameWriter_gated : sameWriter t c h s (gated s t c h on) where
  format _ small := gated_regs (aWrtC_not_format small)
  wtime := by rw [gated_headW]
  fofs := by rw [gated_units.2]
  gap := gated_regs (by unfold aWrtC; omega)
  precomp := gated_regs (by unfold aWrtC; omega)

theorem sameWriter.trans {v : State} (first : sameWriter t c h s u) (second : sameWriter t c h u v) : sameWriter t c h s v where
  format o small := (second.format o small).trans (first.format o small)
  wtime := second.wtime.trans first.wtime
  fofs := second.fofs.trans first.fofs
  gap := second.gap.trans first.gap
  precomp := second.precomp.trans first.precomp

/-- The bits of a sector's burst, and their place, are those that its format gives. -/
theorem sendBurst_eq (same : sameFormat t s u) : sendBurst u t c h e joined =
    burstOut u t c h e.psa ((entStart e + e.done) / max 1 (dataSpan s t (zoneOf s t (psaTrack e.psa))))
      (((burstSpan s t e).1 : Int) - (if joined then [] else burstLead (burstSpan s t e).1).length) joined
      ((if joined then [] else burstLead (burstSpan s t e).1) ++ ((entBits s t e).drop e.done).take (burstSpan s t e).2) := by
  unfold sendBurst
  dsimp only
  rw [same.zoneOf, same.dataSpan zoneOf_lt, same.burstSpan, same.entBits]

theorem burstLead_ne_nil (off : Nat) : burstLead off ≠ [] := by
  intro none_
  have length := congrArg List.length none_
  unfold burstLead pat1100 at length
  split at length
  · simp at length
  · simp only [List.length_drop, List.length_map, List.length_range, List.length_nil] at length
    omega

/-- A burst that begins opens the gate, and goes out after it. -/
theorem burst_begins {lead : List Bool} {p : Nat × Nat} (shut : (s.headW (headIdx t c h)).gate = false) (hp : p = burstSpan s t e)
    (hlead : lead = burstLead p.1) (hbits : bits = lead ++ ((entBits s t e).drop e.done).take p.2)
    (hu : u = sendBurst (setGate (withSer s (headIdx t c h) ({ e with begun := true } :: rest)) t c h true) t c h e false) :
    (u.headW (headIdx t c h)).gate = true ∧ (u.headW (headIdx t c h)).ser = { e with begun := true } :: rest ∧
      u.bit (aWrtC t c (0x10C + 16 * h)) 2 = true ∧
      u.out = burstMedia s t c h e.psa ((entStart e + e.done) / max 1 (dataSpan s t (zoneOf s t (psaTrack e.psa))))
        ((p.1 : Int) - lead.length) false bits :: .gate t c h true :: s.out ∧
      quietTile [aWrtC t c (0x10C + 16 * h)] s u := by
  have moves : ((withSer s (headIdx t c h) ({ e with begun := true } :: rest)).headW (headIdx t c h)).gate ≠ true := by
    rw [withSer_headW, shut]
    exact Bool.false_ne_true
  have same : sameWriter t c h s (gated (withSer s (headIdx t c h) ({ e with begun := true } :: rest)) t c h true) :=
    sameWriter_withSer.trans sameWriter_gated
  have some_ : bits ≠ [] := by
    rw [hbits, hlead]
    exact List.append_ne_nil_of_left_ne_nil (burstLead_ne_nil _) _
  rw [setGate_moves moves, sendBurst_eq same.format] at hu
  simp only [Bool.false_eq_true, if_false, ← hp, ← hlead, ← hbits] at hu
  have head : u.headW (headIdx t c h) = { s.headW (headIdx t c h) with ser := { e with begun := true } :: rest, gate := true } := by
    rw [hu, burstOut_headW, gated_headW, withSer_headW]
  rw [head]
  refine ⟨rfl, rfl, ?_, ?_, ?_⟩
  · rw [State.bit, hu, burstOut_reg, ← State.bit, gated_bit]
  · rw [hu, same.burstOut_out, if_neg some_, gated_out]
    rfl
  · rw [hu]
    exact ((withSer_only.quiet.mono).trans gated_quiet).trans burstOut_quiet.mono

end

end Sys2Proof.Machine
end

section
/-! SUPPORT. O31: WRITE_BURST_END (R144, R145, R152, R154). -/

namespace Sys2Proof.Machine

section
variable {s u v x : State} {t c h i a : Nat} {e f : WrEnt} {rest more : List WrEnt} {as : List Nat} {st : WrSt} {off : Int} {k : Nat}
  {bits : List Bool}

theorem quietTile.weaken {bs : List Nat} (quiet : quietTile as s u) (sub : ∀ a ∈ as, a ∈ bs) : quietTile bs s u :=
  ⟨fun a out => quiet.1 a fun mem => out (sub a mem), quiet.2⟩

theorem bump_out : (s.bump a).out = s.out := rfl

theorem bump_wr : (s.bump a).wr = s.wr := rfl

theorem bump_lane : (s.bump a).lane = s.lane := rfl

theorem bump_quiet (named : a ∈ as) : quietTile as s (s.bump a) := (onlyTile_setReg _ named).quiet

theorem aWrt_ne_aWrtC {o k : Nat} (small : o < 0x10000) : aWrt t o ≠ aWrtC t c k := by
  unfold aWrt aWrtC
  omega

section
variable (ser : (s.headW (headIdx t c h)).ser = e :: rest) (open_ : (s.headW (headIdx t c h)).gate = true)
include ser open_

omit ser in
/-- The gate of a burst that ends closes. -/
theorem setGate_shuts (x : State) (same : (x.headW (headIdx t c h)).gate = (s.headW (headIdx t c h)).gate) :
    setGate x t c h false = gated x t c h false := by
  refine setGate_moves ?_
  rw [same, open_]
  exact Bool.true_eq_false_eq_False

theorem burstEnd_cut (disarmed : s.bit (aWrtC t c (0x10C + 16 * h)) 3 = false) (kept : e.discard = false)
    (tries : e.tries < s.fld (aWrt t 0) 23 20) : burstEnd s t c h =
      ((gated s t c h false).modHeadW (headIdx t c h) fun w =>
        { w with ser := { e.again with tries := e.tries + 1 } :: rest }).bump (aWrt t 0x14) := by
  have writing : (s.headW (headIdx t c h)).writing = true := by rw [HeadW.writing, open_, Bool.true_or]
  have limit : (gated s t c h false).fld (aWrt t 0) 23 20 = s.fld (aWrt t 0) 23 20 := by
    rw [State.fld, gated_regs (aWrt_ne_aWrtC (by decide)), ← State.fld]
  have kept' : ¬ e.discard = true := by rw [kept]; exact Bool.false_ne_true
  unfold burstEnd
  simp only [ser, open_, disarmed, Bool.not_true, Bool.not_false, Bool.false_eq_true, if_true, if_false]
  unfold cutBurst
  simp only [ser, writing, Bool.not_true, Bool.false_eq_true, if_false]
  rw [setGate_shuts open_ s rfl, if_neg kept', if_pos (by rw [limit]; exact tries)]

theorem burstEnd_cut_effect (disarmed : s.bit (aWrtC t c (0x10C + 16 * h)) 3 = false) (kept : e.discard = false)
    (tries : e.tries < s.fld (aWrt t 0) 23 20) :
    ((burstEnd s t c h).headW (headIdx t c h)).gate = false ∧
      ((burstEnd s t c h).headW (headIdx t c h)).ser = { e with begun := false, done := 0, tries := e.tries + 1 } :: rest ∧
      (burstEnd s t c h).fld (aWrt t 0x14) 31 0 = min (s.fld (aWrt t 0x14) 31 0 + 1) (2 ^ 32 - 1) ∧
      (burstEnd s t c h).out = .gate t c h false :: s.out ∧
      quietTile [aWrt t 0x14, aWrtC t c (0x10C + 16 * h)] s (burstEnd s t c h) := by
  have head : (burstEnd s t c h).headW (headIdx t c h) = { s.headW (headIdx t c h) with
      gate := false, ser := { e.again with tries := e.tries + 1 } :: rest } := by
    rw [burstEnd_cut ser open_ disarmed kept tries, bump_headW, State.modHeadW_eq, State.setHeadW_headW, gated_headW]
  rw [head]
  refine ⟨rfl, rfl, ?_, ?_, ?_⟩
  · rw [burstEnd_cut ser open_ disarmed kept tries, State.bump_fld_self, State.modHeadW_eq, State.setHeadW_fld, State.fld,
      gated_regs (aWrt_ne_aWrtC (by decide)), ← State.fld]
  · rw [burstEnd_cut ser open_ disarmed kept tries, bump_out, State.modHeadW_eq, State.setHeadW_out, gated_out]
  · rw [burstEnd_cut ser open_ disarmed kept tries]
    have again (v : State) (w : HeadW → HeadW) : quietTile [] v (v.modHeadW (headIdx t c h) w) := (onlyTile_tiles _).quiet
    exact ((gated_quiet.weaken fun a mem => List.mem_cons_of_mem _ mem).trans (again _ _).mono).trans
      (bump_quiet List.mem_cons_self)

section
variable (armed : s.bit (aWrtC t c (0x10C + 16 * h)) 3 = true)
include armed

/-- At a wedge span the gate closes, and what is written is kept. -/
theorem burstEnd_wedge (more_ : e.done + (burstSpan s t e).2 < entLen s t e) : burstEnd s t c h =
    gated (withSer s (headIdx t c h) ({ e with done := e.done + (burstSpan s t e).2 } :: rest)) t c h false := by
  rw [← setGate_shuts open_ _ (by rw [withSer_headW])]
  unfold burstEnd
  simp only [ser, armed, if_pos more_, Bool.not_true, Bool.false_eq_true, if_false]
  rw [if_neg (by rw [open_]; exact Bool.false_ne_true)]
  rfl

/-- The tail ends the last burst of a sector that no next one joins. -/
theorem burstEnd_ends (all : entLen s t e ≤ e.done + (burstSpan s t e).2)
    (apart : ∀ f more, rest = f :: more →
      (burstSpan s t e).1 + (burstSpan s t e).2 = dataSpan s t (zoneOf s t (psaTrack e.psa)) ∨ f.psa ≠ e.psa + 1 ∨
        f.discard = true ∨ f.late = true) :
    burstEnd s t c h = headGo (sectorWritten (gated (burstOut (withSer s (headIdx t c h) rest) t c h e.psa
      ((entStart e + e.done) / max 1 (dataSpan s t (zoneOf s t (psaTrack e.psa)))) ((burstSpan s t e).1 + (burstSpan s t e).2) true
      ((pat1100 8).take (min 8 (dataSpan s t (zoneOf s t (psaTrack e.psa)) - ((burstSpan s t e).1 + (burstSpan s t e).2)))))
      t c h false) t c h e) t c h := by
  rw [← setGate_shuts open_ _ (by rw [burstOut_headW, withSer_headW])]
  unfold burstEnd
  simp only [ser, if_neg (Nat.not_lt.2 all), armed, Bool.not_true, Bool.false_eq_true, if_false]
  rw [if_neg (by rw [open_]; exact Bool.false_ne_true)]
  cases rest with
  | nil => rfl
  | cons f more =>
    have alone := apart f more rfl
    dsimp only
    rw [if_neg]
    · rfl
    · rintro ⟨left, next, kept, prompt⟩
      rcases alone with full | other | gone | late
      · exact left (by rw [full, Nat.sub_self])
      · exact other next
      · rw [gone] at kept
        exact Bool.false_ne_true kept
      · rw [late] at prompt
        exact Bool.false_ne_true prompt

/-- A sector that directly follows goes on in the same burst. -/
theorem burstEnd_joins (all : entLen s t e ≤ e.done + (burstSpan s t e).2) (next : rest = f :: more)
    (room : (burstSpan s t e).1 + (burstSpan s t e).2 < dataSpan s t (zoneOf s t (psaTrack e.psa))) (follows : f.psa = e.psa + 1)
    (kept : f.discard = false) (prompt : f.late = false) :
    burstEnd s t c h = sendBurst (sectorWritten ((withSer s (headIdx t c h) rest).modHeadW (headIdx t c h) fun w =>
      { w with ser := { f with begun := true } :: more }) t c h e) t c h f true := by
  subst next
  unfold burstEnd
  simp only [ser, if_neg (Nat.not_lt.2 all), armed, Bool.not_true, Bool.false_eq_true, if_false]
  have joins : (!f.discard) = true ∧ (!f.late) = true := by rw [kept, prompt]; exact ⟨rfl, rfl⟩
  rw [if_neg (by rw [open_]; exact Bool.false_ne_true), if_pos ⟨Nat.sub_ne_zero_of_lt room, follows, joins⟩]
  rfl

end

end

/-! ### A host sector whose last burst has ended (R154, R157) -/

section
variable (host : e.kind = .host)
include host

theorem sectorWritten_plain (plain : x.bit (aWrt t 0) 16 = false) :
    sectorWritten x t c h e = finished x t e .written (x.bump (aWrt t 0x10)) := by
  unfold sectorWritten
  simp only [host, plain, Bool.false_eq_true, if_false]
  exact finishWrite_written host

theorem sectorWritten_verified (verify : x.bit (aWrt t 0) 16 = true) :
    sectorWritten x t c h e = x.modHeadW (headIdx t c h) fun w => { w with verify := w.verify ++ [e] } := by
  unfold sectorWritten
  simp only [host, verify, if_true]

/-- Without verification the sector has ended WRITTEN. -/
theorem sectorWritten_plain_effect (plain : x.bit (aWrt t 0) 16 = false) (hc : psaCluster e.psa = c) (hh : psaHead e.psa = h) :
    ((sectorWritten x t c h e).wr t).results = (x.wr t).results ++ [resultOf e .written] ∧
      (sectorWritten x t c h e).headW (headIdx t c h) = { x.headW (headIdx t c h) with fails := 0 } ∧
      (sectorWritten x t c h e).fld (aWrt t 0x10) 31 0 = min (x.fld (aWrt t 0x10) 31 0 + 1) (2 ^ 32 - 1) ∧
      (sectorWritten x t c h e).out = x.out ∧ sameWriter t c h x (sectorWritten x t c h e) ∧
      quietTile [aWrt t 0x10] x (sectorWritten x t c h e) := by
  subst hc hh
  have counted : Counted t x (x.bump (aWrt t 0x10)) := .bump 0x10
  obtain ⟨wr, headW, -⟩ := finished_effect (e := e) (st := .written) counted
  have units (v : State) : (finished x t e .written v).out = v.out ∧ (finished x t e .written v).reg = v.reg ∧
      (finished x t e .written v).lane = v.lane := ⟨rfl, rfl, rfl⟩
  obtain ⟨out, reg, lane⟩ := units (x.bump (aWrt t 0x10))
  have others {b : Nat} (other : b ≠ aWrt t 0x10) :
      (finished x t e .written (x.bump (aWrt t 0x10))).reg b = x.reg b := by rw [reg, bump_reg_ne other]
  have only : onlyTile [aWrt t 0x10] x (x.bump (aWrt t 0x10)) := onlyTile_setReg _ (List.mem_singleton.2 rfl)
  rw [sectorWritten_plain host plain]
  refine ⟨by rw [wr], headW, ?_, by rw [out, bump_out], ?_, (finished_only only).quiet⟩
  · rw [State.fld, reg, ← State.fld, State.bump_fld_self]
  · refine ⟨fun o small => others (aWrt_not_format small), by rw [headW], by rw [lane, bump_lane], others ?_, others ?_⟩
    · exact (aWrt_ne_aWrtC (by decide)).symm
    · exact (aWrt_ne_aWrtC (by decide)).symm

end

/-- The gate closes after the tail of a burst. -/
theorem tail_effect {joined : Bool}
    (hx : x = gated (burstOut (withSer s (headIdx t c h) rest) t c h e.psa k off joined bits) t c h false) :
    x.headW (headIdx t c h) = { s.headW (headIdx t c h) with ser := rest, gate := false } ∧
      x.out = .gate t c h false :: (burstOut s t c h e.psa k off joined bits).out ∧ x.wr = s.wr ∧
      (∀ a, a ≠ aWrtC t c (0x10C + 16 * h) → x.reg a = s.reg a) ∧ quietTile [aWrtC t c (0x10C + 16 * h)] s x := by
  subst hx
  refine ⟨?_, ?_, ?_, fun a other => ?_, ?_⟩
  · rw [gated_headW, burstOut_headW, withSer_headW]
  · rw [gated_out, sameWriter_withSer.burstOut_out, sameWriter.burstOut_out ⟨.refl, rfl, rfl, rfl, rfl⟩]
    rfl
  · rw [gated_units.1, burstOut_wr]
    rfl
  · rw [gated_regs other, burstOut_reg]
    rfl
  · exact ((withSer_only.quiet.mono).trans burstOut_quiet.mono).trans gated_quiet

end

end Sys2Proof.Machine
end

section
/-! SUPPORT. O31: how a sector's last burst ends (R144, R154). -/

namespace Sys2Proof.Machine

section
variable {s : State} {t c h i : Nat} {e f : WrEnt} {rest more : List WrEnt} {p q : Nat × Nat} {d k : Nat}

/-- The last burst of a host sector that no next one joins ends with its tail, and the sector WRITTEN or to be read back. -/
theorem burstEnd_ends_effect (ser : (s.headW i).ser = e :: rest) (open_ : (s.headW i).gate = true) (hi : i = headIdx t c h)
    (hd : d = dataSpan s t (zoneOf s t (psaTrack e.psa))) (hp : p = burstSpan s t e) (hk : k = (entStart e + e.done) / max 1 d)
    (armed : s.bit (aWrtC t c (0x10C + 16 * h)) 3 = true) (all : entLen s t e ≤ e.done + p.2) (hc : psaCluster e.psa = c)
    (hh : psaHead e.psa = h) (host : e.kind = .host)
    (apart : ∀ f more, rest = f :: more → p.1 + p.2 = d ∨ f.psa ≠ e.psa + 1 ∨ f.discard = true ∨ f.late = true) :
    ∃ v, burstEnd s t c h = headGo v t c h ∧ (v.headW i).ser = rest ∧ (v.headW i).gate = false ∧
      v.out = .gate t c h false ::
        (burstOut s t c h e.psa k (p.1 + p.2) true ((pat1100 8).take (min 8 (d - (p.1 + p.2))))).out ∧
      (s.bit (aWrt t 0) 16 = false →
        (v.wr t).results = (s.wr t).results ++ [⟨e.psa, e.kind, e.nsid, e.lba, e.gen, .written⟩] ∧
        (v.headW i).fails = 0 ∧ v.fld (aWrt t 0x10) 31 0 = min (s.fld (aWrt t 0x10) 31 0 + 1) (2 ^ 32 - 1)) ∧
      (s.bit (aWrt t 0) 16 = true → (v.headW i).verify = (s.headW i).verify ++ [e] ∧ v.wr t = s.wr t) ∧
      quietTile [aWrt t 0x10, aWrtC t c (0x10C + 16 * h)] s v := by
  subst hi hd hp hk
  have run := burstEnd_ends ser open_ armed all apart
  obtain ⟨x, hx⟩ : ∃ x, x = gated (burstOut (withSer s (headIdx t c h) rest) t c h e.psa
      ((entStart e + e.done) / max 1 (dataSpan s t (zoneOf s t (psaTrack e.psa)))) ((burstSpan s t e).1 + (burstSpan s t e).2) true
      ((pat1100 8).take (min 8 (dataSpan s t (zoneOf s t (psaTrack e.psa)) - ((burstSpan s t e).1 + (burstSpan s t e).2)))))
      t c h false := ⟨_, rfl⟩
  obtain ⟨head, out, wr, regs, quiet⟩ := tail_effect hx
  rw [← hx] at run
  have named := quiet.weaken (bs := [aWrt t 0x10, aWrtC t c (0x10C + 16 * h)]) fun a mem => List.mem_cons_of_mem _ mem
  have asked : x.bit (aWrt t 0) 16 = s.bit (aWrt t 0) 16 := by
    rw [State.bit, regs _ (aWrt_ne_aWrtC (by decide)), ← State.bit]
  have count : x.fld (aWrt t 0x10) 31 0 = s.fld (aWrt t 0x10) 31 0 := by
    rw [State.fld, regs _ (aWrt_ne_aWrtC (by decide)), ← State.fld]
  refine ⟨_, run, ?_⟩
  cases verify : s.bit (aWrt t 0) 16 with
  | false =>
    obtain ⟨results, headW, counted, emitted, -, more_⟩ := sectorWritten_plain_effect host (asked.trans verify) hc hh
    rw [headW, head, emitted, results, wr, counted, count]
    refine ⟨rfl, rfl, out, fun _ => ⟨rfl, rfl, rfl⟩, nofun, named.trans (more_.weaken ?_)⟩
    exact fun a mem => List.mem_singleton.1 mem ▸ List.mem_cons_self
  | true =>
    have back := sectorWritten_verified (t := t) (c := c) (h := h) host (asked.trans verify)
    have noted (w : HeadW) : quietTile [] x (x.setHeadW (headIdx t c h) w) := (onlyTile_tiles _).quiet
    rw [back, State.modHeadW_eq, State.setHeadW_headW, State.setHeadW_out, State.setHeadW_wr, head, wr]
    exact ⟨rfl, rfl, out, nofun, fun _ => ⟨rfl, rfl⟩, named.trans (noted _).mono⟩

/-- A host sector that directly follows another goes on in the other's burst. -/
theorem burstEnd_joins_effect {bits : List Bool} {d' : Nat} (ser : (s.headW i).ser = e :: rest) (open_ : (s.headW i).gate = true)
    (hi : i = headIdx t c h) (hd : d = dataSpan s t (zoneOf s t (psaTrack e.psa))) (hp : p = burstSpan s t e)
    (armed : s.bit (aWrtC t c (0x10C + 16 * h)) 3 = true) (all : entLen s t e ≤ e.done + p.2) (hc : psaCluster e.psa = c)
    (hh : psaHead e.psa = h) (host : e.kind = .host) (plain : s.bit (aWrt t 0) 16 = false) (next : rest = f :: more)
    (room : p.1 + p.2 < d) (follows : f.psa = e.psa + 1) (kept : f.discard = false) (prompt : f.late = false)
    (hd' : d' = dataSpan s t (zoneOf s t (psaTrack f.psa))) (hq : q = burstSpan s t f)
    (hbits : bits = ((entBits s t f).drop f.done).take q.2) :
    ((burstEnd s t c h).headW i).ser = { f with begun := true } :: more ∧ ((burstEnd s t c h).headW i).gate = true ∧
      ((burstEnd s t c h).wr t).results = (s.wr t).results ++ [⟨e.psa, e.kind, e.nsid, e.lba, e.gen, .written⟩] ∧
      ((burstEnd s t c h).headW i).fails = 0 ∧
      (burstEnd s t c h).fld (aWrt t 0x10) 31 0 = min (s.fld (aWrt t 0x10) 31 0 + 1) (2 ^ 32 - 1) ∧
      (burstEnd s t c h).out = (burstOut s t c h f.psa ((entStart f + f.done) / max 1 d') q.1 true bits).out ∧
      quietTile [aWrt t 0x10] s (burstEnd s t c h) := by
  subst hi hd hp hd' hq hbits
  have run := burstEnd_joins ser open_ armed all next room follows kept prompt
  obtain ⟨x, hx⟩ : ∃ x, x = (withSer s (headIdx t c h) rest).modHeadW (headIdx t c h) fun w =>
    { w with ser := { f with begun := true } :: more } := ⟨_, rfl⟩
  have head : x.headW (headIdx t c h) = { s.headW (headIdx t c h) with ser := { f with begun := true } :: more } := by
    rw [hx, State.modHeadW_eq, State.setHeadW_headW, withSer_headW]
  have units : x.wr = s.wr ∧ x.out = s.out ∧ x.fld = s.fld ∧ x.bit = s.bit := by rw [hx]; exact ⟨rfl, rfl, rfl, rfl⟩
  have quiet : quietTile [] s x := by rw [hx]; exact (withSer_only.trans (onlyTile_tiles _)).quiet
  have same : sameWriter t c h s x := ⟨fun _ _ => by rw [hx]; rfl, by rw [head], by rw [hx]; rfl, by rw [hx]; rfl, by rw [hx]; rfl⟩
  obtain ⟨wr, out, fld, bit⟩ := units
  rw [← hx] at run
  obtain ⟨results, headW, counted, emitted, kept', more_⟩ :=
    sectorWritten_plain_effect (x := x) host (by rw [bit]; exact plain) hc hh
  generalize sectorWritten x t c h e = y at run results headW counted emitted kept' more_
  have both := same.trans kept'
  rw [sendBurst_eq both.format] at run
  simp only [if_true, List.nil_append, List.length_nil, Nat.cast_zero, sub_zero] at run
  rw [run, burstOut_headW, burstOut_wr, State.fld, burstOut_reg, ← State.fld, both.burstOut_out, headW, head, results, wr, counted,
    fld, emitted, out, sameWriter.burstOut_out ⟨.refl, rfl, rfl, rfl, rfl⟩]
  exact ⟨rfl, open_, rfl, rfl, rfl, rfl, (quiet.mono.trans more_).trans burstOut_quiet.mono⟩

end

/-- Settles O31, clause by clause: what a head's going leaves alone (`Travel.headGo`), and one effect lemma for each of the
write path's commands. -/
theorem sectorsAreScrambledTakenAndWritten : Obligations.SectorsAreScrambledTakenAndWritten := by
  refine ⟨fun v t c h => ⟨Travel.headGo.only, headGo_stays⟩, fun s t c h i on hc hh hi => ⟨fun e next => ?_,
    fun e late q found hq room => ⟨fun gone host mine => ?_, fun kept retired mine => ?_,
      fun kept writer alive rated usable => ?_⟩,
    fun due link loaded => ?_, fun e rest ser shut => ⟨fun late => ?_, fun away prompt kept writer alive rated usable hAway => ?_⟩,
    fun e rest d p k ser open_ hd hp hk => ⟨fun disarmed kept tries => ?_, fun armed more_ => ?_,
      fun armed all mine mine' host => ⟨fun apart => ?_,
        fun f more d' q bits plain next span follows kept prompt hd' hq hbits => ?_⟩⟩,
    fun run empty nothing => ?_⟩⟩
  · exact ⟨_, onTileCh_next on, sectorEncode_effect next⟩
  · rw [hq]
    obtain ⟨u, run, effect⟩ := taken_ends (late := late) found hi room mine
      ((refuseEntry_discarded gone).trans (congrArg some finishWrite_skipped)) (.bump 0x28)
      (onlyTile_setReg _ (List.mem_singleton.2 rfl))
    exact ⟨u, (onHeadCh_next on hc hh).trans (congrArg _ run), effect⟩
  · rw [hq]
    obtain ⟨u, run, effect⟩ := taken_ends (late := late) found hi room mine
      ((refuseEntry_dequeued_retired kept retired).trans (congrArg some finishWrite_retired)) .refl onlyTile_refl
    exact ⟨u, (onHeadCh_next on hc hh).trans (congrArg _ run), effect⟩
  · rw [hq]
    have run := serialiserTake_taken (late := late) found hi room (refuseEntry_dequeued kept writer alive rated usable)
    exact ⟨_, (onHeadCh_next on hc hh).trans (congrArg _ run), serialised_counts⟩
  · exact ⟨_, onHeadCh_next on hc hh, writeHeat_effect hi due link loaded⟩
  · subst hi
    exact (onHeadCh_next on hc hh).trans (congrArg _ (burstStart_late ser shut late))
  · subst hi
    have run := burstStart_writable ser shut prompt kept writer alive rated usable
    rw [awayNow, ← hAway] at run
    refine ⟨fun fresh early => (onHeadCh_next on hc hh).trans (congrArg _ (run.trans (if_pos ?_))), fun goes => ?_⟩
    · rw [fresh]
      exact ⟨rfl, early.imp (fun cold => by rw [cold]; rfl) id⟩
    · have on_ : ¬ ((!e.begun) = true ∧ ((!heated s t (headIdx t c h)) = true ∨ away = true)) := by
        rcases goes with begun | ⟨hot, here⟩
        · simp [begun]
        · simp [hot, here]
      rw [if_neg on_] at run
      refine ⟨fun waits => (onHeadCh_next on hc hh).trans (congrArg _ (run.trans (if_pos (by rw [waits]; rfl)))),
        fun p lead bits track home near safe armed sound idle hp hlead hbits => ⟨_, onHeadCh_next on hc hh, ?_⟩⟩
      have ready := burstReady_of track home near safe armed sound idle
      rw [if_neg (by rw [ready]; exact Bool.false_ne_true)] at run
      exact burst_begins shut hp hlead hbits run
  · subst hi
    exact ⟨_, onHeadCh_next on hc hh, burstEnd_cut_effect ser open_ disarmed kept tries⟩
  · subst hi hp
    refine ⟨_, (onHeadCh_next on hc hh).trans (congrArg _ (burstEnd_wedge ser open_ armed more_)), ?_⟩
    rw [gated_headW, withSer_headW, gated_out]
    exact ⟨rfl, rfl, rfl, (withSer_only.quiet.mono).trans gated_quiet⟩
  · obtain ⟨v, run, effect⟩ := burstEnd_ends_effect ser open_ hi hd hp hk armed all mine mine' host apart
    exact ⟨v, (onHeadCh_next on hc hh).trans (congrArg _ run), effect⟩
  · exact ⟨_, onHeadCh_next on hc hh, burstEnd_joins_effect ser open_ hi hd hp armed all mine mine' host plain next span
      follows kept prompt hd' hq hbits⟩
  · exact ⟨_, onHeadCh_next on hc hh, writeRunEnd_effect hi run empty nothing⟩

end Sys2Proof.Machine
end

section
/-! SUPPORT. O56: the checks and writes of the flash and of versions, and what the end of a flash operation makes of
the staged slot (R467, R472 to R474). -/

namespace Sys2Proof.Machine

/-! ### The flash bytes that a program writes -/

/-- Bytes written from `lo` on, one after another. -/
def cellsWritten (cells : Tab Byte) (lo : Nat) (bs : Payload) : Tab Byte :=
  ((List.range bs.length).zip bs).foldl (fun t e => Tab.to 0xFF t (lo + e.1) e.2) cells

theorem cellsWritten_concat (cells : Tab Byte) (lo : Nat) (bs : Payload) (b : Byte) :
    cellsWritten cells lo (bs ++ [b]) = Tab.to 0xFF (cellsWritten cells lo bs) (lo + bs.length) b := by
  unfold cellsWritten
  rw [List.length_append, List.length_singleton, List.range_succ, List.zip_append (by simp), List.foldl_append]
  rfl

theorem cellsWritten_at (cells : Tab Byte) (lo : Nat) (bs : Payload) {i : Nat} {b : Byte} (there : bs[i]? = some b) :
    Tab.at 0xFF (cellsWritten cells lo bs) (lo + i) = b := by
  induction bs using List.reverseRecOn with
  | nil => cases there
  | append_singleton bs x ih =>
    rw [cellsWritten_concat]
    rcases Nat.lt_trichotomy i bs.length with before | last | after
    · rw [List.getElem?_append_left before] at there
      exact (Tab.at_to_ne _ _ _ (by omega)).trans (ih there)
    · subst last
      rw [List.getElem?_append_right le_rfl, Nat.sub_self] at there
      rw [Tab.at_to_self]
      exact Option.some.inj there
    · have beyond : (bs ++ [x])[i]? = none := List.getElem?_eq_none (by simp; omega)
      rw [beyond] at there
      cases there

/-- No stretch of free bytes is left where it has been cut. -/
theorem cutTorn_none (ts : List (Nat × Nat × Nat)) {lo hi o : Nat} (from_ : lo ≤ o) (below : o < hi) :
    ((cutTorn ts lo hi).find? fun e => decide (e.1 ≤ o) && decide (o < e.1 + e.2.1)) = none := by
  refine List.find?_eq_none.2 fun e there => ?_
  obtain ⟨x, -, part⟩ := List.mem_flatMap.1 there
  simp only [Bool.and_eq_true, decide_eq_true_eq, not_and]
  rcases List.mem_append.1 part with left | right
  · split at left
    · rw [List.mem_singleton.1 left]
      dsimp only
      omega
    · cases left
  · split at right
    · rw [List.mem_singleton.1 right]
      dsimp only
      omega
    · cases right

theorem writeFlash_byte (s : State) (lo : Nat) (bs : Payload) {i : Nat} {b : Byte} (there : bs[i]? = some b) :
    flashByte (writeFlash s lo bs) (lo + i) = b := by
  have range : i < bs.length := (List.getElem?_eq_some_iff.1 there).1
  unfold flashByte
  rw [show (writeFlash s lo bs).flash.torn = cutTorn s.flash.torn lo (lo + bs.length) from rfl,
    cutTorn_none _ (by omega) (by omega)]
  exact cellsWritten_at s.flash.cells lo bs there

theorem flashByte_congr {s u : State} (same : u.flash = s.flash) (o : Nat) : flashByte u o = flashByte s o := by
  unfold flashByte
  rw [same]

/-! ### MGT.STAGED -/

section
variable {s u : State} {m : MgOp} {f : Option FlashOp} {st : Status} {data : Payload} {ok : Bool}

theorem stagedState_congr (same : u.reg (aMgt 0x14) = s.reg (aMgt 0x14)) : stagedState u = stagedState s := by
  rw [stagedState, State.fld, same, stagedState, State.fld]

theorem stagedState_setReg (w : Word) : stagedState (s.setReg (aMgt 0x14) w) = fld w 31 30 := by
  rw [stagedState, State.fld, State.setReg_reg]

theorem eraseEnd_mgmt : (eraseEnd s ok).mgmt = s.mgmt := by
  unfold eraseEnd
  cases ok <;> rfl

theorem stagedState_flash (x : Flash) : stagedState { s with flash := x } = stagedState s := rfl

theorem eraseEnd_staged : stagedState (eraseEnd s ok) = if ok then 0 else 3 := by
  unfold eraseEnd
  cases ok
  · exact stagedState_setReg _
  · rw [if_pos rfl, stagedState_flash]
    exact stagedState_setReg 0

theorem programEnd_staged (off : Nat) (bs : Payload) : stagedState (programEnd s off bs) = 1 := by
  refine (stagedState_setReg _).trans ?_
  rw [fld_or, fld_place_self _ (by decide), fld_place_ne _ (.inr (by decide))]
  decide

/-! ### The end of the executor's operation -/

/-- A long operation of the port ends with its reply; the flash and every register but LASTOP stay. -/
theorem finishLong_port (long : s.mgmt.long = some ⟨m, f⟩) (port : m.route = .port) (idle : s.mgmt.waiting = []) :
    opEnds (resetHeads (finishLong s st data)) m.opcode m.tag st data ∧ (resetHeads (finishLong s st data)).mgmt.long = none ∧
      (resetHeads (finishLong s st data)).flash = s.flash ∧
      (resetHeads (finishLong s st data)).reg (aMgt 0x14) = s.reg (aMgt 0x14) := by
  obtain ⟨route, op, tag, rsv, param⟩ := m
  obtain rfl : route = .port := port
  have ended : finishLong s st data =
      finishOp { s with mgmt := { s.mgmt with long := none } } (portOp op tag param) st data := by
    rw [finishLong_eq long]
    rfl
  have still : ({ s with mgmt := { s.mgmt with long := none } } : State).mgmt.waiting = [] := idle
  rw [ended, resetHeads_finishOp still]
  refine ⟨finishOp_opEnds, by rw [finishOp_mgmt], ?_, finishOp_reg (by decide)⟩
  rw [finishOp_port, lastOpNoted_frame]

/-! ### FLASH_OPERATION_DONE -/

theorem flashDone_idle (long : s.mgmt.long = none) : flashDone s ok = if stagedState s = 2 then eraseEnd s ok else s := by
  simp only [flashDone, long, Option.bind_none, reduceCtorEq, if_false]

theorem flashDone_mine {f : FlashOp} (long : s.mgmt.long = some ⟨m, some f⟩) (other : stagedState s ≠ 2) : flashDone s ok =
    if f = .eraseStaged then finishLong (eraseEnd s ok) (if ok then .ok else .storeBusy) []
    else match f with
      | .program off bs => if ok then finishLong (programEnd s off bs) .ok [] else finishLong s .storeBusy []
      | .pointer revert => if ok then commitDone s revert else finishLong (putRec s none) .storeBusy []
      | _ => s := by
  simp only [flashDone, long, Option.bind_some, Option.some.injEq, if_neg other]
  cases f <;> rfl

theorem flashDone_erase (long : s.mgmt.long = some ⟨m, some .eraseStaged⟩) :
    flashDone s ok = finishLong (eraseEnd s ok) (if ok then .ok else .storeBusy) [] := by
  simp only [flashDone, long, Option.bind_some, if_true]

theorem putRec_mgmt (r : Option PtrRec) : (putRec s r).mgmt = s.mgmt := by
  unfold putRec
  rfl

/-- The staged slot's own erase, which no operation waits for. -/
theorem flashOperationDone_idle (idle : s.mgmt.waiting = []) (long : s.mgmt.long = none) :
    (stagedState s ≠ 2 → exec (.flashOperationDone ok) s = .next s) ∧
      (stagedState s = 2 → ∃ u, exec (.flashOperationDone ok) s = .next u ∧ stagedState u = if ok then 0 else 3) := by
  have run : exec (.flashOperationDone ok) s = .next (resetHeads (flashDone s ok)) := rfl
  rw [run, flashDone_idle long]
  refine ⟨fun other => ?_, fun erasing => ⟨_, rfl, ?_⟩⟩
  · rw [if_neg other, resetHeads_none idle]
  · rw [if_pos erasing, resetHeads_none (by rw [eraseEnd_mgmt]; exact idle)]
    exact eraseEnd_staged

theorem flashOperationDone_mine {f : FlashOp} (idle : s.mgmt.waiting = []) (long : s.mgmt.long = some ⟨m, some f⟩)
    (port : m.route = .port) : ∃ u, exec (.flashOperationDone ok) s = .next u ∧
      (f = .eraseStaged → stagedState u = (if ok then 0 else 3) ∧ u.mgmt.long = none ∧
        opEnds u m.opcode m.tag (if ok then .ok else .storeBusy) []) ∧
      (∀ off bs, f = .program off bs → stagedState s ≠ 2 → u.mgmt.long = none ∧
        opEnds u m.opcode m.tag (if ok then .ok else .storeBusy) [] ∧
        (ok = true → stagedState u = 1 ∧ ∀ i b, bs[i]? = some b → flashByte u (stagedBase s + off + i) = b)) ∧
      (∀ r, f = .pointer r → stagedState s ≠ 2 → ok = false → u.mgmt.long = none ∧
        opEnds u m.opcode m.tag .storeBusy []) := by
  refine ⟨_, rfl, ?_, ?_, ?_⟩
  · rintro rfl
    rw [flashDone_erase long]
    obtain ⟨ends, done, -, reg⟩ := finishLong_port (s := eraseEnd s ok) (st := if ok then .ok else .storeBusy) (data := [])
      (by rw [eraseEnd_mgmt]; exact long) port (by rw [eraseEnd_mgmt]; exact idle)
    exact ⟨(stagedState_congr reg).trans eraseEnd_staged, done, ends⟩
  · rintro off bs rfl other
    rw [flashDone_mine long other, if_neg nofun]
    cases ok
    · obtain ⟨ends, done, -⟩ := finishLong_port (st := .storeBusy) (data := []) long port idle
      exact ⟨done, ends, nofun⟩
    · obtain ⟨ends, done, flash, reg⟩ := finishLong_port (s := programEnd s off bs) (st := .ok) (data := []) long port idle
      refine ⟨done, ends, fun _ => ⟨(stagedState_congr reg).trans (programEnd_staged off bs), fun i b there => ?_⟩⟩
      exact (flashByte_congr flash _).trans (writeFlash_byte s _ bs there)
  · rintro r rfl other rfl
    rw [flashDone_mine long other, if_neg nofun]
    obtain ⟨ends, done, -⟩ := finishLong_port (s := putRec s none) (st := .storeBusy) (data := [])
      (by rw [putRec_mgmt]; exact long) port (by rw [putRec_mgmt]; exact idle)
    exact ⟨done, ends⟩

end

end Sys2Proof.Machine
end

section
/-! SUPPORT. O56: the check of a tile's versions, and the flash's operating time (R472, R473). -/

namespace Sys2Proof.Machine

section
variable {s : State} {t : Nat}

theorem State.fld_setF_self (a : Nat) {hi lo : Nat} (n : Nat) (range : hi < 32) :
    (s.setF a hi lo n).fld a hi lo = n % 2 ^ (hi + 1 - lo) := by
  rw [State.fld, State.setF_eq, State.setReg_reg, fld_setFld_self _ _ range]

/-- A tile that agrees is noted so: its reloads are forgotten, and TILEVER says so. -/
def agreed (s : State) (t : Nat) : State :=
  ({ s with mgmt := { s.mgmt with fails := Tab.to 0 s.mgmt.fails t 0 } } : State).setF (aVer t) 31 30 1

theorem agreed_fails : Tab.at 0 (agreed s t).mgmt.fails t = 0 := Tab.at_to_self 0 s.mgmt.fails t 0

theorem agreed_noted : (agreed s t).fld (aVer t) 31 30 = 1 := State.fld_setF_self _ 1 (by decide)

theorem agreed_reg {a : Nat} (other : a ≠ aVer t) : (agreed s t).reg a = s.reg a := State.setReg_reg_ne _ _ other

theorem sendOptime_reg {a : Nat} (other : a ≠ aTile t 0x48) : (sendOptime s t).reg a = s.reg a :=
  State.setReg_reg_ne _ _ other

theorem tileAgrees_sendOptime : tileAgrees (sendOptime s t) t = tileAgrees s t := by
  have apart (o o' : Nat) (other : o ≠ o') : aTile t o ≠ aTile t o' := by
    unfold aTile
    omega
  have hub (o : Nat) (low : o < 0x100) : aMgt o ≠ aTile t 0x48 := by
    unfold aMgt aTile tileBase
    omega
  rw [tileAgrees, sendOptime_reg (apart _ _ (by decide)), sendOptime_reg (apart _ _ (by decide)),
    sendOptime_reg (hub _ (by decide)), sendOptime_reg (hub _ (by decide)), tileAgrees]

theorem checkAgreement_agrees (agrees : tileAgrees s t = true) : checkAgreement s t = (agreed (sendOptime s t) t, true) := by
  unfold checkAgreement
  dsimp only
  rw [if_pos (tileAgrees_sendOptime.trans agrees), agreed]

theorem linkState_same {u : State} (same : u.reg (aHub (0x100 + 4 * t)) = s.reg (aHub (0x100 + 4 * t))) :
    u.linkState t = s.linkState t := congrArg (fld · 3 0) same

theorem agreed_linkState (tile : t < 8) : (agreed (sendOptime s t) t).linkState t = s.linkState t := by
  have link : aHub (0x100 + 4 * t) ≠ aVer t ∧ aHub (0x100 + 4 * t) ≠ aTile t 0x48 := by
    unfold aHub aVer aMgt aTile tileBase
    omega
  exact linkState_same ((agreed_reg link.1).trans (sendOptime_reg link.2))

theorem agreementTile_up {u : State} (checked : checkAgreement s t = (u, true)) (up : u.linkUp t = true) :
    agreementTile s t = u := by
  simp only [agreementTile, checked, up, Bool.not_true, Bool.false_eq_true, if_false, if_true]

theorem agreementTile_agrees (tile : t < 8) (agrees : tileAgrees s t = true) (up : s.linkUp t = true) :
    agreementTile s t = agreed (sendOptime s t) t := by
  have still : (agreed (sendOptime s t) t).linkUp t = true := by
    rw [State.linkUp, agreed_linkState tile]
    exact up
  exact agreementTile_up (checkAgreement_agrees agrees) still

theorem agreementCheck_eq : exec .agreementCheck s =
    .next (if executorFree s then (s.tiles.filter (agreementDue s)).foldl agreementTile s else s) := rfl

theorem agreementCheck_idle (idle : executorFree s = false ∨ ∀ t ∈ s.tiles, agreementDue s t = false) :
    exec .agreementCheck s = .next s := by
  rw [agreementCheck_eq]
  rcases idle with busy | none
  · rw [busy, if_neg Bool.false_ne_true]
  · rw [List.filter_eq_nil_iff.2 fun t there => by rw [none t there]; exact Bool.false_ne_true]
    exact congrArg _ (ite_self s)

theorem agreementCheck_agrees (free : executorFree s = true) (due : s.tiles.filter (agreementDue s) = [t]) (tile : t < 8)
    (agrees : tileAgrees s t = true) (up : s.linkUp t = true) : ∃ u, exec .agreementCheck s = .next u ∧
      u.fld (aVer t) 31 30 = 1 ∧ Tab.at 0 u.mgmt.fails t = 0 ∧ u.linkState t = s.linkState t := by
  refine ⟨agreed (sendOptime s t) t, ?_, agreed_noted, agreed_fails, agreed_linkState tile⟩
  rw [agreementCheck_eq, if_pos free, due, List.foldl_cons, List.foldl_nil, agreementTile_agrees tile agrees up]

/-- OPTIME is written to a flash that is usable. -/
theorem optimeWrite_effect (ok : Bool) : exec (.optimeWrite ok) s =
    .next (if ok = true ∧ s.fld (aMgt 0x28) 31 28 = 1 then
      { s with flash := { s.flash with optime := (s.reg (aMgt 0x30)).toNat } } else s) := by
  have run : exec (.optimeWrite ok) s = .next (if ok then saveOptime s else s) := rfl
  rw [run]
  cases ok
  · rw [if_neg Bool.false_ne_true, if_neg fun both => nomatch both.1]
  · simp only [if_true, true_and]
    rfl

end

end Sys2Proof.Machine
end

section
/-! SUPPORT. O56: loss of supply, power-on and TEST_EN, and what the device ignores (R501, R506, R507). -/

namespace Sys2Proof.Machine

section
variable {s : State}

/-- Everything volatile is lost, and the device stands at a boot step. -/
structure Cold (s u : State) (b : Nat) : Prop where
  regs : u.regs = []
  slots : u.slots = []
  cmds : u.nq.cmds = []
  buf : u.buf = Buf.reset
  tl : u.tl = TileSide.reset
  boot : u.power.boot = b
  zones : u.nq.zones = s.nq.zones
  recorded : u.nq.recorded = s.nq.recorded
  reached : u.nq.reached = s.nq.recorded
  now : u.now = s.now
  pfail : u.power.pfailLow = s.power.pfailLow
  key : u.power.keyLow = s.power.keyLow

theorem coldState_cold (b : Nat) : Cold s (coldState s b) b := by
  constructor <;> rfl

/-- What a loss of everything volatile leaves, as its row's effect. -/
def coldRow (x : Instr) (s : State) (b : Nat) : Prop :=
  ∃ u, exec x s = .next u ∧ Cold s u b ∧ u.flash = { s.flash with optime := u.flash.optime } ∧
    ((∀ o, x ≠ .supplyLoss o) → u.flash = s.flash)

theorem saveOptime_frame : saveOptime s =
    { s with flash := { s.flash with optime := (saveOptime s).flash.optime } } := by
  unfold saveOptime
  split <;> rfl

theorem powerOn_cold : coldRow .powerOn s (if s.power.testEn then 0 else 1) :=
  ⟨_, rfl, coldState_cold _, rfl, fun _ => rfl⟩

theorem testEnable_cold {high : Bool} (changed : s.power.testEn ≠ high) :
    coldRow (.testEnable high) s (if high then 0 else 1) := by
  have run : exec (.testEnable high) s = .next (if s.power.testEn = high then s
    else coldState { s with power := { s.power with testEn := high } } (if high then 0 else 1)) := rfl
  refine ⟨_, run.trans (congrArg Host.Outcome.next (if_neg changed)), ?_, rfl, fun _ => rfl⟩
  constructor <;> rfl

theorem supplyLoss_cold (orderly : Bool) : coldRow (.supplyLoss orderly) s 0 := by
  refine ⟨_, rfl, ?_⟩
  dsimp only
  split
  · rw [saveOptime_frame]
    exact ⟨by constructor <;> rfl, rfl, fun other => absurd rfl (other orderly)⟩
  · exact ⟨coldState_cold 0, rfl, fun _ => rfl⟩

/-- The rows that lose everything volatile, and the boot step that they leave. -/
theorem cold_rows {x : Instr} {b : Nat} (row : x = Instr.powerOn ∧ b = (if s.power.testEn then 0 else 1) ∨
      (∃ o, x = .supplyLoss o) ∧ b = 0 ∨ (∃ h, x = .testEnable h ∧ s.power.testEn ≠ h ∧ b = if h then 0 else 1)) :
    coldRow x s b := by
  rcases row with ⟨rfl, rfl⟩ | ⟨⟨o, rfl⟩, rfl⟩ | ⟨h, rfl, changed, rfl⟩
  · exact powerOn_cold
  · exact supplyLoss_cold o
  · exact testEnable_cold changed

/-! ### What changes nothing -/

theorem testEnable_same {high : Bool} (same : s.power.testEn = high) : exec (.testEnable high) s = .next s :=
  congrArg Host.Outcome.next (if_pos same)

theorem pins_ignored {ns : Nat} (ignored : ns < 1000 ∨ s.power.testEn = true ∨ s.power.boot = 0) :
    exec (.porstN ns) s = .next s ∧ exec (.warmN ns) s = .next s :=
  ⟨congrArg Host.Outcome.next (if_pos ignored), congrArg Host.Outcome.next (if_pos ignored)⟩

theorem pins_heed {ns : Nat} (long : 1000 ≤ ns) (test : s.power.testEn = false) (on : s.power.boot ≠ 0) :
    exec (.porstN ns) s = .next (pinReset s 1) ∧ exec (.warmN ns) s =
      .next (if s.power.porstLow then { s with power := { s.power with warmLow := true } } else pinReset s 2) := by
  have heeded : ¬ (ns < 1000 ∨ s.power.testEn = true ∨ s.power.boot = 0) := by
    rw [test]
    rintro (short | held | off)
    · omega
    · cases held
    · exact on off
  exact ⟨congrArg Host.Outcome.next (if_neg heeded), congrArg Host.Outcome.next (if_neg heeded)⟩

theorem resetStart_none (none : s.mgmt.rst = none) : exec .resetStart s = .next s := by
  refine congrArg Host.Outcome.next ?_
  simp only [beginReset, none]

theorem hubSoftReset_ignored (ignored : s.power.boot < 6 ∨ s.power.deep = .ps4) : exec .hubSoftReset s = .next s :=
  congrArg Host.Outcome.next (if_pos ignored)

theorem tileReset_row {t : Nat} (tile : s.hasTile t = true) :
    ((s.power.boot < 9 ∨ s.power.deep ≠ .awake) → exec (.tileReset t) s = .next s) ∧
      (9 ≤ s.power.boot → s.power.deep = .awake → exec (.tileReset t) s = .next (settle (tileReset s t))) := by
  have run : exec (.tileReset t) s =
      .next (if s.power.boot < 9 ∨ s.power.deep ≠ .awake then s else settle (tileReset s t)) := onTile_next tile
  rw [run]
  refine ⟨fun early => congrArg Host.Outcome.next (if_pos early), fun booted awake => congrArg Host.Outcome.next (if_neg ?_)⟩
  rintro (early | deep)
  · omega
  · exact deep awake

theorem bootStep_test {ok : Bool} (test : s.power.testEn = true) : exec (.bootStep ok) s = .next s :=
  congrArg Host.Outcome.next (if_pos test)

end

end Sys2Proof.Machine
end

section
/-! SUPPORT. O56: PORST_N and WARM_N (R427, R501, R502, R508). -/

namespace Sys2Proof.Machine

section
variable {s u v : State} {t kind : Nat}

/-! ### What is under way stops -/

/-- Nothing has changed but registers, the units of the tiles and what has been emitted. -/
structure Stopped (s u : State) : Prop where
  frame : u = { s with regs := u.regs, out := u.out, tl := u.tl }

theorem Stopped.trans (first : Stopped s u) (second : Stopped u v) : Stopped s v := ⟨by rw [second.frame, first.frame]⟩

theorem stopped_foldl {α : Type} {f : State → α → State} (step : ∀ s a, Stopped s (f s a)) (l : List α) (s : State) :
    Stopped s (l.foldl f s) := foldl_related (fun _ => ⟨rfl⟩) .trans step l s

theorem stopped_setReg (a : Nat) (w : Word) : Stopped s (s.setReg a w) := ⟨rfl⟩

theorem stopped_setHeadW (i : Nat) (x : HeadW) : Stopped s (s.setHeadW i x) := ⟨rfl⟩

theorem stopped_emit (o : Out) : Stopped s (s.emit o) := ⟨rfl⟩

theorem stopped_modDet (f : DetX → DetX) : Stopped s (s.modDet t f) := ⟨rfl⟩

theorem stopped_setGate (c h : Nat) (on : Bool) : Stopped s (setGate s t c h on) := by
  unfold setGate
  dsimp only
  split
  · exact ⟨rfl⟩
  · exact ((stopped_setHeadW _ _).trans (stopped_setReg _ _)).trans (stopped_emit _)

theorem stopped_endOp (q : HistReq) (st : DecSt) : Stopped s (endOp s t q st) := by
  unfold endOp pushRes opDone
  exact (stopped_modDet _).trans (stopped_modDet _)

theorem stopped_abortAll : Stopped s (abortAll s t) := by
  unfold abortAll
  refine stopped_foldl (fun v o => ?_) _ _
  exact stopped_endOp _ _

theorem stopped_stopChannels : Stopped s (stopChannels s t) := by
  have shut : Stopped s (s.tl.headW.foldl
      (fun s e => if e.1 / 96 = t then setGate s t (e.1 % 96 / 24) (e.1 % 24) false else s) s) := by
    refine stopped_foldl (fun s e => ?_) _ _
    split
    · exact stopped_setGate _ _ _
    · exact ⟨rfl⟩
  unfold stopChannels
  exact shut.trans stopped_abortAll

/-- With no merge window open there is no summary to write. -/
theorem owlWindowsEnd_none (none : s.owl.wins = []) : owlWindowsEnd s = { s with owl := { s.owl with wins := [] } } := by
  simp only [owlWindowsEnd, none, List.foldl_nil]

/-! ### The keys (R427) -/

theorem Tab.get_mem {α : Type} (d : Nat → α) (l : Tab α) (k : Nat) : Tab.get d l k = d k ∨ (k, Tab.get d l k) ∈ l := by
  induction l with
  | nil => exact .inl rfl
  | cons e l ih =>
    obtain ⟨i, v⟩ := e
    unfold Tab.get
    split
    · next same =>
      subst same
      exact .inr (List.mem_cons_self ..)
    · exact ih.imp_right (List.mem_cons_of_mem _)

/-- Every slot is EMPTY. -/
theorem emptySlots_slot (i : Nat) : ((emptySlots s).slot i).key = [] ∧ ((emptySlots s).slot i).state = 0 := by
  rcases Tab.get_mem (fun _ => Slot.empty) (emptySlots s).slots i with absent | listed
  · rw [State.slot, Tab.at, absent]
    exact ⟨rfl, rfl⟩
  · obtain ⟨e, -, same⟩ := List.mem_map.1 (List.mem_of_mem_filter listed)
    have value := congrArg Prod.snd same
    rw [State.slot, Tab.at]
    dsimp only at value
    rw [← value]
    exact ⟨rfl, rfl⟩

/-! ### RSTLAST (R508) -/

theorem noteReset_last (low : kind < 16) (t : Nat) : (noteReset s kind t).fld (aPwr 0x1C) 3 0 = kind := by
  have apart : aPwr 0x1C ≠ aPwr (0x20 + 4 * kind) := by
    unfold aPwr
    omega
  rw [State.fld, noteReset, bump_reg_ne apart, State.setReg_reg, fld_or, fld_place_ne _ (.inl (by decide)),
    fld_place_self _ (by decide), Nat.zero_or]
  exact Nat.mod_eq_of_lt low

/-! ### The reset -/

/-- What a reset by a pin leaves. -/
structure PinLeft (s u : State) (k : Nat) : Prop where
  boot : u.power.boot = 1
  kind : u.power.kind = k
  cmds : u.nq.cmds = []
  buf : u.buf = Buf.reset
  waiting : u.mgmt.waiting = []
  long : u.mgmt.long = none
  slots : ∀ i, (u.slot i).key = [] ∧ (u.slot i).state = 0
  last : u.fld (aPwr 0x1C) 3 0 = k
  porst : k = 1 → u.power.porstLow = true
  warm : k = 2 → u.power.warmLow = true
  flash : u.flash = s.flash
  recorded : u.nq.recorded = s.nq.recorded

theorem pinReset_left (low : kind < 16) (unloaded : loadedTiles s = []) (windows : s.owl.wins = []) :
    PinLeft s (pinReset s kind) kind := by
  have stopped : Stopped s (s.tiles.foldl stopChannels s) := stopped_foldl (fun _ _ => stopped_stopChannels) _ _
  unfold pinReset
  rw [unloaded]
  simp only [List.foldl_nil]
  generalize s.tiles.foldl stopChannels s = x at *
  have ended : owlWindowsEnd x = { x with owl := { x.owl with wins := [] } } :=
    owlWindowsEnd_none (by rw [stopped.frame]; exact windows)
  rw [ended]
  have flash : x.flash = s.flash := by rw [stopped.frame]
  have recorded : x.nq.recorded = s.nq.recorded := by rw [stopped.frame]
  refine ⟨rfl, rfl, rfl, rfl, rfl, rfl, fun i => emptySlots_slot i, noteReset_last low 0, ?_, ?_, flash, recorded⟩
  · rintro rfl
    rfl
  · rintro rfl
    rfl

end

end Sys2Proof.Machine
end

section
/-! SUPPORT. O56: what settling does where no operation and no access waits (R497, R505, R508). -/

namespace Sys2Proof.Machine

section
variable {s u v : State} {t : Nat}

/-- Nothing has changed but registers, the boot step, the tiles' ways and bring-ins. -/
structure Upheld (s u : State) : Prop where
  frame : u = { s with regs := u.regs, power := { s.power with boot := u.power.boot, bring := u.power.bring, goal := u.power.goal } }

theorem Upheld.refl (s : State) : Upheld s s := ⟨rfl⟩

theorem Upheld.trans (first : Upheld s u) (second : Upheld u v) : Upheld s v := ⟨by rw [second.frame, first.frame]⟩

theorem upheld_setBring (n : Nat) : Upheld s (setBring s t n) := ⟨rfl⟩

theorem upheld_setGoal (g : Option Nat) : Upheld s (setGoal s t g) := ⟨rfl⟩

theorem upheld_dropRetired : Upheld s (dropRetired s t) := by
  unfold dropRetired
  split
  · exact (upheld_setBring 0).trans (upheld_setGoal none)
  · split
    · exact upheld_setGoal none
    · exact .refl s

theorem dropRetired_boot : (dropRetired s t).power.boot = s.power.boot := by
  unfold dropRetired
  split
  · rfl
  · split <;> rfl

theorem dropsRetired_upheld (l : List Nat) : Upheld s (l.foldl dropRetired s) :=
  foldl_related (R := Upheld) .refl .trans (fun _ _ => upheld_dropRetired) l s

theorem dropsRetired_boot (l : List Nat) : (l.foldl dropRetired s).power.boot = s.power.boot :=
  foldl_related (R := fun s u => u.power.boot = s.power.boot) (fun _ => rfl) (fun first second => second.trans first)
    (fun _ _ => dropRetired_boot) l s

theorem upheld_bootEnd : Upheld s (bootEnd s) := by
  unfold bootEnd
  dsimp only
  split
  · exact ⟨rfl⟩
  · exact .refl s

theorem bootEnd_early (early : s.power.boot ≠ 9) : bootEnd s = s := if_neg fun both => early both.1

theorem bootEnd_boot (nine : s.power.boot = 9) : (bootEnd s).power.boot = 9 ∨ (bootEnd s).power.boot = 10 := by
  unfold bootEnd
  dsimp only
  split
  · exact .inr rfl
  · exact .inl nine

theorem upkeep_upheld : Upheld s (upkeep s) := (dropsRetired_upheld s.tiles).trans upheld_bootEnd

theorem upkeep_boot (early : s.power.boot ≠ 9) : (upkeep s).power.boot = s.power.boot := by
  unfold upkeep
  rw [bootEnd_early (by rw [dropsRetired_boot]; exact early), dropsRetired_boot]

theorem upkeep_boot_nine (nine : s.power.boot = 9) : (upkeep s).power.boot = 9 ∨ (upkeep s).power.boot = 10 :=
  bootEnd_boot ((dropsRetired_boot _).trans nine)

/-- A tile with nothing under way has nothing to drop, nor has one that serves. -/
theorem dropRetired_none (none : tileRetired s t = false ∨ bringOf s t = 0 ∧ goalOf s t = none) : dropRetired s t = s := by
  unfold dropRetired
  rcases none with serves | ⟨bring, goal⟩
  · rw [serves]
    simp
  · rw [bring, goal]
    simp

theorem upkeep_same (early : s.power.boot ≠ 9)
    (none : ∀ t ∈ s.tiles, tileRetired s t = false ∨ bringOf s t = 0 ∧ goalOf s t = none) : upkeep s = s := by
  have still (l : List Nat) (all : ∀ t ∈ l, tileRetired s t = false ∨ bringOf s t = 0 ∧ goalOf s t = Option.none) :
      l.foldl dropRetired s = s := by
    induction l with
    | nil => rfl
    | cons t l ih =>
      rw [List.foldl_cons, dropRetired_none (all t (List.mem_cons_self ..))]
      exact ih fun k there => all k (List.mem_cons_of_mem _ there)
  unfold upkeep
  rw [still _ none, bootEnd_early early]

/-- With no operation and no access waiting, settling is only that. -/
theorem settle_idle (long : s.mgmt.long = none) (noAccs : s.mgmt.accs = []) : settle s = upkeep s := by
  have effect := upkeep_upkept (s := s)
  have still : (upkeep s).mgmt.accs = [] := by rw [effect.mgmt, noAccs]
  unfold settle
  rw [show bootEnd (s.tiles.foldl dropRetired s) = upkeep s from rfl, serveAccs_none still]
  simp only [effect.mgmt, long]

end

end Sys2Proof.Machine
end

section
/-! SUPPORT. O56: the loading of the configuration and of the flash's tables (R297, R352, R469, R476). -/

namespace Sys2Proof.Machine

/-- Power, the commands and the executor are as before: nothing has changed but registers, stores, names and notices. -/
structure Loads (s u : State) : Prop where
  power : u.power = s.power
  cmds : u.nq.cmds = s.nq.cmds
  long : u.mgmt.long = s.mgmt.long
  waiting : u.mgmt.waiting = s.mgmt.waiting
  accs : u.mgmt.accs = s.mgmt.accs

namespace Loads

section
variable {s u v : State}

theorem refl (s : State) : Loads s s := ⟨rfl, rfl, rfl, rfl, rfl⟩

theorem trans (first : Loads s u) (second : Loads u v) : Loads s v :=
  ⟨second.power.trans first.power, second.cmds.trans first.cmds, second.long.trans first.long,
    second.waiting.trans first.waiting, second.accs.trans first.accs⟩

theorem ite {p : Prop} [Decidable p] (yes : p → Loads s u) (no : ¬p → Loads s v) : Loads s (if p then u else v) := by
  split
  · exact yes ‹_›
  · exact no ‹_›

theorem foldl {α : Type} {f : State → α → State} (step : ∀ s a, Loads s (f s a)) (l : List α) (s : State) :
    Loads s (l.foldl f s) := foldl_related refl trans step l s

theorem regs (w : Tab Word) : Loads s { s with regs := w } := ⟨rfl, rfl, rfl, rfl, rfl⟩

theorem setReg (a : Nat) (w : Word) : Loads s (s.setReg a w) := regs _

theorem tiles (x : TileSide) : Loads s { s with tl := x } := ⟨rfl, rfl, rfl, rfl, rfl⟩

theorem keys (x : Tab Slot) : Loads s { s with slots := x } := ⟨rfl, rfl, rfl, rfl, rfl⟩

theorem flash (x : Flash) : Loads s { s with flash := x } := ⟨rfl, rfl, rfl, rfl, rfl⟩

theorem notices (only : onlyNotices s u) : Loads s u := by
  obtain ⟨frame, -, -⟩ := only
  rw [frame]
  exact ⟨rfl, rfl, rfl, rfl, rfl⟩

/-! ### The hub's registers, store, firmware and names -/

theorem loadReg (inDom : Nat → Bool) (a : Nat) (w : Word) : Loads s (loadReg s inDom a w) := by
  unfold Machine.loadReg
  split
  · exact ite (fun _ => setReg _ _) fun _ => refl s
  · exact refl s

theorem irqEvalAll (ic : Nat) : Loads s (irqEvalAll s ic) := foldl (fun _ _ => notices (irqEval_notices _ _)) _ _

theorem loadHubRegs (slot : Option Nat) (inDom : Nat → Bool) : Loads s (loadHubRegs s slot inDom) := by
  unfold Machine.loadHubRegs
  refine trans ?_ (irqEvalAll 0)
  have kept : Loads s ((verRegs.map fun a => (a, s.reg a)).foldl (fun s e => s.setReg e.1 e.2)
      (s.cfgReset fun d => inDom d && decide (d < 4))) := (regs _).trans (foldl (fun _ _ => setReg _ _) _ _)
  cases slot with
  | none => exact kept
  | some k => exact kept.trans (foldl (fun _ _ => loadReg _ _ _) _ _)

theorem loadHubImages (slot : Option Nat) : Loads s (loadHubImages s slot) := ⟨rfl, rfl, rfl, rfl, rfl⟩

theorem loadDispatch (slot : Option Nat) : Loads s (loadDispatch s slot) := by
  unfold Machine.loadDispatch loadStore
  dsimp only
  refine trans ((tiles _).trans (setReg (s := s.setEng _ _) _ _)) (ite (fun _ => tiles _) fun _ => refl _)

theorem versions (slot : Option Nat) : Loads s (match slot with
    | some k => (s.setReg (aMgt 4) (w32 (imgVersion s k))).setReg (aMgt 8) (w32 (imgCrc s k))
    | none => (s.setReg (aMgt 4) 0).setReg (aMgt 8) 0) := by
  cases slot <;> exact (setReg _ _).trans (setReg _ _)

theorem loadConfig (inDom : Nat → Bool) : Loads s (loadConfig s inDom) := by
  unfold Machine.loadConfig
  refine trans ?_ (ite (fun _ => notices (owlHub_notices _ _ _ _ _ _)) fun _ => refl _)
  refine trans (trans (trans ?_ (loadHubRegs _ _)) (loadHubImages _)) (loadDispatch _)
  refine trans (trans (trans (trans ?_ (versions _)) (setReg _ _)) (setReg _ _)) (setReg _ _)
  exact (setReg _ _).trans (setReg _ _)

/-! ### The namespace table and the other tables of the flash -/

theorem loadNs : Loads s (loadNs s) := by
  unfold Machine.loadNs countNs
  exact ((regs _).trans (foldl (fun _ _ => setReg _ _) _ _)).trans (setReg _ _)

theorem hubLevels : Loads s (hubLevels s) := by
  unfold Machine.hubLevels mempLevels persistLevel alarmLevel portLevel
  refine trans (trans (trans ?_ (notices (irqLevel_notices _ _ _ _))) ((notices (irqLevel_notices _ _ _ _)).trans
    (notices (irqLevel_notices _ _ _ _)))) (foldl (fun _ _ => notices (irqLevel_notices _ _ _ _)) _ _)
  exact (setReg _ _).trans (notices (irqLevel_notices _ _ _ _))

theorem owlHub (code index st cause d0 d1 : Nat) : Loads s (owlHub s code index st cause d0 d1) :=
  notices (owlHub_notices _ _ _ _ _ _)

/-- A region of the flash cannot be read. -/
def regionLost (s : State) (n : Nat) : Bool := !(flashUsable s) || s.flash.bad.contains n

theorem bootTables : Loads s (bootTables s) := by
  have retired : Loads s (if s.power.kind ≠ 0 then s else if regionLost s 1 then Machine.owlHub s 0x7003 0 0 1 0 0
      else s.flash.retire.foldl (fun s e => s.setReg e.1 e.2) s) :=
    ite (fun _ => refl s) fun _ => ite (fun _ => owlHub _ _ _ _ _ _) fun _ => foldl (fun _ _ => setReg _ _) _ _
  refine trans ?_ (ite (fun _ => refl _) fun _ => ite (fun _ => ?_) fun _ => ?_)
  · refine trans (trans retired ?_) (ite (fun _ => owlHub _ _ _ _ _ _) fun _ => refl _)
    exact ite (fun _ => (flash _).trans loadNs) fun _ => loadNs
  · exact ((foldl (fun _ _ => keys _) _ _).trans (setReg _ _)).trans (owlHub _ _ _ _ _ _)
  · exact foldl (fun _ _ => keys _) _ _

theorem noteReset (kind t : Nat) : Loads s (noteReset s kind t) := (setReg _ _).trans (setReg _ _)

theorem setLinkState (t n : Nat) : Loads s (setLinkState s t n) := by
  rw [setLinkState_frame.1]
  exact ⟨rfl, rfl, rfl, rfl, rfl⟩

theorem modLink (t e : Nat) (f : LinkEnd → LinkEnd) : Loads s (s.modLink t e f) := tiles _

end

end Loads

end Sys2Proof.Machine
end

section
/-! SUPPORT. O56: the hub's soft reset (R501, R503). -/

namespace Sys2Proof.Machine

section
variable {s : State}

/-- The hub's own side is as after a reset, and RSTLAST tells which. -/
structure HubReset (u : State) : Prop where
  cmds : u.nq.cmds = []
  waiting : u.mgmt.waiting = []
  long : u.mgmt.long = none
  last : u.fld (aPwr 0x1C) 3 0 = 3

/-- A state whose hub side is empty, with what is loaded after it and the note of the reset. -/
theorem hubReset_loaded {x : State} (cmds : x.nq.cmds = []) (waiting : x.mgmt.waiting = []) (long : x.mgmt.long = none)
    (inDom : Nat → Bool) (links : List Nat) : HubReset (noteReset (owlHub (links.foldl
      (fun s t => ((setLinkState s t 1).modLink t 0 freshFlits).modLink t 1 freshFlits)
      (hubLevels (loadNs (loadConfig x inDom)))) 0x1001 0 0 3 0 0) 3 0) := by
  have loaded : Loads x (hubLevels (loadNs (loadConfig x inDom))) := ((Loads.loadConfig inDom).trans .loadNs).trans .hubLevels
  have linked (v : State) : Loads v (links.foldl
      (fun s t => ((setLinkState s t 1).modLink t 0 freshFlits).modLink t 1 freshFlits) v) :=
    .foldl (fun _ t => (Loads.setLinkState t 1).trans ((Loads.modLink t 0 _).trans (Loads.modLink t 1 _))) _ _
  have noted := ((loaded.trans (linked _)).trans (.owlHub 0x1001 0 0 3 0 0)).trans (.noteReset 3 0)
  exact ⟨noted.cmds.trans cmds, noted.waiting.trans waiting, noted.long.trans long, noteReset_last (by decide) 0⟩

theorem hubSoftReset_left : HubReset (hubSoftReset s) := by
  unfold hubSoftReset
  refine hubReset_loaded ?_ ?_ ?_ _ _ <;> rfl

theorem softReset_rows {x : Instr} (row : x = Instr.hubSoftReset ∧ 6 ≤ s.power.boot ∧ s.power.deep ≠ .ps4 ∨
    x = .resetStart ∧ ∃ t, s.mgmt.rst = some (1, t)) : ∃ u, exec x s = .next u ∧ HubReset u := by
  rcases row with ⟨rfl, booted, awake⟩ | ⟨rfl, t, asked⟩
  · refine ⟨hubSoftReset s, congrArg Host.Outcome.next (if_neg ?_), hubSoftReset_left⟩
    rintro (early | deep)
    · omega
    · exact awake deep
  · refine ⟨hubSoftReset { s with mgmt := { s.mgmt with rst := none } }, congrArg Host.Outcome.next ?_, hubSoftReset_left⟩
    simp only [beginReset, asked, if_true]

end

end Sys2Proof.Machine
end

section
/-! SUPPORT. O56: the work of a tile writes no register of the hub but those of notices, and not the tile's FMTSTAT
(R42, R69). -/

namespace Sys2Proof.Machine

/-- A register of tile `t` other than FMTSTAT, or one that lies above. -/
def inTile (t a : Nat) : Prop := tileBase t ≤ a ∧ a ≠ aTile t 0x108

/-- A register of the hub that no notice changes, or FMTSTAT of tile `t`. -/
def apartReg (t a : Nat) : Prop := noticeReg a = false ∧ (a < tileBase 0 ∨ a = aTile t 0x108)

/-- Work of tile `t` alone: the hub's registers and FMTSTAT are as before. A retirement is such work, though it changes
the retirement set that `TileWork` keeps. -/
structure Confined (t : Nat) (s u : State) : Prop where
  only : tilesOnly s u
  regs : ∀ a, apartReg t a → u.reg a = s.reg a

section
variable {t a o : Nat}

theorem inTile_aTile (other : o ≠ 0x108) : inTile t (aTile t o) := by
  unfold inTile aTile
  omega

theorem inTile_far (far : tileBase t + 0x108 < a) : inTile t a := by
  unfold inTile aTile
  omega

theorem inTile_aLane (l : Nat) : inTile t (aLane t l o) := inTile_far (by unfold aLane; omega)

theorem inTile_aDet : inTile t (aDet t o) := inTile_far (by unfold aDet; omega)

theorem inTile_aWrt : inTile t (aWrt t o) := inTile_far (by unfold aWrt; omega)

theorem inTile_aWrtC (c : Nat) : inTile t (aWrtC t c o) := inTile_far (by unfold aWrtC; omega)

theorem inTile_aCtl (c : Nat) : inTile t (aCtl t c o) := inTile_far (by unfold aCtl; omega)

theorem inTile_apart (inside : inTile t a) : ¬ apartReg t a := by
  rintro ⟨-, hub | format⟩
  · have := inside.1
    unfold tileBase at *
    omega
  · exact inside.2 format

theorem inTile_retireBit (kind c h r : Nat) : inTile t (retireBit t kind c h r).1 := by
  unfold retireBit
  split_ifs <;> exact inTile_aTile (by omega)

theorem apartReg_format (tile : t < 8) : apartReg t (aTile t 0x108) := by
  refine ⟨?_, .inr rfl⟩
  simp only [noticeReg, irqSpace, Bool.or_eq_false_iff, decide_eq_false_iff_not]
  unfold aTile tileBase aOwl
  omega

theorem apartReg_hub (low : a < 0x20000) : apartReg t a := by
  refine ⟨?_, .inl (by unfold tileBase; omega)⟩
  simp only [noticeReg, irqSpace, Bool.or_eq_false_iff, decide_eq_false_iff_not]
  unfold aOwl
  omega

end

namespace Confined

section
variable {t a : Nat} {s u v : State}

theorem refl (s : State) : Confined t s s := ⟨.refl, fun _ _ => rfl⟩

theorem trans (first : Confined t s u) (second : Confined t u v) : Confined t s v :=
  ⟨first.only.trans second.only, fun a apart => (second.regs a apart).trans (first.regs a apart)⟩

theorem ite {p : Prop} [Decidable p] (yes : p → Confined t s u) (no : ¬p → Confined t s v) :
    Confined t s (if p then u else v) := by
  split
  · exact yes ‹_›
  · exact no ‹_›

theorem foldl {α : Type} {f : State → α → State} (step : ∀ s a, Confined t s (f s a)) (l : List α) (s : State) :
    Confined t s (l.foldl f s) := foldl_related refl trans step l s

theorem tiles (x : TileSide) : Confined t s { s with tl := x } := ⟨⟨rfl, List.suffix_refl _⟩, fun _ _ => rfl⟩

theorem modDet (t' : Nat) (f : DetX → DetX) : Confined t s (s.modDet t' f) := tiles _
theorem modHead (i : Nat) (f : HeadX → HeadX) : Confined t s (s.modHead i f) := tiles _
theorem modHeadW (i : Nat) (f : HeadW → HeadW) : Confined t s (s.modHeadW i f) := tiles _
theorem modHeadS (i : Nat) (f : HeadS → HeadS) : Confined t s (s.modHeadS i f) := tiles _
theorem modLane (t' l : Nat) (f : LaneX → LaneX) : Confined t s (s.modLane t' l f) := tiles _
theorem modWr (t' : Nat) (f : WriteX → WriteX) : Confined t s (s.modWr t' f) := tiles _
theorem modArm (t' c : Nat) (f : Arm → Arm) : Confined t s (s.modArm t' c f) := tiles _
theorem modCtl (t' c : Nat) (f : Ctl → Ctl) : Confined t s (s.modCtl t' c f) := tiles _
theorem modEng (e : Nat) (f : Engine → Engine) : Confined t s (s.modEng e f) := tiles _
theorem setCtx (t' i : Nat) (x : Ctx) : Confined t s (s.setCtx t' i x) := tiles _
theorem setHead (i : Nat) (x : HeadX) : Confined t s (s.setHead i x) := tiles _
theorem setHeadW (i : Nat) (x : HeadW) : Confined t s (s.setHeadW i x) := tiles _
theorem noteCause (w cause : Nat) : Confined t s (noteCause s w cause) := tiles _
theorem takeWrites (c h : Nat) (p : WrEnt → Bool) : Confined t s (takeWrites s t c h p).1 := tiles _

theorem setReg (w : Word) (inside : inTile t a) : Confined t s (s.setReg a w) :=
  ⟨⟨rfl, List.suffix_refl _⟩, fun _ apart => s.setReg_reg_ne w fun same => inTile_apart inside (same ▸ apart)⟩

theorem setF (hi lo n : Nat) (inside : inTile t a) : Confined t s (s.setF a hi lo n) := setReg _ inside

theorem bump (n : Nat) (inside : inTile t a) : Confined t s (s.bump a n) := setReg _ inside

theorem emit (o : Out) : Confined t s (s.emit o) := ⟨⟨rfl, List.suffix_cons _ _⟩, fun _ _ => rfl⟩

theorem notices (only : onlyNotices s u) : Confined t s u := by
  obtain ⟨frame, out, regs⟩ := only
  exact ⟨⟨by rw [frame], out⟩, fun a apart => regs a List.not_mem_nil apart.1⟩

theorem tileEdge (t' i : Nat) : Confined t s (tileEdge s t' i) := notices (tileEdge_notices t' i)

theorem tileNotice (t' : Nat) (w : Word) : Confined t s (tileNotice s t' w) :=
  (modDet t' _).trans (notices (irqEdge_notices _ _))

/-! ### Pins, contexts and drops (R122, R173, R186) -/

theorem setPin (l b : Nat) (on : Bool) : Confined t s (setPin s t l b on) :=
  ite (fun _ => setReg _ (inTile_aLane l)) fun _ => setReg _ (inTile_aLane l)

theorem endOp (q : HistReq) (st : DecSt) : Confined t s (endOp s t q st) := by
  unfold Machine.endOp pushRes opDone
  exact (modDet t _).trans (modDet t _)

theorem abortOps (i id : Nat) : Confined t s (abortOps s t i id) := by
  unfold Machine.abortOps
  exact (foldl (fun _ _ => endOp _ _) _ _).trans (modDet t _)

theorem setLaneSt (l n : Nat) : Confined t s (setLaneSt s t l n) := setReg _ (inTile_aLane l)

theorem sleepIfAsked (l : Nat) : Confined t s (sleepIfAsked s t l) := by
  unfold Machine.sleepIfAsked
  refine ite (fun _ => ?_) fun _ => refl s
  refine trans ?_ (ite (fun _ => setReg _ (inTile_aLane l)) fun _ => refl _)
  exact ((setLaneSt l 1).trans (modLane t l _)).trans (modHead _ _)

theorem endPin (c h : Nat) : Confined t s (endPin s t c h) := by
  unfold Machine.endPin
  refine trans ?_ ((trans (modHead _ _) ((setPin _ _ _).trans (setPin _ _ _))).trans ((sleepIfAsked _).trans (sleepIfAsked _)))
  split
  · exact abortOps _ _
  · exact refl s

theorem releaseCap (c h id : Nat) : Confined t s (releaseCap s t c h id) := by
  unfold Machine.releaseCap
  split
  · exact ite (fun _ => endPin c h) fun _ => refl s
  · exact refl s

theorem endThreadOf (i : Nat) : Confined t s (endThreadOf s t i) := by
  unfold Machine.endThreadOf
  exact modEng _ _

theorem countCtxs : Confined t s (countCtxs s t) :=
  (setReg _ (inTile_aTile (by decide))).trans (setReg _ (inTile_aTile (by decide)))

theorem endCtx (i : Nat) : Confined t s (endCtx s t i) := by
  unfold Machine.endCtx
  refine ite (fun _ => refl s) fun _ => ?_
  refine trans ?_ (trans (trans (modHead _ _) (modDet t _)) (trans (trans (setCtx t i _) (endThreadOf i)) countCtxs))
  have freed (v : State) (j : Nat) : Confined t v ((v.modDet t fun d =>
      { d with soft := Tab.to SoftSlot.free d.soft j SoftSlot.free }).setB (aDet t 0x10) j false) :=
    (modDet t _).trans (setReg _ inTile_aDet)
  generalize (s.ctx t i).capid = cap at *
  generalize (s.ctx t i).slot = slot
  cases cap <;> cases slot
  · exact refl s
  · exact freed s _
  · exact releaseCap _ _ _
  · exact (releaseCap _ _ _).trans (freed _ _)

theorem fillOut : Confined t s (fillOut s t) := (modDet t _).trans (setReg _ (inTile_aTile (by decide)))

theorem sendDrop (w : Want) (x : Cause) : Confined t s (sendDrop s t w x) := by
  refine trans (bump (a := aTile t (0x1080 + 4 * x.code)) 1 (inTile_aTile (by omega))) ?_
  exact ite (fun _ => (modDet t _).trans fillOut) fun _ => ite (fun _ => modHeadW _ _) fun _ => refl _

theorem dropCtx (i : Nat) (x : Cause) : Confined t s (dropCtx s t i x) :=
  ite (fun _ => ((sendDrop _ x).trans (endCtx i)).trans (tileNotice t _)) fun _ => refl s

/-! ### Writes (R145, R157) -/

theorem endWrite (e : WrEnt) (st : WrSt) : Confined t s (endWrite s t e st) := by
  unfold Machine.endWrite
  refine trans ?_ (modWr t _)
  cases st with
  | written =>
    refine trans (bump (a := aWrt t 0x10) 1 inTile_aWrt) ?_
    cases e.kind with
    | partner => exact setReg _ inTile_aWrt
    | marker => exact (setReg _ inTile_aWrt).trans (notices (owlHead_notices _ _ _ _ _ _ _))
    | host => exact refl _
    | calib => exact refl _
    | system => exact refl _
  | wfail => exact (setReg _ inTile_aWrt).trans (tileEdge t _)
  | skipped => exact setReg _ inTile_aWrt
  | retired => exact refl s

theorem setGate (c h : Nat) (on : Bool) : Confined t s (setGate s t c h on) :=
  ite (fun _ => refl s) fun _ => ((setHeadW _ _).trans (setReg _ (inTile_aWrtC c))).trans (emit _)

theorem endHeadWrites (c h : Nat) (st : WrSt) : Confined t s (endHeadWrites s t c h st) :=
  trans (trans (setGate c h false) (takeWrites c h _)) (foldl (fun _ e => endWrite e st) _ _)

/-! ### Modes and parking (R234, R240) -/

theorem setMode (c m : Nat) : Confined t s (setMode s t c m) := by
  refine ite (fun _ => refl s) fun _ => ?_
  refine trans (trans (setF (a := aCtl t c 4) 3 0 m (inTile_aCtl c)) ?_) (tileEdge t _)
  exact ite (fun _ => refl _) fun _ => foldl (fun _ _ => setReg _ (inTile_aCtl c)) _ _

theorem sendMode (c : Nat) (active : Bool) (mask : Nat) : Confined t s (sendMode s t c active mask) := by
  unfold Machine.sendMode sendCtl
  exact (modArm t c _).trans (modArm t c _)

theorem setPoint (c h : Nat) (code : Int) : Confined t s (setPoint s t c h code) :=
  (modArm t c _).trans (setReg _ (inTile_aCtl c))

theorem startPark (c : Nat) : Confined t s (startPark s t c) := by
  refine ite (fun _ => refl s) fun _ => ?_
  have ready : Confined t s (if armState s t c = 2 then Machine.sendMode (sendHeat s t c 31 0) t c true 0 else s) :=
    ite (fun _ => (modArm t c _).trans (sendMode c _ _)) fun _ => refl s
  exact trans (trans (trans ready (foldl (fun _ h => setPoint c h 0) _ _)) (setMode c 6)) (modCtl t c _)

/-! ### Units that stop and are retired (R194, R195) -/

theorem dropHead (c h : Nat) : Confined t s (dropHead s t c h) :=
  trans (trans (setHead _ _) (foldl (fun _ w => sendDrop w .retired) _ _))
    (foldl (fun s _ => ite (fun _ => dropCtx _ .retired) fun _ => refl s) _ _)

theorem stopWriter (c h : Nat) : Confined t s (stopWriter s t c h) :=
  trans (endHeadWrites c h .retired) (ite (fun _ => sendMode c _ _) fun _ => refl _)

theorem stopHead (c h : Nat) : Confined t s (stopHead s t c h) := (dropHead c h).trans (stopWriter c h)

theorem stopCluster (c : Nat) : Confined t s (stopCluster s t c) :=
  trans (trans (foldl (fun _ h => stopHead c h) _ _) (modCtl t c _))
    (ite (fun _ => setMode c 7) fun _ => ite (fun _ => refl _) fun _ => startPark c)

theorem stopUnit (kind c h r : Nat) : Confined t s (stopUnit s t kind c h r) :=
  ite (fun _ => ite (fun _ => setLaneSt _ 7) fun _ => refl s) fun _ => ite (fun _ => stopWriter c h) fun _ =>
    ite (fun _ => stopHead c h) fun _ => ite (fun _ => stopCluster c) fun _ => foldl (fun _ c => stopCluster c) _ _

theorem retireOne (kind c h r cause : Nat) : Confined t s (retireOne s t kind c h r cause) := by
  unfold Machine.retireOne
  refine ite (fun _ => refl s) fun _ => ?_
  refine trans (trans (trans ?_ (stopUnit kind c h r)) (tileEdge t 233)) (tileNotice t _)
  exact trans (trans (setReg _ (inTile_retireBit kind c h r)) (noteCause _ _)) (tiles _)

theorem deriveTile : Confined t s (deriveTile s t) := ite (fun _ => retireOne 5 0 0 0 0x0E) fun _ => refl s

theorem deriveCluster (c : Nat) : Confined t s (deriveCluster s t c) :=
  trans (ite (fun _ => retireOne 4 c 0 0 0x0A) fun _ => refl s) deriveTile

theorem deriveHead (c h : Nat) : Confined t s (deriveHead s t c h) :=
  trans (ite (fun _ => retireOne 3 c h 0 0x07) fun _ => refl s) (deriveCluster c)

theorem retire (kind c h r cause : Nat) : Confined t s (retire s t kind c h r cause) :=
  trans (retireOne kind c h r cause) (ite (fun _ => deriveHead c h) fun _ => ite (fun _ => deriveCluster c) fun _ =>
    ite (fun _ => deriveTile) fun _ => refl _)

/-! ### Bursts that are cut, and seeks (R152, R157, R236, R237) -/

theorem finishWrite (e : WrEnt) (st : WrSt) : Confined t s (finishWrite s t e st) :=
  trans (trans (endWrite e st) (modHeadW _ _)) (ite (fun _ => retire 2 _ _ 0 0x05) fun _ => refl _)

theorem cutBurst (c h : Nat) : Confined t s (cutBurst s t c h) := by
  unfold Machine.cutBurst
  dsimp only
  split
  · refine ite (fun _ => refl s) fun _ => trans (setGate c h false) (ite (fun _ => ?_) fun _ => ite (fun _ => ?_) fun _ => ?_)
    · exact trans (modHeadW _ _) (finishWrite _ _)
    · exact trans (modHeadW _ _) (setReg _ inTile_aWrt)
    · exact trans (modHeadW _ _) (finishWrite _ _)
  · exact setGate c h false

theorem unsafeEval (c : Nat) (pilot : Bool) : Confined t s (unsafeEval s t c pilot) := by
  refine trans (setReg (a := aCtl t c 4) _ (inTile_aCtl c)) (ite (fun _ => ?_) fun _ => ite (fun _ => ?_) fun _ => refl _)
  · exact trans (trans (setReg _ (inTile_aCtl c)) (modCtl t c _)) (foldl (fun _ h => cutBurst c h) _ _)
  · exact trans (modCtl t c _) (ite (fun _ => setReg _ (inTile_aCtl c)) fun _ => refl _)

theorem goMode (c m : Nat) : Confined t s (goMode s t c m) := (setMode c m).trans (unsafeEval c false)

theorem setRef (c h : Nat) (track off : Int) : Confined t s (setRef s t c h track off) := by
  unfold Machine.setRef
  exact trans (trans (setReg _ (inTile_aCtl c)) (setReg _ (inTile_aCtl c))) (modHeadS _ _)

theorem setZoneOf (c z : Nat) : Confined t s (setZoneOf s t c z) :=
  foldl (fun _ _ => trans (setF _ _ _ (inTile_aLane _)) (ite (fun _ => setReg _ (inTile_aLane _)) fun _ => refl _)) _ _

theorem aimAll (c : Nat) (track : Int) : Confined t s (aimAll s t c track) :=
  foldl (fun _ _ => trans (modHeadS _ _) (ite (fun _ => refl _) fun _ => setRef c _ track 0)) _ _

theorem startSeek (c : Nat) (track : Int) : Confined t s (startSeek s t c track) := by
  refine trans (trans (setZoneOf c _) (aimAll c track)) (ite (fun _ => ?_) fun _ => refl _)
  exact trans (trans (bump 1 (inTile_aCtl c)) (modCtl t c _)) (goMode c 3)

theorem trainMove (c : Nat) : Confined t s (trainMove s t c) := by
  unfold Machine.trainMove
  dsimp only
  split
  · exact ite (fun _ => startSeek c _) fun _ => refl s
  · exact refl s

end

end Confined

end Sys2Proof.Machine
end

section
/-! SUPPORT. O56: ports that follow the power of their domain end what ran on them, and leave boot, the executor and
the power of the domains (R302, R319, R337, R372). -/

namespace Sys2Proof.Machine

/-- The boot step, the executor's operation, the waiting accesses and the domains' power are as before. -/
structure HubWork (s u : State) : Prop where
  boot : u.power.boot = s.power.boot
  long : u.mgmt.long = s.mgmt.long
  accs : u.mgmt.accs = s.mgmt.accs
  domains : u.reg (aPwr 0xC) = s.reg (aPwr 0xC)

namespace HubWork

section
variable {s u v : State} {a : Nat}

theorem refl (s : State) : HubWork s s := ⟨rfl, rfl, rfl, rfl⟩

theorem trans (first : HubWork s u) (second : HubWork u v) : HubWork s v :=
  ⟨second.boot.trans first.boot, second.long.trans first.long, second.accs.trans first.accs,
    second.domains.trans first.domains⟩

theorem ite {p : Prop} [Decidable p] (yes : p → HubWork s u) (no : ¬p → HubWork s v) :
    HubWork s (if p then u else v) := by
  split
  · exact yes ‹_›
  · exact no ‹_›

theorem foldl {α : Type} {f : State → α → State} (step : ∀ s a, HubWork s (f s a)) (l : List α) (s : State) :
    HubWork s (l.foldl f s) := foldl_related refl trans step l s

theorem queues (x : Nq) : HubWork s { s with nq := x } := ⟨rfl, rfl, rfl, rfl⟩

theorem buffer (x : Buf) : HubWork s { s with buf := x } := ⟨rfl, rfl, rfl, rfl⟩

theorem emit (o : Out) : HubWork s (s.emit o) := ⟨rfl, rfl, rfl, rfl⟩

theorem setReg (w : Word) (other : aPwr 0xC ≠ a) : HubWork s (s.setReg a w) :=
  ⟨rfl, rfl, rfl, State.setReg_reg_ne s w other⟩

theorem bump (n : Nat) (other : aPwr 0xC ≠ a) : HubWork s (s.bump a n) := setReg _ other

theorem setAssoc (i : Nat) (x : Assoc) : HubWork s (s.setAssoc i x) := queues _

theorem setQp (n : Nat) (x : Qp) : HubWork s (s.setQp n x) := queues _

theorem setCmd (i : Nat) (x : Cmd) : HubWork s (s.setCmd i x) := queues _

theorem ending (ends : Ending s u) : HubWork s u := by
  refine ⟨by rw [ends.frame], by rw [ends.frame], by rw [ends.frame], ends.regs _ ?_⟩
  rw [List.mem_singleton]
  decide

theorem confined {t : Nat} (work : Confined t s u) : HubWork s u := by
  obtain ⟨frame, -⟩ := work.only
  exact ⟨by rw [frame], by rw [frame], by rw [frame], work.regs _ (apartReg_hub (by decide))⟩

theorem notices (only : onlyNotices s u) : HubWork s u := confined (t := 0) (.notices only)

/-! ### The buffer and the commands (R186, R370, R372, R387) -/

theorem setLineIn (p : Place) (x : Line) : HubWork s (setLineIn s p x) := by
  cases p <;> exact buffer _

theorem setUnitIn (p : Place) (lba : Nat) (x : Unit4) : HubWork s (setUnitIn s p lba x) := setLineIn _ _

theorem dropLine (k : Nat) : HubWork s (dropLine s k) := by
  unfold Machine.dropLine
  dsimp only
  split
  · exact (bump _ (by decide)).trans (buffer _)
  · exact buffer _

theorem leaveIfEmpty (k : Nat) : HubWork s (leaveIfEmpty s k) := ite (fun _ => dropLine k) fun _ => refl s

theorem dropBlk (i b : Nat) (x : Cause) : HubWork s (dropBlk s i b x) := ite (fun _ => setCmd _ _) fun _ => refl s

theorem freePage (i b : Nat) : HubWork s (freePage s i b) := buffer _

theorem blkReady (i b : Nat) (data : Payload) : HubWork s (blkReady s i b data) :=
  ite (fun _ => setCmd _ _) fun _ =>
    trans ((setCmd _ _).trans (freePage _ _)) (ite (fun _ => ending (.completeCmd _)) fun _ => refl _)

theorem hubDrop (i b : Nat) (x : Cause) : HubWork s (hubDrop s i b x) :=
  trans (bump (a := aNq 0x38) 1 (by decide)) (ite (fun _ => dropBlk _ _ _) fun _ => blkReady _ _ _)

theorem autoWake (t : Nat) : HubWork s (autoWake s t) := ite (fun _ => ⟨rfl, rfl, rfl, rfl⟩) fun _ => refl s

theorem holdRequest (r : MediaReq) : HubWork s (holdRequest s r) := (buffer _).trans (autoWake _)

theorem askMedia (i b : Nat) : HubWork s (askMedia s i b) :=
  ite (fun _ => hubDrop _ _ _) fun _ => ((setCmd _ _).trans (bump 1 (by decide))).trans (holdRequest _)

theorem missLine (i b key : Nat) : HubWork s (missLine s i b key) :=
  ite (fun _ => askMedia _ _) fun _ => (setUnitIn _ _ _).trans (askMedia _ _)

theorem invCheck : HubWork s (invCheck s) := by
  unfold Machine.invCheck
  refine ite (fun _ => refl s) fun _ => ?_
  refine trans (foldl (fun s k => ite (fun _ => dropLine _) fun _ => refl _) _ _) (ite (fun _ => refl _) fun _ => ?_)
  exact (setReg _ (by decide)).trans (notices (irqEdge_notices _ _))

/-- The end of a fill without data. -/
theorem fillEnds (key lba : Nat) (req : MediaReq) : HubWork s (fillEnds s key lba req .ended) := by
  unfold Machine.fillEnds
  refine trans ?_ invCheck
  refine trans (trans (setUnitIn _ _ _) (foldl (fun s j => ?_) _ _)) (ite (fun _ => refl _) fun _ => leaveIfEmpty _)
  exact ite (fun _ => ite (fun _ => refl _) fun _ => missLine _ _ _) fun _ => refl _

theorem endMedia (i : Nat) : HubWork s (endMedia s i) := by
  unfold Machine.endMedia
  refine trans (foldl (fun s t => ?_) _ _) (foldl (fun s b => ?_) _ _)
  · exact (buffer _).trans (foldl (fun s e => ite (fun _ => confined (.endCtx e.1)) fun _ => refl s) _ _)
  · dsimp only
    split
    · exact fillEnds _ _ _
    · exact refl _

theorem restoreUnits (i : Nat) : HubWork s (restoreUnits s i) := by
  refine foldl (fun s b => ?_) _ _
  split
  · exact refl s
  · refine foldl (fun s p => ?_) _ _
    dsimp only
    split
    · exact (setUnitIn _ _ _).trans (leaveIfEmpty _)
    · exact setUnitIn _ _ _

/-! ### Resets of queues and the ends of pairs and associations (R319, R337, R338) -/

theorem removeCmd (i : Nat) : HubWork s (removeCmd s i) := ending .removeCmd

theorem boundaryCmd (i : Nat) : HubWork s (boundaryCmd s i) := by
  have ended (v : State) : HubWork v (Machine.removeCmd (v.bump (aNq 0x30)) i) := (bump 1 (by decide)).trans (removeCmd i)
  have silent (v : State) : HubWork v (Machine.removeCmd (v.bump (aNq 0x2C)) i) := (bump 1 (by decide)).trans (removeCmd i)
  unfold Machine.boundaryCmd
  dsimp only
  cases (s.cmd i).cls with
  | rd => exact (endMedia i).trans (ended _)
  | wr => exact ite (fun _ => silent _) fun _ => (restoreUnits i).trans (ended _)
  | iv => exact ite (fun _ => silent _) fun _ => (buffer _).trans (ended _)
  | fl => exact ended _
  | nd => exact ite (fun _ => setCmd _ _) fun _ => ended _
  | none => exact ite (fun _ => setCmd _ _) fun _ => ended _

theorem boundary (n : Nat) : HubWork s (boundary s n) :=
  trans (trans (setQp n _) (bump _ (by decide))) (foldl (fun _ _ => boundaryCmd _) _ _)

theorem startReset (n : Nat) (js : List Joiner) (ending : Bool) : HubWork s (startReset s n js ending) :=
  trans (bump (a := aNq 0x28) 1 (by decide)) (ite (fun _ => setQp _ _) fun _ => (setQp _ _).trans (boundary n))

theorem endPair (n : Nat) (dreq : Bool) : HubWork s (endPair s n dreq) :=
  ite (fun _ => refl s) fun _ =>
    trans (trans (ite (fun _ => emit _) fun _ => refl s) (startReset n _ true)) (setQp n _)

theorem assocDone (c : Nat) : HubWork s (assocDone s c) := ite (fun _ => setAssoc _ _) fun _ => refl s

theorem endAssoc (c row : Nat) (dreq : Bool) : HubWork s (endAssoc s c row dreq) := by
  unfold Machine.endAssoc
  refine ite (fun _ => refl s) fun _ => trans ?_ (assocDone c)
  have begun (v : State) (x : Tab Payload) : HubWork v { v with mgmt := { v.mgmt with kept := x } } := ⟨rfl, rfl, rfl, rfl⟩
  have queues : HubWork s ((s.assoc c).sqs.foldl (fun s e => Machine.endPair s e.2 dreq) (owlHub { s.setAssoc c
      { s.assoc c with ending := true, aers := [], events := [] } with
        mgmt := { s.mgmt with kept := Tab.to [] s.mgmt.kept c [] } } 0x8001 c 0 row (s.assoc c).port (s.assoc c).sub)) := by
    refine trans ?_ (foldl (fun _ _ => endPair _ _) _ _)
    refine trans ?_ (notices (owlHub_notices _ _ _ _ _ _))
    exact (setAssoc c _).trans (begun _ _)
  dsimp only
  split
  · exact queues.trans (endPair _ _)
  · exact queues

theorem pairGone (n admin : Nat) (dreq : Bool) : HubWork s (pairGone s n admin dreq) :=
  ite (fun _ => endPair _ _) fun _ => ite (fun _ => setQp _ _) fun _ => ite (fun _ => endAssoc _ _ _) fun _ => endPair _ _

/-! ### Sub-ports (R301, R302, R323) -/

theorem setSubLink (p k n : Nat) : HubWork s (setSubLink s p k n) := setReg _ (by unfold aPwr aHpt; omega)

theorem discoveryEvent : HubWork s (discoveryEvent s) :=
  foldl (fun _ _ => ite (fun _ => ending (ending_postEvent _ _ _)) fun _ => refl _) _ _

theorem subLost (p k st : Nat) : HubWork s (subLost s p k st) := by
  unfold Machine.subLost
  have down (v : State) (i : Nat) (x : SubPort) : HubWork v (v.setSub i x) := ⟨rfl, rfl, rfl, rfl⟩
  refine trans (trans (trans ((setSubLink p k st).trans (down _ _ _)) (notices (irqLevel_notices _ _ _ _))) discoveryEvent)
    (ite (fun _ => ?_) fun _ => refl _)
  exact foldl (fun _ _ => pairGone _ _ _) _ _

theorem portsFollow : HubWork s (portsFollow s) :=
  foldl (fun _ _ => foldl (fun _ _ => ite (fun _ => ite (fun _ => setSubLink _ _ _) fun _ => refl _) fun _ =>
    ite (fun _ => refl _) fun _ => ite (fun _ => subLost _ _ _) fun _ => setSubLink _ _ _) _ _) _ _

end

end HubWork

end Sys2Proof.Machine
end

section
/-! SUPPORT. O56: the steps of boot (R504, R508). -/

namespace Sys2Proof.Machine

section
variable {s u w : State} {b t g : Nat}

/-! ### The end of a step -/

/-- A step of boot is over: no operation and no access waits, and the device stands at step `b`. -/
structure Stepped (w : State) (b : Nat) : Prop where
  boot : w.power.boot = b
  long : w.mgmt.long = none
  accs : w.mgmt.accs = []

theorem Stepped.settled (step : Stepped w b) : settle w = upkeep w := settle_idle step.long step.accs

theorem Stepped.settled_boot (step : Stepped w b) (early : b ≠ 9) : (settle w).power.boot = b := by
  rw [step.settled, upkeep_boot (by rw [step.boot]; exact early), step.boot]

theorem settled_reg (long : w.mgmt.long = none) (accs : w.mgmt.accs = []) {a : Nat} (other : a ≠ aPwr 0) :
    (settle w).reg a = w.reg a := by
  rw [settle_idle long accs]
  exact upkeep_upkept.regs a other

theorem domOn_congr (same : u.reg (aPwr 0xC) = s.reg (aPwr 0xC)) (d : Nat) : u.domOn d = s.domOn d :=
  congrArg (BitVec.getLsbD · d) same

theorem Stepped.settled_domOn (step : Stepped w b) (d : Nat) : (settle w).domOn d = w.domOn d :=
  domOn_congr (settled_reg step.long step.accs (by decide)) d

theorem domOn_setDom (small : t < 32) (on : Bool) : (setDom s t on).domOn t = on := by
  rw [State.domOn, State.bit, setDom, State.setB_eq, State.setReg_reg]
  exact setBit_getLsbD_self _ _ small

/-! ### The targets of the tiles (R497) -/

/-- The tiles of a list take a target. -/
def targetsSet (s : State) (g : Nat) (ts : List Nat) : State := ts.foldl (fun s t => s.setF (aPwr 0x40) (4 * t + 3) (4 * t) g) s

theorem tileTarget_set_ne (other : t ≠ b) (low : t < 8) :
    tileTarget (s.setF (aPwr 0x40) (4 * b + 3) (4 * b) g) t = tileTarget s t := by
  rw [tileTarget, State.fld, State.setF_eq, State.setReg_reg, fld_setFld_ne _ _ (by omega) (by omega)]
  rfl

theorem tileTarget_targetsSet (nibble : g < 16) (ts : List Nat) (low : t < 8) (mine : t ∈ ts ∨ tileTarget s t = g) :
    tileTarget (targetsSet s g ts) t = g := by
  induction ts generalizing s with
  | nil => exact mine.resolve_left List.not_mem_nil
  | cons b ts ih =>
    refine ih ?_
    by_cases same : t = b
    · subst same
      right
      rw [tileTarget, State.fld_setF_self _ _ (by omega), show 4 * t + 3 + 1 - 4 * t = 4 by omega]
      exact Nat.mod_eq_of_lt nibble
    · rcases mine with listed | set
      · exact .inl ((List.mem_cons.1 listed).resolve_left same)
      · exact .inr ((tileTarget_set_ne same low).trans set)

theorem targetsSet_frame (ts : List Nat) : regsOnly s (targetsSet s g ts) :=
  foldl_related (R := regsOnly) (fun _ => rfl) .trans (fun _ _ => regsOnly_setReg _ _) ts s

theorem targetsSet_reg {a : Nat} (other : a ≠ aPwr 0x40) (ts : List Nat) : (targetsSet s g ts).reg a = s.reg a :=
  foldl_related (R := fun s u => u.reg a = s.reg a) (fun _ => rfl) (fun first second => second.trans first)
    (fun _ _ => State.setReg_reg_ne _ _ other) ts s

theorem tiles_low (there : t ∈ s.tiles) : t < 8 := by
  have range := List.mem_range.1 there
  cases part : s.part <;> rw [part] at range <;> simp only [Part.tiles] at range <;> omega

end

end Sys2Proof.Machine
end

section
/-! SUPPORT. O56: what each step of boot does (R504, R474, R476, R497). -/

namespace Sys2Proof.Machine

section
variable {s u w : State} {b t : Nat} {ok : Bool}

theorem bootStep_run (test : s.power.testEn = false) : exec (.bootStep ok) s = .next (settle (bootStep s ok)) :=
  congrArg Host.Outcome.next (if_neg (by rw [test]; decide))

/-! ### A step whose condition does not hold -/

theorem bootStep_waits (other : s.power.boot ≠ 3) : bootStep s false = s := by
  unfold bootStep
  dsimp only
  rw [if_neg other]
  rfl

theorem settle_same (long : s.mgmt.long = none) (accs : s.mgmt.accs = []) (early : s.power.boot ≠ 9)
    (none : ∀ t ∈ s.tiles, tileRetired s t = false ∨ bringOf s t = 0 ∧ goalOf s t = Option.none) : settle s = s := by
  rw [settle_idle long accs, upkeep_same early none]

theorem ways_none (bring : s.power.bring = []) (goal : s.power.goal = []) (t : Nat) : bringOf s t = 0 ∧ goalOf s t = none := by
  rw [bringOf, bring, goalOf, goal]
  exact ⟨rfl, rfl⟩

/-! ### Step 3: the flash is probed -/

/-- What the probe of the flash reports (R474). -/
def probeWord (s : State) (ok : Bool) : Word :=
  if ok then place 31 28 1 ||| place 27 24 (1 + s.freeVal.toNat % 3) ||| place 15 0 (64 + s.freeVal.toNat / 4 % 65472)
  else place 31 28 (2 + s.freeVal.toNat % 3)

theorem probeWord_usable : fld (probeWord s ok) 31 28 = 1 ↔ ok = true := by
  unfold probeWord
  cases ok
  · rw [if_neg Bool.false_ne_true, fld_place_self _ (by decide)]
    exact ⟨fun one => absurd one (by omega), nofun⟩
  · rw [if_pos rfl, fld_or, fld_or, fld_place_self _ (by decide), fld_place_ne _ (.inr (by decide)),
      fld_place_ne _ (.inr (by decide))]
    decide

/-- The probe takes a free value and writes registers and the count of power cycles. -/
theorem bootProbe_effect : (bootProbe s ok).power = s.power ∧ (bootProbe s ok).mgmt = s.mgmt ∧
    (bootProbe s ok).free = s.free + 1 ∧ (bootProbe s ok).reg (aMgt 0x28) = probeWord s ok := by
  have probed : (s.took.setReg (aMgt 0x28) (probeWord s ok)).reg (aMgt 0x28) = probeWord s ok := State.setReg_reg ..
  have counted (v : State) (x y : Word) : ((v.setReg (aMgt 0x2C) x).setReg (aMgt 0x30) y).reg (aMgt 0x28) = v.reg (aMgt 0x28) :=
    (State.setReg_reg_ne _ _ (by decide)).trans (State.setReg_reg_ne _ _ (by decide))
  unfold bootProbe
  dsimp only
  rw [show (if ok = true then place 31 28 1 ||| place 27 24 (1 + s.freeVal.toNat % 3) |||
    place 15 0 (64 + s.freeVal.toNat / 4 % 65472) else place 31 28 (2 + s.freeVal.toNat % 3)) = probeWord s ok from rfl]
  generalize probeWord s ok = x at *
  split
  · exact ⟨rfl, rfl, rfl, probed⟩
  · cases ok
    · exact ⟨rfl, rfl, rfl, (counted _ _ _).trans probed⟩
    · exact ⟨rfl, rfl, rfl, (counted _ _ _).trans probed⟩

/-- Step 3 ends with or without a usable flash. -/
theorem bootStep_three (three : s.power.boot = 3) (long : s.mgmt.long = none) (accs : s.mgmt.accs = []) :
    (settle (bootStep s ok)).power.boot = 4 ∧ ((settle (bootStep s ok)).fld (aMgt 0x28) 31 28 = 1 ↔ ok = true) ∧
      (settle (bootStep s ok)).free = s.free + 1 := by
  obtain ⟨-, mgmt, free, reg⟩ := bootProbe_effect (s := s) (ok := ok)
  have run : bootStep s ok = { bootProbe s ok with power := { (bootProbe s ok).power with boot := s.power.boot + 1 } } :=
    if_pos three
  rw [run, three]
  have step : Stepped { bootProbe s ok with power := { (bootProbe s ok).power with boot := 4 } } 4 :=
    ⟨rfl, by rw [mgmt]; exact long, by rw [mgmt]; exact accs⟩
  refine ⟨step.settled_boot (by decide), ?_, ?_⟩
  · rw [State.fld, settled_reg step.long step.accs (by decide)]
    exact (congrArg (fld · 31 28 = 1 ↔ ok = true) reg).mpr probeWord_usable
  · rw [step.settled, upkeep_upheld.frame]
    exact free

/-! ### The other steps -/

/-- The state at the next step of boot. -/
def atStep (w : State) (b : Nat) : State := { w with power := { w.power with boot := b } }

theorem atStep_domOn (d : Nat) : (atStep w b).domOn d = w.domOn d := rfl

/-- The memory is calibrated, and no page is written. -/
def calibrated (w : State) : State := { w with power := { w.power with calibrated := true }, memp := Memp.reset }

theorem calibrated_domOn (d : Nat) : (calibrated w).domOn d = w.domOn d := rfl

theorem calibrated_power : (atStep (calibrated w) b).power.calibrated = true := rfl

theorem stepped_work (work : HubWork s w) (long : s.mgmt.long = none) (accs : s.mgmt.accs = []) : Stepped (atStep w b) b :=
  ⟨rfl, work.long.trans long, work.accs.trans accs⟩

theorem stepped_loads (loads : Loads s w) (long : s.mgmt.long = none) (accs : s.mgmt.accs = []) : Stepped (atStep w b) b :=
  ⟨rfl, loads.long.trans long, loads.accs.trans accs⟩

/-- The pins have risen. -/
def pinsRisen (w : State) : State :=
  { w with
    power := { w.power with boot := 2, porstLow := false, warmLow := false, roseAt := w.now }
    tap := { w.tap with drive := false, float := false } }

theorem bootStep_one (one : s.power.boot = 1) : ∃ w, onlyNotices s w ∧ bootStep s true = pinsRisen w := by
  have recorded : onlyNotices s (if s.power.kind = 0 then owlHub s 0x0002 0 0 0 (s.reg (aMgt 0x24)).toNat (s.reg (aHub 4)).toNat
      else owlHub s 0x1001 0 0 s.power.kind 0 0) := by
    split
    · exact owlHub_notices _ _ _ _ _ _
    · exact owlHub_notices _ _ _ _ _ _
  refine ⟨_, recorded, ?_⟩
  unfold bootStep
  rw [one]
  rfl

theorem bootStep_two (two : s.power.boot = 2) : bootStep s true = atStep (setDom s 1 true) 3 := by
  unfold bootStep
  rw [two]
  rfl

theorem bootStep_four (four : s.power.boot = 4) : bootStep s true = atStep (bootTables s) 5 := by
  unfold bootStep
  rw [four]
  rfl

theorem bootStep_five (five : s.power.boot = 5) :
    bootStep s true = atStep (hubLevels (loadConfig s fun d => decide (d < 4))) 6 := by
  unfold bootStep
  rw [five]
  rfl

theorem bootStep_six (six : s.power.boot = 6) : bootStep s true = atStep (calibrated (setDom s 3 true)) 7 := by
  unfold bootStep
  rw [six]
  rfl

theorem bootStep_seven (seven : s.power.boot = 7) : bootStep s true = atStep (portsFollow (setDom s 2 true)) 8 := by
  unfold bootStep
  rw [seven]
  rfl

theorem bootStep_eight (eight : s.power.boot = 8) : bootStep s true = bootTiles s := by
  unfold bootStep
  rw [eight]
  rfl

/-- With no configuration no tile is brought in. -/
theorem bootTiles_held (held : s.bit (aMgt 0) 14 = true) :
    bootTiles s = atStep (targetsSet s (s.fld (aPwr 4) 27 24) s.tiles) 9 := by
  have still : (atStep (targetsSet s (s.fld (aPwr 4) 27 24) s.tiles) 9).bit (aMgt 0) 14 = true := by
    refine Eq.trans ?_ held
    exact congrArg (BitVec.getLsbD · 14) (targetsSet_reg (by decide) _)
  exact if_pos still

/-! ### What a step of boot leaves -/

/-- What step `b` has done once it is over. -/
structure BootDone (s u : State) (b : Nat) : Prop where
  next : b ≤ 7 → u.power.boot = b + 1
  pins : b = 1 → u.power.porstLow = false ∧ u.power.warmLow = false ∧ u.power.roseAt = s.now
  core : b = 2 → u.domOn 1 = true
  media : b = 6 → u.domOn 3 = true ∧ u.power.calibrated = true
  ports : b = 7 → u.domOn 2 = true
  tiles : b = 8 → s.bit (aMgt 0) 14 = true → (u.power.boot = 9 ∨ u.power.boot = 10) ∧
    ∀ t ∈ s.tiles, tileTarget u t = s.fld (aPwr 4) 27 24

theorem bootDone_one (one : s.power.boot = 1) (long : s.mgmt.long = none) (accs : s.mgmt.accs = []) :
    BootDone s (settle (bootStep s true)) 1 := by
  obtain ⟨w, only, run⟩ := bootStep_one one
  obtain ⟨frame, -, -⟩ := only
  have now : w.now = s.now := by rw [frame]
  have step : Stepped (pinsRisen w) 2 := ⟨rfl, by rw [frame]; exact long, by rw [frame]; exact accs⟩
  rw [run]
  refine ⟨fun _ => step.settled_boot (by decide), fun _ => ?_, nofun, nofun, nofun, nofun⟩
  rw [step.settled, upkeep_upheld.frame]
  exact ⟨rfl, rfl, now⟩

theorem bootDone_two (two : s.power.boot = 2) (long : s.mgmt.long = none) (accs : s.mgmt.accs = []) :
    BootDone s (settle (bootStep s true)) 2 := by
  have step : Stepped (atStep (setDom s 1 true) 3) 3 := ⟨rfl, long, accs⟩
  rw [bootStep_two two]
  refine ⟨fun _ => step.settled_boot (by decide), nofun, fun _ => ?_, nofun, nofun, nofun⟩
  rw [step.settled_domOn, atStep_domOn]
  exact domOn_setDom (by decide) true

theorem bootDone_three (three : s.power.boot = 3) (long : s.mgmt.long = none) (accs : s.mgmt.accs = []) :
    BootDone s (settle (bootStep s true)) 3 :=
  ⟨fun _ => (bootStep_three three long accs).1, nofun, nofun, nofun, nofun, nofun⟩

theorem bootDone_four (four : s.power.boot = 4) (long : s.mgmt.long = none) (accs : s.mgmt.accs = []) :
    BootDone s (settle (bootStep s true)) 4 := by
  have step : Stepped (atStep (bootTables s) 5) 5 := stepped_loads .bootTables long accs
  rw [bootStep_four four]
  exact ⟨fun _ => step.settled_boot (by decide), nofun, nofun, nofun, nofun, nofun⟩

theorem bootDone_five (five : s.power.boot = 5) (long : s.mgmt.long = none) (accs : s.mgmt.accs = []) :
    BootDone s (settle (bootStep s true)) 5 := by
  have step : Stepped (atStep (hubLevels (loadConfig s fun d => decide (d < 4))) 6) 6 :=
    stepped_loads ((Loads.loadConfig _).trans .hubLevels) long accs
  rw [bootStep_five five]
  exact ⟨fun _ => step.settled_boot (by decide), nofun, nofun, nofun, nofun, nofun⟩

theorem bootDone_six (six : s.power.boot = 6) (long : s.mgmt.long = none) (accs : s.mgmt.accs = []) :
    BootDone s (settle (bootStep s true)) 6 := by
  have step : Stepped (atStep (calibrated (setDom s 3 true)) 7) 7 := ⟨rfl, long, accs⟩
  rw [bootStep_six six]
  refine ⟨fun _ => step.settled_boot (by decide), nofun, nofun, fun _ => ⟨?_, ?_⟩, nofun, nofun⟩
  · rw [step.settled_domOn, atStep_domOn, calibrated_domOn]
    exact domOn_setDom (by decide) true
  · rw [step.settled, upkeep_upheld.frame]
    exact calibrated_power (w := setDom s 3 true) (b := 7)

theorem bootDone_seven (seven : s.power.boot = 7) (long : s.mgmt.long = none) (accs : s.mgmt.accs = []) :
    BootDone s (settle (bootStep s true)) 7 := by
  have follow := HubWork.portsFollow (s := setDom s 2 true)
  have step : Stepped (atStep (portsFollow (setDom s 2 true)) 8) 8 := stepped_work follow long accs
  rw [bootStep_seven seven]
  refine ⟨fun _ => step.settled_boot (by decide), nofun, nofun, nofun, fun _ => ?_, nofun⟩
  rw [step.settled_domOn, atStep_domOn]
  exact (domOn_congr follow.domains 2).trans (domOn_setDom (by decide) true)

theorem bootDone_eight (eight : s.power.boot = 8) (long : s.mgmt.long = none) (accs : s.mgmt.accs = []) :
    BootDone s (settle (bootStep s true)) 8 := by
  refine ⟨fun low => absurd low (by decide), nofun, nofun, nofun, nofun, fun _ held => ?_⟩
  have nibble : s.fld (aPwr 4) 27 24 < 16 := Nat.mod_lt _ (by decide)
  have frame := targetsSet_frame (s := s) (g := s.fld (aPwr 4) 27 24) s.tiles
  have target (t : Nat) (there : t ∈ s.tiles) := tileTarget_targetsSet (s := s) nibble s.tiles (tiles_low there) (.inl there)
  have step : Stepped (atStep (targetsSet s (s.fld (aPwr 4) 27 24) s.tiles) 9) 9 :=
    ⟨rfl, by rw [frame]; exact long, by rw [frame]; exact accs⟩
  rw [bootStep_eight eight, bootTiles_held held]
  refine ⟨?_, fun t there => ?_⟩
  · rw [step.settled]
    exact upkeep_boot_nine step.boot
  · exact (tileTarget_congr (settled_reg step.long step.accs (by decide))).trans (target t there)

theorem bootDone_all (first : 1 ≤ s.power.boot) (last : s.power.boot ≤ 8) (long : s.mgmt.long = none) (accs : s.mgmt.accs = []) :
    BootDone s (settle (bootStep s true)) s.power.boot := by
  generalize at_ : s.power.boot = b at *
  interval_cases b
  · exact bootDone_one at_ long accs
  · exact bootDone_two at_ long accs
  · exact bootDone_three at_ long accs
  · exact bootDone_four at_ long accs
  · exact bootDone_five at_ long accs
  · exact bootDone_six at_ long accs
  · exact bootDone_seven at_ long accs
  · exact bootDone_eight at_ long accs

end

end Sys2Proof.Machine
end

section
/-! SUPPORT. O56: the steps of a tile's bring-in (R69, R83, R505). -/

namespace Sys2Proof.Machine

/-! ### Where a device that serves stands -/

/-- No operation and no access waits, boot has ended, and no tile is retired. -/
structure Serving (s : State) : Prop where
  long : s.mgmt.long = none
  accs : s.mgmt.accs = []
  boot : s.power.boot = 10
  serves : ∀ k ∈ s.tiles, tileRetired s k = false

/-- The executor, boot and the tiles' mirrors are as before. -/
structure StillServing (s u : State) : Prop where
  part : u.part = s.part
  long : u.mgmt.long = s.mgmt.long
  accs : u.mgmt.accs = s.mgmt.accs
  boot : u.power.boot = s.power.boot
  mirror : ∀ k, k < 8 → u.reg (aMir k 12) = s.reg (aMir k 12)

section
variable {s u v : State} {t : Nat}

theorem StillServing.refl (s : State) : StillServing s s := ⟨rfl, rfl, rfl, rfl, fun _ _ => rfl⟩

theorem StillServing.trans (first : StillServing s u) (second : StillServing u v) : StillServing s v :=
  ⟨second.part.trans first.part, second.long.trans first.long, second.accs.trans first.accs, second.boot.trans first.boot,
    fun k low => (second.mirror k low).trans (first.mirror k low)⟩

theorem stillServing_confined (work : Confined t s u) : StillServing s u := by
  obtain ⟨frame, -⟩ := work.only
  exact ⟨by rw [frame], by rw [frame], by rw [frame], by rw [frame],
    fun k low => work.regs _ (apartReg_hub (by have := aMir_low (j := 12) low (by decide); omega))⟩

theorem stillServing_setReg {a : Nat} (w : Word) (high : 0x2000 ≤ a) : StillServing s (s.setReg a w) :=
  ⟨rfl, rfl, rfl, rfl, fun k low => State.setReg_reg_ne _ _ (by have := aMir_low (j := 12) low (by decide); omega)⟩

theorem stillServing_setBring (n : Nat) : StillServing s (setBring s t n) := ⟨rfl, rfl, rfl, rfl, fun _ _ => rfl⟩

theorem stillServing_setGoal (g : Option Nat) : StillServing s (setGoal s t g) := ⟨rfl, rfl, rfl, rfl, fun _ _ => rfl⟩

/-- Nothing is left to settle. -/
theorem Serving.settle_same (serving : Serving s) (still : StillServing s u) : settle u = u := by
  refine Machine.settle_same (still.long.trans serving.long) (still.accs.trans serving.accs)
    (by rw [still.boot, serving.boot]; decide) fun k there => .inl ?_
  have mine : k ∈ s.tiles := by
    rw [State.tiles, ← still.part]
    exact there
  refine Eq.trans ?_ (serving.serves k mine)
  exact congrArg (BitVec.getLsbD · 8) (still.mirror k (tiles_low mine))

/-! ### The tile's way and its bring-in -/

theorem bringOf_setBring (n : Nat) : bringOf (setBring s t n) t = n := Tab.at_to_self 0 s.power.bring t n

theorem bringOf_setGoal (g : Option Nat) : bringOf (setGoal s t g) t = bringOf s t := rfl

theorem goalOf_setGoal (g : Option Nat) : goalOf (setGoal s t g) t = g := Tab.at_to_self none s.power.goal t g

theorem pwrTile_setPwrTile {g : Nat} (low : t < 8) (four : g < 16) : pwrTile (setPwrTile s t g) t = g := by
  rw [pwrTile, setPwrTile, State.fld_setF_self _ _ (by omega), show 4 * t + 3 + 1 - 4 * t = 4 by omega]
  exact Nat.mod_eq_of_lt four

theorem pwrTile_same (same : u.reg (aPwr 8) = s.reg (aPwr 8)) : pwrTile u t = pwrTile s t :=
  congrArg (fld · (4 * t + 3) (4 * t)) same

theorem pwrTile_ways (n : Nat) (g : Option Nat) : pwrTile (setGoal (setBring s t n) t g) t = pwrTile s t := rfl

/-- A tile that has come to a state stands there, with no way and no bring-in. -/
theorem arrived_effect {g : Nat} (low : t < 8) (four : g < 16) : bringOf (arrived s t g) t = 0 ∧ goalOf (arrived s t g) t = none ∧
    pwrTile (arrived s t g) t = g :=
  ⟨(bringOf_setGoal _).trans (bringOf_setBring 0), goalOf_setGoal none, (pwrTile_ways 0 none).trans (pwrTile_setPwrTile low four)⟩

theorem stillServing_arrived (g : Nat) : StillServing s (arrived s t g) :=
  ((stillServing_setReg (a := aPwr 8) _ (by decide)).trans (stillServing_setBring 0)).trans (stillServing_setGoal none)

/-! ### The steps before and beside the format check -/

section
variable {b : Nat} {ok : Bool} {cs : List (Nat × Payload)}

theorem bringIn_run (tile : s.hasTile t = true) : exec (.tileBringInStep t ok cs) s = .next (settle (bringStep s t ok cs)) :=
  onTile_next tile

theorem bringStep_waits : bringStep s t false cs = s := rfl

theorem bringStep_true : bringStep s t true cs =
    if bringOf s t = 5 then bringFormat s t cs
    else if bringOf s t = 7 then
      if (List.range 4).any fun c => decide ((s.ctl t c).retract ≠ 0) then s
      else if s.power.boot < 9 then setBring (moOff s t) t 0
      else irqEdge (setBring (moReset s t) t 1) 0 (24 + t)
    else if bringOf s t = 2 then bringAgree s t
    else if bringOf s t = 3 then (if speedOk s t 0 ∧ spnState s t = 6 then bringSpun s t else s)
    else if bringOf s t = 4 then setBring s t 5
    else if bringOf s t = 6 then bringServe s t
    else if bringOf s t = 8 then setBring s t (if s.fld (aTile t 0x108) 1 0 = 1 then 6 else 5)
    else s := rfl

theorem bringStep_early (early : bringOf s t = 0 ∨ bringOf s t = 1) : bringStep s t ok cs = s := by
  cases ok
  · rfl
  · rw [bringStep_true]
    rcases early with none | first
    · rw [none]
      rfl
    · rw [first]
      rfl

theorem bringStep_three (three : bringOf s t = 3) : bringStep s t true cs =
    if speedOk s t 0 = true ∧ spnState s t = 6 then bringSpun s t else s := by
  rw [bringStep_true, three]
  rfl

theorem bringStep_four (four : bringOf s t = 4) : bringStep s t true cs = setBring s t 5 := by
  rw [bringStep_true, four]
  rfl

theorem bringStep_five (five : bringOf s t = 5) : bringStep s t true cs = bringFormat s t cs := by
  rw [bringStep_true, five]
  rfl

theorem bringStep_six (six : bringOf s t = 6) : bringStep s t true cs = bringServe s t := by
  rw [bringStep_true, six]
  rfl

theorem bringStep_eight (eight : bringOf s t = 8) :
    bringStep s t true cs = setBring s t (if s.fld (aTile t 0x108) 1 0 = 1 then 6 else 5) := by
  rw [bringStep_true, eight]
  rfl

end

end

end Sys2Proof.Machine
end

section
/-! SUPPORT. O56: the format check of a bring-in, and the return to service (R69, R83, R96, R505). -/

namespace Sys2Proof.Machine

section
variable {s u : State} {t c h r : Nat} {cs : List (Nat × Payload)}

/-! ### FMTSTAT -/

/-- The result of a format check as FMTSTAT tells it. -/
def formatWord (c h r : Nat) : Word := place 15 14 c ||| place 12 8 h ||| place 1 0 r

theorem formatWord_cluster (low : c < 4) : fld (formatWord c h r) 15 14 = c := by
  rw [formatWord, fld_or, fld_or, fld_place_self _ (by decide), fld_place_ne _ (.inr (by decide)),
    fld_place_ne _ (.inr (by decide)), Nat.or_zero, Nat.or_zero]
  exact Nat.mod_eq_of_lt low

theorem formatWord_head (low : h < 24) : fld (formatWord c h r) 12 8 = h := by
  rw [formatWord, fld_or, fld_or, fld_place_self _ (by decide), fld_place_ne _ (.inl (by decide)),
    fld_place_ne _ (.inr (by decide)), Nat.zero_or, Nat.or_zero]
  exact Nat.mod_eq_of_lt (by omega)

theorem formatWord_result (low : r < 4) : fld (formatWord c h r) 1 0 = r := by
  rw [formatWord, fld_or, fld_or, fld_place_self _ (by decide), fld_place_ne _ (.inl (by decide)),
    fld_place_ne _ (.inl (by decide)), Nat.zero_or, Nat.zero_or]
  exact Nat.mod_eq_of_lt low

/-- The first good copy's result: 1 where its words are the tile's registers, 2 where they are not, 3 with no copy. -/
def formatResult (s : State) (t : Nat) (cs : List (Nat × Payload)) : Nat × Nat × Nat :=
  match formatHead s t cs with
  | some p => (if slice p.2.2 16 280 = recordWords s t then 1 else 2, p.1, p.2.1)
  | none => (3, 0, 0)

theorem formatCheck_eq : formatCheck s t cs =
    let r := formatResult s t cs
    let v := formatWord r.2.1 r.2.2 r.1
    let u := tileEdge (s.setReg (aTile t 0x108) v) t 249
    if r.1 = 1 then (u, true) else (owlTile u t 0x4001 (owlUnit t 0 0 0 0) 0 r.1 v.toNat 0, false) := rfl

/-- The check writes FMTSTAT and raises notices, and tells whether the record matches. -/
theorem formatCheck_effect : ∃ w, formatCheck s t cs = (w, decide ((formatResult s t cs).1 = 1)) ∧ Confined t
    (s.setReg (aTile t 0x108) (formatWord (formatResult s t cs).2.1 (formatResult s t cs).2.2 (formatResult s t cs).1)) w := by
  rw [formatCheck_eq]
  dsimp only
  generalize formatResult s t cs = r
  split
  · next one => exact ⟨_, by rw [decide_eq_true one], .tileEdge t 249⟩
  · next other =>
    exact ⟨_, by rw [decide_eq_false other], (Confined.tileEdge t 249).trans (.notices (owlTile_notices _ _ _ _ _ _ _))⟩

/-! ### The step of the format check -/

/-- Where a tile stands after its format check: on to the next step, or held. -/
structure FormatDone (s u : State) (t : Nat) (r : Nat × Nat × Nat) : Prop where
  still : StillServing s u
  word : u.reg (aTile t 0x108) = formatWord r.2.1 r.2.2 r.1
  on : r.1 = 1 → bringOf u t = 6
  held : r.1 ≠ 1 → bringOf u t = 0 ∧ goalOf u t = none

theorem aTile_high (o : Nat) : 0x2000 ≤ aTile t o := by
  unfold aTile tileBase
  omega

theorem bringOf_confined (work : Confined t s u) : bringOf u t = bringOf s t := by
  rw [bringOf, work.only.1, bringOf]

theorem bringFormat_checked (tile : t < 8) (ready : hasFormat s t = false ∨ trainedTo s t 1 = true) :
    FormatDone s (bringFormat s t cs) t (formatResult s t cs) := by
  obtain ⟨w, checked, noted⟩ := formatCheck_effect (s := s) (t := t) (cs := cs)
  have passes : ¬ (hasFormat s t = true ∧ (!trainedTo s t 1) = true) := by
    rcases ready with none | trained
    · rw [none]
      exact fun both => nomatch both.1
    · rw [trained]
      exact fun both => nomatch both.2
  have run : bringFormat s t cs = if decide ((formatResult s t cs).1 = 1) = true then
      (List.range 4).foldl (fun s c => trainMove s t c) (setBring w t 6) else setGoal (setBring w t 0) t none := by
    unfold bringFormat
    rw [if_neg passes, checked]
  rw [run]
  generalize formatResult s t cs = r at *
  have word : w.reg (aTile t 0x108) = formatWord r.2.1 r.2.2 r.1 :=
    (noted.regs _ (apartReg_format tile)).trans (State.setReg_reg ..)
  have still : StillServing s w := (stillServing_setReg _ (aTile_high _)).trans (stillServing_confined noted)
  by_cases one : r.1 = 1
  · rw [if_pos (decide_eq_true one)]
    have moved : Confined t (setBring w t 6) ((List.range 4).foldl (fun s c => trainMove s t c) (setBring w t 6)) :=
      .foldl (fun _ c => .trainMove c) _ _
    refine ⟨(still.trans (stillServing_setBring 6)).trans (stillServing_confined moved), ?_, fun _ => ?_,
      fun other => absurd one other⟩
    · exact (moved.regs _ (apartReg_format tile)).trans word
    · exact (bringOf_confined moved).trans (bringOf_setBring 6)
  · rw [if_neg (by rw [decide_eq_false one]; exact Bool.false_ne_true)]
    exact ⟨(still.trans (stillServing_setBring 0)).trans (stillServing_setGoal none), word, fun same => absurd same one,
      fun _ => ⟨bringOf_setBring 0, goalOf_setGoal none⟩⟩

/-! ### The return to service -/

theorem Confined.idleLane (l : Nat) : Confined t s (idleLane s t l) :=
  (((Confined.setLaneSt l 3).trans (.setReg _ (inTile_aLane l))).trans (.modLane t l _)).trans (.sleepIfAsked l)

theorem Confined.laneSleep (l : Nat) : Confined t s (laneSleep s t l) :=
  (Confined.setReg _ (inTile_aLane l)).trans (.sleepIfAsked l)

/-- A lane that was off is IDLE once the tile serves, or asleep where it is asked to sleep. -/
def woken (s : State) (t l : Nat) : Prop := laneSt s t l ∈ [1, 3]

theorem laneSt_same {l : Nat} (same : u.reg (aLane t l 4) = s.reg (aLane t l 4)) : laneSt u t l = laneSt s t l :=
  congrArg (fld · 3 0) same

theorem aLane_rate (l k : Nat) : aLane t l 4 ≠ aLane t k 8 := by
  unfold aLane
  omega

theorem aLane_other {l k : Nat} (other : l ≠ k) : aLane t l 4 ≠ aLane t k 4 := by
  unfold aLane
  omega

theorem laneSt_setReg_ne {a l : Nat} (w : Word) (other : aLane t l 4 ≠ a) : laneSt (s.setReg a w) t l = laneSt s t l :=
  laneSt_same (State.setReg_reg_ne s w other)

theorem laneSt_setLaneSt (l n : Nat) : laneSt (setLaneSt s t l n) t l = n % 16 := laneSt_setF_state n

theorem laneSt_setLaneSt_ne {l k : Nat} (n : Nat) (other : l ≠ k) : laneSt (setLaneSt s t k n) t l = laneSt s t l :=
  laneSt_setReg_ne _ (aLane_other other)

theorem laneSt_setRate (l k : Nat) : laneSt (setRate s t k) t l = laneSt s t l := laneSt_setReg_ne _ (aLane_rate l k)

theorem laneSt_modLane (l k : Nat) (f : LaneX → LaneX) : laneSt (s.modLane t k f) t l = laneSt s t l := rfl

theorem laneSt_modHead (l i : Nat) (f : HeadX → HeadX) : laneSt (s.modHead i f) t l = laneSt s t l := rfl

theorem sleepIfAsked_laneSt (l : Nat) : laneSt (sleepIfAsked s t l) t l = laneSt s t l ∨ laneSt (sleepIfAsked s t l) t l = 1 := by
  unfold sleepIfAsked
  dsimp only
  split
  · right
    split
    · rw [laneSt_setReg_ne _ (aLane_rate l l), laneSt_modHead, laneSt_modLane, laneSt_setLaneSt]
    · rw [laneSt_modHead, laneSt_modLane, laneSt_setLaneSt]
  · exact .inl rfl

theorem sleepIfAsked_other {l k : Nat} (other : l ≠ k) : laneSt (sleepIfAsked s t k) t l = laneSt s t l := by
  unfold sleepIfAsked
  dsimp only
  split
  · split
    · rw [laneSt_setReg_ne _ (aLane_rate l k), laneSt_modHead, laneSt_modLane, laneSt_setLaneSt_ne _ other]
    · rw [laneSt_modHead, laneSt_modLane, laneSt_setLaneSt_ne _ other]
  · rfl

theorem idleLane_woken (l : Nat) : woken (idleLane s t l) t l := by
  unfold idleLane
  have idle (f : LaneX → LaneX) : laneSt ((setRate (setLaneSt s t l 3) t l).modLane t l f) t l = 3 := by
    rw [laneSt_modLane, laneSt_setRate, laneSt_setLaneSt]
  generalize setRate (setLaneSt s t l 3) t l = v at *
  unfold woken
  rcases sleepIfAsked_laneSt (s := v.modLane t l fun x => { x with used := s.now }) (t := t) l with same | slept
  · rw [same, idle]
    decide
  · rw [slept]
    decide

theorem idleLane_other {l k : Nat} (other : l ≠ k) : laneSt (idleLane s t k) t l = laneSt s t l := by
  unfold idleLane
  rw [sleepIfAsked_other other, laneSt_modLane, laneSt_setRate, laneSt_setLaneSt_ne _ other]

/-- The lanes of a list that are off become IDLE. -/
def lanesIdled (s : State) (t : Nat) (ls : List Nat) : State :=
  ls.foldl (fun s l => if laneSt s t l = 0 then idleLane s t l else s) s

theorem lanesIdled_woken {l : Nat} (ls : List Nat) (off : l ∈ ls ∧ laneSt s t l = 0 ∨ woken s t l) :
    woken (lanesIdled s t ls) t l := by
  induction ls generalizing s with
  | nil => exact off.resolve_left fun both => List.not_mem_nil both.1
  | cons k ls ih =>
    refine ih ?_
    by_cases mine : l = k
    · subst mine
      right
      dsimp only
      split
      · exact idleLane_woken l
      · next on => exact off.resolve_left fun both => on both.2
    · have same : laneSt (if laneSt s t k = 0 then idleLane s t k else s) t l = laneSt s t l := by
        split
        · exact idleLane_other mine
        · rfl
      dsimp only
      unfold woken at *
      rw [same]
      exact off.imp_left fun both => ⟨(List.mem_cons.1 both.1).resolve_left mine, both.2⟩

theorem Confined.lanesIdled (ls : List Nat) : Confined t s (lanesIdled s t ls) :=
  .foldl (fun _ _ => .ite (fun _ => .idleLane _) fun _ => .refl _) _ _

theorem bringServe_trained (trained : trainedTo s t (fmtZones s t) = true) : bringServe s t =
    let u := lanesIdled (arrived s t (aimOf s t)) t (List.range 192)
    if aimOf s t = 1 then (List.range 192).foldl (fun s l => laneSleep s t l) u else u :=
  if_neg (by rw [trained]; decide)

theorem aimOf_lt : aimOf s t < 16 := Nat.lt_of_le_of_lt (Nat.min_le_right _ _) (by decide)

theorem laneSt_ways (l n : Nat) (g : Option Nat) : laneSt (setGoal (setBring s t n) t g) t l = laneSt s t l := rfl

/-- A tile that is trained serves in the state it was aimed at. -/
theorem bringServe_effect (tile : t < 8) (trained : trainedTo s t (fmtZones s t) = true) :
    StillServing s (bringServe s t) ∧ bringOf (bringServe s t) t = 0 ∧ goalOf (bringServe s t) t = none ∧
      pwrTile (bringServe s t) t = aimOf s t ∧
      (aimOf s t ≠ 1 → ∀ l, l < 192 → laneSt s t l = 0 → woken (bringServe s t) t l) := by
  have arrives := stillServing_arrived (s := s) (t := t) (aimOf s t)
  obtain ⟨bring, goal, stands⟩ := arrived_effect (s := s) (g := aimOf s t) tile aimOf_lt
  have off (l : Nat) : laneSt (arrived s t (aimOf s t)) t l = laneSt s t l :=
    (laneSt_ways _ _ _).trans (laneSt_setReg_ne _ (by unfold aLane tileBase aPwr; omega))
  rw [bringServe_trained trained]
  dsimp only
  generalize arrived s t (aimOf s t) = v at *
  have idled := Confined.lanesIdled (t := t) (s := v) (List.range 192)
  have done : Confined t v (if aimOf s t = 1 then
      (List.range 192).foldl (fun s l => laneSleep s t l) (lanesIdled v t (List.range 192)) else lanesIdled v t (List.range 192)) :=
    .ite (fun _ => idled.trans (.foldl (fun _ _ => .laneSleep _) _ _)) fun _ => idled
  refine ⟨arrives.trans (stillServing_confined done), (bringOf_confined done).trans bring, ?_, ?_, fun other l range zero => ?_⟩
  · rw [goalOf, done.only.1]
    exact goal
  · exact (pwrTile_same (done.regs _ (apartReg_hub (by decide)))).trans stands
  · rw [if_neg other]
    exact lanesIdled_woken _ (.inl ⟨List.mem_range.2 range, (off l).trans zero⟩)

end

end Sys2Proof.Machine
end

section
/-! SUPPORT. O56: the reset and boot rows together (R69, R83, R467, R472 to R474, R497, R501, R503 to R506). -/

namespace Sys2Proof.Machine

section
variable {s : State} {t b : Nat} {cs : List (Nat × Payload)}

/-! ### The rows of boot -/

theorem bootRow_waits (test : s.power.testEn = false) (last : s.power.boot ≤ 8) (long : s.mgmt.long = none)
    (accs : s.mgmt.accs = []) (bring : s.power.bring = []) (goal : s.power.goal = []) (other : s.power.boot ≠ 3) :
    exec (.bootStep false) s = .next s := by
  rw [bootStep_run test, bootStep_waits other, settle_same long accs (by omega) fun t _ => .inr (ways_none bring goal t)]

/-! ### The rows of the bring-in -/

theorem bringRow (tile : s.hasTile t = true) {ok : Bool} (serving : Serving s) (still : StillServing s (bringStep s t ok cs)) :
    exec (.tileBringInStep t ok cs) s = .next (bringStep s t ok cs) := by
  rw [bringIn_run tile, serving.settle_same still]

theorem bringRow_same (tile : s.hasTile t = true) {ok : Bool} (serving : Serving s) (same : bringStep s t ok cs = s) :
    exec (.tileBringInStep t ok cs) s = .next s := by
  rw [bringIn_run tile, same, serving.settle_same (.refl s)]

theorem bringRow_spinning (tile : s.hasTile t = true) (serving : Serving s) (three : bringOf s t = 3)
    (slow : speedOk s t 0 = false ∨ spnState s t ≠ 6) : exec (.tileBringInStep t true cs) s = .next s := by
  refine bringRow_same tile serving ((bringStep_three three).trans (if_neg ?_))
  rintro ⟨speed, at_⟩
  rcases slow with early | other
  · rw [early] at speed
    cases speed
  · exact other at_

theorem bringRow_spun (tile : s.hasTile t = true) (serving : Serving s) (three : bringOf s t = 3) (speed : speedOk s t 0 = true)
    (at_ : spnState s t = 6) (aim : aimOf s t = 2) : ∃ u, exec (.tileBringInStep t true cs) s = .next u ∧
      bringOf u t = 0 ∧ goalOf u t = none ∧ pwrTile u t = 2 := by
  have step : bringStep s t true cs = arrived s t 2 :=
    ((bringStep_three three).trans (if_pos ⟨speed, at_⟩)).trans (if_pos aim)
  have run := bringRow (cs := cs) tile serving (by rw [step]; exact stillServing_arrived 2)
  rw [step] at run
  exact ⟨_, run, arrived_effect (hasTile_lt tile) (by decide)⟩

theorem bringRow_next (tile : s.hasTile t = true) (serving : Serving s) {n : Nat} (step : bringStep s t true cs = setBring s t n) :
    exec (.tileBringInStep t true cs) s = .next (setBring s t n) := by
  have run := bringRow (cs := cs) tile serving (by rw [step]; exact stillServing_setBring n)
  rwa [step] at run

theorem bringRow_untrained (tile : s.hasTile t = true) (serving : Serving s) (five : bringOf s t = 5)
    (format : hasFormat s t = true) (untrained : trainedTo s t 1 = false) :
    exec (.tileBringInStep t true cs) s = .next s := by
  refine bringRow_same tile serving ((bringStep_five five).trans (if_pos ⟨format, ?_⟩))
  rw [untrained]
  rfl

theorem formatDone_copy {u : State} {c h : Nat} {w : Payload} (done : FormatDone s u t (formatResult s t cs))
    (copy : formatHead s t cs = some (c, h, w)) (cluster : c < 4) (head : h < 24) : u.fld (aTile t 0x108) 15 14 = c ∧
      u.fld (aTile t 0x108) 12 8 = h ∧
      (slice w 16 280 = recordWords s t → bringOf u t = 6 ∧ u.fld (aTile t 0x108) 1 0 = 1) ∧
      (slice w 16 280 ≠ recordWords s t → bringOf u t = 0 ∧ goalOf u t = none ∧ u.fld (aTile t 0x108) 1 0 = 2) := by
  have result : formatResult s t cs = (if slice w 16 280 = recordWords s t then 1 else 2, c, h) := by
    simp only [formatResult, copy]
  obtain ⟨-, word, on, held⟩ := done
  rw [result] at word on held
  simp only [State.fld, word]
  refine ⟨formatWord_cluster cluster, formatWord_head head, fun same => ?_, fun other => ?_⟩
  · rw [if_pos same] at on ⊢
    exact ⟨on rfl, formatWord_result (by decide)⟩
  · rw [if_neg other] at held ⊢
    obtain ⟨bring, goal⟩ := held (show 2 ≠ 1 by decide)
    exact ⟨bring, goal, formatWord_result (by decide)⟩

theorem formatDone_none {u : State} (done : FormatDone s u t (formatResult s t cs)) (none_ : formatHead s t cs = none) :
    bringOf u t = 0 ∧ goalOf u t = none ∧ u.fld (aTile t 0x108) 1 0 = 3 := by
  have result : formatResult s t cs = (3, 0, 0) := by simp only [formatResult, none_]
  obtain ⟨-, word, -, held⟩ := done
  rw [result] at word held
  rw [State.fld, word]
  exact ⟨(held (by decide)).1, (held (by decide)).2, formatWord_result (by decide)⟩

theorem bringRow_format (tile : s.hasTile t = true) (serving : Serving s) (five : bringOf s t = 5)
    (ready : hasFormat s t = false ∨ trainedTo s t 1 = true) : ∃ u, exec (.tileBringInStep t true cs) s = .next u ∧
      FormatDone s u t (formatResult s t cs) := by
  have done := bringFormat_checked (cs := cs) (hasTile_lt tile) ready
  have run := bringRow (cs := cs) tile serving (by rw [bringStep_five five]; exact done.still)
  rw [bringStep_five five] at run
  exact ⟨_, run, done⟩

theorem bringRow_zones (tile : s.hasTile t = true) (serving : Serving s) (six : bringOf s t = 6)
    (untrained : trainedTo s t (fmtZones s t) = false) : exec (.tileBringInStep t true cs) s = .next s := by
  refine bringRow_same tile serving ((bringStep_six six).trans (if_pos ?_))
  rw [untrained]
  rfl

theorem bringRow_serves (tile : s.hasTile t = true) (serving : Serving s) (six : bringOf s t = 6)
    (trained : trainedTo s t (fmtZones s t) = true) : ∃ u, exec (.tileBringInStep t true cs) s = .next u ∧ bringOf u t = 0 ∧
      goalOf u t = none ∧ pwrTile u t = aimOf s t ∧
      (aimOf s t ≠ 1 → ∀ l, l < 192 → laneSt s t l = 0 → tLane s t l = false → laneSt u t l ∈ [1, 3]) := by
  obtain ⟨still, bring, goal, stands, lanes⟩ := bringServe_effect (hasTile_lt tile) trained
  have run := bringRow (cs := cs) tile serving (by rw [bringStep_six six]; exact still)
  rw [bringStep_six six] at run
  exact ⟨_, run, bring, goal, stands, fun other l range off _ => lanes other l range off⟩

end

/-- Settles O56. The rows that end flash operations, check versions, reset the hub or a tile and lose everything are the
model's equations read off; PORST_N, boot and the bring-in rest on what their steps leave: nothing a step works on is
the executor's, boot's or a mirror's (`Loads`, `HubWork`, `Confined`), so that settling changes nothing after it. -/
theorem deviceResetsAndBoots : Obligations.DeviceResetsAndBoots := by
  unfold Obligations.DeviceResetsAndBoots
  intro s
  refine ⟨agreementCheck_idle, fun t => agreementCheck_agrees, optimeWrite_effect, fun ok idle => ⟨?_, ?_, ?_⟩, resetStart_none,
    hubSoftReset_ignored, fun x row => ?_, fun t tile => tileReset_row tile, fun x b row => ?_, fun h => testEnable_same,
    fun ns => pins_ignored, fun ns long test on => ⟨fun low => ?_, fun x k row unloaded windows => ?_⟩, fun ok => bootStep_test,
    ?_, ?_⟩
  · exact fun long => (flashOperationDone_idle idle long).1
  · exact fun long => (flashOperationDone_idle idle long).2
  · exact fun m f long port => flashOperationDone_mine idle long port
  · obtain ⟨u, run, left⟩ := softReset_rows row
    exact ⟨u, run, left.cmds, left.waiting, left.long, left.last⟩
  · obtain ⟨u, run, cold, flash, other⟩ := cold_rows row
    exact ⟨u, run, cold.regs, cold.slots, cold.cmds, cold.buf, cold.tl, cold.boot, cold.zones, cold.recorded, cold.reached,
      cold.now, cold.pfail, cold.key, flash, other⟩
  · rw [(pins_heed long test on).2, if_pos low]
  · have left (kind : Nat) (low : kind < 16) : PinLeft s (pinReset s kind) kind := pinReset_left low unloaded windows
    have reset : exec x s = .next (pinReset s k) ∧ k < 16 := by
      rcases row with ⟨rfl, rfl⟩ | ⟨rfl, rfl, high⟩
      · exact ⟨(pins_heed long test on).1, by decide⟩
      · rw [(pins_heed long test on).2, if_neg (by rw [high]; exact Bool.false_ne_true)]
        exact ⟨rfl, by decide⟩
    obtain ⟨run, low⟩ := reset
    have l := left k low
    exact ⟨_, run, l.boot, l.kind, l.cmds, l.buf, l.waiting, l.long, l.slots, l.last, l.porst, l.warm, l.flash, l.recorded⟩
  · rintro b rfl test first last long accs bring goal
    have done := bootDone_all first last long accs
    refine ⟨bootRow_waits test last long accs bring goal, fun ok three => ?_, _, bootStep_run test, done.next, done.pins,
      done.core, done.media, done.ports, done.tiles⟩
    exact ⟨_, bootStep_run test, bootStep_three three long accs⟩
  · rintro t b cs tile rfl long accs boot serves
    have serving : Serving s := ⟨long, accs, boot, serves⟩
    refine ⟨fun ok early => bringRow_same tile serving (bringStep_early early), bringRow_same tile serving bringStep_waits,
      bringRow_spinning tile serving, bringRow_spun tile serving, fun four => bringRow_next tile serving (bringStep_four four),
      fun eight => bringRow_next tile serving (bringStep_eight eight), bringRow_untrained tile serving, fun five ready => ?_,
      bringRow_zones tile serving, bringRow_serves tile serving⟩
    obtain ⟨u, run, done⟩ := bringRow_format (cs := cs) tile serving five ready
    exact ⟨u, run, fun c h w copy cluster head => formatDone_copy done copy cluster head, formatDone_none done⟩

end Sys2Proof.Machine
end
